-- ==== Sys2Proof/Word.lean ====
section
/-! DEFINITION. Words of the block: registers are 64 bits (R12), memory is bytes, addresses have 48 bits (R519). -/

namespace Sys2Proof

/-- A register value (R12). -/
abbrev Word := BitVec 64

/-- One byte of memory. -/
abbrev Byte := BitVec 8

/-- A physical address (R519). -/
abbrev Addr := BitVec 48

end Sys2Proof
end

