-- ==== Sys2Proof/Syntax.lean ====
section
/-! DEFINITION. The commands of the block: one constructor of `Instr` per row of the table of operations and
events, with the row's operands. A row that a register write starts carries the value written. -/

namespace Sys2Proof

/-- Who makes an access (R99, R440, R491). -/
inductive Agent where
  | core | coreSecure | pcie | steward
  /-- The board, through the I3C target (R507, R516). -/
  | i3c
  | other
deriving DecidableEq, Repr

/-- What a memory's code reports for one read (R217 to R219). -/
inductive Ecc where
  | clean
  /-- A corrected error in the bit or symbol named. -/
  | corrected (symbol : BitVec 7)
  | uncorrectable
deriving DecidableEq, Repr

/-- An error that a read meets, by the word or line that holds it (R210, R217 to R219). -/
inductive MemError where
  /-- The line or word at a physical address. -/
  | stored (addr : BitVec 48) (ecc : Ecc)
  /-- The metadata word of the tier-1 line at an address. -/
  | metadata (addr : BitVec 48) (ecc : Ecc)
  /-- A word of an engine's operand buffer, by its byte offset. -/
  | operand (engine : Fin 8) (offset : BitVec 24) (ecc : Ecc)
  /-- A word of the cluster's Press buffer, by its byte offset. -/
  | press (offset : BitVec 24) (ecc : Ecc)
deriving DecidableEq, Repr

/-- The paths of Table 2.7, in its order. -/
inductive ResiduePath where
  | product | accumulator | combining | adder | conversion | vector
deriving DecidableEq, Repr

/-- A fault in an engine's result (R81, R82; syndromes of Table 10.5). -/
inductive CheckFault where
  /-- The value on `path` is off by `error`, and the checker's prediction by `checker` (R84), at output element `elem` and,
  for a product or an accumulator, K index `k`. The check fails unless the two agree mod 31 (R85). -/
  | residue (lane : BitVec 6) (path : ResiduePath) (elem k : Nat) (error checker : Int)
  | duplicate (lane : BitVec 6) (group : BitVec 2)
  | parity (byteLane : BitVec 6) (point : BitVec 5)
deriving DecidableEq, Repr

/-- A fault in a Press job (R339, R343; syndromes of Table 10.5). -/
inductive PressFault where
  /-- The value of result element `elem` is off by `error` in an adder of `lane`, and the checker's prediction by `checker`
  (R84, R85). -/
  | residue (lane : BitVec 6) (elem : Nat) (error checker : Int)
  | duplicate (lane : BitVec 6) (group : BitVec 2)
  | parity (byteLane : BitVec 6) (point : BitVec 5)
  /-- The two runs of twin mode differ. -/
  | twin (lane : BitVec 6) (flags : Bool) (elem : BitVec 16)
deriving DecidableEq, Repr

/-- What stops a slice's evaluation (R290, R291). A store error may lie in the follower of a pair. -/
inductive SliceFault where
  /-- Lowest output that differs, 15 where none does; lowest code that differs, 0xFFF where none does. -/
  | twinMismatch (output : BitVec 4) (code : BitVec 12)
  | leafUncorrectable (follower : Bool) (syndrome : BitVec 64)
  | storeParity (follower : Bool) (syndrome : BitVec 64)
deriving DecidableEq, Repr

/-- Memories named by the memory syndrome of Table 10.5. -/
inductive MemKind where
  | operandBuffer | scratchpad | grotto | pressBuffer | nts | lineMetadata | hbm | ddr | leafStore
deriving DecidableEq, Repr

/-- A data message of another package (R458). -/
structure DataMsg where
  dest : BitVec 13
  src : BitVec 13
  die : Fin 4
  event : Fin 4096
  addr : BitVec 48
  step : BitVec 32
  epoch : BitVec 32
  data : List Byte
deriving DecidableEq, Repr

/-- What an Obcor link sees of its partner while it trains (R460, Table 13.12). -/
structure TrainResult where
  signal : Bool
  equalised : Bool
  fleet : BitVec 16
  versions : BitVec 4
  index : BitVec 13
  role : BitVec 2
  serial : BitVec 128
  lanesPass : BitVec 8
deriving DecidableEq, Repr

/-- What a servo makes of a measurement (R315): its frequency estimate and the rate it adds to it, both in 2⁻³² ns per
ns. -/
structure ServoRate where
  freq : BitVec 32
  slew : BitVec 32
deriving DecidableEq, Repr

/-- What the steward's protocol engine makes of the ordinary-clock message it takes from the PTP ring (R319): the
measured offset where the message completes a measurement, the best-master decision. -/
structure PtpMsg where
  offset : Option Int
  rate : ServoRate
  portState : BitVec 4
deriving DecidableEq, Repr

/-- A time flit (R458): its send time, the send time of the last time flit its sender received, and that flit's receive
time. -/
structure TimeFlit where
  send : BitVec 64
  echoSend : BitVec 64
  echoReceive : BitVec 64
deriving DecidableEq, Repr

/-- A lane of an in-package link: its group and its place in it; 32 is the group's spare lane (Table 1.2). -/
structure LaneId where
  group : Fin 32
  lane : Fin 33
deriving DecidableEq, Repr

/-- One copy of the steward firmware: its bytes, the signature block (Table 3.5) last, and the versions they state, whose
place in them is open (log entry 110). -/
structure FirmwareCopy where
  version : BitVec 32
  securityVersion : BitVec 32
  bytes : List Byte
deriving DecidableEq, Repr

/-- An uncorrectable memory error of phase DIES, or of phase SCREEN, and whether it recurs on the reread (R514). -/
structure BootError where
  addr : BitVec 48
  recurs : Bool
  screen : Bool
deriving DecidableEq, Repr

/-- What the board and the silicon answer during start-up (Table 15.3). -/
structure BootOutcome where
  /-- The PWR_GOOD and RESET_N balls have risen (R503, R504). -/
  pwrGood : Bool
  resetN : Bool
  /-- The PCIE_MODE ball at time 0: root port (R504). -/
  pcieRoot : Bool
  /-- Phase in which the command leaves start-up (Table 15.3): one command may run a part of the phases. -/
  upTo : Fin 11
  pllLock : Bool
  pair0 : Bool
  pair1 : Bool
  /-- Steward firmware in the board's SPI NOR (Table 15.1). -/
  copyA : FirmwareCopy
  copyB : FirmwareCopy
  /-- Public keys in the board's SPI NOR, X then Y, by slot (Table 15.1). -/
  keys : List (Fin 10 × List Byte)
  /-- Start-up record, 168 bytes (Table 15.2). -/
  bootRecord : List Byte
  /-- Loader code and its signature block. -/
  loader : List Byte
  /-- Lanes that fail the training, by link (Table 11.2 order). -/
  lanesFailed : List (Fin 10 × LaneId)
  stacksFailed : List (Fin 20)
  /-- Channels whose DIMM trained, with its capacity in GiB. -/
  channels : List (Fin 16 × BitVec 9)
  memErrors : List BootError
  /-- Units, by key, that fail the quick screen. -/
  screenFails : List (BitVec 32)
  /-- Milliseconds from time 0 to the end of the command. -/
  elapsedMs : BitVec 32
deriving DecidableEq, Repr

/-- Samples of one meter channel that read the same (R483): its voltage, its current (on channels 14 and 15 the shunt's
voltage in µV), and how many they are. The units are the model's (DESIGN CHOICE, log entry 227). -/
structure MeterRun where
  channel : Fin 16
  millivolts : Nat
  milliamps : Nat
  samples : Nat
deriving DecidableEq, Repr

/-- One 1 s interval of the meter (R483, R485). A channel that no run names has its sense pair open. -/
structure MeterInterval where
  runs : List MeterRun
  /-- Seal breaks detected in the interval. -/
  sealBreaks : Nat
deriving DecidableEq, Repr

/-- One part of an ASSIGN (Table 13.14). -/
structure AssignPart where
  setId : BitVec 32
  part : Nat
  parts : Nat
  dpRank : BitVec 16
  groupRank : BitVec 6
  imageId : BitVec 64
  interval : BitVec 16
  enable : Bool
  members : List (BitVec 13)
  /-- Links towards packages, as the manager has assigned them (R462, R472). -/
  routes : List (BitVec 13 × Fin 16)
deriving DecidableEq, Repr

/-- Bytes that an agent stores, and whether they carry poison (R340). -/
structure StoreData where
  bytes : List Byte
  poisoned : Bool
deriving DecidableEq, Repr

/-- SRC and DEST of a check token (R458). -/
structure TokenEnds where
  src : BitVec 13
  dest : BitVec 13
deriving DecidableEq, Repr

/-- Where an access goes: to the physical map, or, from a host, to the MSI-X table and pending bits in BAR 4/5 or to
configuration space (R455, R509). -/
inductive Space where
  | map | msix | config
deriving DecidableEq, Repr

/-- An access: the bytes of a write, or the errors that a read meets. -/
structure MapAccess where
  space : Space
  write : Option (List Byte)
  ecc : List MemError
deriving DecidableEq, Repr

/-- What an entry's run meets: a fault in the result of one engine, and the errors of its reads. -/
structure EntryEvents where
  fault : Option (Fin 8 × CheckFault)
  ecc : List MemError
deriving DecidableEq, Repr

/-- The Press of a cluster. -/
structure PressSite where
  die : Fin 4
  cluster : Fin 16
deriving DecidableEq, Repr

/-- What a Press job meets: the errors of its reads, and a fault in its result. -/
structure PressEvents where
  ecc : List MemError
  fault : Option PressFault
deriving DecidableEq, Repr

/-- A table's pending bank, and what its application meets: the errors of its reads, and a fault in one cluster's Press. -/
structure BankApply where
  table : Fin 256
  ecc : List MemError
  fault : Option (Fin 16 × PressFault)
deriving DecidableEq, Repr

/-- A stream whose next chunk is written, and the errors that the read of its ring slot meets (R197, R217). -/
structure ChunkWrite where
  stream : Fin 16
  ecc : List MemError
deriving DecidableEq, Repr

/-- A refresh window's temperature, and what its patrol read and its read of the error marks meet (R221, R227). -/
structure RefreshVisit where
  temp : BitVec 16
  patrol : Ecc
  marks : Ecc
deriving DecidableEq, Repr

/-- What a port half sees of a frame besides its bytes: a PHY error, FEC codewords corrected and uncorrectable, and the
syndrome of a parity fault in the datapath (R270, R339). -/
structure Reception where
  phyError : Bool
  fecCorrected : Nat
  fecUncorrected : Nat
  parity : Option (BitVec 6)
deriving DecidableEq, Repr

/-- What a slice's evaluation meets: what stops it, and the errors of its reads of memory. -/
structure SliceEvents where
  fault : Option SliceFault
  ecc : List MemError
deriving DecidableEq, Repr

/-- A time flit and whether its sender's servo is LOCKED (R317, R458). -/
structure TimeExchange where
  locked : Bool
  flit : TimeFlit
deriving DecidableEq, Repr

/-- The end of a step copy: how long the seam was held, and the errors of the copy's reads. -/
structure CopyEnd where
  holdNs : Nat
  ecc : List MemError
deriving DecidableEq, Repr

/-- The end of a snapshot copy: a hardware fault, and the errors of the copy's reads. -/
structure SnapEnd where
  hwFault : Bool
  ecc : List MemError
deriving DecidableEq, Repr

/-- How a die's reset ends: whether it succeeds, the stacks that fail their training, and the tier-1 lines that are found
uncorrectable while they are copied (R211). -/
structure DieResetEnd where
  ok : Bool
  stacksFailed : List (Fin 20)
  badLines : List (BitVec 48)
deriving DecidableEq, Repr

/-- A transmit ring whose next entry is taken, and the errors of the reads of its frame. -/
structure TxTake where
  ring : Fin 256
  ecc : List MemError
deriving DecidableEq, Repr

/-- The embedding sums of an echo report, by table (R356). -/
structure EchoSums where
  ledgers : List (Fin 256 × BitVec 128)
  values : List (Fin 256 × BitVec 64)
deriving DecidableEq, Repr

/-- What a manager mirrors to its standby: job sets, routes and verdicts (R465). -/
structure MirrorMsg where
  sets : List (BitVec 32 × List (BitVec 13))
  routes : List (BitVec 13 × Fin 16)
  verdicts : List (BitVec 13 × BitVec 2 × BitVec 64)
deriving DecidableEq, Repr

/-- The commands. -/
inductive Instr where
  | registerWrite (agent : Agent) (addr : Addr) (size : Nat) (value : Word)
  | flitRetry (link : Fin 10) (far again : Bool)
  | linkRetrain (link : Fin 10) (failed : List LaneId)
  | laneErrorWindow (link : Fin 10) (lane : LaneId) (errors : Nat)
  | crossingSlip (xing : Fin 9) (aclk : Nat)
  | loadFull (value : Word)
  | loadPartial (value : Word)
  | loadCheck (value : Word)
  | loadUnload (value : Word)
  | loadCheckDone
  | loadDistribute (hwFault : Bool)
  | loadDistributionDone (hwFault : Bool)
  | partialReloadDone (hwFault : Bool)
  | hubModelSwap
  | protectedWrite (agent : Agent) (addr : Addr) (data : StoreData)
  | runStart (value : Word)
  | runStartAt (value : Word)
  | atLaunch
  | runStop (value : Word)
  | runAbort (value : Word)
  | stepSeam
  | commitRequest (bySteward : Bool) (value : Word)
  | commitCheckDone
  | commitApply (group : BitVec 20)
  | scheduleEntryIssue (die : Fin 4) (cluster : Fin 16) (core : Fin 8)
  | entryComplete (die : Fin 4) (cluster : Fin 16) (core : Fin 8) (entry : Nat) (events : EntryEvents)
  | lookup (die : Fin 4) (cluster : Fin 16) (ecc : List MemError) (fault : Option PressFault)
  | combine (site : PressSite) (events : PressEvents)
  | ownerPartArrival (die : Fin 4) (cluster : Fin 16)
  | update (die : Fin 4) (cluster : Fin 16) (events : PressEvents)
  | pendingBankApply (die : Fin 4) (bank : BankApply)
  | exportJob (site : PressSite) (events : PressEvents)
  | exportRegionWritable (slot : Fin 64)
  | exportComplete (slot : Fin 64)
  | pressJobComplete (die : Fin 4) (cluster : Fin 16)
  | ntsSwitch (value : Word)
  | ntsRevert (value : Word)
  | streamChunkRead (die : Fin 4) (cluster : Fin 16) (core : Fin 8) (stream : Fin 16)
  | streamChunkArrive (die : Fin 4) (cluster : Fin 16) (core : Fin 8) (stream : Fin 16) (ecc : List MemError)
  | streamChunkWrite (die : Fin 4) (cluster : Fin 16) (core : Fin 8) (chunk : ChunkWrite)
  | dieWindowAccess (agent : Agent) (addr : Addr) (size : Nat) (access : MapAccess)
  | grottoCopyReturn (site : PressSite) (line : Nat) (ecc : List MemError)
  | eccWriteback (kind : MemKind) (addr : Nat)
  | refreshWindow (channel : Fin 36) (visit : RefreshVisit)
  | sramScrub (key : BitVec 32) (behind : Bool) (ecc : Ecc)
  | frameParse (port : Fin 16) (bytes : List Byte) (reception : Reception)
  | pauseExpiry (port : Fin 16) (cls : Fin 8)
  | classifierPass (frame : Nat)
  | recirculationPass (frame : Nat)
  | pfcRepeat (port : Fin 16) (cls : Fin 8)
  | frameVerdict (frame : Nat)
  | flowSweep
  | flowFlush (value : Word)
  | bankSwap (value : Word)
  | bankDataAccess (write : Option Word)
  | egressFrameStart (port : Fin 16)
  | portTrainingDone (port : Fin 16) (up : Bool) (lanes : BitVec 8) (rxLatency txLatency : Nat)
  | sliceEvaluation (slice : Fin 16) (corrected followerCorrected : Nat) (events : SliceEvents)
  | replyStart (port : Fin 8)
  | replyFcsSlot (frame : Nat)
  | timeStep (value : Word)
  | timeSet (value : Word)
  | timeAdjustApply
  | todNsRead
  | rateWrite (value : Word)
  | ppsInputEdge (tenMHzOk : Bool) (rate : ServoRate)
  | sourceFailed
  | ptpMessage (msg : PtpMsg)
  | obcorTimeExchange (link : Fin 16) (replayed : Bool) (exchange : TimeExchange) (rate : ServoRate)
  | tcEntryExpiry (index : Nat)
  | pdelayReqTimer (port : Fin 16)
  | pdelayTimeout (port : Fin 16)
  | pulseEdge (output : Fin 4)
  | pulseEnd (output : Fin 4)
  | correctedRecordSend (kind : BitVec 16) (unitP : BitVec 32)
  | recordsLost
  | errTailWrite (value : Word)
  | twinComparison (die : Fin 4) (cluster : Fin 16) (core : Fin 8) (engine : Fin 8)
      (mismatch : Option (BitVec 6 × Bool × BitVec 16))
  | obcorDataReceive (link : Fin 16) (msg : DataMsg)
  | checkTokenSend (receiver : BitVec 13) (epoch : BitVec 32) (parityOk : Bool)
  | checkTokenReceive (link : Fin 16) (ends : TokenEnds) (epoch : BitVec 32) (count pip : BitVec 64)
  | commitTimeout (src : BitVec 13) (epoch : BitVec 32)
  | poisonNotice (link : Fin 16) (sender reporter : BitVec 13) (epoch : BitVec 32) (step : BitVec 64) (cause : BitVec 8)
  | strikeExpiry (key : BitVec 32)
  | screenComplete (key : BitVec 32) (pass : Bool) (point : BitVec 3) (test : BitVec 12)
  | spareScreen
  | rotation (die : Fin 4)
  | screenStalled
  | dripstoneStateWrite (norOk : Bool)
  | dripstoneCountFlush (norOk : Bool)
  | packInstall (value : Word)
  | packActivation (norOk : Bool)
  | checkpointCopyDone (copy : CopyEnd)
  | unitRecovery (quickFails : List (BitVec 32)) (durationMs : BitVec 32)
  | dieReset (die : Fin 4) (reset : DieResetEnd) (recurring quickFails : List (BitVec 32)) (durationMs : BitVec 32)
  | rollback (target : BitVec 64) (durationMs : BitVec 32)
  | expel (roundStep : BitVec 64) (screenFails : List (BitVec 32)) (durationMs : BitVec 32)
  | unitCmdSump (value : Word)
  | unitCmdReadmit (value : Word)
  | unitCmdScreen (value : Word)
  | snapshotSave (value : Word)
  | snapshotRestore (value : Word)
  | snapshotCheck (value : Word)
  | snapshotCopyDone (copy : SnapEnd)
  | traceTailWrite (value : Word)
  | watchLineUpdate (cls : Fin 5) (ring : Fin 4096)
  | ringEnable (value : Word)
  | ringDisable (value : Word)
  | txEntry (entry : TxTake)
  | txCompletion (ring : Fin 256)
  | irqHoldoffExpiry (cls : Fin 5) (ring : Fin 4096)
  | irqRouteWrite (source : Fin 528) (value : Word)
  | identity (ring : Fin 2)
  | dripstoneCopy (ring : Fin 2)
  | firmwareStage (ring : Fin 2)
  | fleetJoin (ring : Fin 2)
  | fleetLeave (ring : Fin 2)
  | coreState (ring : Fin 2)
  | ptpDataset (ring : Fin 2)
  | stewardFailover
  | appCoreRetire (core : Fin 72)
  | functionLevelReset
  | msiReceive (addr : BitVec 64) (data : BitVec 32)
  | rpMsiDataRead
  | rpCfgDataAccess (write : Option (BitVec 32)) (answer : Option (BitVec 32))
  | obcorReplay (link : Fin 16) (far : Bool) (seq : BitVec 12) (again : Bool)
  | obcorLinkTrain (link : Fin 16) (result : TrainResult)
  | join (link : Fin 16) (serial : BitVec 128) (grade : BitVec 8) (clusters : BitVec 8) (versions : BitVec 8)
      (previous : BitVec 13)
  | welcome (index : BitVec 13) (periodMs : BitVec 16) (standby : BitVec 13)
  | heartbeat (sender : BitVec 13) (glc : BitVec 64) (timeState : BitVec 3) (errEst : BitVec 16) (step : BitVec 64)
      (loadState : BitVec 3)
  | heartbeatTimer
  | workerLost (worker : BitVec 13)
  | managerLost
  | assign (part : AssignPart)
  | assigned (worker : BitVec 13) (setId : BitVec 32) (code : BitVec 8)
  | launch (t : BitVec 64)
  | armed (worker : BitVec 13) (t : BitVec 64)
  | late (worker : BitVec 13) (t : BitVec 64)
  | abort (t : BitVec 64)
  | ready (worker : BitVec 13) (step : BitVec 64) (outcome : BitVec 4)
  | echoReport (worker : BitVec 13) (step : BitVec 64) (digest : BitVec 128) (sums : EchoSums)
  | verdict (code : BitVec 2) (step : BitVec 64) (replicas : Nat)
  | leave (worker : BitVec 13) (cause : BitVec 8)
  | admitSet (setId : BitVec 32)
  | railSample (millivolts : List (BitVec 16))
  | rearm (value : Word)
  | throttleEvaluation (die : Fin 5) (tj : Int)
  | thermalTrip (sensor : Fin 28) (temp : BitVec 16)
  | thermalTripRelease
  | meterInterval (interval : MeterInterval)
  | meterRecord (bytes : List Byte)
  | meterLinkLost
  | alarm (source : Fin 6)
  | debugUnlock (slot : Fin 2) (challenge key sigR sigS : List Byte)
  | keyDataAccess (agent : Agent) (word : Fin 4) (write : Option Word)
  | fuseProgram (value : Word)
  | fuseRevoke (value : Word)
  | fuseRaise (value : Word)
  | fuseComplete
  | powerDown
  | startup (outcome : BootOutcome)
  | loaderStart
  | packageReset (byBall : Bool) (value : Word)
  | coresReset (value : Word)
  | pciePerst
  | testReset
  | pciePerstRelease (speed : BitVec 3) (width : BitVec 5) (flit : Bool)
  | obcorLinkDown (link : Fin 16)
  | obcorRelay (link : Fin 16) (control : Bool) (dest : BitVec 13) (flits : Nat)
  | standbyMirror (mirror : MirrorMsg) (agreedStep : BitVec 64)
  | ptpMessageGeneration (messageType : BitVec 4)
  | corrected24hWindow (key : BitVec 32)
deriving DecidableEq, Repr

end Sys2Proof
end

