-- ==== Sys2Proof/Decode.lean ====
section
/-! DEFINITION. The table gives no row a word: its commands come from outside with their operands, and no bits spell
them. -/

namespace Sys2Proof

/-- The command that a word spells by the table's bits: none, since every row of the table has no bits. -/
def decodeTableWord (_nbits _w : Nat) : Option Instr := none

end Sys2Proof
end

