-- ==== Sys2Proof/Machine/Bits.lean ====
section
/-! DEFINITION. Bit fields, byte order and the sparse tables the state is built of. -/

namespace Sys2Proof.Machine

/-- Bits hi..lo of a number. -/
def bits (n hi lo : Nat) : Nat := (n >>> lo) % 2 ^ (hi + 1 - lo)

/-- One bit of a number. -/
def bit (n k : Nat) : Bool := n.testBit k

/-- A number with bits hi..lo replaced by the low bits of `v`. -/
def setBits (n hi lo v : Nat) : Nat :=
  n - (bits n hi lo <<< lo) + ((v % 2 ^ (hi + 1 - lo)) <<< lo)

def b2n (b : Bool) : Nat := if b then 1 else 0

/-- Little-endian bytes as a number (R17). -/
def leNat : List Byte → Nat
  | [] => 0
  | b :: bs => b.toNat + 256 * leNat bs

/-- Big-endian bytes as a number (R17). -/
def beNat (bs : List Byte) : Nat := bs.foldl (fun a b => 256 * a + b.toNat) 0

/-- The low `k` bytes of a number, least significant first. -/
def toLe : Nat → Nat → List Byte
  | 0, _ => []
  | k + 1, n => BitVec.ofNat 8 n :: toLe k (n / 256)

/-- The low `k` bytes of a number, most significant first. -/
def toBe (k n : Nat) : List Byte := (toLe k n).reverse

/-- `k` bytes at offset `o`; bytes past the end read 0. -/
def sliceBytes (bs : List Byte) (o k : Nat) : List Byte :=
  let t := (bs.drop o).take k
  t ++ List.replicate (k - t.length) 0

/-- Little-endian field of `k` bytes at offset `o`. -/
def le (bs : List Byte) (o k : Nat) : Nat := leNat ((bs.drop o).take k)

/-- Big-endian field of `k` bytes at offset `o`. -/
def be (bs : List Byte) (o k : Nat) : Nat := beNat ((bs.drop o).take k)

/-- Bytes with those from offset `o` replaced. -/
def putBytes (bs : List Byte) (o : Nat) (v : List Byte) : List Byte :=
  bs.take o ++ v ++ bs.drop (o + v.length)

def clamp (lo hi x : Int) : Int := if x < lo then lo else if hi < x then hi else x

/-- The low `w` bits of an integer read as two's complement. -/
def sext (w n : Nat) : Int := let m := n % 2 ^ w; if m < 2 ^ (w - 1) then m else (m : Int) - 2 ^ w

def ceilDiv (a b : Nat) : Nat := (a + b - 1) / b

def roundUp (a b : Nat) : Nat := ceilDiv a b * b

def allDistinct (l : List Nat) : Bool :=
  match l with
  | [] => true
  | x :: xs => !xs.contains x && allDistinct xs

/-- Items that have an index, with it. -/
def enum0 {α : Type} (l : List α) : List (Nat × α) := (List.range l.length).zip l

/-- A sparse table: keys strictly rising. -/
abbrev Tab (α : Type) := List (Nat × α)

def Tab.find {α : Type} (k : Nat) : Tab α → Option α
  | [] => none
  | (j, v) :: t => if k = j then some v else Tab.find k t

/-- The table with no entry at `k`. -/
def Tab.erase {α : Type} (k : Nat) : Tab α → Tab α
  | [] => []
  | (j, v) :: t => if k = j then Tab.erase k t else (j, v) :: Tab.erase k t

/-- The table with `v` at `k`, in its place in the order. -/
def Tab.put {α : Type} (k : Nat) (v : α) : Tab α → Tab α
  | [] => [(k, v)]
  | (j, w) :: t =>
    if k < j then (k, v) :: (j, w) :: t
    else if k = j then (k, v) :: t
    else (j, w) :: Tab.put k v t

/-- The value at `k`, `d` where nothing is listed. -/
def Tab.get {α : Type} (d : α) (k : Nat) (t : Tab α) : α := (t.find k).getD d

/-- The table with `v` at `k`, listing nothing that equals the default. -/
def Tab.set {α : Type} [DecidableEq α] (d : α) (k : Nat) (v : α) (t : Tab α) : Tab α :=
  if v = d then t.erase k else t.put k v

/-- The keys rise strictly. -/
def Tab.rising {α : Type} : Tab α → Bool
  | [] => true
  | [_] => true
  | (j, _) :: (k, v) :: t => decide (j < k) && Tab.rising ((k, v) :: t)

/-- The canonical form against a default: keys rise, no entry equals what an unlisted key reads as. -/
def Tab.canon {α : Type} [DecidableEq α] (d : α) (t : Tab α) : Bool :=
  t.rising && t.all fun e => decide (e.2 ≠ d)

end Sys2Proof.Machine
end

