-- ==== Sys2Proof/Machine/Hash.lean ====
section
/-! DEFINITION. Digests, checksums, signatures and the block cipher that the spec names: SHA-384 and SHA-256
(FIPS 180), CRC-32 and CRC-32C, ECDSA over P-384 and P-256 (FIPS 186), AES-128 (FIPS 197), pips (R424). -/

namespace Sys2Proof.Machine

/-! ### SHA-2 -/

def sha512KA : List Nat :=
  [
   0x428A2F98D728AE22, 0x7137449123EF65CD, 0xB5C0FBCFEC4D3B2F, 0xE9B5DBA58189DBBC,
   0x3956C25BF348B538, 0x59F111F1B605D019, 0x923F82A4AF194F9B, 0xAB1C5ED5DA6D8118,
   0xD807AA98A3030242, 0x12835B0145706FBE, 0x243185BE4EE4B28C, 0x550C7DC3D5FFB4E2,
   0x72BE5D74F27B896F, 0x80DEB1FE3B1696B1, 0x9BDC06A725C71235, 0xC19BF174CF692694,
   0xE49B69C19EF14AD2, 0xEFBE4786384F25E3, 0xFC19DC68B8CD5B5, 0x240CA1CC77AC9C65,
   0x2DE92C6F592B0275, 0x4A7484AA6EA6E483, 0x5CB0A9DCBD41FBD4, 0x76F988DA831153B5,
   0x983E5152EE66DFAB, 0xA831C66D2DB43210, 0xB00327C898FB213F, 0xBF597FC7BEEF0EE4,
   0xC6E00BF33DA88FC2, 0xD5A79147930AA725, 0x6CA6351E003826F, 0x142929670A0E6E70,
   0x27B70A8546D22FFC, 0x2E1B21385C26C926, 0x4D2C6DFC5AC42AED, 0x53380D139D95B3DF,
   0x650A73548BAF63DE, 0x766A0ABB3C77B2A8, 0x81C2C92E47EDAEE6, 0x92722C851482353B]

def sha512KB : List Nat :=
  [
   0xA2BFE8A14CF10364, 0xA81A664BBC423001, 0xC24B8B70D0F89791, 0xC76C51A30654BE30,
   0xD192E819D6EF5218, 0xD69906245565A910, 0xF40E35855771202A, 0x106AA07032BBD1B8,
   0x19A4C116B8D2D0C8, 0x1E376C085141AB53, 0x2748774CDF8EEB99, 0x34B0BCB5E19B48A8,
   0x391C0CB3C5C95A63, 0x4ED8AA4AE3418ACB, 0x5B9CCA4F7763E373, 0x682E6FF3D6B2B8A3,
   0x748F82EE5DEFB2FC, 0x78A5636F43172F60, 0x84C87814A1F0AB72, 0x8CC702081A6439EC,
   0x90BEFFFA23631E28, 0xA4506CEBDE82BDE9, 0xBEF9A3F7B2C67915, 0xC67178F2E372532B,
   0xCA273ECEEA26619C, 0xD186B8C721C0C207, 0xEADA7DD6CDE0EB1E, 0xF57D4F7FEE6ED178,
   0x6F067AA72176FBA, 0xA637DC5A2C898A6, 0x113F9804BEF90DAE, 0x1B710B35131C471B,
   0x28DB77F523047D84, 0x32CAAB7B40C72493, 0x3C9EBE0A15C9BEBC, 0x431D67C49C100D4C,
   0x4CC5D4BECB3E42B6, 0x597F299CFC657E2A, 0x5FCB6FAB3AD6FAEC, 0x6C44198C4A475817]

def sha512K : List Nat := sha512KA ++ sha512KB

def sha256KA : List Nat :=
  [
   0x428A2F98, 0x71374491, 0xB5C0FBCF, 0xE9B5DBA5, 0x3956C25B, 0x59F111F1, 0x923F82A4, 0xAB1C5ED5,
   0xD807AA98, 0x12835B01, 0x243185BE, 0x550C7DC3, 0x72BE5D74, 0x80DEB1FE, 0x9BDC06A7, 0xC19BF174,
   0xE49B69C1, 0xEFBE4786, 0xFC19DC6, 0x240CA1CC, 0x2DE92C6F, 0x4A7484AA, 0x5CB0A9DC, 0x76F988DA,
   0x983E5152, 0xA831C66D, 0xB00327C8, 0xBF597FC7, 0xC6E00BF3, 0xD5A79147, 0x6CA6351, 0x14292967,
   0x27B70A85, 0x2E1B2138, 0x4D2C6DFC, 0x53380D13, 0x650A7354, 0x766A0ABB, 0x81C2C92E, 0x92722C85,
   0xA2BFE8A1, 0xA81A664B, 0xC24B8B70, 0xC76C51A3, 0xD192E819, 0xD6990624, 0xF40E3585, 0x106AA070,
   0x19A4C116, 0x1E376C08, 0x2748774C, 0x34B0BCB5, 0x391C0CB3, 0x4ED8AA4A, 0x5B9CCA4F, 0x682E6FF3,
   0x748F82EE, 0x78A5636F, 0x84C87814, 0x8CC70208, 0x90BEFFFA, 0xA4506CEB, 0xBEF9A3F7, 0xC67178F2]

def sha256K : List Nat := sha256KA

def sha384H : List Nat :=
  [
   0xCBBB9D5DC1059ED8, 0x629A292A367CD507, 0x9159015A3070DD17, 0x152FECD8F70E5939,
   0x67332667FFC00B31, 0x8EB44A8768581511, 0xDB0C2E0D64F98FA7, 0x47B5481DBEFA4FA4]

def sha256H : List Nat :=
  [
   0x6A09E667, 0xBB67AE85, 0x3C6EF372, 0xA54FF53A, 0x510E527F, 0x9B05688C, 0x1F83D9AB, 0x5BE0CD19]

/-- A SHA-2 function: word width, schedule and round rotations, round constants. -/
structure Sha where
  w : Nat
  big0 : Nat × Nat × Nat
  big1 : Nat × Nat × Nat
  small0 : Nat × Nat × Nat
  small1 : Nat × Nat × Nat
  k : List Nat

def sha512Params : Sha := ⟨64, (28, 34, 39), (14, 18, 41), (1, 8, 7), (19, 61, 6), sha512K⟩
def sha256Params : Sha := ⟨32, (2, 13, 22), (6, 11, 25), (7, 18, 3), (17, 19, 10), sha256K⟩

def rotr (w x n : Nat) : Nat := (x >>> n) ||| ((x <<< (w - n)) % 2 ^ w)

def Sha.rot3 (s : Sha) (r : Nat × Nat × Nat) (x : Nat) : Nat := rotr s.w x r.1 ^^^ rotr s.w x r.2.1 ^^^ rotr s.w x r.2.2

def Sha.mix (s : Sha) (r : Nat × Nat × Nat) (x : Nat) : Nat := rotr s.w x r.1 ^^^ rotr s.w x r.2.1 ^^^ (x >>> r.2.2)

/-- The schedule, last word first. -/
def Sha.extend (s : Sha) : Nat → List Nat → List Nat
  | 0, l => l
  | n + 1, l =>
    Sha.extend s n ((s.mix s.small1 (l.getD 1 0) + l.getD 6 0 + s.mix s.small0 (l.getD 14 0) + l.getD 15 0) % 2 ^ s.w :: l)

def Sha.round (s : Sha) (st : List Nat) (kw : Nat × Nat) : List Nat :=
  match st with
  | [a, b, c, d, e, f, g, h] =>
    let ch := (e &&& f) ^^^ ((2 ^ s.w - 1 - e) &&& g)
    let maj := (a &&& b) ^^^ (a &&& c) ^^^ (b &&& c)
    let t1 := h + s.rot3 s.big1 e + ch + kw.1 + kw.2
    let t2 := s.rot3 s.big0 a + maj
    [(t1 + t2) % 2 ^ s.w, a, b, c, (d + t1) % 2 ^ s.w, e, f, g]
  | l => l

def Sha.block (s : Sha) (h ws : List Nat) : List Nat :=
  let sched := (Sha.extend s (s.k.length - 16) ws.reverse).reverse
  let out := (s.k.zip sched).foldl (Sha.round s) h
  (h.zip out).map fun p => (p.1 + p.2) % 2 ^ s.w

def wordsBe (k : Nat) : Nat → List Byte → List Nat
  | 0, _ => []
  | n + 1, bs => beNat (bs.take k) :: wordsBe k n (bs.drop k)

def Sha.blocks (s : Sha) : Nat → List Nat → List Byte → List Nat
  | 0, h, _ => h
  | n + 1, h, bs => Sha.blocks s n (s.block h (wordsBe (s.w / 8) 16 bs)) (bs.drop (2 * s.w))

def Sha.hash (s : Sha) (h0 : List Nat) (outBytes : Nat) (msg : List Byte) : List Byte :=
  let blk := 2 * s.w
  let lenBytes := s.w / 4
  let zeros := (2 * blk - (msg.length + 1 + lenBytes) % blk) % blk
  let padded := msg ++ [0x80] ++ List.replicate zeros 0 ++ toBe lenBytes (8 * msg.length)
  ((Sha.blocks s (padded.length / blk) h0 padded).flatMap (toBe (s.w / 8))).take outBytes

def sha384 (msg : List Byte) : List Byte := sha512Params.hash sha384H 48 msg
def sha256 (msg : List Byte) : List Byte := sha256Params.hash sha256H 32 msg

/-! ### CRC -/

def crcStep (poly c : Nat) : Nat := if c % 2 = 1 then (c / 2) ^^^ poly else c / 2

def crcByte (poly c : Nat) (b : Byte) : Nat :=
  let c := c ^^^ b.toNat
  crcStep poly (crcStep poly (crcStep poly (crcStep poly (crcStep poly (crcStep poly (crcStep poly
    (crcStep poly c)))))))

/-- A reflected CRC with initial value and final inversion of all ones. -/
def crcReflected (poly : Nat) (bs : List Byte) : Nat := bs.foldl (crcByte poly) 0xFFFFFFFF ^^^ 0xFFFFFFFF

/-- CRC-32C (R257, R372). -/
def crc32c (bs : List Byte) : Nat := crcReflected 0x82F63B78 bs

/-- The Ethernet FCS. -/
def crc32 (bs : List Byte) : Nat := crcReflected 0xEDB88320 bs

/-! ### ECDSA -/

structure Curve where
  p : Nat
  a : Nat
  b : Nat
  n : Nat
  gx : Nat
  gy : Nat

def p384 : Curve := {
  p := 0xFFFFFFFFFFFFFFFFFFFFFFFFFFFFFFFFFFFFFFFFFFFFFFFFFFFFFFFFFFFFFFFEFFFFFFFF0000000000000000FFFFFFFF,
  a := 0xFFFFFFFFFFFFFFFFFFFFFFFFFFFFFFFFFFFFFFFFFFFFFFFFFFFFFFFFFFFFFFFEFFFFFFFF0000000000000000FFFFFFFC,
  b := 0xB3312FA7E23EE7E4988E056BE3F82D19181D9C6EFE8141120314088F5013875AC656398D8A2ED19D2A85C8EDD3EC2AEF,
  n := 0xFFFFFFFFFFFFFFFFFFFFFFFFFFFFFFFFFFFFFFFFFFFFFFFFC7634D81F4372DDF581A0DB248B0A77AECEC196ACCC52973,
  gx := 0xAA87CA22BE8B05378EB1C71EF320AD746E1D3B628BA79B9859F741E082542A385502F25DBF55296C3A545E3872760AB7,
  gy := 0x3617DE4A96262C6F5D9E98BF9292DC29F8F41DBD289A147CE9DA3113B5F0B8C00A60B1CE1D7E819D7A431D7C90EA0E5F }

def p256 : Curve := {
  p := 0xFFFFFFFF00000001000000000000000000000000FFFFFFFFFFFFFFFFFFFFFFFF,
  a := 0xFFFFFFFF00000001000000000000000000000000FFFFFFFFFFFFFFFFFFFFFFFC,
  b := 0x5AC635D8AA3A93E7B3EBBD55769886BC651D06B0CC53B0F63BCE3C3E27D2604B,
  n := 0xFFFFFFFF00000000FFFFFFFFFFFFFFFFBCE6FAADA7179E84F3B9CAC2FC632551,
  gx := 0x6B17D1F2E12C4247F8BCE6E563A440F277037D812DEB33A0F4A13945D898C296,
  gy := 0x4FE342E2FE1A7F9B8EE7EB4A7C0F9E162BCE33576B315ECECBB6406837BF51F5 }

/-- a^k mod m by the `n` low bits of k. -/
def powMod (m : Nat) : Nat → Nat → Nat → Nat
  | 0, _, _ => 1 % m
  | n + 1, a, k =>
    let r := powMod m n (a * a % m) (k / 2)
    if k % 2 = 1 then r * a % m else r

def invMod (m a : Nat) : Nat := powMod m 400 (a % m) (m - 2)

/-- Points in Jacobian coordinates; z = 0 is the neutral point. -/
abbrev Point := Nat × Nat × Nat

def Curve.double (c : Curve) (q : Point) : Point :=
  let (x, y, z) := q
  if z = 0 ∨ y = 0 then (1, 1, 0)
  else
    let p := c.p
    let y2 := y * y % p
    let s := 4 * x * y2 % p
    let z2 := z * z % p
    let m := (3 * x * x + c.a * (z2 * z2 % p)) % p
    let x3 := (m * m + 2 * (p - s)) % p
    (x3, (m * (s + (p - x3)) + (p - 8 * (y2 * y2) % p)) % p, 2 * y * z % p)

def Curve.add (c : Curve) (q r : Point) : Point :=
  let (x1, y1, z1) := q
  let (x2, y2, z2) := r
  if z1 = 0 then r else if z2 = 0 then q
  else
    let p := c.p
    let z12 := z1 * z1 % p
    let z22 := z2 * z2 % p
    let u1 := x1 * z22 % p
    let u2 := x2 * z12 % p
    let s1 := y1 * (z2 * z22 % p) % p
    let s2 := y2 * (z1 * z12 % p) % p
    if u1 = u2 then (if s1 = s2 then c.double q else (1, 1, 0))
    else
      let h := (u2 + (p - u1)) % p
      let t := (s2 + (p - s1)) % p
      let h2 := h * h % p
      let h3 := h * h2 % p
      let v := u1 * h2 % p
      let x3 := (t * t + (p - h3) + 2 * (p - v)) % p
      (x3, (t * (v + (p - x3)) + (p - s1 * h3 % p)) % p, h * (z1 * z2 % p) % p)

/-- k times a point by the `n` low bits of k. -/
def Curve.times (c : Curve) : Nat → Nat → Point → Point
  | 0, _, _ => (1, 1, 0)
  | n + 1, k, q =>
    let r := c.times n (k / 2) (c.double q)
    if k % 2 = 1 then c.add r q else r

def Curve.onCurve (c : Curve) (x y : Nat) : Bool :=
  decide (x < c.p) && decide (y < c.p) && (y * y % c.p == (x * x * x + c.a * x + c.b) % c.p)

/-- ECDSA verification of a digest, taken as a big-endian number no longer than the order. -/
def Curve.verify (c : Curve) (x y r s digest : Nat) : Bool :=
  if !(decide (0 < r) && decide (r < c.n) && decide (0 < s) && decide (s < c.n) && c.onCurve x y) then false
  else
    let w := invMod c.n s
    let pt := c.add (c.times 400 (digest * w % c.n) (c.gx, c.gy, 1)) (c.times 400 (r * w % c.n) (x, y, 1))
    if pt.2.2 = 0 then false
    else
      let zi := invMod c.p pt.2.2
      pt.1 * (zi * zi % c.p) % c.p % c.n == r

/-- ECDSA signature (r, s) of a digest with private key `d` and secret number `k`. -/
def Curve.sign (c : Curve) (d k digest : Nat) : Nat × Nat :=
  let pt := c.times 400 k (c.gx, c.gy, 1)
  let zi := invMod c.p pt.2.2
  let r := pt.1 * (zi * zi % c.p) % c.p % c.n
  (r, invMod c.n k * (digest + r * d) % c.n)

/-- The check of a signature block (Table 3.5): key X then Y, r and s, all 48 bytes big-endian. -/
def verify384 (key sigR sigS msg : List Byte) : Bool :=
  p384.verify (be key 0 48) (be key 48 48) (beNat sigR) (beNat sigS) (beNat (sha384 msg))

/-! ### AES-128 -/

def aesMul2 (a : Nat) : Nat := if a < 128 then 2 * a else (2 * a) ^^^ 0x11B

def aesMul : Nat → Nat → Nat → Nat
  | 0, _, _ => 0
  | n + 1, a, b => (if b % 2 = 1 then a else 0) ^^^ aesMul n (aesMul2 a) (b / 2)

def gfPow : Nat → Nat → Nat
  | 0, _ => 1
  | n + 1, a => aesMul 8 a (gfPow n a)

/-- The S-box: inverse in GF(2⁸), then the affine map. -/
def aesSbox (x : Nat) : Nat :=
  let i := gfPow 254 x
  let r := fun k => (i <<< k ||| i >>> (8 - k)) % 256
  i ^^^ r 1 ^^^ r 2 ^^^ r 3 ^^^ r 4 ^^^ 0x63

def xorList (a b : List Nat) : List Nat := (a.zip b).map fun p => p.1 ^^^ p.2

/-- Round keys from the last one. -/
def aesNextKey (k : List Nat) (rcon : Nat) : List Nat :=
  let g := [aesSbox (k.getD 13 0) ^^^ rcon, aesSbox (k.getD 14 0), aesSbox (k.getD 15 0), aesSbox (k.getD 12 0)]
  let w0 := xorList (k.take 4) g
  let w1 := xorList ((k.drop 4).take 4) w0
  let w2 := xorList ((k.drop 8).take 4) w1
  let w3 := xorList ((k.drop 12).take 4) w2
  w0 ++ w1 ++ w2 ++ w3

def aesShift (s : List Nat) : List Nat :=
  (List.range 16).map fun i => s.getD ((i + 4 * (i % 4)) % 16) 0

def aesMixCol (c : List Nat) : List Nat :=
  (List.range 4).map fun i =>
    let a := fun j => c.getD ((i + j) % 4) 0
    aesMul2 (a 0) ^^^ (aesMul2 (a 1) ^^^ a 1) ^^^ a 2 ^^^ a 3

def aesMix (s : List Nat) : List Nat :=
  aesMixCol (s.take 4) ++ aesMixCol ((s.drop 4).take 4) ++ aesMixCol ((s.drop 8).take 4) ++ aesMixCol (s.drop 12)

/-- Rounds 1 to 9 with their mix, then round 10. -/
def aesRounds : Nat → Nat → List Nat → List Nat → List Nat
  | 0, rcon, k, s => xorList (aesShift (s.map aesSbox)) (aesNextKey k rcon)
  | n + 1, rcon, k, s =>
    let k := aesNextKey k rcon
    aesRounds n (aesMul2 rcon) k (xorList (aesMix (aesShift (s.map aesSbox))) k)

def aes128 (key blk : List Nat) : List Nat := aesRounds 9 1 key (xorList blk key)

/-! ### Pips (R424) -/

def pipP : Nat := 2 ^ 61 - 1
def pipM1 : Nat := 0x0DECAF5B3C719E25
def pipM2 : Nat := 0x1A5C37E962B4D08B

/-- The share of element `i` with bits `x` under multiplier `m`. -/
def pipTerm (m i x : Nat) : Nat := x % pipP * powMod pipP 64 m (i + 1) % pipP

/-- Pip of a sequence whose first element has index `i`. -/
def pipFrom (m i : Nat) (xs : List Nat) : Nat :=
  ((enum0 xs).foldl (fun a e => (a + pipTerm m (i + e.1) e.2) % pipP) 0)

/-- Bytes as 8-byte words, the last one padded with zeros. -/
def words64 (bs : List Byte) : List Nat :=
  (List.range (ceilDiv bs.length 8)).map fun i => leNat ((bs.drop (8 * i)).take 8)

/-- The 128-bit digest of bytes as 8-byte words. -/
def digest128 (bs : List Byte) : Nat := pipFrom pipM1 0 (words64 bs) + pipFrom pipM2 0 (words64 bs) * 2 ^ 64

end Sys2Proof.Machine
end

