-- ==== Sys2Proof/Machine/RegTable.lean ====
section
/-! DEFINITION. The register file as the spec's register tables lay it out: one descriptor per register kind
(offset from 0xFF00_0000_0000, strides, fields with access code and reset value, commit group). -/

namespace Sys2Proof.Machine

/-- Access codes (Table 0.7). -/
inductive Access where
  | ro | rw | rwg | w1c | w1s | wo | rc
deriving DecidableEq, Repr

structure RegField where
  hi : Nat
  lo : Nat
  access : Access
  reset : Nat
deriving DecidableEq, Repr

/-- A register kind: first offset, strides (step, count), fields, commit group of index 0 and the group's step per
index. -/
structure RegKind where
  base : Nat
  strides : List (Nat × Nat)
  fields : List RegField
  group : Option Nat
  gstep : List Nat
deriving DecidableEq, Repr

def regsPkg : List RegKind := [
  -- PKG.IDENT (R6)
  ⟨0x0, [], [⟨63, 0, .ro, 0x11001A14820⟩], none, []⟩,
  -- PKG.BOOT_STATUS (R516)
  ⟨0x8, [], [⟨3, 0, .ro, 0x1⟩, ⟨7, 4, .ro, 0x0⟩, ⟨15, 8, .ro, 0x0⟩, ⟨24, 16, .ro, 0x0⟩, ⟨31, 25, .ro, 0x0⟩, ⟨63, 32, .ro, 0x0⟩], none, []⟩,
  -- PKG.RESET_CTRL (R517)
  ⟨0x10, [], [⟨0, 0, .wo, 0x0⟩, ⟨1, 1, .wo, 0x0⟩, ⟨31, 2, .ro, 0x0⟩, ⟨47, 32, .wo, 0x0⟩, ⟨62, 48, .ro, 0x0⟩, ⟨63, 63, .wo, 0x0⟩], none, []⟩,
  -- PKG.RESET_CAUSE (R518)
  ⟨0x18, [], [⟨0, 0, .ro, 0x1⟩, ⟨1, 1, .ro, 0x0⟩, ⟨2, 2, .ro, 0x0⟩, ⟨3, 3, .ro, 0x0⟩, ⟨4, 4, .ro, 0x0⟩, ⟨15, 5, .ro, 0x0⟩, ⟨31, 16, .ro, 0x0⟩, ⟨47, 32, .ro, 0x0⟩, ⟨63, 48, .ro, 0x0⟩], none, []⟩]

def regsCfg : List RegKind := [
  -- CFG.CAPS (R96)
  ⟨0x100000, [], [⟨7, 0, .ro, 0x1⟩, ⟨15, 8, .ro, 0x2⟩, ⟨20, 16, .ro, 0x0⟩, ⟨31, 21, .ro, 0x0⟩, ⟨63, 32, .ro, 0x7F⟩], none, []⟩,
  -- CFG.LOAD_ADDR (R105)
  ⟨0x100010, [], [⟨47, 0, .rw, 0x0⟩, ⟨63, 48, .ro, 0x0⟩], none, []⟩,
  -- CFG.LOAD_CTRL (R106)
  ⟨0x100018, [], [⟨1, 0, .rw, 0x0⟩, ⟨2, 2, .rw, 0x0⟩, ⟨7, 3, .ro, 0x0⟩, ⟨11, 8, .rw, 0x0⟩, ⟨12, 12, .rw, 0x0⟩, ⟨15, 13, .ro, 0x0⟩, ⟨31, 16, .rw, 0x0⟩, ⟨47, 32, .rw, 0x0⟩, ⟨62, 48, .ro, 0x0⟩, ⟨63, 63, .wo, 0x0⟩], none, []⟩,
  -- CFG.LOAD_STATUS (R107)
  ⟨0x100020, [], [⟨2, 0, .ro, 0x0⟩, ⟨3, 3, .ro, 0x0⟩, ⟨4, 4, .ro, 0x0⟩, ⟨7, 5, .ro, 0x0⟩, ⟨15, 8, .ro, 0x0⟩, ⟨31, 16, .ro, 0xFFFF⟩, ⟨63, 32, .ro, 0x0⟩], none, []⟩,
  -- CFG.IMAGE_ID (R108)
  ⟨0x100028, [], [⟨63, 0, .ro, 0x0⟩], none, []⟩,
  -- CFG.EPOCH (R123)
  ⟨0x100030, [], [⟨31, 0, .ro, 0x0⟩, ⟨63, 32, .ro, 0x0⟩], none, []⟩,
  -- CFG.RUN_CTRL (R109)
  ⟨0x100040, [], [⟨0, 0, .wo, 0x0⟩, ⟨1, 1, .wo, 0x0⟩, ⟨2, 2, .wo, 0x0⟩, ⟨3, 3, .wo, 0x0⟩, ⟨31, 4, .ro, 0x0⟩, ⟨63, 32, .rw, 0x0⟩], none, []⟩,
  -- CFG.RUN_AT (R111)
  ⟨0x100048, [], [⟨63, 0, .rw, 0x0⟩], none, []⟩,
  -- CFG.STEP (R111)
  ⟨0x100050, [], [⟨63, 0, .ro, 0x0⟩], none, []⟩,
  -- CFG.EPOCH_QUERY (R123)
  ⟨0x100060, [], [⟨17, 0, .rw, 0x0⟩, ⟨18, 18, .ro, 0x0⟩, ⟨19, 19, .ro, 0x0⟩, ⟨31, 20, .ro, 0x0⟩, ⟨63, 32, .ro, 0x0⟩], none, []⟩,
  -- CFG.COMMIT_STATUS (R117)
  ⟨0x100088, [], [⟨19, 0, .ro, 0x0⟩, ⟨20, 20, .ro, 0x0⟩, ⟨21, 21, .w1c, 0x0⟩, ⟨23, 22, .ro, 0x0⟩, ⟨31, 24, .ro, 0x0⟩, ⟨59, 32, .ro, 0x0⟩, ⟨63, 60, .ro, 0x0⟩], none, []⟩,
  -- CFG.GROUP_QUERY (R118)
  ⟨0x100090, [], [⟨19, 0, .rw, 0x0⟩, ⟨20, 20, .ro, 0x0⟩, ⟨21, 21, .ro, 0x0⟩, ⟨23, 22, .ro, 0x0⟩, ⟨31, 24, .ro, 0x0⟩, ⟨63, 32, .ro, 0x0⟩], none, []⟩,
  -- CFG.ACTIVE_SEL (R119)
  ⟨0x100098, [], [⟨39, 0, .rw, 0x0⟩, ⟨63, 40, .ro, 0x0⟩], none, []⟩,
  -- CFG.ACTIVE_DATA (R119)
  ⟨0x1000A0, [], [⟨63, 0, .ro, 0x0⟩], none, []⟩,
  -- CFG.COMMIT (R116)
  ⟨0x100080, [], [⟨19, 0, .wo, 0x0⟩], none, []⟩]

def regsHub : List RegKind := [
  -- HUB.ROLE (R466)
  ⟨0x200000, [], [⟨1, 0, .rwg, 0x0⟩, ⟨15, 2, .ro, 0x0⟩, ⟨31, 16, .rwg, 0x0⟩, ⟨63, 32, .ro, 0x0⟩], some 0x2000, []⟩,
  -- HUB.FLEET_STATUS (R467)
  ⟨0x200008, [], [⟨12, 0, .ro, 0x0⟩, ⟨13, 13, .ro, 0x0⟩, ⟨14, 14, .ro, 0x0⟩, ⟨15, 15, .ro, 0x0⟩, ⟨28, 16, .ro, 0x0⟩, ⟨31, 29, .ro, 0x0⟩, ⟨63, 32, .ro, 0x0⟩], none, []⟩,
  -- HUB.RING_SEL (R468)
  ⟨0x200100, [], [⟨12, 0, .rw, 0x0⟩, ⟨15, 13, .rw, 0x0⟩, ⟨63, 16, .ro, 0x0⟩], none, []⟩,
  -- HUB.RING_BASE (R468)
  ⟨0x200108, [], [⟨47, 0, .rw, 0x0⟩, ⟨63, 48, .ro, 0x0⟩], none, []⟩,
  -- HUB.RING_WATCH (R468)
  ⟨0x200110, [], [⟨47, 0, .rw, 0x0⟩, ⟨63, 48, .ro, 0x0⟩], none, []⟩,
  -- HUB.RING_REPORT (R468)
  ⟨0x200118, [], [⟨47, 0, .rw, 0x0⟩, ⟨63, 48, .ro, 0x0⟩], none, []⟩,
  -- HUB.RING_CFG (R468)
  ⟨0x200120, [], [⟨0, 0, .rw, 0x0⟩, ⟨5, 1, .rw, 0x4⟩, ⟨6, 6, .rw, 0x0⟩, ⟨7, 7, .ro, 0x0⟩, ⟨16, 8, .rw, 0x0⟩, ⟨23, 17, .ro, 0x0⟩, ⟨31, 24, .rw, 0x0⟩, ⟨47, 32, .rw, 0x0⟩, ⟨63, 48, .ro, 0x0⟩], none, []⟩,
  -- HUB.RING_STATE (R468)
  ⟨0x200128, [], [⟨31, 0, .ro, 0x0⟩, ⟨39, 32, .ro, 0x0⟩, ⟨40, 40, .ro, 0x1⟩, ⟨63, 41, .ro, 0x0⟩], none, []⟩,
  -- HUB.IRQ_ROUTE (R469)
  ⟨0x201000, [(0x8, 528)], [⟨1, 0, .rw, 0x0⟩, ⟨8, 2, .rw, 0x0⟩, ⟨15, 9, .ro, 0x0⟩, ⟨26, 16, .rw, 0x0⟩, ⟨31, 27, .ro, 0x0⟩, ⟨32, 32, .w1c, 0x0⟩, ⟨63, 33, .ro, 0x0⟩], none, []⟩]

def regsObc : List RegKind := [
  -- OBC.LINK_CTRL (R470)
  ⟨0xC000000, [(0x1000, 16)], [⟨0, 0, .rwg, 0x1⟩, ⟨2, 1, .rwg, 0x3⟩, ⟨3, 3, .rwg, 0x1⟩, ⟨63, 4, .ro, 0x0⟩], some 0xC0000, [0x10]⟩,
  -- OBC.LINK_STATUS (R470)
  ⟨0xC000008, [(0x1000, 16)], [⟨2, 0, .ro, 0x0⟩, ⟨3, 3, .ro, 0x0⟩, ⟨5, 4, .ro, 0x0⟩, ⟨7, 6, .ro, 0x0⟩, ⟨11, 8, .ro, 0x0⟩, ⟨15, 12, .ro, 0x0⟩, ⟨28, 16, .ro, 0x0⟩, ⟨30, 29, .ro, 0x0⟩, ⟨31, 31, .ro, 0x0⟩, ⟨39, 32, .ro, 0x0⟩, ⟨63, 40, .ro, 0x0⟩], none, []⟩,
  -- OBC.CNT (R471)
  ⟨0xC000100, [(0x1000, 16), (0x8, 6)], [⟨63, 0, .ro, 0x0⟩], none, []⟩,
  -- OBC.ROUTE (R472)
  ⟨0xC100000, [(0x8, 4097)], [⟨3, 0, .ro, 0x0⟩, ⟨4, 4, .ro, 0x0⟩, ⟨5, 5, .ro, 0x0⟩, ⟨63, 6, .ro, 0x0⟩], none, []⟩]

def regsPcie : List RegKind := [
  -- PCIE.STATUS (R473)
  ⟨0xD000000, [], [⟨0, 0, .ro, 0x0⟩, ⟨1, 1, .ro, 0x0⟩, ⟨2, 2, .ro, 0x0⟩, ⟨5, 3, .ro, 0x0⟩, ⟨10, 6, .ro, 0x0⟩, ⟨63, 11, .ro, 0x0⟩], none, []⟩,
  -- PCIE.BAR2_CFG (R473)
  ⟨0xD000008, [], [⟨47, 0, .rwg, 0x0⟩, ⟨53, 48, .rwg, 0x28⟩, ⟨63, 54, .ro, 0x0⟩], some 0xD0000, []⟩,
  -- PCIE.OUT_BASE (R473)
  ⟨0xD000010, [], [⟨63, 0, .rwg, 0x0⟩], some 0xD0000, []⟩,
  -- PCIE.RP_CFG_ADDR (R473)
  ⟨0xD000018, [], [⟨27, 0, .rw, 0x0⟩, ⟨63, 28, .ro, 0x0⟩], none, []⟩,
  -- PCIE.RP_CFG_DATA (R473)
  ⟨0xD000020, [], [⟨31, 0, .rw, 0x0⟩, ⟨63, 32, .ro, 0x0⟩], none, []⟩,
  -- PCIE.RP_MSI_ADDR (R473)
  ⟨0xD000028, [], [⟨63, 0, .rw, 0x0⟩], none, []⟩,
  -- PCIE.RP_MSI_DATA (R473)
  ⟨0xD000030, [], [⟨31, 0, .rc, 0x0⟩, ⟨32, 32, .rc, 0x0⟩, ⟨33, 33, .rc, 0x0⟩, ⟨63, 34, .ro, 0x0⟩], none, []⟩]

def regsWire : List RegKind := [
  -- WIRE.PORT_CTRL (R266)
  ⟨0x1000000, [(0x10000, 8)], [⟨1, 0, .rwg, 0x0⟩, ⟨2, 2, .rwg, 0x0⟩, ⟨7, 3, .ro, 0x0⟩, ⟨11, 8, .rwg, 0x0⟩, ⟨15, 12, .rwg, 0x0⟩, ⟨29, 16, .rwg, 0x3F00⟩, ⟨31, 30, .ro, 0x0⟩, ⟨43, 32, .rwg, 0x0⟩, ⟨47, 44, .ro, 0x0⟩, ⟨55, 48, .rwg, 0x0⟩, ⟨63, 56, .ro, 0x0⟩], some 0x10000, [0x10]⟩,
  -- WIRE.STATION (R266)
  ⟨0x1000010, [(0x10000, 8), (0x8, 4)], [⟨47, 0, .rwg, 0x0⟩, ⟨48, 48, .rwg, 0x0⟩, ⟨49, 49, .rwg, 0x0⟩, ⟨63, 50, .ro, 0x0⟩], some 0x10000, [0x10, 0x0]⟩,
  -- WIRE.KRF_CTRL (R266)
  ⟨0x1000040, [(0x10000, 8)], [⟨15, 0, .rwg, 0x0⟩, ⟨16, 16, .rwg, 0x0⟩, ⟨17, 17, .rwg, 0x1⟩, ⟨18, 18, .rwg, 0x1⟩, ⟨63, 19, .ro, 0x0⟩], some 0x10000, [0x10]⟩,
  -- WIRE.MALFORM_ACTION (R267)
  ⟨0x1000048, [(0x10000, 8)], [⟨1, 0, .ro, 0x0⟩, ⟨3, 2, .ro, 0x0⟩, ⟨5, 4, .ro, 0x0⟩, ⟨7, 6, .ro, 0x0⟩, ⟨9, 8, .rwg, 0x0⟩, ⟨11, 10, .rwg, 0x0⟩, ⟨13, 12, .rwg, 0x0⟩, ⟨15, 14, .ro, 0x0⟩, ⟨17, 16, .rwg, 0x0⟩, ⟨19, 18, .rwg, 0x0⟩, ⟨21, 20, .rwg, 0x0⟩, ⟨23, 22, .rwg, 0x0⟩, ⟨25, 24, .rwg, 0x0⟩, ⟨27, 26, .rwg, 0x1⟩, ⟨29, 28, .rwg, 0x1⟩, ⟨31, 30, .ro, 0x0⟩], some 0x10001, [0x10]⟩,
  -- WIRE.PFC_THRESH (R268)
  ⟨0x1000080, [(0x10000, 8), (0x8, 8)], [⟨15, 0, .rwg, 0x600⟩, ⟨31, 16, .rwg, 0x400⟩, ⟨63, 32, .ro, 0x0⟩], some 0x10002, [0x10, 0x0]⟩,
  -- WIRE.PORT_STATUS (R269)
  ⟨0x1000100, [(0x10000, 8)], [⟨0, 0, .ro, 0x0⟩, ⟨1, 1, .ro, 0x0⟩, ⟨9, 2, .ro, 0x0⟩, ⟨10, 10, .ro, 0x0⟩, ⟨15, 11, .ro, 0x0⟩, ⟨23, 16, .ro, 0x0⟩, ⟨31, 24, .ro, 0x0⟩, ⟨63, 32, .ro, 0x0⟩], none, []⟩,
  -- WIRE.CNT (R270)
  ⟨0x1001000, [(0x10000, 8), (0x800, 2), (0x8, 29)], [⟨63, 0, .ro, 0x0⟩], none, []⟩]

def regsCls : List RegKind := [
  -- CLS.BANK_STATE (R271)
  ⟨0x1800000, [], [⟨0, 0, .ro, 0x0⟩, ⟨1, 1, .ro, 0x1⟩, ⟨2, 2, .w1c, 0x0⟩, ⟨15, 3, .ro, 0x0⟩, ⟨31, 16, .ro, 0x0⟩, ⟨63, 32, .ro, 0x0⟩], none, []⟩,
  -- CLS.BANK_SWAP (R271)
  ⟨0x1800008, [], [⟨62, 0, .ro, 0x0⟩, ⟨63, 63, .wo, 0x0⟩], none, []⟩,
  -- CLS.BANK_ADDR (R271)
  ⟨0x1800010, [], [⟨2, 0, .rw, 0x0⟩, ⟨19, 3, .rw, 0x0⟩, ⟨23, 20, .rw, 0x0⟩, ⟨24, 24, .rw, 0x0⟩, ⟨25, 25, .rw, 0x0⟩, ⟨63, 26, .ro, 0x0⟩], none, []⟩,
  -- CLS.BANK_DATA (R271)
  ⟨0x1800018, [], [⟨63, 0, .rw, 0x0⟩], none, []⟩,
  -- CLS.FLOW_CTRL (R272)
  ⟨0x1800040, [], [⟨31, 0, .rwg, 0x3E8⟩, ⟨32, 32, .rwg, 0x1⟩, ⟨63, 33, .ro, 0x0⟩], some 0x18000, []⟩,
  -- CLS.FLOW_SEL (R272)
  ⟨0x1800048, [], [⟨15, 0, .rw, 0x0⟩, ⟨63, 16, .ro, 0x0⟩], none, []⟩,
  -- CLS.FLOW_DATA (R272)
  ⟨0x1800050, [(0x8, 8)], [⟨63, 0, .ro, 0x0⟩], none, []⟩,
  -- CLS.FLOW_FLUSH (R272)
  ⟨0x1800090, [], [⟨62, 0, .ro, 0x0⟩, ⟨63, 63, .wo, 0x0⟩], none, []⟩,
  -- CLS.UNAVAIL (R273)
  ⟨0x1800100, [(0x8, 16)], [⟨15, 0, .rwg, 0x5000⟩], some 0x18001, [0x0]⟩,
  -- CLS.CNT (R275)
  ⟨0x1800200, [(0x8, 13)], [⟨63, 0, .ro, 0x0⟩], none, []⟩,
  -- CLS.INDIR (R274)
  ⟨0x1900000, [(0x1000, 8), (0x8, 512)], [⟨15, 0, .rw, 0x6000⟩], none, []⟩]

def regsBrm : List RegKind := [
  -- BRM.SLICE_CTRL (R304)
  ⟨0x2000000, [(0x100000, 16)], [⟨15, 0, .rwg, 0x0⟩, ⟨16, 16, .rwg, 0x0⟩, ⟨17, 17, .rwg, 0x0⟩, ⟨63, 18, .ro, 0x0⟩], some 0x20000, [0x10]⟩,
  -- BRM.SLICE_STATUS (R305)
  ⟨0x2000008, [(0x100000, 16)], [⟨1, 0, .ro, 0x0⟩, ⟨4, 2, .ro, 0x0⟩, ⟨5, 5, .ro, 0x0⟩, ⟨7, 6, .ro, 0x0⟩, ⟨15, 8, .ro, 0x0⟩, ⟨31, 16, .ro, 0x0⟩, ⟨63, 32, .ro, 0x0⟩], none, []⟩,
  -- BRM.SLICE_CNT (R306)
  ⟨0x2001000, [(0x100000, 16), (0x8, 17)], [⟨63, 0, .ro, 0x0⟩], none, []⟩,
  -- BRM.MODEL_STATE (R307)
  ⟨0x20F0000, [], [⟨0, 0, .ro, 0x1⟩, ⟨15, 1, .ro, 0x0⟩, ⟨31, 16, .ro, 0x0⟩, ⟨63, 32, .ro, 0x0⟩], none, []⟩]

def regsTime : List RegKind := [
  -- TIME.CTRL (R335)
  ⟨0x3000000, [], [⟨1, 0, .rwg, 0x0⟩, ⟨3, 2, .ro, 0x0⟩, ⟨7, 4, .rwg, 0x0⟩, ⟨11, 8, .rwg, 0x0⟩, ⟨13, 12, .rwg, 0x0⟩, ⟨14, 14, .rwg, 0x0⟩, ⟨15, 15, .rwg, 0x0⟩, ⟨23, 16, .rwg, 0x0⟩, ⟨24, 24, .rwg, 0x1⟩, ⟨31, 25, .ro, 0x0⟩, ⟨43, 32, .rwg, 0x0⟩, ⟨63, 44, .ro, 0x0⟩], some 0x30000, []⟩,
  -- TIME.TC_CTRL (R335)
  ⟨0x3000008, [], [⟨31, 0, .rwg, 0x0⟩, ⟨63, 32, .ro, 0x0⟩], some 0x30000, []⟩,
  -- TIME.TOD_NS (R336)
  ⟨0x3000010, [], [⟨29, 0, .ro, 0x0⟩, ⟨63, 30, .ro, 0x0⟩], none, []⟩,
  -- TIME.TOD_SEC (R336)
  ⟨0x3000018, [], [⟨47, 0, .ro, 0x0⟩, ⟨63, 48, .ro, 0x0⟩], none, []⟩,
  -- TIME.GLC (R336)
  ⟨0x3000020, [], [⟨63, 0, .ro, 0x0⟩], none, []⟩,
  -- TIME.STEP (R336)
  ⟨0x3000028, [], [⟨47, 0, .wo, 0x0⟩, ⟨62, 48, .ro, 0x0⟩, ⟨63, 63, .wo, 0x0⟩], none, []⟩,
  -- TIME.SET_SEC (R336)
  ⟨0x3000030, [], [⟨47, 0, .rw, 0x0⟩, ⟨63, 48, .ro, 0x0⟩], none, []⟩,
  -- TIME.SET_NS (R336)
  ⟨0x3000038, [], [⟨29, 0, .rw, 0x0⟩, ⟨62, 30, .ro, 0x0⟩, ⟨63, 63, .wo, 0x0⟩], none, []⟩,
  -- TIME.RATE (R336)
  ⟨0x3000040, [], [⟨31, 0, .rw, 0x0⟩, ⟨63, 32, .ro, 0x0⟩], none, []⟩,
  -- TIME.STATUS (R336)
  ⟨0x3000048, [], [⟨2, 0, .ro, 0x0⟩, ⟨3, 3, .ro, 0x0⟩, ⟨7, 4, .ro, 0x0⟩, ⟨15, 8, .ro, 0x0⟩, ⟨31, 16, .ro, 0x0⟩, ⟨47, 32, .ro, 0xFFFF⟩, ⟨63, 48, .ro, 0x0⟩], none, []⟩,
  -- TIME.UTC (R336)
  ⟨0x3000050, [], [⟨15, 0, .rw, 0x25⟩, ⟨63, 16, .ro, 0x0⟩], none, []⟩,
  -- TIME.PPS_IN (R336)
  ⟨0x3000058, [], [⟨63, 0, .ro, 0x0⟩], none, []⟩,
  -- TIME.LAUNCH_GLC (R336)
  ⟨0x3000060, [], [⟨63, 0, .ro, 0x0⟩], none, []⟩,
  -- TIME.LAUNCH_STATUS (R336)
  ⟨0x3000068, [], [⟨0, 0, .ro, 0x0⟩, ⟨1, 1, .ro, 0x0⟩, ⟨2, 2, .ro, 0x0⟩, ⟨31, 3, .ro, 0x0⟩, ⟨47, 32, .ro, 0xFFFF⟩, ⟨63, 48, .ro, 0x0⟩], none, []⟩,
  -- TIME.PULSE_START (R337)
  ⟨0x3000100, [(0x20, 4)], [⟨63, 0, .rwg, 0x0⟩], some 0x30001, [0x1]⟩,
  -- TIME.PULSE_CFG (R337)
  ⟨0x3000108, [(0x20, 4)], [⟨1, 0, .rwg, 0x0⟩, ⟨2, 2, .rwg, 0x0⟩, ⟨31, 3, .ro, 0x0⟩, ⟨63, 32, .rwg, 0x0⟩], some 0x30001, [0x1]⟩,
  -- TIME.PULSE_PERIOD (R337)
  ⟨0x3000110, [(0x20, 4)], [⟨39, 0, .rwg, 0x3B9ACA00⟩, ⟨63, 40, .ro, 0x0⟩], some 0x30001, [0x1]⟩,
  -- TIME.PULSE_STATUS (R337)
  ⟨0x3000118, [(0x20, 4)], [⟨0, 0, .w1c, 0x0⟩, ⟨1, 1, .ro, 0x0⟩, ⟨31, 2, .ro, 0x0⟩, ⟨63, 32, .ro, 0x0⟩], none, []⟩,
  -- TIME.CNT (R338)
  ⟨0x3001000, [(0x8, 7)], [⟨63, 0, .ro, 0x0⟩], none, []⟩]

def regsMem : List RegKind := [
  -- MEM.T1_MAP (R223)
  ⟨0x4000000, [], [⟨10, 0, .rwg, 0x0⟩, ⟨63, 11, .ro, 0x0⟩], some 0x40001, []⟩,
  -- MEM.T2_STATUS (R224)
  ⟨0x4000008, [], [⟨15, 0, .ro, 0x0⟩, ⟨20, 16, .ro, 0x0⟩, ⟨31, 21, .ro, 0x0⟩, ⟨40, 32, .ro, 0x0⟩, ⟨63, 41, .ro, 0x0⟩], none, []⟩,
  -- MEM.GROTTO_CTRL (R225)
  ⟨0x4000010, [], [⟨31, 0, .rwg, 0x100⟩, ⟨32, 32, .rwg, 0x1⟩, ⟨39, 33, .ro, 0x0⟩, ⟨47, 40, .rwg, 0x2⟩, ⟨63, 48, .ro, 0x0⟩], some 0x40000, []⟩,
  -- MEM.SCRUB_CTRL (R226)
  ⟨0x4000018, [], [⟨15, 0, .rwg, 0x18⟩, ⟨31, 16, .rwg, 0x18⟩, ⟨63, 32, .ro, 0x0⟩], some 0x40002, []⟩,
  -- MEM.PC_RETIRED (R227)
  ⟨0x4000100, [(0x8, 20)], [⟨63, 0, .ro, 0x0⟩], none, []⟩,
  -- MEM.STACK_STATE (R227)
  ⟨0x4000200, [(0x8, 20)], [⟨1, 0, .ro, 0x0⟩, ⟨2, 2, .ro, 0x0⟩, ⟨7, 3, .ro, 0x0⟩, ⟨23, 8, .ro, 0x0⟩, ⟨63, 24, .ro, 0x0⟩], none, []⟩,
  -- MEM.ECC_CNT (R228)
  ⟨0x4001000, [(0x20, 36), (0x8, 4)], [⟨63, 0, .ro, 0x0⟩], none, []⟩]

def regsEmb : List RegKind := [
  -- EMB.PRESS_CTRL (R186)
  ⟨0x5000000, [], [⟨31, 0, .rwg, 0x1000⟩, ⟨55, 32, .rwg, 0x4000⟩, ⟨63, 56, .ro, 0x0⟩], some 0x50000, []⟩,
  -- EMB.TABLE_SEL (R187)
  ⟨0x5000010, [], [⟨7, 0, .rw, 0x0⟩, ⟨63, 8, .ro, 0x0⟩], none, []⟩,
  -- EMB.TABLE_STATE (R187)
  ⟨0x5000018, [], [⟨39, 0, .ro, 0x0⟩, ⟨40, 40, .ro, 0x0⟩, ⟨41, 41, .ro, 0x0⟩, ⟨63, 42, .ro, 0x0⟩], none, []⟩,
  -- EMB.TABLE_STEP (R187)
  ⟨0x5000020, [], [⟨63, 0, .ro, 0xFFFFFFFFFFFFFFFF⟩], none, []⟩,
  -- EMB.NTS_SEL (R188)
  ⟨0x5000040, [], [⟨5, 0, .rw, 0x0⟩, ⟨63, 6, .ro, 0x0⟩], none, []⟩,
  -- EMB.NTS_STATE (R188)
  ⟨0x5000048, [], [⟨0, 0, .ro, 0x0⟩, ⟨1, 1, .ro, 0x0⟩, ⟨2, 2, .ro, 0x0⟩, ⟨3, 3, .ro, 0x0⟩, ⟨7, 4, .ro, 0x0⟩, ⟨23, 8, .ro, 0x0⟩, ⟨31, 24, .ro, 0x0⟩, ⟨63, 32, .ro, 0x0⟩], none, []⟩,
  -- EMB.NTS_SWITCH (R188)
  ⟨0x5000050, [], [⟨5, 0, .wo, 0x0⟩, ⟨9, 8, .wo, 0x0⟩, ⟨62, 10, .ro, 0x0⟩, ⟨63, 63, .wo, 0x0⟩], none, []⟩,
  -- EMB.NTS_RESULT (R188)
  ⟨0x5000058, [], [⟨7, 0, .ro, 0x0⟩, ⟨13, 8, .ro, 0x0⟩, ⟨63, 14, .ro, 0x0⟩], none, []⟩]

def regsChk : List RegKind := [
  -- CHK.TWIN_CTRL (R362)
  ⟨0x6000000, [], [⟨0, 0, .rwg, 0x0⟩, ⟨63, 1, .ro, 0x0⟩], some 0x60000, []⟩,
  -- CHK.ECHO_CTRL (R363)
  ⟨0x6000008, [], [⟨15, 0, .rwg, 0x8⟩, ⟨23, 16, .rwg, 0x2⟩, ⟨24, 24, .rwg, 0x0⟩, ⟨63, 25, .ro, 0x0⟩], some 0x60001, []⟩,
  -- CHK.ERR_RING (R364)
  ⟨0x6000010, [], [⟨47, 0, .rwg, 0x0⟩, ⟨52, 48, .rwg, 0xC⟩, ⟨53, 53, .rwg, 0x0⟩, ⟨63, 54, .ro, 0x0⟩], some 0x60002, []⟩,
  -- CHK.ERR_HEAD (R365)
  ⟨0x6000018, [], [⟨31, 0, .ro, 0x0⟩, ⟨63, 32, .ro, 0x0⟩], none, []⟩,
  -- CHK.ERR_TAIL (R365)
  ⟨0x6000020, [], [⟨31, 0, .rw, 0x0⟩, ⟨63, 32, .ro, 0x0⟩], none, []⟩,
  -- CHK.ERR_STATUS (R365)
  ⟨0x6000028, [], [⟨0, 0, .ro, 0x0⟩, ⟨1, 1, .w1c, 0x0⟩, ⟨2, 2, .w1c, 0x0⟩, ⟨31, 3, .ro, 0x0⟩, ⟨63, 32, .ro, 0x0⟩], none, []⟩,
  -- CHK.ECHO_STATUS (R366)
  ⟨0x6000030, [], [⟨1, 0, .ro, 0x0⟩, ⟨2, 2, .ro, 0x0⟩, ⟨3, 3, .ro, 0x0⟩, ⟨63, 4, .ro, 0x0⟩], none, []⟩,
  -- CHK.ECHO_AGREED (R366)
  ⟨0x6000058, [], [⟨63, 0, .ro, 0xFFFFFFFFFFFFFFFF⟩], none, []⟩,
  -- CHK.PIP_SEL (R367)
  ⟨0x6000038, [], [⟨15, 0, .rw, 0x0⟩, ⟨63, 16, .ro, 0x0⟩], none, []⟩,
  -- CHK.PIP_WRITE (R367)
  ⟨0x6000040, [], [⟨60, 0, .ro, 0x0⟩, ⟨62, 61, .ro, 0x0⟩, ⟨63, 63, .ro, 0x0⟩], none, []⟩,
  -- CHK.PIP_READ (R367)
  ⟨0x6000048, [], [⟨60, 0, .ro, 0x0⟩, ⟨62, 61, .ro, 0x0⟩, ⟨63, 63, .ro, 0x0⟩], none, []⟩,
  -- CHK.PIP_STEP (R367)
  ⟨0x6000050, [], [⟨63, 0, .ro, 0xFFFFFFFFFFFFFFFF⟩], none, []⟩,
  -- CHK.CNT (R368)
  ⟨0x6000100, [(0x8, 19)], [⟨63, 0, .ro, 0x0⟩], none, []⟩,
  -- CHK.LINK_CNT (R369)
  ⟨0x6001000, [(0x100, 4), (0x20, 4), (0x8, 3)], [⟨63, 0, .ro, 0x0⟩], none, []⟩]

def regsFlt : List RegKind := [
  -- FLT.CKPT_CTRL (R406)
  ⟨0x7000000, [], [⟨0, 0, .rwg, 0x0⟩, ⟨1, 1, .rwg, 0x0⟩, ⟨7, 2, .ro, 0x0⟩, ⟨14, 8, .rwg, 0x1⟩, ⟨63, 15, .ro, 0x0⟩], some 0x70000, []⟩,
  -- FLT.CKPT_BASE (R406)
  ⟨0x7000010, [(0x8, 4)], [⟨47, 0, .rwg, 0x0⟩, ⟨63, 48, .ro, 0x0⟩], some 0x70000, [0x0]⟩,
  -- FLT.CKPT_SIZE (R406)
  ⟨0x7000030, [(0x8, 4)], [⟨47, 0, .rwg, 0x0⟩, ⟨63, 48, .ro, 0x0⟩], some 0x70000, [0x0]⟩,
  -- FLT.CKPT_NEED (R407)
  ⟨0x7000050, [(0x8, 4)], [⟨47, 0, .ro, 0x0⟩], none, []⟩,
  -- FLT.RECOVERY_CTRL (R408)
  ⟨0x7000080, [], [⟨0, 0, .rwg, 0x0⟩, ⟨1, 1, .rwg, 0x1⟩, ⟨15, 2, .ro, 0x0⟩, ⟨31, 16, .rwg, 0xA8⟩, ⟨47, 32, .rwg, 0x18⟩, ⟨63, 48, .ro, 0x0⟩], some 0x70001, []⟩,
  -- FLT.RECOVERY_STATUS (R409)
  ⟨0x7000088, [], [⟨2, 0, .ro, 0x0⟩, ⟨3, 3, .ro, 0x0⟩, ⟨7, 4, .ro, 0x0⟩, ⟨11, 8, .ro, 0x0⟩, ⟨15, 12, .ro, 0x0⟩, ⟨47, 16, .ro, 0x0⟩, ⟨55, 48, .ro, 0x0⟩, ⟨56, 56, .ro, 0x0⟩, ⟨63, 57, .ro, 0x0⟩], none, []⟩,
  -- FLT.UNIT_SEL (R410)
  ⟨0x70000A0, [], [⟨31, 0, .rw, 0x0⟩, ⟨63, 32, .ro, 0x0⟩], none, []⟩,
  -- FLT.UNIT_STATE (R410)
  ⟨0x70000A8, [], [⟨2, 0, .ro, 0x0⟩, ⟨7, 3, .ro, 0x0⟩, ⟨15, 8, .ro, 0x0⟩, ⟨23, 16, .ro, 0x0⟩, ⟨31, 24, .ro, 0x0⟩, ⟨63, 32, .ro, 0x0⟩], none, []⟩,
  -- FLT.UNIT_CMD (R410)
  ⟨0x70000B0, [], [⟨31, 0, .wo, 0x0⟩, ⟨33, 32, .wo, 0x0⟩, ⟨62, 34, .ro, 0x0⟩, ⟨63, 63, .wo, 0x0⟩], none, []⟩,
  -- FLT.UNIT_RESULT (R410)
  ⟨0x70000B8, [], [⟨7, 0, .ro, 0x0⟩, ⟨8, 8, .ro, 0x0⟩, ⟨9, 9, .ro, 0x0⟩, ⟨31, 10, .ro, 0x0⟩, ⟨63, 32, .ro, 0x0⟩], none, []⟩,
  -- FLT.POWER_SECONDS (R410)
  ⟨0x70000C0, [], [⟨31, 0, .ro, 0x0⟩, ⟨63, 32, .ro, 0x0⟩], none, []⟩,
  -- FLT.PACK_ADDR (R411)
  ⟨0x7000100, [], [⟨47, 0, .rw, 0x0⟩, ⟨63, 48, .ro, 0x0⟩], none, []⟩,
  -- FLT.PACK_CTRL (R411)
  ⟨0x7000108, [], [⟨62, 0, .ro, 0x0⟩, ⟨63, 63, .wo, 0x0⟩], none, []⟩,
  -- FLT.PACK_STATUS (R411)
  ⟨0x7000110, [], [⟨0, 0, .ro, 0x0⟩, ⟨7, 1, .ro, 0x0⟩, ⟨15, 8, .ro, 0x0⟩, ⟨31, 16, .ro, 0x0⟩, ⟨63, 32, .ro, 0x0⟩], none, []⟩,
  -- FLT.LOG_SEL (R412)
  ⟨0x7000140, [], [⟨18, 0, .rw, 0x0⟩], none, []⟩,
  -- FLT.LOG_HEAD (R412)
  ⟨0x7000148, [], [⟨31, 0, .ro, 0x0⟩, ⟨63, 32, .ro, 0x0⟩], none, []⟩,
  -- FLT.LOG_DATA (R412)
  ⟨0x7000150, [(0x8, 8)], [⟨63, 0, .ro, 0x0⟩], none, []⟩,
  -- FLT.CNT (R413)
  ⟨0x7000200, [(0x8, 11)], [⟨63, 0, .ro, 0x0⟩], none, []⟩]

def regsDet : List RegKind := [
  -- DET.CTRL (R433)
  ⟨0x8000000, [], [⟨0, 0, .rwg, 0x0⟩, ⟨1, 1, .rwg, 0x0⟩, ⟨2, 2, .rwg, 0x0⟩, ⟨63, 3, .ro, 0x0⟩], some 0x80000, []⟩,
  -- DET.RANK (R434)
  ⟨0x8000008, [], [⟨15, 0, .rwg, 0x0⟩, ⟨21, 16, .rwg, 0x0⟩, ⟨63, 22, .ro, 0x0⟩], some 0x80001, []⟩,
  -- DET.TRACE_RING (R435)
  ⟨0x8000010, [], [⟨47, 0, .rwg, 0x0⟩, ⟨52, 48, .rwg, 0x10⟩, ⟨63, 53, .ro, 0x0⟩], some 0x80002, []⟩,
  -- DET.TRACE_HEAD (R435)
  ⟨0x8000018, [], [⟨31, 0, .ro, 0x0⟩, ⟨63, 32, .ro, 0x0⟩], none, []⟩,
  -- DET.TRACE_TAIL (R435)
  ⟨0x8000020, [], [⟨31, 0, .rw, 0x0⟩, ⟨63, 32, .ro, 0x0⟩], none, []⟩,
  -- DET.STATUS (R436)
  ⟨0x8000028, [], [⟨0, 0, .ro, 0x0⟩, ⟨1, 1, .ro, 0x0⟩, ⟨7, 2, .ro, 0x0⟩, ⟨11, 8, .ro, 0xF⟩, ⟨15, 12, .ro, 0x0⟩, ⟨31, 16, .ro, 0x0⟩, ⟨63, 32, .ro, 0x0⟩], none, []⟩,
  -- DET.SNAP_ADDR (R437)
  ⟨0x8000040, [], [⟨47, 0, .rw, 0x0⟩, ⟨63, 48, .ro, 0x0⟩], none, []⟩,
  -- DET.SNAP_CTRL (R437)
  ⟨0x8000048, [], [⟨1, 0, .wo, 0x0⟩, ⟨2, 2, .wo, 0x0⟩, ⟨3, 3, .wo, 0x0⟩, ⟨62, 4, .ro, 0x0⟩, ⟨63, 63, .wo, 0x0⟩], none, []⟩,
  -- DET.SNAP_STATUS (R437)
  ⟨0x8000050, [], [⟨0, 0, .ro, 0x0⟩, ⟨1, 1, .ro, 0x0⟩, ⟨7, 2, .ro, 0x0⟩, ⟨15, 8, .ro, 0x0⟩, ⟨31, 16, .ro, 0xFFFF⟩, ⟨63, 32, .ro, 0x0⟩], none, []⟩,
  -- DET.SNAP_NEED_FULL (R437)
  ⟨0x8000058, [], [⟨47, 0, .ro, 0x0⟩, ⟨63, 48, .ro, 0x0⟩], none, []⟩,
  -- DET.SNAP_NEED_MANIFEST (R437)
  ⟨0x8000060, [], [⟨47, 0, .ro, 0x0⟩, ⟨63, 48, .ro, 0x0⟩], none, []⟩,
  -- DET.CNT (R438)
  ⟨0x8000100, [(0x8, 8)], [⟨63, 0, .ro, 0x0⟩], none, []⟩]

def regsPwr : List RegKind := [
  -- PWR.RAIL (R497)
  ⟨0x9000000, [(0x8, 14)], [⟨15, 0, .ro, 0x0⟩, ⟨31, 16, .ro, 0xFFFF⟩, ⟨47, 32, .ro, 0x0⟩, ⟨63, 48, .ro, 0x0⟩], none, []⟩,
  -- PWR.REARM (R497)
  ⟨0x9000080, [], [⟨13, 0, .wo, 0x0⟩, ⟨20, 16, .wo, 0x0⟩, ⟨63, 21, .ro, 0x0⟩], none, []⟩,
  -- PWR.THERM (R497)
  ⟨0x9000100, [(0x8, 5)], [⟨15, 0, .ro, 0x0⟩, ⟨18, 16, .ro, 0x0⟩, ⟨19, 19, .ro, 0x0⟩, ⟨31, 20, .ro, 0x0⟩, ⟨47, 32, .ro, 0x8000⟩, ⟨63, 48, .ro, 0x0⟩], none, []⟩,
  -- PWR.THROTTLE_CTRL (R498)
  ⟨0x9000180, [], [⟨7, 0, .rwg, 0x69⟩, ⟨63, 8, .ro, 0x0⟩], some 0x90000, []⟩,
  -- PWR.CNT (R499)
  ⟨0x9001000, [(0x8, 20)], [⟨63, 0, .ro, 0x0⟩], none, []⟩]

def regsMtr : List RegKind := [
  -- MTR.IDENT (R500)
  ⟨0xA000000, [], [⟨15, 0, .ro, 0x0⟩, ⟨31, 16, .ro, 0x1⟩], none, []⟩,
  -- MTR.SW_DIGEST (R500)
  ⟨0xA000008, [], [⟨63, 0, .ro, 0x0⟩], none, []⟩,
  -- MTR.SERIAL (R500)
  ⟨0xA000010, [], [⟨63, 0, .ro, 0x0⟩], none, []⟩,
  -- MTR.STATUS (R500)
  ⟨0xA000018, [], [⟨0, 0, .ro, 0x0⟩, ⟨1, 1, .ro, 0x0⟩, ⟨2, 2, .ro, 0x0⟩, ⟨31, 3, .ro, 0x0⟩, ⟨63, 32, .ro, 0x0⟩], none, []⟩,
  -- MTR.LATEST (R500)
  ⟨0xA000100, [(0x8, 26)], [⟨63, 0, .ro, 0x0⟩], none, []⟩,
  -- MTR.LATEST_GLC (R500)
  ⟨0xA0001D0, [], [⟨63, 0, .ro, 0x0⟩], none, []⟩,
  -- MTR.HIST_SEL (R500)
  ⟨0xA000200, [], [⟨11, 0, .rw, 0x0⟩], none, []⟩,
  -- MTR.HIST_DATA (R500)
  ⟨0xA000208, [(0x8, 26)], [⟨63, 0, .ro, 0x0⟩], none, []⟩,
  -- MTR.HIST_GLC (R500)
  ⟨0xA0002D8, [], [⟨63, 0, .ro, 0x0⟩], none, []⟩,
  -- MTR.PUBKEY (R500)
  ⟨0xA000400, [(0x8, 8)], [⟨63, 0, .ro, 0x0⟩], none, []⟩,
  -- MTR.CERT (R500)
  ⟨0xA000500, [(0x8, 22)], [⟨63, 0, .ro, 0x0⟩], none, []⟩]

def regsSec : List RegKind := [
  -- SEC.SLOT (R502)
  ⟨0xB000000, [(0x8, 10)], [⟨1, 0, .ro, 0x0⟩], none, []⟩,
  -- SEC.MIN_VERSION (R502)
  ⟨0xB000080, [], [⟨7, 0, .ro, 0x0⟩, ⟨15, 8, .ro, 0x0⟩, ⟨23, 16, .ro, 0x0⟩, ⟨31, 24, .ro, 0x0⟩], none, []⟩,
  -- SEC.FUSE_CMD (R502)
  ⟨0xB000088, [], [⟨1, 0, .wo, 0x0⟩, ⟨5, 2, .wo, 0x0⟩, ⟨7, 6, .wo, 0x0⟩, ⟨62, 8, .ro, 0x0⟩, ⟨63, 63, .wo, 0x0⟩], none, []⟩,
  -- SEC.FUSE_DATA (R502)
  ⟨0xB000090, [(0x8, 6)], [⟨63, 0, .rw, 0x0⟩], none, []⟩,
  -- SEC.FUSE_STATUS (R502)
  ⟨0xB0000C0, [], [⟨0, 0, .ro, 0x0⟩, ⟨7, 1, .ro, 0x0⟩, ⟨15, 8, .ro, 0x0⟩, ⟨63, 16, .ro, 0x0⟩], none, []⟩,
  -- SEC.ALARM_ACTION (R501)
  ⟨0xB000100, [], [⟨11, 0, .rwg, 0x265⟩, ⟨15, 12, .ro, 0x0⟩, ⟨16, 16, .rwg, 0x0⟩, ⟨63, 17, .ro, 0x0⟩], some 0xB0000, []⟩,
  -- SEC.ALARM_STATUS (R502)
  ⟨0xB000108, [], [⟨5, 0, .ro, 0x0⟩, ⟨6, 6, .ro, 0x0⟩, ⟨7, 7, .ro, 0x0⟩, ⟨31, 8, .ro, 0x0⟩, ⟨63, 32, .ro, 0x0⟩], none, []⟩,
  -- SEC.KEY_SEL (R502)
  ⟨0xB000110, [], [⟨3, 0, .rw, 0x0⟩, ⟨63, 4, .ro, 0x0⟩], none, []⟩,
  -- SEC.KEY_DATA (R502)
  ⟨0xB000118, [(0x8, 4)], [⟨63, 0, .rw, 0x0⟩], none, []⟩]

def regsClu : List RegKind := [
  -- CLU.CMAP (R38)
  ⟨0x10000000, [(0x10000000, 4)], [⟨16, 0, .ro, 0x0⟩, ⟨23, 17, .ro, 0x0⟩, ⟨28, 24, .ro, 0x0⟩, ⟨31, 29, .ro, 0x0⟩, ⟨47, 32, .ro, 0x0⟩, ⟨63, 48, .ro, 0x0⟩], none, []⟩,
  -- CLU.LMAP0 (R39)
  ⟨0x10000008, [(0x10000000, 4)], [⟨63, 0, .ro, 0x0⟩], none, []⟩,
  -- CLU.LMAP1 (R39)
  ⟨0x10000010, [(0x10000000, 4)], [⟨63, 0, .ro, 0x0⟩], none, []⟩,
  -- CLU.DLINK (R43)
  ⟨0x10000080, [(0x10000000, 4), (0x8, 4)], [⟨5, 0, .ro, 0x0⟩, ⟨6, 6, .ro, 0x0⟩, ⟨7, 7, .ro, 0x0⟩, ⟨13, 8, .ro, 0x0⟩, ⟨63, 14, .ro, 0x0⟩], none, []⟩,
  -- CLU.KMAP (R40)
  ⟨0x10000100, [(0x10000000, 4), (0x8, 17)], [⟨8, 0, .ro, 0x0⟩, ⟨15, 9, .ro, 0x0⟩, ⟨47, 16, .ro, 0x0⟩, ⟨48, 48, .ro, 0x0⟩, ⟨63, 49, .ro, 0x0⟩], none, []⟩,
  -- CLU.EMAP (R41)
  ⟨0x10001000, [(0x10000000, 4), (0x80, 17), (0x8, 9)], [⟨8, 0, .ro, 0x0⟩, ⟨15, 9, .ro, 0x0⟩, ⟨47, 16, .ro, 0x0⟩, ⟨48, 48, .ro, 0x0⟩, ⟨63, 49, .ro, 0x0⟩], none, []⟩,
  -- CLU.STASH_STAT (R146)
  ⟨0x10002000, [(0x10000000, 4)], [⟨2, 0, .ro, 0x0⟩, ⟨3, 3, .ro, 0x0⟩, ⟨15, 4, .ro, 0x0⟩, ⟨31, 16, .ro, 0xFFFF⟩, ⟨63, 32, .ro, 0x0⟩], none, []⟩,
  -- CLU.STASH_STALL_CYCLES (R147)
  ⟨0x10002008, [(0x10000000, 4)], [⟨63, 0, .ro, 0x0⟩], none, []⟩]

def regsPress : List RegKind := [
  -- PRESS.CNT (R189)
  ⟨0x10100000, [(0x10000000, 4), (0x40, 16), (0x8, 7)], [⟨63, 0, .ro, 0x0⟩], none, []⟩]

def regsGrot : List RegKind := [
  -- GROT.CNT (R229)
  ⟨0x10200000, [(0x10000000, 4), (0x40, 16), (0x8, 8)], [⟨63, 0, .ro, 0x0⟩], none, []⟩]

def regsEchk : List RegKind := [
  -- ECHK.CNT (R370)
  ⟨0x10300000, [(0x10000000, 4), (0x2000, 16), (0x400, 8), (0x80, 8), (0x8, 5)], [⟨63, 0, .ro, 0x0⟩], none, []⟩]

def regKinds : List RegKind :=
  regsPkg ++ regsCfg ++ regsHub ++ regsObc ++ regsPcie ++ regsWire ++ regsCls ++ regsBrm ++ regsTime ++ regsMem ++ regsEmb ++ regsChk ++ regsFlt ++ regsDet ++ regsPwr ++ regsMtr ++ regsSec ++ regsClu ++ regsPress ++ regsGrot ++ regsEchk

/-- The index that an offset has under the strides. -/
def strideIdx : List (Nat × Nat) → Nat → Option (List Nat)
  | [], 0 => some []
  | [], _ + 1 => none
  | (st, n) :: rest, off =>
    if off / st < n then (strideIdx rest (off % st)).map (off / st :: ·) else none

/-- The kind and index of the register at an offset. -/
def locateIn : List RegKind → Nat → Option (RegKind × List Nat)
  | [], _ => none
  | k :: ks, off =>
    if k.base ≤ off then
      match strideIdx k.strides (off - k.base) with
      | some ix => some (k, ix)
      | none => locateIn ks off
    else locateIn ks off

def locate (off : Nat) : Option (RegKind × List Nat) := locateIn regKinds off

/-- The commit group of a register (R15). -/
def RegKind.groupOf (k : RegKind) (ix : List Nat) : Option Nat :=
  k.group.map fun g => g + ((ix.zip k.gstep).map fun p => p.1 * p.2).sum

/-- The reset value the field tables give; the forwarding peers of port n start at port n xor 1 (Table 7.12), and key
slots 0 to 3 are valid from manufacture (Table 14.9). -/
def resetNat (off : Nat) : Nat :=
  match locate off with
  | none => 0
  | some (k, ix) =>
    let base := (k.fields.map fun f => (f.reset % 2 ^ (f.hi + 1 - f.lo)) <<< f.lo).sum
    match ix with
    | [n] => if k.base = 0x1000000 then base + ((2 * (n ^^^ 1)) <<< 8) + ((2 * (n ^^^ 1) + 1) <<< 12)
      else if k.base = 0xB000000 ∧ n < 4 then base + 1 else base
    | _ => base

end Sys2Proof.Machine
end

