-- ==== Sys2Proof/Machine/RegNames.lean ====
section
/-! DEFINITION. Names for the registers' offsets and fields, as the spec's register tables give them. -/

namespace Sys2Proof.Machine

/-- A field of a register: offset, high and low bit. -/
structure Fld where
  off : Nat
  hi : Nat
  lo : Nat
deriving DecidableEq, Repr

namespace Reg

/-- PKG.IDENT (R6). -/
def pkgIdent : Nat := 0x0
def pkgIdentIdent : Fld := ⟨pkgIdent, 63, 0⟩
/-- PKG.BOOT_STATUS (R516). -/
def pkgBootStatus : Nat := 0x8
def pkgBootStatusPhase : Fld := ⟨pkgBootStatus, 3, 0⟩
def pkgBootStatusCode : Fld := ⟨pkgBootStatus, 15, 8⟩
def pkgBootStatusWarn : Fld := ⟨pkgBootStatus, 24, 16⟩
def pkgBootStatusElapsedMs : Fld := ⟨pkgBootStatus, 63, 32⟩
/-- PKG.RESET_CTRL (R517). -/
def pkgResetCtrl : Nat := 0x10
def pkgResetCtrlPackage : Fld := ⟨pkgResetCtrl, 0, 0⟩
def pkgResetCtrlCores : Fld := ⟨pkgResetCtrl, 1, 1⟩
def pkgResetCtrlKey : Fld := ⟨pkgResetCtrl, 47, 32⟩
def pkgResetCtrlGo : Fld := ⟨pkgResetCtrl, 63, 63⟩
/-- PKG.RESET_CAUSE (R518). -/
def pkgResetCause : Nat := 0x18
def pkgResetCausePowerOn : Fld := ⟨pkgResetCause, 0, 0⟩
def pkgResetCauseResetN : Fld := ⟨pkgResetCause, 1, 1⟩
def pkgResetCauseRequest : Fld := ⟨pkgResetCause, 2, 2⟩
def pkgResetCauseCores : Fld := ⟨pkgResetCause, 3, 3⟩
def pkgResetCausePerst : Fld := ⟨pkgResetCause, 4, 4⟩
def pkgResetCausePackageResets : Fld := ⟨pkgResetCause, 31, 16⟩
def pkgResetCauseCoreResets : Fld := ⟨pkgResetCause, 47, 32⟩
/-- CFG.CAPS (R96). -/
def cfgCaps : Nat := 0x100000
def cfgCapsFormatMajor : Fld := ⟨cfgCaps, 7, 0⟩
def cfgCapsFormatMinorMax : Fld := ⟨cfgCaps, 15, 8⟩
def cfgCapsMaxClusters : Fld := ⟨cfgCaps, 20, 16⟩
def cfgCapsFeatures : Fld := ⟨cfgCaps, 63, 32⟩
/-- CFG.LOAD_ADDR (R105). -/
def cfgLoadAddr : Nat := 0x100010
def cfgLoadAddrAddr : Fld := ⟨cfgLoadAddr, 47, 0⟩
/-- CFG.LOAD_CTRL (R106). -/
def cfgLoadCtrl : Nat := 0x100018
def cfgLoadCtrlOp : Fld := ⟨cfgLoadCtrl, 1, 0⟩
def cfgLoadCtrlSource : Fld := ⟨cfgLoadCtrl, 2, 2⟩
def cfgLoadCtrlDieMask : Fld := ⟨cfgLoadCtrl, 11, 8⟩
def cfgLoadCtrlHub : Fld := ⟨cfgLoadCtrl, 12, 12⟩
def cfgLoadCtrlClusterMask : Fld := ⟨cfgLoadCtrl, 31, 16⟩
def cfgLoadCtrlKindMask : Fld := ⟨cfgLoadCtrl, 47, 32⟩
def cfgLoadCtrlGo : Fld := ⟨cfgLoadCtrl, 63, 63⟩
/-- CFG.LOAD_STATUS (R107). -/
def cfgLoadStatus : Nat := 0x100020
def cfgLoadStatusState : Fld := ⟨cfgLoadStatus, 2, 0⟩
def cfgLoadStatusReloadPending : Fld := ⟨cfgLoadStatus, 3, 3⟩
def cfgLoadStatusBusy : Fld := ⟨cfgLoadStatus, 4, 4⟩
def cfgLoadStatusCode : Fld := ⟨cfgLoadStatus, 15, 8⟩
def cfgLoadStatusSection : Fld := ⟨cfgLoadStatus, 31, 16⟩
def cfgLoadStatusDetail : Fld := ⟨cfgLoadStatus, 63, 32⟩
/-- CFG.IMAGE_ID (R108). -/
def cfgImageId : Nat := 0x100028
def cfgImageIdImageId : Fld := ⟨cfgImageId, 63, 0⟩
/-- CFG.EPOCH (R123). -/
def cfgEpoch : Nat := 0x100030
def cfgEpochEpoch : Fld := ⟨cfgEpoch, 31, 0⟩
/-- CFG.RUN_CTRL (R109). -/
def cfgRunCtrl : Nat := 0x100040
def cfgRunCtrlStart : Fld := ⟨cfgRunCtrl, 0, 0⟩
def cfgRunCtrlStop : Fld := ⟨cfgRunCtrl, 1, 1⟩
def cfgRunCtrlAbort : Fld := ⟨cfgRunCtrl, 2, 2⟩
def cfgRunCtrlAt : Fld := ⟨cfgRunCtrl, 3, 3⟩
def cfgRunCtrlStepLimit : Fld := ⟨cfgRunCtrl, 63, 32⟩
/-- CFG.RUN_AT (R111). -/
def cfgRunAt : Nat := 0x100048
def cfgRunAtGlc : Fld := ⟨cfgRunAt, 63, 0⟩
/-- CFG.STEP (R111). -/
def cfgStep : Nat := 0x100050
def cfgStepStep : Fld := ⟨cfgStep, 63, 0⟩
/-- CFG.EPOCH_QUERY (R123). -/
def cfgEpochQuery : Nat := 0x100060
def cfgEpochQueryUnit : Fld := ⟨cfgEpochQuery, 17, 0⟩
def cfgEpochQueryValid : Fld := ⟨cfgEpochQuery, 18, 18⟩
def cfgEpochQueryRoutable : Fld := ⟨cfgEpochQuery, 19, 19⟩
def cfgEpochQueryEpoch : Fld := ⟨cfgEpochQuery, 63, 32⟩
/-- CFG.COMMIT_STATUS (R117). -/
def cfgCommitStatus : Nat := 0x100088
def cfgCommitStatusGroup : Fld := ⟨cfgCommitStatus, 19, 0⟩
def cfgCommitStatusChecking : Fld := ⟨cfgCommitStatus, 20, 20⟩
def cfgCommitStatusOverrun : Fld := ⟨cfgCommitStatus, 21, 21⟩
def cfgCommitStatusCode : Fld := ⟨cfgCommitStatus, 31, 24⟩
def cfgCommitStatusDetail : Fld := ⟨cfgCommitStatus, 59, 32⟩
/-- CFG.GROUP_QUERY (R118). -/
def cfgGroupQuery : Nat := 0x100090
def cfgGroupQueryGroup : Fld := ⟨cfgGroupQuery, 19, 0⟩
def cfgGroupQueryKnown : Fld := ⟨cfgGroupQuery, 20, 20⟩
def cfgGroupQueryPending : Fld := ⟨cfgGroupQuery, 21, 21⟩
def cfgGroupQueryLastCode : Fld := ⟨cfgGroupQuery, 31, 24⟩
def cfgGroupQueryApplied : Fld := ⟨cfgGroupQuery, 63, 32⟩
/-- CFG.ACTIVE_SEL (R119). -/
def cfgActiveSel : Nat := 0x100098
def cfgActiveSelOffset : Fld := ⟨cfgActiveSel, 39, 0⟩
/-- CFG.ACTIVE_DATA (R119). -/
def cfgActiveData : Nat := 0x1000A0
def cfgActiveDataData : Fld := ⟨cfgActiveData, 63, 0⟩
/-- CFG.COMMIT (R116). -/
def cfgCommit : Nat := 0x100080
def cfgCommitGroup : Fld := ⟨cfgCommit, 19, 0⟩
/-- HUB.ROLE (R466). -/
def hubRole : Nat := 0x200000
def hubRoleRole : Fld := ⟨hubRole, 1, 0⟩
def hubRoleFleet : Fld := ⟨hubRole, 31, 16⟩
/-- HUB.FLEET_STATUS (R467). -/
def hubFleetStatus : Nat := 0x200008
def hubFleetStatusIndex : Fld := ⟨hubFleetStatus, 12, 0⟩
def hubFleetStatusJoined : Fld := ⟨hubFleetStatus, 13, 13⟩
def hubFleetStatusManagerSeen : Fld := ⟨hubFleetStatus, 14, 14⟩
def hubFleetStatusSetSize : Fld := ⟨hubFleetStatus, 28, 16⟩
def hubFleetStatusSetId : Fld := ⟨hubFleetStatus, 63, 32⟩
/-- HUB.RING_SEL (R468). -/
def hubRingSel : Nat := 0x200100
def hubRingSelIndex : Fld := ⟨hubRingSel, 12, 0⟩
def hubRingSelClass : Fld := ⟨hubRingSel, 15, 13⟩
/-- HUB.RING_BASE (R468). -/
def hubRingBase : Nat := 0x200108
def hubRingBaseBase : Fld := ⟨hubRingBase, 47, 0⟩
/-- HUB.RING_WATCH (R468). -/
def hubRingWatch : Nat := 0x200110
def hubRingWatchAddr : Fld := ⟨hubRingWatch, 47, 0⟩
/-- HUB.RING_REPORT (R468). -/
def hubRingReport : Nat := 0x200118
def hubRingReportAddr : Fld := ⟨hubRingReport, 47, 0⟩
/-- HUB.RING_CFG (R468). -/
def hubRingCfg : Nat := 0x200120
def hubRingCfgEnable : Fld := ⟨hubRingCfg, 0, 0⟩
def hubRingCfgSizeLog2 : Fld := ⟨hubRingCfg, 5, 1⟩
def hubRingCfgVersion : Fld := ⟨hubRingCfg, 6, 6⟩
def hubRingCfgIrq : Fld := ⟨hubRingCfg, 16, 8⟩
def hubRingCfgCpl : Fld := ⟨hubRingCfg, 31, 24⟩
def hubRingCfgHoldoff : Fld := ⟨hubRingCfg, 47, 32⟩
/-- HUB.RING_STATE (R468). -/
def hubRingState : Nat := 0x200128
def hubRingStateDone : Fld := ⟨hubRingState, 31, 0⟩
def hubRingStateError : Fld := ⟨hubRingState, 39, 32⟩
def hubRingStateStopped : Fld := ⟨hubRingState, 40, 40⟩
/-- HUB.IRQ_ROUTE (R469). -/
def hubIrqRoute (i : Nat) : Nat := 0x201000 + 0x8 * i
def hubIrqRouteDest (i : Nat) : Fld := ⟨(hubIrqRoute i), 1, 0⟩
def hubIrqRouteCore (i : Nat) : Fld := ⟨(hubIrqRoute i), 8, 2⟩
def hubIrqRouteVector (i : Nat) : Fld := ⟨(hubIrqRoute i), 26, 16⟩
def hubIrqRoutePending (i : Nat) : Fld := ⟨(hubIrqRoute i), 32, 32⟩
/-- OBC.LINK_CTRL (R470). -/
def obcLinkCtrl (i : Nat) : Nat := 0xC000000 + 0x1000 * i
def obcLinkCtrlEnable (i : Nat) : Fld := ⟨(obcLinkCtrl i), 0, 0⟩
def obcLinkCtrlMaxVersion (i : Nat) : Fld := ⟨(obcLinkCtrl i), 2, 1⟩
def obcLinkCtrlHalfOk (i : Nat) : Fld := ⟨(obcLinkCtrl i), 3, 3⟩
/-- OBC.LINK_STATUS (R470). -/
def obcLinkStatus (i : Nat) : Nat := 0xC000008 + 0x1000 * i
def obcLinkStatusState (i : Nat) : Fld := ⟨(obcLinkStatus i), 2, 0⟩
def obcLinkStatusVersion (i : Nat) : Fld := ⟨(obcLinkStatus i), 5, 4⟩
def obcLinkStatusPartnerVersions (i : Nat) : Fld := ⟨(obcLinkStatus i), 11, 8⟩
def obcLinkStatusPartnerIndex (i : Nat) : Fld := ⟨(obcLinkStatus i), 28, 16⟩
def obcLinkStatusPartnerRole (i : Nat) : Fld := ⟨(obcLinkStatus i), 30, 29⟩
def obcLinkStatusTrainCode (i : Nat) : Fld := ⟨(obcLinkStatus i), 39, 32⟩
/-- OBC.CNT (R471). -/
def obcCnt (i : Nat) (j : Nat) : Nat := 0xC000100 + 0x1000 * i + 0x8 * j
def obcCntCount (i : Nat) (j : Nat) : Fld := ⟨(obcCnt i j), 63, 0⟩
/-- OBC.ROUTE (R472). -/
def obcRoute (i : Nat) : Nat := 0xC100000 + 0x8 * i
def obcRouteLink (i : Nat) : Fld := ⟨(obcRoute i), 3, 0⟩
def obcRouteValid (i : Nat) : Fld := ⟨(obcRoute i), 4, 4⟩
def obcRouteDirect (i : Nat) : Fld := ⟨(obcRoute i), 5, 5⟩
/-- PCIE.STATUS (R473). -/
def pcieStatus : Nat := 0xD000000
def pcieStatusRoot : Fld := ⟨pcieStatus, 0, 0⟩
def pcieStatusLinkUp : Fld := ⟨pcieStatus, 1, 1⟩
def pcieStatusFlit : Fld := ⟨pcieStatus, 2, 2⟩
def pcieStatusSpeed : Fld := ⟨pcieStatus, 5, 3⟩
def pcieStatusWidth : Fld := ⟨pcieStatus, 10, 6⟩
/-- PCIE.BAR2_CFG (R473). -/
def pcieBar2Cfg : Nat := 0xD000008
def pcieBar2CfgBase : Fld := ⟨pcieBar2Cfg, 47, 0⟩
def pcieBar2CfgSizeLog2 : Fld := ⟨pcieBar2Cfg, 53, 48⟩
/-- PCIE.OUT_BASE (R473). -/
def pcieOutBase : Nat := 0xD000010
def pcieOutBaseBase : Fld := ⟨pcieOutBase, 63, 0⟩
/-- PCIE.RP_CFG_ADDR (R473). -/
def pcieRpCfgAddr : Nat := 0xD000018
def pcieRpCfgAddrAddr : Fld := ⟨pcieRpCfgAddr, 27, 0⟩
/-- PCIE.RP_CFG_DATA (R473). -/
def pcieRpCfgData : Nat := 0xD000020
def pcieRpCfgDataData : Fld := ⟨pcieRpCfgData, 31, 0⟩
/-- PCIE.RP_MSI_ADDR (R473). -/
def pcieRpMsiAddr : Nat := 0xD000028
def pcieRpMsiAddrAddr : Fld := ⟨pcieRpMsiAddr, 63, 0⟩
/-- PCIE.RP_MSI_DATA (R473). -/
def pcieRpMsiData : Nat := 0xD000030
def pcieRpMsiDataData : Fld := ⟨pcieRpMsiData, 31, 0⟩
def pcieRpMsiDataValid : Fld := ⟨pcieRpMsiData, 32, 32⟩
def pcieRpMsiDataOverflow : Fld := ⟨pcieRpMsiData, 33, 33⟩
/-- WIRE.PORT_CTRL (R266). -/
def wirePortCtrl (i : Nat) : Nat := 0x1000000 + 0x10000 * i
def wirePortCtrlMode (i : Nat) : Fld := ⟨(wirePortCtrl i), 1, 0⟩
def wirePortCtrlPmdAn (i : Nat) : Fld := ⟨(wirePortCtrl i), 2, 2⟩
def wirePortCtrlPeerA (i : Nat) : Fld := ⟨(wirePortCtrl i), 11, 8⟩
def wirePortCtrlPeerB (i : Nat) : Fld := ⟨(wirePortCtrl i), 15, 12⟩
def wirePortCtrlMaxFrame (i : Nat) : Fld := ⟨(wirePortCtrl i), 29, 16⟩
def wirePortCtrlExcRing (i : Nat) : Fld := ⟨(wirePortCtrl i), 43, 32⟩
def wirePortCtrlPfcEnable (i : Nat) : Fld := ⟨(wirePortCtrl i), 55, 48⟩
/-- WIRE.STATION (R266). -/
def wireStation (i : Nat) (j : Nat) : Nat := 0x1000010 + 0x10000 * i + 0x8 * j
def wireStationMac (i : Nat) (j : Nat) : Fld := ⟨(wireStation i j), 47, 0⟩
def wireStationValidA (i : Nat) (j : Nat) : Fld := ⟨(wireStation i j), 48, 48⟩
def wireStationValidB (i : Nat) (j : Nat) : Fld := ⟨(wireStation i j), 49, 49⟩
/-- WIRE.KRF_CTRL (R266). -/
def wireKrfCtrl (i : Nat) : Nat := 0x1000040 + 0x10000 * i
def wireKrfCtrlUdpPort (i : Nat) : Fld := ⟨(wireKrfCtrl i), 15, 0⟩
def wireKrfCtrlEthertypeEn (i : Nat) : Fld := ⟨(wireKrfCtrl i), 16, 16⟩
def wireKrfCtrlV1En (i : Nat) : Fld := ⟨(wireKrfCtrl i), 17, 17⟩
def wireKrfCtrlV2En (i : Nat) : Fld := ⟨(wireKrfCtrl i), 18, 18⟩
/-- WIRE.MALFORM_ACTION (R267). -/
def wireMalformAction (i : Nat) : Nat := 0x1000048 + 0x10000 * i
def wireMalformActionReason0 (i : Nat) : Fld := ⟨(wireMalformAction i), 1, 0⟩
def wireMalformActionReason1 (i : Nat) : Fld := ⟨(wireMalformAction i), 3, 2⟩
def wireMalformActionReason2 (i : Nat) : Fld := ⟨(wireMalformAction i), 5, 4⟩
def wireMalformActionReason3 (i : Nat) : Fld := ⟨(wireMalformAction i), 7, 6⟩
def wireMalformActionReason4 (i : Nat) : Fld := ⟨(wireMalformAction i), 9, 8⟩
def wireMalformActionReason5 (i : Nat) : Fld := ⟨(wireMalformAction i), 11, 10⟩
def wireMalformActionReason6 (i : Nat) : Fld := ⟨(wireMalformAction i), 13, 12⟩
def wireMalformActionReason7 (i : Nat) : Fld := ⟨(wireMalformAction i), 15, 14⟩
def wireMalformActionReason8 (i : Nat) : Fld := ⟨(wireMalformAction i), 17, 16⟩
def wireMalformActionReason9 (i : Nat) : Fld := ⟨(wireMalformAction i), 19, 18⟩
def wireMalformActionReasona (i : Nat) : Fld := ⟨(wireMalformAction i), 21, 20⟩
def wireMalformActionReasonb (i : Nat) : Fld := ⟨(wireMalformAction i), 23, 22⟩
def wireMalformActionReasonc (i : Nat) : Fld := ⟨(wireMalformAction i), 25, 24⟩
def wireMalformActionReasond (i : Nat) : Fld := ⟨(wireMalformAction i), 27, 26⟩
def wireMalformActionReasone (i : Nat) : Fld := ⟨(wireMalformAction i), 29, 28⟩
def wireMalformActionReasonf (i : Nat) : Fld := ⟨(wireMalformAction i), 31, 30⟩
/-- WIRE.PFC_THRESH (R268). -/
def wirePfcThresh (i : Nat) (j : Nat) : Nat := 0x1000080 + 0x10000 * i + 0x8 * j
def wirePfcThreshXoffKib (i : Nat) (j : Nat) : Fld := ⟨(wirePfcThresh i j), 15, 0⟩
def wirePfcThreshXonKib (i : Nat) (j : Nat) : Fld := ⟨(wirePfcThresh i j), 31, 16⟩
/-- WIRE.PORT_STATUS (R269). -/
def wirePortStatus (i : Nat) : Nat := 0x1000100 + 0x10000 * i
def wirePortStatusUpA (i : Nat) : Fld := ⟨(wirePortStatus i), 0, 0⟩
def wirePortStatusUpB (i : Nat) : Fld := ⟨(wirePortStatus i), 1, 1⟩
def wirePortStatusLanesLocked (i : Nat) : Fld := ⟨(wirePortStatus i), 9, 2⟩
def wirePortStatusAnDone (i : Nat) : Fld := ⟨(wirePortStatus i), 10, 10⟩
def wirePortStatusPausedA (i : Nat) : Fld := ⟨(wirePortStatus i), 23, 16⟩
def wirePortStatusPausedB (i : Nat) : Fld := ⟨(wirePortStatus i), 31, 24⟩
/-- WIRE.CNT (R270). -/
def wireCnt (i : Nat) (j : Nat) (k : Nat) : Nat := 0x1001000 + 0x10000 * i + 0x800 * j + 0x8 * k
def wireCntCount (i : Nat) (j : Nat) (k : Nat) : Fld := ⟨(wireCnt i j k), 63, 0⟩
/-- CLS.BANK_STATE (R271). -/
def clsBankState : Nat := 0x1800000
def clsBankStateActive : Fld := ⟨clsBankState, 0, 0⟩
def clsBankStateWritable : Fld := ⟨clsBankState, 1, 1⟩
def clsBankStateRefused : Fld := ⟨clsBankState, 2, 2⟩
def clsBankStateInflightOld : Fld := ⟨clsBankState, 31, 16⟩
def clsBankStateEpoch : Fld := ⟨clsBankState, 63, 32⟩
/-- CLS.BANK_SWAP (R271). -/
def clsBankSwap : Nat := 0x1800008
def clsBankSwapGo : Fld := ⟨clsBankSwap, 63, 63⟩
/-- CLS.BANK_ADDR (R271). -/
def clsBankAddr : Nat := 0x1800010
def clsBankAddrWord : Fld := ⟨clsBankAddr, 2, 0⟩
def clsBankAddrIndex : Fld := ⟨clsBankAddr, 19, 3⟩
def clsBankAddrRegion : Fld := ⟨clsBankAddr, 23, 20⟩
def clsBankAddrBank : Fld := ⟨clsBankAddr, 24, 24⟩
def clsBankAddrAutoInc : Fld := ⟨clsBankAddr, 25, 25⟩
/-- CLS.BANK_DATA (R271). -/
def clsBankData : Nat := 0x1800018
def clsBankDataData : Fld := ⟨clsBankData, 63, 0⟩
/-- CLS.FLOW_CTRL (R272). -/
def clsFlowCtrl : Nat := 0x1800040
def clsFlowCtrlIdleUs : Fld := ⟨clsFlowCtrl, 31, 0⟩
def clsFlowCtrlEnable : Fld := ⟨clsFlowCtrl, 32, 32⟩
/-- CLS.FLOW_SEL (R272). -/
def clsFlowSel : Nat := 0x1800048
def clsFlowSelIndex : Fld := ⟨clsFlowSel, 15, 0⟩
/-- CLS.FLOW_DATA (R272). -/
def clsFlowData (i : Nat) : Nat := 0x1800050 + 0x8 * i
def clsFlowDataData (i : Nat) : Fld := ⟨(clsFlowData i), 63, 0⟩
/-- CLS.FLOW_FLUSH (R272). -/
def clsFlowFlush : Nat := 0x1800090
def clsFlowFlushGo : Fld := ⟨clsFlowFlush, 63, 63⟩
/-- CLS.UNAVAIL (R273). -/
def clsUnavail (i : Nat) : Nat := 0x1800100 + 0x8 * i
def clsUnavailTarget (i : Nat) : Fld := ⟨(clsUnavail i), 15, 0⟩
/-- CLS.CNT (R275). -/
def clsCnt (i : Nat) : Nat := 0x1800200 + 0x8 * i
def clsCntCount (i : Nat) : Fld := ⟨(clsCnt i), 63, 0⟩
/-- CLS.INDIR (R274). -/
def clsIndir (i : Nat) (j : Nat) : Nat := 0x1900000 + 0x1000 * i + 0x8 * j
def clsIndirTarget (i : Nat) (j : Nat) : Fld := ⟨(clsIndir i j), 15, 0⟩
/-- BRM.SLICE_CTRL (R304). -/
def brmSliceCtrl (i : Nat) : Nat := 0x2000000 + 0x100000 * i
def brmSliceCtrlFailTarget (i : Nat) : Fld := ⟨(brmSliceCtrl i), 15, 0⟩
def brmSliceCtrlDegrade (i : Nat) : Fld := ⟨(brmSliceCtrl i), 16, 16⟩
def brmSliceCtrlStop (i : Nat) : Fld := ⟨(brmSliceCtrl i), 17, 17⟩
/-- BRM.SLICE_STATUS (R305). -/
def brmSliceStatus (i : Nat) : Nat := 0x2000008 + 0x100000 * i
def brmSliceStatusState (i : Nat) : Fld := ⟨(brmSliceStatus i), 1, 0⟩
def brmSliceStatusPair (i : Nat) : Fld := ⟨(brmSliceStatus i), 4, 2⟩
def brmSliceStatusAlone (i : Nat) : Fld := ⟨(brmSliceStatus i), 5, 5⟩
def brmSliceStatusFeatureSet (i : Nat) : Fld := ⟨(brmSliceStatus i), 15, 8⟩
def brmSliceStatusModel (i : Nat) : Fld := ⟨(brmSliceStatus i), 31, 16⟩
def brmSliceStatusEpoch (i : Nat) : Fld := ⟨(brmSliceStatus i), 63, 32⟩
/-- BRM.SLICE_CNT (R306). -/
def brmSliceCnt (i : Nat) (j : Nat) : Nat := 0x2001000 + 0x100000 * i + 0x8 * j
def brmSliceCntCount (i : Nat) (j : Nat) : Fld := ⟨(brmSliceCnt i j), 63, 0⟩
/-- BRM.MODEL_STATE (R307). -/
def brmModelState : Nat := 0x20F0000
def brmModelStateShadowFree : Fld := ⟨brmModelState, 0, 0⟩
def brmModelStateInflightOld : Fld := ⟨brmModelState, 31, 16⟩
def brmModelStateSwaps : Fld := ⟨brmModelState, 63, 32⟩
/-- TIME.CTRL (R335). -/
def timeCtrl : Nat := 0x3000000
def timeCtrlSource : Fld := ⟨timeCtrl, 1, 0⟩
def timeCtrlOcPort : Fld := ⟨timeCtrl, 7, 4⟩
def timeCtrlObcLink : Fld := ⟨timeCtrl, 11, 8⟩
def timeCtrlTransport : Fld := ⟨timeCtrl, 13, 12⟩
def timeCtrlDelayMech : Fld := ⟨timeCtrl, 14, 14⟩
def timeCtrlOneStep : Fld := ⟨timeCtrl, 15, 15⟩
def timeCtrlDomain : Fld := ⟨timeCtrl, 23, 16⟩
def timeCtrlSlaveOnly : Fld := ⟨timeCtrl, 24, 24⟩
def timeCtrlPtpRing : Fld := ⟨timeCtrl, 43, 32⟩
/-- TIME.TC_CTRL (R335). -/
def timeTcCtrl : Nat := 0x3000008
def timeTcCtrlMode : Fld := ⟨timeTcCtrl, 31, 0⟩
/-- TIME.TOD_NS (R336). -/
def timeTodNs : Nat := 0x3000010
def timeTodNsNs : Fld := ⟨timeTodNs, 29, 0⟩
/-- TIME.TOD_SEC (R336). -/
def timeTodSec : Nat := 0x3000018
def timeTodSecSec : Fld := ⟨timeTodSec, 47, 0⟩
/-- TIME.GLC (R336). -/
def timeGlc : Nat := 0x3000020
def timeGlcGlc : Fld := ⟨timeGlc, 63, 0⟩
/-- TIME.STEP (R336). -/
def timeStep : Nat := 0x3000028
def timeStepOffset : Fld := ⟨timeStep, 47, 0⟩
def timeStepGo : Fld := ⟨timeStep, 63, 63⟩
/-- TIME.SET_SEC (R336). -/
def timeSetSec : Nat := 0x3000030
def timeSetSecSec : Fld := ⟨timeSetSec, 47, 0⟩
/-- TIME.SET_NS (R336). -/
def timeSetNs : Nat := 0x3000038
def timeSetNsNs : Fld := ⟨timeSetNs, 29, 0⟩
def timeSetNsGo : Fld := ⟨timeSetNs, 63, 63⟩
/-- TIME.RATE (R336). -/
def timeRate : Nat := 0x3000040
def timeRateRate : Fld := ⟨timeRate, 31, 0⟩
/-- TIME.STATUS (R336). -/
def timeStatus : Nat := 0x3000048
def timeStatusState : Fld := ⟨timeStatus, 2, 0⟩
def timeStatusSourceOk : Fld := ⟨timeStatus, 3, 3⟩
def timeStatusPortState : Fld := ⟨timeStatus, 7, 4⟩
def timeStatusAdjCode : Fld := ⟨timeStatus, 15, 8⟩
def timeStatusErrEst : Fld := ⟨timeStatus, 47, 32⟩
/-- TIME.UTC (R336). -/
def timeUtc : Nat := 0x3000050
def timeUtcUtcOffset : Fld := ⟨timeUtc, 15, 0⟩
/-- TIME.PPS_IN (R336). -/
def timePpsIn : Nat := 0x3000058
def timePpsInGlc : Fld := ⟨timePpsIn, 63, 0⟩
/-- TIME.LAUNCH_GLC (R336). -/
def timeLaunchGlc : Nat := 0x3000060
def timeLaunchGlcGlc : Fld := ⟨timeLaunchGlc, 63, 0⟩
/-- TIME.LAUNCH_STATUS (R336). -/
def timeLaunchStatus : Nat := 0x3000068
def timeLaunchStatusPending : Fld := ⟨timeLaunchStatus, 0, 0⟩
def timeLaunchStatusLate : Fld := ⟨timeLaunchStatus, 1, 1⟩
def timeLaunchStatusHoldover : Fld := ⟨timeLaunchStatus, 2, 2⟩
def timeLaunchStatusErrEst : Fld := ⟨timeLaunchStatus, 47, 32⟩
/-- TIME.PULSE_START (R337). -/
def timePulseStart (i : Nat) : Nat := 0x3000100 + 0x20 * i
def timePulseStartStart (i : Nat) : Fld := ⟨(timePulseStart i), 63, 0⟩
/-- TIME.PULSE_CFG (R337). -/
def timePulseCfg (i : Nat) : Nat := 0x3000108 + 0x20 * i
def timePulseCfgMode (i : Nat) : Fld := ⟨(timePulseCfg i), 1, 0⟩
def timePulseCfgPol (i : Nat) : Fld := ⟨(timePulseCfg i), 2, 2⟩
def timePulseCfgWidth (i : Nat) : Fld := ⟨(timePulseCfg i), 63, 32⟩
/-- TIME.PULSE_PERIOD (R337). -/
def timePulsePeriod (i : Nat) : Nat := 0x3000110 + 0x20 * i
def timePulsePeriodPeriod (i : Nat) : Fld := ⟨(timePulsePeriod i), 39, 0⟩
/-- TIME.PULSE_STATUS (R337). -/
def timePulseStatus (i : Nat) : Nat := 0x3000118 + 0x20 * i
def timePulseStatusMissed (i : Nat) : Fld := ⟨(timePulseStatus i), 0, 0⟩
def timePulseStatusHigh (i : Nat) : Fld := ⟨(timePulseStatus i), 1, 1⟩
def timePulseStatusEdges (i : Nat) : Fld := ⟨(timePulseStatus i), 63, 32⟩
/-- TIME.CNT (R338). -/
def timeCnt (i : Nat) : Nat := 0x3001000 + 0x8 * i
def timeCntCount (i : Nat) : Fld := ⟨(timeCnt i), 63, 0⟩
/-- MEM.T1_MAP (R223). -/
def memT1Map : Nat := 0x4000000
def memT1MapStripedGib : Fld := ⟨memT1Map, 10, 0⟩
/-- MEM.T2_STATUS (R224). -/
def memT2Status : Nat := 0x4000008
def memT2StatusChannels : Fld := ⟨memT2Status, 15, 0⟩
def memT2StatusCount : Fld := ⟨memT2Status, 20, 16⟩
def memT2StatusDimmGib : Fld := ⟨memT2Status, 40, 32⟩
/-- MEM.GROTTO_CTRL (R225). -/
def memGrottoCtrl : Nat := 0x4000010
def memGrottoCtrlPromoteThreshold : Fld := ⟨memGrottoCtrl, 31, 0⟩
def memGrottoCtrlCacheEnable : Fld := ⟨memGrottoCtrl, 32, 32⟩
def memGrottoCtrlUnpinShift : Fld := ⟨memGrottoCtrl, 47, 40⟩
/-- MEM.SCRUB_CTRL (R226). -/
def memScrubCtrl : Nat := 0x4000018
def memScrubCtrlT1Hours : Fld := ⟨memScrubCtrl, 15, 0⟩
def memScrubCtrlT2Hours : Fld := ⟨memScrubCtrl, 31, 16⟩
/-- MEM.PC_RETIRED (R227). -/
def memPcRetired (i : Nat) : Nat := 0x4000100 + 0x8 * i
def memPcRetiredRetired (i : Nat) : Fld := ⟨(memPcRetired i), 63, 0⟩
/-- MEM.STACK_STATE (R227). -/
def memStackState (i : Nat) : Nat := 0x4000200 + 0x8 * i
def memStackStateState (i : Nat) : Fld := ⟨(memStackState i), 1, 0⟩
def memStackStateHot (i : Nat) : Fld := ⟨(memStackState i), 2, 2⟩
def memStackStateTemp (i : Nat) : Fld := ⟨(memStackState i), 23, 8⟩
/-- MEM.ECC_CNT (R228). -/
def memEccCnt (i : Nat) (j : Nat) : Nat := 0x4001000 + 0x20 * i + 0x8 * j
def memEccCntCount (i : Nat) (j : Nat) : Fld := ⟨(memEccCnt i j), 63, 0⟩
/-- EMB.PRESS_CTRL (R186). -/
def embPressCtrl : Nat := 0x5000000
def embPressCtrlPinThreshold : Fld := ⟨embPressCtrl, 31, 0⟩
def embPressCtrlPinMaxRows : Fld := ⟨embPressCtrl, 55, 32⟩
/-- EMB.TABLE_SEL (R187). -/
def embTableSel : Nat := 0x5000010
def embTableSelTable : Fld := ⟨embTableSel, 7, 0⟩
/-- EMB.TABLE_STATE (R187). -/
def embTableState : Nat := 0x5000018
def embTableStateUpdates : Fld := ⟨embTableState, 39, 0⟩
def embTableStatePending : Fld := ⟨embTableState, 40, 40⟩
def embTableStateValid : Fld := ⟨embTableState, 41, 41⟩
/-- EMB.TABLE_STEP (R187). -/
def embTableStep : Nat := 0x5000020
def embTableStepLastStep : Fld := ⟨embTableStep, 63, 0⟩
/-- EMB.NTS_SEL (R188). -/
def embNtsSel : Nat := 0x5000040
def embNtsSelSlot : Fld := ⟨embNtsSel, 5, 0⟩
/-- EMB.NTS_STATE (R188). -/
def embNtsState : Nat := 0x5000048
def embNtsStateActive : Fld := ⟨embNtsState, 0, 0⟩
def embNtsStateWritable : Fld := ⟨embNtsState, 1, 1⟩
def embNtsStateRevertible : Fld := ⟨embNtsState, 2, 2⟩
def embNtsStateValid : Fld := ⟨embNtsState, 3, 3⟩
def embNtsStateInflightOld : Fld := ⟨embNtsState, 23, 8⟩
def embNtsStateVersion : Fld := ⟨embNtsState, 63, 32⟩
/-- EMB.NTS_SWITCH (R188). -/
def embNtsSwitch : Nat := 0x5000050
def embNtsSwitchSlot : Fld := ⟨embNtsSwitch, 5, 0⟩
def embNtsSwitchOp : Fld := ⟨embNtsSwitch, 9, 8⟩
def embNtsSwitchGo : Fld := ⟨embNtsSwitch, 63, 63⟩
/-- EMB.NTS_RESULT (R188). -/
def embNtsResult : Nat := 0x5000058
def embNtsResultCode : Fld := ⟨embNtsResult, 7, 0⟩
def embNtsResultSlot : Fld := ⟨embNtsResult, 13, 8⟩
/-- CHK.TWIN_CTRL (R362). -/
def chkTwinCtrl : Nat := 0x6000000
def chkTwinCtrlEnable : Fld := ⟨chkTwinCtrl, 0, 0⟩
/-- CHK.ECHO_CTRL (R363). -/
def chkEchoCtrl : Nat := 0x6000008
def chkEchoCtrlInterval : Fld := ⟨chkEchoCtrl, 15, 0⟩
def chkEchoCtrlLag : Fld := ⟨chkEchoCtrl, 23, 16⟩
def chkEchoCtrlEnable : Fld := ⟨chkEchoCtrl, 24, 24⟩
/-- CHK.ERR_RING (R364). -/
def chkErrRing : Nat := 0x6000010
def chkErrRingBase : Fld := ⟨chkErrRing, 47, 0⟩
def chkErrRingSizeLog2 : Fld := ⟨chkErrRing, 52, 48⟩
def chkErrRingEnable : Fld := ⟨chkErrRing, 53, 53⟩
/-- CHK.ERR_HEAD (R365). -/
def chkErrHead : Nat := 0x6000018
def chkErrHeadHead : Fld := ⟨chkErrHead, 31, 0⟩
/-- CHK.ERR_TAIL (R365). -/
def chkErrTail : Nat := 0x6000020
def chkErrTailTail : Fld := ⟨chkErrTail, 31, 0⟩
/-- CHK.ERR_STATUS (R365). -/
def chkErrStatus : Nat := 0x6000028
def chkErrStatusFull : Fld := ⟨chkErrStatus, 0, 0⟩
def chkErrStatusDropped : Fld := ⟨chkErrStatus, 1, 1⟩
def chkErrStatusLost : Fld := ⟨chkErrStatus, 2, 2⟩
def chkErrStatusSequence : Fld := ⟨chkErrStatus, 63, 32⟩
/-- CHK.ECHO_STATUS (R366). -/
def chkEchoStatus : Nat := 0x6000030
def chkEchoStatusVerdict : Fld := ⟨chkEchoStatus, 1, 0⟩
def chkEchoStatusWaiting : Fld := ⟨chkEchoStatus, 2, 2⟩
def chkEchoStatusHolding : Fld := ⟨chkEchoStatus, 3, 3⟩
/-- CHK.ECHO_AGREED (R366). -/
def chkEchoAgreed : Nat := 0x6000058
def chkEchoAgreedStep : Fld := ⟨chkEchoAgreed, 63, 0⟩
/-- CHK.PIP_SEL (R367). -/
def chkPipSel : Nat := 0x6000038
def chkPipSelTensor : Fld := ⟨chkPipSel, 15, 0⟩
/-- CHK.PIP_WRITE (R367). -/
def chkPipWrite : Nat := 0x6000040
def chkPipWritePip : Fld := ⟨chkPipWrite, 60, 0⟩
def chkPipWriteValid : Fld := ⟨chkPipWrite, 63, 63⟩
/-- CHK.PIP_READ (R367). -/
def chkPipRead : Nat := 0x6000048
def chkPipReadPip : Fld := ⟨chkPipRead, 60, 0⟩
def chkPipReadValid : Fld := ⟨chkPipRead, 63, 63⟩
/-- CHK.PIP_STEP (R367). -/
def chkPipStep : Nat := 0x6000050
def chkPipStepStep : Fld := ⟨chkPipStep, 63, 0⟩
/-- CHK.CNT (R368). -/
def chkCnt (i : Nat) : Nat := 0x6000100 + 0x8 * i
def chkCntCount (i : Nat) : Fld := ⟨(chkCnt i), 63, 0⟩
/-- CHK.LINK_CNT (R369). -/
def chkLinkCnt (i : Nat) (j : Nat) (k : Nat) : Nat := 0x6001000 + 0x100 * i + 0x20 * j + 0x8 * k
def chkLinkCntCount (i : Nat) (j : Nat) (k : Nat) : Fld := ⟨(chkLinkCnt i j k), 63, 0⟩
/-- FLT.CKPT_CTRL (R406). -/
def fltCkptCtrl : Nat := 0x7000000
def fltCkptCtrlEnable : Fld := ⟨fltCkptCtrl, 0, 0⟩
def fltCkptCtrlRound : Fld := ⟨fltCkptCtrl, 1, 1⟩
def fltCkptCtrlUndoSteps : Fld := ⟨fltCkptCtrl, 14, 8⟩
/-- FLT.CKPT_BASE (R406). -/
def fltCkptBase (i : Nat) : Nat := 0x7000010 + 0x8 * i
def fltCkptBaseBase (i : Nat) : Fld := ⟨(fltCkptBase i), 47, 0⟩
/-- FLT.CKPT_SIZE (R406). -/
def fltCkptSize (i : Nat) : Nat := 0x7000030 + 0x8 * i
def fltCkptSizeBytes (i : Nat) : Fld := ⟨(fltCkptSize i), 47, 0⟩
/-- FLT.CKPT_NEED (R407). -/
def fltCkptNeed (i : Nat) : Nat := 0x7000050 + 0x8 * i
def fltCkptNeedNeed (i : Nat) : Fld := ⟨(fltCkptNeed i), 47, 0⟩
/-- FLT.RECOVERY_CTRL (R408). -/
def fltRecoveryCtrl : Nat := 0x7000080
def fltRecoveryCtrlAutoRestart : Fld := ⟨fltRecoveryCtrl, 0, 0⟩
def fltRecoveryCtrlRotateEn : Fld := ⟨fltRecoveryCtrl, 1, 1⟩
def fltRecoveryCtrlRotateHours : Fld := ⟨fltRecoveryCtrl, 31, 16⟩
def fltRecoveryCtrlSpareHours : Fld := ⟨fltRecoveryCtrl, 47, 32⟩
/-- FLT.RECOVERY_STATUS (R409). -/
def fltRecoveryStatus : Nat := 0x7000088
def fltRecoveryStatusPhase : Fld := ⟨fltRecoveryStatus, 2, 0⟩
def fltRecoveryStatusOutcome : Fld := ⟨fltRecoveryStatus, 7, 4⟩
def fltRecoveryStatusKind : Fld := ⟨fltRecoveryStatus, 11, 8⟩
def fltRecoveryStatusLostDies : Fld := ⟨fltRecoveryStatus, 15, 12⟩
def fltRecoveryStatusDurationMs : Fld := ⟨fltRecoveryStatus, 47, 16⟩
def fltRecoveryStatusExpulsions : Fld := ⟨fltRecoveryStatus, 55, 48⟩
def fltRecoveryStatusScreenStalled : Fld := ⟨fltRecoveryStatus, 56, 56⟩
/-- FLT.UNIT_SEL (R410). -/
def fltUnitSel : Nat := 0x70000A0
def fltUnitSelKey : Fld := ⟨fltUnitSel, 31, 0⟩
/-- FLT.UNIT_STATE (R410). -/
def fltUnitState : Nat := 0x70000A8
def fltUnitStateState : Fld := ⟨fltUnitState, 2, 0⟩
def fltUnitStateStrikes : Fld := ⟨fltUnitState, 15, 8⟩
def fltUnitStateHardBits : Fld := ⟨fltUnitState, 23, 16⟩
def fltUnitStateLanternLast : Fld := ⟨fltUnitState, 63, 32⟩
/-- FLT.UNIT_CMD (R410). -/
def fltUnitCmd : Nat := 0x70000B0
def fltUnitCmdKey : Fld := ⟨fltUnitCmd, 31, 0⟩
def fltUnitCmdOp : Fld := ⟨fltUnitCmd, 33, 32⟩
def fltUnitCmdGo : Fld := ⟨fltUnitCmd, 63, 63⟩
/-- FLT.UNIT_RESULT (R410). -/
def fltUnitResult : Nat := 0x70000B8
def fltUnitResultCode : Fld := ⟨fltUnitResult, 7, 0⟩
def fltUnitResultDone : Fld := ⟨fltUnitResult, 8, 8⟩
def fltUnitResultPassed : Fld := ⟨fltUnitResult, 9, 9⟩
def fltUnitResultKey : Fld := ⟨fltUnitResult, 63, 32⟩
/-- FLT.POWER_SECONDS (R410). -/
def fltPowerSeconds : Nat := 0x70000C0
def fltPowerSecondsSeconds : Fld := ⟨fltPowerSeconds, 31, 0⟩
/-- FLT.PACK_ADDR (R411). -/
def fltPackAddr : Nat := 0x7000100
def fltPackAddrAddr : Fld := ⟨fltPackAddr, 47, 0⟩
/-- FLT.PACK_CTRL (R411). -/
def fltPackCtrl : Nat := 0x7000108
def fltPackCtrlGo : Fld := ⟨fltPackCtrl, 63, 63⟩
/-- FLT.PACK_STATUS (R411). -/
def fltPackStatus : Nat := 0x7000110
def fltPackStatusBusy : Fld := ⟨fltPackStatus, 0, 0⟩
def fltPackStatusCode : Fld := ⟨fltPackStatus, 15, 8⟩
def fltPackStatusActiveVersion : Fld := ⟨fltPackStatus, 63, 32⟩
/-- FLT.LOG_SEL (R412). -/
def fltLogSel : Nat := 0x7000140
def fltLogSelSlot : Fld := ⟨fltLogSel, 18, 0⟩
/-- FLT.LOG_HEAD (R412). -/
def fltLogHead : Nat := 0x7000148
def fltLogHeadRingHead : Fld := ⟨fltLogHead, 31, 0⟩
def fltLogHeadRingWraps : Fld := ⟨fltLogHead, 63, 32⟩
/-- FLT.LOG_DATA (R412). -/
def fltLogData (i : Nat) : Nat := 0x7000150 + 0x8 * i
def fltLogDataData (i : Nat) : Fld := ⟨(fltLogData i), 63, 0⟩
/-- FLT.CNT (R413). -/
def fltCnt (i : Nat) : Nat := 0x7000200 + 0x8 * i
def fltCntCount (i : Nat) : Fld := ⟨(fltCnt i), 63, 0⟩
/-- DET.CTRL (R433). -/
def detCtrl : Nat := 0x8000000
def detCtrlEnable : Fld := ⟨detCtrl, 0, 0⟩
def detCtrlTraceEn : Fld := ⟨detCtrl, 1, 1⟩
def detCtrlTraceHold : Fld := ⟨detCtrl, 2, 2⟩
/-- DET.RANK (R434). -/
def detRank : Nat := 0x8000008
def detRankDpRank : Fld := ⟨detRank, 15, 0⟩
def detRankGroupRank : Fld := ⟨detRank, 21, 16⟩
/-- DET.TRACE_RING (R435). -/
def detTraceRing : Nat := 0x8000010
def detTraceRingBase : Fld := ⟨detTraceRing, 47, 0⟩
def detTraceRingSizeLog2 : Fld := ⟨detTraceRing, 52, 48⟩
/-- DET.TRACE_HEAD (R435). -/
def detTraceHead : Nat := 0x8000018
def detTraceHeadHead : Fld := ⟨detTraceHead, 31, 0⟩
/-- DET.TRACE_TAIL (R435). -/
def detTraceTail : Nat := 0x8000020
def detTraceTailTail : Fld := ⟨detTraceTail, 31, 0⟩
/-- DET.STATUS (R436). -/
def detStatus : Nat := 0x8000028
def detStatusActive : Fld := ⟨detStatus, 0, 0⟩
def detStatusAtSeam : Fld := ⟨detStatus, 1, 1⟩
def detStatusFirstXing : Fld := ⟨detStatus, 11, 8⟩
def detStatusSlipsStep : Fld := ⟨detStatus, 31, 16⟩
def detStatusFirstSlipAclk : Fld := ⟨detStatus, 63, 32⟩
/-- DET.SNAP_ADDR (R437). -/
def detSnapAddr : Nat := 0x8000040
def detSnapAddrAddr : Fld := ⟨detSnapAddr, 47, 0⟩
/-- DET.SNAP_CTRL (R437). -/
def detSnapCtrl : Nat := 0x8000048
def detSnapCtrlOp : Fld := ⟨detSnapCtrl, 1, 0⟩
def detSnapCtrlMode : Fld := ⟨detSnapCtrl, 2, 2⟩
def detSnapCtrlPause : Fld := ⟨detSnapCtrl, 3, 3⟩
def detSnapCtrlGo : Fld := ⟨detSnapCtrl, 63, 63⟩
/-- DET.SNAP_STATUS (R437). -/
def detSnapStatus : Nat := 0x8000050
def detSnapStatusBusy : Fld := ⟨detSnapStatus, 0, 0⟩
def detSnapStatusPending : Fld := ⟨detSnapStatus, 1, 1⟩
def detSnapStatusCode : Fld := ⟨detSnapStatus, 15, 8⟩
def detSnapStatusEntry : Fld := ⟨detSnapStatus, 31, 16⟩
/-- DET.SNAP_NEED_FULL (R437). -/
def detSnapNeedFull : Nat := 0x8000058
def detSnapNeedFullBytes : Fld := ⟨detSnapNeedFull, 47, 0⟩
/-- DET.SNAP_NEED_MANIFEST (R437). -/
def detSnapNeedManifest : Nat := 0x8000060
def detSnapNeedManifestBytes : Fld := ⟨detSnapNeedManifest, 47, 0⟩
/-- DET.CNT (R438). -/
def detCnt (i : Nat) : Nat := 0x8000100 + 0x8 * i
def detCntCount (i : Nat) : Fld := ⟨(detCnt i), 63, 0⟩
/-- PWR.RAIL (R497). -/
def pwrRail (i : Nat) : Nat := 0x9000000 + 0x8 * i
def pwrRailNowMv (i : Nat) : Fld := ⟨(pwrRail i), 15, 0⟩
def pwrRailMinMv (i : Nat) : Fld := ⟨(pwrRail i), 31, 16⟩
def pwrRailMaxMv (i : Nat) : Fld := ⟨(pwrRail i), 47, 32⟩
/-- PWR.REARM (R497). -/
def pwrRearm : Nat := 0x9000080
def pwrRearmRails : Fld := ⟨pwrRearm, 13, 0⟩
def pwrRearmDies : Fld := ⟨pwrRearm, 20, 16⟩
/-- PWR.THERM (R497). -/
def pwrTherm (i : Nat) : Nat := 0x9000100 + 0x8 * i
def pwrThermTj (i : Nat) : Fld := ⟨(pwrTherm i), 15, 0⟩
def pwrThermLevel (i : Nat) : Fld := ⟨(pwrTherm i), 18, 16⟩
def pwrThermTrip (i : Nat) : Fld := ⟨(pwrTherm i), 19, 19⟩
def pwrThermTjMax (i : Nat) : Fld := ⟨(pwrTherm i), 47, 32⟩
/-- PWR.THROTTLE_CTRL (R498). -/
def pwrThrottleCtrl : Nat := 0x9000180
def pwrThrottleCtrlStartC : Fld := ⟨pwrThrottleCtrl, 7, 0⟩
/-- PWR.CNT (R499). -/
def pwrCnt (i : Nat) : Nat := 0x9001000 + 0x8 * i
def pwrCntCount (i : Nat) : Fld := ⟨(pwrCnt i), 63, 0⟩
/-- MTR.IDENT (R500). -/
def mtrIdent : Nat := 0xA000000
def mtrIdentSwVersion : Fld := ⟨mtrIdent, 15, 0⟩
def mtrIdentFormat : Fld := ⟨mtrIdent, 31, 16⟩
/-- MTR.SW_DIGEST (R500). -/
def mtrSwDigest : Nat := 0xA000008
def mtrSwDigestDigest : Fld := ⟨mtrSwDigest, 63, 0⟩
/-- MTR.SERIAL (R500). -/
def mtrSerial : Nat := 0xA000010
def mtrSerialSerial : Fld := ⟨mtrSerial, 63, 0⟩
/-- MTR.STATUS (R500). -/
def mtrStatus : Nat := 0xA000018
def mtrStatusLinkOk : Fld := ⟨mtrStatus, 0, 0⟩
def mtrStatusTampered : Fld := ⟨mtrStatus, 1, 1⟩
def mtrStatusOverrange : Fld := ⟨mtrStatus, 2, 2⟩
def mtrStatusLatestSeq : Fld := ⟨mtrStatus, 63, 32⟩
/-- MTR.LATEST (R500). -/
def mtrLatest (i : Nat) : Nat := 0xA000100 + 0x8 * i
def mtrLatestData (i : Nat) : Fld := ⟨(mtrLatest i), 63, 0⟩
/-- MTR.LATEST_GLC (R500). -/
def mtrLatestGlc : Nat := 0xA0001D0
def mtrLatestGlcGlc : Fld := ⟨mtrLatestGlc, 63, 0⟩
/-- MTR.HIST_SEL (R500). -/
def mtrHistSel : Nat := 0xA000200
def mtrHistSelIndex : Fld := ⟨mtrHistSel, 11, 0⟩
/-- MTR.HIST_DATA (R500). -/
def mtrHistData (i : Nat) : Nat := 0xA000208 + 0x8 * i
def mtrHistDataData (i : Nat) : Fld := ⟨(mtrHistData i), 63, 0⟩
/-- MTR.HIST_GLC (R500). -/
def mtrHistGlc : Nat := 0xA0002D8
def mtrHistGlcGlc : Fld := ⟨mtrHistGlc, 63, 0⟩
/-- MTR.PUBKEY (R500). -/
def mtrPubkey (i : Nat) : Nat := 0xA000400 + 0x8 * i
def mtrPubkeyData (i : Nat) : Fld := ⟨(mtrPubkey i), 63, 0⟩
/-- MTR.CERT (R500). -/
def mtrCert (i : Nat) : Nat := 0xA000500 + 0x8 * i
def mtrCertData (i : Nat) : Fld := ⟨(mtrCert i), 63, 0⟩
/-- SEC.SLOT (R502). -/
def secSlot (i : Nat) : Nat := 0xB000000 + 0x8 * i
def secSlotState (i : Nat) : Fld := ⟨(secSlot i), 1, 0⟩
/-- SEC.MIN_VERSION (R502). -/
def secMinVersion : Nat := 0xB000080
def secMinVersionFirmware : Fld := ⟨secMinVersion, 7, 0⟩
def secMinVersionPack : Fld := ⟨secMinVersion, 15, 8⟩
def secMinVersionImage : Fld := ⟨secMinVersion, 23, 16⟩
def secMinVersionLoader : Fld := ⟨secMinVersion, 31, 24⟩
/-- SEC.FUSE_CMD (R502). -/
def secFuseCmd : Nat := 0xB000088
def secFuseCmdOp : Fld := ⟨secFuseCmd, 1, 0⟩
def secFuseCmdSlot : Fld := ⟨secFuseCmd, 5, 2⟩
def secFuseCmdClass : Fld := ⟨secFuseCmd, 7, 6⟩
def secFuseCmdGo : Fld := ⟨secFuseCmd, 63, 63⟩
/-- SEC.FUSE_DATA (R502). -/
def secFuseData (i : Nat) : Nat := 0xB000090 + 0x8 * i
def secFuseDataData (i : Nat) : Fld := ⟨(secFuseData i), 63, 0⟩
/-- SEC.FUSE_STATUS (R502). -/
def secFuseStatus : Nat := 0xB0000C0
def secFuseStatusBusy : Fld := ⟨secFuseStatus, 0, 0⟩
def secFuseStatusCode : Fld := ⟨secFuseStatus, 15, 8⟩
/-- SEC.ALARM_ACTION (R501). -/
def secAlarmAction : Nat := 0xB000100
def secAlarmActionAction : Fld := ⟨secAlarmAction, 11, 0⟩
def secAlarmActionLock : Fld := ⟨secAlarmAction, 16, 16⟩
/-- SEC.ALARM_STATUS (R502). -/
def secAlarmStatus : Nat := 0xB000108
def secAlarmStatusLatched : Fld := ⟨secAlarmStatus, 5, 0⟩
def secAlarmStatusKeysErased : Fld := ⟨secAlarmStatus, 6, 6⟩
def secAlarmStatusKeysLocked : Fld := ⟨secAlarmStatus, 7, 7⟩
def secAlarmStatusCount : Fld := ⟨secAlarmStatus, 63, 32⟩
/-- SEC.KEY_SEL (R502). -/
def secKeySel : Nat := 0xB000110
def secKeySelSlot : Fld := ⟨secKeySel, 3, 0⟩
/-- SEC.KEY_DATA (R502). -/
def secKeyData (i : Nat) : Nat := 0xB000118 + 0x8 * i
def secKeyDataData (i : Nat) : Fld := ⟨(secKeyData i), 63, 0⟩
/-- CLU.CMAP (R38). -/
def cluCmap (i : Nat) : Nat := 0x10000000 + 0x10000000 * i
def cluCmapRetired (i : Nat) : Fld := ⟨(cluCmap i), 16, 0⟩
def cluCmapLogicalCount (i : Nat) : Fld := ⟨(cluCmap i), 28, 24⟩
def cluCmapMapEpoch (i : Nat) : Fld := ⟨(cluCmap i), 47, 32⟩
/-- CLU.LMAP0 (R39). -/
def cluLmap0 (i : Nat) : Nat := 0x10000008 + 0x10000000 * i
def cluLmap0Map (i : Nat) : Fld := ⟨(cluLmap0 i), 63, 0⟩
/-- CLU.LMAP1 (R39). -/
def cluLmap1 (i : Nat) : Nat := 0x10000010 + 0x10000000 * i
def cluLmap1Map (i : Nat) : Fld := ⟨(cluLmap1 i), 63, 0⟩
/-- CLU.DLINK (R43). -/
def cluDlink (i : Nat) (j : Nat) : Nat := 0x10000080 + 0x10000000 * i + 0x8 * j
def cluDlinkGroups (i : Nat) (j : Nat) : Fld := ⟨(cluDlink i j), 5, 0⟩
def cluDlinkUp (i : Nat) (j : Nat) : Fld := ⟨(cluDlink i j), 6, 6⟩
def cluDlinkRelayed (i : Nat) (j : Nat) : Fld := ⟨(cluDlink i j), 7, 7⟩
def cluDlinkSparesUsed (i : Nat) (j : Nat) : Fld := ⟨(cluDlink i j), 13, 8⟩
/-- CLU.KMAP (R40). -/
def cluKmap (i : Nat) (j : Nat) : Nat := 0x10000100 + 0x10000000 * i + 0x8 * j
def cluKmapRetired (i : Nat) (j : Nat) : Fld := ⟨(cluKmap i j), 8, 0⟩
def cluKmapPhys (i : Nat) (j : Nat) : Fld := ⟨(cluKmap i j), 47, 16⟩
def cluKmapUsable (i : Nat) (j : Nat) : Fld := ⟨(cluKmap i j), 48, 48⟩
/-- CLU.EMAP (R41). -/
def cluEmap (i : Nat) (j : Nat) (k : Nat) : Nat := 0x10001000 + 0x10000000 * i + 0x80 * j + 0x8 * k
def cluEmapRetired (i : Nat) (j : Nat) (k : Nat) : Fld := ⟨(cluEmap i j k), 8, 0⟩
def cluEmapPhys (i : Nat) (j : Nat) (k : Nat) : Fld := ⟨(cluEmap i j k), 47, 16⟩
def cluEmapUsable (i : Nat) (j : Nat) (k : Nat) : Fld := ⟨(cluEmap i j k), 48, 48⟩
/-- CLU.STASH_STAT (R146). -/
def cluStashStat (i : Nat) : Nat := 0x10002000 + 0x10000000 * i
def cluStashStatMaxLive (i : Nat) : Fld := ⟨(cluStashStat i), 2, 0⟩
def cluStashStatStalled (i : Nat) : Fld := ⟨(cluStashStat i), 3, 3⟩
def cluStashStatStallTensor (i : Nat) : Fld := ⟨(cluStashStat i), 31, 16⟩
/-- CLU.STASH_STALL_CYCLES (R147). -/
def cluStashStallCycles (i : Nat) : Nat := 0x10002008 + 0x10000000 * i
def cluStashStallCyclesCycles (i : Nat) : Fld := ⟨(cluStashStallCycles i), 63, 0⟩
/-- PRESS.CNT (R189). -/
def pressCnt (i : Nat) (j : Nat) (k : Nat) : Nat := 0x10100000 + 0x10000000 * i + 0x40 * j + 0x8 * k
def pressCntCount (i : Nat) (j : Nat) (k : Nat) : Fld := ⟨(pressCnt i j k), 63, 0⟩
/-- GROT.CNT (R229). -/
def grotCnt (i : Nat) (j : Nat) (k : Nat) : Nat := 0x10200000 + 0x10000000 * i + 0x40 * j + 0x8 * k
def grotCntCount (i : Nat) (j : Nat) (k : Nat) : Fld := ⟨(grotCnt i j k), 63, 0⟩
/-- ECHK.CNT (R370). -/
def echkCnt (i : Nat) (j : Nat) (k : Nat) (l : Nat) (m : Nat) : Nat := 0x10300000 + 0x10000000 * i + 0x2000 * j + 0x400 * k + 0x80 * l + 0x8 * m
def echkCntCount (i : Nat) (j : Nat) (k : Nat) (l : Nat) (m : Nat) : Fld := ⟨(echkCnt i j k l m), 63, 0⟩

end Reg

end Sys2Proof.Machine
end

