-- ==== Sys2Proof/Config.lean ====
section
/-! DEFINITION. What the spec leaves open: values that nothing in the model constrains. -/

namespace Sys2Proof.Config

/-- A value the spec leaves open, numbered by the counter the state carries (log entry 2). -/
opaque free64 : Nat → BitVec 64

/-- What an engine takes from an ACC96 element, by its 128 bits, whose CLASS it refuses (R69, log entry 150). -/
opaque refusedAcc : Nat → Int

/-- The manager's bound on a worker's ERR_EST before a launch (R334, log entry 185). -/
opaque launchBound : Nat

/-- What a byte of a checkpoint area holds, by die, offset in the area and step of the agreed round (R387, R390, log entry
215). -/
opaque ckptPart : Nat → Nat → Nat → BitVec 2

/-- Ordering class of a message by the TYPE of its flits (R457, log entry 193). -/
opaque flitClass : Nat → BitVec 3

/-- Bytes that the body of a control message takes, by MSG and number of values (Table 13.14, log entry 193). -/
opaque bodyBytes : Nat → Nat → Nat

/-- Idle, acknowledge and training flits of an Obcor link up to a power-on nanosecond, by link, direction (0 sent, 1
received) and time (R471, log entry 194). -/
opaque otherFlits : Nat → Nat → Nat → Nat

/-- A byte of the endpoint's configuration space that no rule gives, by offset (R455, log entry 229). -/
opaque configByte : Nat → BitVec 8

/-- Current of a board feed in mA by meter channel and shunt voltage in µV: the shunt is the board's (Table 14.6, log entry
227). -/
opaque shuntCurrent : Nat → Nat → Nat

/-- The secret number of a meter record's signature, by SEQUENCE (R485, log entry 227). -/
opaque meterNonce : Nat → Nat

/-- The announce-receipt interval of the ordinary clock in ns (Table 9.2, log entry 223). -/
opaque announceReceipt : Nat

end Sys2Proof.Config
end

