-- ==== Sys2Proof/WellFormed.lean ====
section
/-! DEFINITION. Well-formed commands: the sizes that a command's list and number operands must have to name something
that can happen. Every other operand is a finite type. -/

namespace Sys2Proof

/-- Bytes of one bus access. -/
def accessSizeOk (n : Nat) : Bool := decide (1 ≤ n ∧ n ≤ 64)

def dataOk (bs : List Byte) : Bool := !bs.isEmpty

/-- A write carries as many bytes as the access has. -/
def windowAccessOk (size : Nat) (write : Option (List Byte)) : Bool :=
  accessSizeOk size &&
    match write with
    | some bs => bs.length == size
    | none => true

/-- One sample per rail group (R478). -/
def samplesOk (mvs : List (BitVec 16)) : Bool := mvs.length == 14

/-- A channel has 2.5 million samples in an interval (R483). -/
def MeterInterval.ok (i : MeterInterval) : Bool :=
  (List.finRange 16).all fun c =>
    decide (((i.runs.filter fun r => r.channel == c).map MeterRun.samples).foldl (· + ·) 0 ≤ 2500000)

/-- The start-up record, the keys and the firmware copies of the SPI NOR (Tables 15.1 and 15.2). -/
def BootOutcome.ok (o : BootOutcome) : Bool :=
  o.bootRecord.length == 168 && o.keys.all (fun k => k.2.length == 96) &&
    decide (o.copyA.bytes.length ≤ 0x1000000 ∧ o.copyB.bytes.length ≤ 0x1000000)

/-- A challenge of 256 bits, a P-384 key and a signature (R492). -/
def unlockSizes (challenge key sigR sigS : List Byte) : Bool :=
  challenge.length == 32 && key.length == 96 && sigR.length == 48 && sigS.length == 48

/-- The command's operands have the sizes that it needs. -/
def Instr.wf : Instr → Bool
  | .registerWrite _ _ size _ => accessSizeOk size
  | .flitRetry _ _ _ => true
  | .linkRetrain _ _ => true
  | .laneErrorWindow _ _ _ => true
  | .crossingSlip _ _ => true
  | .loadFull _ => true
  | .loadPartial _ => true
  | .loadCheck _ => true
  | .loadUnload _ => true
  | .loadCheckDone => true
  | .loadDistribute _ => true
  | .loadDistributionDone _ => true
  | .partialReloadDone _ => true
  | .hubModelSwap => true
  | .protectedWrite _ _ data => dataOk data.bytes
  | .runStart _ => true
  | .runStartAt _ => true
  | .atLaunch => true
  | .runStop _ => true
  | .runAbort _ => true
  | .stepSeam => true
  | .commitRequest _ _ => true
  | .commitCheckDone => true
  | .commitApply _ => true
  | .scheduleEntryIssue _ _ _ => true
  | .entryComplete _ _ _ _ _ => true
  | .lookup _ _ _ _ => true
  | .combine _ _ => true
  | .ownerPartArrival _ _ => true
  | .update _ _ _ => true
  | .pendingBankApply _ _ => true
  | .exportJob _ _ => true
  | .exportRegionWritable _ => true
  | .exportComplete _ => true
  | .pressJobComplete _ _ => true
  | .ntsSwitch _ => true
  | .ntsRevert _ => true
  | .streamChunkRead _ _ _ _ => true
  | .streamChunkArrive _ _ _ _ _ => true
  | .streamChunkWrite _ _ _ _ => true
  | .dieWindowAccess _ _ size access => windowAccessOk size access.write
  | .grottoCopyReturn _ _ _ => true
  | .eccWriteback _ _ => true
  | .refreshWindow _ _ => true
  | .sramScrub _ _ _ => true
  | .frameParse _ bytes _ => dataOk bytes
  | .pauseExpiry _ _ => true
  | .classifierPass _ => true
  | .recirculationPass _ => true
  | .pfcRepeat _ _ => true
  | .frameVerdict _ => true
  | .flowSweep => true
  | .flowFlush _ => true
  | .bankSwap _ => true
  | .bankDataAccess _ => true
  | .egressFrameStart _ => true
  | .portTrainingDone _ _ _ _ _ => true
  | .sliceEvaluation _ _ _ _ => true
  | .replyStart _ => true
  | .replyFcsSlot _ => true
  | .timeStep _ => true
  | .timeSet _ => true
  | .timeAdjustApply => true
  | .todNsRead => true
  | .rateWrite _ => true
  | .ppsInputEdge _ _ => true
  | .sourceFailed => true
  | .ptpMessage _ => true
  | .obcorTimeExchange _ _ _ _ => true
  | .tcEntryExpiry _ => true
  | .pdelayReqTimer _ => true
  | .pdelayTimeout _ => true
  | .pulseEdge _ => true
  | .pulseEnd _ => true
  | .correctedRecordSend _ _ => true
  | .recordsLost => true
  | .errTailWrite _ => true
  | .twinComparison _ _ _ _ _ => true
  | .obcorDataReceive _ msg => dataOk msg.data
  | .checkTokenSend _ _ _ => true
  | .checkTokenReceive _ _ _ _ _ => true
  | .commitTimeout _ _ => true
  | .poisonNotice _ _ _ _ _ _ => true
  | .strikeExpiry _ => true
  | .screenComplete _ _ _ _ => true
  | .spareScreen => true
  | .rotation _ => true
  | .screenStalled => true
  | .dripstoneStateWrite _ => true
  | .dripstoneCountFlush _ => true
  | .packInstall _ => true
  | .packActivation _ => true
  | .checkpointCopyDone _ => true
  | .unitRecovery _ _ => true
  | .dieReset _ _ _ _ _ => true
  | .rollback _ _ => true
  | .expel _ _ _ => true
  | .unitCmdSump _ => true
  | .unitCmdReadmit _ => true
  | .unitCmdScreen _ => true
  | .snapshotSave _ => true
  | .snapshotRestore _ => true
  | .snapshotCheck _ => true
  | .snapshotCopyDone _ => true
  | .traceTailWrite _ => true
  | .watchLineUpdate _ _ => true
  | .ringEnable _ => true
  | .ringDisable _ => true
  | .txEntry _ => true
  | .txCompletion _ => true
  | .irqHoldoffExpiry _ _ => true
  | .irqRouteWrite _ _ => true
  | .identity _ => true
  | .dripstoneCopy _ => true
  | .firmwareStage _ => true
  | .fleetJoin _ => true
  | .fleetLeave _ => true
  | .coreState _ => true
  | .ptpDataset _ => true
  | .stewardFailover => true
  | .appCoreRetire _ => true
  | .functionLevelReset => true
  | .msiReceive _ _ => true
  | .rpMsiDataRead => true
  | .rpCfgDataAccess _ _ => true
  | .obcorReplay _ _ _ _ => true
  | .obcorLinkTrain _ _ => true
  | .join _ _ _ _ _ _ => true
  | .welcome _ _ _ => true
  | .heartbeat _ _ _ _ _ _ => true
  | .heartbeatTimer => true
  | .workerLost _ => true
  | .managerLost => true
  | .assign _ => true
  | .assigned _ _ _ => true
  | .launch _ => true
  | .armed _ _ => true
  | .late _ _ => true
  | .abort _ => true
  | .ready _ _ _ => true
  | .echoReport _ _ _ _ => true
  | .verdict _ _ _ => true
  | .leave _ _ => true
  | .admitSet _ => true
  | .railSample millivolts => samplesOk millivolts
  | .rearm _ => true
  | .throttleEvaluation _ _ => true
  | .thermalTrip _ _ => true
  | .thermalTripRelease => true
  | .meterInterval interval => interval.ok
  | .meterRecord _ => true
  | .meterLinkLost => true
  | .alarm _ => true
  | .debugUnlock _ challenge key sigR sigS => unlockSizes challenge key sigR sigS
  | .keyDataAccess _ _ _ => true
  | .fuseProgram _ => true
  | .fuseRevoke _ => true
  | .fuseRaise _ => true
  | .fuseComplete => true
  | .powerDown => true
  | .startup outcome => outcome.ok
  | .loaderStart => true
  | .packageReset _ _ => true
  | .coresReset _ => true
  | .pciePerst => true
  | .testReset => true
  | .pciePerstRelease _ _ _ => true
  | .obcorLinkDown _ => true
  | .obcorRelay _ _ _ _ => true
  | .standbyMirror _ _ => true
  | .ptpMessageGeneration _ => true
  | .corrected24hWindow _ => true

end Sys2Proof
end

