-- ==== Sys2Proof/Machine/State.lean ====
section
/-! DEFINITION. The state of the package, as plain data, and the state right after power-on reset. -/

namespace Sys2Proof.Machine

/-- How an access to the bus ended (R13, R520). -/
inductive Response where
  /-- The bytes read, at most 64, in little-endian order. -/
  | ok (value : BitVec 512)
  /-- A bus error on an application core. -/
  | busError
  /-- Unsupported Request on PCIe. -/
  | unsupported
  /-- A completion with the poisoned bit set on PCIe. -/
  | poisoned
  /-- Configuration Request Retry Status on PCIe (R509). -/
  | retry
deriving DecidableEq, Repr

/-- The application-core loader (R506, R508): destination, entry offset, code. -/
structure Loader where
  dest : Nat
  entry : Nat
  code : List Byte
deriving DecidableEq, Repr

/-- Facts of the part, its pins and the start-up progress (R2, R3, R443, R444, R503 to R509). -/
structure PkgState where
  /-- Grade E; grade S otherwise. -/
  gradeE : Bool
  /-- Stepping B0; stepping A1 otherwise. -/
  steppingB0 : Bool
  /-- PCIE_MODE as sampled: root port. -/
  rootPort : Bool
  /-- PCIE_MODE has been sampled since power-on reset (R504). -/
  modeSampled : Bool
  /-- AUX is below 1.62 V, as its latest sample shows it (R503). -/
  auxLow : Bool
  /-- What each half that was sending ended on its wire at the last power-down (R515). -/
  cutFrames : List (Nat × List Byte)
  powerGood : Bool
  resetN : Bool
  perstN : Bool
  thermTrip : Bool
  tamperIn : Bool
  /-- Start-up has reached READY. -/
  ready : Bool
  halted : Bool
  /-- Steward pairs still good (pair 0, pair 1), and the active one. -/
  pairs : List Bool
  activePair : Nat
  /-- The loader as the steward has verified it. -/
  loader : Option Loader
  loaderStarted : Bool
  /-- Address at which application core 0 was started, in the secure state. -/
  coreEntry : Option Nat
  retiredCores : List Nat
  serial : BitVec 128
  romVersion : Nat
  fwVersion : Nat
  stagedFw : Option Nat
  /-- Nanoseconds of power-on time below one POWER_SECONDS. -/
  upNs : Nat
deriving DecidableEq, Repr

/-- One in-package link (R23 to R28, R376). -/
structure LinkState where
  up : Bool
  /-- Lanes that their group's spare replaces, by lane number: 33 × group + lane. -/
  spared : List Nat
  /-- Groups removed. -/
  removed : List Nat
  /-- Lanes marked for sparing or removal at the next retrain. -/
  marked : List Nat
  /-- Error windows counted: lane and POWER_SECONDS. -/
  windows : List (Nat × Nat)
  retriesInRow : Nat
  /-- ACLK of replay delay on the link so far. -/
  delayAclk : Nat
  stallUs : Nat
  relay : Option Nat
deriving DecidableEq, Repr

/-- A section as the units hold it (Table 3.2). -/
structure Section where
  kind : Nat
  flags : Nat
  target : Nat
  offset : Nat
  length : Nat
  digest : List Byte
  payload : List Byte
deriving DecidableEq, Repr

/-- The header and sections of an image (R89). -/
structure Image where
  addr : Nat
  totalLength : Nat
  imageId : Nat
  flags : Nat
  features : Nat
  clusters : Nat
  dieMask : Nat
  sliceMask : Nat
  sections : List Section
deriving DecidableEq, Repr

inductive LoadOp where
  | full | part | check | unload
deriving DecidableEq, Repr

inductive LoadPhase where
  | checking | passed | distributing | reloading
deriving DecidableEq, Repr

/-- A load operation in progress (R97 to R103): the value written to LOAD_CTRL, LOAD_ADDR at that write. -/
structure LoadJob where
  op : LoadOp
  ctrl : Nat
  addr : Nat
  phase : LoadPhase
  /-- The image whose sections go out, once the checks have passed. -/
  image : Option Image
  /-- A partial reload's compute sections and hub sections that have not taken effect, and its epoch once begun. -/
  dieDue : Bool
  hubDue : Bool
  epoch : Option Nat
  /-- LOAD_STATUS.STATE before a full load, which a refusal restores. -/
  prev : Nat
deriving DecidableEq, Repr

/-- The run of the sequencers (R88, R109, R110). -/
structure RunState where
  /-- A step has begun and not reached its seam. -/
  stepRunning : Bool
  /-- The package is at a seam; false from a cutting ABORT until a restore or a full load. -/
  atSeam : Bool
  /-- A START with AT that has not begun. -/
  armed : Bool
  /-- The armed launch was late at its write. -/
  late : Bool
  /-- Steps still to run, when STEP_LIMIT was not 0. -/
  stepsLeft : Option Nat
deriving DecidableEq, Repr

/-- A commit request being checked (R113). -/
structure Staging where
  group : Nat
  bySteward : Bool
  values : Tab Word
deriving DecidableEq, Repr

structure CfgState where
  image : Option Image
  /-- Range of the protected image buffer: address and length (R99). -/
  buffer : Option (Nat × Nat)
  load : Option LoadJob
  run : RunState
  checks : List Staging
  pendingGroups : List Staging
  applied : Tab Nat
  lastCode : Tab Nat
  /-- Recorded epoch of each unit by physical unit code; slices and the feature encoder by their codes (R121). -/
  epochs : Tab Nat
deriving DecidableEq, Repr

/-- One unit's entry in the unit table (Table 11.3), with the times of its strikes still inside the window. -/
structure UnitEntry where
  state : Nat
  cause : Nat
  strikes : List Nat
  hardBits : Nat
  lastStrike : Nat
  corrected24 : Nat
  totalEvents : Nat
  sumpCount : Nat
  screenFails : Nat
  lanternLast : Nat
  lanternVersion : Nat
  /-- Of a lane group: the lane, by number on its link, that its spare replaces (Table 15.3, phase 6). -/
  spareLane : Option Nat
deriving DecidableEq, Repr

/-- What started a screen, and what its end does (R378, R384, R400, R402). -/
inductive ScreenKind where
  | sump | spare | readmit | command | expel
deriving DecidableEq, Repr

/-- A header copy of the package NOR (R372). -/
structure NorHeader where
  valid : Bool
  table : Nat
  pack : Nat
  generation : Nat
  powerSeconds : Nat
  ringHead : Nat
  ringWraps : Nat
deriving DecidableEq, Repr

/-- A Lantern pack slot (R380). -/
structure PackSlot where
  version : Nat
  bytes : List Byte
deriving DecidableEq, Repr

/-- The package NOR (Table 11.1). It survives every reset. -/
structure NorState where
  headerA : NorHeader
  headerB : NorHeader
  tableA : Tab UnitEntry
  tableB : Tab UnitEntry
  ring : Tab (List Byte)
  pack0 : Option PackSlot
  pack1 : Option PackSlot
  /-- The factory record's unit table. -/
  factory : Tab UnitEntry
deriving DecidableEq, Repr

/-- A slot of a pending area (R171): its number, occurrences, and the parts not yet combined (block start, size,
sums). -/
structure GradRow where
  slot : Nat
  occurrences : Nat
  parts : List (Nat × Nat × List Nat)
  bad : Bool
  /-- The row's update is written (R389 keeps the bank until the seam). -/
  applied : Bool
deriving DecidableEq, Repr

/-- A pending bank of one table on one die: the step it gathered in, and its rows. -/
structure Bank where
  step : Nat
  rows : Tab GradRow
deriving DecidableEq, Repr

/-- A step copy (R387): the tensors with their bytes, and the step whose seam it holds. -/
structure StepCopy where
  step : Nat
  tensors : List (Nat × List Byte)
  /-- Pending banks that cross the seam, by 256 × die + table. -/
  banks : Tab Bank
deriving DecidableEq, Repr

/-- One pre-image of an undo bank (R387). -/
structure PreImage where
  die : Nat
  table : Nat
  row : Nat
  step : Nat
  bytes : List Byte
deriving DecidableEq, Repr

/-- A round slot (R390). -/
structure RoundSlot where
  step : Nat
  copy : StepCopy
  agreed : Bool
deriving DecidableEq, Repr

/-- Why a step stopped (R393): the unit charged (0 for none), the record kind, the address of a lost line. -/
structure StopCause where
  key : Nat
  kind : Nat
  addr : Option Nat
deriving DecidableEq, Repr

structure UnitCmd where
  key : Nat
  op : Nat
deriving DecidableEq, Repr

structure FltState where
  units : Tab UnitEntry
  /-- The unit table has changes that the NOR does not hold. -/
  stateDirty : Bool
  countsDirty : Bool
  /-- Units in Sump that wait for their screen, and screens that run: key, kind, version of the Lantern pack (R386). -/
  screening : List (Nat × ScreenKind × Nat)
  /-- POWER_SECONDS of the last quick screen passed, by key (R401). -/
  quickPassed : Tab Nat
  /-- Units that passed and have not taken a logical position again; dies whose rotation waits for a seam. -/
  returning : List Nat
  rotateDue : List Nat
  /-- Units in Sump by a rotation, until they are re-admitted; POWER_SECONDS at which each unit's last rotation began
  (R384, R385). -/
  rotating : List Nat
  rotated : Tab Nat
  /-- POWER_SECONDS at which spare units last began their full screens (R384). -/
  spareAt : Option Nat
  /-- Corrections of SRAM words in the last 24 power-on hours: unit key, address, POWER_SECONDS (R377). -/
  wordHits : List (Nat × Nat × Nat)
  /-- SRAM words found hard. -/
  hardWords : List (Nat × Nat)
  nor : NorState
  /-- An installation: the address written and the pack that passed its checks. -/
  packJob : Option (Option PackSlot)
  copy : Option StepCopy
  undo : List PreImage
  rounds : List RoundSlot
  /-- A step copy is owed at this seam; it is in progress (R388). -/
  copyDue : Bool
  copying : Bool
  /-- A round slot is to be filled at this seam (R390). -/
  roundDue : Bool
  /-- A round seam or an echo lag holds the next step (R355, R390). -/
  echoHold : Bool
  causes : List StopCause
  /-- A stop is being recovered: the kind to run (0 unit, 1 die reset, 2 rollback). -/
  stopKind : Option Nat
  resetDies : List Nat
  rollbackTo : Option Nat
  expulsions : List Nat
  cmd : Option UnitCmd
  /-- Last hour in which each (key, kind) of severity 0 was logged (R373). -/
  loggedHour : Tab Nat
  /-- LOAD_STATUS.STATE before the stop, and whether a step was cut off. -/
  before : Nat × Bool
deriving DecidableEq, Repr

/-- An error record (Table 10.4). -/
structure ErrRecord where
  severity : Nat
  kind : Nat
  count : Nat
  glc : Nat
  unitL : Nat
  unitP : Nat
  imageId : Nat
  step : Nat
  operation : Nat
  temp : Nat
  volt : Nat
  rail : Nat
  timeState : Nat
  errEst : Nat
  sequence : Nat
  synd : Nat
deriving DecidableEq, Repr

/-- One epoch of data between this package and another (R348 to R351). -/
structure EpochState where
  peer : Nat
  epoch : Nat
  count : Nat
  /-- Pip of the whole words, and the bytes of the word that is not full yet (R346). -/
  pip : Nat
  tail : List Byte
  /-- Count and pip of the token, once it has come. -/
  token : Option (Nat × Nat)
  /-- Provisional writes: die, event, address, bytes. -/
  data : List (Nat × Nat × Nat × List Byte)
  parityOk : Bool
  step : Nat
  /-- Tiles whose data the epoch carries and whose twin comparison was outstanding as it left (R349). -/
  tiles : List (Nat × Nat × Nat × Nat)
deriving DecidableEq, Repr

/-- Pips of one tensor (R346, R367). -/
structure PipState where
  write : Nat
  writeValid : Bool
  read : Nat
  readValid : Bool
  step : Nat
  /-- The stored bytes are those that `write` describes. -/
  live : Bool
  /-- What the running step has gathered: its last write (with no pip where that was not whole), its reads. -/
  curWrite : Option (Option Nat)
  curRead : Option Nat
  /-- Elements that the running step has read so far. -/
  seen : List Nat
deriving DecidableEq, Repr

/-- A replica's report of an echo round (R354). -/
structure EchoReport where
  worker : Nat
  step : Nat
  digest : Nat
  /-- Ledger sum of each table, and the pip of the values its updates wrote (R356). -/
  ledgers : List (Nat × Nat)
  values : List (Nat × Nat)
deriving DecidableEq, Repr

/-- The update ledger of a table on a die (R356): its two sums, and the pip of the values written. -/
structure Ledger where
  table : Nat
  die : Nat
  sum1 : Nat
  sum2 : Nat
  values : Nat
deriving DecidableEq, Repr

/-- A piece of data of another package that has been committed (R350): its sender, die, event, address and bytes. -/
structure Arrival where
  peer : Nat
  die : Nat
  event : Nat
  addr : Nat
  bytes : List Byte
deriving DecidableEq, Repr

structure ChkState where
  /-- The hub queue of 1,024 records that the steward takes (R359). -/
  queue : List ErrRecord
  /-- Records held at their sources while the queue is full. -/
  held : List ErrRecord
  /-- CORRECTED records in their 10 µs wait (R358). -/
  waiting : List ErrRecord
  lost : Nat
  nextSeq : Nat
  epochsOut : List EpochState
  epochsIn : List EpochState
  /-- A POISON_NOTICE record was already written for this step. -/
  poisonNoted : Bool
  pips : Tab PipState
  /-- Echo digest gathered in the running step: two sums and elements so far. -/
  digest : Nat × Nat
  /-- Since the last round, by table: the two ledger sums, and the pip of the values written. -/
  ledgerSum : Tab (Nat × Nat × Nat)
  /-- Rounds whose verdict is outstanding, by step. -/
  rounds : List Nat
  reports : List EchoReport
  /-- Ledgers of the step. -/
  ledgers : List Ledger
  /-- Verdicts the manager has formed: worker, code, step, replicas. -/
  verdicts : List (Nat × Nat × Nat × Nat)
  /-- Committed bytes that count towards an event, by 4,096 × die + event (R350). -/
  eventBytes : Tab Nat
  /-- The pieces of data committed in the running step (R350). -/
  received : List Arrival
  /-- Tiles whose twin comparison is outstanding: core, entry, engine, operation. -/
  twinPending : List (Nat × Nat × Nat × Nat)
  /-- Check tokens sent (R349): receiver, epoch, bytes, pip. -/
  tokens : List (Nat × Nat × Nat × Nat)
deriving DecidableEq, Repr

/-- State of a memory array's scrub and codes (R210, R217 to R221). -/
structure MemState where
  /-- Line metadata of tier 1 by line number: POISON, CE_COUNT, SCRUB_PASS. -/
  lineMeta : Tab Nat
  /-- Poisoned tier-2 lines; at most 65,536. -/
  t2Poison : List Nat
  /-- Poisoned words of SRAM by address of the physical map. -/
  sramPoison : List Nat
  /-- Scheduled writebacks: memory, address. -/
  writebacks : List (MemKind × Nat)
  behind : List Nat
  /-- Tier-1 and tier-2 patrol: next line, pass number, period in force. -/
  patrol1 : Nat × Nat × Nat
  patrol2 : Nat × Nat × Nat
deriving DecidableEq, Repr

/-- A posted ring (R446 to R452). -/
structure RingState where
  base : Nat
  watch : Nat
  report : Nat
  enable : Bool
  sizeLog2 : Nat
  version : Nat
  irq : Nat
  cpl : Nat
  holdoff : Nat
  /-- The watch count last seen. -/
  posted : Nat
  /-- Entries reserved or begun so far. -/
  taken : Nat
  /-- Entries completed out of order beyond the prefix. -/
  early : List Nat
  done : Nat
  error : Nat
  /-- GLC of the last raise, and an advance that waits for the holdoff. -/
  lastRaise : Option Nat
  waiting : Bool
deriving DecidableEq, Repr

/-- A vector of the MSI-X table. PRESUMED: PCIe's layout, and its reset, with the vector masked (log entry 196). -/
structure MsixVector where
  addr : Nat
  data : Nat
  masked : Bool
deriving DecidableEq, Repr

def MsixVector.init : MsixVector := ⟨0, 0, true⟩

/-- A flit header (Table 13.11). -/
structure FlitHeader where
  type : BitVec 4
  seq : BitVec 12
  cls : BitVec 3
  last : Bool
  fill : BitVec 9
  epoch : BitVec 32
deriving DecidableEq, Repr

/-- TYPE codes of Table 13.11. -/
def flitData : Nat := 1
def flitToken : Nat := 2
def flitNotice : Nat := 3
def flitControl : Nat := 4
def flitTime : Nat := 5

/-- The capability block of link training (R460). -/
structure Capability where
  versions : Nat
  fleet : Nat
  index : Nat
  role : Nat
  serial : Nat
deriving DecidableEq, Repr

/-- An interrupt delivered: source, 1 for a core and 2 for MSI-X, core, vector. -/
structure Delivery where
  source : Nat
  dest : Nat
  core : Nat
  vector : Nat
deriving DecidableEq, Repr

/-- A transmit in progress on a ring: entry number, the half, the frame, flags, tag, whether sent stomped. -/
structure TxJob where
  ring : Nat
  entry : Nat
  half : Nat
  frame : List Byte
  tc : Nat
  flags : Nat
  tag : Nat
  status : Nat
  stamp : Nat
  sent : Bool
deriving DecidableEq, Repr

/-- A request that the package sends over PCIe (R455, R456): PCIe address and bytes read or written; configuration
address and dword written, none for a read. -/
inductive PcieReq where
  | read (addr size : Nat)
  | write (addr : Nat) (data : List Byte)
  | config (addr : Nat) (write : Option Nat)
deriving DecidableEq, Repr

structure HubState where
  rings : Tab RingState
  txJobs : List TxJob
  delivered : List Delivery
  msi : List Nat
  msiOverflow : Bool
  /-- Failures in a row of one flit, by Obcor link (R459). -/
  obcorFails : Tab Nat
  /-- Members of the PTP datasets, by dataset and member number. -/
  ptpData : Tab Nat
  pcieOut : List PcieReq
  /-- The MSI-X table and the pending-bit array of BAR 4/5 (R455). -/
  msix : Tab MsixVector
  msixPending : List Nat
  /-- Header of the last flit that left on each Obcor link with a message of this package (R457). -/
  lastFlit : Tab FlitHeader
  /-- Capability block last sent on each Obcor link, and the serial number of its partner's (R460). -/
  capSent : Tab Capability
  partnerSerial : Tab Nat
deriving DecidableEq, Repr

/-- A manager's state as its standby mirrors it (R465): participant sets, each in the order of its ranks, routes as
destination and link, verdicts, the agreed step. -/
structure Mirror where
  sets : List (Nat × List Nat)
  routes : List (Nat × Nat)
  verdicts : List (Nat × Nat × Nat × Nat)
  step : Nat
deriving DecidableEq, Repr

/-- A worker as the manager sees it (R462, R464). -/
structure Worker where
  index : Nat
  serial : Nat
  grade : Nat
  clusters : Nat
  versions : Nat
  lastSeen : Nat
  timeState : Nat
  errEst : Nat
  step : Nat
  load : Nat
  outcome : Nat
  assigned : Option Nat
  armed : Option Nat
  /-- It has accepted the set it was put into, and no launch of it has begun; a rollback was ordered, and its READY is
  outstanding (R334, R463). -/
  fresh : Bool
  due : Bool
deriving DecidableEq, Repr

/-- A control message sent (R462): MSG code, destination, body values. -/
structure CtrlMsg where
  msg : Nat
  dest : Nat
  body : List Nat
deriving DecidableEq, Repr

structure FleetState where
  /-- Power-on nanosecond of the last manager heartbeat. -/
  managerSeen : Option Nat
  managerIndex : Nat
  standby : Nat
  heartbeatMs : Nat
  /-- Parts of an ASSIGN that have arrived. -/
  parts : List AssignPart
  /-- The participant set's members. -/
  members : List Nat
  workers : List Worker
  sets : List (Nat × List Nat)
  /-- What a STANDBY has received. -/
  mirror : Mirror
  /-- What a manager has sent its standby last. -/
  mirrored : Option Mirror
  /-- The agreed step of the fleet. -/
  agreed : Nat
  sent : List CtrlMsg
  /-- Packets passed on: control or data, link or destination, flits. -/
  relayed : List (Bool × Nat × Nat)
  /-- Poison notices sent: destination, sender named, epoch, cause (R351, R458). -/
  notices : List (Nat × Nat × Nat × Nat)
  expelled : Bool
  /-- GLC count of a launch that the manager has sent. -/
  launchAt : Option Nat
  /-- Sets whose job must restart from a snapshot: only a lost package held some of their table slices (R464). -/
  restarts : List Nat
  /-- A FLEET_JOIN request that waits for its WELCOME: service ring and entry. -/
  joinReq : Option (Nat × Nat)
deriving DecidableEq, Repr

/-- The local clock (R309): seconds, nanoseconds, and the fraction in units of 2⁻³² ns. -/
structure Clock where
  sec : Nat
  ns : Nat
  frac : Nat
deriving DecidableEq, Repr
/-- A core's sequencer (R128): its next entry, and the entries issued and not complete. -/
structure SeqState where
  next : Nat
  inFlight : List Nat
deriving DecidableEq, Repr

/-- A stream in the running step (R197): chunks issued, arrived and written, bytes that issued entries read or write,
bytes they have taken or given; the bytes between, and the chunks of them that are poisoned. -/
structure StreamState where
  issued : Nat
  arrived : Nat
  written : Nat
  demand : Nat
  moved : Nat
  buf : List Byte
  bad : List Nat
deriving DecidableEq, Repr

structure DenseState where
  /-- Sequencers by logical core. -/
  seqs : Tab SeqState
  /-- Events set in the step: 4,096 × die + event. -/
  events : List Nat
  /-- Versions that the step has created, by weight (R143). -/
  versions : Tab Nat
  /-- Streams by 16 × core + stream. -/
  streams : Tab StreamState
  /-- Cores whose sequencer waits on the stash. -/
  stalled : List Nat
  /-- Cores whose sequencer holds for the trace ring (R431). -/
  traceHeld : List Nat
  /-- EXCHANGE entries whose result is already in place: core and entry. -/
  exchanged : List (Nat × Nat)
  /-- EXCHANGE entries whose data has left for the other packages: core and entry. -/
  exchangeSent : List (Nat × Nat)
  /-- Cores whose last entry is done and waits for its write streams (R197). -/
  draining : List Nat
  /-- Ranges of memory written by the step. -/
  wrote : List (Nat × Nat)
  /-- What each byte held before its writes by the step, newest first (R110). -/
  before : List (Nat × Byte)
  /-- Copy of a stashed weight that holds a version: by 65,536 × weight + version (R143, R144). -/
  slots : Tab Nat
deriving DecidableEq, Repr

/-- A cluster's Press (R165): its next job, and whether that job has issued. -/
structure PressState where
  next : Nat
  running : Bool
  /-- The running job has sent what it owes the other packages and waits for their data (R172). -/
  waiting : Bool
deriving DecidableEq, Repr

/-- A part of a row's gradient on its way to the row's owner (R169): the block of position keys and its sums. -/
structure PartMsg where
  die : Nat
  owner : Nat
  table : Nat
  row : Nat
  occurrences : Nat
  lo : Nat
  size : Nat
  values : List Nat
  bad : Bool
deriving DecidableEq, Repr

structure TableState where
  updates : Nat
  lastStep : Nat
  /-- PENDING as the last UPDATE job that completed left it (R187). -/
  pending : Bool
deriving DecidableEq, Repr

/-- A serving slot (R182 to R185). -/
structure NtsState where
  /-- The active region: 0 A, 1 B. -/
  active : Nat
  versionA : Nat
  versionB : Nat
  /-- The region holds a completed export. -/
  fullA : Bool
  fullB : Bool
  /-- The inactive region still holds the version it held when it was last active. -/
  kept : Bool
  /-- An export runs: the die and cluster of its job. -/
  export_ : Option (Nat × Nat)
  /-- The running export waits for its region. -/
  waits : Bool
  /-- Completed exports. -/
  count : Nat
  /-- Step whose export runs, and what its jobs write while it waits: offset in the region, bytes. -/
  step : Nat
  data : List (Nat × List Byte)
deriving DecidableEq, Repr

/-- A Grotto line that is Copying or Cached (R204); its bytes stand at the line's address. -/
structure GrottoLine where
  die : Nat
  cluster : Nat
  table : Nat
  line : Nat
  row : Nat
  copying : Bool
  pinned : Bool
  /-- The row is to be pinned on reaching Cached. -/
  pinNext : Bool
  overlay : Option (List Byte)
  /-- Home record as the copy read takes it. -/
  copy : List Byte
deriving DecidableEq, Repr

structure EmbState where
  /-- By 16 × die + cluster. -/
  press : Tab PressState
  /-- Sorted lists (R166) by 65,536 × die + sort tensor: row (2⁶⁴ for NULL) and position key. -/
  sorted : Tab (List (Nat × Nat))
  parts : List PartMsg
  /-- Banks of the running step and of the step before, by 256 × die + table. -/
  banks : Tab Bank
  prev : Tab Bank
  tables : Tab TableState
  nts : Tab NtsState
  lines : List GrottoLine
  /-- Occurrences in the step by (row × 256 + table) × 4 + die (R205). -/
  counts : Tab Nat
  /-- Rows in staging slots, in slot order, by 256 × die + table (R216). -/
  staged : Tab (List Nat)
  /-- Leaves of bags that a share boundary cuts, until every share of the bag is looked up: key, values, poison; by
  256 × die + table (R167). -/
  cut : Tab (List (Nat × List Nat × Bool))
  /-- Adagrad sums of the running step that were sent: 16 × table + cluster (R172). -/
  sumsSent : List Nat
deriving DecidableEq, Repr

/-- What the parser read of a KRF request (Tables 7.3 and 7.4). -/
structure Krf where
  ver : Nat
  off : Nat
  featLen : Nat
  tailLen : Nat
  msgEnd : Nat
  tenant : Nat
  deadline : Nat
  requestId : Nat
  model : Nat
  flags : Nat
  udp : Bool
deriving DecidableEq, Repr

/-- The parser's result (R236 to R241): the key without PORT, PASS and META, and where the headers lie. -/
structure Parsed where
  early : Option Nat
  key : Nat
  vlan : List Byte
  ethEnd : Nat
  l3 : Option Nat
  ipEnd : Option Nat
  l4 : Option Nat
  krf : Option Krf
  ptp : Option Nat
  udp : Bool
  /-- Opcode of a MAC control frame. -/
  mac : Option Nat
deriving DecidableEq, Repr

/-- A reserved ring entry (R449): class, ring, entry, buffer. -/
structure RingSlot where
  cls : Nat
  ring : Nat
  entry : Nat
  addr : Nat
  len : Nat
deriving DecidableEq, Repr

/-- A reply that waits or is sent (R293 to R299). -/
structure Reply where
  slice : Nat
  template : List Byte
  status : Nat
  outs : List Nat
  epoch : Nat
  /-- Cycle of the reply's pipeline, from the WCLK of request byte 0. -/
  cycle : Nat
  sending : Bool
deriving DecidableEq, Repr

/-- A frame inside the package, from its parse until nothing of it waits. -/
structure Frame where
  port : Nat
  bytes : List Byte
  phyError : Bool
  /-- Byte parity failed in the wire datapath (R339, R340). -/
  poisoned : Bool
  stamp : Nat
  /-- Nanosecond of power-on time at which byte 0 was visible. -/
  arrived : Nat
  /-- Receive stamp on the local clock, in picoseconds (R320). -/
  rxPs : Int
  maxFrame : Nat
  parsed : Parsed
  /-- 0 first pass due, 1 second pass due, 2 decided. -/
  stage : Nat
  bank : Nat
  epoch : Nat
  /-- Count of hub copy changes when the frame entered the encoder, and the NTS regions active then, by slot. -/
  copy : Nat
  regions : List Nat
  /-- The frame holds its model copy and its regions. -/
  holds : Bool
  metaWord : Nat
  action : Nat
  tapRing : Nat
  hash : Nat
  passes : Nat
  flow : Option Nat
  /-- Allocations of the context's way up to the deciding pass (R272). -/
  flowSerial : Nat
  /-- The context as the deciding pass read it. -/
  flowBytes : List Byte
  ring : Option RingSlot
  reason : Option Nat
  /-- Slice whose queue the frame waits in. -/
  slice : Option Nat
  /-- Slices of its pair that were retired when it entered that queue. -/
  lost : List Nat
  reply : Option Reply
  /-- STATUS and accumulators of a scored frame. -/
  scored : Option (Nat × List Int)
  verdict : Option Bool
  late : List Nat
deriving DecidableEq, Repr

/-- The frame that a half sends (R263): its bytes before the FCS, whether its FCS is decided and stomped, and whether
the transmit PCS ends it with an error control block (R297). -/
structure TxOut where
  frame : Option Nat
  reply : Bool
  bytes : List Byte
  decided : Bool
  stomped : Bool
  errorBlock : Bool
deriving DecidableEq, Repr

/-- Peer delay on a P2P half (R325): sequence number and stamp of the request sent, the response's stamps, in units of
2⁻¹⁶ ns. -/
structure Pdelay where
  seq : Nat
  sent : Option Int
  received : Option Int
  requestReceipt : Option Int
  /-- meanLinkDelay in units of 2⁻¹⁶ ns. -/
  mean : Option Int
deriving DecidableEq, Repr

/-- One half of a port. -/
structure Half where
  /-- Forwarding buffer (R264): frame, traffic class, bytes. -/
  queue : List (Nat × Nat × Nat)
  out : Option TxOut
  /-- Quanta of the classes its partner paused. -/
  pauses : Tab Nat
  /-- Classes it has paused at its partner. -/
  xoff : List Nat
  /-- The PFC frame sent last (R264): the class it names and its quanta. -/
  pfcSent : Option (Nat × Nat)
  /-- PHY latencies that training fixed, in picoseconds (R234). -/
  rxLatency : Nat
  txLatency : Nat
  pd : Pdelay
deriving DecidableEq, Repr

/-- A held residence (R324): domain, port identity and sequence number as one key, and the value. -/
structure TcEntry where
  key : Nat
  value : Int
deriving DecidableEq, Repr

/-- A PTP message of the package that waits on its transmit ring: half, message type, sequence number, and the time
its body carries, in units of 2⁻¹⁶ ns, and the port identity it answers. -/
structure PtpOut where
  half : Nat
  messageType : Nat
  seq : Nat
  value : Int
  peer : Nat
deriving DecidableEq, Repr

/-- A hub model copy (R300): encoder, templates, ensembles and the epochs they record. -/
structure HubModel where
  encoder : List Byte
  templates : List Byte
  slices : Tab (List Byte)
  epochs : Tab Nat
deriving DecidableEq, Repr

structure WireState where
  frames : Tab Frame
  nextFrame : Nat
  /-- Words of the classifier banks: ((bank × 16 + region) × 2¹⁷ + index) × 8 + word. -/
  banks : Tab Nat
  /-- Flow contexts (Table 7.11). -/
  flows : Tab (List Byte)
  /-- Allocations of each flow context's way. -/
  flowSerials : Tab Nat
  halves : Tab Half
  /-- Frames waiting at each slice and in each port's reply queue. -/
  sliceQueues : Tab (List Nat)
  replyQueues : Tab (List Nat)
  /-- Starts of the last replies of each port, in nanoseconds of power-on time. -/
  replyStarts : Tab (List Nat)
  model : HubModel
  oldModel : HubModel
  /-- Hub sections distributed that wait for their WCLK boundary. -/
  shadow : Option HubModel
  swaps : Nat
  tc : List TcEntry
  ptpOut : List PtpOut
deriving DecidableEq, Repr

/-- Key slots and customer keys beyond their registers (R491 to R495). Digests are fuses, public keys stand in the
board's SPI NOR; both survive every reset. -/
structure SecState where
  digests : Tab (List Byte)
  keys : Tab (List Byte)
  /-- Slots whose key failed its check at start-up and that count as empty (Table 14.10). -/
  keyBad : List Nat
  customer : Tab Nat
  unlockFails : Nat
  unlocked : Bool
  /-- The value written to FUSE_CMD while its operation runs. -/
  fuse : Option Word
deriving DecidableEq, Repr

/-- A SAVE that waits or copies, or a RESTORE or CHECK that runs (R427, R429). -/
structure SnapJob where
  op : Nat
  manifest : Bool
  pause : Bool
  addr : Nat
  copying : Bool
  /-- Its copy met a line that could not be corrected (R428). -/
  hit : Bool
deriving DecidableEq, Repr

structure DetState where
  snap : Option SnapJob
  /-- Contents of pending banks that the package saved, with the banks they stand for, newest first. -/
  saved : List (List Byte × Bank)
deriving DecidableEq, Repr

/-- A request to step or set the clock (R313): a step's offset, or the seconds and nanoseconds to set. -/
inductive TimeReq where
  | step (offset : Int)
  | set (sec ns : Nat)
deriving DecidableEq, Repr

/-- An ordinary-clock message delivered on the PTP ring: its bytes from the PTP header on, and its receive stamp in
picoseconds. -/
structure PtpIn where
  bytes : List Byte
  rxPs : Int
deriving DecidableEq, Repr

/-- The time exchange on an Obcor link: the flit sent last, the send and receive time of the flit received last, and the
measured link delay in half nanoseconds. -/
structure ObcTime where
  sent : Option TimeFlit
  got : Option (Nat × Nat)
  delay2 : Int
deriving DecidableEq, Repr

/-- The time unit beyond its registers (R313 to R316, R329 to R331). -/
structure TimeState where
  req : Option TimeReq
  /-- The local clock reached a whole microsecond in this SCLK cycle. -/
  micro : Bool
  /-- Consecutive measurements inside the lock window. -/
  within : Nat
  /-- Power-on nanosecond at which an offset of 1 µs or more began to persist. -/
  bigSince : Option Nat
  /-- Measurements of the last second: power-on nanosecond and size. -/
  offsets : List (Nat × Nat)
  /-- Power-on nanosecond at which holdover began. -/
  holdSince : Nat
  lastPps : Nat
  /-- Power-on nanosecond of the ordinary clock's last Sync and last Announce message (Table 9.2). -/
  lastSync : Nat
  lastAnnounce : Nat
  /-- Frequency estimate of the servo, in 2⁻³² ns per ns. -/
  freq : Int
  /-- GLC of each output's next leading edge; GLC at which its pulse ends; level of its pin. -/
  pulseNext : Tab Nat
  pulseEnds : Tab Nat
  pulsePin : Tab Nat
  /-- Ordinary-clock messages on the PTP ring, oldest first (R319). -/
  ptpIn : List PtpIn
  /-- Sequence numbers of the ordinary clock's own messages, by type. -/
  ptpSeq : Tab Nat
  /-- Time flits of each Obcor link (R317). -/
  obc : Tab ObcTime
deriving DecidableEq, Repr

/-- The rail monitor and the throttles beyond their registers (R478 to R482). -/
structure PwrState where
  /-- Power-on nanosecond of the last excursion record of each group. -/
  lastExcursion : Tab Nat
  /-- Sensors that have asserted THERM_TRIP. -/
  tripBy : List Nat
  /-- Throttle level in force on each compute die in the window of 8 frames. -/
  levels : Tab Nat
deriving DecidableEq, Repr

/-- The Stosto meter (R483 to R488), which survives every reset, and the hub's mirror of its records. -/
structure MeterState where
  serial : Word
  swVersion : BitVec 16
  swDigest : Word
  sequence : Nat
  seconds : Nat
  energy : List Nat
  /-- Energy of each channel below 1 mWh, in mV × mA × samples (R483). -/
  remainder : List Nat
  tampered : Bool
  tamperCount : Nat
  /-- The next record is the first after power-up. -/
  restarted : Bool
  pubkey : List Byte
  /-- The private key, which never leaves the meter (R486). -/
  key : Nat
  cert : List Byte
  /-- The record emitted last. -/
  emitted : List Byte
  /-- Records kept with the GLC of their arrival, newest first. -/
  mirror : List (List Byte × Nat)
deriving DecidableEq, Repr

/-- The package. -/
structure State where
  pending : List Instr
  /-- Counter of the free values: the model's own field (log entry 2). -/
  fresh : Nat
  regs : Tab Word
  shadow : Tab Word
  response : Response
  mem : List Host.Cell
  pkg : PkgState
  links : Tab LinkState
  /-- Slipped phase of the nine crossings in the running step, in frames (R49). -/
  crossings : Tab Nat
  cfg : CfgState
  flt : FltState
  chk : ChkState
  mm : MemState
  hub : HubState
  fleet : FleetState
  clock : Clock
  dense : DenseState
  emb : EmbState
  wire : WireState
  sec : SecState
  det : DetState
  time : TimeState
  pwr : PwrState
  mtr : MeterState
deriving DecidableEq, Repr

/-- No command of the package ends in a fault: every event of the table has an effect, which may be none. -/
inductive Fault where
deriving DecidableEq, Repr

inductive Refusal where
  /-- The command has no meaning in the model yet: raised by the dispatch alone; safe. -/
  | notModelled (mnemonic : String)
deriving DecidableEq, Repr

def NorHeader.blank : NorHeader := ⟨false, 0, 0, 0, 0, 0, 0⟩

def PkgState.init : PkgState :=
  ⟨false, false, false, false, false, [], true, true, false, false, false, false, false, [true, true], 0, none, false,
   none, [], 0, 0, 0, none, 0⟩

def LinkState.init : LinkState := ⟨false, [], [], [], [], 0, 0, 0, none⟩

def RunState.init : RunState := ⟨false, true, false, false, none⟩

def CfgState.init : CfgState := ⟨none, none, none, RunState.init, [], [], [], [], []⟩

def NorState.init : NorState :=
  ⟨⟨true, 0, 0, 0, 0, 0, 0⟩, NorHeader.blank, [], [], [], none, none, []⟩

def FltState.init : FltState :=
  ⟨[], false, false, [], [], [], [], [], [], none, [], [], NorState.init, none, none, [], [], false, false, false, false, [], none, [], none, [], none,
   [], (0, false)⟩

def PipState.init : PipState := ⟨0, false, 0, false, 0xFFFFFFFFFFFFFFFF, false, none, none, []⟩

def ChkState.init : ChkState :=
  ⟨[], [], [], 0, 0, [], [], false, [], (0, 0), [], [], [], [], [], [], [], [], []⟩

def MemState.init : MemState := ⟨[], [], [], [], [], (0, 0, 24), (0, 0, 24)⟩

def RingState.init : RingState := ⟨0, 0, 0, false, 4, 0, 0, 0, 0, 0, 0, [], 0, 0, none, false⟩

def HubState.init : HubState := ⟨[], [], [], [], false, [], [], [], [], [], [], [], []⟩

def Mirror.init : Mirror := ⟨[], [], [], 0xFFFFFFFFFFFFFFFF⟩

def FleetState.init : FleetState :=
  ⟨none, 0, 0, 10, [], [], [], [], Mirror.init, none, 0xFFFFFFFFFFFFFFFF, [], [], [], false, none, [], none⟩

def SeqState.init : SeqState := ⟨0, []⟩

def StreamState.init : StreamState := ⟨0, 0, 0, 0, 0, [], []⟩

def DenseState.init : DenseState := ⟨[], [], [], [], [], [], [], [], [], [], [], []⟩

def PressState.init : PressState := ⟨0, false, false⟩

def TableState.init : TableState := ⟨0, 0xFFFFFFFFFFFFFFFF, false⟩

def NtsState.init : NtsState := ⟨0, 0, 0, false, false, false, none, false, 0, 0, []⟩

def EmbState.init : EmbState := ⟨[], [], [], [], [], [], [], [], [], [], [], []⟩

def Pdelay.init : Pdelay := ⟨0, none, none, none, none⟩

def Half.init : Half := ⟨[], none, [], [], none, 48000, 14000, Pdelay.init⟩

def HubModel.init : HubModel := ⟨[], [], [], []⟩

def WireState.init : WireState :=
  ⟨[], 0, [], [], [], [], [], [], [], HubModel.init, HubModel.init, none, 0, [], []⟩

/-- Digest that manufacture leaves in key slots 0 to 3: of the public key of private key 1, the base point of P-384 (DESIGN
CHOICE, log entry 7). -/
def makerDigest : List Byte :=
  [0xA1, 0x9D, 0x4D, 0xB1, 0x71, 0xB5, 0x82, 0xEB, 0x80, 0x52, 0xB0, 0xCF, 0xE5, 0x55, 0xE1, 0x78,
   0x94, 0xAA, 0x22, 0xD1, 0xC8, 0xA9, 0x77, 0x09, 0x50, 0x69, 0x7D, 0xD8, 0xF7, 0x96, 0xD2, 0xFA,
   0x4B, 0xF0, 0xA5, 0x6A, 0xD8, 0x00, 0x06, 0xB7, 0xEA, 0x08, 0xE1, 0x19, 0x1F, 0x81, 0x4B, 0x65]

def SecState.init : SecState := ⟨(List.range 4).map fun k => (k, makerDigest), [], [], [], 0, false, none⟩

def DetState.init : DetState := ⟨none, []⟩

def ObcTime.init : ObcTime := ⟨none, none, 0⟩

def TimeState.init : TimeState := ⟨none, false, 0, none, [], 0, 0, 0, 0, 0, [], [], [], [], [], []⟩

def PwrState.init : PwrState := ⟨[], [], []⟩

/-- The base point of P-256, X then Y, big-endian: the public key of private key 1. -/
def meterKey1 : List Byte :=
  [0x6B, 0x17, 0xD1, 0xF2, 0xE1, 0x2C, 0x42, 0x47, 0xF8, 0xBC, 0xE6, 0xE5, 0x63, 0xA4, 0x40, 0xF2,
   0x77, 0x03, 0x7D, 0x81, 0x2D, 0xEB, 0x33, 0xA0, 0xF4, 0xA1, 0x39, 0x45, 0xD8, 0x98, 0xC2, 0x96] ++
  [0x4F, 0xE3, 0x42, 0xE2, 0xFE, 0x1A, 0x7F, 0x9B, 0x8E, 0xE7, 0xEB, 0x4A, 0x7C, 0x0F, 0x9E, 0x16,
   0x2B, 0xCE, 0x33, 0x57, 0x6B, 0x31, 0x5E, 0xCE, 0xCB, 0xB6, 0x40, 0x68, 0x37, 0xBF, 0x51, 0xF5]

/-- What manufacture leaves is DESIGN CHOICE (log entries 7 and 227): a private key with its public key, no counts. -/
def MeterState.init : MeterState :=
  ⟨0, 0, 0, 0, 0, List.replicate 16 0, List.replicate 16 0, false, 0, true, meterKey1, 1, List.replicate 176 0, [], []⟩

/-- The state right after power-on reset: every register at the value its table gives, every table at its default. -/
def State.reset : State :=
  { pending := [], fresh := 0, regs := [], shadow := [], response := .ok 0, mem := [], pkg := PkgState.init,
    links := [], crossings := [], cfg := CfgState.init, flt := FltState.init, chk := ChkState.init,
    mm := MemState.init, hub := HubState.init, fleet := FleetState.init, clock := ⟨0, 0, 0⟩,
    dense := DenseState.init,
    emb := EmbState.init,
    wire := WireState.init,
    sec := SecState.init,
    det := DetState.init,
    time := TimeState.init,
    pwr := PwrState.init,
    mtr := MeterState.init
  }

end Sys2Proof.Machine
end

