-- ==== Sys2Proof/Machine/Ops.lean ====
section
/-! DEFINITION. The named operations over registers, memory, free values and unit names that every meaning is
written with. -/

namespace Sys2Proof.Machine

/-! ### Free values -/

/-- A value the spec leaves open, and the state with the counter advanced (log entry 2). -/
def State.free (s : State) : Nat × State := ((Config.free64 s.fresh).toNat, { s with fresh := s.fresh + 1 })

/-- Free value number `i` of counter value `f`. -/
def freeAt (f i : Nat) : Nat := (Config.free64 ((f + 2 ^ 40) * 2 ^ 90 + i)).toNat

/-- The counter of free values advanced. -/
def State.tickFree (s : State) : State := { s with fresh := s.fresh + 1 }

/-- `n` free bytes of counter value `f`. -/
def freeBytes (f n : Nat) : List Byte :=
  (List.range n).map fun i => (Config.free64 ((f + 2 ^ 40) * 2 ^ 40 + i / 8)).extractLsb' (i % 8 * 8) 8

/-! ### Registers (R12, R15, R16) -/

def resetWord (off : Nat) : Word := BitVec.ofNat 64 (resetNat off)

/-- The active value of the register at an offset. -/
def State.reg (s : State) (off : Nat) : Word := Tab.get (resetWord off) off s.regs

def State.setReg (s : State) (off : Nat) (v : Word) : State :=
  { s with regs := Tab.set (resetWord off) off v s.regs }

/-- The shadow value of the register at an offset (R15). -/
def State.shadowReg (s : State) (off : Nat) : Word := Tab.get (resetWord off) off s.shadow

def State.setShadow (s : State) (off : Nat) (v : Word) : State :=
  { s with shadow := Tab.set (resetWord off) off v s.shadow }

/-- A field of an active register. -/
def State.fld (s : State) (f : Fld) : Nat := bits (s.reg f.off).toNat f.hi f.lo

def State.fldB (s : State) (f : Fld) : Bool := s.fld f != 0

def State.setFld (s : State) (f : Fld) (v : Nat) : State :=
  s.setReg f.off (BitVec.ofNat 64 (setBits (s.reg f.off).toNat f.hi f.lo v))

/-- A statistics counter gains `n`; it wraps at 2⁶⁴ (R16). -/
def State.bump (s : State) (off : Nat) (n : Nat) : State :=
  s.setReg off (s.reg off + BitVec.ofNat 64 n)

/-- A field of a register value. -/
def Fld.of (f : Fld) (v : Nat) : Nat := bits v f.hi f.lo

/-! ### Time (R309, R310) -/

def State.glc (s : State) : Nat := s.clock.sec * 1000000000 + s.clock.ns

/-- A 32-bit descriptor stamp of the current time (R10). -/
def State.stamp32 (s : State) : Nat := s.glc % 2 ^ 32

def State.powerSeconds (s : State) : Nat := s.fld Reg.fltPowerSecondsSeconds

/-- Nanoseconds of power-on time: it never runs backward. -/
def State.upTime (s : State) : Nat := s.powerSeconds * 1000000000 + s.pkg.upNs

/-- Frames of each 8 in which a die at throttle level `n` may issue (Table 14.5). -/
def throttleFrames (n : Nat) : Nat :=
  match n with
  | 0 => 8
  | 1 => 6
  | 2 => 4
  | 3 => 2
  | _ => 1

/-- The 5 ns frame of now in its window of 8. -/
def State.frameInWindow (s : State) : Nat := s.upTime / 5 % 8

/-- Thermal throttle and THERM_TRIP let the sequencers and Presses of a die issue in this frame (R481, R482). -/
def State.mayIssue (s : State) (d : Nat) : Bool :=
  !s.pkg.thermTrip && decide (s.frameInWindow < throttleFrames (Tab.get 0 d s.pwr.levels))

/-! ### The physical map (R519 to R521) -/

inductive Region where
  | tier1
  | tier2
  | nts
  | outbound
  /-- Window of die `die`, offset in it. -/
  | window (die off : Nat)
  | register (off : Nat)
  | unassigned
deriving DecidableEq, Repr

def tier1Size : Nat := 0x12C00000000
def tier2Base : Nat := 0x40000000000
def ntsBase : Nat := 0x80000000000
def ntsSize : Nat := 0x20000000
def windowBase : Nat := 0xE00000000000
def windowSize : Nat := 0x10000000000
def registerBase : Nat := 0xFF0000000000

/-- Bytes of tier 2: C × D (R214). -/
def State.tier2Size (s : State) : Nat := s.fld Reg.memT2StatusCount * s.fld Reg.memT2StatusDimmGib * 2 ^ 30

def State.region (s : State) (a : Nat) : Region :=
  if a < tier1Size then .tier1
  else if tier2Base ≤ a ∧ a < tier2Base + s.tier2Size then .tier2
  else if ntsBase ≤ a ∧ a < ntsBase + ntsSize then .nts
  else if 0x100000000000 ≤ a ∧ a < 0x110000000000 then .outbound
  else if windowBase ≤ a ∧ a < windowBase + 4 * windowSize then
    .window ((a - windowBase) / windowSize) ((a - windowBase) % windowSize)
  else if registerBase ≤ a ∧ a < registerBase + 0x80000000 then .register (a - registerBase)
  else .unassigned

/-- The whole range lies inside tier 1. -/
def inTier1 (a n : Nat) : Bool := decide (a + n ≤ tier1Size)

def State.inTier2 (s : State) (a n : Nat) : Bool :=
  decide (tier2Base ≤ a ∧ a + n ≤ tier2Base + s.tier2Size)

def State.inTiers (s : State) (a n : Nat) : Bool := inTier1 a n || s.inTier2 a n

def overlaps (a n b m : Nat) : Bool := decide (a < b + m ∧ b < a + n ∧ 0 < n ∧ 0 < m)

/-- Start and size of the die-local range of die `n` (R200). -/
def State.dieRange (s : State) (n : Nat) : Nat × Nat :=
  let st := s.fld Reg.memT1MapStripedGib
  ((st + n * ((1200 - st) / 4)) * 2 ^ 30, (1200 - st) / 4 * 2 ^ 30)

def State.stripedSize (s : State) : Nat := s.fld Reg.memT1MapStripedGib * 2 ^ 30

/-- Stack and pseudo-channel of a tier-1 address (R200). -/
def State.stackOf (s : State) (a : Nat) : Nat × Nat :=
  if a < s.stripedSize then
    let b := a / 256
    (b % 20, b / 20 % 64)
  else
    let n := (List.range 4).find? fun n => decide ((s.dieRange n).1 ≤ a ∧ a < (s.dieRange n).1 + (s.dieRange n).2)
    let n := n.getD 0
    let b := (a - (s.dieRange n).1) / 256
    (5 * n + b % 5, b / 5 % 64)

/-- Row of 256-byte blocks that an address takes in its own pseudo-channel, the striped range first (R200; the order of
a pseudo-channel's contents is a DESIGN CHOICE, log entry 172). -/
def State.pcRow (s : State) (a : Nat) : Nat :=
  if a < s.stripedSize then a / 256 / 1280
  else
    let n := (s.stackOf a).1 / 5
    s.stripedSize / 256 / 1280 + (a - (s.dieRange n).1) / 256 / 320

/-- Stack and pseudo-channel that hold an address: block i of a retired pseudo-channel lies in the i-th of those that are
left, taken round-robin (R211). -/
def State.pcOf (s : State) (a : Nat) : Nat × Nat :=
  let p := s.stackOf a
  let out := (s.reg (Reg.memPcRetired p.1)).toNat
  if bit out p.2 then
    let left := (List.range 64).filter fun q => !bit out q
    (p.1, left.getD (s.pcRow a / 16 % max 1 left.length) p.2)
  else p

/-- DDR5 channel of a tier-2 address: 4 KiB blocks rotate over the working channels (R214). -/
def State.channelOf (s : State) (a : Nat) : Nat :=
  let chans := (List.range 16).filter fun j => bit (s.fld Reg.memT2StatusChannels) j
  chans.getD ((a - tier2Base) / 4096 % (max 1 chans.length)) 0

/-- What a place inside a die window is (R201, Table 16.2). -/
inductive WindowPlace where
  | scratchpad (cluster core off : Nat)
  | grotto (cluster off : Nat)
  | none
deriving DecidableEq, Repr

def State.windowPlace (s : State) (die off : Nat) : WindowPlace :=
  let c := off / 0x2000000
  let o := off % 0x2000000
  if s.fld (Reg.cluCmapLogicalCount die) ≤ c then .none
  else if o < 0x800000 then .scratchpad c (o / 0x100000) (o % 0x100000)
  else if o < 0x1000000 then .none
  else .grotto c (o - 0x1000000)

/-- Address of the scratchpad of a logical core, and of the Grotto of a logical cluster. -/
def scratchAddr (d c k : Nat) : Nat := windowBase + d * windowSize + c * 0x2000000 + k * 0x100000

def grottoAddr (d c : Nat) : Nat := windowBase + d * windowSize + c * 0x2000000 + 0x1000000

/-! ### Memory -/

/-- What an unlisted address reads as (log entry 4). -/
def blankByte : Byte := 0

def State.byte (s : State) (a : Nat) : Byte := Tab.get blankByte a s.mem

def readMem (m : List Host.Cell) (a n : Nat) : List Byte :=
  (List.range n).map fun i => Tab.get blankByte (a + i) m

def State.read (s : State) (a n : Nat) : List Byte := readMem s.mem a n

def writeMem (m : List Host.Cell) (a : Nat) : List Byte → List Host.Cell
  | [] => m
  | b :: bs => writeMem (Tab.set blankByte a b m) (a + 1) bs

/-- The memory's canonical form. -/
def Memory.wf (m : List Host.Cell) : Bool := Tab.canon blankByte m

/-- Lines of 64 bytes that a write covers whole. -/
def fullLines (a n : Nat) : List Nat :=
  let lo := ceilDiv a 64
  let hi := (a + n) / 64
  (List.range (hi - lo)).map (lo + ·)

/-- Lines of 64 bytes that a range touches. -/
def touchedLines (a n : Nat) : List Nat :=
  if n = 0 then [] else (List.range ((a + n - 1) / 64 + 1 - a / 64)).map (a / 64 + ·)

def State.lineMeta (s : State) (line : Nat) : Nat := Tab.get 0 line s.mm.lineMeta

/-- Poison on a tier-1 line (R210). -/
def State.setLineMeta (s : State) (line v : Nat) : State :=
  { s with mm := { s.mm with lineMeta := Tab.set 0 line v s.mm.lineMeta } }

/-- A line or word marked poisoned (R219). -/
def State.poisonAt (s : State) (a : Nat) : State :=
  match s.region a with
  | .tier1 => s.setLineMeta (a / 64) (setBits (s.lineMeta (a / 64)) 0 0 1)
  | .tier2 =>
    let l := a / 64
    if s.mm.t2Poison.contains l then s
    else if s.mm.t2Poison.length < 65536 then { s with mm := { s.mm with t2Poison := s.mm.t2Poison ++ [l] } }
    else s
  | _ =>
    let w := a / 8 * 8
    if s.mm.sramPoison.contains w then s
    else { s with mm := { s.mm with sramPoison := s.mm.sramPoison ++ [w] } }

/-- Any byte of the range is poisoned. -/
def State.isPoisoned (s : State) (a n : Nat) : Bool :=
  (touchedLines a n).any (fun l => bit (s.lineMeta l) 0 && decide (l * 64 < tier1Size)) ||
  (touchedLines a n).any (fun l => s.mm.t2Poison.contains l) ||
  s.mm.sramPoison.any fun w => decide (w < a + n ∧ a < w + 8)

/-- A full write of a line or SRAM word clears its mark; a partial one leaves it (R210). -/
def State.clearPoison (s : State) (a n : Nat) : State :=
  let ls := fullLines a n
  let keep := s.mm.sramPoison.filter fun w => !(decide (a ≤ w ∧ w + 8 ≤ a + n))
  let t2 := s.mm.t2Poison.filter fun l => !ls.contains l
  let lm := s.mm.lineMeta.filterMap fun e =>
    if ls.contains e.1 then (let v := setBits e.2 0 0 0; if v = 0 then none else some (e.1, v)) else some e
  { s with mm := { s.mm with sramPoison := keep, t2Poison := t2, lineMeta := lm } }

/-- Bytes written to memory; the write clears poison where it covers a line or word whole (R210). -/
def State.write (s : State) (a : Nat) (bs : List Byte) : State :=
  { s.clearPoison a bs.length with mem := writeMem s.mem a bs }

/-- Bytes the spec leaves open are written: free values. -/
def State.writeFree (s : State) (a n : Nat) : State :=
  let f := s.free
  f.2.write a (freeBytes s.fresh n)

/-! ### Unit codes and keys (Table 3.4, Table 11.2) -/

def ucode (die cl core eng phys : Nat) : Nat := die + cl * 16 + core * 512 + eng * 8192 + phys * 131072

def noCluster : Nat := 0x1F
def noCore : Nat := 0xF
def packageCode : Nat := 0x1FFFE
def hubCode : Nat := 0x1FFFF

def dieCode (d : Nat) : Nat := ucode d noCluster noCore 15 0
def dieCodeP (d : Nat) : Nat := ucode d noCluster noCore 15 1
def clusterCode (d c : Nat) : Nat := ucode d c noCore 15 0
def coreCode (d c k : Nat) : Nat := ucode d c k 15 0
def engineCode (d c k e : Nat) : Nat := ucode d c k e 0
def clusterCodeP (d c : Nat) : Nat := ucode d c noCore 15 1
def coreCodeP (d c k : Nat) : Nat := ucode d c k 15 1
def engineCodeP (d c k e : Nat) : Nat := ucode d c k e 1
def sliceCode (j : Nat) : Nat := ucode 15 j noCore 15 0

def ucDie (u : Nat) : Nat := bits u 3 0
def ucCluster (u : Nat) : Nat := bits u 8 4
def ucCore (u : Nat) : Nat := bits u 12 9
def ucEngine (u : Nat) : Nat := bits u 16 13
def ucPhys (u : Nat) : Nat := bits u 17 17

/-- A unit's key: class and index. -/
def unitKey (cls idx : Nat) : Nat := cls + idx * 256
def keyClass (k : Nat) : Nat := k % 256
def keyIndex (k : Nat) : Nat := k / 256

def engineKey (d c k e : Nat) : Nat := unitKey 1 (engineCodeP d c k e)
def coreKey (d c k : Nat) : Nat := unitKey 2 (coreCodeP d c k)
def clusterKey (d c : Nat) : Nat := unitKey 3 (clusterCodeP d c)
def pcKey (stack pc : Nat) : Nat := unitKey 4 (64 * stack + pc)
def channelKey (ch : Nat) : Nat := unitKey 8 ch
def groupKey (link g : Nat) : Nat := unitKey 6 (32 * link + g)
def sliceKey (j : Nat) : Nat := unitKey 9 j

/-! ### The maps as their registers hold them (R38 to R41) -/

def State.activeClusters (s : State) : Nat := if s.pkg.gradeE then 15 else 16

/-- Physical cluster of a logical one. -/
def State.physCluster (s : State) (d c : Nat) : Option Nat :=
  let w := if c < 8 then s.reg (Reg.cluLmap0 d) else s.reg (Reg.cluLmap1 d)
  let b := bits w.toNat (8 * (c % 8) + 7) (8 * (c % 8))
  if bit b 7 then some (bits b 4 0) else none

/-- Physical core of a logical one in physical cluster `p`. -/
def State.physCore (s : State) (d p k : Nat) : Option Nat :=
  let v := bits (s.reg (Reg.cluKmap d p)).toNat (16 + 4 * k + 3) (16 + 4 * k)
  if v = 15 then none else some v

def State.physEngine (s : State) (d p q e : Nat) : Option Nat :=
  let v := bits (s.reg (Reg.cluEmap d p q)).toNat (16 + 4 * e + 3) (16 + 4 * e)
  if v = 15 then none else some v

/-- Physical code of a logical compute unit; the logical code where no unit carries it. -/
def State.physOf (s : State) (u : Nat) : Nat :=
  let d := ucDie u
  if 4 ≤ d then u
  else if ucCluster u = noCluster then dieCodeP d
  else
    match s.physCluster d (ucCluster u) with
    | none => u
    | some p =>
      if ucCore u = noCore then clusterCodeP d p
      else
        match s.physCore d p (ucCore u) with
        | none => u
        | some q =>
          if ucEngine u = 15 then coreCodeP d p q
          else
            match s.physEngine d p q (ucEngine u) with
            | none => u
            | some e => engineCodeP d p q e

/-! ### The loaded image and the run -/

def loadEmpty : Nat := 0
def loadChecking : Nat := 1
def loadDistributing : Nat := 2
def loadLoaded : Nat := 3
def loadRunning : Nat := 4
def loadStopping : Nat := 5
def loadFault : Nat := 6

def State.loadState (s : State) : Nat := s.fld Reg.cfgLoadStatusState

/-- BUSY reads 1 until READY (R509). -/
def State.busy (s : State) : Bool := !s.pkg.ready || s.fldB Reg.cfgLoadStatusBusy

def State.stepIndex (s : State) : Nat := (s.reg Reg.cfgStep).toNat

/-- Units of the package execute a step. -/
def State.stepRunning (s : State) : Bool := s.cfg.run.stepRunning

def State.setRun (s : State) (r : RunState) : State := { s with cfg := { s.cfg with run := r } }

/-- Sections of one kind with one target in the loaded image. -/
def State.sectionsOf (s : State) (kind : Nat) : List Section :=
  match s.cfg.image with
  | none => []
  | some im => im.sections.filter fun x => x.kind == kind

def State.payload (s : State) (kind target : Nat) : List Byte :=
  match (s.sectionsOf kind).find? fun x => x.target == target with
  | none => []
  | some x => x.payload

def State.imageClusters (s : State) : Nat :=
  match s.cfg.image with
  | none => 0
  | some im => im.clusters

/-! ### Responses (R13, R520) -/

def errorResponse (ag : Agent) : Response :=
  match ag with
  | .pcie => .unsupported
  | _ => .busError

def State.respond (s : State) (r : Response) : State := { s with response := r }

/-- The phase of start-up that runs (Table 15.3). -/
def State.phase (s : State) : Nat := s.fld Reg.pkgBootStatusPhase

/-- A phase of start-up has ended. -/
def State.past (s : State) (p : Nat) : Bool := s.pkg.ready || decide (p < s.phase ∧ s.phase ≤ 10)

/-- The package is held in a reset: AUX is low, or a ball is (R503, R504). -/
def State.held (s : State) : Bool := s.pkg.auxLow || !s.pkg.powerGood || !s.pkg.resetN

/-- While the package is held, or has halted, only the I3C target answers, from phase BOOT_ROM on (R507). -/
def State.answers (s : State) (ag : Agent) : Bool :=
  if ag = .i3c then !s.held && decide (2 ≤ s.phase) else !s.held && !s.pkg.halted

/-- A write that is discarded until READY (R509). -/
def State.onReady (s : State) (f : State → State) : State := if s.pkg.ready then f s else s

/-- Work of the steward, which nothing does once both pairs are lost (R444). -/
def State.onSteward (s : State) (f : State → State) : State := if s.pkg.pairs.contains true then f s else s

/-- A command of the table completes. -/
def done (s : State) : Host.Outcome State Fault Refusal := .next s

end Sys2Proof.Machine
end

