-- ==== Sys2Proof/Machine/Parser.lean ====
section
/-! DEFINITION. The frame parser: header list, early malformations, the KRF header and the rule key (R236 to R241,
R248). Headers are read from the bytes before the FCS. -/

namespace Sys2Proof.Machine

/-! ### Rule key (Table 7.7): low bit of each field -/

def kPort : Nat := 508
def kPass : Nat := 507
def kVlanCount : Nat := 505
def kL3 : Nat := 503
def kKrf : Nat := 502
def kTunnel : Nat := 501
def kPtp : Nat := 500
def kFrag : Nat := 498
def kAddressed : Nat := 497
def kMeta : Nat := 480
def kDmac : Nat := 432
def kSmac : Nat := 384
def kEtherType : Nat := 368
def kOuterPcp : Nat := 365
def kOuterVid : Nat := 353
def kInnerPcp : Nat := 350
def kInnerVid : Nat := 338
def kDscp : Nat := 332
def kEcn : Nat := 330
def kProto : Nat := 322
def kTtl : Nat := 314
def kSip : Nat := 186
def kDip : Nat := 58
def kSport : Nat := 42
def kDport : Nat := 26
def kTcpFlags : Nat := 18
def kModel : Nat := 2
def kDefer : Nat := 1
def kNoTap : Nat := 0

/-- A field of the key of width `w`. -/
def keyField (key lo w : Nat) : Nat := bits key (lo + w - 1) lo

/-- The key with a field, not set before, set to `v`. -/
def Parsed.put (p : Parsed) (lo v : Nat) : Parsed := { p with key := p.key + v * 2 ^ lo }

def Parsed.putB (p : Parsed) (lo : Nat) (b : Bool) : Parsed := p.put lo (b2n b)

def Parsed.addressed (p : Parsed) : Bool := bit p.key kAddressed

def Parsed.empty : Parsed := ⟨none, 0, [], 0, none, none, none, none, none, false, none⟩

/-- What the parser uses of the ingress half's registers. -/
structure ParseCfg where
  stations : List Nat
  udpPort : Nat
  etherType : Bool
  v1 : Bool
  v2 : Bool
deriving DecidableEq, Repr

/-! ### Malformation codes (Table 7.6) -/

def mRunt : Nat := 0
def mOversize : Nat := 1
def mFcs : Nat := 2
def mPhy : Nat := 3
def mMacControl : Nat := 4
def mVlanDepth : Nat := 5
def mIpv4 : Nat := 6
def mIpLength : Nat := 7
def mIpv6 : Nat := 8
def mIpv6Chain : Nat := 9
def mL4 : Nat := 10
def mDepth : Nat := 11
def mPtp : Nat := 12
def mKrf : Nat := 13
def mReach : Nat := 14
def mTail : Nat := 15

def Parsed.fail (p : Parsed) (code : Nat) : Parsed := { p with early := some code }

/-- Parsing goes on where the header at `off` ends within the first 256 bytes (R239) and within the frame; a
truncated one ends it with `cut` (R236). A header that would end beyond byte 256 in a frame that ends before it raises
PARSE_DEPTH (DESIGN CHOICE, log entry 218). -/
def Parsed.needOr (p cut : Parsed) (d : List Byte) (off size : Nat) (k : Unit → Parsed) : Parsed :=
  if 256 < off + size then p.fail mDepth
  else if d.length < off + size then cut
  else k ()

def Parsed.need (p : Parsed) (d : List Byte) (off size : Nat) (k : Unit → Parsed) : Parsed := p.needOr p d off size k

/-! ### PTP, KRF -/

/-- PTP header at `off`; `room` is the UDP payload length. A message of another versionPTP is none of the package's
(R318). -/
def Parsed.ptpHeader (p : Parsed) (d : List Byte) (off : Nat) (room : Option Nat) : Parsed :=
  if room.any fun n => decide (n < 34) then (p.put kPtp 1).fail mPtp
  else p.need d off 34 fun _ =>
    let q := p.put kPtp 1
    if be d (off + 1) 1 % 16 = 2 then { q with ptp := some off } else q.fail mPtp

def krfOf (d : List Byte) (off : Nat) (udp : Bool) : Krf :=
  let ver := be d off 1 / 16
  let size := if ver = 2 then 32 else 16
  let two := fun o k => if ver = 2 then be d (off + o) k else 0
  let feat := be d (off + 12) 2
  let tail := two 0x18 4
  ⟨ver, off, feat, tail, off + size + feat + tail, two 0x10 4, two 0x14 4, be d (off + 4) 8, be d (off + 2) 2,
   be d (off + 1) 1, udp⟩

def Krf.size (k : Krf) : Nat := if k.ver = 2 then 32 else 16

/-- R241. Bits [7:2] of FLAGS are taken as reserved with the reserved bytes (DEDUCED, log entry 220). -/
def Krf.bad (k : Krf) (d : List Byte) (cfg : ParseCfg) (room : Option Nat) : Bool :=
  let verOk := (k.ver == 1 && cfg.v1) || (k.ver == 2 && cfg.v2)
  let reserved := if k.ver = 2 then be d (k.off + 0x1C) 4 else be d (k.off + 14) 2
  let long := match room with
    | some n => decide (n < k.size + k.featLen + k.tailLen)
    | none => false
  !verOk || be d k.off 1 % 16 != 1 || decide (1008 < k.featLen) || decide (4 ≤ k.flags) || reserved != 0 ||
    (k.ver == 2 && be d (k.off + 14) 2 != 32) || long

def Parsed.krfHeader (p : Parsed) (d : List Byte) (off : Nat) (cfg : ParseCfg) (room : Option Nat) : Parsed :=
  p.need d off 16 fun _ =>
    let k := krfOf d off room.isSome
    p.need d off k.size fun _ =>
      let q := (p.put kKrf 1).put kModel k.model
      let q := (q.putB kDefer (bit k.flags 1)).putB kNoTap (bit k.flags 0)
      let q := { q with krf := some k }
      if k.bad d cfg room then q.fail mKrf else q

/-! ### Layer 4 -/

def Parsed.udpHeader (p : Parsed) (d : List Byte) (off : Nat) (cfg : ParseCfg) : Parsed :=
  p.need d off 8 fun _ =>
    let n := be d (off + 4) 2
    if n < 8 ∨ p.ipEnd.getD 0 < off + n then p.fail mL4
    else
      let dport := be d (off + 2) 2
      let q := { (p.put kSport (be d off 2)).put kDport dport with l4 := some off, udp := true }
      if dport = 4789 ∨ dport = 6081 then q.put kTunnel 1
      else if dport = 319 ∨ dport = 320 then q.ptpHeader d (off + 8) (some (n - 8))
      else if (cfg.udpPort != 0 && dport == cfg.udpPort && p.addressed) = true then q.krfHeader d (off + 8) cfg (some (n - 8))
      else q

def Parsed.tcpHeader (p : Parsed) (d : List Byte) (off : Nat) : Parsed :=
  p.need d off 20 fun _ =>
    let n := be d (off + 12) 1 / 16
    if n < 5 ∨ p.ipEnd.getD 0 < off + 4 * n then p.fail mL4
    else p.need d off (4 * n) fun _ =>
      { ((p.put kSport (be d off 2)).put kDport (be d (off + 2) 2)).put kTcpFlags (be d (off + 13) 1) with
        l4 := some off }

/-- Protocol `proto` at `off`: PROTO is already in the key. -/
def Parsed.layer4 (p : Parsed) (d : List Byte) (off proto : Nat) (cfg : ParseCfg) : Parsed :=
  if proto = 4 ∨ proto = 41 ∨ proto = 47 then p.put kTunnel 1
  else if proto = 17 then p.udpHeader d off cfg
  else if proto = 6 then p.tcpHeader d off
  else p

/-! ### IP -/

/-- Ones' complement sum of big-endian 16-bit words. -/
def inetSum : List Byte → Nat
  | [] => 0
  | [a] => a.toNat * 256
  | a :: b :: rest => let t := a.toNat * 256 + b.toNat + inetSum rest; if 65536 ≤ t then t - 65535 else t

/-- FRAG of a first and of a later fragment (R238). -/
def fragCode (offset : Nat) : Nat := if offset = 0 then 1 else 2

/-- A frame that ends inside its IPv4 header: the datagram ends where its total length says, where the frame still
holds that field, and never before the 20 bytes every header has (R237). -/
def Parsed.cutIpv4 (p : Parsed) (d : List Byte) (off : Nat) : Parsed :=
  { p with ipEnd := some (off + if d.length < off + 4 then 20 else max 20 (be d (off + 2) 2)) }

/-- The same for an IPv6 header and its payload length. -/
def Parsed.cutIpv6 (p : Parsed) (d : List Byte) (off : Nat) : Parsed :=
  { p with ipEnd := some (off + 40 + if d.length < off + 6 then 0 else be d (off + 4) 2) }

def Parsed.ipv4Header (p : Parsed) (d : List Byte) (off : Nat) (cfg : ParseCfg) : Parsed :=
  -- a header that fails its check still gives the length that R237 judges
  let c := p.cutIpv4 d off
  c.needOr c d off 20 fun _ =>
    let ihl := be d off 1 % 16
    if be d off 1 / 16 ≠ 4 ∨ ihl < 5 then c.fail mIpv4
    else c.needOr c d off (4 * ihl) fun _ =>
      let total := be d (off + 2) 2
      if total < 4 * ihl ∨ inetSum ((d.drop off).take (4 * ihl)) ≠ 0xFFFF then c.fail mIpv4
      else
        let tos := be d (off + 1) 1
        let proto := be d (off + 9) 1
        let q := { p with l3 := some off, ipEnd := some (off + total) }
        let q := (((q.put kL3 1).put kDscp (tos / 4)).put kEcn (tos % 4)).put kTtl (be d (off + 8) 1)
        let q := ((q.put kProto proto).put kSip (be d (off + 12) 4)).put kDip (be d (off + 16) 4)
        let fl := be d (off + 6) 2
        if bit fl 13 ∨ fl % 8192 ≠ 0 then q.put kFrag (fragCode (fl % 8192))
        else q.layer4 d (off + 4 * ihl) proto cfg

/-- IPv6 extensions: `room` more are accepted (four in all); Hop-by-Hop comes first. -/
def Parsed.ipv6Chain (d : List Byte) (cfg : ParseCfg) : Nat → Bool → Parsed → Nat → Nat → Parsed
  | room, first, p, off, nh =>
    if nh = 0 ∨ nh = 43 ∨ nh = 44 ∨ nh = 60 then
      match room with
      | 0 => (p.put kProto nh).fail mIpv6Chain
      | r + 1 =>
        if nh = 0 ∧ !first then (p.put kProto nh).fail mIpv6Chain
        else if nh = 44 then
          if 256 < off + 8 ∨ d.length < off + 8 then (p.put kProto nh).need d off 8 fun _ => p
          else (p.put kProto (be d off 1)).put kFrag (fragCode (be d (off + 2) 2 / 8))
        else
          let size := (be d (off + 1) 1 + 1) * 8
          if 256 < off + 2 ∨ d.length < off + 2 then (p.put kProto nh).need d off 2 fun _ => p
          else if 256 < off + size ∨ d.length < off + size then (p.put kProto nh).need d off size fun _ => p
          else Parsed.ipv6Chain d cfg r false p (off + size) (be d off 1)
    else (p.put kProto nh).layer4 d off nh cfg

def Parsed.ipv6Header (p : Parsed) (d : List Byte) (off : Nat) (cfg : ParseCfg) : Parsed :=
  let c := p.cutIpv6 d off
  c.needOr c d off 40 fun _ =>
    let n := be d (off + 4) 2
    if be d off 1 / 16 ≠ 6 ∨ n = 0 then c.fail mIpv6
    else
      let tc := be d off 2 / 16 % 256
      let q := { p with l3 := some off, ipEnd := some (off + 40 + n) }
      let q := (((q.put kL3 2).put kDscp (tc / 4)).put kEcn (tc % 4)).put kTtl (be d (off + 7) 1)
      let q := (q.put kSip (be d (off + 8) 16)).put kDip (be d (off + 24) 16)
      Parsed.ipv6Chain d cfg 4 true q (off + 40) (be d (off + 6) 1)

/-! ### Ethernet -/

/-- 01-80-C2-00-00-00 to 01-80-C2-00-00-0F. -/
def linkLocal (dmac : Nat) : Bool := dmac / 16 == 0x0180C200000

def Parsed.afterTags (p : Parsed) (d : List Byte) (off : Nat) (cfg : ParseCfg) : Parsed :=
  let et := be d off 2
  let e := off + 2
  let p := { (p.put kEtherType et).put kVlanCount (p.vlan.length / 4) with ethEnd := e }
  if et = 0x8808 then
    p.need d e 2 fun _ =>
      let op := be d e 2
      if op = 0x0101 ∨ op = 0x0001 then { p with mac := some op } else p.fail mMacControl
  else if et = 0x88F7 then p.ptpHeader d e none
  else if (et == 0x88B5 && cfg.etherType && p.addressed) = true then p.krfHeader d e cfg none
  else if et = 0x0800 then p.ipv4Header d e cfg
  else if et = 0x86DD then p.ipv6Header d e cfg
  else p

def isTag (et : Nat) : Bool := et == 0x8100 || et == 0x88A8

/-- Tags, at most two, from the type field at offset 12 on. A tag is read with the type field behind it, so that a frame
that ends between the two has a truncated tag (DESIGN CHOICE, log entry 219). -/
def Parsed.tags (p : Parsed) (d : List Byte) (cfg : ParseCfg) : Parsed :=
  if !isTag (be d 12 2) then p.afterTags d 12 cfg
  else p.need d 12 6 fun _ =>
    let t := be d 14 2
    let p1 := { (p.put kOuterPcp (t / 8192)).put kOuterVid (t % 4096) with vlan := (d.drop 12).take 4 }
    if be d 16 2 = 0x88A8 then (p1.put kVlanCount 1).fail mVlanDepth
    else if be d 16 2 ≠ 0x8100 then p1.afterTags d 16 cfg
    else (if 256 < 16 + 6 ∨ d.length < 16 + 6 then p1.put kVlanCount 1 else p1).need d 16 6 fun _ =>
      let u := be d 18 2
      let p2 := { (p1.put kInnerPcp (u / 8192)).put kInnerVid (u % 4096) with vlan := (d.drop 12).take 8 }
      if isTag (be d 20 2) then (p2.put kVlanCount 2).fail mVlanDepth else p2.afterTags d 20 cfg

/-- A frame's parse; `frame` includes the FCS. -/
def parseFrame (cfg : ParseCfg) (frame : List Byte) : Parsed :=
  let d := frame.take (frame.length - 4)
  Parsed.empty.need d 0 14 fun _ =>
    let dmac := be d 0 6
    let p := (Parsed.empty.put kDmac dmac).put kSmac (be d 6 6)
    (p.putB kAddressed (cfg.stations.contains dmac || linkLocal dmac)).tags d cfg

/-- Configuration of the parser on a half (R240, R248). -/
def State.parseCfg (s : State) (port : Nat) : ParseCfg :=
  let n := port / 2
  let valid := fun i => if port % 2 = 0 then s.fldB (Reg.wireStationValidA n i) else s.fldB (Reg.wireStationValidB n i)
  ⟨((List.range 4).filter valid).map fun i => s.fld (Reg.wireStationMac n i), s.fld (Reg.wireKrfCtrlUdpPort n),
   s.fldB (Reg.wireKrfCtrlEthertypeEn n), s.fldB (Reg.wireKrfCtrlV1En n), s.fldB (Reg.wireKrfCtrlV2En n)⟩

/-- The key of a pass (R248). -/
def ruleKey (p : Parsed) (port pass metaWord : Nat) : Nat :=
  p.key + port * 2 ^ kPort + pass * 2 ^ kPass + (if pass = 0 then 0 else metaWord * 2 ^ kMeta)

/-- The 64 bytes of a key, byte 0 = bits [511:504] (R250). -/
def keyBytes (key : Nat) : List Byte := toBe 64 key

/-- The flow key of an IP frame (R258): SIP, DIP, SPORT, DPORT, PROTO, L3_TYPE. -/
def flowKey (p : Parsed) : List Byte :=
  toBe 16 (keyField p.key kSip 128) ++ toBe 16 (keyField p.key kDip 128) ++ toBe 2 (keyField p.key kSport 16) ++
  toBe 2 (keyField p.key kDport 16) ++ toBe 1 (keyField p.key kProto 8) ++ toBe 1 (keyField p.key kL3 2)

def Parsed.isIp (p : Parsed) : Bool := p.l3.isSome && p.early.isNone

/-- The frame carries a KRF message (R240). -/
def Parsed.isKrf (p : Parsed) : Bool := bit p.key kKrf

end Sys2Proof.Machine
end

