-- ==== Sys2Proof/Machine/Arith.lean ====
section
/-! DEFINITION. Number formats, rounding, exact accumulation, reduction trees and the vector unit (R54 to R79). -/

namespace Sys2Proof.Machine

/-! ### Formats (Table 2.1) -/

/-- A floating format: significand precision, exponent width, exponent of the smallest normal, canonical NaN, and
whether all-ones exponents hold infinity. -/
structure Fmt where
  p : Nat
  ew : Nat
  emin : Int
  nan : Nat
  ieee : Bool
  /-- Largest finite value: encoding without sign. -/
  maxEnc : Nat
deriving DecidableEq, Repr

def fp32 : Fmt := ⟨24, 8, -126, 0x7FC00000, true, 0x7F7FFFFF⟩
def bf16 : Fmt := ⟨8, 8, -126, 0x7FC0, true, 0x7F7F⟩
def e4m3 : Fmt := ⟨4, 4, -6, 0x7F, false, 0x7E⟩
def e5m2 : Fmt := ⟨3, 5, -14, 0x7E, true, 0x7B⟩

def Fmt.width (f : Fmt) : Nat := f.p + f.ew

/-- A number: NaN, infinity, or a sign with m × 2ᵉ. -/
inductive Fv where
  | nan
  | inf (neg : Bool)
  | fin (neg : Bool) (m : Nat) (e : Int)
deriving DecidableEq, Repr

def Fmt.inf (f : Fmt) (neg : Bool) : Nat := (2 ^ f.ew - 1) * 2 ^ (f.p - 1) + b2n neg * 2 ^ (f.width - 1)

/-- R55. -/
def Fmt.decode (f : Fmt) (x : Nat) : Fv :=
  let neg := bit x (f.width - 1)
  let ex := bits x (f.width - 2) (f.p - 1)
  let fr := x % 2 ^ (f.p - 1)
  if f.ieee && ex == 2 ^ f.ew - 1 then (if fr = 0 then .inf neg else .nan)
  else if !f.ieee && x % 2 ^ (f.width - 1) == f.nan then .nan
  else if ex = 0 then .fin neg fr (f.emin - (f.p - 1))
  else .fin neg (fr + 2 ^ (f.p - 1)) (f.emin + ex - 1 - (f.p - 1))

/-- Position of the leading bit of a positive rational. -/
def floorLog2 (num den : Nat) : Int :=
  let e : Int := (Nat.log2 num : Int) - Nat.log2 den
  if e ≥ 0 then (if num < den * 2 ^ e.toNat then e - 1 else e)
  else if num * 2 ^ (-e).toNat < den then e - 1 else e

/-- Quotient and remainder of num / den by 2^qe: (n, remainder, divisor). -/
def quantise (num den : Nat) (qe : Int) : Nat × Nat × Nat :=
  let a := if qe < 0 then num * 2 ^ (-qe).toNat else num
  let b := if qe < 0 then den else den * 2 ^ qe.toNat
  (a / b, a % b, b)

/-- Exponent of the spacing at a positive value (R58). -/
def Fmt.quantum (f : Fmt) (num den : Nat) : Int :=
  let e := floorLog2 num den
  (if e < f.emin then f.emin else e) - f.p + 1

/-- Encoding of n × 2^qe, with n at most 2^p; sat chooses R60's mode. -/
def Fmt.pack (f : Fmt) (sat neg : Bool) (n : Nat) (qe : Int) : Nat :=
  let (n, qe) := if n = 2 ^ f.p then (2 ^ (f.p - 1), qe + 1) else (n, qe)
  let s := b2n neg * 2 ^ (f.width - 1)
  let mag := if n < 2 ^ (f.p - 1) then n
    else (qe + (f.p - 1) - f.emin + 1).toNat * 2 ^ (f.p - 1) + (n - 2 ^ (f.p - 1))
  if f.maxEnc < mag then (if sat then f.maxEnc + s else f.inf neg) else mag + s

/-- round_ne of a rational with its sign (R58 to R60). -/
def Fmt.roundQ (f : Fmt) (sat neg : Bool) (num den : Nat) : Nat :=
  if num = 0 then b2n neg * 2 ^ (f.width - 1)
  else
    let qe := f.quantum num den
    let (n, t, b) := quantise num den qe
    let n := if b < 2 * t ∨ (2 * t = b ∧ n % 2 = 1) then n + 1 else n
    f.pack sat neg n qe

/-- Stochastic rounding with the 24-bit draw (R62). -/
def Fmt.roundSr (f : Fmt) (sat neg : Bool) (num den draw : Nat) : Nat :=
  if num = 0 then b2n neg * 2 ^ (f.width - 1)
  else
    let qe := f.quantum num den
    let (n, t, b) := quantise num den qe
    if t = 0 then f.pack sat neg n qe
    else
      let k := if neg then (b - t) * 2 ^ 24 / b else t * 2 ^ 24 / b
      let up := decide (draw < k)
      -- the result moves away from zero when it goes to hi above, or to lo below
      f.pack sat neg (if up != neg then n + 1 else n) qe

def pow2 (e : Int) : Nat := 2 ^ e.toNat

/-- An exact number as numerator and denominator. -/
def Fv.ratio (m : Nat) (e : Int) : Nat × Nat := if e < 0 then (m, pow2 (-e)) else (m * pow2 e, 1)

/-- A number in a format, by R60 and R61, with the draw where stochastic rounding is chosen. -/
def Fmt.encode (f : Fmt) (sat : Bool) (draw : Option Nat) (v : Fv) : Nat :=
  match v with
  | .nan => f.nan
  | .inf neg => if sat || !f.ieee then f.maxEnc + b2n neg * 2 ^ (f.width - 1) else f.inf neg
  | .fin neg m e =>
    let q := Fv.ratio m e
    match draw with
    | none => f.roundQ sat neg q.1 q.2
    | some r => f.roundSr sat neg q.1 q.2 r

/-! ### IEEE operations on exact numbers (R58, R59, R61, R74) -/

def Fv.neg : Fv → Fv
  | .nan => .nan
  | .inf s => .inf (!s)
  | .fin s m e => .fin (!s) m e

def Fv.abs : Fv → Fv
  | .nan => .nan
  | .inf _ => .inf false
  | .fin _ m e => .fin false m e

def Fv.isNan : Fv → Bool
  | .nan => true
  | _ => false

def Fv.isZero : Fv → Bool
  | .fin _ 0 _ => true
  | _ => false

def Fv.negative : Fv → Bool
  | .nan => false
  | .inf s => s
  | .fin s _ _ => s

def signed (s : Bool) (m : Nat) : Int := if s then -(m : Int) else m

/-- Exact sum; a zero sum is −0 only when both terms are −0. -/
def Fv.add (x y : Fv) : Fv :=
  match x, y with
  | .nan, _ => .nan
  | _, .nan => .nan
  | .inf a, .inf b => if a = b then .inf a else .nan
  | .inf a, _ => .inf a
  | _, .inf b => .inf b
  | .fin sa ma ea, .fin sb mb eb =>
    let e := min ea eb
    let a := signed sa ma * (pow2 (ea - e) : Int)
    let b := signed sb mb * (pow2 (eb - e) : Int)
    if a + b = 0 then .fin (sa && sb) 0 e
    else .fin (decide (a + b < 0)) (a + b).natAbs e

/-- Exact product; infinity times zero is NaN. -/
def Fv.mul (x y : Fv) : Fv :=
  match x, y with
  | .nan, _ => .nan
  | _, .nan => .nan
  | .inf a, .inf b => .inf (a != b)
  | .inf a, .fin b m _ => if m = 0 then .nan else .inf (a != b)
  | .fin a m _, .inf b => if m = 0 then .nan else .inf (a != b)
  | .fin a m e, .fin b n f => .fin (a != b) (m * n) (e + f)

/-- x < y for numbers that are not NaN. -/
def Fv.lt (x y : Fv) : Bool :=
  match x, y with
  | .nan, _ => false
  | _, .nan => false
  | .inf a, .inf b => a && !b
  | .inf a, .fin _ _ _ => a
  | .fin _ _ _, .inf b => !b
  | .fin sa ma ea, .fin sb mb eb =>
    let e := min ea eb
    decide (signed sa ma * (pow2 (ea - e) : Int) < signed sb mb * (pow2 (eb - e) : Int))

def Fv.eqv (x y : Fv) : Bool := !x.isNan && !y.isNan && !x.lt y && !y.lt x

def d32 (x : Nat) : Fv := fp32.decode x

/-- A number rounded to FP32 in IEEE mode. -/
def r32 (v : Fv) : Nat := fp32.encode false none v

def fAdd (x y : Nat) : Nat := r32 ((d32 x).add (d32 y))
def fSub (x y : Nat) : Nat := r32 ((d32 x).add (d32 y).neg)
def fMul (x y : Nat) : Nat := r32 ((d32 x).mul (d32 y))
def fFma (x y z : Nat) : Nat := r32 (((d32 x).mul (d32 y)).add (d32 z))
def fNeg (x : Nat) : Nat := r32 (d32 x).neg
def fAbs (x : Nat) : Nat := r32 (d32 x).abs

def fDiv (x y : Nat) : Nat :=
  match d32 x, d32 y with
  | .nan, _ => fp32.nan
  | _, .nan => fp32.nan
  | .inf _, .inf _ => fp32.nan
  | .inf a, .fin b _ _ => fp32.inf (a != b)
  | .fin a _ _, .inf b => r32 (.fin (a != b) 0 0)
  | .fin a m e, .fin b n f =>
    if n = 0 then (if m = 0 then fp32.nan else fp32.inf (a != b))
    else
      let x := Fv.ratio m e
      let y := Fv.ratio n f
      fp32.roundQ false (a != b) (x.1 * y.2) (x.2 * y.1)

/-- IEEE maximum and minimum (R74). -/
def fMax (x y : Nat) : Nat :=
  let a := d32 x
  let b := d32 y
  if a.isNan || b.isNan then fp32.nan
  else if a.lt b then y else if b.lt a then x else if a.negative then y else x

def fMin (x y : Nat) : Nat :=
  let a := d32 x
  let b := d32 y
  if a.isNan || b.isNan then fp32.nan
  else if a.lt b then x else if b.lt a then y else if a.negative then x else y

/-- The integer square root, by Newton steps from above. -/
def isqrtLoop : Nat → Nat → Nat → Nat
  | 0, _, x => x
  | k + 1, n, x => let y := (x + n / x) / 2; if y < x then isqrtLoop k n y else x

def isqrt (n : Nat) : Nat := if n = 0 then 0 else isqrtLoop (Nat.log2 n + 8) n (2 ^ (Nat.log2 n / 2 + 1))

/-- A positive irrational given by its floor at scale 2^-k and whether the floor is exact. -/
def roundSticky (fl : Nat) (exact : Bool) (k : Nat) : Nat :=
  fp32.roundQ false false (2 * fl + b2n (!exact)) (2 ^ (k + 1))

def sqrtScale : Nat := 256

def fSqrt (x : Nat) : Nat :=
  match d32 x with
  | .nan => fp32.nan
  | .inf s => if s then fp32.nan else x
  | .fin s m e =>
    if m = 0 then x
    else if s then fp32.nan
    else
      let q := Fv.ratio m e
      let n := q.1 * 4 ^ sqrtScale / q.2
      let r := isqrt n
      roundSticky r (r * r * q.2 == q.1 * 4 ^ sqrtScale) sqrtScale

def fRsqrt (x : Nat) : Nat :=
  match d32 x with
  | .nan => fp32.nan
  | .inf s => if s then fp32.nan else 0
  | .fin s m e =>
    if m = 0 then fp32.inf s
    else if s then fp32.nan
    else
      let q := Fv.ratio m e
      let n := q.2 * 4 ^ sqrtScale / q.1
      let r := isqrt n
      roundSticky r (r * r * q.1 == q.2 * 4 ^ sqrtScale) sqrtScale

def one32 : Nat := 0x3F800000

def fRcp (x : Nat) : Nat := fDiv one32 x

/-! ### Transcendental primitives (R75), in fixed point with 384 fraction bits (log entry 11) -/

def fxBits : Nat := 384
def fxOne : Int := 2 ^ fxBits

def fxMul (a b : Int) : Int := (a * b).fdiv fxOne

/-- Fixed-point value of ±m × 2ᵉ. -/
def fxOf (s : Bool) (m : Nat) (e : Int) : Int :=
  let k := e + fxBits
  let v : Nat := if k < 0 then m / pow2 (-k) else m * pow2 k
  signed s v

/-- Σ xⁿ / n! from term n on. -/
def expTerms : Nat → Nat → Int → Int → Int
  | 0, _, _, _ => 0
  | k + 1, n, x, t => t + expTerms k (n + 1) x ((fxMul t x).fdiv (n + 1))

def squareTimes : Nat → Int → Int
  | 0, y => y
  | k + 1, y => squareTimes k (fxMul y y)

/-- eˣ in fixed point for |x| up to 256: reduced by 2¹⁶ and squared back; used for x ≤ 0, and inverted for x > 0. -/
def fxExpNeg (x : Int) : Int := squareTimes 16 (expTerms 48 0 (x.fdiv 65536) fxOne)

/-- Σ z^(2n+1) / (2n+1). -/
def atanhTerms : Nat → Nat → Int → Int → Int
  | 0, _, _, _ => 0
  | k + 1, n, z2, t => t.fdiv (2 * n + 1) + atanhTerms k (n + 1) z2 (fxMul t z2)

def fxLn2 : Int := 2 * atanhTerms 130 0 (fxOne.fdiv 9) (fxOne.fdiv 3)

/-- ln of a fixed-point value in [1, 2). -/
def fxLn (y : Int) : Int :=
  let z := ((y - fxOne) * fxOne).fdiv (y + fxOne)
  2 * atanhTerms 130 0 (fxMul z z) z

def atanTerms : Nat → Nat → Int → Int → Int
  | 0, _, _, _ => 0
  | k + 1, n, z2, t => t.fdiv (2 * n + 1) - atanTerms k (n + 1) z2 (fxMul t z2)

def fxAtanInv (n : Int) : Int := atanTerms 180 0 (fxOne.fdiv (n * n)) (fxOne.fdiv n)

/-- Machin's formula. -/
def fxPi : Int := 16 * fxAtanInv 5 - 4 * fxAtanInv 239

def fxSqrtPi : Int := (isqrt ((fxPi * fxOne).toNat) : Int)

/-- Σ (−1)ⁿ x^(2n+1) / (n! (2n+1)), `t` the term without its last divisor. -/
def erfTerms : Nat → Nat → Int → Int → Int
  | 0, _, _, _ => 0
  | k + 1, n, x2, t => t.fdiv (2 * n + 1) - erfTerms k (n + 1) x2 ((fxMul t x2).fdiv (n + 1))

/-- An FP32 value from a fixed-point one. -/
def fxRound (neg : Bool) (v : Int) : Nat := fp32.roundQ false neg v.toNat (2 ^ fxBits)

/-- e^(±|x|) with the exponent split off: fixed-point e^-f and the power of two, for x = -(n ln2 + f). -/
def fxExpAbs (ax : Int) : Int × Nat :=
  let n := (ax.fdiv fxLn2).toNat
  (fxExpNeg (-(ax - n * fxLn2)), n)

def fExp (x : Nat) : Nat :=
  match d32 x with
  | .nan => fp32.nan
  | .inf s => if s then 0 else x
  | .fin s m e =>
    if m = 0 then one32
    else
      let v := fxOf false m e
      if 256 * fxOne ≤ v then (if s then 0 else fp32.inf false)
      else
        let p := fxExpAbs v
        if s then fp32.roundQ false false p.1.toNat (2 ^ (fxBits + p.2))
        else fp32.roundQ false false (2 ^ (fxBits + p.2)) p.1.toNat

def fExp2 (x : Nat) : Nat :=
  match d32 x with
  | .nan => fp32.nan
  | .inf s => if s then 0 else x
  | .fin s m e =>
    if m = 0 then one32
    else
      let v := fxOf false m e
      if 256 * fxOne ≤ v then (if s then 0 else fp32.inf false)
      else
        let n := (v.fdiv fxOne).toNat
        let f := v - n * fxOne
        let y := if f = 0 then fxOne else fxExpNeg (-(fxMul f fxLn2))
        if s then fp32.roundQ false false y.toNat (2 ^ (fxBits + n))
        else fp32.roundQ false false (2 ^ (fxBits + n)) y.toNat

/-- Exponent and fixed-point significand in [1, 2) of m × 2ᵉ. -/
def normalise (m : Nat) (e : Int) : Int × Int :=
  let k := Nat.log2 m
  (e + k, fxOf false m (-(k : Int)))

def roundSigned (v : Int) (den : Nat) : Nat := fp32.roundQ false (decide (v < 0)) v.natAbs den

def fLogCommon (x : Nat) (f : Int → Int → Nat) : Nat :=
  match d32 x with
  | .nan => fp32.nan
  | .inf s => if s then fp32.nan else x
  | .fin s m e =>
    if m = 0 then fp32.inf true
    else if s then fp32.nan
    else if x = one32 then 0
    else let q := normalise m e; f q.1 q.2

def fLog (x : Nat) : Nat :=
  fLogCommon x fun k y => roundSigned (k * fxLn2 + fxLn y) (2 ^ fxBits)

def fLog2 (x : Nat) : Nat :=
  fLogCommon x fun k y =>
    if y = fxOne then roundSigned k 1
    else roundSigned (k * fxOne + (fxLn y * fxOne).fdiv fxLn2) (2 ^ fxBits)

def fTanh (x : Nat) : Nat :=
  match d32 x with
  | .nan => fp32.nan
  | .inf s => one32 + b2n s * 2 ^ 31
  | .fin s m e =>
    if m = 0 then x
    else
      let v := fxOf false m e
      let v := if 64 * fxOne < v then 64 * fxOne else v
      let p := fxExpAbs (2 * v)
      let t := p.1.fdiv (2 ^ p.2)
      fxRound s (((fxOne - t) * fxOne).fdiv (fxOne + t))

def fSigmoid (x : Nat) : Nat :=
  match d32 x with
  | .nan => fp32.nan
  | .inf s => if s then 0 else one32
  | .fin s m e =>
    let v := fxOf false m e
    let v := if 200 * fxOne < v then 200 * fxOne else v
    let p := fxExpAbs v
    let t := p.1.fdiv (2 ^ p.2)
    let num := if s then t else fxOne
    fp32.roundQ false false num.toNat (fxOne + t).toNat

def fErf (x : Nat) : Nat :=
  match d32 x with
  | .nan => fp32.nan
  | .inf s => one32 + b2n s * 2 ^ 31
  | .fin s m e =>
    if m = 0 then x
    else
      let v := fxOf false m e
      if 6 * fxOne < v then one32 + b2n s * 2 ^ 31
      else fxRound s ((2 * erfTerms 400 0 (fxMul v v) v * fxOne).fdiv fxSqrtPi)

/-! ### Composites (R77) -/

def invSqrt2 : Nat := 0x3F3504F3

def fGelu (x : Nat) : Nat :=
  if x = 0xFF800000 then 0x80000000
  else fMul 0x3F000000 (fMul x (fAdd one32 (fErf (fMul x invSqrt2))))

def fSilu (x : Nat) : Nat := if x = 0xFF800000 then 0x80000000 else fMul x (fSigmoid x)

def fSoftplus (x : Nat) : Nat :=
  if (d32 x).isNan then fp32.nan
  else if (d32 0x41A00000).lt (d32 x) then x
  else fLog (fAdd one32 (fExp x))

/-! ### The exact accumulator (R65 to R69) -/

/-- A 96-bit accumulator with its sticky flags. -/
structure Acc where
  val : Int
  nan : Bool
  pinf : Bool
  ninf : Bool
deriving DecidableEq, Repr

def Acc.zero : Acc := ⟨0, false, false, false⟩

/-- R69: exact addition and OR of the flags. The sum keeps every bit until it is stored: one beyond 96 bits is converted as
it is, and wraps modulo 2⁹⁶ where it is written as ACC96 (DESIGN CHOICE, log entry 204). -/
def Acc.add (a b : Acc) : Acc := ⟨a.val + b.val, a.nan || b.nan, a.pinf || b.pinf, a.ninf || b.ninf⟩

/-- A product of two FP8 numbers in units of 2⁻³² (R65, R66). R66 names infinity times a non-zero finite value and
times 0; infinity times infinity sets the flag of the product's sign here (DESIGN CHOICE, log entry 146). -/
def Acc.product (x y : Fv) : Acc :=
  match x.mul y with
  | .nan => ⟨0, true, false, false⟩
  | .inf s => ⟨0, false, !s, s⟩
  | .fin s m e => ⟨signed s (if e + 32 < 0 then m / pow2 (-(e + 32)) else m * pow2 (e + 32)), false, false, false⟩

def Acc.ofInt (n : Int) : Acc := ⟨n, false, false, false⟩

/-- R67, steps 1 to 4: the value of an accumulator with unit 2^ue, times two scales. -/
def Acc.value (a : Acc) (ue : Int) (sa sb : Fv) : Fv :=
  if a.nan || (a.pinf && a.ninf) then .nan
  else if a.pinf then .inf false
  else if a.ninf then .inf true
  else
    match (Fv.fin (decide (a.val < 0)) a.val.natAbs ue).mul (sa.mul sb) with
    -- an exact zero has no sign (R58, R59)
    | .fin s m e => if m = 0 then .fin false 0 e else .fin s m e
    | w => w

def fvOne : Fv := .fin false 1 0

/-- ACC96 element of 16 bytes (Table 2.3). -/
def Acc.toBytes (a : Acc) (cls : Nat) : List Byte :=
  toLe 12 (a.val % 2 ^ 96).toNat ++ toLe 1 (b2n a.nan + 2 * b2n a.pinf + 4 * b2n a.ninf) ++ toLe 1 cls ++ toLe 2 0

/-- An engine that reads an ACC96 element of another CLASS refuses it (Table 2.3). -/
def accRefused (bs : List Byte) : Bool := le bs 13 1 != 1 && le bs 13 1 != 2

/-- CLASS of an ACC96 element as an engine reads it; of a refused one it is free. -/
def accClassOf (bs : List Byte) : Nat :=
  if accRefused bs then 1 + (Config.refusedAcc (leNat bs + 2 ^ 128) % 2).toNat else le bs 13 1

/-- An ACC96 element as an engine reads it. The spec says that a CLASS other than 1 and 2 is refused and not what the
reading step then gives: value, flags and class are free, and what is computed from it carries poison, as data that
nothing may commit (DESIGN CHOICE, log entry 150). -/
def Acc.ofBytes (bs : List Byte) : Acc :=
  let f := if accRefused bs then (Config.refusedAcc (leNat bs + 2 ^ 129) % 8).toNat else le bs 12 1
  ⟨if accRefused bs then Config.refusedAcc (leNat bs) else sext 96 (le bs 0 12), bit f 0, bit f 1, bit f 2⟩

/-- R68: INT32 output with its clamp. -/
def Acc.toInt32 (a : Acc) : Int := clamp (-2147483648) 2147483647 a.val

/-! ### The canonical tree (R70) -/

/-- One level of the tree: neighbours at even and odd positions, an absent one adding nothing. -/
def treeLevel {α : Type} (f : α → α → α) : List (Option α) → List (Option α)
  | [] => []
  | [x] => [x]
  | a :: b :: rest =>
    (match a, b with
      | some x, some y => some (f x y)
      | some x, none => some x
      | none, y => y) :: treeLevel f rest

def treeFold {α : Type} (f : α → α → α) : Nat → List (Option α) → Option α
  | 0, l => (l.head?).join
  | k + 1, l =>
    match l with
    | [] => none
    | [x] => x
    | l => treeFold f k (treeLevel f l)

/-- The value at the root; none where every leaf is absent. -/
def tree {α : Type} (f : α → α → α) (l : List (Option α)) : Option α := treeFold f (l.length + 1) l

/-- Sum over the canonical tree in FP32. -/
def treeSum (l : List (Option Nat)) : Option Nat := tree fAdd l

/-- One level over sorted keys: entries whose keys share a parent are combined. -/
def keyLevel {α : Type} (f : α → α → α) : List (Nat × α) → List (Nat × α)
  | [] => []
  | [(k, v)] => [(k / 2, v)]
  | (k, v) :: (j, w) :: rest =>
    if k / 2 = j / 2 then (k / 2, f v w) :: keyLevel f rest
    else (k / 2, v) :: keyLevel f ((j, w) :: rest)

/-- The node values after `n` levels, for entries sorted by key. -/
def keyTree {α : Type} (f : α → α → α) : Nat → List (Nat × α) → List (Nat × α)
  | 0, l => l
  | n + 1, l => keyTree f n (keyLevel f l)

/-- The maximal aligned blocks of [lo, hi), for `n` steps: start and level. -/
def alignedBlocks : Nat → Nat → Nat → List (Nat × Nat)
  | 0, _, _ => []
  | n + 1, lo, hi =>
    if hi ≤ lo then []
    else
      let best := ((List.range 41).filter fun k => decide (lo % 2 ^ k = 0 ∧ lo + 2 ^ k ≤ hi)).foldl max 0
      (lo, best) :: alignedBlocks n (lo + 2 ^ best) hi

def insertKey {α : Type} (p : Nat × α) : List (Nat × α) → List (Nat × α)
  | [] => [p]
  | q :: qs => if p.1 ≤ q.1 then p :: q :: qs else q :: insertKey p qs

/-- Parts of sizes 2^l combined at their parent nodes, from level `l` up for `n` levels (R70, R71). -/
def combineUp {α : Type} (f : α → α → α) : Nat → Nat → List (Nat × Nat × α) → List (Nat × α) → List (Nat × α)
  | 0, _, _, acc => acc
  | n + 1, l, parts, acc =>
    let here := (parts.filter fun p => p.2.1 == l).map fun p => (p.1 / 2 ^ l, p.2.2)
    combineUp f n (l + 1) parts (keyLevel f (here.foldr insertKey acc))

/-! ### Residues (R80, R81) -/

/-- The residue check passes a value error exactly when it is a multiple of 31 (R85). -/
def residueBlind (e : Int) : Bool := e % 31 == 0

/-- Residue of an integer (R80). -/
def residue31 (i : Int) : Nat := (i % 31).toNat

/-- Predicted residue of a product x × y aligned to a unit of 2^u: the residues of the significands, their signs, and
the alignment shift as a rotation (Table 2.7). -/
def productResidue (x y : Fv) (u : Int) : Nat :=
  match x, y with
  | .fin a m e, .fin b n f =>
    residue31 (signed (a != b) (residue31 m * residue31 n * 2 ^ ((e + f - u) % 5).toNat))
  | _, _ => 0

/-- Residue of the significand of a number. -/
def significandResidue : Fv → Nat
  | .fin s m _ => residue31 (signed s m)
  | _ => 0

end Sys2Proof.Machine
end

