-- ==== Sys2Proof/Machine/Flit.lean ====
section
/-! DEFINITION. Obcor flits as bytes on a link: header, payload, CRC-64 (R17, R457, R458). Fields are big-endian. -/

namespace Sys2Proof.Machine

/-- Bits [43:41] are 0. -/
def FlitHeader.word (h : FlitHeader) : Nat :=
  h.type.toNat * 2 ^ 60 + h.seq.toNat * 2 ^ 48 + h.cls.toNat * 2 ^ 45 + b2n h.last * 2 ^ 44 + h.fill.toNat * 2 ^ 32 +
    h.epoch.toNat

def FlitHeader.bytes (h : FlitHeader) : List Byte := toBe 8 h.word

def FlitHeader.ofWord (w : Nat) : FlitHeader where
  type := BitVec.ofNat 4 (bits w 63 60)
  seq := BitVec.ofNat 12 (bits w 59 48)
  cls := BitVec.ofNat 3 (bits w 47 45)
  last := bit w 44
  fill := BitVec.ofNat 9 (bits w 40 32)
  epoch := BitVec.ofNat 32 (bits w 31 0)

def FlitHeader.ofBytes (bs : List Byte) : FlitHeader := FlitHeader.ofWord (be bs 0 8)

def crc64Step (c : Nat) : Nat :=
  if c.testBit 63 then (c * 2 % 2 ^ 64) ^^^ 0x42F0E1EBA9EA3693 else c * 2

def crc64Byte (c : Nat) (b : Byte) : Nat :=
  crc64Step (crc64Step (crc64Step (crc64Step (crc64Step (crc64Step (crc64Step (crc64Step
    (c ^^^ (b.toNat * 2 ^ 56)))))))))

/-- CRC-64 as in ECMA-182. DEDUCED: over the header and the payload, most significant bit first. See log entry 193. -/
def crc64 (bs : List Byte) : Nat := bs.foldl crc64Byte 0

/-- A flit of 272 bytes; the payload past FILL is zeros. -/
def flit (h : FlitHeader) (payload : List Byte) : List Byte :=
  let p := h.bytes ++ sliceBytes payload 0 256
  p ++ toBe 8 (crc64 p)

/-- A flit's CRC holds. -/
def flitOk (bs : List Byte) : Bool := decide (bs.length = 272) && be bs 264 8 == crc64 (bs.take 264)

/-- The header of a data message: 32 bytes. -/
def dataHeader (m : DataMsg) : List Byte :=
  toBe 2 m.dest.toNat ++ toBe 2 m.src.toNat ++ toBe 1 m.die.val ++ toBe 1 0 ++ toBe 2 m.event.val ++
    toBe 8 m.addr.toNat ++ toBe 4 m.data.length ++ toBe 4 m.step.toNat ++ toBe 8 0

/-- A data message's bytes, over the payloads of its flits. -/
def dataBytes (m : DataMsg) : List Byte := dataHeader m ++ m.data

/-- The data message that payload bytes carry; its epoch stands in the flit header. None for an event, a die or a
length that the payload cannot have. -/
def dataOf (epoch : BitVec 32) (bs : List Byte) : Option DataMsg :=
  if h : be bs 4 1 < 4 ∧ be bs 6 2 < 4096 ∧ be bs 0 2 < 2 ^ 13 ∧ be bs 2 2 < 2 ^ 13 ∧ be bs 8 8 < 2 ^ 48 ∧
      32 + be bs 16 4 ≤ bs.length then
    some { dest := BitVec.ofNat 13 (be bs 0 2), src := BitVec.ofNat 13 (be bs 2 2), die := ⟨be bs 4 1, h.1⟩,
           event := ⟨be bs 6 2, h.2.1⟩, addr := BitVec.ofNat 48 (be bs 8 8), step := BitVec.ofNat 32 (be bs 20 4),
           epoch := epoch, data := (bs.drop 32).take (be bs 16 4) }
  else none

/-- Flits of a message: a 32-byte message header and its data in 256-byte payloads. -/
def dataFlits (n : Nat) : Nat := ceilDiv (32 + n) 256

/-- The flits of a data message in one class, from a SEQ on; LAST marks the last. -/
def messageFlits (m : DataMsg) (seq cls : Nat) : List (List Byte) :=
  let bs := dataBytes m
  let n := dataFlits m.data.length
  (List.range n).map fun i =>
    flit { type := BitVec.ofNat 4 flitData, seq := BitVec.ofNat 12 (seq + i), cls := BitVec.ofNat 3 cls,
           last := i + 1 == n, fill := BitVec.ofNat 9 (min 256 (bs.length - 256 * i)), epoch := m.epoch }
      (bs.drop (256 * i))

/-- A check token's payload (R458). -/
def tokenBytes (src dest : BitVec 13) (epoch : BitVec 32) (count pip : BitVec 64) : List Byte :=
  toBe 2 src.toNat ++ toBe 2 dest.toNat ++ toBe 4 epoch.toNat ++ toBe 8 count.toNat ++ toBe 8 pip.toNat

/-- SRC, DEST, EPOCH, COUNT and PIP of a token's payload. -/
def tokenOf (bs : List Byte) : Nat × Nat × Nat × Nat × Nat :=
  (be bs 0 2, be bs 2 2, be bs 4 4, be bs 8 8, be bs 16 8)

/-- A poison notice's payload (R458). -/
def noticeBytes (sender reporter : BitVec 13) (epoch : BitVec 32) (step : BitVec 64) (cause : BitVec 8) : List Byte :=
  toBe 2 sender.toNat ++ toBe 2 reporter.toNat ++ toBe 4 epoch.toNat ++ toBe 8 step.toNat ++ toBe 1 cause.toNat

/-- SENDER, REPORTER, EPOCH, STEP and CAUSE of a notice's payload. -/
def noticeOf (bs : List Byte) : Nat × Nat × Nat × Nat × Nat :=
  (be bs 0 2, be bs 2 2, be bs 4 4, be bs 8 8, be bs 16 1)

/-- A control message's payload: DEST, SRC, MSG, LEN, body (R458). -/
def controlBytes (dest src : BitVec 13) (msg : BitVec 16) (body : List Byte) : List Byte :=
  toBe 2 dest.toNat ++ toBe 2 src.toNat ++ toBe 2 msg.toNat ++ toBe 2 body.length ++ body

/-- DEST, SRC, MSG and the body of a control message's payload. -/
def controlOf (bs : List Byte) : Nat × Nat × Nat × List Byte :=
  (be bs 0 2, be bs 2 2, be bs 4 2, (bs.drop 8).take (be bs 6 2))

/-- A time flit's payload (R458). -/
def timeBytes (x : TimeFlit) : List Byte :=
  toBe 8 x.send.toNat ++ toBe 8 x.echoSend.toNat ++ toBe 8 x.echoReceive.toNat

def timeOf (bs : List Byte) : TimeFlit :=
  ⟨BitVec.ofNat 64 (be bs 0 8), BitVec.ofNat 64 (be bs 8 8), BitVec.ofNat 64 (be bs 16 8)⟩

end Sys2Proof.Machine
end

