-- ==== Sys2Proof/Machine/Flags.lean ====
section
/-! DEFINITION. Flags the package raises: interrupt sources (R452, R453), error records with their counters and
queues (R357 to R359), the software error ring (R365). -/

namespace Sys2Proof.Machine

/-! ### Interrupts -/

/-- The core an interrupt routed to `c` reaches: the lowest-numbered core in service where `c` is retired (R443). -/
def State.targetCore (s : State) (c : Nat) : Nat :=
  if s.pkg.retiredCores.contains c then
    ((List.range 72).find? fun k => !s.pkg.retiredCores.contains k).getD c
  else c

def State.msixVector (s : State) (v : Nat) : MsixVector := Tab.get MsixVector.init v s.hub.msix

/-- The message of an MSI-X vector leaves; a masked vector sets its pending bit (PRESUMED, log entry 196). -/
def State.msixSend (s : State) (d : Delivery) : State :=
  if (s.msixVector d.vector).masked then
    if s.hub.msixPending.contains d.vector then s
    else { s with hub := { s.hub with msixPending := s.hub.msixPending ++ [d.vector] } }
  else { s with hub := { s.hub with delivered := s.hub.delivered ++ [d] } }

/-- Delivery of source `n` by its route, if the route is not masked (R453). -/
def State.deliver (s : State) (n : Nat) : State :=
  let dest := s.fld (Reg.hubIrqRouteDest n)
  let d : Delivery :=
    ⟨n, dest, s.targetCore (s.fld (Reg.hubIrqRouteCore n)), s.fld (Reg.hubIrqRouteVector n)⟩
  if dest = 1 then { s with hub := { s.hub with delivered := s.hub.delivered ++ [d] } }
  else if dest = 2 then s.msixSend d
  else s

/-- Source `n` is raised: PENDING goes to 1, and a change from 0 delivers once (R453). -/
def State.raiseIrq (s : State) (n : Nat) : State :=
  if s.fldB (Reg.hubIrqRoutePending n) then s
  else (s.setFld (Reg.hubIrqRoutePending n) 1).deliver n

def irqCheck : Nat := 512
def irqLoad : Nat := 513
def irqRecovery : Nat := 514
def irqTime : Nat := 515
def irqObcor : Nat := 516
def irqFleet : Nat := 517
def irqSnapshot : Nat := 518
def irqPower : Nat := 519
def irqPcieRp : Nat := 520
def irqPack : Nat := 521

/-- A field is set, and the source is raised if the field's value changed (Table 13.9). -/
def State.setFldIrq (s : State) (src : Nat) (f : Fld) (v : Nat) : State :=
  let t := s.setFld f v
  if s.fld f = t.fld f then t else t.raiseIrq src

/-! ### The time source and its servo (R314, R315) -/

def State.setTime (s : State) (t : TimeState) : State := { s with time := t }

def srcFree : Nat := 0
def srcExt : Nat := 1
def srcPtp : Nat := 2
def srcObcor : Nat := 3

def timeFree : Nat := 0
def timeAcquiring : Nat := 1
def timeLocked : Nat := 2
def timeHoldover : Nat := 3

def State.timeSource (s : State) : Nat := s.fld Reg.timeCtrlSource

def State.servo (s : State) : Nat := s.fld Reg.timeStatusState

/-- TIME.STATUS.STATE changes; leaving LOCKED is counted. -/
def State.setServo (s : State) (st : Nat) : State :=
  let s := if s.servo = timeLocked ∧ (st = timeAcquiring ∨ st = timeHoldover) then s.bump (Reg.timeCnt 6) 1 else s
  let s := if s.servo = st then s else s.setTime { s.time with within := 0, bigSince := none }
  s.setFldIrq irqTime Reg.timeStatusState st

/-- The servo enters HOLDOVER; none runs under SOURCE FREE. -/
def State.holdOver (s : State) : State :=
  if s.timeSource = srcFree ∨ s.servo = timeHoldover then s
  else
    let s := s.setServo timeHoldover
    s.setTime { s.time with holdSince := s.upTime }

/-- The source fails under Table 9.2. -/
def State.failSource (s : State) : State :=
  if s.timeSource = srcFree then s else (s.setFld Reg.timeStatusSourceOk 0).holdOver

/-! ### Load status and recovery status -/

def State.setLoadState (s : State) (v : Nat) : State := s.setFldIrq irqLoad Reg.cfgLoadStatusState v

/-- The code, section and detail of a load or run request (R107). -/
def State.setLoadCode (s : State) (code sec detail : Nat) : State :=
  ((s.setFldIrq irqLoad Reg.cfgLoadStatusCode code).setFld Reg.cfgLoadStatusSection sec).setFld
    Reg.cfgLoadStatusDetail detail

def State.setBusy (s : State) (b : Bool) : State := s.setFld Reg.cfgLoadStatusBusy (b2n b)

def State.setRecovery (s : State) (f : Fld) (v : Nat) : State := s.setFldIrq irqRecovery f v

/-! ### Error records -/

/-- Where a record's unit sits: codes, rail group, temperature in 0.25 °C (Table 10.4). -/
structure Site where
  unitL : Nat
  unitP : Nat
  rail : Nat
  temp : Nat
deriving DecidableEq, Repr

def State.dieTemp (s : State) (d : Nat) : Nat := s.fld (Reg.pwrThermTj d)

/-- A logical compute unit, on the core rail of its die. -/
def State.siteUnit (s : State) (u : Nat) : Site := ⟨u, s.physOf u, ucDie u, s.dieTemp (ucDie u)⟩

/-- As `siteUnit`, on the SRAM rail of the die. -/
def State.siteSram (s : State) (u : Nat) : Site := ⟨u, s.physOf u, 4 + ucDie u, s.dieTemp (ucDie u)⟩

/-- A stack's temperature, and its refresh grid: HOT above 85 °C (R220, Table 6.12). -/
def State.stackTemp (s : State) (k temp : Nat) : State :=
  (s.setFld (Reg.memStackStateTemp k) temp).setFld (Reg.memStackStateHot k) (b2n (decide (340 < temp)))

def State.siteStack (s : State) (k : Nat) : Site :=
  ⟨dieCode (k / 5), dieCodeP (k / 5), 8, s.fld (Reg.memStackStateTemp k)⟩

/-- The hub die on rail group `rail`. -/
def State.siteHub (s : State) (rail : Nat) : Site := ⟨hubCode, hubCode, rail, s.dieTemp 4⟩

def State.siteSlice (s : State) (j : Nat) : Site := ⟨sliceCode j, sliceCode j, 10, s.dieTemp 4⟩

def State.sitePackage (s : State) : Site := ⟨packageCode, packageCode, 10, s.dieTemp 4⟩

/-- The record of an event now (Table 10.4); its sequence number comes when it is queued. -/
def State.makeRecord (s : State) (sev kind : Nat) (at_ : Site) (op synd : Nat) : ErrRecord :=
  { severity := sev, kind := kind, count := 1, glc := s.glc, unitL := at_.unitL, unitP := at_.unitP,
    imageId := (s.reg Reg.cfgImageId).toNat,
    step := if s.stepRunning then s.stepIndex else 0xFFFFFFFFFFFFFFFF,
    operation := op, temp := at_.temp, volt := s.fld (Reg.pwrRailNowMv at_.rail), rail := at_.rail,
    timeState := s.fld Reg.timeStatusState % 4, errEst := s.fld Reg.timeStatusErrEst, sequence := 0,
    synd := synd % 2 ^ 64 }

def recordBytes (r : ErrRecord) : List Byte :=
  toLe 1 1 ++ toLe 1 r.severity ++ toLe 2 r.kind ++ toLe 4 r.count ++ toLe 8 r.glc ++ toLe 4 r.unitL ++
  toLe 4 r.unitP ++ toLe 8 r.imageId ++ toLe 8 r.step ++ toLe 2 r.operation ++ toLe 2 r.temp ++ toLe 2 r.volt ++
  toLe 1 r.rail ++ toLe 1 r.timeState ++ toLe 2 r.errEst ++ toLe 2 0 ++ toLe 4 r.sequence ++ toLe 8 r.synd

/-- Severity counters are the first four of CHK.CNT (Table 10.13). -/
def State.pushRecord (s : State) (r : ErrRecord) : State :=
  let r := { r with sequence := s.chk.nextSeq }
  let s := s.bump (Reg.chkCnt r.severity) 1
  { s with chk := { s.chk with queue := s.chk.queue ++ [r], nextSeq := (s.chk.nextSeq + 1) % 2 ^ 32 } }

def hubQueueDepth : Nat := 1024

/-- A record is sent to the hub queue; with no room, CORRECTED ones are dropped and counted, the others held at
their source (R359). -/
def State.sendRecord (s : State) (r : ErrRecord) : State :=
  if s.chk.queue.length < hubQueueDepth ∧ s.chk.held = [] ∧ s.chk.lost = 0 then s.pushRecord r
  else if r.severity = 0 then { s with chk := { s.chk with lost := min (s.chk.lost + 1) 0xFFFFFFFF } }
  else { s with chk := { s.chk with held := s.chk.held ++ [r] } }

/-- Coalescing of CORRECTED records of one KIND at one UNIT_P (R358). -/
def coalesce (r : ErrRecord) : List ErrRecord → Option (List ErrRecord)
  | [] => none
  | w :: ws =>
    if w.kind = r.kind ∧ w.unitP = r.unitP then some ({ w with count := min (w.count + 1) 0xFFFFFFFF } :: ws)
    else (coalesce r ws).map (w :: ·)

/-- An event produces its record: severity CORRECTED waits at its source, the others are sent at once (R358). -/
def State.emit (s : State) (sev kind : Nat) (at_ : Site) (op synd : Nat) : State :=
  let r := s.makeRecord sev kind at_ op synd
  if sev = 0 then
    match coalesce r s.chk.waiting with
    | some ws =>
      let s := s.bump (Reg.chkCnt 5) 1
      { s with chk := { s.chk with waiting := ws } }
    | none => { s with chk := { s.chk with waiting := s.chk.waiting ++ [r] } }
  else s.sendRecord r

/-- The range meets the protected image buffer (R99). -/
def State.inImageBuffer (s : State) (a n : Nat) : Bool :=
  match s.cfg.buffer with
  | some b => overlaps a n b.1 b.2
  | none => false

/-- The record of a discarded write by a unit that is neither a core nor PCIe (R99, Table 10.5). -/
def State.protectedRecord (s : State) (a op : Nat) : State :=
  s.emit 3 0x0050 s.sitePackage op (a % 2 ^ 48 + 2 * 2 ^ 48)

/-- A write by a unit of the package: the protected image buffer keeps its bytes, but the steward, whose operation code is
0x7002, can write it (R99). -/
def State.guardedWrite (s : State) (a : Nat) (bs : List Byte) (op : Nat) : State :=
  if s.inImageBuffer a bs.length && op != 0x7002 then s.protectedRecord a op else s.write a bs

/-- `n` bytes whose value the spec leaves open, written by a unit of the package. -/
def State.guardedFree (s : State) (a n op : Nat) : State :=
  let f := s.free
  f.2.guardedWrite a (freeBytes s.fresh n) op

/-- FULL follows HEAD − TAIL (R365). -/
def State.errFull (s : State) : Bool :=
  (s.fld Reg.chkErrHeadHead + 2 ^ 32 - s.fld Reg.chkErrTailTail) % 2 ^ 32 == 2 ^ s.fld Reg.chkErrRingSizeLog2

/-- The copy of a record to the software ring, or its drop (R359, R365). -/
def State.copyRecord (s : State) (r : ErrRecord) : State :=
  if !s.fldB Reg.chkErrRingEnable then s
  else if s.errFull then
    (((s.bump (Reg.chkCnt 4) 1).setFld Reg.chkErrStatusDropped 1).setFld Reg.chkErrStatusFull 1).raiseIrq irqCheck
  else
    let h := s.fld Reg.chkErrHeadHead
    let s := s.guardedWrite (s.fld Reg.chkErrRingBase + h % 2 ^ s.fld Reg.chkErrRingSizeLog2 * 64) (recordBytes r) 0x7002
    let s := s.setFld Reg.chkErrHeadHead (h + 1)
    let s := s.setFld Reg.chkErrStatusSequence r.sequence
    (s.setFld Reg.chkErrStatusFull (b2n s.errFull)).raiseIrq irqCheck

def eventSlots : Nat := 524288

/-- Key of the unit that a physical code names; the hub and the package as a whole have none. -/
def codeKey (u : Nat) : Nat :=
  if ucPhys u = 1 ∧ ucDie u < 4 ∧ ucCluster u ≠ noCluster then
    unitKey (if ucCore u = noCore then 3 else if ucEngine u = 15 then 2 else 1) u
  else if u = sliceCode (ucCluster u) then sliceKey (ucCluster u)
  else unitKey 0 u

/-- Link of Table 11.2 that DLINK index `j` of die `d` shows (R43). -/
def dlinkLink (d j : Nat) : Nat :=
  if j = 3 then 6 + d
  else
    let e := if j < d then j else j + 1
    let pair := (min d e, max d e)
    ([(0, 1), (0, 2), (0, 3), (1, 2), (1, 3), (2, 3)] : List (Nat × Nat)).findIdx fun p => p == pair

/-- Key of the unit that a record is about: the pseudo-channel, channel or lane group that its syndrome names, a key that
stands in it, or the unit of UNIT_P (R373, Tables 10.5 and 11.15). -/
def State.recordKey (s : State) (r : ErrRecord) : Nat :=
  let a := bits r.synd 47 0
  let mem := bits r.synd 58 55
  if r.kind = 0x0010 ∨ r.kind = 0x0011 ∨ r.kind = 0x0012 then
    if mem = 5 ∨ mem = 6 then pcKey (s.pcOf a).1 (s.pcOf a).2
    else if mem = 7 then channelKey (bits r.synd 63 59)
    else codeKey r.unitP
  else if 0x0100 ≤ r.kind ∧ r.kind ≤ 0x0103 then r.synd % 2 ^ 32
  else if r.kind = 0x0040 then groupKey (dlinkLink (ucDie r.unitP) (bits r.synd 1 0)) (bits r.synd 7 2)
  else codeKey r.unitP

/-- The Dripstone event ring: every record of severity 1 to 3, and of severity 0 one per unit key, kind and power-on
hour (R373). -/
def State.logRecord (s : State) (r : ErrRecord) : State :=
  let key := s.recordKey r * 65536 + r.kind
  let now := s.powerSeconds
  let skip := r.severity == 0 &&
    match Tab.find key s.flt.loggedHour with
    | some t => decide (now < t + 3600)
    | none => false
  if skip then s
  else
    let h := s.fld Reg.fltLogHeadRingHead
    let nor := { s.flt.nor with ring := Tab.put h (recordBytes r) s.flt.nor.ring }
    let lh := if r.severity = 0 then Tab.put key now s.flt.loggedHour else s.flt.loggedHour
    let s := { s with flt := { s.flt with nor := nor, loggedHour := lh, countsDirty := true } }
    let s := s.setFld Reg.fltLogHeadRingHead ((h + 1) % eventSlots)
    if h + 1 = eventSlots then s.setFld Reg.fltLogHeadRingWraps (s.fld Reg.fltLogHeadRingWraps + 1) else s

/-- The held record with the smallest GLC, the earlier of equal ones (R359). -/
def oldestHeld : List ErrRecord → Option ErrRecord
  | [] => none
  | r :: rs =>
    match oldestHeld rs with
    | some q => if q.glc < r.glc then some q else some r
    | none => some r

/-- Held records follow in the order of their GLC while there is room and no RECORDS_LOST record is owed (R359). -/
def State.releaseHeld (s : State) : Nat → State
  | 0 => s
  | n + 1 =>
    if s.chk.queue.length < hubQueueDepth ∧ s.chk.lost = 0 then
      match oldestHeld s.chk.held with
      | none => s
      | some r => (State.pushRecord { s with chk := { s.chk with held := s.chk.held.erase r } } r).releaseHeld n
    else s

/-- The steward takes the oldest record of the hub queue (R357, R373); one per idle tick (log entry 8). -/
def State.stewardTake (s : State) : State :=
  if !s.pkg.pairs.contains true then s
  else
    match s.chk.queue with
    | [] => s
    | r :: rest =>
      let s := (State.logRecord { s with chk := { s.chk with queue := rest } } r).copyRecord r
      s.releaseHeld s.chk.held.length

end Sys2Proof.Machine
end

