-- ==== Sys2Proof/Machine/Units.lean ====
section
/-! DEFINITION. Units, their Dripstone entries and the canonical mapping (R31 to R35, R374 to R378). -/

namespace Sys2Proof.Machine

/-! ### The unit table -/

def UnitEntry.fresh : UnitEntry := ⟨0, 0, [], 0, 0, 0, 0, 0, 0, 0, 0, none⟩

def stService : Nat := 0
def stSpare : Nat := 1
def stSump : Nat := 2
def stRetired : Nat := 3
def stDue : Nat := 4

/-- A key of Table 11.2. -/
def keyExists (k : Nat) : Bool :=
  let i := keyIndex k
  let code := ucPhys i == 1 && decide (i < 2 ^ 18) && decide (ucDie i < 4) && decide (ucCluster i < 17)
  match keyClass k with
  | 1 => code && decide (ucCore i < 9) && decide (ucEngine i < 9)
  | 2 => code && decide (ucCore i < 9) && ucEngine i == 15
  | 3 => code && ucCore i == 15 && ucEngine i == 15
  | 4 => decide (i < 1280)
  | 5 => decide (i < 20)
  | 6 => decide (i < 320) && decide (i % 32 < if i / 32 < 6 then 32 else 16)
  | 7 => decide (i < 10)
  | 8 => decide (i < 16)
  | 9 => decide (i < 16)
  | 10 => decide (i < 72)
  | 11 => decide (i < 4)
  | _ => false

def State.unit (s : State) (k : Nat) : UnitEntry := Tab.get UnitEntry.fresh k s.flt.units

def State.setUnit (s : State) (k : Nat) (u : UnitEntry) : State :=
  { s with flt := { s.flt with units := Tab.set UnitEntry.fresh k u s.flt.units, countsDirty := true } }

/-- In Sump or retired: in its parent's retired set (R378). -/
def State.outOfMap (s : State) (k : Nat) : Bool :=
  let st := (s.unit k).state
  st == stSump || st == stRetired

/-! ### The canonical mapping -/

/-- R31: physical child of each logical index, for `n` physical children of which `a` are active. -/
def canonicalMap (n a : Nat) (retired : Nat → Bool) : List (Option Nat) :=
  let spares := ((List.range n).drop a).filter fun p => !retired p
  (List.range a).map fun i =>
    if !retired i then some i
    else spares[((List.range i).filter retired).length]?

/-- Physical children usable by R33: the map of their own children has no gap. -/
def mapWhole (m : List (Option Nat)) : Bool := m.all Option.isSome

/-- A retired set as a mask. -/
def maskOf (n : Nat) (p : Nat → Bool) : Nat := ((List.range n).map fun i => if p i then 2 ^ i else 0).sum

def nibbles (m : List (Option Nat)) : Nat :=
  ((enum0 m).map fun e => (e.2.getD 15) * 16 ^ e.1).sum

/-- KMAP or EMAP content (Table 1.7). -/
def mapWord (ret : Nat) (m : List (Option Nat)) : Nat := ret + nibbles m * 2 ^ 16 + b2n (mapWhole m) * 2 ^ 48

def State.engineOut (s : State) (d p q e : Nat) : Bool := s.outOfMap (engineKey d p q e)

def State.engineMap (s : State) (d p q : Nat) : List (Option Nat) := canonicalMap 9 8 (s.engineOut d p q)

/-- A core is out when it is in Sump or retired, or its engines do not suffice (R33). -/
def State.coreOut (s : State) (d p q : Nat) : Bool :=
  s.outOfMap (coreKey d p q) || !mapWhole (s.engineMap d p q)

def State.coreMap (s : State) (d p : Nat) : List (Option Nat) := canonicalMap 9 8 (s.coreOut d p)

def State.clusterOut (s : State) (d p : Nat) : Bool :=
  s.outOfMap (clusterKey d p) || !mapWhole (s.coreMap d p)

/-- Clusters of a die: R31 while enough are usable, else the usable ones in ascending order (R34). -/
def State.clusterMap (s : State) (d : Nat) : List Nat :=
  let usable := (List.range 17).filter fun p => !s.clusterOut d p
  let a := s.activeClusters
  if a ≤ usable.length then (canonicalMap 17 a (s.clusterOut d)).map fun o => o.getD 0
  else usable

def lmapByte (m : List Nat) (c : Nat) : Nat :=
  match m[c]? with
  | some p => p + 128
  | none => 0

def lmapWord (m : List Nat) (lo : Nat) : Nat :=
  ((List.range 8).map fun j => lmapByte m (lo + j) * 256 ^ j).sum

/-- The map registers of a die as the retired sets give them: offset and value, MAP_EPOCH left out. -/
def State.dieMapWords (s : State) (d : Nat) : List (Nat × Nat) :=
  let cm := s.clusterMap d
  let ks := (List.range 17).map fun p =>
    (Reg.cluKmap d p, mapWord (maskOf 9 (s.coreOut d p)) (s.coreMap d p))
  let es := (List.range 17).flatMap fun p => (List.range 9).map fun q =>
    (Reg.cluEmap d p q, mapWord (maskOf 9 (s.engineOut d p q)) (s.engineMap d p q))
  [(Reg.cluLmap0 d, lmapWord cm 0), (Reg.cluLmap1 d, lmapWord cm 8),
   (Reg.cluCmap d, maskOf 17 (s.clusterOut d) + cm.length * 2 ^ 24)] ++ ks ++ es

def State.lostDie (s : State) (d : Nat) : Bool := bit (s.fld Reg.fltRecoveryStatusLostDies) d

/-- Logical clusters that a die provides: a lost die provides none (R524; DEDUCED for MAX_CLUSTERS, log entry 200). -/
def State.logicalCount (s : State) (d : Nat) : Nat := if s.lostDie d then 0 else s.fld (Reg.cluCmapLogicalCount d)

/-- The effective cluster count: the smallest over the four dies (R34). -/
def State.effectiveClusters (s : State) : Nat := (List.range 4).foldl (fun m d => min m (s.logicalCount d)) 31

/-- One recomputation of a die's maps: the registers first, then the epoch where any content changed (R35, R42). -/
def State.rebuildMaps (s : State) (d : Nat) (firstBuild : Bool) : State :=
  let ep := s.fld (Reg.cluCmapMapEpoch d)
  let ws := s.dieMapWords d
  let old := ws.map fun w =>
    if w.1 = Reg.cluCmap d then setBits (s.reg w.1).toNat 47 32 0 else (s.reg w.1).toNat
  let changed := old != ws.map Prod.snd
  let t := ws.foldl (fun (t : State) w =>
    t.setReg w.1 (BitVec.ofNat 64 (if w.1 = Reg.cluCmap d then setBits w.2 47 32 ep else w.2))) s
  let t := if changed && !firstBuild then t.setFld (Reg.cluCmapMapEpoch d) (ep + 1) else t
  t.setFld Reg.cfgCapsMaxClusters t.effectiveClusters

/-- The logical unit that a physical compute unit carries; none for one that carries no logical unit. -/
def State.logicalOf (s : State) (u : Nat) : Option Nat :=
  let d := ucDie u
  match (List.range 16).find? fun c => s.physCluster d c == some (ucCluster u) with
  | none => none
  | some c =>
    if ucCore u = noCore then some (clusterCode d c)
    else
      match (List.range 8).find? fun k => s.physCore d (ucCluster u) k == some (ucCore u) with
      | none => none
      | some k =>
        if ucEngine u = 15 then some (coreCode d c k)
        else
          match (List.range 8).find? fun e => s.physEngine d (ucCluster u) (ucCore u) e == some (ucEngine u) with
          | none => none
          | some e => some (engineCode d c k e)

/-- STATE of a unit as the unit table and FLT.UNIT_STATE show it: a healthy unit is SERVICE while it carries a
logical unit and SPARE otherwise (Table 11.3). -/
def State.unitState (s : State) (k : Nat) : Nat :=
  let u := s.unit k
  if u.state = stService then
    if 1 ≤ keyClass k ∧ keyClass k ≤ 3 ∧ (s.logicalOf (keyIndex k)).isNone then stSpare else stService
  else u.state

/-- Where a unit's record is placed; UNIT_L is the nearest mapped parent where the unit carries none (log entry 9). -/
def State.siteKey (s : State) (k : Nat) : Site :=
  let i := keyIndex k
  match keyClass k with
  | 4 => s.siteStack (i / 64)
  | 5 => s.siteStack i
  | 6 => let l := i / 32; let d := if l < 6 then [0, 0, 0, 1, 1, 2].getD l 0 else l - 6
         ⟨dieCode d, dieCodeP d, 4 + d, s.dieTemp d⟩
  | 7 => let d := if i < 6 then [0, 0, 0, 1, 1, 2].getD i 0 else i - 6
         ⟨dieCode d, dieCodeP d, 4 + d, s.dieTemp d⟩
  | 8 => s.siteHub 12
  | 9 => s.siteSlice i
  | 10 => s.siteHub 10
  | 11 => s.siteHub 10
  | _ =>
    let d := ucDie i
    let parent := (List.range 16).find? fun c => s.physCluster d c == some (ucCluster i)
    let l := match s.logicalOf i with
      | some u => u
      | none => match parent with
        | some c => clusterCode d c
        | none => dieCode d
    ⟨l, i, d, s.dieTemp d⟩

/-! ### State changes of units (R375 to R378) -/

/-- Strikes inside the 720-hour window. -/
def strikeWindow : Nat := 720 * 3600

def State.markDirty (s : State) : State := { s with flt := { s.flt with stateDirty := true } }

/-- A strike at the current POWER_SECONDS. -/
def State.strike (s : State) (k : Nat) : State :=
  let u := s.unit k
  s.setUnit k { u with strikes := u.strikes ++ [s.powerSeconds], lastStrike := s.powerSeconds,
                       totalEvents := min (u.totalEvents + 1) 0xFFFFFFFF }

def State.strikeCount (s : State) (k : Nat) : Nat := (s.unit k).strikes.length

/-- The unit becomes RETIRED by a rule of Table 11.15. -/
def State.retire (s : State) (k rule : Nat) : State :=
  let u := s.unit k
  if u.state = stRetired then s
  else
    let s := s.setUnit k { u with state := stRetired, cause := rule }
    let s := (s.bump (Reg.fltCnt 1) 1).markDirty
    let s := { s with flt := { s.flt with screening := s.flt.screening.filter fun e => e.1 != k } }
    s.emit 0 0x0101 (s.siteKey k) 0 (k + rule * 2 ^ 32)

/-- PACK_VERSION of the active Lantern pack: a screen finishes on the pack it began with (R386). -/
def State.packVersion (s : State) : Nat := s.fld Reg.fltPackStatusActiveVersion

/-- The unit enters Sump, and its screen is due (R378, R384). -/
def State.enterSump (s : State) (k kind rule : Nat) : State :=
  let u := s.unit k
  if u.state = stSump ∨ u.state = stRetired then s
  else
    let s := s.setUnit k { u with state := stSump, cause := rule, sumpCount := min (u.sumpCount + 1) 65535 }
    let s := (s.bump (Reg.fltCnt 0) 1).markDirty
    let s := { s with flt := { s.flt with screening := s.flt.screening ++ [(k, ScreenKind.sump, s.packVersion)] } }
    s.emit 0 0x0100 (s.siteKey k) 0 (k + kind * 2 ^ 32)

/-- The unit becomes DUE by a rule of Table 11.15. -/
def State.markDue (s : State) (k rule : Nat) : State :=
  let u := s.unit k
  if u.state = stService then (s.setUnit k { u with state := stDue, cause := rule }).markDirty else s

/-- An SRAM word or HBM4 line of a unit is found hard (R377). -/
def State.noteHard (s : State) (k : Nat) : State :=
  s.setUnit k { s.unit k with hardBits := min ((s.unit k).hardBits + 1) 255 }

/-- A corrected error charged to a unit: the 24-hour count and the life count (Table 11.3). -/
def State.countCorrected (s : State) (k : Nat) : State :=
  let u := s.unit k
  s.setUnit k { u with corrected24 := min (u.corrected24 + 1) 0xFFFFFFFF,
                       totalEvents := min (u.totalEvents + 1) 0xFFFFFFFF }

/-- Strike limit of a charge (Table 11.4): two for memory errors, three for the others. -/
def strikeLimit (kind : Nat) : Nat := if kind = 0x0011 then 2 else 3

/-- Table 11.4 for a strike that sends its unit to Sump: retired at the limit, and retired where it is already DUE
(R376), else Sump. -/
def State.strikeSump (s : State) (k kind : Nat) : State :=
  let s := s.strike k
  if strikeLimit kind ≤ s.strikeCount k then s.retire k 1
  else if (s.unit k).state = stDue then s.retire k 2
  else s.enterSump k kind 1

/-- Every physical compute unit of a die, by key. -/
def dieUnits (d : Nat) : List Nat :=
  (List.range 17).flatMap fun p =>
    clusterKey d p :: ((List.range 9).flatMap fun q =>
      coreKey d p q :: (List.range 9).map fun e => engineKey d p q e)

/-- Units in state DUE become retired (R376). -/
def State.retireDue (s : State) (d : Nat) : State :=
  (dieUnits d).foldl (fun (s : State) k => if (s.unit k).state = stDue then s.retire k 2 else s) s

end Sys2Proof.Machine
end

