-- ==== Sys2Proof/Machine/Faults.lean ====
section
/-! DEFINITION. What stops a step as for a failed unit (R393), the loss of a die (R398), and memory errors
(R217 to R219) with the Dripstone rules they feed (Table 11.4). -/

namespace Sys2Proof.Machine

def State.fleetIndex (s : State) : Nat := s.fld Reg.hubFleetStatusIndex

/-- An Obcor link carries traffic (R470). -/
def State.obcUp (s : State) (l : Nat) : Bool :=
  let st := s.fld (Reg.obcLinkStatusState l)
  decide (2 ≤ st ∧ st ≤ 4)

/-- Link on which data for a package leaves and from it arrives, by the route to it. -/
def State.routeLink (s : State) (d : Nat) : Nat := s.fld (Reg.obcRouteLink d)

/-- A route to a package stands, and its link is up. -/
def State.routed (s : State) (d : Nat) : Bool :=
  decide (d ≤ 4096) && s.fldB (Reg.obcRouteValid d) && s.obcUp (s.routeLink d)

/-- The `n` flits of one message leave on a link (R457, R471): SEQ counts the flits that were no replay, LAST marks the last
one, whose payload has `fill` bytes. -/
def State.flitOut (s : State) (l n type fill epoch : Nat) : State :=
  let s := s.bump (Reg.obcCnt l 0) n
  let next := (s.reg (Reg.obcCnt l 0)).toNat + 2 ^ 64 - (s.reg (Reg.obcCnt l 3)).toNat
  let h : FlitHeader := ⟨BitVec.ofNat 4 type, BitVec.ofNat 12 (next + 4095), Config.flitClass type, true,
    BitVec.ofNat 9 fill, BitVec.ofNat 32 epoch⟩
  { s with hub := { s.hub with lastFlit := Tab.put l h s.hub.lastFlit } }

/-- Flits of a message that leave for a package. -/
def State.flitsTo (s : State) (d n type fill epoch : Nat) : State :=
  if s.routed d then s.flitOut (s.routeLink d) n type fill epoch else s

/-- A flit of a package arrives by its route (R471). -/
def State.flitFrom (s : State) (d : Nat) : State := if s.routed d then s.bump (Reg.obcCnt (s.routeLink d) 1) 1 else s

/-- R461: data travels to a neighbour, or by the link-level relay of version 3. -/
def State.dataPath (s : State) (d : Nat) : Bool :=
  s.routed d && (s.fldB (Reg.obcRouteDirect d) || s.fld (Reg.obcLinkStatusVersion (s.routeLink d)) == 3)

def State.deterministic (s : State) : Bool := s.fldB Reg.detStatusActive

/-- R49: the entry leaves at the first later frame instant and later entries keep that phase until the seam; the slip
is counted (R436). Crossings have fixed release instants in deterministic mode only. Outside a step there is no
current step whose slips STATUS could show. `aclk` counts from the start of the step. -/
def State.crossingSlip (s : State) (x aclk : Nat) : State :=
  if !s.deterministic then s
  else
    let s := { s with crossings := Tab.set 0 x (Tab.get 0 x s.crossings + 1) s.crossings }.bump (Reg.detCnt 0) 1
    if !s.stepRunning then s else
    let n := s.fld Reg.detStatusSlipsStep
    let s := if n = 0 then
        (s.setFld Reg.detStatusFirstXing x).setFld Reg.detStatusFirstSlipAclk (min aclk 0xFFFFFFFF)
      else s
    s.setFld Reg.detStatusSlipsStep (min (n + 1) 65535)

/-- Crossing 8 of Table 12.14. -/
def xingObcor : Nat := 8

/-- Data crosses a link of version 1: in deterministic mode a step that uses the link counts at least one slip (R461). When
in the step it comes is open: a free value. -/
def State.freeRunning (s : State) (l : Nat) : State :=
  if s.deterministic && s.stepRunning && s.fld (Reg.obcLinkStatusVersion l) == 1 && Tab.get 0 xingObcor s.crossings == 0
  then s.free.2.crossingSlip xingObcor s.free.1 else s


/-- A poison notice goes to every package of the participant set and to the manager (R351). -/
def State.sendNotices (s : State) (sender epoch cause : Nat) : State :=
  let me := s.fld Reg.hubFleetStatusIndex
  let dests := (s.fleet.members.filter fun m => m != me)
  let dests := if s.fld Reg.hubFleetStatusJoined = 1 && !dests.contains s.fleet.managerIndex
    then dests ++ [s.fleet.managerIndex] else dests
  let s := { s with fleet := { s.fleet with notices := s.fleet.notices ++ dests.map fun d => (d, sender, epoch, cause) } }
  let s := dests.foldl (fun (s : State) d => s.flitsTo d 1 flitNotice 17 0) s
  s.bump (Reg.chkCnt 8) dests.length

def State.epochNow (s : State) : Nat := s.glc / 1000 % 2 ^ 32

/-- Bytes join an epoch's stream: the words they fill enter the pip (R346). -/
def EpochState.add (e : EpochState) (bs : List Byte) : EpochState :=
  let all := e.tail ++ bs
  let n := all.length / 8 * 8
  { e with count := e.count + bs.length,
           pip := (e.pip + pipFrom pipM1 ((e.count - e.tail.length) / 8) (words64 (all.take n))) % pipP,
           tail := all.drop n }

/-- The transfer pip of an epoch's bytes, a last word that is not full padded with zeros (DESIGN CHOICE, log entry
149). -/
def EpochState.wholePip (e : EpochState) : Nat :=
  (e.pip + pipFrom pipM1 ((e.count - e.tail.length) / 8) (words64 e.tail)) % pipP

/-- Data of the running step leaves for package `peer` in the current epoch: its bytes and its pip grow (R346, R348).
Poisoned data fails the epoch's check at the sender (R351); `tiles` are those it came from whose twin comparison is
outstanding. Data with no path is never sent (R461). The data of one call make one message (DESIGN CHOICE, log entry
194). -/
def State.sendData (s : State) (peer : Nat) (bytes : List Byte) (bad : Bool) (tiles : List (Nat × Nat × Nat × Nat)) :
    State :=
  let e := s.epochNow
  let cur := (s.chk.epochsOut.find? fun x => x.peer == peer && x.epoch == e).getD
    ⟨peer, e, 0, 0, [], none, [], true, s.stepIndex, []⟩
  let new := { cur.add bytes with parityOk := cur.parityOk && !bad, tiles := cur.tiles ++ tiles }
  let t : State := { s with chk := { s.chk with
      epochsOut := (s.chk.epochsOut.filter fun x => !(x.peer == peer && x.epoch == e)) ++ [new] } }
  if s.dataPath peer then
    let n := dataFlits bytes.length
    (t.freeRunning (s.routeLink peer)).flitsTo peer n flitData (32 + bytes.length - 256 * (n - 1)) e
  else s

/-- Other members of the participant set. -/
def State.otherMembers (s : State) : List Nat :=
  s.fleet.members.filter fun m => m != s.fld Reg.hubFleetStatusIndex

/-- HOLDING, and the count of held seams (R355, R366). -/
def State.setHold (s : State) (on : Bool) : State :=
  let s := if on && !s.flt.echoHold then s.bump (Reg.chkCnt 17) 1 else s
  { s.setFld Reg.chkEchoStatusHolding (b2n on) with flt := { s.flt with echoHold := on } }

/-- No seam is held any more. -/
def State.endHold (s : State) : State := if s.flt.echoHold then s.setHold false else s

/-- A stop with no notice: sequencers and Presses stop, and recovery begins (R393, Table 11.13). -/
def State.beginStop (s : State) (c : StopCause) (kind : Nat) : State :=
  let first := s.flt.stopKind.isNone
  let before := if first then (s.loadState, s.stepRunning) else s.flt.before
  let k := max kind (s.flt.stopKind.getD 0)
  let s := { s with flt := { s.flt with causes := s.flt.causes ++ [c], stopKind := some k, before := before } }
  let r := s.cfg.run
  let s := s.endHold.setRun { r with stepRunning := false, atSeam := r.atSeam && !r.stepRunning, armed := false, late := false }
  let s := s.setFld Reg.timeLaunchStatusPending 0
  -- a rotation that waits for the seam is dropped (Table 11.13)
  let s := { s with flt := { s.flt with rotateDue := [] } }
  let s := (s.setLoadState loadStopping).setBusy true
  s.setRecovery Reg.fltRecoveryStatusPhase 1

/-- CAUSE of the notice that follows a PIP_MISMATCH. Its coding is open beyond the causes of a transfer: the low byte of the
record's KIND (DESIGN CHOICE, log entry 214). -/
def causePip : Nat := 0x33

/-- A step stops as for a failed unit: notices go out while the package is in a set (Table 11.9, step 1). -/
def State.stopStep (s : State) (c : StopCause) (kind : Nat) : State :=
  let notify := s.stepRunning && s.flt.stopKind.isNone
  let s := s.beginStop c kind
  if notify then s.sendNotices (s.fld Reg.hubFleetStatusIndex) s.epochNow (if c.kind = 0x0033 then causePip else 0) else s

/-- Syndrome of a transfer record (Table 10.5). -/
def transferSyndrome (epoch src link cause : Nat) : Nat :=
  epoch % 2 ^ 32 + src % 2 ^ 13 * 2 ^ 32 + link % 16 * 2 ^ 45 + cause % 4 * 2 ^ 49

/-- R351: a transfer is poisoned. The record, the notices, and the stop of the step that a notice leads to. -/
def State.transferPoison (s : State) (kind epoch src link cause : Nat) : State :=
  let s := s.emit 1 kind (s.siteHub 11) 0x5002 (transferSyndrome epoch src link cause)
  let s := s.sendNotices src epoch cause
  let s := { s with chk := { s.chk with epochsIn := [] } }
  if s.stepRunning then s.beginStop ⟨0, kind, none⟩ 0 else s

/-- Poison stopped at a commit point, numbered in the row order of Table 10.2 (R340). -/
def State.poisonConsumed (s : State) (x : Site) (op addr point : Nat) : State :=
  (s.emit 1 0x0013 x op (addr % 2 ^ 48 + point * 2 ^ 48)).bump (Reg.chkCnt 18) 1

/-- A control message is sent (R462): one flit (R458). -/
def State.sendMsg (s : State) (m : CtrlMsg) : State :=
  State.flitsTo { s with fleet := { s.fleet with sent := s.fleet.sent ++ [m] } } m.dest 1 flitControl
    (8 + Config.bodyBytes m.msg m.body.length % 249) 0

def roleAlone : Nat := 0
def roleWorker : Nat := 1
def roleManager : Nat := 2
def roleStandby : Nat := 3

def State.role (s : State) : Nat := s.fld Reg.hubRoleRole

/-- A steward pair runs, and start-up has ended (R444, R509). -/
def State.stewardUp (s : State) : Bool := s.pkg.pairs.contains true && s.pkg.ready

/-- The package runs the fleet, and its steward lives. -/
def State.manages (s : State) : Bool := s.role == roleManager && s.stewardUp

/-- The set a worker belongs to: its identifier and members; every worker that has joined, where the manager has recorded
no set for it. -/
def State.setOf (s : State) (w : Nat) : Nat × List Nat :=
  match s.fleet.sets.find? fun x => x.2.contains w with
  | some x => x
  | none => (0, s.fleet.workers.map Worker.index)

def msgRollback : Nat := 0x0D

/-- The manager orders members back to the seam after the last agreed round (R399). -/
def State.rollbackAll (s : State) (members : List Nat) : State :=
  let s := members.foldl (fun (s : State) m => s.sendMsg ⟨msgRollback, m, [(s.fleet.agreed + 1) % 2 ^ 64]⟩) s
  let ws := s.fleet.workers.map fun x =>
    if members.contains x.index then { x with outcome := 0, armed := none, due := true } else x
  { s with fleet := { s.fleet with workers := ws } }

/-- FLEET_STATUS members change, with the FLEET interrupt (Table 13.9). -/
def State.setFleet (s : State) (f : Fld) (v : Nat) : State := s.setFldIrq irqFleet f v

/-- A worker tells the manager that it leaves (Table 13.14). -/
def State.leaveFleet (s : State) (cause : Nat) : State :=
  if s.fld Reg.hubFleetStatusJoined = 1 then s.sendMsg ⟨0x0F, s.fleet.managerIndex, [cause]⟩ else s

/-- Exports of step `step` and later do not complete (R352). -/
def State.dropExports (s : State) (step : Nat) : State :=
  let one (n : NtsState) : NtsState :=
    if n.export_.isSome && decide (step ≤ n.step) then { n with export_ := none, waits := false, data := [] } else n
  let ns := s.emb.nts.map fun (p : Nat × NtsState) => (p.1, one p.2)
  { s with emb := { s.emb with nts := ns.filter fun p => p.2 != NtsState.init } }

/-- A SAVE that waits for a seam fails: the package is at none (R427, code 0x08), or its own copy met a line whose handling
does not rewrite it (R428, code 0x30). -/
def State.failSave (s : State) : State :=
  match s.det.snap with
  | some j =>
    if j.op = 1 ∧ !j.copying then
      let s := ({ s with det := { s.det with snap := none } } : State).setFld Reg.detSnapStatusPending 0
      ((s.setFld Reg.detSnapStatusCode (if j.hit then 0x30 else 8)).setFld Reg.detSnapStatusEntry 0xFFFF).raiseIrq irqSnapshot
    else s
  | none => s

/-- What one step holds and the next does not: sequencers, Presses, gathered banks, counts, checks. No entry waits on the
stash any more. -/
def State.clearStep (s : State) : State :=
  let s := (List.range 4).foldl (fun (s : State) d => s.setFld (Reg.cluStashStatStalled d) 0) s
  let s := { s with dense := DenseState.init, crossings := [] }
  let s := { s with emb := { s.emb with press := [], sorted := [], parts := [], banks := [], counts := [], cut := [],
                                        sumsSent := [] } }
  let ps := s.chk.pips.map fun (p : Nat × PipState) => (p.1, { p.2 with curWrite := none, curRead := none, seen := [] })
  { s with chk := { s.chk with pips := ps, ledgers := [], twinPending := [], eventBytes := [], received := [],
                               poisonNoted := false } }

/-- The package is left LOADED, or EMPTY where nothing was loaded, and the recovery is over: at a seam, or with a step cut
off for good. -/
def State.endRecovery (s : State) (outcome kind durationMs : Nat) (seam : Bool) : State :=
  let loaded := s.cfg.image.isSome
  let s := if seam then s else s.clearStep
  let s := s.endHold.setRecovery Reg.fltRecoveryStatusOutcome outcome
  let s := s.setRecovery Reg.fltRecoveryStatusKind kind
  let s := s.setRecovery Reg.fltRecoveryStatusDurationMs durationMs
  let s := s.setRecovery Reg.fltRecoveryStatusPhase (if outcome = 1 then 5 else 0)
  let s := s.setBusy s.cfg.load.isSome
  let st := if outcome = 4 then loadFault else if loaded then loadLoaded else loadEmpty
  let s := s.setLoadState st
  let r := s.cfg.run
  let s := s.setRun { r with stepRunning := false, atSeam := seam, stepsLeft := none }
  let hit := match s.det.snap with
    | some j => j.hit && (outcome != 1 || kind == 2)
    | none => false
  let s := if seam && !hit then s else s.failSave
  let s := { s with flt := { s.flt with stopKind := none, causes := [], resetDies := [], rollbackTo := none } }
  s.emit 0 0x0104 s.sitePackage 0 (durationMs + kind * 2 ^ 32 + outcome * 2 ^ 36)

/-! ### In-package links, and the loss of a die -/

/-- Ends of a link in the order of Table 11.2; a die-to-hub link has one compute die. -/
def linkEnds (l : Nat) : Nat × Option Nat :=
  match l with
  | 0 => (0, some 1)
  | 1 => (0, some 2)
  | 2 => (0, some 3)
  | 3 => (1, some 2)
  | 4 => (1, some 3)
  | 5 => (2, some 3)
  | n => (n - 6, none)

/-- Index of a link among DLINK[0..3] of die `d`: other dies ascending, then the hub (R43). -/
def dlinkIndex (d : Nat) (other : Option Nat) : Nat :=
  match other with
  | none => 3
  | some e => if e < d then e else e - 1

/-- DLINK registers that show a link: die and index. -/
def dlinkEnds (l : Nat) : List (Nat × Nat) :=
  match linkEnds l with
  | (d, none) => [(d, 3)]
  | (d, some e) => [(d, dlinkIndex d (some e)), (e, dlinkIndex e (some d))]

def linkGroups (l : Nat) : Nat := if l < 6 then 32 else 16

def State.link (s : State) (l : Nat) : LinkState := Tab.get LinkState.init l s.links

/-- Link number between two compute dies, or between a die and the hub. -/
def linkBetween (a : Nat) (b : Option Nat) : Nat :=
  match b with
  | none => 6 + a
  | some e => ((List.range 6).find? fun l => linkEnds l == (min a e, some (max a e))).getD 0

def LinkState.groups (l : LinkState) (n : Nat) : Nat := linkGroups n - l.removed.length

/-- The link's state and the DLINK registers that show it (Table 1.8). DESIGN CHOICE (log entry 143): a link that is down
shows 0 groups in service. -/
def State.setLink (s : State) (n : Nat) (l : LinkState) : State :=
  let s := { s with links := Tab.set LinkState.init n l s.links }
  (dlinkEnds n).foldl (fun (s : State) e =>
    let s := s.setFld (Reg.cluDlinkGroups e.1 e.2) (if l.up then l.groups n else 0)
    let s := s.setFld (Reg.cluDlinkUp e.1 e.2) (b2n l.up)
    let s := s.setFld (Reg.cluDlinkRelayed e.1 e.2) (b2n l.relay.isSome)
    s.setFld (Reg.cluDlinkSparesUsed e.1 e.2) l.spared.length) s

/-- The relay of a lost link (R28); a lost die, whose links are down (R524), relays nothing. DESIGN CHOICE (log entry 144): a
relay of a die-to-hub link also needs the direct link from the die to the relaying die. -/
def State.relayFor (s : State) (n : Nat) : Option Nat :=
  match linkEnds n with
  | (a, some b) =>
    ((List.range 4).filter fun c => c != a && c != b && !s.lostDie c).find? fun c =>
      (s.link (linkBetween a (some c))).up && (s.link (linkBetween b (some c))).up
  | (a, none) =>
    ((List.range 4).filter fun c => c != a && !s.lostDie c).find? fun c =>
      (s.link (linkBetween c none)).up && (s.link (linkBetween a (some c))).up

/-- A link that has been taken down, with both of its ends still there. -/
def State.linkFallen (s : State) (n : Nat) : Bool :=
  let l := s.link n
  let ends := (linkEnds n).1 :: (linkEnds n).2.toList
  !l.up && (l.removed != [] || l.relay.isSome || decide (17 ≤ l.retriesInRow)) && !ends.any s.lostDie

/-- The die that a lost link without a relay takes with it: the hub link's die, or the higher-numbered end (log
entry 10). -/
def lostWith (n : Nat) : Nat :=
  match linkEnds n with
  | (a, none) => a
  | (_, some b) => b

/-- A die joins the lost ones (R398): record, LOST_DIES, MAX_CLUSTERS; during start-up WARN 7. -/
def State.markLost (s : State) (d cause : Nat) : State :=
  if s.lostDie d then s
  else
    let s := s.emit 1 0x0105 ⟨dieCode d, dieCodeP d, d, s.dieTemp d⟩ 0 (d + cause * 16)
    let s := s.setRecovery Reg.fltRecoveryStatusLostDies (s.fld Reg.fltRecoveryStatusLostDies + 2 ^ d)
    let s := s.setFld Reg.cfgCapsMaxClusters s.effectiveClusters
    if s.pkg.ready then s else s.setFld Reg.pkgBootStatusWarn (setBits (s.fld Reg.pkgBootStatusWarn) 7 7 1)

/-- Relays of links that are down, found again; a die that no path reaches is lost, which may take more relays with it
(R28, R398). `n` rounds suffice for `n` dies. -/
def State.rerelay (s : State) : Nat → State
  | 0 => s
  | n + 1 =>
    let down := (List.range 10).filter s.linkFallen
    let s := down.foldl (fun (s : State) l => s.setLink l { s.link l with relay := s.relayFor l }) s
    match down.filter fun l => (s.relayFor l).isNone with
    | [] => s
    | ls => (ls.foldl (fun (s : State) l => s.markLost (lostWith l) 2) s).rerelay n

/-- Where dies were lost since `old`, the package leaves its job with outcome DIE_LOST, and exports stop (R398). -/
def State.afterLoss (s old : State) (durationMs : Nat) : State :=
  if s.fld Reg.fltRecoveryStatusLostDies = old.fld Reg.fltRecoveryStatusLostDies ∨ !s.pkg.ready then s
  else
    let s := (if s.cfg.image.isSome then s.leaveFleet 1 else s).dropExports 0
    s.endRecovery 5 (s.flt.stopKind.getD 0) durationMs false

/-- Dies are lost together (R398), with those that then no path reaches. -/
def State.loseDies (s : State) (ds : List Nat) (cause durationMs : Nat) : State :=
  ((ds.foldl (fun (s : State) d => s.markLost d cause) s).rerelay 4).afterLoss s durationMs

def State.loseDie (s : State) (d cause durationMs : Nat) : State := s.loseDies [d] cause durationMs

/-! ### Errors of memories -/

def memCode : MemKind → Nat
  | .operandBuffer => 0
  | .scratchpad => 1
  | .grotto => 2
  | .pressBuffer => 3
  | .nts => 4
  | .lineMetadata => 5
  | .hbm => 6
  | .ddr => 7
  | .leafStore => 8

/-- The memory syndrome of Table 10.5. -/
def memSyndrome (a sym : Nat) (k : MemKind) (unit : Nat) : Nat :=
  a % 2 ^ 48 + sym % 128 * 2 ^ 48 + memCode k * 2 ^ 55 + unit * 2 ^ 59

/-- Memory, stack or channel number and record site of a physical address. -/
def State.memOf (s : State) (a : Nat) : MemKind × Nat × Site :=
  match s.region a with
  | .tier1 => (.hbm, (s.stackOf a).1, s.siteStack (s.stackOf a).1)
  | .tier2 => (.ddr, s.channelOf a, s.siteHub 12)
  | .window d off =>
    match s.windowPlace d off with
    | .scratchpad c k _ => (.scratchpad, 0, s.siteSram (coreCode d c k))
    | .grotto c _ => (.grotto, 0, s.siteSram (clusterCode d c))
    | .none => (.scratchpad, 0, s.siteSram (dieCode d))
  | _ => (.nts, 0, s.siteHub 10)

/-- Unit that an error at an address is charged to (Table 11.4). -/
def State.chargeOf (s : State) (a : Nat) : Nat :=
  match s.region a with
  | .tier1 => let p := s.pcOf a; pcKey p.1 p.2
  | .tier2 => channelKey (s.channelOf a)
  | .window d off =>
    match s.windowPlace d off with
    | .scratchpad c k _ => unitKey 2 (s.physOf (coreCode d c k))
    | .grotto c _ => unitKey 3 (s.physOf (clusterCode d c))
    | .none => 0
  | _ => 0

/-- HBM4 lines of a pseudo-channel with CE_COUNT of 4 or more (Table 11.4). -/
def State.worstLines (s : State) (stack pc : Nat) : Nat :=
  (s.mm.lineMeta.filter fun e => decide (s.pcOf (e.1 * 64) = (stack, pc)) && decide (4 ≤ bits e.2 6 1)).length

/-- A corrected error of the SRAM word at `w` of a unit (R377, Table 11.4): the third within 24 power-on hours
makes it a hard word. -/
def State.chargeWord (s : State) (k w : Nat) : State :=
  let now := s.powerSeconds
  let hits := (s.flt.wordHits.filter fun h => decide (now < h.2.2 + 86400)) ++ [(k, w, now)]
  let s : State := { s with flt := { s.flt with wordHits := hits } }
  if 3 ≤ (hits.filter fun h => h.1 == k && h.2.1 == w).length ∧ !s.flt.hardWords.contains (k, w) then
    let s : State := { s with flt := { s.flt with hardWords := s.flt.hardWords ++ [(k, w)] } }
    let s := s.noteHard k
    if 2 ≤ (s.unit k).hardBits then s.markDue k 2 else s
  else s

/-- A corrected error of the SRAM word, line or channel at an address (R218, R377, Table 11.4). -/
def State.chargeCorrected (s : State) (a : Nat) : State :=
  let k := s.chargeOf a
  if !keyExists k then s
  else
    let s := s.countCorrected k
    match s.region a with
    | .tier1 =>
      let p := s.pcOf a
      if 8 ≤ s.worstLines p.1 p.2 ∨ 4096 ≤ (s.unit k).corrected24 then s.markDue k 2 else s
    | .tier2 => if 16384 ≤ (s.unit k).corrected24 then s.markDue k 2 else s
    | _ => s.chargeWord k (a / 8 * 8)

/-- Counter index of an address in MEM.ECC_CNT: stacks 0 to 19, channels 20 to 35. -/
def State.eccIndex (s : State) (a : Nat) : Option Nat :=
  match s.region a with
  | .tier1 => some (s.stackOf a).1
  | .tier2 => some (20 + s.channelOf a)
  | _ => none

def State.bumpEcc (s : State) (a j : Nat) : State :=
  match s.eccIndex a with
  | some i => s.bump (Reg.memEccCnt i j) 1
  | none => s

/-- First address of the code word of a memory that holds an address: a 64-byte line, a 64-bit SRAM word, the metadata
of four lines (R210, R217). -/
def codeWord (k : MemKind) (a : Nat) : Nat :=
  match k with
  | .hbm => a / 64 * 64
  | .ddr => a / 64 * 64
  | .lineMetadata => a / 256 * 256
  | _ => a / 8 * 8

/-- R218 for memory `k` at an address: one writeback is scheduled; an error at an address whose writeback waits is
corrected again and not counted again. `counter` is 0 on demand reads and 2 on patrol (Table 6.13). -/
def State.correctedIn (s : State) (k : MemKind) (a sym op counter : Nat) : State :=
  let (_, unit, at_) := s.memOf a
  let loc := codeWord k a
  if s.mm.writebacks.contains (k, loc) then s
  else
    let s := { s with mm := { s.mm with writebacks := s.mm.writebacks ++ [(k, loc)] } }
    let s := if k = .hbm then
        let m := s.lineMeta (a / 64)
        let n := bits m 6 1 + 1
        let s := s.setLineMeta (a / 64) (setBits m 6 1 (min n 63))
        if n = 4 then s.noteHard (s.chargeOf a) else s
      else s
    let s := s.bumpEcc a counter
    let s := s.emit 0 0x0010 at_ op (memSyndrome a sym k unit)
    s.chargeCorrected a

/-- Table 11.4 for one charged event: compute units to Sump or retirement, pseudo-channels and channels struck, the
second strike making them DUE. -/
def State.applyCause (s : State) (key kind : Nat) : State :=
  match keyClass key with
  | 1 => s.strikeSump key kind
  | 2 => s.strikeSump key kind
  | 3 => s.strikeSump key kind
  | 4 => let s := s.strike key; if 2 ≤ s.strikeCount key then s.markDue key 1 else s
  | 8 => let s := s.strike key; if 2 ≤ s.strikeCount key then s.markDue key 1 else s
  | _ => s

/-- R219 for memory `k`: the line is poisoned and a record written; tier 1 leads to a die reset, tier 2 and SRAM stop
the step. -/
def State.uncorrectableIn (s : State) (k : MemKind) (a op : Nat) : State :=
  let (_, unit, at_) := s.memOf a
  let full := match s.region a with
    | .tier2 => decide (65536 ≤ s.mm.t2Poison.length) && !s.mm.t2Poison.contains (a / 64)
    | _ => false
  let s := s.poisonAt a
  let s := s.bumpEcc a 1
  let s := s.emit 1 0x0011 at_ op (memSyndrome a 0 k unit)
  match s.region a with
  | .tier1 =>
    let d := (s.stackOf a).1 / 5
    let dies := if s.flt.resetDies.contains d then s.flt.resetDies else s.flt.resetDies ++ [d]
    let s := s.stopStep ⟨s.chargeOf a, 0x0011, some a⟩ 1
    { s with flt := { s.flt with resetDies := dies } }
  | .tier2 => if full || s.stepRunning then s.stopStep ⟨s.chargeOf a, 0x0011, some a⟩ 0
    else s.applyCause (s.chargeOf a) 0x0011
  | .window _ _ => s.stopStep ⟨s.chargeOf a, 0x0011, some a⟩ 0
  | _ => s

/-- A code result of memory `k` at an address: nothing, a correction, or poison (R217 to R219). -/
def State.applyEccIn (s : State) (k : MemKind) (a : Nat) (e : Ecc) (op counter : Nat) : State :=
  match e with
  | .clean => s
  | .corrected sym => s.correctedIn k a sym.toNat op counter
  | .uncorrectable => s.uncorrectableIn k a op

/-- A read's code result at a physical address. -/
def State.applyEcc (s : State) (a : Nat) (e : Ecc) (op counter : Nat) : State :=
  s.applyEccIn (s.memOf a).1 a e op counter

/-- A code result of an operand or Press buffer: the unit's key, where its records stand, the byte offset. The
offset and the key together name the word of a scheduled writeback. -/
def State.bufferEcc (s : State) (k : MemKind) (key : Nat) (at_ : Site) (off : Nat) (e : Ecc) (op : Nat) : State :=
  match e with
  | .clean => s
  | .corrected sym =>
    let loc := key * 2 ^ 24 + codeWord k off
    if s.mm.writebacks.contains (k, loc) then s
    else
      let s := { s with mm := { s.mm with writebacks := s.mm.writebacks ++ [(k, loc)] } }
      let s := s.emit 0 0x0010 at_ op (memSyndrome off sym.toNat k 0)
      (s.countCorrected key).chargeWord key loc
  | .uncorrectable =>
    (s.emit 1 0x0011 at_ op (memSyndrome off 0 k 0)).stopStep ⟨key, 0x0011, none⟩ 0

/-- What a command reads: ranges of memory, engines whose operand buffers it uses, the cluster of its Press. -/
structure Reads where
  ranges : List (Nat × Nat)
  engines : List Nat
  press : Option Nat
deriving DecidableEq, Repr

/-- Reads of memory alone. -/
def Reads.of (ranges : List (Nat × Nat)) : Reads := ⟨ranges, [], none⟩

/-- The reads touch the code word of memory `k` at an address. -/
def Reads.touch (r : Reads) (k : MemKind) (a : Nat) : Bool :=
  let w := codeWord k a
  let n := match k with | .hbm => 64 | .ddr => 64 | .lineMetadata => 256 | _ => 8
  r.ranges.any fun p => overlaps p.1 p.2 w n

/-- One error that the reads of a command meet; an error at a place the command does not read changes nothing.
Engines and the cluster are given by their logical codes. -/
def State.meetError (s : State) (r : Reads) (op : Nat) (e : MemError) : State :=
  match e with
  | .stored a x => if r.touch (s.memOf a.toNat).1 a.toNat then s.applyEcc a.toNat x op 0 else s
  | .metadata a x =>
    if inTier1 a.toNat 1 && r.touch .lineMetadata a.toNat then s.applyEccIn .lineMetadata a.toNat x op 0 else s
  | .operand j off x =>
    match r.engines.find? fun u => ucEngine u == j.val with
    | some u => s.bufferEcc .operandBuffer (unitKey 1 (s.physOf u)) (s.siteSram u) off.toNat x op
    | none => s
  | .press off x =>
    match r.press with
    | some u => s.bufferEcc .pressBuffer (unitKey 3 (s.physOf u)) (s.siteSram u) off.toNat x op
    | none => s

/-- Lines with their mark set that a read touches are counted, each once (Table 6.13, POISON_READS). -/
def State.countPoisonReads (s : State) (ranges : List (Nat × Nat)) : State :=
  let lines := (ranges.flatMap fun p => touchedLines p.1 p.2).eraseDups
  lines.foldl (fun (s : State) l =>
    if (s.eccIndex (l * 64)).isSome && s.isPoisoned (l * 64) 64 then s.bumpEcc (l * 64) 3 else s) s

/-- A command's reads: the poisoned lines they touch, and the errors they meet. -/
def State.meetReads (s : State) (r : Reads) (op : Nat) (es : List MemError) : State :=
  es.foldl (fun (s : State) e => s.meetError r op e) (s.countPoisonReads r.ranges)

end Sys2Proof.Machine
end

