-- ==== Sys2Proof/Machine/Operands.lean ====
section
/-! DEFINITION. The operand forms of the compute dies as an image's payloads give them: engine records, tensors,
ports, epilogues, entries, tables, optimizers, serving slots, cluster plans and die plans (chapters 3 to 6), and
reading and writing the elements they name. -/

namespace Sys2Proof.Machine

/-- `n` records of `size` bytes from offset `off`. -/
def records (bs : List Byte) (off size n : Nat) : List (List Byte) :=
  (List.range n).map fun i => (bs.drop (off + size * i)).take size

/-! ### Format codes (Table 3.7) -/

def fmtFp32 : Nat := 1
def fmtBf16 : Nat := 2
def fmtE4m3 : Nat := 3
def fmtE5m2 : Nat := 4
def fmtInt8 : Nat := 5
def fmtSq8 : Nat := 6
def fmtSq4 : Nat := 7
def fmtInt32 : Nat := 8
def fmtAcc96 : Nat := 9

def fmtBits (f : Nat) : Nat :=
  if f = 1 ∨ f = 8 then 32 else if f = 2 then 16 else if f = 7 then 4 else if f = 9 then 128 else 8

def floatFmt (f : Nat) : Option Fmt :=
  match f with
  | 1 => some fp32
  | 2 => some bf16
  | 3 => some e4m3
  | 4 => some e5m2
  | _ => none

/-! ### Engine configuration record (Table 3.6) -/

structure EngRec where
  pair : Nat
  aFmt : Nat
  bFmt : Nat
  outFmt : Nat
  outMode : Nat
  layout : Nat
  kLog2 : Nat
  accClass : Nat
  kLo : Nat
  kTotal : Nat
  srStream : Nat
  aSrc : Nat
  bSrc : Nat
  dSrc : Nat
  outDst : Nat
  epilogue : Nat
deriving DecidableEq, Repr

def EngRec.ofBytes (b : List Byte) : EngRec :=
  ⟨le b 0 1, le b 1 1, le b 2 1, le b 3 1, le b 4 1, le b 5 1, le b 6 1, le b 7 1, le b 8 4, le b 12 4, le b 16 4,
   le b 20 2, le b 22 2, le b 24 2, le b 26 2, le b 28 2⟩

def EngRec.sat (r : EngRec) : Bool := bit r.outMode 0
def EngRec.sr (r : EngRec) : Bool := bit r.outMode 1
def EngRec.aK (r : EngRec) : Bool := bit r.layout 0
def EngRec.bK (r : EngRec) : Bool := bit r.layout 1

def engRecs (bs : List Byte) : List EngRec := (records bs 16 32 (le bs 0 2)).map EngRec.ofBytes

/-! ### Tensors (Table 4.1) -/

structure Tensor where
  id : Nat
  fmt : Nat
  rank : Nat
  role : Nat
  place : Nat
  layout : Nat
  stash : Nat
  scale : Nat
  d0 : Nat
  d1 : Nat
  d2 : Nat
  d3 : Nat
  home : Nat
  tie : Nat
  base : Nat
  bytes : Nat
deriving DecidableEq, Repr

def Tensor.ofBytes (i : Nat) (b : List Byte) : Tensor :=
  ⟨i, le b 0 1, le b 1 1, le b 2 1, le b 3 1, le b 4 1, le b 5 1, le b 6 2, le b 8 4, le b 12 4, le b 16 4, le b 20 4,
   le b 24 4, le b 28 2, le b 32 8, le b 40 8⟩

def tensorsOf (bs : List Byte) : List Tensor :=
  (enum0 (records bs 16 64 (le bs 0 4))).map fun e => Tensor.ofBytes e.1 e.2

def State.tensors (s : State) : List Tensor := tensorsOf (s.payload 0x0001 packageCode)

def findTensor (ts : List Tensor) (i : Nat) : Option Tensor := ts[i]?

def Tensor.count (t : Tensor) : Nat := t.d0 * t.d1 * t.d2 * t.d3

/-- Bytes of one copy of the elements; SQ4 rows end on whole bytes (R56). -/
def Tensor.elemBytes (t : Tensor) : Nat :=
  if t.fmt = fmtSq4 then (t.d0 + 1) / 2 * (t.d1 * t.d2 * t.d3) else t.count * (fmtBits t.fmt / 8)

/-- First byte of the tensor in the physical map. -/
def Tensor.start (t : Tensor) : Nat :=
  if t.place = 0 then scratchAddr (ucDie t.home) (ucCluster t.home) (ucCore t.home) + t.base else t.base

/-- Storage position of a flat logical element (R125). -/
def Tensor.position (t : Tensor) (n : Nat) : Nat :=
  if t.layout = 0 ∨ t.d0 = 0 ∨ t.d1 = 0 then n
  else
    let i0 := n % t.d0
    let i1 := n / t.d0 % t.d1
    n / (t.d0 * t.d1) * (t.d0 * t.d1) + (i1 / 32 * (t.d0 / 32) + i0 / 32) * 1024 + i1 % 32 * 32 + i0 % 32

/-- Byte offset of an element, and its bit offset in that byte. -/
def Tensor.place_ (t : Tensor) (n : Nat) : Nat × Nat :=
  if t.fmt = fmtSq4 then
    if t.layout = 0 then (n / (max 1 t.d0) * ((t.d0 + 1) / 2) + n % (max 1 t.d0) / 2, n % (max 1 t.d0) % 2 * 4)
    else (t.position n / 2, t.position n % 2 * 4)
  else (t.position n * (fmtBits t.fmt / 8), 0)

/-- Distance between the copies of a stashed weight (R126). -/
def Tensor.copyStep (t : Tensor) : Nat := t.bytes / max 1 t.stash

/-- Address of an element in copy `v`. -/
def Tensor.addr (t : Tensor) (v n : Nat) : Nat := t.start + v % max 1 t.stash * t.copyStep + (t.place_ n).1

def elemSize (f : Nat) : Nat := max 1 (fmtBits f / 8)

def State.readElem (s : State) (t : Tensor) (v n : Nat) : Nat :=
  let x := leNat (s.read (t.addr v n) (elemSize t.fmt))
  if t.fmt = fmtSq4 then bits x ((t.place_ n).2 + 3) (t.place_ n).2 else x

def State.writeElem (s : State) (t : Tensor) (v n raw : Nat) : State :=
  if t.fmt = fmtSq4 then
    let x := leNat (s.read (t.addr v n) 1)
    s.write (t.addr v n) (toLe 1 (setBits x ((t.place_ n).2 + 3) (t.place_ n).2 raw))
  else s.write (t.addr v n) (toLe (elemSize t.fmt) raw)

/-- An integer as a number. -/
def Fv.ofInt (i : Int) : Fv := .fin (decide (i < 0)) i.natAbs 0

/-- The value of a raw element that needs no scale; SQ elements give their integer q. -/
def rawValue (fmt raw : Nat) : Fv :=
  match floatFmt fmt with
  | some f => f.decode raw
  | none =>
    if fmt = fmtInt32 then .ofInt (sext 32 raw)
    else if fmt = fmtSq4 then .ofInt (sext 4 raw)
    else if fmt = fmtAcc96 then (Acc.ofBytes (toLe 16 raw)).value (if accClassOf (toLe 16 raw) = 2 then -32 else 0) fvOne fvOne
    else .ofInt (sext 8 raw)

/-- Scale of the row an element lies in (R56): element `row` of the scale vector. -/
def State.scaleOf (s : State) (ts : List Tensor) (t : Tensor) (n : Nat) : Nat :=
  match findTensor ts t.scale with
  | some sc => s.readElem sc 0 (n / max 1 t.d0)
  | none => one32

/-- R527: an element as FP32 bits. -/
def toF32 (fmt raw scale : Nat) : Nat :=
  if fmt = fmtFp32 then r32 (d32 raw)
  else if fmt = fmtSq8 ∨ fmt = fmtSq4 then r32 ((d32 scale).mul (rawValue fmt raw))
  else r32 (rawValue fmt raw)

def State.elemF32 (s : State) (ts : List Tensor) (t : Tensor) (v n : Nat) : Nat :=
  toF32 t.fmt (s.readElem t v n) (if t.fmt = fmtSq8 ∨ t.fmt = fmtSq4 then s.scaleOf ts t n else one32)

/-- Nearest integer, ties to even, of ±num/den. -/
def nearestInt (neg : Bool) (num den : Nat) : Int :=
  let n := num / den
  let t := num % den
  let n := if den < 2 * t ∨ (2 * t = den ∧ n % 2 = 1) then n + 1 else n
  signed neg n

/-- R527: an FP32 value into an integer format, and whether it was clamped. -/
def toIntClamp (lo hi : Int) (v : Fv) : Int × Bool :=
  match v with
  | .nan => (0, false)
  | .inf s => (if s then lo else hi, true)
  | .fin s m e =>
    let q := Fv.ratio m e
    let i := nearestInt s q.1 q.2
    (clamp lo hi i, decide (clamp lo hi i ≠ i))

/-- An FP32 value converted to an output format; the flag says an integer clamp took place. -/
def fromF32 (fmt : Nat) (sat : Bool) (draw : Option Nat) (x : Nat) : Nat × Bool :=
  match floatFmt fmt with
  | some f => (f.encode sat draw (d32 x), false)
  | none =>
    let r := if fmt = fmtInt32 then toIntClamp (-2147483648) 2147483647 (d32 x) else toIntClamp (-128) 127 (d32 x)
    ((r.1 % 2 ^ fmtBits fmt).toNat, r.2)

/-! ### Core schedules (Tables 4.2 to 4.4) -/

structure Port where
  tensor : Nat
  access : Nat
  stream : Nat
  mbStride : Nat
  origin : Nat
deriving DecidableEq, Repr

def Port.ofBytes (b : List Byte) : Port := ⟨le b 0 2, le b 2 1, le b 3 1, le b 4 4, le b 8 8⟩

structure EpiStep where
  op : Nat
  act : Nat
  port : Nat
  const : Nat
deriving DecidableEq, Repr

/-- The steps of an epilogue record. -/
def epilogueOf (b : List Byte) : List EpiStep :=
  (List.range (min 7 (le b 0 1))).map fun i =>
    ⟨le b (8 + 8 * i) 1, le b (9 + 8 * i) 1, le b (10 + 8 * i) 2, le b (12 + 8 * i) 4⟩

structure Entry where
  op : Nat
  record : Nat
  engines : Nat
  mb : Nat
  flags : Nat
  wver : Nat
  wait : Nat
  signal : Nat
  ports : List Nat
  rows : Nat
  param : List Byte
deriving DecidableEq, Repr

def Entry.ofBytes (b : List Byte) : Entry :=
  ⟨le b 0 2, le b 2 2, le b 4 1, le b 5 1, le b 6 1, le b 7 1, le b 8 2, le b 10 2,
   (List.range 6).map fun i => le b (12 + 2 * i) 2, le b 24 4, sliceBytes b 32 16⟩

structure Schedule where
  entries : List Entry
  ports : List Port
  epilogues : List (List EpiStep)
  microBatches : Nat
deriving DecidableEq, Repr

def Schedule.ofBytes (b : List Byte) : Schedule :=
  let np := le b 4 2
  let ne := le b 6 2
  ⟨(records b (16 + 16 * np + 64 * ne) 48 (le b 0 4)).map Entry.ofBytes,
   (records b 16 16 np).map Port.ofBytes,
   (records b (16 + 16 * np) 64 ne).map epilogueOf, le b 8 1⟩

/-- Logical cores that have a schedule, with it. -/
def State.schedules (s : State) : List (Nat × Schedule) :=
  (s.sectionsOf 0x0004).map fun x => (x.target, Schedule.ofBytes x.payload)

def State.schedule (s : State) (core : Nat) : Option Schedule :=
  ((s.sectionsOf 0x0004).find? fun x => x.target == core).map fun x => Schedule.ofBytes x.payload

def portNone : Nat := 0xFFFF

/-! ### Tables (Tables 5.1, 5.5, 5.6) -/

structure TableD where
  idx : Nat
  rowFmt : Nat
  opt : Nat
  pool : Nat
  staleness : Nat
  groupLog2 : Nat
  sliceLog2 : Nat
  oor : Nat
  flags : Nat
  rows : Nat
  dimUsed : Nat
  mbBits : Nat
  sampleBits : Nat
  bagBits : Nat
  srStream : Nat
  uniqueMax : Nat
  base : List Nat
  pend : List Nat
deriving DecidableEq, Repr

def TableD.ofBytes (i : Nat) (b : List Byte) : TableD :=
  ⟨i, le b 0 1, le b 1 1, le b 2 1, le b 3 1, le b 4 1, le b 5 1, le b 6 1, le b 7 1, le b 8 8, le b 16 2, le b 18 1,
   le b 19 1, le b 20 1, le b 24 4, le b 28 4, (List.range 4).map fun n => le b (32 + 8 * n) 8,
   (List.range 4).map fun n => le b (64 + 8 * n) 8⟩

structure OptD where
  kind : Nat
  flags : Nat
  lrTensor : Nat
  lr : Nat
  eps : Nat
  beta1 : Nat
  omb1 : Nat
  beta2 : Nat
  omb2 : Nat
  decay : Nat
deriving DecidableEq, Repr

def OptD.ofBytes (b : List Byte) : OptD :=
  ⟨le b 0 1, le b 1 1, le b 2 2, le b 4 4, le b 8 4, le b 12 4, le b 16 4, le b 20 4, le b 24 4, le b 28 4⟩

structure NtsD where
  table : Nat
  fmt : Nat
  flags : Nat
  rowsOut : Nat
  regionA : Nat
  regionB : Nat
  rowList : Nat
deriving DecidableEq, Repr

def NtsD.ofBytes (b : List Byte) : NtsD :=
  ⟨le b 0 2, le b 2 1, le b 3 1, le b 4 4, le b 8 8, le b 16 8, le b 24 2⟩

structure EmbD where
  tables : List TableD
  opts : List OptD
  slots : List NtsD
  t0 : Nat
deriving DecidableEq, Repr

def EmbD.ofBytes (b : List Byte) : EmbD :=
  let nt := le b 0 2
  let no := le b 2 2
  let nn := le b 4 2
  ⟨(enum0 (records b 16 128 nt)).map fun e => TableD.ofBytes e.1 e.2,
   (records b (16 + 128 * nt) 32 no).map OptD.ofBytes,
   (records b (16 + 128 * nt + 32 * no) 32 nn).map NtsD.ofBytes, le b 8 8⟩

def State.embD (s : State) : EmbD := EmbD.ofBytes (s.payload 0x0006 packageCode)

/-- Slice width W_s (R159). -/
def TableD.ws (t : TableD) : Nat := 2 ^ t.sliceLog2

def TableD.dim (t : TableD) : Nat := 2 ^ (2 + t.groupLog2 + t.sliceLog2)

def TableD.keyBits (t : TableD) : Nat := t.mbBits + t.groupLog2 + t.sampleBits + t.bagBits

def TableD.valueBytes (t : TableD) : Nat := t.ws * (fmtBits t.rowFmt / 8)

def optStateBytes (o : OptD) (ws : Nat) : Nat := if o.kind = 1 then 4 else if o.kind = 2 then 8 * ws else 0

/-- ROW_STRIDE (R160). -/
def EmbD.stride (e : EmbD) (t : TableD) : Nat :=
  roundUp (t.valueBytes + match e.opts[t.opt]? with | some o => optStateBytes o t.ws | none => 0) 16

/-- A pending slot (R171). -/
def TableD.pendSlot (t : TableD) : Nat := roundUp (8 + 4 * t.ws + 8) 16

def TableD.pendBanks (t : TableD) : Nat := if t.staleness = 0 then 1 else 2

def TableD.rowAddr (t : TableD) (e : EmbD) (d x : Nat) : Nat := t.base.getD d 0 + x * e.stride t

/-- Row of a serving slot in bytes (R182). -/
def NtsD.rowBytes (n : NtsD) (t : TableD) : Nat :=
  roundUp ((if n.fmt = fmtSq8 then 4 else 0) + t.dimUsed * (fmtBits n.fmt / 8)) 64

/-! ### Cluster plans (Table 5.3) -/

structure Part where
  table : Nat
  bytes : Nat
  offset : Nat
deriving DecidableEq, Repr

structure Job where
  kind : Nat
  mb : Nat
  table : Nat
  wait : Nat
  signal : Nat
  index : Nat
  offset : Nat
  weight : Nat
  data : Nat
  sort : Nat
  posLo : Nat
  posHi : Nat
deriving DecidableEq, Repr

def Job.ofBytes (b : List Byte) : Job :=
  ⟨le b 0 1, le b 1 1, le b 2 2, le b 4 2, le b 6 2, le b 8 2, le b 10 2, le b 12 2, le b 14 2, le b 16 2, le b 24 8,
   le b 32 8⟩

structure ClusterPlan where
  parts : List Part
  jobs : List Job
deriving DecidableEq, Repr

def ClusterPlan.ofBytes (b : List Byte) : ClusterPlan :=
  let np := le b 0 2
  ⟨(records b 16 16 np).map fun r => ⟨le r 0 2, le r 4 4, le r 8 8⟩,
   (records b (16 + 16 * np) 64 (le b 2 2)).map Job.ofBytes⟩

def State.plan (s : State) (d c : Nat) : ClusterPlan := ClusterPlan.ofBytes (s.payload 0x0003 (clusterCode d c))

/-! ### Die plans (Tables 6.2, 6.4) -/

structure StreamD where
  core : Nat
  stream : Nat
  dir : Nat
  depth : Nat
  base : Nat
  chunk : Nat
  ring : Nat
  count : List Nat
  stride : List Int
deriving DecidableEq, Repr

def StreamD.ofBytes (b : List Byte) : StreamD :=
  ⟨le b 0 4, le b 4 1, le b 5 1, le b 6 2, le b 8 8, le b 16 4, le b 20 4,
   (List.range 3).map fun i => le b (24 + 4 * i) 4, (List.range 3).map fun i => sext 64 (le b (40 + 8 * i) 8)⟩

structure LookD where
  table : Nat
  depth : Nat
  rows : Nat
  base : Nat
  indexTensor : Nat
deriving DecidableEq, Repr

def LookD.ofBytes (b : List Byte) : LookD := ⟨le b 0 2, le b 2 1, le b 4 4, le b 8 8, le b 16 2⟩

structure DiePlan where
  streams : List StreamD
  looks : List LookD
  grottoPlain : Nat
deriving DecidableEq, Repr

def DiePlan.ofBytes (b : List Byte) : DiePlan :=
  let ns := le b 0 2
  ⟨(records b 16 64 ns).map StreamD.ofBytes, (records b (16 + 64 * ns) 32 (le b 2 2)).map LookD.ofBytes, le b 4 4⟩

def State.diePlan (s : State) (d : Nat) : DiePlan := DiePlan.ofBytes (s.payload 0x0002 (dieCode d))

/-- Chunks per step, and the address of chunk `n` with i0 fastest (R197). -/
def StreamD.total (x : StreamD) : Nat := x.count.getD 0 1 * x.count.getD 1 1 * x.count.getD 2 1

def StreamD.chunkPos (x : StreamD) (n : Nat) : Int :=
  let c0 := max 1 (x.count.getD 0 1)
  let c1 := max 1 (x.count.getD 1 1)
  let i0 := n % c0
  let i1 := n / c0 % c1
  let i2 := n / (c0 * c1)
  (x.base : Int) + i0 * x.stride.getD 0 0 + i1 * x.stride.getD 1 0 + i2 * x.stride.getD 2 0

/-- A chunk's address; the load check refuses one below 0 (R198). -/
def StreamD.chunkAddr (x : StreamD) (n : Nat) : Nat := (x.chunkPos n).toNat

/-! ### The generator (R421, R422) -/

def State.genKey (s : State) : List Byte := (s.payload 0x0007 packageCode).take 16

def State.dpRank (s : State) : Nat := s.fld Reg.detRankDpRank

/-- The draw of a stream, step and element. -/
def genDraw (key : List Byte) (rank stream step elem : Nat) : Nat :=
  let k := (sliceBytes key 0 16).map BitVec.toNat
  let k := if 2 ^ 31 ≤ stream then
      (enum0 k).map fun e => if e.1 = 14 then e.2 ^^^ rank / 256 % 256 else if e.1 = 15 then e.2 ^^^ rank % 256 else e.2
    else k
  let blk := (toBe 4 stream ++ toBe 5 (step % 2 ^ 40) ++ toBe 7 elem).map BitVec.toNat
  ((enum0 (aes128 k blk)).map fun e => e.2 * 256 ^ e.1).sum

/-- The low 24 bits of a draw in the running step. -/
def State.draw24 (s : State) (stream step elem : Nat) : Nat := genDraw s.genKey s.dpRank stream step elem % 2 ^ 24

end Sys2Proof.Machine
end

