-- ==== Sys2Proof/Machine/Vector.lean ====
section
/-! DEFINITION. The row operations of the dense towers on FP32 bits: normalisation, the soft maximum and their
gradients, activations, SQ conversion, dot products and streaming attention (R131 to R151). -/

namespace Sys2Proof.Machine

def fvInt (i : Int) : Fv := .fin (decide (i < 0)) i.natAbs 0

/-- A count as an FP32 value. -/
def nfOf (n : Nat) : Nat := r32 (fvInt n)

/-- tree_sum of a row; +0 for an empty one. -/
def tsum (l : List Nat) : Nat := (treeSum (l.map some)).getD 0

def zipN (f : Nat → Nat → Nat) (a b : List Nat) : List Nat := (a.zip b).map fun p => f p.1 p.2

def zip3N (f : Nat → Nat → Nat → Nat) (a b c : List Nat) : List Nat :=
  (a.zip (b.zip c)).map fun p => f p.1 p.2.1 p.2.2

def negInf32 : Nat := 0xFF800000
def nan32 : Nat := 0x7FC00000

/-- Maximum over a row (R79). -/
def rowMax : List Nat → Nat
  | [] => negInf32
  | x :: xs => xs.foldl fMax (fMax x x)

/-! ### Normalisation (R134, R138) -/

def layerNormHat (x : List Nat) (mu r : Nat) : List Nat := x.map fun v => fMul (fSub v mu) r

/-- The row's outputs and the saved (μ, r). -/
def layerNorm (x gamma beta : List Nat) (eps : Nat) : List Nat × List Nat :=
  let nf := nfOf x.length
  let mu := fDiv (tsum x) nf
  let d := x.map fun v => fSub v mu
  let var := fDiv (tsum (d.map fun v => fMul v v)) nf
  let r := fRsqrt (fAdd var eps)
  (zip3N fFma (layerNormHat x mu r) gamma beta, [mu, r])

def rmsNorm (x gamma : List Nat) (eps : Nat) : List Nat × List Nat :=
  let ms := fDiv (tsum (x.map fun v => fMul v v)) (nfOf x.length)
  let r := fRsqrt (fAdd ms eps)
  (zipN fMul (x.map fun v => fMul v r) gamma, [0, r])

/-- R138: dx, the γ parts and the β parts of one row. -/
def normBwd (rms : Bool) (x gamma dy : List Nat) (mu r : Nat) : List Nat × List Nat × List Nat :=
  let nf := nfOf x.length
  let xh := if rms then x.map fun v => fMul v r else layerNormHat x mu r
  let g := zipN fMul dy gamma
  let b := fDiv (tsum (zipN fMul g xh)) nf
  let dx :=
    if rms then zipN (fun gi xi => fMul r (fSub gi (fMul xi b))) g xh
    else
      let a := fDiv (tsum g) nf
      zipN (fun gi xi => fMul r (fSub (fSub gi a) (fMul xi b))) g xh
  (dx, zipN fMul dy xh, dy)

/-! ### The soft maximum (R135, R139) -/

def softmaxOf (x : List Nat) (m s : Nat) : List Nat :=
  if m = negInf32 then x.map fun _ => 0 else x.map fun v => fDiv (fExp (fSub v m)) s

/-- The row's outputs and the saved (m, s). -/
def softmaxRow (x : List Nat) : List Nat × List Nat :=
  let m := rowMax x
  let s := if m = negInf32 then 0 else tsum (x.map fun v => fExp (fSub v m))
  (softmaxOf x m s, [m, s])

def softmaxBwd (x dy : List Nat) (m s : Nat) : List Nat :=
  if m = negInf32 then x.map fun _ => 0
  else
    let y := softmaxOf x m s
    let t := tsum (zipN fMul dy y)
    zipN (fun yi di => fMul yi (fSub di t)) y dy

/-! ### Activations (Tables 4.5, 4.8) -/

def actOf (code x : Nat) : Nat :=
  match code with
  | 1 => fMax x 0
  | 2 => fGelu x
  | 3 => fSilu x
  | 4 => fSigmoid x
  | 5 => fTanh x
  | 6 => fSoftplus x
  | _ => x

def half32 : Nat := 0x3F000000
def minusHalf32 : Nat := 0xBF000000
def invSqrt2Pi : Nat := 0x3ECC422A

/-- The gradient of an activation at a saved input or output `x` (R140). -/
def actBwd (code x dy : Nat) : Nat :=
  if (d32 x).isNan && code != 0 then nan32
  else
    match code with
    | 1 => fMul dy (if (d32 0).lt (d32 x) then one32 else 0)
    | 2 =>
      let t4 := fMul half32 (fAdd one32 (fErf (fMul x invSqrt2)))
      let t8 := fMul (fExp (fMul (fMul x x) minusHalf32)) invSqrt2Pi
      fMul dy (fAdd t4 (fMul x t8))
    | 3 =>
      let s := fSigmoid x
      fMul dy (fMul s (fAdd one32 (fMul x (fSub one32 s))))
    | 4 => fMul dy (fMul x (fSub one32 x))
    | 5 => fMul dy (fSub one32 (fMul x x))
    | 6 => fMul dy (fSigmoid x)
    | _ => dy

/-! ### Conversion to SQ (R131) -/

/-- Nearest integer to (−1)^neg × num / den, ties to even. -/
def nearestQuot (neg : Bool) (num den : Nat) : Int :=
  let n := num / den
  let t := num % den
  signed neg (if den < 2 * t ∨ (2 * t = den ∧ n % 2 = 1) then n + 1 else n)

/-- x / s rounded to the nearest integer, for finite x and finite non-zero s. -/
def quotInt (x s : Fv) : Int :=
  match x, s with
  | .fin nx mx ex, .fin _ ms es =>
    if ms = 0 then 0
    else if es ≤ ex then nearestQuot nx (mx * pow2 (ex - es)) ms else nearestQuot nx mx (ms * pow2 (es - ex))
  | _, _ => 0

/-- The scale and the values of one row. -/
def quantRow (q : Nat) (x : List Nat) : Nat × List Int :=
  let m := rowMax (x.map fAbs)
  match d32 m with
  | .nan => (nan32, x.map fun _ => 0)
  | .inf _ => (0x7F800000, x.map fun v =>
      match d32 v with
      | .inf s => if s then -(q : Int) else (q : Int)
      | _ => 0)
  | .fin _ mm _ =>
    if x = [] ∨ mm = 0 then (0, x.map fun _ => 0)
    else
      let s := fDiv m (nfOf q)
      let s := if s = 0 then 1 else s
      (s, x.map fun v => clamp (-(q : Int)) q (quotInt (d32 v) (d32 s)))

/-! ### Products of two short vectors -/

/-- Sum over the canonical tree of FP32 products at the keys given; none where no key is present (R70). -/
def dotTree (xs : List (Nat × Nat × Nat)) : Option Nat :=
  ((keyTree fAdd 40 (xs.map fun p => (p.1, fMul p.2.1 p.2.2))).head?).map Prod.snd

/-- The exact sum of FP8 products, as FP32 (R65, R67). -/
def dotExact (xs : List (Nat × Nat × Nat)) : Nat :=
  r32 ((xs.foldl (fun a p => a.add (Acc.product (d32 p.2.1) (d32 p.2.2))) Acc.zero).value (-32) fvOne fvOne)

/-- One product element as FP32: exact for FP8 operands, the tree for BF16 ones. -/
def dotElem (fp8 : Bool) (xs : List (Nat × Nat × Nat)) : Nat :=
  if fp8 then dotExact xs else (dotTree xs).getD 0

/-- Vectors paired with their index. -/
def keyed (a b : List Nat) : List (Nat × Nat × Nat) := (List.range a.length).zip (a.zip b)

/-! ### Streaming attention (R148 to R151) -/

/-- A block's triple: maximum, sum, one value per column. -/
structure Triple where
  m : Nat
  l : Nat
  o : List Nat
deriving DecidableEq, Repr

def Triple.merge (a b : Triple) : Triple :=
  let mx := fMax a.m b.m
  let fa := fExp (fSub a.m mx)
  let fb := fExp (fSub b.m mx)
  ⟨mx, fAdd (fMul a.l fa) (fMul b.l fb), zipN (fun x y => fAdd (fMul x fa) (fMul y fb)) a.o b.o⟩

/-- What the parameters of an attention entry fix. -/
structure AttnParam where
  fp8 : Bool
  /-- V is FP8: probabilities round to E4M3. -/
  fp8V : Bool
  seqK : Nat
  scale : Nat
  mask : Nat
  headDim : Nat
  offset : Int
deriving DecidableEq, Repr

/-- R148, for the query row with index `i` and key length `len`. -/
def AttnParam.visible (p : AttnParam) (i : Nat) (len : Int) (j : Nat) : Bool :=
  match p.mask with
  | 1 => decide ((j : Int) ≤ (i : Int) + p.offset)
  | 2 => decide ((j : Int) < len)
  | _ => true

/-- A probability rounded to fmtP, as FP32 bits. -/
def AttnParam.roundP (p : AttnParam) (x : Nat) : Nat :=
  if p.fp8V then r32 (e4m3.decode (e4m3.encode true none (d32 x)))
  else r32 (bf16.decode (bf16.encode true none (d32 x)))

/-- One block: keys `js` visible, with their key and value rows. -/
def AttnParam.block (p : AttnParam) (b : Nat) (q : List Nat) (js : List (Nat × List Nat × List Nat)) : Option Triple :=
  if js = [] then none
  else
    let z := js.map fun e => (e.1 - 256 * b, fMul (dotElem p.fp8 (keyed q e.2.1)) p.scale, e.2.2)
    let m := rowMax (z.map fun e => e.2.1)
    let ps := z.map fun e => (e.1, p.roundP (fExp (fSub e.2.1 m)), e.2.2)
    let l := ((keyTree fAdd 9 (ps.map fun e => (e.1, e.2.1))).head?).map Prod.snd
    let o := (List.range p.headDim).map fun c => dotElem p.fp8 (ps.map fun e => (e.1, e.2.1, e.2.2.getD c 0))
    some ⟨m, l.getD 0, o⟩

/-- The output row and the first two saved values; `kv j` gives the key and value rows. -/
def AttnParam.forward (p : AttnParam) (i : Nat) (len : Int) (q : List Nat) (kv : Nat → List Nat × List Nat) :
    List Nat × List Nat :=
  let blocks := (List.range ((p.seqK + 255) / 256)).map fun b =>
    let js := ((List.range (min 256 (p.seqK - 256 * b))).map (256 * b + ·)).filter (p.visible i len)
    p.block b q (js.map fun j => (j, (kv j).1, (kv j).2))
  match tree Triple.merge blocks with
  | none => ((List.range p.headDim).map fun _ => 0, [negInf32, 0])
  | some t => (t.o.map fun v => fDiv v t.l, [t.m, t.l])

/-- R151 for one visible pair: the probability and dS. -/
def AttnParam.pair (p : AttnParam) (q k v dO : List Nat) (m l dlt : Nat) : Nat × Nat :=
  let z := fMul (dotElem p.fp8 (keyed q k)) p.scale
  let pt := p.roundP (fDiv (fExp (fSub z m)) l)
  let dP := (dotTree (keyed dO v)).getD 0
  (pt, fMul (fMul pt (fSub dP dlt)) p.scale)

end Sys2Proof.Machine
end

