-- ==== Sys2Proof/Machine/Ports.lean ====
section
/-! DEFINITION. The entries of a core schedule with their operands: which elements each port reads or writes, reading
them from memory or from a stream, and writing results (R125 to R132, R143, R197). -/

namespace Sys2Proof.Machine

/-! ### Entries with their context -/

/-- A schedule entry with its core, its place and the records of its engines. -/
structure Ent where
  die : Nat
  cl : Nat
  core : Nat
  idx : Nat
  e : Entry
  sch : Schedule
  recs : List (Nat × EngRec)
  ts : List Tensor
deriving DecidableEq, Repr

def engList (mask : Nat) : List Nat := (List.range 8).filter (bit mask)

/-- The record of an engine that an entry names. -/
def State.engRec (s : State) (d c k e rec : Nat) : Option EngRec :=
  if rec = 0xFFFF then none else (engRecs (s.payload 0x0005 (engineCode d c k e)))[rec]?

def State.entryAt (s : State) (d c k idx : Nat) : Option Ent :=
  match s.schedule (coreCode d c k) with
  | none => none
  | some sch =>
    match sch.entries[idx]? with
    | none => none
    | some e =>
      let recs := (engList e.engines).filterMap fun j => (s.engRec d c k j e.record).map fun r => (j, r)
      some ⟨d, c, k, idx, e, sch, recs, s.tensors⟩

/-- The record that governs an entry's output: the first of its engines'. Where records at the same index differ in
OUT_FMT, OUT_MODE, SR_STREAM, LAYOUT or EPILOGUE, the spec does not say which of them the entry follows (DESIGN CHOICE, log
entry 205). -/
def Ent.rec0 (x : Ent) : Option EngRec := (x.recs.head?).map Prod.snd

/-- 32-bit word `i` of the entry's parameters. -/
def Ent.p32 (x : Ent) (off : Nat) : Nat := le x.e.param off 4

def Ent.p8 (x : Ent) (off : Nat) : Nat := le x.e.param off 1

/-- The port in slot P`j`. -/
def Ent.portNo (x : Ent) (j : Nat) : Nat := x.e.ports.getD j portNone

def Ent.port (x : Ent) (p : Nat) : Option Port := if p = portNone then none else x.sch.ports[p]?

def Ent.tensorOf (x : Ent) (p : Nat) : Option Tensor := (x.port p).bind fun q => findTensor x.ts q.tensor

/-- The tensor in slot P`j`. -/
def Ent.slotTensor (x : Ent) (j : Nat) : Option Tensor := x.tensorOf (x.portNo j)

def Ent.d0 (x : Ent) (j : Nat) : Nat :=
  match x.slotTensor j with
  | some t => t.d0
  | none => 0

def Ent.used (x : Ent) (j : Nat) : Bool := x.portNo j != portNone

/-- First element of a port for the entry's micro-batch (R129). -/
def Ent.origin (x : Ent) (p : Nat) : Nat :=
  match x.port p with
  | some q => q.origin + if x.e.mb = 0xFF then 0 else x.e.mb * q.mbStride
  | none => 0

/-- K indices an engine covers: [K_LO, K_LO + 2^K_SIZE_LOG2) below K_TOTAL. -/
def EngRec.kRange (r : EngRec) : Nat × Nat := (r.kLo, min (r.kLo + 2 ^ r.kLog2) r.kTotal)

/-- First and end K index over the entry's engines. -/
def Ent.kHull (x : Ent) : Nat × Nat :=
  x.recs.foldl (fun a r => (min a.1 r.2.kRange.1, max a.2 r.2.kRange.2))
    (match x.rec0 with | some r => r.kRange | none => (0, 0))

/-- K indices that some engine covers. -/
def Ent.kSet (x : Ent) : List Nat :=
  let h := x.kHull
  ((List.range (h.2 - h.1)).map (h.1 + ·)).filter fun k =>
    x.recs.any fun r => decide (r.2.kRange.1 ≤ k ∧ k < r.2.kRange.2)

/-- Engines that run the entry: an EXCHANGE uses none (R154). -/
def Ent.engineMask (x : Ent) : Nat := if x.e.op = 0x11 then 0 else x.e.engines

/-- The epilogue of the entry's record. -/
def Ent.epilogue (x : Ent) : List EpiStep :=
  match x.rec0 with
  | some r => if r.epilogue = 0xFFFF then [] else x.sch.epilogues.getD r.epilogue []
  | none => []

def headDimOf (code : Nat) : Nat := if code = 0 then 64 else if code = 1 then 128 else 256

/-! ### Accesses -/

/-- A block of elements: element (i, j) is number origin + off + i × stride + j. -/
structure Grid where
  rows : Nat
  cols : Nat
  stride : Nat
  off : Nat
deriving DecidableEq, Repr

/-- One access of an entry. Slots 0 to 5 are P0 to P5; 6 is dV; 16 + i is the port of epilogue step i. -/
structure PortUse where
  slot : Nat
  port : Nat
  write : Bool
  grid : Grid
deriving DecidableEq, Repr

/-- The accesses of the epilogue, for `m` × `n` results. -/
def Ent.epiAccess (x : Ent) (m n : Nat) : List PortUse :=
  (enum0 x.epilogue).filterMap fun p =>
    let st := p.2
    let d := match x.tensorOf st.port with | some t => t.d0 | none => 0
    match st.op with
    | 1 => some ⟨16 + p.1, st.port, false, ⟨1, n, d, 0⟩⟩
    | 2 => some ⟨16 + p.1, st.port, false, ⟨1, n, d, 0⟩⟩
    | 5 => some ⟨16 + p.1, st.port, false, ⟨m, n, d, 0⟩⟩
    | 6 => some ⟨16 + p.1, st.port, false, ⟨m, n, d, 0⟩⟩
    | 10 => some ⟨16 + p.1, st.port, true, ⟨m, n, d, 0⟩⟩
    | _ => none

/-- Elements that an entry's share of an exchange result holds at most; an all-gather's holds the rows of all
participants. -/
def Ent.exchangeShare (x : Ent) : Nat :=
  match x.slotTensor 3 with
  | some t =>
    let left := t.count - x.origin (x.portNo 3)
    if x.p8 0 = 2 then left else min (x.e.rows * x.d0 0) left
  | none => 0

/-- All accesses of an entry, in slot order (Table 4.6). -/
def Ent.accesses (x : Ent) : List PortUse :=
  let r (j : Nat) (g : Grid) : List PortUse := if x.used j then [⟨j, x.portNo j, false, g⟩] else []
  let w (j : Nat) (g : Grid) : List PortUse := if x.used j then [⟨j, x.portNo j, true, g⟩] else []
  let m := x.e.rows
  let row (j : Nat) : Grid := ⟨m, x.d0 j, x.d0 j, 0⟩
  let flat (n : Nat) : Grid := ⟨1, n, n, 0⟩
  let hd := headDimOf (x.p8 9)
  let hrow (j n : Nat) : Grid := ⟨n, hd, x.d0 j, 0⟩
  match x.e.op with
  | 0x01 =>
    let n := x.p32 0
    let h := x.kHull
    let kn := h.2 - h.1
    let aK := match x.rec0 with | some q => q.aK | none => true
    let bK := match x.rec0 with | some q => q.bK | none => true
    let mat (isK : Bool) (j q : Nat) : Grid :=
      if isK then ⟨q, kn, x.d0 j, h.1⟩ else ⟨kn, q, x.d0 j, h.1 * x.d0 j⟩
    r 0 (mat aK 0 m) ++ r 1 (mat bK 1 n) ++ r 2 ⟨m, n, x.d0 2, 0⟩ ++ w 3 ⟨m, n, x.d0 3, 0⟩ ++ x.epiAccess m n
  | 0x02 => r 0 ⟨m, x.d0 3, x.d0 0, 0⟩ ++ r 1 ⟨m, x.d0 3, x.d0 1, 0⟩ ++ w 3 (row 3)
  | 0x03 => r 0 (row 0) ++ w 3 ⟨m, x.d0 0, x.d0 3, 0⟩ ++ x.epiAccess m (x.d0 0)
  | 0x04 => r 0 (row 0) ++ r 1 ⟨2, x.d0 0, x.d0 1, 0⟩ ++ w 2 (flat (2 * m)) ++ w 3 ⟨m, x.d0 0, x.d0 3, 0⟩
  | 0x05 => r 0 (row 0) ++ r 1 ⟨1, x.d0 0, x.d0 1, 0⟩ ++ w 2 (flat (2 * m)) ++ w 3 ⟨m, x.d0 0, x.d0 3, 0⟩
  | 0x06 => r 0 (row 0) ++ r 1 ⟨m, x.d0 0, x.d0 1, 0⟩ ++ w 2 (flat (2 * m)) ++ w 3 ⟨m, x.d0 0, x.d0 3, 0⟩
  | 0x07 => r 0 (row 0) ++ w 3 (flat m)
  | 0x08 => r 0 (hrow 0 m) ++ r 1 (hrow 1 (x.p32 0)) ++ r 2 (hrow 2 (x.p32 0)) ++ w 3 (hrow 3 m) ++
      w 4 (flat (4 * m)) ++ r 5 (flat m)
  | 0x09 => r 0 (row 0) ++ r 1 ⟨m, x.d0 0, x.d0 1, 0⟩ ++ w 4 ⟨m, 1, 4, 2⟩
  | 0x0A => r 0 (hrow 0 m) ++ r 1 (hrow 1 (x.p32 0)) ++ r 2 (hrow 2 (x.p32 0)) ++ r 3 (hrow 3 m) ++
      r 4 (flat (4 * m)) ++ w 5 (hrow 5 m)
  | 0x0B =>
    let outer := match x.slotTensor 5 with | some t => t.d0 * t.d1 | none => 0
    r 0 (hrow 0 m) ++ r 1 (hrow 1 (x.p32 0)) ++ r 2 (hrow 2 (x.p32 0)) ++ r 3 (hrow 3 m) ++ r 4 (flat (4 * m)) ++
      w 5 (hrow 5 (x.p32 0)) ++
      if x.used 5 then [⟨6, x.portNo 5, true, ⟨x.p32 0, hd, x.d0 5, outer⟩⟩] else []
  | 0x0C => r 0 (row 0) ++ r 1 ⟨1, x.d0 0, x.d0 1, 0⟩ ++ r 2 (flat (2 * m)) ++ r 3 ⟨m, x.d0 0, x.d0 3, 0⟩ ++
      w 4 ⟨m, x.d0 0, x.d0 4, 0⟩ ++ w 5 ⟨if x.p8 0 = 0 then 2 else 1, x.d0 0, x.d0 5, 0⟩
  | 0x0D => r 0 (row 0) ++ r 1 ⟨m, x.d0 0, x.d0 1, 0⟩ ++ r 2 (flat (2 * m)) ++ r 3 ⟨m, x.d0 0, x.d0 3, 0⟩ ++
      w 4 ⟨m, x.d0 0, x.d0 4, 0⟩
  | 0x0E => r 0 ⟨m, x.d0 3, x.d0 0, 0⟩ ++ r 3 (row 3) ++ w 4 ⟨m, x.d0 3, x.d0 4, 0⟩
  | 0x0F => r 0 (row 0) ++ w 3 ⟨m, x.d0 0, x.d0 3, 0⟩
  | 0x10 => r 0 (row 0) ++ r 1 ⟨m, x.d0 0, x.d0 1, 0⟩ ++ r 2 ⟨m, x.d0 0, x.d0 2, 0⟩ ++ r 3 ⟨m, x.d0 0, x.d0 3, 0⟩ ++
      w 0 (row 0) ++ w 2 ⟨m, x.d0 0, x.d0 2, 0⟩ ++ w 3 ⟨m, x.d0 0, x.d0 3, 0⟩
  | 0x11 => r 0 (row 0) ++ w 3 (flat x.exchangeShare)
  | 0x12 => r 0 (row 0) ++ w 3 (if x.p8 0 = 1 then ⟨x.d0 0, m, x.d0 3, 0⟩ else ⟨m, x.d0 0, x.d0 3, 0⟩)
  | _ => []

/-- Elements and bytes of an access. -/
def PortUse.elems (a : PortUse) : Nat := a.grid.rows * a.grid.cols

def accessBytes (fmt : Nat) (g : Grid) : Nat :=
  if fmt = fmtSq4 then g.rows * ((g.cols + 1) / 2) else g.rows * g.cols * elemSize fmt

/-- The stream of an access's port, with the bytes the access moves. -/
def Ent.streamOf (x : Ent) (a : PortUse) : Option (Nat × Nat) :=
  match x.port a.port, x.tensorOf a.port with
  | some p, some t => if p.stream = 0xFF then none else some (p.stream, accessBytes t.fmt a.grid)
  | _, _ => none

/-- Bytes that an entry moves through each of its core's streams, with the direction. -/
def Ent.streamBytes (x : Ent) : List (Nat × Bool × Nat) :=
  x.accesses.filterMap fun a => (x.streamOf a).map fun p => (p.1, a.write, p.2)

def streamKey (d c k st : Nat) : Nat := 16 * coreCode d c k + st

def State.stream (s : State) (key : Nat) : StreamState := Tab.get StreamState.init key s.dense.streams

def State.setStream (s : State) (key : Nat) (v : StreamState) : State :=
  { s with dense := { s.dense with streams := Tab.set StreamState.init key v s.dense.streams } }

/-! ### Reading -/

/-- A place to read: the tensor, the first element, the copy, the width of a row, and the bytes a stream delivered. -/
structure Src where
  t : Tensor
  o : Nat
  ver : Nat
  grid : Grid
  buf : Option (List Byte × Bool)
deriving DecidableEq, Repr

/-- The version that an entry reads of a tensor. -/
def Ent.versionOf (x : Ent) (t : Tensor) : Nat := if t.role = 2 ∧ 1 < t.stash ∧ x.e.wver ≠ 0xFF then x.e.wver else 0

/-- The copy of a weight that holds version `v` in the running step; version 0 is the first copy (R143, R145). -/
def State.copyOf (s : State) (t : Tensor) (v : Nat) : Nat := Tab.get 0 (65536 * t.id + v) s.dense.slots

/-- Bytes of the entry's earlier accesses through the same stream. -/
def Ent.streamSkip (x : Ent) (st : Nat) : Nat → List PortUse → Nat
  | _, [] => 0
  | slot, a :: rest =>
    if a.slot = slot ∧ !a.write then 0
    else (match x.streamOf a with
      | some p => if p.1 = st ∧ !a.write then p.2 else 0
      | none => 0) + x.streamSkip st slot rest

/-- Chunk size of a stream. -/
def State.streamD (s : State) (d c k st : Nat) : Option StreamD :=
  (s.diePlan d).streams.find? fun x => x.core == coreCode d c k && x.stream == st

def State.src (s : State) (x : Ent) (slot : Nat) : Option Src :=
  match x.accesses.find? fun a => a.slot == slot && !a.write with
  | none => none
  | some a =>
    match x.tensorOf a.port with
    | none => none
    | some t =>
      let buf := match x.streamOf a with
        | none => none
        | some p =>
          let ss := s.stream (streamKey x.die x.cl x.core p.1)
          let skip := x.streamSkip p.1 slot x.accesses
          let chunk := match s.streamD x.die x.cl x.core p.1 with | some y => max 1 y.chunk | none => 1
          let lo := ss.moved + skip
          some ((ss.buf.drop skip).take p.2,
            ss.bad.any fun b => decide (b * chunk < lo + p.2 ∧ lo < (b + 1) * chunk))
      some ⟨t, x.origin a.port + a.grid.off, s.copyOf t (x.versionOf t), a.grid, buf⟩

def Src.elem (r : Src) (i j : Nat) : Nat := r.o + i * r.grid.stride + j

def State.srcRaw (s : State) (r : Src) (i j : Nat) : Nat :=
  match r.buf with
  | none => s.readElem r.t r.ver (r.elem i j)
  | some (b, _) =>
    if r.t.fmt = fmtSq4 then
      bits (le b (i * ((r.grid.cols + 1) / 2) + j / 2) 1) (j % 2 * 4 + 3) (j % 2 * 4)
    else le b ((i * r.grid.cols + j) * elemSize r.t.fmt) (elemSize r.t.fmt)

/-- The element as FP32 (R527). -/
def State.srcF32 (s : State) (x : Ent) (r : Src) (i j : Nat) : Nat :=
  toF32 r.t.fmt (s.srcRaw r i j)
    (if r.t.fmt = fmtSq8 ∨ r.t.fmt = fmtSq4 then s.scaleOf x.ts r.t (r.elem i j) else one32)

/-- The element is poisoned, or an ACC96 element that an engine refuses (log entry 150). -/
def State.srcBad (s : State) (r : Src) (i j : Nat) : Bool :=
  (match r.buf with
  | some (_, b) => b
  | none => s.isPoisoned (r.t.addr r.ver (r.elem i j)) (elemSize r.t.fmt)) ||
  (r.t.fmt == fmtAcc96 && accRefused (toLe 16 (s.srcRaw r i j)))

/-- A row of a read access as FP32, and whether any of it is poisoned. -/
def State.rowF32 (s : State) (x : Ent) (slot i : Nat) : List Nat :=
  match s.src x slot with
  | none => []
  | some r => (List.range r.grid.cols).map fun j => s.srcF32 x r i j

def State.rowBad (s : State) (x : Ent) (slot i : Nat) : Bool :=
  match s.src x slot with
  | none => false
  | some r => (List.range r.grid.cols).any fun j => s.srcBad r i j

/-- Element `n` of a flat access, raw. -/
def State.flatRaw (s : State) (x : Ent) (slot n : Nat) : Nat :=
  match s.src x slot with
  | none => 0
  | some r => s.srcRaw r 0 n

def State.flatBad (s : State) (x : Ent) (slot n : Nat) : Bool :=
  match s.src x slot with
  | none => false
  | some r => s.srcBad r 0 n

/-! ### Results and their writing -/

/-- Results of one write access: rows of values, FP32 or raw bits, each with its poison mark. -/
structure Result where
  slot : Nat
  raw : Bool
  rows : List (List (Nat × Bool))
deriving DecidableEq, Repr

/-- One element to write: element number, raw bits, poison. -/
structure Cell where
  elem : Nat
  raw : Nat
  bad : Bool
deriving DecidableEq, Repr

/-- Everything one write access writes. -/
structure Out where
  slot : Nat
  t : Tensor
  ver : Nat
  stream : Option Nat
  grid : Grid
  cells : List Cell
  /-- Row and column of every element that an integer clamp changed. -/
  clamps : List (Nat × Nat)
deriving DecidableEq, Repr

/-- Slots of an operation's own output, which its record's OUT_MODE governs (R60, R62); its other outputs are saved
statistics, partials and optimizer states. -/
def ownSlots (op : Nat) : List Nat :=
  match op with
  | 0x0A => [5]
  | 0x0B => [5, 6]
  | 0x0C => [4]
  | 0x0D => [4]
  | 0x0E => [4]
  | 0x10 => [0]
  | _ => [3]

/-- The record that governs the output in a slot. -/
def Ent.outRec (x : Ent) (slot : Nat) : Option EngRec := if (ownSlots x.e.op).contains slot then x.rec0 else none

/-- The draw for an output element, where its record rounds stochastically (R62). -/
def State.drawOf (s : State) (x : Ent) (slot e : Nat) : Option Nat :=
  match x.outRec slot with
  | some r => if r.sr then some (s.draw24 r.srStream s.stepIndex e) else none
  | none => none

/-- The output in a slot saturates: E4M3 always, others where their record says so (R60). -/
def Ent.outSat (x : Ent) (slot fmt : Nat) : Bool :=
  fmt == fmtE4m3 || match x.outRec slot with
    | some r => r.sat
    | none => false

/-- Conversion of row `i` of results to the tensor's format, element numbers from `e0` (R127 to R131, R527). A SAVE
rounds to nearest in IEEE mode (Table 4.5), and so do the outputs that no record governs (R60; DEDUCED, log entry 206). -/
def State.convertRow (s : State) (x : Ent) (slot : Nat) (raw : Bool) (t : Tensor) (i e0 : Nat) (row : List (Nat × Bool)) :
    List Cell × List (Nat × Nat) :=
  let cells := (enum0 row).map fun p =>
    let e := e0 + p.1
    if raw then (Cell.mk e p.2.1 p.2.2, false)
    else
      let v := fromF32 t.fmt (x.outSat slot t.fmt) (s.drawOf x slot e) p.2.1
      (Cell.mk e v.1 p.2.2, v.2)
  (cells.map Prod.fst, (enum0 cells).filterMap fun c => if c.2.2 then some (i, c.1) else none)

/-- A row into an SQ tensor: its values, and the cell of its scale (R131). -/
def quantCells (t : Tensor) (e0 : Nat) (row : List (Nat × Bool)) : List Cell × Cell :=
  let q := if t.fmt = fmtSq4 then 7 else 127
  let z := quantRow q (row.map Prod.fst)
  let bad := row.any Prod.snd
  let w := fmtBits t.fmt
  ((enum0 z.2).map fun p => ⟨e0 + p.1, (p.2 % 2 ^ w).toNat, bad⟩, ⟨e0 / max 1 t.d0, z.1, bad⟩)

/-- The scales of the rows of an SQ tensor in slot P3, as given (an all-gather's). -/
def Ent.scaleOut (x : Ent) (res : Result) : List Out :=
  match x.slotTensor 3 with
  | none => []
  | some t =>
    match findTensor x.ts t.scale with
    | none => []
    | some sc =>
      let row := x.origin (x.portNo 3) / max 1 t.d0
      let cells := (enum0 res.rows.flatten).map fun c => Cell.mk (row + c.1) c.2.1 c.2.2
      [Out.mk 32 sc 0 none ⟨1, cells.length, cells.length, 0⟩ cells []]

/-- The outputs of one result: its own, and for SQ tensors the scales, slot 32. -/
def State.outOf (s : State) (x : Ent) (res : Result) : List Out :=
  if res.slot = 32 then x.scaleOut res else
  match x.accesses.find? fun a => a.slot == res.slot && a.write with
  | none => []
  | some a =>
    match x.tensorOf a.port with
    | none => []
    | some t =>
      let o := x.origin a.port + a.grid.off
      let ver := s.copyOf t (if x.e.op = 0x10 ∧ res.slot = 0 then Tab.get 0 t.id s.dense.versions + 1 else x.versionOf t)
      let st := (x.streamOf a).map Prod.fst
      if !res.raw && (t.fmt == fmtSq8 || t.fmt == fmtSq4) then
        let rs := (enum0 res.rows).map fun p => quantCells t (o + p.1 * a.grid.stride) p.2
        let own := Out.mk res.slot t ver st a.grid (rs.flatMap Prod.fst) []
        match findTensor x.ts t.scale with
        | some sc => [own, Out.mk 32 sc 0 none ⟨1, rs.length, rs.length, 0⟩ (rs.map Prod.snd) []]
        | none => [own]
      else
        let rs := (enum0 res.rows).map fun p => s.convertRow x res.slot res.raw t p.1 (o + p.1 * a.grid.stride) p.2
        [Out.mk res.slot t ver st a.grid (rs.flatMap Prod.fst) (rs.flatMap Prod.snd)]

/-- Bytes to write, by address. -/
def State.patchCell (s : State) (o : Out) (p : Tab Byte) (c : Cell) : Tab Byte :=
  let a := o.t.addr o.ver c.elem
  if o.t.fmt = fmtSq4 then
    let old := match Tab.find a p with | some b => b | none => s.byte a
    let sh := (o.t.place_ c.elem).2
    Tab.put a (BitVec.ofNat 8 (setBits old.toNat (sh + 3) sh c.raw)) p
  else
    (enum0 (toLe (elemSize o.t.fmt) c.raw)).foldl (fun q b => Tab.put (a + b.1) b.2 q) p

/-- Runs of neighbouring addresses: start, bytes in order. -/
def runsOf : Tab Byte → List (Nat × List Byte)
  | [] => []
  | (a, b) :: rest =>
    match runsOf rest with
    | (a', bs) :: more => if a + 1 = a' then (a, b :: bs) :: more else (a, [b]) :: (a', bs) :: more
    | [] => [(a, [b])]

/-- Writes of the running step are remembered for its seam (R340), with what stood there before (R110). -/
def State.noteWrite (s : State) (a : Nat) (old : List Byte) : State :=
  if old = [] ∨ !s.stepRunning then s
  else { s with dense := { s.dense with
    wrote := s.dense.wrote ++ [(a, old.length)],
    before := (enum0 old).map (fun p => (a + p.1, p.2)) ++ s.dense.before } }

def State.writeNoted (s : State) (a : Nat) (bs : List Byte) : State :=
  (s.write a bs).noteWrite a (s.read a bs.length)

def State.poisonRange (s : State) (a n : Nat) : State :=
  (List.range n).foldl (fun (s : State) i => if i % 8 = 0 ∨ i + 1 = n then s.poisonAt (a + i) else s) s

/-- Bytes of one output in the order a stream takes them. -/
def Out.streamData (o : Out) : List Byte :=
  if o.t.fmt = fmtSq4 then
    (List.range o.grid.rows).flatMap fun i => (List.range ((o.grid.cols + 1) / 2)).map fun h =>
      let g (j : Nat) : Nat := if j < o.grid.cols then ((o.cells[i * o.grid.cols + j]?).map Cell.raw).getD 0 else 0
      BitVec.ofNat 8 (g (2 * h) + 16 * g (2 * h + 1))
  else o.cells.flatMap fun c => toLe (elemSize o.t.fmt) c.raw

/-- An output is written to memory, or given to its stream. -/
def State.putOut (s : State) (x : Ent) (o : Out) : State :=
  match o.stream with
  | some st =>
    let key := streamKey x.die x.cl x.core st
    let ss := s.stream key
    let data := o.streamData
    let chunk := match s.streamD x.die x.cl x.core st with | some y => max 1 y.chunk | none => 1
    let bads := if o.cells.any Cell.bad then
        (List.range ((data.length + chunk - 1) / chunk + 1)).map ((ss.moved / chunk) + ·) else []
    s.setStream key { ss with buf := ss.buf ++ data, moved := ss.moved + data.length, bad := ss.bad ++ bads }
  | none =>
    let runs := runsOf (o.cells.foldl (s.patchCell o) [])
    let s := runs.foldl (fun (s : State) r => s.writeNoted r.1 r.2) s
    o.cells.foldl (fun (s : State) c =>
      if c.bad then s.poisonRange (o.t.addr o.ver c.elem) (elemSize o.t.fmt) else s) s

end Sys2Proof.Machine
end

