-- ==== Sys2Proof/Machine/Products.lean ====
section
/-! DEFINITION. What each operation of a schedule entry computes (Table 4.6, R63 to R72, R129 to R153, R174 to R179),
as the results of its write accesses. -/

namespace Sys2Proof.Machine

/-! ### Epilogues (R129, R141) -/

/-- Values of one element after the epilogue, with those that SAVE steps write (epilogue index, value). -/
def State.epiElem (s : State) (x : Ent) (outElem m n : Nat) (t : Nat) : Nat × List (Nat × Nat) :=
  (enum0 x.epilogue).foldl (fun (acc : Nat × List (Nat × Nat)) p =>
    let v := acc.1
    let st := p.2
    let u (i j : Nat) : Nat := match s.src x (16 + p.1) with | some r => s.srcF32 x r i j | none => 0
    match st.op with
    | 1 => (fAdd v (u 0 n), acc.2)
    | 2 => (fMul v (u 0 n), acc.2)
    | 3 => (fAdd v st.const, acc.2)
    | 4 => (fMul v st.const, acc.2)
    | 5 => (fAdd v (u m n), acc.2)
    | 6 => (fMul v (u m n), acc.2)
    | 7 => (actOf st.act v, acc.2)
    | 8 => (fMin (fMax v (fNeg st.const)) st.const, acc.2)
    | 9 =>
      let tau := match d32 st.const with
        | .fin _ mm e => let q := Fv.ratio (mm * 2 ^ 24) e; q.1 / q.2
        | _ => 0
      let rho := s.draw24 st.port s.stepIndex outElem
      (if rho < tau then fMul v (fDiv one32 st.const) else 0, acc.2)
    | 10 => (v, acc.2 ++ [(p.1, v)])
    | _ => acc) (t, [])

/-- Poison that the epilogue's ports bring to element (m, n). -/
def State.epiBad (s : State) (x : Ent) (m n : Nat) : Bool :=
  (enum0 x.epilogue).any fun p =>
    match s.src x (16 + p.1) with
    | some r => if p.2.op = 1 ∨ p.2.op = 2 then s.srcBad r 0 n else s.srcBad r m n
    | none => false

/-- SAVE results of a block of rows, from each element's saved values. -/
def saveResults (x : Ent) (rows : List (List (Nat × List (Nat × Nat) × Bool))) : List Result :=
  (enum0 x.epilogue).filterMap fun p =>
    if p.2.op = 10 then
      some ⟨16 + p.1, false, rows.map fun r => r.map fun c =>
        (((c.2.1.find? fun q => q.1 == p.1).map Prod.snd).getD 0, c.2.2)⟩
    else none

/-- Rows of FP32 values through the epilogue. -/
def State.withEpilogue (s : State) (x : Ent) (slot : Nat) (rows : List (List (Nat × Bool))) : List Result :=
  let o := x.origin (x.portNo slot)
  let d := x.d0 slot
  let vals := (enum0 rows).map fun r => (enum0 r.2).map fun c =>
    let e := s.epiElem x (o + r.1 * d + c.1) r.1 c.1 c.2.1
    (e.1, e.2, c.2.2 || s.epiBad x r.1 c.1)
  ⟨slot, false, vals.map fun r => r.map fun c => (c.1, c.2.2)⟩ :: saveResults x vals

/-! ### MATMUL (R63 to R73) -/

/-- An operand element by its logical K index and its other index. -/
def matIndex (isK : Bool) (lo k i : Nat) : Nat × Nat := if isK then (i, k - lo) else (k - lo, i)

def exactPair (pair : Nat) : Bool := pair == 1 || pair == 2 || pair == 3

/-- The exact accumulator of one element. -/
def accOf (pair : Nat) (xs : List (Nat × Nat × Nat × Nat × Nat)) : Acc :=
  xs.foldl (fun a p =>
    if pair = 1 then a.add (Acc.product (rawValue p.2.1 p.2.2.1) (rawValue p.2.2.2.1 p.2.2.2.2))
    else
      let q (f raw : Nat) : Int := if f = fmtSq4 then sext 4 raw else sext 8 raw
      a.add (Acc.ofInt (q p.2.1 p.2.2.1 * q p.2.2.2.1 p.2.2.2.2))) Acc.zero

def accUnit (pair : Nat) : Int := if pair = 1 then -32 else 0

/-- The result bits, the epilogue's saves, and whether an INT32 output was clamped. Operands, added tensor and output
are the entry's ports, also where the record's own A_SRC, B_SRC, D_SRC and OUT_DST name others (DESIGN CHOICE, log
entry 148); an epilogue of no steps counts as none (DESIGN CHOICE, log entry 151). -/
def State.matElem (s : State) (x : Ent) (r : EngRec) (ks : List Nat) (a b : Src) (d : Option Src) (m n : Nat) :
    Nat × List (Nat × Nat) × Bool :=
  let lo := x.kHull.1
  let pos (isK : Bool) (k i : Nat) := matIndex isK lo k i
  let raws := ks.map fun k =>
    let pa := pos r.aK k m
    let pb := pos r.bK k n
    (k, r.aFmt, s.srcRaw a pa.1 pa.2, r.bFmt, s.srcRaw b pb.1 pb.2)
  let o := x.origin (x.portNo 3) + m * x.d0 3 + n
  let draw := s.drawOf x 3 o
  let post := d.isSome || x.epilogue != []
  let fin (v : Nat) : Nat × List (Nat × Nat) × Bool :=
    let v := match d with | some q => fAdd v (s.srcF32 x q m n) | none => v
    let e := s.epiElem x o m n v
    let c := fromF32 r.outFmt r.sat draw e.1
    (c.1, e.2, c.2)
  if exactPair r.pair then
    let acc := accOf r.pair raws
    let sc (q : Src) (i : Nat) (isK : Bool) : Fv :=
      if r.pair = 3 then d32 (s.scaleOf x.ts q.t (if isK then q.elem i 0 else q.elem 0 i)) else fvOne
    if r.outFmt = fmtAcc96 then (leNat (acc.toBytes r.accClass), [], false)
    else if r.outFmt = fmtInt32 then
      ((acc.toInt32 % 2 ^ 32).toNat, [], decide (acc.toInt32 ≠ acc.val))
    else
      let v := acc.value (accUnit r.pair) (sc a m r.aK) (sc b n r.bK)
      if post then fin (r32 v)
      else
        match floatFmt r.outFmt with
        | some f => (f.encode r.sat draw v, [], false)
        | none => let c := fromF32 r.outFmt r.sat draw (r32 v); (c.1, [], c.2)
  else
    let root := (dotTree (raws.map fun p => (p.1, r32 (rawValue p.2.1 p.2.2.1), r32 (rawValue p.2.2.2.1 p.2.2.2.2)))).getD 0
    fin root

def State.matmul (s : State) (x : Ent) : List Result × List (Nat × Nat) :=
  match x.rec0, s.src x 0, s.src x 1 with
  | some r, some a, some b =>
    let ks := x.kSet
    let lo := x.kHull.1
    let d := s.src x 2
    let mm := x.e.rows
    let nn := x.p32 0
    let aBad := (List.range mm).map fun m => ks.any fun k => let p := matIndex r.aK lo k m; s.srcBad a p.1 p.2
    let bBad := (List.range nn).map fun n => ks.any fun k => let p := matIndex r.bK lo k n; s.srcBad b p.1 p.2
    let rows := (List.range mm).map fun m => (List.range nn).map fun n =>
      let v := s.matElem x r ks a b d m n
      let dBad := match d with | some q => s.srcBad q m n | none => false
      (v, aBad.getD m false || bBad.getD n false || dBad || s.epiBad x m n)
    (⟨3, true, rows.map fun row => row.map fun c => (c.1.1, c.2)⟩ ::
      saveResults x (rows.map fun row => row.map fun c => (c.1.1, c.1.2.1, c.2)),
     (enum0 rows).flatMap fun row => (enum0 row.2).filterMap fun c => if c.2.1.2.2 then some (row.1, c.1) else none)
  | _, _, _ => ([], [])

/-! ### Row operations -/

/-- Results of an operation that works on each of the entry's rows: `f m` gives the row's outputs and its mark. -/
def perRow (m slot : Nat) (f : Nat → List Nat × Bool) : Result :=
  ⟨slot, false, (List.range m).map fun i => (f i).1.map fun v => (v, (f i).2)⟩

/-- Saved words of all rows, one after the other. -/
def savedRow (m slot : Nat) (raw : Bool) (f : Nat → List Nat × Bool) : Result :=
  ⟨slot, raw, [(List.range m).flatMap fun i => (f i).1.map fun v => (v, (f i).2)]⟩

def State.saved (s : State) (x : Ent) (slot w i j : Nat) : Nat :=
  match s.src x slot with
  | some r => s.srcF32 x r 0 (w * i + j)
  | none => 0

def State.normRows (s : State) (x : Ent) (rms : Bool) : List Result :=
  let f (i : Nat) : (List Nat × List Nat) × Bool :=
    let v := s.rowF32 x 0 i
    let bad := s.rowBad x 0 i || s.rowBad x 1 0 || (!rms && s.rowBad x 1 1)
    (if rms then rmsNorm v (s.rowF32 x 1 0) (x.p32 0) else layerNorm v (s.rowF32 x 1 0) (s.rowF32 x 1 1) (x.p32 0), bad)
  [savedRow x.e.rows 2 false fun i => ((f i).1.2, (f i).2), perRow x.e.rows 3 fun i => ((f i).1.1, (f i).2)]

/-- The row with masked positions at −∞ (R135). -/
def State.maskedRow (s : State) (x : Ent) (i : Nat) : List Nat :=
  let v := s.rowF32 x 0 i
  match s.src x 1 with
  | none => v
  | some r => (enum0 v).map fun p => if s.srcRaw r i p.1 = 0 then negInf32 else p.2

def State.softmaxRows (s : State) (x : Ent) : List Result :=
  let f (i : Nat) := (softmaxRow (s.maskedRow x i), s.rowBad x 0 i || s.rowBad x 1 i)
  [savedRow x.e.rows 2 false fun i => ((f i).1.2, (f i).2), perRow x.e.rows 3 fun i => ((f i).1.1, (f i).2)]

def State.rowReduce (s : State) (x : Ent) : List Result :=
  [savedRow x.e.rows 3 false fun i =>
    ([if x.p8 0 = 1 then rowMax (s.rowF32 x 0 i) else tsum (s.rowF32 x 0 i)], s.rowBad x 0 i)]

/-- Index of the entry's row `m` in the tensor of slot 0. -/
def Ent.rowIndex (x : Ent) (m : Nat) : Nat := x.origin (x.portNo 0) / max 1 (x.d0 0) + m

/-- A sum over the tree of keyed terms; where no term is present the spec gives no value: `hole` (log entry 12). -/
def sumKeyed (hole : Nat) (xs : List (Nat × Nat)) : Nat :=
  (((keyTree fAdd 40 xs).head?).map Prod.snd).getD hole

/-- R138; the γ and β parts are summed over the row positions (R71, R79). -/
def State.normBwdRows (s : State) (x : Ent) : List Result :=
  let rms := x.p8 0 == 1
  let f (i : Nat) := normBwd rms (s.rowF32 x 0 i) (s.rowF32 x 1 0) (s.rowF32 x 3 i) (s.saved x 2 2 i 0) (s.saved x 2 2 i 1)
  let bad (i : Nat) : Bool :=
    s.rowBad x 0 i || s.rowBad x 1 0 || s.rowBad x 3 i || s.flatBad x 2 (2 * i) || s.flatBad x 2 (2 * i + 1)
  let anyBad := (List.range x.e.rows).any bad
  let col (sel : List Nat × List Nat × List Nat → List Nat) : List (Nat × Bool) :=
    (List.range (x.d0 0)).map fun c =>
      (sumKeyed 0 ((List.range x.e.rows).map fun i => (x.rowIndex i, (sel (f i)).getD c 0)), anyBad)
  let dg := col fun t => t.2.1
  let db := col fun t => t.2.2
  [perRow x.e.rows 4 fun i => ((f i).1, bad i), ⟨5, false, if rms then [dg] else [dg, db]⟩]

def State.softmaxBwdRows (s : State) (x : Ent) : List Result :=
  [perRow x.e.rows 4 fun i =>
    (softmaxBwd (s.maskedRow x i) (s.rowF32 x 3 i) (s.saved x 2 2 i 0) (s.saved x 2 2 i 1),
     s.rowBad x 0 i || s.rowBad x 1 i || s.rowBad x 3 i || s.flatBad x 2 (2 * i) || s.flatBad x 2 (2 * i + 1))]

def State.actBwdRows (s : State) (x : Ent) : List Result :=
  [perRow x.e.rows 4 fun i =>
    let dy := s.rowF32 x 3 i
    (if x.p8 0 = 0 then dy else zipN (actBwd (x.p8 0)) (s.rowF32 x 0 i) dy, s.rowBad x 0 i || s.rowBad x 3 i)]

def accClassUnit (cls : Nat) : Int := if cls = 2 then -32 else 0

/-- An accumulator of class `cls` in the entry's output format, for output element `e`: converted once, under the
entry's record (R62, R67, R68), with whether an INT32 was clamped. No rule names the row scales of an SQ sum that
REDUCE, GATHER_TIED or EXCHANGE converts: they count as 1 (DESIGN CHOICE, log entry 147). -/
def State.accBits (s : State) (x : Ent) (fmt cls e : Nat) (a : Acc) : Nat × Bool :=
  if fmt = fmtAcc96 then (leNat (a.toBytes cls), false)
  else if fmt = fmtInt32 then ((a.toInt32 % 2 ^ 32).toNat, decide (a.toInt32 ≠ a.val))
  else
    let v := a.value (accClassUnit cls) fvOne fvOne
    match floatFmt fmt with
    | some f => (f.encode (x.outSat 3 fmt) (s.drawOf x 3 e) v, false)
    | none => fromF32 fmt (x.outSat 3 fmt) none (r32 v)

/-- Rows of cells with their clamps: a raw result and the places clamped. -/
def clampedResult (slot : Nat) (rows : List (List ((Nat × Bool) × Bool))) : List Result × List (Nat × Nat) :=
  ([⟨slot, true, rows.map fun r => r.map fun c => (c.1.1, c.2)⟩],
   (enum0 rows).flatMap fun r => (enum0 r.2).filterMap fun c => if c.2.1.2 then some (r.1, c.1) else none)

/-- Number of output element (i, j) of slot P3. -/
def Ent.outElem (x : Ent) (i j : Nat) : Nat := x.origin (x.portNo 3) + i * x.d0 3 + j

/-- REDUCE: a tree node of two FP32 partials, or the exact sum of two ACC96 partials (R69, R70). -/
def State.reduceRows (s : State) (x : Ent) : List Result × List (Nat × Nat) :=
  match s.src x 0, s.src x 1, x.slotTensor 3 with
  | some a, some b, some t =>
    let grid := List.replicate x.e.rows (List.range (x.d0 3))
    let bad (i j : Nat) : Bool := s.srcBad a i j || s.srcBad b i j
    if x.p8 0 = 0 then
      ([⟨3, false, (enum0 grid).map fun r => r.2.map fun j =>
        (fAdd (s.srcF32 x a r.1 j) (s.srcF32 x b r.1 j), bad r.1 j)⟩], [])
    else
      clampedResult 3 ((enum0 grid).map fun r => r.2.map fun j =>
        let p := toLe 16 (s.srcRaw a r.1 j)
        let z := (Acc.ofBytes p).add (Acc.ofBytes (toLe 16 (s.srcRaw b r.1 j)))
        (s.accBits x t.fmt (accClassOf p) (x.outElem r.1 j) z, bad r.1 j))
  | _, _, _ => ([], [])

/-- GATHER_TIED: the group's gradients in ascending identifier order (R142). -/
def State.gatherTied (s : State) (x : Ent) : List Result × List (Nat × Nat) :=
  match s.src x 0, x.slotTensor 3 with
  | some a, some t3 =>
    let uses := x.ts.filter fun t => t.role == 3 && t.tie == le x.e.param 0 2
    let bad (i j : Nat) : Bool := uses.any fun t =>
      s.isPoisoned (t.addr 0 (a.elem i j)) (elemSize t.fmt) ||
      (t.fmt == fmtAcc96 && accRefused (toLe 16 (s.readElem t 0 (a.elem i j))))
    let grid := List.replicate x.e.rows (List.range (x.d0 0))
    if a.t.fmt = fmtAcc96 then
      clampedResult 3 ((enum0 grid).map fun r => r.2.map fun j =>
        let z := uses.foldl (fun (acc : Acc) t =>
          acc.add (Acc.ofBytes (toLe 16 (s.readElem t 0 (a.elem r.1 j))))) Acc.zero
        (s.accBits x t3.fmt (accClassOf (toLe 16 (s.srcRaw a r.1 j))) (x.outElem r.1 j) z, bad r.1 j))
    else
      ([⟨3, false, (enum0 grid).map fun r => r.2.map fun j =>
        (tsum (uses.map fun t => s.elemF32 x.ts t 0 (a.elem r.1 j)), bad r.1 j)⟩], [])
  | _, _ => ([], [])

/-! ### Attention (R148 to R151) -/

def State.attnParam (x : Ent) : AttnParam :=
  let fp8 (j : Nat) : Bool := match x.slotTensor j with | some t => t.fmt == 3 || t.fmt == 4 | none => false
  ⟨fp8 0, fp8 2, x.p32 0, x.p32 4, x.p8 8, headDimOf (x.p8 9), sext 32 (x.p32 12)⟩

def State.attention (s : State) (x : Ent) : List Result :=
  let p := State.attnParam x
  let len (m : Nat) : Int := if p.mask = 2 then sext 32 (s.flatRaw x 5 m) else 0
  let f (m : Nat) := p.forward (x.rowIndex m) (len m) (s.rowF32 x 0 m) fun j => (s.rowF32 x 1 j, s.rowF32 x 2 j)
  let kvBad := (List.range p.seqK).map fun j => s.rowBad x 1 j || s.rowBad x 2 j
  let bad (m : Nat) : Bool :=
    s.rowBad x 0 m || (p.mask == 2 && s.flatBad x 5 m) ||
    (List.range p.seqK).any fun j => p.visible (x.rowIndex m) (len m) j && kvBad.getD j false
  [perRow x.e.rows 3 fun m => ((f m).1, bad m),
   ⟨4, true, [(List.range x.e.rows).flatMap fun m =>
     ((f m).2 ++ [0, (len m % 2 ^ 32).toNat]).map fun v => (v, bad m)]⟩]

/-- ATTN_DELTA writes the third word of each record (R151). -/
def State.attnDelta (s : State) (x : Ent) : List Result :=
  [⟨4, true, (List.range x.e.rows).map fun m =>
    [(tsum (zipN fMul (s.rowF32 x 1 m) (s.rowF32 x 0 m)), s.rowBad x 0 m || s.rowBad x 1 m)]⟩]

/-- Probability and dS of every visible pair of query row `m`. -/
def State.attnPairs (s : State) (x : Ent) (m : Nat) : List (Nat × Nat × Nat) :=
  let p := State.attnParam x
  let w (i : Nat) : Nat := s.flatRaw x 4 (4 * m + i)
  ((List.range p.seqK).filter (p.visible (x.rowIndex m) (sext 32 (w 3)))).map fun j =>
    (j, p.pair (s.rowF32 x 0 m) (s.rowF32 x 1 j) (s.rowF32 x 2 j) (s.rowF32 x 3 m) (w 0) (w 1) (w 2))

def State.attnBad (s : State) (x : Ent) (m j : Nat) : Bool :=
  s.rowBad x 0 m || s.rowBad x 1 j || s.rowBad x 2 j || s.rowBad x 3 m ||
  (List.range 4).any fun w => s.flatBad x 4 (4 * m + w)

def State.attnDq (s : State) (x : Ent) (hole : Nat) : List Result :=
  let hd := headDimOf (x.p8 9)
  [⟨5, false, (List.range x.e.rows).map fun m =>
    let ps := s.attnPairs x m
    let bad := ps.any fun p => s.attnBad x m p.1
    (List.range hd).map fun c =>
      (sumKeyed hole (ps.map fun p => (p.1, fMul p.2.2 ((s.rowF32 x 1 p.1).getD c 0))), bad)⟩]

def State.attnDkv (s : State) (x : Ent) (hole : Nat) : List Result :=
  let hd := headDimOf (x.p8 9)
  let seqK := x.p32 0
  let pairs := (List.range x.e.rows).map fun m => (m, s.attnPairs x m)
  let rows (v : Bool) : List (List (Nat × Bool)) := (List.range seqK).map fun j =>
    let terms := pairs.filterMap fun p => (p.2.find? fun q => q.1 == j).map fun q => (p.1, q.2)
    let bad := terms.any fun t => s.attnBad x t.1 j
    (List.range hd).map fun c =>
      (sumKeyed hole (terms.map fun t =>
        (x.rowIndex t.1, if v then fMul t.2.1 ((s.rowF32 x 3 t.1).getD c 0) else fMul t.2.2 ((s.rowF32 x 0 t.1).getD c 0))),
       bad)
  [⟨5, false, rows false⟩, ⟨6, false, rows true⟩]

/-! ### Optimizers (R174 to R177) -/

/-- Factors of an update pass. -/
structure OptPass where
  o : OptD
  lr : Nat
  c1 : Nat
  c2 : Nat
deriving DecidableEq, Repr

/-- c1 and c2 of R177. -/
def adamFactor (beta tf : Nat) : Nat :=
  if beta = 0 then one32 else fSub one32 (fExp2 (fMul tf (fLog2 beta)))

/-- R174: the learning rate for optimizer step count `k`. -/
def State.optPass (s : State) (ts : List Tensor) (o : OptD) (base k : Nat) : OptPass :=
  let sched :=
    if bit o.flags 1 then
      match findTensor ts o.lrTensor with
      | some t => s.readElem t 0 (min k (t.d0 - 1))
      | none => one32
    else one32
  let tf := nfOf (k + 1)
  ⟨o, fMul base sched, adamFactor o.beta1 tf, adamFactor o.beta2 tf⟩

def decayed (p : OptPass) (w g : Nat) : Nat := if p.o.decay = 0 then g else fFma p.o.decay w g

/-- R175. -/
def sgdElem (p : OptPass) (w g : Nat) : Nat := fSub w (fMul p.lr (decayed p w g))

/-- R177: weight, first and second moment. -/
def adamElem (p : OptPass) (w g m v : Nat) : Nat × Nat × Nat :=
  let dec := bit p.o.flags 0
  let g := if dec then g else decayed p w g
  let m := fFma p.o.beta1 m (fMul p.o.omb1 g)
  let v := fFma p.o.beta2 v (fMul p.o.omb2 (fMul g g))
  let u := fDiv (fDiv m p.c1) (fAdd (fSqrt (fDiv v p.c2)) p.o.eps)
  let u := if dec then fFma p.o.decay w u else u
  (fSub w (fMul p.lr u), m, v)

/-- Entries of the image that write a weight by OPT_DENSE in one step. -/
def State.optEntries (s : State) (t : Nat) : Nat :=
  (s.schedules.map fun sc =>
    (sc.2.entries.filter fun e =>
      e.op == 0x10 && (match sc.2.ports[e.ports.getD 0 portNone]? with
        | some p => p.tensor == t
        | none => false)).length).sum

def State.optDense (s : State) (x : Ent) : List Result :=
  match x.slotTensor 0 with
  | none => []
  | some t =>
    let em := s.embD
    match em.opts[le x.e.param 8 2]? with
    | none => []
    | some o =>
      let ver := if x.e.wver = 0xFF then Tab.get 0 t.id s.dense.versions else x.e.wver
      let k := em.t0 + s.stepIndex * s.optEntries t.id + ver
      let p := s.optPass x.ts o (x.p32 0) k
      let adam := x.p8 4 == 1
      let bad (i j : Nat) : Bool :=
        [0, 1, 2, 3].any fun q => (adam || decide (q < 2)) && (match s.src x q with | some r => s.srcBad r i j | none => false)
      let get (q i j : Nat) : Nat := match s.src x q with | some r => s.srcF32 x r i j | none => 0
      let out (i j : Nat) : Nat × Nat × Nat :=
        if adam then adamElem p (get 0 i j) (get 1 i j) (get 2 i j) (get 3 i j)
        else (sgdElem p (get 0 i j) (get 1 i j), 0, 0)
      let res (slot : Nat) (sel : Nat × Nat × Nat → Nat) : Result :=
        ⟨slot, false, (List.range x.e.rows).map fun i => (List.range (x.d0 0)).map fun j => (sel (out i j), bad i j)⟩
      if adam then [res 0 fun q => q.1, res 2 fun q => q.2.1, res 3 fun q => q.2.2] else [res 0 fun q => q.1]

/-! ### Predicted residues (R81, Table 2.7) -/

/-- K positions that one engine cycle advances (Table 2.2). -/
def kPerCycle (pair : Nat) : Nat := if pair = 4 then 16 else if pair = 5 then 4 else 32

/-- The operands of a MATMUL element, by K index, as numbers. -/
def State.matPair (s : State) (x : Ent) (m n k : Nat) : Fv × Fv :=
  match x.rec0, s.src x 0, s.src x 1 with
  | some r, some a, some b =>
    let pa := matIndex r.aK x.kHull.1 k m
    let pb := matIndex r.bK x.kHull.1 k n
    (rawValue r.aFmt (s.srcRaw a pa.1 pa.2), rawValue r.bFmt (s.srcRaw b pb.1 pb.2))
  | _, _, _ => (.nan, .nan)

/-- The sum of an exact MATMUL element's products over some K indices, in the accumulator's unit. -/
def State.exactSum (s : State) (x : Ent) (pair m n : Nat) (ks : List Nat) : Int :=
  (ks.map fun q =>
    match (s.matPair x m n q).1.mul (s.matPair x m n q).2 with
    | .fin sg a e => signed sg (a * pow2 (e - accUnit pair))
    | _ => 0).sum

/-- The accumulator of a lane of engine `e` after the cycle that holds K index `k`: the sum over its own K range. -/
def State.lanePartial (s : State) (x : Ent) (e pair m n k : Nat) : Int :=
  match x.recs.find? fun r => r.1 == e with
  | none => 0
  | some r =>
    let lo := r.2.kRange.1
    let ks := (List.range (r.2.kRange.2 - lo)).map (lo + ·)
    s.exactSum x pair m n (ks.filter fun q => decide ((q - lo) / kPerCycle pair ≤ (k - lo) / kPerCycle pair))

/-- Residue of v's significand after scaling: the exact sum times the significands of its two row scales (Table 2.7). -/
def State.scaledResidue (s : State) (x : Ent) (r : EngRec) (m n : Nat) : Nat :=
  let sig (slot i : Nat) (isK : Bool) : Nat :=
    match s.src x slot with
    | some q => significandResidue (d32 (s.scaleOf x.ts q.t (if isK then q.elem i 0 else q.elem 0 i)))
    | none => 0
  let v := residue31 (s.exactSum x r.pair m n x.kSet)
  if r.pair = 3 then v * sig 0 m r.aK * sig 1 n r.bK % 31 else v

/-- Sum of the aligned operand significand residues of one FP32 addition, in units of the smaller operand's last bit. -/
def sumResidue (a b : Nat) : Nat :=
  match d32 a, d32 b with
  | .fin sa ma ea, .fin sb mb eb =>
    let e := min ea eb
    residue31 (signed sa (ma * pow2 (ea - e)) + signed sb (mb * pow2 (eb - e)))
  | _, _ => 0

/-- Residues of the ACC96 values that an entry combines into one element, in the order it takes them (R69, R142). -/
def State.combined (s : State) (x : Ent) (elem : Nat) : List Nat :=
  let w := max 1 (x.d0 3)
  let v (raw : Nat) : Nat := residue31 (Acc.ofBytes (toLe 16 raw)).val
  let at_ (q : Src) : Nat := s.srcRaw q (elem / w) (elem % w)
  if x.e.op = 0x02 then ([0, 1].filterMap fun j => s.src x j).map fun q => v (at_ q)
  else if x.e.op = 0x0F then
    match s.src x 0 with
    | some a => (x.ts.filter fun t => t.role == 3 && t.tie == le x.e.param 0 2).map fun t =>
        v (s.readElem t 0 (a.elem (elem / w) (elem % w)))
    | none => []
  else []

/-- The residue that the checker of engine `e` predicts on a path, at output element `elem` and K index `k`; in a
combination of several values `k` numbers the last one taken. Where the path's value depends on how the unit aligns its
terms, or on a step of its work that the command does not name, it is `hole` (DESIGN CHOICE, log entry 152). -/
def State.predictedResidue (s : State) (x : Ent) (e : Nat) (path : ResiduePath) (elem k hole : Nat) : Nat :=
  let n := max 1 (x.p32 0)
  match x.e.op, x.rec0, path with
  | 0x01, some r, .product =>
    let p := s.matPair x (elem / n) (elem % n) k
    match p.1, p.2 with
    | .fin _ _ e, .fin _ _ f => productResidue p.1 p.2 (if exactPair r.pair then accUnit r.pair else e + f)
    | _, _ => 0
  | 0x01, some r, .accumulator => residue31 (s.lanePartial x e r.pair (elem / n) (elem % n) k)
  | 0x01, some r, .conversion => if exactPair r.pair then s.scaledResidue x r (elem / n) (elem % n) else hole % 31
  | 0x02, _, .combining => (s.combined x elem).sum % 31
  | 0x0F, _, .combining => ((s.combined x elem).take (k + 1)).sum % 31
  | 0x02, _, .adder =>
    match s.src x 0, s.src x 1 with
    | some a, some b =>
      let w := max 1 (x.d0 3)
      sumResidue (s.srcF32 x a (elem / w) (elem % w)) (s.srcF32 x b (elem / w) (elem % w))
    | _, _ => hole % 31
  | _, _, _ => hole % 31

/-! ### CONVERT, and the choice of operation -/

def State.convert (s : State) (x : Ent) : List Result :=
  match s.src x 0 with
  | none => []
  | some r =>
    let cell (i j : Nat) : Nat × Bool := (s.srcF32 x r i j, s.srcBad r i j)
    [⟨3, false,
      if x.p8 0 = 1 then (List.range (x.d0 0)).map fun j => (List.range x.e.rows).map fun i => cell i j
      else (List.range x.e.rows).map fun i => (List.range (x.d0 0)).map fun j => cell i j⟩]

/-- The results of an entry other than EXCHANGE, and the places that an exact reduction clamped (Table 4.6). -/
def State.compute (s : State) (x : Ent) (hole : Nat) : List Result × List (Nat × Nat) :=
  match x.e.op with
  | 0x01 => s.matmul x
  | 0x02 => s.reduceRows x
  | 0x03 => (s.withEpilogue x 3 ((List.range x.e.rows).map fun i =>
      match s.src x 0 with
      | some r => (List.range (x.d0 0)).map fun j => (s.srcF32 x r i j, s.srcBad r i j)
      | none => []), [])
  | 0x04 => (s.normRows x false, [])
  | 0x05 => (s.normRows x true, [])
  | 0x06 => (s.softmaxRows x, [])
  | 0x07 => (s.rowReduce x, [])
  | 0x08 => (s.attention x, [])
  | 0x09 => (s.attnDelta x, [])
  | 0x0A => (s.attnDq x hole, [])
  | 0x0B => (s.attnDkv x hole, [])
  | 0x0C => (s.normBwdRows x, [])
  | 0x0D => (s.softmaxBwdRows x, [])
  | 0x0E => (s.actBwdRows x, [])
  | 0x0F => s.gatherTied x
  | 0x10 => (s.optDense x, [])
  | 0x12 => (s.convert x, [])
  | _ => ([], [])

end Sys2Proof.Machine
end

