-- ==== Sys2Proof/Machine/Dense.lean ====
section
/-! DEFINITION. The core sequencers and what an entry does: SCHEDULE_ENTRY_ISSUE, ENTRY_COMPLETE, TWIN_COMPARISON and
the chunks of streams (R83, R128, R143 to R147, R197, R343, R344, R431). -/

namespace Sys2Proof.Machine

/-! ### Events, epochs, versions -/

def eventKey (d e : Nat) : Nat := 4096 * d + e

/-- The event of a WAIT field is set, or the field names none. -/
def State.waitOk (s : State) (w : Nat) : Bool :=
  w == 0xFFFF || s.dense.events.contains (eventKey (bits w 13 12) (bits w 11 0))

def State.signal (s : State) (d sig : Nat) : State :=
  if sig = 0xFFFF ∨ s.dense.events.contains (eventKey d sig) then s
  else { s with dense := { s.dense with events := s.dense.events ++ [eventKey d sig] } }

/-- Recorded epoch of a logical compute unit. -/
def State.epochOf (s : State) (u : Nat) : Nat := Tab.get 0 (s.physOf u) s.cfg.epochs

/-- R122: an epoch of a unit lies below its parent's, or is 0. Answers the pair for the record. -/
def State.staleUnit (s : State) (u parent : Nat) : Option (Nat × Nat) :=
  let e := s.epochOf u
  let p := s.epochOf parent
  if e = 0 ∨ e < p then some (e, p) else none

/-- A core and the units above it, each with its parent. -/
def coreChain (d c k : Nat) : List (Nat × Nat) :=
  [(dieCode d, dieCode d), (clusterCode d c, dieCode d), (coreCode d c k, clusterCode d c)]

/-- Units that the entry's operands and results are routed to: its core's and engines' chain, then the homes of its
tensors (Table 4.1). -/
def Ent.routes (x : Ent) : List (Nat × Nat) :=
  coreChain x.die x.cl x.core ++
  ((engList x.engineMask).map fun e => (engineCode x.die x.cl x.core e, coreCode x.die x.cl x.core)) ++
  x.accesses.flatMap fun a =>
    match x.tensorOf a.port with
    | some t =>
      if t.place = 0 then coreChain (ucDie t.home) (ucCluster t.home) (ucCore t.home)
      else if t.place = 1 ∧ t.home ≠ packageCode then [(dieCode (ucDie t.home), dieCode (ucDie t.home))]
      else []
    | none => []

/-- The first unit of an entry's routes that is not routable. -/
def State.staleOf (s : State) (x : Ent) : Option (Nat × Nat) :=
  (x.routes.filterMap fun p => s.staleUnit p.1 p.2).head?

def State.seq (s : State) (core : Nat) : SeqState := Tab.get SeqState.init core s.dense.seqs

def State.setSeq (s : State) (core : Nat) (q : SeqState) : State :=
  { s with dense := { s.dense with seqs := Tab.set SeqState.init core q s.dense.seqs } }

/-- The entry has issued and is complete. -/
def State.retired (s : State) (core idx : Nat) : Bool :=
  let q := s.seq core
  decide (idx < q.next) && !q.inFlight.contains idx

/-- Versions created so far in the step. -/
def State.newest (s : State) (t : Nat) : Nat := Tab.get 0 t s.dense.versions

/-- Stashed weights that an entry reads through a port. -/
def Ent.stashReads (x : Ent) : List Tensor :=
  x.accesses.filterMap fun a =>
    if a.write then none
    else match x.tensorOf a.port with
      | some t => if t.role = 2 ∧ 1 < t.stash then some t else none
      | none => none

/-- Some entry of the step that reads version `v` of a weight has not retired. -/
def State.versionNeeded (s : State) (t v : Nat) : Bool :=
  s.schedules.any fun sc =>
    (List.range sc.2.entries.length).any fun i =>
      match s.entryAt (ucDie sc.1) (ucCluster sc.1) (ucCore sc.1) i with
      | some x => x.e.wver == v && !s.retired sc.1 i && x.stashReads.any fun w => w.id == t
      | none => false

/-- Versions of a weight that are live (R144). LAST_USE is only a promise about later entries: a version lives as long
as an entry that names it has not retired, also past an entry with the flag (DESIGN CHOICE, log entry 153). -/
def State.liveList (s : State) (t : Nat) : List Nat :=
  (List.range (s.newest t + 1)).filter fun v => v == s.newest t || s.versionNeeded t v

def State.liveVersions (s : State) (t : Nat) : Nat := (s.liveList t).length

/-- The copy that a weight's next version takes: the next of the ring that no live version holds (R143, R144). -/
def State.nextCopy (s : State) (t : Tensor) : Nat :=
  if t.stash ≤ 1 then 0
  else
    let held := (s.liveList t.id).map (s.copyOf t)
    let n := s.newest t.id + 1
    (((List.range t.stash).map fun i => (n + i) % t.stash).find? fun c => !held.contains c).getD (n % t.stash)

/-! ### Trace (R431) -/

def State.traceOn (s : State) : Bool := s.fldB Reg.detCtrlTraceEn

/-- Records in the trace ring. -/
def State.traceUsed (s : State) : Nat :=
  (s.fld Reg.detTraceHeadHead + 2 ^ 32 - s.fld Reg.detTraceTailTail) % 2 ^ 32

def State.traceRoom (s : State) : Nat := 2 ^ s.fld Reg.detTraceRingSizeLog2 - s.traceUsed

/-- One record of the trace (Table 12.10). -/
def State.trace (s : State) (unit index source port mb elements pip : Nat) : State :=
  if !s.traceOn then s
  else if s.traceRoom = 0 then s.bump (Reg.detCnt 4) 1
  else
    let h := s.fld Reg.detTraceHeadHead
    let rec_ := toLe 8 s.stepIndex ++ toLe 4 unit ++ toLe 4 index ++ toLe 1 source ++ toLe 1 port ++ toLe 1 mb ++
      toLe 1 0 ++ toLe 4 (min elements 0xFFFFFFFF) ++ toLe 8 (pip % 2 ^ 61)
    let s := s.guardedWrite (s.fld Reg.detTraceRingBase + h % 2 ^ s.fld Reg.detTraceRingSizeLog2 * 32) rec_ 0x3001
    (s.setFld Reg.detTraceHeadHead ((h + 1) % 2 ^ 32)).bump (Reg.detCnt 3) 1

/-- Output ports of an entry that the trace records. -/
def Ent.tracePorts (x : Ent) : List PortUse := x.accesses.filter fun a => a.write && decide (a.slot < 6)

/-- Trace records that issued entries of all cores will write. -/
def State.traceDue (s : State) : Nat :=
  (s.dense.seqs.map fun q => (q.2.inFlight.map fun i =>
    match s.entryAt (ucDie q.1) (ucCluster q.1) (ucCore q.1) i with
    | some x => x.tracePorts.length
    | none => 0).sum).sum

/-! ### Issue (R128) -/

def withCore (l : List Nat) (core : Nat) (on : Bool) : List Nat :=
  if on then (if l.contains core then l else l ++ [core]) else l.filter fun x => x != core

/-- STALLED of a die follows the cores that wait. -/
def State.setStalled (s : State) (core : Nat) (on : Bool) : State :=
  let d := ucDie core
  let s := { s with dense := { s.dense with stalled := withCore s.dense.stalled core on } }
  s.setFld (Reg.cluStashStatStalled d) (b2n (s.dense.stalled.any fun k => ucDie k == d))

def State.setTraceHeld (s : State) (core : Nat) (on : Bool) : State :=
  { s with dense := { s.dense with traceHeld := withCore s.dense.traceHeld core on } }

/-- Entries of the entry's core that have issued and are not complete. -/
def State.flyingOf (s : State) (x : Ent) : List Ent :=
  (s.seq (coreCode x.die x.cl x.core)).inFlight.filterMap (s.entryAt x.die x.cl x.core)

/-- An engine of the entry still runs an earlier entry. -/
def State.enginesBusy (s : State) (x : Ent) : Bool :=
  (s.flyingOf x).any fun y => x.engineMask &&& y.engineMask != 0

/-- Weights that an entry reads, its own of an OPT_DENSE among them. -/
def Ent.weightReads (x : Ent) : List Tensor :=
  x.accesses.filterMap fun a =>
    if a.write then none
    else match x.tensorOf a.port with
      | some t => if t.role = 2 then some t else none
      | none => none

/-- The weight that an OPT_DENSE entry updates. -/
def Ent.updates (x : Ent) : Option Tensor := if x.e.op = 0x10 then x.slotTensor 0 else none

/-- Of two entries, one updates a weight with one version that the other reads: table order fixes which side of the update
the read is on (R143). -/
def Ent.ordered (x y : Ent) : Bool :=
  let hit (a b : Ent) : Bool := match a.updates with
    | some t => t.stash == 1 && b.weightReads.any fun w => w.id == t.id
    | none => false
  hit x y || hit y x

/-- An earlier entry of the core still reads or updates a weight that orders the two. -/
def State.weightBusy (s : State) (x : Ent) : Bool := (s.flyingOf x).any x.ordered

/-- The weight whose stash holds the entry back, if one does (R144). -/
def State.stashWait (s : State) (x : Ent) : Option Nat :=
  let early := x.stashReads.find? fun t => x.e.wver != 0xFF && decide (s.newest t.id < x.e.wver)
  match early with
  | some t => some t.id
  | none =>
    if x.e.op = 0x10 then
      match x.slotTensor 0 with
      | some t => if 1 < t.stash ∧ t.stash ≤ s.liveVersions t.id then some t.id else none
      | none => none
    else none

/-- An operand or result route meets a unit that is not routable: the record, and the step stops (R122). -/
def State.staleStop (s : State) (unit op : Nat) (e : Nat × Nat) : State :=
  let s := s.emit 1 0x0051 (s.siteUnit unit) op (e.1 + e.2 * 2 ^ 32)
  s.stopStep ⟨0, 0x0051, none⟩ 0

def entryOp (op : Nat) : Nat := 0x1000 + op % 256

/-- Bytes that issued entries move are demanded of their streams. -/
def State.demandStreams (s : State) (x : Ent) : State :=
  x.streamBytes.foldl (fun (s : State) p =>
    let key := streamKey x.die x.cl x.core p.1
    let ss := s.stream key
    s.setStream key { ss with demand := ss.demand + p.2.2 }) s

/-! ### EXCHANGE (R153) -/

/-- Which of its core's like exchanges an entry is. -/
def exchangeRank (sch : Schedule) (idx : Nat) : Nat :=
  match sch.entries[idx]? with
  | none => 0
  | some e => ((sch.entries.take idx).filter fun y => y.op == 0x11 && y.param == e.param && y.mb == e.mb).length

/-- The package's entries of one exchange, by die, cluster and core. -/
def State.exchangePeers (s : State) (x : Ent) : List Ent :=
  let cores := (List.range 4).flatMap fun d => (List.range 16).flatMap fun c => (List.range 8).map fun k => (d, c, k)
  cores.filterMap fun p =>
    match s.schedule (coreCode p.1 p.2.1 p.2.2) with
    | none => none
    | some sch =>
      let i := (List.range sch.entries.length).find? fun i =>
        match sch.entries[i]? with
        | some y => y.op == 0x11 && y.param == x.e.param && y.mb == x.e.mb &&
            exchangeRank sch i == exchangeRank x.sch x.idx
        | none => false
      match i with
      | some i => s.entryAt p.1 p.2.1 p.2.2 i
      | none => none

/-- Packages that take part in an exchange: the members of the assigned set where the entry names it, and this package
alone where it names another (DESIGN CHOICE, log entry 159). -/
def State.exchangePackages (s : State) (x : Ent) : Nat :=
  if x.p32 4 = s.fld Reg.hubFleetStatusSetId then max 1 s.fleet.members.length else 1

/-- The exchange reaches other packages. -/
def State.exchangeRemote (s : State) (x : Ent) : Bool := decide (1 < s.exchangePackages x)

/-- This package's place among them: its rank. -/
def State.exchangeRank (s : State) (x : Ent) : Nat := if s.exchangeRemote x then s.dpRank else 0

/-- Participants of this package with their numbers in the exchange: `n` entries of package rank `k` are participants
kn to kn + n − 1 (DESIGN CHOICE, log entry 159). -/
def State.ownParts (s : State) (x : Ent) (peers : List Ent) : List (Nat × Ent) :=
  (enum0 peers).map fun p => (s.exchangeRank x * peers.length + p.1, p.2)

/-! ### Data of other packages (R350) -/

/-- An entry or a Press job of the die names the event as its SIGNAL. -/
def State.namedEvent (s : State) (d ev : Nat) : Bool :=
  (s.schedules.any fun sc => ucDie sc.1 == d && sc.2.entries.any fun e => e.signal == ev) ||
  (List.range s.imageClusters).any fun c => (s.plan d c).jobs.any fun j => j.signal == ev

/-- Committed pieces of the running step from package `peer` for the event `sig` of die `d`, in rising order of their
addresses: R458 gives a message its event and its address, and no rule an order or a place to each value (DESIGN CHOICE,
log entry 13). An entry or job that signals no event takes the pieces for events that none signals. -/
def State.piecesFrom (s : State) (peer d sig : Nat) : List (Nat × List Byte) :=
  let mine := s.chk.received.filter fun x => x.peer == peer && x.die == d &&
    (if sig = 0xFFFF then !s.namedEvent d x.event else x.event == sig)
  (mine.map fun x => (x.addr, x.bytes)).foldr insertKey []

/-- Their bytes, those alone whose address passes a test. -/
def State.bytesFrom (s : State) (peer d sig : Nat) (here : Nat → Bool) : List Byte :=
  ((s.piecesFrom peer d sig).filter fun p => here p.1).flatMap Prod.snd

/-- What the package of rank `k` sent for an entry of an exchange. -/
def State.exchangeBytes (s : State) (y : Ent) (k : Nat) : List Byte :=
  s.bytesFrom (s.fleet.members.getD k k) y.die y.e.signal fun _ => true

/-- Ranks of the other packages of an exchange. -/
def State.farRanks (s : State) (x : Ent) : List Nat :=
  (List.range (s.exchangePackages x)).filter fun k => k != s.exchangeRank x

/-- Canonical nodes that package `k` combines over its `n` participants: the maximal aligned blocks of kn to kn + n − 1
(R70, R153). -/
def packageNodes (k n : Nat) : List (Nat × Nat) := alignedBlocks (2 * n + 2) (k * n) (k * n + n)

/-- Row and column of element `n` of a participant's partial. -/
def Src.cellOf (r : Src) (n : Nat) : Nat × Nat := (n / max 1 r.grid.cols, n % max 1 r.grid.cols)

/-- Any participant of this package brings poison to element `n`. -/
def State.exchangeBad (s : State) (peers : List Ent) (n : Nat) : Bool :=
  peers.any fun y => match s.src y 0 with
    | some r => s.srcBad r (r.cellOf n).1 (r.cellOf n).2
    | none => false

/-- This package's partials of element `n`, by participant, as parts of the tree over participants. -/
def State.ownLeaves (s : State) (x : Ent) (peers : List Ent) (n : Nat) : List (Nat × Nat × Nat) :=
  (s.ownParts x peers).filterMap fun p => (s.src p.2 0).map fun r =>
    (p.1, 0, s.srcF32 p.2 r (r.cellOf n).1 (r.cellOf n).2)

/-- Element `i` of the share of `y`, combined at the canonical nodes over participants (R153, mode 0): this package's
partials, and the nodes that each other package sent. -/
def State.exchangeSum (s : State) (y : Ent) (peers : List Ent) (base i : Nat) : Nat :=
  let far := (s.farRanks y).flatMap fun k =>
    let nodes := packageNodes k peers.length
    (enum0 nodes).map fun b => (b.2.1, b.2.2, le (s.exchangeBytes y k) ((i * nodes.length + b.1) * 4) 4)
  let all := s.ownLeaves y peers (base + i) ++ far
  (((combineUp fAdd 24 0 all []).head?).map Prod.snd).getD 0

/-- Element `i` of the share of `y` as the exact sum over participants, with its class, and whether a package's sum is
refused (R153, mode 1). -/
def State.exchangeAcc (s : State) (y : Ent) (peers : List Ent) (base i : Nat) : Acc × Nat × Bool :=
  let n := base + i
  let own := peers.filterMap fun w => (s.src w 0).map fun r => toLe 16 (s.srcRaw r (r.cellOf n).1 (r.cellOf n).2)
  let far := (s.farRanks y).map fun k => sliceBytes (s.exchangeBytes y k) (16 * i) 16
  let all := own ++ far
  (all.foldl (fun (a : Acc) b => a.add (Acc.ofBytes b)) Acc.zero,
    (match all with | b :: _ => accClassOf b | [] => 1), far.any accRefused)

/-- The participant that supplies row `i` of an all-gather: participant q's rows stand at q × R. -/
def Ent.gatherFrom (x : Ent) (i : Nat) : Nat × Nat := (i / max 1 (x.p32 8), i % max 1 (x.p32 8))

/-- Bytes of one row that a participant of an all-gather sends, before the row scales of an SQ tensor. -/
def Tensor.rowBytes (t : Tensor) : Nat := t.d0 * elemSize t.fmt

/-- Row `i` of an all-gather's result in the tensor `t`: its values and, of an SQ tensor, the scale. -/
def State.gatherRow (s : State) (x : Ent) (peers : List Ent) (t : Tensor) (i : Nat) : List (Nat × Bool) × Nat × Bool :=
  let q := x.gatherFrom i
  let n := max 1 peers.length
  let cols := List.range (x.d0 0)
  match ((s.ownParts x peers).find? fun p => p.1 == q.1).bind fun p => (s.src p.2 0).map fun r => (p.2, r) with
  | some (y, r) =>
    (cols.map fun j => (s.srcRaw r q.2 j, s.srcBad r q.2 j), s.scaleOf y.ts r.t (r.elem q.2 0), false)
  | none =>
    let bs := match peers[q.1 % n]? with
      | some y => s.exchangeBytes y (q.1 / n)
      | none => []
    (cols.map fun j => (le bs (q.2 * t.rowBytes + j * elemSize t.fmt) (elemSize t.fmt) % 2 ^ fmtBits t.fmt, false),
      le bs (max 1 (x.p32 8) * t.rowBytes + 4 * q.2) 4, false)

/-- An all-gather's result: the rows of every participant, and the scales of an SQ tensor's rows. -/
def State.gatherResult (s : State) (x : Ent) (peers : List Ent) (t : Tensor) : List Result :=
  let total := s.exchangePackages x * peers.length * max 1 (x.p32 8)
  let rows := (List.range (min total (x.exchangeShare / max 1 (x.d0 0)))).map (s.gatherRow x peers t)
  ⟨3, true, [rows.flatMap Prod.fst]⟩ ::
    if t.fmt = fmtSq8 ∨ t.fmt = fmtSq4 then [⟨32, true, [rows.map Prod.snd]⟩] else []

/-- Elements that a participant's result starts after: its share of the whole. -/
def Ent.shareBase (y : Ent) (r : Nat) : Nat := if y.exchangeShare = y.e.rows * y.d0 0 then 0 else r * y.exchangeShare

/-- What participant `r`, the entry `y`, writes. -/
def State.exchangeResult (s : State) (peers : List Ent) (y : Ent) (r : Nat) : List Result × List (Nat × Nat) :=
  match y.slotTensor 3 with
  | none => ([], [])
  | some t =>
    let share := List.range y.exchangeShare
    let base := y.shareBase r
    if y.p8 0 = 2 then (s.gatherResult y peers t, [])
    else if y.p8 0 = 1 then
      clampedResult 3 [share.map fun i =>
        let z := s.exchangeAcc y peers base i
        (s.accBits y t.fmt z.2.1 (y.origin (y.portNo 3) + i) z.1, z.2.2 || s.exchangeBad peers (base + i))]
    else
      ([⟨3, false, [share.map fun i => (s.exchangeSum y peers base i, s.exchangeBad peers (base + i))]⟩], [])

/-- The tiles of an entry that its core computes twice in twin mode: core, entry, engine, operation. -/
def State.twinTiles (s : State) (x : Ent) : List (Nat × Nat × Nat × Nat) :=
  if s.fldB Reg.chkTwinCtrlEnable then
    (engList x.engineMask).map fun e => (coreCode x.die x.cl x.core, x.idx, e, x.e.op)
  else []

/-- The copy that an OPT_DENSE entry's new version of its weight has, or takes once the entry completes (R143). -/
def State.writtenCopy (s : State) (x : Ent) (t : Tensor) : Nat :=
  if 1 < t.stash ∧ x.e.wver < s.newest t.id then s.copyOf t (x.e.wver + 1) else s.nextCopy t

/-- Elements that an entry writes to memory: address and bytes. -/
def State.entryWrites (s : State) (x : Ent) : List (Nat × Nat) :=
  x.accesses.flatMap fun a =>
    match x.tensorOf a.port, x.streamOf a with
    | some t, none =>
      if !a.write then []
      else
        let o := x.origin a.port + a.grid.off
        let ver := if x.e.op = 0x10 ∧ a.slot = 0 then s.writtenCopy x t else s.copyOf t (x.versionOf t)
        (List.range a.grid.rows).flatMap fun i => (List.range a.grid.cols).map fun j =>
          (t.addr ver (o + i * a.grid.stride + j), elemSize t.fmt)
    | _, _ => []

/-- Tiles that wrote part of some ranges and whose twin comparison is outstanding (R343). -/
def State.tilesOf (s : State) (rs : List (Nat × Nat)) : List (Nat × Nat × Nat × Nat) :=
  s.chk.twinPending.filter fun p =>
    match s.entryAt (ucDie p.1) (ucCluster p.1) (ucCore p.1) p.2.1 with
    | some x => (s.entryWrites x).any fun r => rs.any fun q => overlaps r.1 r.2 q.1 q.2
    | none => false

/-- Rows of a place to read: address and bytes. -/
def Src.ranges (r : Src) : List (Nat × Nat) :=
  (List.range r.grid.rows).map fun i => (r.t.addr r.ver (r.elem i 0), r.grid.cols * elemSize r.t.fmt)

/-- The tiles behind what entry `y` sends: those that wrote the rows it gathers, or, where it combines, those behind every
participant's rows. -/
def State.exchangeTiles (s : State) (peers : List Ent) (y : Ent) : List (Nat × Nat × Nat × Nat) :=
  let of := fun w => match s.src w 0 with
    | some (r : Src) => r.ranges
    | none => []
  if y.p8 0 = 2 then s.tilesOf (of y) else s.tilesOf (peers.flatMap of)

/-- Element `n` of a reduce-scatter as this package sends it: the exact sum over its participants, or the value at each of
its canonical nodes. -/
def State.sentElem (s : State) (y : Ent) (peers : List Ent) (n : Nat) : List Byte :=
  if y.p8 0 = 1 then
    let zs := peers.filterMap fun w => (s.src w 0).map fun q => toLe 16 (s.srcRaw q (q.cellOf n).1 (q.cellOf n).2)
    (zs.foldl (fun (a : Acc) b => a.add (Acc.ofBytes b)) Acc.zero).toBytes (match zs with | b :: _ => accClassOf b | [] => 1)
  else
    (packageNodes (s.exchangeRank y) peers.length).flatMap fun b =>
      let leaves := ((s.ownLeaves y peers n).filter fun p => decide (b.1 ≤ p.1 ∧ p.1 < b.1 + 2 ^ b.2)).map
        fun p => (p.1, p.2.2)
      toLe 4 ((((keyTree fAdd b.2 leaves).head?).map Prod.snd).getD 0)

/-- What this package sends to the package of rank `k`, by entry: its own rows in an all-gather, with their scales, and
for a reduce-scatter the shares of that package's participants, combined over its own. -/
def State.exchangeSends (s : State) (peers : List Ent) (k : Nat) : List (List Byte × Bool × List (Nat × Nat × Nat × Nat)) :=
  (enum0 peers).map fun p =>
    let y := p.2
    let ts := s.exchangeTiles peers y
    match s.src y 0 with
    | none => ([], false, [])
    | some r =>
      if y.p8 0 = 2 then
        let els := (List.range r.grid.rows).flatMap fun i => (List.range r.grid.cols).map fun j => (i, j)
        let scales := if r.t.fmt = fmtSq8 ∨ r.t.fmt = fmtSq4 then
            (List.range r.grid.rows).flatMap fun i => toLe 4 (s.scaleOf y.ts r.t (r.elem i 0)) else []
        ((els.flatMap fun e => toLe (elemSize r.t.fmt) (s.srcRaw r e.1 e.2)) ++ scales,
          els.any fun e => s.srcBad r e.1 e.2, ts)
      else
        let els := (List.range y.exchangeShare).map (y.shareBase (k * peers.length + p.1) + ·)
        (els.flatMap (s.sentElem y peers), els.any fun n => s.exchangeBad peers n, ts)

/-- Committed bytes that an entry of an exchange waits for from the package of rank `k` (R350; DESIGN CHOICE, log entry
159). -/
def exchangeExpects (peers : List Ent) (y : Ent) (k : Nat) : Nat :=
  if y.p8 0 = 2 then
    match y.slotTensor 0 with
    | some t => y.e.rows * (t.rowBytes + if t.fmt = fmtSq8 ∨ t.fmt = fmtSq4 then 4 else 0)
    | none => 0
  else y.exchangeShare * if y.p8 0 = 1 then 16 else 4 * (packageNodes k peers.length).length

/-- Read streams of the entry hold the bytes it reads, and no earlier entry in flight reads or writes a stream that it
reads or writes: a stream's bytes pass in the order of the table (R197). -/
def State.streamsReady (s : State) (x : Ent) : Bool :=
  let core := coreCode x.die x.cl x.core
  x.streamBytes.all fun p =>
    (p.2.1 || decide (((x.streamBytes.filter fun q => q.1 == p.1 && !q.2.1).map fun q => q.2.2).sum ≤
        (s.stream (streamKey x.die x.cl x.core p.1)).buf.length)) &&
      !(s.seq core).inFlight.any fun i =>
        decide (i < x.idx) && match s.entryAt x.die x.cl x.core i with
          | some y => y.streamBytes.any fun q => q.1 == p.1 && q.2.1 == p.2.1
          | none => false

/-- Every entry of the package that takes part in the exchange has issued. -/
def State.exchangeIssued (s : State) (peers : List Ent) : Bool :=
  peers.all fun y => decide (y.idx < (s.seq (coreCode y.die y.cl y.core)).next)

/-- The exchange's data leaves for the other packages, once every entry of this package has issued and its operands are
there (R153). -/
def State.sendExchange (s : State) (x : Ent) : State :=
  let peers := s.exchangePeers x
  let mark := (coreCode x.die x.cl x.core, x.idx)
  if x.e.op ≠ 0x11 ∨ s.dense.exchangeSent.contains mark ∨ !s.exchangeRemote x ∨ !s.exchangeIssued peers ∨
      !peers.all s.streamsReady then s
  else
    let sends := (s.farRanks x).map fun k => (s.fleet.members.getD k k, s.exchangeSends peers k)
    let s := { s with dense := { s.dense with exchangeSent := s.dense.exchangeSent ++
        (peers.map fun y => (coreCode y.die y.cl y.core, y.idx)) } }
    sends.foldl (fun (s : State) p => p.2.foldl (fun (s : State) b => s.sendData p.1 b.1 b.2.1 b.2.2) s) s

/-! ### An entry issues (R128) -/

def State.issueEntry (s : State) (x : Ent) : State :=
  let core := coreCode x.die x.cl x.core
  match s.staleOf x with
  | some e => s.staleStop core (entryOp x.e.op) e
  | none =>
    match s.stashWait x with
    | some t => (s.setStalled core true).setFld (Reg.cluStashStatStallTensor x.die) t
    | none =>
      let s := s.setStalled core false
      if s.traceOn && s.fldB Reg.detCtrlTraceHold && decide (s.traceRoom < s.traceDue + x.tracePorts.length) then
        s.setTraceHeld core true
      else
        let s := s.setTraceHeld core false
        let q := s.seq core
        ((s.setSeq core ⟨q.next + 1, q.inFlight ++ [x.idx]⟩).demandStreams x).sendExchange x

def State.scheduleEntryIssue (s : State) (d c k : Nat) : State :=
  let core := coreCode d c k
  match s.entryAt d c k (s.seq core).next with
  | none => s
  | some x => if s.stepRunning && s.mayIssue d && s.waitOk x.e.wait && !s.enginesBusy x && !s.weightBusy x then s.issueEntry x else s

def execScheduleEntryIssue (die : Fin 4) (cluster : Fin 16) (core : Fin 8) (s : State) :
    Host.Outcome State Fault Refusal :=
  done (s.scheduleEntryIssue die cluster core)

/-! ### Completion -/

/-- The bytes the entry read leave their streams. -/
def State.takeStreams (s : State) (x : Ent) : State :=
  x.streamBytes.foldl (fun (s : State) p =>
    if p.2.1 then s
    else
      let key := streamKey x.die x.cl x.core p.1
      let ss := s.stream key
      s.setStream key { ss with buf := ss.buf.drop p.2.2, moved := ss.moved + p.2.2 }) s

def State.pip (s : State) (t : Nat) : PipState := Tab.get PipState.init t s.chk.pips

def State.setPip (s : State) (t : Nat) (p : PipState) : State :=
  { s with chk := { s.chk with pips := Tab.set PipState.init t p s.chk.pips } }

/-- Weight pips of an entry's reads of the version the step began with (R346). -/
def State.notePipReads (s : State) (x : Ent) : State :=
  x.accesses.foldl (fun (s : State) a =>
    match x.tensorOf a.port, s.src x a.slot with
    | some t, some r =>
      if a.write ∨ t.role ≠ 2 ∨ x.versionOf t ≠ 0 ∨ (t.stash ≤ 1 ∧ s.newest t.id ≠ 0) then s
      else
        let p := s.pip t.id
        let els := (List.range a.grid.rows).flatMap fun i => (List.range a.grid.cols).map fun j => (i, j)
        let new := els.filter fun e => !p.seen.contains (r.elem e.1 e.2)
        let sum := new.foldl (fun acc e => (acc + pipTerm pipM1 (r.elem e.1 e.2) (s.srcRaw r e.1 e.2)) % pipP)
          (p.curRead.getD 0)
        s.setPip t.id { p with curRead := some sum, seen := p.seen ++ new.map fun e => r.elem e.1 e.2 }
    | _, _ => s) s

/-- The write pip of an OPT_DENSE that writes its weight whole. -/
def State.notePipWrite (s : State) (x : Ent) (outs : List Out) : State :=
  if x.e.op ≠ 0x10 then s
  else
    match outs.find? fun o => o.slot == 0 with
    | none => s
    | some o =>
      let p := s.pip o.t.id
      let sum := o.cells.foldl (fun acc c => (acc + pipTerm pipM1 c.elem c.raw) % pipP) 0
      s.setPip o.t.id { p with curWrite := some (if o.cells.length = o.t.count then some sum else none) }

/-- The next version of a stashed weight takes its copy, which starts from the bytes of the version before. -/
def State.copyVersion (s : State) (t : Tensor) (v : Nat) : State :=
  if t.stash ≤ 1 then s
  else
    let c := s.nextCopy t
    let old := s.read (t.start + s.copyOf t v * t.copyStep) t.elemBytes
    let s := { s with dense := { s.dense with slots := Tab.set 0 (65536 * t.id + v + 1) c s.dense.slots } }
    s.writeNoted (t.start + c * t.copyStep) old

/-- A weight lies on a die: its home is there, or it is striped over the package. -/
def Tensor.onDie (t : Tensor) (d : Nat) : Bool := t.home == packageCode || ucDie t.home == d

/-- MAX_LIVE of every die follows the versions live now (R146). -/
def State.noteLive (s : State) : State :=
  let ws := s.tensors.filter fun t => t.role == 2
  (List.range 4).foldl (fun (s : State) d =>
    let live := ((ws.filter fun t => t.onDie d).map fun t => s.liveVersions t.id).foldl max 0
    if s.fld (Reg.cluStashStatMaxLive d) < live then s.setFld (Reg.cluStashStatMaxLive d) live else s) s

/-- MAX_LIVE starts again at a seam, where one version of each weight is live (R145, R146). -/
def State.seamLive (s : State) : State :=
  ((List.range 4).foldl (fun (s : State) d => s.setFld (Reg.cluStashStatMaxLive d) 0) s).noteLive

/-- A new version exists, and MAX_LIVE follows (R143, R146). -/
def State.addVersion (s : State) (x : Ent) : State :=
  if x.e.op ≠ 0x10 then s
  else
    match x.slotTensor 0 with
    | none => s
    | some t =>
      ({ s with dense := { s.dense with versions := Tab.put t.id (s.newest t.id + 1) s.dense.versions } }).noteLive

/-- Engine that converts an output element. The spec leaves the split of an entry's outputs over its engines to the
image's N_e (R133): here blocks of 32 columns of a MATMUL go in turn to the engines of its first K range, and rows of
another operation to its engines (DESIGN CHOICE, log entry 154). -/
def Ent.engineFor (x : Ent) (i j : Nat) : Option Nat :=
  if x.e.op = 0x01 then
    let es := (x.recs.filter fun r => r.2.kRange.1 == x.kHull.1).map Prod.fst
    es[j / 32 % max 1 es.length]?
  else
    let es := engList x.e.engines
    es[i % max 1 es.length]?

/-- SATURATIONS of each engine gains the outputs that it clamped (R68, R370). -/
def State.countClamps (s : State) (x : Ent) (places : List (Nat × Nat)) : State :=
  places.foldl (fun (s : State) p =>
    match x.engineFor p.1 p.2 with
    | some e => s.bump (Reg.echkCnt x.die x.cl x.core e 0) 1
    | none => s) s

/-- One record for each output port P0 to P5, over all that went through it: dV shares P5 with dK (R431). -/
def State.traceOuts (s : State) (x : Ent) (outs : List Out) : State :=
  (outs.filter fun o => decide (o.slot < 6)).foldl (fun (s : State) o =>
    let cells := o.cells ++ (outs.filter fun p => o.slot == 5 && p.slot == 6).flatMap Out.cells
    s.trace (coreCode x.die x.cl x.core) x.idx 0 o.slot x.e.mb cells.length
      (cells.foldl (fun acc c => (acc + pipTerm pipM1 c.elem c.raw) % pipP) 0)) s

/-- The entry's tiles become outstanding twin comparisons (R343). -/
def State.noteTwins (s : State) (x : Ent) : State :=
  { s with chk := { s.chk with twinPending := s.chk.twinPending ++ s.twinTiles x } }

/-- Writes of all outputs, in slot order. -/
def State.putOuts (s : State) (x : Ent) (outs : List Out) : State :=
  outs.foldl (fun (s : State) o => s.putOut x o) s

/-- An entry's results go to their places. -/
def State.finish (s : State) (x : Ent) (rs : List Result) (clamps : List (Nat × Nat)) : State :=
  let s := s.notePipReads x
  let s := if x.e.op = 0x10 then
      match x.slotTensor 0 with
      | some t => s.copyVersion t (s.newest t.id)
      | none => s
    else s
  let outs := rs.flatMap (s.outOf x)
  let s := s.takeStreams x
  let s := s.putOuts x outs
  let s := s.notePipWrite x outs
  let s := s.addVersion x
  let s := s.countClamps x (clamps ++ outs.flatMap Out.clamps)
  s.traceOuts x outs

def State.leaveFlight (s : State) (x : Ent) : State :=
  let core := coreCode x.die x.cl x.core
  let q := s.seq core
  s.setSeq core ⟨q.next, q.inFlight.filter fun i => i != x.idx⟩

/-- Everything that an entry writes marked poisoned (R83). -/
def State.poisonOutputs (s : State) (x : Ent) : State :=
  (s.entryWrites x).foldl (fun (s : State) r => (s.poisonRange r.1 r.2).noteWrite r.1 (s.read r.1 r.2)) s

/-- Code of a residue path (Table 10.5). -/
def pathCode : ResiduePath → Nat
  | .product => 0
  | .accumulator => 1
  | .combining => 2
  | .adder => 3
  | .conversion => 4
  | .vector => 5

/-- Record kind, counter and syndrome of a failed check (Table 10.5); `p` is the residue predicted on its path. -/
def faultRecord (p : Nat) : CheckFault → Nat × Nat × Nat
  | .residue lane path _ _ e c =>
    (0x0001, 1, lane.toNat + pathCode path * 2 ^ 6 + residue31 (p + c) * 2 ^ 16 + residue31 (p + e) * 2 ^ 24)
  | .duplicate lane g => (0x0002, 2, lane.toNat + g.toNat * 2 ^ 8)
  | .parity lane p => (0x0003, 3, lane.toNat * 2 ^ 48 + p.toNat * 2 ^ 54)

/-- The residue check passes a fault: prediction and value agree mod 31 (R85). -/
def faultBlind : CheckFault → Bool
  | .residue _ _ _ _ e c => residueBlind (e - c)
  | _ => false

/-- The output element whose value is off without its residue showing it (R85). -/
def faultEscapes : CheckFault → Option Nat
  | .residue _ _ elem _ e c => if residueBlind (e - c) && e != 0 then some elem else none
  | _ => none

/-- The residue that a checker without fault predicts on the path of a fault in engine `e`. -/
def State.predictedOf (s : State) (x : Ent) (e hole : Nat) : CheckFault → Nat
  | .residue _ path elem k _ _ => s.predictedResidue x e path elem k hole
  | _ => 0

/-- The check that failed is one of the engine's own: PARITY counts those at its operand entry, point 0 (R370). -/
def atEngine : CheckFault → Bool
  | .parity _ p => p.toNat == 0
  | _ => true

/-- The unit of an entry that a failed check is charged to (Table 11.4), and its key: the engine; the core for parity at
a stream ring, the cluster at a router, no unit where the byte was in flight past them. -/
def State.faultUnit (s : State) (x : Ent) (e : Nat) (f : CheckFault) : Nat × Nat :=
  let u := engineCode x.die x.cl x.core e
  let c := coreCode x.die x.cl x.core
  match f with
  | .parity _ p =>
    if p.toNat = 0 ∨ p.toNat = 8 then (u, unitKey 1 (s.physOf u))
    else if p.toNat = 1 then (c, unitKey 2 (s.physOf c))
    else if p.toNat = 2 then (clusterCode x.die x.cl, unitKey 3 (s.physOf (clusterCode x.die x.cl)))
    else (u, 0)
  | _ => (u, unitKey 1 (s.physOf u))

/-- A failed check: outputs poisoned, the record, and the step stops (R83). -/
def State.failEntry (s : State) (x : Ent) (e : Nat) (f : CheckFault) : State :=
  let h := s.free
  let r := faultRecord (s.predictedOf x e h.1 f) f
  let s := h.2
  let u := s.faultUnit x e f
  let s := (s.poisonOutputs x).leaveFlight x
  let s := if atEngine f then s.bump (Reg.echkCnt x.die x.cl x.core e r.2.1) 1 else s
  let s := s.emit 1 r.1 (s.siteUnit u.1) (entryOp x.e.op) r.2.2
  s.stopStep ⟨u.2, r.1, none⟩ 0

/-- All entries of an exchange write their results together; the others complete later with nothing to write. -/
def State.finishExchange (s : State) (x : Ent) : State :=
  let core := coreCode x.die x.cl x.core
  if s.dense.exchanged.contains (core, x.idx) then s
  else
    let peers := s.exchangePeers x
    let results := (s.ownParts x peers).map fun p => (p.2, s.exchangeResult peers p.2 p.1)
    let s := results.foldl (fun (s : State) p => s.finish p.1 p.2.1 p.2.2) s
    { s with dense := { s.dense with exchanged := s.dense.exchanged ++
        (peers.map fun y => (coreCode y.die y.cl y.core, y.idx)) } }

/-- The exchange can combine: every entry of the package has issued, and the data of the other packages has been
committed (R350). -/
def State.exchangeReady (s : State) (x : Ent) : Bool :=
  let peers := s.exchangePeers x
  s.exchangeIssued peers && peers.all fun y => (s.farRanks y).all fun k =>
    decide (exchangeExpects peers y k ≤ (s.exchangeBytes y k).length)

/-- Memory that an entry's ports read directly. -/
def State.entryReads (s : State) (x : Ent) : List (Nat × Nat) :=
  x.accesses.flatMap fun a =>
    match s.src x a.slot with
    | some r =>
      if a.write || r.buf.isSome then []
      else (List.range r.grid.rows).flatMap fun i => (List.range r.grid.cols).map fun j =>
        (r.t.addr r.ver (r.elem i j), elemSize r.t.fmt)
    | none => []

/-- The code results of an entry's reads (R217 to R219). -/
def State.meetEntryReads (s : State) (x : Ent) (es : List MemError) : State :=
  if es = [] ∧ s.mm.lineMeta = [] ∧ s.mm.t2Poison = [] then s
  else s.meetReads ⟨s.entryReads x, (engList x.e.engines).map (engineCode x.die x.cl x.core), none⟩ (entryOp x.e.op) es

/-- Write streams of a core have written their last chunks (R197). -/
def State.streamsWritten (s : State) (d c k : Nat) : Bool :=
  (s.diePlan d).streams.all fun y =>
    y.core != coreCode d c k || y.dir == 0 || decide (y.total ≤ (s.stream (streamKey d c k y.stream)).written)

/-- The core's last entry. -/
def Ent.last (x : Ent) : Bool := x.idx + 1 == x.sch.entries.length

/-- An entry whose results stand retires: it leaves the sequencer and sets its event (R128). A core's last entry waits
for its write streams. -/
def State.retireEntry (s : State) (x : Ent) : State :=
  let core := coreCode x.die x.cl x.core
  if x.last && !s.streamsWritten x.die x.cl x.core then
    { s with dense := { s.dense with draining := withCore s.dense.draining core true } }
  else
    let s := { s with dense := { s.dense with draining := withCore s.dense.draining core false } }
    (s.leaveFlight x).signal x.die x.e.signal

/-- An error that no residue shows leaves an open value in one element of the entry's first output (R85). -/
def State.escapeElem (s : State) (x : Ent) (elem : Nat) : State :=
  match x.accesses.find? fun a => a.write with
  | none => s
  | some a =>
    match x.tensorOf a.port with
    | none => s
    | some t =>
      let w := max 1 a.grid.cols
      let n := x.origin a.port + a.grid.off + elem / w * a.grid.stride + elem % w
      if elem < a.elems ∧ (x.streamOf a).isNone then
        s.tickFree.writeElem t (s.copyOf t (x.versionOf t)) n (freeAt s.fresh 0 % 2 ^ fmtBits t.fmt)
      else s

/-- What a sum over nothing in a backward attention operation gives: open, and the same whenever the step runs (log entry
12). -/
def State.holeOf (s : State) (x : Ent) : Nat :=
  let out := match x.slotTensor 5 with
    | some t => t.id
    | none => 0
  freeAt s.stepIndex (2 ^ 80 + out * 256 + x.e.mb) % 2 ^ 32

/-- The entry's results go to their places. -/
def State.runEntry (s : State) (x : Ent) : State :=
  if x.e.op = 0x11 then s.finishExchange x
  else
    let r := s.compute x (s.holeOf x)
    s.finish x r.1 r.2

/-- Every check of the entry has passed, or a fault escaped at an element. An uncorrectable error in what it read
stopped the step: its outputs are poisoned. -/
def State.passEntry (s : State) (x : Ent) (escaped : Option Nat) (ecc : List MemError) : State :=
  let s := s.meetEntryReads x ecc
  if !s.stepRunning then (s.poisonOutputs x).leaveFlight x
  else
    let s := s.runEntry x
    let s := match escaped with | some e => s.escapeElem x e | none => s
    (s.noteTwins x).retireEntry x

def State.entryComplete (s : State) (d c k idx : Nat) (fault : Option (Nat × CheckFault)) (ecc : List MemError) :
    State :=
  match s.entryAt d c k idx with
  | none => s
  | some x =>
    if !s.stepRunning || !(s.seq (coreCode d c k)).inFlight.contains idx ||
        s.dense.draining.contains (coreCode d c k) && x.last then s
    else
      let s := s.sendExchange x
      let ready := s.streamsReady x && (x.e.op != 0x11 || s.exchangeReady x)
      match fault with
      | some (e, f) =>
        if faultBlind f then (if ready then s.passEntry x (faultEscapes f) ecc else s) else s.failEntry x e f
      | none => if ready then s.passEntry x none ecc else s

def execEntryComplete (die : Fin 4) (cluster : Fin 16) (core : Fin 8) (entry : Nat)
    (events : EntryEvents) (s : State) : Host.Outcome State Fault Refusal :=
  done (s.entryComplete die cluster core entry (events.fault.map fun f => (f.1.val, f.2)) events.ecc)

/-! ### Twin comparison (R343, R344) -/

/-- R351: the epochs that carry data of a failed tile are poisoned in place of their tokens. -/
def State.poisonEpochs (s : State) (tile : Nat × Nat × Nat × Nat) : State :=
  let bad := s.chk.epochsOut.filter fun x => x.tiles.contains tile
  let s := { s with chk := { s.chk with epochsOut := s.chk.epochsOut.filter fun x => !x.tiles.contains tile } }
  bad.foldl (fun (s : State) x => s.transferPoison 0x0030 x.epoch s.fleetIndex (s.routeLink x.peer) 0) s

def State.twinComparison (s : State) (d c k e : Nat) (mismatch : Option (Nat × Bool × Nat)) : State :=
  let core := coreCode d c k
  match s.chk.twinPending.find? fun p => p.1 == core && p.2.2.1 == e with
  | none => s
  | some p =>
    let s := { s with chk := { s.chk with twinPending := s.chk.twinPending.erase p } }
    match mismatch, s.entryAt d c k p.2.1 with
    | some m, some x =>
      let partner := (e + 1) % 8
      let u := engineCode d c k e
      let s := s.poisonOutputs x
      let s := (s.bump (Reg.echkCnt d c k e 4) 1).bump (Reg.chkCnt 11) 1
      let s := s.emit 1 0x0020 (s.siteUnit u) (entryOp p.2.2.2)
        (partner + m.1 * 2 ^ 3 + b2n m.2.1 * 2 ^ 9 + m.2.2 * 2 ^ 16)
      let s := s.stopStep ⟨unitKey 1 (s.physOf u), 0x0020, none⟩ 0
      let other : StopCause := ⟨unitKey 1 (s.physOf (engineCode d c k partner)), 0x0020, none⟩
      State.poisonEpochs { s with flt := { s.flt with causes := s.flt.causes ++ [other] } } p
    | _, _ => s

def execTwinComparison (die : Fin 4) (cluster : Fin 16) (core : Fin 8) (engine : Fin 8)
    (mismatch : Option (BitVec 6 × Bool × BitVec 16)) (s : State) : Host.Outcome State Fault Refusal :=
  done (s.twinComparison die cluster core engine (mismatch.map fun m => (m.1.toNat, m.2.1, m.2.2.toNat)))

/-! ### Streams (R197) -/

/-- Address of a ring slot in the core's scratchpad. -/
def StreamD.slotAddr (x : StreamD) (n : Nat) : Nat :=
  scratchAddr (ucDie x.core) (ucCluster x.core) (ucCore x.core) + x.ring + n % max 1 x.depth * x.chunk

/-- Chunks of a read stream whose slot is not free: in flight, or holding bytes that no issued entry takes. -/
def StreamState.held (ss : StreamState) (chunk : Nat) : Nat :=
  ss.issued - min (ss.arrived * chunk) ss.demand / max 1 chunk

def State.streamChunkRead (s : State) (d c k st : Nat) : State :=
  match s.streamD d c k st with
  | none => s
  | some x =>
    let ss := s.stream (streamKey d c k st)
    if s.stepRunning && x.dir == 0 && decide (ss.issued < x.total) && decide (ss.held x.chunk < x.depth) then
      s.setStream (streamKey d c k st) { ss with issued := ss.issued + 1 }
    else s

def execStreamChunkRead (die : Fin 4) (cluster : Fin 16) (core : Fin 8) (stream : Fin 16) (s : State) :
    Host.Outcome State Fault Refusal :=
  done (s.streamChunkRead die cluster core stream)

def State.streamChunkArrive (s : State) (d c k st : Nat) (ecc : List MemError) : State :=
  match s.streamD d c k st with
  | none => s
  | some x =>
    let ss := s.stream (streamKey d c k st)
    if s.stepRunning && x.dir == 0 && decide (ss.arrived < ss.issued) then
      let a := x.chunkAddr ss.arrived
      let data := s.read a x.chunk
      let s := s.meetReads (.of [(a, x.chunk)]) 0x3000 ecc
      let bad := s.isPoisoned a x.chunk
      let s := s.write (x.slotAddr ss.arrived) data
      let s := if bad then s.poisonRange (x.slotAddr ss.arrived) x.chunk else s
      s.setStream (streamKey d c k st)
        { ss with arrived := ss.arrived + 1, buf := ss.buf ++ data,
                  bad := if bad then ss.bad ++ [ss.arrived] else ss.bad }
    else s

def execStreamChunkArrive (die : Fin 4) (cluster : Fin 16) (core : Fin 8) (stream : Fin 16) (ecc : List MemError)
    (s : State) : Host.Outcome State Fault Refusal :=
  done (s.streamChunkArrive die cluster core stream ecc)

/-- A core's last entry that waited for its write streams retires once they are written (R197). -/
def State.retireDrained (s : State) (d c k : Nat) : State :=
  if !s.dense.draining.contains (coreCode d c k) then s
  else
    match s.schedule (coreCode d c k) with
    | none => s
    | some sch =>
      match s.entryAt d c k (sch.entries.length - 1) with
      | some x => s.retireEntry x
      | none => s

/-- The next full chunk goes through its ring slot, whose read meets the errors, to memory. -/
def State.streamChunkWrite (s : State) (d c k st : Nat) (ecc : List MemError) : State :=
  match s.streamD d c k st with
  | none => s
  | some x =>
    let ss := s.stream (streamKey d c k st)
    if s.stepRunning && x.dir == 1 && decide (ss.written < x.total) && decide (x.chunk ≤ ss.buf.length) then
      let data := ss.buf.take x.chunk
      let slot := x.slotAddr ss.written
      let s := (s.write slot data).meetReads (.of [(slot, x.chunk)]) 0x3001 ecc
      let bad := ss.bad.contains ss.written || s.isPoisoned slot x.chunk
      let a := x.chunkAddr ss.written
      let s := if s.inImageBuffer a x.chunk then s.protectedRecord a 0x3001 else
        let s := s.writeNoted a data
        if bad then s.poisonRange a x.chunk else s
      let s := s.setStream (streamKey d c k st) { ss with written := ss.written + 1, buf := ss.buf.drop x.chunk }
      s.retireDrained d c k
    else s

def execStreamChunkWrite (die : Fin 4) (cluster : Fin 16) (core : Fin 8) (chunk : ChunkWrite) (s : State) :
    Host.Outcome State Fault Refusal :=
  done (s.streamChunkWrite die cluster core chunk.stream chunk.ecc)

end Sys2Proof.Machine
end

