-- ==== Sys2Proof/Machine/Embed.lean ====
section
/-! DEFINITION. The Press: look-ups, gradient combining, owners, updates and their banks, with the Grotto lines and
the look-ahead slots they meet (R162 to R181, R203 to R208, R215, R216, R356, R387). -/

namespace Sys2Proof.Machine

/-! ### Jobs -/

def pressKey (d c : Nat) : Nat := 16 * d + c

def State.press (s : State) (d c : Nat) : PressState := Tab.get PressState.init (pressKey d c) s.emb.press

def State.setPress (s : State) (d c : Nat) (p : PressState) : State :=
  { s with emb := { s.emb with press := Tab.set PressState.init (pressKey d c) p s.emb.press } }

/-- Press jobs that issued and owe the trace their record: an UPDATE and an EXPORT write it as they complete, the others
as they run. -/
def State.pressDue (s : State) : Nat :=
  (s.emb.press.filter fun p => p.2.running && (p.2.waiting ||
    match (s.plan (p.1 / 16) (p.1 % 16)).jobs[p.2.next]? with
    | some j => decide (3 ≤ j.kind)
    | none => false)).length

/-- Under TRACE_HOLD 1 a job issues only with room for its record (R431). -/
def State.traceReady (s : State) : Bool :=
  !(s.traceOn && s.fldB Reg.detCtrlTraceHold && decide (s.traceRoom < s.traceDue + s.pressDue + 1))

/-- The job a cluster can issue: its next, of the kind asked, with its WAIT set (R165). -/
def State.readyJob (s : State) (d c kind : Nat) : Option Job :=
  let p := s.press d c
  match (s.plan d c).jobs[p.next]? with
  | none => none
  | some j =>
    if s.stepRunning && s.mayIssue d && !p.running && j.kind == kind && s.waitOk j.wait && s.traceReady then some j
    else none

/-- The job issues: it is the running one, and waits for the data of other packages, if it needs any. -/
def State.startJob (s : State) (d c : Nat) : State :=
  s.setPress d c { s.press d c with running := true, waiting := true }

/-- The job that a command of one kind acts on: the next, which issues, or the running one that still waits for the data
of other packages, with whether it waits (DESIGN CHOICE, log entry 210). -/
def State.turnJob (s : State) (d c kind : Nat) : Option (Job × Bool) :=
  let p := s.press d c
  if p.running then
    ((s.plan d c).jobs[p.next]?).bind fun j =>
      if s.stepRunning && p.waiting && j.kind == kind then some (j, true) else none
  else (s.readyJob d c kind).map fun j => (j, false)

/-- The jobs of one kind and table on a die: cluster, index, job. -/
def State.jobsOf (s : State) (d kind table : Nat) : List (Nat × Nat × Job) :=
  (List.range s.imageClusters).flatMap fun c =>
    (enum0 (s.plan d c).jobs).filterMap fun p =>
      if p.2.kind = kind ∧ p.2.table = table then some (c, p.1, p.2) else none

def State.jobRetired (s : State) (d c idx : Nat) : Bool := decide (idx < (s.press d c).next)

def State.jobIssued (s : State) (d c idx : Nat) : Bool :=
  s.jobRetired d c idx || ((s.press d c).next == idx && (s.press d c).running)

def State.jobsRetired (s : State) (d kind table : Nat) : Bool :=
  (s.jobsOf d kind table).all fun p => s.jobRetired d p.1 p.2.1

def jobOp (kind : Nat) : Nat := 0x2000 + kind

def State.table (s : State) (t : Nat) : Option TableD := s.embD.tables[t]?

def TableD.group (t : TableD) : Nat := 2 ^ t.groupLog2

/-- This package's rank in a table's group (R159): GROUP_RANK, modulo the packages of the group where it is larger
(DESIGN CHOICE, log entry 161). -/
def State.rankIn (s : State) (t : TableD) : Nat := s.fld Reg.detRankGroupRank % t.group

/-- Column that element `c` of the slice of rank `r` and die `d` holds (R159). -/
def TableD.column (t : TableD) (r d c : Nat) : Nat := (4 * r + d) * t.ws + c

/-- First column of a die's slice. -/
def State.sliceCol (s : State) (t : TableD) (d : Nat) : Nat := t.column (s.rankIn t) d 0

/-- Fleet index of the package of rank `r`: a group is a run of the participant set's members in the order of their ranks
(DESIGN CHOICE, log entry 161). -/
def State.memberOf (s : State) (t : TableD) (r : Nat) : Nat := s.fleet.members.getD (s.dpRank - s.rankIn t + r) r

/-- The other packages of a table's group, by rank and fleet index. -/
def State.groupPeers (s : State) (t : TableD) : List (Nat × Nat) :=
  ((List.range t.group).filter fun r => r != s.rankIn t).map fun r => (r, s.memberOf t r)

/-- Data for every other package of a table's group (R172). -/
def State.sendGroup (s : State) (t : TableD) (bytes : List Byte) (bad : Bool) (tiles : List (Nat × Nat × Nat × Nat)) :
    State :=
  (s.groupPeers t).foldl (fun (s : State) p => s.sendData p.2 bytes bad tiles) s

/-- Row-slice operations of one slice (R170). -/
def TableD.sliceOps (t : TableD) : Nat := ceilDiv t.ws 32

/-! ### Position keys (R163) -/

structure Key where
  mb : Nat
  rank : Nat
  sample : Nat
  bag : Nat
deriving DecidableEq, Repr

def TableD.key (t : TableD) (p : Nat) : Key :=
  let b := p % 2 ^ t.bagBits
  let i := p / 2 ^ t.bagBits % 2 ^ t.sampleBits
  let r := p / 2 ^ (t.bagBits + t.sampleBits) % t.group
  ⟨p / 2 ^ (t.bagBits + t.sampleBits + t.groupLog2), r, i, b⟩

/-- First key of a sample's bag. -/
def TableD.bagStart (t : TableD) (mb r i : Nat) : Nat :=
  ((mb * t.group + r) * 2 ^ t.sampleBits + i) * 2 ^ t.bagBits

/-! ### Index data of other packages (R172) -/

/-- The LOOKUP of a table's micro-batch that index data from other packages is counted on: the first by die, cluster and
place (DESIGN CHOICE, log entry 13). -/
def State.indexJob (s : State) (t : TableD) (mb : Nat) : Option (Nat × Job) :=
  (List.range 4).findSome? fun d => ((s.jobsOf d 1 t.idx).find? fun p => p.2.2.mb == mb).map fun p => (d, p.2.2)

def wordsOf (ts : List Tensor) (i : Nat) : Nat :=
  match findTensor ts i with
  | some x => x.d0
  | none => 0

/-- The index, offset and weight rows that the package of rank `r` sent for a micro-batch: the committed bytes for that
LOOKUP's event that lie outside its DATA_TENSOR (DESIGN CHOICE, log entry 13). -/
def State.indexBytes (s : State) (t : TableD) (r mb : Nat) : List Byte :=
  match s.indexJob t mb with
  | none => []
  | some (d, i) => s.bytesFrom (s.memberOf t r) d i.signal fun a =>
      match findTensor s.tensors i.data with
      | some x => !overlaps x.start x.bytes a 1
      | none => true

/-- `w` bytes at word `n` of the index (0), offset (1) or weight (2) row that the package of rank `r` sent. -/
def State.peerWord (s : State) (t : TableD) (r mb row n w : Nat) : Nat :=
  match s.indexJob t mb with
  | none => 0
  | some (_, i) =>
    let before := (([i.index, i.offset].take row).map (wordsOf s.tensors)).sum
    le (s.indexBytes t r mb) (4 * (before + n)) w

/-- Every other package's rows for a micro-batch are committed. -/
def State.indicesHere (s : State) (t : TableD) (mb : Nat) : Bool :=
  match s.indexJob t mb with
  | none => true
  | some (_, i) =>
    let n := (([i.index, i.offset, i.weight]).map (wordsOf s.tensors)).sum
    (s.groupPeers t).all fun p => decide (4 * n ≤ (s.indexBytes t p.1 mb).length)

/-- Offsets of a micro-batch: OFF[i]. -/
def State.offset (s : State) (ts : List Tensor) (j : Job) (mb i : Nat) : Nat :=
  match findTensor ts j.offset with
  | some t => s.readElem t 0 (mb * t.d0 + i)
  | none => 0

/-- Offset `i` of the package of rank `r`. -/
def State.offsetOf (s : State) (ts : List Tensor) (t : TableD) (j : Job) (mb r i : Nat) : Nat :=
  if r = s.rankIn t then s.offset ts j mb i else s.peerWord t r mb 1 i 4

def samplesOf (ts : List Tensor) (j : Job) : Nat :=
  match findTensor ts j.offset with
  | some t => t.d0 - 1
  | none => 0

def capacityOf (ts : List Tensor) (j : Job) : Nat :=
  match findTensor ts j.index with
  | some t => t.d0 / 2
  | none => 0

/-- The 64-bit index at a position of a micro-batch's index row. -/
def State.indexAt (s : State) (ts : List Tensor) (j : Job) (mb pos : Nat) : Nat :=
  match findTensor ts j.index with
  | some t => s.readElem t 0 (mb * t.d0 + 2 * pos) + 2 ^ 32 * s.readElem t 0 (mb * t.d0 + 2 * pos + 1)
  | none => 0xFFFFFFFFFFFFFFFF

/-- The bag weight at a position key (POOL 3). -/
def State.weightAt (s : State) (ts : List Tensor) (t : TableD) (j : Job) (p : Nat) : Nat :=
  let k := t.key p
  if k.rank ≠ s.rankIn t then s.peerWord t k.rank k.mb 2 (s.peerWord t k.rank k.mb 1 k.sample 4 + k.bag) 4
  else
    match findTensor ts j.weight with
    | some w => s.readElem w 0 (k.mb * w.d0 + s.offset ts j k.mb k.sample + k.bag)
    | none => one32

def absentIndex : Nat := 0xFFFFFFFFFFFFFFFF

/-- The index a position key holds, or none where it holds no position of a bag. -/
def State.indexOfKey (s : State) (ts : List Tensor) (t : TableD) (j : Job) (p : Nat) : Option Nat :=
  let k := t.key p
  if samplesOf ts j ≤ k.sample then none
  else
    let lo := s.offsetOf ts t j k.mb k.rank k.sample
    let hi := s.offsetOf ts t j k.mb k.rank (k.sample + 1)
    if hi ≤ lo + k.bag then none
    else some (if k.rank = s.rankIn t then s.indexAt ts j k.mb (lo + k.bag)
      else s.peerWord t k.rank k.mb 0 (2 * (lo + k.bag)) 8)

/-- An element of a tensor of 32-bit words is poisoned. -/
def State.wordBad (s : State) (ts : List Tensor) (i e : Nat) : Bool :=
  match findTensor ts i with
  | some x => s.isPoisoned (x.addr 0 e) 4
  | none => false

/-- An offset that bounds the bag of a sample of this package is poisoned. -/
def State.boundBad (s : State) (ts : List Tensor) (j : Job) (mb i : Nat) : Bool :=
  let w := wordsOf ts j.offset
  s.wordBad ts j.offset (mb * w + i) || s.wordBad ts j.offset (mb * w + i + 1)

/-- A word that places or weighs the occurrence at a key of this package is poisoned (R83, R210). Other packages' words
commit only without poison (R350). -/
def State.keyBad (s : State) (ts : List Tensor) (t : TableD) (j : Job) (p : Nat) : Bool :=
  let k := t.key p
  let pos := s.offset ts j k.mb k.sample + k.bag
  let iw := k.mb * wordsOf ts j.index + 2 * pos
  k.rank == s.rankIn t && (s.boundBad ts j k.mb k.sample ||
    s.wordBad ts j.index iw || s.wordBad ts j.index (iw + 1) ||
    (t.pool == 3 && s.wordBad ts j.weight (k.mb * wordsOf ts j.weight + pos)))

/-- A word that gives a sample of this package its bag is poisoned. -/
def State.bagBad (s : State) (ts : List Tensor) (t : TableD) (j : Job) (r i : Nat) : Bool :=
  let lo := s.offset ts j j.mb i
  let n := min (s.offset ts j j.mb (i + 1) - lo) (2 ^ t.bagBits)
  r == s.rankIn t && (s.boundBad ts j j.mb i ||
    (List.range n).any fun b => s.keyBad ts t j (t.bagStart j.mb r i + b))

/-- The keys of a share. -/
def Job.keys (j : Job) : List Nat := (List.range (j.posHi - j.posLo)).map (j.posLo + ·)

/-- Keys [lo, hi) meet the job's share. -/
def Job.meets (j : Job) (lo hi : Nat) : Bool := decide (lo < j.posHi ∧ j.posLo < hi)

/-- Bags with a key in the share: rank and sample. -/
def shareBags (ts : List Tensor) (t : TableD) (j : Job) : List (Nat × Nat) :=
  (List.range t.group).flatMap fun r => ((List.range (samplesOf ts j)).filter fun i =>
    j.meets (t.bagStart j.mb r i) (t.bagStart j.mb r i + 2 ^ t.bagBits)).map fun i => (r, i)

/-- First sample whose offsets fail, over the packages with a key in the share (R162). -/
def State.badOffset (s : State) (ts : List Tensor) (t : TableD) (j : Job) : Option Nat :=
  let ranks := (List.range t.group).filter fun r => j.meets (t.bagStart j.mb r 0) (t.bagStart j.mb (r + 1) 0)
  ranks.findSome? fun r => (List.range (samplesOf ts j)).find? fun i =>
    decide (s.offsetOf ts t j j.mb r (i + 1) < s.offsetOf ts t j j.mb r i ∨
      capacityOf ts j < s.offsetOf ts t j j.mb r (i + 1))

/-- Indices past 2^BAG_BITS in the bags that begin in the share: a bag that share boundaries cut counts once. -/
def State.bagDropped (s : State) (ts : List Tensor) (t : TableD) (j : Job) : Nat :=
  (((shareBags ts t j).filter fun b => decide (j.posLo ≤ t.bagStart j.mb b.1 b.2)).map fun b =>
    s.offsetOf ts t j j.mb b.1 (b.2 + 1) - s.offsetOf ts t j j.mb b.1 b.2 - 2 ^ t.bagBits).sum

/-- Rows of a tensor of 32-bit words for a micro-batch: bytes, and whether any is poisoned. -/
def State.wordRow (s : State) (ts : List Tensor) (i mb : Nat) : List Byte × Bool :=
  match findTensor ts i with
  | none => ([], false)
  | some x =>
    let els := (List.range x.d0).map (mb * x.d0 + ·)
    (els.flatMap fun e => toLe 4 (s.readElem x 0 e), els.any fun e => s.isPoisoned (x.addr 0 e) 4)

/-- The memory that a job reads of its index, offset and weight tensors for its micro-batch. -/
def jobRanges (ts : List Tensor) (j : Job) (is : List Nat) : List (Nat × Nat) :=
  is.flatMap fun i =>
    match findTensor ts i with
    | some x => (List.range x.d0).map fun e => (x.addr 0 (j.mb * x.d0 + e), elemSize x.fmt)
    | none => []

/-- R172: the first LOOKUP of a micro-batch of a table sends this package's index, offset and weight rows to the group. -/
def State.sendIndices (s : State) (t : TableD) (j : Job) : State :=
  let earlier := (List.range 4).any fun d => (s.jobsOf d 1 t.idx).any fun p =>
    p.2.2.mb == j.mb && s.jobIssued d p.1 p.2.1
  if earlier then s
  else
    let is := [j.index, j.offset, j.weight]
    let rows := is.map fun i => s.wordRow s.tensors i j.mb
    s.sendGroup t (rows.flatMap Prod.fst) (rows.any Prod.snd) (s.tilesOf (jobRanges s.tensors j is))

/-! ### Grotto (R203 to R208) -/

def State.ownerOf (s : State) (row : Nat) : Nat := row % max 1 s.imageClusters

def State.partOf (s : State) (d c table : Nat) : Option Part := (s.plan d c).parts.find? fun p => p.table == table

def State.lineOf (s : State) (d table row : Nat) : Option GrottoLine :=
  s.emb.lines.find? fun l => l.die == d && l.table == table && l.row == row

def State.setLines (s : State) (ls : List GrottoLine) : State := { s with emb := { s.emb with lines := ls } }

/-- Address of a line's bytes. -/
def State.lineAddr (s : State) (t : TableD) (l : GrottoLine) : Nat :=
  match s.partOf l.die l.cluster l.table with
  | some p => grottoAddr l.die l.cluster + p.offset + l.line * s.embD.stride t
  | none => grottoAddr l.die l.cluster

def countKey (d table row : Nat) : Nat := (row * 256 + table) * 4 + d

def State.rowCount (s : State) (d table row : Nat) : Nat := Tab.get 0 (countKey d table row) s.emb.counts

def State.grot (s : State) (d c i n : Nat) : State := if n = 0 then s else s.bump (Reg.grotCnt d c i) n

/-- A line for a row that is promoted: a free one, else the evictable one (R205). -/
def State.takeLine (s : State) (d c table : Nat) (t : TableD) : Option (State × Nat) :=
  match s.partOf d c table with
  | none => none
  | some p =>
    let n := p.bytes / max 1 (s.embD.stride t)
    let mine := s.emb.lines.filter fun l => l.die == d && l.cluster == c && l.table == table
    match (List.range n).find? fun i => !mine.any fun l => l.line == i with
    | some i => some (s, i)
    | none =>
      let cand := mine.filter fun l => !l.copying && !l.pinned
      let best := cand.foldl (fun (b : Option GrottoLine) l =>
        match b with
        | none => some l
        | some m =>
          let cl := s.rowCount d table l.row
          let cm := s.rowCount d table m.row
          if cl < cm ∨ (cl = cm ∧ l.row < m.row) then some l else some m) none
      match best with
      | none => none
      | some l => some ((s.setLines (s.emb.lines.filter fun m => m != l)).grot d c 3 1, l.line)

/-- A Home row becomes Copying, and its copy read issues. -/
def State.promote (s : State) (d table row : Nat) (t : TableD) (pin : Bool) : State :=
  let c := s.ownerOf row
  match s.lineOf d table row with
  | some l =>
    if pin then
      s.setLines (s.emb.lines.map fun m =>
        if m = l then { m with pinned := if m.copying then m.pinned else true, pinNext := m.copying } else m)
    else s
  | none =>
    match s.partOf d c table with
    | none => s
    | some _ =>
      match s.takeLine d c table t with
      | none => s.grot d c 4 1
      | some (s, i) =>
        let em := s.embD
        let l : GrottoLine :=
          ⟨d, c, table, i, row, true, false, pin, none, s.read (t.rowAddr em d row) (em.stride t)⟩
        (s.setLines (s.emb.lines ++ [l])).grot d c 2 1

/-- A row's occurrences of one segment reach its owner: promotion and pinning (R205). -/
def State.countRow (s : State) (d table row n : Nat) (t : TableD) : State :=
  let c := s.ownerOf row
  let old := s.rowCount d table row
  let s := { s with emb := { s.emb with counts := Tab.set 0 (countKey d table row) (old + n) s.emb.counts } }
  let thr := s.fld Reg.memGrottoCtrlPromoteThreshold
  let pthr := s.fld Reg.embPressCtrlPinThreshold
  let wantPin := bit t.flags 1 && pthr != 0 && decide (old < pthr ∧ pthr ≤ old + n)
  let s := if wantPin then s.bump (Reg.pressCnt d c 5) 1 else s
  let pins := s.emb.lines.filter fun l => l.die == d && l.cluster == c && l.table == table && (l.pinned || l.pinNext)
  let count : Nat := pins.length
  let canPin := pins.any (fun l => l.row == row) ||
    (s.partOf d c table).isSome && decide (count < s.fld Reg.embPressCtrlPinMaxRows)
  let s := if wantPin && !canPin then s.grot d c 5 1 else s
  if wantPin then s.promote d table row t canPin
  else if s.fldB Reg.memGrottoCtrlCacheEnable && decide (old < thr ∧ thr ≤ old + n) then s.promote d table row t false
  else s

/-- The Cached line that holds the SRAM word at an address. -/
def State.lineAt (s : State) (a : Nat) : Option GrottoLine :=
  s.emb.lines.find? fun l => !l.copying &&
    match s.table l.table with
    | some t => overlaps (s.lineAddr t l) (s.embD.stride t) (a / 8 * 8) 8
    | none => false

/-- An error at `a` in a Cached line cannot be corrected: the line drops to Home (R207). -/
def State.dropLine (s : State) (l : GrottoLine) (a op : Nat) : State :=
  let s := s.setLines (s.emb.lines.filter fun m => m != l)
  s.emit 0 0x0012 (s.siteSram (clusterCode l.die l.cluster)) op (memSyndrome a 0 .grotto 0)

/-! ### Look-ahead (R215, R216) -/

def stageKey (d table : Nat) : Nat := 256 * d + table

def State.stagedRows (s : State) (d table : Nat) : List Nat := Tab.get [] (stageKey d table) s.emb.staged

def State.lookRec (s : State) (d table : Nat) : Option LookD := (s.diePlan d).looks.find? fun l => l.table == table

/-- Address of a row's staged copy. -/
def State.stagedAddr (s : State) (d table row : Nat) (t : TableD) : Option Nat :=
  match s.lookRec d table, (enum0 (s.stagedRows d table)).find? fun p => p.2 == row with
  | some l, some p => some (l.base + p.1 * (s.embD.stride t + 16))
  | _, _ => none

/-- A row is copied into the next free slot with its poison, and a tag whose bytes the spec leaves open (log entry 28). -/
def State.stageRow (s : State) (d table row : Nat) (t : TableD) : State :=
  match s.lookRec d table with
  | none => s
  | some l =>
    let rows := s.stagedRows d table
    let em := s.embD
    let n := em.stride t
    let home := t.rowAddr em d row
    let a := l.base + rows.length * (n + 16)
    let bad := s.isPoisoned home n
    let s := (s.guardedWrite a (s.read home n) 0x3005).guardedFree (a + n) 16 0x3005
    let s := if bad then s.poisonRange a n else s
    { s with emb := { s.emb with staged := Tab.put (stageKey d table) (rows ++ [row]) s.emb.staged } }

/-- Rows that the scan of one micro-batch's index row stages: present, in range, not staged, while slots are free. -/
def State.rowsToStage (s : State) (d table mb : Nat) : List Nat :=
  match s.lookRec d table, s.table table with
  | some l, some t =>
    match findTensor s.tensors l.indexTensor with
    | some it =>
      let have_ := s.stagedRows d table
      let xs := (List.range (it.d0 / 2)).map fun i =>
        s.readElem it 0 (mb * it.d0 + 2 * i) + 2 ^ 32 * s.readElem it 0 (mb * it.d0 + 2 * i + 1)
      ((xs.filter fun x => decide (x < t.rows) && !have_.contains x).eraseDups).take (l.rows - have_.length)
    | none => []
  | _, _ => []

/-- What a scan reads: the index row, and the home records that it copies. -/
def State.stageRanges (s : State) (d table mb : Nat) : List (Nat × Nat) :=
  let row := match (s.lookRec d table).bind fun l => findTensor s.tensors l.indexTensor with
    | some it => (List.range it.d0).map fun i => (it.addr 0 (mb * it.d0 + i), elemSize it.fmt)
    | none => []
  let homes := match s.table table with
    | some t => (s.rowsToStage d table mb).map fun x => (t.rowAddr s.embD d x, s.embD.stride t)
    | none => []
  row ++ homes

/-- The scan of one micro-batch's index row, for the own package's indices, with the errors its copies meet. -/
def State.scanMb (s : State) (d table mb : Nat) (es : List MemError) : State :=
  match s.table table with
  | some t =>
    let rows := s.rowsToStage d table mb
    let s := s.meetReads (.of (s.stageRanges d table mb)) 0x3005 es
    rows.foldl (fun (s : State) x => s.stageRow d table x t) s
  | none => s

def State.microBatches (s : State) : Nat :=
  match s.schedules.head? with
  | some sc => sc.2.microBatches
  | none => 1

/-- Scans at the start of a step; the errors that they meet come with the table's first LOOKUP (log entry 213). -/
def State.scanStart (s : State) : State :=
  (List.range 4).foldl (fun (s : State) d =>
    (s.diePlan d).looks.foldl (fun (s : State) l =>
      (List.range (min l.depth s.microBatches)).foldl (fun (s : State) mb => s.scanMb d l.table mb []) s) s) s

/-- The micro-batch whose scan a LOOKUP begins, the first of its own micro-batch on the die. -/
def State.scanOf (s : State) (d : Nat) (j : Job) : Option Nat :=
  match s.lookRec d j.table with
  | none => none
  | some l =>
    let earlier := (s.jobsOf d 1 j.table).any fun p => p.2.2.mb == j.mb && s.jobIssued d p.1 p.2.1
    if earlier ∨ s.microBatches ≤ j.mb + l.depth then none else some (j.mb + l.depth)

/-- Errors that reads meet, and the others. -/
def State.splitErrors (s : State) (r : Reads) (es : List MemError) : List MemError × List MemError :=
  es.partition fun e => match e with
    | .stored a _ => r.touch (s.memOf a.toNat).1 a.toNat
    | .metadata a _ => r.touch .lineMetadata a.toNat
    | _ => false

/-- What the scans at the start of a step read for a table: index rows, and the rows that stand in its slots. -/
def State.startRanges (s : State) (d : Nat) (t : TableD) : List (Nat × Nat) :=
  match s.lookRec d t.idx with
  | none => []
  | some l =>
    let rows := match findTensor s.tensors l.indexTensor with
      | some it => (List.range (min l.depth s.microBatches * it.d0)).map fun i => (it.addr 0 i, elemSize it.fmt)
      | none => []
    rows ++ (s.stagedRows d t.idx).map fun x => (t.rowAddr s.embD d x, s.embD.stride t)

/-- The scans at the start of a step meet their reads' errors with the first LOOKUP of the table on the die: a copy of a
row that was lost is poisoned (R217 to R219; DESIGN CHOICE, log entry 213). -/
def State.meetStart (s : State) (d : Nat) (t : TableD) (es : List MemError) : State × List MemError :=
  if (s.jobsOf d 1 t.idx).any fun p => s.jobIssued d p.1 p.2.1 then (s, es)
  else
    let r := Reads.of (s.startRanges d t)
    let e := s.splitErrors r es
    let s := s.meetReads r 0x3005 e.1
    let lost := (s.stagedRows d t.idx).filter fun x => s.isPoisoned (t.rowAddr s.embD d x) (s.embD.stride t)
    (lost.foldl (fun (s : State) x =>
      match s.stagedAddr d t.idx x t with
      | some a => s.poisonRange a (s.embD.stride t)
      | none => s) s, e.2)

/-- The scan that a LOOKUP begins, and the errors that it and the scans before it did not meet. -/
def State.scanAhead (s : State) (d : Nat) (j : Job) (es : List MemError) : State × List MemError :=
  match s.table j.table with
  | none => (s, es)
  | some t =>
    let p := s.meetStart d t es
    match p.1.scanOf d j with
    | none => p
    | some mb =>
      let e := p.1.splitErrors (.of (p.1.stageRanges d j.table mb)) p.2
      (p.1.scanMb d j.table mb e.1, e.2)

/-! ### Reading rows -/

def State.homeOrStage (s : State) (d table row : Nat) (t : TableD) : Nat :=
  match s.stagedAddr d table row t with
  | some a => a
  | none => t.rowAddr s.embD d row

/-- The address that serves a row on a die: the Cached line, the staged copy, or home (R166, R204). -/
def State.rowPlace (s : State) (d table row : Nat) (t : TableD) : Nat :=
  match s.lineOf d table row with
  | some l => if l.copying then s.homeOrStage d table row t else s.lineAddr t l
  | none => s.homeOrStage d table row t

/-- Values of a row record as FP32. -/
def rowValues (t : TableD) (bs : List Byte) : List Nat :=
  let w := fmtBits t.rowFmt / 8
  (List.range t.ws).map fun i => toF32 t.rowFmt (le bs (i * w) w) one32

def inTier2Range (a : Nat) : Bool := decide (tier2Base ≤ a)

/-- The row is served from a Grotto line. -/
def State.isCached (s : State) (d table row : Nat) : Bool :=
  match s.lineOf d table row with
  | some l => !l.copying
  | none => false

/-- HITS or MISSES of the owner gains one read of a row (Table 6.14). -/
def State.countRead (s : State) (d table row : Nat) : State :=
  s.grot d (s.ownerOf row) (if s.isCached d table row then 0 else 1) 1

/-- Lines of the rows read on a die that meet an uncorrectable error drop to Home (R207). -/
def State.dropBadLines (s : State) (d table : Nat) (rows : List Nat) (op : Nat) (es : List MemError) : State :=
  es.foldl (fun (s : State) e =>
    match e with
    | .stored a .uncorrectable =>
      match s.lineAt a.toNat with
      | some l => if l.die = d ∧ l.table = table ∧ rows.contains l.row then s.dropLine l a.toNat op else s
      | none => s
    | _ => s) s

/-- Reads of rows of one table on a die, `n` bytes of each record, with other ranges that the job reads: lines with a
lost word drop to Home first, then the errors are met where each row is served. -/
def State.meetRows (s : State) (d c : Nat) (t : TableD) (rows : List Nat) (n : Nat) (more : List (Nat × Nat)) (op : Nat)
    (es : List MemError) : State :=
  let s := s.dropBadLines d t.idx rows op es
  let ranges := rows.map fun x => (s.rowPlace d t.idx x t, n)
  s.meetReads ⟨more ++ ranges, [], some (clusterCode d c)⟩ op es

/-- One read of a row by a LOOKUP of cluster `c`: state with its counters, values, poison. -/
def State.readSlice (s : State) (d c row : Nat) (t : TableD) : State × List Nat × Bool :=
  let home := t.rowAddr s.embD d row
  let a := s.rowPlace d t.idx row t
  let s := s.countRead d t.idx row
  let s := if !s.isCached d t.idx row && inTier2Range home && a == home then s.grot d c 7 1 else s
  (s, rowValues t (s.read a t.valueBytes), s.isPoisoned a t.valueBytes)

/-! ### LOOKUP (R166, R167) -/

def nullRow : Nat := 2 ^ 64

def insertPair (p : Nat × Nat) : List (Nat × Nat) → List (Nat × Nat)
  | [] => [p]
  | q :: qs => if p.1 < q.1 ∨ (p.1 = q.1 ∧ p.2 ≤ q.2) then p :: q :: qs else q :: insertPair p qs

def sortPairs (l : List (Nat × Nat)) : List (Nat × Nat) := l.foldr insertPair []

/-- Runs of equal rows in a sorted list: row, keys. -/
def segments : List (Nat × Nat) → List (Nat × List Nat)
  | [] => []
  | (x, p) :: rest =>
    match segments rest with
    | (y, ks) :: more => if x = y then (x, p :: ks) :: more else (x, [p]) :: (y, ks) :: more
    | [] => [(x, [p])]

def sortKey (d sort : Nat) : Nat := 65536 * d + sort

/-- A column of the pooled output or gradient of sample or key row `r`: the data tensor's element. -/
def dataElem (t : Tensor) (r col : Nat) : Nat := r * t.d0 + col

/-- Row of DATA_TENSOR of a key: its sample's row, or under POOL 0 its own. -/
def TableD.dataRow (t : TableD) (ts : List Tensor) (j : Job) (k : Key) : Nat :=
  if t.pool = 0 then (k.mb * 2 ^ t.sampleBits + k.sample) * 2 ^ t.bagBits + k.bag
  else k.mb * samplesOf ts j + k.sample

/-- Present keys of a list of leaves that belong to one sample of one rank. -/
def ofSample (t : TableD) (r i : Nat) (leaves : List (Nat × List Nat × Bool)) : List (Nat × List Nat × Bool) :=
  leaves.filter fun l => (t.key l.1).rank == r && (t.key l.1).sample == i

/-- The pooled columns of one sample (R167), with poison. -/
def State.pool (s : State) (ts : List Tensor) (t : TableD) (j : Job) (ls : List (Nat × List Nat × Bool)) :
    List Nat × Bool :=
  let nf := nfOf ls.length
  let leaf (l : Nat × List Nat × Bool) : List Nat :=
    if t.pool = 3 then l.2.1.map fun v => fMul (s.weightAt ts t j l.1) v else l.2.1
  let cols := (List.range t.ws).map fun c =>
    let sum := (((keyTree fAdd 17 (ls.map fun l => ((t.key l.1).bag, (leaf l).getD c 0))).head?).map Prod.snd).getD 0
    if t.pool = 2 ∧ ls ≠ [] then fDiv sum nf else sum
  (cols, ls.any fun l => l.2.2)

/-- A column of a row to an output row `r` of DATA_TENSOR, or, for another package's sample, out over Obcor (R172). -/
def State.putRow (s : State) (t : TableD) (dt : Tensor) (d r : Nat) (peer : Option Nat) (v : List Nat × Bool) : State :=
  let col0 := s.sliceCol t d
  let cells := (enum0 v.1).filter fun p => decide (col0 + p.1 < dt.d0)
  let enc := cells.map fun p => (dataElem dt r (col0 + p.1), (fromF32 dt.fmt (dt.fmt == 3) none p.2).1)
  match peer with
  | none =>
    let s := (runsOf (enc.foldl (fun q e =>
        (enum0 (toLe (elemSize dt.fmt) e.2)).foldl (fun q b => Tab.put (dt.addr 0 e.1 + b.1) b.2 q) q) [])).foldl
      (fun (s : State) run => s.writeNoted run.1 run.2) s
    if v.2 then enc.foldl (fun (s : State) e => s.poisonRange (dt.addr 0 e.1) (elemSize dt.fmt)) s else s
  | some p => s.sendData p (enc.flatMap fun e => toLe (elemSize dt.fmt) e.2) v.2 []

/-- A data fault of a job: its record, and the step stops with no unit charged. -/
def State.jobStop (s : State) (d c kind rec_ synd : Nat) : State :=
  let s := s.emit 3 rec_ (s.siteUnit (clusterCode d c)) (jobOp kind) synd
  s.stopStep ⟨0, rec_, none⟩ 0

/-- R162, R171: no update of the step's gradients stays applied: the rows that it wrote hold what they held before, and no
line or staged copy holds more (DEDUCED, log entry 211). -/
def State.undoUpdates (s : State) : State :=
  let mine := s.embD.tables.filter fun t => t.staleness == 0
  let home (a : Nat) : Bool := mine.any fun t => (List.range 4).any fun d =>
    overlaps (t.rowAddr s.embD d 0) (t.rows * s.embD.stride t) a 1
  let s := s.dense.before.foldl (fun (s : State) p => if home p.1 then s.write p.1 [p.2] else s) s
  { s with emb := { s.emb with lines := s.emb.lines.filter fun l => !mine.any fun t => t.idx == l.table,
                               staged := s.emb.staged.filter fun p => !mine.any fun t => t.idx == p.1 % 256 } }

/-- The list L of a job, before sorting (R166). -/
def State.lookupList (s : State) (ts : List Tensor) (t : TableD) (j : Job) : List (Nat × Nat) :=
  j.keys.filterMap fun p =>
    match s.indexOfKey ts t j p with
    | none => none
    | some x => if x = absentIndex then none else some (if t.rows ≤ x then nullRow else x, p)

/-- An index out of range where the table faults on it. -/
def State.lookupFault (s : State) (ts : List Tensor) (t : TableD) (j : Job) : Option Nat :=
  if t.oor ≠ 1 then none
  else
    (j.keys.filterMap fun p =>
      match s.indexOfKey ts t j p with
      | some x => if x ≠ absentIndex ∧ t.rows ≤ x then some x else none
      | none => none).head?

/-- The package that a rank's rows go to; none for this one. -/
def State.peerOfRank (s : State) (t : TableD) (r : Nat) : Option Nat :=
  ((s.groupPeers t).find? fun p => p.1 == r).map Prod.snd

/-- Every LOOKUP of a micro-batch on a die with a key of the bag has issued. -/
def State.bagDone (s : State) (t : TableD) (d mb r i : Nat) : Bool :=
  (s.jobsOf d 1 t.idx).all fun p =>
    p.2.2.mb != mb || !p.2.2.meets (t.bagStart mb r i) (t.bagStart mb r i + 2 ^ t.bagBits) || s.jobIssued d p.1 p.2.1

def bankKey (d table : Nat) : Nat := 256 * d + table

def State.cutLeaves (s : State) (d table : Nat) : List (Nat × List Nat × Bool) :=
  Tab.get [] (bankKey d table) s.emb.cut

/-- Output rows of a job, once its leaves are known, and the additions of its pooling. A bag that share boundaries cut
is pooled whole, by the last of its LOOKUPs (log entry 162). -/
def State.lookupOutputs (s : State) (ts : List Tensor) (t : TableD) (j : Job) (dt : Tensor) (d : Nat)
    (leaves : List (Nat × List Nat × Bool)) : State × Nat :=
  if t.pool = 0 then
    (leaves.foldl (fun (s : State) l =>
      let k := t.key l.1
      s.putRow t dt d (t.dataRow ts j k) (s.peerOfRank t k.rank) (l.2.1, l.2.2)) s, 0)
  else
    let all := s.cutLeaves d t.idx ++ leaves
    let bags := shareBags ts t j
    let ready := bags.filter fun b => s.bagDone t d j.mb b.1 b.2
    let of (b : Nat × Nat) : List (Nat × List Nat × Bool) :=
      ofSample t b.1 b.2 (all.filter fun l => (t.key l.1).mb == j.mb)
    let s := ready.foldl (fun (s : State) b =>
      let v := s.pool ts t j (of b)
      s.putRow t dt d (j.mb * samplesOf ts j + b.2) (s.peerOfRank t b.1) (v.1, v.2 || s.bagBad ts t j b.1 b.2)) s
    let left := all.filter fun l =>
      let k := t.key l.1
      !(k.mb == j.mb && ready.contains (k.rank, k.sample))
    ({ s with emb := { s.emb with cut := Tab.set [] (bankKey d t.idx) left s.emb.cut } },
      (ready.map fun b => (of b).length - 1).sum)

def State.pressTrace (s : State) (d c elements pip : Nat) (mb : Nat) : State :=
  s.trace (clusterCode d c) (s.press d c).next 1 0 mb elements pip

/-- The pip of a job's share of its DATA_TENSOR. -/
def State.dataPip (s : State) (dt : Tensor) (els : List Nat) : Nat :=
  els.foldl (fun acc e => (acc + pipTerm pipM1 e (s.readElem dt 0 e)) % pipP) 0

/-! ### Faults in a Press (R85, R339, R343, R344) -/

/-- A fault that fails a check: a residue whose prediction and value differ, a second run that differs in twin mode. -/
def State.pressFails (s : State) : PressFault → Bool
  | .residue _ _ e c => !residueBlind (e - c)
  | .twin _ _ _ => s.fldB Reg.chkTwinCtrlEnable
  | _ => true

/-- The result element whose value is off without its residue showing it. -/
def pressEscape : Option PressFault → Option Nat
  | some (.residue _ elem e c) => if residueBlind (e - c) && e != 0 then some elem else none
  | _ => none

/-- Record kind and syndrome of a failed Press check; the residue that a checker without fault predicts is an open value
(log entry 152). -/
def pressRecord (hole : Nat) : PressFault → Nat × Nat
  | .residue lane _ e c =>
    (0x0001, lane.toNat + pathCode .adder * 2 ^ 6 + residue31 (hole % 31 + c) * 2 ^ 16 + residue31 (hole % 31 + e) * 2 ^ 24)
  | .duplicate lane g => (0x0002, lane.toNat + g.toNat * 2 ^ 8)
  | .parity lane p => (0x0003, lane.toNat * 2 ^ 48 + p.toNat * 2 ^ 54)
  | .twin lane flags elem => (0x0020, lane.toNat * 2 ^ 3 + b2n flags * 2 ^ 9 + elem.toNat * 2 ^ 16)

/-- A failed check of a Press job: nothing of its result leaves the Press, and the step stops as for a failed unit,
charged to the cluster (Table 11.4). -/
def State.failPress (s : State) (d c kind : Nat) (f : PressFault) : State :=
  let h := s.free
  let u := clusterCode d c
  let r := pressRecord h.1 f
  let s := h.2.emit 1 r.1 (s.siteUnit u) (jobOp kind) r.2
  let s := if r.1 = 0x0020 then s.bump (Reg.chkCnt 11) 1 else s
  s.stopStep ⟨unitKey 3 (s.physOf u), r.1, none⟩ 0

/-- A Press job that has issued, and the data of other packages that it needs, meets its reads' errors and its fault; `run`
is the rest of it, where the step goes on. -/
def State.runPress (s : State) (d c kind : Nat) (fault : Option PressFault) (meet run : State → State) : State :=
  let s := meet (s.setPress d c { s.press d c with waiting := false })
  if !s.stepRunning then s
  else
    match fault with
    | some f => if s.pressFails f then s.failPress d c kind f else run s
    | none => run s

/-- Rows of DATA_TENSOR that the samples of the share from one rank stand for. -/
def shareRows (ts : List Tensor) (t : TableD) (j : Job) (r : Nat) : List Nat :=
  (((j.keys.map t.key).filter fun k => k.rank == r && decide (k.sample < samplesOf ts j)).map
    fun k => t.dataRow ts j k).eraseDups

/-- Elements of DATA_TENSOR that a job's own keys stand for on a die. -/
def State.jobElems (s : State) (ts : List Tensor) (t : TableD) (j : Job) (dt : Tensor) (d : Nat) : List Nat :=
  let cols := (List.range t.ws).filter fun q => decide (s.sliceCol t d + q < dt.d0)
  (shareRows ts t j (s.rankIn t)).flatMap fun row => cols.map fun q => dataElem dt row (s.sliceCol t d + q)

/-- Counters, records and the sorted list of a LOOKUP (Table 5.11, R162, R166). -/
def State.noteLookup (s : State) (ts : List Tensor) (t : TableD) (j : Job) (d c : Nat) (l : List (Nat × Nat)) : State :=
  let segs := segments l
  let excess := s.bagDropped ts t j
  let s := s.bump (Reg.pressCnt d c 0) l.length
  let s := s.bump (Reg.pressCnt d c 1) ((segs.filter fun g => g.1 != nullRow).length)
  let s := s.bump (Reg.pressCnt d c 3) excess
  let s := s.bump (Reg.pressCnt d c 4) ((l.filter fun p => p.1 == nullRow).length)
  let s := if excess = 0 then s else s.emit 3 0x0061 (s.siteUnit (clusterCode d c)) (jobOp 1) (min excess 0xFFFFFFFF)
  let s := { s with emb := { s.emb with sorted := Tab.put (sortKey d j.sort) l s.emb.sorted } }
  match findTensor ts j.sort with
  | some st => s.guardedFree st.start (min (16 * l.length) st.bytes) (jobOp 1)
  | none => s

/-- The reads, outputs and trace of a LOOKUP whose list is `l`. -/
def State.gather (s : State) (ts : List Tensor) (t : TableD) (j : Job) (dt : Tensor) (d c : Nat) (l : List (Nat × Nat))
    (escaped : Option Nat) : State :=
  let s := s.noteLookup ts t j d c l
  let r := (segments l).foldl (fun (acc : State × List (Nat × List Nat × Bool)) g =>
    if g.1 = nullRow then (acc.1, acc.2 ++ g.2.map fun p => (p, List.replicate t.ws 0, s.keyBad ts t j p))
    else
      let v := acc.1.readSlice d c g.1 t
      (v.1.countRow d j.table g.1 g.2.length t,
        acc.2 ++ g.2.map fun p => (p, v.2.1, v.2.2 || s.keyBad ts t j p))) (s, [])
  let o := r.1.lookupOutputs ts t j dt d r.2
  let s := o.1.bump (Reg.pressCnt d c 2) (o.2 * t.sliceOps)
  let els := s.jobElems ts t j dt d
  let s := match escaped.bind fun k => els[k]? with
    | some e => s.tickFree.writeElem dt 0 e (freeAt s.fresh 0 % 2 ^ fmtBits dt.fmt)
    | none => s
  s.pressTrace d c els.length (s.dataPip dt els) j.mb

/-- A LOOKUP whose indices are all there: the rules for offsets and indices, then its list, reads and outputs. -/
def State.lookupRun (s : State) (t : TableD) (j : Job) (dt : Tensor) (d c : Nat) (ecc : List MemError)
    (fault : Option PressFault) : State :=
  let ts := s.tensors
  match s.badOffset ts t j, s.lookupFault ts t j with
  | some i, _ => s.jobStop d c 1 0x0062 i
  | none, some x => s.undoUpdates.jobStop d c 1 0x0060 x
  | none, none =>
    let l := sortPairs (s.lookupList ts t j)
    let rows := ((segments l).map Prod.fst).filter (· != nullRow)
    s.runPress d c 1 fault
      (fun s => s.meetRows d c t rows t.valueBytes (jobRanges ts j [j.index, j.offset, j.weight]) (jobOp 1) ecc)
      fun s => s.gather ts t j dt d c l (pressEscape fault)

/-- A LOOKUP issues: it begins its scan and sends this package's indices; it runs once the other packages' are committed
(R172, R350). -/
def State.lookup (s : State) (d c : Nat) (ecc : List MemError) (fault : Option PressFault) : State :=
  match s.turnJob d c 1 with
  | none => s
  | some (j, waits) =>
    match s.table j.table, findTensor s.tensors j.data with
    | some t, some dt =>
      let scan := if waits then (s, ecc) else s.scanAhead d j ecc
      let s := if waits then s else (scan.1.sendIndices t j).startJob d c
      if s.stepRunning && s.indicesHere t j.mb then s.lookupRun t j dt d c scan.2 fault else s
    | _, _ => s

def execLookup (die : Fin 4) (cluster : Fin 16) (ecc : List MemError) (fault : Option PressFault) (s : State) :
    Host.Outcome State Fault Refusal :=
  done (s.lookup die cluster ecc fault)

/-! ### COMBINE (R169) -/

/-- Present keys of one sample in the sorted lists of its micro-batch on a die. -/
def State.presentOf (s : State) (t : TableD) (d : Nat) (k : Key) : Nat :=
  let sorts := (((s.jobsOf d 1 t.idx).filter fun p => p.2.2.mb == k.mb).map fun p => p.2.2.sort).eraseDups
  let keys := (sorts.flatMap fun i => Tab.get [] (sortKey d i) s.emb.sorted).map fun p => t.key p.2
  (keys.filter fun q => q.mb == k.mb && q.rank == k.rank && q.sample == k.sample).length

/-- Columns of a width `w` that the slice of rank `r` and die `d` holds. -/
def TableD.columnsBelow (t : TableD) (r d w : Nat) : List Nat :=
  ((List.range t.ws).filter fun c => decide (t.column r d c < w)).map fun c => t.column r d c

/-- The gradients of its samples of a share that the package of rank `r` sent, for the COMBINE's event: row by row, the
columns of this holder's slice (DESIGN CHOICE, log entry 13). -/
def State.gradBytes (s : State) (t : TableD) (j : Job) (d r : Nat) : List Byte :=
  s.bytesFrom (s.memberOf t r) d j.signal fun _ => true

/-- The gradients of every other package are committed. -/
def State.gradsHere (s : State) (ts : List Tensor) (t : TableD) (j : Job) (dt : Tensor) (d : Nat) : Bool :=
  (s.groupPeers t).all fun p =>
    decide ((shareRows ts t j p.1).length * (t.columnsBelow (s.rankIn t) d dt.d0).length * elemSize dt.fmt ≤
      (s.gradBytes t j d p.1).length)

/-- Column `c` of another package's gradient in row `row` of the DATA_TENSOR, as it sent it. -/
def State.peerGrad (s : State) (ts : List Tensor) (t : TableD) (j : Job) (dt : Tensor) (d r row c : Nat) : Nat :=
  let n := (t.columnsBelow (s.rankIn t) d dt.d0).length
  let i := (shareRows ts t j r).findIdx (· == row)
  let w := elemSize dt.fmt
  toF32 dt.fmt (le (s.gradBytes t j d r) ((i * n + c) * w) w % 2 ^ fmtBits dt.fmt) one32

/-- The gradient of one occurrence, with poison; +0 in every padding column (R161). -/
def State.occGrad (s : State) (ts : List Tensor) (t : TableD) (j : Job) (dt : Tensor) (d p present : Nat) :
    List Nat × Bool :=
  let k := t.key p
  let own := k.rank == s.rankIn t
  let col0 := s.sliceCol t d
  let row := t.dataRow ts j k
  let el (c : Nat) : Nat := dataElem dt row (col0 + c)
  let dy (c : Nat) : Nat :=
    if dt.d0 ≤ col0 + c then 0
    else if own then s.elemF32 ts dt 0 (el c)
    else s.peerGrad ts t j dt d k.rank row c
  let bad := own && (List.range t.ws).any fun c => decide (col0 + c < dt.d0) && s.isPoisoned (dt.addr 0 (el c)) (elemSize dt.fmt)
  ((List.range t.ws).map fun c =>
    if t.dimUsed ≤ col0 + c then 0
    else if t.pool = 3 then fMul (s.weightAt ts t j p) (dy c)
    else if t.pool = 2 then fDiv (dy c) (nfOf present)
    else dy c, bad || s.keyBad ts t j p)

/-- Component-wise FP32 sum. -/
def vecAdd (a b : List Nat) : List Nat := zipN fAdd a b

/-- The parts that a COMBINE sends to the owners of its rows. -/
def State.partsOf (s : State) (ts : List Tensor) (t : TableD) (j : Job) (dt : Tensor) (d : Nat) : List PartMsg :=
  let l := Tab.get [] (sortKey d j.sort) s.emb.sorted
  let blocks := alignedBlocks 128 j.posLo j.posHi
  (segments l).flatMap fun g =>
    if g.1 = nullRow then []
    else blocks.filterMap fun b =>
      let ks := g.2.filter fun p => decide (b.1 ≤ p ∧ p < b.1 + 2 ^ b.2)
      if ks = [] then none
      else
        let occ := ks.map fun p => (p - b.1, s.occGrad ts t j dt d p (s.presentOf t d (t.key p)))
        let v := ((keyTree vecAdd b.2 (occ.map fun o => (o.1, o.2.1))).head?).map Prod.snd
        some (PartMsg.mk d (s.ownerOf g.1) j.table g.1 ks.length b.1 b.2 (v.getD []) (occ.any fun o => o.2.2))

/-- R172: this package's pooled gradients of the share go to the holders of the other slices of die `d`'s number. -/
def State.sendGradients (s : State) (ts : List Tensor) (t : TableD) (j : Job) (dt : Tensor) (d : Nat) : State :=
  (s.groupPeers t).foldl (fun (s : State) p =>
    let els := (shareRows ts t j (s.rankIn t)).flatMap fun r => (t.columnsBelow p.1 d dt.d0).map (dataElem dt r)
    s.sendData p.2 (els.flatMap fun e => toLe (elemSize dt.fmt) (s.readElem dt 0 e))
      (els.any fun e => s.isPoisoned (dt.addr 0 e) (elemSize dt.fmt))
      (s.tilesOf (els.map fun e => (dt.addr 0 e, elemSize dt.fmt)))) s

/-- A value of the parts, counted over all of them, is an open one (R85). -/
def escapeParts (f k : Nat) : List PartMsg → List PartMsg
  | [] => []
  | p :: ps =>
    if k < p.values.length then { p with values := p.values.set k (freeAt f 0 % 2 ^ 32) } :: ps
    else p :: escapeParts f (k - p.values.length) ps

/-- The parts leave for their owners. -/
def State.sendParts (s : State) (t : TableD) (j : Job) (d c : Nat) (parts : List PartMsg) : State :=
  let s := s.bump (Reg.pressCnt d c 2) ((parts.map fun p => p.occurrences - 1).sum * t.sliceOps)
  let s := { s with emb := { s.emb with parts := s.emb.parts ++ parts } }
  let pip := parts.foldl (fun acc p => (enum0 p.values).foldl (fun acc v =>
    (acc + pipTerm pipM1 (p.lo * t.ws + v.1) v.2) % pipP) acc) 0
  s.pressTrace d c ((parts.map fun p => p.values.length).sum) pip j.mb

/-- The memory that a COMBINE reads: its sorted list, offsets, weights and this package's gradients (R168). -/
def State.combineRanges (s : State) (ts : List Tensor) (t : TableD) (j : Job) (dt : Tensor) (d : Nat) :
    List (Nat × Nat) :=
  jobRanges ts j [j.offset, j.weight] ++ (s.jobElems ts t j dt d).map fun e => (dt.addr 0 e, elemSize dt.fmt)

/-- A COMBINE issues: its reads meet their errors, and this package's gradients leave for the group. It runs once the
other packages' are committed (R172, R350). -/
def State.combine (s : State) (d c : Nat) (ecc : List MemError) (fault : Option PressFault) : State :=
  match s.turnJob d c 2 with
  | none => s
  | some (j, waits) =>
    match s.table j.table, findTensor s.tensors j.data with
    | some t, some dt =>
      let ts := s.tensors
      let s := if waits then s
        else (s.startJob d c).meetReads ⟨s.combineRanges ts t j dt d, [], some (clusterCode d c)⟩ (jobOp 2) ecc
      if !s.stepRunning then s
      else
        let s := if waits then s else s.sendGradients ts t j dt d
        if !s.gradsHere ts t j dt d then s
        else s.runPress d c 2 fault id fun s =>
          let parts := s.partsOf ts t j dt d
          match pressEscape fault with
          | some k => s.tickFree.sendParts t j d c (escapeParts s.fresh k parts)
          | none => s.sendParts t j d c parts
    | _, _ => s

def execCombine (site : PressSite) (events : PressEvents) (s : State) : Host.Outcome State Fault Refusal :=
  done (s.combine site.die site.cluster events.ecc events.fault)

/-! ### Owners (R169, R171) -/

def State.bank (s : State) (d table : Nat) : Bank := Tab.get ⟨s.stepIndex, []⟩ (bankKey d table) s.emb.banks

/-- Area of the bank that a table gathered in step `k` on die `d`. -/
def TableD.bankAddr (t : TableD) (d k : Nat) : Nat := t.pend.getD d 0 + k % t.pendBanks * t.uniqueMax * t.pendSlot

/-- G_x of a row. -/
def GradRow.root (g : GradRow) (kb : Nat) : List Nat :=
  (((combineUp vecAdd (kb + 1) 0 g.parts []).head?).map Prod.snd).getD []

/-- A row's slot: its index, the gradient over the parts so far, and as tree state its occurrences, with which a bank can
be read back (R171, R430; DESIGN CHOICE, log entry 27). -/
def GradRow.slotBytes (g : GradRow) (t : TableD) (row : Nat) : List Byte :=
  let bs := toLe 8 row ++ (g.root t.keyBits).flatMap (toLe 4) ++ toLe 8 g.occurrences
  bs ++ List.replicate (t.pendSlot - bs.length) 0

def State.putSlot (s : State) (t : TableD) (a row : Nat) (g : GradRow) : State :=
  s.guardedWrite (a + g.slot * t.pendSlot) (g.slotBytes t row) 0x3002

/-- An empty pending area: no slot is in use. -/
def State.clearBank (s : State) (t : TableD) (d k : Nat) : State :=
  s.guardedWrite (t.bankAddr d k) (List.replicate (t.uniqueMax * t.pendSlot) 0) 0x3002

/-- The pending area holds a bank. -/
def State.putBank (s : State) (t : TableD) (d : Nat) (b : Bank) : State :=
  b.rows.foldl (fun (s : State) r => s.putSlot t (t.bankAddr d b.step) r.1 r.2) (s.clearBank t d b.step)

/-- The areas that a step's gradients go to start empty. -/
def State.clearBanks (s : State) : State :=
  s.embD.tables.foldl (fun (s : State) t =>
    (List.range 4).foldl (fun (s : State) d => s.clearBank t d s.stepIndex) s) s

/-- The oldest part on its way to a cluster arrives, and the row's slot takes what is combined so far (R171). -/
def State.partArrives (s : State) (d c : Nat) : State :=
  match s.emb.parts.find? fun p => p.die == d && p.owner == c with
  | none => s
  | some p =>
    match s.table p.table with
    | none => s
    | some t =>
      let s := { s with emb := { s.emb with parts := s.emb.parts.erase p } }
      let b := s.bank d p.table
      let new := (Tab.find p.row b.rows).isNone
      if new && decide (t.uniqueMax ≤ b.rows.length) then
        s.undoUpdates.jobStop d c 2 0x0063 (min (b.rows.length + 1) 0xFFFFFFFF + p.table * 2 ^ 32)
      else
        let g := (Tab.find p.row b.rows).getD ⟨b.rows.length, 0, [], false, false⟩
        let s := if new then s else s.bump (Reg.pressCnt d c 2) t.sliceOps
        let g := { g with occurrences := g.occurrences + p.occurrences, parts := g.parts ++ [(p.lo, p.size, p.values)],
                          bad := g.bad || p.bad }
        let s := s.putSlot t (t.bankAddr d s.stepIndex) p.row g
        { s with emb := { s.emb with banks := Tab.put (bankKey d p.table) ⟨s.stepIndex, Tab.put p.row g b.rows⟩ s.emb.banks } }

def execOwnerPartArrival (die : Fin 4) (cluster : Fin 16) (s : State) : Host.Outcome State Fault Refusal :=
  done (s.partArrives die cluster)

/-! ### UPDATE (R174 to R178, R181) -/

/-- Address and fields of a row record: values, then the optimizer's state. -/
def stateOff (t : TableD) : Nat := t.valueBytes

def State.rowWord (s : State) (a i : Nat) : Nat := leNat (s.read (a + 4 * i) 4)

/-- The row's values on a die, as FP32. -/
def State.rowNow (s : State) (t : TableD) (d row : Nat) : List Nat :=
  rowValues t (s.read (s.rowPlace d t.idx row t) t.valueBytes)

/-- A die's part of the Adagrad sum (R176). -/
def State.adagradPart (s : State) (t : TableD) (p : OptPass) (d row : Nat) (g : List Nat) : Nat :=
  tsum ((zipN (decayed p) (s.rowNow t d row) g).map fun v => fMul v v)

/-- Values and optimizer state after the update of one row slice: bytes of the record. -/
def State.newRecord (s : State) (t : TableD) (p : OptPass) (d row step : Nat) (g : List Nat) (t2 : Nat) : List Byte × Nat :=
  let a := s.rowPlace d t.idx row t
  let w := s.rowNow t d row
  let so := a + stateOff t
  let acc := if p.o.kind = 1 then fAdd (s.rowWord so 0) (fDiv t2 (nfOf t.dimUsed)) else 0
  let one (i : Nat) : Nat × Nat × Nat :=
    let wi := w.getD i 0
    let gi := g.getD i 0
    match p.o.kind with
    | 1 => (fSub wi (fMul (fMul p.lr (fRsqrt (fAdd acc p.o.eps))) (decayed p wi gi)), 0, 0)
    | 2 => adamElem p wi gi (s.rowWord so i) (s.rowWord so (t.ws + i))
    | _ => (sgdElem p wi gi, 0, 0)
  let els := (List.range t.ws).map one
  let enc (e : Nat × (Nat × Nat × Nat)) : List Byte :=
    if t.rowFmt = fmtFp32 then toLe 4 e.2.1
    else
      let col := s.sliceCol t d + e.1
      let draw := if bit t.flags 0 then some (s.draw24 t.srStream step (row * t.dim + col)) else none
      toLe 2 (bf16.encode false draw (d32 e.2.1))
  let vals := (enum0 els).flatMap enc
  let st := match p.o.kind with
    | 1 => toLe 4 acc
    | 2 => (els.flatMap fun e => toLe 4 e.2.1) ++ els.flatMap fun e => toLe 4 e.2.2
    | _ => []
  (vals ++ st, acc)

/-- Something is written into a die's checkpoint area. How the area lays it out is open: its bytes are free (log entry
94). -/
def State.openArea (s : State) (n : Nat) : State :=
  s.guardedFree (s.fld (Reg.fltCkptBaseBase n)) (s.fld (Reg.fltCkptNeedNeed n)) 0x3000

/-- The pre-image of a row goes to its undo bank first, in the area of the holder's die (R387, R388). -/
def State.undoRow (s : State) (t : TableD) (d row : Nat) : State :=
  if !s.fldB Reg.fltCkptCtrlEnable then s
  else
    let bank := s.stepIndex % max 1 (s.fld Reg.fltCkptCtrlUndoSteps)
    let keep := s.flt.undo.filter fun u =>
      !(u.step % max 1 (s.fld Reg.fltCkptCtrlUndoSteps) == bank && u.step != s.stepIndex && u.die == d && u.table == t.idx)
    let pre : PreImage := ⟨d, t.idx, row, s.stepIndex, s.read (t.rowAddr s.embD d row) (s.embD.stride t)⟩
    let have_ := keep.any fun u => u.die == d && u.table == t.idx && u.row == row && u.step == s.stepIndex
    State.openArea { s with flt := { s.flt with undo := if have_ then keep else keep ++ [pre] } } d

/-- A new record goes to the Grotto line, to home and to the staged copy (R178, R206, R207). -/
def State.putRecord (s : State) (t : TableD) (d row : Nat) (bs : List Byte) : State :=
  let home := t.rowAddr s.embD d row
  let s := match s.lineOf d t.idx row with
    | none => s
    | some l =>
      if l.copying then
        (s.setLines (s.emb.lines.map fun m => if m = l then { m with overlay := some bs } else m)).grot d l.cluster 6 1
      else s.writeNoted (s.lineAddr t l) bs
  let s := s.writeNoted home bs
  match s.stagedAddr d t.idx row t with
  | some a => s.writeNoted a bs
  | none => s

/-- A record with an open value in one column (R85). -/
def escapeRecord (t : TableD) (bs : List Byte) (f : Nat) (esc : Option Nat) : List Byte :=
  let w := fmtBits t.rowFmt / 8
  match esc with
  | some i => bs.take (i * w) ++ toLe w (freeAt f 0) ++ bs.drop ((i + 1) * w)
  | none => bs

/-- The pip of the values a row's slice on die `d` now holds, by global element index x × DIM + c (R356). -/
def State.valuePip (s : State) (t : TableD) (d row : Nat) (bs : List Byte) : Nat :=
  let w := fmtBits t.rowFmt / 8
  ((List.range t.ws).filter fun c => decide (s.sliceCol t d + c < t.dim)).foldl (fun a c =>
    (a + pipTerm pipM1 (row * t.dim + (s.sliceCol t d + c)) (le bs (c * w) w)) % pipP) 0

/-- An updated row joins the ledger of its table and die with v(x) (R356). -/
def State.addLedger (s : State) (t : TableD) (d row v : Nat) (bs : List Byte) : State :=
  let mine := fun (l : Ledger) => l.table == t.idx && l.die == d
  let ls := s.chk.ledgers
  let ls := if ls.any mine then ls else ls ++ [⟨t.idx, d, 0, 0, 0⟩]
  let add := fun (l : Ledger) =>
    { l with sum1 := (l.sum1 + pipTerm pipM1 row v) % pipP, sum2 := (l.sum2 + pipTerm pipM2 row v) % pipP,
             values := (l.values + s.valuePip t d row bs) % pipP }
  { s with chk := { s.chk with ledgers := ls.map fun l => if mine l then add l else l } }

/-- The element of LR_TENSOR that an update pass reads (R174). -/
def State.lrRange (s : State) (o : OptD) (k : Nat) : List (Nat × Nat) :=
  match findTensor s.tensors o.lrTensor with
  | some x => if bit o.flags 1 then [(x.addr 0 (min k (x.d0 - 1)), elemSize x.fmt)] else []
  | none => []

/-- One row of one die, read where its line state serves it (R204); `esc` is a column that a fault left open. A poisoned
gradient, row or learning rate stops the step (Table 10.2, commit point 1). -/
def State.updateRow (s : State) (t : TableD) (p : OptPass) (d row step : Nat) (g : GradRow) (t2 : Nat)
    (esc : Option Nat) : State :=
  let a := s.rowPlace d t.idx row t
  let s := s.countRead d t.idx row
  let lrBad := (s.lrRange p.o (s.embD.t0 + step)).any fun r => s.isPoisoned r.1 r.2
  if g.bad || lrBad || s.isPoisoned a (s.embD.stride t) then
    let c := s.ownerOf row
    let s := s.emit 1 0x0013 (s.siteUnit (clusterCode d c)) (jobOp 3) (a % 2 ^ 48 + 2 ^ 48)
    (s.bump (Reg.chkCnt 18) 1).stopStep ⟨0, 0x0013, some a⟩ 0
  else
    let r := s.newRecord t p d row step (g.root t.keyBits) t2
    let bs := escapeRecord t r.1 s.fresh esc
    let s := (s.undoRow t d row).putRecord t d row bs
    let s := if esc.isSome then s.tickFree else s
    let v := g.occurrences % 2 ^ 32 + (if p.o.kind = 1 then r.2 * 2 ^ 32 else 0)
    s.addLedger t d row v bs

/-- The bank an update reads: of this step, or of the step before under STALENESS 1. -/
def State.updateBank (s : State) (t : TableD) (d : Nat) : Option Bank :=
  if t.staleness = 0 then some (s.bank d t.idx) else Tab.find (bankKey d t.idx) s.emb.prev

def State.setUpdateBank (s : State) (t : TableD) (d : Nat) (b : Bank) : State :=
  if t.staleness = 0 then { s with emb := { s.emb with banks := Tab.put (bankKey d t.idx) b s.emb.banks } }
  else { s with emb := { s.emb with prev := Tab.put (bankKey d t.idx) b s.emb.prev } }

/-- The rows of one owner cluster that are not written yet. -/
def ownedRows (s : State) (b : Bank) (c : Nat) : List (Nat × GradRow) :=
  b.rows.filter fun r => s.ownerOf r.1 == c && !r.2.applied

/-- This package's Adagrad sums of a row, by die. -/
def State.ownSums (s : State) (t : TableD) (p : OptPass) (row : Nat) : List (Option Nat) :=
  (List.range 4).map fun d =>
    (s.updateBank t d).bind fun b => (Tab.find row b.rows).map fun g => s.adagradPart t p d row (g.root t.keyBits)

/-- Another package's Adagrad sums of a cluster's rows: the committed bytes for the event of the cluster's UPDATE on die 0,
four bytes for each row, in ascending order, and die (DESIGN CHOICE, log entry 13). -/
def State.sumBytes (s : State) (t : TableD) (c r : Nat) : List Byte :=
  let ev := match (s.jobsOf 0 3 t.idx).find? fun p => p.1 == c with
    | some p => p.2.2.signal
    | none => 0xFFFF
  s.bytesFrom (s.memberOf t r) 0 ev fun _ => true

/-- The sum over every slice of the row that is number `i` of its cluster, combined over the column index (R176). -/
def State.rowSum (s : State) (t : TableD) (p : OptPass) (c i row : Nat) : Nat :=
  let own := s.ownSums t p row
  (treeSum ((List.range (4 * t.group)).map fun j =>
    if j / 4 = s.rankIn t then (own[j % 4]?).join
    else some (le (s.sumBytes t c (j / 4)) (16 * i + 4 * (j % 4)) 4))).getD 0

/-- Row-wise Adagrad's sums of a cluster's rows, before any of them is written. -/
def State.rowSums (s : State) (t : TableD) (o : OptD) (c : Nat) : Tab Nat :=
  match s.updateBank t 0 with
  | none => []
  | some b => if o.kind ≠ 1 then [] else
    (enum0 (ownedRows s b c)).map fun r =>
      (r.2.1, s.rowSum t (s.optPass s.tensors o o.lr (s.embD.t0 + b.step)) c r.1 r.2.1)

/-- R172: this package's Adagrad sums of a cluster's rows go to the group, once. -/
def State.sendSums (s : State) (t : TableD) (c : Nat) : State :=
  let mark := 16 * t.idx + c
  match s.updateBank t 0, s.embD.opts[t.opt]? with
  | some b, some o =>
    if o.kind ≠ 1 ∨ t.group = 1 ∨ s.emb.sumsSent.contains mark then s
    else
      let p := s.optPass s.tensors o o.lr (s.embD.t0 + b.step)
      let bytes := (ownedRows s b c).flatMap fun r => (s.ownSums t p r.1).flatMap fun v => toLe 4 (v.getD 0)
      State.sendGroup { s with emb := { s.emb with sumsSent := s.emb.sumsSent ++ [mark] } } t bytes false []
  | _, _ => s

/-- The sums of every other package are committed, where the update needs them. -/
def State.sumsHere (s : State) (t : TableD) (c : Nat) : Bool :=
  match s.updateBank t 0, s.embD.opts[t.opt]? with
  | some b, some o => o.kind != 1 ||
      (s.groupPeers t).all fun p => decide (16 * (ownedRows s b c).length ≤ (s.sumBytes t c p.1).length)
  | _, _ => true

/-- The rows of a cluster on one die are written, and its bank remembers it. -/
def State.applyDie (s : State) (t : TableD) (o : OptD) (d c : Nat) (sums : Tab Nat) (esc : Option Nat) : State :=
  match s.updateBank t d with
  | none => s
  | some b =>
    let p := s.optPass s.tensors o o.lr (s.embD.t0 + b.step)
    let s := (enum0 (ownedRows s b c)).foldl (fun (s : State) r =>
      let e := esc.bind fun k => if k / t.ws = r.1 then some (k % t.ws) else none
      s.updateRow t p d r.2.1 b.step r.2.2 (Tab.get 0 r.2.1 sums) e) s
    match s.updateBank t d with
    | none => s
    | some b => s.setUpdateBank t d ⟨b.step, b.rows.map fun r =>
        if s.ownerOf r.1 = c then (r.1, { r.2 with applied := true }) else r⟩

/-- The update of one cluster's rows on the dies named; `esc` is a value of the first die's rows that a fault left
open. -/
def State.applyRows (s : State) (t : TableD) (dies : List Nat) (c : Nat) (esc : Option Nat) : State :=
  match s.embD.opts[t.opt]? with
  | none => s
  | some o =>
    let sums := s.rowSums t o c
    (enum0 dies).foldl (fun (s : State) d => s.applyDie t o d.2 c sums (if d.1 = 0 then esc else none)) s

/-- The dies whose UPDATE job of a table on a cluster has issued. -/
def State.updateIssued (s : State) (d c table : Nat) : Bool :=
  (s.jobsOf d 3 table).any fun p => p.1 == c && s.jobIssued d c p.2.1

/-- Dies a cluster's update acts on together: all four under row-wise Adagrad, else its own. -/
def State.updateDies (s : State) (t : TableD) (d : Nat) : List Nat :=
  match s.embD.opts[t.opt]? with
  | some o => if o.kind = 1 then List.range 4 else [d]
  | none => [d]

/-- Every die that takes part in the update of a cluster's rows has issued its job. -/
def State.updateTogether (s : State) (t : TableD) (d c : Nat) : Bool :=
  (s.updateDies t d).all fun e => s.updateIssued e c t.idx

/-- The update of a cluster's rows, once every die that takes part has issued its job. -/
def State.tryApply (s : State) (t : TableD) (d c : Nat) (esc : Option Nat) : State :=
  if s.updateTogether t d c then s.applyRows t (s.updateDies t d) c esc else s

/-- The sums that the other packages need of a cluster's rows leave with the last job that issues, before any row is
written; whether theirs are here. -/
def State.exchangeSums (s : State) (t : TableD) (d c : Nat) : State × Bool :=
  if s.updateTogether t d c then (s.sendSums t c, s.sumsHere t c) else (s, true)

/-- Every part of a table on a die has arrived, and its COMBINE jobs have retired. -/
def State.gradsComplete (s : State) (d table : Nat) : Bool :=
  s.jobsRetired d 2 table && !s.emb.parts.any fun p => p.die == d && p.table == table

/-- The errors that the update of a cluster's rows on a die meets. -/
def State.meetUpdate (s : State) (t : TableD) (d c : Nat) (es : List MemError) : State :=
  match s.updateBank t d, s.embD.opts[t.opt]? with
  | some b, some o =>
    s.meetRows d c t ((ownedRows s b c).map Prod.fst) (s.embD.stride t) (s.lrRange o (s.embD.t0 + b.step)) (jobOp 3) es
  | _, _ => s

/-- An UPDATE job issues. Under STALENESS 0 it writes its rows once every part has arrived and, in twin mode, the tiles
that its gradients come from have agreed (R340, R343), and the sums of the other packages are committed (R172, R350). -/
def State.update (s : State) (d c : Nat) (ecc : List MemError) (fault : Option PressFault) : State :=
  match s.turnJob d c 3 with
  | none => s
  | some (j, waits) =>
    match s.table j.table with
    | none => s
    | some t =>
      if t.staleness = 0 then
        if !((s.updateDies t d).all fun e => s.gradsComplete e t.idx) || !s.chk.twinPending.isEmpty then s
        else
          let r := (if waits then s else s.startJob d c).exchangeSums t d c
          if r.2 then
            r.1.runPress d c 3 fault (fun s => s.meetUpdate t d c ecc) fun s => s.tryApply t d c (pressEscape fault)
          else r.1
      else (s.startJob d c).runPress d c 3 fault id id

def execUpdate (die : Fin 4) (cluster : Fin 16) (events : PressEvents) (s : State) : Host.Outcome State Fault Refusal :=
  done (s.update die cluster events.ecc events.fault)

/-- R181: the bank of the step before is applied, once every LOOKUP of the table on the die has retired. A fault lies in
the Press of one cluster. -/
def State.pendingBankApply (s : State) (d table : Nat) (ecc : List MemError) (fault : Option (Nat × PressFault)) : State :=
  match s.table table with
  | none => s
  | some t =>
    if t.staleness = 1 ∧ s.stepRunning ∧ (s.updateDies t d).all fun e => s.jobsRetired e 1 table then
      (List.range s.imageClusters).foldl (fun (s : State) c =>
        if !s.updateIssued d c table || !s.stepRunning then s
        else
          let f := (fault.filter fun f => f.1 == c).map Prod.snd
          let r := s.exchangeSums t d c
          if !r.2 then r.1
          else
            let s := r.1.meetUpdate t d c ecc
            if !s.stepRunning then s
            else
              match f.filter fun f => s.pressFails f with
              | some f => s.failPress d c 3 f
              | none => s.tryApply t d c (pressEscape f)) s
    else s

def execPendingBankApply (die : Fin 4) (bank : BankApply) (s : State) : Host.Outcome State Fault Refusal :=
  done (s.pendingBankApply die bank.table bank.ecc (bank.fault.map fun f => (f.1.val, f.2)))

/-! ### Completion of jobs (R165, R187) -/

def State.ownedCount (s : State) (t : TableD) (d c : Nat) : Nat :=
  match s.updateBank t d with
  | some b => (b.rows.filter fun r => s.ownerOf r.1 == c).length
  | none => 0

/-- Every row that an UPDATE job of a cluster owes is written. -/
def State.rowsApplied (s : State) (t : TableD) (d c : Nat) : Bool :=
  match s.updateBank t d with
  | some b => (ownedRows s b c).isEmpty
  | none => true

def State.tableState (s : State) (t : Nat) : TableState := Tab.get TableState.init t s.emb.tables

/-- A pending bank of the table holds a row that has not been applied. -/
def State.gradientsPending (s : State) (t : Nat) : Bool :=
  (List.range 4).any fun d => [s.emb.banks, s.emb.prev].any fun bs =>
    match Tab.find (bankKey d t) bs with
    | some b => b.rows.any fun r => !r.2.applied
    | none => false

/-- An UPDATE job of a table completes; the last one completes a pass (R187). A pass with no gathered row counts under
STALENESS 0, and not under STALENESS 1 where the step before left no bank (DESIGN CHOICE, log entry 209). -/
def State.endPass (s : State) (t : TableD) : State :=
  let allDone := (List.range 4).all fun d => s.jobsRetired d 3 t.idx
  let step := if t.staleness = 0 then some s.stepIndex
    else ((List.range 4).findSome? fun d => Tab.find (bankKey d t.idx) s.emb.prev).map Bank.step
  let old := s.tableState t.idx
  let new := { old with pending := t.staleness == 1 && s.gradientsPending t.idx }
  let new := match step with
    | some k => if allDone then { new with updates := old.updates + 1, lastStep := k } else new
    | none => new
  { s with emb := { s.emb with tables := Tab.set TableState.init t.idx new s.emb.tables } }

def State.nts (s : State) (slot : Nat) : NtsState := Tab.get NtsState.init slot s.emb.nts

/-- The first pip of the ledger over the rows that an UPDATE job applied (R356, R431; DEDUCED, log entry 212). -/
def State.ledgerPip (s : State) (t : TableD) (d c : Nat) : Nat :=
  match s.updateBank t d, s.embD.opts[t.opt]? with
  | some b, some o =>
    (b.rows.filter fun r => s.ownerOf r.1 == c).foldl (fun acc r =>
      let sum := if o.kind = 1 then s.rowWord (s.rowPlace d t.idx r.1 t + stateOff t) 0 * 2 ^ 32 else 0
      (acc + pipTerm pipM1 r.1 (r.2.occurrences % 2 ^ 32 + sum)) % pipP) 0
  | _, _ => 0

/-- Rows of DATA_TENSOR that the other packages write for this package's samples of a share: the bags that end in it, or
under POOL 0 the present keys (DESIGN CHOICE, log entry 163). -/
def State.outputRows (s : State) (ts : List Tensor) (t : TableD) (j : Job) : List Nat :=
  if t.pool = 0 then
    (j.keys.filter fun p => (t.key p).rank == s.rankIn t && match s.indexOfKey ts t j p with
      | some x => x != absentIndex
      | none => false).map fun p => t.dataRow ts j (t.key p)
  else
    ((shareBags ts t j).filter fun b => b.1 == s.rankIn t &&
      decide (t.bagStart j.mb b.1 b.2 + 2 ^ t.bagBits ≤ j.posHi)).map fun b => j.mb * samplesOf ts j + b.2

/-- The columns that every other package owes a LOOKUP are committed, for its event and inside its rows of DATA_TENSOR
(R172, R350). -/
def State.outputsHere (s : State) (t : TableD) (j : Job) (d : Nat) : Bool :=
  match findTensor s.tensors j.data with
  | none => true
  | some x =>
    let rows := s.outputRows s.tensors t j
    let here (a : Nat) : Bool := rows.any fun r => overlaps (x.addr 0 (dataElem x r 0)) (x.d0 * elemSize x.fmt) a 1
    (s.groupPeers t).all fun p =>
      decide (rows.length * (t.columnsBelow p.1 d x.d0).length * elemSize x.fmt ≤
        (s.bytesFrom p.2 d j.signal here).length)

def State.pressJobComplete (s : State) (d c : Nat) : State :=
  let p := s.press d c
  match (s.plan d c).jobs[p.next]? with
  | none => s
  | some j =>
    let ready := s.stepRunning && p.running && !p.waiting && (match j.kind, s.table j.table with
        | 1, some t => s.outputsHere t j d
        | 3, some t => s.rowsApplied t d c
        | 4, _ => !(s.nts j.table).waits
        | _, _ => true)
    if !ready then s
    else
      let s := match j.kind, s.table j.table with
        | 3, some t => s.pressTrace d c (s.ownedCount t d c) (s.ledgerPip t d c) 0xFF
        | 4, _ => s.pressTrace d c 0 0 0xFF
        | _, _ => s
      let s := (s.setPress d c ⟨p.next + 1, false, false⟩).signal d j.signal
      match j.kind, s.table j.table with
      | 3, some t => s.endPass t
      | _, _ => s

def execPressJobComplete (die : Fin 4) (cluster : Fin 16) (s : State) : Host.Outcome State Fault Refusal :=
  done (s.pressJobComplete die cluster)

/-! ### Grotto copies (R206) -/

/-- The copy of the line that starts at byte `off` of the cluster's Grotto returns: data, then overlay, then Cached. The
line keeps the poison of its home record (R210). -/
def State.grottoCopyReturn (s : State) (d c off : Nat) (ecc : List MemError) : State :=
  match s.emb.lines.find? fun l => l.die == d && l.cluster == c && l.copying &&
      (match s.table l.table with
        | some t => s.lineAddr t l == grottoAddr d c + off
        | none => false) with
  | none => s
  | some l =>
    let a := grottoAddr d c + off
    let n := l.copy.length
    let home := match s.table l.table with | some t => t.rowAddr s.embD d l.row | none => 0
    let s := s.meetReads (.of [(home, n)]) 0x3004 ecc
    let s := s.write a l.copy
    let s := match l.overlay with | some o => s.write a o | none => s
    let s := if s.isPoisoned home n then s.poisonRange a n else s
    s.setLines (s.emb.lines.map fun m =>
      if m = l then { m with copying := false, pinned := l.pinNext, pinNext := false, overlay := none, copy := [] } else m)

def execGrottoCopyReturn (site : PressSite) (line : Nat) (ecc : List MemError) (s : State) :
    Host.Outcome State Fault Refusal :=
  done (s.grottoCopyReturn site.die site.cluster line ecc)

end Sys2Proof.Machine
end

