-- ==== Sys2Proof/Machine/Memory.lean ====
section
/-! DEFINITION. Accesses of agents to memory and to the die windows, and the upkeep of the memories: writebacks,
refresh windows with their patrol reads, SRAM scrub (R99, R201, R202, R218 to R221, R520, R521). -/

namespace Sys2Proof.Machine

/-! ### Protected ranges (R99, R202) -/

/-- A byte range of a cluster's Grotto meets a table partition. -/
def State.inPartition (s : State) (d c off n : Nat) : Bool :=
  (s.plan d c).parts.any fun p => overlaps off n p.offset p.bytes

/-- The range meets a table partition of a Grotto. -/
def State.meetsPartition (s : State) (a n : Nat) : Bool :=
  match s.region a with
  | .window d off =>
    match s.windowPlace d off with
    | .grotto c o => s.inPartition d c o n
    | _ => false
  | _ => false

def writerCode : Agent → Nat
  | .core => 0
  | .coreSecure => 0
  | .pcie => 1
  | _ => 2

def accessOp (ag : Agent) : Nat :=
  match ag with
  | .pcie => 0x7001
  | .steward => 0x7002
  | _ => 0x7000

/-- A protected write is discarded with its record (R99). -/
def State.denyWrite (s : State) (ag : Agent) (a : Nat) : State :=
  let at_ := match s.region a with
    | .window d off =>
      match s.windowPlace d off with
      | .grotto c _ => s.siteSram (clusterCode d c)
      | _ => s.sitePackage
    | _ => s.sitePackage
  s.emit 3 0x0050 at_ (accessOp ag) (a % 2 ^ 48 + writerCode ag * 2 ^ 48)

/-- A die's windows are closed: it is lost, or waits for or is in its reset (R521; the whole time from the stop to the
end of the recovery, DESIGN CHOICE, log entry 168). -/
def State.windowClosed (s : State) (d : Nat) : Bool := s.lostDie d || s.flt.resetDies.contains d

/-- The whole range lies in one memory that agents write: tier 1, tier 2, or a scratchpad or Grotto of a window. -/
def State.writable (s : State) (a n : Nat) : Bool :=
  match s.region a with
  | .tier1 => inTier1 a n
  | .tier2 => s.inTier2 a n
  | .window d off =>
    !s.windowClosed d &&
    (match s.windowPlace d off with
      | .scratchpad _ _ o => decide (o + n ≤ 0x100000)
      | .grotto _ o => decide (o + n ≤ 0x1000000)
      | .none => false)
  | _ => false

/-- The whole range lies in NTS. -/
def inNts (a n : Nat) : Bool := decide (ntsBase ≤ a ∧ a + n ≤ ntsBase + ntsSize)

/-- The range lies in what BAR 2 maps (Table 13.10). -/
def State.inBar2 (s : State) (a n : Nat) : Bool :=
  let b := s.fld Reg.pcieBar2CfgBase
  decide (b ≤ a ∧ a + n ≤ b + 2 ^ s.fld Reg.pcieBar2CfgSizeLog2)

/-- Addresses that a requester reaches at all: over PCIe the tiers below a root port (R456), and as an endpoint what
BAR 2 maps (R455); other agents reach the tiers but no die's window (Table 16.1). -/
def State.reaches (s : State) (ag : Agent) (a n : Nat) : Bool :=
  match ag with
  | .pcie => if s.pkg.rootPort then s.inTiers a n else s.inBar2 a n
  | .other => s.inTiers a n
  | .i3c => false
  | _ => true

/-- Application cores and the steward reach the outbound window (Table 16.1). -/
def reachesOutbound : Agent → Bool
  | .core => true
  | .coreSecure => true
  | .steward => true
  | _ => false

/-- The PCIe address of an address in the outbound window (R455). -/
def State.outAddr (s : State) (a : Nat) : Nat := (s.reg Reg.pcieOutBase).toNat + (a - 0x100000000000)

def State.sendPcie (s : State) (r : PcieReq) : State := { s with hub := { s.hub with pcieOut := s.hub.pcieOut ++ [r] } }

/-- A write to memory by an agent: protected ranges, then the map (R99, R202, R440, R520). A core's write to NTS takes no
error response, since Table 13.1 names none. A write to the PCIe outbound window leaves the package. A poisoned write
marks every line it touches (R455). -/
def State.agentWrite (s : State) (ag : Agent) (a : Nat) (bs : List Byte) (bad : Bool) : State :=
  let n := bs.length
  let nts := s.region a == .nts && (ag == .core || ag == .coreSecure)
  if !s.reaches ag a n then s.respond (errorResponse ag)
  else if nts then (s.denyWrite ag a).respond (.ok 0)
  else if s.meetsPartition a n || (s.inImageBuffer a n && ag != .steward) then
    (s.denyWrite ag a).respond (errorResponse ag)
  else if s.region a == .outbound && reachesOutbound ag then (s.sendPcie (.write (s.outAddr a) bs)).respond (.ok 0)
  else if s.writable a n then
    let s := s.write a bs
    (if bad then s.poisonRange a n else s).respond (.ok 0)
  else s.respond (errorResponse ag)

/-- Poison met by a read that returns to software (Table 10.2, commit point 7). -/
def State.poisonedRead (s : State) (ag : Agent) (a : Nat) : State :=
  let s := s.emit 1 0x0013 s.sitePackage (accessOp ag) (a % 2 ^ 48 + 7 * 2 ^ 48)
  (s.bump (Reg.chkCnt 18) 1).respond (match ag with | .pcie => .poisoned | _ => .busError)

/-- A tile whose twin comparison is outstanding wrote part of the range (R343). -/
def State.awaitsTwin (s : State) (a n : Nat) : Bool :=
  !(s.tilesOf [(a, n)]).isEmpty

/-- A read of memory by an agent, with the errors it meets. Results of a tile whose twin comparison is outstanding do not
reach software: the access waits, and nothing changes until it is made again (R340, R343; DESIGN CHOICE, log entry
169). -/
def State.agentRead (s : State) (ag : Agent) (a n : Nat) (es : List MemError) : State :=
  if s.awaitsTwin a n then s
  else
    let s := s.meetReads (.of [(a, n)]) (accessOp ag) es
    if s.isPoisoned a n then s.poisonedRead ag a
    else s.respond (.ok (BitVec.ofNat 512 (leNat (s.read a n))))

/-- R201, R202: a read of a window; bytes of table partitions read 0. -/
def State.windowRead (s : State) (ag : Agent) (a n : Nat) (es : List MemError) : State :=
  if !s.writable a n then s.respond (errorResponse ag)
  else
    match s.region a with
    | .window d off =>
      match s.windowPlace d off with
      | .grotto c o =>
        if s.inPartition d c o n then
          s.respond (.ok (BitVec.ofNat 512 (leNat ((List.range n).map fun i =>
            if s.inPartition d c (o + i) 1 then 0 else s.byte (a + i)))))
        else s.agentRead ag a n es
      | _ => s.agentRead ag a n es
    | _ => s

/-- A read of the physical map outside register space (R440, R455, R456, R519, R520). What stands behind the outbound
window is open. -/
def State.memoryRead (s : State) (ag : Agent) (a n : Nat) (es : List MemError) : State :=
  if !s.reaches ag a n then s.respond (errorResponse ag)
  else
    match s.region a with
    | .tier1 => if inTier1 a n then s.agentRead ag a n es else s.respond (errorResponse ag)
    | .tier2 => if s.inTier2 a n then s.agentRead ag a n es else s.respond (errorResponse ag)
    | .nts => if inNts a n && ag != .steward && ag != .other then s.agentRead ag a n es else s.respond (errorResponse ag)
    | .outbound =>
      if reachesOutbound ag then (s.sendPcie (.read (s.outAddr a) n)).tickFree.respond (.ok (BitVec.ofNat 512 (leNat (freeBytes s.fresh n))))
      else s.respond (errorResponse ag)
    | .window _ _ => s.windowRead ag a n es
    | _ => s.respond (errorResponse ag)

/-! ### Writebacks (R218) -/

def State.eccWriteback (s : State) (k : MemKind) (a : Nat) : State :=
  { s with mm := { s.mm with writebacks := s.mm.writebacks.erase (k, a) } }

def execEccWriteback (kind : MemKind) (addr : Nat) (s : State) : Host.Outcome State Fault Refusal :=
  done (s.eccWriteback kind addr)

/-! ### Refresh and patrol (R220, R221, R226) -/

/-- A patrol position one line on; at the end of the array the pass ends and the new period takes effect. -/
def patrolNext (p : Nat × Nat × Nat) (lines period : Nat) : Nat × Nat × Nat :=
  if p.1 + 1 < lines then (p.1 + 1, p.2.1, p.2.2) else (0, p.2.1 + 1, period)

/-- A tier-1 patrol read of the next line, with what the codes of the line and of its metadata report. -/
def State.patrolTier1 (s : State) (e m : Ecc) : State :=
  let p := s.mm.patrol1
  let a := p.1 * 64
  let s := s.setLineMeta p.1 (setBits (s.lineMeta p.1) 15 8 (p.2.1 % 256))
  let s := (s.applyEcc a e 0x3002 2).applyEccIn .lineMetadata a m 0x3002 2
  { s with mm := { s.mm with patrol1 := patrolNext p (tier1Size / 64) (s.fld Reg.memScrubCtrlT1Hours) } }

def State.patrolTier2 (s : State) (e : Ecc) : State :=
  let p := s.mm.patrol2
  let a := tier2Base + p.1 * 64
  let again := e == .uncorrectable && s.mm.t2Poison.contains (a / 64)
  let s := s.applyEcc a e 0x3002 2
  -- an uncorrectable DDR5 error that patrol reproduces makes the channel DUE (Table 11.4)
  let s := if again then s.markDue (s.chargeOf a) 2 else s
  { s with mm := { s.mm with patrol2 := patrolNext p (s.tier2Size / 64) (s.fld Reg.memScrubCtrlT2Hours) } }

/-- A window opens on stack or channel `ch` (20 on: DDR5 channel ch − 20); a stack's temperature is read, and a patrol
read runs where the next line of the patrol lies there. The lines of a retired pseudo-channel lie in spare capacity of
the same stack, which patrol visits (R211, R221). -/
def State.refreshWindow (s : State) (ch temp : Nat) (e m : Ecc) : State :=
  if ch < 20 then
    let s := s.stackTemp ch temp
    if (s.stackOf (s.mm.patrol1.1 * 64)).1 = ch then s.patrolTier1 e m else s
  else if s.tier2Size ≠ 0 ∧ s.channelOf (tier2Base + s.mm.patrol2.1 * 64) = ch - 20 then s.patrolTier2 e
  else s

def execRefreshWindow (channel : Fin 36) (visit : RefreshVisit) (s : State) : Host.Outcome State Fault Refusal :=
  done (s.refreshWindow channel visit.temp.toNat visit.patrol visit.marks)

/-! ### SRAM scrub (R221) -/

/-- Physical-map range of the SRAM that a scrub visits: scratchpad of a core, Grotto of a cluster that carries a logical
one; NTS, which is no unit's, under key 0 (DESIGN CHOICE, log entry 170). -/
def State.sramOf (s : State) (key : Nat) : Option (Nat × Nat) :=
  if key = 0 then some (ntsBase, ntsSize)
  else
    match keyClass key, s.logicalOf (keyIndex key) with
    | 2, some u => some (scratchAddr (ucDie u) (ucCluster u) (ucCore u), 0x100000)
    | 3, some u => some (grottoAddr (ucDie u) (ucCluster u), 0x1000000)
    | _, _ => none

/-- Bytes of an engine's operand buffers (Table 6.1). -/
def operandBytes : Nat := 2 * 65536

/-- An error that a scrub visit meets. In a Cached line an uncorrectable one drops the line (R207). -/
def State.scrubError (s : State) (key hole : Nat) (e : Ecc) : State :=
  match s.sramOf key with
  | some r =>
    let a := r.1 + hole % (r.2 / 8) * 8
    match (if e = .uncorrectable then s.lineAt a else none) with
    | some l => s.dropLine l a 0x3003
    | none => s.applyEcc a e 0x3003 0
  | none =>
    match keyClass key, s.logicalOf (keyIndex key) with
    | 1, some u => s.bufferEcc .operandBuffer key (s.siteSram u) (hole % (operandBytes / 8) * 8) e 0x3003
    | _, _ => s

/-- One visit of a unit's SRAM. Which word an error meets is open: a free value (log entry 15). -/
def State.sramScrub (s : State) (key : Nat) (behind : Bool) (e : Ecc) : State :=
  let s := { s with mm := { s.mm with behind :=
      (if behind then (if s.mm.behind.contains key then s.mm.behind else s.mm.behind ++ [key])
       else s.mm.behind.erase key) } }
  if behind || e == .clean then s
  else s.free.2.scrubError key s.free.1 e

def execSramScrub (key : BitVec 32) (behind : Bool) (ecc : Ecc) (s : State) : Host.Outcome State Fault Refusal :=
  done (s.sramScrub key.toNat behind ecc)

end Sys2Proof.Machine
end

