-- ==== Sys2Proof/Machine/Rings.lean ====
section
/-! DEFINITION. The posted rings (R446 to R452): their state, reservation and completion of entries, the report line
and the interrupt with its holdoff. -/

namespace Sys2Proof.Machine

/-- Rings of each class (Table 13.4). -/
def ringCount (cls : Nat) : Nat :=
  match cls with
  | 0 => 4096
  | 1 => 256
  | 2 => 256
  | 3 => 256
  | 4 => 2
  | _ => 0

def ringKey (cls i : Nat) : Nat := cls * 4096 + i

def State.ring (s : State) (cls i : Nat) : RingState := Tab.get RingState.init (ringKey cls i) s.hub.rings

def State.setRing (s : State) (cls i : Nat) (r : RingState) : State :=
  { s with hub := { s.hub with rings := Tab.set RingState.init (ringKey cls i) r s.hub.rings } }

/-- Entry bytes (Table 13.4). -/
def entrySize (cls : Nat) (r : RingState) : Nat :=
  match cls with
  | 0 => if r.version = 0 then 32 else 128
  | 1 => 128
  | 2 => 32
  | 3 => 16
  | _ => 64

/-- Difference of two wrapping counts. -/
def ahead (a b : Nat) : Nat := (a + 2 ^ 32 - b) % 2 ^ 32

def RingState.entryAddr (r : RingState) (cls n : Nat) : Nat := r.base + n % 2 ^ r.sizeLog2 * entrySize cls r

/-- R452: an advance of the report count raises the ring's source, at once or at the end of its holdoff. -/
def State.ringRaise (s : State) (cls i : Nat) : State :=
  let r := s.ring cls i
  let free := match r.lastRaise with
    | some t => decide (t + r.holdoff * 64 ≤ s.upTime)
    | none => true
  if free then (s.setRing cls i { r with lastRaise := some s.upTime, waiting := false }).raiseIrq r.irq
  else s.setRing cls i { r with waiting := true }

/-- The completed prefix: `done` moves past every early completion that follows it. -/
def advance : Nat → Nat → List Nat → Nat × List Nat
  | 0, d, early => (d, early)
  | k + 1, d, early =>
    if early.contains d then advance k ((d + 1) % 2 ^ 32) (early.filter fun e => e != d) else (d, early)

/-- Entry `n` completes (R447): the report count advances over the completed prefix and is written. -/
def State.ringComplete (s : State) (cls i n : Nat) : State :=
  let r := s.ring cls i
  let early := r.early ++ [n]
  let p := advance early.length r.done early
  let s := s.setRing cls i { r with done := p.1, early := p.2 }
  if p.1 = r.done then s
  else (s.guardedWrite r.report (toLe 4 p.1) 0x3001).ringRaise cls i

def State.ringError (s : State) (cls i code : Nat) : State :=
  s.setRing cls i { s.ring cls i with error := code }

/-- A ring can take work: enabled and not stopped by an error. -/
def RingState.live (r : RingState) : Bool := r.enable && r.error == 0

/-- R449: the next posted entry of a receive or deferred ring is reserved and checked. No slot where the ring is not
enabled, holds no posted buffer, or stops on a bad entry. -/
def State.reserve (s : State) (cls i : Nat) : Option RingSlot × State :=
  let r := s.ring cls i
  if ringCount cls ≤ i ∨ !r.live ∨ r.posted = r.taken then (none, s)
  else
    let e := s.read (r.entryAddr cls r.taken) 12
    let a := le e 0 8
    let n := le e 8 4
    let okLen := n % 64 == 0 && decide (64 ≤ n ∧ n ≤ 16128)
    let okPlace := if cls = 1 then inTier1 a n else s.inTiers a n
    if okLen && okPlace then
      (some ⟨cls, i, r.taken, a, n⟩, s.setRing cls i { r with taken := (r.taken + 1) % 2 ^ 32 })
    else (none, s.ringError cls i 3)

/-- Work reserved or begun and not completed (R448); records of a CPL ring are written whole. -/
def State.ringBusy (s : State) (cls i : Nat) : Bool :=
  let r := s.ring cls i
  cls != 3 && r.taken != r.done

/-- R450, R328: a 32-bit stamp as a 64-bit GLC near `ref`. -/
def extendStamp (stamp ref : Nat) : Int :=
  (ref : Int) + sext 32 ((stamp + 2 ^ 32 - ref % 2 ^ 32) % 2 ^ 32)

/-- What a descriptor says of its frame (Table 13.5). -/
structure Desc where
  frameLen : Nat
  port : Nat
  flags : Nat
  stamp : Nat
  reason : Nat
  status : Nat
  metaWord : Nat
  hash : Nat
  model : Nat
  accs : List Int
deriving DecidableEq, Repr

/-- A frame and its descriptor are written into a reserved entry, FLAGS with DONE last (R442, R449). A place inside the
image buffer keeps its bytes (R99). -/
def State.deliverFrame (s : State) (x : RingSlot) (bytes : List Byte) (d : Desc) : State :=
  let r := s.ring x.cls x.ring
  let a := r.entryAddr x.cls x.entry
  let trunc := decide (x.len < bytes.length)
  let v2 := decide (x.cls = 1 ∨ r.version = 1)
  let s := s.guardedWrite x.addr (bytes.take x.len) 0x3001
  let flags := d.flags + 1 + 4 * b2n trunc
  let body := toLe 8 x.addr ++ toLe 4 x.len ++ toLe 2 d.frameLen ++ toLe 1 d.port ++ toLe 1 flags ++
    toLe 4 d.stamp ++ toLe 1 d.reason ++ toLe 1 d.status ++ toLe 2 d.metaWord ++ toLe 4 d.hash ++
    toLe 2 d.model ++ toLe 1 (1 + b2n v2) ++ [0]
  let acc := if v2 then (List.range 16).flatMap fun o => toLe 6 ((d.accs.getD o 0) % 2 ^ 48).toNat else []
  (s.guardedWrite a (body ++ acc) 0x3001).ringComplete x.cls x.ring x.entry

end Sys2Proof.Machine
end

