-- ==== Sys2Proof/Machine/Egress.lean ====
section
/-! DEFINITION. The halves of the ports: forwarding buffers, priority flow control, the transparent clock, and what a
half sends next (R231, R261 to R265, R320 to R326, R451). -/

namespace Sys2Proof.Machine

def State.half (s : State) (c : Nat) : Half := Tab.get Half.init c s.wire.halves

def State.setHalf (s : State) (c : Nat) (h : Half) : State :=
  { s with wire := { s.wire with halves := Tab.set Half.init c h s.wire.halves } }

def State.frame (s : State) (i : Nat) : Option Frame := Tab.find i s.wire.frames

def State.setFrame (s : State) (i : Nat) (f : Frame) : State :=
  { s with wire := { s.wire with frames := Tab.put i f s.wire.frames } }

/-- A counter of a half (R270). -/
def State.wireCount (s : State) (c i n : Nat) : State := s.bump (Reg.wireCnt (c / 2) (c % 2) i) n

def State.portUp (s : State) (c : Nat) : Bool :=
  decide (c < 16) && (if c % 2 = 0 then s.fldB (Reg.wirePortStatusUpA (c / 2)) else s.fldB (Reg.wirePortStatusUpB (c / 2)))

/-- The half runs at 800 Gb/s. -/
def State.fullRate (s : State) (c : Nat) : Bool := s.fld (Reg.wirePortCtrlMode (c / 2)) == 1

def State.peerOf (s : State) (c : Nat) : Nat :=
  if c % 2 = 0 then s.fld (Reg.wirePortCtrlPeerA (c / 2)) else s.fld (Reg.wirePortCtrlPeerB (c / 2))

def State.maxFrame (s : State) (c : Nat) : Nat := s.fld (Reg.wirePortCtrlMaxFrame (c / 2))

def State.bufferBytes (s : State) (c : Nat) : Nat := if s.fullRate c then 4194304 else 2097152

/-! ### Priority flow control (R264, R265) -/

/-- Bytes charged to an ingress half and class over every egress buffer. -/
def State.charge (s : State) (port q : Nat) : Nat :=
  (s.wire.halves.map fun e =>
    (e.2.queue.map fun x =>
      match s.frame x.1 with
      | some f => if f.port = port ∧ x.2.1 = q then x.2.2 else 0
      | none => 0).sum).sum

def State.pfcEnabled (s : State) (port q : Nat) : Bool := bit (s.fld (Reg.wirePortCtrlPfcEnable (port / 2))) q

/-- A PFC frame of 64 bytes is sent that pauses class `q` for `quanta`, 0 to release it. -/
def State.sendPfc (s : State) (port q quanta : Nat) : State :=
  let s := s.setHalf port { s.half port with pfcSent := some (q, quanta) }
  ((s.wireCount port 23 1).wireCount port 18 1).wireCount port 19 64

/-- The pause sent, or released, as the charge of a class crosses its thresholds. -/
def State.pfcUpdate (s : State) (port q : Nat) : State :=
  if !s.pfcEnabled port q then s
  else
    let h := s.half port
    let n := s.charge port q
    if s.fld (Reg.wirePfcThreshXoffKib (port / 2) q) * 1024 < n ∧ !h.xoff.contains q then
      (s.setHalf port { h with xoff := h.xoff ++ [q] }).sendPfc port q 65535
    else if n ≤ s.fld (Reg.wirePfcThreshXonKib (port / 2) q) * 1024 ∧ h.xoff.contains q then
      (s.setHalf port { h with xoff := h.xoff.filter fun x => x != q }).sendPfc port q 0
    else s

def State.paused (s : State) (c q : Nat) : Bool :=
  bit (if c % 2 = 0 then s.fld (Reg.wirePortStatusPausedA (c / 2)) else s.fld (Reg.wirePortStatusPausedB (c / 2))) q

def State.setPaused (s : State) (c q quanta : Nat) : State :=
  let h := s.half c
  let s := s.setHalf c { h with pauses := Tab.set 0 q quanta h.pauses }
  let f := if c % 2 = 0 then Reg.wirePortStatusPausedA (c / 2) else Reg.wirePortStatusPausedB (c / 2)
  s.setFld f (setBits (s.fld f) q q (if quanta = 0 then 0 else 1))

/-- A verified PFC frame whose opcode stands at byte `o`: the class vector and eight quanta follow it (IEEE 802.1Qbb). -/
def State.receivePfc (s : State) (c : Nat) (bytes : List Byte) (o : Nat) : State :=
  (List.range 8).foldl (fun (s : State) q =>
    if bit (be bytes (o + 2) 2) q && s.pfcEnabled c q then s.setPaused c q (be bytes (o + 4 + 2 * q) 2) else s) s

def execPauseExpiry (port : Fin 16) (cls : Fin 8) (s : State) : Host.Outcome State Fault Refusal :=
  done (if s.paused port.val cls.val then s.setPaused port.val cls.val 0 else s)

/-- R264: the pause is repeated while the charge stays above XON. -/
def State.pfcRepeat (s : State) (port q : Nat) : State :=
  if s.pfcEnabled port q && (s.half port).xoff.contains q &&
      decide (s.fld (Reg.wirePfcThreshXonKib (port / 2) q) * 1024 < s.charge port q) then s.sendPfc port q 65535
  else s

def execPfcRepeat (port : Fin 16) (cls : Fin 8) (s : State) : Host.Outcome State Fault Refusal :=
  done (s.pfcRepeat port.val cls.val)

/-! ### Admission (R264) -/

/-- A frame enters the buffer of half `c` in class `tc`, or is dropped. After a bad verdict no copy waits (R247). -/
def State.forward (s : State) (i : Nat) (f : Frame) (c tc : Nat) : State :=
  let h := s.half c
  let used := (h.queue.map fun x => x.2.2).sum
  if f.verdict = some false then s
  else if s.bufferBytes c < used + s.maxFrame c then
    s.wireCount f.port (if s.pfcEnabled f.port tc then 25 else 24) 1
  else
    let s := s.setHalf c { h with queue := h.queue ++ [(i, tc, min f.bytes.length f.maxFrame)] }
    s.pfcUpdate f.port tc

/-- Waiting copies of a frame leave the buffers (R247). -/
def State.unqueue (s : State) (i : Nat) : State :=
  (List.range 16).foldl (fun (s : State) c =>
    let h := s.half c
    match h.queue.find? fun x => x.1 == i with
    | none => s
    | some x =>
      let s := s.setHalf c { h with queue := h.queue.filter fun y => y.1 != i }
      match s.frame i with
      | some f => s.pfcUpdate f.port x.2.1
      | none => s) s

/-! ### Time stamps of frames (R320) -/

/-- The local clock in picoseconds. -/
def State.localPs (s : State) : Int := ((s.glc * 1000 + s.clock.frac * 1000 / 2 ^ 32 : Nat) : Int)

/-- Receive and transmit stamp of a frame whose byte 0 is at the boundary of half `c` now, in picoseconds. -/
def State.rxPs (s : State) (c : Nat) : Int := s.localPs - (s.half c).rxLatency

def State.txPs (s : State) (c : Nat) : Int := s.localPs + (s.half c).txLatency

/-- Picoseconds as descriptor time (R327). -/
def psStamp (t : Int) : Nat := (t.fdiv 1000 % 2 ^ 32).toNat

/-- Picoseconds in units of 2⁻¹⁶ ns. -/
def psFine (t : Int) : Int := (t * 65536).fdiv 1000

def State.txStamp (s : State) (c : Nat) : Nat := psStamp (s.txPs c)

/-! ### The transparent clock (R322 to R326) -/

def State.tcMode (s : State) (c : Nat) : Nat := bits (s.fld Reg.timeTcCtrlMode) (2 * c + 1) (2 * c)

/-- Residence in units of 2⁻¹⁶ ns: WCLK cycles of 40,960 units, scaled by the clock's rate (R323). -/
def State.residence (s : State) (f : Frame) (c : Nat) : Int :=
  let ps := (s.upTime - f.arrived) * 1000 + (s.half c).txLatency + (s.half f.port).rxLatency
  let cycles : Int := ((ps / 625 : Nat) : Int)
  (cycles * 40960 * (2 ^ 32 + sext 32 (s.fld Reg.timeRateRate))).fdiv (2 ^ 32)

def ptpType (b : List Byte) (o : Nat) : Nat := be b o 1 % 16
def ptpTwoStep (b : List Byte) (o : Nat) : Bool := bit (be b (o + 6) 1) 1

/-- Domain, sourcePortIdentity and sequenceId. -/
def ptpKey (b : List Byte) (o : Nat) : Nat := be b (o + 4) 1 * 2 ^ 96 + be b (o + 20) 10 * 2 ^ 16 + be b (o + 30) 2

def State.tcHold (s : State) (k : Nat) (v : Int) : State :=
  let t := s.wire.tc.filter fun e => e.key != k
  if 512 ≤ t.length then s else { s with wire := { s.wire with tc := t ++ [⟨k, v⟩] } }

/-- The frame with bytes of its PTP message changed and its UDP checksum repaired (R326); none for a UDP/IPv6 frame
without the two bytes that follow the message. -/
def ptpRewrite (p : Parsed) (b : List Byte) (off : Nat) (v : List Byte) : Option (List Byte) :=
  let o := p.ptp.getD 0
  let new := putBytes b off v
  match p.udp, p.l4 with
  | true, some u =>
    if keyField p.key kL3 2 = 1 then some (putBytes new (u + 6) [0, 0])
    else
      let len := be b (o + 2) 2
      if be b (u + 4) 2 < len + 10 then none
      else
        let e := o + len
        let sum := fun (x : List Byte) => (inetSum (((x.drop u).take (e - u)))) % 65535
        let swap := fun (w : Nat) => if (e - u) % 2 = 0 then w else w % 256 * 256 + w / 256
        let w := swap (be b e 2)
        some (putBytes new e (toBe 2 (swap ((w + sum b + 65535 - sum new) % 65535))))
  | _, _ => some new

/-- A forwarded frame left uncorrected, or with residence alone. -/
def State.tcSkipped (s : State) : State := s.bump (Reg.timeCnt 2) 1

/-- `v` units added to correctionField (R323); none where the checksum cannot be repaired. -/
def corrected (p : Parsed) (b : List Byte) (v : Int) : Option (List Byte) :=
  let o := p.ptp.getD 0 + 8
  ptpRewrite p b o (toBe 8 (((be b o 8 : Int) + v) % 2 ^ 64).toNat)

def State.tcAdd (s : State) (p : Parsed) (b : List Byte) (v : Int) : List Byte × State :=
  match corrected p b v with
  | some x => (x, s.bump (Reg.timeCnt 0) 1)
  | none => (b, s.tcSkipped)

/-- A Sync on a P2P half without a known meanLinkDelay is corrected by its residence alone, and counts once as skipped
(R325). -/
def State.tcAlone (s : State) (p : Parsed) (b : List Byte) (v : Int) : List Byte × State :=
  match corrected p b v with
  | some x => (x, (s.bump (Reg.timeCnt 0) 1).tcSkipped)
  | none => (b, s.tcSkipped)

/-- The held value of a follow-up message is added, and its entry freed (R324). -/
def State.tcFollow (s : State) (p : Parsed) (b : List Byte) (k : Nat) : List Byte × State :=
  match s.wire.tc.find? fun e => e.key == k with
  | some e => State.tcAdd { s with wire := { s.wire with tc := s.wire.tc.filter fun e => e.key != k } } p b e.value
  | none => (b, s.bump (Reg.timeCnt 1) 1)

/-- Table 9.4: what leaves for a forwarded frame, as the half `c` starts it. A frame that a malformation forwards has no
target of kind EGRESS or PEER (R322). -/
def State.tcCorrect (s : State) (f : Frame) (c : Nat) (b : List Byte) : List Byte × State :=
  let m := s.tcMode f.port
  match f.parsed.ptp with
  | none => (b, s)
  | some o =>
    if m = 0 ∨ m = 3 ∨ f.reason.isSome then (b, s)
    else
      let res := s.residence f c
      let mean := (s.half f.port).pd.mean
      let k := ptpKey b o
      let two := ptpTwoStep b o
      match ptpType b o, m, mean with
      | 0, 1, _ => if two then (b, s.tcHold k res) else s.tcAdd f.parsed b res
      | 0, _, some v => if two then (b, s.tcHold k (res + v)) else s.tcAdd f.parsed b (res + v)
      | 0, _, none => if two then (b, (s.tcHold k res).tcSkipped) else s.tcAlone f.parsed b res
      | 8, _, _ => s.tcFollow f.parsed b k
      | 1, 1, _ => s.tcAdd f.parsed b res
      | 1, _, _ => (b, s.tcSkipped)
      | 2, 1, _ => s.tcAdd f.parsed b res
      | 3, 1, _ => (if two then s.tcHold k res else s).tcAdd f.parsed b res
      | 10, 1, _ => s.tcFollow f.parsed b k
      | _, _, _ => (b, s)

/-- R324: a held value unused for 1 s is freed. -/
def execTcEntryExpiry (index : Nat) (s : State) : Host.Outcome State Fault Refusal :=
  done { s with wire := { s.wire with tc := s.wire.tc.eraseIdx index } }

/-! ### Peer delay on P2P halves (R325) -/

def State.setPd (s : State) (c : Nat) (p : Pdelay) : State := s.setHalf c { s.half c with pd := p }

/-- A message is posted on the steward's transmit ring (R321). -/
def State.sendPtp (s : State) (m : PtpOut) : State :=
  { s with wire := { s.wire with ptpOut := s.wire.ptpOut ++ [m] } }

/-- Time stamp of a PTP message body, 48-bit seconds and 32-bit nanoseconds, in units of 2⁻¹⁶ ns. -/
def ptpTime (b : List Byte) (o : Nat) : Int := (((be b o 6 * 1000000000 + be b (o + 6) 4) * 65536 : Nat) : Int)

def State.setMean (s : State) (c : Nat) (v : Int) : State :=
  s.setPd c { (s.half c).pd with mean := some v, sent := none, received := none, requestReceipt := none }

/-- A verified peer-delay message that arrived on a P2P half: a request is answered, a response measures the link. -/
def State.pdelayReceive (s : State) (f : Frame) : State :=
  match f.parsed.ptp with
  | none => s
  | some o =>
    if s.tcMode f.port ≠ 2 then s
    else
      let b := f.bytes
      let pd := (s.half f.port).pd
      let t4 := psFine f.rxPs
      let corr := sext 64 (be b (o + 8) 8)
      let mine := be b (o + 30) 2 == pd.seq && pd.sent.isSome
      match ptpType b o with
      | 2 => s.sendPtp ⟨f.port, 3, be b (o + 30) 2, t4, be b (o + 20) 10⟩
      | 3 =>
        if !mine then s
        else if ptpTwoStep b o then
          s.setPd f.port { pd with received := some (t4 - corr), requestReceipt := some (ptpTime b (o + 34)) }
        else s.setMean f.port ((t4 - pd.sent.getD 0 - corr).fdiv 2)
      | 10 =>
        match mine, pd.received, pd.requestReceipt with
        | true, some r, some t2 =>
          s.setMean f.port ((r - pd.sent.getD 0 - (ptpTime b (o + 34) - t2) - corr).fdiv 2)
        | _, _, _ => s
      | _ => s

/-- R325: once per second a P2P half sends its Pdelay_Req. -/
def State.pdelayReqTimer (s : State) (c : Nat) : State :=
  if s.tcMode c = 2 ∧ s.portUp c then
    let pd := (s.half c).pd
    let n := (pd.seq + 1) % 65536
    (s.setPd c { pd with seq := n, sent := none, received := none, requestReceipt := none }).sendPtp ⟨c, 2, n, 0, 0⟩
  else s

def execPdelayReqTimer (port : Fin 16) (s : State) : Host.Outcome State Fault Refusal :=
  done (s.pdelayReqTimer port.val)

/-- R325: no response for 3 s. -/
def execPdelayTimeout (port : Fin 16) (s : State) : Host.Outcome State Fault Refusal :=
  done (if s.tcMode port.val = 2 then s.setPd port.val { (s.half port.val).pd with mean := none } else s)

/-! ### What a half sends next (R263) -/

def Half.idle (h : Half) : Bool :=
  match h.out with
  | none => true
  | some o => o.decided

/-- Bytes with the FCS: the CRC-32, or its ones' complement where the frame is stomped (R297). -/
def TxOut.withFcs (o : TxOut) : List Byte :=
  let c := crc32 o.bytes
  o.bytes ++ toLe 4 (if o.stomped then c ^^^ 0xFFFFFFFF else c)

/-- A frame whose FCS is sent true: it and its successors are not stomped. -/
def TxOut.whole (bytes : List Byte) : TxOut := ⟨none, false, bytes, true, false, false⟩

/-- The FCS of a frame is decided: true, or stomped with an error control block behind it (R247, R297). -/
def TxOut.settle (o : TxOut) (good : Bool) : TxOut :=
  { o with decided := true, stomped := !good, errorBlock := !good }

/-- A frame starts on a half. -/
def State.startTx (s : State) (c : Nat) (o : TxOut) : State :=
  ((s.setHalf c { s.half c with out := some o }).wireCount c 18 1).wireCount c 19 (o.bytes.length + 4)

/-- The waiting forwarded frame that may start: highest class first, oldest within it. A frame from a slower half
waits for its verdict (R262). -/
def State.nextForward (s : State) (c : Nat) : Option (Nat × Nat × Nat) :=
  let ok := fun (x : Nat × Nat × Nat) =>
    match s.frame x.1 with
    | some f => !s.paused c x.2.1 && (f.verdict.isSome || !(s.fullRate c && !s.fullRate f.port))
    | none => false
  let cands := (s.half c).queue.filter ok
  (List.range 8).foldl (fun (r : Option (Nat × Nat × Nat)) k =>
    r.or (cands.find? fun x => x.2.1 == 7 - k)) none

def State.startForward (s : State) (c : Nat) (x : Nat × Nat × Nat) : State :=
  match s.frame x.1 with
  | none => s
  | some f =>
    let h := s.half c
    let s := s.setHalf c { h with queue := h.queue.filter fun y => y.1 != x.1 }
    let s := s.pfcUpdate f.port x.2.1
    let (b, s) := s.tcCorrect f c (f.bytes.take (x.2.2 - 4))
    let s := s.wireCount c 20 1
    -- a poisoned frame is stomped (Table 10.2, commit point 4)
    let s := if f.poisoned then s.poisonConsumed (s.siteHub 11) 0x4004 0 4 else s
    let o : TxOut := ⟨some x.1, false, b, false, false, false⟩
    s.startTx c (match f.verdict with
      | some good => o.settle (good && !f.poisoned)
      | none => o)

/-- The oldest job of each ring that waits for the half; the first whose class is not paused. -/
def State.nextTx (s : State) (c : Nat) : Option TxJob :=
  let js := s.hub.txJobs.filter fun j => j.half == c && !j.sent && j.status != 1 && j.status != 2
  let firsts := js.filter fun j => (js.find? fun k => k.ring == j.ring) == some j
  firsts.find? fun j => !s.paused c j.tc

/-- A time in units of 2⁻¹⁶ ns as the ten bytes of a PTP time stamp. -/
def ptpStamp (t : Int) : List Byte :=
  let ns := (t.fdiv 65536).toNat
  toBe 6 (ns / 1000000000) ++ toBe 4 (ns % 1000000000)

/-- originTimestamp of a one-step Sync (R321). -/
def State.oneStep (s : State) (c : Nat) (b : List Byte) : List Byte :=
  let p := parseFrame ⟨[], 0, false, false, false⟩ (b ++ [0, 0, 0, 0])
  match p.ptp with
  | some o =>
    if ptpType b o = 0 then
      (ptpRewrite p b (o + 34) (ptpStamp (psFine (s.txPs c)))).getD b
    else b
  | none => b

def State.startRingFrame (s : State) (c : Nat) (j : TxJob) : State :=
  let b := if bit j.flags 1 then s.oneStep c j.frame else j.frame
  let j' := { j with sent := true, frame := b, stamp := s.txStamp c }
  let s := { s with hub := { s.hub with txJobs := s.hub.txJobs.map fun k => if k = j then j' else k } }
  s.startTx c ((TxOut.whole b).settle (j.status != 3))

/-! ### The package's own PTP messages (R319, R321, R325) -/

/-- messageLength of a type (IEEE 1588). -/
def ptpLength (t : Nat) : Nat :=
  match t with
  | 2 => 54
  | 3 => 54
  | 9 => 54
  | 10 => 54
  | 0xB => 64
  | _ => 44

/-- A message that its follow-up completes, while ONE_STEP is 0. -/
def ptpPaired (t : Nat) : Bool := t == 0 || t == 3

/-- The message as it leaves at `now`. `open_` are the bytes that IEEE 1588 fills and the spec does not state. -/
def State.ptpMessageBytes (s : State) (m : PtpOut) (now : Int) (open_ : List Byte) : List Byte :=
  let t := m.messageType
  let one := s.fldB Reg.timeCtrlOneStep
  let corr : Int := if t = 3 ∧ one then now - m.value else if t = 8 ∨ t = 10 then m.value % 65536 else 0
  let stamp := match t with
    | 9 => ptpStamp m.value
    | 0 => if one then ptpStamp now else open_.take 10
    | 3 => if one then open_.take 10 else ptpStamp m.value
    | 8 => ptpStamp m.value
    | 10 => ptpStamp m.value
    | _ => open_.take 10
  let tail := if t = 3 ∨ t = 9 ∨ t = 10 then toBe 10 m.peer else (open_.drop 10).take (ptpLength t - 44)
  toBe 1 t ++ [2] ++ toBe 2 (ptpLength t) ++ toBe 1 (s.fld Reg.timeCtrlDomain) ++ [0] ++
    toBe 1 (2 * b2n (ptpPaired t && !one)) ++ [0] ++ toBe 8 (corr % 2 ^ 64).toNat ++ [0, 0, 0, 0] ++
    (open_.drop 30).take 10 ++ toBe 2 m.seq ++ (open_.drop 40).take 2 ++ stamp ++ tail

/-- The message in its transport (Table 9.3): Ethernet, UDP/IPv4 with checksum 0, or UDP/IPv6 with the two bytes behind
the message and a valid checksum. -/
def State.ptpFrame (s : State) (m : PtpOut) (now : Int) (open_ : List Byte) : List Byte :=
  let msg := s.ptpMessageBytes m now open_
  let mac := (open_.drop 42).take 12
  let src := (open_.drop 54).take 32
  let port := toBe 2 (if m.messageType < 8 then 319 else 320)
  let eth := match s.fld Reg.timeCtrlTransport with
    | 1 =>
      let n := msg.length + 8
      let h := fun c => [0x45, 0] ++ toBe 2 (20 + n) ++ [0, 0, 0, 0, 1, 17] ++ toBe 2 c ++ src.take 8
      toBe 2 0x0800 ++ h (0xFFFF - inetSum (h 0)) ++ port ++ port ++ toBe 2 n ++ [0, 0] ++ msg
    | 2 =>
      let n := msg.length + 10
      let u := fun c => port ++ port ++ toBe 2 n ++ toBe 2 c ++ msg ++ [0, 0]
      let c := 0xFFFF - inetSum (src ++ toBe 4 n ++ [0, 0, 0, 17] ++ u 0)
      toBe 2 0x86DD ++ [0x60, 0, 0, 0] ++ toBe 2 n ++ [17, 1] ++ src ++ u (if c = 0 then 0xFFFF else c)
    | _ => toBe 2 0x88F7 ++ msg
  let b := mac ++ eth
  b ++ List.replicate (60 - b.length) 0

/-- The message waiting on the half, unless its class is paused. -/
def State.nextPtp (s : State) (c : Nat) : Option PtpOut :=
  if s.paused c 0 then none else s.wire.ptpOut.find? fun m => m.half == c

/-- A message leaves with its transmit stamp; the stamp of a two-step message returns to the steward, whose follow-up
carries it, and that of a Pdelay_Req begins its measurement. -/
def State.startPtp (s : State) (c : Nat) (m : PtpOut) : State :=
  let now := psFine (s.txPs c)
  let b := s.ptpFrame m now (freeBytes s.fresh 86)
  let s := { s.tickFree with wire := { s.wire with ptpOut := s.wire.ptpOut.erase m } }
  let s := s.startTx c (TxOut.whole b)
  let s := if ptpPaired m.messageType && !s.fldB Reg.timeCtrlOneStep then
      s.sendPtp ⟨c, if m.messageType = 0 then 8 else 10, m.seq, now, m.peer⟩ else s
  let pd := (s.half c).pd
  if m.messageType = 2 ∧ m.seq = pd.seq then s.setPd c { pd with sent := some now } else s

end Sys2Proof.Machine
end

