-- ==== Sys2Proof/Machine/Encoder.lean ====
section
/-! DEFINITION. The feature encoder and the scoring of one frame: feature sets, horizon, codes, DOT fields, trees and
outputs (R243, R244, R277 to R290). -/

namespace Sys2Proof.Machine

def fp16 : Fmt := ⟨11, 5, -14, 0x7E00, true, 0x7BFF⟩
def fp64 : Fmt := ⟨53, 11, -1022, 0x7FF8000000000000, true, 0x7FEFFFFFFFFFFFFF⟩

/-! ### The encoder section (R277, Table 8.1) -/

def encModelBase : Nat := 16
def encSetBase (b : List Byte) : Nat := 16 + 4 * le b 0 2
def encFieldBase (b : List Byte) : Nat := encSetBase b + 8 * le b 2 1
def encCutBase (b : List Byte) : Nat := encFieldBase b + 16 * le b 4 2

/-- Set that a KRF MODEL selects (R278). -/
def encSelect (b : List Byte) (model : Nat) : Option Nat :=
  ((records b encModelBase 4 (le b 0 2)).find? fun r => le r 0 2 == model).map fun r => le r 2 1

def encCut (b : List Byte) (i : Nat) : Nat := le b (encCutBase b + 8 * i) 8

/-- Field records of a set. -/
def encFields (b : List Byte) (set : Nat) : List (List Byte) :=
  let r := sliceBytes b (encSetBase b + 8 * set) 8
  records b (encFieldBase b + 16 * le r 0 2) 16 (le r 2 2)

def fAnchor (r : List Byte) : Nat := le r 0 1
def fType (r : List Byte) : Nat := le r 1 1
def fWidth (r : List Byte) : Nat := le r 2 1
def fOffset (r : List Byte) : Nat := le r 4 2

/-- Byte 0 of a frame anchor (Table 7.5). -/
def anchorAt (p : Parsed) (a : Nat) : Option Nat :=
  match a with
  | 0 => some 0
  | 1 => p.l3
  | 2 => p.l4
  | 3 => p.krf.map Krf.off
  | 4 => match p.krf with
    | some k => if k.featLen = 0 then none else some (k.off + k.size)
    | none => none
  | _ => none

/-- R244, R278: the horizon byte, and whether every field lies within reach. -/
def horizon (b : List Byte) (p : Parsed) (set : Option Nat) : Nat × Bool :=
  match p.krf with
  | none => (0, true)
  | some k =>
    let base := k.off + k.size - 1
    match set with
    | none => (base, true)
    | some i =>
      (encFields b i).foldl (fun (acc : Nat × Bool) r =>
        match anchorAt p (fAnchor r) with
        | none => acc
        | some a =>
          let e := a + fOffset r + fWidth r
          (max acc.1 (e - 1), acc.2 && decide (e ≤ 1024) &&
            (fAnchor r != 4 || decide (fOffset r + fWidth r ≤ k.featLen)))) (base, true)

/-! ### Codes (R279, R280) -/

/-- The bytes of a field as a number; none where its anchor is absent. -/
def fieldRaw (f : Frame) (r : List Byte) : Option Nat :=
  if fAnchor r = 5 then
    if f.flowBytes = [] then none else some (le f.flowBytes (0x26 + fOffset r) (fWidth r))
  else
    (anchorAt f.parsed (fAnchor r)).map fun a => beNat (sliceBytes f.bytes (a + fOffset r) (fWidth r))

/-- Order key of a binary64 number. -/
def floatKey (v : Fv) : Nat :=
  let b := if v.isZero then 0 else fp64.encode false none v
  if 2 ^ 63 ≤ b then 2 ^ 64 - 1 - b else b + 2 ^ 63

/-- Value of a float field. -/
def fieldFloat (r : List Byte) (x : Nat) : Fv :=
  if fType r = 4 then bf16.decode x
  else match fWidth r with
    | 2 => fp16.decode x
    | 4 => d32 x
    | _ => fp64.decode x

/-- Order key, none for a NaN. -/
def orderKey (r : List Byte) (x : Nat) : Option Nat :=
  match fType r with
  | 1 => some x
  | 2 => some ((sext (8 * fWidth r) x + 2 ^ 63) % 2 ^ 64).toNat
  | _ => let v := fieldFloat r x; if v.isNan then none else some (floatKey v)

def sentinelCode (r : List Byte) : Nat := if le r 3 1 = 0 then 0 else 0xFFFF

/-- Rank among the field's cuts. -/
def rankCode (b r : List Byte) (k : Nat) : Nat :=
  1 + ((List.range (le r 12 2)).filter fun i => decide (encCut b (le r 8 4 + i) < k)).length

/-! ### DOT fields (R282, R283) -/

/-- Serving row `n` of a slot in the region the frame sampled. -/
def ntsRow (d : NtsD) (t : TableD) (reg n : Nat) : Nat × Nat :=
  (ntsBase + (if reg = 0 then d.regionA else d.regionB) + n * d.rowBytes t, d.rowBytes t)

/-- A slot as a frame sees it: descriptor, source table, sampled region; none where the region is empty. -/
def State.slotFor (s : State) (f : Frame) (slot : Nat) : Option (NtsD × TableD × Nat) :=
  let e := s.embD
  let st := s.nts slot
  let reg := f.regions.getD slot 0
  let full := if reg = 0 then st.fullA else st.fullB
  match e.slots[slot]? with
  | some d =>
    match e.tables[d.table]? with
    | some t => if full then some (d, t, reg) else none
    | none => none
  | none => none

/-- Column values of a row: FP32 values, or the scale and integers of SQ8. -/
def rowVals (d : NtsD) (n : Nat) (b : List Byte) : Nat × List Nat :=
  if d.fmt = fmtSq8 then (le b 0 4, (List.range n).map fun c => le b (4 + c) 1)
  else
    let w := fmtBits d.fmt / 8
    (0, (List.range n).map fun c => toF32 d.fmt (le b (w * c) w) 0)

def dotRows (a b : NtsD × TableD) (ra rb : List Byte) : Nat :=
  let n := a.2.dimUsed
  let x := rowVals a.1 n ra
  let y := rowVals b.1 n rb
  if a.1.fmt = fmtSq8 then
    let q := ((x.2.zip y.2).map fun p => sext 8 p.1 * sext 8 p.2).sum
    r32 ((Acc.ofInt q).value 0 (d32 x.1) (d32 y.1))
  else tsum (zipN fMul x.2 y.2)

/-- A DOT field's outcome: FP32 value or missing, indices at or above ROWS_OUT, and a poisoned row's address. -/
structure DotRes where
  value : Option Nat
  noRow : Nat
  bad : Option Nat
deriving DecidableEq, Repr

/-- An index at or above ROWS_OUT of its slot. -/
def State.beyondRows (s : State) (slot n : Nat) : Bool :=
  match s.embD.slots[slot]? with
  | some d => decide (d.rowsOut ≤ n)
  | none => false

/-- The value of an index field of the set. -/
def fieldIndex (f : Frame) (fs : List (List Byte)) (k : Nat) : Option Nat :=
  match fs[k]? with
  | some x => fieldRaw f x
  | none => none

/-- NTS rows that the DOT fields of a set read. -/
def State.dotReads (s : State) (f : Frame) (fs : List (List Byte)) : List (Nat × Nat) :=
  (fs.filter fun r => fAnchor r == 6).flatMap fun r =>
    match fieldIndex f fs (le r 4 1), fieldIndex f fs (le r 5 1), s.slotFor f (le r 6 1), s.slotFor f (le r 7 1) with
    | some na, some nb, some (da, ta, ga), some (db, tb, gb) =>
      if s.beyondRows (le r 6 1) na || s.beyondRows (le r 7 1) nb then [] else [ntsRow da ta ga na, ntsRow db tb gb nb]
    | _, _, _, _ => []

def State.dotField (s : State) (f : Frame) (fs : List (List Byte)) (r : List Byte) : DotRes :=
  match fieldIndex f fs (le r 4 1), fieldIndex f fs (le r 5 1) with
  | some na, some nb =>
    let miss := b2n (s.beyondRows (le r 6 1) na) + b2n (s.beyondRows (le r 7 1) nb)
    match s.slotFor f (le r 6 1), s.slotFor f (le r 7 1) with
    | some (da, ta, ga), some (db, tb, gb) =>
      if miss ≠ 0 then ⟨none, miss, none⟩
      else
        let a := ntsRow da ta ga na
        let b := ntsRow db tb gb nb
        if s.isPoisoned a.1 a.2 then ⟨none, 0, some a.1⟩
        else if s.isPoisoned b.1 b.2 then ⟨none, 0, some b.1⟩
        else ⟨some (dotRows (da, ta) (db, tb) (s.read a.1 a.2) (s.read b.1 b.2)), 0, none⟩
    | _, _ => ⟨none, miss, none⟩
  | a, b =>
    -- the other index is still held against its slot
    ⟨none, b2n (a.any (s.beyondRows (le r 6 1))) + b2n (b.any (s.beyondRows (le r 7 1))), none⟩

/-- Code of one field, with its NO_ROW count and a poisoned row's address. -/
def State.fieldCode (s : State) (f : Frame) (b : List Byte) (fs : List (List Byte)) (r : List Byte) :
    Nat × Nat × Option Nat :=
  if fAnchor r = 6 then
    let d := s.dotField f fs r
    match d.value with
    | some x => if (d32 x).isNan then (sentinelCode r, d.noRow, d.bad) else (rankCode b r (floatKey (d32 x)), d.noRow, d.bad)
    | none => (sentinelCode r, d.noRow, d.bad)
  else
    match fieldRaw f r with
    | none => (sentinelCode r, 0, none)
    | some x =>
      if fType r = 0 then (x, 0, none)
      else match orderKey r x with
        | some k => (rankCode b r k, 0, none)
        | none => (sentinelCode r, 0, none)

/-! ### Slices (Tables 8.2 to 8.4) -/

def sOut (b : List Byte) : Nat := le b 5 1
def sComp (b : List Byte) : Nat := le b 8 4
def sTree (b : List Byte) : Nat := le b 12 2
def sNode (b : List Byte) : Nat := le b 16 4
def sLeaf (b : List Byte) : Nat := le b 20 4
def sPair (b : List Byte) : Nat := le b 3 1
def sCompBase (b : List Byte) : Nat := 32 + 16 * sOut b
def sTreeBase (b : List Byte) : Nat := sCompBase b + 4 * sComp b
def sNodeBase (b : List Byte) : Nat := sTreeBase b + 16 * sTree b
def sLeafBase (b : List Byte) : Nat := sNodeBase b + 8 * sNode b

/-- R285: bit of a comparator. -/
def compBit (b : List Byte) (codes : List Nat) (c : Nat) : Bool :=
  let o := sCompBase b + 4 * c
  decide (codes.getD (le b o 1) 0 ≤ le b (o + 2) 2)

def nodeAt (b : List Byte) (n : Nat) : List Byte := sliceBytes b (sNodeBase b + 8 * n) 8

/-- R286: the walk of a general tree. -/
def walkTree (b : List Byte) (codes : List Nat) (base : Nat) : Nat → Nat → Nat
  | 0, _ => 0
  | k + 1, n =>
    let r := nodeAt b (base + n)
    let ch := if compBit b codes (le r 0 4) then le r 4 2 else le r 6 2
    if 0x8000 ≤ ch then ch % 256 else walkTree b codes base k (ch % 256)

def leafIndex (b : List Byte) (codes : List Nat) (t : List Byte) : Nat :=
  if le t 0 1 = 0 then
    if le t 1 1 = 0 then 0 else walkTree b codes (le t 4 4) 256 0
  else (List.range (le t 1 1)).foldl (fun l i =>
    2 * l + (1 - b2n (compBit b codes (le (nodeAt b (le t 4 4 + i)) 0 4)))) 0

/-- Sum of the leaf values of a slice's trees for output `o` (R287). -/
def treeSumFor (b : List Byte) (codes : List Nat) (o : Nat) : Int :=
  ((records b (sTreeBase b) 16 (sTree b)).map fun t =>
    if le t 2 1 = o then sext 32 (le b (sLeafBase b + 4 * (le t 8 4 + leafIndex b codes t)) 4) else 0).sum

def outRec (b : List Byte) (o : Nat) : List Byte := sliceBytes b (32 + 16 * o) 16

/-- A[o] of a slice, with the follower's sum in a capacity pair (R289). -/
def sliceAcc (b : List Byte) (follower : Option (List Byte)) (codes : List Nat) (o : Nat) : Int :=
  sext 64 (le (outRec b o) 0 8) + treeSumFor b codes o +
    match follower with
    | some g => treeSumFor g codes o
    | none => 0

/-- Output value (R287). -/
def sliceOut (b : List Byte) (o : Nat) (a : Int) : Nat :=
  let r := outRec b o
  let frac := le r 8 1
  if le r 10 1 = 8 then (clamp (-2147483648) 2147483647 (a.fdiv (2 ^ frac)) % 2 ^ 32).toNat
  else
    let y := r32 (.fin (decide (a < 0)) a.natAbs (-(frac : Int)))
    match le r 9 1 with
    | 1 => fSigmoid y
    | 2 => fExp y
    | _ => y

end Sys2Proof.Machine
end

