-- ==== Sys2Proof/Machine/Classify.lean ====
section
/-! DEFINITION. The classifier: banks, passes, flow contexts, targets and what a decided frame starts
(R244 to R260, R271, R272). -/

namespace Sys2Proof.Machine

/-! ### Banks (R249, R271, Table 7.17) -/

/-- Entries and words of a region; none for a region that does not exist. -/
def bankRegion (r : Nat) : Nat × Nat :=
  match r with
  | 0 => (8192, 8)
  | 1 => (8192, 8)
  | 2 => (8192, 2)
  | 3 => (65536, 8)
  | 4 => (65536, 2)
  | 5 => (8, 8)
  | 6 => (8, 1)
  | 7 => (1, 8)
  | 8 => (2, 2)
  | 9 => (8192, 1)
  | _ => (0, 0)

def clsKey (bank region index word : Nat) : Nat := ((bank * 16 + region) * 2 ^ 17 + index) * 8 + word

/-- Reset content of a word: the default actions exception and peer, 0 elsewhere. -/
def bankReset (region index word : Nat) : Nat :=
  if region = 8 ∧ word = 0 then (if index = 0 then 0x5000 else 0x6000) else 0

def State.bankWord (s : State) (bank region index word : Nat) : Nat :=
  Tab.get (bankReset region index word) (clsKey bank region index word) s.wire.banks

def State.setBankWord (s : State) (bank region index word v : Nat) : State :=
  { s with wire := { s.wire with
      banks := Tab.set (bankReset region index word) (clsKey bank region index word) v s.wire.banks } }

/-- A 512-bit entry. -/
def State.bankWide (s : State) (bank region index : Nat) : Nat :=
  ((List.range 8).map fun w => s.bankWord bank region index w * 2 ^ (64 * w)).sum

/-- Frames that hold a bank: between their two passes (R256). -/
def State.bankHolders (s : State) (bank : Nat) : Nat :=
  (s.wire.frames.filter fun e => e.2.stage == 1 && e.2.bank == bank).length

def State.activeBank (s : State) : Nat := s.fld Reg.clsBankStateActive

def State.bankWritable (s : State) (bank : Nat) : Bool := bank != s.activeBank && s.bankHolders bank == 0

/-- R255: GO makes the inactive bank active. -/
def State.bankSwap (s : State) (v : Word) : State :=
  if bit v.toNat 63 then
    (s.setFld Reg.clsBankStateActive (1 - s.activeBank)).setFld Reg.clsBankStateEpoch
      (s.fld Reg.clsBankStateEpoch + 1)
  else s

def execBankSwap (value : Word) (s : State) : Host.Outcome State Fault Refusal :=
  done (s.onReady fun s => s.bankSwap value)

/-- BANK_ADDR after an access under AUTO_INC (R271). -/
def State.bankAdvance (s : State) : State :=
  if s.fldB Reg.clsBankAddrAutoInc then
    let words := (bankRegion (s.fld Reg.clsBankAddrRegion)).2
    let w := s.fld Reg.clsBankAddrWord
    if w + 1 < words then s.setFld Reg.clsBankAddrWord (w + 1)
    else (s.setFld Reg.clsBankAddrWord 0).setFld Reg.clsBankAddrIndex (s.fld Reg.clsBankAddrIndex + 1)
  else s

/-- A bank word as it is held: bits that Table 7.8 gives as 0 stay 0. -/
def bankValue (region word v : Nat) : Nat :=
  if !([2, 4, 8].contains region) then v
  else if word = 0 then v % 2 ^ 56 + b2n (bit v 63) * 2 ^ 63
  else v % 2 ^ 12

def State.bankDataAccess (s : State) (w : Option Word) : State :=
  let b := s.fld Reg.clsBankAddrBank
  let r := s.fld Reg.clsBankAddrRegion
  let i := s.fld Reg.clsBankAddrIndex
  let k := s.fld Reg.clsBankAddrWord
  let size := bankRegion r
  if size.1 ≤ i ∨ size.2 ≤ k then s.respond (.ok 0)
  else
    let s := match w with
      | none => s.respond (.ok (BitVec.ofNat 512 (s.bankWord b r i k)))
      | some v =>
        let s := s.respond (.ok 0)
        if !s.bankWritable b then s.setFld Reg.clsBankStateRefused 1
        else if r = 9 then s
        else s.setBankWord b r i k (bankValue r k v.toNat)
    s.bankAdvance

def execBankDataAccess (write : Option Word) (s : State) : Host.Outcome State Fault Refusal :=
  done (if write.isNone then s.bankDataAccess write else s.onReady fun s => s.bankDataAccess write)

/-! ### Lookup (R249, R250) -/

inductive Hit where
  | exact
  | ternary (index : Nat)
  | addressed
  | other
deriving DecidableEq, Repr

/-- Indices of the ternary rules with VALID, ascending. -/
def State.validRules (s : State) (bank : Nat) : List Nat :=
  let lo := clsKey bank 2 0 0
  let hi := clsKey bank 3 0 0
  s.wire.banks.filterMap fun e =>
    if lo ≤ e.1 ∧ e.1 < hi ∧ e.1 % 8 = 0 ∧ bit e.2 63 then some ((e.1 - lo) / 8) else none

def ternaryHit (key value mask : Nat) : Bool := (key ^^^ value) &&& mask == 0

def State.lookupKey (s : State) (bank key : Nat) : Hit × Nat × Nat :=
  let k := key &&& s.bankWide bank 7 0
  let bucket := crc32c (keyBytes k) % 16384
  let way := (List.range 4).find? fun w =>
    bit (s.bankWord bank 4 (4 * bucket + w) 0) 63 && s.bankWide bank 3 (4 * bucket + w) == k
  match way with
  | some w => (.exact, s.bankWord bank 4 (4 * bucket + w) 0, s.bankWord bank 4 (4 * bucket + w) 1)
  | none =>
    match (s.validRules bank).find? fun i => ternaryHit key (s.bankWide bank 0 i) (s.bankWide bank 1 i) with
    | some i => (.ternary i, s.bankWord bank 2 i 0, s.bankWord bank 2 i 1)
    | none =>
      let d := if bit key kAddressed then 0 else 1
      (if d = 0 then .addressed else .other, s.bankWord bank 8 d 0, s.bankWord bank 8 d 1)

def State.clsCount (s : State) (i n : Nat) : State := s.bump (Reg.clsCnt i) n

/-- Counters of a pass (Table 7.19) and the rule's hit counter. -/
def State.countHit (s : State) (bank : Nat) (h : Hit) : State :=
  let s := s.clsCount 0 1
  match h with
  | .exact => s.clsCount 3 1
  | .ternary i => (s.clsCount 4 1).setBankWord bank 9 i 0 ((s.bankWord bank 9 i 0 + 1) % 2 ^ 64)
  | .addressed => s.clsCount 5 1
  | .other => s.clsCount 6 1

/-! ### Hash and indirection (R257) -/

/-- SIP, DIP, SPORT and DPORT exchanged where SYMMETRIC orders them. -/
def symmetricKey (key : Nat) : Nat :=
  let sip := keyField key kSip 128
  let dip := keyField key kDip 128
  let sp := keyField key kSport 16
  let dp := keyField key kDport 16
  if dip * 2 ^ 16 + dp < sip * 2 ^ 16 + sp then
    setBits (setBits (setBits (setBits key (kSip + 127) kSip dip) (kDip + 127) kDip sip) (kSport + 15) kSport dp)
      (kDport + 15) kDport sp
  else key

def State.wireHash (s : State) (bank key prof : Nat) : Nat :=
  let p := s.bankWord bank 6 prof 0
  let k := if bit p 0 then symmetricKey key else key
  crc32c (keyBytes (k &&& s.bankWide bank 5 prof)) ^^^ (p / 2 ^ 32)

/-! ### Actions (Table 7.8) -/

def aTarget (w : Nat) : Nat := bits w 15 0
def aIndirect (w : Nat) : Bool := bit w 16
def aProfile (w : Nat) : Nat := bits w 19 17
def aIndirBase (w : Nat) : Nat := bits w 28 20
def aIndirLog2 (w : Nat) : Nat := min (bits w 32 29) 9
def aRecirc (w : Nat) : Bool := bit w 33
def aTap (w : Nat) : Bool := bit w 34
def aFlow (w : Nat) : Bool := bit w 35
def aTc (w : Nat) : Nat := bits w 38 36
def aTcOverride (w : Nat) : Bool := bit w 39
def aMeta (w : Nat) : Nat := bits w 55 40

/-- Target and hash that an action gives. -/
def State.actionTarget (s : State) (bank port key w : Nat) : Nat × Nat :=
  if aIndirect w then
    let h := s.wireHash bank key (aProfile w)
    let i := (aIndirBase w + h % 2 ^ aIndirLog2 w) % 512
    (s.fld (Reg.clsIndirTarget (port / 2) i), h)
  else (aTarget w, 0)

def tKind (t : Nat) : Nat := t / 4096
def tArg (t : Nat) : Nat := t % 4096

def outerTc (p : Parsed) : Nat := if p.vlan = [] then 0 else keyField p.key kOuterPcp 3

/-- Traffic class of a decided frame (Table 7.8). -/
def frameTc (f : Frame) : Nat := if aTcOverride f.action then aTc f.action else outerTc f.parsed

/-! ### Flow contexts (R258 to R260, R272) -/

def State.flowCtx (s : State) (i : Nat) : List Byte := Tab.get (List.replicate 64 (0 : Byte)) i s.wire.flows

def State.setFlow (s : State) (i : Nat) (b : List Byte) : State :=
  { s with wire := { s.wire with flows := Tab.set (List.replicate 64 (0 : Byte)) i b s.wire.flows } }

def flowFlags (c : List Byte) : Nat := le c 0x25 1

/-- The part of a context that a flow key fixes. -/
def flowHead (p : Parsed) : List Byte :=
  toBe 16 (keyField p.key kSip 128) ++ toBe 16 (keyField p.key kDip 128) ++ toLe 2 (keyField p.key kSport 16) ++
  toLe 2 (keyField p.key kDport 16) ++ toLe 1 (keyField p.key kProto 8)

def flowV6 (p : Parsed) : Bool := keyField p.key kL3 2 == 2

def flowSame (p : Parsed) (c : List Byte) : Bool :=
  bit (flowFlags c) 0 && bit (flowFlags c) 1 == flowV6 p && decide (c.take 0x25 = flowHead p)

def flowNew (p : Parsed) (stamp : Nat) : List Byte :=
  flowHead p ++ toLe 1 (1 + 2 * b2n (flowV6 p)) ++ toLe 2 0 ++ toLe 4 0 ++ toLe 4 0 ++ toLe 4 stamp ++ toLe 4 stamp ++
  toLe 4 0xFFFFFFFF ++ toLe 4 0

/-- Age of a STALE way: those with OLD first, then the larger distance from the local time. -/
def State.flowAge (s : State) (c : List Byte) : Nat :=
  b2n (bit (flowFlags c) 3) * 2 ^ 32 + (s.stamp32 + 2 ^ 32 - le c 0x34 4) % 2 ^ 32

/-- The way a new context takes: the lowest without VALID, else the oldest STALE one. -/
def State.flowVictim (s : State) (base : Nat) : Option Nat :=
  let ways := List.range 4
  match ways.find? fun w => !bit (flowFlags (s.flowCtx (base + w))) 0 with
  | some w => some w
  | none =>
    (ways.filter fun w => bit (flowFlags (s.flowCtx (base + w))) 2).foldl (fun (r : Option Nat) w =>
      match r with
      | none => some w
      | some v => if s.flowAge (s.flowCtx (base + v)) < s.flowAge (s.flowCtx (base + w)) then some w else some v) none

/-- R259: the context of an IP frame. -/
def State.flowFind (s : State) (f : Frame) : Option Nat × State :=
  let base := 4 * (crc32c (flowKey f.parsed) % 16384)
  match (List.range 4).find? fun w => flowSame f.parsed (s.flowCtx (base + w)) with
  | some w => (some (base + w), s)
  | none =>
    match s.flowVictim base with
    | some w =>
      let n := Tab.get 0 (base + w) s.wire.flowSerials + 1
      let s := { s with wire := { s.wire with flowSerials := Tab.set 0 (base + w) n s.wire.flowSerials } }
      (some (base + w), (s.setFlow (base + w) (flowNew f.parsed f.stamp)).clsCount 9 1)
    | none => (none, s.clsCount 10 1)

def satAdd32 (a b : Nat) : Nat := min (a + b) 0xFFFFFFFF

/-- R260: the update of a verified frame; dropped where a flush has cleared the context, or its way was allocated again
since the frame's pass (R272). -/
def State.flowUpdate (s : State) (f : Frame) : State :=
  match f.flow with
  | none => s
  | some i =>
    let c := s.flowCtx i
    if !flowSame f.parsed c || Tab.get 0 i s.wire.flowSerials != f.flowSerial then s
    else
      let gap := (f.stamp + 2 ^ 32 - le c 0x34 4) % 2 ^ 32
      let minGap := if le c 0x28 4 = 0 then le c 0x38 4 else min (le c 0x38 4) gap
      s.setFlow i (c.take 0x25 ++ toLe 1 (flowFlags c % 4) ++ toLe 2 (aMeta f.action) ++
        toLe 4 (satAdd32 (le c 0x28 4) 1) ++ toLe 4 (satAdd32 (le c 0x2C 4) f.bytes.length) ++
        (c.drop 0x30).take 4 ++ toLe 4 f.stamp ++ toLe 4 minGap ++ toLe 4 0)

/-- R259: one visit of the sweep to a context. -/
def State.sweepCtx (s : State) (c : List Byte) : List Byte :=
  let fl := flowFlags c
  if !bit fl 0 then c
  else
    let d := (s.stamp32 + 2 ^ 32 - le c 0x34 4) % 2 ^ 32
    let fl := if s.fld Reg.clsFlowCtrlIdleUs * 1000 ≤ d then setBits fl 2 2 1 else fl
    let fl := if 2 ^ 31 ≤ d then setBits fl 3 3 1 else fl
    putBytes c 0x25 (toLe 1 fl)

def execFlowSweep (s : State) : Host.Outcome State Fault Refusal :=
  done { s with wire := { s.wire with flows := s.wire.flows.map fun e => (e.1, s.sweepCtx e.2) } }

/-- R272: GO clears VALID in every context. -/
def State.flowFlush (s : State) (v : Word) : State :=
  if bit v.toNat 63 then
    s.wire.flows.foldl (fun (s : State) e =>
      s.setFlow e.1 (putBytes e.2 0x25 (toLe 1 (setBits (flowFlags e.2) 0 0 0)))) s
  else s

def execFlowFlush (value : Word) (s : State) : Host.Outcome State Fault Refusal :=
  done (s.onReady fun s => s.flowFlush value)

/-! ### Hub model copies (R300, R301) -/

/-- The copy a frame is stamped with. -/
def State.modelFor (s : State) (f : Frame) : HubModel := if f.copy = s.wire.swaps then s.wire.model else s.wire.oldModel

def State.modelHolders (s : State) : Nat :=
  (s.wire.frames.filter fun e => e.2.holds && e.2.copy != s.wire.swaps).length

def HubModel.slice (m : HubModel) (j : Nat) : List Byte := Tab.get [] j m.slices

/-! ### Slices (R252, R288, R303, R305) -/

def State.sliceRetired (s : State) (j : Nat) : Bool := s.outOfMap (sliceKey j)

def State.sliceLoaded (s : State) (j : Nat) : Bool := s.wire.model.slice j != []

/-- A pair with the layout `pair` can evaluate under leader `j` (R303). -/
def State.sliceUsable (s : State) (pair j : Nat) : Bool :=
  match pair with
  | 1 => !s.sliceRetired j && !s.sliceRetired (j + 1)
  | 3 => (!s.sliceRetired j && !s.sliceRetired (j + 1)) ||
         (s.fldB (Reg.brmSliceCtrlDegrade j) && !(s.sliceRetired j && s.sliceRetired (j + 1)))
  | _ => !s.sliceRetired j

/-- The slices that a layout `pair` under leader `j` uses and that are retired. -/
def State.sliceLost (s : State) (pair j : Nat) : List Nat :=
  (if pair = 1 ∨ pair = 3 then [j, j + 1] else [j]).filter s.sliceRetired

/-- A target of kind SLICE is available to a frame stamped with copy `m` (R252, R300); none is while a full load is
distributed (R104), and a follower is no target. -/
def State.sliceAvailable (s : State) (m : HubModel) (j : Nat) : Bool :=
  let pair := sPair (m.slice j)
  decide (j < 16) && m.slice j != [] && !s.fldB (Reg.brmSliceCtrlStop j) && s.loadState != loadDistributing &&
    (pair == 0 || pair == 1 || pair == 3) && s.sliceUsable pair j

/-- The pair that `j` leads evaluates on one slice (R303). -/
def State.sliceAlone (s : State) (j : Nat) : Bool :=
  sPair (s.wire.model.slice j) == 3 && (s.sliceRetired j != s.sliceRetired (j + 1))

def State.sliceCount (s : State) (j i n : Nat) : State := s.bump (Reg.brmSliceCnt j i) n

/-! ### Targets (R252, R261) -/

/-- A ring target is available where the ring gives an entry (R449). -/
def State.ringTarget (s : State) (cls i : Nat) : Bool × Option RingSlot × State :=
  match s.reserve cls i with
  | (some x, s') => (true, some x, s')
  | (none, s') => (false, none, s')

/-- Availability of a target to a frame at a pass; a ring target reserves its entry. Deferred-path work stops with the loss of
a die (R398): its rings are then no target (DEDUCED, log entry 217). -/
def State.available (s : State) (f : Frame) (t : Nat) : Bool × Option RingSlot × State :=
  match tKind t with
  | 0 => (true, none, s)
  | 1 => s.ringTarget 0 (tArg t)
  | 2 => (s.portUp (tArg t % 16), none, s)
  | 3 => (s.sliceAvailable (s.modelFor f) (tArg t % 16), none, s)
  | 4 => if s.fld Reg.fltRecoveryStatusLostDies = 0 then s.ringTarget 1 (tArg t % 256) else (false, none, s)
  | 5 => s.ringTarget 0 (s.fld (Reg.wirePortCtrlExcRing (f.port / 2)))
  | 6 => (s.portUp (s.peerOf f.port), none, s)
  | _ => (false, none, s)

/-- A link-local destination is never forwarded: EGRESS and PEER become EXCEPTION (R261). -/
def Frame.bounded (f : Frame) (t : Nat) : Nat :=
  if (tKind t = 2 ∨ tKind t = 6) ∧ linkLocal (keyField f.parsed.key kDmac 48) then 0x5000 else t

/-- R252: the target after the unavailable-target action; none where the frame is dropped for it. -/
def State.resolve (s : State) (f : Frame) (t : Nat) : Option Nat × Option RingSlot × State :=
  let t := f.bounded t
  match s.available f t with
  | (true, r, s) => (some t, r, s)
  | (false, _, s) =>
    let s := s.clsCount 7 1
    let u := f.bounded (s.fld (Reg.clsUnavailTarget f.port))
    match s.available f u with
    | (true, r, s) => (some u, r, s)
    | (false, _, s) => (none, none, s.clsCount 8 1)

/-! ### The end of a frame -/

def State.mapFrame (s : State) (i : Nat) (g : Frame → Frame) : State :=
  match s.frame i with
  | some f => s.setFrame i (g f)
  | none => s

/-- A frame of which nothing waits leaves the table. -/
def State.reap (s : State) (i : Nat) : State :=
  match s.frame i with
  | none => s
  | some f =>
    let queued := s.wire.halves.any fun e => e.2.queue.any fun x => x.1 == i
    let open_ := s.wire.halves.any fun e =>
      match e.2.out with
      | some o => o.frame == some i && !o.decided
      | none => false
    if f.stage = 2 ∧ f.verdict.isSome ∧ f.slice = none ∧ f.reply = none ∧ f.ring = none ∧ !queued ∧ !open_ then
      { s with wire := { s.wire with frames := s.wire.frames.erase i } }
    else s

/-- The descriptor of a delivery (Table 13.5). -/
def State.descOf (s : State) (f : Frame) (cls : Nat) (tap : Bool) : Desc :=
  let err := f.late != [] || f.poisoned
  let late := match f.parsed.krf with
    | some k => cls == 1 && k.ver == 2 && decide (extendStamp k.deadline s.glc < (s.glc : Int))
    | none => false
  let reason := match f.late, f.reason with
    | c :: _, _ => c
    | [], some c => c
    | [], none => if f.poisoned then 0x10 else 0xFF
  { frameLen := min f.bytes.length f.maxFrame, port := f.port,
    flags := 2 * b2n err + 8 * b2n tap + 16 * b2n late, stamp := f.stamp, reason := reason,
    status := if tap then (f.scored.map Prod.fst).getD 0 else 0, metaWord := aMeta f.action, hash := f.hash,
    model := keyField f.parsed.key kModel 16,
    accs := if tap then (f.scored.map Prod.snd).getD [] else [] }

/-- A frame enters a ring entry with its descriptor; a poisoned one is marked there (Table 10.2, commit point 5). -/
def State.deliverTo (s : State) (f : Frame) (x : RingSlot) (tap : Bool) : State :=
  let s := if f.poisoned then s.poisonConsumed (s.siteHub 11) 0x4000 x.addr 5 else s
  s.deliverFrame x (f.bytes.take f.maxFrame) (s.descOf f x.cls tap)

/-- The frame carries PTP over the ordinary clock's TRANSPORT (Table 9.3). -/
def State.ptpTransport (s : State) (p : Parsed) : Bool :=
  match s.fld Reg.timeCtrlTransport with
  | 0 => !p.udp
  | t => p.udp && keyField p.key kL3 2 == t

/-- A verified PTP message from OC_PORT that the PTP ring received waits for the steward (R319). -/
def State.toPtpRing (s : State) (f : Frame) (x : RingSlot) : State :=
  match f.parsed.ptp with
  | some o =>
    if x.cls = 0 ∧ x.ring = s.fld Reg.timeCtrlPtpRing ∧ f.port = s.fld Reg.timeCtrlOcPort ∧ f.late = [] ∧ !f.poisoned ∧
        s.ptpTransport f.parsed then
      s.setTime { s.time with ptpIn := s.time.ptpIn ++ [⟨(f.bytes.take (f.bytes.length - 4)).drop o, f.rxPs⟩] }
    else s
  | none => s

/-- The reserved entry of a frame completes, once its verdict is known. -/
def State.deliverSlot (s : State) (i : Nat) : State :=
  match s.frame i with
  | none => s
  | some f =>
    match f.ring, f.verdict with
    | some x, some _ =>
      ((s.setFrame i { f with ring := none }).deliverTo f x false).toPtpRing f x
    | _, _ => s

/-- The tap copy of a verified frame (R242, R247). -/
def State.tapCopy (s : State) (f : Frame) : State :=
  if !aTap f.action then s
  else if bit f.parsed.key kNoTap then s.clsCount 12 1
  else
    match s.reserve 0 f.tapRing with
    | (some x, s) => s.deliverTo f x true
    | (none, s) => s.clsCount 11 1

/-- What waits for both the verdict and the deciding pass: delivery, flow update, tap copy. A scored frame's tap waits
for its evaluation. -/
def State.frameEnd (s : State) (i : Nat) : State :=
  match s.frame i with
  | none => s
  | some f =>
    if f.stage ≠ 2 ∨ f.verdict.isNone then s
    else
      let s := s.deliverSlot i
      if f.verdict = some true ∧ f.action ≠ 0 then
        let s := s.flowUpdate f
        if f.slice.isSome then s else s.tapCopy f
      else s

/-- The frame gives up its model copy and NTS regions. -/
def State.release (s : State) (i : Nat) : State := s.mapFrame i fun f => { f with holds := false }

/-! ### What a decided frame starts -/

/-- A frame with a target that is no slice goes to it; peer-delay messages of a P2P half are not forwarded
(Table 9.4). -/
def State.sendTo (s : State) (i : Nat) (f : Frame) (t : Nat) (r : Option RingSlot) : State :=
  let consumed := match f.parsed.ptp with
    | some o => s.tcMode f.port == 2 && [2, 3, 10].contains (ptpType f.bytes o)
    | none => false
  match tKind t with
  | 2 => if consumed then s else s.forward i f (tArg t % 16) (frameTc f)
  | 6 => if consumed then s else s.forward i f (s.peerOf f.port) (frameTc f)
  | _ =>
    match r with
    | some x => s.setFrame i { f with ring := some x }
    | none => s

/-- R246: the action set for an early reason. -/
def State.malformed (s : State) (i : Nat) (f : Frame) (code : Nat) : State :=
  let s := s.wireCount f.port code 1
  let f := { f with reason := some code }
  let s := s.setFrame i f
  let act := bits (s.reg (Reg.wireMalformAction (f.port / 2))).toNat (2 * code + 1) (2 * code)
  let peer := s.peerOf f.port
  let act := if act = 2 ∧ (linkLocal (keyField f.parsed.key kDmac 48) ∨ !s.portUp peer) then 1 else act
  match act with
  | 1 =>
    match s.reserve 0 (s.fld (Reg.wirePortCtrlExcRing (f.port / 2))) with
    | (some x, s) => s.setFrame i { f with ring := some x }
    | (none, s) => s.wireCount f.port 28 1
  | 2 => s.forward i f peer (outerTc f.parsed)
  | _ => s

/-- A request that gets no reply goes to its slice's FAIL_TARGET (R304). -/
def State.failTarget (s : State) (i j : Nat) : State :=
  match s.frame i with
  | none => s
  | some f =>
    let f := { f with slice := none, reply := none, holds := false }
    let s := s.setFrame i f
    match s.resolve f (s.fld (Reg.brmSliceCtrlFailTarget j)) with
    | (some t, r, s) => s.sendTo i f t r
    | (none, _, s) => s

/-- A frame whose target is slice `j` (R244, R276). One with KRF_REACH has no horizon byte to end before: it raises no
KRF_TAIL for it (DESIGN CHOICE, log entry 221). -/
def State.toSlice (s : State) (i : Nat) (f : Frame) (j : Nat) : State :=
  if !f.parsed.isKrf then (s.sliceCount j 13 1).release i
  else
    let m := s.modelFor f
    let model := (f.parsed.krf.map Krf.model).getD 0
    let h := horizon m.encoder f.parsed (encSelect m.encoder model)
    -- the reason's action replaces the rule's, and with it TAP, FLOW, META and TC (R246)
    if !h.2 then (s.malformed i { f with action := 0 } mReach).release i
    else
      let tail := decide (f.bytes.length - 4 ≤ h.1) && !f.late.contains mTail
      let ended := f.verdict.isSome
      let f := if tail then { f with late := f.late ++ [mTail], verdict := f.verdict.map fun _ => false } else f
      let s := (if tail && ended then s.wireCount f.port mTail 1 else s).setFrame i f
      let q := Tab.get [] j s.wire.sliceQueues
      if 16 ≤ q.length then (s.sliceCount j 14 1).failTarget i j
      else
        let s := { s with wire := { s.wire with sliceQueues := Tab.set [] j (q ++ [i]) s.wire.sliceQueues } }
        s.setFrame i { f with slice := some j, lost := s.sliceLost (sPair ((s.modelFor f).slice j)) j }

/-- The deciding pass: flow context, target, and what follows (R253, R259). A frame whose rule KRF_REACH then replaces keeps
the flow context that the rule has allocated (DESIGN CHOICE, log entry 222). -/
def State.decided (s : State) (i : Nat) (f : Frame) (key w0 w1 : Nat) : State :=
  let th := s.actionTarget f.bank f.port key w0
  let f := { f with stage := 2, action := w0, tapRing := w1 % 4096, hash := th.2 }
  let (fl, s) := if aFlow w0 && s.fldB Reg.clsFlowCtrlEnable && f.parsed.isIp then s.flowFind f else (none, s)
  let f := { f with flow := fl, flowSerial := (fl.map fun k => Tab.get 0 k s.wire.flowSerials).getD 0,
                    flowBytes := (fl.map s.flowCtx).getD [] }
  let s := s.setFrame i f
  let s := match s.resolve f th.1 with
    | (none, _, s) => s.release i
    | (some t, r, s) =>
      if tKind t = 3 then s.toSlice i f (tArg t % 16)
      else (s.sendTo i f t r).release i
  let s := s.frameEnd i
  s.reap i

/-- R254: the first pass stamps the frame with the active bank, the model copy and the NTS regions. -/
def State.classifierPass (s : State) (i : Nat) : State :=
  match s.frame i with
  | none => s
  | some f =>
    if f.stage ≠ 0 then s
    else
      let b := s.activeBank
      let key := ruleKey f.parsed f.port 0 0
      let (h, w0, w1) := s.lookupKey b key
      let s := s.countHit b h
      let regions := (List.range s.embD.slots.length).map fun k => (s.nts k).active
      let f := { f with bank := b, epoch := s.fld Reg.clsBankStateEpoch, copy := s.wire.swaps, regions := regions,
                        holds := true, passes := 1 }
      if aRecirc w0 then s.setFrame i { f with stage := 1, metaWord := aMeta w0 }
      else s.decided i f key w0 w1

def execClassifierPass (frame : Nat) (s : State) : Host.Outcome State Fault Refusal :=
  done (s.classifierPass frame)

/-- R253: the second pass; RECIRC there is taken as DROP. -/
def State.recirculationPass (s : State) (i : Nat) : State :=
  match s.frame i with
  | none => s
  | some f =>
    if f.stage ≠ 1 then s
    else
      let key := ruleKey f.parsed f.port 1 f.metaWord
      let (h, w0, w1) := s.lookupKey f.bank key
      let s := (s.countHit f.bank h).clsCount 1 1
      let f := { f with passes := 2 }
      -- an action of zeros is a DROP with no tap and no flow
      if aRecirc w0 then (s.clsCount 2 1).decided i f key 0 0 else s.decided i f key w0 w1

def execRecirculationPass (frame : Nat) (s : State) : Host.Outcome State Fault Refusal :=
  done (s.recirculationPass frame)

end Sys2Proof.Machine
end

