-- ==== Sys2Proof/Machine/Bramble.lean ====
section
/-! DEFINITION. Bramble: the evaluation of a frame and its reply (R276, R287 to R299, R303). -/

namespace Sys2Proof.Machine

/-! ### Evaluation -/

/-- A strike on a slice; the third retires it (Table 11.4). -/
def State.strikeSlice (s : State) (j : Nat) : State :=
  let s := s.strike (sliceKey j)
  if 3 ≤ s.strikeCount (sliceKey j) then s.retire (sliceKey j) 1 else s

/-- R291: counter, record and charge of what stops an evaluation. `v` is the follower of a pair, else the slice. -/
def State.sliceFault (s : State) (j v : Nat) (x : SliceFault) : State :=
  match x with
  | .twinMismatch o k =>
    let s := (s.sliceCount j 5 1).emit 1 0x0021 (s.siteSlice j) 0x4002 (o.toNat + k.toNat * 256)
    (s.strikeSlice j).strikeSlice v
  | .leafUncorrectable f synd =>
    let u := if f then v else j
    ((s.sliceCount j 6 1).emit 1 0x0022 (s.siteSlice u) 0x4002 synd.toNat).retire (sliceKey u) 6
  | .storeParity f synd =>
    let u := if f then v else j
    ((s.sliceCount j 6 1).emit 1 0x0023 (s.siteSlice u) 0x4002 synd.toNat).retire (sliceKey u) 6

/-- A twin mismatch needs two slices that evaluate, and a slice whose comparison differs somewhere. -/
def faultMeets (twins : Bool) : SliceFault → Bool
  | .twinMismatch o k => twins && !(o == 15#4 && k == 0xFFF#12)
  | _ => true

/-- Corrected leaf errors of slice `u`: counted in leader `j`, with their CORRECTED records (R218, R291). The spec gives no
address of a leaf error. -/
def State.leavesCorrected (s : State) (j u n : Nat) : State :=
  (List.range n).foldl (fun (s : State) _ =>
    let (a, s) := s.free
    (s.emit 0 0x0010 (s.siteSlice u) 0x4002 (memSyndrome a 0 .leafStore 0)).countCorrected (sliceKey u))
    (s.sliceCount j 7 n)

/-- WCLK cycles since byte 0 was visible. -/
def State.cyclesOf (s : State) (f : Frame) : Nat := (s.upTime - f.arrived) * 8 / 5

/-- ⌊n / r⌋ (R235). -/
def floorRate (full : Bool) (n : Nat) : Nat := if full then 2 * n / 125 else 4 * n / 125

/-- ⌈r × n⌉. -/
def ceilRate (full : Bool) (n : Nat) : Nat := if full then ceilDiv (125 * n) 2 else ceilDiv (125 * n) 4

/-- The template a slice names (Table 8.5). -/
def HubModel.template (m : HubModel) (j : Nat) : List Byte := sliceBytes m.templates (16 + 32 * le (m.slice j) 4 1) 32

def tmplMode (t : List Byte) : Nat := le t 0 1
def tmplTc (t : List Byte) : Nat := le t 1 1
def tmplStation (t : List Byte) : Nat := le t 2 1
def tmplVlan (t : List Byte) : Bool := bit (le t 3 1) 0
def tmplCopyTos (t : List Byte) : Bool := bit (le t 3 1) 1
def tmplLimit (t : List Byte) : Nat := le t 4 2
def tmplHop (t : List Byte) : Nat := le t 6 1
def tmplDscp (t : List Byte) : Nat := le t 7 1
def tmplMask (t : List Byte) : Nat := le t 8 2

def State.setQueue (s : State) (j : Nat) (q : List Nat) : State :=
  { s with wire := { s.wire with sliceQueues := Tab.set [] j q s.wire.sliceQueues } }

def State.replyQueue (s : State) (n : Nat) : List Nat := Tab.get [] n s.wire.replyQueues

def State.setReplyQueue (s : State) (n : Nat) (q : List Nat) : State :=
  { s with wire := { s.wire with replyQueues := Tab.set [] n q s.wire.replyQueues } }

/-- A scored frame's reply enters the port's queue, or its request goes to FAIL_TARGET (R294). -/
def State.queueReply (s : State) (i j : Nat) (f : Frame) (r : Reply) (accs : List Int) : State :=
  let q := s.replyQueue (f.port / 2)
  let f1 := { f with slice := none, scored := some (r.status, accs) }
  if 32 ≤ q.length then
    let s := ((s.setFrame i f1).sliceCount j 15 1).failTarget i j
    let s := if f.verdict = some true then s.tapCopy f1 else s
    (s.deliverSlot i).reap i
  else
    let s := (s.setFrame i { f1 with reply := some r }).setReplyQueue (f.port / 2) (q ++ [i])
    if f.verdict = some true then s.tapCopy f1 else s

/-- The request goes to FAIL_TARGET, and its tap copy no longer waits for a score. -/
def State.failEvaluation (s : State) (i j : Nat) (f : Frame) : State :=
  let s := s.failTarget i j
  let s := if f.verdict = some true then s.tapCopy { f with slice := none } else s
  (s.deliverSlot i).reap i

/-- The request can still get its reply from slice `j`: its pair evaluates, and none of its slices was retired since the
frame entered the queue (R303). -/
def State.stillServed (s : State) (f : Frame) (j : Nat) : Bool :=
  let pair := sPair ((s.modelFor f).slice j)
  s.sliceUsable pair j && (s.sliceLost pair j).all fun k => f.lost.contains k

/-- STATUS bit UNCHECKED of a twin pair that evaluates on one slice (R303). -/
def State.unchecked (s : State) (pair j : Nat) : Nat :=
  if pair = 3 ∧ s.sliceRetired j ≠ s.sliceRetired (j + 1) then 16 else 0

/-- The evaluation of the frame at the front of slice `j`'s queue. `ecc` are the errors its NTS reads meet. -/
def State.evaluate (s : State) (i j : Nat) (f : Frame) (corrected follower : Nat) (fault : Option SliceFault)
    (ecc : List MemError) : State :=
  let m := s.modelFor f
  let b := m.slice j
  let pair := sPair b
  let krfModel := (f.parsed.krf.map Krf.model).getD 0
  let set := encSelect m.encoder krfModel
  let h := horizon m.encoder f.parsed set
  let full := s.fullRate f.port
  let cycle := max (40 + floorRate full h.1 + 10 * (f.passes - 1)) (s.cyclesOf f)
  let t := m.template j
  let epoch := Tab.get 0 j m.epochs
  let alone := s.unchecked pair j
  if !s.stillServed f j then s.failEvaluation i j f
  -- a poisoned request begins no reply (Table 10.2, commit point 3)
  else if f.poisoned then (s.poisonConsumed (s.siteSlice j) 0x4001 0 3).failEvaluation i j f
  else if f.bytes.length - 4 ≤ h.1 then
    -- the horizon byte never comes (R244): nothing is evaluated
    (s.setFrame i { f with slice := none, holds := false }).reap i
  else
    match set with
    | none => (s.sliceCount j 11 1).queueReply i j f ⟨j, t, 1 + alone, [], epoch, cycle, false⟩ []
    | some k =>
      if k ≠ le b 2 1 then (s.sliceCount j 12 1).queueReply i j f ⟨j, t, 2 + alone, [], epoch, cycle, false⟩ []
      else
        let fs := encFields m.encoder k
        let s := s.meetReads (.of (s.dotReads f fs)) 0x4001 ecc
        let rs := fs.map fun r => s.fieldCode f m.encoder fs r
        let codes := rs.map Prod.fst
        let miss := (rs.map fun r => r.2.1).sum
        let s := (s.sliceCount j 0 1).sliceCount j 16 miss
        let v := if pair = 1 ∨ pair = 3 then j + 1 else j
        let twins := pair == 3 && !s.sliceRetired j && !s.sliceRetired (j + 1)
        let s := (s.leavesCorrected j j corrected).leavesCorrected j v follower
        match (rs.find? fun r => r.2.2.isSome), fault.filter (faultMeets twins) with
        | some r, _ =>
          (s.poisonConsumed (s.siteSlice j) 0x4001 (r.2.2.getD 0) 3).failEvaluation i j f
        | none, some x => (s.sliceFault j v x).failEvaluation i j f
        | none, none =>
          let g := if pair = 1 then some (m.slice (j + 1)) else none
          let accs := (List.range (sOut b)).map fun o => sliceAcc b g codes o
          let outs := (enum0 accs).filterMap fun e =>
            if bit (tmplMask t) e.1 then some (sliceOut b e.1 e.2) else none
          s.queueReply i j f ⟨j, t, alone, outs, epoch, cycle, false⟩ accs

def State.sliceEvaluation (s : State) (j corrected follower : Nat) (fault : Option SliceFault) (ecc : List MemError) :
    State :=
  match Tab.get [] j s.wire.sliceQueues with
  | [] => s
  | i :: rest =>
    let s := s.setQueue j rest
    match s.frame i with
    | some f => s.evaluate i j f corrected follower fault ecc
    | none => s

def execSliceEvaluation (slice : Fin 16) (corrected followerCorrected : Nat) (events : SliceEvents) (s : State) :
    Host.Outcome State Fault Refusal :=
  done (s.sliceEvaluation slice.val corrected followerCorrected events.fault events.ecc)

/-! ### The reply frame (R293, Table 8.7) -/

def checksum (bs : List Byte) : Nat := 0xFFFF - inetSum bs

/-- Length without any zero byte after the outputs, FCS included. -/
def rawLength (f : Frame) (r : Reply) : Nat :=
  let l3 := match f.parsed.l3 with
    | some _ => (if keyField f.parsed.key kL3 2 = 2 then 40 else 20) + 8
    | none => 0
  let krf := (f.parsed.krf.map Krf.size).getD 16
  14 + (if tmplVlan r.template then f.parsed.vlan.length else 0) + l3 + krf + 4 * r.outs.length + 4

def replyLength (f : Frame) (r : Reply) : Nat := max 64 (rawLength f r)

def krfReply (k : Krf) (r : Reply) (stamp padLen : Nat) : List Byte :=
  let head := toBe 1 (k.ver * 16 + 2) ++ toBe 1 r.status ++ toBe 2 k.model ++ toBe 8 k.requestId ++
    toBe 1 r.outs.length ++ [0]
  if k.ver = 2 then
    head ++ toBe 2 32 ++ toBe 4 k.tenant ++ toBe 4 stamp ++ toBe 4 r.epoch ++ toBe 2 padLen ++ [0, 0]
  else head ++ toBe 2 r.epoch

/-- The reply's bytes before its FCS; `len` is its whole length. -/
def State.replyBytes (s : State) (f : Frame) (r : Reply) (len : Nat) : List Byte :=
  let p := f.parsed
  let raw := rawLength f r
  let padded := decide (replyLength f r < len)
  let padLen := if padded then len - raw else 0
  match p.krf with
  | none => []
  | some k =>
    let msg := krfReply k r f.stamp padLen ++ r.outs.flatMap (toBe 4) ++ List.replicate padLen 0
    let mac := s.fld (Reg.wireStationMac (f.port / 2) (tmplStation r.template))
    let eth := toBe 6 (keyField p.key kSmac 48) ++ toBe 6 mac ++
      (if tmplVlan r.template then p.vlan else []) ++ toBe 2 (keyField p.key kEtherType 16)
    let udp := fun (pseudo : List Byte) =>
      let u := toBe 2 (keyField p.key kDport 16) ++ toBe 2 (keyField p.key kSport 16) ++ toBe 2 (8 + msg.length)
      let c := checksum (pseudo ++ u ++ [0, 0] ++ msg)
      u ++ toBe 2 (if c = 0 then 0xFFFF else c) ++ msg
    let tos := if tmplCopyTos r.template then keyField p.key kDscp 6 * 4 + keyField p.key kEcn 2
      else tmplDscp r.template % 64 * 4
    let sip := keyField p.key kSip 128
    let dip := keyField p.key kDip 128
    let n := 8 + msg.length
    let body := match p.l3 with
      | none => msg
      | some _ =>
        if keyField p.key kL3 2 = 2 then
          toBe 4 (6 * 2 ^ 28 + tos * 2 ^ 20) ++ toBe 2 n ++ [17] ++ toBe 1 (tmplHop r.template) ++ toBe 16 dip ++
            toBe 16 sip ++ udp (toBe 16 dip ++ toBe 16 sip ++ toBe 4 n ++ [0, 0, 0, 17])
        else
          let h := fun c => [0x45] ++ toBe 1 tos ++ toBe 2 (20 + n) ++ [0, 0, 0x40, 0] ++ toBe 1 (tmplHop r.template) ++
            [17] ++ toBe 2 c ++ toBe 4 dip ++ toBe 4 sip
          h (checksum (h 0)) ++ udp (toBe 4 dip ++ toBe 4 sip ++ [0, 17] ++ toBe 2 n)
    let out := eth ++ body
    out ++ List.replicate (60 - out.length) 0

/-! ### Start (R294, R298, R299) -/

/-- Declared length of a request (R298). -/
def declaredLength (f : Frame) : Nat :=
  let p := f.parsed
  let v := p.vlan.length
  match p.l3, p.ipEnd, p.krf with
  | some a, some e, _ => max 64 (14 + v + (e - a) + 4)
  | _, _, some k => max 64 (14 + v + k.size + k.featLen + k.tailLen + 4)
  | _, _, none => 64

/-- The builder's length for a reply that starts in cycle `c`. -/
def planLength (full : Bool) (ld l0 c : Nat) : Nat :=
  let v := floorRate full (ld - 1) + 1 + 4
  if v + 1 ≤ c + floorRate full (l0 - 4) then l0 else 4 + ceilRate full (v + 1 - c)

/-- First cycle in which a reply may start: its pipeline cycle, or, held, the cycle from which its FCS slot follows the
latest verdict of the declared length (R299). -/
def State.replyCycle (s : State) (f : Frame) (r : Reply) : Nat :=
  let full := s.fullRate f.port
  let l0 := replyLength f r
  let ld := declaredLength f
  if tmplMode r.template = 1 ∧ tmplLimit r.template < planLength full ld l0 r.cycle then
    max r.cycle (floorRate full (ld - 1) + 6 - floorRate full (l0 - 4))
  else r.cycle

/-- At most 3 replies start in 16 WCLK of a port (R294). -/
def State.replyRoom (s : State) (n : Nat) : Bool :=
  decide (((Tab.get [] n s.wire.replyStarts).filter fun t => decide (s.upTime < t + 10)).length < 3)

def State.canReply (s : State) (f : Frame) (r : Reply) : Bool :=
  s.portUp f.port && (s.half f.port).idle && !s.paused f.port (tmplTc r.template) && s.replyRoom (f.port / 2) &&
  (tmplMode r.template != 0 || f.verdict.isSome) && decide (s.replyCycle f r ≤ s.cyclesOf f)

/-- The reply of frame `i` starts. -/
def State.startReply (s : State) (i : Nat) (f : Frame) (r : Reply) : State :=
  let n := f.port / 2
  let full := s.fullRate f.port
  let l0 := replyLength f r
  let ld := declaredLength f
  let pad := tmplMode r.template == 1
  let held := pad && decide (tmplLimit r.template < planLength full ld l0 r.cycle)
  let len := if pad && !held then planLength full ld l0 (max r.cycle (s.cyclesOf f)) else l0
  let bytes := s.replyBytes f r len
  let s := if held then s.sliceCount r.slice 10 1 else s
  let s := if l0 < len then (s.sliceCount r.slice 8 1).sliceCount r.slice 9 (len - rawLength f r) else s
  let s := s.setReplyQueue n ((s.replyQueue n).filter fun k => k != i)
  let starts := ((Tab.get [] n s.wire.replyStarts) ++ [s.upTime]).drop ((Tab.get [] n s.wire.replyStarts).length - 2)
  let s := { s with wire := { s.wire with replyStarts := Tab.set [] n starts s.wire.replyStarts } }
  let s := s.setFrame i { f with reply := some { r with sending := true }, holds := false }
  s.startTx f.port ⟨some i, true, bytes, false, false, false⟩

/-- Replies that will not be sent leave the queue: a bad verdict suppresses, a lost slice sends the request to
FAIL_TARGET (R299, R303). -/
def State.dropReplies (s : State) (n : Nat) : State :=
  (s.replyQueue n).foldl (fun (s : State) i =>
    match s.frame i with
    | none => s
    | some f =>
      match f.reply with
      | none => s
      | some r =>
        let out := s.setReplyQueue n ((s.replyQueue n).filter fun k => k != i)
        if f.verdict = some false then
          ((out.sliceCount r.slice 3 1).setFrame i { f with reply := none, holds := false }).reap i
        else if !s.stillServed f r.slice then
          ((out.failTarget i r.slice).deliverSlot i).reap i
        else s) s

/-- The first reply of a port's queue that may start; on half `c` alone where one is named. -/
def State.nextReply (s : State) (n : Nat) (c : Option Nat) : Option (Nat × Frame × Reply) :=
  (s.replyQueue n).findSome? fun i =>
    match s.frame i with
    | none => none
    | some f =>
      match f.reply with
      | none => none
      | some r =>
        if (match c with | some h => f.port == h | none => true) && s.canReply f r then some (i, f, r) else none

def State.replyStart (s : State) (n : Nat) : State :=
  let s := s.dropReplies n
  match s.nextReply n none with
  | some (i, f, r) => s.startReply i f r
  | none => s

def execReplyStart (port : Fin 8) (s : State) : Host.Outcome State Fault Refusal := done (s.replyStart port.val)

/-- R297: the FCS slot of a reply. -/
def State.replyFcsSlot (s : State) (i : Nat) : State :=
  match s.frame i with
  | none => s
  | some f =>
    match f.reply, (s.half f.port).out with
    | some r, some o =>
      if r.sending && o.reply && o.frame == some i && !o.decided then
        let good := f.verdict == some true
        let s := s.setHalf f.port { s.half f.port with out := some (o.settle good) }
        let s := s.sliceCount r.slice (if good then 1 else if f.verdict = some false then 2 else 4) 1
        (s.setFrame i { f with reply := none }).reap i
      else s
    | _, _ => s

def execReplyFcsSlot (frame : Nat) (s : State) : Host.Outcome State Fault Refusal := done (s.replyFcsSlot frame)

end Sys2Proof.Machine
end

