-- ==== Sys2Proof/Machine/Links.lean ====
section
/-! DEFINITION. In-package links and clock crossings (R23 to R28, R43, R46 to R49, R375, R376). -/

namespace Sys2Proof.Machine

/-- A link is taken down (R26, R28): counters, LINK_DOWN record, relay or loss of the die. -/
def State.linkDown (s : State) (n : Nat) : State :=
  let l := s.link n
  if !l.up then s
  else
    let s := s.setLink n { l with up := false, retriesInRow := 17 }
    let old := s
    let s := (dlinkEnds n).foldl (fun (s : State) e => s.bump (Reg.chkLinkCnt e.1 e.2 2) 1) s
    let relayed := b2n (s.relayFor n).isSome
    let d := (linkEnds n).1
    let j := dlinkIndex d (linkEnds n).2
    let s := s.emit 1 0x0041 ⟨dieCode d, dieCodeP d, 4 + d, s.dieTemp d⟩ (0x5000 + if n < 6 then 0 else 1)
      (j + relayed * 256)
    let s := if s.stepRunning && (s.relayFor n).isSome then s.stopStep ⟨unitKey 7 n, 0x0041, none⟩ 0 else s
    (s.rerelay 4).afterLoss old 500

/-- R26: a flit fails its CRC at one end and is replayed; each replay adds 40 ACLK. A flit that has failed and then fails
16 retries in a row, its seventeenth failure, is not replayed and takes the link down. `far` names the higher-numbered
end of a die-to-die link, the hub end otherwise. -/
def State.flitRetry (s : State) (n : Nat) (far again : Bool) : State :=
  let l := s.link n
  if !l.up then s
  else
    let ends := match linkEnds n with
      | (a, some b) => if far then [(b, dlinkIndex b (some a))] else [(a, dlinkIndex a (some b))]
      | (a, none) => if far then [] else [(a, 3)]
    let k := if again then l.retriesInRow + 1 else 1
    let replays := b2n (decide (k < 17))
    let s := ends.foldl (fun (s : State) e =>
      (s.bump (Reg.chkLinkCnt e.1 e.2 0) 1).bump (Reg.chkLinkCnt e.1 e.2 1) replays) s
    let s := s.setLink n { l with retriesInRow := k, delayAclk := l.delayAclk + 40 * replays }
    if 17 ≤ k then s.linkDown n else s

def execFlitRetry (link : Fin 10) (far again : Bool) (s : State) : Host.Outcome State Fault Refusal :=
  done (s.flitRetry link.val far again)

/-- Number of a lane on its link: 32 data lanes and the spare lane of each group (Table 1.2). -/
def laneNo (x : LaneId) : Nat := 33 * x.group.val + x.lane.val

def laneGroup (x : Nat) : Nat := x / 33

/-- The lane carries traffic, or stands by as its group's spare: its group exists and is not removed, and its spare has
not replaced it. -/
def LinkState.holdsLane (l : LinkState) (n x : Nat) : Bool :=
  decide (laneGroup x < linkGroups n) && !l.removed.contains (laneGroup x) && !l.spared.contains x

/-- One failed lane of a link in training: its group's spare takes its place, which the unit table records (Table 15.3, phase
6; the lane, DESIGN CHOICE, log entry 230), or the group is removed (R27). -/
def State.repairLane (s : State) (n x : Nat) : State :=
  let l := s.link n
  let g := laneGroup x
  if !l.holdsLane n x then s
  else if l.spared.any fun y => laneGroup y == g then
    let l := { l with removed := l.removed ++ [g], spared := l.spared.filter fun y => laneGroup y != g }
    (s.setLink n l).retire (groupKey n g) 5
  else
    let s := s.setLink n { l with spared := l.spared ++ [x] }
    let s := (s.setUnit (groupKey n g) { s.unit (groupKey n g) with spareLane := some x }).markDirty
    let d := (linkEnds n).1
    s.emit 0 0x0040 ⟨dieCode d, dieCodeP d, 4 + d, s.dieTemp d⟩ (0x5000 + if n < 6 then 0 else 1)
      (dlinkIndex d (linkEnds n).2 + g * 4)

/-- R27, R28: a retrain stalls the link 20 µs; the marked lanes (R375) and the other lanes that fail this training are
repaired one by one, each once, so a second failed lane of a group removes it; a link with fewer than half of its groups
is taken down. `failed` names the lanes that fail the training. -/
def State.linkRetrain (s : State) (n : Nat) (failed : List Nat) : State :=
  let l := s.link n
  if !l.up then s
  else
    let s := s.setLink n { l with stallUs := l.stallUs + 20, marked := [] }
    let s := (l.marked ++ failed).eraseDups.foldl (fun (s : State) x => s.repairLane n x) s
    if 2 * (s.link n).groups n < linkGroups n then s.linkDown n else s

def execLinkRetrain (link : Fin 10) (failed : List LaneId) (s : State) : Host.Outcome State Fault Refusal :=
  done (s.linkRetrain link.val (failed.map laneNo))

/-- R376: the steward retrains every link with a lane marked for sparing or removal; it does so at a step seam, or at
once while no step runs. -/
def State.retrainMarked (s : State) : State :=
  (List.range 10).foldl (fun (s : State) n => if (s.link n).marked.isEmpty then s else s.linkRetrain n []) s

/-- R375: a window of more than 100 symbol errors on a lane in use counts, charged to its group; three such windows of
one lane in one power-on hour mark the lane for the next retrain (R376; that they are of one lane: DEDUCED, log entry
203). -/
def State.laneErrorWindow (s : State) (n x errors : Nat) : State :=
  let l := s.link n
  if !l.holdsLane n x ∨ !l.up ∨ errors ≤ 100 then s
  else
    let now := s.powerSeconds
    let ws := (l.windows.filter fun w => decide (now < w.2 + 3600)) ++ [(x, now)]
    let hit := decide (3 ≤ (ws.filter fun w => w.1 == x).length)
    let s := s.countCorrected (groupKey n (laneGroup x))
    if hit then
      let marked := if l.marked.contains x then l.marked else l.marked ++ [x]
      let s := s.setLink n { l with windows := ws.filter fun w => w.1 != x, marked := marked }
      if s.stepRunning then s else s.retrainMarked
    else s.setLink n { l with windows := ws }

def execLaneErrorWindow (link : Fin 10) (lane : LaneId) (errors : Nat) (s : State) :
    Host.Outcome State Fault Refusal :=
  done (s.laneErrorWindow link.val (laneNo lane) errors)

def execCrossingSlip (xing : Fin 9) (aclk : Nat) (s : State) : Host.Outcome State Fault Refusal :=
  done (s.crossingSlip xing.val aclk)

end Sys2Proof.Machine
end

