-- ==== Sys2Proof/Machine/Wire.lean ====
section
/-! DEFINITION. Frames in and out of a half: parse, verdict, the next frame a half sends, training (R233, R234, R245 to
R247, R263, R269, R296). -/

namespace Sys2Proof.Machine

/-- A frame arrives on a half that carries traffic. `phy` is an error control block or an uncorrectable codeword inside it
(Table 7.6); `fixed` and `bad` are the FEC codewords corrected and not corrected since the end of the frame before it,
inside this frame or ahead of it (R270); `parity` is a byte lane whose parity fails in the wire datapath, which poisons the frame
(R339). -/
def State.frameParse (s : State) (c : Nat) (bytes : List Byte) (phy : Bool) (fixed bad : Nat)
    (parity : Option (BitVec 6)) : State :=
  if !s.portUp c then s
  else
    let s := (s.wireCount c 26 fixed).wireCount c 27 bad
    let s := (s.wireCount c 16 1).wireCount c 17 bytes.length
    let s := match parity with
      | some l => s.emit 1 0x0003 (s.siteHub 11) 0x4000 (l.toNat * 2 ^ 48 + 6 * 2 ^ 54)
      | none => s
    let p := parseFrame (s.parseCfg c) bytes
    let i := s.wire.nextFrame
    let f : Frame :=
      { port := c, bytes := bytes, phyError := phy, poisoned := parity.isSome, stamp := psStamp (s.rxPs c), arrived := s.upTime,
        rxPs := s.rxPs c, maxFrame := s.maxFrame c, parsed := p, stage := if p.early.isSome || p.mac.isSome then 2 else 0, bank := 0, epoch := 0, copy := 0,
        regions := [], holds := false, metaWord := 0, action := 0, tapRing := 0, hash := 0, passes := 0, flow := none,
        flowSerial := 0, flowBytes := [], ring := none, reason := none, slice := none, lost := [], reply := none, scored := none, verdict := none,
        late := [] }
    let s := State.setFrame { s with wire := { s.wire with nextFrame := i + 1 } } i f
    match p.early, p.mac with
    | some code, _ => s.malformed i f code
    | none, some op => s.wireCount c (if op = 0x0101 then 22 else 21) 1
    | none, none => s

def execFrameParse (port : Fin 16) (bytes : List Byte) (reception : Reception) (s : State) :
    Host.Outcome State Fault Refusal :=
  done (s.frameParse port.val bytes reception.phyError reception.fecCorrected reception.fecUncorrected reception.parity)

/-- Late reasons of a frame at its end, in the order of Table 7.6. -/
def lateReasons (f : Frame) : List Nat :=
  let n := f.bytes.length
  let d := f.bytes.take (n - 4)
  let ipShort := match f.parsed.ipEnd with
    | some e => decide (n - 4 < e)
    | none => false
  -- a version other than 1 and 2 declares no message
  let krfShort := match f.parsed.krf with
    | some k => (k.ver == 1 || k.ver == 2) && decide (n - 4 < k.msgEnd)
    | none => false
  (if n < 64 then [mRunt] else []) ++ (if f.maxFrame < n then [mOversize] else []) ++
  (if n < 4 ∨ f.bytes.drop (n - 4) ≠ toLe 4 (crc32 d) then [mFcs] else []) ++
  (if f.phyError then [mPhy] else []) ++ (if ipShort then [mIpLength] else []) ++
  (if krfShort || f.late.contains mTail then [mTail] else [])

/-- A copy of the frame on its way out: its FCS is sent true, or stomped (R247, R262). -/
def State.settleForward (s : State) (i : Nat) (good : Bool) : State :=
  (List.range 16).foldl (fun (s : State) c =>
    let h := s.half c
    match h.out with
    | some o =>
      if o.frame = some i ∧ !o.reply ∧ !o.decided then
        s.setHalf c { h with out := some (o.settle good) }
      else s
    | none => s) s

def State.frameVerdict (s : State) (i : Nat) : State :=
  match s.frame i with
  | none => s
  | some f =>
    if f.verdict.isSome then s
    else
      let late := lateReasons f
      let good := late.isEmpty
      let s := late.foldl (fun (s : State) r => s.wireCount f.port r 1) s
      let f := { f with late := late, verdict := some good }
      let s := (s.setFrame i f).settleForward i (good && !f.poisoned)
      let s := if good then s else s.unqueue i
      let s := if good && f.parsed.mac == some 0x0101 then s.receivePfc f.port f.bytes f.parsed.ethEnd else s
      let s := if good then s.pdelayReceive f else s
      (s.frameEnd i).reap i

def execFrameVerdict (frame : Nat) (s : State) : Host.Outcome State Fault Refusal := done (s.frameVerdict frame)

/-- R263: replies, then forwarded frames, then frames of transmit rings, the steward's own first. -/
def State.egressFrameStart (s : State) (c : Nat) : State :=
  let s := s.dropReplies (c / 2)
  if !s.portUp c || !(s.half c).idle then s
  else
    match s.nextReply (c / 2) (some c) with
    | some (i, f, r) => s.startReply i f r
    | none =>
      match s.nextForward c with
      | some x => (s.startForward c x).reap x.1
      | none =>
        match s.nextPtp c with
        | some m => s.startPtp c m
        | none =>
          match s.nextTx c with
          | some j => s.startRingFrame c j
          | none => s

def execEgressFrameStart (port : Fin 16) (s : State) : Host.Outcome State Fault Refusal :=
  done (s.egressFrameStart port.val)

/-- The half of a port exists in its mode (R231). -/
def State.halfExists (s : State) (c : Nat) : Bool :=
  let m := s.fld (Reg.wirePortCtrlMode (c / 2))
  if c % 2 = 0 then m == 1 || m == 2 else m == 2

/-- A PHY latency as training fixes it: within one WCLK of 625 ps of its figure (R234). -/
def trained (nominal x : Nat) : Nat := max (nominal - 625) (min (nominal + 625) x)

/-- The lanes of the half among the port's eight (Table 7.1). -/
def State.setLanes (s : State) (c lanes : Nat) : State :=
  let f := Reg.wirePortStatusLanesLocked (c / 2)
  let locked := s.fld f
  s.setFld f (if s.fullRate c then lanes
    else if c % 2 = 0 then setBits locked 3 0 lanes
    else setBits locked 7 4 (lanes / 16))

/-- A half that goes down: frames of transmit rings for it are not sent (R451), and the ordinary clock has lost its
port (Table 9.2). -/
def State.halfDown (s : State) (c : Nat) : State :=
  let lost := fun (j : TxJob) => if j.half = c ∧ !j.sent then { j with status := 1 } else j
  let s := { s with hub := { s.hub with txJobs := s.hub.txJobs.map lost } }
  let s := { s with wire := { s.wire with ptpOut := s.wire.ptpOut.filter fun m => m.half != c } }
  if s.timeSource = srcPtp ∧ s.fld Reg.timeCtrlOcPort = c then s.failSource else s

/-- The half carries traffic, with the latencies its training fixed, or goes down. `lanes` are those locked then. -/
def State.portTrainingDone (s : State) (c : Nat) (up : Bool) (lanes rx tx : Nat) : State :=
  let n := c / 2
  let upFld := if c % 2 = 0 then Reg.wirePortStatusUpA n else Reg.wirePortStatusUpB n
  if up then
    if !s.halfExists c then s
    else
      let s := s.setHalf c { s.half c with rxLatency := trained 48000 rx, txLatency := trained 14000 tx }
      let s := (s.setFld upFld 1).setLanes c lanes
      s.setFld (Reg.wirePortStatusAnDone n) (s.fld (Reg.wirePortCtrlPmdAn n))
  else
    let s := (s.setFld upFld 0).setLanes c lanes
    let other := s.portUp (2 * n) || s.portUp (2 * n + 1)
    (if other then s else s.setFld (Reg.wirePortStatusAnDone n) 0).halfDown c

def execPortTrainingDone (port : Fin 16) (up : Bool) (lanes : BitVec 8) (rxLatency txLatency : Nat) (s : State) :
    Host.Outcome State Fault Refusal :=
  done (s.portTrainingDone port.val up lanes.toNat rxLatency txLatency)

end Sys2Proof.Machine
end

