-- ==== Sys2Proof/Machine/Serving.lean ====
section
/-! DEFINITION. NTS serving slots: exports, switches and reverts (R182 to R185, R188). -/

namespace Sys2Proof.Machine

def State.setNts (s : State) (slot : Nat) (n : NtsState) : State :=
  { s with emb := { s.emb with nts := Tab.set NtsState.init slot n s.emb.nts } }

def State.slotD (s : State) (slot : Nat) : Option NtsD := s.embD.slots[slot]?

/-- Frames that hold a region of a slot (R184). -/
def State.ntsHolders (s : State) (slot reg : Nat) : Nat :=
  (s.wire.frames.filter fun e => e.2.holds && e.2.regions[slot]? == some reg).length

/-- Source row of a serving row (R182). -/
def State.sourceRow (s : State) (d : NtsD) (n : Nat) : Nat :=
  match findTensor s.tensors d.rowList with
  | some t => s.readElem t 0 (2 * n) + 2 ^ 32 * s.readElem t 0 (2 * n + 1)
  | none => n

/-- Source rows of a slot that exist. -/
def State.exportSources (s : State) (n : NtsD) (t : TableD) : List Nat :=
  ((List.range n.rowsOut).map (s.sourceRow n)).filter fun x => decide (x < t.rows)

/-- Dies whose slices a job of die `d` reads: its own, and all for the scale of SQ8 rows. -/
def NtsD.readDies (n : NtsD) (d : Nat) : List Nat := if n.fmt = fmtSq8 then List.range 4 else [d]

/-- The columns of the slice of rank `r` and die `d` that the package of that rank sent for a slot: the committed bytes
for the event of the die's EXPORT, row by row of the source rows that exist (DESIGN CHOICE, log entry 13). -/
def State.columnBytes (s : State) (slot : Nat) (t : TableD) (r d : Nat) : List Byte :=
  let ev := match s.jobsOf d 4 slot with
    | p :: _ => p.2.2.signal
    | [] => 0xFFFF
  s.bytesFrom (s.memberOf t r) d ev fun _ => true

/-- The other packages' columns that an EXPORT of die `d` reads are committed. -/
def State.columnsHere (s : State) (slot : Nat) (n : NtsD) (t : TableD) (d : Nat) : Bool :=
  (s.groupPeers t).all fun p => (n.readDies d).all fun e =>
    decide ((s.exportSources n t).length * (t.columnsBelow p.1 e t.dimUsed).length * (fmtBits t.rowFmt / 8) ≤
      (s.columnBytes slot t p.1 e).length)

/-- A column of a source row as FP32: from the line state of the die that holds it, or as another package sent it. -/
def State.sourceCol (s : State) (slot : Nat) (n : NtsD) (t : TableD) (x c : Nat) : Nat :=
  let j := c / t.ws
  let w := fmtBits t.rowFmt / 8
  let raw := if j / 4 = s.rankIn t then leNat (s.read (s.rowPlace (j % 4) t.idx x t + c % t.ws * w) w)
    else
      let i := (s.exportSources n t).findIdx (· == x)
      let m := (t.columnsBelow (j / 4) (j % 4) t.dimUsed).length
      le (s.columnBytes slot t (j / 4) (j % 4)) ((i * m + c % t.ws) * w) w
  toF32 t.rowFmt raw one32

/-- The columns of a serving row; +0 for a row out of range. -/
def State.sourceCols (s : State) (slot : Nat) (n : NtsD) (t : TableD) (x : Nat) : List Nat :=
  (List.range t.dimUsed).map fun c => if t.rows ≤ x then 0 else s.sourceCol slot n t x c

/-- What die `d` writes of a serving row: offset in the row, bytes. Its slice's columns of every package of the group,
and the scale of an SQ8 row (R183). -/
def servingCells (n : NtsD) (t : TableD) (d : Nat) (cols : List Nat) : List (Nat × List Byte) :=
  let mine (l : List (Nat × List Byte)) : List (Nat × List Byte) :=
    ((enum0 l).filter fun p => p.1 / t.ws % 4 == d).map Prod.snd
  if n.fmt = fmtSq8 then
    let q := quantRow 127 cols
    (0, toLe 4 q.1) :: mine ((enum0 q.2).map fun p => (4 + p.1, toLe 1 (p.2 % 256).toNat))
  else
    let w := fmtBits n.fmt / 8
    mine ((enum0 cols).map fun p => (w * p.1, toLe w (fromF32 n.fmt (n.fmt == fmtE4m3) none p.2).1))

/-- What an EXPORT job of die `d` writes: offset in the region, bytes. The bytes that round a row up to 64 stay as they
are (log entry 164). -/
def State.exportCells (s : State) (slot : Nat) (n : NtsD) (t : TableD) (d : Nat) : List (Nat × List Byte) :=
  (List.range n.rowsOut).flatMap fun i =>
    (servingCells n t d (s.sourceCols slot n t (s.sourceRow n i))).map fun p => (i * n.rowBytes t + p.1, p.2)

/-- ROW_LIST as an EXPORT reads it. -/
def State.listRanges (s : State) (n : NtsD) : List (Nat × Nat) :=
  match findTensor s.tensors n.rowList with
  | some x => (List.range (2 * n.rowsOut)).map fun e => (x.addr 0 e, elemSize x.fmt)
  | none => []

/-- The reads of an EXPORT job with their errors, counted at the owners' directories (R204, R207). -/
def State.meetExport (s : State) (n : NtsD) (t : TableD) (d c : Nat) (es : List MemError) : State :=
  let rows := s.exportSources n t
  let dies := n.readDies d
  let s := dies.foldl (fun (s : State) e => s.dropBadLines e t.idx rows (jobOp 4) es) s
  let s := dies.foldl (fun (s : State) e => rows.foldl (fun (s : State) x => s.countRead e t.idx x) s) s
  let ranges := dies.flatMap fun e => rows.map fun x => (s.rowPlace e t.idx x t, t.valueBytes)
  s.meetReads ⟨s.listRanges n ++ ranges, [], some (clusterCode d c)⟩ (jobOp 4) es

/-- A source row that the job reads, or its list of rows, is poisoned. -/
def State.exportBad (s : State) (n : NtsD) (t : TableD) (d : Nat) : Bool :=
  ((s.listRanges n).any fun r => s.isPoisoned r.1 r.2) || (n.readDies d).any fun e => (s.exportSources n t).any fun x =>
    s.isPoisoned (s.rowPlace e t.idx x t) t.valueBytes

/-- This package's columns of die `d` for the other packages of the group (R172, R183). -/
def State.exportSends (s : State) (n : NtsD) (t : TableD) (d : Nat) : List Byte :=
  (s.exportSources n t).flatMap fun x =>
    s.read (s.rowPlace d t.idx x t) ((t.columnsBelow (s.rankIn t) d t.dimUsed).length * (fmtBits t.rowFmt / 8))

def NtsD.regionAddr (d : NtsD) (reg : Nat) : Nat := ntsBase + if reg = 0 then d.regionA else d.regionB

/-- The inactive region takes the export's bytes: it no longer holds the version it held. -/
def State.writeRegion (s : State) (slot : Nat) (d : NtsD) : State :=
  let n := s.nts slot
  let reg := 1 - n.active
  let m := { n with waits := false, kept := false, data := [],
                    fullA := n.fullA && reg != 0, fullB := n.fullB && reg != 1 }
  (n.data.foldl (fun (s : State) p => s.write (d.regionAddr reg + p.1) p.2) s).setNts slot m

/-- Active and inactive region exchanged: the region left keeps its version and can be returned to (R185). -/
def State.ntsExchange (s : State) (slot : Nat) : State :=
  let n := s.nts slot
  s.setNts slot { n with active := 1 - n.active, kept := true }

/-- R185: the export completes once the seam of its step is reached. -/
def State.exportComplete (s : State) (slot : Nat) : State :=
  let n := s.nts slot
  match s.slotD slot with
  | none => s
  | some d =>
    if n.export_.isSome && !n.waits && decide (n.step < s.stepIndex) then
      let v := (n.count + 1) % 2 ^ 32
      let m := { n with export_ := none, count := v }
      let m := if n.active = 0 then { m with versionB := v, fullB := true } else { m with versionA := v, fullA := true }
      let s := s.setNts slot m
      if bit d.flags 0 then s.ntsExchange slot else s
    else s

def execExportComplete (slot : Fin 64) (s : State) : Host.Outcome State Fault Refusal :=
  done (s.exportComplete slot.val)

/-- The bytes of an EXPORT job go to the inactive region, or wait while a frame holds it (R184). An export of an earlier
step that has not completed completes first. -/
def State.startExport (s : State) (slot : Nat) (sd : NtsD) (d c : Nat) (cells : List (Nat × List Byte)) : State :=
  let s := s.exportComplete slot
  let n := s.nts slot
  let held := s.ntsHolders slot (1 - n.active) != 0
  let s := s.setNts slot { n with export_ := some (d, c), step := s.stepIndex, data := n.data ++ cells, waits := held }
  if held then s else s.writeRegion slot sd

/-- Commit point 6 of Table 10.2: an export of poisoned data stops the step. -/
def State.exportPoison (s : State) (slot : Nat) (sd : NtsD) (d c : Nat) : State :=
  let a := sd.regionAddr (1 - (s.nts slot).active)
  let s := s.emit 1 0x0013 (s.siteUnit (clusterCode d c)) (jobOp 4) (a % 2 ^ 48 + 6 * 2 ^ 48)
  (s.bump (Reg.chkCnt 18) 1).stopStep ⟨0, 0x0013, none⟩ 0

/-- R183: an EXPORT job issues: its reads meet their errors, and the columns of its own die leave for the group. It writes
them, with the other packages', once those are committed (R172, R350). -/
def State.exportJob (s : State) (d c : Nat) (ecc : List MemError) (fault : Option PressFault) : State :=
  match s.turnJob d c 4 with
  | none => s
  | some (j, waits) =>
    match s.slotD j.table with
    | none => s
    | some sd =>
      match s.table sd.table with
      | none => s
      | some t =>
        let s := if waits then s else (s.startJob d c).meetExport sd t d c ecc
        if !s.stepRunning then s
        else if s.exportBad sd t d then s.exportPoison j.table sd d c
        else
          let s := if waits then s else s.sendGroup t (s.exportSends sd t d) false []
          if !s.columnsHere j.table sd t d then s
          else s.runPress d c 4 fault id fun s =>
            let s := s.bump (Reg.pressCnt d c 4) (sd.rowsOut - (s.exportSources sd t).length)
            let cells := s.exportCells j.table sd t d
            match (pressEscape fault).bind fun k => cells[k]?.map fun p => (k, p) with
            | some (k, p) =>
              s.tickFree.startExport j.table sd d c (cells.set k (p.1, freeBytes s.fresh p.2.length))
            | none => s.startExport j.table sd d c cells

def execExportJob (site : PressSite) (events : PressEvents) (s : State) : Host.Outcome State Fault Refusal :=
  done (s.exportJob site.die site.cluster events.ecc events.fault)

/-- R184: the region of a waiting export is held by no frame any more. -/
def State.exportRegionWritable (s : State) (slot : Nat) : State :=
  let n := s.nts slot
  match s.slotD slot with
  | some d => if n.waits && s.ntsHolders slot (1 - n.active) == 0 then s.writeRegion slot d else s
  | none => s

def execExportRegionWritable (slot : Fin 64) (s : State) : Host.Outcome State Fault Refusal :=
  done (s.exportRegionWritable slot.val)

/-- The region that is not active holds a completed export. -/
def NtsState.inactiveFull (n : NtsState) : Bool := if n.active = 0 then n.fullB else n.fullA

/-- Code of a request, in the order of R185. -/
def State.ntsCode (s : State) (slot op : Nat) : Nat :=
  let n := s.nts slot
  if op ≠ 1 ∧ op ≠ 2 then 5
  else if (s.slotD slot).isNone then 1
  else if n.export_.isSome then 4
  else if op = 1 then (if n.inactiveFull then 0 else 2)
  else if n.kept then 0 else 3

/-- A write to EMB.NTS_SWITCH (R188). -/
def State.ntsRequest (s : State) (v : Word) : State :=
  if !bit v.toNat 63 then s
  else
    let slot := bits v.toNat 5 0
    let code := s.ntsCode slot (bits v.toNat 9 8)
    let s := if code = 0 then s.ntsExchange slot else s
    (s.setFld Reg.embNtsResultCode code).setFld Reg.embNtsResultSlot slot

def execNtsSwitch (value : Word) (s : State) : Host.Outcome State Fault Refusal :=
  done (s.onReady fun s => s.ntsRequest value)

def execNtsRevert (value : Word) (s : State) : Host.Outcome State Fault Refusal :=
  done (s.onReady fun s => s.ntsRequest value)

end Sys2Proof.Machine
end

