-- ==== Sys2Proof/Machine/Image.lean ====
section
/-! DEFINITION. Configuration images: their parsing and the checks of R94 up to the section contents (R89 to R95). -/

namespace Sys2Proof.Machine

/-- A refused load: code, section, detail (R107). -/
structure LoadErr where
  code : Nat
  sec : Nat
  detail : Nat
deriving DecidableEq, Repr

def noSection : Nat := 0xFFFF

def plainErr (code : Nat) : LoadErr := ⟨code, noSection, 0⟩

/-- A failing content check: section index, byte offset, code, and sub-code of code 0x1C. -/
structure Issue where
  sec : Nat
  off : Nat
  code : Nat
  sub : Nat
deriving DecidableEq, Repr

/-- One check of a section's contents. -/
def need (ok : Bool) (off code sub : Nat) : List (Nat × Nat × Nat) := if ok then [] else [(off, code, sub)]

def content : Nat := 0x1C

def inSection (sec : Nat) (l : List (Nat × Nat × Nat)) : List Issue := l.map fun p => ⟨sec, p.1, p.2.1, p.2.2⟩

/-- The lowest section fails first, and in it the lowest byte offset (R94). -/
def firstIssue : List Issue → Option Issue
  | [] => none
  | i :: rest =>
    match firstIssue rest with
    | none => some i
    | some j => if j.sec < i.sec ∨ (j.sec = i.sec ∧ j.off < i.off) then some j else some i

/-- DETAIL is the byte offset, or the sub-code of code 0x1C (R107). -/
def Issue.err (i : Issue) : LoadErr := ⟨i.code, i.sec, if i.code = content then i.sub else i.off⟩

/-! ### Section kinds (Table 3.3) -/

inductive Level where
  | package | die | cluster | core | engine | hub | slice
deriving DecidableEq, Repr

/-- Target level and RELOADABLE of a known kind. -/
def kindInfo (k : Nat) : Option (Level × Bool) :=
  match k with
  | 0x0001 => some (.package, false)
  | 0x0002 => some (.die, true)
  | 0x0003 => some (.cluster, true)
  | 0x0004 => some (.core, true)
  | 0x0005 => some (.engine, true)
  | 0x0006 => some (.package, false)
  | 0x0007 => some (.package, false)
  | 0x0010 => some (.hub, true)
  | 0x0011 => some (.slice, true)
  | 0x0012 => some (.hub, true)
  | 0x00F0 => some (.die, true)
  | 0x00FF => some (.package, false)
  | _ => none

def knownKind (k : Nat) : Bool := (kindInfo k).isSome

/-- Kinds that may repeat a target. -/
def repeats (k : Nat) : Bool := k == 0x00F0 || k == 0x00FF

/-- Level of a logical unit code with "none" in every field its level does not use (R91). -/
def levelOf (u : Nat) : Option Level :=
  if u = packageCode then some .package
  else if u = hubCode then some .hub
  else if 2 ^ 17 ≤ u then none
  else
    let c := ucCluster u
    let k := ucCore u
    let e := ucEngine u
    if ucDie u = 15 then (if c < 16 ∧ k = noCore ∧ e = 15 then some .slice else none)
    else if 4 ≤ ucDie u then none
    else if c = noCluster then (if k = noCore ∧ e = 15 then some .die else none)
    else if 16 ≤ c then none
    else if k = noCore then (if e = 15 then some .cluster else none)
    else if 8 ≤ k then none
    else if e = 15 then some .core
    else if e < 8 then some .engine
    else none

/-! ### Parsing (Tables 3.1, 3.2, 3.5) -/

/-- A section as the table names it. One that reaches past the signature block is read as empty: the layout check
refuses its image (R89) before anything reads it. -/
def State.sectionAt (s : State) (a i : Nat) : Section :=
  let h := s.read a 256
  let e := s.read (a + le h 0x30 4 + 64 * i) 64
  ⟨le e 0 2, le e 2 2, le e 4 4, le e 8 4, le e 12 4, e.drop 16,
   if le e 8 4 + le e 12 4 ≤ min (le h 0x38 8) (2 ^ 30) then s.read (a + le e 8 4) (le e 12 4) else []⟩

/-- The header and the sections; of more than the 65,536 that the header check allows (R89), the first ones. -/
def State.parseImage (s : State) (a : Nat) : Image :=
  let h := s.read a 256
  ⟨a, le h 0x10 8, le h 0x18 8, le h 0x24 4, le h 0x28 8, le h 0x0B 1, le h 0x34 1, le h 0x36 2,
   (List.range (min (le h 0x0C 4) 65536)).map (s.sectionAt a)⟩

def allZero (bs : List Byte) : Bool := bs.all (· == 0)

/-- First section that fails a test. -/
def firstSection (ss : List Section) (bad : Nat → Section → Bool) : Option Nat :=
  ((enum0 ss).find? fun p => bad p.1 p.2).map Prod.fst

/-- R89 over the header alone: every range, mask and reserved byte, and the signature block's. -/
def State.headerOk (s : State) (a : Nat) : Bool :=
  let h := s.read a 256
  let sig := le h 0x38 8
  let t := le h 0x30 4
  let n := le h 0x0C 4
  decide (1 ≤ le h 0x0B 1 ∧ le h 0x0B 1 ≤ 16 ∧ 1 ≤ n ∧ n ≤ 65536 ∧ le h 0x24 4 < 4 ∧ le h 0x34 1 < 16) &&
    decide (le h 0x35 1 = 0) && allZero (h.drop 0x60) &&
    decide (le h 0x10 8 = sig + 104 ∧ le h 0x10 8 ≤ 2 ^ 30 ∧ sig % 64 = 0 ∧ t % 64 = 0 ∧ 256 ≤ t ∧ t + 64 * n ≤ sig) &&
    allZero (s.read (a + sig + 2) 6)

/-- R89 over the section table: order, ranges, overlaps; and the RELOADABLE flags of R90. Answers the first breach. -/
def sectionsErr (im : Image) (sig table : Nat) : Option Nat :=
  let n := im.sections.length
  let before (i : Nat) : Option Section := if i = 0 then none else im.sections[i - 1]?
  firstSection im.sections fun i x =>
    decide (4 ≤ x.flags) || decide (x.offset % 64 ≠ 0) || decide (x.length < 16) ||
    (match kindInfo x.kind with
      | some (_, r) => (bit x.flags 1) != r
      | none => false) ||
    (match before i with
      | some y => decide (x.kind < y.kind ∨ (x.kind = y.kind ∧ x.target < y.target)) ||
          decide (x.kind = y.kind ∧ x.target = y.target) && !repeats x.kind
      | none => false) ||
    decide (sig < x.offset + x.length) || overlaps x.offset x.length 0 256 || overlaps x.offset x.length table (64 * n) ||
    (im.sections.take i).any fun y => overlaps x.offset x.length y.offset y.length

/-- The public key of IMAGE key slot `k` (Table 14.9), where the slot is valid and its key passed its check. -/
def State.slotKey (s : State) (k : Nat) : Option (List Byte) :=
  if s.fld (Reg.secSlotState k) = 1 ∧ !s.sec.keyBad.contains k then
    (Tab.find k s.sec.keys)
  else none

/-- A signature over `msg` in the format of Table 3.5, by the key of slot `k`. -/
def State.signedBy (s : State) (k : Nat) (block msg : List Byte) : Bool :=
  match s.slotKey k with
  | some key => verify384 key (sliceBytes block 8 48) (sliceBytes block 0x38 48) msg
  | none => false

/-! ### Counts, digests, targets (R90, R91) -/

def diesOf (mask : Nat) : List Nat := (List.range 4).filter (bit mask)
def slicesOf (mask : Nat) : List Nat := (List.range 16).filter (bit mask)

def Image.ofKind (im : Image) (k : Nat) : List Section := im.sections.filter fun x => x.kind == k

/-- Targets that must each have a section, for the kinds of which every unit needs one. -/
def Image.required (im : Image) : List (Nat × Nat) :=
  (0x0001, packageCode) ::
  ((diesOf im.dieMask).flatMap fun d =>
    (0x0002, dieCode d) :: (List.range im.clusters).map fun c => (0x0003, clusterCode d c)) ++
  (slicesOf im.sliceMask).map (fun j => (0x0011, sliceCode j)) ++
  if im.sliceMask = 0 then [] else [(0x0010, hubCode), (0x0012, hubCode)]

/-- Most sections of a kind. -/
def Image.most (im : Image) (k : Nat) : Option Nat :=
  let dies := (diesOf im.dieMask).length
  match k with
  | 0x0001 => some 1
  | 0x0002 => some dies
  | 0x0003 => some (dies * im.clusters)
  | 0x0004 => some (dies * im.clusters * 8)
  | 0x0005 => some (dies * im.clusters * 64)
  | 0x0006 => some 1
  | 0x0007 => some 1
  | 0x0010 => some (if im.sliceMask = 0 then 0 else 1)
  | 0x0011 => some (slicesOf im.sliceMask).length
  | 0x0012 => some (if im.sliceMask = 0 then 0 else 1)
  | _ => none

/-- Step 10 of R94: an unknown kind without OPTIONAL, a kind too often, a required section missing. -/
def Image.countErr (im : Image) : Option LoadErr :=
  let bad := firstSection im.sections fun i x =>
    (!knownKind x.kind && !bit x.flags 0) ||
    match im.most x.kind with
    | some m => decide (m < ((im.sections.take (i + 1)).filter fun y => y.kind == x.kind).length)
    | none => false
  match bad with
  | some i => some ⟨0x0A, i, 0⟩
  | none =>
    if im.required.all fun r =>
        decide ((im.required.filter fun q => q.1 == r.1).length ≤ (im.ofKind r.1).length) then none
    else some (plainErr 0x0A)

def Image.digestErr (im : Image) : Option LoadErr :=
  (firstSection im.sections fun _ x => knownKind x.kind && sha384 x.payload != x.digest).map fun i => ⟨0x0B, i, 0⟩

/-- R91: the level fits the kind and the unit lies inside DIE_MASK, SLICE_MASK and CLUSTERS. -/
def Image.targetOk (im : Image) (x : Section) : Bool :=
  match kindInfo x.kind with
  | none => true
  | some (lvl, _) =>
    levelOf x.target == some lvl &&
    match lvl with
    | .package => true
    | .hub => true
    | .slice => bit im.sliceMask (ucCluster x.target)
    | .die => bit im.dieMask (ucDie x.target)
    | _ => bit im.dieMask (ucDie x.target) && decide (ucCluster x.target < im.clusters)

def Image.targetErr (im : Image) : Option LoadErr :=
  (firstSection im.sections fun _ x => !im.targetOk x).map fun i => ⟨0x0C, i, 0⟩

/-- R99: the buffer lies inside tier 1 or tier 2. -/
def State.bufferOk (s : State) (a n : Nat) : Bool := s.inTiers a n

/-- Steps 1 to 12 of R94 on the image at an address, with the buffer check of R99 once the length is known to be
sound (log entry 16). -/
def State.imageErr (s : State) (a : Nat) : Option LoadErr :=
  let h := s.read a 256
  let sig := le h 0x38 8
  let blk := s.read (a + sig) 104
  if h.take 4 ≠ [0x4B, 0x4E, 0x49, 0x4D] then some (plainErr 0x02)
  else if le h 4 2 ≠ s.fld Reg.cfgCapsFormatMajor ∨ s.fld Reg.cfgCapsFormatMinorMax < le h 6 2 then some (plainErr 0x03)
  else if le h 8 2 ≠ 0x4820 ∨ le h 0x0A 1 ≠ 1 then some (plainErr 0x04)
  else if !s.headerOk a then some (plainErr 0x05)
  else
    let im := s.parseImage a
    match sectionsErr im sig (le h 0x30 4) with
    | some i => some ⟨0x05, i, 0⟩
    | none =>
      if !s.bufferOk a im.totalLength then some (plainErr 0x19)
      else if le blk 0 1 ≠ 1 ∨ 3 < le blk 1 1 ∨ s.slotKey (4 + le blk 1 1) = none then some (plainErr 0x06)
      else if le h 0x20 4 < s.fld Reg.secMinVersionImage then some (plainErr 0x07)
      else if !s.signedBy (4 + le blk 1 1) blk (s.read a sig) then some (plainErr 0x08)
      else if im.features &&& s.fld Reg.cfgCapsFeatures ≠ im.features then some (plainErr 0x09)
      else if s.effectiveClusters < im.clusters then some (plainErr 0x0D)
      else
        match im.countErr with
        | some e => some e
        | none =>
          match im.digestErr with
          | some e => some e
          | none => im.targetErr

/-- The state in which an image's contents are judged: as if the image were loaded. -/
def State.withImage (s : State) (im : Image) : State := { s with cfg := { s.cfg with image := some im } }

/-- Index of the section of a kind with a target. -/
def Image.indexOf (im : Image) (kind target : Nat) : Nat :=
  (firstSection im.sections fun _ x => x.kind == kind && x.target == target).getD noSection

end Sys2Proof.Machine
end

