-- ==== Sys2Proof/Machine/ContentDense.lean ====
section
/-! DEFINITION. Content checks of ENGINE_CONFIG, TENSORS, CORE_SCHEDULE, GENERATOR and INIT_DATA sections (R90, R93,
R124 to R156, R421). A check answers the offsets at which a section fails, with code and sub-code. The state they read
is the one in which the image counts as loaded. -/

namespace Sys2Proof.Machine

abbrev Fails := List (Nat × Nat × Nat)

/-! ### ENGINE_CONFIG (R93, R526) -/

def isSq (f : Nat) : Bool := f == fmtSq8 || f == fmtSq4

/-- Operand formats of a PAIR (Table 2.2). -/
def pairFmt (pair f : Nat) : Bool :=
  match pair with
  | 1 => f == fmtE4m3 || f == fmtE5m2
  | 2 => f == fmtInt8
  | 3 => isSq f
  | 4 => f == fmtBf16
  | 5 => f == fmtFp32
  | _ => false

/-- Outputs that stochastic rounding allows (R62). -/
def srFmt (f : Nat) : Bool := f == fmtBf16 || f == fmtE4m3 || f == fmtE5m2

def fmtKnown (f : Nat) : Bool := decide (1 ≤ f ∧ f ≤ 9)

/-- The first failing arithmetic check of a record, in the order of R93. The rule's list does not place an OUT_FMT that
Table 3.7 does not list: it is judged with the formats of step 1, after A_FMT and B_FMT (DESIGN CHOICE, log entry
155). -/
def engArith (r : EngRec) : Fails :=
  if r.pair = 0x10 then
    if !fmtKnown r.outFmt then [(3, 0x0E, 0)]
    else if r.outFmt = fmtAcc96 then [(3, 0x12, 0)]
    else if r.sr && !srFmt r.outFmt then [(4, 0x12, 0)]
    else if r.outFmt = fmtE4m3 ∧ !r.sat then [(4, 0x10, 0)]
    else []
  else if ¬(1 ≤ r.pair ∧ r.pair ≤ 5) then [(0, 0x0E, 0)]
  else if !pairFmt r.pair r.aFmt then [(1, 0x0E, 0)]
  else if !pairFmt r.pair r.bFmt then [(2, 0x0E, 0)]
  else if !fmtKnown r.outFmt then [(3, 0x0E, 0)]
  else if (isSq r.aFmt && !r.aK) || (isSq r.bFmt && !r.bK) then [(5, 0x0F, 0)]
  else if r.outFmt = fmtE4m3 ∧ !r.sat then [(4, 0x10, 0)]
  else if r.kTotal = 0 ∨ 2 ^ 31 < r.kTotal then [(12, 0x11, 0)]
  else if (r.outFmt = fmtInt32 ∧ r.pair ≠ 2) ∨ (r.outFmt = fmtAcc96 ∧ 4 ≤ r.pair) ∨ r.outFmt = fmtInt8 ∨ isSq r.outFmt then
    [(3, 0x12, 0)]
  else if r.sr && !srFmt r.outFmt then [(4, 0x12, 0)]
  else if (r.outFmt = fmtAcc96 ∨ r.outFmt = fmtInt32) ∧ r.dSrc ≠ 0xFFFF then [(0x18, 0x12, 0)]
  else if (r.outFmt = fmtAcc96 ∨ r.outFmt = fmtInt32) ∧ r.epilogue ≠ 0xFFFF then [(0x1C, 0x12, 0)]
  else if r.accClass ≠ (if r.pair = 1 then 2 else if r.pair ≤ 3 then 1 else 0) then [(7, 0x13, 0)]
  else if r.kTotal ≤ r.kLo ∨ (4 ≤ r.pair ∧ r.kLo % 2 ^ r.kLog2 ≠ 0) then [(8, 0x14, 0)]
  else []

/-- Form of one record. -/
def engForm (b : List Byte) : Bool :=
  decide (le b 4 1 < 4 ∧ le b 5 1 < 8 ∧ le b 6 1 ≤ 31 ∧ le b 0x1E 2 = 0)

def shift (o : Nat) (l : Fails) : Fails := l.map fun p => (o + p.1, p.2)

def engineFails (p : List Byte) : Fails :=
  let n := le p 0 2
  if ¬(1 ≤ n ∧ n ≤ 64) ∨ p.length ≠ 16 + 32 * n ∨ !allZero (sliceBytes p 2 14) then [(0, content, 0x0301)]
  else
    (enum0 (records p 16 32 n)).flatMap fun e =>
      shift (16 + 32 * e.1) (if engForm e.2 then engArith (EngRec.ofBytes e.2) else [(0, content, 0x0301)])

def State.hasGenerator (s : State) : Bool := !(s.sectionsOf 0x0007).isEmpty

/-- Ports and epilogues a record names exist in its core's schedule (0x16), and stochastic rounding has its generator
(R421). Of a vector record OUT_FMT and OUT_MODE alone are checked (R93); a core with no schedule routes nothing (log entry
17). -/
def State.engineRoutes (s : State) (x : Section) : Fails :=
  (enum0 (engRecs x.payload)).flatMap fun e =>
    let r := e.2
    let o := 16 + 32 * e.1
    let gen := need (!r.sr || s.hasGenerator) (o + 4) content 0x0C01
    match s.schedule (coreCode (ucDie x.target) (ucCluster x.target) (ucCore x.target)) with
    | none => gen
    | some sch =>
      let n := sch.ports.length
      if r.pair = 0x10 then gen
      else
        gen ++ need (decide (r.aSrc < n)) (o + 0x14) 0x16 0 ++ need (decide (r.bSrc < n)) (o + 0x16) 0x16 0 ++
        need (r.dSrc == 0xFFFF || decide (r.dSrc < n)) (o + 0x18) 0x16 0 ++
        need (decide (r.outDst < n)) (o + 0x1A) 0x16 0 ++
        need (r.epilogue == 0xFFFF || decide (r.epilogue < sch.epilogues.length)) (o + 0x1C) 0x16 0

/-! ### TENSORS (R124 to R126, R142, R200) -/

def subTensor : Nat := 0x0401
def subPlace : Nat := 0x0402

/-- Fields of one descriptor. A TIE_GROUP above 4,095 is a matter of TENSOR (DESIGN CHOICE, log entry 156). -/
def tensorForm (ts : List Tensor) (t : Tensor) (b : List Byte) : Fails :=
  let dims := [t.d0, t.d1, t.d2, t.d3]
  let bad (ok : Bool) (off : Nat) : Fails := need ok off content subTensor
  bad (fmtKnown t.fmt) 0 ++ bad (decide (1 ≤ t.rank ∧ t.rank ≤ 4)) 1 ++ bad (decide (t.role ≤ 8)) 2 ++
  bad (decide (t.place ≤ 2)) 3 ++ bad (decide (t.layout ≤ 1)) 4 ++
  bad (decide (1 ≤ t.stash ∧ t.stash ≤ if t.role = 2 then 4 else 1)) 5 ++
  bad (if isSq t.fmt then
      match findTensor ts t.scale with
      | some sc => sc.role == 8 && sc.fmt == fmtFp32 && decide (t.d1 * t.d2 * t.d3 ≤ sc.count)
      | none => false
    else t.scale == 0xFFFF) 6 ++
  bad (dims.all (fun d => decide (1 ≤ d)) && (dims.drop t.rank).all (· == 1) &&
    (t.layout == 0 || decide (t.d0 % 32 = 0 ∧ t.d1 % 32 = 0))) 8 ++
  bad (t.tie == 0xFFFF || (t.role == 3 && decide (t.tie < 4096))) 0x1C ++
  bad (decide (le b 0x1E 2 = 0) && allZero (sliceBytes b 0x30 16)) 0x1E ++
  bad (decide (t.elemBytes * t.stash ≤ t.bytes)) 0x28

/-- A logical core inside the image's masks. -/
def Image.coreIn (im : Image) (u : Nat) : Bool :=
  levelOf u == some .core && bit im.dieMask (ucDie u) && decide (ucCluster u < im.clusters)

/-- Range in which a tensor outside scratchpads must lie (Table 4.1, R200). -/
def State.homeRange (s : State) (t : Tensor) : Nat × Nat :=
  if t.place = 2 then (tier2Base, s.tier2Size)
  else if t.home = packageCode then (0, s.stripedSize)
  else s.dieRange (ucDie t.home)

def within (a n lo size : Nat) : Bool := decide (lo ≤ a ∧ a + n ≤ lo + size)

/-- Place of one descriptor. Where the spec names no sub-code: a HOME that its PLACE does not allow is a matter of PLACE
(DESIGN CHOICE, log entry 156), and a place-2 tensor that begins in the tier and ends past its size lacks capacity, as
one larger than the tier (DESIGN CHOICE, log entry 157). -/
def State.tensorPlace (s : State) (im : Image) (ts : List Tensor) (t : Tensor) : Fails :=
  let home := if t.place = 0 then im.coreIn t.home
    else t.home == packageCode || (t.place == 1 && levelOf t.home == some .die && bit im.dieMask (ucDie t.home))
  let buffer := t.place != 0 && overlaps t.base t.bytes im.addr im.totalLength
  let clash := (ts.take t.id).any fun q =>
    ((t.place == 0) == (q.place == 0)) && (t.place != 0 || t.home == q.home) && overlaps t.base t.bytes q.base q.bytes
  if !home then [(0x18, content, subPlace)]
  else if t.place = 0 then
    if 2 ^ 20 < t.bytes then [(0x20, 0x15, 0)]
    else need (within t.base t.bytes 0 (2 ^ 20) && !clash) 0x20 content subPlace
  else
    let r := s.homeRange t
    if (if t.place = 1 then tier1Size else s.tier2Size) < t.bytes then [(0x20, 0x15, 0)]
    else if t.place = 2 ∧ tier2Base ≤ t.base ∧ t.base < ntsBase ∧ tier2Base + s.tier2Size < t.base + t.bytes then
      [(0x20, 0x15, 0)]
    else need (within t.base t.bytes r.1 r.2 && !buffer && !clash) 0x20 content subPlace

/-- Tensors that entries of the image write. -/
def State.writtenTensors (s : State) : List Nat :=
  s.schedules.flatMap fun sc => (List.range sc.2.entries.length).flatMap fun i =>
    match s.entryAt (ucDie sc.1) (ucCluster sc.1) (ucCore sc.1) i with
    | some x => x.accesses.filterMap fun a => if a.write then (x.tensorOf a.port).map Tensor.id else none
    | none => []

def tieUses (ts : List Tensor) (g : Nat) : List Tensor := ts.filter fun t => t.role == 3 && t.tie == g && g != 0xFFFF

/-- R142 for a gradient that carries a tie group. -/
def tieFails (ts : List Tensor) (written : List Nat) (t : Tensor) : Fails :=
  if t.role ≠ 3 ∨ t.tie = 0xFFFF then []
  else
    let us := tieUses ts t.tie
    let rank := (us.filter fun u => decide (u.id < t.id)).length
    need (decide (rank < 64) && (us.take 1).all (fun u => u.fmt == t.fmt) && written.contains t.id) 0x1C content 0x0408

def State.tensorFails (s : State) (im : Image) (x : Section) : Fails :=
  let p := x.payload
  let n := le p 0 4
  if ¬(1 ≤ n ∧ n ≤ 65535) ∨ p.length < 16 + 64 * n ∨ !allZero (sliceBytes p 4 12) then [(0, content, subTensor)]
  else
    let ts := tensorsOf p
    let written := s.writtenTensors
    (enum0 (records p 16 64 n)).flatMap fun e =>
      let t := Tensor.ofBytes e.1 e.2
      shift (16 + 64 * e.1) (tensorForm ts t e.2 ++ s.tensorPlace im ts t ++ tieFails ts written t)

/-! ### CORE_SCHEDULE (R127 to R131, R141 to R153, R179) -/

/-- What an operation asks of a port slot. -/
inductive SlotUse where
  | none | read | optRead | write | both | optBoth
deriving DecidableEq, Repr

/-- Table 4.6, slots P0 to P5. -/
def opSlots (op : Nat) : List SlotUse :=
  match op with
  | 0x00 => [.none, .none, .none, .none, .none, .none]
  | 0x01 => [.read, .read, .optRead, .write, .none, .none]
  | 0x02 => [.read, .read, .none, .write, .none, .none]
  | 0x03 => [.read, .none, .none, .write, .none, .none]
  | 0x04 => [.read, .read, .write, .write, .none, .none]
  | 0x05 => [.read, .read, .write, .write, .none, .none]
  | 0x06 => [.read, .optRead, .write, .write, .none, .none]
  | 0x07 => [.read, .none, .none, .write, .none, .none]
  | 0x08 => [.read, .read, .read, .write, .write, .optRead]
  | 0x09 => [.read, .read, .none, .none, .write, .none]
  | 0x0A => [.read, .read, .read, .read, .read, .write]
  | 0x0B => [.read, .read, .read, .read, .read, .write]
  | 0x0C => [.read, .read, .read, .read, .write, .write]
  | 0x0D => [.read, .optRead, .read, .read, .write, .none]
  | 0x0E => [.optRead, .none, .none, .read, .write, .none]
  | 0x0F => [.read, .none, .none, .write, .none, .none]
  | 0x10 => [.both, .read, .optBoth, .optBoth, .none, .none]
  | 0x11 => [.read, .none, .none, .write, .none, .none]
  | 0x12 => [.read, .none, .none, .write, .none, .none]
  | _ => []

def accessFits (u : SlotUse) (access : Nat) : Bool :=
  match u with
  | .none => false
  | .read => access == 0 || access == 2
  | .optRead => access == 0 || access == 2
  | .write => access == 1 || access == 2
  | .both => access == 2
  | .optBoth => access == 2

def SlotUse.mayMiss : SlotUse → Bool
  | .none => true
  | .optRead => true
  | .optBoth => true
  | _ => false

def SlotUse.writes : SlotUse → Bool
  | .write => true
  | .both => true
  | .optBoth => true
  | _ => false

def subPort : Nat := 0x0403
def subOp : Nat := 0x0404
def subEvent : Nat := 0x0405
def subStash : Nat := 0x0407
def subEpilogue : Nat := 0x040A

/-- Operations that may write no ACC96 tensor: ACC96 is written only by exact reductions, REDUCE and EXCHANGE (R527). -/
def vectorOp (op : Nat) : Bool := !(op == 0x00 || op == 0x01 || op == 0x02 || op == 0x11)

/-- Bytes of PARAM that an operation names. -/
def paramBytes (op : Nat) : List Nat :=
  match op with
  | 0x01 => [0, 1, 2, 3]
  | 0x02 => [0]
  | 0x04 => [0, 1, 2, 3]
  | 0x05 => [0, 1, 2, 3]
  | 0x07 => [0]
  | 0x08 => [0, 1, 2, 3, 4, 5, 6, 7, 8, 9, 12, 13, 14, 15]
  | 0x0A => [0, 1, 2, 3, 4, 5, 6, 7, 8, 9, 12, 13, 14, 15]
  | 0x0B => [0, 1, 2, 3, 4, 5, 6, 7, 8, 9, 12, 13, 14, 15]
  | 0x0C => [0]
  | 0x0E => [0]
  | 0x0F => [0, 1]
  | 0x10 => [0, 1, 2, 3, 4, 8, 9]
  | 0x11 => [0, 4, 5, 6, 7, 8, 9, 10, 11]
  | 0x12 => [0]
  | _ => []

/-- Greatest value of the mode in PARAM byte 0. -/
def modeMax (op : Nat) : Option Nat :=
  match op with
  | 0x02 => some 1
  | 0x07 => some 1
  | 0x0C => some 1
  | 0x0E => some 6
  | 0x12 => some 1
  | _ => none

def finite32 (x : Nat) : Bool := decide (x % 2 ^ 31 < 0x7F800000)

def Ent.fmtOf (x : Ent) (j : Nat) : Nat := match x.slotTensor j with | some t => t.fmt | none => 0

/-- A row length that norms and soft maxima refuse. -/
def longRow (x : Ent) : Bool := [4, 5, 6, 0x0C, 0x0D].contains x.e.op && decide (2 ^ 24 < x.d0 0)

/-- Formats and parameters of the attention operations (R148). P5 gives key lengths under MASK 2; an entry that names it
under another MASK is refused (DESIGN CHOICE, log entry 207). -/
def attnOk (x : Ent) : Bool :=
  let f (j : Nat) : Nat := x.fmtOf j
  let fp8 (j : Nat) : Bool := f j == fmtE4m3 || f j == fmtE5m2
  let qkv := (f 0 == fmtBf16 && f 1 == fmtBf16 && f 2 == fmtBf16) || (fp8 0 && fp8 1 && fp8 2)
  decide (1 ≤ x.p32 0 ∧ x.p32 0 ≤ 2 ^ 24 ∧ x.p8 8 ≤ 2 ∧ x.p8 9 ≤ 2) && finite32 (x.p32 4) && qkv &&
  (x.e.op != 0x08 || ((f 3 == fmtFp32 || f 3 == fmtBf16) &&
    (x.p8 8 == 2) == x.used 5 && (!x.used 5 || f 5 == fmtInt32)))

/-- Outputs of an exact sum that REDUCE, GATHER_TIED or EXCHANGE converts (R68); INT32 is judged with its source. -/
def exactOut (f : Nat) : Bool := (floatFmt f).isSome || f == fmtAcc96 || f == fmtInt32

/-- The access stays inside its tensor: its last element has a number below the tensor's count. -/
def Ent.insideTensor (x : Ent) (a : PortUse) : Bool :=
  match x.tensorOf a.port with
  | none => true
  | some t =>
    a.elems == 0 ||
    decide (x.origin a.port + a.grid.off + (a.grid.rows - 1) * a.grid.stride + a.grid.cols ≤ t.count)

/-- SQ tensors are written by CONVERT (R131, Table 4.6), and by an all-gather, which distributes values unchanged
(R153). -/
def Ent.sqOutputsOk (x : Ent) : Bool :=
  x.e.op == 0x12 || (x.e.op == 0x11 && x.p8 0 == 2) || x.accesses.all fun a =>
    !a.write || (match x.tensorOf a.port with | some t => !isSq t.fmt | none => true)

/-- Formats and shapes that an operation asks of its ports beyond their access (R130). Formats that no rule names for a
port are those its values have: FP32 for saved statistics, for the parts of γ and β and for the partials of a tree; and
every access stays inside its tensor (DEDUCED, log entry 158). -/
def formatsFit (x : Ent) : Bool :=
  let f (j : Nat) : Nat := x.fmtOf j
  x.sqOutputsOk && x.accesses.all x.insideTensor &&
  match x.e.op with
  | 0x01 => x.recs.all fun r => r.2.pair != 0x10 && r.2.aFmt == f 0 && r.2.bFmt == f 1
  | 0x02 =>
    if x.p8 0 = 1 then f 0 == fmtAcc96 && f 1 == fmtAcc96 && exactOut (f 3)
    else f 0 == fmtFp32 && f 1 == fmtFp32 && f 3 == fmtFp32
  | 0x04 => f 2 == fmtFp32 && (match x.slotTensor 1 with | some t => t.rank == 2 && t.d1 == 2 | none => false)
  | 0x05 => f 2 == fmtFp32
  | 0x06 => f 2 == fmtFp32 && (!x.used 1 || f 1 == fmtInt8)
  | 0x08 => f 4 == fmtFp32
  | 0x09 => f 4 == fmtFp32
  | 0x0A => f 4 == fmtFp32
  | 0x0B => f 4 == fmtFp32
  | 0x0C => f 2 == fmtFp32 && f 5 == fmtFp32
  | 0x0D => f 2 == fmtFp32 && (!x.used 1 || f 1 == fmtInt8)
  | 0x0E => x.used 0 || x.p8 0 == 0
  | 0x0F => f 0 != fmtAcc96 || exactOut (f 3)
  | 0x10 => (floatFmt (f 0)).isSome && (floatFmt (f 1)).isSome
  | 0x11 =>
    if x.p8 0 = 1 then f 0 == fmtAcc96 && exactOut (f 3)
    else if x.p8 0 = 2 then f 0 == f 3 && x.d0 0 == x.d0 3
    else f 0 == fmtFp32 && f 3 == fmtFp32
  | _ => true

/-- A MATMUL whose output has no FP32 form takes no added tensor, as its record (R93). -/
def addedFits (x : Ent) : Bool :=
  x.e.op != 0x01 || !x.used 2 || x.recs.all fun r => r.2.outFmt != fmtAcc96 && r.2.outFmt != fmtInt32

/-- The rows that a NORM_BWD sums the parts of are an aligned subtree of the row positions, the last one cut at the
tensor's end where the entry belongs to no micro-batch (R71, R136, R138). -/
def normRowsAligned (x : Ent) : Bool :=
  let lo := x.rowIndex 0
  let p := 2 ^ (Nat.log2 (max 1 (x.e.rows - 1)) + b2n (decide (1 < x.e.rows)))
  let whole := match x.slotTensor 0 with
    | some t => (x.e.mb == 0xFF || x.sch.microBatches == 1) && lo + x.e.rows == t.d1 * t.d2 * t.d3
    | none => false
  x.e.op != 0x0C || (decide (lo % p = 0) && (x.e.rows == p || whole))

/-- The engines of a BF16 or FP32 MATMUL give their core a whole subtree: their K ranges join without a gap to a range that
starts at a multiple of its size, a power of two, or is cut off at K_TOTAL (R71, R136). -/
def kRangesAligned (x : Ent) : Bool :=
  match x.rec0 with
  | none => true
  | some r =>
    let h := x.kHull
    let len := h.2 - h.1
    let size := 2 ^ (Nat.log2 (max 1 (len - 1)) + b2n (decide (1 < len)))
    x.e.op != 0x01 || exactPair r.pair ||
      (decide (h.1 % size = 0) && (len == size || h.2 == r.kTotal) &&
        x.recs.all fun q => q.2.kRange.2 == h.2 ||
          x.recs.any fun w => decide (w.2.kRange.1 ≤ q.2.kRange.2 ∧ q.2.kRange.2 < w.2.kRange.2))

/-! ### Classes of ACC96 tensors (R68, R69) -/

/-- Pairs whose sums an entry writes into an ACC96 tensor, from the pairs found so far: tensor, PAIR. -/
def accStep (found : List (Nat × Nat)) (x : Ent) : List (Nat × Nat) :=
  match x.slotTensor 3 with
  | none => []
  | some t =>
    if t.fmt ≠ fmtAcc96 then []
    else if x.e.op = 0x01 then x.recs.map fun r => (t.id, r.2.pair)
    else if x.e.op = 0x02 ∨ x.e.op = 0x11 then
      let ins := [0, 1].filterMap fun j => (x.slotTensor j).map Tensor.id
      (found.filter fun p => ins.contains p.1).map fun p => (t.id, p.2)
    else []

def accRound (xs : List Ent) (found : List (Nat × Nat)) : List (Nat × Nat) :=
  (found ++ xs.flatMap (accStep found)).eraseDups

def accRounds (xs : List Ent) : Nat → List (Nat × Nat) → List (Nat × Nat)
  | 0, l => l
  | n + 1, l => accRounds xs n (accRound xs l)

/-- The image's entries. -/
def State.allEntries (s : State) : List Ent :=
  s.schedules.flatMap fun sc => (List.range sc.2.entries.length).filterMap fun i =>
    s.entryAt (ucDie sc.1) (ucCluster sc.1) (ucCore sc.1) i

/-- PAIRs of the products whose sums each ACC96 tensor holds, through any chain of REDUCE and EXCHANGE entries. -/
def State.accSources (s : State) : List (Nat × Nat) :=
  let xs := s.allEntries
  accRounds xs (xs.length + 1) []

/-- ACC_CLASS of a PAIR (R93). -/
def pairClass (pair : Nat) : Nat := if pair = 1 then 2 else 1

/-- The ACC96 tensors that an entry adds up. -/
def Ent.addends (x : Ent) : List Nat :=
  let ids (ts : List (Option Tensor)) : List Nat := (ts.filterMap id).map Tensor.id
  if x.e.op = 0x02 ∧ x.p8 0 = 1 then ids [x.slotTensor 0, x.slotTensor 1]
  else if x.e.op = 0x0F then (x.ts.filter fun t => t.role == 3 && t.tie == le x.e.param 0 2).map Tensor.id
  else if x.e.op = 0x11 ∧ x.p8 0 = 1 then ids [x.slotTensor 0]
  else []

/-- Sums of two classes (0x13), and an INT32 made of a sum that is not INT8 × INT8 (0x12). -/
def State.accFails (s : State) (x : Ent) : Fails :=
  if x.addends = [] then []
  else
    let all := if x.e.op = 0x11 then (s.exchangePeers x).flatMap Ent.addends else x.addends
    let pairs := (s.accSources.filter fun p => all.contains p.1).map Prod.snd
    need (decide ((pairs.map pairClass).eraseDups.length ≤ 1)) 12 0x13 0 ++
    need (x.fmtOf 3 != fmtInt32 || pairs.all fun p => p == 2) 18 0x12 0

/-- The output of a record fits the tensor of P3. -/
def outputFits (x : Ent) : Bool :=
  !([0x01, 0x03, 0x12].contains x.e.op) || x.recs.all fun r => r.2.outFmt == x.fmtOf 3

/-- R179: an OPT_DENSE entry's optimizer. -/
def State.optDenseOk (s : State) (x : Ent) : Bool :=
  let like (j : Nat) : Bool :=
    match x.slotTensor j, x.slotTensor 0 with
    | some t, some w => t.fmt == fmtFp32 && t.d0 == w.d0 && t.d1 == w.d1 && t.d2 == w.d2 && t.d3 == w.d3
    | _, _ => false
  !(s.sectionsOf 0x0006).isEmpty &&
  match s.embD.opts[le x.e.param 8 2]? with
  | some o => decide (le x.e.param 10 6 = 0) &&
      ((o.kind == 0 && x.p8 4 == 0) || (o.kind == 2 && x.p8 4 == 1 && like 2 && like 3))
  | none => false

/-- R142 at a GATHER_TIED entry: the group exists, and P0 is its first use. -/
def tieEntryOk (x : Ent) : Bool :=
  match (tieUses x.ts (le x.e.param 0 2)).head?, x.slotTensor 0 with
  | some t, some p => t.id == p.id && (t.fmt == fmtFp32 || t.fmt == fmtAcc96)
  | _, _ => false

def isPow2 (n : Nat) : Bool := decide (0 < n) && n &&& (n - 1) == 0

/-- Port fields of one entry. -/
def portFails (x : Ent) : Fails :=
  (enum0 (opSlots x.e.op)).flatMap fun q =>
    let pid := x.portNo q.1
    let o := 12 + 2 * q.1
    if pid = portNone then need q.2.mayMiss o content subOp
    else
      match x.sch.ports[pid]? with
      | none => [(o, content, subPort)]
      | some pt =>
        need (accessFits q.2 pt.access) o content subOp ++
        need (!(vectorOp x.e.op && q.2.writes && x.fmtOf q.1 == fmtAcc96)) o 0x12 0

/-- One entry. -/
def State.entryFails (s : State) (x : Ent) (b : List Byte) : Fails :=
  let e := x.e
  if 0x12 < e.op then [(0, content, subOp)]
  else
    let needRec := e.op == 1 || e.op == 3 || e.op == 0x12
    let sub := if [8, 0x0A, 0x0B].contains e.op then 0x0409 else if e.op = 0x0F then 0x0408
      else if e.op = 0x10 then 0x0504 else if e.op = 0x11 then 0x040C else subOp
    need (!needRec || e.record != 0xFFFF) 2 content subOp ++
    need (e.record == 0xFFFF || decide (x.recs.length = (engList e.engines).length)) 2 content subOp ++
    need (!needRec || e.engines != 0) 4 content subOp ++
    need (e.mb == 0xFF || decide (e.mb < x.sch.microBatches)) 5 content 0x040D ++
    need (decide (e.flags < 8)) 6 content subOp ++
    need (if x.stashReads.isEmpty then e.wver == 0xFF
      else e.wver != 0xFF && x.weightReads.all fun t => decide (1 < t.stash)) 7 content subStash ++
    need (e.wait == 0xFFFF || decide (e.wait < 2 ^ 14)) 8 content subEvent ++
    need (e.signal == 0xFFFF || decide (e.signal < 4096)) 10 content subEvent ++
    portFails x ++
    need (formatsFit x) 12 content subOp ++ need (outputFits x) 18 content subOp ++
    need (kRangesAligned x) 4 0x14 0 ++ need (addedFits x) 16 0x12 0 ++ need (normRowsAligned x) 0x18 0x14 0 ++ s.accFails x ++
    need (!longRow x) 12 content 0x040B ++
    need (decide (le b 0x1C 4 = 0)) 0x1C content subOp ++
    need ((enum0 e.param).all fun q => (paramBytes e.op).contains q.1 || q.2 == 0) 0x20 content sub ++
    need (match modeMax e.op with | some m => decide (x.p8 0 ≤ m) | none => true) 0x20 content sub ++
    need (!([8, 0x0A, 0x0B].contains e.op) || attnOk x) 0x20 content 0x0409 ++
    need (e.op != 0x0F || tieEntryOk x) 0x20 content 0x0408 ++
    need (e.op != 0x10 || s.optDenseOk x) 0x20 content 0x0504 ++
    need (e.op != 0x11 || (decide (x.p8 0 ≤ 2) && (x.p8 0 != 0 || isPow2 (x.p32 8)))) 0x20 content 0x040C

/-- One epilogue record. -/
def State.epilogueFails (s : State) (sch : Schedule) (ts : List Tensor) (b : List Byte) : Fails :=
  if 7 < le b 0 1 ∨ !allZero (sliceBytes b 1 7) then [(0, content, subEpilogue)]
  else
    (enum0 (epilogueOf b)).flatMap fun q =>
      let st := q.2
      let o := 8 + 8 * q.1
      let form := decide (1 ≤ st.op ∧ st.op ≤ 10) && (if st.op = 7 then decide (st.act ≤ 6) else st.act == 0) &&
        (st.op != 9 || decide (0 < st.const ∧ st.const ≤ 0x3F800000))
      if !form then [(o, content, subEpilogue)]
      else if st.op = 9 then need s.hasGenerator o content 0x0C01
      else if [1, 2, 5, 6, 10].contains st.op then
        match sch.ports[st.port]? with
        | none => [(o + 2, content, subPort)]
        | some pt =>
          need (accessFits (if st.op = 10 then .write else .read) pt.access) (o + 2) content subPort ++
          need (!(st.op == 10 && (match findTensor ts pt.tensor with | some t => t.fmt == fmtAcc96 | none => false)))
            (o + 2) 0x12 0
      else []

/-- One port: its tensor, access and stream, whose direction the access must fit. -/
def State.schedPortFails (s : State) (core : Nat) (ts : List Tensor) (pt : Port) : Fails :=
  need (decide (pt.tensor < ts.length ∧ pt.access ≤ 2)) 0 content subPort ++
  need (pt.stream == 0xFF ||
    match s.streamD (ucDie core) (ucCluster core) (ucCore core) pt.stream with
    | some d => pt.access == d.dir
    | none => false) 3 content subPort

/-- MICRO_BATCHES of the image's first schedule (R127). -/
def State.firstMicroBatches (s : State) : Option Nat := (s.schedules.head?).map fun sc => sc.2.microBatches

def State.scheduleFails (s : State) (x : Section) : Fails :=
  let p := x.payload
  let ne := le p 0 4
  let np := le p 4 2
  let nep := le p 6 2
  let nmb := le p 8 1
  let eb := 16 + 16 * np
  let rb := eb + 64 * nep
  let pre := need (decide (1 ≤ ne ∧ ne ≤ 2 ^ 20)) 0 content subOp ++ need (decide (np ≤ 1024)) 4 content subPort ++
    need (decide (nep ≤ 256)) 6 content subEpilogue ++
    need (decide (1 ≤ nmb ∧ nmb ≤ 64) && s.firstMicroBatches == some nmb) 8 content 0x040D ++
    need (allZero (sliceBytes p 9 7) && decide (rb + 48 * ne ≤ p.length)) 9 content subOp
  if !pre.isEmpty then pre
  else
    let ts := s.tensors
    let sch := Schedule.ofBytes p
    ((enum0 sch.ports).flatMap fun q => shift (16 + 16 * q.1) (s.schedPortFails x.target ts q.2)) ++
    ((enum0 (records p eb 64 nep)).flatMap fun q => shift (eb + 64 * q.1) (s.epilogueFails sch ts q.2)) ++
    (enum0 (records p rb 48 ne)).flatMap fun q =>
      match s.entryAt (ucDie x.target) (ucCluster x.target) (ucCore x.target) q.1 with
      | some en => shift (rb + 48 * q.1) (s.entryFails en q.2)
      | none => []

/-! ### GENERATOR and INIT_DATA (R421, R90) -/

def generatorFails (p : List Byte) : Fails :=
  if p.length ≠ 64 then [(0, content, 0x0C01)] else need (allZero (p.drop 16)) 16 content 0x0C01

/-- The target die's scratchpads and Grottos hold the whole range (R90, R201). -/
def State.inWindow (s : State) (die a n : Nat) : Bool :=
  match s.region a with
  | .window d off =>
    d == die &&
    match s.windowPlace d off with
    | .scratchpad c _ _ => within off n (c * 0x2000000) 0x800000
    | .grotto c _ => within off n (c * 0x2000000 + 0x1000000) 0x1000000
    | .none => false
  | _ => false

def State.initFails (s : State) (im : Image) (x : Section) : Fails :=
  let a := le x.payload 0 8
  let n := x.payload.length - 8
  if tier2Base ≤ a ∧ a + n ≤ ntsBase ∧ tier2Base + s.tier2Size < a + n then [(0, 0x15, 0)]
  else if !(s.inTiers a n || s.inWindow (ucDie x.target) a n) then [(0, 0x19, 0)]
  else need (!overlaps a n im.addr im.totalLength) 0 0x19 0

end Sys2Proof.Machine
end

