-- ==== Sys2Proof/Machine/ContentPlan.lean ====
section
/-! DEFINITION. Content checks of EMB_TABLES, CLUSTER_PLAN and DIE_PLAN sections, and of the checkpoint areas (R157 to
R190, R195 to R199, R203, R215, R230, R391). -/

namespace Sys2Proof.Machine

/-! ### Ranges that an image reserves in tiers 1 and 2 -/

/-- A reserved range: what it is (0 tensor, 1 table storage, 2 pending area, 3 staging area), whose, where. -/
structure Span where
  kind : Nat
  owner : Nat
  addr : Nat
  size : Nat
deriving DecidableEq, Repr

def TableD.storage (t : TableD) (e : EmbD) : Nat := t.rows * e.stride t

def TableD.pendSize (t : TableD) : Nat := t.uniqueMax * t.pendBanks * t.pendSlot

def State.spans (s : State) : List Span :=
  let e := s.embD
  (s.tensors.filter (fun t => t.place != 0)).map (fun t => ⟨0, t.id, t.base, t.bytes⟩) ++
  (e.tables.flatMap fun t => (List.range 4).flatMap fun n =>
    [⟨1, 4 * t.idx + n, t.base.getD n 0, t.storage e⟩, ⟨2, 4 * t.idx + n, t.pend.getD n 0, t.pendSize⟩]) ++
  (List.range 4).flatMap fun d => (s.diePlan d).looks.map fun l =>
    ⟨3, 4 * l.table + d, l.base, l.rows * match e.tables[l.table]? with | some t => e.stride t + 16 | none => 0⟩

/-- The range clashes with a span of one of the kinds, other than itself, or with the image buffer. -/
def State.clashes (s : State) (im : Image) (x : Span) (kinds : List Nat) : Bool :=
  overlaps x.addr x.size im.addr im.totalLength ||
  s.spans.any fun y => kinds.contains y.kind && !(y.kind == x.kind && y.owner == x.owner) &&
    overlaps x.addr x.size y.addr y.size

/-! ### EMB_TABLES -/

def subTable : Nat := 0x0501
def subPlaceE : Nat := 0x0505
def subNts : Nat := 0x0506
def subShare : Nat := 0x0507
def subJob : Nat := 0x0508

/-- R158, R159, R163, R180 for one descriptor. -/
def State.tableFields (s : State) (e : EmbD) (t : TableD) (b : List Byte) : Fails :=
  let bad (ok : Bool) (off : Nat) : Fails := need ok off content subTable
  bad (t.rowFmt == 1 || t.rowFmt == 2) 0 ++ bad (decide (t.opt < e.opts.length)) 1 ++ bad (decide (t.pool ≤ 3)) 2 ++
  need (decide (t.staleness ≤ 1)) 3 content 0x0509 ++ bad (decide (t.groupLog2 ≤ 6)) 4 ++
  bad (decide (3 ≤ t.sliceLog2 ∧ t.sliceLog2 ≤ 8)) 5 ++ bad (decide (t.oor ≤ 1)) 6 ++ bad (decide (t.flags < 4)) 7 ++
  need (!bit t.flags 0 || s.hasGenerator) 7 content 0x0C01 ++
  bad (decide (1 ≤ t.rows ∧ t.rows ≤ 2 ^ 40)) 8 ++
  need (decide (t.dim ≤ 4096 ∧ 1 ≤ t.dimUsed ∧ t.dimUsed ≤ t.dim)) 0x10 content 0x0502 ++
  bad (decide (t.mbBits ≤ 6)) 0x12 ++ bad (decide (t.sampleBits ≤ 20)) 0x13 ++ bad (decide (t.bagBits ≤ 16)) 0x14 ++
  need (decide (t.keyBits ≤ 40) && (match s.firstMicroBatches with | some m => decide (m ≤ 2 ^ t.mbBits) | none => true))
    0x12 content 0x0503 ++
  bad (allZero (sliceBytes b 0x15 3)) 0x15 ++ bad (allZero (sliceBytes b 0x60 32)) 0x60

/-- R160, R171, R200: storage and pending area of holder `n`. -/
def State.holderPlace (s : State) (im : Image) (e : EmbD) (t : TableD) (n : Nat) : Fails :=
  let a := t.base.getD n 0
  let size := t.storage e
  let r := s.dieRange n
  let p := t.pend.getD n 0
  let t2 := decide (tier2Base ≤ a ∧ a < ntsBase)
  let store :=
    if (t2 && decide (tier2Base + s.tier2Size < a + size)) || (!t2 && decide (r.2 < size)) then [(0x20 + 8 * n, 0x15, 0)]
    else need ((within a size r.1 r.2 || t2) && !s.clashes im ⟨1, 4 * t.idx + n, a, size⟩ [0, 1, 2]) (0x20 + 8 * n)
      content subPlaceE
  let pend := need (t.pendSize == 0 || (within p t.pendSize r.1 r.2 &&
    !s.clashes im ⟨2, 4 * t.idx + n, p, t.pendSize⟩ [0, 1, 2])) (0x40 + 8 * n) content subPlaceE
  store ++ pend

/-- A BETA in [0, 1). -/
def betaOk (x : Nat) : Bool := decide (x < 0x3F800000) || x == 0x80000000

/-- R173. -/
def optFails (ts : List Tensor) (o : OptD) : Fails :=
  let bad (ok : Bool) (off : Nat) : Fails := need ok off content 0x0504
  let lrOk := match findTensor ts o.lrTensor with | some t => t.fmt == fmtFp32 && t.rank == 1 | none => false
  bad (decide (o.kind ≤ 2)) 0 ++ bad (decide (o.flags < 4) && (!bit o.flags 0 || o.kind == 2)) 1 ++
  bad (if o.lrTensor = 0xFFFF then !bit o.flags 1 else lrOk) 2 ++ bad (finite32 o.lr) 4 ++
  bad (decide (0 < o.eps ∧ o.eps < 0x7F800000)) 8 ++ bad (betaOk o.beta1) 12 ++ bad (betaOk o.beta2) 20 ++
  bad (finite32 o.decay) 28

/-- R182 for one slot. -/
def ntsFails (e : EmbD) (ts : List Tensor) (i : Nat) (d : NtsD) (b : List Byte) : Fails :=
  let size (x : NtsD) : Nat := match e.tables[x.table]? with | some t => x.rowsOut * x.rowBytes t | none => 0
  let n := size d
  let earlier := (e.slots.take i).flatMap fun x => [(x.regionA, size x), (x.regionB, size x)]
  let listOk := d.rowList == 0xFFFF ||
    match findTensor ts d.rowList with
    | some t => t.fmt == fmtInt32 && decide (2 * d.rowsOut ≤ t.count)
    | none => false
  let bad (ok : Bool) (off : Nat) : Fails := need ok off content subNts
  bad (decide (d.table < e.tables.length)) 0 ++ bad ([1, 2, 3, 6].contains d.fmt) 2 ++ bad (decide (d.flags < 2)) 3 ++
  bad (decide (1 ≤ d.rowsOut)) 4 ++
  need (decide (d.regionA + n ≤ ntsSize)) 8 0x15 0 ++ need (decide (d.regionB + n ≤ ntsSize)) 16 0x15 0 ++
  bad (!earlier.any fun r => overlaps d.regionA n r.1 r.2) 8 ++
  bad (!overlaps d.regionB n d.regionA n && !earlier.any fun r => overlaps d.regionB n r.1 r.2) 16 ++
  bad listOk 24 ++ bad (allZero (sliceBytes b 26 6)) 26

def State.embFails (s : State) (im : Image) (p : List Byte) : Fails :=
  let nt := le p 0 2
  let no := le p 2 2
  let nn := le p 4 2
  let ob := 16 + 128 * nt
  let sb := ob + 32 * no
  if 256 < nt ∨ 64 < no ∨ 64 < nn ∨ le p 6 2 ≠ 0 ∨ p.length ≠ sb + 32 * nn then [(0, content, subTable)]
  else
    let e := EmbD.ofBytes p
    let ts := s.tensors
    ((enum0 (records p 16 128 nt)).flatMap fun q =>
      let t := TableD.ofBytes q.1 q.2
      shift (16 + 128 * q.1) (s.tableFields e t q.2 ++ (List.range 4).flatMap (s.holderPlace im e t))) ++
    ((enum0 (records p ob 32 no)).flatMap fun q => shift (ob + 32 * q.1) (optFails ts (OptD.ofBytes q.2))) ++
    (enum0 (records p sb 32 nn)).flatMap fun q => shift (sb + 32 * q.1) (ntsFails e ts q.1 (NtsD.ofBytes q.2) q.2)

/-! ### CLUSTER_PLAN -/

/-- Shares that follow each other from `cur` to `hi`. -/
def tiles : Nat → Nat → Nat → List (Nat × Nat) → Bool
  | 0, cur, hi, l => cur == hi && l.isEmpty
  | f + 1, cur, hi, l =>
    if l.isEmpty then cur == hi
    else
      match l.find? fun p => p.1 == cur && decide (cur < p.2) with
      | none => false
      | some p => tiles f p.2 hi (l.erase p)

/-- Jobs of a die with its clusters, of one kind and table. -/
def State.dieJobs (s : State) (d kind table : Nat) : List (Nat × Job) :=
  (s.jobsOf d kind table).map fun p => (p.1, p.2.2)

/-- Micro-batches of a table's lookups. -/
def State.mbList (s : State) (table : Nat) (dies : List Nat) : List Nat :=
  match s.firstMicroBatches with
  | some m => List.range m
  | none => dies.flatMap fun d => (s.dieJobs d 1 table).map fun p => p.2.mb

/-- R165 for a table that a LOOKUP names. -/
def State.sharesOk (s : State) (im : Image) (t : TableD) : Bool :=
  let dies := diesOf im.dieMask
  let block := 2 ^ (t.groupLog2 + t.sampleBits + t.bagBits)
  let share (j : Job) : Nat × Nat × Nat × Nat := (j.mb, j.posLo, j.posHi, j.sort)
  dies.all fun d =>
    let looks := (s.dieJobs d 1 t.idx).map Prod.snd
    let combs := (s.dieJobs d 2 t.idx).map Prod.snd
    ((s.mbList t.idx dies).all fun m =>
      let mine := (looks.filter fun j => j.mb == m).map fun j => (j.posLo, j.posHi)
      tiles (mine.length + 1) (m * block) ((m + 1) * block) mine) &&
    looks.length == combs.length &&
    (looks.all fun j => (combs.filter fun k => share k == share j).length == 1) &&
    (List.range im.clusters).all fun c => ((s.dieJobs d 3 t.idx).filter fun p => p.1 == c).length == 1

/-- Rows of DATA_TENSOR: one per position key of the package under POOL 0, else one per sample (R167). -/
def TableD.dataRows (t : TableD) (mbs samples : Nat) : Nat :=
  if t.pool = 0 then mbs * 2 ^ (t.sampleBits + t.bagBits) else mbs * samples

/-- R162 and R164 for the tensors of a LOOKUP or COMBINE. DATA_TENSOR has a column for each that carries model values and
at most DIM, and a row for each output row; a pair of the sorted list takes 16 bytes (DESIGN CHOICE, log entry 165). -/
def State.jobTensors (s : State) (t : TableD) (j : Job) : Bool :=
  let ts := s.tensors
  let mbs := match s.firstMicroBatches with | some m => m | none => j.mb + 1
  match findTensor ts j.index, findTensor ts j.offset, findTensor ts j.data, findTensor ts j.sort with
  | some ix, some off, some da, some so =>
    ix.fmt == fmtInt32 && ix.rank == 2 && decide (ix.d0 % 2 = 0) && ix.d1 == mbs &&
    off.fmt == fmtInt32 && off.rank == 2 && off.d1 == mbs && decide (off.d0 - 1 ≤ 2 ^ t.sampleBits) &&
    decide (da.fmt ≤ 4 ∧ t.dimUsed ≤ da.d0 ∧ da.d0 ≤ t.dim ∧ t.dataRows mbs (off.d0 - 1) * da.d0 ≤ da.count) &&
    so.place == 1 && decide (16 * (j.posHi - j.posLo) ≤ so.bytes) &&
    (if t.pool = 3 then
      match findTensor ts j.weight with
      | some w => w.fmt == fmtFp32 && w.d0 == ix.d0 / 2 && w.d1 == ix.d1
      | none => false
    else j.weight == 0xFFFF)
  | _, _, _, _ => false

def State.jobFails (s : State) (im : Image) (j : Job) (b : List Byte) : Fails :=
  let e := s.embD
  let zero := allZero (sliceBytes b 0x12 6) && allZero (sliceBytes b 0x28 24)
  let events := need (j.wait == 0xFFFF || decide (j.wait < 2 ^ 14)) 4 content subEvent ++
    need (j.signal == 0xFFFF || decide (j.signal < 4096)) 6 content subEvent
  let bad (ok : Bool) (off : Nat) : Fails := need ok off content subJob
  if ¬(1 ≤ j.kind ∧ j.kind ≤ 4) ∨ !zero then [(0, content, subJob)]
  else if j.kind = 4 then
    bad (j.mb == 0xFF) 1 ++ bad (decide (j.table < e.slots.length)) 2 ++ events
  else
    match e.tables[j.table]? with
    | none => [(2, content, subJob)]
    | some t =>
      if j.kind = 3 then bad (j.mb == 0xFF) 1 ++ events
      else
        bad (match s.firstMicroBatches with | some m => decide (j.mb < m) | none => j.mb != 0xFF) 1 ++ events ++
        bad (s.jobTensors t j) 8 ++
        need (decide (j.posHi - j.posLo ≤ 2 ^ 20) && s.sharesOk im t) 0x18 content subShare

/-- R164, R203: partition records. -/
def State.partFails (s : State) (d : Nat) (ps : List Part) (i : Nat) (p : Part) (b : List Byte) : Fails :=
  let e := s.embD
  need (decide (p.table < e.tables.length) && decide (le b 2 2 = 0)) 0 content subJob ++
  need (decide ((s.diePlan d).grottoPlain ≤ p.offset ∧ p.offset + p.bytes ≤ 2 ^ 24) &&
    !(ps.take i).any fun q => overlaps p.offset p.bytes q.offset q.bytes) 4 0x15 0

def State.planFails (s : State) (im : Image) (x : Section) : Fails :=
  let p := x.payload
  let np := le p 0 2
  let nj := le p 2 2
  let jb := 16 + 16 * np
  if 256 < np ∨ 4096 < nj ∨ !allZero (sliceBytes p 4 12) ∨ p.length ≠ jb + 64 * nj then [(0, content, subJob)]
  else
    let pl := ClusterPlan.ofBytes p
    ((enum0 (records p 16 16 np)).flatMap fun q =>
      match pl.parts[q.1]? with
      | some r => shift (16 + 16 * q.1) (s.partFails (ucDie x.target) pl.parts q.1 r q.2)
      | none => []) ++
    (enum0 (records p jb 64 nj)).flatMap fun q => shift (jb + 64 * q.1) (s.jobFails im (Job.ofBytes q.2) q.2)

/-! ### DIE_PLAN -/

def subStream : Nat := 0x0601

/-- A chunk lies whole in tier 1, in tier 2, or in a scratchpad or a plain Grotto of the die (R198). -/
def State.chunkOk (s : State) (d plain a n : Nat) : Bool :=
  if s.inTiers a n then true
  else
    match s.region a with
    | .window d' off =>
      d' == d &&
      match s.windowPlace d off with
      | .scratchpad _ _ o => decide (o + n ≤ 2 ^ 20)
      | .grotto _ o => decide (o + n ≤ plain)
      | .none => false
    | _ => false

/-- Bytes that a core's entries move through one of its streams in a step. -/
def State.portBytes (s : State) (core st : Nat) : Nat :=
  match s.schedule core with
  | none => 0
  | some sch => ((List.range sch.entries.length).map fun i =>
      match s.entryAt (ucDie core) (ucCluster core) (ucCore core) i with
      | some x => ((x.streamBytes.filter fun q => q.1 == st).map fun q => q.2.2).sum
      | none => 0).sum

def State.streamFails (s : State) (im : Image) (d plain : Nat) (all : List StreamD) (i : Nat) (x : StreamD)
    (b : List Byte) : Fails :=
  let bad (ok : Bool) (off : Nat) : Fails := need ok off content subStream
  let form :=
    bad (im.coreIn x.core && ucDie x.core == d) 0 ++
    bad (decide (x.stream ≤ 15) && !(all.take i).any fun y => y.core == x.core && y.stream == x.stream) 4 ++
    bad (decide (x.dir ≤ 1)) 5 ++ bad (decide (2 ≤ x.depth ∧ x.depth ≤ 64)) 6 ++
    bad (decide (x.chunk % 64 = 0 ∧ 64 ≤ x.chunk ∧ x.chunk ≤ 65536)) 0x10 ++
    bad (x.count.all fun c => decide (1 ≤ c)) 0x18 ++ bad (decide (le b 0x24 4 = 0)) 0x24
  let size := x.depth * x.chunk
  form ++ bad ((List.range x.total).all fun n => decide (0 ≤ x.chunkPos n) && s.chunkOk d plain (x.chunkAddr n) x.chunk) 8 ++
  need (decide (x.ring + size ≤ 2 ^ 20) &&
      !(s.tensors.any fun t => t.place == 0 && t.home == x.core && overlaps x.ring size t.base t.bytes) &&
      !((all.take i).any fun y => y.core == x.core && overlaps x.ring size y.ring (y.depth * y.chunk))) 0x14 content 0x0602 ++
  need (decide (x.total * x.chunk = s.portBytes x.core x.stream)) 0x18 content 0x0603

/-- R215 for one record. A staging area larger than the die's range does not fit (R194); an image that declares a record
without feature bit 4 has LOOKAHEAD (DESIGN CHOICE, log entry 166). -/
def State.lookFails (s : State) (im : Image) (d : Nat) (all : List LookD) (i : Nat) (l : LookD) (b : List Byte) : Fails :=
  let e := s.embD
  let bad (ok : Bool) (off : Nat) : Fails := need ok off content 0x0604
  match e.tables[l.table]? with
  | none => [(0, content, 0x0604)]
  | some t =>
    let r := s.dieRange d
    let home := t.base.getD d 0
    let size := l.rows * (e.stride t + 16)
    bad (bit im.features 4 && !((all.take i).any fun m => m.table == l.table) &&
      decide (tier2Base ≤ home ∧ home < ntsBase)) 0 ++
    bad (decide (1 ≤ l.depth ∧ l.depth ≤ 4)) 2 ++ bad (decide (le b 3 1 = 0)) 3 ++ bad (decide (1 ≤ l.rows)) 4 ++
    (if r.2 < size then [(8, 0x15, 0)] else bad (within l.base size r.1 r.2) 8) ++
    bad (decide (l.indexTensor < s.tensors.length) &&
      (s.dieJobs d 1 l.table).all fun p => p.2.index == l.indexTensor) 0x10 ++
    bad (allZero (sliceBytes b 0x12 14)) 0x12

/-- A prefix whose counts are out of range, whose reserved bytes are not 0 or whose payload is too short has no sub-code of
its own in Table 6.8: it is a matter of STREAM (DESIGN CHOICE, log entry 208). -/
def State.dieFails (s : State) (im : Image) (x : Section) : Fails :=
  let p := x.payload
  let ns := le p 0 2
  let nl := le p 2 2
  let g := le p 4 4
  let lb := 16 + 64 * ns
  if 2048 < ns ∨ 256 < nl ∨ !allZero (sliceBytes p 8 8) ∨ p.length < lb + 32 * nl then [(0, content, subStream)]
  else
    let pl := DiePlan.ofBytes p
    let d := ucDie x.target
    need (decide (g % 65536 = 0 ∧ g ≤ 2 ^ 24)) 4 content 0x0605 ++
    ((enum0 (records p 16 64 ns)).flatMap fun q =>
      shift (16 + 64 * q.1) (s.streamFails im d g pl.streams q.1 (StreamD.ofBytes q.2) q.2)) ++
    (enum0 (records p lb 32 nl)).flatMap fun q =>
      shift (lb + 32 * q.1) (s.lookFails im d pl.looks q.1 (LookD.ofBytes q.2) q.2)

/-! ### The checkpoint (R387, R391) -/

def copied (t : Tensor) : Bool := t.role == 2 || t.role == 6 || t.role == 8

/-- The die a tensor is charged to (R387). -/
def Tensor.chargedTo (t : Tensor) : Nat :=
  if t.place = 0 ∨ (t.place = 1 ∧ t.home ≠ packageCode) then ucDie t.home else t.id % 4

/-- FLT.CKPT_NEED of die `n`. -/
def State.ckptNeed (s : State) (n : Nat) : Nat :=
  let e := s.embD
  let part := ((s.tensors.filter fun t => copied t && t.chargedTo == n).map fun t => t.bytes / max 1 t.stash).sum
  let undo := (e.tables.map fun t => s.fld Reg.fltCkptCtrlUndoSteps * t.uniqueMax * (e.stride t + 16)).sum
  let banks := ((e.tables.filter fun t => t.staleness == 1).map fun t => t.uniqueMax * t.pendSlot).sum
  part + undo + if s.fldB Reg.fltCkptCtrlRound then 2 * part + 2 * banks else 0

def State.checkpointErr (s : State) (im : Image) : Option LoadErr :=
  if !s.fldB Reg.fltCkptCtrlEnable then none
  else if (List.range 4).any fun n => decide (s.fld (Reg.fltCkptSizeBytes n) < s.ckptNeed n) then some (plainErr 0x15)
  else if (List.range 4).any fun n =>
      s.clashes im ⟨4, n, s.fld (Reg.fltCkptBaseBase n), s.fld (Reg.fltCkptSizeBytes n)⟩ [0, 1, 2, 3] then
    some ⟨content, noSection, 0x0B01⟩
  else none

end Sys2Proof.Machine
end

