-- ==== Sys2Proof/Machine/ContentHub.lean ====
section
/-! DEFINITION. Content checks of FEATURE_ENCODER, BRAMBLE_SLICE and REPLY_TEMPLATES sections (R277 to R292, R308). -/

namespace Sys2Proof.Machine

def subField : Nat := 0x0802

/-! ### FEATURE_ENCODER -/

/-- WIDTH allowed for a TYPE (Table 8.1). -/
def widthOk (type width : Nat) : Bool :=
  match type with
  | 0 => width == 2
  | 1 => [1, 2, 4, 8].contains width
  | 2 => [1, 2, 4, 8].contains width
  | 3 => [2, 4, 8].contains width
  | 4 => width == 2
  | _ => false

/-- Anchor, type, width, sentinel and ARG of a field record (R279, R282). -/
def fieldForm (r : List Byte) : Fails :=
  let anchor := le r 0 1
  let last := le r 4 2 + le r 2 1
  if 6 < anchor ∨ 1 < le r 3 1 ∨ le r 14 2 ≠ 0 then [(0, content, subField)]
  else if anchor = 6 then need (le r 1 1 == 3 && le r 2 1 == 0) 1 content subField
  else
    need (widthOk (le r 1 1) (le r 2 1)) 1 content subField ++
    need (decide (last ≤ if anchor = 5 then 26 else 1024) && le r 6 2 == 0) 4 content subField

def risingCuts : List Nat → Bool
  | a :: b :: rest => decide (a < b) && risingCuts (b :: rest)
  | _ => true

/-- R280 over a field's cuts. -/
def cutFails (p : List Byte) (cutBase nc : Nat) (r : List Byte) : Fails :=
  let b := le r 8 4
  let n := le r 12 2
  need (decide (n ≤ 65533 ∧ b + n ≤ nc) && (le r 1 1 != 0 || n == 0 || le r 0 1 == 6) &&
    risingCuts ((List.range n).map fun i => le p (cutBase + 8 * (b + i)) 8)) 8 content 0x0803

/-- R282 over the DOT fields of one set, at their record offsets. -/
def State.dotFails (s : State) (fs : List (Nat × List Byte)) : Fails :=
  let e := s.embD
  let dots := fs.filter fun q => le q.2 0 1 == 6
  let idx (i : Nat) : Bool :=
    match fs[i]? with
    | some (_, r) => le r 0 1 != 6 && le r 1 1 == 1 && (le r 2 1 == 4 || le r 2 1 == 8)
    | none => false
  let raw (d : NtsD) (t : TableD) : Nat := (if d.fmt = fmtSq8 then 4 else 0) + t.dimUsed * (fmtBits d.fmt / 8)
  let slots (a b : Nat) : Bool :=
    match e.slots[a]?, e.slots[b]? with
    | some x, some y =>
      match e.tables[x.table]?, e.tables[y.table]? with
      | some tx, some ty => tx.dimUsed == ty.dimUsed && (x.fmt == fmtSq8) == (y.fmt == fmtSq8) &&
          decide (raw x tx ≤ 512) && decide (raw y ty ≤ 512)
      | _, _ => false
    | _, _ => false
  (enum0 dots).flatMap fun q =>
    let r := q.2.2
    need (decide (q.1 < 8) && idx (le r 4 1) && idx (le r 5 1) && slots (le r 6 1) (le r 7 1)) (q.2.1 + 4) content subField

def State.encoderFails (s : State) (p : List Byte) : Fails :=
  let nm := le p 0 2
  let ns := le p 2 1
  let nf := le p 4 2
  let nc := le p 8 4
  let sb := 16 + 4 * nm
  let fb := sb + 8 * ns
  let cb := fb + 16 * nf
  let bad (ok : Bool) (off : Nat) : Fails := need ok off content 0x0801
  if 2 ^ 20 < nc then [(8, 0x15, 0)]
  else if 256 < nm ∨ ¬(1 ≤ ns ∧ ns ≤ 64) ∨ ¬(1 ≤ nf ∧ nf ≤ 16384) ∨ le p 3 1 ≠ 0 ∨ le p 6 2 ≠ 0 ∨ le p 12 4 ≠ 0 ∨
      p.length < cb + 8 * nc then [(0, content, 0x0801)]
  else
    let models := records p 16 4 nm
    let fields := records p fb 16 nf
    ((enum0 models).flatMap fun q =>
      bad (!((models.take q.1).any fun r => le r 0 2 == le q.2 0 2) && decide (le q.2 2 1 < ns) && le q.2 3 1 == 0)
        (16 + 4 * q.1)) ++
    ((enum0 (records p sb 8 ns)).flatMap fun q =>
      let o := sb + 8 * q.1
      let base := le q.2 0 2
      let n := le q.2 2 2
      if 256 < n then [(o + 2, 0x15, 0)]
      else if n = 0 ∨ nf < base + n ∨ le q.2 4 4 ≠ 0 then [(o, content, 0x0801)]
      else s.dotFails ((List.range n).map fun i => (fb + 16 * (base + i), sliceBytes p (fb + 16 * (base + i)) 16))) ++
    (enum0 fields).flatMap fun q => shift (fb + 16 * q.1) (fieldForm q.2 ++ cutFails p cb nc q.2)

/-! ### BRAMBLE_SLICE -/

/-- A walk over a general tree's nodes: nodes and leaves in the order reached. -/
def treeReach (b : List Byte) (base : Nat) : Nat → List Nat → List Nat × List Nat → List Nat × List Nat
  | 0, _, acc => acc
  | _ + 1, [], acc => acc
  | f + 1, k :: todo, acc =>
    let n := nodeAt b (base + k)
    let kids := [le n 4 2, le n 6 2]
    treeReach b base f (todo ++ (kids.filter fun c => decide (c < 0x8000)).map (· % 256))
      (acc.1 ++ [k], acc.2 ++ (kids.filter fun c => decide (0x8000 ≤ c)).map (· % 256))

/-- R286 for one tree record. -/
def treeOk (b t : List Byte) : Bool :=
  let size := le t 1 1
  let nb := le t 4 4
  let lb := le t 8 4
  let node (i : Nat) : List Byte := nodeAt b (nb + i)
  let comps := (List.range size).all fun i => decide (le (node i) 0 4 < sComp b)
  let clean := decide (le t 2 1 < sOut b ∧ le t 3 1 = 0 ∧ le t 12 4 = 0)
  if le t 0 1 = 1 then
    clean && decide (1 ≤ size ∧ size ≤ 12 ∧ nb + size ≤ sNode b ∧ lb + 2 ^ size ≤ sLeaf b) && comps &&
    (List.range size).all fun i => le (node i) 4 4 == 0
  else if le t 0 1 = 0 then
    clean && decide (lb + size + 1 ≤ sLeaf b) &&
    (size == 0 ||
      (decide (nb + size ≤ sNode b) && comps &&
        ((List.range size).all fun i => [le (node i) 4 2, le (node i) 6 2].all fun c =>
          decide (c / 256 % 128 = 0) && decide (c % 256 < size + c / 0x8000)) &&
        let r := treeReach b nb (2 * size + 2) [0] ([], [])
        (List.range size).all (fun k => (r.1.filter (· == k)).length == 1) &&
        (List.range (size + 1)).all fun k => (r.2.filter (· == k)).length == 1))
  else false

/-- R287 for one output record. -/
def outputOk (r : List Byte) : Bool :=
  let bias := sext 64 (le r 0 8)
  decide (-(2 ^ 46 : Int) < bias ∧ bias < 2 ^ 46) && decide (le r 8 1 ≤ 31 ∧ le r 9 1 ≤ 2) &&
  (le r 10 1 == 1 || (le r 10 1 == 8 && le r 9 1 == 0)) && allZero (r.drop 11)

/-- R288 to R290 for slice `j`. -/
def State.pairFails (s : State) (im : Image) (j : Nat) (b : List Byte) : Fails :=
  let pair := sPair b
  let bad (ok : Bool) (off : Nat) : Fails := need ok off content 0x0807
  let twinned := !(s.fldB Reg.chkTwinCtrlEnable && bit im.flags 1) || pair == 3 || pair == 4
  if pair = 0 then bad twinned 3
  else
    let lead := pair == 1 || pair == 3
    let other := s.payload 0x0011 (sliceCode (j ^^^ 1))
    let outs := (List.range (sOut b)).all fun o => le (sliceBytes b (32 + 16 * o) 8) 0 8 == 0
    let even := j % 2 == 0
    bad (twinned && even == lead && other != [] && sPair other == (if lead then pair + 1 else pair - 1) &&
      le b 0 2 == le other 0 2 && le b 2 1 == le other 2 1 && le b 4 1 == le other 4 1 && sOut b == sOut other) 3 ++
    bad (pair != 2 || outs) 32 ++
    bad (pair != 4 || (b.take 3 == other.take 3 && b.drop 4 == other.drop 4)) 32

def State.sliceFails (s : State) (im : Image) (x : Section) : Fails :=
  let b := x.payload
  let enc := s.payload 0x0010 hubCode
  let range (v lim off : Nat) : Fails := if lim < v then [(off, 0x15, 0)] else need (v != 0) off content 0x0804
  let pre := range (sOut b) 16 5 ++ range (sComp b) 131072 8 ++ range (sTree b) 4096 12 ++
    range (sNode b) 1044480 16 ++ range (sLeaf b) (2 ^ 20) 20 ++
    need (decide (sPair b ≤ 4) && le b 6 2 == 0 && le b 14 2 == 0 && allZero (sliceBytes b 24 8)) 3 content 0x0804
  if !pre.isEmpty then pre
  else if b.length < sLeafBase b + 4 * sLeaf b then [(0, content, 0x0804)]
  else
    let set := le b 2 1
    let fields := (encFields enc set).length
    need (decide (set < le enc 2 1)) 2 content 0x0804 ++
    need (decide (le b 4 1 < le (s.payload 0x0012 hubCode) 0 1)) 4 content 0x0808 ++
    s.pairFails im (ucCluster x.target) b ++
    ((enum0 (records b 32 16 (sOut b))).flatMap fun q => need (outputOk q.2) (32 + 16 * q.1) content 0x0806) ++
    ((enum0 (records b (sCompBase b) 4 (sComp b))).flatMap fun q =>
      need (decide (le q.2 0 1 < fields) && le q.2 1 1 == 0) (sCompBase b + 4 * q.1) content 0x0804) ++
    (enum0 (records b (sTreeBase b) 16 (sTree b))).flatMap fun q =>
      need (treeOk b q.2) (sTreeBase b + 16 * q.1) content 0x0805

/-! ### REPLY_TEMPLATES -/

def templateOk (r : List Byte) : Bool :=
  decide (le r 0 1 ≤ 1 ∧ le r 1 1 ≤ 7 ∧ le r 2 1 ≤ 3 ∧ le r 3 1 < 4 ∧ 64 ≤ le r 4 2 ∧ le r 4 2 ≤ 16128 ∧ 1 ≤ le r 6 1 ∧
    le r 7 1 < 64) && allZero (r.drop 10)

def templateFails (p : List Byte) : Fails :=
  let n := le p 0 1
  if ¬(1 ≤ n ∧ n ≤ 64) ∨ !allZero (sliceBytes p 1 15) ∨ p.length < 16 + 32 * n then [(0, content, 0x0808)]
  else (enum0 (records p 16 32 n)).flatMap fun q => need (templateOk q.2) (16 + 32 * q.1) content 0x0808

end Sys2Proof.Machine
end

