-- ==== Sys2Proof/Machine/Order.lean ====
section
/-! DEFINITION. The order of an image's schedule entries and Press jobs: events, cycles, stash depths and the
staleness rule (R128, R143, R144, R165, R180), and all content checks together (R94). -/

namespace Sys2Proof.Machine

/-- A schedule entry or a Press job: where its record stands, its die, its events, the node before it in its table. -/
structure Node where
  sec : Nat
  off : Nat
  die : Nat
  wait : Nat
  sig : Nat
  waitOff : Nat
  before : Option Nat
  entry : Option Ent
  job : Option Job
deriving DecidableEq, Repr

/-- Nodes of one table of records, numbered from `n`. -/
def chain (n : Nat) (l : List Node) : List Node :=
  (enum0 l).map fun q => { q.2 with before := if q.1 = 0 then none else some (n + q.1 - 1) }

def State.nodesOf (s : State) (sec : Nat) (x : Section) : List Node :=
  if x.kind = 0x0004 then
    let p := x.payload
    let o := 16 + 16 * le p 4 2 + 64 * le p 6 2
    (List.range (le p 0 4)).filterMap fun i =>
      (s.entryAt (ucDie x.target) (ucCluster x.target) (ucCore x.target) i).map fun en =>
        ⟨sec, o + 48 * i, ucDie x.target, en.e.wait, en.e.signal, 8, none, some en, none⟩
  else if x.kind = 0x0003 then
    let p := x.payload
    let o := 16 + 16 * le p 0 2
    (enum0 (ClusterPlan.ofBytes p).jobs).map fun q =>
      ⟨sec, o + 64 * q.1, ucDie x.target, q.2.wait, q.2.signal, 4, none, none, some q.2⟩
  else []

def State.nodes (s : State) (im : Image) : List Node :=
  (enum0 im.sections).foldl (fun acc q => acc ++ chain acc.length (s.nodesOf q.1 q.2)) []

def Node.sets (x : Node) (die ev : Nat) : Bool := x.die == die && x.sig != 0xFFFF && x.sig == ev

/-- Index of the node that sets the event a WAIT field names. -/
def setterOf (ns : List Node) (w : Nat) : Option Nat :=
  ((enum0 ns).find? fun q => q.2.sets (bits w 13 12) (bits w 11 0)).map Prod.fst

/-- Events set twice, or waited on and never set (R128). -/
def eventFails (ns : List Node) : List Issue :=
  (enum0 ns).flatMap fun q =>
    let x := q.2
    (if x.sig != 0xFFFF && (ns.take q.1).any fun y => y.sets x.die x.sig then
      [⟨x.sec, x.off + x.waitOff + 2, content, subEvent⟩] else []) ++
    if x.wait != 0xFFFF && (setterOf ns x.wait).isNone then [⟨x.sec, x.off + x.waitOff, content, subEvent⟩] else []

/-! ### Weights -/

def Node.updates (x : Node) : Option Tensor :=
  match x.entry with
  | some en => if en.e.op = 0x10 then en.slotTensor 0 else none
  | none => none

def Node.wver (x : Node) : Nat := match x.entry with | some en => en.e.wver | none => 0xFF

/-- The node reads a weight. -/
def Node.readsW (x : Node) (t : Nat) : Bool :=
  match x.entry with
  | some en => en.weightReads.any fun w => w.id == t
  | none => false

def updatesOf (ns : List Node) (t : Nat) : List (Nat × Node) :=
  (enum0 ns).filter fun q => match q.2.updates with | some w => w.id == t | none => false

/-- The edges of R128: table order on one core, and event waits. -/
def edgesOf (ns : List Node) (x : Node) : List Nat :=
  x.before.toList ++ if x.wait = 0xFFFF then [] else (setterOf ns x.wait).toList

/-- Nodes that must retire before a node issues: those of its edges, and the update that creates the version it
reads. -/
def predsOf (ns : List Node) (x : Node) : List Nat :=
  edgesOf ns x ++
  match x.entry with
  | none => []
  | some en =>
    if en.e.wver = 0xFF ∨ en.e.wver = 0 then []
    else en.stashReads.flatMap fun t => ((updatesOf ns t.id).filter fun u => u.2.wver + 1 == en.e.wver).map Prod.fst

/-- One round of closing the ancestors, as bit masks. -/
def closeRound (preds : List (List Nat)) (anc : List Nat) : List Nat :=
  preds.map fun ps => ps.foldl (fun m p => m ||| 2 ^ p ||| anc.getD p 0) 0

def closeAnc (preds : List (List Nat)) : Nat → List Nat → List Nat
  | 0, anc => anc
  | f + 1, anc => closeAnc preds f (closeRound preds anc)

def ancestors (ns : List Node) : List Nat :=
  closeAnc (ns.map (predsOf ns)) ns.length (ns.map fun _ => 0)

/-- Ancestors by the edges of R128 alone. -/
def edgeAncestors (ns : List Node) : List Nat :=
  closeAnc (ns.map (edgesOf ns)) ns.length (ns.map fun _ => 0)

def isAnc (anc : List Nat) (a b : Nat) : Bool := bit (anc.getD b 0) a

/-! ### What must have happened (R128, R144, R153)

Node `i` issues in fact 2i and retires in fact 2i + 1. -/

/-- Earlier nodes of the same core, with their entries. -/
def earlierOf (ns : List Node) (i : Nat) (x : Node) : List (Nat × Ent) :=
  (enum0 (ns.take i)).filterMap fun q => if q.2.sec = x.sec then q.2.entry.map fun e => (q.1, e) else none

/-- Nodes of an EXCHANGE's participants in this package. -/
def State.peerNodes (s : State) (ns : List Node) (x : Ent) : List Nat :=
  if x.e.op ≠ 0x11 then []
  else
    let ps := (s.exchangePeers x).map fun y => (y.die, y.cl, y.core, y.idx)
    (enum0 ns).filterMap fun q => q.2.entry.bind fun e =>
      if ps.contains (e.die, e.cl, e.core, e.idx) then some q.1 else none

/-- Two entries move bytes through one stream in one direction. -/
def sameStream (x y : Ent) : Bool :=
  x.streamBytes.any fun p => y.streamBytes.any fun q => p.1 == q.1 && p.2.1 == q.2.1

/-- Facts before a node issues: the issue of the node before it in its table, the retirement of the setter of its event, of
the update that creates its version, and of an earlier entry that R143 orders before it. -/
def issueAfter (ns : List Node) (i : Nat) (x : Node) : List Nat :=
  (x.before.toList.map fun b => 2 * b) ++
  (((predsOf ns x).filter fun p => x.before != some p).map fun p => 2 * p + 1) ++
  (x.before.toList.filterMap fun b => if x.wait != 0xFFFF && setterOf ns x.wait == some b then some (2 * b + 1) else none) ++
  match x.entry with
  | some e => ((earlierOf ns i x).filter fun q => e.ordered q.2).map fun q => 2 * q.1 + 1
  | none => []

/-- Facts before a node retires: its issue, that of an EXCHANGE's other participants, and the retirement of earlier entries
that use one of its streams. -/
def State.retireAfter (s : State) (ns : List Node) (i : Nat) (x : Node) : List Nat :=
  2 * i :: match x.entry with
  | some e => ((s.peerNodes ns e).map fun p => 2 * p) ++
      ((earlierOf ns i x).filter fun q => sameStream e q.2).map fun q => 2 * q.1 + 1
  | none => []

def State.factPreds (s : State) (ns : List Node) : List (List Nat) :=
  (enum0 ns).flatMap fun q => [issueAfter ns q.1 q.2, s.retireAfter ns q.1 q.2]

/-- Nodes that wait for themselves. -/
def cycleFails (ns : List Node) (facts : List Nat) : List Issue :=
  (enum0 ns).flatMap fun q =>
    if isAnc facts (2 * q.1) (2 * q.1) || isAnc facts (2 * q.1 + 1) (2 * q.1 + 1) then [⟨q.2.sec, q.2.off, content, 0x0406⟩]
    else []

/-- Reads of a weight with one version that no edge orders against an update (R143). -/
def unorderedFails (ns : List Node) (anc : List Nat) : List Issue :=
  (enum0 ns).flatMap fun r =>
    match r.2.entry with
    | none => []
    | some en =>
      let ts := en.weightReads.filter fun t => t.stash == 1
      if ts.any fun t => (updatesOf ns t.id).any fun u =>
          u.1 != r.1 && !isAnc anc u.1 r.1 && !isAnc anc r.1 u.1 then
        [⟨r.2.sec, r.2.off + 7, content, subStash⟩]
      else []

/-- WVER inconsistent with the updates, or a stash too small for the fewest versions that must be live when an update
issues (R143, R144). -/
def stashFails (ns : List Node) (anc : List Nat) : List Issue :=
  (enum0 ns).flatMap fun r =>
    match r.2.entry with
    | none => []
    | some en =>
      let bad : List Issue := [⟨r.2.sec, r.2.off + 7, content, subStash⟩]
      if en.e.wver ≠ 0xFF ∧ en.e.wver ≠ 0 ∧
          en.stashReads.any (fun t => !(updatesOf ns t.id).any fun u => u.2.wver + 1 == en.e.wver) then bad
      else
        match r.2.updates with
        | none => []
        | some t =>
          if t.stash ≤ 1 then []
          else
            let us := updatesOf ns t.id
            let n := en.e.wver
            let live := (List.range (n + 1)).filter fun v => v == n ||
              (enum0 ns).any fun q => q.2.wver == v && q.2.readsW t.id && isAnc anc r.1 q.1
            if us.any (fun u => u.1 != r.1 && u.2.wver == n) ∨ t.stash ≤ live.length then bad else []

/-! ### Every entry issues (R128, R144) -/

/-- Fact `f` can happen once the facts of `done` have: an update also needs a free copy of its stash. -/
def canHappen (ns : List Node) (preds : List (List Nat)) (done f : Nat) : Bool :=
  (preds.getD f []).all (bit done) &&
  (f % 2 == 1 ||
  match ns[f / 2]? with
  | none => false
  | some x =>
    match x.updates with
    | none => true
    | some t =>
      if t.stash ≤ 1 then true
      else
        let live := (List.range (x.wver + 1)).filter fun v => v == x.wver ||
          (enum0 ns).any fun q => q.2.wver == v && q.2.readsW t.id && !bit done (2 * q.1 + 1)
        decide (live.length < t.stash))

def happenRound (ns : List Node) (preds : List (List Nat)) (done : Nat) : Nat :=
  (List.range preds.length).foldl (fun r f => if canHappen ns preds r f then r ||| 2 ^ f else r) done

def happenAll (ns : List Node) (preds : List (List Nat)) : Nat → Nat → Nat
  | 0, done => done
  | f + 1, done => happenAll ns preds f (happenRound ns preds done)

/-- Entries that no order lets issue, where every single stash is deep enough. -/
def stuckFails (ns : List Node) (preds : List (List Nat)) : List Issue :=
  let done := happenAll ns preds preds.length 0
  (enum0 ns).flatMap fun q => if bit done (2 * q.1 + 1) then [] else [⟨q.2.sec, q.2.off, content, 0x0406⟩]

/-- R180: an UPDATE of a table without delay follows every COMBINE of the table on its die. -/
def State.stalenessFails (s : State) (ns : List Node) (anc : List Nat) : List Issue :=
  (enum0 ns).flatMap fun u =>
    match u.2.job with
    | none => []
    | some j =>
      match s.embD.tables[j.table]? with
      | none => []
      | some t =>
        if j.kind ≠ 3 ∨ t.staleness ≠ 0 then []
        else if (enum0 ns).all fun c =>
            match c.2.job with
            | some k => !(k.kind == 2 && k.table == j.table && c.2.die == u.2.die) || isAnc anc c.1 u.1
            | none => true then []
        else [⟨u.2.sec, u.2.off, content, 0x0509⟩]

def State.orderFails (s : State) (im : Image) : List Issue :=
  let ns := s.nodes im
  let anc := ancestors ns
  let ev := eventFails ns
  let facts := s.factPreds ns
  let cyc := cycleFails ns (closeAnc facts facts.length (facts.map fun _ => 0))
  if !cyc.isEmpty then ev ++ cyc
  else
    let st := stashFails ns anc
    let edges := edgeAncestors ns
    ev ++ st ++ unorderedFails ns edges ++ s.stalenessFails ns edges ++
      if ev.isEmpty && st.isEmpty then stuckFails ns facts else []

/-! ### All contents -/

def State.sectionFails (s : State) (im : Image) (x : Section) : Fails :=
  match x.kind with
  | 0x0001 => s.tensorFails im x
  | 0x0002 => s.dieFails im x
  | 0x0003 => s.planFails im x
  | 0x0004 => s.scheduleFails x
  | 0x0005 => engineFails x.payload ++ s.engineRoutes x
  | 0x0006 => s.embFails im x.payload
  | 0x0007 => generatorFails x.payload
  | 0x0010 => s.encoderFails x.payload
  | 0x0011 => s.sliceFails im x
  | 0x0012 => templateFails x.payload
  | 0x00F0 => s.initFails im x
  | _ => []

/-- Step 13 of R94. -/
def State.contentErr (s : State) (im : Image) : Option LoadErr :=
  let v := s.withImage im
  let own := (enum0 im.sections).flatMap fun q => inSection q.1 (v.sectionFails im q.2)
  (firstIssue (own ++ v.orderFails im)).map Issue.err

end Sys2Proof.Machine
end

