-- ==== Sys2Proof/Machine/Load.lean ====
section
/-! DEFINITION. Load operations up to distribution: requests, checks, full loads, UNLOAD, the hub part of a partial
reload, and state epochs (R97 to R108, R121, R301, R302). -/

namespace Sys2Proof.Machine

/-! ### Selections (R101, R106) -/

/-- KIND_MASK bit of a kind. -/
def kindBit (kind : Nat) : Option Nat :=
  match kind with
  | 0x0002 => some 0
  | 0x0003 => some 1
  | 0x0004 => some 2
  | 0x0005 => some 3
  | 0x00F0 => some 4
  | 0x0010 => some 8
  | 0x0011 => some 9
  | 0x0012 => some 10
  | _ => none

def kindBits : Nat := 0x071F

/-- The section is replaced under the selection of a LOAD_CTRL value. -/
def selects (v : Nat) (x : Section) : Bool :=
  match kindBit x.kind, kindInfo x.kind with
  | some b, some (lvl, _) =>
    bit x.flags 1 && bit (Reg.cfgLoadCtrlKindMask.of v) b &&
    match lvl with
    | .die => bit (Reg.cfgLoadCtrlDieMask.of v) (ucDie x.target)
    | .hub => bit v 12
    | .slice => bit v 12 && bit (Reg.cfgLoadCtrlClusterMask.of v) (ucCluster x.target)
    | _ => bit (Reg.cfgLoadCtrlDieMask.of v) (ucDie x.target) &&
        bit (Reg.cfgLoadCtrlClusterMask.of v) (ucCluster x.target)
  | _, _ => false

def isHubKind (k : Nat) : Bool := k == 0x0010 || k == 0x0011 || k == 0x0012

/-- A partial reload takes its sections from the image at LOAD_ADDR. -/
def fromNew (v : Nat) : Bool := bit v 2

/-! ### Requests (R97, R105, R107) -/

def LoadOp.code : LoadOp → Nat
  | .full => 0
  | .part => 1
  | .check => 2
  | .unload => 3

/-- The value of a LOAD_CTRL write that starts operation `op`: OP as the operation, GO set, reserved bits 0. -/
def loadValue (op : LoadOp) (v : Word) : Nat :=
  let n := v.toNat
  op.code + 2 ^ 2 * bits n 2 2 + 2 ^ 8 * bits n 12 8 + 2 ^ 16 * bits n 31 16 + 2 ^ 32 * (bits n 47 32 &&& kindBits) + 2 ^ 63

/-- LOAD_CTRL holds what was written; GO is write-only. -/
def State.setLoadCtrl (s : State) (n : Nat) : State := s.setReg Reg.cfgLoadCtrl (BitVec.ofNat 64 (setBits n 63 63 0))

def State.loadAllowed (s : State) (op : LoadOp) : Bool :=
  let st := s.loadState
  match op with
  | .full => st == loadEmpty || st == loadLoaded || st == loadFault
  | .part => st == loadLoaded || st == loadRunning
  | .check => true
  | .unload => st == loadLoaded || st == loadFault

def State.setJob (s : State) (j : Option LoadJob) : State := { s with cfg := { s.cfg with load := j } }

/-- The load operation ends with a code. -/
def State.endLoad (s : State) (e : LoadErr) : State :=
  ((s.setJob none).setLoadCode e.code e.sec e.detail).setBusy s.flt.stopKind.isSome

def State.setImage (s : State) (im : Option Image) : State :=
  let s := { s with cfg := { s.cfg with image := im } }
  match im with
  | some i => s.setReg Reg.cfgImageId (BitVec.ofNat 64 i.imageId)
  | none => (List.range 4).foldl (fun (s : State) n => s.setFld (Reg.fltCkptNeedNeed n) 0) (s.setReg Reg.cfgImageId 0)

def State.setBuffer (s : State) (b : Option (Nat × Nat)) : State := { s with cfg := { s.cfg with buffer := b } }

/-- Every slice stops at the start of distribution: its waiting frames go to their FAIL_TARGET, and later ones find it
unavailable while the state is DISTRIBUTING (R104). -/
def State.haltSlices (s : State) : State :=
  let queues := s.wire.sliceQueues
  let s := { s with wire := { s.wire with sliceQueues := [] } }
  queues.foldl (fun (s : State) q => q.2.foldl (fun (s : State) i =>
    match s.frame i with
    | some f => s.failEvaluation i q.1 f
    | none => s) s) s

/-- Another hub copy becomes the active one (R301). -/
def State.switchModel (s : State) (m : HubModel) : State :=
  { s with wire := { s.wire with oldModel := s.wire.model, model := m, shadow := none, swaps := s.wire.swaps + 1 } }

/-- Every slice stops and none is loaded. -/
def State.stopSlices (s : State) : State := s.haltSlices.switchModel HubModel.init

/-- The state of a job that no longer exists: sequencers, Presses, tables, serving slots, checkpoints and pips. -/
def State.clearJob (s : State) : State :=
  let s := { s with dense := DenseState.init, emb := EmbState.init, crossings := [] }
  let s := { s with flt := { s.flt with
    copy := none, undo := [], rounds := [], copying := false, copyDue := false, roundDue := false, echoHold := false } }
  { s with chk := { s.chk with pips := [], digest := (0, 0), ledgerSum := [], rounds := [], ledgers := [],
                               twinPending := [], epochsIn := [], poisonNoted := false } }

def State.unload (s : State) : State :=
  let s := ((s.stopSlices.setImage none).setBuffer none).clearJob
  (s.setRun RunState.init).setLoadState loadEmpty

/-- A LOAD_CTRL write with GO. ADDR must be aligned for every operation (R105), and lie in tier 1 or tier 2 where one
reads an image there (R99). -/
def State.loadRequest (s : State) (op : LoadOp) (v : Word) : State :=
  let n := loadValue op v
  let s := s.onReady fun s => s.setLoadCtrl n
  let a := s.fld Reg.cfgLoadAddrAddr
  let readsImage := op == .full || op == .check || (op == .part && fromNew n)
  if s.busy || !s.loadAllowed op then s.setLoadCode 1 noSection 0
  else if a % 4096 ≠ 0 || (readsImage && !s.inTiers a 1) then s.setLoadCode 0x19 noSection 0
  else if op = .unload then (s.unload).setLoadCode 0 noSection 0
  else
    let s := s.setJob (some ⟨op, n, a, .checking, none, false, false, none, s.loadState⟩)
    let s := s.setBusy true
    if op = .full then s.setLoadState loadChecking else s

def execLoadFull (value : Word) (s : State) : Host.Outcome State Fault Refusal :=
  done (s.onSteward fun s => s.loadRequest .full value)

def execLoadPartial (value : Word) (s : State) : Host.Outcome State Fault Refusal :=
  done (s.onSteward fun s => s.loadRequest .part value)

def execLoadCheck (value : Word) (s : State) : Host.Outcome State Fault Refusal :=
  done (s.onSteward fun s => s.loadRequest .check value)

def execLoadUnload (value : Word) (s : State) : Host.Outcome State Fault Refusal :=
  done (s.onSteward fun s => s.loadRequest .unload value)

/-! ### The checks -/

/-- A loaded section as its buffer holds it now (R100). -/
def State.rehash (s : State) (im : Image) : Image :=
  { im with sections := im.sections.map fun x => { x with payload := s.read (im.addr + x.offset) x.length } }

def Image.sameShape (a b : Image) : Bool :=
  a.imageId / 2 ^ 32 == b.imageId / 2 ^ 32 && a.sections.length == b.sections.length && a.clusters == b.clusters &&
  a.dieMask == b.dieMask && a.sliceMask == b.sliceMask && a.flags == b.flags && a.features == b.features

/-- R102. -/
def lineageOk (v : Nat) (old new : Image) : Bool :=
  old.sameShape new && (old.sections.zip new.sections).all fun p =>
    p.1.kind == p.2.kind && p.1.target == p.2.target && p.1.flags == p.2.flags &&
    (selects v p.2 || p.1.digest == p.2.digest)

/-- R302: the encoder with every slice, a slice with the other of its pair. -/
def hubSelectionOk (v : Nat) (im : Image) : Bool :=
  let chosen := im.sections.filter (selects v)
  let js := (chosen.filter fun x => x.kind == 0x0011).map fun x => ucCluster x.target
  let all := (slicesOf im.sliceMask).all js.contains
  (!(chosen.any fun x => x.kind == 0x0010) || all) &&
  chosen.all fun x => x.kind != 0x0011 || sPair x.payload == 0 || js.contains (Nat.xor (ucCluster x.target) 1)

/-- The checks of a partial reload on the image its sections come from. -/
def State.partialErr (s : State) (v : Nat) (im : Image) : Option LoadErr :=
  let lineage := match s.cfg.image with
    | some old => lineageOk v old im
    | none => false
  if fromNew v && !lineage then some (plainErr 0x17)
  else if !im.sections.any (selects v) then some (plainErr 0x18)
  else if !hubSelectionOk v im then some ⟨content, noSection, 0x0809⟩
  else
    match firstSection im.sections fun _ x => selects v x && sha384 x.payload != x.digest with
    | some i => some ⟨0x0B, i, 0⟩
    | none => if s.fld Reg.cfgEpochEpoch = 0xFFFFFFFF then some (plainErr 0x1B) else none

/-- The image a job's sections come from. -/
def State.jobImage (s : State) (j : LoadJob) : Image :=
  match j.op, s.cfg.image with
  | .part, some old => if fromNew j.ctrl then s.parseImage j.addr else s.rehash old
  | _, _ => s.parseImage j.addr

/-- Every check of a job in the order of R94, digests and contents included, then those of its operation: a partial reload's
lineage and selection come last (the spec leaves their place open: DESIGN CHOICE, log entry 72). -/
def State.jobErr (s : State) (j : LoadJob) : Option LoadErr :=
  let im := s.jobImage j
  let new := j.op != .part || fromNew j.ctrl
  match (if new then s.imageErr j.addr else none) with
  | some e => some e
  | none =>
    match (if new then s.contentErr im else none) with
    | some e => some e
    | none =>
      match j.op with
      | .full => (s.withImage im).checkpointErr im
      | .part => s.partialErr j.ctrl im
      | _ => none

/-! ### Hub models (R300, R301) -/

/-- The hub sections of an image, over a model. -/
def HubModel.take (m : HubModel) (xs : List Section) : HubModel :=
  xs.foldl (fun (m : HubModel) x =>
    match x.kind with
    | 0x0010 => { m with encoder := x.payload }
    | 0x0011 => { m with slices := Tab.set [] (ucCluster x.target) x.payload m.slices }
    | 0x0012 => { m with templates := x.payload }
    | _ => m) m

/-! ### The end of the checks -/

/-- A full load has passed: CKPT_NEED follows the new image (R391). -/
def State.passFull (s : State) (j : LoadJob) (im : Image) : State :=
  let w := s.withImage im
  let s := (List.range 4).foldl (fun (s : State) n => s.setFld (Reg.fltCkptNeedNeed n) (w.ckptNeed n)) s
  (s.setJob (some { j with phase := .passed, image := some im })).setLoadCode 0 noSection 0

/-- A partial reload has passed: its compute sections wait for the seam, its hub sections go to the shadow copies. -/
def State.passPartial (s : State) (j : LoadJob) (im : Image) : State :=
  let chosen := im.sections.filter (selects j.ctrl)
  let dies := chosen.any fun x => !isHubKind x.kind
  let hubs := chosen.filter fun x => isHubKind x.kind
  let s := s.setJob (some { j with phase := .reloading, image := some im, dieDue := dies, hubDue := !hubs.isEmpty })
  let s := (s.setLoadCode 0 noSection 0).setFld Reg.cfgLoadStatusReloadPending (b2n dies)
  if hubs.isEmpty then s else { s with wire := { s.wire with shadow := some (s.wire.model.take hubs) } }

/-- R98: the checks end. A refusal changes nothing. -/
def State.loadCheckDone (s : State) : State :=
  match s.cfg.load with
  | none => s
  | some j =>
    if j.phase ≠ .checking ∨ s.flt.stopKind.isSome then s
    else
      match s.jobErr j with
      | some e => (if j.op = .full then s.setLoadState j.prev else s).endLoad e
      | none =>
        match j.op with
        | .full => s.passFull j (s.jobImage j)
        | .part => s.passPartial j (s.jobImage j)
        | _ => s.endLoad (plainErr 0)

def execLoadCheckDone (s : State) : Host.Outcome State Fault Refusal := done (s.onSteward fun s => s.loadCheckDone)

/-! ### Epochs (R121) -/

/-- A logical compute unit and those below it, each after its parent. -/
def State.logicalBelow (s : State) (u : Nat) : List Nat :=
  let d := ucDie u
  let engines (c k : Nat) : List Nat := (List.range 8).map (engineCode d c k)
  let cores (c : Nat) : List Nat := (List.range 8).flatMap fun k => coreCode d c k :: engines c k
  match levelOf u with
  | some .die => u :: (List.range (s.fld (Reg.cluCmapLogicalCount d))).flatMap fun c => clusterCode d c :: cores c
  | some .cluster => u :: cores (ucCluster u)
  | some .core => u :: engines (ucCluster u) (ucCore u)
  | some .engine => [u]
  | _ => []

/-- Physical codes of the mapped units of a logical unit and below it. -/
def State.unitsBelow (s : State) (u : Nat) : List Nat := (s.logicalBelow u).map s.physOf

/-- The parent of a logical unit (R122). -/
def parentUnit (u : Nat) : Nat :=
  match levelOf u with
  | some .engine => coreCode (ucDie u) (ucCluster u) (ucCore u)
  | some .core => clusterCode (ucDie u) (ucCluster u)
  | some .cluster => dieCode (ucDie u)
  | some .slice => hubCode
  | _ => u

def recordEpochs (e : Nat) (us : List Nat) (t : Tab Nat) : Tab Nat := us.foldl (fun t u => Tab.set 0 u e t) t

/-- The units named record an epoch. -/
def State.recordEpoch (s : State) (e : Nat) (us : List Nat) : State :=
  { s with cfg := { s.cfg with epochs := recordEpochs e us s.cfg.epochs } }

/-- Every unit records an epoch at a full load; those not mapped record 0. -/
def State.recordAll (s : State) (e : Nat) (im : Image) : State :=
  let dies := (List.range 4).filter fun d => !s.lostDie d
  let hub := if im.sliceMask = 0 then [] else hubCode :: (slicesOf im.sliceMask).map sliceCode
  { s with cfg := { s.cfg with epochs := recordEpochs e (hub ++ dies.flatMap fun d => s.unitsBelow (dieCode d)) [] } }

/-- CFG.EPOCH of a full load. -/
def nextEpoch (e : Nat) : Nat := if e = 0xFFFFFFFF then 1 else e + 1

/-- The one new epoch of a reload, taken when the first of its parts acts. -/
def State.reloadEpoch (s : State) (j : LoadJob) : Nat × State :=
  match j.epoch with
  | some e => (e, s)
  | none =>
    let e := min (s.fld Reg.cfgEpochEpoch + 1) 0xFFFFFFFF
    (e, (s.setFld Reg.cfgEpochEpoch e).setJob (some { j with epoch := some e }))

/-! ### Full loads (R98) -/

/-- SRAM of a range reads as unlisted, with no poison: scrubbed. -/
def State.scrubRange (s : State) (a n : Nat) : State :=
  let out (x : Nat) : Bool := !decide (a ≤ x ∧ x < a + n)
  { s with mem := s.mem.filter fun c => out c.1, mm := { s.mm with sramPoison := s.mm.sramPoison.filter out } }

/-- SRAM of every cluster that an image uses. -/
def State.scrubImage (s : State) (im : Image) : State :=
  (diesOf im.dieMask).foldl (fun (s : State) d =>
    (List.range im.clusters).foldl (fun (s : State) c => s.scrubRange (scratchAddr d c 0) 0x2000000) s) s

/-- INIT_DATA sections copied in table order (R90). -/
def State.copyInit (s : State) (xs : List Section) : State :=
  (xs.filter fun x => x.kind == 0x00F0).foldl (fun (s : State) x => s.write (le x.payload 0 8) (x.payload.drop 8)) s

/-- The kinds a hardware fault of a distribution may be recorded as. -/
def faultKind (f : Nat) : Nat := [0x0001, 0x0002, 0x0003, 0x0011].getD (f % 4) 1

/-- A hardware fault during distribution: FAULT, nothing loaded, CODE 0x30 and a record. SRAM and INIT_DATA destinations
keep the bytes they had, since a distribution writes them at its end (DESIGN CHOICE, log entry 176). -/
def State.loadFaultEnd (s : State) (op : LoadOp) : State :=
  let f := s.free
  let s := f.2.emit 1 (faultKind f.1) f.2.sitePackage (0x6000 + op.code) 0
  let s := ((s.stopSlices.setImage none).setBuffer none).clearJob
  let s := (s.setRun { RunState.init with atSeam := false }).setFld Reg.cfgLoadStatusReloadPending 0
  ((s.setLoadState loadFault).setFld Reg.timeLaunchStatusPending 0).endLoad ⟨0x30, noSection, 0⟩

def State.loadDistribute (s : State) (hwFault : Bool) : State :=
  match s.cfg.load with
  | none => s
  | some j =>
    if j.op ≠ .full ∨ j.phase ≠ .passed ∨ s.cfg.pendingGroups ≠ [] ∨ s.flt.stopKind.isSome then s
    else
      let s := (s.setJob (some { j with phase := .distributing })).setLoadState loadDistributing
      if hwFault then s.loadFaultEnd .full else s.haltSlices

def execLoadDistribute (hwFault : Bool) (s : State) : Host.Outcome State Fault Refusal :=
  done (s.onSteward fun s => s.loadDistribute hwFault)

/-- The new image is loaded. -/
def State.installFull (s : State) (im : Image) : State :=
  let s := s.clearJob.scrubImage im
  let s := s.copyInit im.sections
  let e := nextEpoch (s.fld Reg.cfgEpochEpoch)
  let s := (s.setFld Reg.cfgEpochEpoch e).recordAll e im
  let s := (s.setReg Reg.cfgStep 0).setImage (some im)
  let s := s.setBuffer (some (im.addr, im.totalLength))
  let m := { HubModel.init.take im.sections with
             epochs := recordEpochs e (if im.sliceMask = 0 then [] else slicesOf im.sliceMask) [] }
  let s := s.switchModel m
  let s := (List.range 4).foldl (fun (s : State) d =>
    ((s.setFld (Reg.cluStashStatMaxLive d) 0).setFld (Reg.cluStashStatStalled d) 0).setFld
      (Reg.cluStashStatStallTensor d) 0xFFFF) s
  let s := s.setReg Reg.chkEchoAgreed (resetWord Reg.chkEchoAgreed)
  (s.setRun RunState.init).setLoadState loadLoaded

def State.loadDistributionDone (s : State) (hwFault : Bool) : State :=
  match s.cfg.load with
  | none => s
  | some j =>
    match j.image with
    | none => s
    | some im =>
      if j.op ≠ .full ∨ j.phase ≠ .distributing ∨ s.flt.stopKind.isSome then s
      else if hwFault then s.loadFaultEnd .full
      else (s.installFull im).endLoad (plainErr 0)

def execLoadDistributionDone (hwFault : Bool) (s : State) : Host.Outcome State Fault Refusal :=
  done (s.onSteward fun s => s.loadDistributionDone hwFault)

/-! ### Parts of a partial reload -/

/-- Sections of the loaded image with the payloads and digests of the job's at the same table index, where chosen. -/
def replaceSections (old new : Image) (which : Section → Bool) : Image :=
  { old with sections := (old.sections.zip new.sections).map fun p => if which p.2 then
      { p.1 with payload := p.2.payload, digest := p.2.digest } else p.1 }

/-- Both parts of a reload have acted: the new image becomes the loaded one (R102). -/
def State.finishReload (s : State) (j : LoadJob) : State :=
  if j.dieDue ∨ j.hubDue then s.setJob (some j)
  else
    match j.image with
    | some im =>
      let s := if fromNew j.ctrl then (s.setImage (some im)).setBuffer (some (im.addr, im.totalLength)) else s
      (s.setJob none).setBusy s.flt.stopKind.isSome
    | none => s

/-- R301: the shadow copies become active together, once no frame holds the copy before. -/
def State.hubModelSwap (s : State) : State :=
  match s.wire.shadow, s.cfg.load, s.cfg.image with
  | some m, some j, some old =>
    match j.image with
    | none => s
    | some im =>
      if s.modelHolders ≠ 0 then s
      else
        let r := s.reloadEpoch j
        let s := r.2
        let chosen := im.sections.filter fun x => selects j.ctrl x && isHubKind x.kind
        let whole := chosen.any fun x => x.kind != 0x0011
        let js := if whole then slicesOf im.sliceMask
          else (chosen.map fun x => ucCluster x.target)
        let m := { m with epochs := recordEpochs r.1 js m.epochs }
        let s := s.recordEpoch r.1 ((if whole then [hubCode] else []) ++ js.map sliceCode)
        let s := s.switchModel m
        let new := replaceSections old im fun x => selects j.ctrl x && isHubKind x.kind
        let s := { s with cfg := { s.cfg with image := some new } }
        s.finishReload { j with hubDue := false, epoch := some r.1 }
  | _, _, _ => s

def execHubModelSwap (s : State) : Host.Outcome State Fault Refusal := done (s.onSteward fun s => s.hubModelSwap)

/-- The stored pips of tensors `f` no longer describe their bytes. -/
def State.unpip (s : State) (f : Nat → Bool) : State :=
  let ps := s.chk.pips.map fun (p : Nat × PipState) => if f p.1 then (p.1, { p.2 with live := false }) else p
  { s with chk := { s.chk with pips := ps } }

/-- Pips of weights that new bytes overlap no longer describe them (R347). -/
def State.dropPips (s : State) (a n : Nat) : State :=
  let ts := s.tensors.filter fun t => overlaps t.start t.bytes a n
  s.unpip fun i => ts.any fun t => t.id == i

/-- R101, R388: the compute sections of a reload take effect. -/
def State.applyReload (s : State) (j : LoadJob) (im old : Image) : State :=
  let r := s.reloadEpoch j
  let s := r.2
  let chosen := im.sections.filter fun x => selects j.ctrl x && !isHubKind x.kind
  let new := replaceSections old im fun x => selects j.ctrl x && !isHubKind x.kind
  let s := { s with cfg := { s.cfg with image := some new } }
  let s := chosen.foldl (fun (s : State) x =>
    if x.kind = 0x00F0 then s.dropPips (le x.payload 0 8) (x.payload.length - 8) else s) (s.copyInit chosen)
  let s := s.recordEpoch r.1 (chosen.flatMap fun x => s.unitsBelow x.target)
  let s := s.setFld Reg.cfgLoadStatusReloadPending 0
  s.finishReload { j with dieDue := false, epoch := some r.1 }

/-! ### Reloads in recovery (R103) -/

/-- Sections of the loaded image that a recovery reloads for a logical unit: a slice's own, and those that lie at a compute
unit or below it. -/
def belongsTo (u : Nat) (x : Section) : Bool :=
  (x.kind == 0x0011 && x.target == u) ||
  !isHubKind x.kind && x.kind != 0x00F0 &&
  match levelOf u, levelOf x.target with
  | some .die, some .package => false
  | some .die, some _ => ucDie x.target == ucDie u
  | some .cluster, some .die => false
  | some .cluster, some .package => false
  | some .cluster, some _ => ucDie x.target == ucDie u && ucCluster x.target == ucCluster u
  | some .core, some .core => x.target == u
  | some .core, some .engine => ucDie x.target == ucDie u && ucCluster x.target == ucCluster u && ucCore x.target == ucCore u
  | some .engine, some .engine => x.target == u
  | _, _ => false

/-- What a logical unit records in a reload with epoch `e`: a unit with a section of its own, and a die, records `e`; one
with no section takes its parent's epoch (R401). -/
def State.recordReload (s : State) (im : Image) (e u : Nat) : State :=
  if levelOf u == some .die || im.sections.any fun x => belongsTo u x && x.target == u then s.recordEpoch e [s.physOf u]
  else s.recordEpoch (Tab.get 0 (s.physOf (parentUnit u)) s.cfg.epochs) [s.physOf u]

/-- A logical unit and what lies below it, parents first; a slice alone. -/
def State.reloadUnits (s : State) (u : Nat) : List Nat :=
  if levelOf u == some .slice then [u] else s.logicalBelow u

/-- The steward reloads the sections of logical units with the units stopped, their digests checked first. Answers
whether the reload succeeds; at epoch 0xFFFF_FFFF it is refused, and a full load is needed (R121). CODE stays (R103;
DEDUCED, log entry 173). -/
def State.recoveryReload (s : State) (us : List Nat) : Bool × State :=
  match s.cfg.image with
  | none => (true, s)
  | some im =>
    let fresh := s.rehash im
    let ok := fresh.sections.all fun x => !us.any (fun u => belongsTo u x) || sha384 x.payload == x.digest
    let e := s.fld Reg.cfgEpochEpoch + 1
    if !ok || decide (0xFFFFFFFF < e) then (false, s)
    else
      (true, (us.flatMap s.reloadUnits).foldl (fun (t : State) u => t.recordReload im e u) (s.setFld Reg.cfgEpochEpoch e))

end Sys2Proof.Machine
end

