-- ==== Sys2Proof/Machine/Snapshot.lean ====
section
/-! DEFINITION. Step copies and snapshots: their entries, the request, the copy and the restore (R387, R390, R426 to
R430, R437). -/

namespace Sys2Proof.Machine

/-! ### Step copies (R387, R390) -/

/-- One copy's bytes of a tensor: the first copy, which holds the newest version at a seam (R145). -/
def Tensor.copyBytes (t : Tensor) : Nat := t.bytes / max 1 t.stash

/-- The step copy of the seam the package is at. -/
def State.stepCopyNow (s : State) : StepCopy :=
  ⟨s.stepIndex, (s.tensors.filter copied).map fun t => (t.id, s.read t.start t.copyBytes), s.emb.prev⟩

def State.ckptOn (s : State) : Bool := s.fldB Reg.fltCkptCtrlEnable

def State.roundOn (s : State) : Bool := s.ckptOn && s.fldB Reg.fltCkptCtrlRound

/-! ### Entries (Tables 12.5 to 12.7) -/

structure SnapEntry where
  kind : Nat
  id : Nat
  die : Nat
  addr : Nat
  len : Nat
deriving DecidableEq, Repr

def tensorDie (t : Tensor) : Nat :=
  if t.place = 0 ∨ (t.place = 1 ∧ t.home ≠ packageCode) then ucDie t.home else 0xE


/-- Entries of kinds 1 and 2 of the loaded image. -/
def State.snapFixed (s : State) : List SnapEntry :=
  let e := s.embD
  (s.tensors.filter copied).map (fun t => ⟨1, t.id, tensorDie t, t.start, t.copyBytes⟩) ++
  e.tables.flatMap fun t => (List.range 4).map fun d => ⟨2, t.idx, d, t.base.getD d 0, t.storage e⟩

/-- The pending bank of step `k` of a table on a die, as an entry. -/
def bankEntry (t : TableD) (d k : Nat) : SnapEntry := ⟨3, t.idx, d, t.bankAddr d k, t.uniqueMax * t.pendSlot⟩

/-- Banks that may cross a seam. -/
def State.bankSlots (s : State) : List (TableD × Nat) :=
  (s.embD.tables.filter fun t => t.staleness == 1).flatMap fun t => (List.range 4).map fun d => (t, d)

/-- Banks that cross the present seam. -/
def State.snapBanks (s : State) : List SnapEntry :=
  s.bankSlots.filterMap fun p => (Tab.find (bankKey p.2 p.1.idx) s.emb.prev).map fun b => bankEntry p.1 p.2 b.step

def State.snapEntries (s : State) : List SnapEntry := s.snapFixed ++ s.snapBanks

def external (manifest : Bool) (x : SnapEntry) : Bool := manifest && x.kind == 2

/-- SNAP_NEED_FULL and SNAP_NEED_MANIFEST: every bank counted (R437). -/
def State.snapNeed (s : State) (manifest : Bool) : Nat :=
  if s.cfg.image.isNone then 0
  else
    let es := s.snapFixed ++ s.bankSlots.map fun p => bankEntry p.1 p.2 0
    256 + 64 * es.length + ((es.filter fun x => !external manifest x).map SnapEntry.len).sum

/-- Entries with the position of their content, packed one after another. -/
def placeEntries (manifest : Bool) : Nat → List SnapEntry → List (SnapEntry × Nat)
  | _, [] => []
  | o, x :: xs => if external manifest x then (x, 0) :: placeEntries manifest o xs
      else (x, o) :: placeEntries manifest (o + x.len) xs

def State.entryRecord (s : State) (manifest : Bool) (p : SnapEntry × Nat) : List Byte :=
  let x := p.1
  toLe 1 x.kind ++ toLe 1 (b2n (external manifest x)) ++ toLe 2 x.id ++ toLe 4 x.die ++ toLe 8 x.addr ++
  toLe 8 x.len ++ toLe 8 p.2 ++ toLe 16 (digest128 (s.read x.addr x.len)) ++ List.replicate 16 0

/-- The whole area of a snapshot of the present seam. -/
def State.snapBytes (s : State) (manifest : Bool) : List Byte :=
  let es := s.snapEntries
  let placed := placeEntries manifest (256 + 64 * es.length) es
  let body := (placed.flatMap (s.entryRecord manifest)) ++
    placed.flatMap fun p => if external manifest p.1 then [] else s.read p.1.addr p.1.len
  let total := 256 + body.length
  let head := [0x4B, 0x4E, 0x53, 0x53] ++ toLe 2 1 ++ toLe 1 (b2n manifest) ++ [0] ++
    toLe 8 (s.reg Reg.cfgImageId).toNat ++ toLe 8 s.stepIndex ++ toLe 2 s.dpRank ++
    toLe 1 (s.fld Reg.detRankGroupRank) ++ [0] ++ toLe 4 es.length ++ toLe 8 total ++ List.replicate 8 0 ++
    sha384 body ++ List.replicate 160 0
  head ++ body

/-! ### SAVE (R427, R428) -/

def State.setSnap (s : State) (j : Option SnapJob) : State := { s with det := { s.det with snap := j } }

def State.snapBusy (s : State) : Bool :=
  match s.det.snap with
  | some j => j.copying
  | none => false

def State.snapCode (s : State) (code entry : Nat) : State :=
  ((s.setFld Reg.detSnapStatusCode code).setFld Reg.detSnapStatusEntry entry).raiseIrq irqSnapshot

/-- The area of a SAVE meets R427: code 0x05, then 0x04. -/
def State.areaCode (s : State) (a need : Nat) : Nat :=
  let end1 := tier1Size
  let end2 := tier2Base + s.tier2Size
  let limit := if a < end1 then end1 else end2
  if a % 4096 ≠ 0 ∨ !s.inTiers a 1 then 5
  else if limit < a + need then 4
  else
    let areas := s.spans.map (fun x => (x.addr, x.size)) ++
      ((List.range 4).map fun n => (s.fld (Reg.fltCkptBaseBase n), s.fld (Reg.fltCkptSizeBytes n))) ++ s.cfg.buffer.toList
    if areas.any fun r => overlaps a need r.1 r.2 then 5 else 0

/-- The copy of a SAVE begins: the area takes the snapshot of this seam. -/
def State.beginSave (s : State) (j : SnapJob) : State :=
  let saved := s.snapBanks.filterMap fun x =>
    (Tab.find (bankKey x.die x.id) s.emb.prev).map fun b => (s.read x.addr x.len, b)
  let s := s.guardedWrite j.addr (s.snapBytes j.manifest) 0x3000
  let s := { s with det := { s.det with saved := saved ++ s.det.saved } }
  let s := (s.setSnap (some { j with copying := true, hit := false })).setFld Reg.detSnapStatusBusy 1
  (s.setFld Reg.detSnapStatusPending 0).setBusy true

/-- What a SAVE reads: the content of every entry of the seam. -/
def State.saveSources (s : State) : List (Nat × Nat) := s.snapEntries.map fun x => (x.addr, x.len)

/-- The reads of a copy at a seam. A source line that cannot be corrected stops the package, and its recovery handles the
line by Table 11.10 with the present state as the seam (Table 11.13). -/
def State.copyReads (s : State) (src : List (Nat × Nat)) (es : List MemError) : State :=
  let t := s.meetReads (Reads.of src) 0x3000 es
  if t.flt.stopKind.isNone && src.any fun r => t.isPoisoned r.1 r.2 then t.stopStep ⟨0, 0x0011, none⟩ 0 else t

/-- The package is at a seam with nothing of the seam's own work outstanding. -/
def State.seamFree (s : State) : Bool :=
  let reload := match s.cfg.load with
    | some j => j.dieDue
    | none => false
  !s.stepRunning && s.cfg.run.atSeam && s.flt.stopKind.isNone && !reload && !s.flt.copyDue && !s.flt.copying

def State.snapSave (s : State) (v : Nat) : State :=
  let j : SnapJob := ⟨1, bit v 2, bit v 3, s.fld Reg.detSnapAddrAddr, false, false⟩
  let st := s.loadState
  if s.flt.stopKind.isSome ∨ st = loadChecking ∨ st = loadDistributing ∨ s.det.snap.isSome then s.snapCode 1 0xFFFF
  else if s.cfg.image.isNone ∨ st = loadFault ∨ (!s.stepRunning && !s.cfg.run.atSeam) then s.snapCode 8 0xFFFF
  else
    let c := s.areaCode j.addr (s.snapNeed j.manifest)
    if c ≠ 0 then s.snapCode c 0xFFFF
    else if st = loadLoaded ∧ s.seamFree then s.beginSave j
    else (s.setSnap (some j)).setFld Reg.detSnapStatusPending 1

/-! ### RESTORE and CHECK (R429) -/

/-- An entry record of an area. -/
structure SnapRec where
  entry : SnapEntry
  flags : Nat
  off : Nat
  digest : Nat
deriving DecidableEq, Repr

def State.snapRec (s : State) (a i : Nat) : SnapRec :=
  let b := s.read (a + 256 + 64 * i) 64
  ⟨⟨le b 0 1, le b 2 2, le b 4 4, le b 8 8, le b 16 8⟩, le b 1 1, le b 24 8, le b 32 16⟩

def State.snapRecs (s : State) (a : Nat) : List SnapRec :=
  (List.range (le (s.read a 256) 0x1C 4)).map (s.snapRec a)

/-- The entry set of an area against the image: kinds 1 and 2 whole and in order, then banks of the step before. -/
def State.entriesErr (s : State) (a : Nat) : Option Nat :=
  let h := s.read a 256
  let manifest := le h 6 1 == 1
  let rs := s.snapRecs a
  let fixed := s.snapFixed
  let banks := s.bankSlots.map fun p => bankEntry p.1 p.2 (le h 0x10 8 - 1)
  let ok (i : Nat) (r : SnapRec) : Bool :=
    (if i < fixed.length then fixed[i]? == some r.entry
      else banks.contains r.entry && !(rs.take i).any fun q => q.entry == r.entry) &&
    r.flags == b2n (external manifest r.entry) &&
    (if external manifest r.entry then r.off == 0 else decide (r.off + r.entry.len ≤ le h 0x20 8))
  match (enum0 rs).find? fun p => !ok p.1 p.2 with
  | some p => some p.1
  | none => if rs.length < fixed.length then some rs.length else none

def State.recContent (s : State) (a : Nat) (r : SnapRec) : List Byte :=
  if bit r.flags 0 then s.read r.entry.addr r.entry.len else s.read (a + r.off) r.entry.len

/-- The checks of R429: code and entry; 0 where all pass. -/
def State.snapCheck (s : State) (a : Nat) : Nat × Nat :=
  let h := s.read a 256
  if a % 4096 ≠ 0 ∨ !s.inTiers a 256 then (5, 0xFFFF)
  else if h.take 4 ≠ [0x4B, 0x4E, 0x53, 0x53] ∨ le h 4 2 ≠ 1 ∨ 1 < le h 6 1 ∨ !s.inTiers a (le h 0x20 8) then (7, 0xFFFF)
  else
    match s.entriesErr a with
    | some i => (7, min i 0xFFFF)
    | none =>
      if le h 8 8 ≠ (s.reg Reg.cfgImageId).toNat then (2, 0xFFFF)
      else if le h 0x18 2 ≠ s.dpRank ∨ le h 0x1A 1 ≠ s.fld Reg.detRankGroupRank then (3, 0xFFFF)
      else if sha384 (s.read (a + 256) (le h 0x20 8 - 256)) ≠ (h.drop 0x30).take 48 then (6, 0xFFFF)
      else
        match (enum0 (s.snapRecs a)).find? fun p => digest128 (s.recContent a p.2) != p.2.digest with
        | some p => (6, min p.1 0xFFFF)
        | none => (0, 0xFFFF)

/-- The checks or the copy run: BUSY. -/
def State.beginSnap (s : State) (j : SnapJob) : State :=
  let s := (s.setSnap (some { j with copying := true })).setFld Reg.detSnapStatusBusy 1
  if j.op = 2 then s.setBusy true else s

def State.snapRequest (s : State) (op : Nat) (v : Nat) : State :=
  if s.snapBusy then s
  else
    let j : SnapJob := ⟨op, false, false, s.fld Reg.detSnapAddrAddr, false, false⟩
    match op with
    | 1 => s.snapSave v
    | 2 =>
      if s.loadState ≠ loadLoaded ∨ s.busy ∨ s.det.snap.isSome then s.snapCode 1 0xFFFF
      else
        let c := s.snapCheck j.addr
        if c.1 ≠ 0 then s.snapCode c.1 c.2 else s.beginSnap j
    | 3 =>
      if s.cfg.image.isNone ∨ s.det.snap.isSome then s.snapCode 1 0xFFFF
      else
        let c := s.snapCheck j.addr
        if c.1 ≠ 0 then s.snapCode c.1 c.2 else s.beginSnap j
    | _ => s

def execSnapshotSave (value : Word) (s : State) : Host.Outcome State Fault Refusal :=
  done (s.onReady fun s => s.onSteward fun s => s.snapRequest 1 value.toNat)

def execSnapshotRestore (value : Word) (s : State) : Host.Outcome State Fault Refusal :=
  done (s.onReady fun s => s.onSteward fun s => s.snapRequest 2 value.toNat)

def execSnapshotCheck (value : Word) (s : State) : Host.Outcome State Fault Refusal :=
  done (s.onReady fun s => s.onSteward fun s => s.snapRequest 3 value.toNat)

/-- The bank that saved content stands for: of another package's, the slots whose tree state counts occurrences, each with
its row and gradient (R171, R430; log entry 27). -/
def State.bankOf (s : State) (t : TableD) (step : Nat) (content : List Byte) : Bank :=
  match s.det.saved.find? fun p => p.1 == content with
  | some p => { p.2 with step := step }
  | none =>
    let rows := (enum0 (records content 0 t.pendSlot t.uniqueMax)).filterMap fun p =>
      let n := le p.2 (8 + 4 * t.ws) 8
      if n = 0 then none
      else some (le p.2 0 8, GradRow.mk p.1 n [(0, t.keyBits, (List.range t.ws).map fun c => le p.2 (8 + 4 * c) 4)] false false)
    ⟨step, rows.foldl (fun (q : Tab GradRow) r => Tab.put r.1 r.2 q) []⟩

/-- Registers of the seam that the package is at. -/
def State.setStep (s : State) (k : Nat) : State := s.setReg Reg.cfgStep (BitVec.ofNat 64 k)

/-- Lines of restored tables drop to Home, and staging slots are free (R394, R429). -/
def State.dropTables (s : State) : State := { s with emb := { s.emb with lines := [], staged := [] } }

/-- The pending banks that a snapshot holds. -/
def State.restoredBanks (s : State) (a step : Nat) : Tab Bank :=
  (s.snapRecs a).foldl (fun (q : Tab Bank) r =>
    match r.entry.kind, s.table r.entry.id with
    | 3, some t => Tab.put (bankKey r.entry.die t.idx) (s.bankOf t (step - 1) (s.recContent a r)) q
    | _, _ => q) []

/-- The bytes of every record that the snapshot holds go to their places; a pending area that it does not hold is empty. -/
def State.restoreBytes (s : State) (a : Nat) : State :=
  let k := le (s.read a 256) 0x10 8
  let s := s.bankSlots.foldl (fun (s : State) p => s.clearBank p.1 p.2 (k - 1)) s
  (s.snapRecs a).foldl (fun (s : State) r =>
    if bit r.flags 0 then s else s.write r.entry.addr (s.recContent a r)) s

/-- The sequencers, Presses and gathered sums stand at the seam of the restored step. -/
def State.restoreRun (s : State) (banks : Tab Bank) (step : Nat) : State :=
  let s := s.dropTables
  let s := State.seamLive { s with dense := DenseState.init, emb := { s.emb with
    press := [], sorted := [], parts := [], banks := [], prev := banks, counts := [], cut := [], sumsSent := [] } }
  let s := (s.setStep step).setRun { s.cfg.run with atSeam := true, stepRunning := false }
  let s := s.unpip fun _ => true
  let rounds := s.chk.rounds.filter fun r => decide (r < step)
  let s := { s with chk := { s.chk with ledgers := [], ledgerSum := [], twinPending := [], rounds := rounds } }
  s.setFld Reg.chkEchoStatusWaiting (b2n (!rounds.isEmpty))

/-- The step copy and the round slot hold the restored seam. -/
def State.restoreCopies (s : State) (step : Nat) : State :=
  let copy := s.stepCopyNow
  let s := if s.ckptOn then { s with flt := { s.flt with copy := some copy, undo := [] } } else s
  if s.roundOn then
    let s := { s with flt := { s.flt with rounds := [⟨step, copy, true⟩] } }
    s.setReg Reg.chkEchoAgreed (if step = 0 then BitVec.allOnes 64 else BitVec.ofNat 64 (step - 1))
  else s

/-- A restore's effect once its copy has ended. -/
def State.restoreSnap (s : State) (a : Nat) : State :=
  let step := le (s.read a 256) 0x10 8
  (((s.restoreBytes a).restoreRun (s.restoredBanks a step) step).restoreCopies step).bump (Reg.detCnt 7) 1

/-- A fault cut the copy: the destinations hold open bytes, and the package is at no seam. -/
def State.cutRestore (s : State) (a : Nat) : State :=
  let s := (s.snapRecs a).foldl (fun (s : State) r =>
    if bit r.flags 0 then s else s.writeFree r.entry.addr r.entry.len) s
  s.setRun { s.cfg.run with atSeam := false }

/-- The end of an operation: BUSY falls, the code is reported. -/
def State.endSnap (s : State) (code : Nat) : State :=
  let s := (s.setSnap none).setFld Reg.detSnapStatusBusy 0
  (s.setBusy (s.cfg.load.isSome || s.flt.stopKind.isSome)).snapCode code 0xFFFF

end Sys2Proof.Machine
end

