-- ==== Sys2Proof/Machine/Time.lean ====
section
/-! DEFINITION. The time unit: steps and sets, the servos of the four sources, the ordinary clock's own messages, pulse
outputs (R309 to R319, R321, R329 to R331). -/

namespace Sys2Proof.Machine

/-- The largest SEC a step or set may leave (R309, R313). -/
def secLimit : Nat := 18446744072

/-- A START with AT waits (R109). -/
def State.launchPending (s : State) : Bool := s.fldB Reg.timeLaunchStatusPending

/-! ### Pulse outputs (R329 to R331) -/

def State.setMissed (s : State) (i : Nat) : State :=
  (s.setFld (Reg.timePulseStatusMissed i) 1).raiseIrq irqTime

/-- The first edge of a periodic output that is still to come at GLC `g`. -/
def firstEdge (start period g : Nat) : Nat :=
  if g ≤ start then start else start + ceilDiv (g - start) (max 1 period) * period

def State.setPulseNext (s : State) (i : Nat) (e : Option Nat) : State :=
  s.setTime { s.time with pulseNext := match e with
    | some g => Tab.put i g s.time.pulseNext
    | none => s.time.pulseNext.erase i }

/-- The clock jumped forward: edges of the skipped interval are not produced (R331). -/
def State.skipEdges (s : State) (i : Nat) : State :=
  match Tab.find i s.time.pulseNext with
  | none => s
  | some e =>
    if s.glc ≤ e then s
    else
      let next := if s.fld (Reg.timePulseCfgMode i) = 2 then
          some (firstEdge e (s.fld (Reg.timePulsePeriodPeriod i)) s.glc) else none
      (s.setPulseNext i next).setMissed i

/-- The output's pin: at the level of its leading edge while a pulse is in progress, else at rest (R329). -/
def State.drivePulse (s : State) (i : Nat) (high : Bool) : State :=
  let s := s.setFld (Reg.timePulseStatusHigh i) (b2n high)
  let level := if s.fldB (Reg.timePulseCfgPol i) then !high else high
  s.setTime { s.time with pulsePin := Tab.set 0 i (b2n level) s.time.pulsePin }

/-- A commit of an output's group applies (R330). -/
def State.armPulse (s : State) (i : Nat) : State :=
  let s := s.drivePulse i false
  let s := s.setTime { s.time with pulseEnds := s.time.pulseEnds.erase i }
  let start := s.fld (Reg.timePulseStartStart i)
  match s.fld (Reg.timePulseCfgMode i) with
  | 1 => if start < s.glc then (s.setPulseNext i none).setMissed i else s.setPulseNext i (some start)
  | 2 => s.setPulseNext i (some (firstEdge start (s.fld (Reg.timePulsePeriodPeriod i)) s.glc))
  | _ => s.setPulseNext i none

/-- R329: a leading edge, once the GLC has reached it. -/
def State.pulseEdge (s : State) (i : Nat) : State :=
  match Tab.find i s.time.pulseNext with
  | none => s
  | some e =>
    if s.glc < e then s
    else
      let next := if s.fld (Reg.timePulseCfgMode i) = 2 then some (e + s.fld (Reg.timePulsePeriodPeriod i)) else none
      let s := s.setPulseNext i next
      let s := s.setTime { s.time with
        pulseEnds := Tab.put i (s.glc + s.fld (Reg.timePulseCfgWidth i)) s.time.pulseEnds }
      (s.drivePulse i true).setFld (Reg.timePulseStatusEdges i) (s.fld (Reg.timePulseStatusEdges i) + 1)

def execPulseEdge (output : Fin 4) (s : State) : Host.Outcome State Fault Refusal := done (s.pulseEdge output.val)

/-- R329: the pulse has lasted its WIDTH of the local clock. -/
def State.pulseEnd (s : State) (i : Nat) : State :=
  match Tab.find i s.time.pulseEnds with
  | none => s
  | some e =>
    if s.glc < e then s
    else (s.setTime { s.time with pulseEnds := s.time.pulseEnds.erase i }).drivePulse i false

def execPulseEnd (output : Fin 4) (s : State) : Host.Outcome State Fault Refusal := done (s.pulseEnd output.val)

/-! ### Steps and sets (R313) -/

/-- The clock takes a new value. A pulse in progress still lasts its WIDTH, and edges that a forward jump passes are
missed. -/
def State.setClock (s : State) (sec ns : Nat) : State :=
  let old := s.glc
  let s := { s with clock := ⟨sec, ns, s.clock.frac⟩ }
  let ends := s.time.pulseEnds.map fun e => (e.1, e.2 + s.glc - old)
  let s := s.setTime { s.time with micro := false, pulseEnds := ends }
  (List.range 4).foldl State.skipEdges s

def State.setClockNs (s : State) (g : Nat) : State := s.setClock (g / 1000000000) (g % 1000000000)

/-- A GLC within the limit. -/
def withinLimit (g : Int) : Bool := decide (0 ≤ g ∧ g < (secLimit + 1) * 1000000000)

def State.setTimeReq (s : State) (r : Option TimeReq) : State := s.setTime { s.time with req := r }

/-- A write of GO to STEP. -/
def State.timeStep (s : State) (v : Word) : State :=
  s.setTimeReq (some (.step (sext 48 (Reg.timeStepOffset.of v.toNat))))

def execTimeStep (value : Word) (s : State) : Host.Outcome State Fault Refusal :=
  done (s.onReady fun s => s.timeStep value)

/-- A write of GO to SET_NS; SET_SEC is sampled with it (R336). -/
def State.timeSet (s : State) (v : Word) : State :=
  let s := s.setFld Reg.timeSetNsNs (Reg.timeSetNsNs.of v.toNat)
  s.setTimeReq (some (.set (s.fld Reg.timeSetSecSec) (Reg.timeSetNsNs.of v.toNat)))

def execTimeSet (value : Word) (s : State) : Host.Outcome State Fault Refusal :=
  done (s.onReady fun s => s.timeSet value)

/-- ADJ_CODE of a request at the instant it would take effect, in the order of its codes. -/
def State.adjCode (s : State) (r : TimeReq) : Nat :=
  if srcPtp ≤ s.timeSource then 1
  else if s.launchPending then 2
  else
    match r with
    | .step o =>
      let g : Int := s.glc + o
      if g < 0 then 4 else if !withinLimit g then 5 else 0
    | .set sec ns =>
      if s.timeSource = srcFree ∧ 1000000000 ≤ ns then 3 else if secLimit < sec then 5 else 0

def State.applyReq (s : State) (r : TimeReq) : State :=
  let c := s.adjCode r
  let s := (s.setTimeReq none).setFld Reg.timeStatusAdjCode c
  if c ≠ 0 then s
  else
    let s := s.bump (Reg.timeCnt 3) 1
    match r with
    | .step o => s.setClockNs ((s.glc : Int) + o).toNat
    | .set sec ns => s.setClock sec (if s.timeSource = srcExt then 0 else ns)

/-- The request waits for the 1PPS edge. -/
def State.reqAtEdge (s : State) : Bool :=
  match s.time.req with
  | some (.set _ _) => s.timeSource == srcExt
  | _ => false

/-- The local clock stands at a whole microsecond, or passed one in this SCLK cycle. -/
def State.wholeMicro (s : State) : Bool := s.clock.ns % 1000 == 0 || s.time.micro

/-- R313: at a whole microsecond the request is judged and takes effect. -/
def State.timeAdjustApply (s : State) : State :=
  match s.time.req with
  | none => s
  | some r => if s.reqAtEdge || !s.wholeMicro then s else s.applyReq r

def execTimeAdjustApply (s : State) : Host.Outcome State Fault Refusal := done s.timeAdjustApply

/-- R311. -/
def State.todNsRead (s : State) : State :=
  (s.setFld Reg.timeTodSecSec s.clock.sec).respond (.ok (BitVec.ofNat 512 s.clock.ns))

def execTodNsRead (s : State) : Host.Outcome State Fault Refusal := done s.todNsRead

/-! ### RATE (R312) -/

def clampRate (v : Nat) : Nat := ((clamp (-4194304) 4194304 (sext 32 v)) % 2 ^ 32).toNat

def State.setRate (s : State) (v : Nat) : State := s.setFld Reg.timeRateRate (clampRate v)

def State.rateWrite (s : State) (v : Word) : State :=
  if s.timeSource = srcFree then s.setRate (v.toNat % 2 ^ 32) else s

def execRateWrite (value : Word) (s : State) : Host.Outcome State Fault Refusal :=
  done (s.onReady fun s => s.rateWrite value)

/-! ### Servos (R314 to R317) -/

/-- A commit of TIME.CTRL changed SOURCE (R314). -/
def State.sourceChanged (s : State) : State :=
  let s := s.setFld Reg.timeStatusSourceOk 0
  let s := s.setTime { s.time with within := 0, bigSince := none, offsets := [], freq := sext 32 (s.fld Reg.timeRateRate) }
  if s.timeSource = srcFree then (s.setServo timeFree).setFld Reg.timeStatusErrEst 0xFFFF else s.setServo timeAcquiring

def execSourceFailed (s : State) : Host.Outcome State Fault Refusal := done s.failSource

/-- Lock window, count and accuracy of a source (Tables 9.1 and 9.2). -/
def lockParams (src : Nat) : Nat × Nat × Nat :=
  match src with
  | 1 => (2, 3, 2)
  | 2 => (100, 16, 50)
  | _ => (2, 1000, 1)

/-- ERR_EST under LOCKED: the largest offset of the last second plus the accuracy figure, saturating (R316). -/
def State.lockedError (s : State) : State :=
  if s.servo = timeLocked then
    let os := s.time.offsets.filter fun o => decide (s.upTime < o.1 + 1000000000)
    (s.setTime { s.time with offsets := os }).setFld Reg.timeStatusErrEst
      (min 0xFFFF ((os.map Prod.snd).foldl max 0 + (lockParams s.timeSource).2.2))
  else s

/-- A measured offset joins those of the last second; the spec gives ERR_EST no number while acquiring. -/
def State.noteError (s : State) (size : Nat) : State :=
  let os := s.time.offsets.filter fun o => decide (s.upTime < o.1 + 1000000000)
  let s := s.setTime { s.time with offsets := os ++ [(s.upTime, size)] }
  if s.servo = timeLocked then s.lockedError
  else
    let f := s.free
    f.2.setFld Reg.timeStatusErrEst (f.1 % 65536)

/-- 100 ppm in 2⁻³² ns per ns. -/
def slewLimit : Int := 429496

/-- The servo's rate: its frequency estimate and what it adds to it, in LOCKED at most ±100 ppm (R315). -/
def State.servoRate (s : State) (r : ServoRate) : State :=
  let f := sext 32 r.freq.toNat
  let d := sext 32 r.slew.toNat
  let d := if s.servo = timeLocked then clamp (-slewLimit) slewLimit d else d
  (s.setTime { s.time with freq := f }).setRate ((clamp (-4194304) 4194304 (f + d)) % 2 ^ 32).toNat

/-- One measured offset, local time less source time, in ns (R315). Without a steward pair the servo stays in
HOLDOVER. -/
def State.measure (s : State) (off : Int) (r : ServoRate) : State :=
  let target : Int := s.glc - off
  if !s.pkg.pairs.contains true then s
  else if !withinLimit target then s.failSource
  else
    let s := s.setFld Reg.timeStatusSourceOk 1
    let s := if s.servo = timeHoldover then s.setServo timeAcquiring else s
    let p := lockParams s.timeSource
    let size := off.natAbs
    let s := s.setTime { s.time with within := if size ≤ p.1 then s.time.within + 1 else 0 }
    let s :=
      if s.servo = timeAcquiring then
        if 1000 ≤ size ∧ !s.launchPending then (s.setClockNs target.toNat).bump (Reg.timeCnt 3) 1
        else if p.2.1 ≤ s.time.within then s.setServo timeLocked
        else s
      else if size < 1000 then s.setTime { s.time with bigSince := none }
      else
        match s.time.bigSince with
        | none => s.setTime { s.time with bigSince := some s.upTime }
        | some t => if t + 10000000000 ≤ s.upTime then s.setServo timeAcquiring else s
    (s.servoRate r).noteError size

/-- Offset of the clock at a 1PPS edge. -/
def State.ppsOffset (s : State) : Int :=
  if s.clock.ns < 500000000 then s.clock.ns else (s.clock.ns : Int) - 1000000000

/-- R315 and R313 at a rising 1PPS edge: a pending set applies there, and the servo measures the clock it leaves. -/
def State.ppsInputEdge (s : State) (tenMHzOk : Bool) (r : ServoRate) : State :=
  let s := s.setFld Reg.timePpsInGlc s.glc
  let s := s.setTime { s.time with lastPps := s.upTime }
  if s.timeSource ≠ srcExt then s
  else
    let s := match s.time.req with
      | some (.set sec ns) => s.applyReq (.set sec ns)
      | _ => s
    if tenMHzOk then s.measure s.ppsOffset r else s.failSource

def execPpsInputEdge (tenMHzOk : Bool) (rate : ServoRate) (s : State) : Host.Outcome State Fault Refusal :=
  done (s.ppsInputEdge tenMHzOk rate)

def State.obcTime (s : State) (l : Nat) : ObcTime := Tab.get ObcTime.init l s.time.obc

def State.setObcTime (s : State) (l : Nat) (o : ObcTime) : State :=
  s.setTime { s.time with obc := Tab.set ObcTime.init l o s.time.obc }

/-- The link on which the servo follows its partner. -/
def State.followsLink (s : State) (l : Nat) : Bool := s.timeSource == srcObcor && s.fld Reg.timeCtrlObcLink == l

/-- A time flit leaves: its send time, and the send and receive time of the last one received (R458). -/
def State.sendTimeFlit (s : State) (l : Nat) : State :=
  let o := s.obcTime l
  let g := o.got.getD (0, 0)
  (s.setObcTime l { o with sent := some ⟨BitVec.ofNat 64 s.glc, BitVec.ofNat 64 g.1, BitVec.ofNat 64 g.2⟩ }).flitOut l 1
    flitTime 24 0

/-- The partner's time flit arrives: with the flit it echoes, it measures the link both ways. Twice the offset of the
local clock is (t4 − t3) − (t2 − t1), twice the delay their sum, with t1 and t2 the echoed flit's send and receive time
and t3 and t4 this one's. -/
def State.takeTimeFlit (s : State) (l : Nat) (locked : Bool) (x : TimeFlit) (r : ServoRate) : State :=
  let o := s.obcTime l
  let back : Int := (s.glc : Int) - x.send.toNat
  let out : Int := (x.echoReceive.toNat : Int) - x.echoSend.toNat
  let s := s.setObcTime l { o with got := some (x.send.toNat, s.glc), delay2 := if o.sent.isSome then back + out else o.delay2 }
  if !s.followsLink l then s
  else if !locked then s.failSource
  else if o.sent.isSome then s.measure ((back - out).fdiv 2) r
  else s

/-- R317: the exchange of one microsecond on a link. A flit that a replay delayed is discarded. -/
def State.obcorTimeExchange (s : State) (l : Nat) (replayed locked : Bool) (x : TimeFlit) (r : ServoRate) : State :=
  if !s.obcUp l then (if s.followsLink l then s.failSource else s)
  else
    let s := s.bump (Reg.obcCnt l 1) 1
    let s := if replayed then s.bump (Reg.timeCnt 5) 1 else s.takeTimeFlit l locked x r
    s.sendTimeFlit l

def execObcorTimeExchange (link : Fin 16) (replayed : Bool) (exchange : TimeExchange) (rate : ServoRate) (s : State) :
    Host.Outcome State Fault Refusal :=
  done (s.obcorTimeExchange link.val replayed exchange.locked exchange.flit rate)

/-! ### The ordinary clock (R318, R319, R321) -/

/-- IEEE 1588 port states. -/
def portMaster : Nat := 6
def portUncalibrated : Nat := 8
def portSlave : Nat := 9

/-- A request that the clock answers: Delay_Req as master, Pdelay_Req where its half does not itself (R325). -/
def State.ptpAnswer (s : State) (x : PtpIn) : State :=
  let c := s.fld Reg.timeCtrlOcPort
  let mech := s.fld Reg.timeCtrlDelayMech
  let m : PtpOut := ⟨c, 9, be x.bytes 30 2, psFine x.rxPs, be x.bytes 20 10⟩
  match ptpType x.bytes 0 with
  | 1 => if s.fld Reg.timeStatusPortState = portMaster ∧ mech = 0 then s.sendPtp m else s
  | 2 => if mech = 1 ∧ s.tcMode c ≠ 2 then s.sendPtp { m with messageType := 3 } else s
  | _ => s

/-- When the ordinary clock last heard a Sync, and an Announce. -/
def State.heardPtp (s : State) (x : PtpIn) : State :=
  if be x.bytes 4 1 ≠ s.fld Reg.timeCtrlDomain then s
  else
    match ptpType x.bytes 0 with
    | 0 => s.setTime { s.time with lastSync := s.upTime }
    | 0xB => s.setTime { s.time with lastAnnounce := s.upTime }
    | _ => s

/-- The steward processes the oldest message of the PTP ring: another domain's is ignored. -/
def State.ptpMessage (s : State) (m : PtpMsg) : State :=
  match s.time.ptpIn with
  | [] => s
  | x :: rest =>
    let s := s.setTime { s.time with ptpIn := rest }
    let s := s.heardPtp x
    if be x.bytes 4 1 ≠ s.fld Reg.timeCtrlDomain ∨ !s.pkg.pairs.contains true then s
    else
      let st := m.portState.toNat
      -- a slave-only clock never becomes master
      let st := if s.fldB Reg.timeCtrlSlaveOnly ∧ st = portMaster then s.fld Reg.timeStatusPortState else st
      let s := (s.setFld Reg.timeStatusPortState st).ptpAnswer x
      match m.offset with
      | some o => if s.timeSource = srcPtp ∧ (st = portSlave ∨ st = portUncalibrated) then s.measure o m.rate else s
      | none => s

def execPtpMessage (msg : PtpMsg) (s : State) : Host.Outcome State Fault Refusal := done (s.ptpMessage msg)

/-- The ordinary clock's port state and mode let it send a message type. -/
def State.mayGenerate (s : State) (t : Nat) : Bool :=
  let st := s.fld Reg.timeStatusPortState
  match t with
  | 0 => st == portMaster
  | 0xB => st == portMaster
  | 1 => (st == portSlave || st == portUncalibrated) && s.fld Reg.timeCtrlDelayMech == 0
  | 2 => s.fld Reg.timeCtrlDelayMech == 1
  | _ => false

/-- R319, R321: a message of the ordinary clock is posted for OC_PORT. -/
def State.ptpGenerate (s : State) (t : Nat) : State :=
  let c := s.fld Reg.timeCtrlOcPort
  if !s.mayGenerate t || !s.portUp c then s
  else
    let n := Tab.get 0 t s.time.ptpSeq
    let s := s.setTime { s.time with ptpSeq := Tab.put t ((n + 1) % 65536) s.time.ptpSeq }
    s.sendPtp ⟨c, t, n, 0, 0⟩

def execPtpMessageGeneration (messageType : BitVec 4) (s : State) : Host.Outcome State Fault Refusal :=
  done (s.ptpGenerate messageType.toNat)

/-! ### A tick of the clock (R309, R315, R338) -/

/-- One SCLK cycle: 1 ns × (1 + RATE × 2⁻³²), with the carries of R309. -/
def State.advanceClock (s : State) : State :=
  let rate := sext 32 (s.fld Reg.timeRateRate)
  let t : Nat := ((s.clock.ns : Int) * 2 ^ 32 + s.clock.frac + 2 ^ 32 + rate).toNat
  let ns := t / 2 ^ 32
  let s := s.setTime { s.time with micro := ns / 1000 != s.clock.ns / 1000 }
  if ns < 1000000000 then { s with clock := ⟨s.clock.sec, ns, t % 2 ^ 32⟩ }
  else { s with clock := ⟨s.clock.sec + 1, ns - 1000000000, t % 2 ^ 32⟩ }

/-- IEEE 1588 states of a port that listens to another clock: LISTENING, PASSIVE, UNCALIBRATED, SLAVE. -/
def portListens (st : Nat) : Bool := [4, 7, portUncalibrated, portSlave].contains st

/-- Three announce-receipt intervals without a Sync, or a port half that is down, fail the source PTP (Table 9.2). As many
without an Announce make the port a master, or a listener where it is slave-only (PRESUMED: the timeout of IEEE 1588, log
entry 223). -/
def State.ptpTimers (s : State) : State :=
  let limit := 3 * Config.announceReceipt
  let up := s.portUp (s.fld Reg.timeCtrlOcPort)
  let s := if s.timeSource = srcPtp ∧ (!up ∨ limit ≤ s.upTime - s.time.lastSync) then s.failSource else s
  if up && portListens (s.fld Reg.timeStatusPortState) && s.pkg.pairs.contains true &&
      decide (limit ≤ s.upTime - s.time.lastAnnounce) then
    s.setFld Reg.timeStatusPortState (if s.fldB Reg.timeCtrlSlaveOnly then 4 else portMaster)
  else s

/-- What time alone does to the time unit: ERR_EST as offsets age and in holdover, seconds without a 1PPS edge and the
source lost after 1.5 s of them. -/
def State.timeTick (s : State) : State :=
  let up := s.upTime
  let s := if s.servo = timeHoldover ∧ (up - s.time.holdSince) % 1000000 = 0 ∧ s.time.holdSince < up then
      s.setFld Reg.timeStatusErrEst (min 0xFFFF (s.fld Reg.timeStatusErrEst + 50)) else s
  let s := s.lockedError
  let quiet := up - s.time.lastPps
  let s := if s.timeSource = srcExt ∧ 1500000000 ≤ quiet then s.failSource else s
  let s := s.ptpTimers
  if s.timeSource = srcExt ∧ 1000000000 < quiet ∧ quiet % 1000000000 = 500000000 then s.bump (Reg.timeCnt 4) 1 else s

end Sys2Proof.Machine
end

