-- ==== Sys2Proof/Machine/Commit.lean ====
section
/-! DEFINITION. Commit groups: requests, their checks, pending groups and safe points (R15, R112 to R118), with the
checks and the effects that the groups' chapters give. -/

namespace Sys2Proof.Machine

/-! ### Groups (R112) -/

/-- Every index of a register kind, with its offset. -/
def allIndices : List (Nat × Nat) → List (List Nat × Nat)
  | [] => [([], 0)]
  | (st, n) :: rest => (List.range n).flatMap fun i => (allIndices rest).map fun p => (i :: p.1, i * st + p.2)

/-- Every register with RWG fields: its group and offset. -/
def groupTable : List (Nat × Nat) :=
  regKinds.flatMap fun k =>
    if k.group.isNone then []
    else (allIndices k.strides).filterMap fun p => (k.groupOf p.1).map fun g => (g, k.base + p.2)

/-- Offsets of a group's registers. -/
def groupRegs (g : Nat) : List Nat := (groupTable.filter fun p => p.1 == g).map Prod.snd

def groupKnown (g : Nat) : Bool := !(groupRegs g).isEmpty

/-- RWG bits of the register at an offset. -/
def rwgMask (off : Nat) : Nat :=
  match locate off with
  | some (k, _) => (k.fields.map fun f => if f.access = .rwg then (2 ^ (f.hi + 1 - f.lo) - 1) <<< f.lo else 0).sum
  | none => 0

/-! ### Staging sets -/

/-- A register's value in a staging set. -/
def Staging.val (st : Staging) (off : Nat) : Nat := ((Tab.find off st.values).getD 0).toNat

def Staging.fld (st : Staging) (f : Fld) : Nat := bits (st.val f.off) f.hi f.lo

/-- The group's shadow set at this moment. -/
def State.stage (s : State) (g : Nat) (bySteward : Bool) : Staging :=
  ⟨g, bySteward, (groupRegs g).foldl (fun (t : Tab Word) o => Tab.put o (s.shadowReg o) t) []⟩

/-! ### Checks -/

/-- One check: whether it holds, its code, the lowest register that takes part. -/
structure GroupCheck where
  ok : Bool
  code : Nat
  off : Nat

def incons (ok : Bool) (off : Nat) : GroupCheck := ⟨ok, 0x22, off⟩

def State.stateIs (s : State) (l : List Nat) : Bool := l.contains s.loadState

/-- A target that UNAVAIL and FAIL_TARGET may hold: not SLICE, not a reserved kind. -/
def fallbackTarget (t : Nat) : Bool := tKind t != 3 && decide (tKind t ≤ 6)

/-- A ring of 2^k records inside tier 1 or tier 2. -/
def State.ringArea (s : State) (base k size : Nat) : Bool := s.inTiers base (2 ^ k * size)

/-- R266: largest XOFF of a port's active thresholds. -/
def State.xoffMax (s : State) (n : Nat) : Nat := ((List.range 8).map fun q => s.fld (Reg.wirePfcThreshXoffKib n q)).foldl max 0

def State.wireChecks (s : State) (st : Staging) (n : Nat) : Nat → List GroupCheck
  | 0 =>
    let mode := st.fld (Reg.wirePortCtrlMode n)
    let mf := st.fld (Reg.wirePortCtrlMaxFrame n)
    let udp := st.fld (Reg.wireKrfCtrlUdpPort n)
    let stations := (List.range 4).map fun i =>
      let valid := st.fld (Reg.wireStationValidA n i) == 1 || st.fld (Reg.wireStationValidB n i) == 1
      incons (!(valid && bit (st.fld (Reg.wireStationMac n i)) 40)) (Reg.wireStation n i)
    [incons (mode != 3) (Reg.wirePortCtrl n), incons (mode != 2 || decide (s.xoffMax n ≤ 1792)) (Reg.wirePortCtrl n),
     incons (decide (64 ≤ mf ∧ mf ≤ 16128)) (Reg.wirePortCtrl n)] ++ stations ++
    [incons (!([319, 320, 4789, 6081].contains udp)) (Reg.wireKrfCtrl n)]
  | 1 =>
    let v := st.val (Reg.wireMalformAction n)
    [incons ((List.range 16).all fun r => bits v (2 * r + 1) (2 * r) != 3) (Reg.wireMalformAction n),
     incons (bits v (2 * mMacControl + 1) (2 * mMacControl) != 2) (Reg.wireMalformAction n)]
  | _ =>
    let limit := if s.fld (Reg.wirePortCtrlMode n) = 2 then 1792 else 3840
    (List.range 8).map fun q =>
      incons (decide (st.fld (Reg.wirePfcThreshXonKib n q) < st.fld (Reg.wirePfcThreshXoffKib n q) ∧
        st.fld (Reg.wirePfcThreshXoffKib n q) ≤ limit)) (Reg.wirePfcThresh n q)

def State.timeChecks (st : Staging) : List GroupCheck :=
  let tc := st.fld Reg.timeTcCtrlMode
  let oc := st.fld Reg.timeCtrlOcPort
  let mode := bits tc (2 * oc + 1) (2 * oc)
  let mech := st.fld Reg.timeCtrlDelayMech
  [incons (st.fld Reg.timeCtrlTransport != 3) Reg.timeCtrl,
   incons ((List.range 16).all fun c => bits tc (2 * c + 1) (2 * c) != 3) Reg.timeTcCtrl,
   incons (!(mode == 2 && mech == 0) && !(mode == 1 && mech == 1)) Reg.timeCtrl]

def pulseChecks (st : Staging) (i : Nat) : List GroupCheck :=
  let mode := st.fld (Reg.timePulseCfgMode i)
  let w := st.fld (Reg.timePulseCfgWidth i)
  let p := st.fld (Reg.timePulsePeriodPeriod i)
  [incons (mode != 3) (Reg.timePulseCfg i), incons (decide (10 ≤ w)) (Reg.timePulseCfg i),
   incons (mode != 2 || decide (100 ≤ p)) (Reg.timePulseCfg i), incons (mode != 2 || decide (w < p)) (Reg.timePulseCfg i)]

/-- R186: the smallest partition of each pinned table holds PIN_MAX_ROWS rows. -/
def State.pinChecks (s : State) (st : Staging) : Bool :=
  s.embD.tables.all fun t =>
    let parts := (List.range 4).flatMap fun d => (List.range s.imageClusters).filterMap fun c =>
      (s.partOf d c t.idx).map Part.bytes
    !bit t.flags 1 || parts.all fun b => decide (st.fld Reg.embPressCtrlPinMaxRows * s.embD.stride t ≤ b)

def State.ckptChecks (s : State) (st : Staging) : List GroupCheck :=
  let u := st.fld Reg.fltCkptCtrlUndoSteps
  let area (n : Nat) : Bool :=
    let b := st.fld (Reg.fltCkptBaseBase n)
    let z := st.fld (Reg.fltCkptSizeBytes n)
    let r := s.dieRange ((n + 2) % 4)
    z == 0 || (b % 4096 == 0 && decide (r.1 ≤ b ∧ b + z ≤ r.1 + r.2))
  [⟨s.stateIs [loadEmpty], 1, 0⟩, incons (decide (1 ≤ u ∧ u ≤ 64)) Reg.fltCkptCtrl] ++
  (List.range 4).map fun n => incons (area n) (Reg.fltCkptBase n)

/-- FLAGS of the loaded image. -/
def State.imageFlag (s : State) (k : Nat) : Bool :=
  match s.cfg.image with
  | some im => bit im.flags k
  | none => false

/-- The checks of a group in the order its chapter lists them. -/
def State.groupChecks (s : State) (st : Staging) : List GroupCheck :=
  let inst := bits st.group 11 4
  let sub := st.group % 16
  let notRunning : GroupCheck := ⟨!s.stateIs [loadRunning, loadStopping], 1, 0⟩
  match st.group / 4096 with
  | 0x02 => [notRunning]
  | 0xC0 => [incons (st.fld (Reg.obcLinkCtrlMaxVersion inst) != 0) (Reg.obcLinkCtrl inst)]
  | 0xD0 =>
    let k := st.fld Reg.pcieBar2CfgSizeLog2
    [incons (decide (30 ≤ k ∧ k ≤ 44)) Reg.pcieBar2Cfg,
     incons (st.fld Reg.pcieBar2CfgBase % 2 ^ k == 0) Reg.pcieBar2Cfg]
  | 0x10 => s.wireChecks st inst sub
  | 0x18 =>
    if sub = 0 then
      let u := st.fld Reg.clsFlowCtrlIdleUs
      [incons (decide (1 ≤ u ∧ u ≤ 2000000)) Reg.clsFlowCtrl]
    else (List.range 16).map fun c => incons (fallbackTarget (st.fld (Reg.clsUnavailTarget c))) (Reg.clsUnavail c)
  | 0x20 => [incons (fallbackTarget (st.fld (Reg.brmSliceCtrlFailTarget inst))) (Reg.brmSliceCtrl inst)]
  | 0x30 => if sub = 0 then State.timeChecks st else pulseChecks st (sub - 1)
  | 0x40 =>
    match sub with
    | 1 =>
      let g := st.fld Reg.memT1MapStripedGib
      [⟨s.stateIs [loadEmpty], 1, 0⟩, incons (decide (g % 20 = 0 ∧ g ≤ 1200)) Reg.memT1Map]
    | 0 => [incons (!(st.fld Reg.memGrottoCtrlCacheEnable == 1 && st.fld Reg.memGrottoCtrlPromoteThreshold == 0))
              Reg.memGrottoCtrl,
            incons (decide (st.fld Reg.memGrottoCtrlUnpinShift ≤ 31)) Reg.memGrottoCtrl]
    | _ =>
      let ok (h : Nat) : Bool := decide (1 ≤ h ∧ h ≤ 720)
      [incons (ok (st.fld Reg.memScrubCtrlT1Hours) && ok (st.fld Reg.memScrubCtrlT2Hours)) Reg.memScrubCtrl]
  | 0x50 => [incons (s.pinChecks st) Reg.embPressCtrl]
  | 0x60 =>
    match sub with
    | 0 => [⟨!s.stateIs [loadDistributing, loadRunning, loadStopping], 1, 0⟩,
            incons (st.fld Reg.chkTwinCtrlEnable == 1 || !s.imageFlag 1) Reg.chkTwinCtrl]
    | 1 => [incons (st.fld Reg.chkEchoCtrlInterval != 0) Reg.chkEchoCtrl]
    | _ =>
      let b := st.fld Reg.chkErrRingBase
      let k := st.fld Reg.chkErrRingSizeLog2
      [incons (b % 4096 == 0) Reg.chkErrRing, incons (decide (6 ≤ k ∧ k ≤ 20)) Reg.chkErrRing,
       incons (s.ringArea b k 64) Reg.chkErrRing]
  | 0x70 =>
    if sub = 0 then s.ckptChecks st
    else [incons (st.fld Reg.fltRecoveryCtrlRotateHours != 0 && st.fld Reg.fltRecoveryCtrlSpareHours != 0)
            Reg.fltRecoveryCtrl]
  | 0x80 =>
    match sub with
    | 0 => [incons (st.fld Reg.detCtrlEnable == 1 || !s.imageFlag 0) Reg.detCtrl]
    | 1 => [incons (decide (st.fld Reg.detRankDpRank < 4096)) Reg.detRank, notRunning]
    | _ =>
      let b := st.fld Reg.detTraceRingBase
      let k := st.fld Reg.detTraceRingSizeLog2
      [incons (b % 4096 == 0) Reg.detTraceRing, incons (decide (8 ≤ k ∧ k ≤ 24)) Reg.detTraceRing,
       incons (s.ringArea b k 32) Reg.detTraceRing]
  | 0x90 =>
    let c := st.fld Reg.pwrThrottleCtrlStartC
    [incons (decide (85 ≤ c ∧ c ≤ 105)) Reg.pwrThrottleCtrl]
  | 0xB0 => [⟨!s.fldB Reg.secAlarmActionLock, 1, 0⟩]
  | _ => []

/-- Base that the offsets of a group's registers count from: that of its port or slice, or of its block (R523). -/
def groupBase (g : Nat) : Nat :=
  let b := g / 4096 * 2 ^ 20
  match g / 4096 with
  | 0x10 => b + bits g 11 4 * 2 ^ 16
  | 0x20 => b + bits g 11 4 * 2 ^ 20
  | _ => b

/-- Code and DETAIL of a staging set: 0 where every check holds. DETAIL is an offset within the block (Table 3.18). -/
def State.groupCode (s : State) (st : Staging) : Nat × Nat :=
  match (s.groupChecks st).find? fun c => !c.ok with
  | none => (0, 0)
  | some c => if c.code = 0x22 then (0x22, c.off - groupBase st.group) else (c.code, 0)

/-! ### Requests (R113, R116) -/

def State.isPending (s : State) (g : Nat) : Bool := s.cfg.pendingGroups.any fun p => p.group == g

def State.setChecks (s : State) (l : List Staging) : State := { s with cfg := { s.cfg with checks := l } }

def State.setPendingGroups (s : State) (l : List Staging) : State := { s with cfg := { s.cfg with pendingGroups := l } }

/-- The result of your last request is posted. -/
def State.postCommit (s : State) (g code detail : Nat) : State :=
  let s := (s.setFld Reg.cfgCommitStatusGroup g).setFld Reg.cfgCommitStatusChecking 0
  ((s.setFld Reg.cfgCommitStatusCode code).setFld Reg.cfgCommitStatusDetail detail).raiseIrq irqLoad

/-- A code that refuses the request before any check of its set; every request is refused until READY (R509). -/
def State.requestCode (s : State) (g : Nat) : Nat :=
  if !s.pkg.ready then 1
  else if !groupKnown g then 0x20
  else if s.loadState = loadDistributing ∨ s.flt.stopKind.isSome then 1
  else if s.isPending g then 0x21
  else 0

def State.commitRequest (s : State) (bySteward : Bool) (v : Word) : State :=
  let g := v.toNat % 2 ^ 20
  if !bySteward && s.fldB Reg.cfgCommitStatusChecking then s.setFld Reg.cfgCommitStatusOverrun 1
  else
    let c := s.requestCode g
    if c ≠ 0 then (if bySteward then s else s.postCommit g c 0)
    else
      let t := s.setChecks (s.cfg.checks ++ [s.stage g bySteward])
      if bySteward then t
      else (t.setFld Reg.cfgCommitStatusGroup g).setFld Reg.cfgCommitStatusChecking 1

def execCommitRequest (bySteward : Bool) (value : Word) (s : State) : Host.Outcome State Fault Refusal :=
  done (s.onSteward fun s => s.commitRequest bySteward value)

/-! ### Safe points (R115, Table 3.16) -/

/-- An Obcor link leaves service or trains again (R460, R470). -/
def State.obcLeave (s : State) (l st : Nat) : State :=
  let s := if s.obcUp l then s.bump (Reg.obcCnt l 4) 1 else s
  let s := if s.followsLink l then s.failSource else s
  let s := (s.setFld (Reg.obcLinkStatusVersion l) 0)
  s.setFldIrq irqObcor (Reg.obcLinkStatusState l) st

/-- A new T1_MAP: every address of tier 1 reads some byte that tier 1 held; which one is open (R223). -/
def State.remapTier1 (s : State) : State :=
  let old := blankByte :: ((s.mem.filter fun c => decide (c.1 < tier1Size)).map Prod.snd)
  let pick (a : Nat) : Byte := old.getD ((Config.free64 ((s.fresh + 2 ^ 43) * 2 ^ 42 + a)).toNat % old.length) 0
  let mem := s.mem.foldl (fun (m : List Host.Cell) c =>
    if c.1 < tier1Size then Tab.set blankByte c.1 (pick c.1) m else m) s.mem
  { s with mem := mem, fresh := s.fresh + 1 }

/-- What the active set of a group changes beyond its registers. `before` is the state with the old active set. -/
def State.groupApplied (s before : State) (g : Nat) : State :=
  let inst := bits g 11 4
  let sub := g % 16
  let changed (f : Fld) : Bool := s.fld f != before.fld f
  match g / 4096 with
  | 0xC0 =>
    if changed (Reg.obcLinkCtrlEnable inst) then s.obcLeave inst (if s.fldB (Reg.obcLinkCtrlEnable inst) then 1 else 0)
    else if changed (Reg.obcLinkCtrlMaxVersion inst) || changed (Reg.obcLinkCtrlHalfOk inst) then
      (if s.fldB (Reg.obcLinkCtrlEnable inst) then s.obcLeave inst 1 else s)
    else s
  | 0x10 =>
    if sub = 0 ∧ (changed (Reg.wirePortCtrlMode inst) || changed (Reg.wirePortCtrlPmdAn inst)) then
      let s := (s.portTrainingDone (2 * inst) false 0 0 0).portTrainingDone (2 * inst + 1) false 0 0 0
      (s.setFld (Reg.wirePortStatusLanesLocked inst) 0).setFld (Reg.wirePortStatusAnDone inst) 0
    else s
  | 0x30 =>
    if sub = 0 then (if changed Reg.timeCtrlSource then s.sourceChanged else s) else s.armPulse (sub - 1)
  | 0x40 =>
    if sub = 1 ∧ changed Reg.memT1MapStripedGib then s.remapTier1 else s
  | 0x60 =>
    if sub = 2 then ((s.setReg Reg.chkErrHead 0).setReg Reg.chkErrTail 0).setFld Reg.chkErrStatusFull 0 else s
  | 0x80 =>
    match sub with
    | 0 =>
      let s := s.setFld Reg.detStatusActive (s.fld Reg.detCtrlEnable)
      if s.fldB Reg.detCtrlEnable then s
      else ((s.setFld Reg.detStatusSlipsStep 0).setFld Reg.detStatusFirstXing 15).setFld Reg.detStatusFirstSlipAclk 0
    | 2 => (s.setReg Reg.detTraceHead 0).setReg Reg.detTraceTail 0
    | _ => s
  | _ => s

/-- The staging set is checked again and replaces the active set at once, or is dropped (R114). -/
def State.applyGroup (s : State) (st : Staging) : State :=
  let s := s.setPendingGroups (s.cfg.pendingGroups.filter fun p => p.group != st.group)
  if (s.groupCode st).1 ≠ 0 then
    { s with cfg := { s.cfg with lastCode := Tab.set 0 st.group 0x23 s.cfg.lastCode } }
  else
    let new := (groupRegs st.group).foldl (fun (t : State) o =>
      let m := rwgMask o
      t.setReg o (BitVec.ofNat 64 (((t.reg o).toNat &&& (2 ^ 64 - 1 - m)) ||| (st.val o &&& m)))) s
    let n := (Tab.get 0 st.group new.cfg.applied + 1) % 2 ^ 32
    let new := { new with cfg := { new.cfg with lastCode := Tab.set 0 st.group 0 new.cfg.lastCode,
                                                applied := Tab.set 0 st.group n new.cfg.applied } }
    new.groupApplied s st.group

/-- Groups whose safe point is the step seam. -/
def seamBound (g : Nat) : Bool := g / 4096 == 0x50 || g / 4096 == 0x80 || g / 4096 == 0xE0

/-- No step runs and none is being recovered (R88, Table 11.13). -/
def State.unitsStopped (s : State) : Bool := !s.stepRunning && s.flt.stopKind.isNone

/-- A commit applies at once: the blocks whose safe point is immediate, and a group whose block stands still, because its
port or link is down, its slice is stopped or no step runs (R115, Table 3.16). -/
def State.quiet (s : State) (g : Nat) : Bool :=
  let inst := bits g 11 4
  match g / 4096 with
  | 0x10 => !s.portUp (2 * inst) && !s.portUp (2 * inst + 1)
  | 0x18 => !(List.range 16).any s.portUp
  | 0x20 => s.fldB (Reg.brmSliceCtrlStop inst) || s.loadState == loadDistributing || s.wire.model.slice inst == []
  | 0xC0 => !s.obcUp inst
  | 0xD0 => !s.fldB Reg.pcieStatusLinkUp
  | b => [0x00, 0x02, 0x60, 0x70, 0x90, 0xB0].contains b || (seamBound g && s.unitsStopped)

/-- The safe point that a group waits for may be now. -/
def State.safeNow (s : State) (g : Nat) : Bool :=
  if seamBound g then s.unitsStopped
  else if g / 4096 = 0x30 then s.wholeMicro
  else true

/-- R113: the checks of the oldest request end. -/
def State.commitCheckDone (s : State) : State :=
  match s.cfg.checks with
  | [] => s
  | st :: rest =>
    let s := s.setChecks rest
    let c := if s.isPending st.group then (0x21, 0) else s.groupCode st
    let s := if st.bySteward then s else s.postCommit st.group c.1 c.2
    if c.1 ≠ 0 then s
    else
      let s := s.setPendingGroups (s.cfg.pendingGroups ++ [st])
      if s.quiet st.group then s.applyGroup st else s

def execCommitCheckDone (s : State) : Host.Outcome State Fault Refusal :=
  done (s.onSteward fun s => s.commitCheckDone)

def State.commitApply (s : State) (g : Nat) : State :=
  match s.cfg.pendingGroups.find? fun p => p.group == g with
  | some st => if s.safeNow g then s.applyGroup st else s
  | none => s

def execCommitApply (group : BitVec 20) (s : State) : Host.Outcome State Fault Refusal :=
  done (s.onSteward fun s => s.commitApply group.toNat)

/-- Seam-bound commits in the order they were accepted (R388). -/
def State.applySeamGroups (s : State) : State :=
  (s.cfg.pendingGroups.filter fun p => seamBound p.group).foldl State.applyGroup s

end Sys2Proof.Machine
end

