-- ==== Sys2Proof/Machine/Maint.lean ====
section
/-! DEFINITION. Changes of the unit maps: the parent rule, substitutes and re-admission, rotation, and the unit commands
(R31 to R35, R378, R384, R385, R401, R402). -/

namespace Sys2Proof.Machine

/-! ### The parent rule (R33) -/

def State.setReturning (s : State) (l : List Nat) : State := { s with flt := { s.flt with returning := l } }

/-- A unit whose children do not suffice is retired by rule 4, and comes back when they do again. -/
def State.parentOne (s : State) (k : Nat) (whole : Bool) : State :=
  let u := s.unit k
  if whole then
    if u.state = stRetired ∧ u.cause = 4 then
      ((s.setUnit k { u with state := stService }).markDirty).setReturning (s.flt.returning ++ [k])
    else s
  else if u.state = stService ∨ u.state = stDue then s.retire k 4
  else s

def State.parentRule (s : State) (d : Nat) : State :=
  let s := (List.range 17).foldl (fun (s : State) p => (List.range 9).foldl (fun (s : State) q =>
    s.parentOne (coreKey d p q) (mapWhole (s.engineMap d p q))) s) s
  (List.range 17).foldl (fun (s : State) p => s.parentOne (clusterKey d p) (mapWhole (s.coreMap d p))) s

/-! ### Map changes (R35, R401) -/

/-- The maps of a die follow the retired sets. -/
def State.rebuildDie (s : State) (d : Nat) : State := (s.parentRule d).rebuildMaps d false

/-- The maps of every die follow the retired sets. -/
def State.rebuild (s : State) : State := (List.range 4).foldl State.rebuildDie s

/-- Logical units whose physical unit differs between two states, each at the highest level that moved. -/
def State.movedUnits (new old : State) : List Nat :=
  (List.range 4).flatMap fun d => (List.range (new.fld (Reg.cluCmapLogicalCount d))).flatMap fun c =>
    if old.physCluster d c != new.physCluster d c then [clusterCode d c]
    else (List.range 8).flatMap fun k =>
      if old.physOf (coreCode d c k) != new.physOf (coreCode d c k) then [coreCode d c k]
      else ((List.range 8).map (engineCode d c k)).filter fun u => old.physOf u != new.physOf u

/-- Key of the physical unit that carries a logical compute unit. -/
def State.carrier (s : State) (u : Nat) : Nat :=
  unitKey (if ucCore u = noCore then 3 else if ucEngine u = 15 then 2 else 1) (s.physOf u)

def State.setRotating (s : State) (l : List Nat) : State := { s with flt := { s.flt with rotating := l } }

/-- A unit is re-admitted: its record with the epoch it recorded, and its count (R401, R402, Table 11.15); the end of a
rotation is a rotation map change too (R385, R413). -/
def State.noteReadmitted (s : State) (k : Nat) : State :=
  let code := if keyClass k = 9 then sliceCode (keyIndex k) else keyIndex k
  let s := s.setReturning (s.flt.returning.filter fun x => x != k)
  let s := if s.flt.rotating.contains k then
      (s.bump (Reg.fltCnt 8) 1).setRotating (s.flt.rotating.filter fun x => x != k)
    else s
  (s.emit 0 0x0102 (s.siteKey k) 0 (k + Tab.get 0 code s.cfg.epochs * 2 ^ 32)).bump (Reg.fltCnt 2) 1

/-- Units that came back and now carry a logical unit. -/
def State.noteReturned (s : State) : State :=
  s.flt.returning.foldl (fun (s : State) k =>
    if (s.logicalOf (keyIndex k)).isNone then s else s.noteReadmitted k) s

/-- A remap of a cluster leaves every row it owns in state Home (R207). -/
def State.homeRows (s : State) (moved : List Nat) : State :=
  s.setLines (s.emb.lines.filter fun l => !moved.contains (clusterCode l.die l.cluster))

/-- The record and the counters of a screen that has ended. A slice is screened at point N, 0, only (R382). -/
def State.screenRecord (s : State) (k : Nat) (pass : Bool) (point test : Nat) : State :=
  let s := s.bump (Reg.fltCnt 3) 1
  let point := if keyClass k = 9 then 0 else point % 4
  let s := if pass then s
    else
      let u := s.unit k
      (s.bump (Reg.fltCnt 4) 1).setUnit k { u with screenFails := min (u.screenFails + 1) 65535 }
  s.emit 0 0x0103 (s.siteKey k) 0 (k + b2n pass * 2 ^ 32 + (if pass then 0 else point * 2 ^ 33 + test % 4096 * 2 ^ 36))

/-- A screen at some stress points that fails; at which of them and in which test is a free value. -/
def State.failScreen (s : State) (points : List Nat) (k : Nat) : State :=
  let f := s.free
  f.2.screenRecord k false (points.getD (f.1 % points.length) 0) (f.1 / 4)

/-- The stress points of Table 11.7, and those of a quick screen before a map change and at start-up (Table 11.8). -/
def allPoints : List Nat := [0, 1, 2, 3]
def quickPoints : List Nat := [0, 3]
def bootPoints : List Nat := [0]

/-- The unit passed a quick screen now. -/
def State.setQuick (s : State) (k : Nat) : State :=
  { s with flt := { s.flt with quickPassed := Tab.put k s.powerSeconds s.flt.quickPassed } }

/-- A quick screen that a unit passes before it takes a position (Table 11.9, step 3; R401). -/
def State.quickPass (s : State) (k : Nat) : State := (s.screenRecord k true 0 0).setQuick k

/-- The unit passed a quick screen within the last 60 s. -/
def State.quickFresh (s : State) (k : Nat) : Bool :=
  match s.flt.quickPassed.find k with
  | some t => decide (s.powerSeconds ≤ t + 60)
  | none => false

/-- Quick screens of many units at once, at point N: each is counted, and one that fails is recorded and struck. -/
def State.massScreen (s : State) (units fails : List Nat) : State :=
  let bad := fails.filter units.contains
  let s := s.bump (Reg.fltCnt 3) (units.length - bad.length)
  bad.foldl (fun (s : State) k => (s.failScreen bootPoints k).strikeSump k 0x0103) s

/-- The units that took a logical position pass their quick screens, where none is fresh. -/
def State.screenMoved (s : State) (moved : List Nat) : State :=
  moved.foldl (fun (s : State) u => if s.quickFresh (s.carrier u) then s else s.quickPass (s.carrier u)) s

/-- The units that took a logical position are screened, and record the new epoch. Where their sections cannot be
reloaded they record epoch 0, and no route reaches them (R122, R401). -/
def State.settle (s : State) (moved : List Nat) : State :=
  if moved = [] then s
  else
    let s := (s.screenMoved moved).homeRows moved
    let r := s.recoveryReload moved
    if r.1 then r.2.noteReturned else r.2.recordEpoch 0 (moved.flatMap r.2.unitsBelow)

/-! ### Spares (R385) -/

/-- A usable cluster of a die that carries no logical cluster. -/
def State.spareCluster (s : State) (d : Nat) : Bool :=
  (List.range 17).any fun p => !s.clusterOut d p && !(s.clusterMap d).contains p

def State.spareCore (s : State) (d p : Nat) : Bool :=
  (List.range 9).any fun q => !s.coreOut d p q && !(s.coreMap d p).contains (some q)

def State.spareEngine (s : State) (d p q : Nat) : Bool :=
  (List.range 9).any fun e => !s.engineOut d p q e && !(s.engineMap d p q).contains (some e)

/-- The die has no free spare at any level. -/
def State.dieStalled (s : State) (d : Nat) : Bool :=
  !s.spareCluster d && (s.clusterMap d).all fun p => !s.spareCore d p &&
    (List.range 9).all fun q => !(s.coreMap d p).contains (some q) || !s.spareEngine d p q

def State.stalledDies (s : State) : Nat := maskOf 4 fun d => !s.lostDie d && s.dieStalled d

/-- SCREEN_STALLED reads whether a die cannot be screened in service. -/
def State.noteStalled (s : State) : State :=
  s.setRecovery Reg.fltRecoveryStatusScreenStalled (b2n (s.stalledDies != 0))

/-- Dies with no usable cluster are lost (R34). -/
def State.loseEmptyDies (s : State) : State :=
  s.loseDies ((List.range 4).filter fun d => s.fld (Reg.cluCmapLogicalCount d) == 0) 0 0

/-- R34 after a map change outside a recovery: a die left with no usable cluster is lost, and the package leaves a job
whose image needs more clusters than are left. `was` is the effective count before. -/
def State.fitJob (s : State) (was : Nat) : State :=
  let t := s.loseEmptyDies
  if t.fld Reg.fltRecoveryStatusLostDies ≠ s.fld Reg.fltRecoveryStatusLostDies then t
  else if t.cfg.image.isSome ∧ t.effectiveClusters < t.imageClusters ∧ t.imageClusters ≤ was then
    (t.leaveFleet 1).endRecovery 5 3 0 t.cfg.run.atSeam
  else t

/-- The maps follow the retired sets at a seam, or while no step runs; contents of moved scratchpads are copied. -/
def State.remap (s : State) : State :=
  let t := s.rebuild
  ((t.settle (t.movedUnits s)).noteStalled).fitJob s.effectiveClusters

/-! ### Rotation (R385) -/

/-- The unit's last rotation lies ROTATE_HOURS back (R384, R408). -/
def State.rotateReady (s : State) (k : Nat) : Bool :=
  match s.flt.rotated.find k with
  | some t => decide (t + s.fld Reg.fltRecoveryCtrlRotateHours * 3600 ≤ s.powerSeconds)
  | none => true

/-- The candidate whose last full screen is the oldest, of those whose rotation is due; the first of equals. -/
def State.oldestScreen (s : State) (ks : List Nat) : Option Nat :=
  (ks.filter s.rotateReady).foldl (fun (b : Option Nat) k =>
    match b with
    | some m => if (s.unit k).lanternLast < (s.unit m).lanternLast then some k else b
    | none => some k) none

/-- A unit goes to Sump with no record behind it; its CAUSE stays. -/
def State.rotateUnit (s : State) (o : Option Nat) : State :=
  match o with
  | some k =>
    let s := s.enterSump k 0 (s.unit k).cause
    { s with flt := { s.flt with rotating := s.flt.rotating ++ [k], rotated := Tab.put k s.powerSeconds s.flt.rotated } }
  | none => s

/-- A unit of the die is in Sump by a rotation. -/
def State.rotates (s : State) (d : Nat) : Bool :=
  s.flt.rotating.any fun k => ucDie (keyIndex k) == d && (s.unit k).state == stSump

/-- One rotation of a die, where none is under way: a cluster while a spare cluster is free, else a core of each cluster
with a spare core. -/
def State.rotateDie (s : State) (d : Nat) : State :=
  let s := s.retireDue d
  let cl := s.clusterMap d
  let t := if s.rotates d then s
    else if s.spareCluster d then s.rotateUnit (s.oldestScreen (cl.map (clusterKey d)))
    else cl.foldl (fun (s : State) p =>
      if s.spareCore d p then
        s.rotateUnit (s.oldestScreen ((s.coreMap d p).filterMap fun o => o.map (coreKey d p)))
      else s) s
  if t = s then s else t.bump (Reg.fltCnt 8) 1

def State.setRotate (s : State) (l : List Nat) : State := { s with flt := { s.flt with rotateDue := l } }

/-- Rotations that wait for the seam. -/
def State.seamRotations (s : State) : State :=
  (s.flt.rotateDue.foldl (fun (s : State) d => s.rotateDie d) s).setRotate []

def State.rotation (s : State) (d : Nat) : State :=
  if !s.fldB Reg.fltRecoveryCtrlRotateEn || s.lostDie d then s
  else if s.unitsStopped then (s.rotateDie d).remap
  else if s.flt.stopKind.isSome ∨ s.flt.rotateDue.contains d then s
  else s.setRotate (s.flt.rotateDue ++ [d])

def execRotation (die : Fin 4) (s : State) : Host.Outcome State Fault Refusal :=
  done (s.onSteward fun s => s.rotation die.val)

/-- R385: the daily record of dies that cannot be screened in service. -/
def State.screenStalled (s : State) : State :=
  let s := s.noteStalled
  if s.stalledDies = 0 then s else s.emit 0 0x0109 s.sitePackage 0 s.stalledDies

def execScreenStalled (s : State) : Host.Outcome State Fault Refusal := done (s.onSteward fun s => s.screenStalled)

/-! ### Unit commands (R402, R410) -/

def cmdSump : Nat := 1
def cmdReadmit : Nat := 2
def cmdScreen : Nat := 3

def State.setResult (s : State) (key code : Nat) (isDone passed : Bool) : State :=
  let s := (s.setFld Reg.fltUnitResultCode code).setFld Reg.fltUnitResultKey key
  (s.setFld Reg.fltUnitResultDone (b2n isDone)).setFld Reg.fltUnitResultPassed (b2n passed)

def State.setCmd (s : State) (c : Option UnitCmd) : State := { s with flt := { s.flt with cmd := c } }

/-- A request on a key completes. -/
def State.cmdDone (s : State) (key : Nat) (passed : Bool) : State :=
  match s.flt.cmd with
  | some c => if c.key = key then (s.setCmd none).setResult key 0 true passed else s
  | none => s

/-- Units that a Lantern screen exists for. -/
def screened (k : Nat) : Bool := [1, 2, 3, 9].contains (keyClass k)

/-- A SUMP of the unit would leave a logical position of its die with no physical unit. -/
def State.sumpEmpties (s : State) (k : Nat) : Bool :=
  let d := ucDie (keyIndex k)
  let t := (s.setUnit k { s.unit k with state := stSump }).rebuild
  1 ≤ keyClass k && keyClass k ≤ 3 && decide (t.fld (Reg.cluCmapLogicalCount d) < s.fld (Reg.cluCmapLogicalCount d))

/-- The code of a unit command; in which order they are judged is DESIGN CHOICE (log entry 198). -/
def State.cmdCode (s : State) (k op : Nat) : Nat :=
  let st := s.unitState k
  if s.flt.cmd.isSome then 4
  else if op = 0 then 5
  else if !keyExists k then 1
  else if op = cmdSump then
    if st ≠ stService ∨ !(screened k || keyClass k == 4) then 2 else if s.sumpEmpties k then 3 else 0
  else if op = cmdReadmit then if screened k && (st == stRetired || st == stSump) then 0 else 2
  else if screened k && st == stSpare then 0 else 2

def State.addScreen (s : State) (k : Nat) (w : ScreenKind) : State :=
  { s with flt := { s.flt with screening := (s.flt.screening.filter fun e => e.1 != k) ++ [(k, w, s.packVersion)] } }

/-- The SUMP request acts: a die reset for a pseudo-channel, else the move and the new maps. -/
def State.sumpNow (s : State) : State :=
  match s.flt.cmd with
  | some c =>
    if c.op ≠ cmdSump then s
    else
      let s := s.cmdDone c.key false
      if keyClass c.key = 4 then
        let d := keyIndex c.key / 64 / 5
        let s := s.beginStop ⟨0, 0, none⟩ 1
        { s with flt := { s.flt with resetDies := s.flt.resetDies ++ [d] } }
      else s.enterSump c.key 0 3
  | none => s

def State.unitCmd (s : State) (op : Nat) (v : Word) : State :=
  let k := Reg.fltUnitCmdKey.of v.toNat
  let code := s.cmdCode k op
  if code ≠ 0 then s.setResult k code true false
  else
    let s := (s.setCmd (some ⟨k, op⟩)).setResult k 0 false false
    if op = cmdSump then (if s.unitsStopped then s.sumpNow.remap else s)
    else s.addScreen k (if op = cmdReadmit then .readmit else .command)

def execUnitCmdSump (value : Word) (s : State) : Host.Outcome State Fault Refusal :=
  done (s.onReady fun s => s.onSteward fun s => s.unitCmd cmdSump value)

def execUnitCmdReadmit (value : Word) (s : State) : Host.Outcome State Fault Refusal :=
  done (s.onReady fun s => s.onSteward fun s => s.unitCmd cmdReadmit value)

def execUnitCmdScreen (value : Word) (s : State) : Host.Outcome State Fault Refusal :=
  done (s.onReady fun s => s.onSteward fun s => s.unitCmd cmdScreen value)

/-! ### Screens (R378, R381, R384) -/

/-- A slice that passed its full screen comes back at once, since no map changes: it passes a quick screen, its section is
reloaded and it records the new epoch; where the reload fails it stays out (R303, R401). -/
def State.readmitSlice (s : State) (k : Nat) : State :=
  let u := sliceCode (keyIndex k)
  let s := if s.quickFresh k then s else s.quickPass k
  let r := s.recoveryReload [u]
  if !r.1 then r.2
  else
    let s := (r.2.setUnit k { r.2.unit k with state := stService }).markDirty
    let m := s.wire.model
    let m := { m with epochs := Tab.set 0 (keyIndex k) (Tab.get 0 u s.cfg.epochs) m.epochs }
    State.noteReadmitted { s with wire := { s.wire with model := m } } k

/-- A full screen of pack `pack` is passed. A unit from Sump or retirement is healthy again and keeps its old epoch until it
is re-admitted (R122; R378 calls that epoch 0: DEDUCED, log entry 175). -/
def State.passUnit (s : State) (k pack : Nat) : State :=
  let u := s.unit k
  let back := u.state == stSump || u.state == stRetired
  let s := s.setUnit k { u with lanternLast := s.powerSeconds, lanternVersion := pack }
  if back && keyClass k == 9 then s.readmitSlice k
  else
    let s := s.setUnit k { s.unit k with state := stService }
    if !back then s
    else s.markDirty.setReturning ((s.flt.returning.filter fun x => x != k) ++ [k])

/-- A screen finishes: one that runs, or the quick screen of a spare before its map change. -/
def State.screenComplete (s : State) (k : Nat) (pass : Bool) (point test : Nat) : State :=
  match s.flt.screening.find? fun e => e.1 == k with
  | some e =>
    let s := s.screenRecord k pass point test
    let s := { s with flt := { s.flt with screening := s.flt.screening.filter fun e => e.1 != k } }
    let s := if pass then s.passUnit k e.2.2
      else (s.retire k 0).setRotating (s.flt.rotating.filter fun x => x != k)
    let s := if s.unitsStopped then s.remap else s
    s.cmdDone k pass
  | none =>
    if keyExists k && screened k && s.unitState k == stSpare then
      let s := s.screenRecord k pass point test
      if pass then s.setQuick k
      else s.strikeSump k 0x0103
    else s

def execScreenComplete (key : BitVec 32) (pass : Bool) (point : BitVec 3) (test : BitVec 12) (s : State) :
    Host.Outcome State Fault Refusal :=
  done (s.onSteward fun s => s.screenComplete key.toNat pass point.toNat test.toNat)

/-- Every compute unit of the package, by key. -/
def computeUnits : List Nat := (List.range 4).flatMap dieUnits

/-- SPARE_HOURS have passed since the spare units last began their screens (R384, R408). -/
def State.spareDue (s : State) : Bool :=
  match s.flt.spareAt with
  | some t => decide (t + s.fld Reg.fltRecoveryCtrlSpareHours * 3600 ≤ s.powerSeconds)
  | none => true

/-- R384: spare units not in Sump begin their full screens. -/
def State.spareScreen (s : State) : State :=
  if !s.spareDue then s
  else
  let s : State := { s with flt := { s.flt with spareAt := some s.powerSeconds } }
  (computeUnits.filter fun k => s.unitState k == stSpare).foldl (fun (s : State) k =>
    if s.flt.screening.any fun e => e.1 == k then s else s.addScreen k .spare) s

def execSpareScreen (s : State) : Host.Outcome State Fault Refusal := done (s.onSteward fun s => s.spareScreen)

/-! ### Windows (R374, R375) -/

/-- R375: the oldest strike of a unit leaves the window. -/
def State.strikeExpiry (s : State) (k : Nat) : State :=
  let u := s.unit k
  match u.strikes with
  | t :: rest => if t + strikeWindow ≤ s.powerSeconds then s.setUnit k { u with strikes := rest } else s
  | [] => s

def execStrikeExpiry (key : BitVec 32) (s : State) : Host.Outcome State Fault Refusal := done (s.strikeExpiry key.toNat)

/-- A unit's 24-hour window ends: its corrected count starts again (R374). -/
def State.corrected24h (s : State) (k : Nat) : State :=
  if !keyExists k then s else s.setUnit k { s.unit k with corrected24 := 0 }

def execCorrected24hWindow (key : BitVec 32) (s : State) : Host.Outcome State Fault Refusal :=
  done (s.corrected24h key.toNat)

end Sys2Proof.Machine
end

