-- ==== Sys2Proof/Machine/Seam.lean ====
section
/-! DEFINITION. Runs and step seams: START, STOP and ABORT, the launch of a step, what a seam checks and does, and the
holds that delay the next step (R88, R101, R109, R110, R332, R346, R347, R353, R355, R356, R387 to R390, R427 to R429). -/

namespace Sys2Proof.Machine

/-! ### The state of a step -/

/-- A step begins (R88, R436): its slip fields start again and the look-ahead scans run (R216). -/
def State.beginStep (s : State) : State :=
  let s := s.clearStep
  let s := s.setRun { s.cfg.run with stepRunning := true, atSeam := true, armed := false, late := false }
  let s := ((s.setFld Reg.detStatusSlipsStep 0).setFld Reg.detStatusFirstXing 15).setFld Reg.detStatusFirstSlipAclk 0
  let s := if s.fld Reg.fltRecoveryStatusPhase = 5 then s.setRecovery Reg.fltRecoveryStatusPhase 0 else s
  s.noteLive.clearBanks.scanStart

/-! ### Holds at a seam -/

/-- Compute sections of a partial reload wait for their distribution (R101). -/
def State.reloadDue (s : State) : Bool :=
  match s.cfg.load with
  | some j => j.dieDue
  | none => false

/-- The step copy of this seam begins (R388). -/
def State.takeCopy (s : State) : State :=
  let c := s.stepCopyNow
  let s := (List.range 4).foldl State.openArea s
  { s with flt := { s.flt with copy := some c, copyDue := false, copying := true } }

def State.echoOn (s : State) : Bool := s.fldB Reg.chkEchoCtrlEnable

/-- Step `k` ends on a round (R353, R390). -/
def State.isRound (s : State) (k : Nat) : Bool := (k + 1) % max 1 (s.fld Reg.chkEchoCtrlInterval) == 0

def State.setAgreed (s : State) (k : Nat) : State := s.setReg Reg.chkEchoAgreed (BitVec.ofNat 64 k)

/-- The candidate slot takes the copy of this seam; with echo rounds off, or where its round has agreed while the seam's
copies were made, it is agreed at once (R390). -/
def State.fillRound (s : State) : State :=
  let agreed := !s.echoOn || s.reg Reg.chkEchoAgreed == BitVec.ofNat 64 (s.stepIndex - 1)
  let keep := if agreed then [] else s.flt.rounds.filter fun x => x.agreed
  let slot : RoundSlot := ⟨s.stepIndex, s.stepCopyNow, agreed⟩
  let s := { s with flt := { s.flt with rounds := keep ++ [slot], roundDue := false } }
  if agreed then s.setAgreed (s.stepIndex - 1) else s

/-- A round has been passed by LAG steps without its verdict (R355). -/
def State.echoOverdue (s : State) : Bool :=
  s.chk.rounds.any fun r => decide (r + s.fld Reg.chkEchoCtrlLag + 1 ≤ s.stepIndex)

/-- A SAVE that waits for its seam. -/
def State.savePending (s : State) : Option SnapJob :=
  match s.det.snap with
  | some j => if j.op = 1 ∧ !j.copying then some j else none
  | none => none

/-- The package goes on with a seam: what the seam still owes in the order of R388 and R427, then the next step. -/
def State.seamNext (s : State) : State :=
  if s.stepRunning || s.flt.stopKind.isSome || !s.cfg.run.atSeam || s.reloadDue || s.flt.copying then s
  else if s.flt.copyDue then s.takeCopy
  else
    let s := if s.flt.roundDue && !s.flt.rounds.any (fun x => !x.agreed) then s.fillRound else s
    let s := match s.savePending with
      | some j => s.beginSave j
      | none => s
    if s.snapBusy || s.loadState != loadRunning then s
    else if s.flt.roundDue || s.echoOverdue then s.setHold true
    else
      let s := s.endHold
      if s.cfg.run.armed then s else s.beginStep

/-- Work that a seam begins with: accepted seam-bound commits, link retrains (R376), unit commands and rotations, new
maps. -/
def State.seamWork (s : State) : State := (s.applySeamGroups.retrainMarked.sumpNow.seamRotations).remap

/-! ### Runs (R109, R110) -/

/-- STEP_LIMIT is kept as written; the other bits of RUN_CTRL act. -/
def State.setLimit (s : State) (v : Word) : State :=
  s.setFld Reg.cfgRunCtrlStepLimit (Reg.cfgRunCtrlStepLimit.of v.toNat)

/-- The code that refuses a START (R110). A job whose image needs more clusters than are left cannot continue (R34): its
START takes the code of such an image at load (DESIGN CHOICE, log entry 174). -/
def State.startCode (s : State) : Nat :=
  if s.loadState ≠ loadLoaded ∨ s.busy ∨ !s.cfg.run.atSeam then 1
  else if s.effectiveClusters < s.imageClusters then 0x0D
  else if (s.imageFlag 0 && !s.deterministic) || (s.imageFlag 1 && !s.fldB Reg.chkTwinCtrlEnable) then 0x1A
  else 0

/-- The package is RUNNING from CFG.STEP; a START with AT waits for RUN_AT. -/
def State.startRun (s : State) (at_ : Bool) : State :=
  let late := at_ && decide ((s.reg Reg.cfgRunAt).toNat < s.glc)
  let n := s.fld Reg.cfgRunCtrlStepLimit
  let s := s.setRun { s.cfg.run with armed := at_, late := late,
                                     stepsLeft := if n = 0 then none else some n }
  let s := s.setLoadState loadRunning
  let s := if at_ then (s.setFld Reg.timeLaunchStatusPending 1).setFld Reg.timeLaunchStatusLate (b2n late) else s
  let s := if late then s.raiseIrq irqTime else s
  let s := { s with flt := { s.flt with copyDue := s.ckptOn } }
  s.seamNext

def State.runStart (s : State) (at_ : Bool) (v : Word) : State :=
  let s := s.onReady fun s => s.setLimit v
  let s := s.setLoadCode s.startCode noSection 0
  if s.startCode ≠ 0 then s else s.startRun at_

def execRunStart (value : Word) (s : State) : Host.Outcome State Fault Refusal :=
  done (s.onSteward fun s => s.runStart false value)

def execRunStartAt (value : Word) (s : State) : Host.Outcome State Fault Refusal :=
  done (s.onSteward fun s => s.runStart true value)

/-- R332: the armed step begins at a 5 ns frame boundary. -/
def State.atLaunch (s : State) : State :=
  let r := s.cfg.run
  let due := r.late || decide ((s.reg Reg.cfgRunAt).toNat ≤ s.glc)
  if r.armed && due && s.upTime % 5 == 0 && s.loadState == loadRunning && s.seamFree && !s.snapBusy && !s.flt.echoHold then
    let s := s.setReg Reg.timeLaunchGlc (BitVec.ofNat 64 s.glc)
    let s := (s.setFld Reg.timeLaunchStatusPending 0).setFld Reg.timeLaunchStatusErrEst (s.fld Reg.timeStatusErrEst)
    (s.setFld Reg.timeLaunchStatusHoldover (b2n (s.servo == timeHoldover))).beginStep
  else s

def execAtLaunch (s : State) : Host.Outcome State Fault Refusal := done s.atLaunch

/-- The package becomes LOADED at the seam it is at. -/
def State.toLoaded (s : State) : State :=
  let s := s.setRun { s.cfg.run with armed := false, late := false, stepsLeft := none }
  let s := s.setFld Reg.timeLaunchStatusPending 0
  s.endHold.setLoadState loadLoaded

/-- LOADED at the next seam; at once where no step runs. -/
def State.stopRun (s : State) : State :=
  if s.loadState ≠ loadRunning then s
  else if s.stepRunning then s.setLoadState loadStopping
  else s.toLoaded

def State.runStop (s : State) (v : Word) : State := (s.setLimit v).stopRun

def execRunStop (value : Word) (s : State) : Host.Outcome State Fault Refusal :=
  done (s.onReady fun s => s.runStop value)

/-- Bytes that an entry in flight would write, where its operands have arrived. -/
def State.wouldWrite (s : State) (x : Ent) : Tab Byte :=
  if !s.streamsReady x || (x.e.op == 0x11 && !s.exchangeReady x) then []
  else
    let rs := if x.e.op = 0x11 then
        let peers := s.exchangePeers x
        match (s.ownParts x peers).find? fun p => p.2 == x with
        | some p => (s.exchangeResult peers x p.1).1
        | none => []
      else (s.compute x (s.holeOf x)).1
    (rs.flatMap (s.outOf x)).foldl (fun (t : Tab Byte) o =>
      if o.stream.isSome then t else o.cells.foldl (s.patchCell o) t) []

/-- R110: each byte that the step's entries wrote, or would have written from flight, holds what it held before the
step, what the step has written, or what it would have written; which of them is free (log entry 160). -/
def State.abortOutputs (s : State) (entries : List Ent) : State :=
  let news := entries.flatMap s.wouldWrite
  let old := s.dense.before
  let f := s.fresh + 1
  let pick (k a : Nat) : Bool := bit (freeAt f (2 * a + k)) 0
  let s := s.tickFree.tickFree
  let s := news.foldl (fun (s : State) p => if pick 0 p.1 then s.write p.1 [p.2] else s) s
  -- newest first, so that the oldest value of a byte is the last one restored
  old.foldl (fun (s : State) p => if pick 1 p.1 then s.write p.1 [p.2] else s) s

/-- Entries in flight. -/
def State.flying (s : State) : List Ent :=
  s.dense.seqs.flatMap fun q => q.2.inFlight.filterMap fun i =>
    s.entryAt (ucDie q.1) (ucCluster q.1) (ucCore q.1) i

/-- R110: a running step is cut off, and the package is at no seam. -/
def State.cutOff (s : State) : State :=
  let s := s.abortOutputs s.flying
  let s := (s.dropExports s.stepIndex).clearStep
  let s := s.setRun { s.cfg.run with stepRunning := false, atSeam := false, stepsLeft := none }
  let s := { s with chk := { s.chk with epochsIn := [], epochsOut := [] } }
  s.failSave.setLoadState loadLoaded

/-- ABORT in the STOPPING of a recovery: the step that the stop cut off is not restored, or the run that it halted at a
seam is over; the recovery goes on for its units (R110; DEDUCED, log entry 177). -/
def State.abortStopped (s : State) : State :=
  if s.flt.before.2 then
    let s := { s with flt := { s.flt with before := (loadLoaded, false), rollbackTo := none } }
    s.cutOff
  else if s.flt.before.1 = loadRunning ∨ s.flt.before.1 = loadStopping then
    State.toLoaded { s with flt := { s.flt with before := (loadLoaded, false) } }
  else s

/-- ABORT acts in RUNNING and STOPPING alone (R110). -/
def State.runAbort (s : State) (v : Word) : State :=
  let s := s.setLimit v
  if s.loadState ≠ loadRunning ∧ s.loadState ≠ loadStopping then s
  else if s.flt.stopKind.isSome then s.abortStopped
  else if s.stepRunning then s.cutOff.seamWork
  else s.toLoaded

def execRunAbort (value : Word) (s : State) : Host.Outcome State Fault Refusal :=
  done (s.onReady fun s => s.runAbort value)

/-! ### What a seam checks (R340, R347, R356) -/

/-- Every sequencer and Press has retired, every stream is written, every part has reached its owner (R169, R181), every
twin comparison has passed. -/
def State.stepDone (s : State) : Bool :=
  let cores := s.schedules.all fun sc =>
    let q := s.seq sc.1
    q.next == sc.2.entries.length && q.inFlight.isEmpty
  let presses := (List.range 4).all fun d => (List.range s.imageClusters).all fun c =>
    let p := s.press d c
    !p.running && p.next == (s.plan d c).jobs.length
  let streams := (List.range 4).all fun d => (s.diePlan d).streams.all fun x =>
    x.dir == 0 || x.total == 0 || (s.stream (16 * x.core + x.stream)).written == x.total
  cores && presses && streams && s.emb.parts.isEmpty && s.chk.twinPending.isEmpty

/-- Tables whose four ledgers of the step differ (R356). -/
def State.badLedgers (s : State) : List Nat :=
  (s.embD.tables.map TableD.idx).filter fun t =>
    let ls := (s.chk.ledgers.filter fun l => l.table == t).map fun l => (l.sum1, l.sum2)
    match ls with
    | [] => false
    | x :: _ => ls.length != 4 || ls.any fun y => y != x

/-- A ledger mismatch acts as a poison notice for the participant set. -/
def State.stopLedger (s : State) (ts : List Nat) : State :=
  let s := ts.foldl (fun (s : State) t =>
    (s.emit 1 0x0035 s.sitePackage 0 (t + s.stepIndex % 2 ^ 32 * 2 ^ 32)).bump (Reg.chkCnt 16) 1) s
  let s := { s with chk := { s.chk with epochsIn := [] } }
  s.stopStep ⟨0, 0x0035, none⟩ 0

/-- Weights whose stored bytes a step has read whole: tensor, and whether the read pip differs. -/
def State.pipChecks (s : State) : List (Nat × Bool) :=
  s.chk.pips.filterMap fun p =>
    match findTensor s.tensors p.1, p.2.curRead with
    | some t, some r => if p.2.live && p.2.seen.length == t.count then some (p.1, r != p.2.write) else none
    | _, _ => none

/-- The step stops, and the manager, told by the notice or here itself, rolls the set back (R347, R399). -/
def State.stopPips (s : State) (ts : List Nat) : State :=
  let s := ts.foldl (fun (s : State) t => (s.emit 2 0x0033 s.sitePackage 0 t).bump (Reg.chkCnt 13) 1) s
  let s := s.stopStep ⟨0, 0x0033, none⟩ 2
  if s.manages then s.rollbackAll (s.setOf s.fleetIndex).2 else s

/-- Poison in what the step wrote: the step does not reach its seam (Table 10.2). -/
def State.stopPoison (s : State) (a : Nat) : State :=
  let s := (s.emit 1 0x0013 s.sitePackage 0 (a % 2 ^ 48)).bump (Reg.chkCnt 18) 1
  s.stopStep ⟨0, 0x0013, some a⟩ 0

/-! ### What a seam does -/

/-- The pips of the step become those of the seam (R367). -/
def State.promotePips (s : State) : State :=
  let one (i : Nat) (p : PipState) : PipState :=
    let whole := match findTensor s.tensors i with
      | some t => p.seen.length == t.count
      | none => false
    let p := match p.curRead with
      | some r => if whole then { p with read := r, readValid := true } else p
      | none => p
    match p.curWrite with
    | some (some w) => { p with write := w, writeValid := true, live := true, step := s.stepIndex }
    | some none => { p with live := false }
    | none => p
  let ps := s.chk.pips.map fun (p : Nat × PipState) => (p.1, one p.1 p.2)
  { s with chk := { s.chk with pips := ps } }

/-- The newest version of each stashed weight stands in its first copy (R145). -/
def State.foldStash (s : State) : State :=
  s.tensors.foldl (fun (s : State) t =>
    let c := s.copyOf t (s.newest t.id)
    if t.stash ≤ 1 ∨ c = 0 then s else s.write t.start (s.read (t.start + c * t.copyStep) t.elemBytes)) s

/-- Pins that the counts of the step no longer support are lost (R208). -/
def State.unpinRows (s : State) : State :=
  let limit := s.fld Reg.embPressCtrlPinThreshold >>> s.fld Reg.memGrottoCtrlUnpinShift
  s.setLines (s.emb.lines.map fun l =>
    if s.rowCount l.die l.table l.row < limit then { l with pinned := false } else l)

/-- Banks of STALENESS 1 tables cross the seam; those the step applied are freed (R181, R389). -/
def State.crossBanks (s : State) : State :=
  let keep := s.emb.banks.filter fun b =>
    match s.table (b.1 % 256) with
    | some t => t.staleness == 1
    | none => false
  { s with emb := { s.emb with prev := keep, banks := [], staged := [] } }

/-- The step's ledgers join those since the last round, by table: the sums that its dies share, and the values of all of
them (R356). -/
def State.sumLedgers (s : State) : State :=
  let r := s.chk.ledgers.foldl (fun (q : Tab (Nat × Nat × Nat)) l =>
    let a := Tab.get (0, 0, 0) l.table q
    let own := if l.die = 0 then (l.sum1, l.sum2) else (0, 0)
    Tab.put l.table ((a.1 + own.1) % pipP, (a.2.1 + own.2) % pipP, (a.2.2 + l.values) % pipP) q) s.chk.ledgerSum
  { s with chk := { s.chk with ledgerSum := r } }

/-- The echo digest of the weights and optimizer states at a seam (R353). -/
def State.echoDigest (s : State) : Nat × Nat :=
  let add (a : Nat × Nat × Nat) (v : Nat) : Nat × Nat × Nat :=
    (a.1 + 1, (a.2.1 + pipTerm pipM1 a.1 v) % pipP, (a.2.2 + pipTerm pipM2 a.1 v) % pipP)
  let ts := s.tensors.filter fun t => t.role == 2 || t.role == 6
  (ts.foldl (fun (a : Nat × Nat × Nat) t =>
    (List.range t.count).foldl (fun (a : Nat × Nat × Nat) i => add a (s.readElem t 0 i)) a) (0, 0, 0)).2

def pair128 (p : Nat × Nat) : Nat := p.1 + 2 ^ 64 * p.2

def msgEchoReport : Nat := 0x0B

/-- An echo round: the report goes to the manager, and its verdict is outstanding (R353, R355). -/
def State.echoRound (s : State) (k : Nat) : State :=
  let d := s.echoDigest
  let ls := s.chk.ledgerSum.flatMap fun l => [l.1, pair128 (l.2.1, l.2.2.1), l.2.2.2]
  let s := s.sendMsg ⟨msgEchoReport, s.fleet.managerIndex, [k, pair128 d] ++ ls⟩
  let s := { s with chk := { s.chk with digest := d, ledgerSum := [], rounds := s.chk.rounds ++ [k] } }
  (s.setFld Reg.chkEchoStatusWaiting 1).bump (Reg.chkCnt 14) 1

/-- DET.CNT of a step in deterministic mode. -/
def State.countStep (s : State) : State :=
  if !s.deterministic then s
  else s.bump (Reg.detCnt (if s.fld Reg.detStatusSlipsStep = 0 then 1 else 2)) 1

/-- The state of the seam that ends step `k`. -/
def State.reachSeam (s : State) : State :=
  let k := s.stepIndex
  let s := s.sumLedgers.foldStash.promotePips
  let s := s.unpinRows.crossBanks.countStep
  let s := { s with mm := { s.mm with behind := [] } }
  let left := s.cfg.run.stepsLeft.map fun n => n - 1
  let s := (s.clearStep.seamLive.setStep (k + 1)).setRun { s.cfg.run with stepRunning := false, atSeam := true, stepsLeft := left }
  let s := if s.echoOn && s.isRound k then s.echoRound k else s
  { s with flt := { s.flt with copyDue := s.ckptOn, roundDue := s.roundOn && s.isRound k } }

/-- STOP, or the last step of STEP_LIMIT: LOADED at this seam. -/
def State.stopsHere (s : State) : Bool := s.loadState == loadStopping || s.cfg.run.stepsLeft == some 0

def State.stepSeam (s : State) : State :=
  if !s.stepRunning || !s.stepDone then s
  else
    let bad := s.badLedgers
    let checks := s.pipChecks
    let wrong := (checks.filter Prod.snd).map Prod.fst
    let s := s.bump (Reg.chkCnt 12) checks.length
    if !bad.isEmpty then
      let s := s.stopLedger bad
      if wrong.isEmpty then s else s.stopPips wrong
    else if !wrong.isEmpty then s.stopPips wrong
    else
      match s.dense.wrote.find? fun r => s.isPoisoned r.1 r.2 with
      | some r => s.stopPoison r.1
      | none =>
        let s := s.reachSeam.seamWork
        (if s.stopsHere && s.flt.stopKind.isNone then s.toLoaded else s).seamNext

def execStepSeam (s : State) : Host.Outcome State Fault Refusal := done s.stepSeam

/-! ### Ends of the holds -/

/-- R101: the sections of a partial reload are distributed, with every sequencer holding. -/
def State.partialReloadDone (s : State) (hwFault : Bool) : State :=
  match s.cfg.load, s.cfg.image with
  | some j, some old =>
    match j.image with
    | none => s
    | some im =>
      if !j.dieDue || s.stepRunning || s.flt.stopKind.isSome then s
      else if hwFault then s.loadFaultEnd .part
      else (s.applyReload j im old).seamNext
  | _, _ => s

def execPartialReloadDone (hwFault : Bool) (s : State) : Host.Outcome State Fault Refusal :=
  done (s.onSteward fun s => s.partialReloadDone hwFault)

/-- What the step copy reads. -/
def State.copySources (s : State) : List (Nat × Nat) :=
  (s.tensors.filter copied).map fun t => (t.start, t.copyBytes)

/-- R388: the step copy is complete on every die; the hold is counted in SEAM_COPY_NS. A copy that met a line it could not
read is not held, and is made again. -/
def State.checkpointCopyDone (s : State) (holdNs : Nat) (es : List MemError) : State :=
  if !s.flt.copying then s
  else
    let s := (s.copyReads s.copySources es).bump (Reg.fltCnt 10) holdNs
    if s.flt.stopKind.isSome then { s with flt := { s.flt with copying := false, copyDue := true, copy := none } }
    else State.seamNext { s with flt := { s.flt with copying := false } }

def execCheckpointCopyDone (copy : CopyEnd) (s : State) : Host.Outcome State Fault Refusal :=
  done (s.onSteward fun s => s.checkpointCopyDone copy.holdNs copy.ecc)

/-- A SAVE has copied its area: with PAUSE the package is then LOADED, as STOP would take it. Where a source line could not
be corrected, the SAVE waits for the recovery's outcome (R428). -/
def State.endSave (s : State) (j : SnapJob) (hwFault : Bool) (es : List MemError) : State :=
  let s := s.copyReads s.saveSources es
  if s.flt.stopKind.isSome then
    let s := s.setSnap (some { j with copying := false, hit := true })
    (s.setFld Reg.detSnapStatusBusy 0).setFld Reg.detSnapStatusPending 1
  else if hwFault then (s.endSnap 0x30).seamNext
  else
    let s := (s.bump (Reg.detCnt 6) 1).endSnap 0
    (if j.pause && s.loadState == loadRunning then s.toLoaded else s).seamNext

/-- What a RESTORE or a CHECK reads: its area, and content that was left in place. -/
def State.restoreSources (s : State) (a : Nat) : List (Nat × Nat) :=
  (a, le (s.read a 256) 0x20 8) :: (s.snapRecs a).filterMap fun r =>
    if bit r.flags 0 then some (r.entry.addr, r.entry.len) else none

/-- A RESTORE or a CHECK ends; a line of its area that cannot be corrected is a hardware fault of the copy (R429). -/
def State.endRestore (s : State) (j : SnapJob) (hwFault : Bool) (es : List MemError) : State :=
  let src := s.restoreSources j.addr
  let s := s.meetReads (Reads.of src) 0x3000 es
  if hwFault || src.any fun r => s.isPoisoned r.1 r.2 then
    (if j.op = 2 then s.cutRestore j.addr else s).endSnap 0x30
  else (if j.op = 2 then s.restoreSnap j.addr else s).endSnap 0

def State.snapshotCopyDone (s : State) (hwFault : Bool) (es : List MemError) : State :=
  match s.det.snap with
  | none => s
  | some j =>
    if !j.copying then s
    else
      if j.op = 1 then s.endSave j hwFault es else s.endRestore j hwFault es

def execSnapshotCopyDone (copy : SnapEnd) (s : State) : Host.Outcome State Fault Refusal :=
  done (s.onSteward fun s => s.snapshotCopyDone copy.hwFault copy.ecc)

end Sys2Proof.Machine
end

