-- ==== Sys2Proof/Machine/Recovery.lean ====
section
/-! DEFINITION. Recovery: classification, substitutes, restore, lost lines, die resets, rollback and expulsion
(R390, R393 to R403). -/

namespace Sys2Proof.Machine

/-! ### Classification and substitutes (Table 11.9, steps 2 to 4) -/

/-- Table 11.4 for every cause of the stop; units in state DUE are retired (R376). -/
def State.applyCauses (s : State) : State :=
  let s := s.flt.causes.foldl (fun (s : State) c =>
    if keyExists c.key then s.applyCause c.key c.kind else s) s
  let s := { s with flt := { s.flt with causes := [] } }
  (List.range 4).foldl State.retireDue s

/-- A unit that would take a position and fails its quick screen goes to Sump, and the next spare stands in for it, until
every unit that takes one passes; the maps then change once (R35, Table 11.9). -/
def State.substitute (s : State) (fails : List Nat) : Nat → State
  | 0 => s.rebuild
  | n + 1 =>
    let t := s.rebuild
    let ins := ((t.movedUnits s).flatMap t.unitsBelow).map codeKey
    match fails.find? ins.contains with
    | some k => ((s.failScreen quickPoints k).strikeSump k 0x0103).substitute (fails.filter fun x => x != k) n
    | none => t

/-- Spans of ROLE 0 tensors and INIT_DATA destinations. -/
def State.inputSpans (s : State) : List (Nat × Nat) :=
  (s.tensors.filter fun t => t.role == 0).map (fun t => (t.start, t.bytes)) ++
  (s.sectionsOf 0x00F0).map fun x => (le x.payload 0 8, x.payload.length - 8)

/-- SRAM of a stopped unit is scrubbed; inputs that lay in it are lost, and their words marked. -/
def State.scrubLost (s : State) (a n : Nat) : State :=
  s.inputSpans.foldl (fun (s : State) r =>
    if a ≤ r.1 ∧ r.1 + r.2 ≤ a + n then s.poisonRange r.1 r.2 else s) (s.scrubRange a n)

/-- Newly mapped clusters and cores have empty SRAM. -/
def State.scrubMoved (s : State) (moved : List Nat) : State :=
  moved.foldl (fun (s : State) u =>
    if ucCore u = noCore then s.scrubLost (scratchAddr (ucDie u) (ucCluster u) 0) 0x2000000
    else if ucEngine u = 15 then s.scrubLost (scratchAddr (ucDie u) (ucCluster u) (ucCore u)) 0x100000
    else s) s

/-! ### Restore (R394) -/

/-- The undo banks of every step from the seam of step `t` on are still held. -/
def State.undoHeld (s : State) (t : Nat) (cut : Bool) : Bool :=
  decide (s.stepIndex + b2n cut ≤ t + s.fld Reg.fltCkptCtrlUndoSteps)

/-- Rows that a restore to step `t` writes: their places. -/
def State.undoSpans (s : State) (t : Nat) : List (Nat × Nat) :=
  (s.flt.undo.filter fun u => decide (t ≤ u.step)).filterMap fun u =>
    (s.table u.table).map fun b => (b.rowAddr s.embD u.die u.row, u.bytes.length)

/-- Rows written since the seam of step `t` take their pre-images, from the newest step back. -/
def State.undoBack (s : State) (t : Nat) : State :=
  let s := (s.flt.undo.filter fun u => decide (t ≤ u.step)).reverse.foldl (fun (s : State) u =>
    match s.table u.table with
    | some b => s.write (b.rowAddr s.embD u.die u.row) u.bytes
    | none => s) s
  { s with flt := { s.flt with undo := s.flt.undo.filter fun u => decide (u.step < t) } }

/-- Tensors take their bytes from a step copy. -/
def State.copyBack (s : State) (c : StepCopy) : State :=
  c.tensors.foldl (fun (s : State) p =>
    match findTensor s.tensors p.1 with
    | some t => s.write t.start p.2
    | none => s) s

/-- The crossing banks as they stood at the seam: nothing of them applied. -/
def unapplied (bs : Tab Bank) : Tab Bank :=
  bs.map fun (b : Nat × Bank) =>
    (b.1, { b.2 with rows := b.2.rows.map fun (r : Nat × GradRow) => (r.1, { r.2 with applied := false }) })

/-- Banks in their pending areas. -/
def State.putBanks (s : State) (bs : Tab Bank) : State :=
  bs.foldl (fun (s : State) b =>
    match s.table (b.1 % 256) with
    | some t => s.putBank t (b.1 / 256) b.2
    | none => s) s

/-- R394: the state of the seam of step `t`, from copy `c`; from a round slot the crossing banks come with it. -/
def State.restoreTo (s : State) (t : Nat) (c : StepCopy) (round : Bool) : State :=
  let s := (s.undoBack t).copyBack c
  let prev := unapplied (if round then c.banks else s.emb.prev)
  let s := ((s.dropExports t).clearStep).seamLive.dropTables
  let s := { s with emb := { s.emb with prev := prev } }
  let s := if round then s.putBanks prev else s
  let s := if round then s.unpip fun _ => true else s
  let rounds := s.chk.rounds.filter fun r => decide (r < t)
  let sum := if round then [] else s.chk.ledgerSum
  let s := { s with chk := { s.chk with epochsIn := [], epochsOut := [], rounds := rounds, ledgerSum := sum } }
  let s := s.setFld Reg.chkEchoStatusWaiting (b2n (!rounds.isEmpty))
  let s := { s with flt := { s.flt with copy := some c, copying := false, rounds := s.flt.rounds.filter fun x => decide (x.step ≤ t) } }
  (s.setStep t).setRun { s.cfg.run with atSeam := true, stepRunning := false }

/-- The agreed round slot. -/
def State.agreedSlot (s : State) : Option RoundSlot := s.flt.rounds.find? fun x => x.agreed

/-! ### Lost lines (R395) -/

inductive LostLine where
  /-- Rewritten from the step copy or a pre-image. -/
  | rewritten
  /-- Written with zeros: the ROLE for the record. -/
  | zeroed (role : Nat)
  | needsRound (owner : Nat)
  | needsInput
  | needsImage
  | elsewhere
deriving DecidableEq, Repr

/-- Lines and words that are marked poisoned. -/
def State.lostRanges (s : State) : List (Nat × Nat) :=
  (s.mm.lineMeta.filter fun e => bit e.2 0).map (fun e => (e.1 * 64, 64)) ++
  s.mm.t2Poison.map (fun l => (l * 64, 64)) ++ s.mm.sramPoison.map fun w => (w, 8)

/-- Stream rings, and chunks that write streams write. -/
def State.streamAt (s : State) (a n : Nat) : Bool :=
  (List.range 4).any fun d => (s.diePlan d).streams.any fun x =>
    let ring := scratchAddr (ucDie x.core) (ucCluster x.core) (ucCore x.core) + x.ring
    overlaps ring (x.depth * x.chunk) a n ||
    (x.dir == 1 && (List.range x.total).any fun i => overlaps (x.chunkAddr i) x.chunk a n)

/-- The bank that the running step fills, the staging areas, plain Grotto. -/
def State.scratchAt (s : State) (a n : Nat) : Bool :=
  let fill := s.embD.tables.any fun t => (List.range 4).any fun d =>
    overlaps (t.bankAddr d s.stepIndex) (t.uniqueMax * t.pendSlot) a n
  let stage := (s.spans.filter fun x => x.kind == 3).any fun x => overlaps x.addr x.size a n
  let plain := match s.region a with
    | .window d off =>
      match s.windowPlace d off with
      | .grotto _ o => decide (o < (s.diePlan d).grottoPlain)
      | _ => false
    | _ => false
  fill || stage || plain

/-- Table whose storage, or whose crossing bank, the range meets. -/
def State.tableAt (s : State) (a n : Nat) : Option Nat :=
  (s.spans.find? fun x => (x.kind == 1 || x.kind == 2) && overlaps x.addr x.size a n).map fun x => x.owner / 4

/-- A checkpoint area. -/
def State.ckptAt (s : State) (a n : Nat) : Bool :=
  (List.range 4).any fun d => overlaps (s.fld (Reg.fltCkptBaseBase d)) (s.fld (Reg.fltCkptNeedNeed d)) a n

/-- What a byte of a die's checkpoint area holds, which the layout of the area leaves open: 0 the step copy, 1 the undo
banks, 2 the agreed round slot, 3 the candidate (DESIGN CHOICE, log entry 215). -/
def State.ckptPart (s : State) (d a : Nat) : Nat :=
  let agreed := match s.agreedSlot with
    | some r => r.step
    | none => 0
  let p := (Config.ckptPart d (a - s.fld (Reg.fltCkptBaseBase d)) agreed).toNat
  if s.roundOn then p else p % 2

/-- The range holds what the restore needs of the checkpoint: the undo banks, and the step copy or the agreed round slot.
A stop at a seam restores nothing. -/
def State.ckptNeeds (s : State) (restore : Option Bool) (a n : Nat) : Bool :=
  match restore with
  | none => false
  | some round => s.ckptOn && (List.range 4).any fun d =>
      overlaps (s.fld (Reg.fltCkptBaseBase d)) (s.fld (Reg.fltCkptNeedNeed d)) a n &&
        (s.ckptPart d a == 1 || s.ckptPart d a == if round then 2 else 0)

/-- Table 11.10: the first row that matches. `rows` are the rows that pre-images were applied to, `copy` tells whether
a step copy of the seam is held, `restore` what was restored: the step copy or a round. -/
def State.lostLine (s : State) (rows : List (Nat × Nat)) (copy : Bool) (restore : Option Bool) (a n : Nat) : LostLine :=
  let hits := s.tensors.filter fun t => overlaps t.start t.bytes a n
  match hits.find? copied with
  | some t => if copy then .rewritten else .needsRound t.id
  | none =>
    if rows.any fun r => overlaps r.1 r.2 a n then .rewritten
    else
      match hits.find? fun t => t.role != 0 with
      | some t => .zeroed t.role
      | none =>
        if s.streamAt a n || s.scratchAt a n then .zeroed 0
        else
          match s.tableAt a n with
          | some t => .needsRound t
          | none =>
            if s.ckptNeeds restore a n then .needsRound 0
            else if s.ckptOn && s.ckptAt a n then .elsewhere
            else if s.inputSpans.any fun r => overlaps r.1 r.2 a n then .needsInput
            else
              match s.cfg.buffer with
              | some b => if overlaps b.1 b.2 a n then .needsImage else .elsewhere
              | none => .elsewhere

/-- Bytes of the step copy over a range. -/
def State.patchLine (s : State) (a n : Nat) : State :=
  match s.flt.copy with
  | none => s
  | some c => c.tensors.foldl (fun (s : State) p =>
      match findTensor s.tensors p.1 with
      | some t =>
        let lo := max a t.start
        let hi := min (a + n) (t.start + p.2.length)
        if lo < hi then s.write lo ((p.2.drop (lo - t.start)).take (hi - lo)) else s
      | none => s) s

/-- What one lost line leads to: the state, and the worst outcome so far (1 RESUMED, 2 NEEDS_INPUT, 3 as lost,
4 NEEDS_IMAGE). -/
def State.handleLost (rows : List (Nat × Nat)) (copy : Bool) (restore : Option Bool)
    (p : State × Nat × Option (Nat × Nat)) (r : Nat × Nat) : State × Nat × Option (Nat × Nat) :=
  let s := p.1
  match s.lostLine rows copy restore r.1 r.2 with
  | .rewritten => ((s.patchLine r.1 r.2).clearPoison r.1 r.2, p.2)
  | .zeroed role =>
    let s := s.write r.1 (List.replicate r.2 0)
    ((s.emit 0 0x0106 s.sitePackage 0 (r.1 % 2 ^ 48 + role * 2 ^ 48)).bump (Reg.fltCnt 9) 1, p.2)
  | .needsRound o => (s, max p.2.1 3, some (p.2.2.getD (r.1, o)))
  | .needsInput => (s, max p.2.1 2, p.2.2)
  | .needsImage => (s, max p.2.1 4, p.2.2)
  | .elsewhere => p

/-- Every lost line by Table 11.10: state, worst outcome, first line that only an agreed round can bring back. -/
def State.lostLines (s : State) (rows : List (Nat × Nat)) (copy : Bool) (restore : Option Bool) :
    State × Nat × Option (Nat × Nat) :=
  s.lostRanges.foldl (State.handleLost rows copy restore) (s, 1, none)

/-! ### The end of a recovery (R396) -/

def msgReady : Nat := 0x0A

/-- The package reports to the manager (Table 13.14). -/
def State.sendReady (s : State) (outcome : Nat) : State :=
  if s.fld Reg.hubFleetStatusJoined = 1 then s.sendMsg ⟨msgReady, s.fleet.managerIndex, [s.stepIndex, outcome]⟩ else s

/-- The outcome is reported; under AUTO_RESTART the step reruns at once on a package with no participant set. -/
def State.closeRecovery (s : State) (outcome kind ms : Nat) (seam : Bool) : State :=
  let before := s.flt.before.1
  let left := s.cfg.run.stepsLeft
  let ran := before == loadRunning || before == loadStopping
  let s := s.endRecovery outcome kind ms seam
  let s := if outcome = 4 then (s.setImage none).setBuffer none else s
  let s := if outcome ≠ 4 ∧ !ran then (s.setLoadState before).setRecovery Reg.fltRecoveryStatusPhase 0 else s
  let s := if ran then s.sendReady outcome else s
  let s := if seam then s.seamWork else s
  let again := outcome == 1 && before == loadRunning && s.fldB Reg.fltRecoveryCtrlAutoRestart && s.fleet.members.isEmpty
  let s := if again then (s.setRun { s.cfg.run with stepsLeft := left }).setLoadState loadRunning else s
  s.seamNext

/-- The restore of a rollback to round slot `r`, and its outcome. -/
def State.rollTo (s : State) (r : RoundSlot) (ms : Nat) : State :=
  let rows := s.undoSpans r.step
  let t := (s.restoreTo r.step r.copy true).lostLines rows true (some true)
  let s := t.1.bump (Reg.fltCnt 7) 1
  let s := match t.2.2 with
    | some l => s.emit 1 0x0107 s.sitePackage 0 (l.1 % 2 ^ 48 + l.2 % 2 ^ 16 * 2 ^ 48)
    | none => s
  s.closeRecovery t.2.1 2 ms (t.2.1 ≤ 2)

/-- The agreed round, if the package can return to it. -/
def State.roundFor (s : State) (cut : Bool) : Option RoundSlot :=
  match s.agreedSlot with
  | some r => if s.roundOn && s.undoHeld r.step cut then some r else none
  | none => none

/-- The state is lost; where a rollback was to bring it back, the rollback ends so (R399, R413). -/
def State.loseState (s : State) (l : Option (Nat × Nat)) (kind ms : Nat) : State :=
  let s := if kind = 2 then s.bump (Reg.fltCnt 7) 1 else s
  let s := match l with
    | some l => s.emit 1 0x0107 s.sitePackage 0 (l.1 % 2 ^ 48 + l.2 % 2 ^ 16 * 2 ^ 48)
    | none => s
  s.closeRecovery 3 kind ms false

/-- Restore, lost lines and outcome, for a step that was cut or for a stop at a seam. -/
def State.restoreStep (s : State) (kind ms : Nat) : State :=
  let s := s.setRecovery Reg.fltRecoveryStatusPhase 3
  let cut := s.flt.before.2
  let t := s.stepIndex
  match s.flt.rollbackTo with
  | some g =>
    match s.roundFor cut with
    | some r => if r.step = g then s.rollTo r ms else s.loseState none 2 ms
    | none => s.loseState none 2 ms
  | none =>
    if cut ∧ (!s.ckptOn ∨ s.flt.copy.isNone) then s.loseState none kind ms
    else
      let rows := if cut then s.undoSpans t else []
      let ckpt := (s.lostRanges.find? fun r => cut && s.ckptNeeds (some false) r.1 r.2).map fun r => (r.1, 0)
      match ckpt, s.flt.copy with
      | none, c =>
        let have_ := s.ckptOn && !s.flt.copying && match c with
          | some c => c.step == t
          | none => false
        let s := match c with
          | some c => if cut then s.restoreTo t c false else s
          | none => s
        let r := s.lostLines rows have_ (if cut then some false else none)
        let s := r.1
        if r.2.1 = 3 then
          match s.roundFor cut with
          | some slot => s.rollTo slot ms
          | none => s.loseState r.2.2 kind ms
        else s.closeRecovery r.2.1 (if cut then kind else 3) ms (cut || s.cfg.run.atSeam)
      | some l, _ =>
        match s.roundFor cut with
        | some slot => s.rollTo slot ms
        | none => s.loseState (some l) kind ms

/-- Sections of moved units are reloaded; the package leaves a job that its dies no longer hold (R34, R398). -/
def State.finishRecovery (s : State) (moved extra : List Nat) (kind ms : Nat) : State :=
  let s := ((s.homeRows moved).screenMoved moved).setRecovery Reg.fltRecoveryStatusPhase 4
  let r := if moved.isEmpty && extra.isEmpty then (true, s) else s.recoveryReload (moved ++ extra)
  let s := r.2.noteReturned.noteStalled
  match (List.range 4).filter fun d => !s.lostDie d && s.fld (Reg.cluCmapLogicalCount d) == 0 with
  | d :: ds => s.loseDies (d :: ds) 0 ms
  | [] =>
    if s.cfg.image.isSome && decide (s.effectiveClusters < s.imageClusters) then
      (s.leaveFleet 1).closeRecovery 5 kind ms false
    else if !r.1 then s.closeRecovery 4 kind ms false
    else s.restoreStep kind ms

/-! ### Unit recovery (R393) -/

def State.unitRecovery (s : State) (fails : List Nat) (ms : Nat) : State :=
  if s.flt.stopKind ≠ some 0 ∨ s.pkg.thermTrip then s
  else
    let s := (s.setRecovery Reg.fltRecoveryStatusPhase 2).applyCauses
    let t := s.substitute fails fails.length
    let moved := t.movedUnits s
    let t := (t.scrubMoved moved).bump (Reg.fltCnt 5) 1
    t.finishRecovery moved [] 0 ms

def execUnitRecovery (failScreens : List (BitVec 32)) (durationMs : BitVec 32) (s : State) :
    Host.Outcome State Fault Refusal :=
  done (s.onSteward fun s => s.unitRecovery (failScreens.map BitVec.toNat) durationMs.toNat)

/-! ### Die reset (R397, R211, R212) -/

/-- A retired pseudo-channel is remapped while its die is stopped: its lines keep their contents, and one in `bad`,
which could not be corrected while it was copied, is written with POISON set (R211, Table 6.12). -/
def State.remapPc (s : State) (bad : List Nat) (k rule : Nat) : State :=
  let st := keyIndex k / 64
  let q := keyIndex k % 64
  let s := bad.foldl (fun (s : State) a =>
    if inTier1 a 1 && s.pcOf a == (st, q) then s.poisonAt a else s) s
  let s := s.retire k rule
  let s := s.setReg (Reg.memPcRetired st) (s.reg (Reg.memPcRetired st) ||| BitVec.ofNat 64 (2 ^ q))
  s.setFld (Reg.memStackStateState st) 2

def State.pcsOut (s : State) (st : Nat) : Nat :=
  ((List.range 64).filter fun q => bit (s.reg (Reg.memPcRetired st)).toNat q).length

/-- A stack that fails training or needs a third remap is retired (R212). -/
def State.loseStack (s : State) (st : Nat) : State :=
  (s.retire (unitKey 5 st) 5).setFld (Reg.memStackStateState st) 3

/-- Steps 4 to 6: pseudo-channels on which the error recurs, or that are DUE, are remapped. -/
def State.resetStacks (s : State) (d : Nat) (recurring failed bad : List Nat) : State :=
  let s := (List.range 5).foldl (fun (s : State) i =>
    let st := 5 * d + i
    let s := (List.range 64).foldl (fun (s : State) q =>
      let k := pcKey st q
      let u := s.unit k
      if u.state = stRetired then s
      else if recurring.contains k then s.remapPc bad k 6
      else if u.state = stDue then s.remapPc bad k u.cause
      else s) s
    if 3 ≤ s.pcsOut st then s.loseStack st else s) s
  failed.foldl (fun (s : State) st => if st / 5 = d then s.loseStack st else s) s

/-- The register at an offset is a PRESS, GROT, ECHK or stash counter of a die. -/
def dieCounter (d off : Nat) : Bool :=
  match locate off with
  | some (k, ix) => ix.head? == some d && [Reg.pressCnt 0 0 0, Reg.grotCnt 0 0 0, Reg.echkCnt 0 0 0 0 0,
      Reg.cluStashStallCycles 0].contains k.base
  | none => false

/-- Step 3: the counters of the die start again from 0 (R524). -/
def State.clearDieCounters (s : State) (d : Nat) : State :=
  ((s.regs.map Prod.fst).filter (dieCounter d)).foldl (fun (s : State) o => s.setReg o 0) s

/-- Table 11.12. `ok` is false where the reset of the die's logic, step 3, fails (R398). -/
def State.dieReset (s : State) (d : Nat) (ok : Bool) (recurring failed bad fails : List Nat) (ms : Nat) : State :=
  if s.flt.stopKind ≠ some 1 ∨ !s.flt.resetDies.contains d ∨ s.pkg.thermTrip then s
  else
    let s := (s.setRecovery Reg.fltRecoveryStatusPhase 6).applyCauses
    let s := ((s.clearDieCounters d).resetStacks d recurring failed bad).bump (Reg.fltCnt 6) 1
    if !ok then s.loseDie d 3 ms
    else if (List.range 5).any fun i => s.fld (Reg.memStackStateState (5 * d + i)) == 3 then s.loseDie d 1 ms
    else
      let s := s.scrubLost (windowBase + d * windowSize) windowSize
      -- the Grottos are scrubbed: no row is cached there (R207)
      let s := s.setLines (s.emb.lines.filter fun l => l.die != d)
      let old := s
      let s := s.massScreen ((dieUnits d).filter fun k => !s.outOfMap k) fails
      let left := s.flt.resetDies.filter fun x => x != d
      -- the other dies' maps change once, with the last die that is reset (R35)
      let s := if left.isEmpty then s.rebuild else s.rebuildDie d
      let moved := s.movedUnits old
      let s := (moved.filter fun u => ucDie u == d).foldl (fun (s : State) u => s.setQuick (s.carrier u)) s
      let s := { s with flt := { s.flt with resetDies := left } }
      if left.isEmpty then s.finishRecovery moved [dieCode d] 1 ms
      else
        let r := s.recoveryReload (moved ++ [dieCode d])
        if r.1 then r.2 else r.2.closeRecovery 4 1 ms false

def execDieReset (die : Fin 4) (reset : DieResetEnd) (recurring quickFails : List (BitVec 32)) (durationMs : BitVec 32)
    (s : State) : Host.Outcome State Fault Refusal :=
  done (s.onSteward fun s => s.dieReset die.val reset.ok (recurring.map BitVec.toNat) (reset.stacksFailed.map Fin.val)
    (reset.badLines.map BitVec.toNat) (quickFails.map BitVec.toNat) durationMs.toNat)

/-! ### Rollback and expulsion (R399, R400, Table 11.13) -/

/-- A ROLLBACK message: the rollback replaces the redo of a recovery, and otherwise stops the step itself. -/
def State.rollback (s : State) (target ms : Nat) : State :=
  if s.cfg.image.isNone then s
  else
    let s := { s with flt := { s.flt with rollbackTo := some target } }
    match s.flt.stopKind with
    | some 0 => s
    | some 1 => s
    | k =>
      let s := if k.isNone then s.beginStop ⟨0, 0, none⟩ 2 else s
      if s.pkg.thermTrip then s
      else
      let s := (s.setRecovery Reg.fltRecoveryStatusPhase 2).applyCauses
      let t := s.rebuild
      let moved := t.movedUnits s
      (t.scrubMoved moved).finishRecovery moved [] 2 ms

def execRollback (target : BitVec 64) (durationMs : BitVec 32) (s : State) : Host.Outcome State Fault Refusal :=
  done (s.onSteward fun s => (s.flitFrom s.fleet.managerIndex).rollback target.toNat durationMs.toNat)

/-- Expulsions inside the 720-hour window, saturating. -/
def State.noteExpulsion (s : State) : State :=
  let now := s.powerSeconds
  let es := (s.flt.expulsions.filter fun t => decide (now < t + strikeWindow)) ++ [now]
  ({ s with flt := { s.flt with expulsions := es } } : State).setRecovery Reg.fltRecoveryStatusExpulsions (min es.length 255)

/-- One full screen of an expelled package. -/
def State.expelScreen (s : State) (fails : List Nat) (k : Nat) : State :=
  let u := s.unit k
  if u.state = stRetired then s
  else
    let s := if fails.contains k then s.failScreen allPoints k else s.screenRecord k true 0 0
    if fails.contains k then s.retire k 0
    else
      let u := s.unit k
      s.setUnit k { u with lanternLast := s.powerSeconds, lanternVersion := s.fld Reg.fltPackStatusActiveVersion }

def State.markExpelled (s : State) : State :=
  { s with fleet := { s.fleet with expelled := true }, chk := { s.chk with epochsIn := [] } }

/-- The mass screen of every compute unit of an expelled package. -/
def State.expelScreens (s : State) (fails : List Nat) : State :=
  computeUnits.foldl (fun (s : State) k => s.expelScreen fails k) s

/-- R400. Under THERM_TRIP no screen can run: the step stops, and the expulsion waits for its message to come again (R482;
DESIGN CHOICE, log entry 226). -/
def State.expel (s : State) (round : Nat) (fails : List Nat) (ms : Nat) : State :=
  if s.pkg.thermTrip then (if s.flt.stopKind.isNone then s.beginStop ⟨0, 0, none⟩ 0 else s)
  else
  let s := (s.emit 1 0x0108 s.sitePackage 0 round).noteExpulsion
  let s := s.beginStop ⟨0, 0, none⟩ 0
  let cut := s.flt.before.2
  let s := ((s.dropExports s.stepIndex).clearStep).applyCauses
  let s := s.expelScreens fails
  let s := s.markExpelled.remap
  s.closeRecovery 6 3 ms (s.cfg.run.atSeam && !cut)

def execExpel (roundStep : BitVec 64) (screenFails : List (BitVec 32)) (durationMs : BitVec 32) (s : State) :
    Host.Outcome State Fault Refusal :=
  done (s.onSteward fun s => (s.flitFrom s.fleet.managerIndex).expel roundStep.toNat (screenFails.map BitVec.toNat) durationMs.toNat)

end Sys2Proof.Machine
end

