-- ==== Sys2Proof/Machine/Checking.lean ====
section
/-! DEFINITION. Data between packages until it commits, check tokens, poison notices (R346, R348 to R352, R458), the
record queue and the software rings (R358, R359, R365, R435), and the verdict of an echo round (R354, R390). -/

namespace Sys2Proof.Machine

/-! ### Epochs that arrive (R350) -/

def State.epochIn (s : State) (src epoch : Nat) : EpochState :=
  (s.chk.epochsIn.find? fun x => x.peer == src && x.epoch == epoch).getD
    ⟨src, epoch, 0, 0, [], none, [], true, s.stepIndex, []⟩

def State.dropIn (s : State) (src epoch : Nat) : State :=
  { s with chk := { s.chk with epochsIn := s.chk.epochsIn.filter fun x => !(x.peer == src && x.epoch == epoch) } }

def State.putIn (s : State) (e : EpochState) : State :=
  let t := s.dropIn e.peer e.epoch
  { t with chk := { t.chk with epochsIn := t.chk.epochsIn ++ [e] } }

/-- A commit counts each piece towards its event, and its bytes can be used (R350, R458). -/
def State.countEvents (s : State) (e : EpochState) : State :=
  let t := e.data.foldl (fun (t : Tab Nat) x =>
    let k := 4096 * x.1 + x.2.1
    Tab.put k (Tab.get 0 k t + x.2.2.2.length) t) s.chk.eventBytes
  let got := e.data.map fun x => Arrival.mk e.peer x.1 x.2.1 x.2.2.1 x.2.2.2
  { s with chk := { s.chk with eventBytes := t, received := s.chk.received ++ got } }

/-- An epoch commits once its token is held and the bytes match; a longer count, or an equal one with another pip,
poisons the transfer. -/
def State.settleEpoch (s : State) (e : EpochState) (link : Nat) : State :=
  match e.token with
  | none => s
  | some t =>
    if e.count < t.1 then s
    else if t.1 < e.count then s.transferPoison 0x0030 e.epoch e.peer link 1
    else if e.wholePip ≠ t.2 then s.transferPoison 0x0030 e.epoch e.peer link 2
    else ((s.countEvents e).dropIn e.peer e.epoch).bump (Reg.chkCnt 7) 1

/-- Bytes written to memory by another package; a protected place keeps its bytes (R99, R202). -/
def State.peerWrite (s : State) (a : Nat) (bs : List Byte) : State :=
  if s.meetsPartition a bs.length || s.inImageBuffer a bs.length then
    s.protectedRecord a 0x5002
  else if s.writable a bs.length then s.write a bs
  else s

/-- R458: a data message is written as it arrives, and waits for its epoch's token. -/
def State.obcorData (s : State) (l : Nat) (m : DataMsg) : State :=
  if !s.obcUp l || m.dest.toNat != s.fleetIndex then s
  else
    let a := m.addr.toNat
    let s := (s.bump (Reg.obcCnt l 1) (dataFlits m.data.length)).freeRunning l
    let s := s.peerWrite a m.data
    let e := s.epochIn m.src.toNat m.epoch.toNat
    let e := { e.add m.data with data := e.data ++ [(m.die.val, m.event.val, a, m.data)], step := m.step.toNat }
    (s.putIn e).settleEpoch e l

def execObcorDataReceive (link : Fin 16) (msg : DataMsg) (s : State) : Host.Outcome State Fault Refusal :=
  done (s.obcorData link.val msg)

/-- A check token arrives; one for another package settles nothing here. -/
def State.checkTokenReceive (s : State) (l src dest epoch count pip : Nat) : State :=
  if !s.obcUp l then s
  else
    let s := s.bump (Reg.obcCnt l 1) 1
    if dest ≠ s.fleetIndex then s
    else
    let e := { s.epochIn src epoch with token := some (count, pip) }
    (s.putIn e).settleEpoch e l

def execCheckTokenReceive (link : Fin 16) (ends : TokenEnds) (epoch : BitVec 32) (count pip : BitVec 64) (s : State) :
    Host.Outcome State Fault Refusal :=
  done (s.checkTokenReceive link.val ends.src.toNat ends.dest.toNat epoch.toNat count.toNat pip.toNat)

/-- R351: 10 µs after the last byte of an epoch that is not committed. -/
def State.commitTimeout (s : State) (src epoch : Nat) : State :=
  if s.chk.epochsIn.any fun x => x.peer == src && x.epoch == epoch then
    (s.bump (Reg.chkCnt 10) 1).transferPoison 0x0031 epoch src (s.routeLink src) 3
  else s

def execCommitTimeout (src : BitVec 13) (epoch : BitVec 32) (s : State) : Host.Outcome State Fault Refusal :=
  done (s.commitTimeout src.toNat epoch.toNat)

/-! ### Tokens that leave (R349) -/

/-- The epoch has ended on the sender's clock. -/
def State.epochOver (s : State) (epoch : Nat) : Bool := epoch != s.epochNow

/-- The token of an epoch leaves with its count and pip once every tile behind its data has passed its twin comparison, or
its transfer is poisoned: the egress parity check failed, or it carried poisoned data (R351). -/
def State.checkTokenSend (s : State) (dest epoch : Nat) (parityOk : Bool) : State :=
  match s.chk.epochsOut.find? fun x => x.peer == dest && x.epoch == epoch with
  | none => s
  | some e =>
    if !s.epochOver epoch || e.tiles.any s.chk.twinPending.contains then s
    else
      let l := s.routeLink dest
      let out := s.chk.epochsOut.filter fun x => !(x.peer == dest && x.epoch == epoch)
      let s := { s with chk := { s.chk with epochsOut := out } }
      if parityOk && e.parityOk then
        let s := { s with chk := { s.chk with tokens := s.chk.tokens ++ [(dest, epoch, e.count, e.wholePip)] } }
        (s.bump (Reg.chkCnt 6) 1).flitOut l 1 flitToken 24 epoch
      else
        let s := if parityOk then s else s.emit 1 0x0003 (s.siteHub 11) 0x5002 (5 * 2 ^ 54)
        -- commit point 2, where the poison's own event stopped nothing (R340)
        let s := if e.parityOk || s.flt.stopKind.isSome then s else s.poisonConsumed (s.siteHub 11) 0x5002 0 2
        s.transferPoison 0x0030 epoch s.fleetIndex l 0

def execCheckTokenSend (receiver : BitVec 13) (epoch : BitVec 32) (parityOk : Bool) (s : State) :
    Host.Outcome State Fault Refusal :=
  done (s.checkTokenSend receiver.toNat epoch.toNat parityOk)

/-! ### Poison notices (R352, Table 11.13) -/

/-- Every uncommitted epoch of the step is discarded; one record per step; the step stops unless it has. The notice of a
PIP_MISMATCH makes the manager roll the reporter's set back (R399). -/
def State.poisonNotice (s : State) (l sender reporter epoch cause : Nat) : State :=
  if !s.obcUp l then s
  else
    let s := (s.bump (Reg.obcCnt l 1) 1).bump (Reg.chkCnt 9) 1
    let s := { s with chk := { s.chk with epochsIn := [] } }
    let noted := s.chk.poisonNoted
    let s := if noted then s
      else s.emit 1 0x0032 (s.siteHub 11) 0x5002 (transferSyndrome epoch sender l (if cause < 4 then cause else 0))
    let s := { s with chk := { s.chk with poisonNoted := true } }
    let s := if cause = causePip ∧ s.manages then s.rollbackAll (s.setOf reporter).2 else s
    if s.stepRunning && s.flt.stopKind.isNone then s.beginStop ⟨0, 0x0032, none⟩ 0 else s

/-- The step travels in the notice and changes nothing here. -/
def execPoisonNotice (link : Fin 16) (sender reporter : BitVec 13) (epoch : BitVec 32) (_step : BitVec 64)
    (cause : BitVec 8) (s : State) : Host.Outcome State Fault Refusal :=
  done (s.poisonNotice link.val sender.toNat reporter.toNat epoch.toNat cause.toNat)

/-! ### The record queue (R358, R359) -/

/-- A waiting CORRECTED record is sent with its COUNT. -/
def State.correctedRecordSend (s : State) (kind unitP : Nat) : State :=
  match s.chk.waiting.find? fun r => r.kind == kind && r.unitP == unitP with
  | none => s
  | some r => State.sendRecord { s with chk := { s.chk with waiting := s.chk.waiting.erase r } } r

def execCorrectedRecordSend (kind : BitVec 16) (unitP : BitVec 32) (s : State) : Host.Outcome State Fault Refusal :=
  done (s.correctedRecordSend kind.toNat unitP.toNat)

/-- Room frees after CORRECTED records were dropped: one RECORDS_LOST record, then the held ones. -/
def State.recordsLost (s : State) : State :=
  if s.chk.lost = 0 ∨ hubQueueDepth ≤ s.chk.queue.length then s
  else
    let n := s.chk.lost
    let s := { s with chk := { s.chk with lost := 0 } }
    let s := s.pushRecord (s.makeRecord 0 0x0070 s.sitePackage 0 n)
    let s := s.setFld Reg.chkErrStatusLost 1
    s.releaseHeld s.chk.held.length

def execRecordsLost (s : State) : Host.Outcome State Fault Refusal := done s.recordsLost

/-! ### Consumed records of the software rings (R365, R435) -/

/-- A TAIL write that would pass HEAD sets TAIL to HEAD. -/
def tailAfter (head tail v : Nat) : Nat :=
  if (head + 2 ^ 32 - tail) % 2 ^ 32 < (v + 2 ^ 32 - tail) % 2 ^ 32 then head else v

def State.errTailWrite (s : State) (v : Nat) : State :=
  let s := s.setFld Reg.chkErrTailTail (tailAfter (s.fld Reg.chkErrHeadHead) (s.fld Reg.chkErrTailTail) (v % 2 ^ 32))
  s.setFld Reg.chkErrStatusFull (b2n s.errFull)

def execErrTailWrite (value : Word) (s : State) : Host.Outcome State Fault Refusal :=
  done (s.onReady fun s => s.errTailWrite value.toNat)

def State.traceTailWrite (s : State) (v : Nat) : State :=
  s.setFld Reg.detTraceTailTail
    (tailAfter (s.fld Reg.detTraceHeadHead) (s.fld Reg.detTraceTailTail) (v % 2 ^ 32))

def execTraceTailWrite (value : Word) (s : State) : Host.Outcome State Fault Refusal :=
  done (s.onReady fun s => s.traceTailWrite value.toNat)

/-! ### The verdict of an echo round -/

def verdictAgree : Nat := 1
def verdictOdd : Nat := 2
def verdictSplit : Nat := 3

/-- The candidate slot of an agreed round becomes agreed and replaces the agreed one (R390). -/
def State.agreeSlot (s : State) (k : Nat) : State :=
  if s.flt.rounds.any fun x => x.step == k + 1 then
    let rs := (s.flt.rounds.filter fun x => !x.agreed || x.step == k + 1).map fun x =>
      if x.step == k + 1 then { x with agreed := true } else x
    { s with flt := { s.flt with rounds := rs } }
  else s

/-- A round that did not agree: its record, and the step stops for the rollback or the expulsion that follows. -/
def State.disagree (s : State) (code round replicas : Nat) : State :=
  let s := s.emit 2 0x0034 s.sitePackage 0 (code + min replicas 255 * 2 ^ 8 + round % 2 ^ 32 * 2 ^ 32)
  let s := s.bump (Reg.chkCnt 15) 1
  if s.cfg.image.isSome then s.beginStop ⟨0, 0x0034, none⟩ 2 else s

/-- The verdict of the oldest outstanding round; `step` is the agreed step that the message carries. An AGREE of a round
with an ODD replica names an older agreed step, and the round does not become agreed (R390). -/
def State.verdict (s : State) (code step replicas : Nat) : State :=
  if code = 0 then s
  else
    let round := s.chk.rounds.headD step
    let rest := s.chk.rounds.drop 1
    let s := { s with chk := { s.chk with rounds := rest } }
    let s := (s.setFld Reg.chkEchoStatusVerdict code).setFld Reg.chkEchoStatusWaiting (b2n (!rest.isEmpty))
    let s := s.raiseIrq irqFleet
    if code = verdictAgree then ((s.setAgreed step).agreeSlot step).seamNext
    else s.disagree code round replicas

def execVerdict (code : BitVec 2) (step : BitVec 64) (replicas : Nat) (s : State) : Host.Outcome State Fault Refusal :=
  done ((s.flitFrom s.fleet.managerIndex).verdict code.toNat step.toNat replicas)

end Sys2Proof.Machine
end

