-- ==== Sys2Proof/Machine/Dripstone.lean ====
section
/-! DEFINITION. The package NOR and Lantern packs (R371 to R374, R380, R381, R386, R411). -/

namespace Sys2Proof.Machine

/-! ### Headers and the unit table (R372, R373) -/

def State.setNor (s : State) (n : NorState) : State := { s with flt := { s.flt with nor := n } }

/-- Header copy A is the one in use: valid, with the larger GENERATION. -/
def NorState.usesA (n : NorState) : Bool :=
  n.headerA.valid && (!n.headerB.valid || decide (n.headerB.generation ≤ n.headerA.generation))

def NorState.header (n : NorState) : NorHeader := if n.usesA then n.headerA else n.headerB

/-- A header write goes to the other copy with the next GENERATION. -/
def State.writeHeader (s : State) (table pack : Nat) : State :=
  let n := s.flt.nor
  let h : NorHeader := ⟨true, table, pack, n.header.generation + 1, s.powerSeconds, s.fld Reg.fltLogHeadRingHead,
    s.fld Reg.fltLogHeadRingWraps⟩
  s.setNor (if n.usesA then { n with headerB := h } else { n with headerA := h })

/-- The unit table goes to the copy that is not current, and a header write makes it current. A write that fails is
recorded; which of the copy's sectors failed is open. -/
def State.writeTable (s : State) (ok : Bool) : State :=
  let n := s.flt.nor
  let next := 1 - n.header.table
  if ok then
    let s := s.setNor (if next = 0 then { n with tableA := s.flt.units } else { n with tableB := s.flt.units })
    let s := s.writeHeader next n.header.pack
    { s with flt := { s.flt with stateDirty := false, countsDirty := false } }
  else
    let f := s.free
    f.2.emit 1 0x010A f.2.sitePackage 0 ((if next = 0 then 2 else 10) + f.1 % 8)

def State.dripstoneStateWrite (s : State) (ok : Bool) : State := if s.flt.stateDirty then s.writeTable ok else s

def execDripstoneStateWrite (norOk : Bool) (s : State) : Host.Outcome State Fault Refusal :=
  done (s.onSteward fun s => s.dripstoneStateWrite norOk)

def State.dripstoneCountFlush (s : State) (ok : Bool) : State := if s.flt.countsDirty then s.writeTable ok else s

def execDripstoneCountFlush (norOk : Bool) (s : State) : Host.Outcome State Fault Refusal :=
  done (s.onSteward fun s => s.dripstoneCountFlush norOk)

/-! ### Lantern packs (R380, R381, R386) -/

def packMax : Nat := 12 * 2 ^ 20

/-- A test record of Table 11.6; its program lies between the end of the test table and the signature block (R380). -/
def testOk (low sig : Nat) (t : List Byte) : Bool :=
  [1, 2, 3, 9].contains (le t 0 1) && decide (le t 1 1 < 8) && decide (le t 2 1 < 16) && decide (le t 3 1 ≤ 4) &&
  allZero (t.drop 0x30) &&
  decide (le t 0x28 4 % 64 = 0 ∧ low ≤ le t 0x28 4 ∧ le t 0x28 4 + le t 0x2C 4 ≤ sig)

/-- The sections of a test program, each an entry of Table 3.2 and its payload, rounded to 64 bytes (R381). -/
def programSections : Nat → List Byte → List Section
  | 0, _ => []
  | _, [] => []
  | n + 1, bs =>
    let len := le bs 12 4
    ⟨le bs 0 2, le bs 2 2, le bs 4 4, le bs 8 4, len, sliceBytes bs 16 48, sliceBytes bs 64 len⟩ ::
      programSections n (bs.drop (64 + roundUp len 64))

/-- A section of a test program is whole, with FLAGS as R89 and R90 give them. -/
def programLayout (x : Section) : Bool :=
  x.payload.length == x.length && decide (16 ≤ x.length ∧ x.flags < 4) &&
  match kindInfo x.kind with
  | some (_, r) => bit x.flags 1 == r
  | none => true

/-- The unit of a test's CLASS that a target lies at or below; none for a target above every class. -/
def classUnit (cls u : Nat) : Option Nat :=
  match levelOf u with
  | some .slice => some u
  | some .cluster => some (clusterCode (ucDie u) (ucCluster u))
  | some .core => some (if cls = 3 then clusterCode (ucDie u) (ucCluster u) else u)
  | some .engine => some (match cls with
      | 3 => clusterCode (ucDie u) (ucCluster u)
      | 2 => coreCode (ucDie u) (ucCluster u) (ucCore u)
      | _ => u)
  | _ => none

/-- R381, R91: each target's level fits its kind, and the sections target one unit of the test's CLASS. Sections whose kind
targets the package, a die or the hub name no such unit (DEDUCED, log entry 216). -/
def programTargets (cls : Nat) (xs : List Section) : Bool :=
  let lvl := match cls with | 1 => Level.engine | 2 => Level.core | 3 => Level.cluster | _ => Level.slice
  let units := (xs.filterMap fun x => classUnit cls x.target).eraseDups
  xs.all (fun x =>
    match kindInfo x.kind with
    | some (l, _) => levelOf x.target == some l
    | none => true) &&
  units.all (fun u => levelOf u == some lvl) && decide (units.length ≤ 1)

/-- The test records of a pack at an address. -/
def State.packTests (s : State) (a tt n : Nat) : List (List Byte) := (List.range n).map fun i => s.read (a + tt + 64 * i) 64

/-- The program of a test record: the CLASS and the sections. -/
def State.packProgram (s : State) (a : Nat) (t : List Byte) : Nat × List Section :=
  (le t 0 1, programSections (le t 0x2C 4 / 64 + 1) (s.read (a + le t 0x28 4) (le t 0x2C 4)))

/-- Checks of a pack in the order of R94, then its version: the refusal code. -/
def State.packCode (s : State) (a : Nat) : Option Nat :=
  let h := s.read a 256
  let sig := le h 0x20 8
  let total := le h 0x10 8
  let tt := le h 0x1C 4
  let n := le h 0x18 4
  let blk := s.read (a + sig) 104
  let tests := s.packTests a tt (min n 4096)
  let programs := tests.map (s.packProgram a)
  if h.take 4 ≠ [0x4B, 0x4E, 0x4C, 0x50] then some 0x02
  else if le h 4 2 ≠ 1 then some 0x03
  else if le h 6 2 ≠ 0x4820 then some 0x04
  else if total ≠ sig + 104 ∨ packMax < total ∨ sig % 64 ≠ 0 ∨ tt % 64 ≠ 0 ∨ tt < 256 ∨ n = 0 ∨ 4096 < n ∨
      sig < tt + 64 * n ∨ !allZero (sliceBytes h 0x28 24) ∨ !allZero (h.drop 0x60) ∨ !allZero (sliceBytes blk 2 6) ∨
      !tests.all (testOk (tt + 64 * n) sig) ∨ !programs.all (fun p => p.2.all programLayout) then some 0x05
  else if !s.inTiers a total then some 0x19
  else if le blk 0 1 ≠ 1 ∨ 1 < le blk 1 1 ∨ s.slotKey (2 + le blk 1 1) = none then some 0x06
  else if le h 0x0C 4 < s.fld Reg.secMinVersionPack then some 0x07
  else if !s.signedBy (2 + le blk 1 1) blk (s.read a sig) then some 0x08
  else if !programs.all (fun p => p.2.all fun x => knownKind x.kind || bit x.flags 0) then some 0x0A
  else if !programs.all (fun p => p.2.all fun x => !knownKind x.kind || sha384 x.payload == x.digest) then some 0x0B
  else if !programs.all (fun p => programTargets p.1 p.2) then some 0x0C
  else if le h 8 4 ≤ s.fld Reg.fltPackStatusActiveVersion then some 0x41
  else none

def State.endPack (s : State) (code : Nat) : State :=
  let s := (s.setFld Reg.fltPackStatusBusy 0).setFld Reg.fltPackStatusCode code
  ({ s with flt := { s.flt with packJob := none } } : State).raiseIrq irqPack

/-- A write of GO to PACK_CTRL; `value` other than GO is reserved. -/
def State.packInstall (s : State) : State :=
  let a := s.fld Reg.fltPackAddrAddr
  if s.fldB Reg.fltPackStatusBusy then s
  else if a % 4096 ≠ 0 ∨ !s.inTiers a 256 then s.endPack 0x19
  else
    match s.packCode a with
    | some c => s.endPack c
    | none =>
      let h := s.read a 256
      let s := s.setFld Reg.fltPackStatusBusy 1
      { s with flt := { s.flt with packJob := some (some ⟨le h 8 4, s.read a (le h 0x10 8)⟩) } }

def execPackInstall (_value : Word) (s : State) : Host.Outcome State Fault Refusal :=
  done (s.onReady fun s => s.onSteward fun s => s.packInstall)

/-- The inactive slot is written, read back, and made active by a header write; or the NOR write failed (0x40), with its
record: which sector failed is open. -/
def State.packActivation (s : State) (ok : Bool) : State :=
  match s.flt.packJob with
  | some (some p) =>
    if !ok then
      let f := s.free
      (f.2.emit 1 0x010A f.2.sitePackage 0 ((if s.flt.nor.header.pack = 1 then 530 else 722) + f.1 % 192)).endPack 0x40
    else
      let n := s.flt.nor
      let slot := 1 - n.header.pack
      let s := s.setNor (if slot = 0 then { n with pack0 := some p } else { n with pack1 := some p })
      let s := s.writeHeader n.header.table slot
      (s.setFld Reg.fltPackStatusActiveVersion p.version).endPack 0
  | _ => s

def execPackActivation (norOk : Bool) (s : State) : Host.Outcome State Fault Refusal :=
  done (s.onSteward fun s => s.packActivation norOk)

end Sys2Proof.Machine
end

