-- ==== Sys2Proof/Machine/Hub.lean ====
section
/-! DEFINITION. The posted rings as software sees them, the transmit rings, and the interrupt routes (R446 to R453,
R468, R469). -/

namespace Sys2Proof.Machine

def clsRx : Nat := 0
def clsDeferred : Nat := 1
def clsTx : Nat := 2
def clsCpl : Nat := 3
def clsSvc : Nat := 4

/-! ### The watch line (R447) -/

/-- How far the watch count may move on, so that it does not run more than 2^SIZE_LOG2 ahead of the package's count. The
count that is held lies ahead of the package's, or behind it on a CPL ring. -/
def RingState.watchRoom (r : RingState) : Nat :=
  let p := ahead r.posted r.done
  if p < 2 ^ 31 then 2 ^ r.sizeLog2 - p else 2 ^ r.sizeLog2 + (2 ^ 32 - p)

/-- A watch count that moves backward, or that runs more than 2^SIZE_LOG2 ahead of the package's count. -/
def RingState.badWatch (r : RingState) (w : Nat) : Bool := decide (r.watchRoom < ahead w r.posted)

/-- The hub reads the watch line again and acts on the latest count. -/
def State.watchLine (s : State) (cls i : Nat) : State :=
  let r := s.ring cls i
  if ringCount cls ≤ i ∨ !r.live then s
  else
    let w := le (s.read r.watch 4) 0 4
    if r.badWatch w then s.ringError cls i 1
    else s.setRing cls i { r with posted := w }

def execWatchLineUpdate (cls : Fin 5) (ring : Fin 4096) (s : State) : Host.Outcome State Fault Refusal :=
  done (s.watchLine cls.val ring.val)

/-! ### Enabling and disabling (R448, R468) -/

/-- The ring that RING_SEL names, if it names one. -/
def State.selRing (s : State) : Option (Nat × Nat) :=
  let cls := s.fld Reg.hubRingSelClass
  let i := s.fld Reg.hubRingSelIndex
  if i < ringCount cls then some (cls, i) else none

/-- Lines that other rings use. -/
def State.lineUsed (s : State) (cls i a : Nat) : Bool :=
  s.hub.rings.any fun e =>
    e.1 != ringKey cls i && (e.2.enable || s.ringBusy (e.1 / 4096) (e.1 % 4096)) && (e.2.watch == a || e.2.report == a)

/-- The checks of ENABLE in their order: the ERROR code, 0 for none. -/
def State.ringCode (s : State) (cls i : Nat) (r : RingState) : Nat :=
  let bytes := 2 ^ r.sizeLog2 * entrySize cls r
  let place := if cls = clsDeferred then inTier1 r.base bytes else s.inTiers r.base bytes
  if r.base % 4096 ≠ 0 ∨ r.sizeLog2 < 4 ∨ 16 < r.sizeLog2 ∨ r.watch % 64 ≠ 0 ∨ r.report % 64 ≠ 0 then 0x10
  else if !place || !s.inTiers r.watch 64 || !s.inTiers r.report 64 then 0x11
  else if s.lineUsed cls i r.watch || s.lineUsed cls i r.report || r.watch == r.report then 0x12
  else if cls = clsDeferred ∧ r.version = 0 then 0x13
  else if cls = clsTx ∧ !(s.ring clsCpl r.cpl).enable then 0x14
  else 0

/-- A ring with the fields that a write to RING_CFG gives it, ENABLE left out. -/
def RingState.configured (r : RingState) (v : Nat) : RingState :=
  { r with sizeLog2 := Reg.hubRingCfgSizeLog2.of v, version := Reg.hubRingCfgVersion.of v,
           irq := Reg.hubRingCfgIrq.of v, cpl := Reg.hubRingCfgCpl.of v, holdoff := Reg.hubRingCfgHoldoff.of v }

/-- A write to RING_CFG while ENABLE is 0. -/
def State.ringConfigure (s : State) (v : Nat) : State :=
  match s.selRing with
  | none => s
  | some (cls, i) =>
    if (s.ring cls i).enable then s
    else
      let r := (s.ring cls i).configured v
      if Reg.hubRingCfgEnable.of v = 0 then s.setRing cls i r
      else
        let code := s.ringCode cls i r
        s.setRing cls i { r with enable := code == 0, error := code }

def execRingEnable (value : Word) (s : State) : Host.Outcome State Fault Refusal :=
  done (s.onReady fun s => if Reg.hubRingCfgEnable.of value.toNat = 1 then s.ringConfigure value.toNat else s)

/-- ENABLE 0 on an enabled ring: no new work; transmit entries not begun are dropped. -/
def State.ringDisable (s : State) (v : Nat) : State :=
  match s.selRing with
  | none => s
  | some (cls, i) =>
    let r := s.ring cls i
    if Reg.hubRingCfgEnable.of v = 1 ∨ !r.enable then s
    else s.setRing cls i { r with enable := false, posted := if cls = clsTx then r.taken else r.posted }

def execRingDisable (value : Word) (s : State) : Host.Outcome State Fault Refusal :=
  done (s.onReady fun s => s.ringDisable value.toNat)

/-! ### Transmit (R451) -/

/-- A descriptor of Table 13.6 whose frame cannot be sent. -/
def State.txBad (s : State) (e : List Byte) : Bool :=
  let a := le e 0 8
  let n := le e 8 2
  let c := le e 10 1
  !s.inTiers a n || decide (n < 14) || decide (16124 < n) || decide (16 ≤ c) || !s.halfExists c ||
    decide (s.maxFrame c < n + 4) || !allZero (sliceBytes e 13 3) || !allZero (sliceBytes e 24 8)

/-- A frame that is to be sent: padded to 60 bytes, marked where its buffer reads poisoned. `es` are the errors that the
buffer's read meets. -/
def State.txFrame (s : State) (i : Nat) (e : List Byte) (es : List MemError) : TxJob × State :=
  let a := le e 0 8
  let n := le e 8 2
  let c := le e 10 1
  let s := s.meetReads (.of [(a, n)]) 0x4004 es
  let bad := s.isPoisoned a n
  let s := if bad then (s.emit 1 0x0013 (s.siteHub 11) 0x4004 (a % 2 ^ 48 + 4 * 2 ^ 48)).bump (Reg.chkCnt 18) 1 else s
  let st := if !s.portUp c then 1 else if bad then 3 else 0
  (⟨i, (s.ring clsTx i).taken, c, sliceBytes (s.read a n) 0 (max 60 n), bits (le e 11 1) 2 0, le e 12 1, le e 16 8, st,
    0, false⟩, s)

/-- An enabled CPL ring is full: it holds the TX rings that name it (R451). -/
def RingState.cplFull (r : RingState) : Bool := r.live && ahead r.done r.posted == 2 ^ r.sizeLog2

/-- The next posted entry of a TX ring is read, once every tile that wrote its buffer has passed its twin comparison: a
frame on the egress wire is a commit point (R340, R343). -/
def State.txEntry (s : State) (i : Nat) (es : List MemError) : State :=
  let r := s.ring clsTx i
  if !r.live || r.posted == r.taken || (s.ring clsCpl r.cpl).cplFull then s
  else
    let e := s.read (r.entryAddr clsTx r.taken) 32
    if s.awaitsTwin (le e 0 8) (le e 8 2) then s
    else
    let p := if s.txBad e then (⟨i, r.taken, 16, [], 0, le e 12 1, le e 16 8, 2, 0, false⟩, s) else s.txFrame i e es
    let s := { p.2 with hub := { p.2.hub with txJobs := p.2.hub.txJobs ++ [p.1] } }
    s.setRing clsTx i { s.ring clsTx i with taken := (r.taken + 1) % 2 ^ 32 }

def execTxEntry (entry : TxTake) (s : State) : Host.Outcome State Fault Refusal :=
  done (s.txEntry entry.ring.val entry.ecc)

/-- The job's frame has left, or is not sent. -/
def TxJob.left (j : TxJob) : Bool := j.sent || j.status == 1 || j.status == 2

/-- Record `done` of a CPL ring, written whole, then its count. -/
def State.writeCpl (s : State) (j : TxJob) : State :=
  let c := (s.ring clsTx j.ring).cpl
  let r := s.ring clsCpl c
  let phase := (r.done / 2 ^ r.sizeLog2 + 1) % 2
  let stamp := if bit j.flags 0 then j.stamp else 0
  let rec_ := toLe 8 j.tag ++ toLe 4 stamp ++ toLe 1 j.status ++ toLe 1 phase ++ toLe 2 j.ring
  (s.guardedWrite (r.entryAddr clsCpl r.done) rec_ 0x3001).ringComplete clsCpl c r.done

/-- The oldest entry of the ring completes; a full CPL ring holds it, and one that is not live a record for it. -/
def State.txCompletion (s : State) (i : Nat) : State :=
  match s.hub.txJobs.find? fun j => j.ring == i with
  | none => s
  | some j =>
    let c := s.ring clsCpl (s.ring clsTx i).cpl
    if !j.left || c.cplFull || (bit j.flags 2 && !c.live) then s
    else
      let s := { s with hub := { s.hub with txJobs := s.hub.txJobs.erase j } }
      (if bit j.flags 2 then s.writeCpl j else s).ringComplete clsTx i j.entry

def execTxCompletion (ring : Fin 256) (s : State) : Host.Outcome State Fault Refusal := done (s.txCompletion ring.val)

/-! ### Interrupts (R452, R453) -/

/-- The holdoff of a ring ends: an advance made during it raises the ring's source. -/
def State.holdoffExpiry (s : State) (cls i : Nat) : State :=
  let r := s.ring cls i
  if r.waiting then
    (s.setRing cls i { r with waiting := false, lastRaise := some s.upTime }).raiseIrq r.irq
  else s

def execIrqHoldoffExpiry (cls : Fin 5) (ring : Fin 4096) (s : State) : Host.Outcome State Fault Refusal :=
  done (s.holdoffExpiry cls.val ring.val)

def destLive (d : Nat) : Bool := d == 1 || d == 2

/-- PENDING clears by writing 1; unmasking a pending source delivers at once. -/
def State.routeWrite (s : State) (n v : Nat) : State :=
  let was := destLive (s.fld (Reg.hubIrqRouteDest n))
  let s := ((s.setFld (Reg.hubIrqRouteDest n) ((Reg.hubIrqRouteDest n).of v)).setFld (Reg.hubIrqRouteCore n)
    ((Reg.hubIrqRouteCore n).of v)).setFld (Reg.hubIrqRouteVector n) ((Reg.hubIrqRouteVector n).of v)
  let s := if (Reg.hubIrqRoutePending n).of v = 1 then s.setFld (Reg.hubIrqRoutePending n) 0 else s
  if !was && s.fldB (Reg.hubIrqRoutePending n) then s.deliver n else s

def execIrqRouteWrite (source : Fin 528) (value : Word) (s : State) : Host.Outcome State Fault Refusal :=
  done (s.onReady fun s => s.routeWrite source.val value.toNat)

end Sys2Proof.Machine
end

