-- ==== Sys2Proof/Machine/Services.lean ====
section
/-! DEFINITION. The steward, its services and the application cores (R443 to R445), and commits that the steward makes
itself. -/

namespace Sys2Proof.Machine

/-! ### Commits of the steward -/

/-- The staging set of a commit that the steward makes of fields of one group. -/
def State.stewardStaging (s : State) (g : Nat) (fs : List (Fld × Nat)) : Staging :=
  let val (o : Nat) : Nat := fs.foldl (fun v p => if p.1.off = o then setBits v p.1.hi p.1.lo p.2 else v) (s.reg o).toNat
  ⟨g, true, (groupRegs g).foldl (fun (t : Tab Word) o => Tab.put o (BitVec.ofNat 64 (val o)) t) []⟩

/-- A request of yours for the group is pending, or was made before and will be (R113). -/
def State.groupTaken (s : State) (g : Nat) : Bool :=
  s.isPending g || s.cfg.checks.any fun c => c.group == g && (s.groupCode c).1 == 0

/-- The steward commits fields of one group: refused in DISTRIBUTING (R114), the pending rule holds against its request too
(R113), the group's checks run, and the active set and the shadows take the values. -/
def State.stewardCommit (s : State) (g : Nat) (fs : List (Fld × Nat)) : Nat × State :=
  let st := s.stewardStaging g fs
  let code := if s.loadState = loadDistributing then 1 else if s.groupTaken g then 0x21 else (s.groupCode st).1
  if code ≠ 0 then (code, s)
  else
    let s := fs.foldl (fun (s : State) p =>
      s.setShadow p.1.off (BitVec.ofNat 64 (setBits (s.shadowReg p.1.off).toNat p.1.hi p.1.lo p.2))) s
    (0, s.applyGroup st)

/-! ### Service requests (R445) -/

/-- Address of the oldest request of a service ring, where the steward can take it: one at a time, in ring order. -/
def State.svcRequest (s : State) (i : Nat) : Option Nat :=
  let r := s.ring clsSvc i
  if s.stewardUp && r.live && r.posted != r.taken && r.taken == r.done then some (r.entryAddr clsSvc r.taken) else none

/-- The request is taken. -/
def State.svcTake (s : State) (i : Nat) : State :=
  let r := s.ring clsSvc i
  s.setRing clsSvc i { r with taken := (r.taken + 1) % 2 ^ 32 }

/-- The response of entry `n`: into ARGS, then RESULT, then DONE. -/
def State.svcAnswer (s : State) (i n result : Nat) (args : List Byte) : State :=
  let a := (s.ring clsSvc i).entryAddr clsSvc n
  let s := s.guardedWrite (a + 16) args 0x7002
  let s := s.guardedWrite (a + 3) (toLe 1 result) 0x7002
  let s := s.guardedWrite (a + 2) [s.byte (a + 2) ||| 1] 0x7002
  s.ringComplete clsSvc i n

def svcDone : Nat := 0
def svcUnknown : Nat := 1
def svcBadArg : Nat := 2
def svcState : Nat := 3
def svcVerify : Nat := 4

/-- The service `op` of ring `i`: its request is taken and answered with what `f` makes of the arguments. An opcode
that names no service is answered by whichever service is asked for. -/
def State.serve (s : State) (i op : Nat) (f : State → List Byte → Nat × List Byte × State) : State :=
  match s.svcRequest i with
  | none => s
  | some a =>
    let code := le (s.read a 2) 0 2
    let n := (s.ring clsSvc i).taken
    if code = op then
      let r := f (s.svcTake i) (s.read (a + 16) 48)
      r.2.2.svcAnswer i n r.1 r.2.1
    else if 1 ≤ code ∧ code ≤ 7 then s
    else (s.svcTake i).svcAnswer i n svcUnknown []

def execIdentity (ring : Fin 2) (s : State) : Host.Outcome State Fault Refusal :=
  done (s.serve ring.val 1 fun s _ =>
    (svcDone, toLe 16 s.pkg.serial.toNat ++ toLe 4 s.pkg.romVersion ++ toLe 4 s.pkg.fwVersion ++
      toLe 4 (s.fld Reg.fltPackStatusActiveVersion), s))

/-! ### DRIPSTONE_COPY (R371 to R374) -/

def headerBytes (h : NorHeader) : List Byte :=
  let b := [0x4B, 0x4E, 0x44, 0x4C] ++ toLe 2 1 ++ toLe 1 h.table ++ toLe 1 h.pack ++ toLe 8 h.generation ++
    toLe 4 h.powerSeconds ++ toLe 4 h.ringHead ++ toLe 4 h.ringWraps
  b ++ toLe 4 (crc32c b)

/-- Every key of Table 11.2. -/
def allKeys : List Nat :=
  computeUnits ++ (List.range 1280).map (unitKey 4) ++ (List.range 20).map (unitKey 5) ++
  ((List.range 320).filter fun i => keyExists (unitKey 6 i)).map (unitKey 6) ++ (List.range 10).map (unitKey 7) ++
  (List.range 16).map (unitKey 8) ++ (List.range 16).map (unitKey 9) ++ (List.range 72).map (unitKey 10) ++
  (List.range 4).map (unitKey 11)

def unitBytes (k state : Nat) (u : UnitEntry) : List Byte :=
  toLe 4 k ++ toLe 1 state ++ toLe 1 u.cause ++ toLe 1 (min u.strikes.length 255) ++ toLe 1 u.hardBits ++
  toLe 4 u.lastStrike ++ toLe 4 u.corrected24 ++ toLe 4 u.totalEvents ++ toLe 2 u.sumpCount ++ toLe 2 u.screenFails ++
  toLe 4 u.lanternLast ++ toLe 4 u.lanternVersion

/-- The current unit table of the NOR, in the order of the keys. -/
def State.tableBytes (s : State) : List Byte :=
  let n := s.flt.nor
  let t := if n.header.table = 0 then n.tableA else n.tableB
  allKeys.flatMap fun k =>
    let u := Tab.get UnitEntry.fresh k t
    unitBytes k (if u.state = stService ∧ s.unitState k = stSpare then stSpare else u.state) u

def dripTable : Nat := 32
def dripRing : Nat := 32 + 524288
def dripBytes : Nat := dripRing + eventSlots * 64

/-- Header, unit table and event ring follow one another; NOR bytes that nothing has written are open. A destination that
meets the image buffer keeps its bytes (R99). -/
def State.dripCopy (s : State) (a : Nat) : State :=
  let s := s.writeFree a dripBytes
  let s := (s.write a (headerBytes s.flt.nor.header)).write (a + dripTable) s.tableBytes
  s.flt.nor.ring.foldl (fun (s : State) e => s.write (a + dripRing + 64 * e.1) e.2) s

def execDripstoneCopy (ring : Fin 2) (s : State) : Host.Outcome State Fault Refusal :=
  done (s.serve ring.val 2 fun s args =>
    let a := le args 0 8
    if a % 4096 = 0 ∧ s.inTiers a dripBytes then (svcDone, toLe 8 dripBytes, s.dripCopy a)
    else (svcBadArg, [], s))

/-! ### FIRMWARE_STAGE (R494, stage 3) -/

/-- Signed code, then the block of Table 3.5: the key slot among those of a class that starts at slot `base`. -/
def State.blockOk (s : State) (base : Nat) (bytes : List Byte) : Bool :=
  let code := bytes.take (bytes.length - 104)
  let blk := bytes.drop (bytes.length - 104)
  le blk 0 1 == 1 && decide (le blk 1 1 ≤ 1) && allZero (sliceBytes blk 2 6) && s.signedBy (base + le blk 1 1) blk code

/-- Where the firmware holds its versions is open: both are free values. -/
def State.stageFirmware (s : State) (a n : Nat) : Nat × List Byte × State :=
  if n ≤ 104 ∨ 0x1000000 < n ∨ !s.inTiers a n then (svcBadArg, [], s)
  else if !s.blockOk 0 (s.read a n) then (svcVerify, [], s)
  else
    let sec := s.free
    let ver := sec.2.free
    let s := ver.2
    if sec.1 % 256 < s.fld Reg.secMinVersionFirmware then (svcVerify, [], s)
    else
      let v := ver.1 % 2 ^ 32
      (svcDone, toLe 4 v, { s with pkg := { s.pkg with stagedFw := some v } })

def execFirmwareStage (ring : Fin 2) (s : State) : Host.Outcome State Fault Refusal :=
  done (s.serve ring.val 3 fun s args => s.stageFirmware (le args 0 8) (le args 8 8))

/-! ### FLEET_JOIN and FLEET_LEAVE (R462) -/

/-- Obcor versions that the package supports, as a mask (Table 13.13). -/
def ownVersions : Nat := 14

/-- JOIN: serial, grade, effective cluster count, versions, previous index (Table 13.14). -/
def State.sendJoin (s : State) : State :=
  s.sendMsg ⟨1, s.fleet.managerIndex, [s.pkg.serial.toNat, if s.pkg.gradeE then 2 else 1, s.effectiveClusters, ownVersions,
    s.fleetIndex]⟩

/-- A manager is in its own fleet with index 0; the others ask to join, and their request waits for the WELCOME. -/
def State.fleetJoin (s : State) (i : Nat) : State :=
  match s.svcRequest i with
  | none => s
  | some a =>
    let args := s.read (a + 16) 3
    let n := (s.ring clsSvc i).taken
    let role := le args 0 1
    if role = 0 ∨ 3 < role then (s.svcTake i).svcAnswer i n svcBadArg []
    else
      let r := (s.svcTake i).stewardCommit 0x02000 [(Reg.hubRoleRole, role), (Reg.hubRoleFleet, le args 1 2)]
      let s := r.2
      if r.1 ≠ 0 then s.svcAnswer i n svcState []
      else if role = roleManager then
        ((s.setFleet Reg.hubFleetStatusIndex 0).setFleet Reg.hubFleetStatusJoined 1).svcAnswer i n svcDone (toLe 2 0)
      else State.sendJoin { s with fleet := { s.fleet with joinReq := some (i, n) } }

/-- The service FLEET_JOIN is taken; an unknown opcode is answered as by every service. -/
def execFleetJoin (ring : Fin 2) (s : State) : Host.Outcome State Fault Refusal :=
  done (match s.svcRequest ring.val with
    | some a => if le (s.read a 2) 0 2 = 4 then s.fleetJoin ring.val else s.serve ring.val 4 fun s _ => (svcDone, [], s)
    | none => s)

/-- The package is in no fleet and no set. -/
def State.outOfFleet (s : State) : State :=
  let s := ((s.setFleet Reg.hubFleetStatusJoined 0).setFleet Reg.hubFleetStatusManagerSeen 0).setFleet
    Reg.hubFleetStatusSetSize 0
  let s := s.setFleet Reg.hubFleetStatusSetId 0
  { s with fleet := { s.fleet with members := [], parts := [], managerSeen := none } }

def execFleetLeave (ring : Fin 2) (s : State) : Host.Outcome State Fault Refusal :=
  done (s.serve ring.val 5 fun s args =>
    if s.fldB Reg.hubFleetStatusJoined then (svcDone, [], (s.leaveFleet (le args 0 1)).outOfFleet)
    else (svcState, [], s))

/-! ### CORE_STATE and PTP_DATASET -/

def execCoreState (ring : Fin 2) (s : State) : Host.Outcome State Fault Refusal :=
  done (s.serve ring.val 6 fun s _ =>
    (svcDone, toLe 9 (maskOf 72 fun k => !s.pkg.retiredCores.contains k), s))

/-- A member that nothing has written reads an open value, and keeps it. -/
def State.ptpMember (s : State) (k : Nat) : Nat × State :=
  match Tab.find k s.hub.ptpData with
  | some v => (v, s)
  | none =>
    let f := s.free
    (f.1, { f.2 with hub := { f.2.hub with ptpData := Tab.put k f.1 f.2.hub.ptpData } })

def execPtpDataset (ring : Fin 2) (s : State) : Host.Outcome State Fault Refusal :=
  done (s.serve ring.val 7 fun s args =>
    let k := le args 0 4
    if le args 4 1 = 1 then
      let v := le args 5 8
      (svcDone, toLe 8 v, { s with hub := { s.hub with ptpData := Tab.put k v s.hub.ptpData } })
    else
      let r := s.ptpMember k
      (svcDone, toLe 8 r.1, r.2))

/-! ### Failures of cores (R443, R444) -/

/-- A mismatch halts a pair; the standby takes over for the active one, the operation in progress restarts and gives the
same result. With no pair left the compute dies stop, no load, commit or recovery is possible, and the servo goes to
HOLDOVER. -/
def State.stewardFailover (s : State) (p : Nat) : State :=
  if !s.pkg.pairs.getD p false then s
  else
    let pairs := s.pkg.pairs.set p false
    let a := s.pkg.activePair
    let s := { s with pkg := { s.pkg with pairs := pairs, activePair := if p = a ∧ pairs.getD (1 - a) false then 1 - a else a } }
    if pairs.contains true then s
    else
      let s := s.holdOver
      let r := s.cfg.run
      s.setRun { r with stepRunning := false, atSeam := r.atSeam && !r.stepRunning, armed := false }

/-- The pair that runs halts; of two that run, R444 lets either meet the mismatch: a free choice (DESIGN CHOICE, log
entry 202). -/
def State.pairMismatch (s : State) : State :=
  if s.pkg.pairs = [true, true] then s.free.2.stewardFailover (s.free.1 % 2)
  else s.stewardFailover (if s.pkg.pairs.getD 0 false then 0 else 1)

def execStewardFailover (s : State) : Host.Outcome State Fault Refusal := done s.pairMismatch

/-- The core is halted; its interrupts go to the lowest-numbered core in service. Which rule retires a core is open: the
RULE of its record is a free value. -/
def State.coreRetire (s : State) (k : Nat) : State :=
  if s.pkg.retiredCores.contains k then s
  else
    let f := s.free
    let s := f.2.retire (unitKey 10 k) (f.1 % 7)
    State.raiseIrq { s with pkg := { s.pkg with retiredCores := s.pkg.retiredCores ++ [k] } } irqFleet

def execAppCoreRetire (core : Fin 72) (s : State) : Host.Outcome State Fault Refusal := done (s.coreRetire core.val)

end Sys2Proof.Machine
end

