-- ==== Sys2Proof/Machine/Obcor.lean ====
section
/-! DEFINITION. Obcor links: training, replay, loss of a link, packets passed on (R457 to R461, R470 to R472). -/

namespace Sys2Proof.Machine

def obcDown : Nat := 0
def obcTraining : Nat := 1
def obcFull : Nat := 2
def obcLow : Nat := 3
def obcHigh : Nat := 4
def obcFailed : Nat := 5

/-! ### Training (R460, R461, Table 13.12) -/

/-- The highest version in both masks that is not above MAX_VERSION; 0 for none. -/
def commonVersion (partner most : Nat) : Nat :=
  ((List.range 4).filter fun v => decide (1 ≤ v ∧ v ≤ most) && bit partner v && bit ownVersions v).foldl max 0

/-- Width at a version from the lanes that pass, with half width allowed or not: the link's STATE or the TRAIN_CODE. -/
def trainWidth (version lanes : Nat) (halfOk : Bool) : Nat × Nat :=
  if lanes = 255 then (obcFull, 0)
  else if version ≤ 1 then (obcFailed, 5)
  else if halfOk && bits lanes 3 0 == 15 then (obcLow, 0)
  else if halfOk && bits lanes 7 4 == 15 then (obcHigh, 0)
  else (obcFailed, 6)

/-- STATE and TRAIN_CODE that a training ends with, and the version. -/
def State.trainEnd (s : State) (l : Nat) (r : TrainResult) : Nat × Nat × Nat :=
  let v := commonVersion r.versions.toNat (s.fld (Reg.obcLinkCtrlMaxVersion l))
  if !r.signal then (obcFailed, 1, 0)
  else if !r.equalised then (obcFailed, 2, 0)
  else if r.fleet.toNat ≠ s.fld Reg.hubRoleFleet then (obcFailed, 4, 0)
  else if v = 0 then (obcFailed, 3, 0)
  else
    let w := trainWidth v r.lanesPass.toNat (s.fldB (Reg.obcLinkCtrlHalfOk l))
    (w.1, w.2, if w.1 = obcFailed then 0 else v)

/-- The partner of a link that is up is reached directly. -/
def State.directRoute (s : State) (l d : Nat) : State :=
  ((s.setFld (Reg.obcRouteLink d) l).setFld (Reg.obcRouteValid d) 1).setFld (Reg.obcRouteDirect d) 1

/-- The package a trained link names: a manager has index 0, another package one above it once it has joined. -/
def knownPartner (index role : Nat) : Bool := index != 0 || role == roleManager

/-- A worker sends JOIN on a link that comes up after READY (R512); links train from the end of phase VERIFY on (R508). -/
def State.joinOnLink (s : State) : State := if s.pkg.ready && s.role == roleWorker then s.sendJoin else s

/-- The capability block that this package sends (R460). -/
def State.capability (s : State) : Capability :=
  ⟨ownVersions, s.fld Reg.hubRoleFleet, s.fleetIndex, s.role, s.pkg.serial.toNat⟩

/-- Step 3 of training: the blocks are exchanged (Table 13.12). -/
def State.exchangeBlocks (s : State) (l : Nat) (r : TrainResult) : State :=
  let s := { s with hub := { s.hub with capSent := Tab.put l s.capability s.hub.capSent,
                                        partnerSerial := Tab.put l r.serial.toNat s.hub.partnerSerial } }
  ((s.setFld (Reg.obcLinkStatusPartnerVersions l) r.versions.toNat).setFld (Reg.obcLinkStatusPartnerIndex l)
    r.index.toNat).setFld (Reg.obcLinkStatusPartnerRole l) r.role.toNat

def State.linkTrain (s : State) (l : Nat) (r : TrainResult) : State :=
  if !s.past 5 || s.obcUp l || !s.fldB (Reg.obcLinkCtrlEnable l) then s
  else
    let e := s.trainEnd l r
    let met := r.signal && r.equalised
    let s := if met then s.exchangeBlocks l r else s
    let s := (s.setFld (Reg.obcLinkStatusTrainCode l) e.2.1).setFld (Reg.obcLinkStatusVersion l) e.2.2
    let s := { s with hub := { s.hub with obcorFails := Tab.set 0 l 0 s.hub.obcorFails } }
    let s := s.setFldIrq irqObcor (Reg.obcLinkStatusState l) e.1
    if e.1 = obcFailed then s
    else
      (if knownPartner r.index.toNat r.role.toNat then s.directRoute l r.index.toNat else s).joinOnLink

def execObcorLinkTrain (link : Fin 16) (result : TrainResult) (s : State) : Host.Outcome State Fault Refusal :=
  done (s.linkTrain link.val result)

/-! ### Loss and replay (R459, R460) -/

/-- A link goes down, and trains again from step 1 while it is enabled. -/
def State.obcorDown (s : State) (l : Nat) : State :=
  if s.obcUp l then s.obcLeave l (if s.fldB (Reg.obcLinkCtrlEnable l) then obcTraining else obcDown) else s

def execObcorLinkDown (link : Fin 16) (s : State) : Host.Outcome State Fault Refusal := done (s.obcorDown link.val)

/-- Flits from SEQ on that the sender holds and sends again: those of its count of flits, at most 2,048. -/
def State.heldFrom (s : State) (l seq : Nat) : Nat :=
  let first := (s.reg (Reg.obcCnt l 0)).toNat + 2 ^ 64 - (s.reg (Reg.obcCnt l 3)).toNat
  min (max 1 ((first + 4096 - seq) % 4096)) 2048

/-- A flit fails its CRC at one end and is replayed; `far` names the partner's end. A flit that fails 16 replays in a
row takes the link down. -/
def State.obcorReplay (s : State) (l : Nat) (far : Bool) (seq : Nat) (again : Bool) : State :=
  if !s.obcUp l then s
  else
    let n := s.heldFrom l seq
    let s := if far then (s.bump (Reg.obcCnt l 3) n).bump (Reg.obcCnt l 0) n else s.bump (Reg.obcCnt l 2) 1
    let k := if again then Tab.get 0 l s.hub.obcorFails + 1 else 1
    let s := { s with hub := { s.hub with obcorFails := Tab.set 0 l k s.hub.obcorFails } }
    if 16 < k then s.obcorDown l else s

def execObcorReplay (link : Fin 16) (far : Bool) (seq : BitVec 12) (again : Bool) (s : State) :
    Host.Outcome State Fault Refusal :=
  done (s.obcorReplay link.val far seq.toNat again)

/-! ### Packets passed on (R461) -/

/-- A data message is passed on at link level between two links of version 3, a control message by the steward. -/
def State.obcorRelay (s : State) (l : Nat) (control : Bool) (d n : Nat) : State :=
  let out := s.fld (Reg.obcRouteLink d)
  let v3 := s.fld (Reg.obcLinkStatusVersion l) == 3 && s.fld (Reg.obcLinkStatusVersion out) == 3
  if !s.obcUp l || d == s.fleetIndex then s
  else
    let s := s.bump (Reg.obcCnt l 1) n
    let pass := decide (d ≤ 4096) && s.fldB (Reg.obcRouteValid d) && s.obcUp out &&
      (if control then s.stewardUp else v3)
    if !pass then s
    else
      let s := s.bump (Reg.obcCnt out 0) n
      let s := if control then s else s.bump (Reg.obcCnt l 5) n
      { s with fleet := { s.fleet with relayed := s.fleet.relayed ++ [(control, out, n)] } }

def execObcorRelay (link : Fin 16) (control : Bool) (dest : BitVec 13) (flits : Nat) (s : State) :
    Host.Outcome State Fault Refusal :=
  done (s.obcorRelay link.val control dest.toNat flits)

end Sys2Proof.Machine
end

