-- ==== Sys2Proof/Machine/Fleet.lean ====
section
/-! DEFINITION. Managers and workers: joining, heartbeats, participant sets, launches, echo rounds and the loss of a
package (R334, R354, R356, R399, R400, R462 to R465). -/

namespace Sys2Proof.Machine

def msgWelcome : Nat := 0x02
def msgHeartbeat : Nat := 0x03
def msgAssign : Nat := 0x04
def msgAssigned : Nat := 0x05
def msgLaunch : Nat := 0x06
def msgArmed : Nat := 0x07
def msgLate : Nat := 0x08
def msgAbort : Nat := 0x09
def msgVerdict : Nat := 0x0C
def msgExpel : Nat := 0x0E

/-- The package follows a manager. -/
def State.follows (s : State) : Bool := s.fldB Reg.hubFleetStatusJoined && s.role != roleManager && s.stewardUp

def State.setFleetState (s : State) (f : FleetState) : State := { s with fleet := f }

def State.worker (s : State) (w : Nat) : Option Worker := s.fleet.workers.find? fun x => x.index == w

def State.setWorker (s : State) (x : Worker) : State :=
  s.setFleetState { s.fleet with workers := (s.fleet.workers.filter fun y => y.index != x.index) ++ [x] }

def State.toManager (s : State) (msg : Nat) (body : List Nat) : State := s.sendMsg ⟨msg, s.fleet.managerIndex, body⟩

/-- What a manager's standby must mirror (R465). -/
def State.mirrorNow (s : State) : Mirror :=
  ⟨s.fleet.sets, ((List.range 4097).filter s.routed).map fun d => (d, s.routeLink d), s.chk.verdicts, s.fleet.agreed⟩

/-- A change of the manager's state goes to its standby: a control message that Table 13.14 gives no MSG (log entry 195). -/
def State.mirror (s : State) : State :=
  if s.manages && s.fleet.standby != 0 && s.fleet.mirrored != some s.mirrorNow then
    (s.setFleetState { s.fleet with mirrored := some s.mirrorNow }).flitsTo s.fleet.standby 1 flitControl 256 0
  else s

/-! ### Joining (R462, R465, R512) -/

/-- Index for a package: the one it had, or the lowest that is free; none once 4,096 workers have joined. -/
def State.indexFor (s : State) (serial previous : Nat) : Option Nat :=
  match s.fleet.workers.find? fun x => x.serial == serial with
  | some x => some x.index
  | none =>
    if previous ≠ 0 ∧ previous ≤ 4096 ∧ (s.worker previous).isNone then some previous
    else ((List.range 4096).map (1 + ·)).find? fun i => (s.worker i).isNone

def State.join (s : State) (l serial grade clusters versions previous : Nat) : State :=
  if !s.manages || !s.obcUp l then s
  else
    let s := s.bump (Reg.obcCnt l 1) 1
    match s.indexFor serial previous with
    | none => s
    | some i =>
      let s := s.setWorker ⟨i, serial, grade, clusters, versions, s.upTime, 0, 0, 0, 0, 0, none, none, false, false⟩
      let direct := s.fld (Reg.obcLinkStatusPartnerIndex l) == previous || s.fld (Reg.obcLinkStatusPartnerIndex l) == i
      let stands := direct && s.fld (Reg.obcLinkStatusPartnerRole l) == roleStandby
      let s := if stands then s.setFleetState { s.fleet with standby := i } else s
      let s := ((s.setFld (Reg.obcRouteLink i) l).setFld (Reg.obcRouteValid i) 1).setFld (Reg.obcRouteDirect i) (b2n direct)
      (s.sendMsg ⟨msgWelcome, i, [i, s.fleet.heartbeatMs, s.fleet.standby]⟩).mirror

def execJoin (link : Fin 16) (serial : BitVec 128) (grade clusters versions : BitVec 8) (previous : BitVec 13)
    (s : State) : Host.Outcome State Fault Refusal :=
  done (s.join link.val serial.toNat grade.toNat clusters.toNat versions.toNat previous.toNat)

/-- A FLEET_JOIN that waits is answered. -/
def State.answerJoin (s : State) (result : Nat) (args : List Byte) : State :=
  match s.fleet.joinReq with
  | none => s
  | some r => (s.setFleetState { s.fleet with joinReq := none }).svcAnswer r.1 r.2 result args

/-- A worker is welcomed. One that had lost its manager first asks to join again, with its previous index. -/
def State.welcome (s : State) (i period standby : Nat) : State :=
  if s.role = roleAlone ∨ s.role = roleManager ∨ !s.stewardUp then s
  else
    let s := if s.fldB Reg.hubFleetStatusJoined && s.fleet.managerSeen.isNone then s.sendJoin else s
    let s := (s.setFleet Reg.hubFleetStatusIndex i).setFleet Reg.hubFleetStatusJoined 1
    let s := s.setFleetState { s.fleet with heartbeatMs := period, standby := standby, managerSeen := some s.upTime }
    s.answerJoin svcDone (toLe 2 i)

def execWelcome (index : BitVec 13) (periodMs : BitVec 16) (standby : BitVec 13) (s : State) :
    Host.Outcome State Fault Refusal :=
  done ((s.flitFrom s.fleet.managerIndex).welcome index.toNat periodMs.toNat standby.toNat)

/-! ### Participant sets -/

def assignPart : Nat := 120

/-- Parts of at most 120 member indices. -/
def chunks : Nat → List Nat → List (List Nat)
  | 0, _ => []
  | n + 1, l => if l.length ≤ assignPart then [l] else l.take assignPart :: chunks n (l.drop assignPart)

/-- Members of a table group: the largest group of the tables of the image that the manager holds. -/
def State.tableGroup (s : State) : Nat := (s.embD.tables.map TableD.group).foldl max 1

/-- An ASSIGN to every member: set, part, parts, DP_RANK by place in the set, GROUP_RANK by place in a run of the group's
size, expected image, echo INTERVAL and ENABLE, member indices, and the member's routes to them, with links that the spec
leaves open (log entry 195). -/
def State.sendAssigns (s : State) (id : Nat) (members : List Nat) : State :=
  let ps := chunks members.length members
  (enum0 members).foldl (fun (s : State) m =>
    let f := s.fresh
    (enum0 ps).foldl (fun (s : State) p =>
      s.sendMsg ⟨msgAssign, m.2, [id, p.1, ps.length, m.1, m.1 % s.tableGroup, (s.reg Reg.cfgImageId).toNat,
        s.fld Reg.chkEchoCtrlInterval, s.fld Reg.chkEchoCtrlEnable] ++ p.2 ++
        p.2.map fun d => d + 2 ^ 13 * (freeAt f d % 16)⟩) s.tickFree) s

/-- A set of its own making: which of the workers that are in none it takes, and when, is the manager's policy, which the
spec leaves open: a free value (R462; log entry 224). -/
def State.formSet (s : State) : State :=
  let f := s.free
  let ms := (s.fleet.workers.filter fun x => !s.fleet.sets.any (fun y => y.2.contains x.index) &&
    bit f.1 (x.index % 64)).map Worker.index
  if ms.isEmpty then s
  else
    let s := f.2
    let id := 1 + (s.fleet.sets.map Prod.fst).foldl max 0
    (s.setFleetState { s.fleet with sets := s.fleet.sets ++ [(id, ms)] }).sendAssigns id ms

/-- A member of a set has a counterpart in another table group, which holds the same table slices (R464). -/
def State.hasReplica (s : State) (set : List Nat) (w : Nat) : Bool :=
  let g := s.tableGroup
  s.embD.tables.isEmpty || (enum0 set).any fun m => m.2 != w && m.1 % g == set.idxOf w % g

/-- R464: what the loss of a worker leads to: a new set of the remaining members, and their rollback; their READY
messages lead to the relaunch. Where the lost package alone held table slices, the job restarts from a snapshot instead:
no message of Table 13.14 orders that, and the set is noted (log entry 225). -/
def State.loseWorker (s : State) (w : Nat) : State :=
  if (s.worker w).isNone then s
  else
    let sets := s.fleet.sets
    let s := s.setFleetState { s.fleet with workers := s.fleet.workers.filter fun x => x.index != w }
    match sets.find? fun x => x.2.contains w with
    | none => s
    | some x =>
      let rest := x.2.filter fun y => y != w
      let id := 1 + (sets.map Prod.fst).foldl max 0
      let others := sets.filter fun y => y.1 != x.1
      let s := s.setFleetState { s.fleet with sets := others ++ [(id, rest)] }
      let back := s.hasReplica x.2 w
      let s := s.sendAssigns id rest
      if back then s.rollbackAll rest else s.setFleetState { s.fleet with restarts := s.fleet.restarts ++ [id] }

/-! ### Echo rounds at the manager (R354, R356, R399) -/

/-- The value that more than half of the reports hold. -/
def majority (vs : List Nat) : Option Nat := vs.find? fun d => decide (vs.length < 2 * (vs.filter fun v => v == d).length)

/-- The verdict on the value `v` among the reported ones (R354). -/
def verdictOf (vs : List Nat) (v : Nat) : Nat :=
  if vs.length ≤ 1 then verdictAgree
  else
    match majority vs with
    | some d => if v = d then verdictAgree else verdictOdd
    | none => verdictSplit

/-- Packages of a table's group, by the image the manager holds; without it, all that report. -/
def State.groupOf (s : State) (table n : Nat) : Nat :=
  match s.embD.tables.find? fun t => t.idx == table with
  | some t => t.group
  | none => max 1 n

/-- The reports of the members of `r`'s table group: a run of the set's members in the order of their ranks. -/
def State.inGroup (s : State) (table : Nat) (members : List Nat) (rs : List EchoReport) (r : EchoReport) :
    List EchoReport :=
  let g := s.groupOf table members.length
  rs.filter fun x => members.idxOf x.worker / g == members.idxOf r.worker / g

/-- The reports of `r`'s counterparts in every replica of its group. -/
def State.counterparts (s : State) (table : Nat) (members : List Nat) (rs : List EchoReport) (r : EchoReport) :
    List EchoReport :=
  let g := s.groupOf table members.length
  rs.filter fun x => members.idxOf x.worker % g == members.idxOf r.worker % g

/-- Verdicts on the ledger sums of one report, by table, each within the table's group (R356). -/
def State.ledgerVerdicts (s : State) (members : List Nat) (rs : List EchoReport) (r : EchoReport) : List (Nat × Nat) :=
  r.ledgers.map fun l =>
    (l.1, verdictOf ((s.inGroup l.1 members rs r).map fun x => Tab.get 0 l.1 x.ledgers) l.2)

/-- Verdicts on the values one report's updates wrote, by table, each against its counterparts (R356). -/
def State.valueVerdicts (s : State) (members : List Nat) (rs : List EchoReport) (r : EchoReport) : List Nat :=
  r.values.map fun l => verdictOf ((s.counterparts l.1 members rs r).map fun x => Tab.get 0 l.1 x.values) l.2

/-- The verdict of one report: ODD where any comparison finds it alone, else SPLIT where any has no majority. -/
def State.reportVerdict (s : State) (members : List Nat) (rs : List EchoReport) (r : EchoReport) : Nat :=
  let vs := verdictOf (rs.map EchoReport.digest) r.digest :: (s.ledgerVerdicts members rs r).map Prod.snd ++
    s.valueVerdicts members rs r
  if vs.contains verdictOdd then verdictOdd else if vs.contains verdictSplit then verdictSplit else verdictAgree

/-- Every report of a round is in, or those that are missing have been passed by LAG steps. -/
def State.roundReady (s : State) (k : Nat) (members : List Nat) (rs : List EchoReport) : Bool :=
  let missing := members.filter fun m => !rs.any fun r => r.worker == m
  let passed := rs.all fun r =>
    match s.worker r.worker with
    | some x => decide (k + 1 + s.fld Reg.chkEchoCtrlLag ≤ x.step)
    | none => false
  !rs.isEmpty && (missing.isEmpty || passed)

/-- The verdict goes out; an ODD replica is expelled. -/
def State.sendVerdict (s : State) (k n : Nat) (p : Nat × Nat) : State :=
  let s : State := { s with chk := { s.chk with verdicts := s.chk.verdicts ++ [(p.1, p.2, k, n)] } }
  let s := s.sendMsg ⟨msgVerdict, p.1, [p.2, s.fleet.agreed]⟩
  if p.2 = verdictOdd then s.sendMsg ⟨msgExpel, p.1, [k]⟩ else s

/-- Ledger sums of a table that differ across its group (R356). -/
def State.ledgerSplit (s : State) (k table : Nat) : State :=
  (s.emit 2 0x0035 s.sitePackage 0 (table % 2 ^ 16 + 2 ^ 16 + k % 2 ^ 32 * 2 ^ 32)).bump (Reg.chkCnt 16) 1

/-- A round's digests, ledgers and written values are compared: verdicts, expulsions, rollback. -/
def State.closeRound (s : State) (k : Nat) (members : List Nat) (rs : List EchoReport) : State :=
  let vs := rs.map fun r => (r.worker, s.reportVerdict members rs r)
  let ok := vs.all fun p => p.2 == verdictAgree
  let split := ((rs.flatMap (s.ledgerVerdicts members rs)).filter fun l => l.2 != verdictAgree).map Prod.fst
  let left := s.chk.reports.filter fun r => !(r.step == k && members.contains r.worker)
  let s := { s with chk := { s.chk with reports := left } }
  let s := if ok then s.setFleetState { s.fleet with agreed := k } else s
  let s := vs.foldl (fun (s : State) p => s.sendVerdict k rs.length p) s
  let s := split.eraseDups.foldl (fun (s : State) t => s.ledgerSplit k t) s
  let back := (vs.filter fun p => p.2 != verdictOdd).map Prod.fst
  let s := if ok then s else s.rollbackAll back
  (members.filter fun m => !rs.any fun r => r.worker == m).foldl State.loseWorker s

/-- Rounds that can be settled, by the sets of their reporters. -/
def State.settleRounds (s : State) : State :=
  s.chk.reports.foldl (fun (s : State) r =>
    let ms := (s.setOf r.worker).2
    let rs := s.chk.reports.filter fun x => x.step == r.step && ms.contains x.worker
    if s.roundReady r.step ms rs then s.closeRound r.step ms rs else s) s

/-- A worker's report of a round. -/
def State.echoReport (s : State) (r : EchoReport) : State :=
  if !s.manages then s
  else
    let keep := s.chk.reports.filter fun x => !(x.worker == r.worker && x.step == r.step)
    let s := { s with chk := { s.chk with reports := keep ++ [r] } }
    s.settleRounds

def execEchoReport (worker : BitVec 13) (step : BitVec 64) (digest : BitVec 128) (sums : EchoSums)
    (s : State) : Host.Outcome State Fault Refusal :=
  done (((s.flitFrom worker.toNat).echoReport ⟨worker.toNat, step.toNat, digest.toNat,
    sums.ledgers.map fun l => (l.1.val, l.2.toNat), sums.values.map fun l => (l.1.val, l.2.toNat)⟩).mirror)

/-! ### Launches at the manager (R334) -/

/-- Longest delivery of a LAUNCH, as in Table 11.11. -/
def launchMargin : Nat := 100000000

def outcomeResumed : Nat := 1

/-- A member waits for a launch: it has reported RESUMED, or it has accepted its set and not run in it (R334, R463). -/
def Worker.waits (x : Worker) : Bool := x.outcome == outcomeResumed || (x.fresh && !x.due)

/-- Every member waits, LOCKED and within the bound, and no launch is under way: LAUNCH goes out with a new T,
later than now by the delivery time, the largest ERR_EST of the workers and 2 µs. -/
def State.tryLaunch (s : State) (members : List Nat) : State :=
  let ws := members.map s.worker
  let ready := ws.all fun o =>
    match o with
    | some x => x.waits && x.timeState == timeLocked && decide (x.errEst ≤ Config.launchBound) && x.armed.isNone
    | none => false
  if members.isEmpty || !ready || s.fleet.launchAt.isSome then s
  else
    let worst := (s.fleet.workers.filter fun x => members.contains x.index).foldl (fun n x => max n x.errEst) 0
    let t := s.glc + launchMargin + worst + 2000
    let s := s.setFleetState { s.fleet with launchAt := some t }
    members.foldl (fun (s : State) m => s.sendMsg ⟨msgLaunch, m, [t]⟩) s

/-- A launch that is not armed everywhere: its armed workers abort it, and a new T follows. -/
def State.abortLaunch (s : State) (members : List Nat) (t : Nat) : State :=
  let armed := members.filter fun m =>
    match s.worker m with
    | some x => x.armed == some t
    | none => false
  let s := armed.foldl (fun (s : State) m => s.sendMsg ⟨msgAbort, m, [t]⟩) s
  let ws := s.fleet.workers.map fun x => if members.contains x.index then { x with armed := none } else x
  (s.setFleetState { s.fleet with workers := ws, launchAt := none }).tryLaunch members

def State.armedFrom (s : State) (w t : Nat) : State :=
  match s.manages, s.worker w with
  | true, some x =>
    let s := s.setWorker { x with armed := some t }
    let ms := (s.setOf w).2
    let all := ms.all fun m =>
      match s.worker m with
      | some y => y.armed == some t
      | none => false
    if all && s.fleet.launchAt == some t then
      let ws := s.fleet.workers.map fun y => if ms.contains y.index then { y with outcome := 0, armed := none, fresh := false } else y
      s.setFleetState { s.fleet with workers := ws, launchAt := none }
    else s
  | _, _ => s

def execArmed (worker : BitVec 13) (t : BitVec 64) (s : State) : Host.Outcome State Fault Refusal :=
  done ((s.flitFrom worker.toNat).armedFrom worker.toNat t.toNat)

def State.lateFrom (s : State) (w t : Nat) : State :=
  if s.manages && s.fleet.launchAt == some t then s.abortLaunch (s.setOf w).2 t else s

def execLate (worker : BitVec 13) (t : BitVec 64) (s : State) : Host.Outcome State Fault Refusal :=
  done ((s.flitFrom worker.toNat).lateFrom worker.toNat t.toNat)

def State.readyFrom (s : State) (w step outcome : Nat) : State :=
  match s.manages, s.worker w with
  | true, some x => (s.setWorker { x with step := step, outcome := outcome, armed := none, due := false }).tryLaunch (s.setOf w).2
  | _, _ => s

def execReady (worker : BitVec 13) (step : BitVec 64) (outcome : BitVec 4) (s : State) :
    Host.Outcome State Fault Refusal :=
  done ((s.flitFrom worker.toNat).readyFrom worker.toNat step.toNat outcome.toNat)

/-! ### Launches at a worker (R334) -/

def State.launch (s : State) (t : Nat) : State :=
  if !s.follows then s
  else if t ≤ s.glc then s.toManager msgLate [t]
  else
    -- START | AT
    ((s.setReg Reg.cfgRunAt (BitVec.ofNat 64 t)).runStart true 9).toManager msgArmed [t]

def execLaunch (t : BitVec 64) (s : State) : Host.Outcome State Fault Refusal := 
  done ((s.flitFrom s.fleet.managerIndex).launch t.toNat)

/-- ABORT: the armed launch is cancelled, or the step that has begun is cut off. -/
def State.abortMsg (s : State) : State := if s.follows then s.runAbort 4 else s

def execAbort (_t : BitVec 64) (s : State) : Host.Outcome State Fault Refusal := 
  done (s.flitFrom s.fleet.managerIndex).abortMsg

/-! ### ASSIGN at a worker (R463) -/

/-- Every part of the ASSIGN has arrived. -/
def partsWhole (ps : List AssignPart) : Bool :=
  match ps with
  | [] => false
  | p :: _ => (List.range p.parts).all fun i => ps.any fun x => x.part == i

def groupDetRank : Nat := 0x80001
def groupEchoCtrl : Nat := 0x60001

/-- The manager's routes go to OBC.ROUTE (R472): no body of Table 13.14 carries them, and an ASSIGN brings them (DEDUCED, log
entry 195). -/
def State.takeRoutes (s : State) (rs : List (Nat × Nat)) : State :=
  rs.foldl (fun (s : State) r =>
    if 4096 < r.1 then s
    else
      let direct := b2n (s.fld (Reg.obcLinkStatusPartnerIndex r.2) == r.1)
      ((s.setFld (Reg.obcRouteLink r.1) r.2).setFld (Reg.obcRouteValid r.1) 1).setFld (Reg.obcRouteDirect r.1) direct) s

/-- The set takes effect: ranks and echo rounds are committed, and ASSIGNED answers with the result code. -/
def State.takeSet (s : State) (p : AssignPart) (ps : List AssignPart) : State :=
  let rank := s.stewardCommit groupDetRank
    [(Reg.detRankDpRank, p.dpRank.toNat), (Reg.detRankGroupRank, p.groupRank.toNat)]
  let echo := rank.2.stewardCommit groupEchoCtrl
    [(Reg.chkEchoCtrlInterval, p.interval.toNat), (Reg.chkEchoCtrlEnable, b2n p.enable)]
  let code := if rank.1 ≠ 0 then rank.1 else echo.1
  let s := if code ≠ 0 then s
    else
      let ms := (List.range p.parts).flatMap fun i =>
        match ps.find? fun x => x.part == i with
        | some x => x.members.map BitVec.toNat
        | none => []
      let s := echo.2.takeRoutes (ps.flatMap fun x => x.routes.map fun r => (r.1.toNat, r.2.val))
      let s := s.setFleetState { s.fleet with members := ms }
      (s.setFleet Reg.hubFleetStatusSetSize ms.length).setFleet Reg.hubFleetStatusSetId p.setId.toNat
  (s.setFleetState { s.fleet with parts := [] }).toManager msgAssigned [p.setId.toNat, code]

/-- An ASSIGN that is whole waits for its image. -/
def State.tryAssign (s : State) : State :=
  match s.fleet.parts with
  | [] => s
  | p :: _ =>
    if s.stewardUp && partsWhole s.fleet.parts && s.loadState == loadLoaded && s.reg Reg.cfgImageId == p.imageId then
      s.takeSet p s.fleet.parts
    else s

def State.assign (s : State) (p : AssignPart) : State :=
  if s.role = roleAlone ∨ !s.stewardUp then s
  else if s.stepRunning then s.toManager msgAssigned [p.setId.toNat, 1]
  else
    let keep := s.fleet.parts.filter fun x => x.setId == p.setId && x.part != p.part
    (s.setFleetState { s.fleet with parts := keep ++ [p] }).tryAssign

def execAssign (part : AssignPart) (s : State) : Host.Outcome State Fault Refusal := 
  done ((s.flitFrom s.fleet.managerIndex).assign part)

/-- The manager records the members that accepted a set; one it formed itself is launched once all of them have. -/
def State.assignedFrom (s : State) (w id code : Nat) : State :=
  match s.manages, s.worker w with
  | true, some x =>
    if code ≠ 0 then s
    else
      let old := (s.fleet.sets.find? fun y => y.1 == id).getD (id, [])
      let s := s.setWorker { x with assigned := some id, fresh := old.2.contains w }
      let new := if old.2.contains w then old else (id, old.2 ++ [w])
      let others := (s.fleet.sets.filter fun y => y.1 != id).map fun y => (y.1, y.2.filter fun z => z != w)
      let s := s.setFleetState { s.fleet with sets := (others.filter fun y => !y.2.isEmpty) ++ [new] }
      if old.2.contains w then s.tryLaunch new.2 else s
  | _, _ => s

def execAssigned (worker : BitVec 13) (setId : BitVec 32) (code : BitVec 8) (s : State) :
    Host.Outcome State Fault Refusal :=
  done ((s.flitFrom worker.toNat).assignedFrom worker.toNat setId.toNat code.toNat).mirror

/-! ### Heartbeats (R464, R465) -/

def State.heartbeat (s : State) (sender tstate err step load : Nat) : State :=
  if s.manages then
    match s.worker sender with
    | some x =>
      let s := s.setWorker { x with lastSeen := s.upTime, timeState := tstate, errEst := err, step := step, load := load }
      s.settleRounds.tryLaunch (s.setOf sender).2
    | none => s
  else if s.follows && sender == s.fleet.managerIndex then
    (s.setFleetState { s.fleet with managerSeen := some s.upTime }).setFleet Reg.hubFleetStatusManagerSeen 1
  else s

/-- The sender's own GLC travels in the message. -/
def execHeartbeat (sender : BitVec 13) (_glc : BitVec 64) (timeState : BitVec 3) (errEst : BitVec 16) (step : BitVec 64)
    (loadState : BitVec 3) (s : State) : Host.Outcome State Fault Refusal :=
  done ((s.flitFrom sender.toNat).heartbeat sender.toNat timeState.toNat errEst.toNat step.toNat loadState.toNat).mirror

/-- Body of a heartbeat. -/
def State.beat (s : State) : List Nat :=
  [s.glc, s.servo, s.fld Reg.timeStatusErrEst, s.stepIndex, s.loadState]

/-- A manager may form a set, and gives up a launch whose T will have passed by its next timer. -/
def State.heartbeatTimer (s : State) : State :=
  if s.manages then
    let s := (s.fleet.workers.foldl (fun (s : State) x => s.sendMsg ⟨msgHeartbeat, x.index, s.beat⟩) s).formSet
    match s.fleet.launchAt with
    | some t =>
      if t ≤ s.glc + s.fleet.heartbeatMs * 1000000 then
        match s.fleet.workers.find? fun x => x.waits && x.armed.isNone with
        | some x => s.abortLaunch (s.setOf x.index).2 t
        | none => s
      else s
    | none => s
  else if s.follows then s.toManager msgHeartbeat s.beat
  else s

def execHeartbeatTimer (s : State) : Host.Outcome State Fault Refusal := done s.heartbeatTimer

/-- A worker that is lost leaves its set, and rounds that wait for it alone can settle. -/
def State.workerGone (s : State) (w : Nat) : State :=
  if s.manages then ((s.loseWorker w).settleRounds).mirror else s

/-- 50 ms without a worker's heartbeat (R464). -/
def State.workerLost (s : State) (w : Nat) : State :=
  match s.worker w with
  | some x => if x.lastSeen + 50000000 ≤ s.upTime then s.workerGone w else s
  | none => s

def execWorkerLost (worker : BitVec 13) (s : State) : Host.Outcome State Fault Refusal :=
  done (s.workerLost worker.toNat)

/-- A LEAVE counts at once. -/
def execLeave (worker : BitVec 13) (_cause : BitVec 8) (s : State) : Host.Outcome State Fault Refusal :=
  done ((s.flitFrom worker.toNat).workerGone worker.toNat)

/-- A STANDBY takes the fleet over with the state it mirrors, and welcomes every worker: the members of the mirrored sets,
and the other packages that the mirrored routes lead to. -/
def State.takeOver (s : State) : State :=
  let s := (s.setFld Reg.hubRoleRole roleManager).setShadow Reg.hubRole
    (BitVec.ofNat 64 (setBits (s.shadowReg Reg.hubRole).toNat 1 0 roleManager))
  let m := s.fleet.mirror
  let s := s.setFleetState { s.fleet with sets := m.sets, agreed := m.step, managerIndex := s.fleetIndex, managerSeen := none }
  let s : State := { s with chk := { s.chk with verdicts := m.verdicts } }
  ((m.sets.flatMap Prod.snd ++ m.routes.map Prod.fst).eraseDups).foldl (fun (s : State) w =>
    if w = s.fleetIndex then s else s.sendMsg ⟨msgWelcome, w, [w, s.fleet.heartbeatMs, 0]⟩) s

/-- R465: 1 s without the manager, from its last heartbeat or, where none came, from the command itself. -/
def State.managerLost (s : State) : State :=
  let heard := match s.fleet.managerSeen with
    | some t => decide (s.upTime < t + 1000000000)
    | none => false
  if !s.stewardUp || s.role == roleManager || s.role == roleAlone || heard then s
  else
    let s := (s.setFleetState { s.fleet with managerSeen := none }).setFleet Reg.hubFleetStatusManagerSeen 0
    let s := s.answerJoin svcState []
    if s.role = roleStandby then s.takeOver
    else
      let s := if s.fleet.standby = 0 then s else s.setFleetState { s.fleet with managerIndex := s.fleet.standby }
      s.stopRun

def execManagerLost (s : State) : Host.Outcome State Fault Refusal := done s.managerLost

def State.standbyMirror (s : State) (m : Mirror) : State :=
  if s.role = roleStandby then s.setFleetState { s.fleet with mirror := m, agreed := m.step } else s

def execStandbyMirror (mirror : MirrorMsg) (agreedStep : BitVec 64) (s : State) : Host.Outcome State Fault Refusal :=
  done ((s.flitFrom s.fleet.managerIndex).standbyMirror ⟨mirror.sets.map fun x => (x.1.toNat, x.2.map BitVec.toNat),
    mirror.routes.map fun x => (x.1.toNat, x.2.val),
    mirror.verdicts.map fun x => (x.1.toNat, x.2.1.toNat, x.2.2.toNat, 0), agreedStep.toNat⟩)

/-- R400: an expelled package is admitted to a set with agreed state. -/
def State.admitSet (s : State) (id : Nat) : State :=
  if s.fleet.expelled && s.follows then
    (s.setFleetState { s.fleet with expelled := false }).setFleet Reg.hubFleetStatusSetId id
  else s

def execAdmitSet (setId : BitVec 32) (s : State) : Host.Outcome State Fault Refusal := 
  done ((s.flitFrom s.fleet.managerIndex).admitSet setId.toNat)

end Sys2Proof.Machine
end

