-- ==== Sys2Proof/Machine/Pcie.lean ====
section
/-! DEFINITION. The PCIe port: function level reset, message interrupts and configuration requests below the root port
(R454 to R456, R473). -/

namespace Sys2Proof.Machine

def State.rootPort (s : State) : Bool := s.pkg.rootPort

/-- What the endpoint's one physical function shows in configuration space: device ID, Revision ID, class code (R455,
Table 16.13). The vendor ID is Clonoku's, which the spec does not state. -/
structure FunctionId where
  device : BitVec 16
  revision : BitVec 8
  classCode : BitVec 24
deriving DecidableEq, Repr

/-- STEPPING of PKG.IDENT and the PCIe Revision ID, which are equal in each stepping (R3, R455, Table 16.13). -/
def State.stepping (s : State) : Nat := if s.pkg.steppingB0 then 0xB0 else 0xA1

/-- PKG.IDENT (Table 16.13). -/
def State.identWord (s : State) : Nat :=
  (if s.pkg.gradeE then 0x10F02 else 0x11001) * 2 ^ 24 + s.stepping * 2 ^ 16 + 0x4820

def State.functionId (s : State) : FunctionId := ⟨0x4820, BitVec.ofNat 8 s.stepping, 0x120000⟩

/-- A byte of configuration space: device ID, Revision ID and class code at the places PCIe gives them (PRESUMED, log entry
229). -/
def State.configByte (s : State) (o : Nat) : Byte :=
  let f := s.functionId
  if 2 ≤ o ∧ o < 4 then (toLe 2 f.device.toNat).getD (o - 2) 0
  else if o = 8 then f.revision
  else if 9 ≤ o ∧ o < 12 then (toLe 3 f.classCode.toNat).getD (o - 9) 0
  else Config.configByte o

/-- Registers of the PCIE block that a function level reset clears: all but BAR2_CFG and OUT_BASE. -/
def flrRegs : List Nat := [Reg.pcieStatus, Reg.pcieRpCfgAddr, Reg.pcieRpCfgData, Reg.pcieRpMsiAddr, Reg.pcieRpMsiData]

def State.resetRegs (s : State) (os : List Nat) : State :=
  os.foldl (fun (s : State) o => (s.setReg o (resetWord o)).setShadow o (resetWord o)) s

/-- PCIE.STATUS.ROOT shows the strap. -/
def State.strapRoot (s : State) : State := s.setFld Reg.pcieStatusRoot (b2n s.pkg.rootPort)

def execFunctionLevelReset (s : State) : Host.Outcome State Fault Refusal :=
  done (if s.rootPort then s else (s.resetRegs flrRegs).strapRoot)

/-! ### The MSI-X table (R455) -/

/-- Vectors of the table, and the offset of the pending-bit array (Table 13.10). -/
def msixCount : Nat := 2048
def msixPba : Nat := 0x8000

/-- A vector as 16 bytes: address, data, vector control (PRESUMED, log entry 196). -/
def MsixVector.bytes (v : MsixVector) : List Byte := toLe 8 v.addr ++ toLe 4 v.data ++ toLe 4 (b2n v.masked)

def MsixVector.ofBytes (bs : List Byte) : MsixVector := ⟨le bs 0 8, le bs 8 4, bit (le bs 12 4) 0⟩

/-- `n` bytes at an offset of BAR 4/5; what lies outside the table and the array reads 0. -/
def State.msixRead (s : State) (off n : Nat) : List Byte :=
  if off < msixPba then sliceBytes (s.msixVector (off / 16)).bytes (off % 16) n
  else (List.range n).map fun i =>
    let byte := off - msixPba + i
    if byte < msixCount / 8 then BitVec.ofNat 8 (maskOf 8 fun b => s.hub.msixPending.contains (8 * byte + b)) else 0

/-- A write to the table; the pending-bit array takes none. A vector that becomes unmasked sends what it owes. -/
def State.msixWrite (s : State) (off : Nat) (bs : List Byte) : State :=
  if msixPba ≤ off then s
  else
    let i := off / 16
    let old := (s.msixVector i).bytes
    let new := MsixVector.ofBytes (old.take (off % 16) ++ bs ++ old.drop (off % 16 + bs.length))
    let s := { s with hub := { s.hub with msix := Tab.set MsixVector.init i new s.hub.msix } }
    if new.masked || !s.hub.msixPending.contains i then s
    else
      let h := s.hub
      { s with hub := { h with msixPending := h.msixPending.filter fun v => v != i,
                               delivered := h.delivered ++ [⟨0, 2, 0, i⟩] } }

/-- The MSI-X state as reset leaves it. -/
def State.msixReset (s : State) : State := { s with hub := { s.hub with msix := [], msixPending := [] } }

/-! ### Message interrupts (R456) -/

def msiDepth : Nat := 64

/-- Inbound writes of a device: to RP_MSI_ADDR an MSI, to the tiers a write, anywhere else Unsupported Request. -/
def State.msiReceive (s : State) (a data : Nat) : State :=
  if !s.rootPort then s
  else if a = (s.reg Reg.pcieRpMsiAddr).toNat then
    if s.hub.msi.length < msiDepth then
      State.raiseIrq { s with hub := { s.hub with msi := s.hub.msi ++ [data] } } irqPcieRp
    else { s with hub := { s.hub with msiOverflow := true } }
  else if s.inTiers a 4 then s.agentWrite .pcie a (toLe 4 data) false
  else s.respond .unsupported

def execMsiReceive (addr : BitVec 64) (data : BitVec 32) (s : State) : Host.Outcome State Fault Refusal :=
  done (s.msiReceive addr.toNat data.toNat)

/-- RP_MSI_DATA as a read returns it: the oldest entry, VALID, OVERFLOW. -/
def State.msiWord (s : State) : Nat :=
  s.hub.msi.headD 0 + b2n (!s.hub.msi.isEmpty) * 2 ^ 32 + b2n s.hub.msiOverflow * 2 ^ 33

/-- A read removes the entry and clears OVERFLOW. -/
def State.msiRead (s : State) : State :=
  if !s.rootPort then s.respond (.ok 0)
  else
    let v := s.msiWord
    State.respond { s with hub := { s.hub with msi := s.hub.msi.drop 1, msiOverflow := false } } (.ok (BitVec.ofNat 512 v))

def execRpMsiDataRead (s : State) : Host.Outcome State Fault Refusal := done s.msiRead

/-! ### Configuration requests (R456) -/

/-- A configuration request leaves for the device that RP_CFG_ADDR names, on buses 1 to 255. -/
def State.cfgRequest (s : State) (w : Option Nat) : State :=
  let a := s.fld Reg.pcieRpCfgAddrAddr
  if bits a 27 20 = 0 then s else s.sendPcie (.config a w)

/-- Buses 1 to 255 are reached; a read that no device answers gives all ones. `answer` is what the device returns, and
whether it takes a write. -/
def State.rpCfg (s : State) (w answer : Option Nat) : State :=
  let bus := bits (s.fld Reg.pcieRpCfgAddrAddr) 27 20
  if !s.rootPort then s.respond (.ok 0)
  else
    match w with
    | some v => (s.cfgRequest (some v)).setFld Reg.pcieRpCfgDataData v |>.respond (.ok 0)
    | none =>
      let s := s.cfgRequest none
      let v := if bus = 0 then 0xFFFFFFFF else answer.getD 0xFFFFFFFF
      (s.setFld Reg.pcieRpCfgDataData v).respond (.ok (BitVec.ofNat 512 v))

def execRpCfgDataAccess (write answer : Option (BitVec 32)) (s : State) : Host.Outcome State Fault Refusal :=
  done (s.onReady fun s => s.rpCfg (write.map BitVec.toNat) (answer.map BitVec.toNat))

end Sys2Proof.Machine
end

