-- ==== Sys2Proof/Machine/Power.lean ====
section
/-! DEFINITION. The rail monitor, thermal throttle and thermal trip (R474 to R482, R496 to R499). -/

namespace Sys2Proof.Machine

/-! ### The rail monitor (R478) -/

/-- Window of a rail group in mV (Table 14.2). -/
def railWindow (g : Nat) : Nat × Nat :=
  if g < 4 then (665, 735)
  else if g < 8 then (760, 840)
  else
    match g with
    | 8 => (1000, 1100)
    | 9 => (713, 787)
    | 10 => (713, 787)
    | 11 => (873, 927)
    | 12 => (1067, 1133)
    | _ => (1710, 1890)

def outsideWindow (g mv : Nat) : Bool := decide (mv < (railWindow g).1) || decide ((railWindow g).2 < mv)

/-- AUX is inside its window, as its latest sample shows it; a register that no sample has reached reads 0. -/
def State.auxOk (s : State) : Bool :=
  let mv := s.fld (Reg.pwrRailNowMv 13)
  mv == 0 || !outsideWindow 13 mv

def State.setPwr (s : State) (p : PwrState) : State := { s with pwr := p }

/-- Nanoseconds between two excursion records of a group. -/
def excursionGap : Nat := 1000000

/-- A sample outside its group's window is counted and interrupts; one record per group per millisecond. -/
def State.excursion (s : State) (g mv : Nat) : State :=
  let s := (s.bump (Reg.pwrCnt g) 1).raiseIrq irqPower
  let due := match Tab.find g s.pwr.lastExcursion with
    | some t => decide (t + excursionGap ≤ s.upTime)
    | none => true
  if due then
    (s.setPwr { s.pwr with lastExcursion := Tab.put g s.upTime s.pwr.lastExcursion }).emit 0 0x0200 (s.siteHub g) 0
      (g + mv * 2 ^ 16)
  else s

/-- One sample of a group. -/
def State.sampleRail (s : State) (g mv : Nat) : State :=
  let s := (s.setFld (Reg.pwrRailNowMv g) mv).setFld (Reg.pwrRailMinMv g) (min mv (s.fld (Reg.pwrRailMinMv g)))
  let s := s.setFld (Reg.pwrRailMaxMv g) (max mv (s.fld (Reg.pwrRailMaxMv g)))
  if outsideWindow g mv then s.excursion g mv else s

/-- The samples of one microsecond, group 0 first. -/
def State.sampleRails (s : State) (mvs : List Nat) : State :=
  (enum0 (mvs.take 14)).foldl (fun (s : State) p => s.sampleRail p.1 p.2) s

/-- MIN and MAX of the selected groups and dies become the current sample. -/
def State.rearm (s : State) (v : Nat) : State :=
  let rails := Reg.pwrRearmRails.of v
  let dies := Reg.pwrRearmDies.of v
  let s := (List.range 14).foldl (fun (s : State) g =>
    if bit rails g then
      (s.setFld (Reg.pwrRailMinMv g) (s.fld (Reg.pwrRailNowMv g))).setFld (Reg.pwrRailMaxMv g) (s.fld (Reg.pwrRailNowMv g))
    else s) s
  (List.range 5).foldl (fun (s : State) d =>
    if bit dies d then s.setFld (Reg.pwrThermTjMax d) (s.fld (Reg.pwrThermTj d)) else s) s

def execRearm (value : Word) (s : State) : Host.Outcome State Fault Refusal :=
  done (s.onReady fun s => s.rearm value.toNat)

/-! ### Thermal throttle (R480, R481) -/

/-- Entry temperature of a level in 0.25 °C. -/
def entryTemp (start n : Nat) : Int := ((start * 4 + (n - 1) * 12 : Nat) : Int)

/-- Highest level whose entry temperature is reached. -/
def reachedLevel (start : Nat) (tj : Int) : Nat :=
  ((List.range 5).filter fun n => n == 0 || decide (entryTemp start n ≤ tj)).foldl max 0

/-- A level rises at once and falls by one, 3 °C below its own entry temperature. -/
def nextLevel (start : Nat) (tj : Int) (cur : Nat) : Nat :=
  let up := reachedLevel start tj
  if cur < up then up
  else if 0 < cur ∧ tj ≤ entryTemp start cur - 12 then cur - 1
  else cur

/-- Steps of 400 MHz that HCLK is lowered by: one for each 3 °C above START_C. -/
def hclkSteps (start : Nat) (tj : Int) : Nat :=
  let up := tj - (start * 4 : Nat)
  if up < 12 then 0 else min 7 (up / 12).toNat

def word16 (v : Int) : Nat := (v % 65536).toNat

/-- A die's temperature in TJ, its highest in TJ_MAX. -/
def State.setTj (s : State) (d : Nat) (tj : Int) : State :=
  let s := s.setFld (Reg.pwrThermTj d) (word16 tj)
  if sext 16 (s.fld (Reg.pwrThermTjMax d)) < tj then s.setFld (Reg.pwrThermTjMax d) (word16 tj) else s

def State.throttleEvaluation (s : State) (d : Nat) (tj : Int) : State :=
  let start := s.fld Reg.pwrThrottleCtrlStartC
  let cur := s.fld (Reg.pwrThermLevel d)
  let new := if d < 4 then nextLevel start tj cur else hclkSteps start tj
  let s := s.setTj d tj
  if new = cur then s
  else
    let s := (s.setFld (Reg.pwrThermLevel d) new).bump (Reg.pwrCnt 18) 1
    let at_ := if d < 4 then ⟨dieCode d, dieCodeP d, d, s.dieTemp d⟩ else s.siteHub 10
    (s.emit 0 0x0201 at_ 0 (d + cur * 2 ^ 4 + new * 2 ^ 8 + word16 tj * 2 ^ 16)).raiseIrq irqPower

def execThrottleEvaluation (die : Fin 5) (tj : Int) (s : State) : Host.Outcome State Fault Refusal :=
  done (s.throttleEvaluation die.val tj)

/-- One frame: the levels in force change at the start of a window of 8 frames; the frames in which a throttled die
withholds issue count (R481, R499). -/
def State.throttleFrame (s : State) : State :=
  let s := if s.frameInWindow = 0 then
      s.setPwr { s.pwr with levels := (List.range 4).foldl (fun (t : Tab Nat) d =>
        Tab.set 0 d (s.fld (Reg.pwrThermLevel d)) t) s.pwr.levels }
    else s
  (List.range 4).foldl (fun (s : State) d =>
    if s.stepRunning && decide (throttleFrames (Tab.get 0 d s.pwr.levels) ≤ s.frameInWindow) then
      s.bump (Reg.pwrCnt (14 + d)) 1
    else s) s

/-! ### Thermal trip (R482) -/

/-- Trip temperature of a sensor in 0.25 °C: 0 to 4 the dies, 8 to 27 the stacks. -/
def tripTemp (n : Nat) : Option Int :=
  if n < 5 then some 500 else if 8 ≤ n ∧ n < 28 then some 420 else none

/-- The sensor's reading in its register. -/
def State.setSensor (s : State) (n : Nat) (temp : Int) : State :=
  if n < 5 then s.setTj n temp else s.stackTemp (n - 8) (word16 temp)

def State.siteSensor (s : State) (n : Nat) : Site :=
  if n < 4 then ⟨dieCode n, dieCodeP n, n, s.dieTemp n⟩ else if n = 4 then s.siteHub 10 else s.siteStack (n - 8)

/-- THERM_TRIP is asserted: sequencers and Presses stop issue, a running step stops as for a failed unit. -/
def State.tripSensor (s : State) (n : Nat) : State :=
  let first := !s.pkg.thermTrip
  let by_ := if s.pwr.tripBy.contains n then s.pwr.tripBy else s.pwr.tripBy ++ [n]
  let s := ({ s with pkg := { s.pkg with thermTrip := true } } : State).setPwr { s.pwr with tripBy := by_ }
  let s := if n < 5 then s.setFld (Reg.pwrThermTrip n) 1 else s
  let s := if first then s.bump (Reg.pwrCnt 19) 1 else s
  if s.stepRunning then s.stopStep ⟨0, 0x0202, none⟩ 0 else s

def State.thermalTrip (s : State) (n : Nat) (temp : Int) : State :=
  match tripTemp n with
  | none => s
  | some t =>
    if temp < t ∨ s.held then s
    else
      let s := s.setSensor n temp
      let s := (s.emit 1 0x0202 (s.siteSensor n) 0 (n + word16 temp * 2 ^ 16)).raiseIrq irqPower
      s.tripSensor n

def execThermalTrip (sensor : Fin 28) (temp : BitVec 16) (s : State) : Host.Outcome State Fault Refusal :=
  done (s.thermalTrip sensor.val temp.toInt)

/-- The trip is released, and recovery proceeds under Table 11.9. -/
def State.thermalRelease (s : State) : State :=
  let s := ({ s with pkg := { s.pkg with thermTrip := false } } : State).setPwr { s.pwr with tripBy := [] }
  (List.range 5).foldl (fun (s : State) d => s.setFld (Reg.pwrThermTrip d) 0) s

def execThermalTripRelease (s : State) : Host.Outcome State Fault Refusal := done s.thermalRelease

end Sys2Proof.Machine
end

