-- ==== Sys2Proof/Machine/Security.lean ====
section
/-! DEFINITION. The Stosto meter, the security alarm, customer keys, debug unlock and fuses (R483 to R496, R500 to
R502). -/

namespace Sys2Proof.Machine

def State.setSec (s : State) (x : SecState) : State := { s with sec := x }

def State.setMtr (s : State) (x : MeterState) : State := { s with mtr := x }

/-! ### The alarm (R489, R490) -/

def State.siteAux (s : State) : Site := s.siteHub 13

/-- Every customer key slot is zeroised. -/
def State.eraseKeys (s : State) : State :=
  (s.setSec { s.sec with customer := [] }).setFld Reg.secAlarmStatusKeysErased 1

/-- Action of a source under the active ALARM_ACTION. -/
def State.alarmAction (s : State) (b : Nat) : Nat := bits (s.fld Reg.secAlarmActionAction) (2 * b + 1) (2 * b)

/-- A source is detected, from time 0 on (R504): IGNORE, RECORD, ERASE or ERASE_LOCK. -/
def State.alarm (s : State) (b : Nat) : State :=
  let act := s.alarmAction b
  if act = 0 ∨ s.held then s
  else
    let l := s.fld Reg.secAlarmStatusLatched
    let s := s.setFld Reg.secAlarmStatusLatched (setBits l b b 1)
    let s := s.setFld Reg.secAlarmStatusCount (s.fld Reg.secAlarmStatusCount + 1)
    let s := (s.emit 1 0x0204 s.siteAux 0 (b + act * 2 ^ 8)).raiseIrq irqPower
    let s := if 2 ≤ act then s.eraseKeys else s
    if act = 3 then s.setFld Reg.secAlarmStatusKeysLocked 1 else s

def execAlarm (source : Fin 6) (s : State) : Host.Outcome State Fault Refusal := done (s.alarm source.val)

/-! ### The meter (R483 to R488) -/

/-- Bytes of a meter record before its signature (Table 14.7). -/
def MeterState.recordBody (m : MeterState) (overrange : Bool) : List Byte :=
  [0x4B, 0x4E, 0x4D, 0x52] ++ toLe 2 1 ++ toLe 2 (b2n m.tampered + 2 * b2n overrange + 4 * b2n m.restarted) ++
  toLe 8 m.serial.toNat ++ toLe 8 m.sequence ++ toLe 8 m.seconds ++ toLe 2 m.swVersion.toNat ++ toLe 2 0 ++
  toLe 4 m.tamperCount ++ toLe 8 m.swDigest.toNat ++ (List.range 16).flatMap fun c => toLe 6 (m.energy.getD c 0)

/-- Full scale of a channel in mA; of channels 14 and 15 in µV of the shunt (Table 14.6). -/
def fullScale (c : Nat) : Nat :=
  if c < 4 then 1000000
  else if c < 8 then 320000
  else
    match c with
    | 8 => 500000
    | 9 => 400000
    | 10 => 450000
    | 11 => 200000
    | 12 => 80000
    | 13 => 20000
    | _ => 100000

/-- Current that a channel counts, in mA: none above full scale (R484). -/
def channelCurrent (c x : Nat) : Nat :=
  let x := min x (fullScale c)
  if c < 14 then x else Config.shuntCurrent c x

/-- mV × mA × samples of 0.4 µs in 1 mWh, which is 3.6 J. -/
def milliwattHour : Nat := 9000000000000

/-- Voltage times current of a channel over the interval (R483). -/
def intervalUnits (i : MeterInterval) (c : Nat) : Nat :=
  ((i.runs.filter fun r => r.channel.val == c).map fun r =>
    r.millivolts * channelCurrent c r.milliamps * r.samples).foldl (· + ·) 0

/-- Some sample's current lay above its full scale (R484). -/
def overrange (i : MeterInterval) : Bool :=
  i.runs.any fun r => decide (0 < r.samples) && decide (fullScale r.channel.val < r.milliamps)

/-- Energy of a channel at the end of the interval, below the last whole mWh and before it. -/
def MeterState.total (m : MeterState) (i : MeterInterval) (c : Nat) : Nat := m.remainder.getD c 0 + intervalUnits i c

/-- ECDSA P-256 over a record's bytes 0x00 to 0x8F with SHA-256: r, then s (Table 14.7). -/
def MeterState.signature (m : MeterState) (body : List Byte) : List Byte :=
  let k := 1 + Config.meterNonce m.sequence % (p256.n - 1)
  let g := p256.sign m.key k (beNat (sha256 body))
  toBe 32 g.1 ++ toBe 32 g.2

/-- One interval: the counters advance, and the record is emitted under the meter's signature. -/
def MeterState.tick (m : MeterState) (i : MeterInterval) : MeterState :=
  let m := { m with energy := (List.range 16).map fun c => m.energy.getD c 0 + m.total i c / milliwattHour,
                    remainder := (List.range 16).map fun c => m.total i c % milliwattHour,
                    seconds := m.seconds + 1, tampered := m.tampered || decide (0 < i.sealBreaks),
                    tamperCount := m.tamperCount + i.sealBreaks }
  let body := m.recordBody (overrange i)
  { m with emitted := body ++ m.signature body, sequence := m.sequence + 1, restarted := false }

def execMeterInterval (interval : MeterInterval) (s : State) : Host.Outcome State Fault Refusal :=
  done (s.setMtr (s.mtr.tick interval))

def mirrorDepth : Nat := 4096

/-- A valid frame of the one-way link carries a record of Table 14.7. -/
def recordValid (b : List Byte) : Bool :=
  b.length == 208 && b.take 4 == [0x4B, 0x4E, 0x4D, 0x52] && le b 4 2 == 1

/-- TAMPER_COUNT of a record (Table 14.7). -/
def recordBreaks (b : List Byte) : Nat := le b 36 4

/-- The record reports a seal break that no record before it reported: TAMPERED appears, or TAMPER_COUNT has risen above
that of the last record held (Table 14.8). -/
def State.newBreak (s : State) (b : List Byte) : Bool :=
  bit (le b 6 2) 0 &&
    (!s.fldB Reg.mtrStatusTampered ||
      match s.mtr.mirror with
      | [] => false
      | r :: _ => decide (recordBreaks r.1 < recordBreaks b))

/-- A record arrives: stamped, kept, shown in STATUS. A seal break that it reports first is an alarm (Table 14.8). -/
def State.meterRecord (s : State) (b : List Byte) : State :=
  if !recordValid b || s.held then s
  else
    let alarms := s.newBreak b
    let s := s.setMtr { s.mtr with mirror := ((b, s.glc) :: s.mtr.mirror).take mirrorDepth }
    let flags := le b 6 2
    let s := (s.setFld Reg.mtrStatusLinkOk 1).setFld Reg.mtrStatusTampered (b2n (bit flags 0))
    let s := (s.setFld Reg.mtrStatusOverrange (b2n (bit flags 1))).setFld Reg.mtrStatusLatestSeq (le b 16 4)
    if alarms then s.alarm 0 else s

def execMeterRecord (bytes : List Byte) (s : State) : Host.Outcome State Fault Refusal := done (s.meterRecord bytes)

/-- SEQUENCE of the last record received. -/
def State.lastSequence (s : State) : Nat :=
  match s.mtr.mirror with
  | [] => 0
  | r :: _ => le r.1 16 8

/-- No valid frame for 2 s while AUX is inside its window: LINK_OK falls, which is an alarm source. -/
def State.meterLinkLost (s : State) : State :=
  if !s.auxOk || !s.fldB Reg.mtrStatusLinkOk then s
  else
    let s := s.setFld Reg.mtrStatusLinkOk 0
    ((s.emit 1 0x0203 s.siteAux 0 s.lastSequence).raiseIrq irqPower).alarm 1

def execMeterLinkLost (s : State) : Host.Outcome State Fault Refusal := done s.meterLinkLost

/-! ### Customer keys (R491) -/

def State.keySlot (s : State) : Nat := s.fld Reg.secKeySelSlot

/-- Only the application cores, and only in their secure state, read and write a key. -/
def State.keyDataAccess (s : State) (ag : Agent) (w : Nat) (v : Option Word) : State :=
  let k := s.keySlot
  let old := Tab.get 0 k s.sec.customer
  if !s.answers ag then s.respond (errorResponse ag)
  else
  match ag, v with
  | .coreSecure, none => s.respond (.ok (BitVec.ofNat 512 (bits old (64 * w + 63) (64 * w))))
  | .coreSecure, some x =>
    if s.fldB Reg.secAlarmStatusKeysLocked then s.respond (.ok 0)
    else
      (s.setSec { s.sec with customer := Tab.set 0 k (setBits old (64 * w + 63) (64 * w) x.toNat) s.sec.customer }).respond
        (.ok 0)
  | _, _ => s.respond (.ok 0)

def execKeyDataAccess (agent : Agent) (word : Fin 4) (write : Option Word) (s : State) :
    Host.Outcome State Fault Refusal :=
  done (s.keyDataAccess agent word.val write)

/-! ### Debug unlock (R492) -/

/-- The response verifies against a valid FIRMWARE slot. -/
def State.unlockOk (s : State) (slot : Nat) (challenge key r sg : List Byte) : Bool :=
  s.fld (Reg.secSlotState slot) == 1 && Tab.find slot s.sec.digests == some (sha384 key) &&
    unlockSizes challenge key r sg && verify384 key r sg challenge

def State.debugUnlock (s : State) (slot : Nat) (challenge key r sg : List Byte) : State :=
  if s.unlockOk slot challenge key r sg then s.eraseKeys.setSec { s.eraseKeys.sec with unlocked := true }
  else
    let n := s.sec.unlockFails + 1
    let s := s.setSec { s.sec with unlockFails := n }
    if n = 8 then s.alarm 4 else s

def execDebugUnlock (slot : Fin 2) (challenge key sigR sigS : List Byte) (s : State) :
    Host.Outcome State Fault Refusal :=
  done (s.debugUnlock slot.val challenge key sigR sigS)

/-! ### Fuses (R493, R495) -/

def fuseProgramOp : Nat := 1
def fuseRevokeOp : Nat := 2
def fuseRaiseOp : Nat := 3

/-- Key slots of the class of a slot (Table 14.9). -/
def classSlots (k : Nat) : List Nat :=
  if k < 2 then [0, 1] else if k < 4 then [2, 3] else if k < 8 then [4, 5, 6, 7] else [8, 9]

/-- The minimum-version field of a class. -/
def minField (c : Nat) : Fld :=
  match c with
  | 0 => Reg.secMinVersionFirmware
  | 1 => Reg.secMinVersionPack
  | 2 => Reg.secMinVersionImage
  | _ => Reg.secMinVersionLoader

/-- The refusal code of a fuse operation; 0 where it may run. In which order they are judged is DESIGN CHOICE (log entry
126). -/
def State.fuseCode (s : State) (v : Nat) : Nat :=
  let op := Reg.secFuseCmdOp.of v
  let k := Reg.secFuseCmdSlot.of v
  if op = 0 then 5
  else if !s.auxOk then 1
  else if op = fuseRaiseOp then (if s.fld (minField (Reg.secFuseCmdClass.of v)) = 255 then 4 else 0)
  else if 10 ≤ k then 2
  else if op = fuseProgramOp then (if k < 4 ∨ s.fld (Reg.secSlotState k) ≠ 0 then 2 else 0)
  else if (classSlots k).any fun j => j != k && s.fld (Reg.secSlotState j) == 1 then 0
  else 3

/-- GO starts an operation, or its refusal is posted; while BUSY it is discarded. -/
def State.fuseCmd (s : State) (v : Word) : State :=
  if Reg.secFuseCmdGo.of v.toNat = 0 ∨ s.fldB Reg.secFuseStatusBusy then s
  else
    let c := s.fuseCode v.toNat
    let s := s.setFld Reg.secFuseStatusCode c
    if c ≠ 0 then s else (s.setSec { s.sec with fuse := some v }).setFld Reg.secFuseStatusBusy 1

/-- A write to FUSE_CMD with the given OP. -/
def State.fuseOp (s : State) (op : Nat) (v : Word) : State :=
  if s.pkg.ready && Reg.secFuseCmdOp.of v.toNat == op then s.fuseCmd v else s

def execFuseProgram (value : Word) (s : State) : Host.Outcome State Fault Refusal := done (s.fuseOp fuseProgramOp value)

def execFuseRevoke (value : Word) (s : State) : Host.Outcome State Fault Refusal := done (s.fuseOp fuseRevokeOp value)

def execFuseRaise (value : Word) (s : State) : Host.Outcome State Fault Refusal := done (s.fuseOp fuseRaiseOp value)

/-- The digest that FUSE_DATA holds. -/
def State.fuseDigest (s : State) : List Byte := (List.range 6).flatMap fun w => toLe 8 (s.reg (Reg.secFuseData w)).toNat

/-- The operation ends: its fuses are blown. -/
def State.fuseComplete (s : State) : State :=
  match s.sec.fuse with
  | none => s
  | some v =>
    let k := Reg.secFuseCmdSlot.of v.toNat
    let f := minField (Reg.secFuseCmdClass.of v.toNat)
    let s := (s.setSec { s.sec with fuse := none }).setFld Reg.secFuseStatusBusy 0
    let s := s.setFld Reg.secFuseStatusCode 0
    match Reg.secFuseCmdOp.of v.toNat with
    | 1 => (s.setSec { s.sec with digests := Tab.put k s.fuseDigest s.sec.digests }).setFld (Reg.secSlotState k) 1
    | 2 => s.setFld (Reg.secSlotState k) 2
    | _ => s.setFld f (s.fld f + 1)

def execFuseComplete (s : State) : Host.Outcome State Fault Refusal := done s.fuseComplete

end Sys2Proof.Machine
end

