-- ==== Sys2Proof/Machine/Startup.lean ====
section
/-! DEFINITION. Start-up, the reset kinds and power-down (R493, R494, R503 to R518). -/

namespace Sys2Proof.Machine

/-! ### Resets (R513) -/

/-- Registers that fuses hold. -/
def fuseRegs : List Nat := Reg.secMinVersion :: (List.range 10).map Reg.secSlot

def State.keepRegs (t s : State) (os : List Nat) : State := os.foldl (fun (t : State) o => t.setReg o (s.reg o)) t

/-- A fuse operation that a reset cuts short leaves its field in the old or in the new state: a free choice (R495). R495
speaks of power loss; a package reset is taken the same way (DESIGN CHOICE, log entry 201). -/
def State.cutFuse (s : State) : State :=
  match s.sec.fuse with
  | none => s
  | some _ => if s.free.1 % 2 = 0 then s.free.2.fuseComplete else s.free.2

/-- The state after a power-on reset: fuses, package NOR, the meter, the part and its pins are kept. PERST_N is driven
low in root-port mode (R504). The command queue and the counter of free values belong to the model. -/
def State.powerOnReset (s : State) : State :=
  let s := s.cutFuse
  let pkg := { PkgState.init with
    gradeE := s.pkg.gradeE, steppingB0 := s.pkg.steppingB0, rootPort := s.pkg.rootPort, auxLow := s.pkg.auxLow,
    cutFrames := s.pkg.cutFrames, powerGood := s.pkg.powerGood, resetN := s.pkg.resetN, perstN := !s.pkg.rootPort && s.pkg.perstN, tamperIn := s.pkg.tamperIn,
    serial := s.pkg.serial, romVersion := s.pkg.romVersion, fwVersion := s.pkg.fwVersion, stagedFw := s.pkg.stagedFw }
  let t := { State.reset with
    pending := s.pending, fresh := s.fresh, pkg := pkg, flt := { FltState.init with nor := s.flt.nor },
    sec := { SecState.init with digests := s.sec.digests },
    mtr := { s.mtr with mirror := [] } }
  (t.keepRegs s fuseRegs).strapRoot

/-- A package reset: also the alarm's latched state, KEYS_LOCKED, a locked ALARM_ACTION and the causes so far survive
(R490, R501, R518). The failed unlocks count from power-on reset (R492), and PCIE_MODE was sampled at time 0 (R504). While
RESET_N is low the package stays in its reset. -/
def State.packageClear (s : State) (byBall : Bool) : State :=
  let t := s.powerOnReset
  let t := { t with sec := { t.sec with unlockFails := s.sec.unlockFails },
                    pkg := { t.pkg with modeSampled := s.pkg.modeSampled, resetN := s.pkg.resetN && !byBall } }
  let t := t.keepRegs s [Reg.secAlarmStatus, Reg.pkgResetCause]
  let t := if s.fldB Reg.secAlarmActionLock then
      (t.keepRegs s [Reg.secAlarmAction]).setShadow Reg.secAlarmAction (s.reg Reg.secAlarmAction)
    else t
  let t := t.setFld (if byBall then Reg.pkgResetCauseResetN else Reg.pkgResetCauseRequest) 1
  t.setFld Reg.pkgResetCausePackageResets (s.fld Reg.pkgResetCausePackageResets + 1)

def resetKey : Nat := 0x4B52

/-- A write to RESET_CTRL takes effect with GO, KEY and exactly one of PACKAGE and CORES (R517). -/
def resetWanted (v : Nat) (package : Bool) : Bool :=
  Reg.pkgResetCtrlGo.of v == 1 && Reg.pkgResetCtrlKey.of v == resetKey &&
    Reg.pkgResetCtrlPackage.of v == b2n package && Reg.pkgResetCtrlCores.of v == b2n !package

/-- A halted package takes no register write: RESET_N resets it (R507). -/
def State.packageReset (s : State) (byBall : Bool) (v : Nat) : State :=
  if byBall || resetWanted v true && !s.pkg.halted then s.packageClear byBall else s

def execPackageReset (byBall : Bool) (value : Word) (s : State) : Host.Outcome State Fault Refusal :=
  done (s.packageReset byBall value.toNat)

/-- AUX fails: power-on reset, which lasts until AUX is back, and the meter, which saved its counters, marks its next record
RESTARTED (R485, R503). -/
def State.auxFails (s : State) : State :=
  let t := s.powerOnReset
  { t with mtr := { t.mtr with restarted := true }, pkg := { t.pkg with auxLow := true } }

/-- The supervisor on AUX holds the package in power-on reset below 1.62 V (R477). -/
def State.superviseAux (s : State) (aux : Nat) : State :=
  if aux < 1620 then (if s.pkg.auxLow then s else s.auxFails) else { s with pkg := { s.pkg with auxLow := false } }

/-- One microsecond's samples: the supervisor's, and the rail monitor's unless the package is held (R477, R478). -/
def State.railSample (s : State) (mvs : List Nat) : State :=
  let t := match mvs[13]? with
    | some aux => s.superviseAux aux
    | none => s
  if t.held then t else t.sampleRails mvs

def execRailSample (millivolts : List (BitVec 16)) (s : State) : Host.Outcome State Fault Refusal :=
  done (s.railSample (millivolts.map BitVec.toNat))

/-- Frames in transmission, each ended with a stomped FCS (R297, R515). -/
def State.stompedFrames (s : State) : List (Nat × List Byte) :=
  (List.range 16).filterMap fun c => (s.half c).out.map fun o => (c, (o.settle false).withFcs)

/-- R515: PWR_GOOD falls. Where AUX is inside its window, issue stops and what the halves were sending ends stomped; the
package ends in power-on reset and stays there (that nothing is seen in between, DESIGN CHOICE, log entry 199). -/
def State.powerDown (s : State) : State :=
  let cut := if s.auxOk && !s.held then s.stompedFrames else s.pkg.cutFrames
  State.powerOnReset { s with pkg := { s.pkg with powerGood := false, cutFrames := cut } }

def execPowerDown (s : State) : Host.Outcome State Fault Refusal := done s.powerDown

/-! ### Application cores (R508, R513) -/

/-- The loader's bytes at its destination, and core 0 at its entry. -/
def State.copyLoader (s : State) (l : Loader) : State :=
  let s := s.write l.dest l.code
  { s with pkg := { s.pkg with loaderStarted := true, coreEntry := some (l.dest + l.entry) } }

def State.setWarn (s : State) (w : Nat) : State :=
  s.setFld Reg.pkgBootStatusWarn (setBits (s.fld Reg.pkgBootStatusWarn) w w 1)

/-- The range lies in memory that has trained: tier 2 as T2_STATUS shows it, tier 1 in no stack that failed. -/
def State.trained (s : State) (a n : Nat) : Bool :=
  s.inTiers a n &&
  (!inTier1 a n || (touchedLines a n).all fun l => s.fld (Reg.memStackStateState (s.stackOf (64 * l)).1) != 3)

/-- The verified loader is copied once phase MEMORY has ended, before or after READY; in memory that did not train the cores
are not started (R508). -/
def State.loaderStart (s : State) : State :=
  match s.pkg.loader with
  | none => s
  | some l =>
    if !s.pkg.pairs.contains true || !s.past 7 || s.pkg.loaderStarted then s
    else if s.trained l.dest l.code.length then s.copyLoader l
    else s.setWarn 4

def execLoaderStart (s : State) : Host.Outcome State Fault Refusal := done s.loaderStart

def State.coresReset (s : State) (v : Nat) : State :=
  if !s.pkg.ready || !resetWanted v false then s
  else
    let s := s.resetRegs ((List.range 528).map Reg.hubIrqRoute)
    let s := { s with pkg := { s.pkg with loaderStarted := false, coreEntry := none } }
    let s := s.setFld Reg.pkgResetCauseCores 1
    s.setFld Reg.pkgResetCauseCoreResets (s.fld Reg.pkgResetCauseCoreResets + 1) |>.loaderStart

def execCoresReset (value : Word) (s : State) : Host.Outcome State Fault Refusal := done (s.coresReset value.toNat)

/-! ### PCIe and test resets (R513) -/

def pcieRegs : List Nat := flrRegs ++ [Reg.pcieBar2Cfg, Reg.pcieOutBase]

def State.perst (s : State) : State :=
  if s.rootPort then s
  else
    let s := { s with pkg := { s.pkg with perstN := false } }
    (s.resetRegs pcieRegs).msixReset.strapRoot.setFld Reg.pkgResetCausePerst 1

def execPciePerst (s : State) : Host.Outcome State Fault Refusal := done s.perst

/-- PERST_N is high, and the link trains: a host releases it, or trains a link that a reset has taken down; a root port
drives it high itself in start-up (R454, R504). -/
def State.perstRelease (s : State) (speed width : Nat) (flit : Bool) : State :=
  if s.held || s.fldB Reg.pcieStatusLinkUp || (s.rootPort && !s.pkg.perstN) || !(decide (1 ≤ speed ∧ speed ≤ 6)) ||
      !([1, 2, 4, 8, 16].contains width) then s
  else
    let s := { s with pkg := { s.pkg with perstN := true } }
    let s := (s.setFld Reg.pcieStatusLinkUp 1).setFld Reg.pcieStatusFlit (b2n (flit || speed == 6))
    (s.setFld Reg.pcieStatusSpeed speed).setFld Reg.pcieStatusWidth width

def execPciePerstRelease (speed : BitVec 3) (width : BitVec 5) (flit : Bool) (s : State) :
    Host.Outcome State Fault Refusal :=
  done (s.perstRelease speed.toNat width.toNat flit)

def execTestReset (s : State) : Host.Outcome State Fault Refusal := done (s.setSec { s.sec with unlocked := false })

/-! ### Start-up, phases 1 to 3 (Table 15.3) -/

/-- Start-up stops in its phase (R507). -/
def State.haltBoot (s : State) (code : Nat) : State :=
  ({ s with pkg := { s.pkg with halted := true } } : State).setFld Reg.pkgBootStatusPhase 15 |>.setFld
    Reg.pkgBootStatusCode code

/-- BOOT_VERIFY_FAIL (Table 14.11). -/
def State.verifyFail (s : State) (stage object slot cause : Nat) : State :=
  s.emit 3 0x0205 s.siteAux 0 (stage + object * 2 ^ 4 + slot * 2 ^ 8 + cause * 2 ^ 16)

/-- A signature block by a key of the class that starts at slot `base`: 0, or the cause of its failure (Table 3.17). -/
def State.sigCode (s : State) (base : Nat) (blk msg : List Byte) (version least : Nat) : Nat :=
  if le blk 0 1 ≠ 1 ∨ 1 < le blk 1 1 ∨ s.slotKey (base + le blk 1 1) = none then 6
  else if version < least then 7
  else if !s.signedBy (base + le blk 1 1) blk msg then 8
  else 0

/-- A key of the SPI NOR is taken where its slot is valid and its digest is the slot's (R493). -/
def State.takeKey (s : State) (keys : List (Nat × List Byte)) (k : Nat) : State :=
  match keys.find? fun p => p.1 == k with
  | some p =>
    if s.fld (Reg.secSlotState k) = 1 ∧ Tab.find k s.sec.digests = some (sha384 p.2) then
      s.setSec { s.sec with keys := Tab.put k p.2 s.sec.keys }
    else s
  | none => s

def slotKeys (o : BootOutcome) : List (Nat × List Byte) := o.keys.map fun p => (p.1.val, p.2)

/-- Code and signature block of a firmware copy. -/
def firmwareCode (c : FirmwareCopy) : List Byte := c.bytes.take (c.bytes.length - 104)
def firmwareBlock (c : FirmwareCopy) : List Byte := c.bytes.drop (c.bytes.length - 104)

/-- Cause that refuses a firmware copy under the keys taken: key, SECURITY_VERSION, signature (Table 14.10, stage 1). -/
def State.copyCode (s : State) (c : FirmwareCopy) : Nat :=
  s.sigCode 0 (firmwareBlock c) (firmwareCode c) c.securityVersion.toNat (s.fld Reg.secMinVersionFirmware)

/-- PLL: no lock within 10 ms halts. -/
def State.bootPll (s : State) (o : BootOutcome) : State := if o.pllLock then s else s.haltBoot 1

/-- BOOT_ROM: the ROM runs on pair 0, or on pair 1, and verifies copy A, then copy B, with the FIRMWARE keys. A failure of
copy A is recorded once the firmware of copy B runs. -/
def State.bootRom (s : State) (o : BootOutcome) : State :=
  let s := { s with pkg := { s.pkg with pairs := [o.pair0, o.pair1], activePair := if o.pair0 then 0 else 1 } }
  let s := if o.pair0 then s else s.setWarn 1
  if !o.pair0 && !o.pair1 then s.haltBoot 2
  else
    let s := (List.range 2).foldl (fun (s : State) k => s.takeKey (slotKeys o) k) s
    let a := s.copyCode o.copyA
    let run (s : State) (c : FirmwareCopy) : State :=
      { s with pkg := { s.pkg with fwVersion := s.pkg.stagedFw.getD c.version.toNat, stagedFw := none } }
    if a = 0 then run s o.copyA
    else if s.copyCode o.copyB = 0 then
      ((run s o.copyB).setWarn 0).verifyFail 1 0 (le (firmwareBlock o.copyA) 1 1 % 2) a
    else s.haltBoot 3

/-- FIRMWARE: the pairs are set up; a root port releases PERST_N as the phase ends (R504). -/
def State.bootFirmware (s : State) (o : BootOutcome) : State :=
  let s := { s with pkg := { s.pkg with perstN := s.pkg.rootPort || s.pkg.perstN } }
  if o.pair1 then s else s.setWarn 1

/-! ### Phase 4: DRIPSTONE -/

/-- Application cores that the unit table records as RETIRED stay out of service (R443, R510). -/
def State.bootRetired (s : State) : State :=
  { s with pkg := { s.pkg with retiredCores :=
    (s.flt.units.filter fun e => keyClass e.1 == 10 && e.2.state == stRetired).map fun e => keyIndex e.1 } }

def State.bootDripstone (s : State) : State :=
  let n := s.flt.nor
  if n.headerA.valid || n.headerB.valid then
    let h := n.header
    let s := { s with flt := { s.flt with units := if h.table = 0 then n.tableA else n.tableB } }
    let s := s.setFld Reg.fltPowerSecondsSeconds h.powerSeconds
    ((s.setFld Reg.fltLogHeadRingHead h.ringHead).setFld Reg.fltLogHeadRingWraps h.ringWraps).bootRetired
  else
    -- unit states from the factory record, no strikes and no counts, new header copies
    let us := n.factory.map fun (e : Nat × UnitEntry) => (e.1, { UnitEntry.fresh with state := e.2.state })
    let h : NorHeader := ⟨true, 0, 0, 1, 0, 0, 0⟩
    let s := s.setNor { n with headerA := h, headerB := { h with generation := 2 }, tableA := us }
    State.bootRetired (State.setWarn { s with flt := { s.flt with units := us } } 2)

/-! ### Phase 5: VERIFY (R494 stage 2, R506) -/

/-- One key slot: the key of a valid slot is taken, or the slot counts as empty. The failure of an IMAGE or LOADER key is
recorded (Table 14.10, stage 2). -/
def State.bootKey (s : State) (keys : List (Nat × List Byte)) (k : Nat) : State :=
  let t := s.takeKey keys k
  if t.fld (Reg.secSlotState k) ≠ 1 ∨ (Tab.find k t.sec.keys).isSome then t
  else
    let t := t.setSec { t.sec with keyBad := t.sec.keyBad ++ [k] }
    if 4 ≤ k then t.verifyFail 2 2 k 6 else t

def State.bootKeys (s : State) (keys : List (Nat × List Byte)) : State :=
  (List.range 10).foldl (fun (s : State) k => s.bootKey keys k) s

def State.packSig (s : State) (p : PackSlot) : Nat :=
  let sig := le p.bytes 0x20 8
  s.sigCode 2 (p.bytes.drop sig) (p.bytes.take sig) (le p.bytes 0x0C 4) (s.fld Reg.secMinVersionPack)

/-- The active pack, or the pack of the other slot. -/
def State.bootPack (s : State) : State :=
  let n := s.flt.nor
  let slot (i : Nat) : Option PackSlot := if i = 0 then n.pack0 else n.pack1
  let a := n.header.pack
  let try_ (i : Nat) (t : State) : State × Bool :=
    match slot i with
    | none => (t, false)
    | some p =>
      let c := t.packSig p
      if c = 0 then (t.setFld Reg.fltPackStatusActiveVersion p.version, true)
      else (t.verifyFail 2 1 (2 + le (p.bytes.drop (le p.bytes 0x20 8)) 1 1 % 2) c, false)
  let r := try_ a s
  if r.2 then r.1
  else
    let q := try_ (1 - a) r.1
    if q.2 then q.1 else q.1.setWarn 3

/-- Cause that refuses the start-up record and the loader as one object; 0 where both verify. -/
def State.loaderCode (s : State) (r l : List Byte) : Nat :=
  let len := le r 0x18 4
  let dest := le r 0x10 8
  if r.take 4 ≠ [0x4B, 0x4E, 0x53, 0x55] then 2
  else if le r 4 2 ≠ 1 then 3
  else
    let c := s.sigCode 8 (sliceBytes r 0x40 104) (r.take 0x40) (le r 0x0C 4) (s.fld Reg.secMinVersionLoader)
    if c ≠ 0 then c
    else if len = 0 ∨ 2 ^ 24 < len ∨ len ≤ le r 0x1C 4 ∨ l.length ≠ len + 104 ∨ dest % 4096 ≠ 0 ∨ ntsBase ≤ dest ∨
        3 < le r 6 1 ∨ 3 < le r 7 1 ∨ 15 < le r 0x0A 1 then 5
    else s.sigCode 8 (l.drop len) (l.take len) (le r 0x0C 4) (s.fld Reg.secMinVersionLoader)

/-- The record is applied, or its defaults stand (R506). -/
def State.bootRecord (s : State) (r l : List Byte) : State :=
  let c := s.loaderCode r l
  if c ≠ 0 then (s.setWarn 4).verifyFail 2 3 (8 + le (r.drop 0x40) 1 1 % 2) c
  else
    let s := (s.stewardCommit 0x02000 [(Reg.hubRoleRole, le r 6 1), (Reg.hubRoleFleet, le r 8 2)]).2
    let s := (s.stewardCommit 0x30000 [(Reg.timeCtrlSource, le r 7 1), (Reg.timeCtrlObcLink, le r 0x0A 1)]).2
    { s with pkg := { s.pkg with loader := some ⟨le r 0x10 8, le r 0x1C 4, l.take (le r 0x18 4)⟩ } }

/-- Obcor links begin to train as VERIFY ends (R508). -/
def State.bootObcor (s : State) : State :=
  (List.range 16).foldl (fun (s : State) l =>
    if s.fldB (Reg.obcLinkCtrlEnable l) then s.setFldIrq irqObcor (Reg.obcLinkStatusState l) obcTraining else s) s

/-! ### Phases 6 and 7: LINKS and MEMORY -/

/-- One in-package link: groups that the unit table records as removed, lanes that it records as replaced, then the lanes
that fail this training (R27). -/
def State.bootLink (s : State) (failed : List (Nat × Nat)) (n : Nat) : State :=
  let groups := List.range (linkGroups n)
  let gone := groups.filter fun g => (s.unit (groupKey n g)).state == stRetired
  let used := (groups.filter fun g => !gone.contains g).filterMap fun g => (s.unit (groupKey n g)).spareLane
  let s := s.setLink n { LinkState.init with up := true, removed := gone, spared := used }
  (failed.filter fun x => x.1 == n).foldl (fun (s : State) x => s.repairLane n x.2) s

def State.bootLinks (s : State) (failed : List (Nat × Nat)) : State :=
  let s := (List.range 10).foldl (fun (s : State) n => s.bootLink failed n) s
  (List.range 10).foldl (fun (s : State) n =>
    if 2 * (s.link n).groups n < linkGroups n then s.linkDown n else s) s

/-- One stack trains, with pseudo-channels remapped that are retired or DUE (R211, R376). -/
def State.bootStack (s : State) (failed : List Nat) (st : Nat) : State :=
  let lost := failed.contains st || (s.unit (unitKey 5 st)).state == stRetired
  if lost then (s.loseStack st).loseDie (st / 5) 1 0
  else
    let s := s.setFld (Reg.memStackStateState st) 1
    let s := (List.range 64).foldl (fun (s : State) q =>
      let u := s.unit (pcKey st q)
      if u.state = stRetired then
        (s.setFld (Reg.memPcRetiredRetired st) (setBits (s.fld (Reg.memPcRetiredRetired st)) q q 1)).setFld
          (Reg.memStackStateState st) 2
      else if u.state = stDue then (s.remapPc [] (pcKey st q) u.cause).setWarn 6
      else s) s
    if 3 ≤ s.pcsOut st then (s.loseStack st).loseDie (st / 5) 1 0 else s

/-- MEM.T2_STATUS from the channels that trained with a supported DIMM, 16 to 256 GiB, and are not DUE (R213, R214). -/
def State.bootTier2 (s : State) (chans : List (Nat × Nat)) : State :=
  let ok := chans.filter fun c =>
    let u := s.unit (channelKey c.1)
    decide (16 ≤ c.2 ∧ c.2 ≤ 256) && u.state != stDue && u.state != stRetired
  let d := ok.foldl (fun m c => if m = 0 then c.2 else min m c.2) 0
  let mask := maskOf 16 fun j => ok.any fun c => c.1 == j
  let n := ((List.range 16).filter fun j => bit mask j).length
  let s := if n < 16 then s.setWarn 5 else s
  ((s.setFld Reg.memT2StatusChannels mask).setFld Reg.memT2StatusCount n).setFld Reg.memT2StatusDimmGib d

/-! ### Phases 8 to 10: DIES, SCREEN, READY -/

/-- An uncorrectable error with no job to stop: its line is poisoned, and its unit is charged (R219, R514). -/
def State.bootError (s : State) (a : Nat) : State :=
  let m := s.memOf a
  let s := ((s.poisonAt a).bumpEcc a 1).emit 1 0x0011 m.2.2 0x3000 (memSyndrome a 0 m.1 m.2.1)
  s.applyCause (s.chargeOf a) 0x0011

/-- Steps 5 and 6 of Table 11.12 for the errors of a phase (R514): the stacks of the dies whose tier 1 they struck retrain. -/
def State.bootErrors (s : State) (es : List (Nat × Bool)) : State :=
  let es := es.filter fun e => s.inTiers e.1 1
  let again := (es.filter fun e => e.2 && inTier1 e.1 1).map fun e => e.1
  let keys := again.map fun a => pcKey (s.pcOf a).1 (s.pcOf a).2
  let s := es.foldl (fun (s : State) e => s.bootError e.1) s
  (List.range 4).foldl (fun (s : State) d =>
    if es.any fun e => inTier1 e.1 1 && (s.stackOf e.1).1 / 5 == d then
      let s := s.resetStacks d keys [] again
      if (List.range 5).any fun i => s.fld (Reg.memStackStateState (5 * d + i)) == 3 then s.loseDie d 1 0 else s
    else s) s

def phaseErrors (o : BootOutcome) (screen : Bool) : List (Nat × Bool) :=
  (o.memErrors.filter fun e => e.screen == screen).map fun e => (e.addr.toNat, e.recurs)

/-- DUE units retire, units in Sump wait for their screens again, and every map is built (R510). -/
def State.bootDies (s : State) : State :=
  let s := (List.range 4).foldl State.retireDue s
  let sump := (s.flt.units.filter fun e => e.2.state == stSump).map fun e => (e.1, ScreenKind.sump, s.packVersion)
  let s := { s with flt := { s.flt with screening := sump } }
  ((List.range 4).foldl (fun (s : State) d => (s.parentRule d).rebuildMaps d true) s).loseEmptyDies

/-- Quick screens of every compute unit and slice in service or spare: a unit that fails gets a strike and goes to Sump,
and the maps are computed again, each substitute being screened before it is mapped (Table 11.8). -/
def State.bootScreen (s : State) (fails : List Nat) : State :=
  let units := (computeUnits ++ (List.range 16).map sliceKey).filter fun k => !s.outOfMap k
  let bad := fails.filter units.contains
  let s := s.massScreen units bad
  if bad.isEmpty then s
  else
    let s := s.setWarn 8
    let t := s.rebuild
    (t.screenMoved (t.movedUnits s)).loseEmptyDies

/-- A worker asks to join on every link that is up (R512). -/
def State.joinAll (s : State) : State :=
  if s.role = roleWorker then (List.range 16).foldl (fun (s : State) l => if s.obcUp l then s.sendJoin else s) s else s

/-- READY, after `ms` milliseconds of start-up. -/
def State.bootReady (s : State) (ms : Nat) : State :=
  let s := s.setFld Reg.fltPowerSecondsSeconds (s.powerSeconds + ms / 1000)
  let s := { s with pkg := { s.pkg with ready := true, upNs := ms % 1000 * 1000000 } }
  (s.setFld Reg.cfgCapsMaxClusters s.effectiveClusters).noteStalled.joinAll

/-- The actions of a phase (Table 15.3). -/
def State.bootPhase (s : State) (o : BootOutcome) (p : Nat) : State :=
  match p with
  | 1 => s.bootPll o
  | 2 => s.bootRom o
  | 3 => s.bootFirmware o
  | 4 => s.bootDripstone
  | 5 => (((s.bootKeys (slotKeys o)).bootPack).bootRecord o.bootRecord o.loader).bootObcor
  | 6 => s.bootLinks (o.lanesFailed.map fun x => (x.1.val, laneNo x.2))
  | 7 => ((List.range 20).foldl (fun (s : State) st => s.bootStack (o.stacksFailed.map Fin.val) st) s).bootTier2
      (o.channels.map fun x => (x.1.val, x.2.toNat))
  | 8 => s.bootDies.bootErrors (phaseErrors o false)
  | _ => (s.bootErrors (phaseErrors o true)).bootScreen (o.screenFails.map BitVec.toNat)

/-- Phases that issue work on a compute die: they wait while THERM_TRIP is asserted (R514). -/
def dieWork (p : Nat) : Bool := decide (8 ≤ p)

/-- Phase `p` runs, if it is the next, and start-up goes on behind it or halts in it. -/
def State.runPhase (s : State) (o : BootOutcome) (p : Nat) : State :=
  if s.pkg.halted || s.phase != p || decide (o.upTo.val ≤ p) || s.pkg.thermTrip && dieWork p then s
  else
    let t := s.bootPhase o p
    if t.pkg.halted then t else t.setFld Reg.pkgBootStatusPhase (p + 1)

/-- The time since time 0, in ELAPSED_MS and in the clock, which runs at its nominal rate meanwhile (R508). -/
def State.bootElapsed (s : State) (ms : Nat) : State :=
  let t := s.clock.sec * 1000000000 + s.clock.ns + (ms - s.fld Reg.pkgBootStatusElapsedMs) * 1000000
  ({ s with clock := ⟨t / 1000000000, t % 1000000000, s.clock.frac⟩ } : State).setFld Reg.pkgBootStatusElapsedMs ms

/-- PCIE_MODE is sampled at time 0, and a root port drives PERST_N low (R504). -/
def State.sampleMode (s : State) (root : Bool) : State :=
  if s.pkg.modeSampled then s
  else State.strapRoot { s with pkg := { s.pkg with rootPort := root, modeSampled := true, perstN := !root && s.pkg.perstN } }

/-- The balls as a command of start-up finds them. -/
def State.raiseBalls (s : State) (o : BootOutcome) : State :=
  { s with pkg := { s.pkg with powerGood := s.pkg.powerGood || o.pwrGood, resetN := s.pkg.resetN || o.resetN } }

/-- Start-up from the phase it stands in to the one the command names, to READY, or to a halt (R507; that one command may
run several phases, DESIGN CHOICE, log entry 128). -/
def State.startup (s : State) (o : BootOutcome) : State :=
  let s := s.raiseBalls o
  if s.pkg.ready || s.pkg.halted || s.held then s
  else
    let ms := o.elapsedMs.toNat
    let t := ((List.range' 1 9).foldl (fun (s : State) p => s.runPhase o p) (s.sampleMode o.pcieRoot)).bootElapsed ms
    if t.phase = 10 then t.bootReady ms else t

def execStartup (outcome : BootOutcome) (s : State) : Host.Outcome State Fault Refusal :=
  done (s.startup outcome)

end Sys2Proof.Machine
end

