-- ==== Sys2Proof/Machine/Views.lean ====
section
/-! DEFINITION. What a read of a register returns: stored registers, registers computed from the state, shadow values
(R12 to R16, R118, R119, R123, R524). Reading is a function of the state; the reads with an effect of their own are
commands. -/

namespace Sys2Proof.Machine

/-- A count shown in 16 bits. -/
def sat16 (n : Nat) : Nat := min n 0xFFFF

/-! ### Configuration -/

def State.groupQuery (s : State) : Nat :=
  let g := s.fld Reg.cfgGroupQueryGroup
  g + b2n (groupKnown g) * 2 ^ 20 + b2n (s.isPending g) * 2 ^ 21 + Tab.get 0 g s.cfg.lastCode * 2 ^ 24 +
    Tab.get 0 g s.cfg.applied * 2 ^ 32

/-- Levels of a unit code on a compute die: cluster, core and engine named without a gap. -/
def levelsOk (u : Nat) : Bool :=
  (ucCluster u != noCluster || (ucCore u == noCore && ucEngine u == 15)) && (ucCore u != noCore || ucEngine u == 15)

/-- The physical code of a unit that a query names; slices and the feature encoder have one code each. -/
def State.queriedUnit (s : State) (u : Nat) : Option Nat :=
  if ucDie u < 4 then
    if !levelsOk u then none
    else if ucPhys u = 1 then
      if (ucCluster u < 17 ∨ ucCluster u = noCluster) ∧ (ucCore u < 9 ∨ ucCore u = noCore) ∧
          (ucEngine u < 9 ∨ ucEngine u = 15) then some u
      else none
    else
      let p := s.physOf u
      if ucPhys p = 1 ∧ (ucCore u < 8 ∨ ucCore u = noCore) ∧ (ucEngine u < 8 ∨ ucEngine u = 15) then some p else none
  else if u = hubCode then some u
  else if u = sliceCode (ucCluster u) ∧ ucCluster u < 16 then some u
  else none

/-- The parent whose epoch a unit must not lie below (R122). -/
def parentCode (p : Nat) : Option Nat :=
  if 4 ≤ ucDie p then (if p = hubCode then none else some hubCode)
  else if ucEngine p ≠ 15 then some (coreCodeP (ucDie p) (ucCluster p) (ucCore p))
  else if ucCore p ≠ noCore then some (clusterCodeP (ucDie p) (ucCluster p))
  else if ucCluster p ≠ noCluster then some (dieCodeP (ucDie p))
  else none

def State.epochQuery (s : State) : Nat :=
  let u := s.fld Reg.cfgEpochQueryUnit
  match s.queriedUnit u with
  | none => u
  | some p =>
    let e := Tab.get 0 p s.cfg.epochs
    let floor := match parentCode p with
      | some q => Tab.get 0 q s.cfg.epochs
      | none => 0
    u + 2 ^ 18 + b2n (e != 0 && decide (floor ≤ e)) * 2 ^ 19 + e * 2 ^ 32

/-! ### Hub, wire and Bramble -/

def State.ringWord (s : State) (off : Nat) : Nat :=
  match s.selRing with
  | none => 0
  | some (cls, i) =>
    let r := s.ring cls i
    if off = Reg.hubRingBase then r.base
    else if off = Reg.hubRingWatch then r.watch
    else if off = Reg.hubRingReport then r.report
    else if off = Reg.hubRingCfg then
      b2n r.enable + r.sizeLog2 * 2 + r.version * 2 ^ 6 + r.irq * 2 ^ 8 + r.cpl * 2 ^ 24 + r.holdoff * 2 ^ 32
    else r.done + r.error * 2 ^ 32 + b2n (!s.ringBusy cls i) * 2 ^ 40

def State.bankState (s : State) : Nat :=
  let n := s.bankHolders (1 - s.activeBank)
  setBits (setBits (s.reg Reg.clsBankState).toNat 1 1 (b2n (n == 0))) 31 16 (sat16 n)

/-- The word that BANK_ADDR selects. -/
def State.bankSelected (s : State) : Nat :=
  let r := s.fld Reg.clsBankAddrRegion
  let i := s.fld Reg.clsBankAddrIndex
  let k := s.fld Reg.clsBankAddrWord
  if (bankRegion r).1 ≤ i ∨ (bankRegion r).2 ≤ k then 0 else s.bankWord (s.fld Reg.clsBankAddrBank) r i k

def State.pausedMask (s : State) (c : Nat) : Nat := maskOf 8 (s.paused c)

def State.portStatus (s : State) (n : Nat) : Nat :=
  setBits (setBits (s.reg (Reg.wirePortStatus n)).toNat 23 16 (s.pausedMask (2 * n))) 31 24 (s.pausedMask (2 * n + 1))

/-- Leader of a slice's pair, or the slice itself. -/
def pairLeader (pair j : Nat) : Nat := if pair = 2 ∨ pair = 4 then j - 1 else j

def State.sliceStatus (s : State) (j : Nat) : Nat :=
  let b := s.wire.model.slice j
  let pair := sPair b
  let l := pairLeader pair j
  let st := if s.sliceRetired j then 3 else if b = [] then 0 else if s.fldB (Reg.brmSliceCtrlStop l) ∨ s.loadState = loadDistributing then 2 else 1
  let alone := s.sliceAlone l && s.fldB (Reg.brmSliceCtrlDegrade l) && !s.sliceRetired j
  st + pair * 2 ^ 2 + b2n alone * 2 ^ 5 + le b 2 1 * 2 ^ 8 + le b 0 2 * 2 ^ 16 +
    Tab.get 0 (sliceCode j) s.cfg.epochs * 2 ^ 32

def State.modelState (s : State) : Nat :=
  b2n (s.modelHolders == 0) + sat16 s.modelHolders * 2 ^ 16 + s.wire.swaps % 2 ^ 32 * 2 ^ 32

/-! ### Tables, checking, units -/

def State.tableWord (s : State) : Nat :=
  let t := s.fld Reg.embTableSelTable
  match s.embD.tables.find? fun d => d.idx == t with
  | none => 0
  | some d => (s.tableState t).updates % 2 ^ 40 + b2n (d.staleness == 1 && (s.tableState t).pending) * 2 ^ 40 + 2 ^ 41

def State.ntsWord (s : State) : Nat :=
  let k := s.fld Reg.embNtsSelSlot
  let n := s.nts k
  if (s.slotD k).isNone then 0
  else
    let h := s.ntsHolders k (1 - n.active)
    n.active + b2n (h == 0) * 2 + b2n (s.ntsCode k 2 == 0) * 2 ^ 2 + 2 ^ 3 + sat16 h * 2 ^ 8 +
      (if n.active = 0 then n.versionA else n.versionB) * 2 ^ 32

def State.unitWord (s : State) : Nat :=
  let k := s.fld Reg.fltUnitSelKey
  if !keyExists k then 7
  else
    let u := s.unit k
    s.unitState k + min 255 u.strikes.length * 2 ^ 8 + min 255 u.hardBits * 2 ^ 16 + u.lanternLast % 2 ^ 32 * 2 ^ 32

/-- Expulsions inside the 720-hour window, saturating (Table 11.18). -/
def State.recoveryStatus (s : State) : Nat :=
  let n := (s.flt.expulsions.filter fun t => decide (s.powerSeconds < t + strikeWindow)).length
  setBits (s.reg Reg.fltRecoveryStatus).toNat 55 48 (min n 255)

/-- Slip fields read as after reset outside deterministic mode (R436). -/
def State.slipView (s : State) (w : Nat) : Nat := if s.deterministic then w else bits w 7 0 + 15 * 2 ^ 8

/-- The state equals a seam of the loaded image. -/
def State.seamNow (s : State) : Bool :=
  s.cfg.image.isSome && s.loadState != loadFault && s.cfg.run.atSeam && !s.stepRunning && s.flt.stopKind.isNone

/-! ### The meter -/

def word64 (bs : List Byte) (w : Nat) : Nat := le (sliceBytes bs (8 * w) 8) 0 8

def State.record (s : State) (i : Nat) : List Byte × Nat := s.mtr.mirror.getD i ([], 0)

/-! ### Every register -/

/-- The registers that a single offset names. -/
def State.viewOne (s : State) (off : Nat) : Option Nat :=
  if off = Reg.pkgIdent then some s.identWord
  else if off = Reg.cfgLoadStatus then some (setBits (s.reg off).toNat 4 4 (b2n s.busy))
  else if off = Reg.cfgEpochQuery then some s.epochQuery
  else if off = Reg.cfgGroupQuery then some s.groupQuery
  else if off = Reg.hubRingBase ∨ off = Reg.hubRingWatch ∨ off = Reg.hubRingReport ∨ off = Reg.hubRingCfg ∨
      off = Reg.hubRingState then some (s.ringWord off)
  else if off = Reg.pcieRpMsiData then some (if s.rootPort then s.msiWord else 0)
  else if off = Reg.clsBankState then some s.bankState
  else if off = Reg.clsBankData then some s.bankSelected
  else if off = Reg.brmModelState then some s.modelState
  else if off = Reg.timeTodNs then some s.clock.ns
  else if off = Reg.timeGlc then some s.glc
  else if off = Reg.embTableState then some s.tableWord
  else if off = Reg.embTableStep then some (s.tableState (s.fld Reg.embTableSelTable)).lastStep
  else if off = Reg.embNtsState then some s.ntsWord
  else if off = Reg.chkPipWrite then
    let p := s.pip (s.fld Reg.chkPipSelTensor)
    some (p.write % 2 ^ 61 + b2n p.writeValid * 2 ^ 63)
  else if off = Reg.chkPipRead then
    let p := s.pip (s.fld Reg.chkPipSelTensor)
    some (p.read % 2 ^ 61 + b2n p.readValid * 2 ^ 63)
  else if off = Reg.chkPipStep then some (s.pip (s.fld Reg.chkPipSelTensor)).step
  else if off = Reg.fltUnitState then some s.unitWord
  else if off = Reg.fltRecoveryStatus then some s.recoveryStatus
  else if off = Reg.detStatus then some (setBits (s.slipView (s.reg off).toNat) 1 1 (b2n s.seamNow))
  else if off = Reg.detSnapNeedFull then some (s.snapNeed false)
  else if off = Reg.detSnapNeedManifest then some (s.snapNeed true)
  else if off = Reg.mtrIdent then some (s.mtr.swVersion.toNat + 2 ^ 16)
  else if off = Reg.mtrSwDigest then some s.mtr.swDigest.toNat
  else if off = Reg.mtrSerial then some s.mtr.serial.toNat
  else if off = Reg.mtrLatestGlc then some (s.record 0).2
  else if off = Reg.mtrHistGlc then some (s.record (s.fld Reg.mtrHistSelIndex)).2
  else none

/-- The array registers: base of the kind, and index. -/
def State.viewArray (s : State) (base i : Nat) : Option Nat :=
  if base = Reg.clsFlowData 0 then some (word64 (Tab.get [] (s.fld Reg.clsFlowSelIndex) s.wire.flows) i)
  else if base = Reg.wirePortStatus 0 then some (s.portStatus i)
  else if base = Reg.brmSliceStatus 0 then some (s.sliceStatus i)
  else if base = Reg.fltLogData 0 then some (word64 (Tab.get [] (s.fld Reg.fltLogSelSlot) s.flt.nor.ring) i)
  else if base = Reg.mtrLatest 0 then some (word64 (s.record 0).1 i)
  else if base = Reg.mtrHistData 0 then some (word64 (s.record (s.fld Reg.mtrHistSelIndex)).1 i)
  else if base = Reg.mtrPubkey 0 then some (word64 s.mtr.pubkey i)
  else if base = Reg.mtrCert 0 then some (word64 s.mtr.cert i)
  else if base = Reg.secKeyData 0 then some 0
  else none

/-- PRESS, GROT and ECHK counters of a cluster at or above a die's LOGICAL_COUNT read 0; a lost die's keep their values
(R524). -/
def State.hiddenCounter (s : State) (base : Nat) (ix : List Nat) : Bool :=
  (base == Reg.pressCnt 0 0 0 || base == Reg.grotCnt 0 0 0 || base == Reg.echkCnt 0 0 0 0 0) &&
    match ix with
    | d :: c :: _ => !s.lostDie d && decide (s.fld (Reg.cluCmapLogicalCount d) ≤ c)
    | _ => false

/-- The die at the other end of DLINK[j] of die `d` (R43); none for the hub. -/
def dlinkPeer (d j : Nat) : Option Nat := if j = 3 then none else some (if j < d then j else j + 1)

/-- What CLU registers of a die show while it is lost or under reset: a lost die has no logical cluster, no VALID and no
USABLE bit, and its links are down; the links of a die under reset are down (R524; how long, and that UP reads 0 at the
far end of such a link too, which R524 does not say and R43 calls a link that carries traffic: DEDUCED, log entry 200). -/
def State.dieView (s : State) (base : Nat) (ix : List Nat) (w : Nat) : Nat :=
  let d := ix.headD 0
  if base = Reg.cluDlink 0 0 then
    (if s.windowClosed d || (dlinkPeer d (ix.getD 1 0)).any s.windowClosed then setBits w 6 6 0 else w)
  else if !s.lostDie d then w
  else if base = Reg.cluCmap 0 then setBits w 28 24 0
  else if base = Reg.cluLmap0 0 ∨ base = Reg.cluLmap1 0 then w &&& 0x7F7F7F7F7F7F7F7F
  else if base = Reg.cluKmap 0 0 ∨ base = Reg.cluEmap 0 0 0 then setBits w 48 48 0
  else w

/-- The active value of a register; ACTIVE_DATA itself left out. -/
def State.currentWord (s : State) (off : Nat) : Nat :=
  match locate off with
  | none => 0
  | some (k, ix) =>
    let view := match ix with
      | [] => s.viewOne off
      | [i] => s.viewArray k.base i
      | [l, i] => if k.base = Reg.obcCnt 0 0 ∧ i < 2 then
          -- idle, acknowledge and training flits, whose numbers are open (log entry 194)
          some ((s.reg off).toNat + Config.otherFlits l i s.upTime)
        else none
      | _ => none
    if s.hiddenCounter k.base ix then 0 else s.dieView k.base ix (view.getD (s.reg off).toNat) % 2 ^ 64

/-- R119. ACTIVE_DATA that selects itself shows an open value. -/
def State.activeData (s : State) : Word :=
  let o := s.fld Reg.cfgActiveSelOffset
  if o % 8 ≠ 0 then 0
  else if o = Reg.cfgActiveData then Config.free64 s.fresh
  else BitVec.ofNat 64 (s.currentWord o)

/-- What a read by an agent returns: RWG fields show the shadow value, whether committed or not (R15). -/
def State.readReg (s : State) (ag : Agent) (off : Nat) : Word :=
  if off = Reg.cfgActiveData then s.activeData
  else if Reg.secKeyData 0 ≤ off ∧ off ≤ Reg.secKeyData 3 ∧ off % 8 = 0 then
    if ag = .coreSecure then BitVec.ofNat 64 (Tab.get 0 s.keySlot s.sec.customer >>> (8 * (off - Reg.secKeyData 0))) else 0
  else
    let m := rwgMask off
    BitVec.ofNat 64 ((s.currentWord off &&& (2 ^ 64 - 1 - m)) ||| ((s.shadowReg off).toNat &&& m))

end Sys2Proof.Machine
end

