-- ==== Sys2Proof/Machine/RegisterWrite.lean ====
section
/-! DEFINITION. A write to the bus: sizes, unassigned offsets, access codes, and the registers whose writes do more
(R13 to R15, R109, R436, R509, R520). -/

namespace Sys2Proof.Machine

/-- Bits of a register kind with an access code. -/
def RegKind.mask (k : RegKind) (a : Access) : Nat :=
  (k.fields.map fun f => if f.access = a then (2 ^ (f.hi + 1 - f.lo) - 1) <<< f.lo else 0).sum

/-- R15, Table 0.7: RW takes effect at once, RWG goes to the shadow copy, W1C clears and W1S sets; reserved bits and RO
are discarded, and WO bits keep nothing. -/
def State.writeFields (s : State) (k : RegKind) (off v : Nat) : State :=
  let rw := k.mask .rw
  let old := (s.reg off).toNat
  let a := (old &&& (2 ^ 64 - 1 - rw)) ||| (v &&& rw)
  let a := a &&& (2 ^ 64 - 1 - (v &&& k.mask .w1c))
  let a := a ||| (v &&& k.mask .w1s)
  let s := s.setReg off (BitVec.ofNat 64 a)
  let g := k.mask .rwg
  if g = 0 then s
  else s.setShadow off (BitVec.ofNat 64 (((s.shadowReg off).toNat &&& (2 ^ 64 - 1 - g)) ||| (v &&& g)))

/-! ### Registers with a behaviour of their own -/

/-- RUN_CTRL: STEP_LIMIT is kept, then START, STOP and ABORT act in this order. -/
def State.runCtrl (s : State) (v : Word) : State :=
  let n := v.toNat
  let s := s.setLimit v
  let s := if bit n 0 then s.onSteward fun s => s.runStart (bit n 3) v else s
  let s := if bit n 1 then s.runStop v else s
  if bit n 2 then s.runAbort v else s

/-- Value of LOAD_CTRL with the reserved bits of KIND_MASK clear (Table 3.11). -/
def loadCtrlBits (n : Nat) : Nat := setBits n 47 32 (bits n 47 32 &&& kindBits)

/-- LOAD_CTRL: with GO the operation that OP names, else the fields alone. -/
def State.loadCtrl (s : State) (k : RegKind) (off : Nat) (v : Word) : State :=
  if !bit v.toNat 63 then s.writeFields k off (loadCtrlBits v.toNat)
  else
    let op : LoadOp := match Reg.cfgLoadCtrlOp.of v.toNat with
      | 0 => .full
      | 1 => .part
      | 2 => .check
      | _ => .unload
    s.onSteward fun s => s.loadRequest op v

/-- RING_BASE, RING_WATCH and RING_REPORT of the selected ring, while it is not enabled (R468). -/
def State.ringField (s : State) (off v : Nat) : State :=
  match s.selRing with
  | none => s
  | some (cls, i) =>
    let r := s.ring cls i
    let a := v % 2 ^ 48
    if r.enable then s
    else if off = Reg.hubRingBase then s.setRing cls i { r with base := a }
    else if off = Reg.hubRingWatch then s.setRing cls i { r with watch := a }
    else s.setRing cls i { r with report := a }

/-- RING_CFG: the one write that an enabled ring takes clears ENABLE. -/
def State.ringCfg (s : State) (v : Nat) : State :=
  match s.selRing with
  | none => s
  | some (cls, i) => if (s.ring cls i).enable then s.ringDisable v else s.ringConfigure v

/-- A reset requested over PCIe in endpoint mode also resets the link (R517). -/
def State.resetCtrl (s : State) (ag : Agent) (v : Nat) : State :=
  let t := (s.packageReset false v).coresReset v
  if ag = .pcie ∧ !s.rootPort ∧ (resetWanted v true ∨ resetWanted v false ∧ s.pkg.ready) then
    (t.resetRegs [Reg.pcieStatus]).strapRoot
  else t

/-- SET_NS: NS is kept, and with GO the set is requested. -/
def State.setNs (s : State) (v : Word) : State :=
  if bit v.toNat 63 then s.timeSet v else s.setFld Reg.timeSetNsNs (Reg.timeSetNsNs.of v.toNat)

/-- The root-port registers, which an endpoint does not have (R473). -/
def rpRegs : List Nat := [Reg.pcieRpCfgAddr, Reg.pcieRpCfgData, Reg.pcieRpMsiAddr, Reg.pcieRpMsiData]

/-- A write with the GO bit set. -/
def State.onGo (s : State) (v : Word) (f : State → State) : State := if bit v.toNat 63 then f s else s

/-- The write of a register at READY: those that start something, and the others by their access codes alone. -/
def State.writeActive (s : State) (k : RegKind) (off : Nat) (v : Word) : State :=
  let n := v.toNat
  if off = Reg.cfgLoadCtrl then s.loadCtrl k off v
  else if off = Reg.cfgRunCtrl then s.runCtrl v
  else if off = Reg.cfgCommit then s.onSteward fun s => s.commitRequest false v
  else if off = Reg.hubRingBase ∨ off = Reg.hubRingWatch ∨ off = Reg.hubRingReport then s.ringField off n
  else if off = Reg.hubRingCfg then s.ringCfg n
  else if k.base = Reg.hubIrqRoute 0 then s.routeWrite ((off - Reg.hubIrqRoute 0) / 8) n
  else if rpRegs.contains off && !s.rootPort then s
  else if off = Reg.pcieRpCfgData then s.rpCfg (some (n % 2 ^ 32)) none
  else if off = Reg.clsBankSwap then s.bankSwap v
  else if off = Reg.clsBankData then s.bankDataAccess (some v)
  else if off = Reg.clsFlowFlush then s.flowFlush v
  else if off = Reg.timeStep then s.onGo v fun s => s.timeStep v
  else if off = Reg.timeSetNs then s.setNs v
  else if off = Reg.timeRate then s.rateWrite v
  else if off = Reg.embNtsSwitch then s.ntsRequest v
  else if off = Reg.chkErrTail then s.errTailWrite n
  else if off = Reg.fltUnitCmd then
    s.onGo v fun s => s.onSteward fun s => s.unitCmd (Reg.fltUnitCmdOp.of n) v
  else if off = Reg.fltPackCtrl then s.onGo v fun s => s.onSteward fun s => s.packInstall
  else if off = Reg.detTraceTail then s.traceTailWrite n
  else if off = Reg.detSnapCtrl then
    s.onGo v fun s => s.onSteward fun s => s.snapRequest (Reg.detSnapCtrlOp.of n) n
  else if off = Reg.pwrRearm then s.rearm n
  else if off = Reg.secFuseCmd then s.fuseCmd v
  else s.writeFields k off n

/-! ### The write -/

/-- Until READY a write is discarded, but load, run and commit requests are refused with their code (R509). -/
def State.earlyWrite (s : State) (k : RegKind) (off : Nat) (v : Word) : State :=
  if off = Reg.cfgLoadCtrl then s.onGo v fun s => s.loadCtrl k off v
  else if off = Reg.cfgRunCtrl then (if bit v.toNat 0 then s.onSteward fun s => s.runStart (bit v.toNat 3) v else s)
  else if off = Reg.cfgCommit then s.onSteward fun s => s.commitRequest false v
  else s

/-- A register write by its offset (R509 for those that act before READY). -/
def State.writeReg (s : State) (ag : Agent) (off : Nat) (v : Word) : State :=
  match locate off with
  | none => s
  | some (k, ix) =>
    if off = Reg.pkgResetCtrl then s.resetCtrl ag v.toNat
    else if k.base = Reg.secKeyData 0 then s.keyDataAccess ag (ix.headD 0) (some v)
    else if off = Reg.secKeySel then s.writeFields k off v.toNat
    else if !s.pkg.ready then s.earlyWrite k off v
    else s.writeActive k off v

/-! ### Accesses to the physical map (R13, R519) -/

/-- Agents that reach register space: cores, the steward, and a host through BAR 0 (Table 16.1); a device below a root
port does not (R456). None of them does before time 0 or after a halt (R507). -/
def State.reachesRegisters (s : State) (ag : Agent) : Bool :=
  s.answers ag &&
  match ag with
  | .other => false
  | .i3c => false
  | .pcie => !s.rootPort
  | _ => true

/-- Registers that the I3C target reads out: PKG.IDENT and PKG.BOOT_STATUS from phase BOOT_ROM on, every register once it is
served in full (Table 15.3; what that is, DESIGN CHOICE, log entry 228). It takes no write. -/
def State.i3cReads (s : State) (off : Nat) : Bool :=
  s.answers .i3c && (off == Reg.pkgIdent || off == Reg.pkgBootStatus || s.past 3)

/-- R13: register space takes naturally aligned 64-bit accesses of the agents that reach it, and answers any other with
an error response. -/
def State.takesRegister (s : State) (ag : Agent) (a n : Nat) : Bool :=
  decide (n = 8 ∧ a % 8 = 0) && s.reachesRegisters ag

def State.busWrite (s : State) (ag : Agent) (a size : Nat) (v : Word) : State :=
  match s.region a with
  | .register off =>
    if s.takesRegister ag a size then (s.writeReg ag off v).respond (.ok 0) else s.respond (errorResponse ag)
  | _ => if s.answers ag then s.agentWrite ag a (toLe size v.toNat) false else s.respond (errorResponse ag)

def execRegisterWrite (agent : Agent) (addr : Addr) (size : Nat) (value : Word) (s : State) :
    Host.Outcome State Fault Refusal :=
  done (s.busWrite agent addr.toNat size value)

/-- A register read by its offset: those that do more than return a value, and the others (R16). -/
def State.registerRead (s : State) (ag : Agent) (off : Nat) : State :=
  if off = Reg.timeTodNs then s.todNsRead
  else if off = Reg.clsBankData then s.bankDataAccess none
  else if off = Reg.pcieRpMsiData then s.msiRead
  else if off = Reg.pcieRpCfgData then s.rpCfg none none
  else s.respond (.ok ((s.readReg ag off).setWidth 512))

def State.busRead (s : State) (ag : Agent) (a n : Nat) (es : List MemError) : State :=
  match s.region a with
  | .register off =>
    if ag = .i3c then
      if n = 8 ∧ a % 8 = 0 ∧ s.i3cReads off then s.respond (.ok ((s.readReg ag off).setWidth 512))
      else s.respond (errorResponse ag)
    else if s.takesRegister ag a n then s.registerRead ag off
    else s.respond (errorResponse ag)
  | _ => if s.answers ag then s.memoryRead ag a n es else s.respond (errorResponse ag)

/-- A host's access to BAR 4/5 (R455). -/
def State.bar4Access (s : State) (off size : Nat) (w : Option (List Byte)) : State :=
  if !s.answers .pcie || s.pkg.rootPort || !([4, 8].contains size) || off % size != 0 || decide (0x10000 < off + size) then s.respond .unsupported
  else
    match w with
    | some bs => (s.msixWrite off (bs.take size)).respond (.ok 0)
    | none => s.respond (.ok (BitVec.ofNat 512 (leNat (s.msixRead off size))))

/-- A write whose producer marks it poisoned (R455). A register takes the low 64 bits of the data. -/
def State.busStore (s : State) (ag : Agent) (a : Nat) (bs : List Byte) (bad : Bool) : State :=
  match s.region a with
  | .register _ => s.busWrite ag a bs.length (BitVec.ofNat 64 (leNat bs))
  | _ => if s.answers ag then s.agentWrite ag a bs bad else s.respond (errorResponse ag)

def execProtectedWrite (agent : Agent) (addr : Addr) (data : StoreData) (s : State) : Host.Outcome State Fault Refusal :=
  done (s.busStore agent addr.toNat data.bytes data.poisoned)

/-- A host's configuration request to the endpoint: Configuration Request Retry Status until phase FIRMWARE ends (R509);
then a read gives the identity that Table 13.10 states, among bytes that no rule gives, and a write of what no rule gives
a meaning completes (DESIGN CHOICE, log entry 229). -/
def State.configAccess (s : State) (off size : Nat) (w : Option (List Byte)) : State :=
  if !s.answers .pcie || s.pkg.rootPort then s.respond .unsupported
  else if !s.past 3 then s.respond .retry
  else if w.isSome then s.respond (.ok 0)
  else s.respond (.ok (BitVec.ofNat 512 (leNat ((List.range size).map fun i => s.configByte (off + i)))))

/-- An access by an agent through the physical map. The table names it for die windows; every read takes the same path,
since no other row carries a read (DESIGN CHOICE, log entry 171). A host's access to BAR 4/5 or to configuration space has
its offset there as the address. -/
def execDieWindowAccess (agent : Agent) (addr : Addr) (size : Nat) (access : MapAccess) (s : State) :
    Host.Outcome State Fault Refusal :=
  done (match access.space, access.write with
    | .msix, w => if agent = .pcie then s.bar4Access addr.toNat size w else s.respond (errorResponse agent)
    | .config, w => if agent = .pcie then s.configAccess addr.toNat size w else s.respond (errorResponse agent)
    | .map, some bs => s.busStore agent addr.toNat bs false
    | .map, none => s.busRead agent addr.toNat size access.ecc)

end Sys2Proof.Machine
end

