-- ==== Sys2Proof/Machine/Dispatch.lean ====
section
/-! DEFINITION. The one match from commands to their meanings. -/

namespace Sys2Proof.Machine

def exec (i : Instr) (s : State) : Host.Outcome State Fault Refusal :=
  match i with
  | .registerWrite agent addr size value => Sys2Proof.Machine.execRegisterWrite agent addr size value s
  | .flitRetry link far again => Sys2Proof.Machine.execFlitRetry link far again s
  | .linkRetrain link failed => Sys2Proof.Machine.execLinkRetrain link failed s
  | .laneErrorWindow link group errors => Sys2Proof.Machine.execLaneErrorWindow link group errors s
  | .crossingSlip xing aclk => Sys2Proof.Machine.execCrossingSlip xing aclk s
  | .loadFull value => Sys2Proof.Machine.execLoadFull value s
  | .loadPartial value => Sys2Proof.Machine.execLoadPartial value s
  | .loadCheck value => Sys2Proof.Machine.execLoadCheck value s
  | .loadUnload value => Sys2Proof.Machine.execLoadUnload value s
  | .loadCheckDone => Sys2Proof.Machine.execLoadCheckDone s
  | .loadDistribute hwFault => Sys2Proof.Machine.execLoadDistribute hwFault s
  | .loadDistributionDone hwFault => Sys2Proof.Machine.execLoadDistributionDone hwFault s
  | .partialReloadDone hwFault => Sys2Proof.Machine.execPartialReloadDone hwFault s
  | .hubModelSwap => Sys2Proof.Machine.execHubModelSwap s
  | .protectedWrite agent addr data => Sys2Proof.Machine.execProtectedWrite agent addr data s
  | .runStart value => Sys2Proof.Machine.execRunStart value s
  | .runStartAt value => Sys2Proof.Machine.execRunStartAt value s
  | .atLaunch => Sys2Proof.Machine.execAtLaunch s
  | .runStop value => Sys2Proof.Machine.execRunStop value s
  | .runAbort value => Sys2Proof.Machine.execRunAbort value s
  | .stepSeam => Sys2Proof.Machine.execStepSeam s
  | .commitRequest bySteward value => Sys2Proof.Machine.execCommitRequest bySteward value s
  | .commitCheckDone => Sys2Proof.Machine.execCommitCheckDone s
  | .commitApply group => Sys2Proof.Machine.execCommitApply group s
  | .scheduleEntryIssue die cluster core => Sys2Proof.Machine.execScheduleEntryIssue die cluster core s
  | .entryComplete die cluster core entry events => Sys2Proof.Machine.execEntryComplete die cluster core entry events s
  | .lookup die cluster ecc fault => Sys2Proof.Machine.execLookup die cluster ecc fault s
  | .combine site events => Sys2Proof.Machine.execCombine site events s
  | .ownerPartArrival die cluster => Sys2Proof.Machine.execOwnerPartArrival die cluster s
  | .update die cluster events => Sys2Proof.Machine.execUpdate die cluster events s
  | .pendingBankApply die bank => Sys2Proof.Machine.execPendingBankApply die bank s
  | .exportJob site events => Sys2Proof.Machine.execExportJob site events s
  | .exportRegionWritable slot => Sys2Proof.Machine.execExportRegionWritable slot s
  | .exportComplete slot => Sys2Proof.Machine.execExportComplete slot s
  | .pressJobComplete die cluster => Sys2Proof.Machine.execPressJobComplete die cluster s
  | .ntsSwitch value => Sys2Proof.Machine.execNtsSwitch value s
  | .ntsRevert value => Sys2Proof.Machine.execNtsRevert value s
  | .streamChunkRead die cluster core stream => Sys2Proof.Machine.execStreamChunkRead die cluster core stream s
  | .streamChunkArrive die cluster core stream ecc => Sys2Proof.Machine.execStreamChunkArrive die cluster core stream ecc s
  | .streamChunkWrite die cluster core chunk => Sys2Proof.Machine.execStreamChunkWrite die cluster core chunk s
  | .dieWindowAccess agent addr size access => Sys2Proof.Machine.execDieWindowAccess agent addr size access s
  | .grottoCopyReturn site line ecc => Sys2Proof.Machine.execGrottoCopyReturn site line ecc s
  | .eccWriteback kind addr => Sys2Proof.Machine.execEccWriteback kind addr s
  | .refreshWindow channel visit => Sys2Proof.Machine.execRefreshWindow channel visit s
  | .sramScrub key behind ecc => Sys2Proof.Machine.execSramScrub key behind ecc s
  | .frameParse port bytes reception => Sys2Proof.Machine.execFrameParse port bytes reception s
  | .pauseExpiry port cls => Sys2Proof.Machine.execPauseExpiry port cls s
  | .classifierPass frame => Sys2Proof.Machine.execClassifierPass frame s
  | .recirculationPass frame => Sys2Proof.Machine.execRecirculationPass frame s
  | .pfcRepeat port cls => Sys2Proof.Machine.execPfcRepeat port cls s
  | .frameVerdict frame => Sys2Proof.Machine.execFrameVerdict frame s
  | .flowSweep => Sys2Proof.Machine.execFlowSweep s
  | .flowFlush value => Sys2Proof.Machine.execFlowFlush value s
  | .bankSwap value => Sys2Proof.Machine.execBankSwap value s
  | .bankDataAccess write => Sys2Proof.Machine.execBankDataAccess write s
  | .egressFrameStart port => Sys2Proof.Machine.execEgressFrameStart port s
  | .portTrainingDone port up lanes rxLatency txLatency => Sys2Proof.Machine.execPortTrainingDone port up lanes rxLatency txLatency s
  | .sliceEvaluation slice corrected followerCorrected events => Sys2Proof.Machine.execSliceEvaluation slice corrected followerCorrected events s
  | .replyStart port => Sys2Proof.Machine.execReplyStart port s
  | .replyFcsSlot frame => Sys2Proof.Machine.execReplyFcsSlot frame s
  | .timeStep value => Sys2Proof.Machine.execTimeStep value s
  | .timeSet value => Sys2Proof.Machine.execTimeSet value s
  | .timeAdjustApply => Sys2Proof.Machine.execTimeAdjustApply s
  | .todNsRead => Sys2Proof.Machine.execTodNsRead s
  | .rateWrite value => Sys2Proof.Machine.execRateWrite value s
  | .ppsInputEdge tenMHzOk rate => Sys2Proof.Machine.execPpsInputEdge tenMHzOk rate s
  | .sourceFailed => Sys2Proof.Machine.execSourceFailed s
  | .ptpMessage msg => Sys2Proof.Machine.execPtpMessage msg s
  | .obcorTimeExchange link replayed exchange rate => Sys2Proof.Machine.execObcorTimeExchange link replayed exchange rate s
  | .tcEntryExpiry index => Sys2Proof.Machine.execTcEntryExpiry index s
  | .pdelayReqTimer port => Sys2Proof.Machine.execPdelayReqTimer port s
  | .pdelayTimeout port => Sys2Proof.Machine.execPdelayTimeout port s
  | .pulseEdge output => Sys2Proof.Machine.execPulseEdge output s
  | .pulseEnd output => Sys2Proof.Machine.execPulseEnd output s
  | .correctedRecordSend kind unitP => Sys2Proof.Machine.execCorrectedRecordSend kind unitP s
  | .recordsLost => Sys2Proof.Machine.execRecordsLost s
  | .errTailWrite value => Sys2Proof.Machine.execErrTailWrite value s
  | .twinComparison die cluster core engine mismatch => Sys2Proof.Machine.execTwinComparison die cluster core engine mismatch s
  | .obcorDataReceive link msg => Sys2Proof.Machine.execObcorDataReceive link msg s
  | .checkTokenSend receiver epoch parityOk => Sys2Proof.Machine.execCheckTokenSend receiver epoch parityOk s
  | .checkTokenReceive link src epoch count pip => Sys2Proof.Machine.execCheckTokenReceive link src epoch count pip s
  | .commitTimeout src epoch => Sys2Proof.Machine.execCommitTimeout src epoch s
  | .poisonNotice link sender reporter epoch step cause => Sys2Proof.Machine.execPoisonNotice link sender reporter epoch step cause s
  | .strikeExpiry key => Sys2Proof.Machine.execStrikeExpiry key s
  | .screenComplete key pass point test => Sys2Proof.Machine.execScreenComplete key pass point test s
  | .spareScreen => Sys2Proof.Machine.execSpareScreen s
  | .rotation die => Sys2Proof.Machine.execRotation die s
  | .screenStalled => Sys2Proof.Machine.execScreenStalled s
  | .dripstoneStateWrite norOk => Sys2Proof.Machine.execDripstoneStateWrite norOk s
  | .dripstoneCountFlush norOk => Sys2Proof.Machine.execDripstoneCountFlush norOk s
  | .packInstall value => Sys2Proof.Machine.execPackInstall value s
  | .packActivation norOk => Sys2Proof.Machine.execPackActivation norOk s
  | .checkpointCopyDone copy => Sys2Proof.Machine.execCheckpointCopyDone copy s
  | .unitRecovery quickFails durationMs => Sys2Proof.Machine.execUnitRecovery quickFails durationMs s
  | .dieReset die reset recurring quickFails durationMs => Sys2Proof.Machine.execDieReset die reset recurring quickFails durationMs s
  | .rollback target durationMs => Sys2Proof.Machine.execRollback target durationMs s
  | .expel roundStep screenFails durationMs => Sys2Proof.Machine.execExpel roundStep screenFails durationMs s
  | .unitCmdSump value => Sys2Proof.Machine.execUnitCmdSump value s
  | .unitCmdReadmit value => Sys2Proof.Machine.execUnitCmdReadmit value s
  | .unitCmdScreen value => Sys2Proof.Machine.execUnitCmdScreen value s
  | .snapshotSave value => Sys2Proof.Machine.execSnapshotSave value s
  | .snapshotRestore value => Sys2Proof.Machine.execSnapshotRestore value s
  | .snapshotCheck value => Sys2Proof.Machine.execSnapshotCheck value s
  | .snapshotCopyDone copy => Sys2Proof.Machine.execSnapshotCopyDone copy s
  | .traceTailWrite value => Sys2Proof.Machine.execTraceTailWrite value s
  | .watchLineUpdate cls ring => Sys2Proof.Machine.execWatchLineUpdate cls ring s
  | .ringEnable value => Sys2Proof.Machine.execRingEnable value s
  | .ringDisable value => Sys2Proof.Machine.execRingDisable value s
  | .txEntry entry => Sys2Proof.Machine.execTxEntry entry s
  | .txCompletion ring => Sys2Proof.Machine.execTxCompletion ring s
  | .irqHoldoffExpiry cls ring => Sys2Proof.Machine.execIrqHoldoffExpiry cls ring s
  | .irqRouteWrite source value => Sys2Proof.Machine.execIrqRouteWrite source value s
  | .identity ring => Sys2Proof.Machine.execIdentity ring s
  | .dripstoneCopy ring => Sys2Proof.Machine.execDripstoneCopy ring s
  | .firmwareStage ring => Sys2Proof.Machine.execFirmwareStage ring s
  | .fleetJoin ring => Sys2Proof.Machine.execFleetJoin ring s
  | .fleetLeave ring => Sys2Proof.Machine.execFleetLeave ring s
  | .coreState ring => Sys2Proof.Machine.execCoreState ring s
  | .ptpDataset ring => Sys2Proof.Machine.execPtpDataset ring s
  | .stewardFailover => Sys2Proof.Machine.execStewardFailover s
  | .appCoreRetire core => Sys2Proof.Machine.execAppCoreRetire core s
  | .functionLevelReset => Sys2Proof.Machine.execFunctionLevelReset s
  | .msiReceive addr data => Sys2Proof.Machine.execMsiReceive addr data s
  | .rpMsiDataRead => Sys2Proof.Machine.execRpMsiDataRead s
  | .rpCfgDataAccess write answer => Sys2Proof.Machine.execRpCfgDataAccess write answer s
  | .obcorReplay link far seq again => Sys2Proof.Machine.execObcorReplay link far seq again s
  | .obcorLinkTrain link result => Sys2Proof.Machine.execObcorLinkTrain link result s
  | .join link serial grade clusters versions previous => Sys2Proof.Machine.execJoin link serial grade clusters versions previous s
  | .welcome index periodMs standby => Sys2Proof.Machine.execWelcome index periodMs standby s
  | .heartbeat sender glc timeState errEst step loadState => Sys2Proof.Machine.execHeartbeat sender glc timeState errEst step loadState s
  | .heartbeatTimer => Sys2Proof.Machine.execHeartbeatTimer s
  | .workerLost worker => Sys2Proof.Machine.execWorkerLost worker s
  | .managerLost => Sys2Proof.Machine.execManagerLost s
  | .assign part => Sys2Proof.Machine.execAssign part s
  | .assigned worker setId code => Sys2Proof.Machine.execAssigned worker setId code s
  | .launch t => Sys2Proof.Machine.execLaunch t s
  | .armed worker t => Sys2Proof.Machine.execArmed worker t s
  | .late worker t => Sys2Proof.Machine.execLate worker t s
  | .abort t => Sys2Proof.Machine.execAbort t s
  | .ready worker step outcome => Sys2Proof.Machine.execReady worker step outcome s
  | .echoReport worker step digest sums => Sys2Proof.Machine.execEchoReport worker step digest sums s
  | .verdict code step replicas => Sys2Proof.Machine.execVerdict code step replicas s
  | .leave worker cause => Sys2Proof.Machine.execLeave worker cause s
  | .admitSet setId => Sys2Proof.Machine.execAdmitSet setId s
  | .railSample millivolts => Sys2Proof.Machine.execRailSample millivolts s
  | .rearm value => Sys2Proof.Machine.execRearm value s
  | .throttleEvaluation die tj => Sys2Proof.Machine.execThrottleEvaluation die tj s
  | .thermalTrip sensor temp => Sys2Proof.Machine.execThermalTrip sensor temp s
  | .thermalTripRelease => Sys2Proof.Machine.execThermalTripRelease s
  | .meterInterval interval => Sys2Proof.Machine.execMeterInterval interval s
  | .meterRecord bytes => Sys2Proof.Machine.execMeterRecord bytes s
  | .meterLinkLost => Sys2Proof.Machine.execMeterLinkLost s
  | .alarm source => Sys2Proof.Machine.execAlarm source s
  | .debugUnlock slot challenge key sigR sigS => Sys2Proof.Machine.execDebugUnlock slot challenge key sigR sigS s
  | .keyDataAccess agent word write => Sys2Proof.Machine.execKeyDataAccess agent word write s
  | .fuseProgram value => Sys2Proof.Machine.execFuseProgram value s
  | .fuseRevoke value => Sys2Proof.Machine.execFuseRevoke value s
  | .fuseRaise value => Sys2Proof.Machine.execFuseRaise value s
  | .fuseComplete => Sys2Proof.Machine.execFuseComplete s
  | .powerDown => Sys2Proof.Machine.execPowerDown s
  | .startup outcome => Sys2Proof.Machine.execStartup outcome s
  | .loaderStart => Sys2Proof.Machine.execLoaderStart s
  | .packageReset byBall value => Sys2Proof.Machine.execPackageReset byBall value s
  | .coresReset value => Sys2Proof.Machine.execCoresReset value s
  | .pciePerst => Sys2Proof.Machine.execPciePerst s
  | .testReset => Sys2Proof.Machine.execTestReset s
  | .pciePerstRelease speed width flit => Sys2Proof.Machine.execPciePerstRelease speed width flit s
  | .obcorLinkDown link => Sys2Proof.Machine.execObcorLinkDown link s
  | .obcorRelay link control dest flits => Sys2Proof.Machine.execObcorRelay link control dest flits s
  | .standbyMirror mirror agreedStep => Sys2Proof.Machine.execStandbyMirror mirror agreedStep s
  | .ptpMessageGeneration messageType => Sys2Proof.Machine.execPtpMessageGeneration messageType s
  | .corrected24hWindow key => Sys2Proof.Machine.execCorrected24hWindow key s

end Sys2Proof.Machine
end

