-- ==== Sys2Proof/Machine/Tick.lean ====
section
/-! DEFINITION. What time alone does: one nanosecond of SCLK, on an empty queue (R46, R147, R309, R372, R431, R481). -/

namespace Sys2Proof.Machine

/-- ACLK cycles in one 5 ns frame (R46). -/
def frameAclk : Nat := 4

/-- One nanosecond of power-on time; POWER_SECONDS counts the whole seconds. -/
def State.advancePower (s : State) : State :=
  if s.pkg.upNs + 1 < 1000000000 then { s with pkg := { s.pkg with upNs := s.pkg.upNs + 1 } }
  else State.setFld { s with pkg := { s.pkg with upNs := 0 } } Reg.fltPowerSecondsSeconds (s.powerSeconds + 1)

/-- The counters of cycles while a step runs: entries that wait on the stash, sequencers held for the trace ring, Presses
that run. -/
def State.countCycles (s : State) : State :=
  if !s.stepRunning then s
  else
  let s := (List.range 4).foldl (fun (s : State) d =>
    if s.dense.stalled.any fun k => ucDie k == d then s.bump (Reg.cluStashStallCycles d) frameAclk else s) s
  let s := if s.dense.traceHeld.isEmpty then s else s.bump (Reg.detCnt 5) frameAclk
  s.emb.press.foldl (fun (s : State) p =>
    if p.2.running then s.bump (Reg.pressCnt (p.1 / 16) (p.1 % 16) 6) frameAclk else s) s

/-- One 5 ns frame; an armed step begins at the first that finds its instant reached (R332). -/
def State.frameTick (s : State) : State := s.atLaunch.throttleFrame.countCycles

/-- One SCLK cycle of a package that has reached READY; before it no clock of the model runs (log entry 18). -/
def State.tick (s : State) : State :=
  if !s.pkg.ready then s
  else
    let s := s.advanceClock.advancePower.timeTick
    let s := if s.upTime % 5 = 0 then s.frameTick else s
    s.tryAssign.stewardTake

end Sys2Proof.Machine
end

