-- ==== Sys2Proof/Safety.lean ====
section
/-! DEFINITION. What counts as a safe run, the invariant of the block and the parts of the state that each command may
change, in the terms of the statements. -/

namespace Sys2Proof.Machine

/-! ### Runs -/

/-- The memory of a state has its canonical form. -/
def State.memOk (s : State) : Prop := Memory.wf s.mem = true

/-- `k` steps from `s` reach `t`. -/
inductive Reaches : State → Nat → State → Prop where
  | zero (s : State) : Reaches s 0 s
  | succ {s t u : State} {k : Nat} (h : step s = .next t) (r : Reaches t k u) : Reaches s (k + 1) u

/-- A step ends in neither a fault nor a refusal. -/
def State.safe (s : State) : Prop := ∃ t, step s = .next t

/-! ### The invariant -/

/-- Register values in canonical form: offsets rise, and none is listed at its reset value. -/
def Regs.canon (t : Tab Word) : Prop := Tab.rising t = true ∧ ∀ e ∈ t, e.2 ≠ resetWord e.1

/-- What every step keeps: memory and both register files have their canonical form, the list of poisoned lines of tier 2
holds at most 65,536 (R219) and the hub queue of error records at most its depth (R359). -/
structure State.Inv (s : State) : Prop where
  mem : s.memOk
  regs : Regs.canon s.regs
  shadow : Regs.canon s.shadow
  poison : s.mm.t2Poison.length ≤ 65536
  queue : s.chk.queue.length ≤ hubQueueDepth

/-! ### Frames -/

/-- The components of `State`, in its order. -/
inductive Component where
  | pending | fresh | regs | shadow | response | mem | pkg | links | crossings | cfg | flt | chk
  | mm | hub | fleet | clock | dense | emb | wire | sec | det | time | pwr | mtr
deriving DecidableEq, Repr

/-- A component of `t` is as it is in `s`. -/
def State.keeps (s t : State) : Component → Prop
  | .pending => t.pending = s.pending
  | .fresh => t.fresh = s.fresh
  | .regs => t.regs = s.regs
  | .shadow => t.shadow = s.shadow
  | .response => t.response = s.response
  | .mem => t.mem = s.mem
  | .pkg => t.pkg = s.pkg
  | .links => t.links = s.links
  | .crossings => t.crossings = s.crossings
  | .cfg => t.cfg = s.cfg
  | .flt => t.flt = s.flt
  | .chk => t.chk = s.chk
  | .mm => t.mm = s.mm
  | .hub => t.hub = s.hub
  | .fleet => t.fleet = s.fleet
  | .clock => t.clock = s.clock
  | .dense => t.dense = s.dense
  | .emb => t.emb = s.emb
  | .wire => t.wire = s.wire
  | .sec => t.sec = s.sec
  | .det => t.det = s.det
  | .time => t.time = s.time
  | .pwr => t.pwr = s.pwr
  | .mtr => t.mtr = s.mtr

/-- Every component but those listed. -/
def others (l : List Component) : List Component :=
  [Component.pending, .fresh, .regs, .shadow, .response, .mem, .pkg, .links, .crossings, .cfg, .flt, .chk, .mm, .hub, .fleet,
   .clock, .dense, .emb, .wire, .sec, .det, .time, .pwr, .mtr].filter fun c => !l.contains c

/-- The components that a command may change; it leaves every other as it is. -/
def changes : Instr → List Component
  | .registerWrite _ _ _ _ => others [.pending]
  | .flitRetry _ _ _ => [.regs, .links, .crossings, .cfg, .flt, .chk, .hub, .fleet, .dense, .emb, .det]
  | .linkRetrain _ _ => [.regs, .links, .crossings, .cfg, .flt, .chk, .hub, .fleet, .dense, .emb, .det]
  | .laneErrorWindow _ _ _ => [.regs, .links, .crossings, .cfg, .flt, .chk, .hub, .fleet, .dense, .emb, .det]
  | .crossingSlip _ _ => [.regs, .crossings]
  | .loadFull _ => [.regs, .mem, .crossings, .cfg, .flt, .chk, .mm, .hub, .dense, .emb, .wire, .time]
  | .loadPartial _ => [.regs, .mem, .crossings, .cfg, .flt, .chk, .mm, .hub, .dense, .emb, .wire, .time]
  | .loadCheck _ => [.regs, .mem, .crossings, .cfg, .flt, .chk, .mm, .hub, .dense, .emb, .wire, .time]
  | .loadUnload _ => [.regs, .mem, .crossings, .cfg, .flt, .chk, .mm, .hub, .dense, .emb, .wire, .time]
  | .loadCheckDone => [.regs, .cfg, .hub, .wire]
  | .loadDistribute _ => [.fresh, .regs, .mem, .crossings, .cfg, .flt, .chk, .mm, .hub, .dense, .emb, .wire, .time]
  | .loadDistributionDone _ =>
    [.fresh, .regs, .mem, .crossings, .cfg, .flt, .chk, .mm, .hub, .dense, .emb, .wire, .time]
  | .partialReloadDone _ =>
    [.fresh, .regs, .mem, .crossings, .cfg, .flt, .chk, .mm, .hub, .fleet, .dense, .emb, .wire, .det, .time]
  | .hubModelSwap => [.regs, .cfg, .wire]
  | .protectedWrite _ _ _ => others [.pending]
  | .runStart _ => [.fresh, .regs, .mem, .crossings, .cfg, .flt, .chk, .mm, .hub, .fleet, .dense, .emb, .det]
  | .runStartAt _ => [.fresh, .regs, .mem, .crossings, .cfg, .flt, .chk, .mm, .hub, .fleet, .dense, .emb, .det]
  | .atLaunch => [.fresh, .regs, .mem, .crossings, .cfg, .flt, .chk, .mm, .hub, .fleet, .dense, .emb]
  | .runStop _ => [.regs, .cfg, .flt, .hub]
  | .runAbort _ =>
    [.fresh, .regs, .mem, .links, .crossings, .cfg, .flt, .chk, .mm, .hub, .fleet, .dense, .emb, .wire, .det, .time]
  | .stepSeam =>
    [.fresh, .regs, .mem, .links, .crossings, .cfg, .flt, .chk, .mm, .hub, .fleet, .dense, .emb, .wire, .det, .time]
  | .commitRequest _ _ => [.regs, .cfg, .hub]
  | .commitCheckDone => [.fresh, .regs, .mem, .cfg, .hub, .wire, .time]
  | .commitApply _ => [.fresh, .regs, .mem, .cfg, .hub, .wire, .time]
  | .scheduleEntryIssue _ _ _ => [.fresh, .regs, .crossings, .cfg, .flt, .chk, .hub, .fleet, .dense]
  | .entryComplete _ _ _ _ _ => [.fresh, .regs, .mem, .crossings, .cfg, .flt, .chk, .mm, .hub, .fleet, .dense]
  | .lookup _ _ _ _ => [.fresh, .regs, .mem, .crossings, .cfg, .flt, .chk, .mm, .hub, .fleet, .dense, .emb]
  | .combine _ _ => [.fresh, .regs, .mem, .crossings, .cfg, .flt, .chk, .mm, .hub, .fleet, .emb]
  | .ownerPartArrival _ _ => [.regs, .mem, .cfg, .flt, .chk, .mm, .hub, .fleet, .emb]
  | .update _ _ _ => [.fresh, .regs, .mem, .crossings, .cfg, .flt, .chk, .mm, .hub, .fleet, .dense, .emb]
  | .pendingBankApply _ _ => [.fresh, .regs, .mem, .crossings, .cfg, .flt, .chk, .mm, .hub, .fleet, .dense, .emb]
  | .exportJob _ _ => [.fresh, .regs, .mem, .crossings, .cfg, .flt, .chk, .mm, .hub, .fleet, .emb]
  | .exportRegionWritable _ => [.mem, .mm, .emb]
  | .exportComplete _ => [.emb]
  | .pressJobComplete _ _ => [.regs, .mem, .chk, .mm, .dense, .emb]
  | .ntsSwitch _ => [.regs, .emb]
  | .ntsRevert _ => [.regs, .emb]
  | .streamChunkRead _ _ _ _ => [.dense]
  | .streamChunkArrive _ _ _ _ _ => [.regs, .mem, .cfg, .flt, .chk, .mm, .hub, .fleet, .dense]
  | .streamChunkWrite _ _ _ _ => [.regs, .mem, .cfg, .flt, .chk, .mm, .hub, .fleet, .dense]
  | .dieWindowAccess _ _ _ _ => others [.pending]
  | .grottoCopyReturn _ _ _ => [.regs, .mem, .cfg, .flt, .chk, .mm, .hub, .fleet, .emb]
  | .eccWriteback _ _ => [.mm]
  | .refreshWindow _ _ => [.regs, .cfg, .flt, .chk, .mm, .hub, .fleet]
  | .sramScrub _ _ _ => [.fresh, .regs, .cfg, .flt, .chk, .mm, .hub, .fleet, .emb]
  | .frameParse _ _ _ => [.regs, .chk, .hub, .wire]
  | .pauseExpiry _ _ => [.regs, .wire]
  | .classifierPass _ => [.regs, .mem, .chk, .mm, .hub, .wire, .time]
  | .recirculationPass _ => [.regs, .mem, .chk, .mm, .hub, .wire, .time]
  | .pfcRepeat _ _ => [.regs, .wire]
  | .frameVerdict _ => [.regs, .mem, .chk, .mm, .hub, .wire, .time]
  | .flowSweep => [.wire]
  | .flowFlush _ => [.wire]
  | .bankSwap _ => [.regs]
  | .bankDataAccess _ => [.regs, .response, .wire]
  | .egressFrameStart _ => [.fresh, .regs, .mem, .chk, .mm, .hub, .wire, .time]
  | .portTrainingDone _ _ _ _ _ => [.regs, .hub, .wire, .time]
  | .sliceEvaluation _ _ _ _ => [.fresh, .regs, .mem, .cfg, .flt, .chk, .mm, .hub, .fleet, .wire, .time]
  | .replyStart _ => [.regs, .mem, .chk, .mm, .hub, .wire, .time]
  | .replyFcsSlot _ => [.regs, .wire]
  | .timeStep _ => [.time]
  | .timeSet _ => [.regs, .time]
  | .timeAdjustApply => [.regs, .hub, .clock, .time]
  | .todNsRead => [.regs, .response]
  | .rateWrite _ => [.regs]
  | .ppsInputEdge _ _ => [.fresh, .regs, .hub, .clock, .time]
  | .sourceFailed => [.regs, .hub, .time]
  | .ptpMessage _ => [.fresh, .regs, .hub, .clock, .wire, .time]
  | .obcorTimeExchange _ _ _ _ => [.fresh, .regs, .hub, .clock, .time]
  | .tcEntryExpiry _ => [.wire]
  | .pdelayReqTimer _ => [.wire]
  | .pdelayTimeout _ => [.wire]
  | .pulseEdge _ => [.regs, .time]
  | .pulseEnd _ => [.regs, .time]
  | .correctedRecordSend _ _ => [.regs, .chk]
  | .recordsLost => [.regs, .chk]
  | .errTailWrite _ => [.regs]
  | .twinComparison _ _ _ _ _ => [.regs, .cfg, .flt, .chk, .mm, .hub, .fleet, .dense]
  | .obcorDataReceive _ _ => [.fresh, .regs, .mem, .crossings, .cfg, .flt, .chk, .mm, .hub, .fleet]
  | .checkTokenSend _ _ _ => [.regs, .cfg, .flt, .chk, .hub, .fleet]
  | .checkTokenReceive _ _ _ _ _ => [.regs, .cfg, .flt, .chk, .hub, .fleet]
  | .commitTimeout _ _ => [.regs, .cfg, .flt, .chk, .hub, .fleet]
  | .poisonNotice _ _ _ _ _ _ => [.regs, .cfg, .flt, .chk, .hub, .fleet]
  | .strikeExpiry _ => [.flt]
  | .screenComplete _ _ _ _ => [.regs, .links, .crossings, .cfg, .flt, .chk, .hub, .fleet, .dense, .emb, .wire, .det]
  | .spareScreen => [.flt]
  | .rotation _ => [.regs, .links, .crossings, .cfg, .flt, .chk, .hub, .fleet, .dense, .emb, .det]
  | .screenStalled => [.regs, .chk, .hub]
  | .dripstoneStateWrite _ => [.fresh, .regs, .flt, .chk]
  | .dripstoneCountFlush _ => [.fresh, .regs, .flt, .chk]
  | .packInstall _ => [.regs, .flt, .hub]
  | .packActivation _ => [.fresh, .regs, .flt, .chk, .hub]
  | .checkpointCopyDone _ => [.fresh, .regs, .mem, .crossings, .cfg, .flt, .chk, .mm, .hub, .fleet, .dense, .emb, .det]
  | .unitRecovery _ _ =>
    [.fresh, .regs, .mem, .links, .crossings, .cfg, .flt, .chk, .mm, .hub, .fleet, .dense, .emb, .wire, .det, .time]
  | .dieReset _ _ _ _ _ =>
    [.fresh, .regs, .mem, .links, .crossings, .cfg, .flt, .chk, .mm, .hub, .fleet, .dense, .emb, .wire, .det, .time]
  | .rollback _ _ =>
    [.fresh, .regs, .mem, .links, .crossings, .cfg, .flt, .chk, .mm, .hub, .fleet, .dense, .emb, .wire, .det, .time]
  | .expel _ _ _ =>
    [.fresh, .regs, .mem, .links, .crossings, .cfg, .flt, .chk, .mm, .hub, .fleet, .dense, .emb, .wire, .det, .time]
  | .unitCmdSump _ => [.regs, .links, .crossings, .cfg, .flt, .chk, .hub, .fleet, .dense, .emb, .det]
  | .unitCmdReadmit _ => [.regs, .links, .crossings, .cfg, .flt, .chk, .hub, .fleet, .dense, .emb, .det]
  | .unitCmdScreen _ => [.regs, .links, .crossings, .cfg, .flt, .chk, .hub, .fleet, .dense, .emb, .det]
  | .snapshotSave _ => [.regs, .mem, .chk, .mm, .hub, .det]
  | .snapshotRestore _ => [.regs, .mem, .chk, .mm, .hub, .det]
  | .snapshotCheck _ => [.regs, .mem, .chk, .mm, .hub, .det]
  | .snapshotCopyDone _ => [.fresh, .regs, .mem, .crossings, .cfg, .flt, .chk, .mm, .hub, .fleet, .dense, .emb, .det]
  | .traceTailWrite _ => [.regs]
  | .watchLineUpdate _ _ => [.hub]
  | .ringEnable _ => [.hub]
  | .ringDisable _ => [.hub]
  | .txEntry _ => [.regs, .cfg, .flt, .chk, .mm, .hub, .fleet]
  | .txCompletion _ => [.regs, .mem, .chk, .mm, .hub]
  | .irqHoldoffExpiry _ _ => [.regs, .hub]
  | .irqRouteWrite _ _ => [.regs, .hub]
  | .identity _ => [.regs, .mem, .chk, .mm, .hub]
  | .dripstoneCopy _ => [.fresh, .regs, .mem, .chk, .mm, .hub]
  | .firmwareStage _ => [.fresh, .regs, .mem, .pkg, .chk, .mm, .hub]
  | .fleetJoin _ => [.fresh, .regs, .shadow, .mem, .cfg, .chk, .mm, .hub, .fleet, .wire, .time]
  | .fleetLeave _ => [.regs, .mem, .chk, .mm, .hub, .fleet]
  | .coreState _ => [.regs, .mem, .chk, .mm, .hub]
  | .ptpDataset _ => [.fresh, .regs, .mem, .chk, .mm, .hub]
  | .stewardFailover => [.fresh, .regs, .pkg, .cfg, .hub, .time]
  | .appCoreRetire _ => [.fresh, .regs, .pkg, .flt, .chk, .hub]
  | .functionLevelReset => [.regs, .shadow]
  | .msiReceive _ _ => [.regs, .response, .mem, .chk, .mm, .hub]
  | .rpMsiDataRead => [.response, .hub]
  | .rpCfgDataAccess _ _ => [.regs, .response, .hub]
  | .obcorReplay _ _ _ _ => [.regs, .hub, .time]
  | .obcorLinkTrain _ _ => [.regs, .hub, .fleet]
  | .join _ _ _ _ _ _ => [.regs, .hub, .fleet]
  | .welcome _ _ _ => [.regs, .mem, .chk, .mm, .hub, .fleet]
  | .heartbeat _ _ _ _ _ _ => [.fresh, .regs, .chk, .hub, .fleet]
  | .heartbeatTimer => [.fresh, .regs, .hub, .fleet]
  | .workerLost _ => [.fresh, .regs, .chk, .hub, .fleet]
  | .managerLost => [.regs, .shadow, .mem, .cfg, .flt, .chk, .mm, .hub, .fleet]
  | .assign _ => [.fresh, .regs, .shadow, .mem, .cfg, .hub, .fleet, .wire, .time]
  | .assigned _ _ _ => [.regs, .hub, .fleet]
  | .launch _ => [.fresh, .regs, .mem, .crossings, .cfg, .flt, .chk, .mm, .hub, .fleet, .dense, .emb, .det]
  | .armed _ _ => [.regs, .fleet]
  | .late _ _ => [.regs, .hub, .fleet]
  | .abort _ =>
    [.fresh, .regs, .mem, .links, .crossings, .cfg, .flt, .chk, .mm, .hub, .fleet, .dense, .emb, .wire, .det, .time]
  | .ready _ _ _ => [.regs, .hub, .fleet]
  | .echoReport _ _ _ _ => [.fresh, .regs, .chk, .hub, .fleet]
  | .verdict _ _ _ => [.fresh, .regs, .mem, .crossings, .cfg, .flt, .chk, .mm, .hub, .fleet, .dense, .emb, .det]
  | .leave _ _ => [.fresh, .regs, .chk, .hub, .fleet]
  | .admitSet _ => [.regs, .hub, .fleet]
  | .railSample _ => others [.pending]
  | .rearm _ => [.regs]
  | .throttleEvaluation _ _ => [.regs, .chk, .hub]
  | .thermalTrip _ _ => [.regs, .pkg, .cfg, .flt, .chk, .hub, .fleet, .pwr]
  | .thermalTripRelease => [.regs, .pkg, .pwr]
  | .meterInterval _ => [.mtr]
  | .meterRecord _ => [.regs, .chk, .hub, .sec, .mtr]
  | .meterLinkLost => [.regs, .chk, .hub, .sec]
  | .alarm _ => [.regs, .chk, .hub, .sec]
  | .debugUnlock _ _ _ _ _ => [.regs, .chk, .hub, .sec]
  | .keyDataAccess _ _ _ => [.response, .sec]
  | .fuseProgram _ => [.regs, .sec]
  | .fuseRevoke _ => [.regs, .sec]
  | .fuseRaise _ => [.regs, .sec]
  | .fuseComplete => [.regs, .sec]
  | .powerDown => others [.pending]
  | .startup _ => others [.pending, .response, .pwr, .mtr]
  | .loaderStart => [.regs, .mem, .pkg, .mm]
  | .packageReset _ _ => others [.pending]
  | .coresReset _ => [.regs, .shadow, .mem, .pkg, .mm]
  | .pciePerst => [.regs, .shadow, .pkg, .hub]
  | .testReset => [.sec]
  | .pciePerstRelease _ _ _ => [.regs, .pkg]
  | .obcorLinkDown _ => [.regs, .hub, .time]
  | .obcorRelay _ _ _ _ => [.regs, .fleet]
  | .standbyMirror _ _ => [.regs, .fleet]
  | .ptpMessageGeneration _ => [.wire, .time]
  | .corrected24hWindow _ => [.flt]

/-- Registers whose writes do more than their access codes say. -/
def actionRegs : List Nat :=
  [Reg.cfgLoadCtrl, Reg.cfgRunCtrl, Reg.cfgCommit, Reg.hubRingBase, Reg.hubRingWatch, Reg.hubRingReport, Reg.hubRingCfg,
   Reg.pcieRpCfgAddr, Reg.pcieRpCfgData, Reg.pcieRpMsiAddr, Reg.pcieRpMsiData, Reg.clsBankSwap, Reg.clsBankData,
   Reg.clsFlowFlush, Reg.timeStep, Reg.timeSetNs, Reg.timeRate, Reg.embNtsSwitch, Reg.chkErrTail, Reg.fltUnitCmd,
   Reg.fltPackCtrl, Reg.detTraceTail, Reg.detSnapCtrl, Reg.pwrRearm, Reg.secFuseCmd, Reg.pkgResetCtrl]

end Sys2Proof.Machine
end

