-- ==== Sys2Proof/Certificates/Slice0/Obligations.lean ====
section
/-! DEFINITION. The statements for the provers. -/

open Sys2Proof Sys2Proof.Machine

/-- A step takes the command at the front of the queue and answers its outcome on the state with the queue's rest. -/
def Obligations.StepRunsFrontCommand : Prop :=
  ∀ (s : State) (c : Instr) (rest : List Instr), s.pending = c :: rest → step s = exec c { s with pending := rest }

/-- With no command waiting, a step lets one cycle of SCLK pass (R309; the model's choice, log entry 18): before READY
nothing changes; from READY the clock gains exactly 1 ns × (1 + RATE × 2⁻³²), its nanoseconds stay below 10⁹ and its fraction
below 2³², and the queue stays empty. -/
def Obligations.EmptyQueueLetsTimePass : Prop :=
  ∀ s : State, s.pending = [] →
    (s.pkg.ready = false → step s = .next s) ∧
    (s.pkg.ready = true → s.clock.ns < 1000000000 → s.clock.frac < 2 ^ 32 →
      ∃ t, step s = .next t ∧ t.pending = [] ∧
        (t.glc : Int) * 2 ^ 32 + t.clock.frac =
          (s.glc : Int) * 2 ^ 32 + s.clock.frac + 2 ^ 32 + sext 32 (s.fld Reg.timeRateRate) ∧
        t.clock.ns < 1000000000 ∧ t.clock.frac < 2 ^ 32)

/-- What reset leaves, as the register tables give it: nothing is loaded and no step runs (R107), start-up stands in phase 1 with code 0
(R516), the last reset is the power-on reset (R518), the clock runs free and is not disciplined (R335), every Ethernet port is
down (R511), the START_C limit is 105 °C (R498) and no port of the Obcor block has left DOWN (R470). -/
def Obligations.ResetLeavesTableValues : Prop :=
  State.reset.loadState = loadEmpty ∧ State.reset.stepRunning = false ∧ State.reset.fld Reg.pkgBootStatusPhase = 1 ∧
    State.reset.fld Reg.pkgBootStatusCode = 0 ∧ State.reset.reg Reg.pkgResetCause = 1 ∧
    State.reset.timeSource = srcFree ∧ (∀ c < 16, State.reset.portUp c = false) ∧
    State.reset.fld Reg.pwrThrottleCtrlStartC = 0x69 ∧ (∀ l < 16, State.reset.fld (Reg.obcLinkStatusState l) = obcDown)

/-- The state after reset meets the invariant. -/
def Obligations.ResetMeetsInvariant : Prop := State.reset.Inv

/-- Every step keeps the invariant: memory and both register files stay in canonical form, the table of poisoned tier-2 lines
has at most 64 Ki entries (R219) and the hub's queue of error records at most 1,024 (R359). -/
def Obligations.StepKeepsInvariant : Prop := ∀ s t : State, s.Inv → step s = .next t → t.Inv

/-- Every command completes, in every state and with every operand its row can carry: none ends in a fault or a refusal (an
access of another size than R13 or R202 takes is answered, not stopped). A queue of any commands is therefore taken to its
end, one command a step. -/
def Obligations.EveryCommandCompletes : Prop :=
  (∀ (c : Instr) (s : State), ∃ t, exec c s = .next t) ∧
  (∀ (s : State) (k : Nat), ∃ t, Reaches s k t ∧ t.pending = s.pending.drop k)

/-- The frame of every command: whatever it does, it leaves every component of the state outside its list as it was, the
queue of waiting commands, the grade and the stepping among them, and the side of the PCIe port but for
the start-up that samples it (R504). -/
def Obligations.CommandChangesOnlyItsComponents : Prop :=
  ∀ (c : Instr) (s t : State), exec c s = .next t →
    (∀ p : Component, p ∉ changes c → s.keeps t p) ∧ t.pending = s.pending ∧ t.pkg.gradeE = s.pkg.gradeE ∧
    t.pkg.steppingB0 = s.pkg.steppingB0 ∧ s.mtr.sequence ≤ t.mtr.sequence ∧
    ((∀ o, c = .startup o → s.pkg.modeSampled = true) → t.pkg.rootPort = s.pkg.rootPort)

/-- A flit replay (R26), a link retrain (R27) and an error window of a lane (R376) update the link they name. A replay
adds 40 ACLK; a flit that has failed and then fails 16 retries takes the link down. A retrain stalls the link 20 µs and brings
the spare of its group into use for a failed lane, once, also where the lane was marked; a second failed lane of the group
removes it. The third window of one lane with more than 100 errors in a power-on hour (of one lane: the model's reading, log
entry 203) marks the lane, which waits for the seam of a running step and is retrained at once without one; a window of at
most 100 changes nothing. -/
def Obligations.LinkEventsUpdateTheirLink : Prop :=
  (∀ (s : State) (n : Fin 10) (far again : Bool), (s.link n).up = true →
    ∃ t, exec (.flitRetry n far again) s = .next t ∧
      (∀ k : Fin 10, k ≠ n → (t.link k).up = (s.link k).up ∧ (t.link k).spared = (s.link k).spared) ∧
      (if (if again then (s.link n).retriesInRow + 1 else 1) < 17 then
        t.link n = { s.link n with
          retriesInRow := if again then (s.link n).retriesInRow + 1 else 1
          delayAclk := (s.link n).delayAclk + 40 }
      else (t.link n).up = false ∧ (t.link n).delayAclk = (s.link n).delayAclk)) ∧
  (∀ (s : State) (n : Fin 10), (s.link n).up = true → (s.link n).marked = [] →
    linkGroups n ≤ 2 * (s.link n).groups n →
    ∃ t, exec (.linkRetrain n []) s = .next t ∧ t.link n = { s.link n with stallUs := (s.link n).stallUs + 20 }) ∧
  (∀ (s : State) (n : Fin 10) (x : LaneId), (s.link n).up = true → (s.link n).marked = [] → x.group < linkGroups n →
    (s.link n).removed = [] → (s.link n).spared.contains (laneNo x) = false →
    linkGroups n ≤ 2 * ((s.link n).groups n - 1) →
    ∃ t, exec (.linkRetrain n [x]) s = .next t ∧
      t.link n =
        if (s.link n).spared.any fun y => laneGroup y == x.group.val then
          { s.link n with stallUs := (s.link n).stallUs + 20, removed := [x.group.val],
                          spared := (s.link n).spared.filter fun y => laneGroup y != x.group.val }
        else { s.link n with stallUs := (s.link n).stallUs + 20, spared := (s.link n).spared ++ [laneNo x] }) ∧
  (∀ (s : State) (n : Fin 10) (x y : LaneId), (s.link n).up = true → (s.link n).marked = [laneNo y] →
    x.group = y.group → x ≠ y → x.group < linkGroups n → (s.link n).removed = [] → (s.link n).spared = [] →
    ∃ t, exec (.linkRetrain n [x]) s = .next t ∧
      t.link n = { s.link n with stallUs := (s.link n).stallUs + 20, marked := [], removed := [x.group.val] } ∧
      (t.unit (groupKey n x.group)).state = stRetired) ∧
  (∀ (s : State) (n : Fin 10) (x : LaneId), (s.link n).up = true → (s.link n).marked = [laneNo x] →
    x.group < linkGroups n → (s.link n).removed = [] → (s.link n).spared = [] →
    ∃ t, exec (.linkRetrain n [x]) s = .next t ∧
      t.link n = { s.link n with stallUs := (s.link n).stallUs + 20, marked := [], spared := [laneNo x] } ∧
      (t.unit (groupKey n x.group)).state = (s.unit (groupKey n x.group)).state ∧
      (t.unit (groupKey n x.group)).spareLane = some (laneNo x)) ∧
  (∀ (s : State) (n : Fin 10) (x : LaneId) (errors : Nat), errors ≤ 100 →
    exec (.laneErrorWindow n x errors) s = .next s) ∧
  (∀ (s : State) (n : Fin 10) (x : LaneId) (errors : Nat), 100 < errors → (s.link n).holdsLane n (laneNo x) = true →
    (s.link n).up = true → (s.link n).windows = [] →
    ∃ t, exec (.laneErrorWindow n x errors) s = .next t ∧
      t.link n = { s.link n with windows := [(laneNo x, s.powerSeconds)] } ∧
      (t.unit (groupKey n x.group)).corrected24 = min ((s.unit (groupKey n x.group)).corrected24 + 1) 0xFFFFFFFF) ∧
  (∀ (s : State) (n : Fin 10) (x : LaneId) (errors a b : Nat), 100 < errors →
    (s.link n).holdsLane n (laneNo x) = true → (s.link n).up = true →
    (s.link n).windows = [(laneNo x, a), (laneNo x, b)] → s.powerSeconds < a + 3600 → s.powerSeconds < b + 3600 →
    s.stepRunning = true → (s.link n).marked = [] →
    ∃ t, exec (.laneErrorWindow n x errors) s = .next t ∧
      t.link n = { s.link n with windows := [], marked := [laneNo x] }) ∧
  (∀ (s : State) (n : Fin 10) (x y : LaneId) (errors a b : Nat), 100 < errors →
    (s.link n).holdsLane n (laneNo x) = true → (s.link n).up = true → laneNo y ≠ laneNo x →
    (s.link n).windows = [(laneNo y, a), (laneNo x, b)] → s.powerSeconds < a + 3600 → s.powerSeconds < b + 3600 →
    ∃ t, exec (.laneErrorWindow n x errors) s = .next t ∧ (t.link n).marked = (s.link n).marked) ∧
  (∀ (s : State) (n : Fin 10) (x : LaneId) (errors a b : Nat), 100 < errors → x.group < linkGroups n →
    (s.link n).up = true → (s.link n).windows = [(laneNo x, a), (laneNo x, b)] → s.powerSeconds < a + 3600 →
    s.powerSeconds < b + 3600 → s.stepRunning = false → (∀ k < 10, (s.link k).marked = []) →
    (s.link n).removed = [] → (s.link n).spared = [] →
    ∃ t, exec (.laneErrorWindow n x errors) s = .next t ∧
      t.link n = { s.link n with windows := [], stallUs := (s.link n).stallUs + 20, spared := [laneNo x] })

/-- LOAD_CTRL starts a full load, a partial reload or a check (R97, R101, R105, R107): where the operation is allowed
and nothing is busy, LOAD_ADDR is 4 KiB aligned in a memory tier and the steward runs, the job is recorded with its
address, BUSY reads 1, a full load shows CHECKING, and neither the loaded image nor memory changes; where the operation
is not allowed, CODE reads 1 and no job, image or byte changes. -/
def Obligations.LoadRequestStartsItsChecks : Prop :=
  ∀ (s : State) (v : Word) (op : LoadOp), s.pkg.ready = true → s.pkg.pairs.contains true = true →
    (s.busy = false → s.loadAllowed op = true → s.fld Reg.cfgLoadAddrAddr % 4096 = 0 →
      s.inTiers (s.fld Reg.cfgLoadAddrAddr) 1 = true →
      ∃ t, (op = .full → exec (.loadFull v) s = .next t) ∧ (op = .part → exec (.loadPartial v) s = .next t) ∧
        (op = .check → exec (.loadCheck v) s = .next t) ∧
        t.cfg.load = some ⟨op, loadValue op v, s.fld Reg.cfgLoadAddrAddr, .checking, none, false, false, none, s.loadState⟩ ∧
        t.fld Reg.cfgLoadStatusBusy = 1 ∧
        t.loadState = (if op = .full then loadChecking else s.loadState) ∧
        t.cfg.image = s.cfg.image ∧ t.mem = s.mem ∧ t.wire = s.wire) ∧
    (s.busy = true ∨ s.loadAllowed op = false →
      ∃ t, (op = .full → exec (.loadFull v) s = .next t) ∧ (op = .part → exec (.loadPartial v) s = .next t) ∧
        (op = .check → exec (.loadCheck v) s = .next t) ∧
        t.fld Reg.cfgLoadStatusCode = 1 ∧ t.cfg = s.cfg ∧ t.mem = s.mem ∧ t.wire = s.wire)

/-- The checks of a load end (R98): a refusal reports its code and changes neither the loaded image nor a byte of memory;
a full load that passes waits to be distributed with its image; a CHECK that passes reports 0; a partial reload that
passes waits with its image. The results are computed when the checks end (the model's choice, log entry 19). -/
def Obligations.LoadChecksEndWithCodeOrPass : Prop :=
  ∀ (s : State) (j : LoadJob), s.pkg.pairs.contains true = true → s.cfg.load = some j → j.phase = .checking →
    s.flt.stopKind = none →
    ∃ t, exec .loadCheckDone s = .next t ∧ t.cfg.image = s.cfg.image ∧ t.mem = s.mem ∧
      match s.jobErr j with
      | some e => t.cfg.load = none ∧ t.fld Reg.cfgLoadStatusCode = e.code % 256 ∧ t.fld Reg.cfgLoadStatusBusy = 0
      | none =>
        t.fld Reg.cfgLoadStatusCode = 0 ∧
        match j.op with
        | .full => t.cfg.load = some { j with phase := .passed, image := some (s.jobImage j) }
        | .part => ∃ k, t.cfg.load = some k ∧ k.phase = .reloading ∧ k.image = some (s.jobImage j)
        | _ => t.cfg.load = none ∧ t.fld Reg.cfgLoadStatusBusy = 0

/-- Distribution of a full load (R98): it begins once the checks have passed and no commit is pending, with no frame
waiting for a slice and the state DISTRIBUTING (stated where no frame waited); when it ends the image and its buffer are
the loaded ones, CFG.STEP is 0, EPOCH has advanced, the slices are those of the new image, the state is LOADED, CODE and BUSY
are 0; a hardware fault at either end leaves nothing loaded, the state FAULT and CODE 0x30. UNLOAD removes the image, its buffer
and every slice's model and leaves EMPTY with CODE 0; with LOAD_ADDR not 4 KiB aligned it reports 0x19 and removes
nothing (R105). -/
def Obligations.FullLoadDistributesAndUnloads : Prop :=
  (∀ (s : State) (j : LoadJob), s.pkg.pairs.contains true = true → s.cfg.load = some j → j.op = .full →
    j.phase = .passed → s.cfg.pendingGroups = [] → s.flt.stopKind = none →
    ∃ t, exec (.loadDistribute false) s = .next t ∧ t.cfg.load = some { j with phase := .distributing } ∧
      t.cfg.image = s.cfg.image ∧ t.wire.sliceQueues = [] ∧
      (s.wire.sliceQueues = [] → t.loadState = loadDistributing ∧ t.mem = s.mem)) ∧
  (∀ (s : State) (j : LoadJob), s.pkg.pairs.contains true = true → s.cfg.load = some j → j.op = .full →
    j.phase = .passed → s.cfg.pendingGroups = [] → s.flt.stopKind = none →
    ∃ t, exec (.loadDistribute true) s = .next t ∧ t.cfg.load = none ∧ t.cfg.image = none ∧ t.loadState = loadFault ∧
      t.fld Reg.cfgLoadStatusCode = 0x30) ∧
  (∀ (s : State) (j : LoadJob) (im : Image), s.pkg.pairs.contains true = true → s.cfg.load = some j → j.op = .full →
    j.phase = .distributing → j.image = some im → s.flt.stopKind = none →
    ∃ t, exec (.loadDistributionDone false) s = .next t ∧ t.cfg.load = none ∧ t.cfg.image = some im ∧
      t.cfg.buffer = some (im.addr, im.totalLength) ∧ t.reg Reg.cfgStep = 0 ∧ t.loadState = loadLoaded ∧
      t.fld Reg.cfgLoadStatusBusy = 0 ∧ t.fld Reg.cfgLoadStatusCode = 0 ∧
      t.fld Reg.cfgEpochEpoch = nextEpoch (s.fld Reg.cfgEpochEpoch) % 2 ^ 32 ∧
      t.wire.model.slices = (HubModel.init.take im.sections).slices) ∧
  (∀ (s : State) (j : LoadJob) (im : Image), s.pkg.pairs.contains true = true → s.cfg.load = some j → j.op = .full →
    j.phase = .distributing → j.image = some im → s.flt.stopKind = none →
    ∃ t, exec (.loadDistributionDone true) s = .next t ∧ t.cfg.load = none ∧ t.cfg.image = none ∧
      t.loadState = loadFault ∧ t.fld Reg.cfgLoadStatusCode = 0x30) ∧
  (∀ (s : State) (v : Word), s.pkg.ready = true → s.pkg.pairs.contains true = true → s.busy = false →
    s.loadAllowed .unload = true → s.fld Reg.cfgLoadAddrAddr % 4096 = 0 →
    ∃ t, exec (.loadUnload v) s = .next t ∧ t.cfg.image = none ∧ t.cfg.buffer = none ∧ t.wire.sliceQueues = [] ∧
      t.wire.model = HubModel.init ∧ t.loadState = loadEmpty ∧ t.fld Reg.cfgLoadStatusCode = 0) ∧
  (∀ (s : State) (v : Word), s.pkg.ready = true → s.pkg.pairs.contains true = true → s.busy = false →
    s.loadAllowed .unload = true → s.fld Reg.cfgLoadAddrAddr % 4096 ≠ 0 →
    ∃ t, exec (.loadUnload v) s = .next t ∧ t.cfg = s.cfg ∧ t.mem = s.mem ∧ t.wire = s.wire ∧
      t.fld Reg.cfgLoadStatusCode = 0x19)

/-- Hub sections of a partial reload become active together (R301): where no frame holds the copy before, the shadow
copies become the active model, the copy before is kept for what still evaluates, the swap is counted and memory keeps its
bytes. -/
def Obligations.HubShadowCopiesSwapTogether : Prop :=
  ∀ (s : State) (m : HubModel) (j : LoadJob) (im old : Image), s.wire.shadow = some m → s.cfg.load = some j →
    s.cfg.image = some old → j.image = some im → s.modelHolders = 0 →
    s.pkg.pairs.contains true = true →
    ∃ t, exec .hubModelSwap s = .next t ∧ t.wire.shadow = none ∧ t.wire.oldModel = s.wire.model ∧
      t.wire.model.encoder = m.encoder ∧ t.wire.model.slices = m.slices ∧ t.wire.model.templates = m.templates ∧
      t.wire.swaps = s.wire.swaps + 1 ∧ t.mem = s.mem

/-- COMMIT (R113, R116, R117): a request of a known group that is not pending, outside distribution and recovery, takes
the group's shadow set into staging and shows CHECKING with the group; a request made while CHECKING reads 1 is
discarded and sets OVERRUN; neither changes an active value of the group. -/
def Obligations.CommitRequestStagesShadowSet : Prop :=
  (∀ (s : State) (v : Word), s.pkg.pairs.contains true = true → s.fldB Reg.cfgCommitStatusChecking = false →
    s.requestCode (v.toNat % 2 ^ 20) = 0 →
    ∃ t, exec (.commitRequest false v) s = .next t ∧
      t.cfg.checks = s.cfg.checks ++ [s.stage (v.toNat % 2 ^ 20) false] ∧
      t.cfg.pendingGroups = s.cfg.pendingGroups ∧ t.fld Reg.cfgCommitStatusChecking = 1 ∧
      t.fld Reg.cfgCommitStatusGroup = v.toNat % 2 ^ 20 ∧
      ∀ k, k ≠ Reg.cfgCommitStatus → t.reg k = s.reg k) ∧
  (∀ (s : State) (v : Word), s.pkg.pairs.contains true = true → s.fldB Reg.cfgCommitStatusChecking = true →
    ∃ t, exec (.commitRequest false v) s = .next t ∧ t.cfg = s.cfg ∧ t.fld Reg.cfgCommitStatusOverrun = 1 ∧
      t.fld Reg.cfgCommitStatusChecking = s.fld Reg.cfgCommitStatusChecking ∧
      ∀ k, k ≠ Reg.cfgCommitStatus → t.reg k = s.reg k)

/-- The checks of the oldest request end (R113): where they hold and the block's traffic has not stopped, the group is
pending with its staging set and CODE reads 0; where one fails, CODE reads its code and the pending groups stay as they
were. -/
def Obligations.CommitChecksDecideGroup : Prop :=
  ∀ (s : State) (st : Staging) (rest : List Staging), s.pkg.pairs.contains true = true → s.cfg.checks = st :: rest →
    st.bySteward = false → s.isPending st.group = false → s.quiet st.group = false →
    ∃ t, exec .commitCheckDone s = .next t ∧ t.cfg.checks = rest ∧ t.fld Reg.cfgCommitStatusChecking = 0 ∧
      t.fld Reg.cfgCommitStatusCode = (s.groupCode st).1 % 256 ∧
      t.cfg.pendingGroups =
        if (s.groupCode st).1 = 0 then s.cfg.pendingGroups ++ [st] else s.cfg.pendingGroups

/-- At its safe point a pending group is checked again (R114): where every check holds, the RWG bits of its registers
take the staged values, all at once, GROUP_QUERY counts the apply and LAST_CODE reads 0 (the registers are stated for the
groups whose active set has no further effect in its block); where one fails, the group is dropped with LAST_CODE 0x23
and no register changes. -/
def Obligations.PendingGroupAppliesOrIsDropped : Prop :=
  ∀ (s : State) (g : BitVec 20) (st : Staging), s.pkg.pairs.contains true = true →
    s.cfg.pendingGroups.find? (fun p => p.group == g.toNat) = some st →
    s.safeNow g.toNat = true →
    ∃ t, exec (.commitApply g) s = .next t ∧ (∀ p ∈ t.cfg.pendingGroups, p.group ≠ g.toNat) ∧
      if (s.groupCode st).1 = 0 then
        Tab.get 0 g.toNat t.cfg.lastCode = 0 ∧
        Tab.get 0 g.toNat t.cfg.applied = (Tab.get 0 g.toNat s.cfg.applied + 1) % 2 ^ 32 ∧
        (g.toNat / 4096 ∉ [0xC0, 0x10, 0x30, 0x40, 0x60, 0x80] → ∀ o ∈ groupRegs g.toNat,
          (t.reg o).toNat &&& rwgMask o = st.val o &&& rwgMask o ∧
          (t.reg o).toNat &&& (2 ^ 64 - 1 - rwgMask o) = (s.reg o).toNat &&& (2 ^ 64 - 1 - rwgMask o))
      else Tab.get 0 g.toNat t.cfg.lastCode = 0x23 ∧ t.regs = s.regs

/-- SNAP_CTRL (R427 to R429): a SAVE that the state allows begins at once when a loaded package stands at a seam, and
then its area holds the snapshot of that seam; while a step runs it waits with PENDING 1; a RESTORE and a CHECK whose
checks pass begin and show BUSY, and one whose checks fail reports the failing code and entry; no snapshot request
changes a byte outside the area of a SAVE. -/
def Obligations.SnapshotRequestsBeginOrReport : Prop :=
  (∀ (s : State) (v : Word) (a : Nat) (manifest : Bool), s.pkg.ready = true → s.pkg.pairs.contains true = true →
    s.fld Reg.detSnapAddrAddr = a → bit v.toNat 2 = manifest → s.det.snap = none → s.flt.stopKind = none →
    s.loadState = loadLoaded → s.cfg.image.isSome = true → s.seamFree = true →
    s.areaCode a (s.snapNeed manifest) = 0 →
    s.inImageBuffer a (s.snapBytes manifest).length = false →
    ∃ t, exec (.snapshotSave v) s = .next t ∧ t.det.snap = some ⟨1, manifest, bit v.toNat 3, a, true, false⟩ ∧
      t.fld Reg.detSnapStatusBusy = 1 ∧ t.read a (s.snapBytes manifest).length = s.snapBytes manifest ∧
      ∀ x, x < a ∨ a + (s.snapBytes manifest).length ≤ x → t.byte x = s.byte x) ∧
  (∀ (s : State) (v : Word), s.pkg.ready = true → s.pkg.pairs.contains true = true → s.det.snap = none →
    s.flt.stopKind = none → s.loadState = loadRunning → s.cfg.image.isSome = true → s.stepRunning = true →
    s.areaCode (s.fld Reg.detSnapAddrAddr) (s.snapNeed (bit v.toNat 2)) = 0 →
    ∃ t, exec (.snapshotSave v) s = .next t ∧
      t.det.snap = some ⟨1, bit v.toNat 2, bit v.toNat 3, s.fld Reg.detSnapAddrAddr, false, false⟩ ∧
      t.fld Reg.detSnapStatusPending = 1 ∧ t.mem = s.mem) ∧
  (∀ (s : State) (v : Word), s.pkg.ready = true → s.pkg.pairs.contains true = true → s.det.snap = none →
    s.loadState = loadLoaded → s.busy = false →
    ∃ t, exec (.snapshotRestore v) s = .next t ∧ t.mem = s.mem ∧
      if (s.snapCheck (s.fld Reg.detSnapAddrAddr)).1 = 0 then
        t.det.snap = some ⟨2, false, false, s.fld Reg.detSnapAddrAddr, true, false⟩ ∧ t.fld Reg.detSnapStatusBusy = 1
      else t.det = s.det ∧
        t.fld Reg.detSnapStatusCode = (s.snapCheck (s.fld Reg.detSnapAddrAddr)).1 % 256 ∧
        t.fld Reg.detSnapStatusEntry = (s.snapCheck (s.fld Reg.detSnapAddrAddr)).2 % 65536) ∧
  (∀ (s : State) (v : Word), s.pkg.ready = true → s.pkg.pairs.contains true = true → s.det.snap = none →
    s.cfg.image.isSome = true →
    ∃ t, exec (.snapshotCheck v) s = .next t ∧ t.mem = s.mem ∧
      if (s.snapCheck (s.fld Reg.detSnapAddrAddr)).1 = 0 then
        t.det.snap = some ⟨3, false, false, s.fld Reg.detSnapAddrAddr, true, false⟩ ∧ t.fld Reg.detSnapStatusBusy = 1
      else t.det = s.det ∧
        t.fld Reg.detSnapStatusCode = (s.snapCheck (s.fld Reg.detSnapAddrAddr)).1 % 256)

/-- Runs (R88, R109, R110, R332): a START that is allowed begins the next step at once where nothing holds the seam,
with the STEP_LIMIT written; one with AT arms the launch and shows it PENDING; the armed launch begins its step at a 5 ns frame
boundary with LAUNCH_GLC at that time; STOP waits for the seam of a running step and is LOADED at once where none runs; ABORT
cuts a running step off, so that no sequencer, stream or crossing of the step is left. -/
def Obligations.RunsStartStopAndAbort : Prop :=
  (∀ (s : State) (v : Word), s.pkg.ready = true → s.pkg.pairs.contains true = true → s.startCode = 0 →
    s.ckptOn = false → s.flt.stopKind = none → s.flt.copying = false → s.flt.roundDue = false → s.flt.echoHold = false →
    s.chk.rounds = [] → s.det.snap = none → s.cfg.load = none →
    (∃ t, exec (.runStart v) s = .next t ∧ t.stepRunning = true ∧ t.cfg.run.atSeam = true ∧ t.cfg.run.armed = false ∧
      t.cfg.run.stepsLeft =
        (if Reg.cfgRunCtrlStepLimit.of v.toNat = 0 then none else some (Reg.cfgRunCtrlStepLimit.of v.toNat)) ∧
      t.loadState = loadRunning ∧ t.cfg.image = s.cfg.image ∧ t.reg Reg.cfgStep = s.reg Reg.cfgStep) ∧
    (s.glc ≤ (s.reg Reg.cfgRunAt).toNat →
      ∃ t, exec (.runStartAt v) s = .next t ∧ t.cfg.run.armed = true ∧ t.cfg.run.late = false ∧
        t.stepRunning = s.stepRunning ∧ t.fld Reg.timeLaunchStatusPending = 1 ∧ t.loadState = loadRunning)) ∧
  (∀ s : State, s.cfg.run.armed = true → (s.cfg.run.late = true ∨ (s.reg Reg.cfgRunAt).toNat ≤ s.glc) →
    s.upTime % 5 = 0 → s.loadState = loadRunning → s.seamFree = true → s.snapBusy = false → s.flt.echoHold = false →
    ∃ t, exec .atLaunch s = .next t ∧ t.stepRunning = true ∧ t.cfg.run.armed = false ∧
      t.reg Reg.timeLaunchGlc = BitVec.ofNat 64 s.glc ∧ t.fld Reg.timeLaunchStatusPending = 0) ∧
  (∀ (s : State) (v : Word), s.pkg.ready = true → s.loadState = loadRunning →
    ∃ t, exec (.runStop v) s = .next t ∧ t.stepRunning = s.stepRunning ∧
      t.loadState = if s.stepRunning then loadStopping else loadLoaded) ∧
  (∀ (s : State) (v : Word), s.pkg.ready = true → s.loadState = loadRunning ∨ s.loadState = loadStopping →
    s.flt.stopKind = none →
    ∃ t, exec (.runAbort v) s = .next t ∧
      if s.stepRunning then t.dense = DenseState.init ∧ t.crossings = []
      else t.loadState = loadLoaded ∧ t.mem = s.mem ∧ t.dense = s.dense)

/-- A step reaches its seam (R88, R387, R388): where every unit has retired, the ledgers and pips agree, nothing written
is poisoned and no seam-bound commit is pending, CFG.STEP advances by one and no sequencer, stream or crossing of the
step is left. -/
def Obligations.StepSeamAdvancesStep : Prop :=
  ∀ s : State, s.stepRunning = true → s.stepDone = true → s.badLedgers = [] → s.pipChecks = [] →
    (∀ r ∈ s.dense.wrote, s.isPoisoned r.1 r.2 = false) → (∀ p ∈ s.cfg.pendingGroups, seamBound p.group = false) →
    ∃ t, exec .stepSeam s = .next t ∧ t.reg Reg.cfgStep = BitVec.ofNat 64 (s.stepIndex + 1) ∧
      t.dense = DenseState.init ∧ t.crossings = []

/-- The holds of a seam end (R101, R388, R427, R429): a partial reload's new sections are the loaded ones; when the step
copy is complete the next step begins, with the hold counted; a SAVE and a CHECK end with CODE 0, a restore leaves the package
at a seam with empty sequencers. The copies are stated where the lines that they read are not poisoned and meet no error. -/
def Obligations.SeamHoldsEnd : Prop :=
  (∀ (s : State) (j : LoadJob) (im old : Image), s.pkg.pairs.contains true = true → s.cfg.load = some j →
    s.cfg.image = some old → j.image = some im → j.dieDue = true → j.hubDue = false → s.stepRunning = false →
    s.flt.stopKind = none →
    ∃ t, exec (.partialReloadDone false) s = .next t ∧ t.cfg.load = none ∧
      t.cfg.image = if fromNew j.ctrl then some im
        else some (replaceSections old im fun x => selects j.ctrl x && !isHubKind x.kind)) ∧
  (∀ (s : State) (holdNs : Nat), s.pkg.pairs.contains true = true → s.flt.copying = true → s.flt.copyDue = false →
    s.flt.roundDue = false → s.flt.echoHold = false → s.chk.rounds = [] → s.det.snap = none → s.cfg.load = none →
    s.flt.stopKind = none → s.stepRunning = false → s.cfg.run.atSeam = true → s.cfg.run.armed = false →
    s.loadState = loadRunning → (∀ r ∈ s.copySources, s.isPoisoned r.1 r.2 = false) →
    ∃ t, exec (.checkpointCopyDone ⟨holdNs, []⟩) s = .next t ∧ t.stepRunning = true ∧ t.flt.copying = false ∧
      t.reg (Reg.fltCnt 10) = s.reg (Reg.fltCnt 10) + BitVec.ofNat 64 holdNs) ∧
  (∀ (s : State) (j : SnapJob), s.pkg.pairs.contains true = true → s.det.snap = some j → j.copying = true → j.op = 1 →
    s.flt.stopKind = none → (∀ r ∈ s.saveSources, s.isPoisoned r.1 r.2 = false) →
    ∃ t, exec (.snapshotCopyDone ⟨false, []⟩) s = .next t ∧ t.det.snap = none ∧ t.fld Reg.detSnapStatusBusy = 0 ∧
      t.fld Reg.detSnapStatusCode = 0) ∧
  (∀ (s : State) (j : SnapJob), s.pkg.pairs.contains true = true → s.det.snap = some j → j.copying = true → j.op = 3 →
    (∀ r ∈ s.restoreSources j.addr, s.isPoisoned r.1 r.2 = false) →
    ∃ t, exec (.snapshotCopyDone ⟨false, []⟩) s = .next t ∧ t.det.snap = none ∧ t.fld Reg.detSnapStatusBusy = 0 ∧
      t.fld Reg.detSnapStatusCode = 0 ∧ t.mem = s.mem) ∧
  (∀ (s : State) (j : SnapJob), s.pkg.pairs.contains true = true → s.det.snap = some j → j.copying = true → j.op = 2 →
    (∀ r ∈ s.restoreSources j.addr, s.isPoisoned r.1 r.2 = false) →
    ∃ t, exec (.snapshotCopyDone ⟨false, []⟩) s = .next t ∧ t.det.snap = none ∧ t.fld Reg.detSnapStatusBusy = 0 ∧
      t.fld Reg.detSnapStatusCode = 0 ∧ t.stepRunning = false ∧ t.cfg.run.atSeam = true ∧ t.dense = DenseState.init)

/-- Unit commands (R402, R410): a request that a rule refuses reports its code and changes no unit; one that is allowed is
recorded; a re-admission or a screen begins its Lantern screen; a SUMP waits for the seam of a running step, and with the units
stopped moves its unit to Sump at once and is done. -/
def Obligations.UnitCommandsBeginOrReport : Prop :=
  ∀ (s : State) (v : Word) (op : Nat), op = cmdSump ∨ op = cmdReadmit ∨ op = cmdScreen → s.pkg.ready = true → s.pkg.pairs.contains true = true →
    (s.cmdCode (Reg.fltUnitCmdKey.of v.toNat) op ≠ 0 →
      ∃ t, (op = cmdSump → exec (.unitCmdSump v) s = .next t) ∧
        (op = cmdReadmit → exec (.unitCmdReadmit v) s = .next t) ∧ (op = cmdScreen → exec (.unitCmdScreen v) s = .next t) ∧
        t.flt = s.flt ∧ t.fld Reg.fltUnitResultDone = 1 ∧
        t.fld Reg.fltUnitResultKey = Reg.fltUnitCmdKey.of v.toNat ∧
        t.fld Reg.fltUnitResultCode = s.cmdCode (Reg.fltUnitCmdKey.of v.toNat) op % 256) ∧
    (s.cmdCode (Reg.fltUnitCmdKey.of v.toNat) op = 0 → (op = cmdSump → s.unitsStopped = false) →
      ∃ t, (op = cmdSump → exec (.unitCmdSump v) s = .next t) ∧
        (op = cmdReadmit → exec (.unitCmdReadmit v) s = .next t) ∧ (op = cmdScreen → exec (.unitCmdScreen v) s = .next t) ∧
        t.flt.cmd = some ⟨Reg.fltUnitCmdKey.of v.toNat, op⟩ ∧ t.flt.units = s.flt.units ∧
        t.fld Reg.fltUnitResultDone = 0 ∧
        (op ≠ cmdSump → t.flt.screening.any (fun e => e.1 == Reg.fltUnitCmdKey.of v.toNat) = true)) ∧
    (s.cmdCode (Reg.fltUnitCmdKey.of v.toNat) op = 0 → op = cmdSump → s.unitsStopped = true →
      keyClass (Reg.fltUnitCmdKey.of v.toNat) ≠ 4 →
      ∃ t, exec (.unitCmdSump v) s = .next t ∧ t.flt.cmd = none ∧ (t.unit (Reg.fltUnitCmdKey.of v.toNat)).state = stSump ∧
        t.fld Reg.fltUnitResultDone = 1 ∧ t.fld Reg.fltUnitResultCode = 0)

/-- Screens (R378, R384, R385): a screen that ends leaves the unit in service with its time kept where it passed, retired
where it failed (a slice comes back from Sump or retirement where its reload succeeds, R401); the spare screens begin for
every spare unit once SPARE_HOURS have passed; a rotation that comes while a step runs waits for the
seam, and with the units stopped sends the cluster whose screen is the oldest to Sump where a cluster is spare (stated for a
die with no unit in state DUE and no rotation under way); the daily check shows whether a die has no spare left to rotate with. -/
def Obligations.ScreensAndRotationsMoveUnits : Prop :=
  (∀ (s : State) (k : BitVec 32) (pass : Bool) (point : BitVec 3) (test : BitVec 12), s.pkg.pairs.contains true = true →
    s.flt.screening.any (fun e => e.1 == k.toNat) = true → s.stepRunning = true →
    ∃ t, exec (.screenComplete k pass point test) s = .next t ∧
      t.flt.screening.any (fun e => e.1 == k.toNat) = false ∧
      (pass = false → (t.unit k.toNat).state = stRetired) ∧
      (pass = true → (keyClass k.toNat = 9 → (s.unit k.toNat).state ≠ stSump ∧ (s.unit k.toNat).state ≠ stRetired) →
        (t.unit k.toNat).state = stService) ∧
      (pass = true → (t.unit k.toNat).state = stService ∨ (t.unit k.toNat).state = (s.unit k.toNat).state) ∧
      (pass = true → (t.unit k.toNat).lanternLast = s.powerSeconds) ∧
      ∀ j, j ≠ k.toNat → t.unit j = s.unit j) ∧
  (∀ s : State, s.pkg.pairs.contains true = true → s.spareDue = true →
    ∃ t, exec .spareScreen s = .next t ∧ t.flt.units = s.flt.units ∧
      ∀ k ∈ computeUnits, s.unitState k = stSpare → t.flt.screening.any (fun e => e.1 == k) = true) ∧
  (∀ s : State, s.spareDue = false → exec .spareScreen s = .next s) ∧
  (∀ (s : State) (d : Fin 4), s.pkg.pairs.contains true = true → s.fldB Reg.fltRecoveryCtrlRotateEn = true →
    s.lostDie d = false → s.stepRunning = true → s.flt.stopKind = none → s.flt.rotateDue.contains d.val = false →
    ∃ t, exec (.rotation d) s = .next t ∧ t.flt.rotateDue = s.flt.rotateDue ++ [d.val] ∧ t.regs = s.regs) ∧
  (∀ (s : State) (d : Fin 4) (k : Nat), s.pkg.pairs.contains true = true → s.fldB Reg.fltRecoveryCtrlRotateEn = true →
    s.lostDie d = false → s.unitsStopped = true → s.rotates d = false → (∀ j ∈ dieUnits d, (s.unit j).state ≠ stDue) →
    s.spareCluster d = true → s.oldestScreen ((s.clusterMap d).map (clusterKey d)) = some k → (s.unit k).state = stService →
    ∃ t, exec (.rotation d) s = .next t ∧ (t.unit k).state = stSump) ∧
  (∀ s : State, s.pkg.pairs.contains true = true →
    ∃ t, exec .screenStalled s = .next t ∧ t.fld Reg.fltRecoveryStatusScreenStalled = b2n (s.stalledDies != 0) ∧
      t.flt = s.flt)

/-- Strikes and windows of a unit (R374, R375, R378): a strike that its rule sends to Sump makes the unit enter Sump under the
limit of its kind and retires it at the limit, and changes no other unit; the oldest strike expires 720 power-on hours after
it occurred, and not before; the 24-hour count of corrected errors starts again; no other unit changes. -/
def Obligations.StrikesSumpRetireAndExpire : Prop :=
  (∀ (s : State) (k kind : Nat), (s.unit k).state = stService →
    ((s.strikeSump k kind).unit k).strikes = (s.unit k).strikes ++ [s.powerSeconds] ∧
    ((s.strikeSump k kind).unit k).state =
      (if (if kind = 0x0011 then 2 else 3) ≤ (s.unit k).strikes.length + 1 then stRetired else stSump) ∧
    (∀ j, j ≠ k → (s.strikeSump k kind).unit j = s.unit j) ∧ (s.strikeSump k kind).mem = s.mem) ∧
  (∀ (s : State) (k : BitVec 32) (t0 : Nat) (rest : List Nat), (s.unit k.toNat).strikes = t0 :: rest →
    ∃ t, exec (.strikeExpiry k) s = .next t ∧
      if t0 + 720 * 3600 ≤ s.powerSeconds then
        t.unit k.toNat = { s.unit k.toNat with strikes := rest } ∧ ∀ j, j ≠ k.toNat → t.unit j = s.unit j
      else t = s) ∧
  (∀ (s : State) (k : BitVec 32), keyExists k.toNat = true →
    ∃ t, exec (.corrected24hWindow k) s = .next t ∧ t.unit k.toNat = { s.unit k.toNat with corrected24 := 0 } ∧
      ∀ j, j ≠ k.toNat → t.unit j = s.unit j)

/-- A restore to a seam (R394) leaves the package at that seam: CFG.STEP is its step, no unit runs, no sequencer holds an
entry, no Grotto line or staging slot is in use, the copy restored is the step copy and undo banks of later steps are
gone. -/
def Obligations.RestoreReturnsToSeamOfCopy : Prop :=
  ∀ (s : State) (k : Nat) (c : StepCopy) (round : Bool),
    (s.restoreTo k c round).stepIndex = k % 2 ^ 64 ∧ (s.restoreTo k c round).stepRunning = false ∧
    (s.restoreTo k c round).cfg.run.atSeam = true ∧ (s.restoreTo k c round).dense = DenseState.init ∧
    (s.restoreTo k c round).emb.lines = [] ∧ (s.restoreTo k c round).emb.staged = [] ∧
    (s.restoreTo k c round).flt.copy = some c ∧
    (s.restoreTo k c round).flt.undo = s.flt.undo.filter (fun u => decide (u.step < k)) ∧
    (s.restoreTo k c round).chk.rounds = s.chk.rounds.filter fun r => decide (r < k)

/-- Recoveries run the steps of Tables 11.9, 11.12 and 11.13 (R393, R397 to R400, R413, R524), each in a package that is READY
and holds no unit command. A unit recovery ends the stop: its causes are gone, FLT.CNT[5] counts it, an outcome is shown, no
cluster in Sump or retired carries a logical one, and with no round to return to the package stays at its step, at the seam
of the step that was cut where that is restored. A die
reset counts in FLT.CNT[6]; where the logic's reset fails or a stack is lost the die is lost and the outcome is DIE_LOST; else
the die no longer waits for its reset, its counters start again at 0 and no Grotto line of it is cached, and with the last
such die an outcome is shown. A rollback during a recovery is noted for its restore; at any other time it ends with an outcome,
which leaves the package at the seam that the message names where state is held for it, and counts in FLT.CNT[7] whether or not
it is. An expulsion stops the step and marks the package expelled, whatever the outcome of its screens; under THERM_TRIP it
only stops the step (the model's choice, log entry 226). -/
def Obligations.RecoveriesRunTheirPhases : Prop :=
  (∀ (s : State) (fails : List (BitVec 32)) (ms : BitVec 32), s.pkg.pairs.contains true = true → s.pkg.ready = true →
    s.flt.stopKind = some 0 → s.pkg.thermTrip = false → s.flt.cmd = none →
    ∃ t, exec (.unitRecovery fails ms) s = .next t ∧ t.flt.stopKind = none ∧ t.flt.causes = [] ∧ t.flt.resetDies = [] ∧
      t.flt.rollbackTo = none ∧ t.reg (Reg.fltCnt 5) = s.reg (Reg.fltCnt 5) + 1 ∧
      t.fld Reg.fltRecoveryStatusOutcome ∈ [1, 2, 3, 4, 5] ∧
      (∀ (d : Fin 4) (c : Fin 16) (p : Nat), t.physCluster d c = some p → t.outOfMap (clusterKey d p) = false) ∧
      (s.flt.rollbackTo = none → s.flt.rounds = [] → t.reg Reg.cfgStep = s.reg Reg.cfgStep ∧
        (s.flt.before.2 = true → t.fld Reg.fltRecoveryStatusOutcome ≤ 2 → t.cfg.run.atSeam = true))) ∧
  (∀ (s : State) (d : Fin 4) (ok : Bool) (again screens : List (BitVec 32)) (lost : List (Fin 20)) (bad : List (BitVec 48))
    (ms : BitVec 32), s.pkg.pairs.contains true = true → s.pkg.ready = true → s.flt.stopKind = some 1 →
    s.flt.resetDies.contains d.val = true → s.pkg.thermTrip = false → s.flt.cmd = none →
    ∃ a t : State, a = ((s.setRecovery Reg.fltRecoveryStatusPhase 6).applyCauses.clearDieCounters d).resetStacks d
        (again.map BitVec.toNat) (lost.map Fin.val) (bad.map BitVec.toNat) ∧
      exec (.dieReset d ⟨ok, lost, bad⟩ again screens ms) s = .next t ∧
      t.reg (Reg.fltCnt 6) = s.reg (Reg.fltCnt 6) + 1 ∧
      (ok = false ∨ (∃ st ∈ lost, st.val / 5 = d.val) → s.lostDie d = false →
        t.lostDie d = true ∧ t.flt.stopKind = none ∧ t.fld Reg.fltRecoveryStatusOutcome = 5) ∧
      (ok = true → (∀ i < 5, a.fld (Reg.memStackStateState (5 * d + i)) ≠ 3) →
        ¬ t.flt.resetDies.contains d.val = true ∧ (∀ l ∈ t.emb.lines, l.die ≠ d.val) ∧
        (s.flt.resetDies.filter (fun x => x != d.val) ≠ [] → ∀ o, dieCounter d o = true → t.reg o = 0) ∧
        (s.flt.resetDies.filter (fun x => x != d.val) = [] → t.flt.stopKind = none ∧ t.flt.causes = [] ∧
          t.fld Reg.fltRecoveryStatusOutcome ∈ [1, 2, 3, 4, 5]))) ∧
  (∀ (s : State) (target : BitVec 64) (ms : BitVec 32), s.pkg.pairs.contains true = true → s.cfg.image.isSome = true →
    s.flt.stopKind = some 0 ∨ s.flt.stopKind = some 1 →
    ∃ t, exec (.rollback target ms) s = .next t ∧ t.flt = { s.flt with rollbackTo := some target.toNat } ∧ t.cfg = s.cfg ∧
      t.mem = s.mem) ∧
  (∀ (s : State) (target : BitVec 64) (ms : BitVec 32), s.pkg.pairs.contains true = true → s.cfg.image.isSome = true →
    s.pkg.ready = true → s.flt.stopKind = some 2 ∨ s.flt.stopKind = none → s.pkg.thermTrip = false → s.flt.cmd = none →
    ∃ t, exec (.rollback target ms) s = .next t ∧ t.flt.stopKind = none ∧ t.flt.causes = [] ∧ t.flt.rollbackTo = none ∧
      t.fld Reg.fltRecoveryStatusOutcome ∈ [1, 2, 3, 4, 5] ∧
      (t.fld Reg.fltRecoveryStatusOutcome ≤ 2 → t.reg Reg.cfgStep = target ∧ t.cfg.run.atSeam = true) ∧
      (t.fld Reg.fltRecoveryStatusOutcome ≤ 3 → t.reg (Reg.fltCnt 7) = s.reg (Reg.fltCnt 7) + 1)) ∧
  (∀ (s : State) (round : BitVec 64) (fails : List (BitVec 32)) (ms : BitVec 32), s.pkg.pairs.contains true = true →
    s.flt.cmd = none → s.pkg.thermTrip = false →
    ∃ t, exec (.expel round fails ms) s = .next t ∧ t.fleet.expelled = true ∧ t.fleet.members = s.fleet.members ∧
      t.stepRunning = false ∧ t.flt.stopKind = none ∧ t.flt.causes = [] ∧ t.chk.epochsIn = [] ∧
      t.flt.expulsions = (s.flt.expulsions.filter fun x => decide (s.powerSeconds < x + strikeWindow)) ++ [s.powerSeconds]) ∧
  (∀ (s : State) (round : BitVec 64) (fails : List (BitVec 32)) (ms : BitVec 32), s.pkg.pairs.contains true = true →
    s.pkg.thermTrip = true → s.flt.stopKind = none →
    ∃ t, exec (.expel round fails ms) s = .next t ∧ t.fleet.expelled = s.fleet.expelled ∧ t.stepRunning = false ∧
      t.flt.stopKind = some 0 ∧ t.mem = s.mem)

/-- Data and check tokens of another package (R348 to R352, R458): a data message for this package is written as it
arrives and counts towards its epoch; an epoch whose token has come commits when the bytes and the pip match, and is
poisoned when they do not; a commit that comes too late and a poison notice leave no uncommitted epoch, and a notice
stops a running step; the token of an epoch that has ended leaves once, with the epoch's count and pip. -/
def Obligations.PackageDataCommitsByToken : Prop :=
  (∀ (s : State) (l : Fin 16) (m : DataMsg), m.data ≠ [] → s.obcUp l = true → m.dest.toNat = s.fleetIndex →
    s.meetsPartition m.addr.toNat m.data.length = false → s.inImageBuffer m.addr.toNat m.data.length = false →
    s.writable m.addr.toNat m.data.length = true → (s.epochIn m.src.toNat m.epoch.toNat).token = none →
    ∃ t, exec (.obcorDataReceive l m) s = .next t ∧ t.read m.addr.toNat m.data.length = m.data ∧
      (∀ x, x < m.addr.toNat ∨ m.addr.toNat + m.data.length ≤ x → t.byte x = s.byte x) ∧
      (t.epochIn m.src.toNat m.epoch.toNat).count =
        (s.epochIn m.src.toNat m.epoch.toNat).count + m.data.length) ∧
  (∀ (s : State) (l : Fin 16) (src dest : BitVec 13) (epoch : BitVec 32) (count pip : BitVec 64), s.obcUp l = true →
    dest.toNat ≠ s.fleetIndex →
    ∃ t, exec (.checkTokenReceive l ⟨src, dest⟩ epoch count pip) s = .next t ∧ t.mem = s.mem ∧
      t.chk.epochsIn = s.chk.epochsIn) ∧
  (∀ (s : State) (l : Fin 16) (src dest : BitVec 13) (epoch : BitVec 32) (count pip : BitVec 64), s.obcUp l = true →
    dest.toNat = s.fleetIndex →
    ∃ t, exec (.checkTokenReceive l ⟨src, dest⟩ epoch count pip) s = .next t ∧ t.mem = s.mem ∧
      ((s.epochIn src.toNat epoch.toNat).count < count.toNat →
        (t.epochIn src.toNat epoch.toNat).token = some (count.toNat, pip.toNat)) ∧
      ((s.epochIn src.toNat epoch.toNat).count = count.toNat → (s.epochIn src.toNat epoch.toNat).wholePip = pip.toNat →
        t.chk.epochsIn = s.chk.epochsIn.filter (fun x => !(x.peer == src.toNat && x.epoch == epoch.toNat)) ∧
        t.reg (Reg.chkCnt 7) = s.reg (Reg.chkCnt 7) + 1) ∧
      ((s.epochIn src.toNat epoch.toNat).count = count.toNat → (s.epochIn src.toNat epoch.toNat).wholePip ≠ pip.toNat →
        t.chk.epochsIn = []) ∧
      (count.toNat < (s.epochIn src.toNat epoch.toNat).count → t.chk.epochsIn = [])) ∧
  (∀ (s : State) (src : BitVec 13) (epoch : BitVec 32),
    s.chk.epochsIn.any (fun x => x.peer == src.toNat && x.epoch == epoch.toNat) = true →
    ∃ t, exec (.commitTimeout src epoch) s = .next t ∧ t.chk.epochsIn = [] ∧ t.mem = s.mem ∧
      (s.stepRunning = true → t.stepRunning = false)) ∧
  (∀ (s : State) (l : Fin 16) (sender reporter : BitVec 13) (epoch : BitVec 32) (step : BitVec 64) (cause : BitVec 8),
    s.obcUp l = true →
    ∃ t, exec (.poisonNotice l sender reporter epoch step cause) s = .next t ∧ t.chk.epochsIn = [] ∧
      t.chk.poisonNoted = true ∧ t.mem = s.mem ∧
      (s.stepRunning = true → s.flt.stopKind = none → t.stepRunning = false ∧ t.flt.stopKind = some 0)) ∧
  (∀ (s : State) (dest : BitVec 13) (epoch : BitVec 32) (e : EpochState),
    s.chk.epochsOut.find? (fun x => x.peer == dest.toNat && x.epoch == epoch.toNat) = some e →
    s.epochOver epoch.toNat = true → (∀ k ∈ e.tiles, s.chk.twinPending.contains k = false) → e.parityOk = true →
    ∃ t, exec (.checkTokenSend dest epoch true) s = .next t ∧
      t.chk.epochsOut.any (fun x => x.peer == dest.toNat && x.epoch == epoch.toNat) = false ∧
      t.chk.tokens = s.chk.tokens ++ [(dest.toNat, epoch.toNat, e.count, e.wholePip)] ∧
      t.reg (Reg.chkCnt 6) = s.reg (Reg.chkCnt 6) + 1)

/-- Records and software rings (R358, R359, R365, R435): a waiting CORRECTED record is queued where there is room; once
room frees after records were dropped one RECORDS_LOST record is queued and LOST is set; a TAIL write takes the value
written unless it would pass HEAD, and then TAIL becomes HEAD. -/
def Obligations.RecordsQueueAndTailsFollowHead : Prop :=
  (∀ (s : State) (kind : BitVec 16) (unitP : BitVec 32) (r : ErrRecord),
    s.chk.waiting.find? (fun r => r.kind == kind.toNat && r.unitP == unitP.toNat) = some r →
    s.chk.queue.length < hubQueueDepth → s.chk.held = [] → s.chk.lost = 0 →
    ∃ t, exec (.correctedRecordSend kind unitP) s = .next t ∧ t.chk.waiting = s.chk.waiting.erase r ∧
      t.chk.queue = s.chk.queue ++ [{ r with sequence := s.chk.nextSeq }] ∧
      t.chk.nextSeq = (s.chk.nextSeq + 1) % 2 ^ 32) ∧
  (∀ s : State, s.chk.lost ≠ 0 → s.chk.queue.length < hubQueueDepth →
    ∃ t, exec .recordsLost s = .next t ∧ t.chk.lost = 0 ∧ t.fld Reg.chkErrStatusLost = 1 ∧
      s.chk.queue.length < t.chk.queue.length ∧ t.chk.queue.length ≤ hubQueueDepth) ∧
  (∀ (s : State) (v : Word), s.pkg.ready = true →
    ∃ t, exec (.errTailWrite v) s = .next t ∧
      t.fld Reg.chkErrTailTail =
        (if (s.fld Reg.chkErrHeadHead + 2 ^ 32 - s.fld Reg.chkErrTailTail) % 2 ^ 32 <
            (v.toNat % 2 ^ 32 + 2 ^ 32 - s.fld Reg.chkErrTailTail) % 2 ^ 32
          then s.fld Reg.chkErrHeadHead else v.toNat % 2 ^ 32) ∧
      t.fldB Reg.chkErrStatusFull = t.errFull) ∧
  (∀ (s : State) (v : Word), s.pkg.ready = true →
    ∃ t, exec (.traceTailWrite v) s = .next t ∧
      t.fld Reg.detTraceTailTail =
        (if (s.fld Reg.detTraceHeadHead + 2 ^ 32 - s.fld Reg.detTraceTailTail) % 2 ^ 32 <
            (v.toNat % 2 ^ 32 + 2 ^ 32 - s.fld Reg.detTraceTailTail) % 2 ^ 32
          then s.fld Reg.detTraceHeadHead else v.toNat % 2 ^ 32) ∧
      ∀ k, k ≠ Reg.detTraceTail → t.reg k = s.reg k)

/-- The verdict of an echo round (R354, R390): AGREE while a step runs shows the agreed step and makes the round's slot
the agreed one; ODD and SPLIT end the round and stop a loaded job for what follows. -/
def Obligations.EchoVerdictEndsRound : Prop :=
  (∀ (s : State) (step : BitVec 64) (replicas : Nat), s.stepRunning = true →
    ∃ t, exec (.verdict 1 step replicas) s = .next t ∧ t.reg Reg.chkEchoAgreed = step ∧
      t.fld Reg.chkEchoStatusVerdict = 1 ∧ t.chk.rounds = s.chk.rounds.drop 1 ∧
      (s.flt.rounds.any (fun x => x.step == step.toNat + 1) = true →
        ∀ x ∈ t.flt.rounds, x.agreed = true → x.step = step.toNat + 1)) ∧
  (∀ (s : State) (code : BitVec 2) (step : BitVec 64) (replicas : Nat), code = 2 ∨ code = 3 →
    ∃ t, exec (.verdict code step replicas) s = .next t ∧ t.chk.rounds = s.chk.rounds.drop 1 ∧
      t.reg Reg.chkEchoAgreed = s.reg Reg.chkEchoAgreed ∧
      (s.cfg.image.isSome = true → t.stepRunning = false ∧ ∃ k, t.flt.stopKind = some k ∧ 2 ≤ k))

/-- Agents' accesses to memory (R99, R201, R202, R340, R440, R455, R520): a write to a writable, unprotected place stores its
bytes and nothing else, marked where the write is poisoned; a write into the loaded image's buffer by anyone but the steward, or
into a Grotto table partition, stores nothing and is answered with an error, as is every access to a place that the agent does
not reach; a read of an unpoisoned place in tier 1, tier 2 or a scratchpad returns its bytes, and one that meets poison returns
an error (reads are stated where they meet no new error and no twin comparison is outstanding for the place). -/
def Obligations.AgentWritesStoreOrAreDenied : Prop :=
  (∀ (s : State) (ag : Agent) (a : Addr) (data : List Byte) (bad : Bool), data ≠ [] → s.answers ag = true → (∀ o, s.region a.toNat ≠ .register o) → s.region a.toNat ≠ .nts → s.region a.toNat ≠ .outbound →
    (s.reaches ag a.toNat data.length = true → s.meetsPartition a.toNat data.length = false →
      s.inImageBuffer a.toNat data.length = false ∨ ag = .steward → s.writable a.toNat data.length = true →
      ∃ t, exec (.protectedWrite ag a ⟨data, bad⟩) s = .next t ∧
        (bad = false → ∀ n es, exec (.dieWindowAccess ag a n ⟨.map, some data, es⟩) s = .next t) ∧
        t.read a.toNat data.length = data ∧ t.response = .ok 0 ∧
        (bad = true → t.isPoisoned a.toNat data.length = true) ∧
        (∀ x, x < a.toNat ∨ a.toNat + data.length ≤ x → t.byte x = s.byte x) ∧ t.regs = s.regs ∧ t.chk = s.chk) ∧
    (s.reaches ag a.toNat data.length = true →
      s.meetsPartition a.toNat data.length = true ∨ (s.inImageBuffer a.toNat data.length = true ∧ ag ≠ .steward) →
      ∃ t, exec (.protectedWrite ag a ⟨data, bad⟩) s = .next t ∧
        (bad = false → ∀ n es, exec (.dieWindowAccess ag a n ⟨.map, some data, es⟩) s = .next t) ∧
        t.mem = s.mem ∧ t.response = errorResponse ag) ∧
    (s.reaches ag a.toNat data.length = false →
      exec (.protectedWrite ag a ⟨data, bad⟩) s = .next (s.respond (errorResponse ag)) ∧
      (bad = false → ∀ n es, exec (.dieWindowAccess ag a n ⟨.map, some data, es⟩) s =
        .next (s.respond (errorResponse ag))))) ∧
  (∀ (s : State) (ag : Agent) (a : Addr) (acc : MapAccess), s.held = true ∨ (s.pkg.halted = true ∧ ag ≠ .i3c) →
    ∃ t, exec (.dieWindowAccess ag a 8 acc) s = .next t ∧ t.mem = s.mem ∧ t.regs = s.regs ∧
      t.response = errorResponse ag) ∧
  (∀ (s : State) (ag : Agent) (a : Addr) (n : Nat), 1 ≤ n → n ≤ 64 → s.answers ag = true → s.reaches ag a.toNat n = true →
    s.awaitsTwin a.toNat n = false →
    ((s.region a.toNat = .tier1 ∧ inTier1 a.toNat n = true) ∨ (s.region a.toNat = .tier2 ∧ s.inTier2 a.toNat n = true) ∨
      ∃ d off k core o, s.region a.toNat = .window d off ∧ s.windowPlace d off = .scratchpad k core o ∧
        s.writable a.toNat n = true) →
    ∃ t, exec (.dieWindowAccess ag a n ⟨.map, none, []⟩) s = .next t ∧ t.mem = s.mem ∧ t.mm = s.mm ∧
      t.response =
        if s.isPoisoned a.toNat n then (match ag with | .pcie => .poisoned | _ => .busError)
        else .ok (BitVec.ofNat 512 (leNat (s.read a.toNat n))))

/-- Upkeep of the memories (R218, R220, R221, R227): a writeback ends the wait of its line; a refresh window shows its stack's
temperature, and a clean patrol read in it moves the patrol of tier 1 one line on, wrapping at the end of the array, and changes
no byte; a window of another stack leaves the patrol alone; a clean visit of the SRAM scrub keeps the list of units that are
behind. -/
def Obligations.MemoryUpkeepAdvances : Prop :=
  (∀ (s : State) (k : MemKind) (a : Nat), ∃ t, exec (.eccWriteback k a) s = .next t ∧
    t.mm.writebacks = s.mm.writebacks.erase (k, a) ∧ t.mem = s.mem ∧ t.mm.lineMeta = s.mm.lineMeta) ∧
  (∀ (s : State) (ch : Fin 36) (temp : BitVec 16), ch.val < 20 →
    ∃ t, exec (.refreshWindow ch ⟨temp, .clean, .clean⟩) s = .next t ∧ t.mem = s.mem ∧
      t.fld (Reg.memStackStateTemp ch) = temp.toNat ∧
      if (s.stackOf (s.mm.patrol1.1 * 64)).1 = ch then
        t.mm.patrol1 =
          if s.mm.patrol1.1 + 1 < tier1Size / 64 then (s.mm.patrol1.1 + 1, s.mm.patrol1.2)
          else (0, s.mm.patrol1.2.1 + 1, s.fld Reg.memScrubCtrlT1Hours)
      else t.mm = s.mm) ∧
  (∀ (s : State) (key : BitVec 32), ∃ t, exec (.sramScrub key true .clean) s = .next t ∧
    t.mm.behind.contains key.toNat = true ∧ t.mem = s.mem ∧ t.regs = s.regs) ∧
  (∀ (s : State) (key : BitVec 32), ∃ t, exec (.sramScrub key false .clean) s = .next t ∧
    t.mm.behind = s.mm.behind.erase key.toNat ∧ t.mem = s.mem ∧ t.regs = s.regs)

/-- The canonical mapping (R31), for `n` physical children of which `a` are active: a logical index whose own physical child is
not retired keeps it; one whose child is retired, with r retired children before it, takes the spare (a child from `a` on that
is not retired) that has r spares before it, and none where there are at most r spares. No retired unit is used, and no unit
twice. -/
def Obligations.CanonicalMapFollowsRetiredSet : Prop :=
  ∀ (n a : Nat) (retired : Nat → Bool), a ≤ n →
    (canonicalMap n a retired).length = a ∧
    (∀ i < a, retired i = false → (canonicalMap n a retired)[i]? = some (some i)) ∧
    (∀ i < a, retired i = true → ∀ p : Nat, (canonicalMap n a retired)[i]? = some (some p) ↔
      a ≤ p ∧ p < n ∧ retired p = false ∧
        (List.range p).countP (fun q => decide (a ≤ q) && !retired q) = (List.range i).countP retired) ∧
    (∀ i < a, retired i = true → ((canonicalMap n a retired)[i]? = some none ↔
      (List.range n).countP (fun q => decide (a ≤ q) && !retired q) ≤ (List.range i).countP retired)) ∧
    (∀ i j p : Nat, (canonicalMap n a retired)[i]? = some (some p) → (canonicalMap n a retired)[j]? = some (some p) → i = j)

/-- Core sequencers (R128, R197): the next entry of a core issues where its event is set, its engines are free, no
earlier entry orders it through a weight and no weight stash or trace hold keeps it back; a chunk of a read stream is
requested while a ring slot is free, an arriving chunk without an error goes to its slot and to the stream, and a full chunk of a write stream goes
through its ring slot to its place in memory, unless that meets the loaded image's buffer (R99). -/
def Obligations.EntriesIssueAndStreamsMove : Prop :=
  (∀ (s : State) (d : Fin 4) (c : Fin 16) (k : Fin 8) (x : Ent),
    s.entryAt d c k (s.seq (coreCode d c k)).next = some x → x.die = d.val → x.cl = c.val → x.core = k.val →
    s.stepRunning = true → s.mayIssue d = true → s.waitOk x.e.wait = true → s.enginesBusy x = false →
    s.weightBusy x = false → s.staleOf x = none → s.stashWait x = none → s.traceOn = false →
    ∃ t, exec (.scheduleEntryIssue d c k) s = .next t ∧ t.mem = s.mem ∧ t.cfg = s.cfg ∧
      t.seq (coreCode d c k) =
        ⟨(s.seq (coreCode d c k)).next + 1, (s.seq (coreCode d c k)).inFlight ++ [x.idx]⟩) ∧
  (∀ (s : State) (d : Fin 4) (c : Fin 16) (k : Fin 8) (st : Fin 16) (x : StreamD), s.streamD d c k st = some x →
    s.stepRunning = true → x.dir = 0 → (s.stream (streamKey d c k st)).issued < x.total →
    (s.stream (streamKey d c k st)).held x.chunk < x.depth →
    ∃ t, exec (.streamChunkRead d c k st) s = .next t ∧
      t.stream (streamKey d c k st) =
        { s.stream (streamKey d c k st) with issued := (s.stream (streamKey d c k st)).issued + 1 }) ∧
  (∀ (s : State) (d : Fin 4) (c : Fin 16) (k : Fin 8) (st : Fin 16) (x : StreamD), s.streamD d c k st = some x →
    s.stepRunning = true → x.dir = 0 →
    (s.stream (streamKey d c k st)).arrived < (s.stream (streamKey d c k st)).issued →
    s.isPoisoned (x.chunkAddr (s.stream (streamKey d c k st)).arrived) x.chunk = false →
    ∃ t, exec (.streamChunkArrive d c k st []) s = .next t ∧
      t.stream (streamKey d c k st) = { s.stream (streamKey d c k st) with
        arrived := (s.stream (streamKey d c k st)).arrived + 1
        buf := (s.stream (streamKey d c k st)).buf ++
          s.read (x.chunkAddr (s.stream (streamKey d c k st)).arrived) x.chunk } ∧
      t.read (x.slotAddr (s.stream (streamKey d c k st)).arrived) x.chunk =
        s.read (x.chunkAddr (s.stream (streamKey d c k st)).arrived) x.chunk) ∧
  (∀ (s : State) (d : Fin 4) (c : Fin 16) (k : Fin 8) (st : Fin 16) (x : StreamD), s.streamD d c k st = some x →
    s.stepRunning = true → x.dir = 1 → (s.stream (streamKey d c k st)).written < x.total →
    x.chunk ≤ (s.stream (streamKey d c k st)).buf.length →
    s.inImageBuffer (x.chunkAddr (s.stream (streamKey d c k st)).written) x.chunk = false →
    ∃ t, exec (.streamChunkWrite d c k ⟨st, []⟩) s = .next t ∧
      t.stream (streamKey d c k st) = { s.stream (streamKey d c k st) with
        written := (s.stream (streamKey d c k st)).written + 1
        buf := (s.stream (streamKey d c k st)).buf.drop x.chunk } ∧
      t.read (x.chunkAddr (s.stream (streamKey d c k st)).written) x.chunk =
        (s.stream (streamKey d c k st)).buf.take x.chunk)

/-- An entry completes (R83, R85, R128, R343, R344): where its operands have arrived it leaves its sequencer and sets its
event, also where an error escapes the residues (stated for entries that exchange nothing and have no write stream to wait for);
one whose check fails leaves its sequencer, stops the step and charges the unit on the failing path; a twin comparison that
passes is no longer outstanding, and one that fails stops the step and charges both engines. -/
def Obligations.EntriesCompleteOrStopStep : Prop :=
  (∀ (s : State) (d : Fin 4) (c : Fin 16) (k : Fin 8) (n : Nat) (x : Ent) (fault : Option (Fin 8 × CheckFault)),
    s.entryAt d c k n = some x → s.stepRunning = true → (s.seq (coreCode d c k)).inFlight.contains n = true →
    s.dense.draining.contains (coreCode d c k) = false → x.e.op ≠ 0x11 → s.streamsReady x = true →
    (∀ f ∈ fault, faultBlind f.2 = true) →
    (x.last = true → ∀ y ∈ (s.diePlan d).streams, y.core = coreCode d c k → y.dir = 0) →
    ∃ t, exec (.entryComplete d c k n ⟨fault, []⟩) s = .next t ∧ t.stepRunning = true ∧
      ¬ (t.seq (coreCode x.die x.cl x.core)).inFlight.contains x.idx = true ∧
      (x.e.signal ≠ 0xFFFF → t.dense.events.contains (eventKey d x.e.signal) = true)) ∧
  (∀ (s : State) (d : Fin 4) (c : Fin 16) (k : Fin 8) (n : Nat) (x : Ent) (e : Fin 8) (f : CheckFault),
    s.entryAt d c k n = some x → s.stepRunning = true → (s.seq (coreCode d c k)).inFlight.contains n = true →
    s.dense.draining.contains (coreCode d c k) = false → faultBlind f = false →
    ∃ t, exec (.entryComplete d c k n ⟨some (e, f), []⟩) s = .next t ∧ t.stepRunning = false ∧ t.mem = s.mem ∧
      ¬ (t.seq (coreCode x.die x.cl x.core)).inFlight.contains x.idx = true ∧
      ⟨(s.faultUnit x e f).2, (faultRecord 0 f).1, none⟩ ∈ t.flt.causes) ∧
  (∀ (s : State) (d : Fin 4) (c : Fin 16) (k : Fin 8) (e : Fin 8) (p : Nat × Nat × Nat × Nat),
    s.chk.twinPending.find? (fun p => p.1 == coreCode d c k && p.2.2.1 == e.val) = some p →
    ∃ t, exec (.twinComparison d c k e none) s = .next t ∧ t.chk.twinPending = s.chk.twinPending.erase p ∧
      t.mem = s.mem ∧ t.regs = s.regs) ∧
  (∀ (s : State) (d : Fin 4) (c : Fin 16) (k : Fin 8) (e : Fin 8) (p : Nat × Nat × Nat × Nat) (x : Ent)
      (m : BitVec 6 × Bool × BitVec 16),
    s.chk.twinPending.find? (fun p => p.1 == coreCode d c k && p.2.2.1 == e.val) = some p →
    s.entryAt d c k p.2.1 = some x →
    ∃ t, exec (.twinComparison d c k e (some m)) s = .next t ∧ t.stepRunning = false ∧ t.mem = s.mem ∧
      ⟨unitKey 1 (s.physOf (engineCode d c k e)), 0x0020, none⟩ ∈ t.flt.causes ∧
      ⟨unitKey 1 (s.physOf (engineCode d c k ((e.val + 1) % 8))), 0x0020, none⟩ ∈ t.flt.causes)

/-- Press jobs (R165, R166, R169, R171, R178, R181), each without a memory error or a fault. A LOOKUP that issues begins its
scan, sends its indices and, where the other packages' are committed and its offsets and indices are in range, runs and
keeps its sorted list. A COMBINE with the other packages' gradients committed sends parts of its own table, die and rows to
the owners of their rows. A part that arrives joins its row's gathered parts, or takes the next slot of the pending area;
the slot holds the row's index and its gradient so far, and no byte outside the slot changes; with no slot left the step
stops with record 0x0063 (R171). An UPDATE under STALENESS 0 of a cluster that owns the one gathered row, and the pending
bank of a step before under STALENESS 1, write that row's new record at home, mark it applied and, with the checkpoint off,
change no other byte; the UPDATE under STALENESS 1 starts and writes nothing. A job that runs and waits for nothing
completes: the cluster stands at its next job and its event is set. -/
def Obligations.PressJobsRunAndComplete : Prop :=
  (∀ (s a : State) (d : Fin 4) (c : Fin 16) (j : Job) (t : TableD) (dt : Tensor), s.readyJob d c 1 = some j →
    s.table j.table = some t → findTensor s.tensors j.data = some dt → a = (s.scanAhead d j []).1.sendIndices t j →
    a.indicesHere t j.mb = true → a.badOffset s.tensors t j = none → a.lookupFault s.tensors t j = none →
    ∃ u, exec (.lookup d c [] none) s = .next u ∧ u.press d c = ⟨(s.press d c).next, true, false⟩ ∧
      u.cfg.image = s.cfg.image ∧ Tab.get [] (sortKey d j.sort) u.emb.sorted = sortPairs (a.lookupList s.tensors t j)) ∧
  (∀ (s : State) (d : Fin 4) (c : Fin 16) (j : Job) (t : TableD) (dt : Tensor), s.readyJob d c 2 = some j →
    s.table j.table = some t → findTensor s.tensors j.data = some dt → s.gradsHere s.tensors t j dt d = true →
    ∃ u, exec (.combine ⟨d, c⟩ ⟨[], none⟩) s = .next u ∧ u.press d c = ⟨(s.press d c).next, true, false⟩ ∧
      ∃ new : List PartMsg, u.emb.parts = s.emb.parts ++ new ∧
        ∀ p ∈ new, p.die = d.val ∧ p.table = j.table ∧ p.owner = s.ownerOf p.row ∧ p.row ≠ nullRow ∧ 0 < p.occurrences ∧
          p.row ∈ (Tab.get [] (sortKey d j.sort) s.emb.sorted).map Prod.fst) ∧
  (∀ (s : State) (d : Fin 4) (c : Fin 16) (p : PartMsg) (t : TableD) (g h : GradRow),
    s.emb.parts.find? (fun p => p.die == d.val && p.owner == c.val) = some p → s.table p.table = some t →
    (Tab.find p.row (s.bank d p.table).rows = some g ∨ Tab.find p.row (s.bank d p.table).rows = none ∧
      (s.bank d p.table).rows.length < t.uniqueMax ∧ g = ⟨(s.bank d p.table).rows.length, 0, [], false, false⟩) →
    h = ⟨g.slot, g.occurrences + p.occurrences, g.parts ++ [(p.lo, p.size, p.values)], g.bad || p.bad, g.applied⟩ →
    16 + 4 * (h.root t.keyBits).length ≤ t.pendSlot →
    s.inImageBuffer (t.bankAddr d s.stepIndex + g.slot * t.pendSlot) t.pendSlot = false →
    ∃ u, exec (.ownerPartArrival d c) s = .next u ∧ u.emb.parts = s.emb.parts.erase p ∧
      Tab.find p.row (u.bank d p.table).rows = some h ∧
      u.read (t.bankAddr d s.stepIndex + g.slot * t.pendSlot) (8 + 4 * (h.root t.keyBits).length) =
        toLe 8 p.row ++ (h.root t.keyBits).flatMap (toLe 4) ∧
      ∀ x, x < t.bankAddr d s.stepIndex + g.slot * t.pendSlot ∨
        t.bankAddr d s.stepIndex + g.slot * t.pendSlot + t.pendSlot ≤ x → u.byte x = s.byte x) ∧
  (∀ (s : State) (d : Fin 4) (c : Fin 16) (p : PartMsg) (t : TableD),
    s.emb.parts.find? (fun p => p.die == d.val && p.owner == c.val) = some p → s.table p.table = some t →
    Tab.find p.row (s.bank d p.table).rows = none → t.uniqueMax ≤ (s.bank d p.table).rows.length →
    ∃ u, exec (.ownerPartArrival d c) s = .next u ∧ u.stepRunning = false ∧ u.emb.parts = s.emb.parts.erase p ∧
      u.flt.causes = s.flt.causes ++ [⟨0, 0x0063, none⟩] ∧ u.flt.stopKind = some (s.flt.stopKind.getD 0)) ∧
  (∀ (s : State) (d : Fin 4) (c : Fin 16) (j : Job) (t : TableD) (o : OptD) (row : Nat) (g : GradRow),
    s.readyJob d c 3 = some j → s.table j.table = some t → t.idx = j.table → c.val < s.imageClusters → t.staleness = 0 →
    s.embD.opts[t.opt]? = some o → o.kind ≠ 1 → s.gradsComplete d t.idx = true → s.chk.twinPending = [] →
    (s.bank d t.idx).rows = [(row, g)] → s.ownerOf row = c.val → g.applied = false → g.bad = false →
    (s.lrRange o (s.embD.t0 + (s.bank d t.idx).step)).any (fun r => s.isPoisoned r.1 r.2) = false →
    s.isPoisoned (t.rowAddr s.embD d row) (s.embD.stride t) = false → s.lineOf d t.idx row = none →
    s.stagedAddr d t.idx row t = none →
    ∃ (u : State) (r : List Byte), r = (s.newRecord t (s.optPass s.tensors o o.lr (s.embD.t0 + (s.bank d t.idx).step)) d row
        (s.bank d t.idx).step (g.root t.keyBits) 0).1 ∧
      exec (.update d c ⟨[], none⟩) s = .next u ∧ u.press d c = ⟨(s.press d c).next, true, false⟩ ∧
      u.read (t.rowAddr s.embD d row) r.length = r ∧ (u.bank d t.idx).rows = [(row, { g with applied := true })] ∧
      (s.fldB Reg.fltCkptCtrlEnable = false →
        ∀ x, x < t.rowAddr s.embD d row ∨ t.rowAddr s.embD d row + r.length ≤ x → u.byte x = s.byte x)) ∧
  (∀ (s : State) (d : Fin 4) (c : Fin 16) (j : Job) (t : TableD), s.readyJob d c 3 = some j →
    s.table j.table = some t → t.staleness ≠ 0 →
    ∃ u, exec (.update d c ⟨[], none⟩) s = .next u ∧ u.press d c = ⟨(s.press d c).next, true, false⟩ ∧ u.mem = s.mem ∧
      u.emb.banks = s.emb.banks ∧ u.emb.prev = s.emb.prev) ∧
  (∀ (s : State) (d : Fin 4) (n : Fin 256) (t : TableD) (o : OptD) (k row : Nat) (g : GradRow),
    s.table n = some t → t.idx = n.val → t.staleness = 1 → s.stepRunning = true → s.jobsRetired d 1 n = true →
    s.embD.opts[t.opt]? = some o → o.kind ≠ 1 → Tab.find (bankKey d n) s.emb.prev = some ⟨k, [(row, g)]⟩ →
    s.ownerOf row < s.imageClusters → s.updateIssued d (s.ownerOf row) n = true → g.applied = false → g.bad = false →
    (s.lrRange o (s.embD.t0 + k)).any (fun r => s.isPoisoned r.1 r.2) = false →
    s.isPoisoned (t.rowAddr s.embD d row) (s.embD.stride t) = false → s.lineOf d n row = none →
    s.stagedAddr d n row t = none →
    ∃ (u : State) (r : List Byte),
      r = (s.newRecord t (s.optPass s.tensors o o.lr (s.embD.t0 + k)) d row k (g.root t.keyBits) 0).1 ∧
      exec (.pendingBankApply d ⟨n, [], none⟩) s = .next u ∧ u.read (t.rowAddr s.embD d row) r.length = r ∧
      Tab.find (bankKey d n) u.emb.prev = some ⟨k, [(row, { g with applied := true })]⟩ ∧
      (s.fldB Reg.fltCkptCtrlEnable = false →
        ∀ x, x < t.rowAddr s.embD d row ∨ t.rowAddr s.embD d row + r.length ≤ x → u.byte x = s.byte x)) ∧
  (∀ (s : State) (d : Fin 4) (c : Fin 16) (j : Job), (s.plan d c).jobs[(s.press d c).next]? = some j →
    s.stepRunning = true → (s.press d c).running = true → (s.press d c).waiting = false →
    (j.kind = 1 → ∀ t, s.table j.table = some t → s.outputsHere t j d = true) →
    (j.kind = 3 → ∀ t, s.table j.table = some t → s.rowsApplied t d c = true) →
    (j.kind = 4 → (s.nts j.table).waits = false) →
    ∃ u, exec (.pressJobComplete d c) s = .next u ∧ u.press d c = ⟨(s.press d c).next + 1, false, false⟩ ∧
      (j.kind = 1 ∨ j.kind = 2 → u.mem = s.mem) ∧
      (j.signal ≠ 0xFFFF → u.dense.events.contains (eventKey d j.signal) = true))

/-- The optimizer writes a row (R178, R206, R387): an unpoisoned row that no Grotto line and no staging slot holds gets
its new record at home; no other byte changes, but those of the die's checkpoint area under checkpoints (which it lays out
as it will: log entry 94); under checkpoints its pre-image is kept first. -/
def Obligations.RowUpdateWritesHomeRecord : Prop :=
  ∀ (s : State) (t : TableD) (p : OptPass) (d : Fin 4) (row step : Nat) (g : GradRow) (t2 : Nat), g.bad = false →
    (s.lrRange p.o (s.embD.t0 + step)).any (fun r => s.isPoisoned r.1 r.2) = false →
    s.isPoisoned (t.rowAddr s.embD d row) (s.embD.stride t) = false → s.lineOf d t.idx row = none →
    s.stagedAddr d t.idx row t = none →
    (s.updateRow t p d row step g t2 none).read (t.rowAddr s.embD d row)
        (s.newRecord t p d row step (g.root t.keyBits) t2).1.length =
      (s.newRecord t p d row step (g.root t.keyBits) t2).1 ∧
    (∀ x, x < t.rowAddr s.embD d row ∨
        t.rowAddr s.embD d row + (s.newRecord t p d row step (g.root t.keyBits) t2).1.length ≤ x →
      s.fldB Reg.fltCkptCtrlEnable = false ∨ x < s.fld (Reg.fltCkptBaseBase d) ∨
        s.fld (Reg.fltCkptBaseBase d) + s.fld (Reg.fltCkptNeedNeed d) ≤ x →
      (s.updateRow t p d row step g t2 none).byte x = s.byte x) ∧
    (s.fldB Reg.fltCkptCtrlEnable = true →
      (s.updateRow t p d row step g t2 none).flt.undo.any (fun u => u.die == d && u.table == t.idx && u.row == row &&
        u.step == s.stepIndex) = true)

/-- Serving slots (R183 to R185, R188, R206): an EXPORT of unpoisoned rows, with the other packages' columns committed,
writes its die's columns into the inactive region, or waits with its data while a frame holds that region and writes them
when none does; when it completes the version counts up, the region holds a completed export and, with AUTO_SWITCH, the
regions exchange; SWITCH and REVERT exchange the regions or report their code and change no slot; a Grotto copy that
returns is written into its line, which is then Cached. -/
def Obligations.ServingSlotsExportAndSwitch : Prop :=
  (∀ (s : State) (d : Fin 4) (c : Fin 16) (j : Job) (sd : NtsD) (t : TableD), s.readyJob d c 4 = some j →
    s.slotD j.table = some sd → s.table sd.table = some t → s.exportBad sd t d = false →
    s.columnsHere j.table sd t d = true → ((s.nts j.table).export_ = none ∨ s.stepIndex ≤ (s.nts j.table).step) →
    ∃ u, exec (.exportJob ⟨d, c⟩ ⟨[], none⟩) s = .next u ∧ u.press d c = ⟨(s.press d c).next, true, false⟩ ∧
      (u.nts j.table).export_ = some (d.val, c.val) ∧
      (u.nts j.table).active = (s.nts j.table).active ∧ (u.nts j.table).step = s.stepIndex ∧
      if s.ntsHolders j.table (1 - (s.nts j.table).active) = 0 then
        (u.nts j.table).waits = false ∧
        u.mem = (((s.nts j.table).data ++ s.exportCells j.table sd t d).foldl (fun (s : State) p =>
          s.write (sd.regionAddr (1 - (s.nts j.table).active) + p.1) p.2) s).mem
      else (u.nts j.table).waits = true ∧
        (u.nts j.table).data = (s.nts j.table).data ++ s.exportCells j.table sd t d ∧ u.mem = s.mem) ∧
  (∀ (s : State) (slot : Fin 64) (sd : NtsD), s.slotD slot = some sd → (s.nts slot).waits = true →
    s.ntsHolders slot (1 - (s.nts slot).active) = 0 →
    ∃ u, exec (.exportRegionWritable slot) s = .next u ∧ (u.nts slot).waits = false ∧
      (u.nts slot).data = [] ∧
      u.mem = ((s.nts slot).data.foldl (fun (s : State) p =>
        s.write (sd.regionAddr (1 - (s.nts slot).active) + p.1) p.2) s).mem) ∧
  (∀ (s : State) (slot : Fin 64) (sd : NtsD), s.slotD slot = some sd → (s.nts slot).export_.isSome = true →
    (s.nts slot).waits = false → (s.nts slot).step < s.stepIndex →
    ∃ u, exec (.exportComplete slot) s = .next u ∧ (u.nts slot).export_ = none ∧
      (u.nts slot).count = ((s.nts slot).count + 1) % 2 ^ 32 ∧
      (u.nts slot).active = (if bit sd.flags 0 then 1 - (s.nts slot).active else (s.nts slot).active) ∧
      (if (s.nts slot).active = 0 then (u.nts slot).versionB else (u.nts slot).versionA) =
        ((s.nts slot).count + 1) % 2 ^ 32 ∧
      (if (s.nts slot).active = 0 then (u.nts slot).fullB else (u.nts slot).fullA) = true) ∧
  (∀ (s : State) (v : Word), s.pkg.ready = true → bit v.toNat 63 = true →
    ∃ u, exec (.ntsSwitch v) s = .next u ∧ exec (.ntsRevert v) s = .next u ∧
      u.fld Reg.embNtsResultSlot = bits v.toNat 5 0 ∧
      u.fld Reg.embNtsResultCode = s.ntsCode (bits v.toNat 5 0) (bits v.toNat 9 8) ∧
      if s.ntsCode (bits v.toNat 5 0) (bits v.toNat 9 8) = 0 then
        u.nts (bits v.toNat 5 0) =
          { s.nts (bits v.toNat 5 0) with active := 1 - (s.nts (bits v.toNat 5 0)).active, kept := true }
      else u.emb = s.emb) ∧
  (∀ (s : State) (d : Fin 4) (c : Fin 16) (off : Nat) (l : GrottoLine),
    s.emb.lines.find? (fun l => l.die == d.val && l.cluster == c.val && l.copying &&
      (match s.table l.table with
        | some t => s.lineAddr t l == grottoAddr d c + off
        | none => false)) = some l → l.overlay = none →
    ∃ u, exec (.grottoCopyReturn ⟨d, c⟩ off []) s = .next u ∧ u.read (grottoAddr d c + off) l.copy.length = l.copy ∧
      l ∉ u.emb.lines ∧
      { l with copying := false, pinned := l.pinNext, pinNext := false, overlay := none, copy := [] } ∈ u.emb.lines)

/-- Frames of a half (R233, R245, R246, R253, R254, R259, R270): a frame that parses to its end without an early reason
enters the frame table as the next frame, and is counted with the FEC codewords met; a half that is down takes none; the
verdict at its end records its late reasons, and is good exactly where there are none; the first pass of a frame whose
rule recirculates stamps it with the active bank, the hub copy and the NTS regions; a pass whose action word is 0, and a
second pass whose action recirculates, drop it. -/
def Obligations.FramesParsePassAndEnd : Prop :=
  (∀ (s : State) (c : Fin 16) (bytes : List Byte) (phy : Bool) (fixed bad : Nat) (parity : Option (BitVec 6)),
    s.portUp c = true →
    (parseFrame (s.parseCfg c) bytes).early = none → (parseFrame (s.parseCfg c) bytes).mac = none →
    ∃ t f, exec (.frameParse c bytes ⟨phy, fixed, bad, parity⟩) s = .next t ∧ t.wire.nextFrame = s.wire.nextFrame + 1 ∧
      t.frame s.wire.nextFrame = some f ∧ f.port = c.val ∧ f.bytes = bytes ∧ f.phyError = phy ∧
      f.poisoned = parity.isSome ∧ f.stage = 0 ∧ f.verdict = none ∧ f.parsed = parseFrame (s.parseCfg c) bytes ∧
      t.reg (Reg.wireCnt (c / 2) (c % 2) 16) = s.reg (Reg.wireCnt (c / 2) (c % 2) 16) + 1 ∧
      t.reg (Reg.wireCnt (c / 2) (c % 2) 26) = s.reg (Reg.wireCnt (c / 2) (c % 2) 26) + BitVec.ofNat 64 fixed ∧
      t.mem = s.mem) ∧
  (∀ (s : State) (c : Fin 16) (bytes : List Byte) (phy : Bool) (fixed bad : Nat) (parity : Option (BitVec 6)),
    s.portUp c = false → exec (.frameParse c bytes ⟨phy, fixed, bad, parity⟩) s = .next s) ∧
  (∀ (s : State) (i : Nat) (f : Frame), s.frame i = some f → f.verdict = none → f.stage = 0 →
    ∃ t, exec (.frameVerdict i) s = .next t ∧
      t.frame i = some { f with late := lateReasons f, verdict := some (lateReasons f).isEmpty }) ∧
  (∀ (s : State) (i : Nat) (f : Frame), s.frame i = some f → f.stage = 0 →
    aRecirc (s.lookupKey s.activeBank (ruleKey f.parsed f.port 0 0)).2.1 = true →
    ∃ t g, exec (.classifierPass i) s = .next t ∧ t.frame i = some g ∧ g.stage = 1 ∧ g.bank = s.activeBank ∧
      g.epoch = s.fld Reg.clsBankStateEpoch ∧ g.copy = s.wire.swaps ∧ g.holds = true ∧
      g.metaWord = aMeta (s.lookupKey s.activeBank (ruleKey f.parsed f.port 0 0)).2.1) ∧
  (∀ (s : State) (i : Nat) (f : Frame), s.frame i = some f → f.verdict = none → f.stage = 0 →
    (s.lookupKey s.activeBank (ruleKey f.parsed f.port 0 0)).2.1 = 0 →
    ∃ t g, exec (.classifierPass i) s = .next t ∧ t.frame i = some g ∧ g.stage = 2 ∧ g.action = 0 ∧ g.holds = false ∧
      g.ring = f.ring ∧ g.slice = f.slice ∧ g.bytes = f.bytes ∧ t.mem = s.mem) ∧
  (∀ (s : State) (i : Nat) (f : Frame), s.frame i = some f → f.verdict = none → f.stage = 1 →
    (s.lookupKey f.bank (ruleKey f.parsed f.port 1 f.metaWord)).2.1 = 0 ∨
      aRecirc (s.lookupKey f.bank (ruleKey f.parsed f.port 1 f.metaWord)).2.1 = true →
    ∃ t g, exec (.recirculationPass i) s = .next t ∧ t.frame i = some g ∧ g.stage = 2 ∧ g.action = 0 ∧ g.holds = false ∧ g.ring = f.ring ∧
      g.slice = f.slice ∧ g.bytes = f.bytes ∧ t.mem = s.mem)

/-- What a half sends and holds (R231, R234, R262 to R265, R270, R294, R297, R321, R324, R325): an idle half with nothing
else to send starts the waiting ring frame, a one-step Sync with its time stamp; a PTP message of the package goes before
ring frames, and a forwarded frame before both; a reply that may start is on its way; the FCS slot of a reply settles it by
the verdict; a pause ends; a pause is repeated while the charge stays above XON; training brings a half up with the
latencies of its figures to within one WCLK, or down with its unsent ring frames failed; a P2P half sends a request and
forgets a mean delay that no response renews; an unused correction entry is freed. -/
def Obligations.HalvesSendPauseAndTrain : Prop :=
  (∀ (s : State) (c : Fin 16) (j : TxJob), s.portUp c = true → (s.half c).idle = true → s.replyQueue (c / 2) = [] →
    s.nextForward c = none → s.nextPtp c = none → s.nextTx c = some j →
    ∃ t, exec (.egressFrameStart c) s = .next t ∧
      (t.half c).out = some ((TxOut.whole (if bit j.flags 1 then s.oneStep c j.frame else j.frame)).settle
        (j.status != 3)) ∧
      t.hub.txJobs.any (fun k => k.sent && k.ring == j.ring) = true ∧ t.mem = s.mem) ∧
  (∀ (s : State) (c : Fin 16) (m : PtpOut), s.portUp c = true → (s.half c).idle = true → s.replyQueue (c / 2) = [] →
    s.nextForward c = none → s.nextPtp c = some m →
    ∃ t, exec (.egressFrameStart c) s = .next t ∧
      (t.half c).out = some (TxOut.whole (s.ptpFrame m (psFine (s.txPs c)) (freeBytes s.fresh 86))) ∧ t.mem = s.mem) ∧
  (∀ (s : State) (c : Fin 16) (x : Nat × Nat × Nat), s.portUp c = true → (s.half c).idle = true →
    s.replyQueue (c / 2) = [] → s.nextForward c = some x →
    ∃ t o, exec (.egressFrameStart c) s = .next t ∧ (t.half c).out = some o ∧ o.frame = some x.1 ∧ o.reply = false ∧
      ∀ y ∈ (t.half c).queue, y.1 ≠ x.1) ∧
  (∀ (s : State) (n : Fin 8) (i : Nat) (f : Frame) (r : Reply),
    (s.dropReplies n).nextReply n none = some (i, f, r) →
    ∃ t o, exec (.replyStart n) s = .next t ∧ (t.half f.port).out = some o ∧ o.frame = some i ∧ o.reply = true ∧
      o.decided = false) ∧
  (∀ (s : State) (i : Nat) (f : Frame) (r : Reply) (o : TxOut), s.frame i = some f → f.reply = some r →
    (s.half f.port).out = some o → r.sending = true → o.reply = true → o.frame = some i → o.decided = false →
    ∃ t, exec (.replyFcsSlot i) s = .next t ∧
      (t.half f.port).out = some { o with
        decided := true, stomped := !(f.verdict == some true), errorBlock := !(f.verdict == some true) } ∧
      t.mem = s.mem) ∧
  (∀ (s : State) (c : Fin 16) (q : Fin 8), s.paused c q = true →
    ∃ t, exec (.pauseExpiry c q) s = .next t ∧ t.paused c q = false ∧ t.mem = s.mem) ∧
  (∀ (s : State) (c : Fin 16) (q : Fin 8), s.pfcEnabled c q = true → (s.half c).xoff.contains q.val = true →
    s.fld (Reg.wirePfcThreshXonKib (c / 2) q) * 1024 < s.charge c q →
    ∃ t, exec (.pfcRepeat c q) s = .next t ∧ (t.half c).pfcSent = some (q.val, 65535) ∧
      t.reg (Reg.wireCnt (c / 2) (c % 2) 23) = s.reg (Reg.wireCnt (c / 2) (c % 2) 23) + 1) ∧
  (∀ (s : State) (c : Fin 16) (lanes : BitVec 8) (rx tx : Nat), s.halfExists c = true →
    ∃ t, exec (.portTrainingDone c true lanes rx tx) s = .next t ∧ t.portUp c = true ∧
      48000 - 625 ≤ (t.half c).rxLatency ∧ (t.half c).rxLatency ≤ 48000 + 625 ∧
      14000 - 625 ≤ (t.half c).txLatency ∧ (t.half c).txLatency ≤ 14000 + 625 ∧
      (s.fullRate c = true → t.fld (Reg.wirePortStatusLanesLocked (c / 2)) = lanes.toNat)) ∧
  (∀ (s : State) (c : Fin 16) (lanes : BitVec 8) (rx tx : Nat),
    ∃ t, exec (.portTrainingDone c false lanes rx tx) s = .next t ∧ t.portUp c = false ∧
      (∀ j ∈ t.hub.txJobs, j.half = c.val → j.sent = false → j.status = 1) ∧
      (s.fullRate c = true → t.fld (Reg.wirePortStatusLanesLocked (c / 2)) = lanes.toNat)) ∧
  (∀ (s : State) (c : Fin 16), s.tcMode c = 2 → s.portUp c = true →
    ∃ t, exec (.pdelayReqTimer c) s = .next t ∧ (t.half c).pd.seq = ((s.half c).pd.seq + 1) % 65536 ∧
      (t.half c).pd.sent = none ∧
      t.wire.ptpOut = s.wire.ptpOut ++ [⟨c.val, 2, ((s.half c).pd.seq + 1) % 65536, 0, 0⟩] ∧ t.regs = s.regs) ∧
  (∀ (s : State) (c : Fin 16), s.tcMode c = 2 →
    ∃ t, exec (.pdelayTimeout c) s = .next t ∧ (t.half c).pd = { (s.half c).pd with mean := none } ∧ t.regs = s.regs) ∧
  (∀ (s : State) (n : Nat), ∃ t, exec (.tcEntryExpiry n) s = .next t ∧ t.wire.tc = s.wire.tc.eraseIdx n ∧
    t.wire.halves = s.wire.halves)

/-- Banks and flow contexts (R255, R259, R271, R272): a swap makes the other bank the active one and counts its epoch; a
write through BANK_DATA reaches a bank that is inactive and held by no frame, is refused with REFUSED set otherwise, and a
read returns the word; a flush leaves no context valid; the sweep marks a valid context that has been idle for IDLE_US,
and no context that is not valid. -/
def Obligations.BanksSwapAndFlowsAge : Prop :=
  (∀ (s : State) (v : Word), s.pkg.ready = true → bit v.toNat 63 = true →
    ∃ t, exec (.bankSwap v) s = .next t ∧ t.activeBank = (1 - s.activeBank) % 2 ∧
      t.fld Reg.clsBankStateEpoch = (s.fld Reg.clsBankStateEpoch + 1) % 2 ^ 32 ∧ t.wire = s.wire) ∧
  (∀ (s : State) (v : Word) (b r i k : Nat), s.pkg.ready = true → s.fld Reg.clsBankAddrBank = b → s.fld Reg.clsBankAddrRegion = r →
    s.fld Reg.clsBankAddrIndex = i → s.fld Reg.clsBankAddrWord = k → i < (bankRegion r).1 → k < (bankRegion r).2 → r ≠ 9 →
    ∃ t, exec (.bankDataAccess (some v)) s = .next t ∧ t.response = .ok 0 ∧
      if s.bankWritable b then t.bankWord b r i k = bankValue r k v.toNat
      else t.wire = s.wire ∧ t.fldB Reg.clsBankStateRefused = true) ∧
  (∀ (s : State) (b r i k : Nat), s.fld Reg.clsBankAddrBank = b → s.fld Reg.clsBankAddrRegion = r →
    s.fld Reg.clsBankAddrIndex = i → s.fld Reg.clsBankAddrWord = k → i < (bankRegion r).1 → k < (bankRegion r).2 →
    ∃ t, exec (.bankDataAccess none) s = .next t ∧ t.wire = s.wire ∧
      t.response = .ok (BitVec.ofNat 512 (s.bankWord b r i k))) ∧
  (∀ (s : State) (v : Word), s.pkg.ready = true → bit v.toNat 63 = true →
    ∃ t, exec (.flowFlush v) s = .next t ∧ (∀ i, bit (flowFlags (t.flowCtx i)) 0 = false) ∧ t.regs = s.regs) ∧
  (∀ s : State, ∃ t, exec .flowSweep s = .next t ∧ t.regs = s.regs ∧
    ∀ i : Nat, ∀ c : List Byte, Tab.find i s.wire.flows = some c → c.length = 64 →
      if bit (flowFlags c) 0 then
        ∃ c', Tab.find i t.wire.flows = some c' ∧ bit (flowFlags c') 0 = true ∧
          (s.fld Reg.clsFlowCtrlIdleUs * 1000 ≤ (s.stamp32 + 2 ^ 32 - le c 0x34 4) % 2 ^ 32 →
            bit (flowFlags c') 2 = true)
      else Tab.find i t.wire.flows = some c)

/-- Bramble (R276, R290, R292, R294, R303): the evaluation of the frame at the front of a slice's queue, with its pair
still served and the horizon reached, makes a reply with the outputs of the slice's model (status 1 where the frame
selects no feature set, 2 where it selects another set than the slice's; with UNCHECKED where a twin pair evaluates on one
slice), which enters the port's reply queue while it has room. A frame that is no longer served gets no reply. -/
def Obligations.SliceEvaluationQueuesReply : Prop :=
  ∀ (s : State) (j : Fin 16) (i : Nat) (rest : List Nat) (f : Frame), Tab.get [] j.val s.wire.sliceQueues = i :: rest →
    s.frame i = some f → f.verdict = none →
    (s.stillServed f j = false →
      ∃ t, exec (.sliceEvaluation j 0 0 ⟨none, []⟩) s = .next t ∧ t.replyQueue (f.port / 2) = s.replyQueue (f.port / 2) ∧
        Tab.get [] j.val t.wire.sliceQueues = rest) ∧
    (s.stillServed f j = true → f.poisoned = false →
    (horizon (s.modelFor f).encoder f.parsed (encSelect (s.modelFor f).encoder ((f.parsed.krf.map Krf.model).getD 0))).1 <
      f.bytes.length - 4 →
    (s.replyQueue (f.port / 2)).length < 32 →
    (encSelect (s.modelFor f).encoder ((f.parsed.krf.map Krf.model).getD 0) = none →
      ∃ t g r, exec (.sliceEvaluation j 0 0 ⟨none, []⟩) s = .next t ∧ t.frame i = some g ∧ g.reply = some r ∧
        r.status = 1 + s.unchecked (sPair ((s.modelFor f).slice j)) j ∧
        r.outs = [] ∧ r.slice = j.val ∧ t.replyQueue (f.port / 2) = s.replyQueue (f.port / 2) ++ [i]) ∧
    (∀ k, encSelect (s.modelFor f).encoder ((f.parsed.krf.map Krf.model).getD 0) = some k →
      k ≠ le ((s.modelFor f).slice j) 2 1 →
      ∃ t g r, exec (.sliceEvaluation j 0 0 ⟨none, []⟩) s = .next t ∧ t.frame i = some g ∧ g.reply = some r ∧
        r.status = 2 + s.unchecked (sPair ((s.modelFor f).slice j)) j ∧
        r.outs = [] ∧ r.slice = j.val ∧ t.replyQueue (f.port / 2) = s.replyQueue (f.port / 2) ++ [i]) ∧
    (∀ k, encSelect (s.modelFor f).encoder ((f.parsed.krf.map Krf.model).getD 0) = some k →
      k = le ((s.modelFor f).slice j) 2 1 →
      (∀ r ∈ (encFields (s.modelFor f).encoder k).map fun r =>
        s.fieldCode f (s.modelFor f).encoder (encFields (s.modelFor f).encoder k) r, r.2.2 = none) →
      ∃ t g r, exec (.sliceEvaluation j 0 0 ⟨none, []⟩) s = .next t ∧ t.frame i = some g ∧ g.reply = some r ∧
        r.status = s.unchecked (sPair ((s.modelFor f).slice j)) j ∧
        r.epoch = Tab.get 0 j.val (s.modelFor f).epochs ∧ r.slice = j.val ∧
        t.replyQueue (f.port / 2) = s.replyQueue (f.port / 2) ++ [i] ∧
        r.outs = (enum0 ((List.range (sOut ((s.modelFor f).slice j))).map fun o =>
          sliceAcc ((s.modelFor f).slice j)
            (if sPair ((s.modelFor f).slice j) = 1 then some ((s.modelFor f).slice (j + 1)) else none)
            (((encFields (s.modelFor f).encoder k).map fun r =>
              s.fieldCode f (s.modelFor f).encoder (encFields (s.modelFor f).encoder k) r).map Prod.fst) o)).filterMap
          fun e => if bit (tmplMask ((s.modelFor f).template j)) e.1 then
            some (sliceOut ((s.modelFor f).slice j) e.1 e.2) else none))

/-- Adjustments of the clock (R311 to R313): STEP and SET are kept as the request; at a whole microsecond a request that
its checks allow moves the clock by the offset, or to the value, and one that they refuse reports its code and leaves
the clock; reading TOD_NS latches the seconds. -/
def Obligations.ClockAdjustmentsWaitAndApply : Prop :=
  (∀ (s : State) (v : Word), s.pkg.ready = true →
    ∃ t, exec (.timeStep v) s = .next t ∧ t.time.req = some (.step (sext 48 (Reg.timeStepOffset.of v.toNat))) ∧
      t.clock = s.clock ∧ t.regs = s.regs) ∧
  (∀ (s : State) (v : Word), s.pkg.ready = true →
    ∃ t, exec (.timeSet v) s = .next t ∧
      t.time.req = some (.set (s.fld Reg.timeSetSecSec) (Reg.timeSetNsNs.of v.toNat)) ∧ t.clock = s.clock) ∧
  (∀ (s : State) (r : TimeReq), s.time.req = some r → s.reqAtEdge = false → s.wholeMicro = true →
    ∃ t, exec .timeAdjustApply s = .next t ∧ t.time.req = none ∧
      if s.adjCode r = 0 then
        match r with
        | .step o => (t.glc : Int) = s.glc + o
        | .set sec ns => t.clock = ⟨sec, ns, s.clock.frac⟩
      else t.clock = s.clock ∧ t.fld Reg.timeStatusAdjCode = s.adjCode r) ∧
  (∀ s : State, ∃ t, exec .todNsRead s = .next t ∧ t.response = .ok (BitVec.ofNat 512 s.clock.ns) ∧
    t.fld Reg.timeTodSecSec = s.clock.sec % 2 ^ (Reg.timeTodSecSec.hi + 1 - Reg.timeTodSecSec.lo) ∧ t.clock = s.clock)

/-- A write of TIME.RATE (R312): under the free-running source RATE takes the signed value written, clamped to ±2²², at once; under
any other source the write is discarded. A read returns the current value. -/
def Obligations.RateWriteIsClampedOrDiscarded : Prop :=
  ∀ (s : State) (v : Word), s.pkg.ready = true →
    ∃ t, exec (.rateWrite v) s = .next t ∧ (∀ k, k ≠ Reg.timeRate → t.reg k = s.reg k) ∧
      (∀ ag, (Reg.timeRateRate.of (t.readReg ag Reg.timeRate).toNat) = t.fld Reg.timeRateRate) ∧
      if s.timeSource = srcFree then
        sext 32 (t.fld Reg.timeRateRate) = clamp (-4194304) 4194304 (sext 32 (v.toNat % 2 ^ 32))
      else t = s

/-- Sources of the clock (R313 to R317): a failed source leaves the clock in HOLDOVER with SOURCE_OK 0, whether it fails
by itself, by its 10 MHz at a 1PPS edge, or by an Obcor partner that is not locked or a link that is down; under no external
source a 1PPS edge only stamps; an offset inside the lock window that completes the count locks the clock to the source; a
replayed Obcor exchange is counted and measures nothing, and one in time is kept for the next flit. -/
def Obligations.ClockFollowsItsSource : Prop :=
  (∀ s : State, s.timeSource ≠ srcFree →
    ∃ t, exec .sourceFailed s = .next t ∧ t.servo = timeHoldover ∧ t.fld Reg.timeStatusSourceOk = 0 ∧ t.clock = s.clock) ∧
  (∀ (s : State) (rate : ServoRate), s.timeSource = srcExt →
    ∃ t, exec (.ppsInputEdge false rate) s = .next t ∧ t.servo = timeHoldover ∧ t.fld Reg.timeStatusSourceOk = 0 ∧
      t.time.lastPps = s.upTime ∧ (s.reqAtEdge = false → t.clock = s.clock) ∧ (s.reqAtEdge = true → t.time.req = none)) ∧
  (∀ (s : State) (ok : Bool) (rate : ServoRate), s.timeSource ≠ srcExt →
    ∃ t, exec (.ppsInputEdge ok rate) s = .next t ∧ t.fld Reg.timePpsInGlc = s.glc % 2 ^ 64 ∧ t.servo = s.servo ∧
      t.clock = s.clock) ∧
  (∀ (s : State) (rate : ServoRate), s.timeSource = srcExt → s.servo = timeAcquiring → s.time.within = 2 →
    s.clock.ns ≤ 2 → s.clock.sec ≤ secLimit → s.time.req = none → s.pkg.pairs.contains true = true →
    ∃ t, exec (.ppsInputEdge true rate) s = .next t ∧ t.servo = timeLocked ∧ t.fld Reg.timeStatusSourceOk = 1) ∧
  (∀ (s : State) (l : Fin 16) (locked : Bool) (x : TimeFlit) (rate : ServoRate), s.obcUp l = true →
    (∃ t, exec (.obcorTimeExchange l true ⟨locked, x⟩ rate) s = .next t ∧
      t.reg (Reg.timeCnt 5) = s.reg (Reg.timeCnt 5) + 1 ∧ t.servo = s.servo ∧ t.clock = s.clock ∧
      (t.obcTime l).got = (s.obcTime l).got ∧ (t.obcTime l).sent.map TimeFlit.send = some (BitVec.ofNat 64 s.glc)) ∧
    (∃ t, exec (.obcorTimeExchange l false ⟨locked, x⟩ rate) s = .next t ∧
      (t.obcTime l).got = some (x.send.toNat, s.glc) ∧
      (s.followsLink l = false → t.servo = s.servo ∧ t.clock = s.clock) ∧
      (s.followsLink l = true → locked = false → t.servo = timeHoldover ∧ t.clock = s.clock))) ∧
  (∀ (s : State) (l : Fin 16) (replayed locked : Bool) (x : TimeFlit) (rate : ServoRate), s.obcUp l = false →
    ∃ t, exec (.obcorTimeExchange l replayed ⟨locked, x⟩ rate) s = .next t ∧ t.time.obc = s.time.obc ∧
      if s.followsLink l then t.servo = timeHoldover ∧ t.fld Reg.timeStatusSourceOk = 0 else t = s)

/-- PTP (R319, R321): the steward takes the oldest message of the PTP ring; one of the clock's own domain sets the port state
that its protocol decides, unless that would make a slave-only clock the master, and a master answers a Delay_Req; one of
another domain, or without a steward pair, changes nothing else; a message that the port state lets the clock send goes
out with the next sequence number of its type. -/
def Obligations.PtpMessagesFollowPortState : Prop :=
  (∀ (s : State) (m : PtpMsg) (x : PtpIn) (rest : List PtpIn), s.time.ptpIn = x :: rest →
    be x.bytes 4 1 = s.fld Reg.timeCtrlDomain → s.pkg.pairs.contains true = true →
    ∃ t, exec (.ptpMessage m) s = .next t ∧ t.time.ptpIn = rest ∧
      (m.offset = none ∨ s.timeSource ≠ srcPtp → t.clock = s.clock) ∧
      (t.fld Reg.timeStatusPortState =
        if s.fldB Reg.timeCtrlSlaveOnly = true ∧ m.portState.toNat = portMaster then s.fld Reg.timeStatusPortState
        else m.portState.toNat) ∧
      (ptpType x.bytes 0 = 1 → m.portState.toNat = portMaster → s.fldB Reg.timeCtrlSlaveOnly = false →
        s.fld Reg.timeCtrlDelayMech = 0 →
        t.wire.ptpOut = s.wire.ptpOut ++
          [⟨s.fld Reg.timeCtrlOcPort, 9, be x.bytes 30 2, psFine x.rxPs, be x.bytes 20 10⟩])) ∧
  (∀ (s : State) (m : PtpMsg) (x : PtpIn) (rest : List PtpIn), s.time.ptpIn = x :: rest →
    be x.bytes 4 1 ≠ s.fld Reg.timeCtrlDomain ∨ s.pkg.pairs.contains true = false →
    exec (.ptpMessage m) s = .next (s.setTime { s.time with ptpIn := rest })) ∧
  (∀ (s : State) (m : PtpMsg), s.time.ptpIn = [] → exec (.ptpMessage m) s = .next s) ∧
  (∀ (s : State) (k : BitVec 4), s.mayGenerate k.toNat = true → s.portUp (s.fld Reg.timeCtrlOcPort) = true →
    ∃ t, exec (.ptpMessageGeneration k) s = .next t ∧ t.regs = s.regs ∧
      Tab.get 0 k.toNat t.time.ptpSeq = (Tab.get 0 k.toNat s.time.ptpSeq + 1) % 65536 ∧
      t.wire.ptpOut = s.wire.ptpOut ++
        [⟨s.fld Reg.timeCtrlOcPort, k.toNat, Tab.get 0 k.toNat s.time.ptpSeq, 0, 0⟩])

/-- Pulse outputs (R329, R330): a leading edge whose time has come drives the output to its POL's active level, counts the
edge and fixes when it ends, WIDTH of the local clock later, and when the next one comes; the end drives it back. -/
def Obligations.PulsesRiseAndFall : Prop :=
  (∀ (s : State) (i : Fin 4) (e : Nat), Tab.find i.val s.time.pulseNext = some e → e ≤ s.glc →
    ∃ t, exec (.pulseEdge i) s = .next t ∧ t.fld (Reg.timePulseStatusHigh i) = 1 ∧
      t.fld (Reg.timePulseStatusEdges i) = (s.fld (Reg.timePulseStatusEdges i) + 1) % 2 ^ 32 ∧
      Tab.get 0 i.val t.time.pulsePin = (if s.fldB (Reg.timePulseCfgPol i) then 0 else 1) ∧
      Tab.find i.val t.time.pulseEnds = some (s.glc + s.fld (Reg.timePulseCfgWidth i)) ∧
      Tab.find i.val t.time.pulseNext =
        if s.fld (Reg.timePulseCfgMode i) = 2 then some (e + s.fld (Reg.timePulsePeriodPeriod i)) else none) ∧
  (∀ (s : State) (i : Fin 4) (e : Nat), Tab.find i.val s.time.pulseEnds = some e → e ≤ s.glc →
    ∃ t, exec (.pulseEnd i) s = .next t ∧ t.fld (Reg.timePulseStatusHigh i) = 0 ∧
      Tab.get 0 i.val t.time.pulsePin = (if s.fldB (Reg.timePulseCfgPol i) then 1 else 0) ∧
      Tab.find i.val t.time.pulseEnds = none ∧ t.clock = s.clock)

/-- Posted rings (R447, R448, R451, R468): the watch line moves POSTED, and a bad count stops the ring with ERROR 1 and its
POSTED as it was; ENABLE applies the configuration where its checks hold, and reports their code where one fails;
ENABLE 0 stops new work and un-posts the transmit entries not begun; a posted transmit entry is taken with its frame
padded to 60 bytes, or with status 2 where its descriptor is not valid; an entry whose frame has left completes and
advances the ring's count, after its record in the completion ring where it asks for one; a full completion ring holds
both. -/
def Obligations.RingsTakeAndCompleteWork : Prop :=
  (∀ (s : State) (cls : Fin 5) (i : Fin 4096), i.val < ringCount cls.val → (s.ring cls i).live = true →
    ∃ t, exec (.watchLineUpdate cls i) s = .next t ∧ t.mem = s.mem ∧ t.regs = s.regs ∧
      t.ring cls i =
        if (s.ring cls i).badWatch (le (s.read (s.ring cls i).watch 4) 0 4) then { s.ring cls i with error := 1 }
        else { s.ring cls i with posted := le (s.read (s.ring cls i).watch 4) 0 4 }) ∧
  (∀ (s : State) (v : Word) (cls i : Nat), s.pkg.ready = true → s.selRing = some (cls, i) → (s.ring cls i).enable = false →
    Reg.hubRingCfgEnable.of v.toNat = 1 →
    ∃ t, exec (.ringEnable v) s = .next t ∧ t.mem = s.mem ∧
      t.ring cls i = { (s.ring cls i).configured v.toNat with
        enable := s.ringCode cls i ((s.ring cls i).configured v.toNat) == 0
        error := s.ringCode cls i ((s.ring cls i).configured v.toNat) } ∧
      ∀ c j, ringKey c j ≠ ringKey cls i → t.ring c j = s.ring c j) ∧
  (∀ (s : State) (v : Word) (cls i : Nat), s.pkg.ready = true → s.selRing = some (cls, i) → (s.ring cls i).enable = true →
    Reg.hubRingCfgEnable.of v.toNat = 0 →
    ∃ t, exec (.ringDisable v) s = .next t ∧ t.mem = s.mem ∧
      t.ring cls i = { s.ring cls i with
        enable := false
        posted := if cls = clsTx then (s.ring cls i).taken else (s.ring cls i).posted } ∧
      ∀ c j, ringKey c j ≠ ringKey cls i → t.ring c j = s.ring c j) ∧
  (∀ (s : State) (i : Fin 256) (e : List Byte), (s.ring clsTx i).live = true →
    (s.ring clsTx i).posted ≠ (s.ring clsTx i).taken → (s.ring clsCpl (s.ring clsTx i).cpl).cplFull = false →
    s.read ((s.ring clsTx i).entryAddr clsTx (s.ring clsTx i).taken) 32 = e →
    s.awaitsTwin (le e 0 8) (le e 8 2) = false →
    ∃ t j, exec (.txEntry ⟨i, []⟩) s = .next t ∧ t.mem = s.mem ∧ t.hub.txJobs = s.hub.txJobs ++ [j] ∧ j.ring = i.val ∧
      j.entry = (s.ring clsTx i).taken ∧ j.tag = le e 16 8 ∧ j.flags = le e 12 1 ∧ j.sent = false ∧
      (t.ring clsTx i).taken = ((s.ring clsTx i).taken + 1) % 2 ^ 32 ∧
      if s.txBad e then j.status = 2
      else j.frame = sliceBytes (s.read (le e 0 8) (le e 8 2)) 0 (max 60 (le e 8 2)) ∧ j.half = le e 10 1 ∧
        j.status = if s.portUp (le e 10 1) = false then 1 else if s.isPoisoned (le e 0 8) (le e 8 2) then 3 else 0) ∧
  (∀ (s : State) (i : Fin 256) (j : TxJob), s.hub.txJobs.find? (fun j => j.ring == i.val) = some j → j.left = true →
    (s.ring clsCpl (s.ring clsTx i).cpl).cplFull = false → (s.ring clsTx i).done = j.entry →
    (s.ring clsTx i).early = [] → (bit j.flags 2 = true → (s.ring clsCpl (s.ring clsTx i).cpl).live = true ∧
      (s.ring clsCpl (s.ring clsTx i).cpl).early = []) →
    ∃ t, exec (.txCompletion i) s = .next t ∧ t.hub.txJobs = s.hub.txJobs.erase j ∧
      (t.ring clsTx i).done = (j.entry + 1) % 2 ^ 32 ∧
      (s.inImageBuffer (s.ring clsTx i).report 4 = false →
        t.read (s.ring clsTx i).report 4 = toLe 4 ((j.entry + 1) % 2 ^ 32)) ∧
      (t.ring clsCpl (s.ring clsTx i).cpl).done = if bit j.flags 2 = true then
        ((s.ring clsCpl (s.ring clsTx i).cpl).done + 1) % 2 ^ 32 else (s.ring clsCpl (s.ring clsTx i).cpl).done) ∧
  (∀ (s : State) (i : Fin 256), (s.ring clsCpl (s.ring clsTx i).cpl).cplFull = true →
    exec (.txEntry ⟨i, []⟩) s = .next s ∧ exec (.txCompletion i) s = .next s)

/-- Interrupts of the rings and routes (R452, R453): the holdoff that ends raises the source of a ring whose count advanced
during it; writing 1 to PENDING clears it; unmasking a source that is pending delivers it once, by its route, or sets the pending bit of a masked MSI-X vector (the
mask: log entry 196). -/
def Obligations.InterruptsAreHeldOffAndRouted : Prop :=
  (∀ (s : State) (cls : Fin 5) (i : Fin 4096), (s.ring cls i).waiting = true → (s.ring cls i).irq < 528 →
    ∃ t, exec (.irqHoldoffExpiry cls i) s = .next t ∧ t.fld (Reg.hubIrqRoutePending (s.ring cls i).irq) = 1 ∧
      t.ring cls i = { s.ring cls i with waiting := false, lastRaise := some s.upTime } ∧ t.mem = s.mem) ∧
  (∀ (s : State) (n : Fin 528) (v : Word), s.pkg.ready = true →
    ∃ t, exec (.irqRouteWrite n v) s = .next t ∧ t.fld (Reg.hubIrqRouteDest n) = (Reg.hubIrqRouteDest n).of v.toNat ∧
      t.fld (Reg.hubIrqRouteCore n) = (Reg.hubIrqRouteCore n).of v.toNat ∧
      t.fld (Reg.hubIrqRouteVector n) = (Reg.hubIrqRouteVector n).of v.toNat ∧
      t.fld (Reg.hubIrqRoutePending n) =
        (if (Reg.hubIrqRoutePending n).of v.toNat = 1 then 0 else s.fld (Reg.hubIrqRoutePending n)) ∧
      t.hub.delivered =
        if destLive (s.fld (Reg.hubIrqRouteDest n)) = false ∧ destLive ((Reg.hubIrqRouteDest n).of v.toNat) = true ∧
            t.fld (Reg.hubIrqRoutePending n) = 1 ∧ ((Reg.hubIrqRouteDest n).of v.toNat = 2 →
              (s.msixVector ((Reg.hubIrqRouteVector n).of v.toNat)).masked = false) then
          s.hub.delivered ++ [⟨n.val, (Reg.hubIrqRouteDest n).of v.toNat,
            s.targetCore ((Reg.hubIrqRouteCore n).of v.toNat), (Reg.hubIrqRouteVector n).of v.toNat⟩]
        else s.hub.delivered) ∧
  (∀ (s : State) (n : Fin 528) (v : Word), s.pkg.ready = true → destLive (s.fld (Reg.hubIrqRouteDest n)) = false →
    (Reg.hubIrqRouteDest n).of v.toNat = 2 → (Reg.hubIrqRoutePending n).of v.toNat = 0 →
    s.fld (Reg.hubIrqRoutePending n) = 1 → (s.msixVector ((Reg.hubIrqRouteVector n).of v.toNat)).masked = true →
    ∃ t, exec (.irqRouteWrite n v) s = .next t ∧ (Reg.hubIrqRouteVector n).of v.toNat ∈ t.hub.msixPending)

/-- Services of the steward (R443, R445, R462): a request that is next in its ring is answered with its RESULT and completes
its entry: IDENTITY and CORE_STATE with DONE; DRIPSTONE_COPY writes the header at its place, or answers BAD_ARG where its
range is not in the tiers; FIRMWARE_STAGE keeps the version of a signed package, and answers BAD_ARG or VERIFY for others;
PTP_DATASET keeps what is written and reads it back; FLEET_LEAVE leaves the fleet or reports the wrong state; FLEET_JOIN
of a manager joins its own fleet, and that of the other roles waits for the manager; an opcode that names no service is
answered UNKNOWN_OPCODE by any service row. -/
def Obligations.ServiceRequestsAreAnswered : Prop :=
  ∀ (s : State) (i : Fin 2) (a : Nat), s.svcRequest i = some a → (s.ring clsSvc i).early = [] →
    overlaps a 64 (s.ring clsSvc i).report 4 = false → s.inImageBuffer a 64 = false →
    (le (s.read a 2) 0 2 = 1 →
      ∃ t, exec (.identity i) s = .next t ∧ t.byte (a + 3) = 0 ∧
        (t.ring clsSvc i).done = ((s.ring clsSvc i).done + 1) % 2 ^ 32 ∧
        t.read (a + 16) 28 = toLe 16 s.pkg.serial.toNat ++ toLe 4 s.pkg.romVersion ++ toLe 4 s.pkg.fwVersion ++
          toLe 4 (s.fld Reg.fltPackStatusActiveVersion)) ∧
    (le (s.read a 2) 0 2 = 6 →
      ∃ t, exec (.coreState i) s = .next t ∧ t.byte (a + 3) = 0 ∧
        (t.ring clsSvc i).done = ((s.ring clsSvc i).done + 1) % 2 ^ 32 ∧
        t.read (a + 16) 9 = toLe 9 (maskOf 72 fun k => !s.pkg.retiredCores.contains k)) ∧
    (∀ d, le (s.read (a + 16) 48) 0 8 = d → le (s.read a 2) 0 2 = 2 →
      ∃ t, exec (.dripstoneCopy i) s = .next t ∧ (t.ring clsSvc i).done = ((s.ring clsSvc i).done + 1) % 2 ^ 32 ∧
        t.byte (a + 3) = (if d % 4096 = 0 ∧ s.inTiers d dripBytes = true then 0 else 2) ∧
        (d % 4096 = 0 → s.inTiers d dripBytes = true → s.inImageBuffer d dripBytes = false →
          overlaps d dripBytes a 64 = false → overlaps d dripBytes (s.ring clsSvc i).report 4 = false →
          t.read d 32 = headerBytes s.flt.nor.header)) ∧
    (∀ d n, le (s.read (a + 16) 48) 0 8 = d → le (s.read (a + 16) 48) 8 8 = n → le (s.read a 2) 0 2 = 3 →
      ∃ t, exec (.firmwareStage i) s = .next t ∧ (t.ring clsSvc i).done = ((s.ring clsSvc i).done + 1) % 2 ^ 32 ∧
        (n ≤ 104 ∨ 0x1000000 < n ∨ s.inTiers d n = false → t.byte (a + 3) = 2 ∧ t.pkg = s.pkg) ∧
        (104 < n → n ≤ 0x1000000 → s.inTiers d n = true →
          if s.blockOk 0 (s.read d n) = true ∧ s.fld Reg.secMinVersionFirmware ≤ s.free.1 % 256 then
            t.byte (a + 3) = 0 ∧ t.pkg.stagedFw = some (s.free.2.free.1 % 2 ^ 32)
          else t.byte (a + 3) = 4 ∧ t.pkg = s.pkg)) ∧
    (le (s.read a 2) 0 2 = 7 → le (s.read (a + 16) 48) 4 1 = 1 →
      ∃ t, exec (.ptpDataset i) s = .next t ∧ t.byte (a + 3) = 0 ∧
        Tab.find (le (s.read (a + 16) 48) 0 4) t.hub.ptpData = some (le (s.read (a + 16) 48) 5 8) ∧
        (t.ring clsSvc i).done = ((s.ring clsSvc i).done + 1) % 2 ^ 32) ∧
    (∀ v, le (s.read a 2) 0 2 = 7 → le (s.read (a + 16) 48) 4 1 ≠ 1 →
      Tab.find (le (s.read (a + 16) 48) 0 4) s.hub.ptpData = some v →
      ∃ t, exec (.ptpDataset i) s = .next t ∧ t.byte (a + 3) = 0 ∧ t.read (a + 16) 8 = toLe 8 v ∧
        t.hub.ptpData = s.hub.ptpData ∧ (t.ring clsSvc i).done = ((s.ring clsSvc i).done + 1) % 2 ^ 32) ∧
    (le (s.read a 2) 0 2 = 5 →
      ∃ t, exec (.fleetLeave i) s = .next t ∧ t.fldB Reg.hubFleetStatusJoined = false ∧
        t.byte (a + 3) = (if s.fldB Reg.hubFleetStatusJoined then 0 else 3) ∧
        (t.ring clsSvc i).done = ((s.ring clsSvc i).done + 1) % 2 ^ 32) ∧
    (le (s.read a 2) 0 2 = 4 → s.groupTaken 0x02000 = false → s.loadState ≠ loadDistributing →
      s.loadState ≠ loadRunning → s.loadState ≠ loadStopping →
      (le (s.read (a + 16) 3) 0 1 = 2 →
        ∃ t, exec (.fleetJoin i) s = .next t ∧ t.fld Reg.hubFleetStatusJoined = 1 ∧ t.fld Reg.hubFleetStatusIndex = 0 ∧
          t.byte (a + 3) = 0 ∧ (t.ring clsSvc i).done = ((s.ring clsSvc i).done + 1) % 2 ^ 32) ∧
      (le (s.read (a + 16) 3) 0 1 = 1 ∨ le (s.read (a + 16) 3) 0 1 = 3 →
        ∃ t, exec (.fleetJoin i) s = .next t ∧ t.fleet.joinReq = some (i.val, (s.ring clsSvc i).taken) ∧
          t.fld Reg.hubRoleRole = le (s.read (a + 16) 3) 0 1)) ∧
    (∀ c ∈ [Instr.identity i, .dripstoneCopy i, .firmwareStage i, .fleetJoin i, .fleetLeave i, .coreState i, .ptpDataset i],
      le (s.read a 2) 0 2 = 0 ∨ 7 < le (s.read a 2) 0 2 →
      ∃ t, exec c s = .next t ∧ t.byte (a + 3) = 1 ∧ (t.ring clsSvc i).done = ((s.ring clsSvc i).done + 1) % 2 ^ 32)

/-- Failures of steward pairs and application cores (R443, R444): of two pairs one halts (which one is open, log entry 202)
and the other is active after it; with no pair running nothing changes; with no pair left no step runs and the servo of an external source holds; a
retired core is in the retired list, its unit is RETIRED and its neighbours keep their states. -/
def Obligations.FailedCoresAreReplaced : Prop :=
  (∀ s : State, s.pkg.pairs = [true, true] → s.pkg.activePair < 2 →
    ∃ p : Fin 2, exec .stewardFailover s = .next { s.free.2 with pkg := { s.pkg with
      pairs := [true, true].set p false
      activePair := 1 - p.val } }) ∧
  (∀ s : State, s.pkg.pairs = [false, false] → exec .stewardFailover s = .next s) ∧
  (∀ s : State, s.pkg.pairs = [true, false] ∨ s.pkg.pairs = [false, true] →
    ∃ t, exec .stewardFailover s = .next t ∧ t.pkg.pairs = [false, false] ∧ t.stepRunning = false ∧
      t.cfg.run.armed = false ∧ (s.timeSource ≠ srcFree → t.servo = timeHoldover) ∧ t.mem = s.mem) ∧
  (∀ (s : State) (k : Fin 72), s.pkg.retiredCores.contains k.val = false →
    (s.unit (unitKey 10 k)).state ≠ stRetired →
    ∃ t, exec (.appCoreRetire k) s = .next t ∧ t.pkg.retiredCores = s.pkg.retiredCores ++ [k.val] ∧
      (t.unit (unitKey 10 k)).state = stRetired ∧ ∀ j, j ≠ unitKey 10 k → t.unit j = s.unit j)

/-- Obcor links (R459 to R461, R470, R472): training ends with the state, code and version that its result gives, with the
capability blocks exchanged once the lanes are equalised, and a link
that comes up to a package whose index is known is its direct route; a link that goes down trains again while it is
enabled; a replay counts, and a flit that fails more than 16 in a row takes the link down; a message for another
package is passed on by its route, or goes no further. A flit's header reads back from its 272 bytes with a CRC
that holds, and a data message, a token, a notice and a time flit from theirs (R17, R457, R458). -/
def Obligations.ObcorLinksTrainReplayAndRelay : Prop :=
  (∀ (s : State) (l : Fin 16) (r : TrainResult), s.past 5 = true → s.obcUp l = false →
    s.fldB (Reg.obcLinkCtrlEnable l) = true →
    ∃ t, exec (.obcorLinkTrain l r) s = .next t ∧ t.fld (Reg.obcLinkStatusState l) = (s.trainEnd l r).1 ∧
      t.fld (Reg.obcLinkStatusTrainCode l) = (s.trainEnd l r).2.1 ∧
      t.fld (Reg.obcLinkStatusVersion l) = (s.trainEnd l r).2.2 ∧
      ((r.signal && r.equalised) = true → Tab.find l.val t.hub.capSent = some s.capability ∧
        Tab.find l.val t.hub.partnerSerial = some r.serial.toNat) ∧
      (t.obcUp l = true → knownPartner r.index.toNat r.role.toNat = true →
        t.fld (Reg.obcRouteLink r.index.toNat) = l.val ∧ t.fldB (Reg.obcRouteValid r.index.toNat) = true)) ∧
  (∀ (s : State) (l : Fin 16), s.obcUp l = true →
    ∃ t, exec (.obcorLinkDown l) s = .next t ∧ t.obcUp l = false ∧ t.fld (Reg.obcLinkStatusVersion l) = 0 ∧
      t.fld (Reg.obcLinkStatusState l) = (if s.fldB (Reg.obcLinkCtrlEnable l) then obcTraining else obcDown) ∧
      t.reg (Reg.obcCnt l 4) = s.reg (Reg.obcCnt l 4) + 1) ∧
  (∀ (s : State) (l : Fin 16) (far : Bool) (seq : BitVec 12) (again : Bool), s.obcUp l = true →
    ∃ t, exec (.obcorReplay l far seq again) s = .next t ∧
      t.reg (Reg.obcCnt l 2) = (if far then s.reg (Reg.obcCnt l 2) else s.reg (Reg.obcCnt l 2) + 1) ∧
      t.reg (Reg.obcCnt l 3) =
        (if far then s.reg (Reg.obcCnt l 3) + BitVec.ofNat 64 (s.heldFrom l seq.toNat) else s.reg (Reg.obcCnt l 3)) ∧
      t.obcUp l = decide (¬ (again = true ∧ 16 ≤ Tab.get 0 l.val s.hub.obcorFails))) ∧
  (∀ (s : State) (l : Fin 16) (control : Bool) (d : BitVec 13) (n : Nat), s.obcUp l = true → d.toNat ≠ s.fleetIndex →
    ∃ t, exec (.obcorRelay l control d n) s = .next t ∧
      t.fleet.relayed =
        if d.toNat ≤ 4096 ∧ s.fldB (Reg.obcRouteValid d.toNat) = true ∧ s.obcUp (s.fld (Reg.obcRouteLink d.toNat)) = true ∧
            (if control then s.stewardUp = true
             else s.fld (Reg.obcLinkStatusVersion l) = 3 ∧
              s.fld (Reg.obcLinkStatusVersion (s.fld (Reg.obcRouteLink d.toNat))) = 3)
        then s.fleet.relayed ++ [(control, s.fld (Reg.obcRouteLink d.toNat), n)] else s.fleet.relayed) ∧
  (∀ (h : FlitHeader) (p : List Byte), (flit h p).length = 272 ∧ flitOk (flit h p) = true ∧
    FlitHeader.ofBytes (flit h p) = h) ∧
  (∀ m : DataMsg, m.data.length < 2 ^ 32 → dataOf m.epoch (dataBytes m) = some m) ∧
  (∀ (src dest : BitVec 13) (epoch : BitVec 32) (count pip : BitVec 64),
    tokenOf (tokenBytes src dest epoch count pip) =
      (src.toNat, dest.toNat, epoch.toNat, count.toNat, pip.toNat)) ∧
  (∀ (sender reporter : BitVec 13) (epoch : BitVec 32) (step : BitVec 64) (cause : BitVec 8),
    noticeOf (noticeBytes sender reporter epoch step cause) =
      (sender.toNat, reporter.toNat, epoch.toNat, step.toNat, cause.toNat)) ∧
  (∀ x : TimeFlit, timeOf (timeBytes x) = x)

/-- The manager of a fleet (R334, R354, R462 to R465): a JOIN gives the package its index and a WELCOME; messages of a
worker that it knows update what the manager holds of it; an echo report waits for the others of its set, and the last
one settles the round; the last ARMED of a set ends the launch; a LATE aborts the
launch at the workers that armed it; an accepted set is recorded; a set whose one member is ready is launched; heartbeats go to every worker; a worker that is lost,
50 ms after its last heartbeat, or leaves is forgotten, and its set goes on with the others under a new identifier. -/
def Obligations.ManagerTracksItsWorkers : Prop :=
  (∀ (s : State) (l : Fin 16) (serial : BitVec 128) (g c v : BitVec 8) (prev : BitVec 13) (i : Nat), s.manages = true →
    s.obcUp l = true → s.indexFor serial.toNat prev.toNat = some i →
    ∃ t, exec (.join l serial g c v prev) s = .next t ∧
      t.worker i = some ⟨i, serial.toNat, g.toNat, c.toNat, v.toNat, s.upTime, 0, 0, 0, 0, 0, none, none, false,
        false⟩ ∧
      (i < 4097 → t.fld (Reg.obcRouteLink i) = l.val ∧ t.fldB (Reg.obcRouteValid i) = true) ∧
      t.fleet.sent = s.fleet.sent ++ [⟨msgWelcome, i, [i, s.fleet.heartbeatMs, t.fleet.standby]⟩]) ∧
  (∀ (s : State) (w : BitVec 13) (step : BitVec 64) (digest : BitVec 128) (ledgers : List (Fin 256 × BitVec 128))
    (values : List (Fin 256 × BitVec 64)), s.manages = true → s.chk.reports = [] →
    ((s.setOf w.toNat).2 = [w.toNat] →
      ∃ t, exec (.echoReport w step digest ⟨ledgers, values⟩) s = .next t ∧ t.chk.reports = [] ∧
        t.fleet.agreed = step.toNat ∧
        t.fleet.sent = s.fleet.sent ++ [⟨msgVerdict, w.toNat, [verdictAgree, step.toNat]⟩]) ∧
    ((∃ m ∈ (s.setOf w.toNat).2, m ≠ w.toNat) →
      (∀ x, s.worker w.toNat = some x → x.step < step.toNat + 1 + s.fld Reg.chkEchoCtrlLag) →
      ∃ t, exec (.echoReport w step digest ⟨ledgers, values⟩) s = .next t ∧ t.fleet.sent = s.fleet.sent ∧
        t.chk.reports = [⟨w.toNat, step.toNat, digest.toNat, ledgers.map fun l => (l.1.val, l.2.toNat),
          values.map fun l => (l.1.val, l.2.toNat)⟩])) ∧
  (∀ (s : State) (w : BitVec 13) (x : Worker) (t0 : BitVec 64), s.manages = true → s.worker w.toNat = some x →
    s.fleet.launchAt = some t0.toNat →
    ∃ t y, exec (.armed w t0) s = .next t ∧ t.worker w.toNat = some y ∧
      ((∃ m ∈ (s.setOf w.toNat).2, m ≠ w.toNat ∧ ∀ z, s.worker m = some z → z.armed ≠ some t0.toNat) →
        y.armed = some t0.toNat ∧ t.fleet.launchAt = some t0.toNat) ∧
      ((∀ m ∈ (s.setOf w.toNat).2, m ≠ w.toNat → ∃ z, s.worker m = some z ∧ z.armed = some t0.toNat) →
        t.fleet.launchAt = none)) ∧
  (∀ (s : State) (w : BitVec 13) (t0 : BitVec 64), s.manages = true → s.fleet.launchAt = some t0.toNat →
    ∃ t rest, exec (.late w t0) s = .next t ∧
      t.fleet.sent = s.fleet.sent ++ ((s.setOf w.toNat).2.filter fun m =>
        (s.worker m).any fun x => x.armed == some t0.toNat).map (fun m => ⟨msgAbort, m, [t0.toNat]⟩) ++ rest ∧
      ∀ x ∈ t.fleet.workers, x.index ∈ (s.setOf w.toNat).2 → x.armed = none) ∧
  (∀ (s : State) (w : BitVec 13) (x : Worker) (step : BitVec 64) (outcome : BitVec 4), s.manages = true →
    s.worker w.toNat = some x →
    ∃ t, exec (.ready w step outcome) s = .next t ∧
      t.worker w.toNat = some { x with step := step.toNat, outcome := outcome.toNat, armed := none, due := false } ∧
      (outcome = 1 → (s.setOf w.toNat).2 = [w.toNat] → x.timeState = timeLocked → x.errEst ≤ Config.launchBound →
        s.fleet.launchAt = none →
        t.fleet.launchAt = some (s.glc + launchMargin + x.errEst + 2000) ∧
        t.fleet.sent = s.fleet.sent ++ [⟨msgLaunch, w.toNat, [s.glc + launchMargin + x.errEst + 2000]⟩])) ∧
  (∀ (s : State) (w : BitVec 13) (x : Worker) (id : BitVec 32), s.manages = true → s.worker w.toNat = some x →
    ∃ t, exec (.assigned w id 0) s = .next t ∧ t.worker w.toNat = some { x with
        assigned := some id.toNat
        fresh := ((s.fleet.sets.find? fun y => y.1 == id.toNat).getD (id.toNat, [])).2.contains w.toNat } ∧
      (t.setOf w.toNat).1 = id.toNat) ∧
  (∀ (s : State) (w : BitVec 13) (x : Worker) (g step : BitVec 64) (ts ls : BitVec 3) (e : BitVec 16), s.manages = true →
    s.worker w.toNat = some x → s.chk.reports = [] →
    ∃ t, exec (.heartbeat w g ts e step ls) s = .next t ∧
      t.worker w.toNat = some { x with
        lastSeen := s.upTime, timeState := ts.toNat, errEst := e.toNat, step := step.toNat, load := ls.toNat }) ∧
  (∀ s : State, s.manages = true → s.fleet.launchAt = none →
    ∃ t rest, exec .heartbeatTimer s = .next t ∧
      t.fleet.sent = s.fleet.sent ++ (s.fleet.workers.map fun x => ⟨msgHeartbeat, x.index, s.beat⟩) ++ rest ∧
      (∀ m ∈ rest, m.msg = msgAssign) ∧
      ((∀ x ∈ s.fleet.workers, s.fleet.sets.any (fun y => y.2.contains x.index) = true) → rest = [])) ∧
  (∀ (s : State) (w : BitVec 13) (x : Worker), s.manages = true → s.chk.reports = [] → s.worker w.toNat = some x →
    (s.upTime < x.lastSeen + 50000000 → exec (.workerLost w) s = .next s) ∧
    (x.lastSeen + 50000000 ≤ s.upTime →
      ∃ t, exec (.workerLost w) s = .next t ∧ t.worker w.toNat = none ∧
        (∀ v, v ≠ w.toNat → (t.worker v).isSome = (s.worker v).isSome) ∧
        ∀ y, s.fleet.sets.find? (fun y => y.2.contains w.toNat) = some y →
          t.fleet.sets = (s.fleet.sets.filter fun z => z.1 != y.1) ++
            [(1 + (s.fleet.sets.map Prod.fst).foldl max 0, y.2.filter fun v => v != w.toNat)])) ∧
  (∀ (s : State) (w : BitVec 13) (cause : BitVec 8) (x : Worker), s.manages = true → s.chk.reports = [] →
    s.worker w.toNat = some x →
    ∃ t, exec (.leave w cause) s = .next t ∧ t.worker w.toNat = none ∧
      (∀ v, v ≠ w.toNat → (t.worker v).isSome = (s.worker v).isSome) ∧
      ∀ y, s.fleet.sets.find? (fun y => y.2.contains w.toNat) = some y →
        t.fleet.sets = (s.fleet.sets.filter fun z => z.1 != y.1) ++
          [(1 + (s.fleet.sets.map Prod.fst).foldl max 0, y.2.filter fun v => v != w.toNat)])

/-- A package that follows a manager (R334, R400, R462 to R465): WELCOME joins it under its index; a LAUNCH that comes too
late is answered LATE and arms nothing; an ASSIGN during a step is refused, one that is whole takes effect, and one that
still waits for its image is kept; the loss of the manager, 1 s after its last heartbeat, is shown, and a
STANDBY becomes the manager with the sets that it mirrors; a message of the manager is noted; ABORT cancels an armed
launch; an expelled package that is admitted is no longer expelled. -/
def Obligations.WorkersFollowTheirManager : Prop :=
  (∀ (s : State) (i : BitVec 13) (p : BitVec 16) (sb : BitVec 13), s.role = roleWorker ∨ s.role = roleStandby →
    s.stewardUp = true → s.fleet.joinReq = none →
    ∃ t, exec (.welcome i p sb) s = .next t ∧ t.fld Reg.hubFleetStatusJoined = 1 ∧ t.fleetIndex = i.toNat ∧
      t.fleet.heartbeatMs = p.toNat ∧ t.fleet.standby = sb.toNat ∧ t.fleet.managerSeen = some s.upTime ∧ t.mem = s.mem) ∧
  (∀ (s : State) (t0 : BitVec 64), s.follows = true → t0.toNat ≤ s.glc →
    ∃ t, exec (.launch t0) s = .next t ∧ t.cfg = s.cfg ∧
      t.fleet.sent = s.fleet.sent ++ [⟨msgLate, s.fleet.managerIndex, [t0.toNat]⟩]) ∧
  (∀ (s : State) (t0 : BitVec 64), s.follows = true → s.glc < t0.toNat → s.startCode = 0 →
    ∃ t, exec (.launch t0) s = .next t ∧ t.reg Reg.cfgRunAt = t0 ∧ t.cfg.run.armed = true ∧
      t.fleet.sent = s.fleet.sent ++ [⟨msgArmed, s.fleet.managerIndex, [t0.toNat]⟩]) ∧
  (∀ (s : State) (t0 : BitVec 64), s.follows = true → s.loadState = loadRunning → s.stepRunning = false →
    s.flt.stopKind = none →
    ∃ t, exec (.abort t0) s = .next t ∧ t.loadState = loadLoaded ∧ t.cfg.run.armed = false ∧ t.mem = s.mem) ∧
  (∀ (s : State) (p : AssignPart), s.role ≠ roleAlone → s.stewardUp = true → s.stepRunning = true →
    ∃ t, exec (.assign p) s = .next t ∧ t.cfg = s.cfg ∧ t.fleet.parts = s.fleet.parts ∧
      t.fleet.members = s.fleet.members ∧
      t.fleet.sent = s.fleet.sent ++ [⟨msgAssigned, s.fleet.managerIndex, [p.setId.toNat, 1]⟩]) ∧
  (∀ (s : State) (p : AssignPart), s.role ≠ roleAlone → s.stewardUp = true → s.stepRunning = false →
    s.loadState ≠ loadLoaded →
    ∃ t, exec (.assign p) s = .next t ∧ p ∈ t.fleet.parts ∧ t.fleet.sent = s.fleet.sent ∧
      t.regs = (s.flitFrom s.fleet.managerIndex).regs) ∧
  (∀ (s : State) (p : AssignPart) (u : State), s.role ≠ roleAlone → s.stewardUp = true → s.stepRunning = false →
    s.loadState = loadLoaded → s.reg Reg.cfgImageId = p.imageId → p.part = 0 → p.parts = 1 → s.fleet.parts = [] →
    ((s.flitFrom s.fleet.managerIndex).setFleetState { s.fleet with parts := [p] }).stewardCommit groupDetRank
      [(Reg.detRankDpRank, p.dpRank.toNat), (Reg.detRankGroupRank, p.groupRank.toNat)] = (0, u) →
    (u.stewardCommit groupEchoCtrl
      [(Reg.chkEchoCtrlInterval, p.interval.toNat), (Reg.chkEchoCtrlEnable, b2n p.enable)]).1 = 0 →
    ∃ t, exec (.assign p) s = .next t ∧ t.fleet.parts = [] ∧ t.fleet.members = p.members.map BitVec.toNat ∧
      t.fld Reg.hubFleetStatusSetId = p.setId.toNat % 2 ^ (Reg.hubFleetStatusSetId.hi + 1 - Reg.hubFleetStatusSetId.lo) ∧
      t.fleet.sent = s.fleet.sent ++ [⟨msgAssigned, s.fleet.managerIndex, [p.setId.toNat, 0]⟩]) ∧
  (∀ s : State, s.stewardUp = true → s.role = roleWorker ∨ s.role = roleStandby → s.fleet.joinReq = none →
    (∀ last, s.fleet.managerSeen = some last → last + 1000000000 ≤ s.upTime) →
    ∃ t, exec .managerLost s = .next t ∧ t.fleet.managerSeen = none ∧ t.fld Reg.hubFleetStatusManagerSeen = 0 ∧
      (s.role = roleStandby → t.role = roleManager ∧ t.fleet.sets = s.fleet.mirror.sets ∧
        t.fleet.agreed = s.fleet.mirror.step)) ∧
  (∀ (s : State) (g step : BitVec 64) (ts ls : BitVec 3) (e : BitVec 16) (m : BitVec 13), s.follows = true →
    m.toNat = s.fleet.managerIndex →
    ∃ t, exec (.heartbeat m g ts e step ls) s = .next t ∧ t.fleet.managerSeen = some s.upTime ∧
      t.fld Reg.hubFleetStatusManagerSeen = 1) ∧
  (∀ s : State, s.follows = true →
    ∃ t, exec .heartbeatTimer s = .next t ∧ t.mem = s.mem ∧
      t.fleet.sent = s.fleet.sent ++ [⟨msgHeartbeat, s.fleet.managerIndex, s.beat⟩]) ∧
  (∀ (s : State) (last : Nat), s.fleet.managerSeen = some last → s.upTime < last + 1000000000 →
    exec .managerLost s = .next s) ∧
  (∀ (s : State) (sets : List (BitVec 32 × List (BitVec 13))) (routes : List (BitVec 13 × Fin 16))
    (verdicts : List (BitVec 13 × BitVec 2 × BitVec 64)) (k : BitVec 64), s.role = roleStandby →
    ∃ t, exec (.standbyMirror ⟨sets, routes, verdicts⟩ k) s = .next t ∧ t.fleet.agreed = k.toNat ∧
      t.fleet.mirror = ⟨sets.map fun x => (x.1.toNat, x.2.map BitVec.toNat), routes.map fun x => (x.1.toNat, x.2.val),
        verdicts.map fun x => (x.1.toNat, x.2.1.toNat, x.2.2.toNat, 0), k.toNat⟩ ∧ t.fleet.sets = s.fleet.sets) ∧
  (∀ (s : State) (id : BitVec 32), s.follows = true → s.fleet.expelled = true →
    ∃ t, exec (.admitSet id) s = .next t ∧ t.fleet.expelled = false ∧
      t.fld Reg.hubFleetStatusSetId = id.toNat % 2 ^ (Reg.hubFleetStatusSetId.hi + 1 - Reg.hubFleetStatusSetId.lo))

/-- The PCIe port (R454, R456, R473, R513): a function level reset and PERST_N return the endpoint's registers to their reset
values, a function level reset leaving BAR2_CFG and OUT_BASE; the link trains from the release, or as a root port once start-up has
released PERST_N, with the speed, width and flit mode that it reached; a host reads and writes the vectors of the MSI-X table
(their layout: log entry 196), and its configuration requests are retried until phase FIRMWARE ends (R509; the place of the
device ID: log entry 229); an MSI to RP_MSI_ADDR is queued while 64 do not wait, and else sets OVERFLOW; a read of
RP_MSI_DATA takes the oldest message; a configuration request for buses 1 to 255 leaves, and a read that no device answers
reads all ones; the Revision ID is the STEPPING of PKG.IDENT (R455, Table 16.13). -/
def Obligations.PciePortResetsAndTakesMessages : Prop :=
  (∀ s : State, s.rootPort = false →
    ∃ t, exec .functionLevelReset s = .next t ∧ t.reg Reg.pcieBar2Cfg = s.reg Reg.pcieBar2Cfg ∧
      t.reg Reg.pcieOutBase = s.reg Reg.pcieOutBase ∧ t.reg Reg.pcieRpMsiAddr = resetWord Reg.pcieRpMsiAddr ∧
      t.mem = s.mem ∧ t.pkg = s.pkg) ∧
  (∀ s : State, s.rootPort = false →
    ∃ t, exec .pciePerst s = .next t ∧ t.pkg.perstN = false ∧ t.reg Reg.pcieBar2Cfg = resetWord Reg.pcieBar2Cfg ∧
      t.reg Reg.pcieOutBase = resetWord Reg.pcieOutBase ∧ t.fld Reg.pkgResetCausePerst = 1 ∧ t.hub.msix = [] ∧
      t.hub.msixPending = [] ∧ t.mem = s.mem) ∧
  (∀ (s : State) (speed : BitVec 3) (width : BitVec 5) (flit : Bool), s.held = false →
    s.fldB Reg.pcieStatusLinkUp = false → s.rootPort = false ∨ s.pkg.perstN = true → 1 ≤ speed.toNat →
    speed.toNat ≤ 6 → width.toNat ∈ [1, 2, 4, 8, 16] →
    ∃ t, exec (.pciePerstRelease speed width flit) s = .next t ∧ t.pkg.perstN = true ∧ t.fld Reg.pcieStatusLinkUp = 1 ∧
      t.fld Reg.pcieStatusSpeed = speed.toNat ∧ t.fld Reg.pcieStatusWidth = width.toNat ∧
      (t.fldB Reg.pcieStatusFlit = true ↔ flit = true ∨ speed.toNat = 6)) ∧
  (∀ (s : State) (a : BitVec 64) (d : BitVec 32), s.rootPort = true → a = s.reg Reg.pcieRpMsiAddr →
    ∃ t, exec (.msiReceive a d) s = .next t ∧ t.mem = s.mem ∧
      if s.hub.msi.length < 64 then
        t.hub.msi = s.hub.msi ++ [d.toNat] ∧ t.fld (Reg.hubIrqRoutePending irqPcieRp) = 1
      else t.hub.msi = s.hub.msi ∧ t.hub.msiOverflow = true) ∧
  (∀ s : State, s.rootPort = true →
    ∃ t, exec .rpMsiDataRead s = .next t ∧ t.hub.msi = s.hub.msi.drop 1 ∧ t.hub.msiOverflow = false ∧
      t.response = .ok (BitVec.ofNat 512 s.msiWord) ∧ t.regs = s.regs) ∧
  (∀ (s : State) (a : Option (BitVec 32)), s.pkg.ready = true → s.rootPort = true →
    ∃ t, exec (.rpCfgDataAccess none a) s = .next t ∧
      t.response = .ok (BitVec.ofNat 512 (if bits (s.fld Reg.pcieRpCfgAddrAddr) 27 20 = 0 then 0xFFFFFFFF
        else (a.getD 0xFFFFFFFF).toNat)) ∧
      t.hub.pcieOut = if bits (s.fld Reg.pcieRpCfgAddrAddr) 27 20 = 0 then s.hub.pcieOut
        else s.hub.pcieOut ++ [.config (s.fld Reg.pcieRpCfgAddrAddr) none]) ∧
  (∀ (s : State) (v : BitVec 32) (a : Option (BitVec 32)), s.pkg.ready = true → s.rootPort = true →
    ∃ t, exec (.rpCfgDataAccess (some v) a) s = .next t ∧ t.response = .ok 0 ∧ t.fld Reg.pcieRpCfgDataData = v.toNat ∧
      t.hub.pcieOut = if bits (s.fld Reg.pcieRpCfgAddrAddr) 27 20 = 0 then s.hub.pcieOut
        else s.hub.pcieOut ++ [.config (s.fld Reg.pcieRpCfgAddrAddr) (some v.toNat)]) ∧
  (∀ (s : State) (i : Fin 2048) (a : Addr) (v : List Byte), s.answers .pcie = true → s.rootPort = false →
    a.toNat = 16 * i.val → v.length = 8 →
    ∃ t, exec (.dieWindowAccess .pcie a 8 ⟨.msix, some v, []⟩) s = .next t ∧ (t.msixVector i).addr = leNat v ∧
      (t.msixVector i).masked = (s.msixVector i).masked ∧ (∀ j, j ≠ i.val → t.msixVector j = s.msixVector j) ∧
      t.response = .ok 0 ∧ t.mem = s.mem ∧ t.regs = s.regs) ∧
  (∀ (s : State) (i : Fin 2048) (a : Addr), s.answers .pcie = true → s.rootPort = false → a.toNat = 16 * i.val →
    ∃ t, exec (.dieWindowAccess .pcie a 8 ⟨.msix, none, []⟩) s = .next t ∧
      t.response = .ok (BitVec.ofNat 512 ((s.msixVector i).addr % 2 ^ 64)) ∧ t.hub = s.hub) ∧
  (∀ (s : State) (a : Addr) (n : Nat), s.answers .pcie = true → s.rootPort = false →
    ∃ t, exec (.dieWindowAccess .pcie a n ⟨.config, none, []⟩) s = .next t ∧ t.mem = s.mem ∧ t.regs = s.regs ∧
      (s.past 3 = false → t.response = .retry) ∧
      (s.past 3 = true → a.toNat = 2 → n = 2 → t.response = .ok 0x4820)) ∧
  (∀ s : State, s.functionId.revision.toNat = bits s.identWord 23 16 ∧
    s.functionId.device.toNat = bits s.identWord 15 0)

/-- Rails and temperatures (R474, R478, R480 to R482): a sample of each rail group that keeps AUX above its supervisor's
limit is shown as NOW with MIN and MAX around it, and one outside its window is counted; one below it is a power-on reset
that holds the package, after which the meter marks its next record (R477, R485, R503); REARM makes MIN and MAX the
current sample; the throttle level of a compute die rises to the level reached, or falls by one, and that of the hub is its
number of HCLK steps; a sensor at its trip temperature
asserts THERM_TRIP and stops a running step, and one below it, or one of a held package, does nothing; the release ends the trip. -/
def Obligations.RailsAndTemperaturesAreWatched : Prop :=
  (∀ (s : State) (mvs : List (BitVec 16)) (g : Fin 14), mvs.length = 14 → 1620 ≤ (mvs.getD 13 0).toNat →
    s.pkg.powerGood = true → s.pkg.resetN = true →
    ∃ t, exec (.railSample mvs) s = .next t ∧ t.fld (Reg.pwrRailNowMv g) = (mvs.getD g 0).toNat ∧
      t.fld (Reg.pwrRailMinMv g) = min (mvs.getD g 0).toNat (s.fld (Reg.pwrRailMinMv g)) ∧
      t.fld (Reg.pwrRailMaxMv g) = max (mvs.getD g 0).toNat (s.fld (Reg.pwrRailMaxMv g)) ∧
      t.reg (Reg.pwrCnt g) = s.reg (Reg.pwrCnt g) + (if outsideWindow g (mvs.getD g 0).toNat then 1 else 0)) ∧
  (∀ (s : State) (mvs : List (BitVec 16)), mvs.length = 14 → (mvs.getD 13 0).toNat < 1620 →
    s.pkg.auxLow = false →
    ∃ t, exec (.railSample mvs) s = .next t ∧ t.pkg.auxLow = true ∧ t.held = true ∧ t.pkg.ready = false ∧ t.mem = [] ∧ t.mtr.restarted = true ∧
      t.mtr.energy = s.mtr.energy ∧ t.flt.nor = s.flt.nor) ∧
  (∀ (s : State) (v : Word) (g : Fin 14), s.pkg.ready = true → bit (Reg.pwrRearmRails.of v.toNat) g = true →
    ∃ t, exec (.rearm v) s = .next t ∧ t.fld (Reg.pwrRailMinMv g) = s.fld (Reg.pwrRailNowMv g) ∧
      t.fld (Reg.pwrRailMaxMv g) = s.fld (Reg.pwrRailNowMv g)) ∧
  (∀ (s : State) (d : Fin 4) (tj : Int), s.fld (Reg.pwrThermLevel d) ≤ 4 →
    ∃ t, exec (.throttleEvaluation d.castSucc tj) s = .next t ∧ t.fld (Reg.pwrThermTj d) = word16 tj ∧
      t.fld (Reg.pwrThermLevel d) =
        nextLevel (s.fld Reg.pwrThrottleCtrlStartC) tj (s.fld (Reg.pwrThermLevel d)) ∧
      (nextLevel (s.fld Reg.pwrThrottleCtrlStartC) tj (s.fld (Reg.pwrThermLevel d)) ≠ s.fld (Reg.pwrThermLevel d) →
        t.reg (Reg.pwrCnt 18) = s.reg (Reg.pwrCnt 18) + 1)) ∧
  (∀ (s : State) (tj : Int),
    ∃ t, exec (.throttleEvaluation 4 tj) s = .next t ∧ t.fld (Reg.pwrThermTj 4) = word16 tj ∧
      t.fld (Reg.pwrThermLevel 4) = hclkSteps (s.fld Reg.pwrThrottleCtrlStartC) tj) ∧
  (∀ (s : State) (n : Fin 28) (temp : BitVec 16) (limit : Int), tripTemp n = some limit →
    (temp.toInt < limit ∨ s.held = true → exec (.thermalTrip n temp) s = .next s) ∧
    (limit ≤ temp.toInt → s.held = false → s.flt.stopKind = none →
      ∃ t, exec (.thermalTrip n temp) s = .next t ∧ t.pkg.thermTrip = true ∧ t.stepRunning = false ∧
        t.pwr.tripBy.contains n.val = true)) ∧
  (∀ s : State, ∃ t, exec .thermalTripRelease s = .next t ∧ t.pkg.thermTrip = false ∧ t.pwr.tripBy = [] ∧
    (∀ d : Fin 5, t.fld (Reg.pwrThermTrip d) = 0) ∧ t.mem = s.mem)

/-- Meter and alarm (R483 to R490): an interval adds each channel's energy, its remainder below one
mWh kept, and emits the next record under the meter's signature (R483 to R485; the samples' units: log entry 227); a valid record is shown in
STATUS and kept, and one that reports a new seal break is an alarm; a lost meter link clears LINK_OK; a detected source is latched, and erases the keys where its action
says so; an ignored source, and any of a held package, changes nothing. -/
def Obligations.MeterRecordsAndAlarmsAct : Prop :=
  (∀ (s : State) (i : MeterInterval),
    ∃ t, exec (.meterInterval i) s = .next t ∧ t.mtr.sequence = s.mtr.sequence + 1 ∧
      (∀ c < 16, t.mtr.energy.getD c 0 * milliwattHour + t.mtr.remainder.getD c 0 =
          s.mtr.energy.getD c 0 * milliwattHour + s.mtr.remainder.getD c 0 + intervalUnits i c ∧
        t.mtr.remainder.getD c 0 < milliwattHour) ∧
      (∃ m : MeterState, m.energy = t.mtr.energy ∧ m.sequence = s.mtr.sequence ∧ m.key = s.mtr.key ∧
        t.mtr.emitted = m.recordBody (overrange i) ++ m.signature (m.recordBody (overrange i))) ∧
      t.mtr.seconds = s.mtr.seconds + 1 ∧ t.regs = s.regs ∧ t.mem = s.mem) ∧
  (∀ (s : State) (b : List Byte), recordValid b = true → s.held = false → bit (le b 6 2) 0 = false →
    ∃ t, exec (.meterRecord b) s = .next t ∧ t.mtr.mirror = ((b, s.glc) :: s.mtr.mirror).take 4096 ∧
      t.fld Reg.mtrStatusLinkOk = 1 ∧ t.fld Reg.mtrStatusTampered = 0 ∧ t.fld Reg.mtrStatusLatestSeq = le b 16 4) ∧
  (∀ (s : State) (b : List Byte), recordValid b = true → s.held = false → bit (le b 6 2) 0 = true →
    ∃ t, exec (.meterRecord b) s = .next t ∧ t.mtr.mirror = ((b, s.glc) :: s.mtr.mirror).take 4096 ∧
      t.fld Reg.mtrStatusTampered = 1 ∧
      if s.newBreak b = true ∧ s.alarmAction 0 ≠ 0 then bit (t.fld Reg.secAlarmStatusLatched) 0 = true
      else t.reg Reg.secAlarmStatus = s.reg Reg.secAlarmStatus) ∧
  (∀ (s : State) (b : List Byte), recordValid b = false ∨ s.held = true → exec (.meterRecord b) s = .next s) ∧
  (∀ s : State, s.auxOk = true → s.fldB Reg.mtrStatusLinkOk = true →
    ∃ t, exec .meterLinkLost s = .next t ∧ t.fld Reg.mtrStatusLinkOk = 0 ∧
      (s.alarmAction 1 ≠ 0 → s.held = false → bit (t.fld Reg.secAlarmStatusLatched) 1 = true)) ∧
  (∀ (s : State) (b : Fin 6),
    (s.alarmAction b = 0 ∨ s.held = true → exec (.alarm b) s = .next s) ∧
    (s.alarmAction b ≠ 0 → s.held = false →
      ∃ t, exec (.alarm b) s = .next t ∧ bit (t.fld Reg.secAlarmStatusLatched) b = true ∧
        t.fld Reg.secAlarmStatusKeysLocked = (if s.alarmAction b = 3 then 1 else s.fld Reg.secAlarmStatusKeysLocked) ∧
        (2 ≤ s.alarmAction b → t.sec.customer = [] ∧ t.fld Reg.secAlarmStatusKeysErased = 1) ∧
        (s.alarmAction b = 1 → t.sec = s.sec)))

/-- Customer keys, debug unlock and fuses (R491 to R495): a secure core writes and reads a word of the selected slot, and any
other agent's read reads 0; a right response unlocks debug and erases the keys, a wrong one is counted; a fuse operation
that its rules allow is started and one that they refuse reports its code; at its end the fuses are blown. -/
def Obligations.KeysAndFusesAreGuarded : Prop :=
  (∀ (s : State) (w : Fin 4) (v : Word), s.answers .coreSecure = true → s.fldB Reg.secAlarmStatusKeysLocked = false →
    ∃ t, exec (.keyDataAccess .coreSecure w (some v)) s = .next t ∧
      Tab.get 0 s.keySlot t.sec.customer = setBits (Tab.get 0 s.keySlot s.sec.customer) (64 * w + 63) (64 * w) v.toNat ∧
      t.regs = s.regs) ∧
  (∀ (s : State) (ag : Agent) (w : Fin 4), s.answers ag = true →
    ∃ t, exec (.keyDataAccess ag w none) s = .next t ∧ t.sec = s.sec ∧
      t.response = .ok (if ag = .coreSecure then
        BitVec.ofNat 512 (bits (Tab.get 0 s.keySlot s.sec.customer) (64 * w + 63) (64 * w)) else 0)) ∧
  (∀ (s : State) (ag : Agent) (w : Fin 4) (v : Word), ag ≠ .coreSecure ∨ s.fldB Reg.secAlarmStatusKeysLocked = true →
    ∃ t, exec (.keyDataAccess ag w (some v)) s = .next t ∧ t.sec = s.sec) ∧
  (∀ (s : State) (slot : Fin 2) (ch key r sg : List Byte),
    ∃ t, exec (.debugUnlock slot ch key r sg) s = .next t ∧
      if s.unlockOk slot ch key r sg then t.sec.unlocked = true ∧ t.sec.customer = []
      else t.sec.unlocked = s.sec.unlocked ∧ t.sec.unlockFails = s.sec.unlockFails + 1) ∧
  (∀ (s : State) (v : Word), s.pkg.ready = true → Reg.secFuseCmdOp.of v.toNat = 1 →
    Reg.secFuseCmdGo.of v.toNat = 1 → s.fldB Reg.secFuseStatusBusy = false →
    ∃ t, exec (.fuseProgram v) s = .next t ∧ t.fld Reg.secFuseStatusCode = s.fuseCode v.toNat ∧
      if s.fuseCode v.toNat = 0 then t.sec = { s.sec with fuse := some v } ∧ t.fld Reg.secFuseStatusBusy = 1
      else t.sec = s.sec ∧ t.fld Reg.secFuseStatusBusy = 0) ∧
  (∀ (s : State) (v : Word), s.pkg.ready = true → Reg.secFuseCmdOp.of v.toNat = 2 →
    Reg.secFuseCmdGo.of v.toNat = 1 → s.fldB Reg.secFuseStatusBusy = false →
    ∃ t, exec (.fuseRevoke v) s = .next t ∧ t.fld Reg.secFuseStatusCode = s.fuseCode v.toNat ∧
      if s.fuseCode v.toNat = 0 then t.sec = { s.sec with fuse := some v } ∧ t.fld Reg.secFuseStatusBusy = 1
      else t.sec = s.sec ∧ t.fld Reg.secFuseStatusBusy = 0) ∧
  (∀ (s : State) (v : Word), s.pkg.ready = true → Reg.secFuseCmdOp.of v.toNat = 3 →
    Reg.secFuseCmdGo.of v.toNat = 1 → s.fldB Reg.secFuseStatusBusy = false →
    ∃ t, exec (.fuseRaise v) s = .next t ∧ t.fld Reg.secFuseStatusCode = s.fuseCode v.toNat ∧
      if s.fuseCode v.toNat = 0 then t.sec = { s.sec with fuse := some v } ∧ t.fld Reg.secFuseStatusBusy = 1
      else t.sec = s.sec ∧ t.fld Reg.secFuseStatusBusy = 0) ∧
  (∀ (s : State) (v : Word), s.sec.fuse = some v →
    ∃ t, exec .fuseComplete s = .next t ∧ t.sec.fuse = none ∧ t.fld Reg.secFuseStatusBusy = 0 ∧
      (Reg.secFuseCmdOp.of v.toNat = 1 → Reg.secFuseCmdSlot.of v.toNat < 10 →
        t.fld (Reg.secSlotState (Reg.secFuseCmdSlot.of v.toNat)) = 1 ∧
        Tab.find (Reg.secFuseCmdSlot.of v.toNat) t.sec.digests = some s.fuseDigest) ∧
      (Reg.secFuseCmdOp.of v.toNat = 2 → Reg.secFuseCmdSlot.of v.toNat < 10 →
        t.fld (Reg.secSlotState (Reg.secFuseCmdSlot.of v.toNat)) = 2) ∧
      (Reg.secFuseCmdOp.of v.toNat = 3 →
        t.fld (minField (Reg.secFuseCmdClass.of v.toNat)) = (s.fld (minField (Reg.secFuseCmdClass.of v.toNat)) + 1) % 256))

/-- Resets and power-down (R504, R513 to R518): a power-down ends in power-on reset, where the
package stays held, with the frames it was sending stomped (R515); a package reset empties memory and the
loaded image, keeps the fuses, NOR and meter counters and counts itself; a fuse operation cut short leaves the fuses as
before or as after it (R495; for a package reset the model's choice, log entry 201); CORES returns the interrupt routes to
reset values and starts the loader again; TRST_N ends a debug session; a write of RESET_CTRL without GO, KEY and one
target, or one in a halted package, does nothing. -/
def Obligations.ResetsReturnToTheirState : Prop :=
  (∀ s : State, ∃ t, exec .powerDown s = .next t ∧ t.pkg.ready = false ∧ t.pkg.powerGood = false ∧ t.held = true ∧
    t.mem = [] ∧ (s.auxOk = true → s.held = false → t.pkg.cutFrames = s.stompedFrames) ∧
    t.cfg = State.reset.cfg ∧ t.flt.nor = s.flt.nor ∧ (∃ u, (u = s ∨ s.sec.fuse.isSome = true ∧ u = s.fuseComplete) ∧
      t.sec.digests = u.sec.digests ∧ ∀ o ∈ fuseRegs, t.reg o = u.reg o) ∧ t.sec.customer = [] ∧
    t.mtr = { s.mtr with mirror := [] } ∧
    t.reg Reg.pkgResetCause = resetWord Reg.pkgResetCause) ∧
  (∀ (s : State) (v : Word) (byBall : Bool), byBall = true ∨ (resetWanted v.toNat true = true ∧ s.pkg.halted = false) →
    ∃ t, exec (.packageReset byBall v) s = .next t ∧ t.pkg.ready = false ∧
      t.pkg.resetN = (s.pkg.resetN && !byBall) ∧ t.pkg.rootPort = s.pkg.rootPort ∧ t.mem = [] ∧ t.cfg = State.reset.cfg ∧
      t.flt.nor = s.flt.nor ∧ (∃ u, (u = s ∨ s.sec.fuse.isSome = true ∧ u = s.fuseComplete) ∧
      t.sec.digests = u.sec.digests ∧ ∀ o ∈ fuseRegs, t.reg o = u.reg o) ∧ t.mtr.energy = s.mtr.energy ∧
      t.reg Reg.secAlarmStatus = s.reg Reg.secAlarmStatus ∧
      t.fld (if byBall then Reg.pkgResetCauseResetN else Reg.pkgResetCauseRequest) = 1 ∧
      t.fld Reg.pkgResetCausePackageResets = (s.fld Reg.pkgResetCausePackageResets + 1) %
        2 ^ (Reg.pkgResetCausePackageResets.hi + 1 - Reg.pkgResetCausePackageResets.lo)) ∧
  (∀ (s : State) (v : Word), resetWanted v.toNat true = false ∨ s.pkg.halted = true → exec (.packageReset false v) s = .next s) ∧
  (∀ (s : State) (v : Word), s.pkg.ready = true → resetWanted v.toNat false = true →
    ∃ t, exec (.coresReset v) s = .next t ∧ (∀ n : Fin 528, t.reg (Reg.hubIrqRoute n) = resetWord (Reg.hubIrqRoute n)) ∧
      t.fld Reg.pkgResetCauseCores = 1 ∧
      (s.pkg.loader = none → t.pkg.coreEntry = none ∧ t.mem = s.mem)) ∧
  (∀ s : State, ∃ t, exec .testReset s = .next t ∧ t.sec = { s.sec with unlocked := false } ∧ t.regs = s.regs ∧
    t.mem = s.mem)

/-- Start-up (R503, R504, R506 to R509, R514, R516). With AUX low, PWR_GOOD low or RESET_N low nothing but the balls changes. From
phase 1 a command that runs to the end halts with code 1 without PLL lock, 2 with no steward pair, 3 with no firmware copy that
verifies under the FIRMWARE keys, and else reaches READY; PHASE shows a phase where the command stops before it (log entry 128)
or where a die's work waits for THERM_TRIP; PCIE_MODE is sampled once; ELAPSED_MS and the clock follow the time. The loader is
copied to its destination once, when phase MEMORY has ended and where that memory has trained, and core 0 starts at its
entry; elsewhere WARN 4 is set. -/
def Obligations.StartupReachesReadyOrHalts : Prop :=
  (∀ (s : State) (o : BootOutcome), (s.raiseBalls o).held = true →
    ∃ t, exec (.startup o) s = .next t ∧ t.regs = s.regs ∧ t.mem = s.mem ∧
      t.pkg = { s.pkg with powerGood := s.pkg.powerGood || o.pwrGood, resetN := s.pkg.resetN || o.resetN }) ∧
  (∀ (s k : State) (o : BootOutcome), (s.raiseBalls o).held = false → s.pkg.ready = false → s.pkg.halted = false →
    s.phase = 1 → s.pkg.thermTrip = false → o.upTo = 10 →
    k = (List.range 2).foldl (fun (s : State) i => s.takeKey (slotKeys o) i) s →
    ∃ t, exec (.startup o) s = .next t ∧ t.fld Reg.pkgBootStatusElapsedMs = o.elapsedMs.toNat ∧
      (o.pllLock = false → t.pkg.ready = false ∧ t.pkg.halted = true ∧ t.phase = 15 ∧ t.fld Reg.pkgBootStatusCode = 1) ∧
      (o.pllLock = true → o.pair0 = false → o.pair1 = false →
        t.pkg.ready = false ∧ t.pkg.halted = true ∧ t.phase = 15 ∧ t.fld Reg.pkgBootStatusCode = 2) ∧
      (o.pllLock = true → (o.pair0 || o.pair1) = true → k.copyCode o.copyA ≠ 0 → k.copyCode o.copyB ≠ 0 →
        t.pkg.ready = false ∧ t.pkg.halted = true ∧ t.phase = 15 ∧ t.fld Reg.pkgBootStatusCode = 3 ∧
        (o.pair0 = false → bit (t.fld Reg.pkgBootStatusWarn) 1 = true)) ∧
      (o.pllLock = true → (o.pair0 || o.pair1) = true → k.copyCode o.copyA = 0 ∨ k.copyCode o.copyB = 0 →
        t.pkg.ready = true ∧ t.pkg.halted = false ∧ t.phase = 10 ∧ t.pkg.pairs = [o.pair0, o.pair1])) ∧
  (∀ (s : State) (o : BootOutcome), (s.raiseBalls o).held = false → s.pkg.ready = false → s.pkg.halted = false →
    s.phase ≠ 10 → o.upTo.val ≤ s.phase ∨ (s.pkg.thermTrip = true ∧ s.phase = 8) →
    ∃ t, exec (.startup o) s = .next t ∧ t.phase = s.phase ∧ t.pkg.ready = false ∧ t.mem = s.mem ∧
      t.clock.sec * 1000000000 + t.clock.ns = s.clock.sec * 1000000000 + s.clock.ns +
        (o.elapsedMs.toNat - s.fld Reg.pkgBootStatusElapsedMs) * 1000000 ∧
      t.pkg.rootPort = if s.pkg.modeSampled then s.pkg.rootPort else o.pcieRoot) ∧
  (∀ (s : State) (o : BootOutcome), s.pkg.ready = true ∨ s.pkg.halted = true →
    ∃ t, exec (.startup o) s = .next t ∧ t.regs = s.regs ∧ t.mem = s.mem ∧ t.cfg = s.cfg) ∧
  (∀ (s : State) (l : Loader), s.pkg.loader = some l → s.pkg.pairs.contains true = true → s.past 7 = true →
    s.pkg.loaderStarted = false →
    ∃ t, exec .loaderStart s = .next t ∧
      if s.trained l.dest l.code.length then
        t.read l.dest l.code.length = l.code ∧ t.pkg.coreEntry = some (l.dest + l.entry) ∧ t.pkg.loaderStarted = true ∧
        ∀ x, x < l.dest ∨ l.dest + l.code.length ≤ x → t.byte x = s.byte x
      else t.pkg.coreEntry = s.pkg.coreEntry ∧ t.mem = s.mem ∧ bit (t.fld Reg.pkgBootStatusWarn) 4 = true) ∧
  (∀ s : State, s.past 7 = false → exec .loaderStart s = .next s)

/-- A bus write of a register (R13, R15, R16): a write that is not an aligned 64-bit one by an agent of register space has
no effect but its error response; at READY a write of a register without an action of its own changes its RW bits, clears
its W1C bits, sets its W1S bits and keeps every other active bit, and its RWG bits go to the shadow copy; no other
register changes, nor memory, the loaded image or the pins; an endpoint discards writes of the root-port registers. -/
def Obligations.RegisterWritesFollowAccessCodes : Prop :=
  (∀ (s : State) (ag : Agent) (a : Addr) (size off : Nat) (v : Word), s.region a.toNat = .register off →
    size ≠ 8 ∨ a.toNat % 8 ≠ 0 ∨ s.reachesRegisters ag = false →
    exec (.registerWrite ag a size v) s = .next (s.respond (errorResponse ag))) ∧
  (∀ (s : State) (ag : Agent) (a : Addr) (off : Nat) (v : Word) (k : RegKind) (ix : List Nat),
    s.region a.toNat = .register off → a.toNat % 8 = 0 → s.reachesRegisters ag = true → locate off = some (k, ix) → s.pkg.ready = true →
    actionRegs.contains off = false → k.base ≠ Reg.hubIrqRoute 0 → k.base ≠ Reg.secKeyData 0 →
    ∃ t, exec (.registerWrite ag a 8 v) s = .next t ∧ t.response = .ok 0 ∧ t.mem = s.mem ∧ t.cfg = s.cfg ∧
      t.pkg = s.pkg ∧
      (t.reg off).toNat = ((((s.reg off).toNat &&& (2 ^ 64 - 1 - k.mask .rw)) ||| (v.toNat &&& k.mask .rw)) &&&
        (2 ^ 64 - 1 - (v.toNat &&& k.mask .w1c))) ||| (v.toNat &&& k.mask .w1s) ∧
      (t.shadowReg off).toNat =
        (if k.mask .rwg = 0 then (s.shadowReg off).toNat
         else ((s.shadowReg off).toNat &&& (2 ^ 64 - 1 - k.mask .rwg)) ||| (v.toNat &&& k.mask .rwg)) ∧
      ∀ o, o ≠ off → t.reg o = s.reg o ∧ t.shadowReg o = s.shadowReg o) ∧
  (∀ (s : State) (ag : Agent) (a : Addr) (off : Nat) (v : Word), s.region a.toNat = .register off → a.toNat % 8 = 0 →
    ag ≠ .other → off ∈ rpRegs → s.rootPort = false → s.pkg.ready = true →
    exec (.registerWrite ag a 8 v) s = .next (s.respond (.ok 0)))

/-- Slips (R49, R436): in deterministic mode a slip moves its crossing one frame and counts in DET.CNT; during a step it also
counts in DET.STATUS, where the first one shows its crossing; elsewhere a slip changes nothing. -/
def Obligations.CrossingSlipsCount : Prop :=
  (∀ (s : State) (x : Fin 9) (aclk : Nat), s.deterministic = true → s.fld Reg.detStatusSlipsStep ≤ 65535 →
    ∃ t, exec (.crossingSlip x aclk) s = .next t ∧ Tab.get 0 x.val t.crossings = Tab.get 0 x.val s.crossings + 1 ∧
      (∀ y, y ≠ x.val → Tab.get 0 y t.crossings = Tab.get 0 y s.crossings) ∧
      t.reg (Reg.detCnt 0) = s.reg (Reg.detCnt 0) + 1 ∧
      t.fld Reg.detStatusSlipsStep =
        (if s.stepRunning = true then min (s.fld Reg.detStatusSlipsStep + 1) 65535 else s.fld Reg.detStatusSlipsStep) ∧
      t.fld Reg.detStatusFirstXing =
        (if s.stepRunning = true ∧ s.fld Reg.detStatusSlipsStep = 0 then x.val else s.fld Reg.detStatusFirstXing)) ∧
  (∀ (s : State) (x : Fin 9) (aclk : Nat), s.deterministic = false → exec (.crossingSlip x aclk) s = .next s)

/-- The unit table in the NOR and Lantern packs (R371 to R374, R380, R386): a table that is due to be written goes to the copy
not in use and becomes current with the next generation; a write that fails keeps both copies and what is due; a table that is not
due is not written; a pack that a check refuses reports its code, one that passes is BUSY; its activation makes the other
slot active with its version, and a NOR failure reports 0x40 and leaves the active slot. -/
def Obligations.DripstoneTablesAndPacksSwap : Prop :=
  (∀ s : State, s.pkg.pairs.contains true = true →
    (s.flt.stateDirty = true →
      (∃ t, exec (.dripstoneStateWrite true) s = .next t ∧ t.flt.nor.header.generation = s.flt.nor.header.generation + 1 ∧
        t.flt.nor.header.table = 1 - s.flt.nor.header.table ∧ t.flt.nor.header.pack = s.flt.nor.header.pack ∧
        (if s.flt.nor.header.table = 1 then t.flt.nor.tableA = s.flt.units ∧ t.flt.nor.tableB = s.flt.nor.tableB
         else t.flt.nor.tableB = s.flt.units ∧ t.flt.nor.tableA = s.flt.nor.tableA) ∧
        t.flt.stateDirty = false ∧ t.flt.countsDirty = false ∧ t.regs = s.regs) ∧
      (∃ t, exec (.dripstoneStateWrite false) s = .next t ∧ t.flt.nor.header = s.flt.nor.header ∧ t.flt.nor.tableA = s.flt.nor.tableA ∧
        t.flt.nor.tableB = s.flt.nor.tableB ∧ t.flt.units = s.flt.units ∧ t.flt.stateDirty = s.flt.stateDirty ∧
        t.mem = s.mem)) ∧
    (s.flt.stateDirty = false → ∀ ok : Bool, exec (.dripstoneStateWrite ok) s = .next s)) ∧
  (∀ s : State, s.pkg.pairs.contains true = true →
    (s.flt.countsDirty = true →
      (∃ t, exec (.dripstoneCountFlush true) s = .next t ∧ t.flt.nor.header.generation = s.flt.nor.header.generation + 1 ∧
        t.flt.nor.header.table = 1 - s.flt.nor.header.table ∧ t.flt.nor.header.pack = s.flt.nor.header.pack ∧
        (if s.flt.nor.header.table = 1 then t.flt.nor.tableA = s.flt.units ∧ t.flt.nor.tableB = s.flt.nor.tableB
         else t.flt.nor.tableB = s.flt.units ∧ t.flt.nor.tableA = s.flt.nor.tableA) ∧
        t.flt.stateDirty = false ∧ t.flt.countsDirty = false ∧ t.regs = s.regs) ∧
      (∃ t, exec (.dripstoneCountFlush false) s = .next t ∧ t.flt.nor.header = s.flt.nor.header ∧ t.flt.nor.tableA = s.flt.nor.tableA ∧
        t.flt.nor.tableB = s.flt.nor.tableB ∧ t.flt.units = s.flt.units ∧ t.flt.stateDirty = s.flt.stateDirty ∧
        t.mem = s.mem)) ∧
    (s.flt.countsDirty = false → ∀ ok : Bool, exec (.dripstoneCountFlush ok) s = .next s)) ∧
  (∀ (s : State) (v : Word), s.pkg.ready = true → s.pkg.pairs.contains true = true →
    s.fldB Reg.fltPackStatusBusy = false → s.fld Reg.fltPackAddrAddr % 4096 = 0 →
    s.inTiers (s.fld Reg.fltPackAddrAddr) 256 = true →
    ∃ t, exec (.packInstall v) s = .next t ∧ t.mem = s.mem ∧ t.flt.nor = s.flt.nor ∧
      match s.packCode (s.fld Reg.fltPackAddrAddr) with
      | some c => t.fld Reg.fltPackStatusCode = c % 256 ∧ t.fld Reg.fltPackStatusBusy = 0
      | none => t.fld Reg.fltPackStatusBusy = 1 ∧ ∃ p, t.flt.packJob = some (some p) ∧
          p.version = le (s.read (s.fld Reg.fltPackAddrAddr) 256) 8 4) ∧
  (∀ (s : State) (v : Word), s.pkg.ready = true → s.pkg.pairs.contains true = true →
    s.fldB Reg.fltPackStatusBusy = false →
    s.fld Reg.fltPackAddrAddr % 4096 ≠ 0 ∨ s.inTiers (s.fld Reg.fltPackAddrAddr) 256 = false →
    ∃ t, exec (.packInstall v) s = .next t ∧ t.mem = s.mem ∧ t.flt.nor = s.flt.nor ∧
      t.fld Reg.fltPackStatusCode = 0x19 ∧ t.fld Reg.fltPackStatusBusy = 0) ∧
  (∀ (s : State) (p : PackSlot), s.pkg.pairs.contains true = true → s.flt.packJob = some (some p) → p.version < 2 ^ 32 →
    s.flt.nor.header.pack ≤ 1 →
    (∃ t, exec (.packActivation true) s = .next t ∧ t.fld Reg.fltPackStatusActiveVersion = p.version ∧
      t.flt.nor.header.pack = 1 - s.flt.nor.header.pack ∧
      (if t.flt.nor.header.pack = 0 then t.flt.nor.pack0 else t.flt.nor.pack1) = some p ∧
      t.fld Reg.fltPackStatusBusy = 0 ∧ t.fld Reg.fltPackStatusCode = 0) ∧
    (∃ t, exec (.packActivation false) s = .next t ∧ t.flt.nor = s.flt.nor ∧ t.fld Reg.fltPackStatusCode = 0x40 ∧
      t.fld Reg.fltPackStatusBusy = 0 ∧ t.fld Reg.fltPackStatusActiveVersion = s.fld Reg.fltPackStatusActiveVersion))
end

