-- ==== Sys2Proof/Laws/Tab.lean ====
section
/-! SUPPORT. Laws of the sparse tables: what a read gives after a write, and that every change keeps the canonical
form. -/

namespace Sys2Proof.Machine

variable {α : Type}

theorem Tab.find_put_same (k : Nat) (v : α) (t : Tab α) : (t.put k v).find k = some v := by
  induction t with
  | nil => simp [Tab.put, Tab.find]
  | cons e t ih =>
    obtain ⟨j, w⟩ := e
    simp only [Tab.put]
    split
    · simp [Tab.find]
    · split
      · simp [Tab.find]
      · simp [Tab.find, *]

theorem Tab.find_put_other {k l : Nat} (h : l ≠ k) (v : α) (t : Tab α) : (t.put k v).find l = t.find l := by
  induction t with
  | nil => simp [Tab.put, Tab.find, h]
  | cons e t ih =>
    obtain ⟨j, w⟩ := e
    simp only [Tab.put]
    split
    · simp [Tab.find, h]
    · split
      · subst_vars; simp [Tab.find, h]
      · simp [Tab.find, ih]

theorem Tab.find_erase_same (k : Nat) (t : Tab α) : (t.erase k).find k = none := by
  induction t with
  | nil => rfl
  | cons e t ih =>
    obtain ⟨j, w⟩ := e
    simp only [Tab.erase]
    split
    · exact ih
    · simp [Tab.find, *]

theorem Tab.find_erase_other {k l : Nat} (h : l ≠ k) (t : Tab α) : (t.erase k).find l = t.find l := by
  induction t with
  | nil => rfl
  | cons e t ih =>
    obtain ⟨j, w⟩ := e
    simp only [Tab.erase]
    split
    · subst_vars; simp [Tab.find, h, ih]
    · simp [Tab.find, ih]

/-- A read of the key just written gives the value written. -/
@[simp] theorem Tab.get_set_same [DecidableEq α] (d : α) (k : Nat) (v : α) (t : Tab α) :
    Tab.get d k (Tab.set d k v t) = v := by
  unfold Tab.get Tab.set
  split
  · simp [Tab.find_erase_same, *]
  · simp [Tab.find_put_same]

/-- A write leaves every other key alone. -/
theorem Tab.find_set_other [DecidableEq α] (d : α) {k l : Nat} (h : l ≠ k) (v : α) (t : Tab α) :
    (Tab.set d k v t).find l = t.find l := by
  unfold Tab.set
  split
  · exact Tab.find_erase_other h t
  · exact Tab.find_put_other h v t

theorem Tab.get_set_other [DecidableEq α] (d e : α) {k l : Nat} (h : l ≠ k) (v : α) (t : Tab α) :
    Tab.get d l (Tab.set e k v t) = Tab.get d l t := by
  simp [Tab.get, Tab.find_set_other e h]

/-! ### The canonical form -/

/-- Every key of the table is above `j`. -/
def Tab.above (j : Nat) (t : Tab α) : Prop := ∀ e ∈ t, j < e.1

theorem Tab.rising_cons (j : Nat) (v : α) (t : Tab α) :
    Tab.rising ((j, v) :: t) = true ↔ Tab.above j t ∧ Tab.rising t = true := by
  induction t generalizing j v with
  | nil => simp [Tab.rising, Tab.above]
  | cons e t ih =>
    obtain ⟨k, w⟩ := e
    simp only [Tab.rising, Bool.and_eq_true, decide_eq_true_eq, Tab.above]
    constructor
    · rintro ⟨h, r⟩
      refine ⟨?_, r⟩
      intro e he
      rcases List.mem_cons.1 he with rfl | he
      · exact h
      · exact Nat.lt_trans h (((ih k w).1 r).1 e he)
    · rintro ⟨h, r⟩
      exact ⟨h (k, w) (by simp), r⟩

theorem Tab.mem_put {k : Nat} {v : α} {t : Tab α} {e : Nat × α} (h : e ∈ t.put k v) : e = (k, v) ∨ e ∈ t := by
  induction t with
  | nil => simpa [Tab.put] using h
  | cons x t ih =>
    obtain ⟨j, w⟩ := x
    simp only [Tab.put] at h
    split at h
    · simpa using h
    · split at h
      · rcases List.mem_cons.1 h with h | h
        · exact .inl h
        · exact .inr (List.mem_cons_of_mem _ h)
      · rcases List.mem_cons.1 h with h | h
        · exact .inr (h ▸ List.mem_cons_self ..)
        · rcases ih h with h | h
          · exact .inl h
          · exact .inr (List.mem_cons_of_mem _ h)

theorem Tab.mem_erase {k : Nat} {t : Tab α} {e : Nat × α} (h : e ∈ t.erase k) : e ∈ t := by
  induction t with
  | nil => exact h
  | cons x t ih =>
    obtain ⟨j, w⟩ := x
    simp only [Tab.erase] at h
    split at h
    · exact List.mem_cons_of_mem _ (ih h)
    · rcases List.mem_cons.1 h with h | h
      · exact h ▸ List.mem_cons_self ..
      · exact List.mem_cons_of_mem _ (ih h)

theorem Tab.rising_put {k : Nat} {v : α} {t : Tab α} (h : t.rising = true) : (t.put k v).rising = true := by
  induction t with
  | nil => rfl
  | cons x t ih =>
    obtain ⟨j, w⟩ := x
    have hx := (Tab.rising_cons j w t).1 h
    simp only [Tab.put]
    split
    · next hk =>
      refine (Tab.rising_cons _ _ _).2 ⟨?_, h⟩
      intro e he
      rcases List.mem_cons.1 he with rfl | he
      · exact hk
      · exact Nat.lt_trans hk (hx.1 e he)
    · split
      · next hk => subst hk; exact (Tab.rising_cons _ _ _).2 hx
      · next h1 h2 =>
        refine (Tab.rising_cons _ _ _).2 ⟨?_, ih hx.2⟩
        intro e he
        rcases Tab.mem_put he with rfl | he
        · show j < k; omega
        · exact hx.1 e he

theorem Tab.rising_erase {k : Nat} {t : Tab α} (h : t.rising = true) : (t.erase k).rising = true := by
  induction t with
  | nil => rfl
  | cons x t ih =>
    obtain ⟨j, w⟩ := x
    have hx := (Tab.rising_cons j w t).1 h
    simp only [Tab.erase]
    split
    · exact ih hx.2
    · exact (Tab.rising_cons _ _ _).2 ⟨fun e he => hx.1 e (Tab.mem_erase he), ih hx.2⟩

theorem Tab.rising_filter {t : Tab α} (p : Nat × α → Bool) (h : t.rising = true) :
    Tab.rising (t.filter p) = true := by
  induction t with
  | nil => rfl
  | cons x t ih =>
    obtain ⟨j, w⟩ := x
    have hx := (Tab.rising_cons j w t).1 h
    rw [List.filter_cons]
    split
    · exact (Tab.rising_cons _ _ _).2 ⟨fun e he => hx.1 e (List.mem_filter.1 he).1, ih hx.2⟩
    · exact ih hx.2

variable [DecidableEq α]

theorem Tab.canon_iff {d : α} {t : Tab α} :
    Tab.canon d t = true ↔ Tab.rising t = true ∧ ∀ e ∈ t, e.2 ≠ d := by
  simp [Tab.canon]

/-- A write keeps the canonical form. -/
theorem Tab.canon_set {d : α} {t : Tab α} (h : Tab.canon d t = true) (k : Nat) (v : α) :
    Tab.canon d (Tab.set d k v t) = true := by
  obtain ⟨h1, h2⟩ := Tab.canon_iff.1 h
  unfold Tab.set
  split
  · exact Tab.canon_iff.2 ⟨Tab.rising_erase h1, fun e he => h2 e (Tab.mem_erase he)⟩
  · next hv =>
    refine Tab.canon_iff.2 ⟨Tab.rising_put h1, fun e he => ?_⟩
    rcases Tab.mem_put he with rfl | he
    · exact hv
    · exact h2 e he

theorem Tab.canon_filter {d : α} {t : Tab α} (h : Tab.canon d t = true) (p : Nat × α → Bool) :
    Tab.canon d (t.filter p) = true := by
  obtain ⟨h1, h2⟩ := Tab.canon_iff.1 h
  exact Tab.canon_iff.2 ⟨Tab.rising_filter p h1, fun e he => h2 e (List.mem_filter.1 he).1⟩

/-- Two tables in canonical form that read alike at every key are the same table: equal contents are equal data. -/
theorem Tab.canon_ext {d : α} {t u : Tab α} (ht : Tab.canon d t = true) (hu : Tab.canon d u = true)
    (h : ∀ k, Tab.get d k t = Tab.get d k u) : t = u := by
  have below {t : Tab α} {k : Nat} (ha : Tab.above k t) : Tab.find k t = none := by
    induction t with
    | nil => rfl
    | cons e t ih =>
      obtain ⟨j, w⟩ := e
      have : k < j := ha (j, w) (by simp)
      simp only [Tab.find]
      rw [if_neg (by omega)]
      exact ih fun e he => ha e (List.mem_cons_of_mem _ he)
  induction t generalizing u with
  | nil =>
    cases u with
    | nil => rfl
    | cons e u =>
      obtain ⟨j, w⟩ := e
      have := h j
      simp [Tab.get, Tab.find] at this
      exact absurd this.symm ((Tab.canon_iff.1 hu).2 (j, w) (by simp))
  | cons e t ih =>
    obtain ⟨j, w⟩ := e
    obtain ⟨tr, tn⟩ := Tab.canon_iff.1 ht
    obtain ⟨ta, tr'⟩ := (Tab.rising_cons _ _ _).1 tr
    cases u with
    | nil =>
      have := h j
      simp [Tab.get, Tab.find] at this
      exact absurd this (tn (j, w) (by simp))
    | cons f u =>
      obtain ⟨k, x⟩ := f
      obtain ⟨ur, un⟩ := Tab.canon_iff.1 hu
      obtain ⟨ua, ur'⟩ := (Tab.rising_cons _ _ _).1 ur
      have htail : Tab.canon d t = true := Tab.canon_iff.2 ⟨tr', fun e he => tn e (List.mem_cons_of_mem _ he)⟩
      have hutail : Tab.canon d u = true := Tab.canon_iff.2 ⟨ur', fun e he => un e (List.mem_cons_of_mem _ he)⟩
      have key : j = k := by
        rcases Nat.lt_trichotomy j k with hl | he | hg
        · have hj := h j
          have : Tab.find j ((k, x) :: u) = none := below fun e he => by
            rcases List.mem_cons.1 he with rfl | he
            · exact hl
            · exact Nat.lt_trans hl (ua e he)
          simp only [Tab.get, this] at hj
          simp [Tab.find] at hj
          exact absurd hj (tn (j, w) (by simp))
        · exact he
        · have hk := h k
          have : Tab.find k ((j, w) :: t) = none := below fun e he => by
            rcases List.mem_cons.1 he with rfl | he
            · exact hg
            · exact Nat.lt_trans hg (ta e he)
          simp only [Tab.get, this] at hk
          simp [Tab.find] at hk
          exact absurd hk.symm (un (k, x) (by simp))
      subst key
      have hw : w = x := by simpa [Tab.get, Tab.find] using h j
      subst hw
      congr 1
      refine ih htail hutail fun l => ?_
      by_cases hl : l = j
      · subst hl
        simp [Tab.get, below ta, below ua]
      · simpa [Tab.get, Tab.find, hl] using h l

end Sys2Proof.Machine
end

