-- ==== Sys2Proof/Laws/Kept.lean ====
section
/-! SUPPORT. What no meaning changes and what every meaning keeps: the relation `Kept`, its rules, and its leaf laws. -/

namespace Sys2Proof.Machine

/-- What stands between a state and a later one, whatever the commands between: the queue of commands is as it was; the
canonical form of memory and registers, the bound of the poison list of tier 2 and the depth of the hub queue are kept;
the part is the same part; free values and meter sequence numbers never come back. -/
structure Kept (s t : State) : Prop where
  queue : t.pending = s.pending
  mem : Memory.wf s.mem = true → Memory.wf t.mem = true
  regs : Regs.canon s.regs → Regs.canon t.regs
  shadow : Regs.canon s.shadow → Regs.canon t.shadow
  poison : s.mm.t2Poison.length ≤ 65536 → t.mm.t2Poison.length ≤ 65536
  hub : s.chk.queue.length ≤ hubQueueDepth → t.chk.queue.length ≤ hubQueueDepth
  grade : t.pkg.gradeE = s.pkg.gradeE
  stepping : t.pkg.steppingB0 = s.pkg.steppingB0
  rootPort : t.pkg.rootPort = s.pkg.rootPort
  fresh : s.fresh ≤ t.fresh
  meter : s.mtr.sequence ≤ t.mtr.sequence

variable {a s t : State}

theorem Kept.refl (s : State) : Kept s s :=
  ⟨rfl, id, id, id, id, id, rfl, rfl, rfl, Nat.le_refl _, Nat.le_refl _⟩

theorem Kept.trans (h : Kept a s) (k : Kept s t) : Kept a t :=
  ⟨k.queue.trans h.queue, k.mem ∘ h.mem, k.regs ∘ h.regs, k.shadow ∘ h.shadow, k.poison ∘ h.poison, k.hub ∘ h.hub,
   k.grade.trans h.grade, k.stepping.trans h.stepping, k.rootPort.trans h.rootPort, Nat.le_trans h.fresh k.fresh,
   Nat.le_trans h.meter k.meter⟩

/-- A proof about a named intermediate state is made once. -/
theorem Kept.step {P : Prop} {x : State} (h : Kept a x) (k : Kept a x → P) : P := k h

theorem Kept.ite {x y : State} {p : Prop} [Decidable p] (h : Kept a x) (k : Kept a y) : Kept a (if p then x else y) := by
  split <;> assumption

theorem Kept.foldl {β : Type} {f : State → β → State} {l : List β} (h : Kept a s)
    (k : ∀ b x, Kept a b → Kept a (f b x)) : Kept a (l.foldl f s) := by
  induction l generalizing s with
  | nil => exact h
  | cons x l ih => exact ih (k s x h)

/-- A fold whose accumulator carries the state second. -/
theorem Kept.foldl_snd {α β : Type} {f : α × State → β → α × State} {l : List β} {p : α × State} (h : Kept a p.2)
    (k : ∀ b x, Kept a b.2 → Kept a (f b x).2) : Kept a (l.foldl f p).2 := by
  induction l generalizing p with
  | nil => exact h
  | cons x l ih => exact ih (k p x h)

/-- A fold whose accumulator carries the state first. -/
theorem Kept.foldl_fst {α β : Type} {f : State × α → β → State × α} {l : List β} {p : State × α} (h : Kept a p.1)
    (k : ∀ b x, Kept a b.1 → Kept a (f b x).1) : Kept a (l.foldl f p).1 := by
  induction l generalizing p with
  | nil => exact h
  | cons x l ih => exact ih (k p x h)

theorem Kept.of_snd {α : Type} {x : α × State} {y : α} {t : State} (e : x = (y, t)) (h : Kept a x.2) : Kept a t := by
  subst e; exact h

theorem Kept.of_fst {α : Type} {x : State × α} {y : α} {t : State} (e : x = (t, y)) (h : Kept a x.1) : Kept a t := by
  subst e; exact h

theorem Kept.of_third {α β : Type} {x : α × β × State} {y : α} {z : β} {t : State} (e : x = (y, z, t))
    (h : Kept a x.2.2) : Kept a t := by
  subst e; exact h

/-- `Kept` field by field. -/
structure KeptF (a : State) (p : List Instr) (f : Nat) (r sh : Tab Word) (m : List Host.Cell) (po : List Nat)
    (q : List ErrRecord) (g st rp : Bool) (mt : Nat) : Prop where
  queue : p = a.pending
  mem : Memory.wf a.mem = true → Memory.wf m = true
  regs : Regs.canon a.regs → Regs.canon r
  shadow : Regs.canon a.shadow → Regs.canon sh
  poison : a.mm.t2Poison.length ≤ 65536 → po.length ≤ 65536
  hub : a.chk.queue.length ≤ hubQueueDepth → q.length ≤ hubQueueDepth
  grade : g = a.pkg.gradeE
  stepping : st = a.pkg.steppingB0
  rootPort : rp = a.pkg.rootPort
  fresh : a.fresh ≤ f
  meter : a.mtr.sequence ≤ mt

theorem Kept.mk_iff {f2 : Nat} {f3 f4 : Tab Word} {f1 f5 f6 f7 f8 f9 f10 f11 f12 f13 f14 f15 f16 f17 f18 f19 f20 f21
    f22 f23 f24} :
    Kept a ⟨f1, f2, f3, f4, f5, f6, f7, f8, f9, f10, f11, f12, f13, f14, f15, f16, f17, f18, f19, f20, f21, f22, f23,
      f24⟩ ↔ KeptF a f1 f2 f3 f4 f6 f13.t2Poison f12.queue f7.gradeE f7.steppingB0 f7.rootPort f24.sequence :=
  ⟨fun h => ⟨h.1, h.2, h.3, h.4, h.5, h.6, h.7, h.8, h.9, h.10, h.11⟩,
   fun h => ⟨h.1, h.2, h.3, h.4, h.5, h.6, h.7, h.8, h.9, h.10, h.11⟩⟩

/-- An update of fields that `Kept` does not speak of. -/
theorem KeptF.of {f : Nat} (h : Kept a s) (k : s.fresh ≤ f) : KeptF a s.pending f s.regs s.shadow s.mem s.mm.t2Poison
    s.chk.queue s.pkg.gradeE s.pkg.steppingB0 s.pkg.rootPort s.mtr.sequence :=
  ⟨h.1, h.2, h.3, h.4, h.5, h.6, h.7, h.8, h.9, Nat.le_trans h.10 k, h.11⟩

/-- The hub queue gets shorter. -/
theorem KeptF.shorter {q : List ErrRecord} (h : Kept a s) (k : q.length ≤ s.chk.queue.length) :
    KeptF a s.pending s.fresh s.regs s.shadow s.mem s.mm.t2Poison q s.pkg.gradeE s.pkg.steppingB0 s.pkg.rootPort
      s.mtr.sequence :=
  ⟨h.1, h.2, h.3, h.4, h.5, fun j => Nat.le_trans k (h.6 j), h.7, h.8, h.9, h.10, h.11⟩

/-! ### Leaf laws -/

theorem State.free_kept (h : Kept a s) : Kept a s.free.2 :=
  h.trans ⟨rfl, id, id, id, id, id, rfl, rfl, rfl, Nat.le_succ _, Nat.le_refl _⟩

theorem Regs.canon_set {t : Tab Word} (h : Regs.canon t) (o : Nat) (v : Word) :
    Regs.canon (Tab.set (resetWord o) o v t) := by
  unfold Tab.set
  split
  · exact ⟨Tab.rising_erase h.1, fun e he => h.2 e (Tab.mem_erase he)⟩
  · next hv =>
    refine ⟨Tab.rising_put h.1, fun e he => ?_⟩
    rcases Tab.mem_put he with rfl | he
    · exact hv
    · exact h.2 e he

theorem Regs.canon_nil : Regs.canon [] := ⟨rfl, fun _ h => nomatch h⟩

theorem State.setReg_kept (h : Kept a s) (off : Nat) (v : Word) : Kept a (s.setReg off v) :=
  h.trans ⟨rfl, id, fun k => Regs.canon_set k off v, id, id, id, rfl, rfl, rfl, Nat.le_refl _, Nat.le_refl _⟩

theorem State.setShadow_kept (h : Kept a s) (off : Nat) (v : Word) : Kept a (s.setShadow off v) :=
  h.trans ⟨rfl, id, id, fun k => Regs.canon_set k off v, id, id, rfl, rfl, rfl, Nat.le_refl _, Nat.le_refl _⟩

theorem writeMem_wf {m : List Host.Cell} (h : Memory.wf m = true) (x : Nat) (bs : List Byte) :
    Memory.wf (writeMem m x bs) = true := by
  induction bs generalizing m x with
  | nil => exact h
  | cons b bs ih => exact ih (Tab.canon_set h x b) (x + 1)

theorem State.write_kept (h : Kept a s) (x : Nat) (bs : List Byte) : Kept a (s.write x bs) :=
  h.trans ⟨rfl, fun k => writeMem_wf k x bs, id, id, fun k => Nat.le_trans (List.length_filter_le _ _) k, id, rfl, rfl,
    rfl, Nat.le_refl _, Nat.le_refl _⟩

theorem State.clearPoison_kept (h : Kept a s) (x n : Nat) : Kept a (s.clearPoison x n) :=
  h.trans ⟨rfl, id, id, id, fun k => Nat.le_trans (List.length_filter_le _ _) k, id, rfl, rfl, rfl, Nat.le_refl _,
    Nat.le_refl _⟩

theorem State.setLineMeta_kept (h : Kept a s) (l v : Nat) : Kept a (s.setLineMeta l v) := h.trans
  ⟨rfl, id, id, id, id, id, rfl, rfl, rfl, Nat.le_refl _, Nat.le_refl _⟩

theorem State.poisonAt_kept (h : Kept a s) (x : Nat) : Kept a (s.poisonAt x) := by
  unfold State.poisonAt
  split
  · exact State.setLineMeta_kept h _ _
  · dsimp only
    split
    · exact h
    · split
      · next hl =>
        refine h.trans ⟨rfl, id, id, id, fun _ => ?_, id, rfl, rfl, rfl, Nat.le_refl _, Nat.le_refl _⟩
        simp only [List.length_append, List.length_singleton]
        omega
      · exact h
  · dsimp only
    split
    · exact h
    · exact Kept.mk_iff.2 (KeptF.of h (Nat.le_refl _))

theorem State.bump_kept (h : Kept a s) (off n : Nat) : Kept a (s.bump off n) := State.setReg_kept h _ _

/-- A record takes an entry of the hub queue only where one is free. -/
theorem State.pushRecord_kept (h : Kept a s) (r : ErrRecord) (hq : s.chk.queue.length < hubQueueDepth) :
    Kept a (s.pushRecord r) := by
  refine (State.bump_kept h (Reg.chkCnt r.severity) 1).trans
    ⟨rfl, id, id, id, id, fun _ => ?_, rfl, rfl, rfl, Nat.le_refl _, Nat.le_refl _⟩
  have : (s.chk.queue ++ [{ r with sequence := s.chk.nextSeq }]).length ≤ hubQueueDepth := by
    simp only [List.length_append, List.length_singleton]; omega
  exact this

end Sys2Proof.Machine
end

