-- ==== Sys2Proof/Laws/KeptOps.lean ====
section
/-! SUPPORT. What the operations of Machine/Ops.lean keep (`Kept`). -/

set_option linter.unusedSimpArgs false

namespace Sys2Proof.Machine

theorem State.tickFree_kept {a s : State} (h : Kept a s) :
    Kept a (State.tickFree s) := by
  unfold State.tickFree
  repeat' first
    | with_reducible assumption
    | (simp only [Kept.mk_iff]; with_reducible refine KeptF.of ?_ (Nat.le_succ _))

theorem State.setFld_kept {a s : State} (h : Kept a s) (f : Fld) (v : Nat) :
    Kept a (State.setFld s f v) := by
  unfold State.setFld
  repeat' (with_reducible first | assumption | refine Kept.ite ?_ ?_ | apply State.setReg_kept)

theorem State.writeFree_kept {a s : State} (h : Kept a s) (aa : Nat) (n : Nat) :
    Kept a (State.writeFree s aa n) := by
  unfold State.writeFree
  repeat' (with_reducible first | assumption | refine Kept.ite ?_ ?_ | apply State.free_kept | apply State.write_kept)

theorem State.setRun_kept {a s : State} (h : Kept a s) (r : RunState) :
    Kept a (State.setRun s r) := by
  unfold State.setRun
  repeat' first
    | with_reducible assumption
    | (simp only [Kept.mk_iff]; with_reducible refine KeptF.of ?_ (Nat.le_refl _))

theorem State.respond_kept {a s : State} (h : Kept a s) (r : Response) :
    Kept a (State.respond s r) := by
  unfold State.respond
  repeat' first
    | with_reducible assumption
    | (simp only [Kept.mk_iff]; with_reducible refine KeptF.of ?_ (Nat.le_refl _))

theorem State.onReady_kept {a s : State} (h : Kept a s) (f : State → State) (k : Kept a s → Kept a (f s)) :
    Kept a (s.onReady f) := by
  unfold State.onReady; split
  · exact k h
  · exact h

theorem State.onSteward_kept {a s : State} (h : Kept a s) (f : State → State) (k : Kept a s → Kept a (f s)) :
    Kept a (s.onSteward f) := by
  unfold State.onSteward; split
  · exact k h
  · exact h

theorem Kept.of_done {a x t : State} (e : done x = .next t) (k : Kept a x) : Kept a t := by
  unfold done at e; cases e; exact k

end Sys2Proof.Machine
end

