-- ==== Sys2Proof/Laws/KeptFlags.lean ====
section
/-! SUPPORT. What the operations of Machine/Flags.lean keep (`Kept`). -/

set_option linter.unusedSimpArgs false

namespace Sys2Proof.Machine

theorem State.msixSend_kept {a s : State} (h : Kept a s) (d : Delivery) :
    Kept a (State.msixSend s d) := by
  unfold State.msixSend
  repeat' first
    | (with_reducible first | assumption | refine Kept.ite ?_ ?_)
    | (lift_lets; intro kx; refine Kept.step (a := a) (x := kx) ?_ fun hkx => ?_)
    | (lift_lets; intro kx)
    | (simp only [Kept.mk_iff]; with_reducible refine KeptF.of ?_ (Nat.le_refl _))
    | (simp only [Kept.mk_iff]; with_reducible refine KeptF.of ?_ (Nat.le_succ _))
    | (simp only [kx, Kept.mk_iff]; with_reducible refine KeptF.of ?_ (Nat.le_refl _))
    | (with_reducible first
        | refine Kept.foldl ?_ fun kb ky hkb => ?_ | refine Kept.foldl_snd ?_ fun kb ky hkb => ?_
        | refine Kept.foldl_fst ?_ fun kb ky hkb => ?_)
    | split
    | (with_reducible first
        | refine Kept.of_snd (by assumption) ?_ | refine Kept.of_fst (by assumption) ?_
        | refine Kept.of_third (by assumption) ?_)
    | dsimp only
    | unfold kx

theorem State.deliver_kept {a s : State} (h : Kept a s) (n : Nat) :
    Kept a (State.deliver s n) := by
  unfold State.deliver
  repeat' first
    | (with_reducible first | assumption | refine Kept.ite ?_ ?_)
    | (lift_lets; intro kx; refine Kept.step (a := a) (x := kx) ?_ fun hkx => ?_)
    | (lift_lets; intro kx)
    | (simp only [Kept.mk_iff]; with_reducible refine KeptF.of ?_ (Nat.le_refl _))
    | (simp only [Kept.mk_iff]; with_reducible refine KeptF.of ?_ (Nat.le_succ _))
    | with_reducible apply State.msixSend_kept
    | (simp only [kx, Kept.mk_iff]; with_reducible refine KeptF.of ?_ (Nat.le_refl _))
    | (with_reducible first
        | refine Kept.foldl ?_ fun kb ky hkb => ?_ | refine Kept.foldl_snd ?_ fun kb ky hkb => ?_
        | refine Kept.foldl_fst ?_ fun kb ky hkb => ?_)
    | split
    | (with_reducible first
        | refine Kept.of_snd (by assumption) ?_ | refine Kept.of_fst (by assumption) ?_
        | refine Kept.of_third (by assumption) ?_)
    | dsimp only
    | unfold kx

theorem State.raiseIrq_kept {a s : State} (h : Kept a s) (n : Nat) :
    Kept a (State.raiseIrq s n) := by
  unfold State.raiseIrq
  repeat' (with_reducible first | assumption | refine Kept.ite ?_ ?_ | apply State.setFld_kept | apply State.deliver_kept)

theorem State.setFldIrq_kept {a s : State} (h : Kept a s) (src : Nat) (f : Fld) (v : Nat) :
    Kept a (State.setFldIrq s src f v) := by
  unfold State.setFldIrq
  repeat' first
    | (with_reducible first
        | assumption | refine Kept.ite ?_ ?_ | apply State.setFld_kept | apply State.raiseIrq_kept)

theorem State.setTime_kept {a s : State} (h : Kept a s) (t : TimeState) :
    Kept a (State.setTime s t) := by
  unfold State.setTime
  repeat' first
    | with_reducible assumption
    | (simp only [Kept.mk_iff]; with_reducible refine KeptF.of ?_ (Nat.le_refl _))

theorem State.setServo_kept {a s : State} (h : Kept a s) (st : Nat) :
    Kept a (State.setServo s st) := by
  unfold State.setServo
  repeat' first
    | (with_reducible first
        | assumption | refine Kept.ite ?_ ?_ | apply State.bump_kept | apply State.setFldIrq_kept
        | apply State.setTime_kept)

theorem State.holdOver_kept {a s : State} (h : Kept a s) :
    Kept a (State.holdOver s) := by
  unfold State.holdOver
  repeat' first
    | (with_reducible first
        | assumption | refine Kept.ite ?_ ?_ | apply State.setTime_kept | apply State.setServo_kept)

theorem State.failSource_kept {a s : State} (h : Kept a s) :
    Kept a (State.failSource s) := by
  unfold State.failSource
  repeat' first
    | (with_reducible first
        | assumption | refine Kept.ite ?_ ?_ | apply State.setFld_kept | apply State.holdOver_kept)

theorem State.setLoadState_kept {a s : State} (h : Kept a s) (v : Nat) :
    Kept a (State.setLoadState s v) := by
  unfold State.setLoadState
  repeat' (with_reducible first | assumption | refine Kept.ite ?_ ?_ | apply State.setFldIrq_kept)

theorem State.setLoadCode_kept {a s : State} (h : Kept a s) (code : Nat) (sec : Nat) (detail : Nat) :
    Kept a (State.setLoadCode s code sec detail) := by
  unfold State.setLoadCode
  repeat' first
    | (with_reducible first
        | assumption | refine Kept.ite ?_ ?_ | apply State.setFld_kept | apply State.setFldIrq_kept)

theorem State.setBusy_kept {a s : State} (h : Kept a s) (b : Bool) :
    Kept a (State.setBusy s b) := by
  unfold State.setBusy
  repeat' (with_reducible first | assumption | refine Kept.ite ?_ ?_ | apply State.setFld_kept)

theorem State.setRecovery_kept {a s : State} (h : Kept a s) (f : Fld) (v : Nat) :
    Kept a (State.setRecovery s f v) := by
  unfold State.setRecovery
  repeat' (with_reducible first | assumption | refine Kept.ite ?_ ?_ | apply State.setFldIrq_kept)

theorem State.stackTemp_kept {a s : State} (h : Kept a s) (k : Nat) (temp : Nat) :
    Kept a (State.stackTemp s k temp) := by
  unfold State.stackTemp
  repeat' (with_reducible first | assumption | refine Kept.ite ?_ ?_ | apply State.setFld_kept)

theorem State.sendRecord_kept {a s : State} (h : Kept a s) (r : ErrRecord) : Kept a (s.sendRecord r) := by
  unfold State.sendRecord
  split
  · next hq => exact State.pushRecord_kept h r hq.1
  · split <;> exact Kept.mk_iff.2 (KeptF.of h (Nat.le_refl _))

theorem State.emit_kept {a s : State} (h : Kept a s) (sev : Nat) (kind : Nat) (at_ : Site) (op : Nat) (synd : Nat) :
    Kept a (State.emit s sev kind at_ op synd) := by
  unfold State.emit
  repeat' first
    | (with_reducible first | assumption | refine Kept.ite ?_ ?_)
    | (simp only [Kept.mk_iff]; with_reducible refine KeptF.of ?_ (Nat.le_refl _))
    | (with_reducible first | apply State.bump_kept | apply State.sendRecord_kept)
    | split

theorem State.protectedRecord_kept {a s : State} (h : Kept a s) (aa : Nat) (op : Nat) :
    Kept a (State.protectedRecord s aa op) := by
  unfold State.protectedRecord
  repeat' (with_reducible first | assumption | refine Kept.ite ?_ ?_ | apply State.emit_kept)

theorem State.guardedWrite_kept {a s : State} (h : Kept a s) (aa : Nat) (bs : List Byte) (op : Nat) :
    Kept a (State.guardedWrite s aa bs op) := by
  unfold State.guardedWrite
  repeat' first
    | (with_reducible first | assumption | refine Kept.ite ?_ ?_)
    | (lift_lets; intro kx; refine Kept.step (a := a) (x := kx) ?_ fun hkx => ?_)
    | (lift_lets; intro kx)
    | (simp only [Kept.mk_iff]; with_reducible refine KeptF.of ?_ (Nat.le_refl _))
    | (simp only [Kept.mk_iff]; with_reducible refine KeptF.of ?_ (Nat.le_succ _))
    | (with_reducible first | apply State.write_kept | apply State.protectedRecord_kept)
    | (simp only [kx, Kept.mk_iff]; with_reducible refine KeptF.of ?_ (Nat.le_refl _))
    | (with_reducible first
        | refine Kept.foldl ?_ fun kb ky hkb => ?_ | refine Kept.foldl_snd ?_ fun kb ky hkb => ?_
        | refine Kept.foldl_fst ?_ fun kb ky hkb => ?_)
    | split
    | (with_reducible first
        | refine Kept.of_snd (by assumption) ?_ | refine Kept.of_fst (by assumption) ?_
        | refine Kept.of_third (by assumption) ?_)
    | dsimp only
    | unfold kx

theorem State.guardedFree_kept {a s : State} (h : Kept a s) (aa : Nat) (n : Nat) (op : Nat) :
    Kept a (State.guardedFree s aa n op) := by
  unfold State.guardedFree
  repeat' first
    | (with_reducible first | assumption | refine Kept.ite ?_ ?_)
    | (lift_lets; intro kx; refine Kept.step (a := a) (x := kx) ?_ fun hkx => ?_)
    | (lift_lets; intro kx)
    | (simp only [Kept.mk_iff]; with_reducible refine KeptF.of ?_ (Nat.le_refl _))
    | (simp only [Kept.mk_iff]; with_reducible refine KeptF.of ?_ (Nat.le_succ _))
    | (with_reducible first | apply State.free_kept | apply State.guardedWrite_kept)
    | (simp only [kx, Kept.mk_iff]; with_reducible refine KeptF.of ?_ (Nat.le_refl _))
    | (with_reducible first
        | refine Kept.foldl ?_ fun kb ky hkb => ?_ | refine Kept.foldl_snd ?_ fun kb ky hkb => ?_
        | refine Kept.foldl_fst ?_ fun kb ky hkb => ?_)
    | split
    | (with_reducible first
        | refine Kept.of_snd (by assumption) ?_ | refine Kept.of_fst (by assumption) ?_
        | refine Kept.of_third (by assumption) ?_)
    | dsimp only
    | unfold kx

theorem State.copyRecord_kept {a s : State} (h : Kept a s) (r : ErrRecord) :
    Kept a (State.copyRecord s r) := by
  unfold State.copyRecord
  repeat' first
    | (with_reducible first
        | assumption | refine Kept.ite ?_ ?_ | apply State.bump_kept | apply State.setFld_kept
        | apply State.raiseIrq_kept | apply State.guardedWrite_kept)

theorem State.logRecord_kept {a s : State} (h : Kept a s) (r : ErrRecord) :
    Kept a (State.logRecord s r) := by
  unfold State.logRecord
  repeat' first
    | (with_reducible first | assumption | refine Kept.ite ?_ ?_)
    | (simp only [Kept.mk_iff]; with_reducible refine KeptF.of ?_ (Nat.le_refl _))
    | with_reducible apply State.setFld_kept

theorem State.releaseHeld_kept {a s : State} (h : Kept a s) (n : Nat) : Kept a (s.releaseHeld n) := by
  induction n generalizing s with
  | zero => exact h
  | succ n ih =>
    unfold State.releaseHeld
    split
    · next hq =>
      split
      · exact h
      · refine ih (State.pushRecord_kept ?_ _ hq.1)
        exact Kept.mk_iff.2 (KeptF.of h (Nat.le_refl _))
    · exact h

theorem State.stewardTake_kept {a s : State} (h : Kept a s) : Kept a s.stewardTake := by
  unfold State.stewardTake
  split
  · exact h
  · split
    · exact h
    · next r rest hq =>
      refine State.releaseHeld_kept (State.copyRecord_kept (State.logRecord_kept ?_ r) r) _
      refine Kept.mk_iff.2 (KeptF.shorter h ?_)
      rw [hq]
      exact Nat.le_succ _

end Sys2Proof.Machine
end

