-- ==== Sys2Proof/Laws/KeptUnits.lean ====
section
/-! SUPPORT. What the operations of Machine/Units.lean keep (`Kept`). -/

set_option linter.unusedSimpArgs false

namespace Sys2Proof.Machine

theorem State.setUnit_kept {a s : State} (h : Kept a s) (k : Nat) (u : UnitEntry) :
    Kept a (State.setUnit s k u) := by
  unfold State.setUnit
  repeat' first
    | with_reducible assumption
    | (simp only [Kept.mk_iff]; with_reducible refine KeptF.of ?_ (Nat.le_refl _))

theorem State.rebuildMaps_kept {a s : State} (h : Kept a s) (d : Nat) (firstBuild : Bool) :
    Kept a (State.rebuildMaps s d firstBuild) := by
  unfold State.rebuildMaps
  repeat' first
    | (with_reducible first
        | assumption | refine Kept.ite ?_ ?_ | apply State.setReg_kept | apply State.setFld_kept
        | refine Kept.foldl ?_ fun kb ky hkb => ?_)

theorem State.markDirty_kept {a s : State} (h : Kept a s) :
    Kept a (State.markDirty s) := by
  unfold State.markDirty
  repeat' first
    | with_reducible assumption
    | (simp only [Kept.mk_iff]; with_reducible refine KeptF.of ?_ (Nat.le_refl _))

theorem State.strike_kept {a s : State} (h : Kept a s) (k : Nat) :
    Kept a (State.strike s k) := by
  unfold State.strike
  repeat' (with_reducible first | assumption | refine Kept.ite ?_ ?_ | apply State.setUnit_kept)

theorem State.retire_kept {a s : State} (h : Kept a s) (k : Nat) (rule : Nat) :
    Kept a (State.retire s k rule) := by
  unfold State.retire
  repeat' first
    | (with_reducible first | assumption | refine Kept.ite ?_ ?_)
    | (simp only [Kept.mk_iff]; with_reducible refine KeptF.of ?_ (Nat.le_refl _))
    | (with_reducible first
        | apply State.bump_kept | apply State.emit_kept | apply State.setUnit_kept | apply State.markDirty_kept)

theorem State.enterSump_kept {a s : State} (h : Kept a s) (k : Nat) (kind : Nat) (rule : Nat) :
    Kept a (State.enterSump s k kind rule) := by
  unfold State.enterSump
  repeat' first
    | (with_reducible first | assumption | refine Kept.ite ?_ ?_)
    | (simp only [Kept.mk_iff]; with_reducible refine KeptF.of ?_ (Nat.le_refl _))
    | (with_reducible first
        | apply State.bump_kept | apply State.emit_kept | apply State.setUnit_kept | apply State.markDirty_kept)

theorem State.markDue_kept {a s : State} (h : Kept a s) (k : Nat) (rule : Nat) :
    Kept a (State.markDue s k rule) := by
  unfold State.markDue
  repeat' first
    | (with_reducible first
        | assumption | refine Kept.ite ?_ ?_ | apply State.setUnit_kept | apply State.markDirty_kept)

theorem State.noteHard_kept {a s : State} (h : Kept a s) (k : Nat) :
    Kept a (State.noteHard s k) := by
  unfold State.noteHard
  repeat' (with_reducible first | assumption | refine Kept.ite ?_ ?_ | apply State.setUnit_kept)

theorem State.countCorrected_kept {a s : State} (h : Kept a s) (k : Nat) :
    Kept a (State.countCorrected s k) := by
  unfold State.countCorrected
  repeat' (with_reducible first | assumption | refine Kept.ite ?_ ?_ | apply State.setUnit_kept)

theorem State.strikeSump_kept {a s : State} (h : Kept a s) (k : Nat) (kind : Nat) :
    Kept a (State.strikeSump s k kind) := by
  unfold State.strikeSump
  repeat' first
    | (with_reducible first
        | assumption | refine Kept.ite ?_ ?_ | apply State.strike_kept | apply State.retire_kept
        | apply State.enterSump_kept)

theorem State.retireDue_kept {a s : State} (h : Kept a s) (d : Nat) :
    Kept a (State.retireDue s d) := by
  unfold State.retireDue
  repeat' first
    | (with_reducible first
        | assumption | refine Kept.ite ?_ ?_ | apply State.retire_kept | refine Kept.foldl ?_ fun kb ky hkb => ?_)

end Sys2Proof.Machine
end

