-- ==== Sys2Proof/Laws/KeptFaults.lean ====
section
/-! SUPPORT. What the operations of Machine/Faults.lean keep (`Kept`). -/

set_option linter.unusedSimpArgs false

namespace Sys2Proof.Machine

theorem State.flitOut_kept {a s : State} (h : Kept a s) (l : Nat) (n : Nat) (type : Nat) (fill : Nat) (epoch : Nat) :
    Kept a (State.flitOut s l n type fill epoch) := by
  unfold State.flitOut
  repeat' first
    | (with_reducible first | assumption | refine Kept.ite ?_ ?_)
    | (lift_lets; intro kx; refine Kept.step (a := a) (x := kx) ?_ fun hkx => ?_)
    | (lift_lets; intro kx)
    | (simp only [Kept.mk_iff]; with_reducible refine KeptF.of ?_ (Nat.le_refl _))
    | (simp only [Kept.mk_iff]; with_reducible refine KeptF.of ?_ (Nat.le_succ _))
    | with_reducible apply State.bump_kept
    | (simp only [kx, Kept.mk_iff]; with_reducible refine KeptF.of ?_ (Nat.le_refl _))
    | (with_reducible first
        | refine Kept.foldl ?_ fun kb ky hkb => ?_ | refine Kept.foldl_snd ?_ fun kb ky hkb => ?_
        | refine Kept.foldl_fst ?_ fun kb ky hkb => ?_)
    | split
    | (with_reducible first
        | refine Kept.of_snd (by assumption) ?_ | refine Kept.of_fst (by assumption) ?_
        | refine Kept.of_third (by assumption) ?_)
    | dsimp only
    | unfold kx

theorem State.flitsTo_kept {a s : State} (h : Kept a s) (d : Nat) (n : Nat) (type : Nat) (fill : Nat) (epoch : Nat) :
    Kept a (State.flitsTo s d n type fill epoch) := by
  unfold State.flitsTo
  repeat' first
    | (with_reducible first | assumption | refine Kept.ite ?_ ?_)
    | (lift_lets; intro kx; refine Kept.step (a := a) (x := kx) ?_ fun hkx => ?_)
    | (lift_lets; intro kx)
    | (simp only [Kept.mk_iff]; with_reducible refine KeptF.of ?_ (Nat.le_refl _))
    | (simp only [Kept.mk_iff]; with_reducible refine KeptF.of ?_ (Nat.le_succ _))
    | with_reducible apply State.flitOut_kept
    | (simp only [kx, Kept.mk_iff]; with_reducible refine KeptF.of ?_ (Nat.le_refl _))
    | (with_reducible first
        | refine Kept.foldl ?_ fun kb ky hkb => ?_ | refine Kept.foldl_snd ?_ fun kb ky hkb => ?_
        | refine Kept.foldl_fst ?_ fun kb ky hkb => ?_)
    | split
    | (with_reducible first
        | refine Kept.of_snd (by assumption) ?_ | refine Kept.of_fst (by assumption) ?_
        | refine Kept.of_third (by assumption) ?_)
    | dsimp only
    | unfold kx

theorem State.flitFrom_kept {a s : State} (h : Kept a s) (d : Nat) :
    Kept a (State.flitFrom s d) := by
  unfold State.flitFrom
  repeat' (with_reducible first | assumption | refine Kept.ite ?_ ?_ | apply State.bump_kept)

theorem State.crossingSlip_kept {a s : State} (h : Kept a s) (x : Nat) (aclk : Nat) :
    Kept a (State.crossingSlip s x aclk) := by
  unfold State.crossingSlip
  repeat' first
    | (with_reducible first | assumption | refine Kept.ite ?_ ?_)
    | (simp only [Kept.mk_iff]; with_reducible refine KeptF.of ?_ (Nat.le_refl _))
    | (with_reducible first | apply State.bump_kept | apply State.setFld_kept)

theorem State.freeRunning_kept {a s : State} (h : Kept a s) (l : Nat) :
    Kept a (State.freeRunning s l) := by
  unfold State.freeRunning
  repeat' first
    | (with_reducible first
        | assumption | refine Kept.ite ?_ ?_ | apply State.free_kept | apply State.crossingSlip_kept)

theorem State.sendNotices_kept {a s : State} (h : Kept a s) (sender : Nat) (epoch : Nat) (cause : Nat) :
    Kept a (State.sendNotices s sender epoch cause) := by
  unfold State.sendNotices
  repeat' first
    | (with_reducible first | assumption | refine Kept.ite ?_ ?_)
    | (lift_lets; intro kx; refine Kept.step (a := a) (x := kx) ?_ fun hkx => ?_)
    | (lift_lets; intro kx)
    | (simp only [Kept.mk_iff]; with_reducible refine KeptF.of ?_ (Nat.le_refl _))
    | (simp only [Kept.mk_iff]; with_reducible refine KeptF.of ?_ (Nat.le_succ _))
    | (with_reducible first | apply State.bump_kept | apply State.flitsTo_kept)
    | (simp only [kx, Kept.mk_iff]; with_reducible refine KeptF.of ?_ (Nat.le_refl _))
    | (with_reducible first
        | refine Kept.foldl ?_ fun kb ky hkb => ?_ | refine Kept.foldl_snd ?_ fun kb ky hkb => ?_
        | refine Kept.foldl_fst ?_ fun kb ky hkb => ?_)
    | split
    | (with_reducible first
        | refine Kept.of_snd (by assumption) ?_ | refine Kept.of_fst (by assumption) ?_
        | refine Kept.of_third (by assumption) ?_)
    | dsimp only
    | unfold kx

theorem State.sendData_kept {a s : State} (h : Kept a s) (peer : Nat) (bytes : List Byte) (bad : Bool) (tiles : List (Nat × Nat × Nat × Nat)) :
    Kept a (State.sendData s peer bytes bad tiles) := by
  unfold State.sendData
  repeat' first
    | (with_reducible first | assumption | refine Kept.ite ?_ ?_)
    | (lift_lets; intro kx; refine Kept.step (a := a) (x := kx) ?_ fun hkx => ?_)
    | (lift_lets; intro kx)
    | (simp only [Kept.mk_iff]; with_reducible refine KeptF.of ?_ (Nat.le_refl _))
    | (simp only [Kept.mk_iff]; with_reducible refine KeptF.of ?_ (Nat.le_succ _))
    | (with_reducible first | apply State.flitsTo_kept | apply State.freeRunning_kept)
    | (simp only [kx, Kept.mk_iff]; with_reducible refine KeptF.of ?_ (Nat.le_refl _))
    | (with_reducible first
        | refine Kept.foldl ?_ fun kb ky hkb => ?_ | refine Kept.foldl_snd ?_ fun kb ky hkb => ?_
        | refine Kept.foldl_fst ?_ fun kb ky hkb => ?_)
    | split
    | (with_reducible first
        | refine Kept.of_snd (by assumption) ?_ | refine Kept.of_fst (by assumption) ?_
        | refine Kept.of_third (by assumption) ?_)
    | dsimp only
    | unfold kx

theorem State.setHold_kept {a s : State} (h : Kept a s) (on : Bool) :
    Kept a (State.setHold s on) := by
  unfold State.setHold
  repeat' first
    | (with_reducible first | assumption | refine Kept.ite ?_ ?_)
    | (simp only [Kept.mk_iff]; with_reducible refine KeptF.of ?_ (Nat.le_refl _))
    | (with_reducible first | apply State.bump_kept | apply State.setFld_kept)

theorem State.endHold_kept {a s : State} (h : Kept a s) :
    Kept a (State.endHold s) := by
  unfold State.endHold
  repeat' (with_reducible first | assumption | refine Kept.ite ?_ ?_ | apply State.setHold_kept)

theorem State.beginStop_kept {a s : State} (h : Kept a s) (c : StopCause) (kind : Nat) :
    Kept a (State.beginStop s c kind) := by
  unfold State.beginStop
  repeat' first
    | (with_reducible first | assumption | refine Kept.ite ?_ ?_)
    | (lift_lets; intro kx; refine Kept.step (a := a) (x := kx) ?_ fun hkx => ?_)
    | (lift_lets; intro kx)
    | (simp only [Kept.mk_iff]; with_reducible refine KeptF.of ?_ (Nat.le_refl _))
    | (simp only [Kept.mk_iff]; with_reducible refine KeptF.of ?_ (Nat.le_succ _))
    | (with_reducible first
        | apply State.setFld_kept | apply State.setRun_kept | apply State.setLoadState_kept | apply State.setBusy_kept
        | apply State.setRecovery_kept | apply State.endHold_kept)
    | (simp only [kx, Kept.mk_iff]; with_reducible refine KeptF.of ?_ (Nat.le_refl _))
    | (with_reducible first
        | refine Kept.foldl ?_ fun kb ky hkb => ?_ | refine Kept.foldl_snd ?_ fun kb ky hkb => ?_
        | refine Kept.foldl_fst ?_ fun kb ky hkb => ?_)
    | split
    | (with_reducible first
        | refine Kept.of_snd (by assumption) ?_ | refine Kept.of_fst (by assumption) ?_
        | refine Kept.of_third (by assumption) ?_)
    | dsimp only
    | unfold kx

theorem State.stopStep_kept {a s : State} (h : Kept a s) (c : StopCause) (kind : Nat) :
    Kept a (State.stopStep s c kind) := by
  unfold State.stopStep
  repeat' first
    | (with_reducible first | assumption | refine Kept.ite ?_ ?_)
    | (lift_lets; intro kx; refine Kept.step (a := a) (x := kx) ?_ fun hkx => ?_)
    | (lift_lets; intro kx)
    | (simp only [Kept.mk_iff]; with_reducible refine KeptF.of ?_ (Nat.le_refl _))
    | (simp only [Kept.mk_iff]; with_reducible refine KeptF.of ?_ (Nat.le_succ _))
    | (with_reducible first | apply State.sendNotices_kept | apply State.beginStop_kept)
    | (simp only [kx, Kept.mk_iff]; with_reducible refine KeptF.of ?_ (Nat.le_refl _))
    | (with_reducible first
        | refine Kept.foldl ?_ fun kb ky hkb => ?_ | refine Kept.foldl_snd ?_ fun kb ky hkb => ?_
        | refine Kept.foldl_fst ?_ fun kb ky hkb => ?_)
    | split
    | (with_reducible first
        | refine Kept.of_snd (by assumption) ?_ | refine Kept.of_fst (by assumption) ?_
        | refine Kept.of_third (by assumption) ?_)
    | dsimp only
    | unfold kx

theorem State.transferPoison_kept {a s : State} (h : Kept a s) (kind : Nat) (epoch : Nat) (src : Nat) (link : Nat) (cause : Nat) :
    Kept a (State.transferPoison s kind epoch src link cause) := by
  unfold State.transferPoison
  repeat' first
    | (with_reducible first | assumption | refine Kept.ite ?_ ?_)
    | (lift_lets; intro kx; refine Kept.step (a := a) (x := kx) ?_ fun hkx => ?_)
    | (lift_lets; intro kx)
    | (simp only [Kept.mk_iff]; with_reducible refine KeptF.of ?_ (Nat.le_refl _))
    | (simp only [Kept.mk_iff]; with_reducible refine KeptF.of ?_ (Nat.le_succ _))
    | (with_reducible first | apply State.emit_kept | apply State.sendNotices_kept | apply State.beginStop_kept)
    | (simp only [kx, Kept.mk_iff]; with_reducible refine KeptF.of ?_ (Nat.le_refl _))
    | (with_reducible first
        | refine Kept.foldl ?_ fun kb ky hkb => ?_ | refine Kept.foldl_snd ?_ fun kb ky hkb => ?_
        | refine Kept.foldl_fst ?_ fun kb ky hkb => ?_)
    | split
    | (with_reducible first
        | refine Kept.of_snd (by assumption) ?_ | refine Kept.of_fst (by assumption) ?_
        | refine Kept.of_third (by assumption) ?_)
    | dsimp only
    | unfold kx

theorem State.poisonConsumed_kept {a s : State} (h : Kept a s) (x : Site) (op : Nat) (addr : Nat) (point : Nat) :
    Kept a (State.poisonConsumed s x op addr point) := by
  unfold State.poisonConsumed
  repeat' (with_reducible first | assumption | refine Kept.ite ?_ ?_ | apply State.bump_kept | apply State.emit_kept)

theorem State.sendMsg_kept {a s : State} (h : Kept a s) (m : CtrlMsg) :
    Kept a (State.sendMsg s m) := by
  unfold State.sendMsg
  repeat' first
    | (with_reducible first | assumption | refine Kept.ite ?_ ?_)
    | (lift_lets; intro kx; refine Kept.step (a := a) (x := kx) ?_ fun hkx => ?_)
    | (lift_lets; intro kx)
    | (simp only [Kept.mk_iff]; with_reducible refine KeptF.of ?_ (Nat.le_refl _))
    | (simp only [Kept.mk_iff]; with_reducible refine KeptF.of ?_ (Nat.le_succ _))
    | with_reducible apply State.flitsTo_kept
    | (simp only [kx, Kept.mk_iff]; with_reducible refine KeptF.of ?_ (Nat.le_refl _))
    | (with_reducible first
        | refine Kept.foldl ?_ fun kb ky hkb => ?_ | refine Kept.foldl_snd ?_ fun kb ky hkb => ?_
        | refine Kept.foldl_fst ?_ fun kb ky hkb => ?_)
    | split
    | (with_reducible first
        | refine Kept.of_snd (by assumption) ?_ | refine Kept.of_fst (by assumption) ?_
        | refine Kept.of_third (by assumption) ?_)
    | dsimp only
    | unfold kx

theorem State.rollbackAll_kept {a s : State} (h : Kept a s) (members : List Nat) :
    Kept a (State.rollbackAll s members) := by
  unfold State.rollbackAll
  repeat' first
    | (with_reducible first | assumption | refine Kept.ite ?_ ?_)
    | (lift_lets; intro kx; refine Kept.step (a := a) (x := kx) ?_ fun hkx => ?_)
    | (lift_lets; intro kx)
    | (simp only [Kept.mk_iff]; with_reducible refine KeptF.of ?_ (Nat.le_refl _))
    | (simp only [Kept.mk_iff]; with_reducible refine KeptF.of ?_ (Nat.le_succ _))
    | with_reducible apply State.sendMsg_kept
    | (simp only [kx, Kept.mk_iff]; with_reducible refine KeptF.of ?_ (Nat.le_refl _))
    | (with_reducible first
        | refine Kept.foldl ?_ fun kb ky hkb => ?_ | refine Kept.foldl_snd ?_ fun kb ky hkb => ?_
        | refine Kept.foldl_fst ?_ fun kb ky hkb => ?_)
    | split
    | (with_reducible first
        | refine Kept.of_snd (by assumption) ?_ | refine Kept.of_fst (by assumption) ?_
        | refine Kept.of_third (by assumption) ?_)
    | dsimp only
    | unfold kx

theorem State.setFleet_kept {a s : State} (h : Kept a s) (f : Fld) (v : Nat) :
    Kept a (State.setFleet s f v) := by
  unfold State.setFleet
  repeat' (with_reducible first | assumption | refine Kept.ite ?_ ?_ | apply State.setFldIrq_kept)

theorem State.leaveFleet_kept {a s : State} (h : Kept a s) (cause : Nat) :
    Kept a (State.leaveFleet s cause) := by
  unfold State.leaveFleet
  repeat' (with_reducible first | assumption | refine Kept.ite ?_ ?_ | apply State.sendMsg_kept)

theorem State.dropExports_kept {a s : State} (h : Kept a s) (step : Nat) :
    Kept a (State.dropExports s step) := by
  unfold State.dropExports
  repeat' first
    | with_reducible assumption
    | (simp only [Kept.mk_iff]; with_reducible refine KeptF.of ?_ (Nat.le_refl _))

theorem State.failSave_kept {a s : State} (h : Kept a s) :
    Kept a (State.failSave s) := by
  unfold State.failSave
  repeat' first
    | with_reducible assumption
    | (simp only [Kept.mk_iff]; with_reducible refine KeptF.of ?_ (Nat.le_refl _))
    | (with_reducible first | apply State.setFld_kept | apply State.raiseIrq_kept)
    | split

theorem State.clearStep_kept {a s : State} (h : Kept a s) :
    Kept a (State.clearStep s) := by
  unfold State.clearStep
  repeat' first
    | (with_reducible first | assumption | refine Kept.ite ?_ ?_)
    | (lift_lets; intro kx; refine Kept.step (a := a) (x := kx) ?_ fun hkx => ?_)
    | (lift_lets; intro kx)
    | (simp only [Kept.mk_iff]; with_reducible refine KeptF.of ?_ (Nat.le_refl _))
    | (simp only [Kept.mk_iff]; with_reducible refine KeptF.of ?_ (Nat.le_succ _))
    | with_reducible apply State.setFld_kept
    | (simp only [kx, Kept.mk_iff]; with_reducible refine KeptF.of ?_ (Nat.le_refl _))
    | (with_reducible first
        | refine Kept.foldl ?_ fun kb ky hkb => ?_ | refine Kept.foldl_snd ?_ fun kb ky hkb => ?_
        | refine Kept.foldl_fst ?_ fun kb ky hkb => ?_)
    | split
    | (with_reducible first
        | refine Kept.of_snd (by assumption) ?_ | refine Kept.of_fst (by assumption) ?_
        | refine Kept.of_third (by assumption) ?_)
    | dsimp only
    | unfold kx

theorem State.endRecovery_kept {a s : State} (h : Kept a s) (outcome : Nat) (kind : Nat) (durationMs : Nat) (seam : Bool) :
    Kept a (State.endRecovery s outcome kind durationMs seam) := by
  unfold State.endRecovery
  repeat' first
    | (with_reducible first | assumption | refine Kept.ite ?_ ?_)
    | (lift_lets; intro kx; refine Kept.step (a := a) (x := kx) ?_ fun hkx => ?_)
    | (lift_lets; intro kx)
    | (simp only [Kept.mk_iff]; with_reducible refine KeptF.of ?_ (Nat.le_refl _))
    | (simp only [Kept.mk_iff]; with_reducible refine KeptF.of ?_ (Nat.le_succ _))
    | (with_reducible first
        | apply State.setRun_kept | apply State.setLoadState_kept | apply State.setBusy_kept
        | apply State.setRecovery_kept | apply State.emit_kept | apply State.endHold_kept | apply State.failSave_kept
        | apply State.clearStep_kept)
    | (simp only [kx, Kept.mk_iff]; with_reducible refine KeptF.of ?_ (Nat.le_refl _))
    | (with_reducible first
        | refine Kept.foldl ?_ fun kb ky hkb => ?_ | refine Kept.foldl_snd ?_ fun kb ky hkb => ?_
        | refine Kept.foldl_fst ?_ fun kb ky hkb => ?_)
    | split
    | (with_reducible first
        | refine Kept.of_snd (by assumption) ?_ | refine Kept.of_fst (by assumption) ?_
        | refine Kept.of_third (by assumption) ?_)
    | dsimp only
    | unfold kx

theorem State.setLink_kept {a s : State} (h : Kept a s) (n : Nat) (l : LinkState) :
    Kept a (State.setLink s n l) := by
  unfold State.setLink
  repeat' first
    | with_reducible assumption
    | (simp only [Kept.mk_iff]; with_reducible refine KeptF.of ?_ (Nat.le_refl _))
    | with_reducible apply State.setFld_kept
    | (simp only [kx, Kept.mk_iff]; with_reducible refine KeptF.of ?_ (Nat.le_refl _))
    | with_reducible refine Kept.foldl ?_ fun kb ky hkb => ?_

theorem State.markLost_kept {a s : State} (h : Kept a s) (d : Nat) (cause : Nat) :
    Kept a (State.markLost s d cause) := by
  unfold State.markLost
  repeat' first
    | (with_reducible first | assumption | refine Kept.ite ?_ ?_)
    | (lift_lets; intro kx; refine Kept.step (a := a) (x := kx) ?_ fun hkx => ?_)
    | (lift_lets; intro kx)
    | (simp only [Kept.mk_iff]; with_reducible refine KeptF.of ?_ (Nat.le_refl _))
    | (simp only [Kept.mk_iff]; with_reducible refine KeptF.of ?_ (Nat.le_succ _))
    | (with_reducible first | apply State.setFld_kept | apply State.setRecovery_kept | apply State.emit_kept)
    | (simp only [kx, Kept.mk_iff]; with_reducible refine KeptF.of ?_ (Nat.le_refl _))
    | (with_reducible first
        | refine Kept.foldl ?_ fun kb ky hkb => ?_ | refine Kept.foldl_snd ?_ fun kb ky hkb => ?_
        | refine Kept.foldl_fst ?_ fun kb ky hkb => ?_)
    | split
    | (with_reducible first
        | refine Kept.of_snd (by assumption) ?_ | refine Kept.of_fst (by assumption) ?_
        | refine Kept.of_third (by assumption) ?_)
    | dsimp only
    | unfold kx

theorem State.rerelay_kept {a s : State} (h : Kept a s) (n : Nat) : Kept a (s.rerelay n) := by
  induction n generalizing s with
  | zero => exact h
  | succ n ih =>
    have hr := Kept.foldl (f := fun (s : State) l => s.setLink l { s.link l with relay := s.relayFor l })
      (l := (List.range 10).filter s.linkFallen) h fun _ _ hb => State.setLink_kept hb _ _
    unfold State.rerelay
    dsimp only
    split
    · exact hr
    · exact ih (Kept.foldl hr fun _ _ hb => State.markLost_kept hb _ _)

theorem State.afterLoss_kept {a s : State} (h : Kept a s) (old : State) (durationMs : Nat) :
    Kept a (State.afterLoss s old durationMs) := by
  unfold State.afterLoss
  repeat' first
    | (with_reducible first | assumption | refine Kept.ite ?_ ?_)
    | (lift_lets; intro kx; refine Kept.step (a := a) (x := kx) ?_ fun hkx => ?_)
    | (lift_lets; intro kx)
    | (simp only [Kept.mk_iff]; with_reducible refine KeptF.of ?_ (Nat.le_refl _))
    | (simp only [Kept.mk_iff]; with_reducible refine KeptF.of ?_ (Nat.le_succ _))
    | (with_reducible first
        | apply State.leaveFleet_kept | apply State.dropExports_kept | apply State.endRecovery_kept)
    | (simp only [kx, Kept.mk_iff]; with_reducible refine KeptF.of ?_ (Nat.le_refl _))
    | (with_reducible first
        | refine Kept.foldl ?_ fun kb ky hkb => ?_ | refine Kept.foldl_snd ?_ fun kb ky hkb => ?_
        | refine Kept.foldl_fst ?_ fun kb ky hkb => ?_)
    | split
    | (with_reducible first
        | refine Kept.of_snd (by assumption) ?_ | refine Kept.of_fst (by assumption) ?_
        | refine Kept.of_third (by assumption) ?_)
    | dsimp only
    | unfold kx

theorem State.loseDies_kept {a s : State} (h : Kept a s) (ds : List Nat) (cause : Nat) (durationMs : Nat) :
    Kept a (State.loseDies s ds cause durationMs) := by
  unfold State.loseDies
  repeat' first
    | (with_reducible first | assumption | refine Kept.ite ?_ ?_)
    | (lift_lets; intro kx; refine Kept.step (a := a) (x := kx) ?_ fun hkx => ?_)
    | (lift_lets; intro kx)
    | (simp only [Kept.mk_iff]; with_reducible refine KeptF.of ?_ (Nat.le_refl _))
    | (simp only [Kept.mk_iff]; with_reducible refine KeptF.of ?_ (Nat.le_succ _))
    | (with_reducible first | apply State.markLost_kept | apply State.rerelay_kept | apply State.afterLoss_kept)
    | (simp only [kx, Kept.mk_iff]; with_reducible refine KeptF.of ?_ (Nat.le_refl _))
    | (with_reducible first
        | refine Kept.foldl ?_ fun kb ky hkb => ?_ | refine Kept.foldl_snd ?_ fun kb ky hkb => ?_
        | refine Kept.foldl_fst ?_ fun kb ky hkb => ?_)
    | split
    | (with_reducible first
        | refine Kept.of_snd (by assumption) ?_ | refine Kept.of_fst (by assumption) ?_
        | refine Kept.of_third (by assumption) ?_)
    | dsimp only
    | unfold kx

theorem State.loseDie_kept {a s : State} (h : Kept a s) (d : Nat) (cause : Nat) (durationMs : Nat) :
    Kept a (State.loseDie s d cause durationMs) := by
  unfold State.loseDie
  repeat' first
    | (with_reducible first | assumption | refine Kept.ite ?_ ?_)
    | (lift_lets; intro kx; refine Kept.step (a := a) (x := kx) ?_ fun hkx => ?_)
    | (lift_lets; intro kx)
    | (simp only [Kept.mk_iff]; with_reducible refine KeptF.of ?_ (Nat.le_refl _))
    | (simp only [Kept.mk_iff]; with_reducible refine KeptF.of ?_ (Nat.le_succ _))
    | with_reducible apply State.loseDies_kept
    | (simp only [kx, Kept.mk_iff]; with_reducible refine KeptF.of ?_ (Nat.le_refl _))
    | (with_reducible first
        | refine Kept.foldl ?_ fun kb ky hkb => ?_ | refine Kept.foldl_snd ?_ fun kb ky hkb => ?_
        | refine Kept.foldl_fst ?_ fun kb ky hkb => ?_)
    | split
    | (with_reducible first
        | refine Kept.of_snd (by assumption) ?_ | refine Kept.of_fst (by assumption) ?_
        | refine Kept.of_third (by assumption) ?_)
    | dsimp only
    | unfold kx

theorem State.chargeWord_kept {a s : State} (h : Kept a s) (k : Nat) (w : Nat) :
    Kept a (State.chargeWord s k w) := by
  unfold State.chargeWord
  repeat' first
    | (with_reducible first | assumption | refine Kept.ite ?_ ?_)
    | (lift_lets; intro kx; refine Kept.step (a := a) (x := kx) ?_ fun hkx => ?_)
    | (lift_lets; intro kx)
    | (simp only [Kept.mk_iff]; with_reducible refine KeptF.of ?_ (Nat.le_refl _))
    | (simp only [Kept.mk_iff]; with_reducible refine KeptF.of ?_ (Nat.le_succ _))
    | (with_reducible first | apply State.markDue_kept | apply State.noteHard_kept)
    | (simp only [kx, Kept.mk_iff]; with_reducible refine KeptF.of ?_ (Nat.le_refl _))
    | (with_reducible first
        | refine Kept.foldl ?_ fun kb ky hkb => ?_ | refine Kept.foldl_snd ?_ fun kb ky hkb => ?_
        | refine Kept.foldl_fst ?_ fun kb ky hkb => ?_)
    | split
    | (with_reducible first
        | refine Kept.of_snd (by assumption) ?_ | refine Kept.of_fst (by assumption) ?_
        | refine Kept.of_third (by assumption) ?_)
    | dsimp only
    | unfold kx

theorem State.chargeCorrected_kept {a s : State} (h : Kept a s) (aa : Nat) :
    Kept a (State.chargeCorrected s aa) := by
  unfold State.chargeCorrected
  repeat' first
    | (with_reducible first | assumption | refine Kept.ite ?_ ?_)
    | (lift_lets; intro kx; refine Kept.step (a := a) (x := kx) ?_ fun hkx => ?_)
    | (with_reducible first
        | apply State.markDue_kept | apply State.countCorrected_kept | apply State.chargeWord_kept)
    | split

theorem State.bumpEcc_kept {a s : State} (h : Kept a s) (aa : Nat) (j : Nat) :
    Kept a (State.bumpEcc s aa j) := by
  unfold State.bumpEcc
  repeat' first
    | (with_reducible first | assumption | apply State.bump_kept)
    | split

theorem State.correctedIn_kept {a s : State} (h : Kept a s) (k : MemKind) (aa : Nat) (sym : Nat) (op : Nat) (counter : Nat) :
    Kept a (State.correctedIn s k aa sym op counter) := by
  unfold State.correctedIn
  repeat' first
    | (with_reducible first | assumption | refine Kept.ite ?_ ?_)
    | (simp only [Kept.mk_iff]; with_reducible refine KeptF.of ?_ (Nat.le_refl _))
    | (with_reducible first
        | apply State.setLineMeta_kept | apply State.emit_kept | apply State.noteHard_kept
        | apply State.chargeCorrected_kept | apply State.bumpEcc_kept)

theorem State.applyCause_kept {a s : State} (h : Kept a s) (key : Nat) (kind : Nat) :
    Kept a (State.applyCause s key kind) := by
  unfold State.applyCause
  repeat' first
    | (with_reducible first
        | assumption | refine Kept.ite ?_ ?_ | apply State.strike_kept | apply State.markDue_kept
        | apply State.strikeSump_kept)
    | split

theorem State.uncorrectableIn_kept {a s : State} (h : Kept a s) (k : MemKind) (aa : Nat) (op : Nat) :
    Kept a (State.uncorrectableIn s k aa op) := by
  unfold State.uncorrectableIn
  repeat' first
    | with_reducible assumption
    | (lift_lets; intro kx; refine Kept.step (a := a) (x := kx) ?_ fun hkx => ?_)
    | (lift_lets; intro kx)
    | (simp only [Kept.mk_iff]; with_reducible refine KeptF.of ?_ (Nat.le_refl _))
    | (with_reducible first
        | apply State.poisonAt_kept | apply State.emit_kept | apply State.stopStep_kept | apply State.bumpEcc_kept
        | apply State.applyCause_kept)
    | split

theorem State.applyEccIn_kept {a s : State} (h : Kept a s) (k : MemKind) (aa : Nat) (e : Ecc) (op : Nat) (counter : Nat) :
    Kept a (State.applyEccIn s k aa e op counter) := by
  unfold State.applyEccIn
  repeat' first
    | (with_reducible first | assumption | apply State.correctedIn_kept | apply State.uncorrectableIn_kept)
    | split

theorem State.applyEcc_kept {a s : State} (h : Kept a s) (aa : Nat) (e : Ecc) (op : Nat) (counter : Nat) :
    Kept a (State.applyEcc s aa e op counter) := by
  unfold State.applyEcc
  repeat' (with_reducible first | assumption | refine Kept.ite ?_ ?_ | apply State.applyEccIn_kept)

theorem State.bufferEcc_kept {a s : State} (h : Kept a s) (k : MemKind) (key : Nat) (at_ : Site) (off : Nat) (e : Ecc) (op : Nat) :
    Kept a (State.bufferEcc s k key at_ off e op) := by
  unfold State.bufferEcc
  repeat' first
    | (with_reducible first | assumption | refine Kept.ite ?_ ?_)
    | (simp only [Kept.mk_iff]; with_reducible refine KeptF.of ?_ (Nat.le_refl _))
    | (with_reducible first
        | apply State.emit_kept | apply State.countCorrected_kept | apply State.stopStep_kept
        | apply State.chargeWord_kept)
    | split

theorem State.meetError_kept {a s : State} (h : Kept a s) (r : Reads) (op : Nat) (e : MemError) :
    Kept a (State.meetError s r op e) := by
  unfold State.meetError
  repeat' first
    | (with_reducible first
        | assumption | apply State.applyEccIn_kept | apply State.applyEcc_kept | apply State.bufferEcc_kept)
    | split

theorem State.countPoisonReads_kept {a s : State} (h : Kept a s) (ranges : List (Nat × Nat)) :
    Kept a (State.countPoisonReads s ranges) := by
  unfold State.countPoisonReads
  repeat' first
    | (with_reducible first
        | assumption | refine Kept.ite ?_ ?_ | apply State.bumpEcc_kept | refine Kept.foldl ?_ fun kb ky hkb => ?_)

theorem State.meetReads_kept {a s : State} (h : Kept a s) (r : Reads) (op : Nat) (es : List MemError) :
    Kept a (State.meetReads s r op es) := by
  unfold State.meetReads
  repeat' first
    | (with_reducible first
        | assumption | apply State.meetError_kept | apply State.countPoisonReads_kept
        | refine Kept.foldl ?_ fun kb ky hkb => ?_)

end Sys2Proof.Machine
end

