-- ==== Sys2Proof/Laws/KeptOperands.lean ====
section
/-! SUPPORT. What the operations of Machine/Operands.lean keep (`Kept`). -/

set_option linter.unusedSimpArgs false

namespace Sys2Proof.Machine

theorem State.writeElem_kept {a s : State} (h : Kept a s) (t : Tensor) (v : Nat) (n : Nat) (raw : Nat) :
    Kept a (State.writeElem s t v n raw) := by
  unfold State.writeElem
  repeat' (with_reducible first | assumption | refine Kept.ite ?_ ?_ | apply State.write_kept)

end Sys2Proof.Machine
end

