-- ==== Sys2Proof/Laws/KeptPorts.lean ====
section
/-! SUPPORT. What the operations of Machine/Ports.lean keep (`Kept`). -/

set_option linter.unusedSimpArgs false

namespace Sys2Proof.Machine

theorem State.setStream_kept {a s : State} (h : Kept a s) (key : Nat) (v : StreamState) :
    Kept a (State.setStream s key v) := by
  unfold State.setStream
  repeat' first
    | with_reducible assumption
    | (simp only [Kept.mk_iff]; with_reducible refine KeptF.of ?_ (Nat.le_refl _))

theorem State.noteWrite_kept {a s : State} (h : Kept a s) (aa : Nat) (old : List Byte) :
    Kept a (State.noteWrite s aa old) := by
  unfold State.noteWrite
  repeat' first
    | (with_reducible first | assumption | refine Kept.ite ?_ ?_)
    | (simp only [Kept.mk_iff]; with_reducible refine KeptF.of ?_ (Nat.le_refl _))

theorem State.writeNoted_kept {a s : State} (h : Kept a s) (aa : Nat) (bs : List Byte) :
    Kept a (State.writeNoted s aa bs) := by
  unfold State.writeNoted
  repeat' first
    | (with_reducible first
        | assumption | refine Kept.ite ?_ ?_ | apply State.write_kept | apply State.noteWrite_kept)

theorem State.poisonRange_kept {a s : State} (h : Kept a s) (aa : Nat) (n : Nat) :
    Kept a (State.poisonRange s aa n) := by
  unfold State.poisonRange
  repeat' first
    | (with_reducible first
        | assumption | refine Kept.ite ?_ ?_ | apply State.poisonAt_kept | refine Kept.foldl ?_ fun kb ky hkb => ?_)

theorem State.putOut_kept {a s : State} (h : Kept a s) (x : Ent) (o : Out) :
    Kept a (State.putOut s x o) := by
  unfold State.putOut
  repeat' first
    | (with_reducible first
        | assumption | apply State.setStream_kept | apply State.writeNoted_kept | apply State.poisonRange_kept
        | refine Kept.foldl ?_ fun kb ky hkb => ?_)
    | split

end Sys2Proof.Machine
end

