-- ==== Sys2Proof/Laws/KeptDense.lean ====
section
/-! SUPPORT. What the operations of Machine/Dense.lean keep (`Kept`). -/

set_option linter.unusedSimpArgs false

namespace Sys2Proof.Machine

theorem State.signal_kept {a s : State} (h : Kept a s) (d : Nat) (sig : Nat) :
    Kept a (State.signal s d sig) := by
  unfold State.signal
  repeat' first
    | (with_reducible first | assumption | refine Kept.ite ?_ ?_)
    | (simp only [Kept.mk_iff]; with_reducible refine KeptF.of ?_ (Nat.le_refl _))

theorem State.setSeq_kept {a s : State} (h : Kept a s) (core : Nat) (q : SeqState) :
    Kept a (State.setSeq s core q) := by
  unfold State.setSeq
  repeat' first
    | with_reducible assumption
    | (simp only [Kept.mk_iff]; with_reducible refine KeptF.of ?_ (Nat.le_refl _))

theorem State.trace_kept {a s : State} (h : Kept a s) (unit : Nat) (index : Nat) (source : Nat) (port : Nat) (mb : Nat) (elements : Nat) (pip : Nat) :
    Kept a (State.trace s unit index source port mb elements pip) := by
  unfold State.trace
  repeat' first
    | (with_reducible first
        | assumption | refine Kept.ite ?_ ?_ | apply State.bump_kept | apply State.setFld_kept
        | apply State.guardedWrite_kept)

theorem State.setStalled_kept {a s : State} (h : Kept a s) (core : Nat) (on : Bool) :
    Kept a (State.setStalled s core on) := by
  unfold State.setStalled
  repeat' first
    | with_reducible assumption
    | (simp only [Kept.mk_iff]; with_reducible refine KeptF.of ?_ (Nat.le_refl _))
    | with_reducible apply State.setFld_kept

theorem State.setTraceHeld_kept {a s : State} (h : Kept a s) (core : Nat) (on : Bool) :
    Kept a (State.setTraceHeld s core on) := by
  unfold State.setTraceHeld
  repeat' first
    | with_reducible assumption
    | (simp only [Kept.mk_iff]; with_reducible refine KeptF.of ?_ (Nat.le_refl _))

theorem State.staleStop_kept {a s : State} (h : Kept a s) (unit : Nat) (op : Nat) (e : Nat × Nat) :
    Kept a (State.staleStop s unit op e) := by
  unfold State.staleStop
  repeat' (with_reducible first | assumption | refine Kept.ite ?_ ?_ | apply State.emit_kept | apply State.stopStep_kept)

theorem State.demandStreams_kept {a s : State} (h : Kept a s) (x : Ent) :
    Kept a (State.demandStreams s x) := by
  unfold State.demandStreams
  repeat' (with_reducible first | assumption | apply State.setStream_kept | refine Kept.foldl ?_ fun kb ky hkb => ?_)

theorem State.sendExchange_kept {a s : State} (h : Kept a s) (x : Ent) :
    Kept a (State.sendExchange s x) := by
  unfold State.sendExchange
  repeat' first
    | (with_reducible first | assumption | refine Kept.ite ?_ ?_)
    | (lift_lets; intro kx; refine Kept.step (a := a) (x := kx) ?_ fun hkx => ?_)
    | (lift_lets; intro kx)
    | (simp only [Kept.mk_iff]; with_reducible refine KeptF.of ?_ (Nat.le_refl _))
    | (simp only [Kept.mk_iff]; with_reducible refine KeptF.of ?_ (Nat.le_succ _))
    | with_reducible apply State.sendData_kept
    | (simp only [kx, Kept.mk_iff]; with_reducible refine KeptF.of ?_ (Nat.le_refl _))
    | (with_reducible first
        | refine Kept.foldl ?_ fun kb ky hkb => ?_ | refine Kept.foldl_snd ?_ fun kb ky hkb => ?_
        | refine Kept.foldl_fst ?_ fun kb ky hkb => ?_)
    | split
    | (with_reducible first
        | refine Kept.of_snd (by assumption) ?_ | refine Kept.of_fst (by assumption) ?_
        | refine Kept.of_third (by assumption) ?_)
    | dsimp only
    | unfold kx

theorem State.issueEntry_kept {a s : State} (h : Kept a s) (x : Ent) :
    Kept a (State.issueEntry s x) := by
  unfold State.issueEntry
  repeat' first
    | (with_reducible first | assumption | refine Kept.ite ?_ ?_)
    | (lift_lets; intro kx; refine Kept.step (a := a) (x := kx) ?_ fun hkx => ?_)
    | (lift_lets; intro kx)
    | (simp only [Kept.mk_iff]; with_reducible refine KeptF.of ?_ (Nat.le_refl _))
    | (simp only [Kept.mk_iff]; with_reducible refine KeptF.of ?_ (Nat.le_succ _))
    | (with_reducible first
        | apply State.setFld_kept | apply State.setSeq_kept | apply State.setStalled_kept
        | apply State.setTraceHeld_kept | apply State.staleStop_kept | apply State.demandStreams_kept
        | apply State.sendExchange_kept)
    | (simp only [kx, Kept.mk_iff]; with_reducible refine KeptF.of ?_ (Nat.le_refl _))
    | (with_reducible first
        | refine Kept.foldl ?_ fun kb ky hkb => ?_ | refine Kept.foldl_snd ?_ fun kb ky hkb => ?_
        | refine Kept.foldl_fst ?_ fun kb ky hkb => ?_)
    | split
    | (with_reducible first
        | refine Kept.of_snd (by assumption) ?_ | refine Kept.of_fst (by assumption) ?_
        | refine Kept.of_third (by assumption) ?_)
    | dsimp only
    | unfold kx

theorem State.scheduleEntryIssue_kept {a s : State} (h : Kept a s) (d : Nat) (c : Nat) (k : Nat) :
    Kept a (State.scheduleEntryIssue s d c k) := by
  unfold State.scheduleEntryIssue
  repeat' first
    | (with_reducible first | assumption | refine Kept.ite ?_ ?_)
    | (lift_lets; intro kx; refine Kept.step (a := a) (x := kx) ?_ fun hkx => ?_)
    | (lift_lets; intro kx)
    | (simp only [Kept.mk_iff]; with_reducible refine KeptF.of ?_ (Nat.le_refl _))
    | (simp only [Kept.mk_iff]; with_reducible refine KeptF.of ?_ (Nat.le_succ _))
    | with_reducible apply State.issueEntry_kept
    | (simp only [kx, Kept.mk_iff]; with_reducible refine KeptF.of ?_ (Nat.le_refl _))
    | (with_reducible first
        | refine Kept.foldl ?_ fun kb ky hkb => ?_ | refine Kept.foldl_snd ?_ fun kb ky hkb => ?_
        | refine Kept.foldl_fst ?_ fun kb ky hkb => ?_)
    | split
    | (with_reducible first
        | refine Kept.of_snd (by assumption) ?_ | refine Kept.of_fst (by assumption) ?_
        | refine Kept.of_third (by assumption) ?_)
    | dsimp only
    | unfold kx

theorem execScheduleEntryIssue_kept {a s : State} (h : Kept a s) (die : Fin 4) (cluster : Fin 16) (core : Fin 8) {kt : State} (ke : execScheduleEntryIssue die cluster core s = .next kt) :
    Kept a kt := by
  unfold execScheduleEntryIssue at ke
  refine Kept.of_done ke ?_
  repeat' (with_reducible first | assumption | refine Kept.ite ?_ ?_ | apply State.scheduleEntryIssue_kept)

theorem State.takeStreams_kept {a s : State} (h : Kept a s) (x : Ent) :
    Kept a (State.takeStreams s x) := by
  unfold State.takeStreams
  repeat' first
    | (with_reducible first
        | assumption | refine Kept.ite ?_ ?_ | apply State.setStream_kept | refine Kept.foldl ?_ fun kb ky hkb => ?_)

theorem State.setPip_kept {a s : State} (h : Kept a s) (t : Nat) (p : PipState) :
    Kept a (State.setPip s t p) := by
  unfold State.setPip
  repeat' first
    | with_reducible assumption
    | (simp only [Kept.mk_iff]; with_reducible refine KeptF.of ?_ (Nat.le_refl _))

theorem State.notePipReads_kept {a s : State} (h : Kept a s) (x : Ent) :
    Kept a (State.notePipReads s x) := by
  unfold State.notePipReads
  repeat' first
    | (with_reducible first | assumption | apply State.setPip_kept | refine Kept.foldl ?_ fun kb ky hkb => ?_)
    | split
    | dsimp only
    | exact hkz

theorem State.notePipWrite_kept {a s : State} (h : Kept a s) (x : Ent) (outs : List Out) :
    Kept a (State.notePipWrite s x outs) := by
  unfold State.notePipWrite
  repeat' first
    | (with_reducible first | assumption | apply State.setPip_kept)
    | split
    | exact hkz

theorem State.copyVersion_kept {a s : State} (h : Kept a s) (t : Tensor) (v : Nat) :
    Kept a (State.copyVersion s t v) := by
  unfold State.copyVersion
  repeat' first
    | (with_reducible first | assumption | refine Kept.ite ?_ ?_)
    | (simp only [Kept.mk_iff]; with_reducible refine KeptF.of ?_ (Nat.le_refl _))
    | with_reducible apply State.writeNoted_kept
    | exact hkz

theorem State.noteLive_kept {a s : State} (h : Kept a s) :
    Kept a (State.noteLive s) := by
  unfold State.noteLive
  repeat' first
    | (with_reducible first
        | assumption | refine Kept.ite ?_ ?_ | apply State.setFld_kept | refine Kept.foldl ?_ fun kb ky hkb => ?_)
    | exact hkz

theorem State.seamLive_kept {a s : State} (h : Kept a s) :
    Kept a (State.seamLive s) := by
  unfold State.seamLive
  repeat' first
    | (with_reducible first | assumption | refine Kept.ite ?_ ?_)
    | (lift_lets; intro kx; refine Kept.step (a := a) (x := kx) ?_ fun hkx => ?_)
    | (lift_lets; intro kx)
    | (simp only [Kept.mk_iff]; with_reducible refine KeptF.of ?_ (Nat.le_refl _))
    | (simp only [Kept.mk_iff]; with_reducible refine KeptF.of ?_ (Nat.le_succ _))
    | (with_reducible first | apply State.setFld_kept | apply State.noteLive_kept)
    | (simp only [kx, Kept.mk_iff]; with_reducible refine KeptF.of ?_ (Nat.le_refl _))
    | (with_reducible first
        | refine Kept.foldl ?_ fun kb ky hkb => ?_ | refine Kept.foldl_snd ?_ fun kb ky hkb => ?_
        | refine Kept.foldl_fst ?_ fun kb ky hkb => ?_)
    | split
    | (with_reducible first
        | refine Kept.of_snd (by assumption) ?_ | refine Kept.of_fst (by assumption) ?_
        | refine Kept.of_third (by assumption) ?_)
    | dsimp only
    | unfold kx

theorem State.addVersion_kept {a s : State} (h : Kept a s) (x : Ent) :
    Kept a (State.addVersion s x) := by
  unfold State.addVersion
  repeat' first
    | with_reducible assumption
    | (simp only [Kept.mk_iff]; with_reducible refine KeptF.of ?_ (Nat.le_refl _))
    | with_reducible apply State.noteLive_kept
    | split
    | exact hkz

theorem State.countClamps_kept {a s : State} (h : Kept a s) (x : Ent) (places : List (Nat × Nat)) :
    Kept a (State.countClamps s x places) := by
  unfold State.countClamps
  repeat' first
    | (with_reducible first | assumption | apply State.bump_kept | refine Kept.foldl ?_ fun kb ky hkb => ?_)
    | split

theorem State.traceOuts_kept {a s : State} (h : Kept a s) (x : Ent) (outs : List Out) :
    Kept a (State.traceOuts s x outs) := by
  unfold State.traceOuts
  repeat' first
    | (with_reducible first | assumption | refine Kept.ite ?_ ?_)
    | (lift_lets; intro kx; refine Kept.step (a := a) (x := kx) ?_ fun hkx => ?_)
    | (lift_lets; intro kx)
    | (simp only [Kept.mk_iff]; with_reducible refine KeptF.of ?_ (Nat.le_refl _))
    | (simp only [Kept.mk_iff]; with_reducible refine KeptF.of ?_ (Nat.le_succ _))
    | with_reducible apply State.trace_kept
    | (simp only [kx, Kept.mk_iff]; with_reducible refine KeptF.of ?_ (Nat.le_refl _))
    | (with_reducible first
        | refine Kept.foldl ?_ fun kb ky hkb => ?_ | refine Kept.foldl_snd ?_ fun kb ky hkb => ?_
        | refine Kept.foldl_fst ?_ fun kb ky hkb => ?_)
    | split
    | (with_reducible first
        | refine Kept.of_snd (by assumption) ?_ | refine Kept.of_fst (by assumption) ?_
        | refine Kept.of_third (by assumption) ?_)
    | dsimp only
    | unfold kx

theorem State.noteTwins_kept {a s : State} (h : Kept a s) (x : Ent) :
    Kept a (State.noteTwins s x) := by
  unfold State.noteTwins
  repeat' first
    | with_reducible assumption
    | (simp only [Kept.mk_iff]; with_reducible refine KeptF.of ?_ (Nat.le_refl _))

theorem State.putOuts_kept {a s : State} (h : Kept a s) (x : Ent) (outs : List Out) :
    Kept a (State.putOuts s x outs) := by
  unfold State.putOuts
  repeat' (with_reducible first | assumption | apply State.putOut_kept | refine Kept.foldl ?_ fun kb ky hkb => ?_)

theorem State.finish_kept {a s : State} (h : Kept a s) (x : Ent) (rs : List Result) (clamps : List (Nat × Nat)) :
    Kept a (State.finish s x rs clamps) := by
  unfold State.finish
  repeat' first
    | (with_reducible first
        | assumption | apply State.takeStreams_kept | apply State.notePipReads_kept | apply State.notePipWrite_kept
        | apply State.copyVersion_kept | apply State.addVersion_kept | apply State.countClamps_kept
        | apply State.traceOuts_kept | apply State.putOuts_kept)
    | split
    | exact hkz

theorem State.leaveFlight_kept {a s : State} (h : Kept a s) (x : Ent) :
    Kept a (State.leaveFlight s x) := by
  unfold State.leaveFlight
  repeat' (with_reducible first | assumption | refine Kept.ite ?_ ?_ | apply State.setSeq_kept)

theorem State.poisonOutputs_kept {a s : State} (h : Kept a s) (x : Ent) :
    Kept a (State.poisonOutputs s x) := by
  unfold State.poisonOutputs
  repeat' first
    | (with_reducible first
        | assumption | apply State.noteWrite_kept | apply State.poisonRange_kept
        | refine Kept.foldl ?_ fun kb ky hkb => ?_)

theorem State.failEntry_kept {a s : State} (h : Kept a s) (x : Ent) (e : Nat) (f : CheckFault) :
    Kept a (State.failEntry s x e f) := by
  unfold State.failEntry
  repeat' first
    | (with_reducible first | assumption | refine Kept.ite ?_ ?_)
    | (lift_lets; intro kx; refine Kept.step (a := a) (x := kx) ?_ fun hkx => ?_)
    | (lift_lets; intro kx)
    | (simp only [Kept.mk_iff]; with_reducible refine KeptF.of ?_ (Nat.le_refl _))
    | (simp only [Kept.mk_iff]; with_reducible refine KeptF.of ?_ (Nat.le_succ _))
    | (with_reducible first
        | apply State.free_kept | apply State.bump_kept | apply State.emit_kept | apply State.stopStep_kept
        | apply State.leaveFlight_kept | apply State.poisonOutputs_kept)
    | (simp only [kx, Kept.mk_iff]; with_reducible refine KeptF.of ?_ (Nat.le_refl _))
    | (with_reducible first
        | refine Kept.foldl ?_ fun kb ky hkb => ?_ | refine Kept.foldl_snd ?_ fun kb ky hkb => ?_
        | refine Kept.foldl_fst ?_ fun kb ky hkb => ?_)
    | split
    | (with_reducible first
        | refine Kept.of_snd (by assumption) ?_ | refine Kept.of_fst (by assumption) ?_
        | refine Kept.of_third (by assumption) ?_)
    | dsimp only
    | unfold kx

theorem State.finishExchange_kept {a s : State} (h : Kept a s) (x : Ent) :
    Kept a (State.finishExchange s x) := by
  unfold State.finishExchange
  repeat' first
    | (with_reducible first | assumption | refine Kept.ite ?_ ?_)
    | (lift_lets; intro kx; refine Kept.step (a := a) (x := kx) ?_ fun hkx => ?_)
    | (lift_lets; intro kx)
    | (simp only [Kept.mk_iff]; with_reducible refine KeptF.of ?_ (Nat.le_refl _))
    | (simp only [Kept.mk_iff]; with_reducible refine KeptF.of ?_ (Nat.le_succ _))
    | with_reducible apply State.finish_kept
    | (simp only [kx, Kept.mk_iff]; with_reducible refine KeptF.of ?_ (Nat.le_refl _))
    | (with_reducible first
        | refine Kept.foldl ?_ fun kb ky hkb => ?_ | refine Kept.foldl_snd ?_ fun kb ky hkb => ?_
        | refine Kept.foldl_fst ?_ fun kb ky hkb => ?_)
    | split
    | (with_reducible first
        | refine Kept.of_snd (by assumption) ?_ | refine Kept.of_fst (by assumption) ?_
        | refine Kept.of_third (by assumption) ?_)
    | dsimp only
    | unfold kx

theorem State.meetEntryReads_kept {a s : State} (h : Kept a s) (x : Ent) (es : List MemError) :
    Kept a (State.meetEntryReads s x es) := by
  unfold State.meetEntryReads
  repeat' (with_reducible first | assumption | refine Kept.ite ?_ ?_ | apply State.meetReads_kept)

theorem State.retireEntry_kept {a s : State} (h : Kept a s) (x : Ent) :
    Kept a (State.retireEntry s x) := by
  unfold State.retireEntry
  repeat' first
    | (with_reducible first | assumption | refine Kept.ite ?_ ?_)
    | (simp only [Kept.mk_iff]; with_reducible refine KeptF.of ?_ (Nat.le_refl _))
    | (with_reducible first | apply State.signal_kept | apply State.leaveFlight_kept)

theorem State.escapeElem_kept {a s : State} (h : Kept a s) (x : Ent) (elem : Nat) :
    Kept a (State.escapeElem s x elem) := by
  unfold State.escapeElem
  repeat' first
    | (with_reducible first | assumption | apply State.tickFree_kept | apply State.writeElem_kept)
    | split

theorem State.runEntry_kept {a s : State} (h : Kept a s) (x : Ent) :
    Kept a (State.runEntry s x) := by
  unfold State.runEntry
  repeat' first
    | (with_reducible first | assumption | refine Kept.ite ?_ ?_)
    | (lift_lets; intro kx; refine Kept.step (a := a) (x := kx) ?_ fun hkx => ?_)
    | (lift_lets; intro kx)
    | (simp only [Kept.mk_iff]; with_reducible refine KeptF.of ?_ (Nat.le_refl _))
    | (simp only [Kept.mk_iff]; with_reducible refine KeptF.of ?_ (Nat.le_succ _))
    | (with_reducible first | apply State.finish_kept | apply State.finishExchange_kept)
    | (simp only [kx, Kept.mk_iff]; with_reducible refine KeptF.of ?_ (Nat.le_refl _))
    | (with_reducible first
        | refine Kept.foldl ?_ fun kb ky hkb => ?_ | refine Kept.foldl_snd ?_ fun kb ky hkb => ?_
        | refine Kept.foldl_fst ?_ fun kb ky hkb => ?_)
    | split
    | (with_reducible first
        | refine Kept.of_snd (by assumption) ?_ | refine Kept.of_fst (by assumption) ?_
        | refine Kept.of_third (by assumption) ?_)
    | dsimp only
    | unfold kx

theorem State.passEntry_kept {a s : State} (h : Kept a s) (x : Ent) (escaped : Option Nat) (ecc : List MemError) :
    Kept a (State.passEntry s x escaped ecc) := by
  unfold State.passEntry
  repeat' first
    | (with_reducible first
        | assumption | refine Kept.ite ?_ ?_ | apply State.noteTwins_kept | apply State.leaveFlight_kept
        | apply State.poisonOutputs_kept | apply State.meetEntryReads_kept | apply State.retireEntry_kept
        | apply State.escapeElem_kept | apply State.runEntry_kept)
    | split
    | unfold kx

theorem State.entryComplete_kept {a s : State} (h : Kept a s) (d : Nat) (c : Nat) (k : Nat) (idx : Nat) (fault : Option (Nat × CheckFault)) (ecc : List MemError) :
    Kept a (State.entryComplete s d c k idx fault ecc) := by
  unfold State.entryComplete
  repeat' first
    | (with_reducible first | assumption | refine Kept.ite ?_ ?_)
    | (lift_lets; intro kx; refine Kept.step (a := a) (x := kx) ?_ fun hkx => ?_)
    | (lift_lets; intro kx)
    | (simp only [Kept.mk_iff]; with_reducible refine KeptF.of ?_ (Nat.le_refl _))
    | (simp only [Kept.mk_iff]; with_reducible refine KeptF.of ?_ (Nat.le_succ _))
    | (with_reducible first | apply State.sendExchange_kept | apply State.failEntry_kept | apply State.passEntry_kept)
    | (simp only [kx, Kept.mk_iff]; with_reducible refine KeptF.of ?_ (Nat.le_refl _))
    | (with_reducible first
        | refine Kept.foldl ?_ fun kb ky hkb => ?_ | refine Kept.foldl_snd ?_ fun kb ky hkb => ?_
        | refine Kept.foldl_fst ?_ fun kb ky hkb => ?_)
    | split
    | (with_reducible first
        | refine Kept.of_snd (by assumption) ?_ | refine Kept.of_fst (by assumption) ?_
        | refine Kept.of_third (by assumption) ?_)
    | dsimp only
    | unfold kx

theorem execEntryComplete_kept {a s : State} (h : Kept a s) (die : Fin 4) (cluster : Fin 16) (core : Fin 8) (entry : Nat) (events : EntryEvents) {kt : State} (ke : execEntryComplete die cluster core entry events s = .next kt) :
    Kept a kt := by
  unfold execEntryComplete at ke
  refine Kept.of_done ke ?_
  repeat' first
    | (with_reducible first | assumption | refine Kept.ite ?_ ?_)
    | (lift_lets; intro kx; refine Kept.step (a := a) (x := kx) ?_ fun hkx => ?_)
    | (lift_lets; intro kx)
    | (simp only [Kept.mk_iff]; with_reducible refine KeptF.of ?_ (Nat.le_refl _))
    | (simp only [Kept.mk_iff]; with_reducible refine KeptF.of ?_ (Nat.le_succ _))
    | with_reducible apply State.entryComplete_kept
    | (simp only [kx, Kept.mk_iff]; with_reducible refine KeptF.of ?_ (Nat.le_refl _))
    | (with_reducible first
        | refine Kept.foldl ?_ fun kb ky hkb => ?_ | refine Kept.foldl_snd ?_ fun kb ky hkb => ?_
        | refine Kept.foldl_fst ?_ fun kb ky hkb => ?_)
    | split
    | (with_reducible first
        | refine Kept.of_snd (by assumption) ?_ | refine Kept.of_fst (by assumption) ?_
        | refine Kept.of_third (by assumption) ?_)
    | dsimp only
    | unfold kx

theorem State.poisonEpochs_kept {a s : State} (h : Kept a s) (tile : Nat × Nat × Nat × Nat) :
    Kept a (State.poisonEpochs s tile) := by
  unfold State.poisonEpochs
  repeat' first
    | with_reducible assumption
    | (simp only [Kept.mk_iff]; with_reducible refine KeptF.of ?_ (Nat.le_refl _))
    | (with_reducible first | apply State.transferPoison_kept | refine Kept.foldl ?_ fun kb ky hkb => ?_)

theorem State.twinComparison_kept {a s : State} (h : Kept a s) (d : Nat) (c : Nat) (k : Nat) (e : Nat) (mismatch : Option (Nat × Bool × Nat)) :
    Kept a (State.twinComparison s d c k e mismatch) := by
  unfold State.twinComparison
  repeat' first
    | with_reducible assumption
    | (simp only [Kept.mk_iff]; with_reducible refine KeptF.of ?_ (Nat.le_refl _))
    | (with_reducible first
        | apply State.bump_kept | apply State.emit_kept | apply State.stopStep_kept | apply State.poisonOutputs_kept
        | apply State.poisonEpochs_kept)
    | split
    | dsimp only

theorem execTwinComparison_kept {a s : State} (h : Kept a s) (die : Fin 4) (cluster : Fin 16) (core : Fin 8) (engine : Fin 8) (mismatch : Option (BitVec 6 × Bool × BitVec 16)) {kt : State} (ke : execTwinComparison die cluster core engine mismatch s = .next kt) :
    Kept a kt := by
  unfold execTwinComparison at ke
  refine Kept.of_done ke ?_
  repeat' (with_reducible first | assumption | refine Kept.ite ?_ ?_ | apply State.twinComparison_kept)

theorem State.streamChunkRead_kept {a s : State} (h : Kept a s) (d : Nat) (c : Nat) (k : Nat) (st : Nat) :
    Kept a (State.streamChunkRead s d c k st) := by
  unfold State.streamChunkRead
  repeat' first
    | (with_reducible first | assumption | refine Kept.ite ?_ ?_ | apply State.setStream_kept)
    | split

theorem execStreamChunkRead_kept {a s : State} (h : Kept a s) (die : Fin 4) (cluster : Fin 16) (core : Fin 8) (stream : Fin 16) {kt : State} (ke : execStreamChunkRead die cluster core stream s = .next kt) :
    Kept a kt := by
  unfold execStreamChunkRead at ke
  refine Kept.of_done ke ?_
  repeat' (with_reducible first | assumption | refine Kept.ite ?_ ?_ | apply State.streamChunkRead_kept)

theorem State.streamChunkArrive_kept {a s : State} (h : Kept a s) (d : Nat) (c : Nat) (k : Nat) (st : Nat) (ecc : List MemError) :
    Kept a (State.streamChunkArrive s d c k st ecc) := by
  unfold State.streamChunkArrive
  repeat' first
    | (with_reducible first
        | assumption | refine Kept.ite ?_ ?_ | apply State.write_kept | apply State.meetReads_kept
        | apply State.setStream_kept | apply State.poisonRange_kept)
    | split

theorem execStreamChunkArrive_kept {a s : State} (h : Kept a s) (die : Fin 4) (cluster : Fin 16) (core : Fin 8) (stream : Fin 16) (ecc : List MemError) {kt : State} (ke : execStreamChunkArrive die cluster core stream ecc s = .next kt) :
    Kept a kt := by
  unfold execStreamChunkArrive at ke
  refine Kept.of_done ke ?_
  repeat' (with_reducible first | assumption | refine Kept.ite ?_ ?_ | apply State.streamChunkArrive_kept)

theorem State.retireDrained_kept {a s : State} (h : Kept a s) (d : Nat) (c : Nat) (k : Nat) :
    Kept a (State.retireDrained s d c k) := by
  unfold State.retireDrained
  repeat' first
    | (with_reducible first | assumption | apply State.retireEntry_kept)
    | split

theorem State.streamChunkWrite_kept {a s : State} (h : Kept a s) (d : Nat) (c : Nat) (k : Nat) (st : Nat) (ecc : List MemError) :
    Kept a (State.streamChunkWrite s d c k st ecc) := by
  unfold State.streamChunkWrite
  repeat' first
    | (with_reducible first | assumption | refine Kept.ite ?_ ?_)
    | (lift_lets; intro kx; refine Kept.step (a := a) (x := kx) ?_ fun hkx => ?_)
    | (lift_lets; intro kx)
    | (simp only [Kept.mk_iff]; with_reducible refine KeptF.of ?_ (Nat.le_refl _))
    | (simp only [Kept.mk_iff]; with_reducible refine KeptF.of ?_ (Nat.le_succ _))
    | (with_reducible first
        | apply State.write_kept | apply State.protectedRecord_kept | apply State.meetReads_kept
        | apply State.setStream_kept | apply State.writeNoted_kept | apply State.poisonRange_kept
        | apply State.retireDrained_kept)
    | (simp only [kx, Kept.mk_iff]; with_reducible refine KeptF.of ?_ (Nat.le_refl _))
    | (with_reducible first
        | refine Kept.foldl ?_ fun kb ky hkb => ?_ | refine Kept.foldl_snd ?_ fun kb ky hkb => ?_
        | refine Kept.foldl_fst ?_ fun kb ky hkb => ?_)
    | split
    | (with_reducible first
        | refine Kept.of_snd (by assumption) ?_ | refine Kept.of_fst (by assumption) ?_
        | refine Kept.of_third (by assumption) ?_)
    | dsimp only
    | unfold kx

theorem execStreamChunkWrite_kept {a s : State} (h : Kept a s) (die : Fin 4) (cluster : Fin 16) (core : Fin 8) (chunk : ChunkWrite) {kt : State} (ke : execStreamChunkWrite die cluster core chunk s = .next kt) :
    Kept a kt := by
  unfold execStreamChunkWrite at ke
  refine Kept.of_done ke ?_
  repeat' first
    | (with_reducible first | assumption | refine Kept.ite ?_ ?_)
    | (lift_lets; intro kx; refine Kept.step (a := a) (x := kx) ?_ fun hkx => ?_)
    | (lift_lets; intro kx)
    | (simp only [Kept.mk_iff]; with_reducible refine KeptF.of ?_ (Nat.le_refl _))
    | (simp only [Kept.mk_iff]; with_reducible refine KeptF.of ?_ (Nat.le_succ _))
    | with_reducible apply State.streamChunkWrite_kept
    | (simp only [kx, Kept.mk_iff]; with_reducible refine KeptF.of ?_ (Nat.le_refl _))
    | (with_reducible first
        | refine Kept.foldl ?_ fun kb ky hkb => ?_ | refine Kept.foldl_snd ?_ fun kb ky hkb => ?_
        | refine Kept.foldl_fst ?_ fun kb ky hkb => ?_)
    | split
    | (with_reducible first
        | refine Kept.of_snd (by assumption) ?_ | refine Kept.of_fst (by assumption) ?_
        | refine Kept.of_third (by assumption) ?_)
    | dsimp only
    | unfold kx

end Sys2Proof.Machine
end

