-- ==== Sys2Proof/Laws/KeptEmbed.lean ====
section
/-! SUPPORT. What the operations of Machine/Embed.lean keep (`Kept`). -/

set_option linter.unusedSimpArgs false

namespace Sys2Proof.Machine

theorem State.setPress_kept {a s : State} (h : Kept a s) (d : Nat) (c : Nat) (p : PressState) :
    Kept a (State.setPress s d c p) := by
  unfold State.setPress
  repeat' first
    | with_reducible assumption
    | (simp only [Kept.mk_iff]; with_reducible refine KeptF.of ?_ (Nat.le_refl _))

theorem State.startJob_kept {a s : State} (h : Kept a s) (d : Nat) (c : Nat) :
    Kept a (State.startJob s d c) := by
  unfold State.startJob
  repeat' first
    | (with_reducible first | assumption | refine Kept.ite ?_ ?_)
    | (lift_lets; intro kx; refine Kept.step (a := a) (x := kx) ?_ fun hkx => ?_)
    | (lift_lets; intro kx)
    | (simp only [Kept.mk_iff]; with_reducible refine KeptF.of ?_ (Nat.le_refl _))
    | (simp only [Kept.mk_iff]; with_reducible refine KeptF.of ?_ (Nat.le_succ _))
    | with_reducible apply State.setPress_kept
    | (simp only [kx, Kept.mk_iff]; with_reducible refine KeptF.of ?_ (Nat.le_refl _))
    | (with_reducible first
        | refine Kept.foldl ?_ fun kb ky hkb => ?_ | refine Kept.foldl_snd ?_ fun kb ky hkb => ?_
        | refine Kept.foldl_fst ?_ fun kb ky hkb => ?_)
    | split
    | (with_reducible first
        | refine Kept.of_snd (by assumption) ?_ | refine Kept.of_fst (by assumption) ?_
        | refine Kept.of_third (by assumption) ?_)
    | dsimp only
    | unfold kx

theorem State.sendGroup_kept {a s : State} (h : Kept a s) (t : TableD) (bytes : List Byte) (bad : Bool) (tiles : List (Nat × Nat × Nat × Nat)) :
    Kept a (State.sendGroup s t bytes bad tiles) := by
  unfold State.sendGroup
  repeat' (with_reducible first | assumption | apply State.sendData_kept | refine Kept.foldl ?_ fun kb ky hkb => ?_)

theorem State.sendIndices_kept {a s : State} (h : Kept a s) (t : TableD) (j : Job) :
    Kept a (State.sendIndices s t j) := by
  unfold State.sendIndices
  repeat' first
    | (with_reducible first | assumption | refine Kept.ite ?_ ?_)
    | (lift_lets; intro kx; refine Kept.step (a := a) (x := kx) ?_ fun hkx => ?_)
    | (lift_lets; intro kx)
    | (simp only [Kept.mk_iff]; with_reducible refine KeptF.of ?_ (Nat.le_refl _))
    | (simp only [Kept.mk_iff]; with_reducible refine KeptF.of ?_ (Nat.le_succ _))
    | with_reducible apply State.sendGroup_kept
    | (simp only [kx, Kept.mk_iff]; with_reducible refine KeptF.of ?_ (Nat.le_refl _))
    | (with_reducible first
        | refine Kept.foldl ?_ fun kb ky hkb => ?_ | refine Kept.foldl_snd ?_ fun kb ky hkb => ?_
        | refine Kept.foldl_fst ?_ fun kb ky hkb => ?_)
    | split
    | (with_reducible first
        | refine Kept.of_snd (by assumption) ?_ | refine Kept.of_fst (by assumption) ?_
        | refine Kept.of_third (by assumption) ?_)
    | dsimp only
    | unfold kx

theorem State.setLines_kept {a s : State} (h : Kept a s) (ls : List GrottoLine) :
    Kept a (State.setLines s ls) := by
  unfold State.setLines
  repeat' first
    | with_reducible assumption
    | (simp only [Kept.mk_iff]; with_reducible refine KeptF.of ?_ (Nat.le_refl _))

theorem State.grot_kept {a s : State} (h : Kept a s) (d : Nat) (c : Nat) (i : Nat) (n : Nat) :
    Kept a (State.grot s d c i n) := by
  unfold State.grot
  repeat' (with_reducible first | assumption | refine Kept.ite ?_ ?_ | apply State.bump_kept)

theorem State.takeLine_kept {a s t : State} {d c table i : Nat} {td : TableD} (h : Kept a s)
    (e : s.takeLine d c table td = some (t, i)) : Kept a t := by
  unfold State.takeLine at e
  split at e
  · cases e
  · dsimp only at e
    split at e
    · cases e; exact h
    · split at e
      · cases e
      · cases e; exact State.grot_kept (State.setLines_kept h _) _ _ _ _

theorem State.promote_kept {a s : State} (h : Kept a s) (d : Nat) (table : Nat) (row : Nat) (t : TableD) (pin : Bool) :
    Kept a (State.promote s d table row t pin) := by
  unfold State.promote
  repeat' first
    | (with_reducible first | assumption | apply State.setLines_kept | apply State.grot_kept)
    | split
    | dsimp only
    | exact State.takeLine_kept (by assumption) (by assumption)

theorem State.countRow_kept {a s : State} (h : Kept a s) (d : Nat) (table : Nat) (row : Nat) (n : Nat) (t : TableD) :
    Kept a (State.countRow s d table row n t) := by
  unfold State.countRow
  repeat' first
    | (with_reducible first | assumption | refine Kept.ite ?_ ?_)
    | (simp only [Kept.mk_iff]; with_reducible refine KeptF.of ?_ (Nat.le_refl _))
    | (with_reducible first | apply State.bump_kept | apply State.grot_kept | apply State.promote_kept)

theorem State.dropLine_kept {a s : State} (h : Kept a s) (l : GrottoLine) (aa : Nat) (op : Nat) :
    Kept a (State.dropLine s l aa op) := by
  unfold State.dropLine
  repeat' (with_reducible first | assumption | refine Kept.ite ?_ ?_ | apply State.emit_kept | apply State.setLines_kept)

theorem State.stageRow_kept {a s : State} (h : Kept a s) (d : Nat) (table : Nat) (row : Nat) (t : TableD) :
    Kept a (State.stageRow s d table row t) := by
  unfold State.stageRow
  repeat' first
    | (with_reducible first | assumption | refine Kept.ite ?_ ?_)
    | (lift_lets; intro kx; refine Kept.step (a := a) (x := kx) ?_ fun hkx => ?_)
    | (lift_lets; intro kx)
    | (simp only [Kept.mk_iff]; with_reducible refine KeptF.of ?_ (Nat.le_refl _))
    | (simp only [Kept.mk_iff]; with_reducible refine KeptF.of ?_ (Nat.le_succ _))
    | (with_reducible first
        | apply State.guardedWrite_kept | apply State.guardedFree_kept | apply State.poisonRange_kept)
    | (simp only [kx, Kept.mk_iff]; with_reducible refine KeptF.of ?_ (Nat.le_refl _))
    | (with_reducible first
        | refine Kept.foldl ?_ fun kb ky hkb => ?_ | refine Kept.foldl_snd ?_ fun kb ky hkb => ?_
        | refine Kept.foldl_fst ?_ fun kb ky hkb => ?_)
    | split
    | (with_reducible first
        | refine Kept.of_snd (by assumption) ?_ | refine Kept.of_fst (by assumption) ?_
        | refine Kept.of_third (by assumption) ?_)
    | dsimp only
    | unfold kx

theorem State.scanMb_kept {a s : State} (h : Kept a s) (d : Nat) (table : Nat) (mb : Nat) (es : List MemError) :
    Kept a (State.scanMb s d table mb es) := by
  unfold State.scanMb
  repeat' first
    | (with_reducible first
        | assumption | apply State.meetReads_kept | apply State.stageRow_kept
        | refine Kept.foldl ?_ fun kb ky hkb => ?_)
    | split

theorem State.scanStart_kept {a s : State} (h : Kept a s) :
    Kept a (State.scanStart s) := by
  unfold State.scanStart
  repeat' (with_reducible first | assumption | apply State.scanMb_kept | refine Kept.foldl ?_ fun kb ky hkb => ?_)

theorem State.meetStart_kept {a s : State} (h : Kept a s) (d : Nat) (t : TableD) (es : List MemError) :
    Kept a (State.meetStart s d t es).1 := by
  unfold State.meetStart
  repeat' first
    | (with_reducible first | assumption | refine Kept.ite ?_ ?_)
    | (lift_lets; intro kx; refine Kept.step (a := a) (x := kx) ?_ fun hkx => ?_)
    | (lift_lets; intro kx)
    | (simp only [Kept.mk_iff]; with_reducible refine KeptF.of ?_ (Nat.le_refl _))
    | (simp only [Kept.mk_iff]; with_reducible refine KeptF.of ?_ (Nat.le_succ _))
    | (with_reducible first | apply State.meetReads_kept | apply State.poisonRange_kept)
    | (simp only [kx, Kept.mk_iff]; with_reducible refine KeptF.of ?_ (Nat.le_refl _))
    | (with_reducible first
        | refine Kept.foldl ?_ fun kb ky hkb => ?_ | refine Kept.foldl_snd ?_ fun kb ky hkb => ?_
        | refine Kept.foldl_fst ?_ fun kb ky hkb => ?_)
    | split
    | (with_reducible first
        | refine Kept.of_snd (by assumption) ?_ | refine Kept.of_fst (by assumption) ?_
        | refine Kept.of_third (by assumption) ?_)
    | dsimp only
    | unfold kx

theorem State.scanAhead_kept {a s : State} (h : Kept a s) (d : Nat) (j : Job) (es : List MemError) :
    Kept a (State.scanAhead s d j es).1 := by
  unfold State.scanAhead
  repeat' first
    | (with_reducible first | assumption | refine Kept.ite ?_ ?_)
    | (lift_lets; intro kx; refine Kept.step (a := a) (x := kx) ?_ fun hkx => ?_)
    | (lift_lets; intro kx)
    | (simp only [Kept.mk_iff]; with_reducible refine KeptF.of ?_ (Nat.le_refl _))
    | (simp only [Kept.mk_iff]; with_reducible refine KeptF.of ?_ (Nat.le_succ _))
    | (with_reducible first | apply State.scanMb_kept | apply State.meetStart_kept)
    | (simp only [kx, Kept.mk_iff]; with_reducible refine KeptF.of ?_ (Nat.le_refl _))
    | (with_reducible first
        | refine Kept.foldl ?_ fun kb ky hkb => ?_ | refine Kept.foldl_snd ?_ fun kb ky hkb => ?_
        | refine Kept.foldl_fst ?_ fun kb ky hkb => ?_)
    | split
    | (with_reducible first
        | refine Kept.of_snd (by assumption) ?_ | refine Kept.of_fst (by assumption) ?_
        | refine Kept.of_third (by assumption) ?_)
    | dsimp only
    | unfold kx

theorem State.countRead_kept {a s : State} (h : Kept a s) (d : Nat) (table : Nat) (row : Nat) :
    Kept a (State.countRead s d table row) := by
  unfold State.countRead
  repeat' (with_reducible first | assumption | refine Kept.ite ?_ ?_ | apply State.grot_kept)

theorem State.dropBadLines_kept {a s : State} (h : Kept a s) (d : Nat) (table : Nat) (rows : List Nat) (op : Nat) (es : List MemError) :
    Kept a (State.dropBadLines s d table rows op es) := by
  unfold State.dropBadLines
  repeat' first
    | (with_reducible first | assumption | apply State.dropLine_kept | refine Kept.foldl ?_ fun kb ky hkb => ?_)
    | split

theorem State.meetRows_kept {a s : State} (h : Kept a s) (d : Nat) (c : Nat) (t : TableD) (rows : List Nat) (n : Nat) (more : List (Nat × Nat)) (op : Nat) (es : List MemError) :
    Kept a (State.meetRows s d c t rows n more op es) := by
  unfold State.meetRows
  repeat' first
    | (with_reducible first
        | assumption | refine Kept.ite ?_ ?_ | apply State.meetReads_kept | apply State.dropBadLines_kept)

theorem State.readSlice_kept {a s : State} (h : Kept a s) (d : Nat) (c : Nat) (row : Nat) (t : TableD) :
    Kept a (State.readSlice s d c row t).1 := by
  unfold State.readSlice
  repeat' (with_reducible first | assumption | refine Kept.ite ?_ ?_ | apply State.grot_kept | apply State.countRead_kept)

theorem State.putRow_kept {a s : State} (h : Kept a s) (t : TableD) (dt : Tensor) (d : Nat) (r : Nat) (peer : Option Nat) (v : List Nat × Bool) :
    Kept a (State.putRow s t dt d r peer v) := by
  unfold State.putRow
  repeat' first
    | (with_reducible first
        | assumption | apply State.sendData_kept | apply State.writeNoted_kept | apply State.poisonRange_kept
        | refine Kept.foldl ?_ fun kb ky hkb => ?_)
    | split

theorem State.jobStop_kept {a s : State} (h : Kept a s) (d : Nat) (c : Nat) (kind : Nat) (rec_ : Nat) (synd : Nat) :
    Kept a (State.jobStop s d c kind rec_ synd) := by
  unfold State.jobStop
  repeat' (with_reducible first | assumption | refine Kept.ite ?_ ?_ | apply State.emit_kept | apply State.stopStep_kept)

theorem State.undoUpdates_kept {a s : State} (h : Kept a s) :
    Kept a (State.undoUpdates s) := by
  unfold State.undoUpdates
  repeat' first
    | (with_reducible first | assumption | refine Kept.ite ?_ ?_)
    | (lift_lets; intro kx; refine Kept.step (a := a) (x := kx) ?_ fun hkx => ?_)
    | (lift_lets; intro kx)
    | (simp only [Kept.mk_iff]; with_reducible refine KeptF.of ?_ (Nat.le_refl _))
    | (simp only [Kept.mk_iff]; with_reducible refine KeptF.of ?_ (Nat.le_succ _))
    | with_reducible apply State.write_kept
    | (simp only [kx, Kept.mk_iff]; with_reducible refine KeptF.of ?_ (Nat.le_refl _))
    | (with_reducible first
        | refine Kept.foldl ?_ fun kb ky hkb => ?_ | refine Kept.foldl_snd ?_ fun kb ky hkb => ?_
        | refine Kept.foldl_fst ?_ fun kb ky hkb => ?_)
    | split
    | (with_reducible first
        | refine Kept.of_snd (by assumption) ?_ | refine Kept.of_fst (by assumption) ?_
        | refine Kept.of_third (by assumption) ?_)
    | dsimp only
    | unfold kx

theorem State.lookupOutputs_kept {a s : State} (h : Kept a s) (ts : List Tensor) (t : TableD) (j : Job) (dt : Tensor) (d : Nat) (leaves : List (Nat × List Nat × Bool)) :
    Kept a (State.lookupOutputs s ts t j dt d leaves).1 := by
  unfold State.lookupOutputs
  repeat' first
    | (with_reducible first | assumption | refine Kept.ite ?_ ?_)
    | (lift_lets; intro kx; refine Kept.step (a := a) (x := kx) ?_ fun hkx => ?_)
    | (lift_lets; intro kx)
    | (simp only [Kept.mk_iff]; with_reducible refine KeptF.of ?_ (Nat.le_refl _))
    | (simp only [Kept.mk_iff]; with_reducible refine KeptF.of ?_ (Nat.le_succ _))
    | with_reducible apply State.putRow_kept
    | (simp only [kx, Kept.mk_iff]; with_reducible refine KeptF.of ?_ (Nat.le_refl _))
    | (with_reducible first
        | refine Kept.foldl ?_ fun kb ky hkb => ?_ | refine Kept.foldl_snd ?_ fun kb ky hkb => ?_
        | refine Kept.foldl_fst ?_ fun kb ky hkb => ?_)
    | split
    | (with_reducible first
        | refine Kept.of_snd (by assumption) ?_ | refine Kept.of_fst (by assumption) ?_
        | refine Kept.of_third (by assumption) ?_)
    | dsimp only
    | unfold kx

theorem State.pressTrace_kept {a s : State} (h : Kept a s) (d : Nat) (c : Nat) (elements : Nat) (pip : Nat) (mb : Nat) :
    Kept a (State.pressTrace s d c elements pip mb) := by
  unfold State.pressTrace
  repeat' (with_reducible first | assumption | refine Kept.ite ?_ ?_ | apply State.trace_kept)

theorem State.failPress_kept {a s : State} (h : Kept a s) (d : Nat) (c : Nat) (kind : Nat) (f : PressFault) :
    Kept a (State.failPress s d c kind f) := by
  unfold State.failPress
  repeat' first
    | (with_reducible first
        | assumption | refine Kept.ite ?_ ?_ | apply State.bump_kept | apply State.free_kept | apply State.emit_kept
        | apply State.stopStep_kept)

theorem State.runPress_kept {a s : State} (h : Kept a s) (d c kind : Nat) (fault : Option PressFault)
    (meet run : State → State) (km : ∀ x, Kept a x → Kept a (meet x)) (kr : ∀ x, Kept a x → Kept a (run x)) :
    Kept a (s.runPress d c kind fault meet run) := by
  have k := km _ (State.setPress_kept h d c { s.press d c with waiting := false })
  unfold State.runPress
  dsimp only
  split
  · exact k
  · split
    · split
      · exact State.failPress_kept k _ _ _ _
      · exact kr _ k
    · exact kr _ k

theorem State.noteLookup_kept {a s : State} (h : Kept a s) (ts : List Tensor) (t : TableD) (j : Job) (d : Nat) (c : Nat) (l : List (Nat × Nat)) :
    Kept a (State.noteLookup s ts t j d c l) := by
  unfold State.noteLookup
  repeat' first
    | (with_reducible first | assumption | refine Kept.ite ?_ ?_)
    | (lift_lets; intro kx; refine Kept.step (a := a) (x := kx) ?_ fun hkx => ?_)
    | (lift_lets; intro kx)
    | (simp only [Kept.mk_iff]; with_reducible refine KeptF.of ?_ (Nat.le_refl _))
    | (simp only [Kept.mk_iff]; with_reducible refine KeptF.of ?_ (Nat.le_succ _))
    | (with_reducible first | apply State.bump_kept | apply State.emit_kept | apply State.guardedFree_kept)
    | (simp only [kx, Kept.mk_iff]; with_reducible refine KeptF.of ?_ (Nat.le_refl _))
    | (with_reducible first
        | refine Kept.foldl ?_ fun kb ky hkb => ?_ | refine Kept.foldl_snd ?_ fun kb ky hkb => ?_
        | refine Kept.foldl_fst ?_ fun kb ky hkb => ?_)
    | split
    | (with_reducible first
        | refine Kept.of_snd (by assumption) ?_ | refine Kept.of_fst (by assumption) ?_
        | refine Kept.of_third (by assumption) ?_)
    | dsimp only
    | unfold kx

theorem State.gather_kept {a s : State} (h : Kept a s) (ts : List Tensor) (t : TableD) (j : Job) (dt : Tensor) (d : Nat) (c : Nat) (l : List (Nat × Nat)) (escaped : Option Nat) :
    Kept a (State.gather s ts t j dt d c l escaped) := by
  unfold State.gather
  repeat' first
    | (with_reducible first | assumption | refine Kept.ite ?_ ?_)
    | (lift_lets; intro kx; refine Kept.step (a := a) (x := kx) ?_ fun hkx => ?_)
    | (lift_lets; intro kx)
    | (simp only [Kept.mk_iff]; with_reducible refine KeptF.of ?_ (Nat.le_refl _))
    | (simp only [Kept.mk_iff]; with_reducible refine KeptF.of ?_ (Nat.le_succ _))
    | (with_reducible first
        | apply State.bump_kept | apply State.tickFree_kept | apply State.writeElem_kept | apply State.countRow_kept
        | apply State.readSlice_kept | apply State.lookupOutputs_kept | apply State.pressTrace_kept
        | apply State.noteLookup_kept)
    | (simp only [kx, Kept.mk_iff]; with_reducible refine KeptF.of ?_ (Nat.le_refl _))
    | (with_reducible first
        | refine Kept.foldl ?_ fun kb ky hkb => ?_ | refine Kept.foldl_snd ?_ fun kb ky hkb => ?_
        | refine Kept.foldl_fst ?_ fun kb ky hkb => ?_)
    | split
    | (with_reducible first
        | refine Kept.of_snd (by assumption) ?_ | refine Kept.of_fst (by assumption) ?_
        | refine Kept.of_third (by assumption) ?_)
    | dsimp only
    | unfold kx

theorem State.lookupRun_kept {a s : State} (h : Kept a s) (t : TableD) (j : Job) (dt : Tensor) (d : Nat) (c : Nat) (ecc : List MemError) (fault : Option PressFault) :
    Kept a (State.lookupRun s t j dt d c ecc fault) := by
  unfold State.lookupRun
  repeat' first
    | (with_reducible first
        | assumption | first | refine fun kz kb hkz => ?_ | refine fun kz hkz => ?_ | refine Kept.ite ?_ ?_)
    | (lift_lets; intro kx; refine Kept.step (a := a) (x := kx) ?_ fun hkx => ?_)
    | (lift_lets; intro kx)
    | (simp only [Kept.mk_iff]; with_reducible refine KeptF.of ?_ (Nat.le_refl _))
    | (simp only [Kept.mk_iff]; with_reducible refine KeptF.of ?_ (Nat.le_succ _))
    | (with_reducible first
        | apply State.meetRows_kept | apply State.jobStop_kept | apply State.undoUpdates_kept
        | apply State.runPress_kept | apply State.gather_kept)
    | (simp only [kx, Kept.mk_iff]; with_reducible refine KeptF.of ?_ (Nat.le_refl _))
    | (with_reducible first
        | refine Kept.foldl ?_ fun kb ky hkb => ?_ | refine Kept.foldl_snd ?_ fun kb ky hkb => ?_
        | refine Kept.foldl_fst ?_ fun kb ky hkb => ?_)
    | split
    | (with_reducible first
        | refine Kept.of_snd (by assumption) ?_ | refine Kept.of_fst (by assumption) ?_
        | refine Kept.of_third (by assumption) ?_)
    | dsimp only
    | unfold kx
    | exact Nat.le_refl _
    | exact Nat.le_succ _

theorem State.lookup_kept {a s : State} (h : Kept a s) (d : Nat) (c : Nat) (ecc : List MemError) (fault : Option PressFault) :
    Kept a (State.lookup s d c ecc fault) := by
  unfold State.lookup
  repeat' first
    | (with_reducible first | assumption | refine Kept.ite ?_ ?_)
    | (lift_lets; intro kx; refine Kept.step (a := a) (x := kx) ?_ fun hkx => ?_)
    | (lift_lets; intro kx)
    | (simp only [Kept.mk_iff]; with_reducible refine KeptF.of ?_ (Nat.le_refl _))
    | (simp only [Kept.mk_iff]; with_reducible refine KeptF.of ?_ (Nat.le_succ _))
    | (with_reducible first
        | apply State.startJob_kept | apply State.sendIndices_kept | apply State.scanAhead_kept
        | apply State.lookupRun_kept)
    | (simp only [kx, Kept.mk_iff]; with_reducible refine KeptF.of ?_ (Nat.le_refl _))
    | (with_reducible first
        | refine Kept.foldl ?_ fun kb ky hkb => ?_ | refine Kept.foldl_snd ?_ fun kb ky hkb => ?_
        | refine Kept.foldl_fst ?_ fun kb ky hkb => ?_)
    | split
    | (with_reducible first
        | refine Kept.of_snd (by assumption) ?_ | refine Kept.of_fst (by assumption) ?_
        | refine Kept.of_third (by assumption) ?_)
    | dsimp only
    | unfold kx

theorem execLookup_kept {a s : State} (h : Kept a s) (die : Fin 4) (cluster : Fin 16) (ecc : List MemError) (fault : Option PressFault) {kt : State} (ke : execLookup die cluster ecc fault s = .next kt) :
    Kept a kt := by
  unfold execLookup at ke
  refine Kept.of_done ke ?_
  repeat' (with_reducible first | assumption | refine Kept.ite ?_ ?_ | apply State.lookup_kept)

theorem State.sendGradients_kept {a s : State} (h : Kept a s) (ts : List Tensor) (t : TableD) (j : Job) (dt : Tensor) (d : Nat) :
    Kept a (State.sendGradients s ts t j dt d) := by
  unfold State.sendGradients
  repeat' first
    | (with_reducible first | assumption | refine Kept.ite ?_ ?_)
    | (lift_lets; intro kx; refine Kept.step (a := a) (x := kx) ?_ fun hkx => ?_)
    | (lift_lets; intro kx)
    | (simp only [Kept.mk_iff]; with_reducible refine KeptF.of ?_ (Nat.le_refl _))
    | (simp only [Kept.mk_iff]; with_reducible refine KeptF.of ?_ (Nat.le_succ _))
    | with_reducible apply State.sendData_kept
    | (simp only [kx, Kept.mk_iff]; with_reducible refine KeptF.of ?_ (Nat.le_refl _))
    | (with_reducible first
        | refine Kept.foldl ?_ fun kb ky hkb => ?_ | refine Kept.foldl_snd ?_ fun kb ky hkb => ?_
        | refine Kept.foldl_fst ?_ fun kb ky hkb => ?_)
    | split
    | (with_reducible first
        | refine Kept.of_snd (by assumption) ?_ | refine Kept.of_fst (by assumption) ?_
        | refine Kept.of_third (by assumption) ?_)
    | dsimp only
    | unfold kx

theorem State.sendParts_kept {a s : State} (h : Kept a s) (t : TableD) (j : Job) (d : Nat) (c : Nat) (parts : List PartMsg) :
    Kept a (State.sendParts s t j d c parts) := by
  unfold State.sendParts
  repeat' first
    | with_reducible assumption
    | (simp only [Kept.mk_iff]; with_reducible refine KeptF.of ?_ (Nat.le_refl _))
    | (with_reducible first | apply State.bump_kept | apply State.pressTrace_kept)

theorem State.combine_kept {a s : State} (h : Kept a s) (d : Nat) (c : Nat) (ecc : List MemError) (fault : Option PressFault) :
    Kept a (State.combine s d c ecc fault) := by
  unfold State.combine
  repeat' first
    | (with_reducible first
        | assumption | first | refine fun kz kb hkz => ?_ | refine fun kz hkz => ?_ | refine Kept.ite ?_ ?_)
    | (lift_lets; intro kx; refine Kept.step (a := a) (x := kx) ?_ fun hkx => ?_)
    | (lift_lets; intro kx)
    | (simp only [Kept.mk_iff]; with_reducible refine KeptF.of ?_ (Nat.le_refl _))
    | (simp only [Kept.mk_iff]; with_reducible refine KeptF.of ?_ (Nat.le_succ _))
    | (with_reducible first
        | apply State.tickFree_kept | apply State.meetReads_kept | apply State.startJob_kept
        | apply State.runPress_kept | apply State.sendGradients_kept | apply State.sendParts_kept)
    | (simp only [kx, Kept.mk_iff]; with_reducible refine KeptF.of ?_ (Nat.le_refl _))
    | (with_reducible first
        | refine Kept.foldl ?_ fun kb ky hkb => ?_ | refine Kept.foldl_snd ?_ fun kb ky hkb => ?_
        | refine Kept.foldl_fst ?_ fun kb ky hkb => ?_)
    | split
    | (with_reducible first
        | refine Kept.of_snd (by assumption) ?_ | refine Kept.of_fst (by assumption) ?_
        | refine Kept.of_third (by assumption) ?_)
    | dsimp only
    | unfold kx
    | exact hkz
    | exact Nat.le_refl _
    | exact Nat.le_succ _

theorem execCombine_kept {a s : State} (h : Kept a s) (site : PressSite) (events : PressEvents) {kt : State} (ke : execCombine site events s = .next kt) :
    Kept a kt := by
  unfold execCombine at ke
  refine Kept.of_done ke ?_
  repeat' first
    | (with_reducible first | assumption | refine Kept.ite ?_ ?_)
    | (lift_lets; intro kx; refine Kept.step (a := a) (x := kx) ?_ fun hkx => ?_)
    | (lift_lets; intro kx)
    | (simp only [Kept.mk_iff]; with_reducible refine KeptF.of ?_ (Nat.le_refl _))
    | (simp only [Kept.mk_iff]; with_reducible refine KeptF.of ?_ (Nat.le_succ _))
    | with_reducible apply State.combine_kept
    | (simp only [kx, Kept.mk_iff]; with_reducible refine KeptF.of ?_ (Nat.le_refl _))
    | (with_reducible first
        | refine Kept.foldl ?_ fun kb ky hkb => ?_ | refine Kept.foldl_snd ?_ fun kb ky hkb => ?_
        | refine Kept.foldl_fst ?_ fun kb ky hkb => ?_)
    | split
    | (with_reducible first
        | refine Kept.of_snd (by assumption) ?_ | refine Kept.of_fst (by assumption) ?_
        | refine Kept.of_third (by assumption) ?_)
    | dsimp only
    | unfold kx

theorem State.putSlot_kept {a s : State} (h : Kept a s) (t : TableD) (aa : Nat) (row : Nat) (g : GradRow) :
    Kept a (State.putSlot s t aa row g) := by
  unfold State.putSlot
  repeat' first
    | (with_reducible first | assumption | refine Kept.ite ?_ ?_)
    | (lift_lets; intro kx; refine Kept.step (a := a) (x := kx) ?_ fun hkx => ?_)
    | (lift_lets; intro kx)
    | (simp only [Kept.mk_iff]; with_reducible refine KeptF.of ?_ (Nat.le_refl _))
    | (simp only [Kept.mk_iff]; with_reducible refine KeptF.of ?_ (Nat.le_succ _))
    | with_reducible apply State.guardedWrite_kept
    | (simp only [kx, Kept.mk_iff]; with_reducible refine KeptF.of ?_ (Nat.le_refl _))
    | (with_reducible first
        | refine Kept.foldl ?_ fun kb ky hkb => ?_ | refine Kept.foldl_snd ?_ fun kb ky hkb => ?_
        | refine Kept.foldl_fst ?_ fun kb ky hkb => ?_)
    | split
    | (with_reducible first
        | refine Kept.of_snd (by assumption) ?_ | refine Kept.of_fst (by assumption) ?_
        | refine Kept.of_third (by assumption) ?_)
    | dsimp only
    | unfold kx

theorem State.clearBank_kept {a s : State} (h : Kept a s) (t : TableD) (d : Nat) (k : Nat) :
    Kept a (State.clearBank s t d k) := by
  unfold State.clearBank
  repeat' first
    | (with_reducible first | assumption | refine Kept.ite ?_ ?_)
    | (lift_lets; intro kx; refine Kept.step (a := a) (x := kx) ?_ fun hkx => ?_)
    | (lift_lets; intro kx)
    | (simp only [Kept.mk_iff]; with_reducible refine KeptF.of ?_ (Nat.le_refl _))
    | (simp only [Kept.mk_iff]; with_reducible refine KeptF.of ?_ (Nat.le_succ _))
    | with_reducible apply State.guardedWrite_kept
    | (simp only [kx, Kept.mk_iff]; with_reducible refine KeptF.of ?_ (Nat.le_refl _))
    | (with_reducible first
        | refine Kept.foldl ?_ fun kb ky hkb => ?_ | refine Kept.foldl_snd ?_ fun kb ky hkb => ?_
        | refine Kept.foldl_fst ?_ fun kb ky hkb => ?_)
    | split
    | (with_reducible first
        | refine Kept.of_snd (by assumption) ?_ | refine Kept.of_fst (by assumption) ?_
        | refine Kept.of_third (by assumption) ?_)
    | dsimp only
    | unfold kx

theorem State.putBank_kept {a s : State} (h : Kept a s) (t : TableD) (d : Nat) (b : Bank) :
    Kept a (State.putBank s t d b) := by
  unfold State.putBank
  repeat' first
    | (with_reducible first | assumption | refine Kept.ite ?_ ?_)
    | (lift_lets; intro kx; refine Kept.step (a := a) (x := kx) ?_ fun hkx => ?_)
    | (lift_lets; intro kx)
    | (simp only [Kept.mk_iff]; with_reducible refine KeptF.of ?_ (Nat.le_refl _))
    | (simp only [Kept.mk_iff]; with_reducible refine KeptF.of ?_ (Nat.le_succ _))
    | (with_reducible first | apply State.putSlot_kept | apply State.clearBank_kept)
    | (simp only [kx, Kept.mk_iff]; with_reducible refine KeptF.of ?_ (Nat.le_refl _))
    | (with_reducible first
        | refine Kept.foldl ?_ fun kb ky hkb => ?_ | refine Kept.foldl_snd ?_ fun kb ky hkb => ?_
        | refine Kept.foldl_fst ?_ fun kb ky hkb => ?_)
    | split
    | (with_reducible first
        | refine Kept.of_snd (by assumption) ?_ | refine Kept.of_fst (by assumption) ?_
        | refine Kept.of_third (by assumption) ?_)
    | dsimp only
    | unfold kx

theorem State.clearBanks_kept {a s : State} (h : Kept a s) :
    Kept a (State.clearBanks s) := by
  unfold State.clearBanks
  repeat' first
    | (with_reducible first | assumption | refine Kept.ite ?_ ?_)
    | (lift_lets; intro kx; refine Kept.step (a := a) (x := kx) ?_ fun hkx => ?_)
    | (lift_lets; intro kx)
    | (simp only [Kept.mk_iff]; with_reducible refine KeptF.of ?_ (Nat.le_refl _))
    | (simp only [Kept.mk_iff]; with_reducible refine KeptF.of ?_ (Nat.le_succ _))
    | with_reducible apply State.clearBank_kept
    | (simp only [kx, Kept.mk_iff]; with_reducible refine KeptF.of ?_ (Nat.le_refl _))
    | (with_reducible first
        | refine Kept.foldl ?_ fun kb ky hkb => ?_ | refine Kept.foldl_snd ?_ fun kb ky hkb => ?_
        | refine Kept.foldl_fst ?_ fun kb ky hkb => ?_)
    | split
    | (with_reducible first
        | refine Kept.of_snd (by assumption) ?_ | refine Kept.of_fst (by assumption) ?_
        | refine Kept.of_third (by assumption) ?_)
    | dsimp only
    | unfold kx

theorem State.partArrives_kept {a s : State} (h : Kept a s) (d : Nat) (c : Nat) :
    Kept a (State.partArrives s d c) := by
  unfold State.partArrives
  repeat' first
    | (with_reducible first | assumption | refine Kept.ite ?_ ?_)
    | (lift_lets; intro kx; refine Kept.step (a := a) (x := kx) ?_ fun hkx => ?_)
    | (lift_lets; intro kx)
    | (simp only [Kept.mk_iff]; with_reducible refine KeptF.of ?_ (Nat.le_refl _))
    | (simp only [Kept.mk_iff]; with_reducible refine KeptF.of ?_ (Nat.le_succ _))
    | (with_reducible first
        | apply State.bump_kept | apply State.jobStop_kept | apply State.undoUpdates_kept | apply State.putSlot_kept)
    | (simp only [kx, Kept.mk_iff]; with_reducible refine KeptF.of ?_ (Nat.le_refl _))
    | (with_reducible first
        | refine Kept.foldl ?_ fun kb ky hkb => ?_ | refine Kept.foldl_snd ?_ fun kb ky hkb => ?_
        | refine Kept.foldl_fst ?_ fun kb ky hkb => ?_)
    | split
    | (with_reducible first
        | refine Kept.of_snd (by assumption) ?_ | refine Kept.of_fst (by assumption) ?_
        | refine Kept.of_third (by assumption) ?_)
    | dsimp only
    | unfold kx

theorem execOwnerPartArrival_kept {a s : State} (h : Kept a s) (die : Fin 4) (cluster : Fin 16) {kt : State} (ke : execOwnerPartArrival die cluster s = .next kt) :
    Kept a kt := by
  unfold execOwnerPartArrival at ke
  refine Kept.of_done ke ?_
  repeat' (with_reducible first | assumption | refine Kept.ite ?_ ?_ | apply State.partArrives_kept)

theorem State.openArea_kept {a s : State} (h : Kept a s) (n : Nat) :
    Kept a (State.openArea s n) := by
  unfold State.openArea
  repeat' first
    | (with_reducible first | assumption | refine Kept.ite ?_ ?_)
    | (lift_lets; intro kx; refine Kept.step (a := a) (x := kx) ?_ fun hkx => ?_)
    | (lift_lets; intro kx)
    | (simp only [Kept.mk_iff]; with_reducible refine KeptF.of ?_ (Nat.le_refl _))
    | (simp only [Kept.mk_iff]; with_reducible refine KeptF.of ?_ (Nat.le_succ _))
    | with_reducible apply State.guardedFree_kept
    | (simp only [kx, Kept.mk_iff]; with_reducible refine KeptF.of ?_ (Nat.le_refl _))
    | (with_reducible first
        | refine Kept.foldl ?_ fun kb ky hkb => ?_ | refine Kept.foldl_snd ?_ fun kb ky hkb => ?_
        | refine Kept.foldl_fst ?_ fun kb ky hkb => ?_)
    | split
    | (with_reducible first
        | refine Kept.of_snd (by assumption) ?_ | refine Kept.of_fst (by assumption) ?_
        | refine Kept.of_third (by assumption) ?_)
    | dsimp only
    | unfold kx

theorem State.undoRow_kept {a s : State} (h : Kept a s) (t : TableD) (d : Nat) (row : Nat) :
    Kept a (State.undoRow s t d row) := by
  unfold State.undoRow
  repeat' first
    | (with_reducible first | assumption | refine Kept.ite ?_ ?_)
    | (lift_lets; intro kx; refine Kept.step (a := a) (x := kx) ?_ fun hkx => ?_)
    | (lift_lets; intro kx)
    | (simp only [Kept.mk_iff]; with_reducible refine KeptF.of ?_ (Nat.le_refl _))
    | (simp only [Kept.mk_iff]; with_reducible refine KeptF.of ?_ (Nat.le_succ _))
    | with_reducible apply State.openArea_kept
    | (simp only [kx, Kept.mk_iff]; with_reducible refine KeptF.of ?_ (Nat.le_refl _))
    | (with_reducible first
        | refine Kept.foldl ?_ fun kb ky hkb => ?_ | refine Kept.foldl_snd ?_ fun kb ky hkb => ?_
        | refine Kept.foldl_fst ?_ fun kb ky hkb => ?_)
    | split
    | (with_reducible first
        | refine Kept.of_snd (by assumption) ?_ | refine Kept.of_fst (by assumption) ?_
        | refine Kept.of_third (by assumption) ?_)
    | dsimp only
    | unfold kx

theorem State.putRecord_kept {a s : State} (h : Kept a s) (t : TableD) (d : Nat) (row : Nat) (bs : List Byte) :
    Kept a (State.putRecord s t d row bs) := by
  unfold State.putRecord
  repeat' first
    | (with_reducible first
        | assumption | apply State.writeNoted_kept | apply State.setLines_kept | apply State.grot_kept)
    | split
    | dsimp only

theorem State.addLedger_kept {a s : State} (h : Kept a s) (t : TableD) (d : Nat) (row : Nat) (v : Nat) (bs : List Byte) :
    Kept a (State.addLedger s t d row v bs) := by
  unfold State.addLedger
  repeat' first
    | with_reducible assumption
    | (simp only [Kept.mk_iff]; with_reducible refine KeptF.of ?_ (Nat.le_refl _))

theorem State.updateRow_kept {a s : State} (h : Kept a s) (t : TableD) (p : OptPass) (d : Nat) (row : Nat) (step : Nat) (g : GradRow) (t2 : Nat) (esc : Option Nat) :
    Kept a (State.updateRow s t p d row step g t2 esc) := by
  unfold State.updateRow
  repeat' first
    | (with_reducible first | assumption | refine Kept.ite ?_ ?_)
    | (lift_lets; intro kx; refine Kept.step (a := a) (x := kx) ?_ fun hkx => ?_)
    | (lift_lets; intro kx)
    | (simp only [Kept.mk_iff]; with_reducible refine KeptF.of ?_ (Nat.le_refl _))
    | (simp only [Kept.mk_iff]; with_reducible refine KeptF.of ?_ (Nat.le_succ _))
    | (with_reducible first
        | apply State.bump_kept | apply State.tickFree_kept | apply State.emit_kept | apply State.stopStep_kept
        | apply State.countRead_kept | apply State.undoRow_kept | apply State.putRecord_kept
        | apply State.addLedger_kept)
    | (simp only [kx, Kept.mk_iff]; with_reducible refine KeptF.of ?_ (Nat.le_refl _))
    | (with_reducible first
        | refine Kept.foldl ?_ fun kb ky hkb => ?_ | refine Kept.foldl_snd ?_ fun kb ky hkb => ?_
        | refine Kept.foldl_fst ?_ fun kb ky hkb => ?_)
    | split
    | (with_reducible first
        | refine Kept.of_snd (by assumption) ?_ | refine Kept.of_fst (by assumption) ?_
        | refine Kept.of_third (by assumption) ?_)
    | dsimp only
    | unfold kx

theorem State.setUpdateBank_kept {a s : State} (h : Kept a s) (t : TableD) (d : Nat) (b : Bank) :
    Kept a (State.setUpdateBank s t d b) := by
  unfold State.setUpdateBank
  repeat' first
    | (with_reducible first | assumption | refine Kept.ite ?_ ?_)
    | (simp only [Kept.mk_iff]; with_reducible refine KeptF.of ?_ (Nat.le_refl _))

theorem State.sendSums_kept {a s : State} (h : Kept a s) (t : TableD) (c : Nat) :
    Kept a (State.sendSums s t c) := by
  unfold State.sendSums
  repeat' first
    | (with_reducible first | assumption | refine Kept.ite ?_ ?_)
    | (lift_lets; intro kx; refine Kept.step (a := a) (x := kx) ?_ fun hkx => ?_)
    | (lift_lets; intro kx)
    | (simp only [Kept.mk_iff]; with_reducible refine KeptF.of ?_ (Nat.le_refl _))
    | (simp only [Kept.mk_iff]; with_reducible refine KeptF.of ?_ (Nat.le_succ _))
    | with_reducible apply State.sendGroup_kept
    | (simp only [kx, Kept.mk_iff]; with_reducible refine KeptF.of ?_ (Nat.le_refl _))
    | (with_reducible first
        | refine Kept.foldl ?_ fun kb ky hkb => ?_ | refine Kept.foldl_snd ?_ fun kb ky hkb => ?_
        | refine Kept.foldl_fst ?_ fun kb ky hkb => ?_)
    | split
    | (with_reducible first
        | refine Kept.of_snd (by assumption) ?_ | refine Kept.of_fst (by assumption) ?_
        | refine Kept.of_third (by assumption) ?_)
    | dsimp only
    | unfold kx

theorem State.applyDie_kept {a s : State} (h : Kept a s) (t : TableD) (o : OptD) (d : Nat) (c : Nat) (sums : Tab Nat) (esc : Option Nat) :
    Kept a (State.applyDie s t o d c sums esc) := by
  unfold State.applyDie
  repeat' first
    | (with_reducible first
        | assumption | apply State.updateRow_kept | apply State.setUpdateBank_kept
        | refine Kept.foldl ?_ fun kb ky hkb => ?_)
    | split
    | dsimp only

theorem State.applyRows_kept {a s : State} (h : Kept a s) (t : TableD) (dies : List Nat) (c : Nat) (esc : Option Nat) :
    Kept a (State.applyRows s t dies c esc) := by
  unfold State.applyRows
  repeat' first
    | (with_reducible first | assumption | refine Kept.ite ?_ ?_)
    | (lift_lets; intro kx; refine Kept.step (a := a) (x := kx) ?_ fun hkx => ?_)
    | (lift_lets; intro kx)
    | (simp only [Kept.mk_iff]; with_reducible refine KeptF.of ?_ (Nat.le_refl _))
    | (simp only [Kept.mk_iff]; with_reducible refine KeptF.of ?_ (Nat.le_succ _))
    | with_reducible apply State.applyDie_kept
    | (simp only [kx, Kept.mk_iff]; with_reducible refine KeptF.of ?_ (Nat.le_refl _))
    | (with_reducible first
        | refine Kept.foldl ?_ fun kb ky hkb => ?_ | refine Kept.foldl_snd ?_ fun kb ky hkb => ?_
        | refine Kept.foldl_fst ?_ fun kb ky hkb => ?_)
    | split
    | (with_reducible first
        | refine Kept.of_snd (by assumption) ?_ | refine Kept.of_fst (by assumption) ?_
        | refine Kept.of_third (by assumption) ?_)
    | dsimp only
    | unfold kx

theorem State.tryApply_kept {a s : State} (h : Kept a s) (t : TableD) (d : Nat) (c : Nat) (esc : Option Nat) :
    Kept a (State.tryApply s t d c esc) := by
  unfold State.tryApply
  repeat' first
    | (with_reducible first | assumption | refine Kept.ite ?_ ?_)
    | (lift_lets; intro kx; refine Kept.step (a := a) (x := kx) ?_ fun hkx => ?_)
    | (lift_lets; intro kx)
    | (simp only [Kept.mk_iff]; with_reducible refine KeptF.of ?_ (Nat.le_refl _))
    | (simp only [Kept.mk_iff]; with_reducible refine KeptF.of ?_ (Nat.le_succ _))
    | with_reducible apply State.applyRows_kept
    | (simp only [kx, Kept.mk_iff]; with_reducible refine KeptF.of ?_ (Nat.le_refl _))
    | (with_reducible first
        | refine Kept.foldl ?_ fun kb ky hkb => ?_ | refine Kept.foldl_snd ?_ fun kb ky hkb => ?_
        | refine Kept.foldl_fst ?_ fun kb ky hkb => ?_)
    | split
    | (with_reducible first
        | refine Kept.of_snd (by assumption) ?_ | refine Kept.of_fst (by assumption) ?_
        | refine Kept.of_third (by assumption) ?_)
    | dsimp only
    | unfold kx

theorem State.exchangeSums_kept {a s : State} (h : Kept a s) (t : TableD) (d : Nat) (c : Nat) :
    Kept a (State.exchangeSums s t d c).1 := by
  unfold State.exchangeSums
  repeat' first
    | (with_reducible first | assumption | refine Kept.ite ?_ ?_)
    | (lift_lets; intro kx; refine Kept.step (a := a) (x := kx) ?_ fun hkx => ?_)
    | (lift_lets; intro kx)
    | (simp only [Kept.mk_iff]; with_reducible refine KeptF.of ?_ (Nat.le_refl _))
    | (simp only [Kept.mk_iff]; with_reducible refine KeptF.of ?_ (Nat.le_succ _))
    | with_reducible apply State.sendSums_kept
    | (simp only [kx, Kept.mk_iff]; with_reducible refine KeptF.of ?_ (Nat.le_refl _))
    | (with_reducible first
        | refine Kept.foldl ?_ fun kb ky hkb => ?_ | refine Kept.foldl_snd ?_ fun kb ky hkb => ?_
        | refine Kept.foldl_fst ?_ fun kb ky hkb => ?_)
    | split
    | (with_reducible first
        | refine Kept.of_snd (by assumption) ?_ | refine Kept.of_fst (by assumption) ?_
        | refine Kept.of_third (by assumption) ?_)
    | dsimp only
    | unfold kx

theorem State.meetUpdate_kept {a s : State} (h : Kept a s) (t : TableD) (d : Nat) (c : Nat) (es : List MemError) :
    Kept a (State.meetUpdate s t d c es) := by
  unfold State.meetUpdate
  repeat' first
    | (with_reducible first | assumption | apply State.meetRows_kept)
    | split

theorem State.update_kept {a s : State} (h : Kept a s) (d : Nat) (c : Nat) (ecc : List MemError) (fault : Option PressFault) :
    Kept a (State.update s d c ecc fault) := by
  unfold State.update
  repeat' first
    | (with_reducible first
        | assumption | first | refine fun kz kb hkz => ?_ | refine fun kz hkz => ?_ | refine Kept.ite ?_ ?_)
    | (lift_lets; intro kx; refine Kept.step (a := a) (x := kx) ?_ fun hkx => ?_)
    | (lift_lets; intro kx)
    | (simp only [Kept.mk_iff]; with_reducible refine KeptF.of ?_ (Nat.le_refl _))
    | (simp only [Kept.mk_iff]; with_reducible refine KeptF.of ?_ (Nat.le_succ _))
    | (with_reducible first
        | apply State.startJob_kept | apply State.runPress_kept | apply State.tryApply_kept
        | apply State.exchangeSums_kept | apply State.meetUpdate_kept)
    | (simp only [kx, Kept.mk_iff]; with_reducible refine KeptF.of ?_ (Nat.le_refl _))
    | (with_reducible first
        | refine Kept.foldl ?_ fun kb ky hkb => ?_ | refine Kept.foldl_snd ?_ fun kb ky hkb => ?_
        | refine Kept.foldl_fst ?_ fun kb ky hkb => ?_)
    | split
    | (with_reducible first
        | refine Kept.of_snd (by assumption) ?_ | refine Kept.of_fst (by assumption) ?_
        | refine Kept.of_third (by assumption) ?_)
    | dsimp only
    | unfold kx
    | exact hkz
    | exact Nat.le_refl _
    | exact Nat.le_succ _

theorem execUpdate_kept {a s : State} (h : Kept a s) (die : Fin 4) (cluster : Fin 16) (events : PressEvents) {kt : State} (ke : execUpdate die cluster events s = .next kt) :
    Kept a kt := by
  unfold execUpdate at ke
  refine Kept.of_done ke ?_
  repeat' first
    | (with_reducible first | assumption | refine Kept.ite ?_ ?_)
    | (lift_lets; intro kx; refine Kept.step (a := a) (x := kx) ?_ fun hkx => ?_)
    | (lift_lets; intro kx)
    | (simp only [Kept.mk_iff]; with_reducible refine KeptF.of ?_ (Nat.le_refl _))
    | (simp only [Kept.mk_iff]; with_reducible refine KeptF.of ?_ (Nat.le_succ _))
    | with_reducible apply State.update_kept
    | (simp only [kx, Kept.mk_iff]; with_reducible refine KeptF.of ?_ (Nat.le_refl _))
    | (with_reducible first
        | refine Kept.foldl ?_ fun kb ky hkb => ?_ | refine Kept.foldl_snd ?_ fun kb ky hkb => ?_
        | refine Kept.foldl_fst ?_ fun kb ky hkb => ?_)
    | split
    | (with_reducible first
        | refine Kept.of_snd (by assumption) ?_ | refine Kept.of_fst (by assumption) ?_
        | refine Kept.of_third (by assumption) ?_)
    | dsimp only
    | unfold kx

theorem State.pendingBankApply_kept {a s : State} (h : Kept a s) (d : Nat) (table : Nat) (ecc : List MemError) (fault : Option (Nat × PressFault)) :
    Kept a (State.pendingBankApply s d table ecc fault) := by
  unfold State.pendingBankApply
  repeat' first
    | (with_reducible first | assumption | refine Kept.ite ?_ ?_)
    | (lift_lets; intro kx; refine Kept.step (a := a) (x := kx) ?_ fun hkx => ?_)
    | (lift_lets; intro kx)
    | (simp only [Kept.mk_iff]; with_reducible refine KeptF.of ?_ (Nat.le_refl _))
    | (simp only [Kept.mk_iff]; with_reducible refine KeptF.of ?_ (Nat.le_succ _))
    | (with_reducible first
        | apply State.failPress_kept | apply State.tryApply_kept | apply State.exchangeSums_kept
        | apply State.meetUpdate_kept)
    | (simp only [kx, Kept.mk_iff]; with_reducible refine KeptF.of ?_ (Nat.le_refl _))
    | (with_reducible first
        | refine Kept.foldl ?_ fun kb ky hkb => ?_ | refine Kept.foldl_snd ?_ fun kb ky hkb => ?_
        | refine Kept.foldl_fst ?_ fun kb ky hkb => ?_)
    | split
    | (with_reducible first
        | refine Kept.of_snd (by assumption) ?_ | refine Kept.of_fst (by assumption) ?_
        | refine Kept.of_third (by assumption) ?_)
    | dsimp only
    | unfold kx

theorem execPendingBankApply_kept {a s : State} (h : Kept a s) (die : Fin 4) (bank : BankApply) {kt : State} (ke : execPendingBankApply die bank s = .next kt) :
    Kept a kt := by
  unfold execPendingBankApply at ke
  refine Kept.of_done ke ?_
  repeat' first
    | (with_reducible first | assumption | refine Kept.ite ?_ ?_)
    | (lift_lets; intro kx; refine Kept.step (a := a) (x := kx) ?_ fun hkx => ?_)
    | (lift_lets; intro kx)
    | (simp only [Kept.mk_iff]; with_reducible refine KeptF.of ?_ (Nat.le_refl _))
    | (simp only [Kept.mk_iff]; with_reducible refine KeptF.of ?_ (Nat.le_succ _))
    | with_reducible apply State.pendingBankApply_kept
    | (simp only [kx, Kept.mk_iff]; with_reducible refine KeptF.of ?_ (Nat.le_refl _))
    | (with_reducible first
        | refine Kept.foldl ?_ fun kb ky hkb => ?_ | refine Kept.foldl_snd ?_ fun kb ky hkb => ?_
        | refine Kept.foldl_fst ?_ fun kb ky hkb => ?_)
    | split
    | (with_reducible first
        | refine Kept.of_snd (by assumption) ?_ | refine Kept.of_fst (by assumption) ?_
        | refine Kept.of_third (by assumption) ?_)
    | dsimp only
    | unfold kx

theorem State.endPass_kept {a s : State} (h : Kept a s) (t : TableD) :
    Kept a (State.endPass s t) := by
  unfold State.endPass
  repeat' first
    | with_reducible assumption
    | (simp only [Kept.mk_iff]; with_reducible refine KeptF.of ?_ (Nat.le_refl _))

theorem State.pressJobComplete_kept {a s : State} (h : Kept a s) (d : Nat) (c : Nat) :
    Kept a (State.pressJobComplete s d c) := by
  unfold State.pressJobComplete
  repeat' first
    | (with_reducible first | assumption | refine Kept.ite ?_ ?_)
    | (lift_lets; intro kx; refine Kept.step (a := a) (x := kx) ?_ fun hkx => ?_)
    | (lift_lets; intro kx)
    | (simp only [Kept.mk_iff]; with_reducible refine KeptF.of ?_ (Nat.le_refl _))
    | (simp only [Kept.mk_iff]; with_reducible refine KeptF.of ?_ (Nat.le_succ _))
    | (with_reducible first
        | apply State.signal_kept | apply State.setPress_kept | apply State.pressTrace_kept
        | apply State.endPass_kept)
    | (simp only [kx, Kept.mk_iff]; with_reducible refine KeptF.of ?_ (Nat.le_refl _))
    | (with_reducible first
        | refine Kept.foldl ?_ fun kb ky hkb => ?_ | refine Kept.foldl_snd ?_ fun kb ky hkb => ?_
        | refine Kept.foldl_fst ?_ fun kb ky hkb => ?_)
    | split
    | (with_reducible first
        | refine Kept.of_snd (by assumption) ?_ | refine Kept.of_fst (by assumption) ?_
        | refine Kept.of_third (by assumption) ?_)
    | dsimp only
    | unfold kx

theorem execPressJobComplete_kept {a s : State} (h : Kept a s) (die : Fin 4) (cluster : Fin 16) {kt : State} (ke : execPressJobComplete die cluster s = .next kt) :
    Kept a kt := by
  unfold execPressJobComplete at ke
  refine Kept.of_done ke ?_
  repeat' (with_reducible first | assumption | refine Kept.ite ?_ ?_ | apply State.pressJobComplete_kept)

theorem State.grottoCopyReturn_kept {a s : State} (h : Kept a s) (d : Nat) (c : Nat) (off : Nat) (ecc : List MemError) :
    Kept a (State.grottoCopyReturn s d c off ecc) := by
  unfold State.grottoCopyReturn
  repeat' first
    | (with_reducible first
        | assumption | apply State.write_kept | apply State.meetReads_kept | apply State.poisonRange_kept
        | apply State.setLines_kept)
    | split

theorem execGrottoCopyReturn_kept {a s : State} (h : Kept a s) (site : PressSite) (line : Nat) (ecc : List MemError) {kt : State} (ke : execGrottoCopyReturn site line ecc s = .next kt) :
    Kept a kt := by
  unfold execGrottoCopyReturn at ke
  refine Kept.of_done ke ?_
  repeat' first
    | (with_reducible first | assumption | refine Kept.ite ?_ ?_)
    | (lift_lets; intro kx; refine Kept.step (a := a) (x := kx) ?_ fun hkx => ?_)
    | (lift_lets; intro kx)
    | (simp only [Kept.mk_iff]; with_reducible refine KeptF.of ?_ (Nat.le_refl _))
    | (simp only [Kept.mk_iff]; with_reducible refine KeptF.of ?_ (Nat.le_succ _))
    | with_reducible apply State.grottoCopyReturn_kept
    | (simp only [kx, Kept.mk_iff]; with_reducible refine KeptF.of ?_ (Nat.le_refl _))
    | (with_reducible first
        | refine Kept.foldl ?_ fun kb ky hkb => ?_ | refine Kept.foldl_snd ?_ fun kb ky hkb => ?_
        | refine Kept.foldl_fst ?_ fun kb ky hkb => ?_)
    | split
    | (with_reducible first
        | refine Kept.of_snd (by assumption) ?_ | refine Kept.of_fst (by assumption) ?_
        | refine Kept.of_third (by assumption) ?_)
    | dsimp only
    | unfold kx

end Sys2Proof.Machine
end

