-- ==== Sys2Proof/Laws/KeptMemory.lean ====
section
/-! SUPPORT. What the operations of Machine/Memory.lean keep (`Kept`). -/

set_option linter.unusedSimpArgs false

namespace Sys2Proof.Machine

theorem State.denyWrite_kept {a s : State} (h : Kept a s) (ag : Agent) (aa : Nat) :
    Kept a (State.denyWrite s ag aa) := by
  unfold State.denyWrite
  repeat' (with_reducible first | assumption | refine Kept.ite ?_ ?_ | apply State.emit_kept)

theorem State.sendPcie_kept {a s : State} (h : Kept a s) (r : PcieReq) :
    Kept a (State.sendPcie s r) := by
  unfold State.sendPcie
  repeat' first
    | with_reducible assumption
    | (simp only [Kept.mk_iff]; with_reducible refine KeptF.of ?_ (Nat.le_refl _))

theorem State.agentWrite_kept {a s : State} (h : Kept a s) (ag : Agent) (aa : Nat) (bs : List Byte) (bad : Bool) :
    Kept a (State.agentWrite s ag aa bs bad) := by
  unfold State.agentWrite
  repeat' first
    | (with_reducible first
        | assumption | refine Kept.ite ?_ ?_ | apply State.write_kept | apply State.respond_kept
        | apply State.poisonRange_kept | apply State.denyWrite_kept | apply State.sendPcie_kept)

theorem State.poisonedRead_kept {a s : State} (h : Kept a s) (ag : Agent) (aa : Nat) :
    Kept a (State.poisonedRead s ag aa) := by
  unfold State.poisonedRead
  repeat' first
    | (with_reducible first
        | assumption | refine Kept.ite ?_ ?_ | apply State.bump_kept | apply State.respond_kept
        | apply State.emit_kept)

theorem State.agentRead_kept {a s : State} (h : Kept a s) (ag : Agent) (aa : Nat) (n : Nat) (es : List MemError) :
    Kept a (State.agentRead s ag aa n es) := by
  unfold State.agentRead
  repeat' first
    | (with_reducible first
        | assumption | refine Kept.ite ?_ ?_ | apply State.respond_kept | apply State.meetReads_kept
        | apply State.poisonedRead_kept)

theorem State.windowRead_kept {a s : State} (h : Kept a s) (ag : Agent) (aa : Nat) (n : Nat) (es : List MemError) :
    Kept a (State.windowRead s ag aa n es) := by
  unfold State.windowRead
  repeat' first
    | (with_reducible first | assumption | apply State.respond_kept | apply State.agentRead_kept)
    | split

theorem State.memoryRead_kept {a s : State} (h : Kept a s) (ag : Agent) (aa : Nat) (n : Nat) (es : List MemError) :
    Kept a (State.memoryRead s ag aa n es) := by
  unfold State.memoryRead
  repeat' first
    | (with_reducible first
        | assumption | apply State.tickFree_kept | apply State.respond_kept | apply State.sendPcie_kept
        | apply State.agentRead_kept | apply State.windowRead_kept)
    | split

theorem State.eccWriteback_kept {a s : State} (h : Kept a s) (k : MemKind) (aa : Nat) :
    Kept a (State.eccWriteback s k aa) := by
  unfold State.eccWriteback
  repeat' first
    | with_reducible assumption
    | (simp only [Kept.mk_iff]; with_reducible refine KeptF.of ?_ (Nat.le_refl _))

theorem execEccWriteback_kept {a s : State} (h : Kept a s) (kind : MemKind) (addr : Nat) {kt : State} (ke : execEccWriteback kind addr s = .next kt) :
    Kept a kt := by
  unfold execEccWriteback at ke
  refine Kept.of_done ke ?_
  repeat' (with_reducible first | assumption | refine Kept.ite ?_ ?_ | apply State.eccWriteback_kept)

theorem State.patrolTier1_kept {a s : State} (h : Kept a s) (e : Ecc) (m : Ecc) :
    Kept a (State.patrolTier1 s e m) := by
  unfold State.patrolTier1
  repeat' first
    | with_reducible assumption
    | (simp only [Kept.mk_iff]; with_reducible refine KeptF.of ?_ (Nat.le_refl _))
    | (with_reducible first | apply State.setLineMeta_kept | apply State.applyEccIn_kept | apply State.applyEcc_kept)

theorem State.patrolTier2_kept {a s : State} (h : Kept a s) (e : Ecc) :
    Kept a (State.patrolTier2 s e) := by
  unfold State.patrolTier2
  repeat' first
    | (with_reducible first | assumption | refine Kept.ite ?_ ?_)
    | (simp only [Kept.mk_iff]; with_reducible refine KeptF.of ?_ (Nat.le_refl _))
    | (with_reducible first | apply State.markDue_kept | apply State.applyEcc_kept)

theorem State.refreshWindow_kept {a s : State} (h : Kept a s) (ch : Nat) (temp : Nat) (e : Ecc) (m : Ecc) :
    Kept a (State.refreshWindow s ch temp e m) := by
  unfold State.refreshWindow
  repeat' first
    | (with_reducible first
        | assumption | refine Kept.ite ?_ ?_ | apply State.stackTemp_kept | apply State.patrolTier1_kept
        | apply State.patrolTier2_kept)

theorem execRefreshWindow_kept {a s : State} (h : Kept a s) (channel : Fin 36) (visit : RefreshVisit) {kt : State} (ke : execRefreshWindow channel visit s = .next kt) :
    Kept a kt := by
  unfold execRefreshWindow at ke
  refine Kept.of_done ke ?_
  repeat' first
    | (with_reducible first | assumption | refine Kept.ite ?_ ?_)
    | (lift_lets; intro kx; refine Kept.step (a := a) (x := kx) ?_ fun hkx => ?_)
    | (lift_lets; intro kx)
    | (simp only [Kept.mk_iff]; with_reducible refine KeptF.of ?_ (Nat.le_refl _))
    | (simp only [Kept.mk_iff]; with_reducible refine KeptF.of ?_ (Nat.le_succ _))
    | with_reducible apply State.refreshWindow_kept
    | (simp only [kx, Kept.mk_iff]; with_reducible refine KeptF.of ?_ (Nat.le_refl _))
    | (with_reducible first
        | refine Kept.foldl ?_ fun kb ky hkb => ?_ | refine Kept.foldl_snd ?_ fun kb ky hkb => ?_
        | refine Kept.foldl_fst ?_ fun kb ky hkb => ?_)
    | split
    | (with_reducible first
        | refine Kept.of_snd (by assumption) ?_ | refine Kept.of_fst (by assumption) ?_
        | refine Kept.of_third (by assumption) ?_)
    | dsimp only
    | unfold kx

theorem State.scrubError_kept {a s : State} (h : Kept a s) (key : Nat) (hole : Nat) (e : Ecc) :
    Kept a (State.scrubError s key hole e) := by
  unfold State.scrubError
  repeat' first
    | with_reducible assumption
    | (lift_lets; intro kx)
    | (with_reducible first | apply State.applyEcc_kept | apply State.bufferEcc_kept | apply State.dropLine_kept)
    | split

theorem State.sramScrub_kept {a s : State} (h : Kept a s) (key : Nat) (behind : Bool) (e : Ecc) :
    Kept a (State.sramScrub s key behind e) := by
  unfold State.sramScrub
  repeat' first
    | (with_reducible first | assumption | refine Kept.ite ?_ ?_)
    | (simp only [Kept.mk_iff]; with_reducible refine KeptF.of ?_ (Nat.le_refl _))
    | (with_reducible first | apply State.free_kept | apply State.scrubError_kept)

theorem execSramScrub_kept {a s : State} (h : Kept a s) (key : BitVec 32) (behind : Bool) (ecc : Ecc) {kt : State} (ke : execSramScrub key behind ecc s = .next kt) :
    Kept a kt := by
  unfold execSramScrub at ke
  refine Kept.of_done ke ?_
  repeat' (with_reducible first | assumption | refine Kept.ite ?_ ?_ | apply State.sramScrub_kept)

end Sys2Proof.Machine
end

