-- ==== Sys2Proof/Laws/KeptRings.lean ====
section
/-! SUPPORT. What the operations of Machine/Rings.lean keep (`Kept`). -/

set_option linter.unusedSimpArgs false

namespace Sys2Proof.Machine

theorem State.setRing_kept {a s : State} (h : Kept a s) (cls : Nat) (i : Nat) (r : RingState) :
    Kept a (State.setRing s cls i r) := by
  unfold State.setRing
  repeat' first
    | with_reducible assumption
    | (simp only [Kept.mk_iff]; with_reducible refine KeptF.of ?_ (Nat.le_refl _))

theorem State.ringRaise_kept {a s : State} (h : Kept a s) (cls : Nat) (i : Nat) :
    Kept a (State.ringRaise s cls i) := by
  unfold State.ringRaise
  repeat' first
    | (with_reducible first
        | assumption | refine Kept.ite ?_ ?_ | apply State.raiseIrq_kept | apply State.setRing_kept)

theorem State.ringComplete_kept {a s : State} (h : Kept a s) (cls : Nat) (i : Nat) (n : Nat) :
    Kept a (State.ringComplete s cls i n) := by
  unfold State.ringComplete
  repeat' first
    | (with_reducible first
        | assumption | refine Kept.ite ?_ ?_ | apply State.guardedWrite_kept | apply State.setRing_kept
        | apply State.ringRaise_kept)

theorem State.ringError_kept {a s : State} (h : Kept a s) (cls : Nat) (i : Nat) (code : Nat) :
    Kept a (State.ringError s cls i code) := by
  unfold State.ringError
  repeat' (with_reducible first | assumption | refine Kept.ite ?_ ?_ | apply State.setRing_kept)

theorem State.reserve_kept {a s : State} (h : Kept a s) (cls : Nat) (i : Nat) :
    Kept a (State.reserve s cls i).2 := by
  unfold State.reserve
  repeat' first
    | (with_reducible first | assumption | apply State.setRing_kept | apply State.ringError_kept)
    | split
    | dsimp only

theorem State.deliverFrame_kept {a s : State} (h : Kept a s) (x : RingSlot) (bytes : List Byte) (d : Desc) :
    Kept a (State.deliverFrame s x bytes d) := by
  unfold State.deliverFrame
  repeat' first
    | (with_reducible first
        | assumption | refine Kept.ite ?_ ?_ | apply State.guardedWrite_kept | apply State.ringComplete_kept)

end Sys2Proof.Machine
end

