-- ==== Sys2Proof/Laws/KeptEgress.lean ====
section
/-! SUPPORT. What the operations of Machine/Egress.lean keep (`Kept`). -/

set_option linter.unusedSimpArgs false

namespace Sys2Proof.Machine

theorem State.setHalf_kept {a s : State} (h : Kept a s) (c : Nat) (hh : Half) :
    Kept a (State.setHalf s c hh) := by
  unfold State.setHalf
  repeat' first
    | with_reducible assumption
    | (simp only [Kept.mk_iff]; with_reducible refine KeptF.of ?_ (Nat.le_refl _))

theorem State.setFrame_kept {a s : State} (h : Kept a s) (i : Nat) (f : Frame) :
    Kept a (State.setFrame s i f) := by
  unfold State.setFrame
  repeat' first
    | with_reducible assumption
    | (simp only [Kept.mk_iff]; with_reducible refine KeptF.of ?_ (Nat.le_refl _))

theorem State.wireCount_kept {a s : State} (h : Kept a s) (c : Nat) (i : Nat) (n : Nat) :
    Kept a (State.wireCount s c i n) := by
  unfold State.wireCount
  repeat' (with_reducible first | assumption | refine Kept.ite ?_ ?_ | apply State.bump_kept)

theorem State.sendPfc_kept {a s : State} (h : Kept a s) (port : Nat) (q : Nat) (quanta : Nat) :
    Kept a (State.sendPfc s port q quanta) := by
  unfold State.sendPfc
  repeat' first
    | (with_reducible first
        | assumption | refine Kept.ite ?_ ?_ | apply State.setHalf_kept | apply State.wireCount_kept)

theorem State.pfcUpdate_kept {a s : State} (h : Kept a s) (port : Nat) (q : Nat) :
    Kept a (State.pfcUpdate s port q) := by
  unfold State.pfcUpdate
  repeat' first
    | (with_reducible first
        | assumption | refine Kept.ite ?_ ?_ | apply State.setHalf_kept | apply State.sendPfc_kept)

theorem State.setPaused_kept {a s : State} (h : Kept a s) (c : Nat) (q : Nat) (quanta : Nat) :
    Kept a (State.setPaused s c q quanta) := by
  unfold State.setPaused
  repeat' (with_reducible first | assumption | refine Kept.ite ?_ ?_ | apply State.setFld_kept | apply State.setHalf_kept)

theorem State.receivePfc_kept {a s : State} (h : Kept a s) (c : Nat) (bytes : List Byte) (o : Nat) :
    Kept a (State.receivePfc s c bytes o) := by
  unfold State.receivePfc
  repeat' first
    | (with_reducible first
        | assumption | refine Kept.ite ?_ ?_ | apply State.setPaused_kept | refine Kept.foldl ?_ fun kb ky hkb => ?_)

theorem execPauseExpiry_kept {a s : State} (h : Kept a s) (port : Fin 16) (cls : Fin 8) {kt : State} (ke : execPauseExpiry port cls s = .next kt) :
    Kept a kt := by
  unfold execPauseExpiry at ke
  refine Kept.of_done ke ?_
  repeat' (with_reducible first | assumption | refine Kept.ite ?_ ?_ | apply State.setPaused_kept)

theorem State.pfcRepeat_kept {a s : State} (h : Kept a s) (port : Nat) (q : Nat) :
    Kept a (State.pfcRepeat s port q) := by
  unfold State.pfcRepeat
  repeat' (with_reducible first | assumption | refine Kept.ite ?_ ?_ | apply State.sendPfc_kept)

theorem execPfcRepeat_kept {a s : State} (h : Kept a s) (port : Fin 16) (cls : Fin 8) {kt : State} (ke : execPfcRepeat port cls s = .next kt) :
    Kept a kt := by
  unfold execPfcRepeat at ke
  refine Kept.of_done ke ?_
  repeat' (with_reducible first | assumption | refine Kept.ite ?_ ?_ | apply State.pfcRepeat_kept)

theorem State.forward_kept {a s : State} (h : Kept a s) (i : Nat) (f : Frame) (c : Nat) (tc : Nat) :
    Kept a (State.forward s i f c tc) := by
  unfold State.forward
  repeat' first
    | (with_reducible first
        | assumption | refine Kept.ite ?_ ?_ | apply State.setHalf_kept | apply State.wireCount_kept
        | apply State.pfcUpdate_kept)

theorem State.unqueue_kept {a s : State} (h : Kept a s) (i : Nat) :
    Kept a (State.unqueue s i) := by
  unfold State.unqueue
  repeat' first
    | (with_reducible first
        | assumption | apply State.setHalf_kept | apply State.pfcUpdate_kept
        | refine Kept.foldl ?_ fun kb ky hkb => ?_)
    | split
    | dsimp only

theorem State.tcHold_kept {a s : State} (h : Kept a s) (k : Nat) (v : Int) :
    Kept a (State.tcHold s k v) := by
  unfold State.tcHold
  repeat' first
    | (with_reducible first | assumption | refine Kept.ite ?_ ?_)
    | (simp only [Kept.mk_iff]; with_reducible refine KeptF.of ?_ (Nat.le_refl _))

theorem State.tcSkipped_kept {a s : State} (h : Kept a s) :
    Kept a (State.tcSkipped s) := by
  unfold State.tcSkipped
  repeat' (with_reducible first | assumption | refine Kept.ite ?_ ?_ | apply State.bump_kept)

theorem State.tcAdd_kept {a s : State} (h : Kept a s) (p : Parsed) (b : List Byte) (v : Int) :
    Kept a (State.tcAdd s p b v).2 := by
  unfold State.tcAdd
  repeat' first
    | (with_reducible first | assumption | apply State.bump_kept | apply State.tcSkipped_kept)
    | split

theorem State.tcAlone_kept {a s : State} (h : Kept a s) (p : Parsed) (b : List Byte) (v : Int) :
    Kept a (State.tcAlone s p b v).2 := by
  unfold State.tcAlone
  repeat' first
    | (with_reducible first | assumption | apply State.bump_kept | apply State.tcSkipped_kept)
    | split

theorem State.tcFollow_kept {a s : State} (h : Kept a s) (p : Parsed) (b : List Byte) (k : Nat) :
    Kept a (State.tcFollow s p b k).2 := by
  unfold State.tcFollow
  repeat' first
    | with_reducible assumption
    | (simp only [Kept.mk_iff]; with_reducible refine KeptF.of ?_ (Nat.le_refl _))
    | (with_reducible first | apply State.bump_kept | apply State.tcAdd_kept)
    | split

theorem State.tcCorrect_kept {a s : State} (h : Kept a s) (f : Frame) (c : Nat) (b : List Byte) :
    Kept a (State.tcCorrect s f c b).2 := by
  unfold State.tcCorrect
  repeat' first
    | (with_reducible first
        | assumption | apply State.tcHold_kept | apply State.tcSkipped_kept | apply State.tcAdd_kept
        | apply State.tcAlone_kept | apply State.tcFollow_kept)
    | split
    | dsimp only

theorem execTcEntryExpiry_kept {a s : State} (h : Kept a s) (index : Nat) {kt : State} (ke : execTcEntryExpiry index s = .next kt) :
    Kept a kt := by
  unfold execTcEntryExpiry at ke
  refine Kept.of_done ke ?_
  repeat' first
    | with_reducible assumption
    | (simp only [Kept.mk_iff]; with_reducible refine KeptF.of ?_ (Nat.le_refl _))

theorem State.setPd_kept {a s : State} (h : Kept a s) (c : Nat) (p : Pdelay) :
    Kept a (State.setPd s c p) := by
  unfold State.setPd
  repeat' (with_reducible first | assumption | refine Kept.ite ?_ ?_ | apply State.setHalf_kept)

theorem State.sendPtp_kept {a s : State} (h : Kept a s) (m : PtpOut) :
    Kept a (State.sendPtp s m) := by
  unfold State.sendPtp
  repeat' first
    | with_reducible assumption
    | (simp only [Kept.mk_iff]; with_reducible refine KeptF.of ?_ (Nat.le_refl _))

theorem State.setMean_kept {a s : State} (h : Kept a s) (c : Nat) (v : Int) :
    Kept a (State.setMean s c v) := by
  unfold State.setMean
  repeat' (with_reducible first | assumption | refine Kept.ite ?_ ?_ | apply State.setPd_kept)

theorem State.pdelayReceive_kept {a s : State} (h : Kept a s) (f : Frame) :
    Kept a (State.pdelayReceive s f) := by
  unfold State.pdelayReceive
  repeat' first
    | (with_reducible first | assumption | refine Kept.ite ?_ ?_)
    | (lift_lets; intro kx)
    | (with_reducible first | apply State.setPd_kept | apply State.sendPtp_kept | apply State.setMean_kept)
    | split

theorem State.pdelayReqTimer_kept {a s : State} (h : Kept a s) (c : Nat) :
    Kept a (State.pdelayReqTimer s c) := by
  unfold State.pdelayReqTimer
  repeat' (with_reducible first | assumption | refine Kept.ite ?_ ?_ | apply State.setPd_kept | apply State.sendPtp_kept)

theorem execPdelayReqTimer_kept {a s : State} (h : Kept a s) (port : Fin 16) {kt : State} (ke : execPdelayReqTimer port s = .next kt) :
    Kept a kt := by
  unfold execPdelayReqTimer at ke
  refine Kept.of_done ke ?_
  repeat' (with_reducible first | assumption | refine Kept.ite ?_ ?_ | apply State.pdelayReqTimer_kept)

theorem execPdelayTimeout_kept {a s : State} (h : Kept a s) (port : Fin 16) {kt : State} (ke : execPdelayTimeout port s = .next kt) :
    Kept a kt := by
  unfold execPdelayTimeout at ke
  refine Kept.of_done ke ?_
  repeat' (with_reducible first | assumption | refine Kept.ite ?_ ?_ | apply State.setPd_kept)

theorem State.startTx_kept {a s : State} (h : Kept a s) (c : Nat) (o : TxOut) :
    Kept a (State.startTx s c o) := by
  unfold State.startTx
  repeat' first
    | (with_reducible first
        | assumption | refine Kept.ite ?_ ?_ | apply State.setHalf_kept | apply State.wireCount_kept)

theorem State.startForward_kept {a s : State} (h : Kept a s) (c : Nat) (x : Nat × Nat × Nat) :
    Kept a (State.startForward s c x) := by
  unfold State.startForward
  repeat' first
    | (with_reducible first
        | assumption | apply State.poisonConsumed_kept | apply State.setHalf_kept | apply State.wireCount_kept
        | apply State.pfcUpdate_kept | apply State.tcCorrect_kept | apply State.startTx_kept)
    | split

theorem State.startRingFrame_kept {a s : State} (h : Kept a s) (c : Nat) (j : TxJob) :
    Kept a (State.startRingFrame s c j) := by
  unfold State.startRingFrame
  repeat' first
    | with_reducible assumption
    | (simp only [Kept.mk_iff]; with_reducible refine KeptF.of ?_ (Nat.le_refl _))
    | with_reducible apply State.startTx_kept

theorem State.startPtp_kept {a s : State} (h : Kept a s) (c : Nat) (m : PtpOut) :
    Kept a (State.startPtp s c m) := by
  unfold State.startPtp
  repeat' first
    | (with_reducible first | assumption | refine Kept.ite ?_ ?_)
    | (simp only [Kept.mk_iff]; with_reducible refine KeptF.of ?_ (Nat.le_refl _))
    | (with_reducible first
        | apply State.tickFree_kept | apply State.setPd_kept | apply State.sendPtp_kept | apply State.startTx_kept)

end Sys2Proof.Machine
end

