-- ==== Sys2Proof/Laws/KeptClassify.lean ====
section
/-! SUPPORT. What the operations of Machine/Classify.lean keep (`Kept`). -/

set_option linter.unusedSimpArgs false

namespace Sys2Proof.Machine

theorem State.setBankWord_kept {a s : State} (h : Kept a s) (bank : Nat) (region : Nat) (index : Nat) (word : Nat) (v : Nat) :
    Kept a (State.setBankWord s bank region index word v) := by
  unfold State.setBankWord
  repeat' first
    | with_reducible assumption
    | (simp only [Kept.mk_iff]; with_reducible refine KeptF.of ?_ (Nat.le_refl _))

theorem State.bankSwap_kept {a s : State} (h : Kept a s) (v : Word) :
    Kept a (State.bankSwap s v) := by
  unfold State.bankSwap
  repeat' (with_reducible first | assumption | refine Kept.ite ?_ ?_ | apply State.setFld_kept)

theorem execBankSwap_kept {a s : State} (h : Kept a s) (value : Word) {kt : State} (ke : execBankSwap value s = .next kt) :
    Kept a kt := by
  unfold execBankSwap at ke
  refine Kept.of_done ke ?_
  repeat' first
    | with_reducible assumption
    | (lift_lets; intro kx)
    | (with_reducible first | apply State.onReady_kept | apply State.bankSwap_kept)

theorem State.bankAdvance_kept {a s : State} (h : Kept a s) :
    Kept a (State.bankAdvance s) := by
  unfold State.bankAdvance
  repeat' (with_reducible first | assumption | refine Kept.ite ?_ ?_ | apply State.setFld_kept)

theorem State.bankDataAccess_kept {a s : State} (h : Kept a s) (w : Option Word) :
    Kept a (State.bankDataAccess s w) := by
  unfold State.bankDataAccess
  repeat' first
    | (with_reducible first
        | assumption | refine Kept.ite ?_ ?_ | apply State.setFld_kept | apply State.respond_kept
        | apply State.setBankWord_kept | apply State.bankAdvance_kept)
    | split
    | unfold kx

theorem execBankDataAccess_kept {a s : State} (h : Kept a s) (write : Option Word) {kt : State} (ke : execBankDataAccess write s = .next kt) :
    Kept a kt := by
  unfold execBankDataAccess at ke
  refine Kept.of_done ke ?_
  repeat' first
    | (with_reducible first | assumption | refine Kept.ite ?_ ?_)
    | (lift_lets; intro kx)
    | (with_reducible first | apply State.onReady_kept | apply State.bankDataAccess_kept)

theorem State.clsCount_kept {a s : State} (h : Kept a s) (i : Nat) (n : Nat) :
    Kept a (State.clsCount s i n) := by
  unfold State.clsCount
  repeat' (with_reducible first | assumption | refine Kept.ite ?_ ?_ | apply State.bump_kept)

theorem State.countHit_kept {a s : State} (h : Kept a s) (bank : Nat) (hh : Hit) :
    Kept a (State.countHit s bank hh) := by
  unfold State.countHit
  repeat' first
    | (with_reducible first | assumption | apply State.setBankWord_kept | apply State.clsCount_kept)
    | split

theorem State.setFlow_kept {a s : State} (h : Kept a s) (i : Nat) (b : List Byte) :
    Kept a (State.setFlow s i b) := by
  unfold State.setFlow
  repeat' first
    | with_reducible assumption
    | (simp only [Kept.mk_iff]; with_reducible refine KeptF.of ?_ (Nat.le_refl _))

theorem State.flowFind_kept {a s : State} (h : Kept a s) (f : Frame) :
    Kept a (State.flowFind s f).2 := by
  unfold State.flowFind
  repeat' first
    | with_reducible assumption
    | (lift_lets; intro kx)
    | (simp only [Kept.mk_iff]; with_reducible refine KeptF.of ?_ (Nat.le_refl _))
    | (with_reducible first | apply State.clsCount_kept | apply State.setFlow_kept)
    | split

theorem State.flowUpdate_kept {a s : State} (h : Kept a s) (f : Frame) :
    Kept a (State.flowUpdate s f) := by
  unfold State.flowUpdate
  repeat' first
    | (with_reducible first | assumption | refine Kept.ite ?_ ?_ | apply State.setFlow_kept)
    | split

theorem execFlowSweep_kept {a s : State} (h : Kept a s) {kt : State} (ke : execFlowSweep s = .next kt) :
    Kept a kt := by
  unfold execFlowSweep at ke
  refine Kept.of_done ke ?_
  repeat' first
    | with_reducible assumption
    | (simp only [Kept.mk_iff]; with_reducible refine KeptF.of ?_ (Nat.le_refl _))

theorem State.flowFlush_kept {a s : State} (h : Kept a s) (v : Word) :
    Kept a (State.flowFlush s v) := by
  unfold State.flowFlush
  repeat' first
    | (with_reducible first
        | assumption | refine Kept.ite ?_ ?_ | apply State.setFlow_kept | refine Kept.foldl ?_ fun kb ky hkb => ?_)

theorem execFlowFlush_kept {a s : State} (h : Kept a s) (value : Word) {kt : State} (ke : execFlowFlush value s = .next kt) :
    Kept a kt := by
  unfold execFlowFlush at ke
  refine Kept.of_done ke ?_
  repeat' first
    | with_reducible assumption
    | (lift_lets; intro kx)
    | (with_reducible first | apply State.onReady_kept | apply State.flowFlush_kept)

theorem State.sliceCount_kept {a s : State} (h : Kept a s) (j : Nat) (i : Nat) (n : Nat) :
    Kept a (State.sliceCount s j i n) := by
  unfold State.sliceCount
  repeat' (with_reducible first | assumption | refine Kept.ite ?_ ?_ | apply State.bump_kept)

theorem State.ringTarget_kept {a s : State} (h : Kept a s) (cls : Nat) (i : Nat) :
    Kept a (State.ringTarget s cls i).2.2 := by
  unfold State.ringTarget
  repeat' first
    | (with_reducible first | assumption | apply State.reserve_kept)
    | split
    | with_reducible refine Kept.of_snd (by assumption) ?_

theorem State.available_kept {a s : State} (h : Kept a s) (f : Frame) (t : Nat) :
    Kept a (State.available s f t).2.2 := by
  unfold State.available
  repeat' first
    | (with_reducible first | assumption | refine Kept.ite ?_ ?_)
    | (lift_lets; intro kx; refine Kept.step (a := a) (x := kx) ?_ fun hkx => ?_)
    | (lift_lets; intro kx)
    | (simp only [Kept.mk_iff]; with_reducible refine KeptF.of ?_ (Nat.le_refl _))
    | (simp only [Kept.mk_iff]; with_reducible refine KeptF.of ?_ (Nat.le_succ _))
    | with_reducible apply State.ringTarget_kept
    | (simp only [kx, Kept.mk_iff]; with_reducible refine KeptF.of ?_ (Nat.le_refl _))
    | (with_reducible first
        | refine Kept.foldl ?_ fun kb ky hkb => ?_ | refine Kept.foldl_snd ?_ fun kb ky hkb => ?_
        | refine Kept.foldl_fst ?_ fun kb ky hkb => ?_)
    | split
    | (with_reducible first
        | refine Kept.of_snd (by assumption) ?_ | refine Kept.of_fst (by assumption) ?_
        | refine Kept.of_third (by assumption) ?_)
    | dsimp only
    | unfold kx

theorem State.resolve_kept {a s : State} (h : Kept a s) (f : Frame) (t : Nat) :
    Kept a (State.resolve s f t).2.2 := by
  unfold State.resolve
  repeat' first
    | with_reducible assumption
    | (lift_lets; intro kx; refine Kept.step (a := a) (x := kx) ?_ fun hkx => ?_)
    | (lift_lets; intro kx)
    | (with_reducible first | apply State.clsCount_kept | apply State.available_kept)
    | split
    | with_reducible refine Kept.of_third (by assumption) ?_

theorem State.mapFrame_kept {a s : State} (h : Kept a s) (i : Nat) (g : Frame → Frame) :
    Kept a (State.mapFrame s i g) := by
  unfold State.mapFrame
  repeat' first
    | (with_reducible first | assumption | apply State.setFrame_kept)
    | split

theorem State.reap_kept {a s : State} (h : Kept a s) (i : Nat) :
    Kept a (State.reap s i) := by
  unfold State.reap
  repeat' first
    | (with_reducible first | assumption | refine Kept.ite ?_ ?_)
    | (simp only [Kept.mk_iff]; with_reducible refine KeptF.of ?_ (Nat.le_refl _))
    | split

theorem State.deliverTo_kept {a s : State} (h : Kept a s) (f : Frame) (x : RingSlot) (tap : Bool) :
    Kept a (State.deliverTo s f x tap) := by
  unfold State.deliverTo
  repeat' first
    | (with_reducible first
        | assumption | refine Kept.ite ?_ ?_ | apply State.poisonConsumed_kept | apply State.deliverFrame_kept)

theorem State.toPtpRing_kept {a s : State} (h : Kept a s) (f : Frame) (x : RingSlot) :
    Kept a (State.toPtpRing s f x) := by
  unfold State.toPtpRing
  repeat' first
    | (with_reducible first | assumption | apply State.setTime_kept)
    | split

theorem State.deliverSlot_kept {a s : State} (h : Kept a s) (i : Nat) :
    Kept a (State.deliverSlot s i) := by
  unfold State.deliverSlot
  repeat' first
    | (with_reducible first
        | assumption | apply State.setFrame_kept | apply State.deliverTo_kept | apply State.toPtpRing_kept)
    | split

theorem State.tapCopy_kept {a s : State} (h : Kept a s) (f : Frame) :
    Kept a (State.tapCopy s f) := by
  unfold State.tapCopy
  repeat' first
    | (with_reducible first
        | assumption | apply State.reserve_kept | apply State.clsCount_kept | apply State.deliverTo_kept)
    | split
    | with_reducible refine Kept.of_snd (by assumption) ?_

theorem State.frameEnd_kept {a s : State} (h : Kept a s) (i : Nat) :
    Kept a (State.frameEnd s i) := by
  unfold State.frameEnd
  repeat' first
    | (with_reducible first
        | assumption | apply State.flowUpdate_kept | apply State.deliverSlot_kept | apply State.tapCopy_kept)
    | split

theorem State.release_kept {a s : State} (h : Kept a s) (i : Nat) :
    Kept a (State.release s i) := by
  unfold State.release
  repeat' (with_reducible first | assumption | refine Kept.ite ?_ ?_ | apply State.mapFrame_kept)

theorem State.sendTo_kept {a s : State} (h : Kept a s) (i : Nat) (f : Frame) (t : Nat) (r : Option RingSlot) :
    Kept a (State.sendTo s i f t r) := by
  unfold State.sendTo
  repeat' first
    | (with_reducible first
        | assumption | refine Kept.ite ?_ ?_ | apply State.setFrame_kept | apply State.forward_kept)
    | split

theorem State.malformed_kept {a s : State} (h : Kept a s) (i : Nat) (f : Frame) (code : Nat) :
    Kept a (State.malformed s i f code) := by
  unfold State.malformed
  repeat' first
    | (with_reducible first
        | assumption | apply State.reserve_kept | apply State.setFrame_kept | apply State.wireCount_kept
        | apply State.forward_kept)
    | split
    | with_reducible refine Kept.of_snd (by assumption) ?_
    | dsimp only

theorem State.failTarget_kept {a s : State} (h : Kept a s) (i : Nat) (j : Nat) :
    Kept a (State.failTarget s i j) := by
  unfold State.failTarget
  repeat' first
    | (with_reducible first
        | assumption | apply State.setFrame_kept | apply State.resolve_kept | apply State.sendTo_kept)
    | split
    | with_reducible refine Kept.of_third (by assumption) ?_
    | dsimp only

theorem State.toSlice_kept {a s : State} (h : Kept a s) (i : Nat) (f : Frame) (j : Nat) :
    Kept a (State.toSlice s i f j) := by
  unfold State.toSlice
  repeat' first
    | (with_reducible first | assumption | refine Kept.ite ?_ ?_)
    | (simp only [Kept.mk_iff]; with_reducible refine KeptF.of ?_ (Nat.le_refl _))
    | (with_reducible first
        | apply State.setFrame_kept | apply State.wireCount_kept | apply State.sliceCount_kept
        | apply State.release_kept | apply State.malformed_kept | apply State.failTarget_kept)

theorem State.decided_kept {a s : State} (h : Kept a s) (i : Nat) (f : Frame) (key : Nat) (w0 : Nat) (w1 : Nat) :
    Kept a (State.decided s i f key w0 w1) := by
  unfold State.decided
  repeat' first
    | (with_reducible first
        | assumption | apply State.setFrame_kept | apply State.flowFind_kept | apply State.resolve_kept
        | apply State.reap_kept | apply State.frameEnd_kept | apply State.release_kept | apply State.sendTo_kept
        | apply State.toSlice_kept)
    | split
    | with_reducible refine Kept.of_third (by assumption) ?_

theorem State.classifierPass_kept {a s : State} (h : Kept a s) (i : Nat) :
    Kept a (State.classifierPass s i) := by
  unfold State.classifierPass
  repeat' first
    | (with_reducible first
        | assumption | refine Kept.ite ?_ ?_ | apply State.setFrame_kept | apply State.countHit_kept
        | apply State.decided_kept)
    | split

theorem execClassifierPass_kept {a s : State} (h : Kept a s) (frame : Nat) {kt : State} (ke : execClassifierPass frame s = .next kt) :
    Kept a kt := by
  unfold execClassifierPass at ke
  refine Kept.of_done ke ?_
  repeat' (with_reducible first | assumption | refine Kept.ite ?_ ?_ | apply State.classifierPass_kept)

theorem State.recirculationPass_kept {a s : State} (h : Kept a s) (i : Nat) :
    Kept a (State.recirculationPass s i) := by
  unfold State.recirculationPass
  repeat' first
    | (with_reducible first
        | assumption | refine Kept.ite ?_ ?_ | apply State.clsCount_kept | apply State.countHit_kept
        | apply State.decided_kept)
    | split

theorem execRecirculationPass_kept {a s : State} (h : Kept a s) (frame : Nat) {kt : State} (ke : execRecirculationPass frame s = .next kt) :
    Kept a kt := by
  unfold execRecirculationPass at ke
  refine Kept.of_done ke ?_
  repeat' (with_reducible first | assumption | refine Kept.ite ?_ ?_ | apply State.recirculationPass_kept)

end Sys2Proof.Machine
end

