-- ==== Sys2Proof/Laws/KeptBramble.lean ====
section
/-! SUPPORT. What the operations of Machine/Bramble.lean keep (`Kept`). -/

set_option linter.unusedSimpArgs false

namespace Sys2Proof.Machine

theorem State.strikeSlice_kept {a s : State} (h : Kept a s) (j : Nat) :
    Kept a (State.strikeSlice s j) := by
  unfold State.strikeSlice
  repeat' (with_reducible first | assumption | refine Kept.ite ?_ ?_ | apply State.strike_kept | apply State.retire_kept)

theorem State.sliceFault_kept {a s : State} (h : Kept a s) (j : Nat) (v : Nat) (x : SliceFault) :
    Kept a (State.sliceFault s j v x) := by
  unfold State.sliceFault
  repeat' first
    | (with_reducible first
        | assumption | apply State.emit_kept | apply State.retire_kept | apply State.sliceCount_kept
        | apply State.strikeSlice_kept)
    | split

theorem State.leavesCorrected_kept {a s : State} (h : Kept a s) (j : Nat) (u : Nat) (n : Nat) :
    Kept a (State.leavesCorrected s j u n) := by
  unfold State.leavesCorrected
  repeat' first
    | (with_reducible first
        | assumption | apply State.free_kept | apply State.emit_kept | apply State.countCorrected_kept
        | apply State.sliceCount_kept | refine Kept.foldl ?_ fun kb ky hkb => ?_)

theorem State.setQueue_kept {a s : State} (h : Kept a s) (j : Nat) (q : List Nat) :
    Kept a (State.setQueue s j q) := by
  unfold State.setQueue
  repeat' first
    | with_reducible assumption
    | (simp only [Kept.mk_iff]; with_reducible refine KeptF.of ?_ (Nat.le_refl _))

theorem State.setReplyQueue_kept {a s : State} (h : Kept a s) (n : Nat) (q : List Nat) :
    Kept a (State.setReplyQueue s n q) := by
  unfold State.setReplyQueue
  repeat' first
    | with_reducible assumption
    | (simp only [Kept.mk_iff]; with_reducible refine KeptF.of ?_ (Nat.le_refl _))

theorem State.queueReply_kept {a s : State} (h : Kept a s) (i : Nat) (j : Nat) (f : Frame) (r : Reply) (accs : List Int) :
    Kept a (State.queueReply s i j f r accs) := by
  unfold State.queueReply
  repeat' first
    | (with_reducible first
        | assumption | refine Kept.ite ?_ ?_ | apply State.tapCopy_kept | apply State.setFrame_kept
        | apply State.sliceCount_kept | apply State.reap_kept | apply State.deliverSlot_kept
        | apply State.failTarget_kept | apply State.setReplyQueue_kept)

theorem State.failEvaluation_kept {a s : State} (h : Kept a s) (i : Nat) (j : Nat) (f : Frame) :
    Kept a (State.failEvaluation s i j f) := by
  unfold State.failEvaluation
  repeat' first
    | (with_reducible first
        | assumption | refine Kept.ite ?_ ?_ | apply State.reap_kept | apply State.deliverSlot_kept
        | apply State.tapCopy_kept | apply State.failTarget_kept)

theorem State.evaluate_kept {a s : State} (h : Kept a s) (i : Nat) (j : Nat) (f : Frame) (corrected : Nat) (follower : Nat) (fault : Option SliceFault) (ecc : List MemError) :
    Kept a (State.evaluate s i j f corrected follower fault ecc) := by
  unfold State.evaluate
  repeat' first
    | (with_reducible first | assumption | refine Kept.ite ?_ ?_)
    | (lift_lets; intro kx)
    | (with_reducible first
        | apply State.reap_kept | apply State.poisonConsumed_kept | apply State.meetReads_kept
        | apply State.setFrame_kept | apply State.sliceCount_kept | apply State.sliceFault_kept
        | apply State.leavesCorrected_kept | apply State.queueReply_kept | apply State.failEvaluation_kept)
    | split

theorem State.sliceEvaluation_kept {a s : State} (h : Kept a s) (j : Nat) (corrected : Nat) (follower : Nat) (fault : Option SliceFault) (ecc : List MemError) :
    Kept a (State.sliceEvaluation s j corrected follower fault ecc) := by
  unfold State.sliceEvaluation
  repeat' first
    | with_reducible assumption
    | (lift_lets; intro kx; refine Kept.step (a := a) (x := kx) ?_ fun hkx => ?_)
    | (with_reducible first | apply State.setQueue_kept | apply State.evaluate_kept)
    | split

theorem execSliceEvaluation_kept {a s : State} (h : Kept a s) (slice : Fin 16) (corrected : Nat) (followerCorrected : Nat) (events : SliceEvents) {kt : State} (ke : execSliceEvaluation slice corrected followerCorrected events s = .next kt) :
    Kept a kt := by
  unfold execSliceEvaluation at ke
  refine Kept.of_done ke ?_
  repeat' first
    | (with_reducible first | assumption | refine Kept.ite ?_ ?_)
    | (lift_lets; intro kx; refine Kept.step (a := a) (x := kx) ?_ fun hkx => ?_)
    | (lift_lets; intro kx)
    | (simp only [Kept.mk_iff]; with_reducible refine KeptF.of ?_ (Nat.le_refl _))
    | (simp only [Kept.mk_iff]; with_reducible refine KeptF.of ?_ (Nat.le_succ _))
    | with_reducible apply State.sliceEvaluation_kept
    | (simp only [kx, Kept.mk_iff]; with_reducible refine KeptF.of ?_ (Nat.le_refl _))
    | (with_reducible first
        | refine Kept.foldl ?_ fun kb ky hkb => ?_ | refine Kept.foldl_snd ?_ fun kb ky hkb => ?_
        | refine Kept.foldl_fst ?_ fun kb ky hkb => ?_)
    | split
    | (with_reducible first
        | refine Kept.of_snd (by assumption) ?_ | refine Kept.of_fst (by assumption) ?_
        | refine Kept.of_third (by assumption) ?_)
    | dsimp only
    | unfold kx

theorem State.startReply_kept {a s : State} (h : Kept a s) (i : Nat) (f : Frame) (r : Reply) :
    Kept a (State.startReply s i f r) := by
  unfold State.startReply
  repeat' first
    | (with_reducible first | assumption | refine Kept.ite ?_ ?_)
    | (simp only [Kept.mk_iff]; with_reducible refine KeptF.of ?_ (Nat.le_refl _))
    | (with_reducible first
        | apply State.setFrame_kept | apply State.startTx_kept | apply State.sliceCount_kept
        | apply State.setReplyQueue_kept)

theorem State.dropReplies_kept {a s : State} (h : Kept a s) (n : Nat) :
    Kept a (State.dropReplies s n) := by
  unfold State.dropReplies
  repeat' first
    | (with_reducible first
        | assumption | apply State.failTarget_kept | apply State.setFrame_kept | apply State.sliceCount_kept
        | apply State.reap_kept | apply State.deliverSlot_kept | apply State.setReplyQueue_kept
        | refine Kept.foldl ?_ fun kb ky hkb => ?_)
    | split

theorem State.replyStart_kept {a s : State} (h : Kept a s) (n : Nat) :
    Kept a (State.replyStart s n) := by
  unfold State.replyStart
  repeat' first
    | with_reducible assumption
    | (lift_lets; intro kx; refine Kept.step (a := a) (x := kx) ?_ fun hkx => ?_)
    | (with_reducible first | apply State.startReply_kept | apply State.dropReplies_kept)
    | split

theorem execReplyStart_kept {a s : State} (h : Kept a s) (port : Fin 8) {kt : State} (ke : execReplyStart port s = .next kt) :
    Kept a kt := by
  unfold execReplyStart at ke
  refine Kept.of_done ke ?_
  repeat' (with_reducible first | assumption | refine Kept.ite ?_ ?_ | apply State.replyStart_kept)

theorem State.replyFcsSlot_kept {a s : State} (h : Kept a s) (i : Nat) :
    Kept a (State.replyFcsSlot s i) := by
  unfold State.replyFcsSlot
  repeat' first
    | (with_reducible first
        | assumption | apply State.setHalf_kept | apply State.setFrame_kept | apply State.sliceCount_kept
        | apply State.reap_kept)
    | split

theorem execReplyFcsSlot_kept {a s : State} (h : Kept a s) (frame : Nat) {kt : State} (ke : execReplyFcsSlot frame s = .next kt) :
    Kept a kt := by
  unfold execReplyFcsSlot at ke
  refine Kept.of_done ke ?_
  repeat' (with_reducible first | assumption | refine Kept.ite ?_ ?_ | apply State.replyFcsSlot_kept)

end Sys2Proof.Machine
end

