-- ==== Sys2Proof/Laws/KeptWire.lean ====
section
/-! SUPPORT. What the operations of Machine/Wire.lean keep (`Kept`). -/

set_option linter.unusedSimpArgs false

namespace Sys2Proof.Machine

theorem State.frameParse_kept {a s : State} (h : Kept a s) (c : Nat) (bytes : List Byte) (phy : Bool) (fixed : Nat) (bad : Nat) (parity : Option (BitVec 6)) :
    Kept a (State.frameParse s c bytes phy fixed bad parity) := by
  unfold State.frameParse
  repeat' first
    | (with_reducible first | assumption | refine Kept.ite ?_ ?_)
    | (lift_lets; intro kx; refine Kept.step (a := a) (x := kx) ?_ fun hkx => ?_)
    | (lift_lets; intro kx)
    | (simp only [Kept.mk_iff]; with_reducible refine KeptF.of ?_ (Nat.le_refl _))
    | (simp only [Kept.mk_iff]; with_reducible refine KeptF.of ?_ (Nat.le_succ _))
    | (with_reducible first
        | apply State.emit_kept | apply State.setFrame_kept | apply State.wireCount_kept | apply State.malformed_kept)
    | (simp only [kx, Kept.mk_iff]; with_reducible refine KeptF.of ?_ (Nat.le_refl _))
    | (with_reducible first
        | refine Kept.foldl ?_ fun kb ky hkb => ?_ | refine Kept.foldl_snd ?_ fun kb ky hkb => ?_
        | refine Kept.foldl_fst ?_ fun kb ky hkb => ?_)
    | split
    | (with_reducible first
        | refine Kept.of_snd (by assumption) ?_ | refine Kept.of_fst (by assumption) ?_
        | refine Kept.of_third (by assumption) ?_)
    | dsimp only
    | unfold kx

theorem execFrameParse_kept {a s : State} (h : Kept a s) (port : Fin 16) (bytes : List Byte) (reception : Reception) {kt : State} (ke : execFrameParse port bytes reception s = .next kt) :
    Kept a kt := by
  unfold execFrameParse at ke
  refine Kept.of_done ke ?_
  repeat' first
    | (with_reducible first | assumption | refine Kept.ite ?_ ?_)
    | (lift_lets; intro kx; refine Kept.step (a := a) (x := kx) ?_ fun hkx => ?_)
    | (lift_lets; intro kx)
    | (simp only [Kept.mk_iff]; with_reducible refine KeptF.of ?_ (Nat.le_refl _))
    | (simp only [Kept.mk_iff]; with_reducible refine KeptF.of ?_ (Nat.le_succ _))
    | with_reducible apply State.frameParse_kept
    | (simp only [kx, Kept.mk_iff]; with_reducible refine KeptF.of ?_ (Nat.le_refl _))
    | (with_reducible first
        | refine Kept.foldl ?_ fun kb ky hkb => ?_ | refine Kept.foldl_snd ?_ fun kb ky hkb => ?_
        | refine Kept.foldl_fst ?_ fun kb ky hkb => ?_)
    | split
    | (with_reducible first
        | refine Kept.of_snd (by assumption) ?_ | refine Kept.of_fst (by assumption) ?_
        | refine Kept.of_third (by assumption) ?_)
    | dsimp only
    | unfold kx

theorem State.settleForward_kept {a s : State} (h : Kept a s) (i : Nat) (good : Bool) :
    Kept a (State.settleForward s i good) := by
  unfold State.settleForward
  repeat' first
    | with_reducible assumption
    | (lift_lets; intro kx)
    | (with_reducible first | apply State.setHalf_kept | refine Kept.foldl ?_ fun kb ky hkb => ?_)
    | split

theorem State.frameVerdict_kept {a s : State} (h : Kept a s) (i : Nat) :
    Kept a (State.frameVerdict s i) := by
  unfold State.frameVerdict
  repeat' first
    | (with_reducible first
        | assumption | apply State.wireCount_kept | apply State.setFrame_kept | apply State.receivePfc_kept
        | apply State.unqueue_kept | apply State.pdelayReceive_kept | apply State.reap_kept
        | apply State.frameEnd_kept | apply State.settleForward_kept | refine Kept.foldl ?_ fun kb ky hkb => ?_)
    | split

theorem execFrameVerdict_kept {a s : State} (h : Kept a s) (frame : Nat) {kt : State} (ke : execFrameVerdict frame s = .next kt) :
    Kept a kt := by
  unfold execFrameVerdict at ke
  refine Kept.of_done ke ?_
  repeat' (with_reducible first | assumption | refine Kept.ite ?_ ?_ | apply State.frameVerdict_kept)

theorem State.egressFrameStart_kept {a s : State} (h : Kept a s) (c : Nat) :
    Kept a (State.egressFrameStart s c) := by
  unfold State.egressFrameStart
  repeat' first
    | (with_reducible first
        | assumption | refine Kept.ite ?_ ?_ | apply State.startRingFrame_kept | apply State.startForward_kept
        | apply State.startPtp_kept | apply State.reap_kept | apply State.startReply_kept
        | apply State.dropReplies_kept)
    | split

theorem execEgressFrameStart_kept {a s : State} (h : Kept a s) (port : Fin 16) {kt : State} (ke : execEgressFrameStart port s = .next kt) :
    Kept a kt := by
  unfold execEgressFrameStart at ke
  refine Kept.of_done ke ?_
  repeat' (with_reducible first | assumption | refine Kept.ite ?_ ?_ | apply State.egressFrameStart_kept)

theorem State.setLanes_kept {a s : State} (h : Kept a s) (c : Nat) (lanes : Nat) :
    Kept a (State.setLanes s c lanes) := by
  unfold State.setLanes
  repeat' (with_reducible first | assumption | refine Kept.ite ?_ ?_ | apply State.setFld_kept)

theorem State.halfDown_kept {a s : State} (h : Kept a s) (c : Nat) :
    Kept a (State.halfDown s c) := by
  unfold State.halfDown
  repeat' first
    | (with_reducible first | assumption | refine Kept.ite ?_ ?_)
    | (simp only [Kept.mk_iff]; with_reducible refine KeptF.of ?_ (Nat.le_refl _))
    | with_reducible apply State.failSource_kept

theorem State.portTrainingDone_kept {a s : State} (h : Kept a s) (c : Nat) (up : Bool) (lanes : Nat) (rx : Nat) (tx : Nat) :
    Kept a (State.portTrainingDone s c up lanes rx tx) := by
  unfold State.portTrainingDone
  repeat' first
    | (with_reducible first
        | assumption | refine Kept.ite ?_ ?_ | apply State.setHalf_kept | apply State.setFld_kept
        | apply State.setLanes_kept | apply State.halfDown_kept)

theorem execPortTrainingDone_kept {a s : State} (h : Kept a s) (port : Fin 16) (up : Bool) (lanes : BitVec 8) (rxLatency : Nat) (txLatency : Nat) {kt : State} (ke : execPortTrainingDone port up lanes rxLatency txLatency s = .next kt) :
    Kept a kt := by
  unfold execPortTrainingDone at ke
  refine Kept.of_done ke ?_
  repeat' (with_reducible first | assumption | refine Kept.ite ?_ ?_ | apply State.portTrainingDone_kept)

end Sys2Proof.Machine
end

