-- ==== Sys2Proof/Laws/KeptServing.lean ====
section
/-! SUPPORT. What the operations of Machine/Serving.lean keep (`Kept`). -/

set_option linter.unusedSimpArgs false

namespace Sys2Proof.Machine

theorem State.setNts_kept {a s : State} (h : Kept a s) (slot : Nat) (n : NtsState) :
    Kept a (State.setNts s slot n) := by
  unfold State.setNts
  repeat' first
    | with_reducible assumption
    | (simp only [Kept.mk_iff]; with_reducible refine KeptF.of ?_ (Nat.le_refl _))

theorem State.meetExport_kept {a s : State} (h : Kept a s) (n : NtsD) (t : TableD) (d : Nat) (c : Nat) (es : List MemError) :
    Kept a (State.meetExport s n t d c es) := by
  unfold State.meetExport
  repeat' first
    | (with_reducible first
        | assumption | apply State.meetReads_kept | apply State.countRead_kept | apply State.dropBadLines_kept
        | refine Kept.foldl ?_ fun kb ky hkb => ?_)

theorem State.writeRegion_kept {a s : State} (h : Kept a s) (slot : Nat) (d : NtsD) :
    Kept a (State.writeRegion s slot d) := by
  unfold State.writeRegion
  repeat' first
    | (with_reducible first
        | assumption | apply State.write_kept | apply State.setNts_kept | refine Kept.foldl ?_ fun kb ky hkb => ?_)

theorem State.ntsExchange_kept {a s : State} (h : Kept a s) (slot : Nat) :
    Kept a (State.ntsExchange s slot) := by
  unfold State.ntsExchange
  repeat' (with_reducible first | assumption | refine Kept.ite ?_ ?_ | apply State.setNts_kept)

theorem State.exportComplete_kept {a s : State} (h : Kept a s) (slot : Nat) :
    Kept a (State.exportComplete s slot) := by
  unfold State.exportComplete
  repeat' first
    | (with_reducible first
        | assumption | refine Kept.ite ?_ ?_ | apply State.setNts_kept | apply State.ntsExchange_kept)
    | split

theorem execExportComplete_kept {a s : State} (h : Kept a s) (slot : Fin 64) {kt : State} (ke : execExportComplete slot s = .next kt) :
    Kept a kt := by
  unfold execExportComplete at ke
  refine Kept.of_done ke ?_
  repeat' (with_reducible first | assumption | refine Kept.ite ?_ ?_ | apply State.exportComplete_kept)

theorem State.startExport_kept {a s : State} (h : Kept a s) (slot : Nat) (sd : NtsD) (d : Nat) (c : Nat) (cells : List (Nat × List Byte)) :
    Kept a (State.startExport s slot sd d c cells) := by
  unfold State.startExport
  repeat' first
    | (with_reducible first
        | assumption | refine Kept.ite ?_ ?_ | apply State.setNts_kept | apply State.writeRegion_kept
        | apply State.exportComplete_kept)

theorem State.exportPoison_kept {a s : State} (h : Kept a s) (slot : Nat) (sd : NtsD) (d : Nat) (c : Nat) :
    Kept a (State.exportPoison s slot sd d c) := by
  unfold State.exportPoison
  repeat' first
    | (with_reducible first | assumption | refine Kept.ite ?_ ?_)
    | (lift_lets; intro kx; refine Kept.step (a := a) (x := kx) ?_ fun hkx => ?_)
    | (lift_lets; intro kx)
    | (simp only [Kept.mk_iff]; with_reducible refine KeptF.of ?_ (Nat.le_refl _))
    | (simp only [Kept.mk_iff]; with_reducible refine KeptF.of ?_ (Nat.le_succ _))
    | (with_reducible first | apply State.bump_kept | apply State.emit_kept | apply State.stopStep_kept)
    | (simp only [kx, Kept.mk_iff]; with_reducible refine KeptF.of ?_ (Nat.le_refl _))
    | (with_reducible first
        | refine Kept.foldl ?_ fun kb ky hkb => ?_ | refine Kept.foldl_snd ?_ fun kb ky hkb => ?_
        | refine Kept.foldl_fst ?_ fun kb ky hkb => ?_)
    | split
    | (with_reducible first
        | refine Kept.of_snd (by assumption) ?_ | refine Kept.of_fst (by assumption) ?_
        | refine Kept.of_third (by assumption) ?_)
    | dsimp only
    | unfold kx

theorem State.exportJob_kept {a s : State} (h : Kept a s) (d : Nat) (c : Nat) (ecc : List MemError) (fault : Option PressFault) :
    Kept a (State.exportJob s d c ecc fault) := by
  unfold State.exportJob
  repeat' first
    | (with_reducible first
        | assumption | first | refine fun kz kb hkz => ?_ | refine fun kz hkz => ?_ | refine Kept.ite ?_ ?_)
    | (lift_lets; intro kx; refine Kept.step (a := a) (x := kx) ?_ fun hkx => ?_)
    | (lift_lets; intro kx)
    | (simp only [Kept.mk_iff]; with_reducible refine KeptF.of ?_ (Nat.le_refl _))
    | (simp only [Kept.mk_iff]; with_reducible refine KeptF.of ?_ (Nat.le_succ _))
    | (with_reducible first
        | apply State.bump_kept | apply State.tickFree_kept | apply State.startJob_kept | apply State.sendGroup_kept
        | apply State.runPress_kept | apply State.meetExport_kept | apply State.startExport_kept
        | apply State.exportPoison_kept)
    | (simp only [kx, Kept.mk_iff]; with_reducible refine KeptF.of ?_ (Nat.le_refl _))
    | (with_reducible first
        | refine Kept.foldl ?_ fun kb ky hkb => ?_ | refine Kept.foldl_snd ?_ fun kb ky hkb => ?_
        | refine Kept.foldl_fst ?_ fun kb ky hkb => ?_)
    | split
    | (with_reducible first
        | refine Kept.of_snd (by assumption) ?_ | refine Kept.of_fst (by assumption) ?_
        | refine Kept.of_third (by assumption) ?_)
    | dsimp only
    | unfold kx
    | exact hkz
    | exact Nat.le_refl _
    | exact Nat.le_succ _

theorem execExportJob_kept {a s : State} (h : Kept a s) (site : PressSite) (events : PressEvents) {kt : State} (ke : execExportJob site events s = .next kt) :
    Kept a kt := by
  unfold execExportJob at ke
  refine Kept.of_done ke ?_
  repeat' first
    | (with_reducible first | assumption | refine Kept.ite ?_ ?_)
    | (lift_lets; intro kx; refine Kept.step (a := a) (x := kx) ?_ fun hkx => ?_)
    | (lift_lets; intro kx)
    | (simp only [Kept.mk_iff]; with_reducible refine KeptF.of ?_ (Nat.le_refl _))
    | (simp only [Kept.mk_iff]; with_reducible refine KeptF.of ?_ (Nat.le_succ _))
    | with_reducible apply State.exportJob_kept
    | (simp only [kx, Kept.mk_iff]; with_reducible refine KeptF.of ?_ (Nat.le_refl _))
    | (with_reducible first
        | refine Kept.foldl ?_ fun kb ky hkb => ?_ | refine Kept.foldl_snd ?_ fun kb ky hkb => ?_
        | refine Kept.foldl_fst ?_ fun kb ky hkb => ?_)
    | split
    | (with_reducible first
        | refine Kept.of_snd (by assumption) ?_ | refine Kept.of_fst (by assumption) ?_
        | refine Kept.of_third (by assumption) ?_)
    | dsimp only
    | unfold kx

theorem State.exportRegionWritable_kept {a s : State} (h : Kept a s) (slot : Nat) :
    Kept a (State.exportRegionWritable s slot) := by
  unfold State.exportRegionWritable
  repeat' first
    | (with_reducible first | assumption | refine Kept.ite ?_ ?_ | apply State.writeRegion_kept)
    | split

theorem execExportRegionWritable_kept {a s : State} (h : Kept a s) (slot : Fin 64) {kt : State} (ke : execExportRegionWritable slot s = .next kt) :
    Kept a kt := by
  unfold execExportRegionWritable at ke
  refine Kept.of_done ke ?_
  repeat' (with_reducible first | assumption | refine Kept.ite ?_ ?_ | apply State.exportRegionWritable_kept)

theorem State.ntsRequest_kept {a s : State} (h : Kept a s) (v : Word) :
    Kept a (State.ntsRequest s v) := by
  unfold State.ntsRequest
  repeat' first
    | (with_reducible first
        | assumption | refine Kept.ite ?_ ?_ | apply State.setFld_kept | apply State.ntsExchange_kept)

theorem execNtsSwitch_kept {a s : State} (h : Kept a s) (value : Word) {kt : State} (ke : execNtsSwitch value s = .next kt) :
    Kept a kt := by
  unfold execNtsSwitch at ke
  refine Kept.of_done ke ?_
  repeat' first
    | with_reducible assumption
    | (lift_lets; intro kx)
    | (with_reducible first | apply State.onReady_kept | apply State.ntsRequest_kept)

theorem execNtsRevert_kept {a s : State} (h : Kept a s) (value : Word) {kt : State} (ke : execNtsRevert value s = .next kt) :
    Kept a kt := by
  unfold execNtsRevert at ke
  refine Kept.of_done ke ?_
  repeat' first
    | with_reducible assumption
    | (lift_lets; intro kx)
    | (with_reducible first | apply State.onReady_kept | apply State.ntsRequest_kept)

end Sys2Proof.Machine
end

