-- ==== Sys2Proof/Laws/KeptLoad.lean ====
section
/-! SUPPORT. What the operations of Machine/Load.lean keep (`Kept`). -/

set_option linter.unusedSimpArgs false

namespace Sys2Proof.Machine

theorem State.setLoadCtrl_kept {a s : State} (h : Kept a s) (n : Nat) :
    Kept a (State.setLoadCtrl s n) := by
  unfold State.setLoadCtrl
  repeat' (with_reducible first | assumption | refine Kept.ite ?_ ?_ | apply State.setReg_kept)

theorem State.setJob_kept {a s : State} (h : Kept a s) (j : Option LoadJob) :
    Kept a (State.setJob s j) := by
  unfold State.setJob
  repeat' first
    | with_reducible assumption
    | (simp only [Kept.mk_iff]; with_reducible refine KeptF.of ?_ (Nat.le_refl _))

theorem State.endLoad_kept {a s : State} (h : Kept a s) (e : LoadErr) :
    Kept a (State.endLoad s e) := by
  unfold State.endLoad
  repeat' first
    | (with_reducible first
        | assumption | refine Kept.ite ?_ ?_ | apply State.setJob_kept | apply State.setBusy_kept
        | apply State.setLoadCode_kept)

theorem State.setImage_kept {a s : State} (h : Kept a s) (im : Option Image) :
    Kept a (State.setImage s im) := by
  unfold State.setImage
  repeat' first
    | (with_reducible first | assumption | refine Kept.ite ?_ ?_)
    | (lift_lets; intro kx; refine Kept.step (a := a) (x := kx) ?_ fun hkx => ?_)
    | (lift_lets; intro kx)
    | (simp only [Kept.mk_iff]; with_reducible refine KeptF.of ?_ (Nat.le_refl _))
    | (simp only [Kept.mk_iff]; with_reducible refine KeptF.of ?_ (Nat.le_succ _))
    | (with_reducible first | apply State.setReg_kept | apply State.setFld_kept)
    | (simp only [kx, Kept.mk_iff]; with_reducible refine KeptF.of ?_ (Nat.le_refl _))
    | (with_reducible first
        | refine Kept.foldl ?_ fun kb ky hkb => ?_ | refine Kept.foldl_snd ?_ fun kb ky hkb => ?_
        | refine Kept.foldl_fst ?_ fun kb ky hkb => ?_)
    | split
    | (with_reducible first
        | refine Kept.of_snd (by assumption) ?_ | refine Kept.of_fst (by assumption) ?_
        | refine Kept.of_third (by assumption) ?_)
    | dsimp only
    | unfold kx

theorem State.setBuffer_kept {a s : State} (h : Kept a s) (b : Option (Nat × Nat)) :
    Kept a (State.setBuffer s b) := by
  unfold State.setBuffer
  repeat' first
    | with_reducible assumption
    | (simp only [Kept.mk_iff]; with_reducible refine KeptF.of ?_ (Nat.le_refl _))

theorem State.haltSlices_kept {a s : State} (h : Kept a s) :
    Kept a (State.haltSlices s) := by
  unfold State.haltSlices
  repeat' first
    | with_reducible assumption
    | (simp only [Kept.mk_iff]; with_reducible refine KeptF.of ?_ (Nat.le_refl _))
    | (with_reducible first | apply State.failEvaluation_kept | refine Kept.foldl ?_ fun kb ky hkb => ?_)
    | split

theorem State.switchModel_kept {a s : State} (h : Kept a s) (m : HubModel) :
    Kept a (State.switchModel s m) := by
  unfold State.switchModel
  repeat' first
    | with_reducible assumption
    | (simp only [Kept.mk_iff]; with_reducible refine KeptF.of ?_ (Nat.le_refl _))

theorem State.stopSlices_kept {a s : State} (h : Kept a s) :
    Kept a (State.stopSlices s) := by
  unfold State.stopSlices
  repeat' first
    | (with_reducible first
        | assumption | refine Kept.ite ?_ ?_ | apply State.switchModel_kept | apply State.haltSlices_kept)

theorem State.clearJob_kept {a s : State} (h : Kept a s) :
    Kept a (State.clearJob s) := by
  unfold State.clearJob
  repeat' first
    | with_reducible assumption
    | (simp only [Kept.mk_iff]; with_reducible refine KeptF.of ?_ (Nat.le_refl _))
    | (simp only [kx, Kept.mk_iff]; with_reducible refine KeptF.of ?_ (Nat.le_refl _))

theorem State.unload_kept {a s : State} (h : Kept a s) :
    Kept a (State.unload s) := by
  unfold State.unload
  repeat' first
    | (with_reducible first
        | assumption | refine Kept.ite ?_ ?_ | apply State.setImage_kept | apply State.setLoadState_kept
        | apply State.setRun_kept | apply State.setBuffer_kept | apply State.stopSlices_kept
        | apply State.clearJob_kept)

theorem State.loadRequest_kept {a s : State} (h : Kept a s) (op : LoadOp) (v : Word) :
    Kept a (State.loadRequest s op v) := by
  unfold State.loadRequest
  repeat' first
    | (with_reducible first | assumption | refine Kept.ite ?_ ?_)
    | (lift_lets; intro kx)
    | (with_reducible first
        | apply State.onReady_kept | apply State.setLoadState_kept | apply State.setLoadCode_kept
        | apply State.setBusy_kept | apply State.setLoadCtrl_kept | apply State.setJob_kept | apply State.unload_kept)

theorem execLoadFull_kept {a s : State} (h : Kept a s) (value : Word) {kt : State} (ke : execLoadFull value s = .next kt) :
    Kept a kt := by
  unfold execLoadFull at ke
  refine Kept.of_done ke ?_
  repeat' first
    | with_reducible assumption
    | (lift_lets; intro kx)
    | (with_reducible first | apply State.loadRequest_kept | apply State.onSteward_kept)

theorem execLoadPartial_kept {a s : State} (h : Kept a s) (value : Word) {kt : State} (ke : execLoadPartial value s = .next kt) :
    Kept a kt := by
  unfold execLoadPartial at ke
  refine Kept.of_done ke ?_
  repeat' first
    | with_reducible assumption
    | (lift_lets; intro kx)
    | (with_reducible first | apply State.loadRequest_kept | apply State.onSteward_kept)

theorem execLoadCheck_kept {a s : State} (h : Kept a s) (value : Word) {kt : State} (ke : execLoadCheck value s = .next kt) :
    Kept a kt := by
  unfold execLoadCheck at ke
  refine Kept.of_done ke ?_
  repeat' first
    | with_reducible assumption
    | (lift_lets; intro kx)
    | (with_reducible first | apply State.loadRequest_kept | apply State.onSteward_kept)

theorem execLoadUnload_kept {a s : State} (h : Kept a s) (value : Word) {kt : State} (ke : execLoadUnload value s = .next kt) :
    Kept a kt := by
  unfold execLoadUnload at ke
  refine Kept.of_done ke ?_
  repeat' first
    | with_reducible assumption
    | (lift_lets; intro kx)
    | (with_reducible first | apply State.loadRequest_kept | apply State.onSteward_kept)

theorem State.passFull_kept {a s : State} (h : Kept a s) (j : LoadJob) (im : Image) :
    Kept a (State.passFull s j im) := by
  unfold State.passFull
  repeat' first
    | (with_reducible first
        | assumption | apply State.setLoadCode_kept | apply State.setFld_kept | apply State.setJob_kept
        | refine Kept.foldl ?_ fun kb ky hkb => ?_)

theorem State.passPartial_kept {a s : State} (h : Kept a s) (j : LoadJob) (im : Image) :
    Kept a (State.passPartial s j im) := by
  unfold State.passPartial
  repeat' first
    | (with_reducible first | assumption | refine Kept.ite ?_ ?_)
    | (simp only [Kept.mk_iff]; with_reducible refine KeptF.of ?_ (Nat.le_refl _))
    | (with_reducible first | apply State.setJob_kept | apply State.setLoadCode_kept | apply State.setFld_kept)

theorem State.loadCheckDone_kept {a s : State} (h : Kept a s) :
    Kept a (State.loadCheckDone s) := by
  unfold State.loadCheckDone
  repeat' first
    | (with_reducible first
        | assumption | apply State.passFull_kept | apply State.endLoad_kept | apply State.setLoadState_kept
        | apply State.passPartial_kept)
    | split

theorem execLoadCheckDone_kept {a s : State} (h : Kept a s) {kt : State} (ke : execLoadCheckDone s = .next kt) :
    Kept a kt := by
  unfold execLoadCheckDone at ke
  refine Kept.of_done ke ?_
  repeat' first
    | (with_reducible first
        | assumption | refine Kept.ite ?_ ?_ | apply State.loadCheckDone_kept | apply State.onSteward_kept)

theorem State.recordEpoch_kept {a s : State} (h : Kept a s) (e : Nat) (us : List Nat) :
    Kept a (State.recordEpoch s e us) := by
  unfold State.recordEpoch
  repeat' first
    | with_reducible assumption
    | (simp only [Kept.mk_iff]; with_reducible refine KeptF.of ?_ (Nat.le_refl _))

theorem State.recordAll_kept {a s : State} (h : Kept a s) (e : Nat) (im : Image) :
    Kept a (State.recordAll s e im) := by
  unfold State.recordAll
  repeat' first
    | with_reducible assumption
    | (simp only [Kept.mk_iff]; with_reducible refine KeptF.of ?_ (Nat.le_refl _))

theorem State.reloadEpoch_kept {a s : State} (h : Kept a s) (j : LoadJob) :
    Kept a (State.reloadEpoch s j).2 := by
  unfold State.reloadEpoch
  repeat' first
    | (with_reducible first | assumption | apply State.setJob_kept | apply State.setFld_kept)
    | split

theorem State.scrubRange_kept {a s : State} (h : Kept a s) (x n : Nat) : Kept a (s.scrubRange x n) :=
  h.trans ⟨rfl, fun k => Tab.canon_filter k _, id, id, id, id, rfl, rfl, rfl, Nat.le_refl _, Nat.le_refl _⟩

theorem State.scrubImage_kept {a s : State} (h : Kept a s) (im : Image) :
    Kept a (State.scrubImage s im) := by
  unfold State.scrubImage
  repeat' (with_reducible first | assumption | apply State.scrubRange_kept | refine Kept.foldl ?_ fun kb ky hkb => ?_)

theorem State.copyInit_kept {a s : State} (h : Kept a s) (xs : List Section) :
    Kept a (State.copyInit s xs) := by
  unfold State.copyInit
  repeat' (with_reducible first | assumption | apply State.write_kept | refine Kept.foldl ?_ fun kb ky hkb => ?_)

theorem State.loadFaultEnd_kept {a s : State} (h : Kept a s) (op : LoadOp) :
    Kept a (State.loadFaultEnd s op) := by
  unfold State.loadFaultEnd
  repeat' first
    | (with_reducible first
        | assumption | refine Kept.ite ?_ ?_ | apply State.setRun_kept | apply State.setFld_kept
        | apply State.free_kept | apply State.setLoadState_kept | apply State.emit_kept | apply State.endLoad_kept
        | apply State.setImage_kept | apply State.setBuffer_kept | apply State.stopSlices_kept
        | apply State.clearJob_kept)

theorem State.loadDistribute_kept {a s : State} (h : Kept a s) (hwFault : Bool) :
    Kept a (State.loadDistribute s hwFault) := by
  unfold State.loadDistribute
  repeat' first
    | (with_reducible first
        | assumption | apply State.haltSlices_kept | apply State.setJob_kept | apply State.setLoadState_kept
        | apply State.loadFaultEnd_kept)
    | split

theorem execLoadDistribute_kept {a s : State} (h : Kept a s) (hwFault : Bool) {kt : State} (ke : execLoadDistribute hwFault s = .next kt) :
    Kept a kt := by
  unfold execLoadDistribute at ke
  refine Kept.of_done ke ?_
  repeat' first
    | with_reducible assumption
    | (lift_lets; intro kx)
    | (with_reducible first | apply State.loadDistribute_kept | apply State.onSteward_kept)

theorem State.installFull_kept {a s : State} (h : Kept a s) (im : Image) :
    Kept a (State.installFull s im) := by
  unfold State.installFull
  repeat' first
    | (with_reducible first
        | assumption | apply State.setRun_kept | apply State.setFld_kept | apply State.setReg_kept
        | apply State.setLoadState_kept | apply State.setImage_kept | apply State.setBuffer_kept
        | apply State.switchModel_kept | apply State.clearJob_kept | apply State.recordAll_kept
        | apply State.scrubImage_kept | apply State.copyInit_kept | refine Kept.foldl ?_ fun kb ky hkb => ?_)

theorem State.loadDistributionDone_kept {a s : State} (h : Kept a s) (hwFault : Bool) :
    Kept a (State.loadDistributionDone s hwFault) := by
  unfold State.loadDistributionDone
  repeat' first
    | (with_reducible first
        | assumption | apply State.installFull_kept | apply State.loadFaultEnd_kept | apply State.endLoad_kept)
    | split

theorem execLoadDistributionDone_kept {a s : State} (h : Kept a s) (hwFault : Bool) {kt : State} (ke : execLoadDistributionDone hwFault s = .next kt) :
    Kept a kt := by
  unfold execLoadDistributionDone at ke
  refine Kept.of_done ke ?_
  repeat' first
    | with_reducible assumption
    | (lift_lets; intro kx)
    | (with_reducible first | apply State.loadDistributionDone_kept | apply State.onSteward_kept)

theorem State.finishReload_kept {a s : State} (h : Kept a s) (j : LoadJob) :
    Kept a (State.finishReload s j) := by
  unfold State.finishReload
  repeat' first
    | (with_reducible first
        | assumption | apply State.setImage_kept | apply State.setJob_kept | apply State.setBusy_kept
        | apply State.setBuffer_kept)
    | split

theorem State.hubModelSwap_kept {a s : State} (h : Kept a s) :
    Kept a (State.hubModelSwap s) := by
  unfold State.hubModelSwap
  repeat' first
    | with_reducible assumption
    | (simp only [Kept.mk_iff]; with_reducible refine KeptF.of ?_ (Nat.le_refl _))
    | (with_reducible first
        | apply State.reloadEpoch_kept | apply State.recordEpoch_kept | apply State.switchModel_kept
        | apply State.finishReload_kept)
    | split

theorem execHubModelSwap_kept {a s : State} (h : Kept a s) {kt : State} (ke : execHubModelSwap s = .next kt) :
    Kept a kt := by
  unfold execHubModelSwap at ke
  refine Kept.of_done ke ?_
  repeat' first
    | (with_reducible first | assumption | refine Kept.ite ?_ ?_)
    | (lift_lets; intro kx; refine Kept.step (a := a) (x := kx) ?_ fun hkx => ?_)
    | (lift_lets; intro kx)
    | (simp only [Kept.mk_iff]; with_reducible refine KeptF.of ?_ (Nat.le_refl _))
    | (simp only [Kept.mk_iff]; with_reducible refine KeptF.of ?_ (Nat.le_succ _))
    | (with_reducible first | apply State.onSteward_kept | apply State.hubModelSwap_kept)
    | (simp only [kx, Kept.mk_iff]; with_reducible refine KeptF.of ?_ (Nat.le_refl _))
    | (with_reducible first
        | refine Kept.foldl ?_ fun kb ky hkb => ?_ | refine Kept.foldl_snd ?_ fun kb ky hkb => ?_
        | refine Kept.foldl_fst ?_ fun kb ky hkb => ?_)
    | split
    | (with_reducible first
        | refine Kept.of_snd (by assumption) ?_ | refine Kept.of_fst (by assumption) ?_
        | refine Kept.of_third (by assumption) ?_)
    | dsimp only
    | unfold kx

theorem State.unpip_kept {a s : State} (h : Kept a s) (f : Nat → Bool) :
    Kept a (State.unpip s f) := by
  unfold State.unpip
  repeat' first
    | with_reducible assumption
    | (simp only [Kept.mk_iff]; with_reducible refine KeptF.of ?_ (Nat.le_refl _))

theorem State.dropPips_kept {a s : State} (h : Kept a s) (aa : Nat) (n : Nat) :
    Kept a (State.dropPips s aa n) := by
  unfold State.dropPips
  repeat' first
    | (with_reducible first | assumption | refine Kept.ite ?_ ?_ | apply State.unpip_kept)
    | exact hkz

theorem State.applyReload_kept {a s : State} (h : Kept a s) (j : LoadJob) (im : Image) (old : Image) :
    Kept a (State.applyReload s j im old) := by
  unfold State.applyReload
  repeat' first
    | (with_reducible first | assumption | refine Kept.ite ?_ ?_)
    | (simp only [Kept.mk_iff]; with_reducible refine KeptF.of ?_ (Nat.le_refl _))
    | (with_reducible first
        | apply State.reloadEpoch_kept | apply State.recordEpoch_kept | apply State.setFld_kept
        | apply State.copyInit_kept | apply State.finishReload_kept | apply State.dropPips_kept
        | refine Kept.foldl ?_ fun kb ky hkb => ?_)

theorem State.recordReload_kept {a s : State} (h : Kept a s) (im : Image) (e : Nat) (u : Nat) :
    Kept a (State.recordReload s im e u) := by
  unfold State.recordReload
  repeat' first
    | (with_reducible first | assumption | refine Kept.ite ?_ ?_)
    | (lift_lets; intro kx; refine Kept.step (a := a) (x := kx) ?_ fun hkx => ?_)
    | (lift_lets; intro kx)
    | (simp only [Kept.mk_iff]; with_reducible refine KeptF.of ?_ (Nat.le_refl _))
    | (simp only [Kept.mk_iff]; with_reducible refine KeptF.of ?_ (Nat.le_succ _))
    | with_reducible apply State.recordEpoch_kept
    | (simp only [kx, Kept.mk_iff]; with_reducible refine KeptF.of ?_ (Nat.le_refl _))
    | (with_reducible first
        | refine Kept.foldl ?_ fun kb ky hkb => ?_ | refine Kept.foldl_snd ?_ fun kb ky hkb => ?_
        | refine Kept.foldl_fst ?_ fun kb ky hkb => ?_)
    | split
    | (with_reducible first
        | refine Kept.of_snd (by assumption) ?_ | refine Kept.of_fst (by assumption) ?_
        | refine Kept.of_third (by assumption) ?_)
    | dsimp only
    | unfold kx

theorem State.recoveryReload_kept {a s : State} (h : Kept a s) (us : List Nat) :
    Kept a (State.recoveryReload s us).2 := by
  unfold State.recoveryReload
  repeat' first
    | (with_reducible first | assumption | refine Kept.ite ?_ ?_)
    | (lift_lets; intro kx; refine Kept.step (a := a) (x := kx) ?_ fun hkx => ?_)
    | (lift_lets; intro kx)
    | (simp only [Kept.mk_iff]; with_reducible refine KeptF.of ?_ (Nat.le_refl _))
    | (simp only [Kept.mk_iff]; with_reducible refine KeptF.of ?_ (Nat.le_succ _))
    | (with_reducible first | apply State.setFld_kept | apply State.recordReload_kept)
    | (simp only [kx, Kept.mk_iff]; with_reducible refine KeptF.of ?_ (Nat.le_refl _))
    | (with_reducible first
        | refine Kept.foldl ?_ fun kb ky hkb => ?_ | refine Kept.foldl_snd ?_ fun kb ky hkb => ?_
        | refine Kept.foldl_fst ?_ fun kb ky hkb => ?_)
    | split
    | (with_reducible first
        | refine Kept.of_snd (by assumption) ?_ | refine Kept.of_fst (by assumption) ?_
        | refine Kept.of_third (by assumption) ?_)
    | dsimp only
    | unfold kx

end Sys2Proof.Machine
end

