-- ==== Sys2Proof/Laws/KeptSnapshot.lean ====
section
/-! SUPPORT. What the operations of Machine/Snapshot.lean keep (`Kept`). -/

set_option linter.unusedSimpArgs false

namespace Sys2Proof.Machine

theorem State.setSnap_kept {a s : State} (h : Kept a s) (j : Option SnapJob) :
    Kept a (State.setSnap s j) := by
  unfold State.setSnap
  repeat' first
    | with_reducible assumption
    | (simp only [Kept.mk_iff]; with_reducible refine KeptF.of ?_ (Nat.le_refl _))

theorem State.snapCode_kept {a s : State} (h : Kept a s) (code : Nat) (entry : Nat) :
    Kept a (State.snapCode s code entry) := by
  unfold State.snapCode
  repeat' first
    | (with_reducible first
        | assumption | refine Kept.ite ?_ ?_ | apply State.setFld_kept | apply State.raiseIrq_kept)

theorem State.beginSave_kept {a s : State} (h : Kept a s) (j : SnapJob) :
    Kept a (State.beginSave s j) := by
  unfold State.beginSave
  repeat' first
    | (with_reducible first | assumption | refine Kept.ite ?_ ?_)
    | (lift_lets; intro kx; refine Kept.step (a := a) (x := kx) ?_ fun hkx => ?_)
    | (lift_lets; intro kx)
    | (simp only [Kept.mk_iff]; with_reducible refine KeptF.of ?_ (Nat.le_refl _))
    | (simp only [Kept.mk_iff]; with_reducible refine KeptF.of ?_ (Nat.le_succ _))
    | (with_reducible first
        | apply State.setFld_kept | apply State.setBusy_kept | apply State.guardedWrite_kept
        | apply State.setSnap_kept)
    | (simp only [kx, Kept.mk_iff]; with_reducible refine KeptF.of ?_ (Nat.le_refl _))
    | (with_reducible first
        | refine Kept.foldl ?_ fun kb ky hkb => ?_ | refine Kept.foldl_snd ?_ fun kb ky hkb => ?_
        | refine Kept.foldl_fst ?_ fun kb ky hkb => ?_)
    | split
    | (with_reducible first
        | refine Kept.of_snd (by assumption) ?_ | refine Kept.of_fst (by assumption) ?_
        | refine Kept.of_third (by assumption) ?_)
    | dsimp only
    | unfold kx
    | exact hkz

theorem State.copyReads_kept {a s : State} (h : Kept a s) (src : List (Nat × Nat)) (es : List MemError) :
    Kept a (State.copyReads s src es) := by
  unfold State.copyReads
  repeat' first
    | (with_reducible first
        | assumption | refine Kept.ite ?_ ?_ | apply State.stopStep_kept | apply State.meetReads_kept)

theorem State.snapSave_kept {a s : State} (h : Kept a s) (v : Nat) :
    Kept a (State.snapSave s v) := by
  unfold State.snapSave
  repeat' first
    | (with_reducible first
        | assumption | refine Kept.ite ?_ ?_ | apply State.setFld_kept | apply State.setSnap_kept
        | apply State.snapCode_kept | apply State.beginSave_kept)

theorem State.beginSnap_kept {a s : State} (h : Kept a s) (j : SnapJob) :
    Kept a (State.beginSnap s j) := by
  unfold State.beginSnap
  repeat' first
    | (with_reducible first
        | assumption | refine Kept.ite ?_ ?_ | apply State.setFld_kept | apply State.setBusy_kept
        | apply State.setSnap_kept)

theorem State.snapRequest_kept {a s : State} (h : Kept a s) (op : Nat) (v : Nat) :
    Kept a (State.snapRequest s op v) := by
  unfold State.snapRequest
  repeat' first
    | (with_reducible first
        | assumption | refine Kept.ite ?_ ?_ | apply State.snapCode_kept | apply State.snapSave_kept
        | apply State.beginSnap_kept)
    | split

theorem execSnapshotSave_kept {a s : State} (h : Kept a s) (value : Word) {kt : State} (ke : execSnapshotSave value s = .next kt) :
    Kept a kt := by
  unfold execSnapshotSave at ke
  refine Kept.of_done ke ?_
  repeat' first
    | with_reducible assumption
    | (lift_lets; intro kx)
    | (with_reducible first | apply State.onReady_kept | apply State.onSteward_kept | apply State.snapRequest_kept)

theorem execSnapshotRestore_kept {a s : State} (h : Kept a s) (value : Word) {kt : State} (ke : execSnapshotRestore value s = .next kt) :
    Kept a kt := by
  unfold execSnapshotRestore at ke
  refine Kept.of_done ke ?_
  repeat' first
    | with_reducible assumption
    | (lift_lets; intro kx)
    | (with_reducible first | apply State.onReady_kept | apply State.onSteward_kept | apply State.snapRequest_kept)

theorem execSnapshotCheck_kept {a s : State} (h : Kept a s) (value : Word) {kt : State} (ke : execSnapshotCheck value s = .next kt) :
    Kept a kt := by
  unfold execSnapshotCheck at ke
  refine Kept.of_done ke ?_
  repeat' first
    | with_reducible assumption
    | (lift_lets; intro kx)
    | (with_reducible first | apply State.onReady_kept | apply State.onSteward_kept | apply State.snapRequest_kept)

theorem State.setStep_kept {a s : State} (h : Kept a s) (k : Nat) :
    Kept a (State.setStep s k) := by
  unfold State.setStep
  repeat' (with_reducible first | assumption | refine Kept.ite ?_ ?_ | apply State.setReg_kept)

theorem State.dropTables_kept {a s : State} (h : Kept a s) :
    Kept a (State.dropTables s) := by
  unfold State.dropTables
  repeat' first
    | with_reducible assumption
    | (simp only [Kept.mk_iff]; with_reducible refine KeptF.of ?_ (Nat.le_refl _))

theorem State.restoreBytes_kept {a s : State} (h : Kept a s) (aa : Nat) :
    Kept a (State.restoreBytes s aa) := by
  unfold State.restoreBytes
  repeat' first
    | (with_reducible first | assumption | refine Kept.ite ?_ ?_)
    | (lift_lets; intro kx; refine Kept.step (a := a) (x := kx) ?_ fun hkx => ?_)
    | (lift_lets; intro kx)
    | (simp only [Kept.mk_iff]; with_reducible refine KeptF.of ?_ (Nat.le_refl _))
    | (simp only [Kept.mk_iff]; with_reducible refine KeptF.of ?_ (Nat.le_succ _))
    | (with_reducible first | apply State.write_kept | apply State.clearBank_kept)
    | (simp only [kx, Kept.mk_iff]; with_reducible refine KeptF.of ?_ (Nat.le_refl _))
    | (with_reducible first
        | refine Kept.foldl ?_ fun kb ky hkb => ?_ | refine Kept.foldl_snd ?_ fun kb ky hkb => ?_
        | refine Kept.foldl_fst ?_ fun kb ky hkb => ?_)
    | split
    | (with_reducible first
        | refine Kept.of_snd (by assumption) ?_ | refine Kept.of_fst (by assumption) ?_
        | refine Kept.of_third (by assumption) ?_)
    | dsimp only
    | unfold kx

theorem State.restoreRun_kept {a s : State} (h : Kept a s) (banks : Tab Bank) (step : Nat) :
    Kept a (State.restoreRun s banks step) := by
  unfold State.restoreRun
  repeat' first
    | (with_reducible first | assumption | refine Kept.ite ?_ ?_)
    | (lift_lets; intro kx; refine Kept.step (a := a) (x := kx) ?_ fun hkx => ?_)
    | (lift_lets; intro kx)
    | (simp only [Kept.mk_iff]; with_reducible refine KeptF.of ?_ (Nat.le_refl _))
    | (simp only [Kept.mk_iff]; with_reducible refine KeptF.of ?_ (Nat.le_succ _))
    | (with_reducible first
        | apply State.setFld_kept | apply State.setRun_kept | apply State.seamLive_kept | apply State.unpip_kept
        | apply State.setStep_kept | apply State.dropTables_kept)
    | (simp only [kx, Kept.mk_iff]; with_reducible refine KeptF.of ?_ (Nat.le_refl _))
    | (with_reducible first
        | refine Kept.foldl ?_ fun kb ky hkb => ?_ | refine Kept.foldl_snd ?_ fun kb ky hkb => ?_
        | refine Kept.foldl_fst ?_ fun kb ky hkb => ?_)
    | split
    | (with_reducible first
        | refine Kept.of_snd (by assumption) ?_ | refine Kept.of_fst (by assumption) ?_
        | refine Kept.of_third (by assumption) ?_)
    | dsimp only
    | unfold kx

theorem State.restoreCopies_kept {a s : State} (h : Kept a s) (step : Nat) :
    Kept a (State.restoreCopies s step) := by
  unfold State.restoreCopies
  repeat' first
    | (with_reducible first | assumption | refine Kept.ite ?_ ?_)
    | (simp only [Kept.mk_iff]; with_reducible refine KeptF.of ?_ (Nat.le_refl _))
    | with_reducible apply State.setReg_kept

theorem State.restoreSnap_kept {a s : State} (h : Kept a s) (aa : Nat) :
    Kept a (State.restoreSnap s aa) := by
  unfold State.restoreSnap
  repeat' first
    | (with_reducible first
        | assumption | refine Kept.ite ?_ ?_ | apply State.bump_kept | apply State.restoreBytes_kept
        | apply State.restoreRun_kept | apply State.restoreCopies_kept)

theorem State.cutRestore_kept {a s : State} (h : Kept a s) (aa : Nat) :
    Kept a (State.cutRestore s aa) := by
  unfold State.cutRestore
  repeat' first
    | (with_reducible first
        | assumption | refine Kept.ite ?_ ?_ | apply State.writeFree_kept | apply State.setRun_kept
        | refine Kept.foldl ?_ fun kb ky hkb => ?_)

theorem State.endSnap_kept {a s : State} (h : Kept a s) (code : Nat) :
    Kept a (State.endSnap s code) := by
  unfold State.endSnap
  repeat' first
    | (with_reducible first
        | assumption | refine Kept.ite ?_ ?_ | apply State.setFld_kept | apply State.setBusy_kept
        | apply State.setSnap_kept | apply State.snapCode_kept)

end Sys2Proof.Machine
end

