-- ==== Sys2Proof/Laws/KeptTime.lean ====
section
/-! SUPPORT. What the operations of Machine/Time.lean keep (`Kept`). -/

set_option linter.unusedSimpArgs false

namespace Sys2Proof.Machine

theorem State.setMissed_kept {a s : State} (h : Kept a s) (i : Nat) :
    Kept a (State.setMissed s i) := by
  unfold State.setMissed
  repeat' first
    | (with_reducible first
        | assumption | refine Kept.ite ?_ ?_ | apply State.setFld_kept | apply State.raiseIrq_kept)

theorem State.setPulseNext_kept {a s : State} (h : Kept a s) (i : Nat) (e : Option Nat) :
    Kept a (State.setPulseNext s i e) := by
  unfold State.setPulseNext
  repeat' (with_reducible first | assumption | refine Kept.ite ?_ ?_ | apply State.setTime_kept)

theorem State.skipEdges_kept {a s : State} (h : Kept a s) (i : Nat) :
    Kept a (State.skipEdges s i) := by
  unfold State.skipEdges
  repeat' first
    | (with_reducible first | assumption | apply State.setMissed_kept | apply State.setPulseNext_kept)
    | split

theorem State.drivePulse_kept {a s : State} (h : Kept a s) (i : Nat) (high : Bool) :
    Kept a (State.drivePulse s i high) := by
  unfold State.drivePulse
  repeat' (with_reducible first | assumption | refine Kept.ite ?_ ?_ | apply State.setFld_kept | apply State.setTime_kept)

theorem State.armPulse_kept {a s : State} (h : Kept a s) (i : Nat) :
    Kept a (State.armPulse s i) := by
  unfold State.armPulse
  repeat' first
    | (with_reducible first
        | assumption | apply State.setTime_kept | apply State.setMissed_kept | apply State.setPulseNext_kept
        | apply State.drivePulse_kept)
    | split
    | dsimp only

theorem State.pulseEdge_kept {a s : State} (h : Kept a s) (i : Nat) :
    Kept a (State.pulseEdge s i) := by
  unfold State.pulseEdge
  repeat' first
    | (with_reducible first
        | assumption | apply State.setFld_kept | apply State.setTime_kept | apply State.setPulseNext_kept
        | apply State.drivePulse_kept)
    | split

theorem execPulseEdge_kept {a s : State} (h : Kept a s) (output : Fin 4) {kt : State} (ke : execPulseEdge output s = .next kt) :
    Kept a kt := by
  unfold execPulseEdge at ke
  refine Kept.of_done ke ?_
  repeat' (with_reducible first | assumption | refine Kept.ite ?_ ?_ | apply State.pulseEdge_kept)

theorem State.pulseEnd_kept {a s : State} (h : Kept a s) (i : Nat) :
    Kept a (State.pulseEnd s i) := by
  unfold State.pulseEnd
  repeat' first
    | (with_reducible first | assumption | apply State.setTime_kept | apply State.drivePulse_kept)
    | split

theorem execPulseEnd_kept {a s : State} (h : Kept a s) (output : Fin 4) {kt : State} (ke : execPulseEnd output s = .next kt) :
    Kept a kt := by
  unfold execPulseEnd at ke
  refine Kept.of_done ke ?_
  repeat' (with_reducible first | assumption | refine Kept.ite ?_ ?_ | apply State.pulseEnd_kept)

theorem State.setClock_kept {a s : State} (h : Kept a s) (sec : Nat) (ns : Nat) :
    Kept a (State.setClock s sec ns) := by
  unfold State.setClock
  repeat' first
    | with_reducible assumption
    | (simp only [Kept.mk_iff]; with_reducible refine KeptF.of ?_ (Nat.le_refl _))
    | (with_reducible first
        | apply State.setTime_kept | apply State.skipEdges_kept | refine Kept.foldl ?_ fun kb ky hkb => ?_)

theorem State.setClockNs_kept {a s : State} (h : Kept a s) (g : Nat) :
    Kept a (State.setClockNs s g) := by
  unfold State.setClockNs
  repeat' (with_reducible first | assumption | refine Kept.ite ?_ ?_ | apply State.setClock_kept)

theorem State.setTimeReq_kept {a s : State} (h : Kept a s) (r : Option TimeReq) :
    Kept a (State.setTimeReq s r) := by
  unfold State.setTimeReq
  repeat' (with_reducible first | assumption | refine Kept.ite ?_ ?_ | apply State.setTime_kept)

theorem State.timeStep_kept {a s : State} (h : Kept a s) (v : Word) :
    Kept a (State.timeStep s v) := by
  unfold State.timeStep
  repeat' (with_reducible first | assumption | refine Kept.ite ?_ ?_ | apply State.setTimeReq_kept)

theorem execTimeStep_kept {a s : State} (h : Kept a s) (value : Word) {kt : State} (ke : execTimeStep value s = .next kt) :
    Kept a kt := by
  unfold execTimeStep at ke
  refine Kept.of_done ke ?_
  repeat' first
    | with_reducible assumption
    | (lift_lets; intro kx)
    | (with_reducible first | apply State.onReady_kept | apply State.timeStep_kept)

theorem State.timeSet_kept {a s : State} (h : Kept a s) (v : Word) :
    Kept a (State.timeSet s v) := by
  unfold State.timeSet
  repeat' first
    | (with_reducible first
        | assumption | refine Kept.ite ?_ ?_ | apply State.setFld_kept | apply State.setTimeReq_kept)

theorem execTimeSet_kept {a s : State} (h : Kept a s) (value : Word) {kt : State} (ke : execTimeSet value s = .next kt) :
    Kept a kt := by
  unfold execTimeSet at ke
  refine Kept.of_done ke ?_
  repeat' first
    | with_reducible assumption
    | (lift_lets; intro kx)
    | (with_reducible first | apply State.onReady_kept | apply State.timeSet_kept)

theorem State.applyReq_kept {a s : State} (h : Kept a s) (r : TimeReq) :
    Kept a (State.applyReq s r) := by
  unfold State.applyReq
  repeat' first
    | (with_reducible first
        | assumption | refine Kept.ite ?_ ?_ | apply State.bump_kept | apply State.setFld_kept
        | apply State.setClock_kept | apply State.setClockNs_kept | apply State.setTimeReq_kept)
    | split

theorem State.timeAdjustApply_kept {a s : State} (h : Kept a s) :
    Kept a (State.timeAdjustApply s) := by
  unfold State.timeAdjustApply
  repeat' first
    | (with_reducible first | assumption | apply State.applyReq_kept)
    | split

theorem execTimeAdjustApply_kept {a s : State} (h : Kept a s) {kt : State} (ke : execTimeAdjustApply s = .next kt) :
    Kept a kt := by
  unfold execTimeAdjustApply at ke
  refine Kept.of_done ke ?_
  repeat' (with_reducible first | assumption | refine Kept.ite ?_ ?_ | apply State.timeAdjustApply_kept)

theorem State.todNsRead_kept {a s : State} (h : Kept a s) :
    Kept a (State.todNsRead s) := by
  unfold State.todNsRead
  repeat' (with_reducible first | assumption | refine Kept.ite ?_ ?_ | apply State.setFld_kept | apply State.respond_kept)

theorem execTodNsRead_kept {a s : State} (h : Kept a s) {kt : State} (ke : execTodNsRead s = .next kt) :
    Kept a kt := by
  unfold execTodNsRead at ke
  refine Kept.of_done ke ?_
  repeat' (with_reducible first | assumption | refine Kept.ite ?_ ?_ | apply State.todNsRead_kept)

theorem State.setRate_kept {a s : State} (h : Kept a s) (v : Nat) :
    Kept a (State.setRate s v) := by
  unfold State.setRate
  repeat' (with_reducible first | assumption | refine Kept.ite ?_ ?_ | apply State.setFld_kept)

theorem State.rateWrite_kept {a s : State} (h : Kept a s) (v : Word) :
    Kept a (State.rateWrite s v) := by
  unfold State.rateWrite
  repeat' (with_reducible first | assumption | refine Kept.ite ?_ ?_ | apply State.setRate_kept)

theorem execRateWrite_kept {a s : State} (h : Kept a s) (value : Word) {kt : State} (ke : execRateWrite value s = .next kt) :
    Kept a kt := by
  unfold execRateWrite at ke
  refine Kept.of_done ke ?_
  repeat' first
    | with_reducible assumption
    | (lift_lets; intro kx)
    | (with_reducible first | apply State.onReady_kept | apply State.rateWrite_kept)

theorem State.sourceChanged_kept {a s : State} (h : Kept a s) :
    Kept a (State.sourceChanged s) := by
  unfold State.sourceChanged
  repeat' first
    | (with_reducible first
        | assumption | refine Kept.ite ?_ ?_ | apply State.setFld_kept | apply State.setTime_kept
        | apply State.setServo_kept)

theorem execSourceFailed_kept {a s : State} (h : Kept a s) {kt : State} (ke : execSourceFailed s = .next kt) :
    Kept a kt := by
  unfold execSourceFailed at ke
  refine Kept.of_done ke ?_
  repeat' (with_reducible first | assumption | refine Kept.ite ?_ ?_ | apply State.failSource_kept)

theorem State.lockedError_kept {a s : State} (h : Kept a s) :
    Kept a (State.lockedError s) := by
  unfold State.lockedError
  repeat' (with_reducible first | assumption | refine Kept.ite ?_ ?_ | apply State.setFld_kept | apply State.setTime_kept)

theorem State.noteError_kept {a s : State} (h : Kept a s) (size : Nat) :
    Kept a (State.noteError s size) := by
  unfold State.noteError
  repeat' first
    | (with_reducible first
        | assumption | refine Kept.ite ?_ ?_ | apply State.free_kept | apply State.setFld_kept
        | apply State.setTime_kept | apply State.lockedError_kept)

theorem State.servoRate_kept {a s : State} (h : Kept a s) (r : ServoRate) :
    Kept a (State.servoRate s r) := by
  unfold State.servoRate
  repeat' first
    | (with_reducible first
        | assumption | refine Kept.ite ?_ ?_ | apply State.setTime_kept | apply State.setRate_kept)

theorem State.measure_kept {a s : State} (h : Kept a s) (off : Int) (r : ServoRate) :
    Kept a (State.measure s off r) := by
  unfold State.measure
  repeat' first
    | (with_reducible first
        | assumption | refine Kept.ite ?_ ?_ | apply State.bump_kept | apply State.setFld_kept
        | apply State.setTime_kept | apply State.setServo_kept | apply State.failSource_kept
        | apply State.setClockNs_kept | apply State.noteError_kept | apply State.servoRate_kept)
    | split

theorem State.ppsInputEdge_kept {a s : State} (h : Kept a s) (tenMHzOk : Bool) (r : ServoRate) :
    Kept a (State.ppsInputEdge s tenMHzOk r) := by
  unfold State.ppsInputEdge
  repeat' first
    | (with_reducible first
        | assumption | refine Kept.ite ?_ ?_ | apply State.setFld_kept | apply State.setTime_kept
        | apply State.failSource_kept | apply State.applyReq_kept | apply State.measure_kept)
    | split

theorem execPpsInputEdge_kept {a s : State} (h : Kept a s) (tenMHzOk : Bool) (rate : ServoRate) {kt : State} (ke : execPpsInputEdge tenMHzOk rate s = .next kt) :
    Kept a kt := by
  unfold execPpsInputEdge at ke
  refine Kept.of_done ke ?_
  repeat' (with_reducible first | assumption | refine Kept.ite ?_ ?_ | apply State.ppsInputEdge_kept)

theorem State.setObcTime_kept {a s : State} (h : Kept a s) (l : Nat) (o : ObcTime) :
    Kept a (State.setObcTime s l o) := by
  unfold State.setObcTime
  repeat' (with_reducible first | assumption | refine Kept.ite ?_ ?_ | apply State.setTime_kept)

theorem State.sendTimeFlit_kept {a s : State} (h : Kept a s) (l : Nat) :
    Kept a (State.sendTimeFlit s l) := by
  unfold State.sendTimeFlit
  repeat' first
    | (with_reducible first | assumption | refine Kept.ite ?_ ?_)
    | (lift_lets; intro kx; refine Kept.step (a := a) (x := kx) ?_ fun hkx => ?_)
    | (lift_lets; intro kx)
    | (simp only [Kept.mk_iff]; with_reducible refine KeptF.of ?_ (Nat.le_refl _))
    | (simp only [Kept.mk_iff]; with_reducible refine KeptF.of ?_ (Nat.le_succ _))
    | (with_reducible first | apply State.flitOut_kept | apply State.setObcTime_kept)
    | (simp only [kx, Kept.mk_iff]; with_reducible refine KeptF.of ?_ (Nat.le_refl _))
    | (with_reducible first
        | refine Kept.foldl ?_ fun kb ky hkb => ?_ | refine Kept.foldl_snd ?_ fun kb ky hkb => ?_
        | refine Kept.foldl_fst ?_ fun kb ky hkb => ?_)
    | split
    | (with_reducible first
        | refine Kept.of_snd (by assumption) ?_ | refine Kept.of_fst (by assumption) ?_
        | refine Kept.of_third (by assumption) ?_)
    | dsimp only
    | unfold kx

theorem State.takeTimeFlit_kept {a s : State} (h : Kept a s) (l : Nat) (locked : Bool) (x : TimeFlit) (r : ServoRate) :
    Kept a (State.takeTimeFlit s l locked x r) := by
  unfold State.takeTimeFlit
  repeat' first
    | (with_reducible first
        | assumption | refine Kept.ite ?_ ?_ | apply State.failSource_kept | apply State.measure_kept
        | apply State.setObcTime_kept)

theorem State.obcorTimeExchange_kept {a s : State} (h : Kept a s) (l : Nat) (replayed : Bool) (locked : Bool) (x : TimeFlit) (r : ServoRate) :
    Kept a (State.obcorTimeExchange s l replayed locked x r) := by
  unfold State.obcorTimeExchange
  repeat' first
    | (with_reducible first
        | assumption | refine Kept.ite ?_ ?_ | apply State.bump_kept | apply State.failSource_kept
        | apply State.sendTimeFlit_kept | apply State.takeTimeFlit_kept)

theorem execObcorTimeExchange_kept {a s : State} (h : Kept a s) (link : Fin 16) (replayed : Bool) (exchange : TimeExchange) (rate : ServoRate) {kt : State} (ke : execObcorTimeExchange link replayed exchange rate s = .next kt) :
    Kept a kt := by
  unfold execObcorTimeExchange at ke
  refine Kept.of_done ke ?_
  repeat' first
    | (with_reducible first | assumption | refine Kept.ite ?_ ?_)
    | (lift_lets; intro kx; refine Kept.step (a := a) (x := kx) ?_ fun hkx => ?_)
    | (lift_lets; intro kx)
    | (simp only [Kept.mk_iff]; with_reducible refine KeptF.of ?_ (Nat.le_refl _))
    | (simp only [Kept.mk_iff]; with_reducible refine KeptF.of ?_ (Nat.le_succ _))
    | with_reducible apply State.obcorTimeExchange_kept
    | (simp only [kx, Kept.mk_iff]; with_reducible refine KeptF.of ?_ (Nat.le_refl _))
    | (with_reducible first
        | refine Kept.foldl ?_ fun kb ky hkb => ?_ | refine Kept.foldl_snd ?_ fun kb ky hkb => ?_
        | refine Kept.foldl_fst ?_ fun kb ky hkb => ?_)
    | split
    | (with_reducible first
        | refine Kept.of_snd (by assumption) ?_ | refine Kept.of_fst (by assumption) ?_
        | refine Kept.of_third (by assumption) ?_)
    | dsimp only
    | unfold kx

theorem State.ptpAnswer_kept {a s : State} (h : Kept a s) (x : PtpIn) :
    Kept a (State.ptpAnswer s x) := by
  unfold State.ptpAnswer
  repeat' first
    | (with_reducible first | assumption | refine Kept.ite ?_ ?_ | apply State.sendPtp_kept)
    | split

theorem State.heardPtp_kept {a s : State} (h : Kept a s) (x : PtpIn) :
    Kept a (State.heardPtp s x) := by
  unfold State.heardPtp
  repeat' first
    | (with_reducible first | assumption | refine Kept.ite ?_ ?_)
    | (lift_lets; intro kx; refine Kept.step (a := a) (x := kx) ?_ fun hkx => ?_)
    | (lift_lets; intro kx)
    | (simp only [Kept.mk_iff]; with_reducible refine KeptF.of ?_ (Nat.le_refl _))
    | (simp only [Kept.mk_iff]; with_reducible refine KeptF.of ?_ (Nat.le_succ _))
    | with_reducible apply State.setTime_kept
    | (simp only [kx, Kept.mk_iff]; with_reducible refine KeptF.of ?_ (Nat.le_refl _))
    | (with_reducible first
        | refine Kept.foldl ?_ fun kb ky hkb => ?_ | refine Kept.foldl_snd ?_ fun kb ky hkb => ?_
        | refine Kept.foldl_fst ?_ fun kb ky hkb => ?_)
    | split
    | (with_reducible first
        | refine Kept.of_snd (by assumption) ?_ | refine Kept.of_fst (by assumption) ?_
        | refine Kept.of_third (by assumption) ?_)
    | dsimp only
    | unfold kx

theorem State.ptpMessage_kept {a s : State} (h : Kept a s) (m : PtpMsg) :
    Kept a (State.ptpMessage s m) := by
  unfold State.ptpMessage
  repeat' first
    | (with_reducible first | assumption | refine Kept.ite ?_ ?_)
    | (lift_lets; intro kx; refine Kept.step (a := a) (x := kx) ?_ fun hkx => ?_)
    | (lift_lets; intro kx)
    | (simp only [Kept.mk_iff]; with_reducible refine KeptF.of ?_ (Nat.le_refl _))
    | (simp only [Kept.mk_iff]; with_reducible refine KeptF.of ?_ (Nat.le_succ _))
    | (with_reducible first
        | apply State.setFld_kept | apply State.setTime_kept | apply State.measure_kept | apply State.ptpAnswer_kept
        | apply State.heardPtp_kept)
    | (simp only [kx, Kept.mk_iff]; with_reducible refine KeptF.of ?_ (Nat.le_refl _))
    | (with_reducible first
        | refine Kept.foldl ?_ fun kb ky hkb => ?_ | refine Kept.foldl_snd ?_ fun kb ky hkb => ?_
        | refine Kept.foldl_fst ?_ fun kb ky hkb => ?_)
    | split
    | (with_reducible first
        | refine Kept.of_snd (by assumption) ?_ | refine Kept.of_fst (by assumption) ?_
        | refine Kept.of_third (by assumption) ?_)
    | dsimp only
    | unfold kx

theorem execPtpMessage_kept {a s : State} (h : Kept a s) (msg : PtpMsg) {kt : State} (ke : execPtpMessage msg s = .next kt) :
    Kept a kt := by
  unfold execPtpMessage at ke
  refine Kept.of_done ke ?_
  repeat' (with_reducible first | assumption | refine Kept.ite ?_ ?_ | apply State.ptpMessage_kept)

theorem State.ptpGenerate_kept {a s : State} (h : Kept a s) (t : Nat) :
    Kept a (State.ptpGenerate s t) := by
  unfold State.ptpGenerate
  repeat' first
    | (with_reducible first
        | assumption | refine Kept.ite ?_ ?_ | apply State.setTime_kept | apply State.sendPtp_kept)

theorem execPtpMessageGeneration_kept {a s : State} (h : Kept a s) (messageType : BitVec 4) {kt : State} (ke : execPtpMessageGeneration messageType s = .next kt) :
    Kept a kt := by
  unfold execPtpMessageGeneration at ke
  refine Kept.of_done ke ?_
  repeat' (with_reducible first | assumption | refine Kept.ite ?_ ?_ | apply State.ptpGenerate_kept)

theorem State.advanceClock_kept {a s : State} (h : Kept a s) :
    Kept a (State.advanceClock s) := by
  unfold State.advanceClock
  repeat' first
    | (with_reducible first | assumption | refine Kept.ite ?_ ?_)
    | (simp only [Kept.mk_iff]; with_reducible refine KeptF.of ?_ (Nat.le_refl _))
    | with_reducible apply State.setTime_kept

theorem State.ptpTimers_kept {a s : State} (h : Kept a s) :
    Kept a (State.ptpTimers s) := by
  unfold State.ptpTimers
  repeat' first
    | (with_reducible first | assumption | refine Kept.ite ?_ ?_)
    | (lift_lets; intro kx; refine Kept.step (a := a) (x := kx) ?_ fun hkx => ?_)
    | (lift_lets; intro kx)
    | (simp only [Kept.mk_iff]; with_reducible refine KeptF.of ?_ (Nat.le_refl _))
    | (simp only [Kept.mk_iff]; with_reducible refine KeptF.of ?_ (Nat.le_succ _))
    | (with_reducible first | apply State.setFld_kept | apply State.failSource_kept)
    | (simp only [kx, Kept.mk_iff]; with_reducible refine KeptF.of ?_ (Nat.le_refl _))
    | (with_reducible first
        | refine Kept.foldl ?_ fun kb ky hkb => ?_ | refine Kept.foldl_snd ?_ fun kb ky hkb => ?_
        | refine Kept.foldl_fst ?_ fun kb ky hkb => ?_)
    | split
    | (with_reducible first
        | refine Kept.of_snd (by assumption) ?_ | refine Kept.of_fst (by assumption) ?_
        | refine Kept.of_third (by assumption) ?_)
    | dsimp only
    | unfold kx

theorem State.timeTick_kept {a s : State} (h : Kept a s) :
    Kept a (State.timeTick s) := by
  unfold State.timeTick
  repeat' first
    | (with_reducible first | assumption | refine Kept.ite ?_ ?_)
    | (lift_lets; intro kx; refine Kept.step (a := a) (x := kx) ?_ fun hkx => ?_)
    | (lift_lets; intro kx)
    | (simp only [Kept.mk_iff]; with_reducible refine KeptF.of ?_ (Nat.le_refl _))
    | (simp only [Kept.mk_iff]; with_reducible refine KeptF.of ?_ (Nat.le_succ _))
    | (with_reducible first
        | apply State.bump_kept | apply State.setFld_kept | apply State.failSource_kept | apply State.lockedError_kept
        | apply State.ptpTimers_kept)
    | (simp only [kx, Kept.mk_iff]; with_reducible refine KeptF.of ?_ (Nat.le_refl _))
    | (with_reducible first
        | refine Kept.foldl ?_ fun kb ky hkb => ?_ | refine Kept.foldl_snd ?_ fun kb ky hkb => ?_
        | refine Kept.foldl_fst ?_ fun kb ky hkb => ?_)
    | split
    | (with_reducible first
        | refine Kept.of_snd (by assumption) ?_ | refine Kept.of_fst (by assumption) ?_
        | refine Kept.of_third (by assumption) ?_)
    | dsimp only
    | unfold kx

end Sys2Proof.Machine
end

