-- ==== Sys2Proof/Laws/KeptCommit.lean ====
section
/-! SUPPORT. What the operations of Machine/Commit.lean keep (`Kept`). -/

set_option linter.unusedSimpArgs false

namespace Sys2Proof.Machine

theorem State.setChecks_kept {a s : State} (h : Kept a s) (l : List Staging) :
    Kept a (State.setChecks s l) := by
  unfold State.setChecks
  repeat' first
    | with_reducible assumption
    | (simp only [Kept.mk_iff]; with_reducible refine KeptF.of ?_ (Nat.le_refl _))

theorem State.setPendingGroups_kept {a s : State} (h : Kept a s) (l : List Staging) :
    Kept a (State.setPendingGroups s l) := by
  unfold State.setPendingGroups
  repeat' first
    | with_reducible assumption
    | (simp only [Kept.mk_iff]; with_reducible refine KeptF.of ?_ (Nat.le_refl _))

theorem State.postCommit_kept {a s : State} (h : Kept a s) (g : Nat) (code : Nat) (detail : Nat) :
    Kept a (State.postCommit s g code detail) := by
  unfold State.postCommit
  repeat' first
    | (with_reducible first
        | assumption | refine Kept.ite ?_ ?_ | apply State.setFld_kept | apply State.raiseIrq_kept)

theorem State.commitRequest_kept {a s : State} (h : Kept a s) (bySteward : Bool) (v : Word) :
    Kept a (State.commitRequest s bySteward v) := by
  unfold State.commitRequest
  repeat' first
    | (with_reducible first
        | assumption | refine Kept.ite ?_ ?_ | apply State.setFld_kept | apply State.setChecks_kept
        | apply State.postCommit_kept)

theorem execCommitRequest_kept {a s : State} (h : Kept a s) (bySteward : Bool) (value : Word) {kt : State} (ke : execCommitRequest bySteward value s = .next kt) :
    Kept a kt := by
  unfold execCommitRequest at ke
  refine Kept.of_done ke ?_
  repeat' first
    | with_reducible assumption
    | (lift_lets; intro kx)
    | (with_reducible first | apply State.onSteward_kept | apply State.commitRequest_kept)

theorem State.obcLeave_kept {a s : State} (h : Kept a s) (l : Nat) (st : Nat) :
    Kept a (State.obcLeave s l st) := by
  unfold State.obcLeave
  repeat' first
    | (with_reducible first
        | assumption | refine Kept.ite ?_ ?_ | apply State.bump_kept | apply State.setFld_kept
        | apply State.setFldIrq_kept | apply State.failSource_kept)

theorem State.remapTier1_kept {a s : State} (h : Kept a s) : Kept a s.remapTier1 := by
  refine h.trans ⟨rfl, fun k => ?_, id, id, id, id, rfl, rfl, rfl, Nat.le_succ _, Nat.le_refl _⟩
  have fold {g : List Host.Cell → Host.Cell → List Host.Cell} (hg : ∀ m c, Memory.wf m = true → Memory.wf (g m c) = true)
      (l : List Host.Cell) : ∀ m, Memory.wf m = true → Memory.wf (l.foldl g m) = true := by
    induction l with
    | nil => exact fun _ hm => hm
    | cons c l ih => exact fun m hm => ih _ (hg m c hm)
  refine fold (fun m c hm => ?_) _ _ k
  split
  · exact Tab.canon_set hm _ _
  · exact hm

theorem State.groupApplied_kept {a s : State} (h : Kept a s) (before : State) (g : Nat) :
    Kept a (State.groupApplied s before g) := by
  unfold State.groupApplied
  repeat' first
    | (with_reducible first
        | assumption | apply State.setReg_kept | apply State.setFld_kept | apply State.portTrainingDone_kept
        | apply State.armPulse_kept | apply State.sourceChanged_kept | apply State.obcLeave_kept
        | apply State.remapTier1_kept)
    | split
    | dsimp only

theorem State.applyGroup_kept {a s : State} (h : Kept a s) (st : Staging) :
    Kept a (State.applyGroup s st) := by
  unfold State.applyGroup
  repeat' first
    | (with_reducible first | assumption | refine Kept.ite ?_ ?_)
    | (simp only [Kept.mk_iff]; with_reducible refine KeptF.of ?_ (Nat.le_refl _))
    | (with_reducible first
        | apply State.setReg_kept | apply State.setPendingGroups_kept | apply State.groupApplied_kept
        | refine Kept.foldl ?_ fun kb ky hkb => ?_)

theorem State.commitCheckDone_kept {a s : State} (h : Kept a s) :
    Kept a (State.commitCheckDone s) := by
  unfold State.commitCheckDone
  repeat' first
    | (with_reducible first
        | assumption | refine Kept.ite ?_ ?_ | apply State.setChecks_kept | apply State.setPendingGroups_kept
        | apply State.postCommit_kept | apply State.applyGroup_kept)
    | split

theorem execCommitCheckDone_kept {a s : State} (h : Kept a s) {kt : State} (ke : execCommitCheckDone s = .next kt) :
    Kept a kt := by
  unfold execCommitCheckDone at ke
  refine Kept.of_done ke ?_
  repeat' first
    | (with_reducible first
        | assumption | refine Kept.ite ?_ ?_ | apply State.onSteward_kept | apply State.commitCheckDone_kept)

theorem State.commitApply_kept {a s : State} (h : Kept a s) (g : Nat) :
    Kept a (State.commitApply s g) := by
  unfold State.commitApply
  repeat' first
    | (with_reducible first | assumption | apply State.applyGroup_kept)
    | split

theorem execCommitApply_kept {a s : State} (h : Kept a s) (group : BitVec 20) {kt : State} (ke : execCommitApply group s = .next kt) :
    Kept a kt := by
  unfold execCommitApply at ke
  refine Kept.of_done ke ?_
  repeat' first
    | (with_reducible first | assumption | refine Kept.ite ?_ ?_)
    | (lift_lets; intro kx; refine Kept.step (a := a) (x := kx) ?_ fun hkx => ?_)
    | (lift_lets; intro kx)
    | (simp only [Kept.mk_iff]; with_reducible refine KeptF.of ?_ (Nat.le_refl _))
    | (simp only [Kept.mk_iff]; with_reducible refine KeptF.of ?_ (Nat.le_succ _))
    | (with_reducible first | apply State.onSteward_kept | apply State.commitApply_kept)
    | (simp only [kx, Kept.mk_iff]; with_reducible refine KeptF.of ?_ (Nat.le_refl _))
    | (with_reducible first
        | refine Kept.foldl ?_ fun kb ky hkb => ?_ | refine Kept.foldl_snd ?_ fun kb ky hkb => ?_
        | refine Kept.foldl_fst ?_ fun kb ky hkb => ?_)
    | split
    | (with_reducible first
        | refine Kept.of_snd (by assumption) ?_ | refine Kept.of_fst (by assumption) ?_
        | refine Kept.of_third (by assumption) ?_)
    | dsimp only
    | unfold kx

theorem State.applySeamGroups_kept {a s : State} (h : Kept a s) :
    Kept a (State.applySeamGroups s) := by
  unfold State.applySeamGroups
  repeat' (with_reducible first | assumption | apply State.applyGroup_kept | refine Kept.foldl ?_ fun kb ky hkb => ?_)

end Sys2Proof.Machine
end

