-- ==== Sys2Proof/Laws/KeptMaint.lean ====
section
/-! SUPPORT. What the operations of Machine/Maint.lean keep (`Kept`). -/

set_option linter.unusedSimpArgs false

namespace Sys2Proof.Machine

theorem State.setReturning_kept {a s : State} (h : Kept a s) (l : List Nat) :
    Kept a (State.setReturning s l) := by
  unfold State.setReturning
  repeat' first
    | with_reducible assumption
    | (simp only [Kept.mk_iff]; with_reducible refine KeptF.of ?_ (Nat.le_refl _))

theorem State.parentOne_kept {a s : State} (h : Kept a s) (k : Nat) (whole : Bool) :
    Kept a (State.parentOne s k whole) := by
  unfold State.parentOne
  repeat' first
    | (with_reducible first
        | assumption | refine Kept.ite ?_ ?_ | apply State.setUnit_kept | apply State.markDirty_kept
        | apply State.retire_kept | apply State.setReturning_kept)

theorem State.parentRule_kept {a s : State} (h : Kept a s) (d : Nat) :
    Kept a (State.parentRule s d) := by
  unfold State.parentRule
  repeat' (with_reducible first | assumption | apply State.parentOne_kept | refine Kept.foldl ?_ fun kb ky hkb => ?_)

theorem State.rebuildDie_kept {a s : State} (h : Kept a s) (d : Nat) :
    Kept a (State.rebuildDie s d) := by
  unfold State.rebuildDie
  repeat' first
    | (with_reducible first | assumption | refine Kept.ite ?_ ?_)
    | (lift_lets; intro kx; refine Kept.step (a := a) (x := kx) ?_ fun hkx => ?_)
    | (lift_lets; intro kx)
    | (simp only [Kept.mk_iff]; with_reducible refine KeptF.of ?_ (Nat.le_refl _))
    | (simp only [Kept.mk_iff]; with_reducible refine KeptF.of ?_ (Nat.le_succ _))
    | (with_reducible first | apply State.rebuildMaps_kept | apply State.parentRule_kept)
    | (simp only [kx, Kept.mk_iff]; with_reducible refine KeptF.of ?_ (Nat.le_refl _))
    | (with_reducible first
        | refine Kept.foldl ?_ fun kb ky hkb => ?_ | refine Kept.foldl_snd ?_ fun kb ky hkb => ?_
        | refine Kept.foldl_fst ?_ fun kb ky hkb => ?_)
    | split
    | (with_reducible first
        | refine Kept.of_snd (by assumption) ?_ | refine Kept.of_fst (by assumption) ?_
        | refine Kept.of_third (by assumption) ?_)
    | dsimp only
    | unfold kx

theorem State.rebuild_kept {a s : State} (h : Kept a s) :
    Kept a (State.rebuild s) := by
  unfold State.rebuild
  repeat' first
    | (with_reducible first | assumption | refine Kept.ite ?_ ?_)
    | (lift_lets; intro kx; refine Kept.step (a := a) (x := kx) ?_ fun hkx => ?_)
    | (lift_lets; intro kx)
    | (simp only [Kept.mk_iff]; with_reducible refine KeptF.of ?_ (Nat.le_refl _))
    | (simp only [Kept.mk_iff]; with_reducible refine KeptF.of ?_ (Nat.le_succ _))
    | with_reducible apply State.rebuildDie_kept
    | (simp only [kx, Kept.mk_iff]; with_reducible refine KeptF.of ?_ (Nat.le_refl _))
    | (with_reducible first
        | refine Kept.foldl ?_ fun kb ky hkb => ?_ | refine Kept.foldl_snd ?_ fun kb ky hkb => ?_
        | refine Kept.foldl_fst ?_ fun kb ky hkb => ?_)
    | split
    | (with_reducible first
        | refine Kept.of_snd (by assumption) ?_ | refine Kept.of_fst (by assumption) ?_
        | refine Kept.of_third (by assumption) ?_)
    | dsimp only
    | unfold kx

theorem State.setRotating_kept {a s : State} (h : Kept a s) (l : List Nat) :
    Kept a (State.setRotating s l) := by
  unfold State.setRotating
  repeat' first
    | (with_reducible first | assumption | refine Kept.ite ?_ ?_)
    | (lift_lets; intro kx; refine Kept.step (a := a) (x := kx) ?_ fun hkx => ?_)
    | (lift_lets; intro kx)
    | (simp only [Kept.mk_iff]; with_reducible refine KeptF.of ?_ (Nat.le_refl _))
    | (simp only [Kept.mk_iff]; with_reducible refine KeptF.of ?_ (Nat.le_succ _))
    | (simp only [kx, Kept.mk_iff]; with_reducible refine KeptF.of ?_ (Nat.le_refl _))
    | (with_reducible first
        | refine Kept.foldl ?_ fun kb ky hkb => ?_ | refine Kept.foldl_snd ?_ fun kb ky hkb => ?_
        | refine Kept.foldl_fst ?_ fun kb ky hkb => ?_)
    | split
    | (with_reducible first
        | refine Kept.of_snd (by assumption) ?_ | refine Kept.of_fst (by assumption) ?_
        | refine Kept.of_third (by assumption) ?_)
    | dsimp only
    | unfold kx

theorem State.noteReadmitted_kept {a s : State} (h : Kept a s) (k : Nat) :
    Kept a (State.noteReadmitted s k) := by
  unfold State.noteReadmitted
  repeat' first
    | (with_reducible first | assumption | refine Kept.ite ?_ ?_)
    | (lift_lets; intro kx; refine Kept.step (a := a) (x := kx) ?_ fun hkx => ?_)
    | (lift_lets; intro kx)
    | (simp only [Kept.mk_iff]; with_reducible refine KeptF.of ?_ (Nat.le_refl _))
    | (simp only [Kept.mk_iff]; with_reducible refine KeptF.of ?_ (Nat.le_succ _))
    | (with_reducible first
        | apply State.bump_kept | apply State.emit_kept | apply State.setReturning_kept
        | apply State.setRotating_kept)
    | (simp only [kx, Kept.mk_iff]; with_reducible refine KeptF.of ?_ (Nat.le_refl _))
    | (with_reducible first
        | refine Kept.foldl ?_ fun kb ky hkb => ?_ | refine Kept.foldl_snd ?_ fun kb ky hkb => ?_
        | refine Kept.foldl_fst ?_ fun kb ky hkb => ?_)
    | split
    | (with_reducible first
        | refine Kept.of_snd (by assumption) ?_ | refine Kept.of_fst (by assumption) ?_
        | refine Kept.of_third (by assumption) ?_)
    | dsimp only
    | unfold kx

theorem State.noteReturned_kept {a s : State} (h : Kept a s) :
    Kept a (State.noteReturned s) := by
  unfold State.noteReturned
  repeat' first
    | (with_reducible first | assumption | refine Kept.ite ?_ ?_)
    | (lift_lets; intro kx; refine Kept.step (a := a) (x := kx) ?_ fun hkx => ?_)
    | (lift_lets; intro kx)
    | (simp only [Kept.mk_iff]; with_reducible refine KeptF.of ?_ (Nat.le_refl _))
    | (simp only [Kept.mk_iff]; with_reducible refine KeptF.of ?_ (Nat.le_succ _))
    | with_reducible apply State.noteReadmitted_kept
    | (simp only [kx, Kept.mk_iff]; with_reducible refine KeptF.of ?_ (Nat.le_refl _))
    | (with_reducible first
        | refine Kept.foldl ?_ fun kb ky hkb => ?_ | refine Kept.foldl_snd ?_ fun kb ky hkb => ?_
        | refine Kept.foldl_fst ?_ fun kb ky hkb => ?_)
    | split
    | (with_reducible first
        | refine Kept.of_snd (by assumption) ?_ | refine Kept.of_fst (by assumption) ?_
        | refine Kept.of_third (by assumption) ?_)
    | dsimp only
    | unfold kx

theorem State.homeRows_kept {a s : State} (h : Kept a s) (moved : List Nat) :
    Kept a (State.homeRows s moved) := by
  unfold State.homeRows
  repeat' (with_reducible first | assumption | refine Kept.ite ?_ ?_ | apply State.setLines_kept)

theorem State.screenRecord_kept {a s : State} (h : Kept a s) (k : Nat) (pass : Bool) (point : Nat) (test : Nat) :
    Kept a (State.screenRecord s k pass point test) := by
  unfold State.screenRecord
  repeat' first
    | (with_reducible first | assumption | refine Kept.ite ?_ ?_)
    | (lift_lets; intro kx; refine Kept.step (a := a) (x := kx) ?_ fun hkx => ?_)
    | (lift_lets; intro kx)
    | (simp only [Kept.mk_iff]; with_reducible refine KeptF.of ?_ (Nat.le_refl _))
    | (simp only [Kept.mk_iff]; with_reducible refine KeptF.of ?_ (Nat.le_succ _))
    | (with_reducible first | apply State.bump_kept | apply State.emit_kept | apply State.setUnit_kept)
    | (simp only [kx, Kept.mk_iff]; with_reducible refine KeptF.of ?_ (Nat.le_refl _))
    | (with_reducible first
        | refine Kept.foldl ?_ fun kb ky hkb => ?_ | refine Kept.foldl_snd ?_ fun kb ky hkb => ?_
        | refine Kept.foldl_fst ?_ fun kb ky hkb => ?_)
    | split
    | (with_reducible first
        | refine Kept.of_snd (by assumption) ?_ | refine Kept.of_fst (by assumption) ?_
        | refine Kept.of_third (by assumption) ?_)
    | dsimp only
    | unfold kx

theorem State.failScreen_kept {a s : State} (h : Kept a s) (points : List Nat) (k : Nat) :
    Kept a (State.failScreen s points k) := by
  unfold State.failScreen
  repeat' first
    | (with_reducible first | assumption | refine Kept.ite ?_ ?_)
    | (lift_lets; intro kx; refine Kept.step (a := a) (x := kx) ?_ fun hkx => ?_)
    | (lift_lets; intro kx)
    | (simp only [Kept.mk_iff]; with_reducible refine KeptF.of ?_ (Nat.le_refl _))
    | (simp only [Kept.mk_iff]; with_reducible refine KeptF.of ?_ (Nat.le_succ _))
    | (with_reducible first | apply State.free_kept | apply State.screenRecord_kept)
    | (simp only [kx, Kept.mk_iff]; with_reducible refine KeptF.of ?_ (Nat.le_refl _))
    | (with_reducible first
        | refine Kept.foldl ?_ fun kb ky hkb => ?_ | refine Kept.foldl_snd ?_ fun kb ky hkb => ?_
        | refine Kept.foldl_fst ?_ fun kb ky hkb => ?_)
    | split
    | (with_reducible first
        | refine Kept.of_snd (by assumption) ?_ | refine Kept.of_fst (by assumption) ?_
        | refine Kept.of_third (by assumption) ?_)
    | dsimp only
    | unfold kx

theorem State.setQuick_kept {a s : State} (h : Kept a s) (k : Nat) :
    Kept a (State.setQuick s k) := by
  unfold State.setQuick
  repeat' first
    | (with_reducible first | assumption | refine Kept.ite ?_ ?_)
    | (lift_lets; intro kx; refine Kept.step (a := a) (x := kx) ?_ fun hkx => ?_)
    | (lift_lets; intro kx)
    | (simp only [Kept.mk_iff]; with_reducible refine KeptF.of ?_ (Nat.le_refl _))
    | (simp only [Kept.mk_iff]; with_reducible refine KeptF.of ?_ (Nat.le_succ _))
    | (simp only [kx, Kept.mk_iff]; with_reducible refine KeptF.of ?_ (Nat.le_refl _))
    | (with_reducible first
        | refine Kept.foldl ?_ fun kb ky hkb => ?_ | refine Kept.foldl_snd ?_ fun kb ky hkb => ?_
        | refine Kept.foldl_fst ?_ fun kb ky hkb => ?_)
    | split
    | (with_reducible first
        | refine Kept.of_snd (by assumption) ?_ | refine Kept.of_fst (by assumption) ?_
        | refine Kept.of_third (by assumption) ?_)
    | dsimp only
    | unfold kx

theorem State.quickPass_kept {a s : State} (h : Kept a s) (k : Nat) :
    Kept a (State.quickPass s k) := by
  unfold State.quickPass
  repeat' first
    | (with_reducible first | assumption | refine Kept.ite ?_ ?_)
    | (lift_lets; intro kx; refine Kept.step (a := a) (x := kx) ?_ fun hkx => ?_)
    | (lift_lets; intro kx)
    | (simp only [Kept.mk_iff]; with_reducible refine KeptF.of ?_ (Nat.le_refl _))
    | (simp only [Kept.mk_iff]; with_reducible refine KeptF.of ?_ (Nat.le_succ _))
    | (with_reducible first | apply State.screenRecord_kept | apply State.setQuick_kept)
    | (simp only [kx, Kept.mk_iff]; with_reducible refine KeptF.of ?_ (Nat.le_refl _))
    | (with_reducible first
        | refine Kept.foldl ?_ fun kb ky hkb => ?_ | refine Kept.foldl_snd ?_ fun kb ky hkb => ?_
        | refine Kept.foldl_fst ?_ fun kb ky hkb => ?_)
    | split
    | (with_reducible first
        | refine Kept.of_snd (by assumption) ?_ | refine Kept.of_fst (by assumption) ?_
        | refine Kept.of_third (by assumption) ?_)
    | dsimp only
    | unfold kx

theorem State.massScreen_kept {a s : State} (h : Kept a s) (units : List Nat) (fails : List Nat) :
    Kept a (State.massScreen s units fails) := by
  unfold State.massScreen
  repeat' first
    | (with_reducible first | assumption | refine Kept.ite ?_ ?_)
    | (lift_lets; intro kx; refine Kept.step (a := a) (x := kx) ?_ fun hkx => ?_)
    | (lift_lets; intro kx)
    | (simp only [Kept.mk_iff]; with_reducible refine KeptF.of ?_ (Nat.le_refl _))
    | (simp only [Kept.mk_iff]; with_reducible refine KeptF.of ?_ (Nat.le_succ _))
    | (with_reducible first | apply State.bump_kept | apply State.strikeSump_kept | apply State.failScreen_kept)
    | (simp only [kx, Kept.mk_iff]; with_reducible refine KeptF.of ?_ (Nat.le_refl _))
    | (with_reducible first
        | refine Kept.foldl ?_ fun kb ky hkb => ?_ | refine Kept.foldl_snd ?_ fun kb ky hkb => ?_
        | refine Kept.foldl_fst ?_ fun kb ky hkb => ?_)
    | split
    | (with_reducible first
        | refine Kept.of_snd (by assumption) ?_ | refine Kept.of_fst (by assumption) ?_
        | refine Kept.of_third (by assumption) ?_)
    | dsimp only
    | unfold kx

theorem State.screenMoved_kept {a s : State} (h : Kept a s) (moved : List Nat) :
    Kept a (State.screenMoved s moved) := by
  unfold State.screenMoved
  repeat' first
    | (with_reducible first | assumption | refine Kept.ite ?_ ?_)
    | (lift_lets; intro kx; refine Kept.step (a := a) (x := kx) ?_ fun hkx => ?_)
    | (lift_lets; intro kx)
    | (simp only [Kept.mk_iff]; with_reducible refine KeptF.of ?_ (Nat.le_refl _))
    | (simp only [Kept.mk_iff]; with_reducible refine KeptF.of ?_ (Nat.le_succ _))
    | with_reducible apply State.quickPass_kept
    | (simp only [kx, Kept.mk_iff]; with_reducible refine KeptF.of ?_ (Nat.le_refl _))
    | (with_reducible first
        | refine Kept.foldl ?_ fun kb ky hkb => ?_ | refine Kept.foldl_snd ?_ fun kb ky hkb => ?_
        | refine Kept.foldl_fst ?_ fun kb ky hkb => ?_)
    | split
    | (with_reducible first
        | refine Kept.of_snd (by assumption) ?_ | refine Kept.of_fst (by assumption) ?_
        | refine Kept.of_third (by assumption) ?_)
    | dsimp only
    | unfold kx

theorem State.settle_kept {a s : State} (h : Kept a s) (moved : List Nat) :
    Kept a (State.settle s moved) := by
  unfold State.settle
  repeat' first
    | (with_reducible first | assumption | refine Kept.ite ?_ ?_)
    | (lift_lets; intro kx; refine Kept.step (a := a) (x := kx) ?_ fun hkx => ?_)
    | (lift_lets; intro kx)
    | (simp only [Kept.mk_iff]; with_reducible refine KeptF.of ?_ (Nat.le_refl _))
    | (simp only [Kept.mk_iff]; with_reducible refine KeptF.of ?_ (Nat.le_succ _))
    | (with_reducible first
        | apply State.recordEpoch_kept | apply State.recoveryReload_kept | apply State.noteReturned_kept
        | apply State.homeRows_kept | apply State.screenMoved_kept)
    | (simp only [kx, Kept.mk_iff]; with_reducible refine KeptF.of ?_ (Nat.le_refl _))
    | (with_reducible first
        | refine Kept.foldl ?_ fun kb ky hkb => ?_ | refine Kept.foldl_snd ?_ fun kb ky hkb => ?_
        | refine Kept.foldl_fst ?_ fun kb ky hkb => ?_)
    | split
    | (with_reducible first
        | refine Kept.of_snd (by assumption) ?_ | refine Kept.of_fst (by assumption) ?_
        | refine Kept.of_third (by assumption) ?_)
    | dsimp only
    | unfold kx

theorem State.noteStalled_kept {a s : State} (h : Kept a s) :
    Kept a (State.noteStalled s) := by
  unfold State.noteStalled
  repeat' (with_reducible first | assumption | refine Kept.ite ?_ ?_ | apply State.setRecovery_kept)

theorem State.loseEmptyDies_kept {a s : State} (h : Kept a s) :
    Kept a (State.loseEmptyDies s) := by
  unfold State.loseEmptyDies
  repeat' first
    | (with_reducible first | assumption | refine Kept.ite ?_ ?_)
    | (lift_lets; intro kx; refine Kept.step (a := a) (x := kx) ?_ fun hkx => ?_)
    | (lift_lets; intro kx)
    | (simp only [Kept.mk_iff]; with_reducible refine KeptF.of ?_ (Nat.le_refl _))
    | (simp only [Kept.mk_iff]; with_reducible refine KeptF.of ?_ (Nat.le_succ _))
    | with_reducible apply State.loseDies_kept
    | (simp only [kx, Kept.mk_iff]; with_reducible refine KeptF.of ?_ (Nat.le_refl _))
    | (with_reducible first
        | refine Kept.foldl ?_ fun kb ky hkb => ?_ | refine Kept.foldl_snd ?_ fun kb ky hkb => ?_
        | refine Kept.foldl_fst ?_ fun kb ky hkb => ?_)
    | split
    | (with_reducible first
        | refine Kept.of_snd (by assumption) ?_ | refine Kept.of_fst (by assumption) ?_
        | refine Kept.of_third (by assumption) ?_)
    | dsimp only
    | unfold kx

theorem State.fitJob_kept {a s : State} (h : Kept a s) (was : Nat) :
    Kept a (State.fitJob s was) := by
  unfold State.fitJob
  repeat' first
    | (with_reducible first
        | assumption | refine Kept.ite ?_ ?_ | apply State.leaveFleet_kept | apply State.endRecovery_kept
        | apply State.loseEmptyDies_kept)

theorem State.remap_kept {a s : State} (h : Kept a s) :
    Kept a (State.remap s) := by
  unfold State.remap
  repeat' first
    | (with_reducible first
        | assumption | refine Kept.ite ?_ ?_ | apply State.rebuild_kept | apply State.settle_kept
        | apply State.noteStalled_kept | apply State.fitJob_kept)

theorem State.rotateUnit_kept {a s : State} (h : Kept a s) (o : Option Nat) :
    Kept a (State.rotateUnit s o) := by
  unfold State.rotateUnit
  repeat' first
    | (with_reducible first | assumption | refine Kept.ite ?_ ?_)
    | (lift_lets; intro kx; refine Kept.step (a := a) (x := kx) ?_ fun hkx => ?_)
    | (lift_lets; intro kx)
    | (simp only [Kept.mk_iff]; with_reducible refine KeptF.of ?_ (Nat.le_refl _))
    | (simp only [Kept.mk_iff]; with_reducible refine KeptF.of ?_ (Nat.le_succ _))
    | with_reducible apply State.enterSump_kept
    | (simp only [kx, Kept.mk_iff]; with_reducible refine KeptF.of ?_ (Nat.le_refl _))
    | (with_reducible first
        | refine Kept.foldl ?_ fun kb ky hkb => ?_ | refine Kept.foldl_snd ?_ fun kb ky hkb => ?_
        | refine Kept.foldl_fst ?_ fun kb ky hkb => ?_)
    | split
    | (with_reducible first
        | refine Kept.of_snd (by assumption) ?_ | refine Kept.of_fst (by assumption) ?_
        | refine Kept.of_third (by assumption) ?_)
    | dsimp only
    | unfold kx

theorem State.rotateDie_kept {a s : State} (h : Kept a s) (d : Nat) :
    Kept a (State.rotateDie s d) := by
  unfold State.rotateDie
  repeat' first
    | (with_reducible first | assumption | refine Kept.ite ?_ ?_)
    | (lift_lets; intro kx; refine Kept.step (a := a) (x := kx) ?_ fun hkx => ?_)
    | (lift_lets; intro kx)
    | (simp only [Kept.mk_iff]; with_reducible refine KeptF.of ?_ (Nat.le_refl _))
    | (simp only [Kept.mk_iff]; with_reducible refine KeptF.of ?_ (Nat.le_succ _))
    | (with_reducible first | apply State.bump_kept | apply State.retireDue_kept | apply State.rotateUnit_kept)
    | (simp only [kx, Kept.mk_iff]; with_reducible refine KeptF.of ?_ (Nat.le_refl _))
    | (with_reducible first
        | refine Kept.foldl ?_ fun kb ky hkb => ?_ | refine Kept.foldl_snd ?_ fun kb ky hkb => ?_
        | refine Kept.foldl_fst ?_ fun kb ky hkb => ?_)
    | split
    | (with_reducible first
        | refine Kept.of_snd (by assumption) ?_ | refine Kept.of_fst (by assumption) ?_
        | refine Kept.of_third (by assumption) ?_)
    | dsimp only
    | unfold kx

theorem State.setRotate_kept {a s : State} (h : Kept a s) (l : List Nat) :
    Kept a (State.setRotate s l) := by
  unfold State.setRotate
  repeat' first
    | with_reducible assumption
    | (simp only [Kept.mk_iff]; with_reducible refine KeptF.of ?_ (Nat.le_refl _))

theorem State.seamRotations_kept {a s : State} (h : Kept a s) :
    Kept a (State.seamRotations s) := by
  unfold State.seamRotations
  repeat' first
    | (with_reducible first
        | assumption | apply State.rotateDie_kept | apply State.setRotate_kept
        | refine Kept.foldl ?_ fun kb ky hkb => ?_)

theorem State.rotation_kept {a s : State} (h : Kept a s) (d : Nat) :
    Kept a (State.rotation s d) := by
  unfold State.rotation
  repeat' first
    | (with_reducible first
        | assumption | refine Kept.ite ?_ ?_ | apply State.remap_kept | apply State.rotateDie_kept
        | apply State.setRotate_kept)

theorem execRotation_kept {a s : State} (h : Kept a s) (die : Fin 4) {kt : State} (ke : execRotation die s = .next kt) :
    Kept a kt := by
  unfold execRotation at ke
  refine Kept.of_done ke ?_
  repeat' first
    | with_reducible assumption
    | (lift_lets; intro kx)
    | (with_reducible first | apply State.onSteward_kept | apply State.rotation_kept)

theorem State.screenStalled_kept {a s : State} (h : Kept a s) :
    Kept a (State.screenStalled s) := by
  unfold State.screenStalled
  repeat' first
    | (with_reducible first
        | assumption | refine Kept.ite ?_ ?_ | apply State.emit_kept | apply State.noteStalled_kept)

theorem execScreenStalled_kept {a s : State} (h : Kept a s) {kt : State} (ke : execScreenStalled s = .next kt) :
    Kept a kt := by
  unfold execScreenStalled at ke
  refine Kept.of_done ke ?_
  repeat' first
    | (with_reducible first
        | assumption | refine Kept.ite ?_ ?_ | apply State.onSteward_kept | apply State.screenStalled_kept)

theorem State.setResult_kept {a s : State} (h : Kept a s) (key : Nat) (code : Nat) (isDone : Bool) (passed : Bool) :
    Kept a (State.setResult s key code isDone passed) := by
  unfold State.setResult
  repeat' (with_reducible first | assumption | refine Kept.ite ?_ ?_ | apply State.setFld_kept)

theorem State.setCmd_kept {a s : State} (h : Kept a s) (c : Option UnitCmd) :
    Kept a (State.setCmd s c) := by
  unfold State.setCmd
  repeat' first
    | with_reducible assumption
    | (simp only [Kept.mk_iff]; with_reducible refine KeptF.of ?_ (Nat.le_refl _))

theorem State.cmdDone_kept {a s : State} (h : Kept a s) (key : Nat) (passed : Bool) :
    Kept a (State.cmdDone s key passed) := by
  unfold State.cmdDone
  repeat' first
    | (with_reducible first | assumption | apply State.setResult_kept | apply State.setCmd_kept)
    | split

theorem State.addScreen_kept {a s : State} (h : Kept a s) (k : Nat) (w : ScreenKind) :
    Kept a (State.addScreen s k w) := by
  unfold State.addScreen
  repeat' first
    | with_reducible assumption
    | (simp only [Kept.mk_iff]; with_reducible refine KeptF.of ?_ (Nat.le_refl _))

theorem State.sumpNow_kept {a s : State} (h : Kept a s) :
    Kept a (State.sumpNow s) := by
  unfold State.sumpNow
  repeat' first
    | with_reducible assumption
    | (simp only [Kept.mk_iff]; with_reducible refine KeptF.of ?_ (Nat.le_refl _))
    | (with_reducible first | apply State.enterSump_kept | apply State.beginStop_kept | apply State.cmdDone_kept)
    | split

theorem State.unitCmd_kept {a s : State} (h : Kept a s) (op : Nat) (v : Word) :
    Kept a (State.unitCmd s op v) := by
  unfold State.unitCmd
  repeat' first
    | (with_reducible first
        | assumption | refine Kept.ite ?_ ?_ | apply State.remap_kept | apply State.setResult_kept
        | apply State.setCmd_kept | apply State.addScreen_kept | apply State.sumpNow_kept)

theorem execUnitCmdSump_kept {a s : State} (h : Kept a s) (value : Word) {kt : State} (ke : execUnitCmdSump value s = .next kt) :
    Kept a kt := by
  unfold execUnitCmdSump at ke
  refine Kept.of_done ke ?_
  repeat' first
    | with_reducible assumption
    | (lift_lets; intro kx)
    | (with_reducible first | apply State.onReady_kept | apply State.onSteward_kept | apply State.unitCmd_kept)

theorem execUnitCmdReadmit_kept {a s : State} (h : Kept a s) (value : Word) {kt : State} (ke : execUnitCmdReadmit value s = .next kt) :
    Kept a kt := by
  unfold execUnitCmdReadmit at ke
  refine Kept.of_done ke ?_
  repeat' first
    | with_reducible assumption
    | (lift_lets; intro kx)
    | (with_reducible first | apply State.onReady_kept | apply State.onSteward_kept | apply State.unitCmd_kept)

theorem execUnitCmdScreen_kept {a s : State} (h : Kept a s) (value : Word) {kt : State} (ke : execUnitCmdScreen value s = .next kt) :
    Kept a kt := by
  unfold execUnitCmdScreen at ke
  refine Kept.of_done ke ?_
  repeat' first
    | with_reducible assumption
    | (lift_lets; intro kx)
    | (with_reducible first | apply State.onReady_kept | apply State.onSteward_kept | apply State.unitCmd_kept)

theorem State.readmitSlice_kept {a s : State} (h : Kept a s) (k : Nat) :
    Kept a (State.readmitSlice s k) := by
  unfold State.readmitSlice
  repeat' first
    | (with_reducible first | assumption | refine Kept.ite ?_ ?_)
    | (lift_lets; intro kx; refine Kept.step (a := a) (x := kx) ?_ fun hkx => ?_)
    | (lift_lets; intro kx)
    | (simp only [Kept.mk_iff]; with_reducible refine KeptF.of ?_ (Nat.le_refl _))
    | (simp only [Kept.mk_iff]; with_reducible refine KeptF.of ?_ (Nat.le_succ _))
    | (with_reducible first
        | apply State.setUnit_kept | apply State.markDirty_kept | apply State.recoveryReload_kept
        | apply State.noteReadmitted_kept | apply State.quickPass_kept)
    | (simp only [kx, Kept.mk_iff]; with_reducible refine KeptF.of ?_ (Nat.le_refl _))
    | (with_reducible first
        | refine Kept.foldl ?_ fun kb ky hkb => ?_ | refine Kept.foldl_snd ?_ fun kb ky hkb => ?_
        | refine Kept.foldl_fst ?_ fun kb ky hkb => ?_)
    | split
    | (with_reducible first
        | refine Kept.of_snd (by assumption) ?_ | refine Kept.of_fst (by assumption) ?_
        | refine Kept.of_third (by assumption) ?_)
    | dsimp only
    | unfold kx

theorem State.passUnit_kept {a s : State} (h : Kept a s) (k : Nat) (pack : Nat) :
    Kept a (State.passUnit s k pack) := by
  unfold State.passUnit
  repeat' first
    | (with_reducible first | assumption | refine Kept.ite ?_ ?_)
    | (lift_lets; intro kx; refine Kept.step (a := a) (x := kx) ?_ fun hkx => ?_)
    | (lift_lets; intro kx)
    | (simp only [Kept.mk_iff]; with_reducible refine KeptF.of ?_ (Nat.le_refl _))
    | (simp only [Kept.mk_iff]; with_reducible refine KeptF.of ?_ (Nat.le_succ _))
    | (with_reducible first
        | apply State.setUnit_kept | apply State.markDirty_kept | apply State.setReturning_kept
        | apply State.readmitSlice_kept)
    | (simp only [kx, Kept.mk_iff]; with_reducible refine KeptF.of ?_ (Nat.le_refl _))
    | (with_reducible first
        | refine Kept.foldl ?_ fun kb ky hkb => ?_ | refine Kept.foldl_snd ?_ fun kb ky hkb => ?_
        | refine Kept.foldl_fst ?_ fun kb ky hkb => ?_)
    | split
    | (with_reducible first
        | refine Kept.of_snd (by assumption) ?_ | refine Kept.of_fst (by assumption) ?_
        | refine Kept.of_third (by assumption) ?_)
    | dsimp only
    | unfold kx

theorem State.screenComplete_kept {a s : State} (h : Kept a s) (k : Nat) (pass : Bool) (point : Nat) (test : Nat) :
    Kept a (State.screenComplete s k pass point test) := by
  unfold State.screenComplete
  repeat' first
    | (with_reducible first | assumption | refine Kept.ite ?_ ?_)
    | (lift_lets; intro kx; refine Kept.step (a := a) (x := kx) ?_ fun hkx => ?_)
    | (lift_lets; intro kx)
    | (simp only [Kept.mk_iff]; with_reducible refine KeptF.of ?_ (Nat.le_refl _))
    | (simp only [Kept.mk_iff]; with_reducible refine KeptF.of ?_ (Nat.le_succ _))
    | (with_reducible first
        | apply State.retire_kept | apply State.strikeSump_kept | apply State.setRotating_kept
        | apply State.screenRecord_kept | apply State.setQuick_kept | apply State.remap_kept
        | apply State.cmdDone_kept | apply State.passUnit_kept)
    | (simp only [kx, Kept.mk_iff]; with_reducible refine KeptF.of ?_ (Nat.le_refl _))
    | (with_reducible first
        | refine Kept.foldl ?_ fun kb ky hkb => ?_ | refine Kept.foldl_snd ?_ fun kb ky hkb => ?_
        | refine Kept.foldl_fst ?_ fun kb ky hkb => ?_)
    | split
    | (with_reducible first
        | refine Kept.of_snd (by assumption) ?_ | refine Kept.of_fst (by assumption) ?_
        | refine Kept.of_third (by assumption) ?_)
    | dsimp only
    | unfold kx

theorem execScreenComplete_kept {a s : State} (h : Kept a s) (key : BitVec 32) (pass : Bool) (point : BitVec 3) (test : BitVec 12) {kt : State} (ke : execScreenComplete key pass point test s = .next kt) :
    Kept a kt := by
  unfold execScreenComplete at ke
  refine Kept.of_done ke ?_
  repeat' first
    | with_reducible assumption
    | (lift_lets; intro kx)
    | (with_reducible first | apply State.onSteward_kept | apply State.screenComplete_kept)

theorem State.spareScreen_kept {a s : State} (h : Kept a s) :
    Kept a (State.spareScreen s) := by
  unfold State.spareScreen
  repeat' first
    | (with_reducible first | assumption | refine Kept.ite ?_ ?_)
    | (lift_lets; intro kx; refine Kept.step (a := a) (x := kx) ?_ fun hkx => ?_)
    | (lift_lets; intro kx)
    | (simp only [Kept.mk_iff]; with_reducible refine KeptF.of ?_ (Nat.le_refl _))
    | (simp only [Kept.mk_iff]; with_reducible refine KeptF.of ?_ (Nat.le_succ _))
    | with_reducible apply State.addScreen_kept
    | (simp only [kx, Kept.mk_iff]; with_reducible refine KeptF.of ?_ (Nat.le_refl _))
    | (with_reducible first
        | refine Kept.foldl ?_ fun kb ky hkb => ?_ | refine Kept.foldl_snd ?_ fun kb ky hkb => ?_
        | refine Kept.foldl_fst ?_ fun kb ky hkb => ?_)
    | split
    | (with_reducible first
        | refine Kept.of_snd (by assumption) ?_ | refine Kept.of_fst (by assumption) ?_
        | refine Kept.of_third (by assumption) ?_)
    | dsimp only
    | unfold kx

theorem execSpareScreen_kept {a s : State} (h : Kept a s) {kt : State} (ke : execSpareScreen s = .next kt) :
    Kept a kt := by
  unfold execSpareScreen at ke
  refine Kept.of_done ke ?_
  repeat' first
    | (with_reducible first
        | assumption | refine Kept.ite ?_ ?_ | apply State.onSteward_kept | apply State.spareScreen_kept)

theorem State.strikeExpiry_kept {a s : State} (h : Kept a s) (k : Nat) :
    Kept a (State.strikeExpiry s k) := by
  unfold State.strikeExpiry
  repeat' first
    | with_reducible assumption
    | (lift_lets; intro kx)
    | with_reducible apply State.setUnit_kept
    | split

theorem execStrikeExpiry_kept {a s : State} (h : Kept a s) (key : BitVec 32) {kt : State} (ke : execStrikeExpiry key s = .next kt) :
    Kept a kt := by
  unfold execStrikeExpiry at ke
  refine Kept.of_done ke ?_
  repeat' (with_reducible first | assumption | refine Kept.ite ?_ ?_ | apply State.strikeExpiry_kept)

theorem State.corrected24h_kept {a s : State} (h : Kept a s) (k : Nat) :
    Kept a (State.corrected24h s k) := by
  unfold State.corrected24h
  repeat' first
    | (with_reducible first | assumption | refine Kept.ite ?_ ?_)
    | (lift_lets; intro kx; refine Kept.step (a := a) (x := kx) ?_ fun hkx => ?_)
    | (lift_lets; intro kx)
    | (simp only [Kept.mk_iff]; with_reducible refine KeptF.of ?_ (Nat.le_refl _))
    | (simp only [Kept.mk_iff]; with_reducible refine KeptF.of ?_ (Nat.le_succ _))
    | with_reducible apply State.setUnit_kept
    | (simp only [kx, Kept.mk_iff]; with_reducible refine KeptF.of ?_ (Nat.le_refl _))
    | (with_reducible first
        | refine Kept.foldl ?_ fun kb ky hkb => ?_ | refine Kept.foldl_snd ?_ fun kb ky hkb => ?_
        | refine Kept.foldl_fst ?_ fun kb ky hkb => ?_)
    | split
    | (with_reducible first
        | refine Kept.of_snd (by assumption) ?_ | refine Kept.of_fst (by assumption) ?_
        | refine Kept.of_third (by assumption) ?_)
    | dsimp only
    | unfold kx

theorem execCorrected24hWindow_kept {a s : State} (h : Kept a s) (key : BitVec 32) {kt : State} (ke : execCorrected24hWindow key s = .next kt) :
    Kept a kt := by
  unfold execCorrected24hWindow at ke
  refine Kept.of_done ke ?_
  repeat' (with_reducible first | assumption | refine Kept.ite ?_ ?_ | apply State.corrected24h_kept)

end Sys2Proof.Machine
end

