-- ==== Sys2Proof/Laws/KeptSeam.lean ====
section
/-! SUPPORT. What the operations of Machine/Seam.lean keep (`Kept`). -/

set_option linter.unusedSimpArgs false

namespace Sys2Proof.Machine

theorem State.beginStep_kept {a s : State} (h : Kept a s) :
    Kept a (State.beginStep s) := by
  unfold State.beginStep
  repeat' first
    | (with_reducible first | assumption | refine Kept.ite ?_ ?_)
    | (lift_lets; intro kx; refine Kept.step (a := a) (x := kx) ?_ fun hkx => ?_)
    | (lift_lets; intro kx)
    | (simp only [Kept.mk_iff]; with_reducible refine KeptF.of ?_ (Nat.le_refl _))
    | (simp only [Kept.mk_iff]; with_reducible refine KeptF.of ?_ (Nat.le_succ _))
    | (with_reducible first
        | apply State.setFld_kept | apply State.setRun_kept | apply State.setRecovery_kept
        | apply State.clearStep_kept | apply State.noteLive_kept | apply State.scanStart_kept
        | apply State.clearBanks_kept)
    | (simp only [kx, Kept.mk_iff]; with_reducible refine KeptF.of ?_ (Nat.le_refl _))
    | (with_reducible first
        | refine Kept.foldl ?_ fun kb ky hkb => ?_ | refine Kept.foldl_snd ?_ fun kb ky hkb => ?_
        | refine Kept.foldl_fst ?_ fun kb ky hkb => ?_)
    | split
    | (with_reducible first
        | refine Kept.of_snd (by assumption) ?_ | refine Kept.of_fst (by assumption) ?_
        | refine Kept.of_third (by assumption) ?_)
    | dsimp only
    | unfold kx

theorem State.takeCopy_kept {a s : State} (h : Kept a s) :
    Kept a (State.takeCopy s) := by
  unfold State.takeCopy
  repeat' first
    | (with_reducible first | assumption | refine Kept.ite ?_ ?_)
    | (lift_lets; intro kx; refine Kept.step (a := a) (x := kx) ?_ fun hkx => ?_)
    | (lift_lets; intro kx)
    | (simp only [Kept.mk_iff]; with_reducible refine KeptF.of ?_ (Nat.le_refl _))
    | (simp only [Kept.mk_iff]; with_reducible refine KeptF.of ?_ (Nat.le_succ _))
    | with_reducible apply State.openArea_kept
    | (simp only [kx, Kept.mk_iff]; with_reducible refine KeptF.of ?_ (Nat.le_refl _))
    | (with_reducible first
        | refine Kept.foldl ?_ fun kb ky hkb => ?_ | refine Kept.foldl_snd ?_ fun kb ky hkb => ?_
        | refine Kept.foldl_fst ?_ fun kb ky hkb => ?_)
    | split
    | (with_reducible first
        | refine Kept.of_snd (by assumption) ?_ | refine Kept.of_fst (by assumption) ?_
        | refine Kept.of_third (by assumption) ?_)
    | dsimp only
    | unfold kx

theorem State.setAgreed_kept {a s : State} (h : Kept a s) (k : Nat) :
    Kept a (State.setAgreed s k) := by
  unfold State.setAgreed
  repeat' (with_reducible first | assumption | refine Kept.ite ?_ ?_ | apply State.setReg_kept)

theorem State.fillRound_kept {a s : State} (h : Kept a s) :
    Kept a (State.fillRound s) := by
  unfold State.fillRound
  repeat' first
    | (with_reducible first | assumption | refine Kept.ite ?_ ?_)
    | (lift_lets; intro kx; refine Kept.step (a := a) (x := kx) ?_ fun hkx => ?_)
    | (lift_lets; intro kx)
    | (simp only [Kept.mk_iff]; with_reducible refine KeptF.of ?_ (Nat.le_refl _))
    | (simp only [Kept.mk_iff]; with_reducible refine KeptF.of ?_ (Nat.le_succ _))
    | with_reducible apply State.setAgreed_kept
    | (simp only [kx, Kept.mk_iff]; with_reducible refine KeptF.of ?_ (Nat.le_refl _))
    | (with_reducible first
        | refine Kept.foldl ?_ fun kb ky hkb => ?_ | refine Kept.foldl_snd ?_ fun kb ky hkb => ?_
        | refine Kept.foldl_fst ?_ fun kb ky hkb => ?_)
    | split
    | (with_reducible first
        | refine Kept.of_snd (by assumption) ?_ | refine Kept.of_fst (by assumption) ?_
        | refine Kept.of_third (by assumption) ?_)
    | dsimp only
    | unfold kx

theorem State.seamNext_kept {a s : State} (h : Kept a s) :
    Kept a (State.seamNext s) := by
  unfold State.seamNext
  repeat' first
    | (with_reducible first
        | assumption | refine Kept.ite ?_ ?_ | apply State.setHold_kept | apply State.endHold_kept
        | apply State.beginSave_kept | apply State.beginStep_kept | apply State.takeCopy_kept
        | apply State.fillRound_kept)
    | split

theorem State.seamWork_kept {a s : State} (h : Kept a s) :
    Kept a (State.seamWork s) := by
  unfold State.seamWork
  repeat' first
    | (with_reducible first
        | assumption | refine Kept.ite ?_ ?_ | apply State.applySeamGroups_kept | apply State.remap_kept
        | apply State.seamRotations_kept | apply State.sumpNow_kept | apply State.retrainMarked_kept)

theorem State.setLimit_kept {a s : State} (h : Kept a s) (v : Word) :
    Kept a (State.setLimit s v) := by
  unfold State.setLimit
  repeat' (with_reducible first | assumption | refine Kept.ite ?_ ?_ | apply State.setFld_kept)

theorem State.startRun_kept {a s : State} (h : Kept a s) (at_ : Bool) :
    Kept a (State.startRun s at_) := by
  unfold State.startRun
  repeat' first
    | (with_reducible first | assumption | refine Kept.ite ?_ ?_)
    | (simp only [Kept.mk_iff]; with_reducible refine KeptF.of ?_ (Nat.le_refl _))
    | (with_reducible first
        | apply State.setFld_kept | apply State.setRun_kept | apply State.raiseIrq_kept
        | apply State.setLoadState_kept | apply State.seamNext_kept)

theorem State.runStart_kept {a s : State} (h : Kept a s) (at_ : Bool) (v : Word) :
    Kept a (State.runStart s at_ v) := by
  unfold State.runStart
  repeat' first
    | (with_reducible first | assumption | refine Kept.ite ?_ ?_)
    | (lift_lets; intro kx)
    | (with_reducible first
        | apply State.onReady_kept | apply State.setLoadCode_kept | apply State.setLimit_kept
        | apply State.startRun_kept)

theorem execRunStart_kept {a s : State} (h : Kept a s) (value : Word) {kt : State} (ke : execRunStart value s = .next kt) :
    Kept a kt := by
  unfold execRunStart at ke
  refine Kept.of_done ke ?_
  repeat' first
    | with_reducible assumption
    | (lift_lets; intro kx)
    | (with_reducible first | apply State.onSteward_kept | apply State.runStart_kept)

theorem execRunStartAt_kept {a s : State} (h : Kept a s) (value : Word) {kt : State} (ke : execRunStartAt value s = .next kt) :
    Kept a kt := by
  unfold execRunStartAt at ke
  refine Kept.of_done ke ?_
  repeat' first
    | with_reducible assumption
    | (lift_lets; intro kx)
    | (with_reducible first | apply State.onSteward_kept | apply State.runStart_kept)

theorem State.atLaunch_kept {a s : State} (h : Kept a s) :
    Kept a (State.atLaunch s) := by
  unfold State.atLaunch
  repeat' first
    | (with_reducible first
        | assumption | refine Kept.ite ?_ ?_ | apply State.setReg_kept | apply State.setFld_kept
        | apply State.beginStep_kept)

theorem execAtLaunch_kept {a s : State} (h : Kept a s) {kt : State} (ke : execAtLaunch s = .next kt) :
    Kept a kt := by
  unfold execAtLaunch at ke
  refine Kept.of_done ke ?_
  repeat' (with_reducible first | assumption | refine Kept.ite ?_ ?_ | apply State.atLaunch_kept)

theorem State.toLoaded_kept {a s : State} (h : Kept a s) :
    Kept a (State.toLoaded s) := by
  unfold State.toLoaded
  repeat' first
    | (with_reducible first
        | assumption | refine Kept.ite ?_ ?_ | apply State.setFld_kept | apply State.setRun_kept
        | apply State.setLoadState_kept | apply State.endHold_kept)

theorem State.stopRun_kept {a s : State} (h : Kept a s) :
    Kept a (State.stopRun s) := by
  unfold State.stopRun
  repeat' first
    | (with_reducible first
        | assumption | refine Kept.ite ?_ ?_ | apply State.setLoadState_kept | apply State.toLoaded_kept)

theorem State.runStop_kept {a s : State} (h : Kept a s) (v : Word) :
    Kept a (State.runStop s v) := by
  unfold State.runStop
  repeat' first
    | (with_reducible first
        | assumption | refine Kept.ite ?_ ?_ | apply State.setLimit_kept | apply State.stopRun_kept)

theorem execRunStop_kept {a s : State} (h : Kept a s) (value : Word) {kt : State} (ke : execRunStop value s = .next kt) :
    Kept a kt := by
  unfold execRunStop at ke
  refine Kept.of_done ke ?_
  repeat' first
    | with_reducible assumption
    | (lift_lets; intro kx)
    | (with_reducible first | apply State.onReady_kept | apply State.runStop_kept)

theorem State.abortOutputs_kept {a s : State} (h : Kept a s) (entries : List Ent) :
    Kept a (State.abortOutputs s entries) := by
  unfold State.abortOutputs
  repeat' first
    | (with_reducible first
        | assumption | refine Kept.ite ?_ ?_ | apply State.write_kept | apply State.tickFree_kept
        | refine Kept.foldl ?_ fun kb ky hkb => ?_)

theorem State.cutOff_kept {a s : State} (h : Kept a s) :
    Kept a (State.cutOff s) := by
  unfold State.cutOff
  repeat' first
    | (with_reducible first | assumption | refine Kept.ite ?_ ?_)
    | (lift_lets; intro kx; refine Kept.step (a := a) (x := kx) ?_ fun hkx => ?_)
    | (lift_lets; intro kx)
    | (simp only [Kept.mk_iff]; with_reducible refine KeptF.of ?_ (Nat.le_refl _))
    | (simp only [Kept.mk_iff]; with_reducible refine KeptF.of ?_ (Nat.le_succ _))
    | (with_reducible first
        | apply State.setRun_kept | apply State.setLoadState_kept | apply State.dropExports_kept
        | apply State.failSave_kept | apply State.clearStep_kept | apply State.abortOutputs_kept)
    | (simp only [kx, Kept.mk_iff]; with_reducible refine KeptF.of ?_ (Nat.le_refl _))
    | (with_reducible first
        | refine Kept.foldl ?_ fun kb ky hkb => ?_ | refine Kept.foldl_snd ?_ fun kb ky hkb => ?_
        | refine Kept.foldl_fst ?_ fun kb ky hkb => ?_)
    | split
    | (with_reducible first
        | refine Kept.of_snd (by assumption) ?_ | refine Kept.of_fst (by assumption) ?_
        | refine Kept.of_third (by assumption) ?_)
    | dsimp only
    | unfold kx

theorem State.abortStopped_kept {a s : State} (h : Kept a s) :
    Kept a (State.abortStopped s) := by
  unfold State.abortStopped
  repeat' first
    | (with_reducible first | assumption | refine Kept.ite ?_ ?_)
    | (simp only [Kept.mk_iff]; with_reducible refine KeptF.of ?_ (Nat.le_refl _))
    | (with_reducible first | apply State.toLoaded_kept | apply State.cutOff_kept)

theorem State.runAbort_kept {a s : State} (h : Kept a s) (v : Word) :
    Kept a (State.runAbort s v) := by
  unfold State.runAbort
  repeat' first
    | (with_reducible first
        | assumption | refine Kept.ite ?_ ?_ | apply State.seamWork_kept | apply State.setLimit_kept
        | apply State.toLoaded_kept | apply State.cutOff_kept | apply State.abortStopped_kept)

theorem execRunAbort_kept {a s : State} (h : Kept a s) (value : Word) {kt : State} (ke : execRunAbort value s = .next kt) :
    Kept a kt := by
  unfold execRunAbort at ke
  refine Kept.of_done ke ?_
  repeat' first
    | with_reducible assumption
    | (lift_lets; intro kx)
    | (with_reducible first | apply State.onReady_kept | apply State.runAbort_kept)

theorem State.stopLedger_kept {a s : State} (h : Kept a s) (ts : List Nat) :
    Kept a (State.stopLedger s ts) := by
  unfold State.stopLedger
  repeat' first
    | with_reducible assumption
    | (simp only [Kept.mk_iff]; with_reducible refine KeptF.of ?_ (Nat.le_refl _))
    | (with_reducible first
        | apply State.bump_kept | apply State.emit_kept | apply State.stopStep_kept
        | refine Kept.foldl ?_ fun kb ky hkb => ?_)

theorem State.stopPips_kept {a s : State} (h : Kept a s) (ts : List Nat) :
    Kept a (State.stopPips s ts) := by
  unfold State.stopPips
  repeat' first
    | (with_reducible first | assumption | refine Kept.ite ?_ ?_)
    | (lift_lets; intro kx; refine Kept.step (a := a) (x := kx) ?_ fun hkx => ?_)
    | (lift_lets; intro kx)
    | (simp only [Kept.mk_iff]; with_reducible refine KeptF.of ?_ (Nat.le_refl _))
    | (simp only [Kept.mk_iff]; with_reducible refine KeptF.of ?_ (Nat.le_succ _))
    | (with_reducible first
        | apply State.bump_kept | apply State.emit_kept | apply State.stopStep_kept | apply State.rollbackAll_kept)
    | (simp only [kx, Kept.mk_iff]; with_reducible refine KeptF.of ?_ (Nat.le_refl _))
    | (with_reducible first
        | refine Kept.foldl ?_ fun kb ky hkb => ?_ | refine Kept.foldl_snd ?_ fun kb ky hkb => ?_
        | refine Kept.foldl_fst ?_ fun kb ky hkb => ?_)
    | split
    | (with_reducible first
        | refine Kept.of_snd (by assumption) ?_ | refine Kept.of_fst (by assumption) ?_
        | refine Kept.of_third (by assumption) ?_)
    | dsimp only
    | unfold kx

theorem State.stopPoison_kept {a s : State} (h : Kept a s) (aa : Nat) :
    Kept a (State.stopPoison s aa) := by
  unfold State.stopPoison
  repeat' first
    | (with_reducible first
        | assumption | refine Kept.ite ?_ ?_ | apply State.bump_kept | apply State.emit_kept
        | apply State.stopStep_kept)

theorem State.promotePips_kept {a s : State} (h : Kept a s) :
    Kept a (State.promotePips s) := by
  unfold State.promotePips
  repeat' first
    | with_reducible assumption
    | (simp only [Kept.mk_iff]; with_reducible refine KeptF.of ?_ (Nat.le_refl _))

theorem State.foldStash_kept {a s : State} (h : Kept a s) :
    Kept a (State.foldStash s) := by
  unfold State.foldStash
  repeat' first
    | (with_reducible first
        | assumption | refine Kept.ite ?_ ?_ | apply State.write_kept | refine Kept.foldl ?_ fun kb ky hkb => ?_)
    | exact hkz

theorem State.unpinRows_kept {a s : State} (h : Kept a s) :
    Kept a (State.unpinRows s) := by
  unfold State.unpinRows
  repeat' (with_reducible first | assumption | refine Kept.ite ?_ ?_ | apply State.setLines_kept)

theorem State.crossBanks_kept {a s : State} (h : Kept a s) :
    Kept a (State.crossBanks s) := by
  unfold State.crossBanks
  repeat' first
    | with_reducible assumption
    | (simp only [Kept.mk_iff]; with_reducible refine KeptF.of ?_ (Nat.le_refl _))

theorem State.sumLedgers_kept {a s : State} (h : Kept a s) :
    Kept a (State.sumLedgers s) := by
  unfold State.sumLedgers
  repeat' first
    | with_reducible assumption
    | (simp only [Kept.mk_iff]; with_reducible refine KeptF.of ?_ (Nat.le_refl _))

theorem State.echoRound_kept {a s : State} (h : Kept a s) (k : Nat) :
    Kept a (State.echoRound s k) := by
  unfold State.echoRound
  repeat' first
    | with_reducible assumption
    | (simp only [Kept.mk_iff]; with_reducible refine KeptF.of ?_ (Nat.le_refl _))
    | (with_reducible first | apply State.bump_kept | apply State.setFld_kept | apply State.sendMsg_kept)

theorem State.countStep_kept {a s : State} (h : Kept a s) :
    Kept a (State.countStep s) := by
  unfold State.countStep
  repeat' (with_reducible first | assumption | refine Kept.ite ?_ ?_ | apply State.bump_kept)

theorem State.reachSeam_kept {a s : State} (h : Kept a s) :
    Kept a (State.reachSeam s) := by
  unfold State.reachSeam
  repeat' first
    | (with_reducible first | assumption | refine Kept.ite ?_ ?_)
    | (lift_lets; intro kx; refine Kept.step (a := a) (x := kx) ?_ fun hkx => ?_)
    | (lift_lets; intro kx)
    | (simp only [Kept.mk_iff]; with_reducible refine KeptF.of ?_ (Nat.le_refl _))
    | (simp only [Kept.mk_iff]; with_reducible refine KeptF.of ?_ (Nat.le_succ _))
    | (with_reducible first
        | apply State.setRun_kept | apply State.clearStep_kept | apply State.seamLive_kept | apply State.setStep_kept
        | apply State.promotePips_kept | apply State.foldStash_kept | apply State.unpinRows_kept
        | apply State.crossBanks_kept | apply State.sumLedgers_kept | apply State.echoRound_kept
        | apply State.countStep_kept)
    | (simp only [kx, Kept.mk_iff]; with_reducible refine KeptF.of ?_ (Nat.le_refl _))
    | (with_reducible first
        | refine Kept.foldl ?_ fun kb ky hkb => ?_ | refine Kept.foldl_snd ?_ fun kb ky hkb => ?_
        | refine Kept.foldl_fst ?_ fun kb ky hkb => ?_)
    | split
    | (with_reducible first
        | refine Kept.of_snd (by assumption) ?_ | refine Kept.of_fst (by assumption) ?_
        | refine Kept.of_third (by assumption) ?_)
    | dsimp only
    | unfold kx

theorem State.stepSeam_kept {a s : State} (h : Kept a s) :
    Kept a (State.stepSeam s) := by
  unfold State.stepSeam
  repeat' first
    | (with_reducible first | assumption | refine Kept.ite ?_ ?_)
    | (lift_lets; intro kx; refine Kept.step (a := a) (x := kx) ?_ fun hkx => ?_)
    | (lift_lets; intro kx)
    | (simp only [Kept.mk_iff]; with_reducible refine KeptF.of ?_ (Nat.le_refl _))
    | (simp only [Kept.mk_iff]; with_reducible refine KeptF.of ?_ (Nat.le_succ _))
    | (with_reducible first
        | apply State.bump_kept | apply State.seamNext_kept | apply State.seamWork_kept | apply State.toLoaded_kept
        | apply State.stopLedger_kept | apply State.stopPips_kept | apply State.stopPoison_kept
        | apply State.reachSeam_kept)
    | (simp only [kx, Kept.mk_iff]; with_reducible refine KeptF.of ?_ (Nat.le_refl _))
    | (with_reducible first
        | refine Kept.foldl ?_ fun kb ky hkb => ?_ | refine Kept.foldl_snd ?_ fun kb ky hkb => ?_
        | refine Kept.foldl_fst ?_ fun kb ky hkb => ?_)
    | split
    | (with_reducible first
        | refine Kept.of_snd (by assumption) ?_ | refine Kept.of_fst (by assumption) ?_
        | refine Kept.of_third (by assumption) ?_)
    | dsimp only
    | unfold kx

theorem execStepSeam_kept {a s : State} (h : Kept a s) {kt : State} (ke : execStepSeam s = .next kt) :
    Kept a kt := by
  unfold execStepSeam at ke
  refine Kept.of_done ke ?_
  repeat' (with_reducible first | assumption | refine Kept.ite ?_ ?_ | apply State.stepSeam_kept)

theorem State.partialReloadDone_kept {a s : State} (h : Kept a s) (hwFault : Bool) :
    Kept a (State.partialReloadDone s hwFault) := by
  unfold State.partialReloadDone
  repeat' first
    | (with_reducible first
        | assumption | apply State.loadFaultEnd_kept | apply State.applyReload_kept | apply State.seamNext_kept)
    | split

theorem execPartialReloadDone_kept {a s : State} (h : Kept a s) (hwFault : Bool) {kt : State} (ke : execPartialReloadDone hwFault s = .next kt) :
    Kept a kt := by
  unfold execPartialReloadDone at ke
  refine Kept.of_done ke ?_
  repeat' first
    | with_reducible assumption
    | (lift_lets; intro kx)
    | (with_reducible first | apply State.onSteward_kept | apply State.partialReloadDone_kept)

theorem State.checkpointCopyDone_kept {a s : State} (h : Kept a s) (holdNs : Nat) (es : List MemError) :
    Kept a (State.checkpointCopyDone s holdNs es) := by
  unfold State.checkpointCopyDone
  repeat' first
    | (with_reducible first | assumption | refine Kept.ite ?_ ?_)
    | (simp only [Kept.mk_iff]; with_reducible refine KeptF.of ?_ (Nat.le_refl _))
    | (with_reducible first | apply State.bump_kept | apply State.copyReads_kept | apply State.seamNext_kept)

theorem execCheckpointCopyDone_kept {a s : State} (h : Kept a s) (copy : CopyEnd) {kt : State} (ke : execCheckpointCopyDone copy s = .next kt) :
    Kept a kt := by
  unfold execCheckpointCopyDone at ke
  refine Kept.of_done ke ?_
  repeat' first
    | (with_reducible first | assumption | refine Kept.ite ?_ ?_)
    | (lift_lets; intro kx; refine Kept.step (a := a) (x := kx) ?_ fun hkx => ?_)
    | (lift_lets; intro kx)
    | (simp only [Kept.mk_iff]; with_reducible refine KeptF.of ?_ (Nat.le_refl _))
    | (simp only [Kept.mk_iff]; with_reducible refine KeptF.of ?_ (Nat.le_succ _))
    | (with_reducible first | apply State.onSteward_kept | apply State.checkpointCopyDone_kept)
    | (simp only [kx, Kept.mk_iff]; with_reducible refine KeptF.of ?_ (Nat.le_refl _))
    | (with_reducible first
        | refine Kept.foldl ?_ fun kb ky hkb => ?_ | refine Kept.foldl_snd ?_ fun kb ky hkb => ?_
        | refine Kept.foldl_fst ?_ fun kb ky hkb => ?_)
    | split
    | (with_reducible first
        | refine Kept.of_snd (by assumption) ?_ | refine Kept.of_fst (by assumption) ?_
        | refine Kept.of_third (by assumption) ?_)
    | dsimp only
    | unfold kx

theorem State.endSave_kept {a s : State} (h : Kept a s) (j : SnapJob) (hwFault : Bool) (es : List MemError) :
    Kept a (State.endSave s j hwFault es) := by
  unfold State.endSave
  repeat' first
    | (with_reducible first
        | assumption | refine Kept.ite ?_ ?_ | apply State.bump_kept | apply State.setFld_kept
        | apply State.setSnap_kept | apply State.copyReads_kept | apply State.endSnap_kept | apply State.seamNext_kept
        | apply State.toLoaded_kept)

theorem State.endRestore_kept {a s : State} (h : Kept a s) (j : SnapJob) (hwFault : Bool) (es : List MemError) :
    Kept a (State.endRestore s j hwFault es) := by
  unfold State.endRestore
  repeat' first
    | (with_reducible first
        | assumption | refine Kept.ite ?_ ?_ | apply State.meetReads_kept | apply State.restoreSnap_kept
        | apply State.cutRestore_kept | apply State.endSnap_kept)

theorem State.snapshotCopyDone_kept {a s : State} (h : Kept a s) (hwFault : Bool) (es : List MemError) :
    Kept a (State.snapshotCopyDone s hwFault es) := by
  unfold State.snapshotCopyDone
  repeat' first
    | (with_reducible first | assumption | apply State.endSave_kept | apply State.endRestore_kept)
    | split

theorem execSnapshotCopyDone_kept {a s : State} (h : Kept a s) (copy : SnapEnd) {kt : State} (ke : execSnapshotCopyDone copy s = .next kt) :
    Kept a kt := by
  unfold execSnapshotCopyDone at ke
  refine Kept.of_done ke ?_
  repeat' first
    | (with_reducible first | assumption | refine Kept.ite ?_ ?_)
    | (lift_lets; intro kx; refine Kept.step (a := a) (x := kx) ?_ fun hkx => ?_)
    | (lift_lets; intro kx)
    | (simp only [Kept.mk_iff]; with_reducible refine KeptF.of ?_ (Nat.le_refl _))
    | (simp only [Kept.mk_iff]; with_reducible refine KeptF.of ?_ (Nat.le_succ _))
    | (with_reducible first | apply State.onSteward_kept | apply State.snapshotCopyDone_kept)
    | (simp only [kx, Kept.mk_iff]; with_reducible refine KeptF.of ?_ (Nat.le_refl _))
    | (with_reducible first
        | refine Kept.foldl ?_ fun kb ky hkb => ?_ | refine Kept.foldl_snd ?_ fun kb ky hkb => ?_
        | refine Kept.foldl_fst ?_ fun kb ky hkb => ?_)
    | split
    | (with_reducible first
        | refine Kept.of_snd (by assumption) ?_ | refine Kept.of_fst (by assumption) ?_
        | refine Kept.of_third (by assumption) ?_)
    | dsimp only
    | unfold kx

end Sys2Proof.Machine
end

