-- ==== Sys2Proof/Laws/KeptRecovery.lean ====
section
/-! SUPPORT. What the operations of Machine/Recovery.lean keep (`Kept`). -/

set_option linter.unusedSimpArgs false

namespace Sys2Proof.Machine

theorem State.applyCauses_kept {a s : State} (h : Kept a s) :
    Kept a (State.applyCauses s) := by
  unfold State.applyCauses
  repeat' first
    | (with_reducible first | assumption | refine Kept.ite ?_ ?_)
    | (simp only [Kept.mk_iff]; with_reducible refine KeptF.of ?_ (Nat.le_refl _))
    | (with_reducible first
        | apply State.retireDue_kept | apply State.applyCause_kept | refine Kept.foldl ?_ fun kb ky hkb => ?_)

theorem State.substitute_kept {a s : State} (h : Kept a s) (fails : List Nat) (n : Nat) :
    Kept a (s.substitute fails n) := by
  induction n generalizing s fails with
  | zero => exact State.rebuild_kept h
  | succ n ih =>
    unfold State.substitute
    dsimp only
    split
    · exact ih (State.strikeSump_kept (State.failScreen_kept h _ _) _ _) _
    · exact State.rebuild_kept h

theorem State.scrubLost_kept {a s : State} (h : Kept a s) (aa : Nat) (n : Nat) :
    Kept a (State.scrubLost s aa n) := by
  unfold State.scrubLost
  repeat' first
    | (with_reducible first
        | assumption | refine Kept.ite ?_ ?_ | apply State.poisonRange_kept | apply State.scrubRange_kept
        | refine Kept.foldl ?_ fun kb ky hkb => ?_)

theorem State.scrubMoved_kept {a s : State} (h : Kept a s) (moved : List Nat) :
    Kept a (State.scrubMoved s moved) := by
  unfold State.scrubMoved
  repeat' first
    | (with_reducible first
        | assumption | refine Kept.ite ?_ ?_ | apply State.scrubLost_kept | refine Kept.foldl ?_ fun kb ky hkb => ?_)

theorem State.undoBack_kept {a s : State} (h : Kept a s) (t : Nat) :
    Kept a (State.undoBack s t) := by
  unfold State.undoBack
  repeat' first
    | with_reducible assumption
    | (simp only [Kept.mk_iff]; with_reducible refine KeptF.of ?_ (Nat.le_refl _))
    | (with_reducible first | apply State.write_kept | refine Kept.foldl ?_ fun kb ky hkb => ?_)
    | split

theorem State.copyBack_kept {a s : State} (h : Kept a s) (c : StepCopy) :
    Kept a (State.copyBack s c) := by
  unfold State.copyBack
  repeat' first
    | (with_reducible first | assumption | apply State.write_kept | refine Kept.foldl ?_ fun kb ky hkb => ?_)
    | split

theorem State.putBanks_kept {a s : State} (h : Kept a s) (bs : Tab Bank) :
    Kept a (State.putBanks s bs) := by
  unfold State.putBanks
  repeat' first
    | (with_reducible first | assumption | refine Kept.ite ?_ ?_)
    | (lift_lets; intro kx; refine Kept.step (a := a) (x := kx) ?_ fun hkx => ?_)
    | (lift_lets; intro kx)
    | (simp only [Kept.mk_iff]; with_reducible refine KeptF.of ?_ (Nat.le_refl _))
    | (simp only [Kept.mk_iff]; with_reducible refine KeptF.of ?_ (Nat.le_succ _))
    | with_reducible apply State.putBank_kept
    | (simp only [kx, Kept.mk_iff]; with_reducible refine KeptF.of ?_ (Nat.le_refl _))
    | (with_reducible first
        | refine Kept.foldl ?_ fun kb ky hkb => ?_ | refine Kept.foldl_snd ?_ fun kb ky hkb => ?_
        | refine Kept.foldl_fst ?_ fun kb ky hkb => ?_)
    | split
    | (with_reducible first
        | refine Kept.of_snd (by assumption) ?_ | refine Kept.of_fst (by assumption) ?_
        | refine Kept.of_third (by assumption) ?_)
    | dsimp only
    | unfold kx

theorem State.restoreTo_kept {a s : State} (h : Kept a s) (t : Nat) (c : StepCopy) (round : Bool) :
    Kept a (State.restoreTo s t c round) := by
  unfold State.restoreTo
  repeat' first
    | (with_reducible first | assumption | refine Kept.ite ?_ ?_)
    | (lift_lets; intro kx; refine Kept.step (a := a) (x := kx) ?_ fun hkx => ?_)
    | (lift_lets; intro kx)
    | (simp only [Kept.mk_iff]; with_reducible refine KeptF.of ?_ (Nat.le_refl _))
    | (simp only [Kept.mk_iff]; with_reducible refine KeptF.of ?_ (Nat.le_succ _))
    | (with_reducible first
        | apply State.setFld_kept | apply State.setRun_kept | apply State.dropExports_kept
        | apply State.clearStep_kept | apply State.seamLive_kept | apply State.unpip_kept | apply State.setStep_kept
        | apply State.dropTables_kept | apply State.undoBack_kept | apply State.copyBack_kept
        | apply State.putBanks_kept)
    | (simp only [kx, Kept.mk_iff]; with_reducible refine KeptF.of ?_ (Nat.le_refl _))
    | (with_reducible first
        | refine Kept.foldl ?_ fun kb ky hkb => ?_ | refine Kept.foldl_snd ?_ fun kb ky hkb => ?_
        | refine Kept.foldl_fst ?_ fun kb ky hkb => ?_)
    | split
    | (with_reducible first
        | refine Kept.of_snd (by assumption) ?_ | refine Kept.of_fst (by assumption) ?_
        | refine Kept.of_third (by assumption) ?_)
    | dsimp only
    | unfold kx

theorem State.patchLine_kept {a s : State} (h : Kept a s) (aa : Nat) (n : Nat) :
    Kept a (State.patchLine s aa n) := by
  unfold State.patchLine
  repeat' first
    | (with_reducible first
        | assumption | refine Kept.ite ?_ ?_ | apply State.write_kept | refine Kept.foldl ?_ fun kb ky hkb => ?_)
    | split

theorem State.handleLost_kept {a : State} {p : State × Nat × Option (Nat × Nat)} (h : Kept a p.1)
    (rows : List (Nat × Nat)) (copy : Bool) (restore : Option Bool) (r : Nat × Nat) :
    Kept a (State.handleLost rows copy restore p r).1 := by
  unfold State.handleLost
  dsimp only
  split
  · exact State.clearPoison_kept (State.patchLine_kept h _ _) _ _
  · exact State.bump_kept (State.emit_kept (State.write_kept h _ _) _ _ _ _ _) _ _
  all_goals exact h

theorem State.lostLines_kept {a s : State} (h : Kept a s) (rows : List (Nat × Nat)) (copy : Bool) (restore : Option Bool) :
    Kept a (State.lostLines s rows copy restore).1 := by
  unfold State.lostLines
  repeat' first
    | (with_reducible first | assumption | refine Kept.ite ?_ ?_)
    | (lift_lets; intro kx; refine Kept.step (a := a) (x := kx) ?_ fun hkx => ?_)
    | (lift_lets; intro kx)
    | (simp only [Kept.mk_iff]; with_reducible refine KeptF.of ?_ (Nat.le_refl _))
    | (simp only [Kept.mk_iff]; with_reducible refine KeptF.of ?_ (Nat.le_succ _))
    | with_reducible apply State.handleLost_kept
    | (simp only [kx, Kept.mk_iff]; with_reducible refine KeptF.of ?_ (Nat.le_refl _))
    | (with_reducible first
        | refine Kept.foldl ?_ fun kb ky hkb => ?_ | refine Kept.foldl_snd ?_ fun kb ky hkb => ?_
        | refine Kept.foldl_fst ?_ fun kb ky hkb => ?_)
    | split
    | (with_reducible first
        | refine Kept.of_snd (by assumption) ?_ | refine Kept.of_fst (by assumption) ?_
        | refine Kept.of_third (by assumption) ?_)
    | dsimp only
    | unfold kx

theorem State.sendReady_kept {a s : State} (h : Kept a s) (outcome : Nat) :
    Kept a (State.sendReady s outcome) := by
  unfold State.sendReady
  repeat' (with_reducible first | assumption | refine Kept.ite ?_ ?_ | apply State.sendMsg_kept)

theorem State.closeRecovery_kept {a s : State} (h : Kept a s) (outcome : Nat) (kind : Nat) (ms : Nat) (seam : Bool) :
    Kept a (State.closeRecovery s outcome kind ms seam) := by
  unfold State.closeRecovery
  repeat' first
    | (with_reducible first
        | assumption | refine Kept.ite ?_ ?_ | apply State.setRun_kept | apply State.setLoadState_kept
        | apply State.setRecovery_kept | apply State.endRecovery_kept | apply State.setImage_kept
        | apply State.setBuffer_kept | apply State.seamNext_kept | apply State.seamWork_kept
        | apply State.sendReady_kept)

theorem State.rollTo_kept {a s : State} (h : Kept a s) (r : RoundSlot) (ms : Nat) :
    Kept a (State.rollTo s r ms) := by
  unfold State.rollTo
  repeat' first
    | (with_reducible first | assumption | refine Kept.ite ?_ ?_)
    | (lift_lets; intro kx; refine Kept.step (a := a) (x := kx) ?_ fun hkx => ?_)
    | (lift_lets; intro kx)
    | (simp only [Kept.mk_iff]; with_reducible refine KeptF.of ?_ (Nat.le_refl _))
    | (simp only [Kept.mk_iff]; with_reducible refine KeptF.of ?_ (Nat.le_succ _))
    | (with_reducible first
        | apply State.bump_kept | apply State.emit_kept | apply State.restoreTo_kept | apply State.lostLines_kept
        | apply State.closeRecovery_kept)
    | (simp only [kx, Kept.mk_iff]; with_reducible refine KeptF.of ?_ (Nat.le_refl _))
    | (with_reducible first
        | refine Kept.foldl ?_ fun kb ky hkb => ?_ | refine Kept.foldl_snd ?_ fun kb ky hkb => ?_
        | refine Kept.foldl_fst ?_ fun kb ky hkb => ?_)
    | split
    | (with_reducible first
        | refine Kept.of_snd (by assumption) ?_ | refine Kept.of_fst (by assumption) ?_
        | refine Kept.of_third (by assumption) ?_)
    | dsimp only
    | unfold kx

theorem State.loseState_kept {a s : State} (h : Kept a s) (l : Option (Nat × Nat)) (kind : Nat) (ms : Nat) :
    Kept a (State.loseState s l kind ms) := by
  unfold State.loseState
  repeat' first
    | (with_reducible first | assumption | refine Kept.ite ?_ ?_)
    | (lift_lets; intro kx; refine Kept.step (a := a) (x := kx) ?_ fun hkx => ?_)
    | (lift_lets; intro kx)
    | (simp only [Kept.mk_iff]; with_reducible refine KeptF.of ?_ (Nat.le_refl _))
    | (simp only [Kept.mk_iff]; with_reducible refine KeptF.of ?_ (Nat.le_succ _))
    | (with_reducible first | apply State.bump_kept | apply State.emit_kept | apply State.closeRecovery_kept)
    | (simp only [kx, Kept.mk_iff]; with_reducible refine KeptF.of ?_ (Nat.le_refl _))
    | (with_reducible first
        | refine Kept.foldl ?_ fun kb ky hkb => ?_ | refine Kept.foldl_snd ?_ fun kb ky hkb => ?_
        | refine Kept.foldl_fst ?_ fun kb ky hkb => ?_)
    | split
    | (with_reducible first
        | refine Kept.of_snd (by assumption) ?_ | refine Kept.of_fst (by assumption) ?_
        | refine Kept.of_third (by assumption) ?_)
    | dsimp only
    | unfold kx

theorem State.restoreStep_kept {a s : State} (h : Kept a s) (kind : Nat) (ms : Nat) :
    Kept a (State.restoreStep s kind ms) := by
  unfold State.restoreStep
  repeat' first
    | (with_reducible first | assumption | refine Kept.ite ?_ ?_)
    | (lift_lets; intro kx; refine Kept.step (a := a) (x := kx) ?_ fun hkx => ?_)
    | (lift_lets; intro kx)
    | (simp only [Kept.mk_iff]; with_reducible refine KeptF.of ?_ (Nat.le_refl _))
    | (simp only [Kept.mk_iff]; with_reducible refine KeptF.of ?_ (Nat.le_succ _))
    | (with_reducible first
        | apply State.setRecovery_kept | apply State.restoreTo_kept | apply State.lostLines_kept
        | apply State.closeRecovery_kept | apply State.rollTo_kept | apply State.loseState_kept)
    | (simp only [kx, Kept.mk_iff]; with_reducible refine KeptF.of ?_ (Nat.le_refl _))
    | (with_reducible first
        | refine Kept.foldl ?_ fun kb ky hkb => ?_ | refine Kept.foldl_snd ?_ fun kb ky hkb => ?_
        | refine Kept.foldl_fst ?_ fun kb ky hkb => ?_)
    | split
    | (with_reducible first
        | refine Kept.of_snd (by assumption) ?_ | refine Kept.of_fst (by assumption) ?_
        | refine Kept.of_third (by assumption) ?_)
    | dsimp only
    | unfold kx

theorem State.finishRecovery_kept {a s : State} (h : Kept a s) (moved : List Nat) (extra : List Nat) (kind : Nat) (ms : Nat) :
    Kept a (State.finishRecovery s moved extra kind ms) := by
  unfold State.finishRecovery
  repeat' first
    | (with_reducible first | assumption | refine Kept.ite ?_ ?_)
    | (lift_lets; intro kx; refine Kept.step (a := a) (x := kx) ?_ fun hkx => ?_)
    | (lift_lets; intro kx)
    | (simp only [Kept.mk_iff]; with_reducible refine KeptF.of ?_ (Nat.le_refl _))
    | (simp only [Kept.mk_iff]; with_reducible refine KeptF.of ?_ (Nat.le_succ _))
    | (with_reducible first
        | apply State.setRecovery_kept | apply State.leaveFleet_kept | apply State.loseDies_kept
        | apply State.recoveryReload_kept | apply State.noteReturned_kept | apply State.homeRows_kept
        | apply State.screenMoved_kept | apply State.noteStalled_kept | apply State.closeRecovery_kept
        | apply State.restoreStep_kept)
    | (simp only [kx, Kept.mk_iff]; with_reducible refine KeptF.of ?_ (Nat.le_refl _))
    | (with_reducible first
        | refine Kept.foldl ?_ fun kb ky hkb => ?_ | refine Kept.foldl_snd ?_ fun kb ky hkb => ?_
        | refine Kept.foldl_fst ?_ fun kb ky hkb => ?_)
    | split
    | (with_reducible first
        | refine Kept.of_snd (by assumption) ?_ | refine Kept.of_fst (by assumption) ?_
        | refine Kept.of_third (by assumption) ?_)
    | dsimp only
    | unfold kx

theorem State.unitRecovery_kept {a s : State} (h : Kept a s) (fails : List Nat) (ms : Nat) :
    Kept a (State.unitRecovery s fails ms) := by
  unfold State.unitRecovery
  repeat' first
    | (with_reducible first
        | assumption | refine Kept.ite ?_ ?_ | apply State.bump_kept | apply State.setRecovery_kept
        | apply State.applyCauses_kept | apply State.substitute_kept | apply State.scrubMoved_kept
        | apply State.finishRecovery_kept)

theorem execUnitRecovery_kept {a s : State} (h : Kept a s) (failScreens : List (BitVec 32)) (durationMs : BitVec 32) {kt : State} (ke : execUnitRecovery failScreens durationMs s = .next kt) :
    Kept a kt := by
  unfold execUnitRecovery at ke
  refine Kept.of_done ke ?_
  repeat' first
    | with_reducible assumption
    | (lift_lets; intro kx)
    | (with_reducible first | apply State.onSteward_kept | apply State.unitRecovery_kept)

theorem State.remapPc_kept {a s : State} (h : Kept a s) (bad : List Nat) (k : Nat) (rule : Nat) :
    Kept a (State.remapPc s bad k rule) := by
  unfold State.remapPc
  repeat' first
    | (with_reducible first
        | assumption | refine Kept.ite ?_ ?_ | apply State.poisonAt_kept | apply State.setReg_kept
        | apply State.setFld_kept | apply State.retire_kept | refine Kept.foldl ?_ fun kb ky hkb => ?_)

theorem State.loseStack_kept {a s : State} (h : Kept a s) (st : Nat) :
    Kept a (State.loseStack s st) := by
  unfold State.loseStack
  repeat' (with_reducible first | assumption | refine Kept.ite ?_ ?_ | apply State.setFld_kept | apply State.retire_kept)

theorem State.resetStacks_kept {a s : State} (h : Kept a s) (d : Nat) (recurring : List Nat) (failed : List Nat) (bad : List Nat) :
    Kept a (State.resetStacks s d recurring failed bad) := by
  unfold State.resetStacks
  repeat' first
    | (with_reducible first | assumption | refine Kept.ite ?_ ?_)
    | (lift_lets; intro kx; refine Kept.step (a := a) (x := kx) ?_ fun hkx => ?_)
    | (lift_lets; intro kx)
    | (simp only [Kept.mk_iff]; with_reducible refine KeptF.of ?_ (Nat.le_refl _))
    | (simp only [Kept.mk_iff]; with_reducible refine KeptF.of ?_ (Nat.le_succ _))
    | (with_reducible first | apply State.remapPc_kept | apply State.loseStack_kept)
    | (simp only [kx, Kept.mk_iff]; with_reducible refine KeptF.of ?_ (Nat.le_refl _))
    | (with_reducible first
        | refine Kept.foldl ?_ fun kb ky hkb => ?_ | refine Kept.foldl_snd ?_ fun kb ky hkb => ?_
        | refine Kept.foldl_fst ?_ fun kb ky hkb => ?_)
    | split
    | (with_reducible first
        | refine Kept.of_snd (by assumption) ?_ | refine Kept.of_fst (by assumption) ?_
        | refine Kept.of_third (by assumption) ?_)
    | dsimp only
    | unfold kx

theorem State.clearDieCounters_kept {a s : State} (h : Kept a s) (d : Nat) :
    Kept a (State.clearDieCounters s d) := by
  unfold State.clearDieCounters
  repeat' first
    | (with_reducible first | assumption | refine Kept.ite ?_ ?_)
    | (lift_lets; intro kx; refine Kept.step (a := a) (x := kx) ?_ fun hkx => ?_)
    | (lift_lets; intro kx)
    | (simp only [Kept.mk_iff]; with_reducible refine KeptF.of ?_ (Nat.le_refl _))
    | (simp only [Kept.mk_iff]; with_reducible refine KeptF.of ?_ (Nat.le_succ _))
    | with_reducible apply State.setReg_kept
    | (simp only [kx, Kept.mk_iff]; with_reducible refine KeptF.of ?_ (Nat.le_refl _))
    | (with_reducible first
        | refine Kept.foldl ?_ fun kb ky hkb => ?_ | refine Kept.foldl_snd ?_ fun kb ky hkb => ?_
        | refine Kept.foldl_fst ?_ fun kb ky hkb => ?_)
    | split
    | (with_reducible first
        | refine Kept.of_snd (by assumption) ?_ | refine Kept.of_fst (by assumption) ?_
        | refine Kept.of_third (by assumption) ?_)
    | dsimp only
    | unfold kx

theorem State.dieReset_kept {a s : State} (h : Kept a s) (d : Nat) (ok : Bool) (recurring : List Nat) (failed : List Nat) (bad : List Nat) (fails : List Nat) (ms : Nat) :
    Kept a (State.dieReset s d ok recurring failed bad fails ms) := by
  unfold State.dieReset
  repeat' first
    | (with_reducible first | assumption | refine Kept.ite ?_ ?_)
    | (lift_lets; intro kx; refine Kept.step (a := a) (x := kx) ?_ fun hkx => ?_)
    | (lift_lets; intro kx)
    | (simp only [Kept.mk_iff]; with_reducible refine KeptF.of ?_ (Nat.le_refl _))
    | (simp only [Kept.mk_iff]; with_reducible refine KeptF.of ?_ (Nat.le_succ _))
    | (with_reducible first
        | apply State.bump_kept | apply State.setRecovery_kept | apply State.loseDie_kept | apply State.setLines_kept
        | apply State.recoveryReload_kept | apply State.rebuildDie_kept | apply State.rebuild_kept
        | apply State.setQuick_kept | apply State.massScreen_kept | apply State.applyCauses_kept
        | apply State.scrubLost_kept | apply State.closeRecovery_kept | apply State.finishRecovery_kept
        | apply State.resetStacks_kept | apply State.clearDieCounters_kept)
    | (simp only [kx, Kept.mk_iff]; with_reducible refine KeptF.of ?_ (Nat.le_refl _))
    | (with_reducible first
        | refine Kept.foldl ?_ fun kb ky hkb => ?_ | refine Kept.foldl_snd ?_ fun kb ky hkb => ?_
        | refine Kept.foldl_fst ?_ fun kb ky hkb => ?_)
    | split
    | (with_reducible first
        | refine Kept.of_snd (by assumption) ?_ | refine Kept.of_fst (by assumption) ?_
        | refine Kept.of_third (by assumption) ?_)
    | dsimp only
    | unfold kx

theorem execDieReset_kept {a s : State} (h : Kept a s) (die : Fin 4) (reset : DieResetEnd) (recurring : List (BitVec 32)) (quickFails : List (BitVec 32)) (durationMs : BitVec 32) {kt : State} (ke : execDieReset die reset recurring quickFails durationMs s = .next kt) :
    Kept a kt := by
  unfold execDieReset at ke
  refine Kept.of_done ke ?_
  repeat' first
    | (with_reducible first | assumption | refine Kept.ite ?_ ?_)
    | (lift_lets; intro kx; refine Kept.step (a := a) (x := kx) ?_ fun hkx => ?_)
    | (lift_lets; intro kx)
    | (simp only [Kept.mk_iff]; with_reducible refine KeptF.of ?_ (Nat.le_refl _))
    | (simp only [Kept.mk_iff]; with_reducible refine KeptF.of ?_ (Nat.le_succ _))
    | (with_reducible first | apply State.onSteward_kept | apply State.dieReset_kept)
    | (simp only [kx, Kept.mk_iff]; with_reducible refine KeptF.of ?_ (Nat.le_refl _))
    | (with_reducible first
        | refine Kept.foldl ?_ fun kb ky hkb => ?_ | refine Kept.foldl_snd ?_ fun kb ky hkb => ?_
        | refine Kept.foldl_fst ?_ fun kb ky hkb => ?_)
    | split
    | (with_reducible first
        | refine Kept.of_snd (by assumption) ?_ | refine Kept.of_fst (by assumption) ?_
        | refine Kept.of_third (by assumption) ?_)
    | dsimp only
    | unfold kx

theorem State.rollback_kept {a s : State} (h : Kept a s) (target : Nat) (ms : Nat) :
    Kept a (State.rollback s target ms) := by
  unfold State.rollback
  repeat' first
    | with_reducible assumption
    | (simp only [Kept.mk_iff]; with_reducible refine KeptF.of ?_ (Nat.le_refl _))
    | (with_reducible first
        | apply State.setRecovery_kept | apply State.beginStop_kept | apply State.rebuild_kept
        | apply State.applyCauses_kept | apply State.scrubMoved_kept | apply State.finishRecovery_kept)
    | split
    | dsimp only

theorem execRollback_kept {a s : State} (h : Kept a s) (target : BitVec 64) (durationMs : BitVec 32) {kt : State} (ke : execRollback target durationMs s = .next kt) :
    Kept a kt := by
  unfold execRollback at ke
  refine Kept.of_done ke ?_
  repeat' first
    | with_reducible assumption
    | (lift_lets; intro kx)
    | (with_reducible first | apply State.onSteward_kept | apply State.flitFrom_kept | apply State.rollback_kept)

theorem State.noteExpulsion_kept {a s : State} (h : Kept a s) :
    Kept a (State.noteExpulsion s) := by
  unfold State.noteExpulsion
  repeat' first
    | with_reducible assumption
    | (simp only [Kept.mk_iff]; with_reducible refine KeptF.of ?_ (Nat.le_refl _))
    | with_reducible apply State.setRecovery_kept

theorem State.expelScreen_kept {a s : State} (h : Kept a s) (fails : List Nat) (k : Nat) :
    Kept a (State.expelScreen s fails k) := by
  unfold State.expelScreen
  repeat' first
    | (with_reducible first | assumption | refine Kept.ite ?_ ?_)
    | (lift_lets; intro kx; refine Kept.step (a := a) (x := kx) ?_ fun hkx => ?_)
    | (lift_lets; intro kx)
    | (simp only [Kept.mk_iff]; with_reducible refine KeptF.of ?_ (Nat.le_refl _))
    | (simp only [Kept.mk_iff]; with_reducible refine KeptF.of ?_ (Nat.le_succ _))
    | (with_reducible first
        | apply State.setUnit_kept | apply State.retire_kept | apply State.screenRecord_kept
        | apply State.failScreen_kept)
    | (simp only [kx, Kept.mk_iff]; with_reducible refine KeptF.of ?_ (Nat.le_refl _))
    | (with_reducible first
        | refine Kept.foldl ?_ fun kb ky hkb => ?_ | refine Kept.foldl_snd ?_ fun kb ky hkb => ?_
        | refine Kept.foldl_fst ?_ fun kb ky hkb => ?_)
    | split
    | (with_reducible first
        | refine Kept.of_snd (by assumption) ?_ | refine Kept.of_fst (by assumption) ?_
        | refine Kept.of_third (by assumption) ?_)
    | dsimp only
    | unfold kx

theorem State.markExpelled_kept {a s : State} (h : Kept a s) :
    Kept a (State.markExpelled s) := by
  unfold State.markExpelled
  repeat' first
    | with_reducible assumption
    | (simp only [Kept.mk_iff]; with_reducible refine KeptF.of ?_ (Nat.le_refl _))

theorem State.expelScreens_kept {a s : State} (h : Kept a s) (fails : List Nat) :
    Kept a (State.expelScreens s fails) := by
  unfold State.expelScreens
  repeat' (with_reducible first | assumption | apply State.expelScreen_kept | refine Kept.foldl ?_ fun kb ky hkb => ?_)

theorem State.expel_kept {a s : State} (h : Kept a s) (round : Nat) (fails : List Nat) (ms : Nat) :
    Kept a (State.expel s round fails ms) := by
  unfold State.expel
  repeat' first
    | (with_reducible first | assumption | refine Kept.ite ?_ ?_)
    | (lift_lets; intro kx; refine Kept.step (a := a) (x := kx) ?_ fun hkx => ?_)
    | (lift_lets; intro kx)
    | (simp only [Kept.mk_iff]; with_reducible refine KeptF.of ?_ (Nat.le_refl _))
    | (simp only [Kept.mk_iff]; with_reducible refine KeptF.of ?_ (Nat.le_succ _))
    | (with_reducible first
        | apply State.emit_kept | apply State.beginStop_kept | apply State.dropExports_kept
        | apply State.clearStep_kept | apply State.remap_kept | apply State.applyCauses_kept
        | apply State.closeRecovery_kept | apply State.noteExpulsion_kept | apply State.markExpelled_kept
        | apply State.expelScreens_kept)
    | (simp only [kx, Kept.mk_iff]; with_reducible refine KeptF.of ?_ (Nat.le_refl _))
    | (with_reducible first
        | refine Kept.foldl ?_ fun kb ky hkb => ?_ | refine Kept.foldl_snd ?_ fun kb ky hkb => ?_
        | refine Kept.foldl_fst ?_ fun kb ky hkb => ?_)
    | split
    | (with_reducible first
        | refine Kept.of_snd (by assumption) ?_ | refine Kept.of_fst (by assumption) ?_
        | refine Kept.of_third (by assumption) ?_)
    | dsimp only
    | unfold kx

theorem execExpel_kept {a s : State} (h : Kept a s) (roundStep : BitVec 64) (screenFails : List (BitVec 32)) (durationMs : BitVec 32) {kt : State} (ke : execExpel roundStep screenFails durationMs s = .next kt) :
    Kept a kt := by
  unfold execExpel at ke
  refine Kept.of_done ke ?_
  repeat' first
    | with_reducible assumption
    | (lift_lets; intro kx)
    | (with_reducible first | apply State.onSteward_kept | apply State.flitFrom_kept | apply State.expel_kept)

end Sys2Proof.Machine
end

