-- ==== Sys2Proof/Laws/KeptChecking.lean ====
section
/-! SUPPORT. What the operations of Machine/Checking.lean keep (`Kept`). -/

set_option linter.unusedSimpArgs false

namespace Sys2Proof.Machine

theorem State.dropIn_kept {a s : State} (h : Kept a s) (src : Nat) (epoch : Nat) :
    Kept a (State.dropIn s src epoch) := by
  unfold State.dropIn
  repeat' first
    | with_reducible assumption
    | (simp only [Kept.mk_iff]; with_reducible refine KeptF.of ?_ (Nat.le_refl _))

theorem State.putIn_kept {a s : State} (h : Kept a s) (e : EpochState) :
    Kept a (State.putIn s e) := by
  unfold State.putIn
  repeat' first
    | with_reducible assumption
    | (simp only [Kept.mk_iff]; with_reducible refine KeptF.of ?_ (Nat.le_refl _))
    | with_reducible apply State.dropIn_kept

theorem State.countEvents_kept {a s : State} (h : Kept a s) (e : EpochState) :
    Kept a (State.countEvents s e) := by
  unfold State.countEvents
  repeat' first
    | (with_reducible first | assumption | refine Kept.ite ?_ ?_)
    | (lift_lets; intro kx; refine Kept.step (a := a) (x := kx) ?_ fun hkx => ?_)
    | (lift_lets; intro kx)
    | (simp only [Kept.mk_iff]; with_reducible refine KeptF.of ?_ (Nat.le_refl _))
    | (simp only [Kept.mk_iff]; with_reducible refine KeptF.of ?_ (Nat.le_succ _))
    | (simp only [kx, Kept.mk_iff]; with_reducible refine KeptF.of ?_ (Nat.le_refl _))
    | (with_reducible first
        | refine Kept.foldl ?_ fun kb ky hkb => ?_ | refine Kept.foldl_snd ?_ fun kb ky hkb => ?_
        | refine Kept.foldl_fst ?_ fun kb ky hkb => ?_)
    | split
    | (with_reducible first
        | refine Kept.of_snd (by assumption) ?_ | refine Kept.of_fst (by assumption) ?_
        | refine Kept.of_third (by assumption) ?_)
    | dsimp only
    | unfold kx

theorem State.settleEpoch_kept {a s : State} (h : Kept a s) (e : EpochState) (link : Nat) :
    Kept a (State.settleEpoch s e link) := by
  unfold State.settleEpoch
  repeat' first
    | (with_reducible first
        | assumption | apply State.bump_kept | apply State.transferPoison_kept | apply State.dropIn_kept
        | apply State.countEvents_kept)
    | split

theorem State.peerWrite_kept {a s : State} (h : Kept a s) (aa : Nat) (bs : List Byte) :
    Kept a (State.peerWrite s aa bs) := by
  unfold State.peerWrite
  repeat' first
    | (with_reducible first
        | assumption | refine Kept.ite ?_ ?_ | apply State.write_kept | apply State.protectedRecord_kept)

theorem State.obcorData_kept {a s : State} (h : Kept a s) (l : Nat) (m : DataMsg) :
    Kept a (State.obcorData s l m) := by
  unfold State.obcorData
  repeat' first
    | (with_reducible first
        | assumption | refine Kept.ite ?_ ?_ | apply State.bump_kept | apply State.freeRunning_kept
        | apply State.putIn_kept | apply State.settleEpoch_kept | apply State.peerWrite_kept)

theorem execObcorDataReceive_kept {a s : State} (h : Kept a s) (link : Fin 16) (msg : DataMsg) {kt : State} (ke : execObcorDataReceive link msg s = .next kt) :
    Kept a kt := by
  unfold execObcorDataReceive at ke
  refine Kept.of_done ke ?_
  repeat' (with_reducible first | assumption | refine Kept.ite ?_ ?_ | apply State.obcorData_kept)

theorem State.checkTokenReceive_kept {a s : State} (h : Kept a s) (l : Nat) (src : Nat) (dest : Nat) (epoch : Nat) (count : Nat) (pip : Nat) :
    Kept a (State.checkTokenReceive s l src dest epoch count pip) := by
  unfold State.checkTokenReceive
  repeat' first
    | (with_reducible first | assumption | refine Kept.ite ?_ ?_)
    | (lift_lets; intro kx; refine Kept.step (a := a) (x := kx) ?_ fun hkx => ?_)
    | (lift_lets; intro kx)
    | (simp only [Kept.mk_iff]; with_reducible refine KeptF.of ?_ (Nat.le_refl _))
    | (simp only [Kept.mk_iff]; with_reducible refine KeptF.of ?_ (Nat.le_succ _))
    | (with_reducible first | apply State.bump_kept | apply State.putIn_kept | apply State.settleEpoch_kept)
    | (simp only [kx, Kept.mk_iff]; with_reducible refine KeptF.of ?_ (Nat.le_refl _))
    | (with_reducible first
        | refine Kept.foldl ?_ fun kb ky hkb => ?_ | refine Kept.foldl_snd ?_ fun kb ky hkb => ?_
        | refine Kept.foldl_fst ?_ fun kb ky hkb => ?_)
    | split
    | (with_reducible first
        | refine Kept.of_snd (by assumption) ?_ | refine Kept.of_fst (by assumption) ?_
        | refine Kept.of_third (by assumption) ?_)
    | dsimp only
    | unfold kx

theorem execCheckTokenReceive_kept {a s : State} (h : Kept a s) (link : Fin 16) (ends : TokenEnds) (epoch : BitVec 32) (count : BitVec 64) (pip : BitVec 64) {kt : State} (ke : execCheckTokenReceive link ends epoch count pip s = .next kt) :
    Kept a kt := by
  unfold execCheckTokenReceive at ke
  refine Kept.of_done ke ?_
  repeat' first
    | (with_reducible first | assumption | refine Kept.ite ?_ ?_)
    | (lift_lets; intro kx; refine Kept.step (a := a) (x := kx) ?_ fun hkx => ?_)
    | (lift_lets; intro kx)
    | (simp only [Kept.mk_iff]; with_reducible refine KeptF.of ?_ (Nat.le_refl _))
    | (simp only [Kept.mk_iff]; with_reducible refine KeptF.of ?_ (Nat.le_succ _))
    | with_reducible apply State.checkTokenReceive_kept
    | (simp only [kx, Kept.mk_iff]; with_reducible refine KeptF.of ?_ (Nat.le_refl _))
    | (with_reducible first
        | refine Kept.foldl ?_ fun kb ky hkb => ?_ | refine Kept.foldl_snd ?_ fun kb ky hkb => ?_
        | refine Kept.foldl_fst ?_ fun kb ky hkb => ?_)
    | split
    | (with_reducible first
        | refine Kept.of_snd (by assumption) ?_ | refine Kept.of_fst (by assumption) ?_
        | refine Kept.of_third (by assumption) ?_)
    | dsimp only
    | unfold kx

theorem State.commitTimeout_kept {a s : State} (h : Kept a s) (src : Nat) (epoch : Nat) :
    Kept a (State.commitTimeout s src epoch) := by
  unfold State.commitTimeout
  repeat' first
    | (with_reducible first
        | assumption | refine Kept.ite ?_ ?_ | apply State.bump_kept | apply State.transferPoison_kept)

theorem execCommitTimeout_kept {a s : State} (h : Kept a s) (src : BitVec 13) (epoch : BitVec 32) {kt : State} (ke : execCommitTimeout src epoch s = .next kt) :
    Kept a kt := by
  unfold execCommitTimeout at ke
  refine Kept.of_done ke ?_
  repeat' (with_reducible first | assumption | refine Kept.ite ?_ ?_ | apply State.commitTimeout_kept)

theorem State.checkTokenSend_kept {a s : State} (h : Kept a s) (dest : Nat) (epoch : Nat) (parityOk : Bool) :
    Kept a (State.checkTokenSend s dest epoch parityOk) := by
  unfold State.checkTokenSend
  repeat' first
    | (with_reducible first | assumption | refine Kept.ite ?_ ?_)
    | (lift_lets; intro kx; refine Kept.step (a := a) (x := kx) ?_ fun hkx => ?_)
    | (lift_lets; intro kx)
    | (simp only [Kept.mk_iff]; with_reducible refine KeptF.of ?_ (Nat.le_refl _))
    | (simp only [Kept.mk_iff]; with_reducible refine KeptF.of ?_ (Nat.le_succ _))
    | (with_reducible first
        | apply State.bump_kept | apply State.emit_kept | apply State.flitOut_kept | apply State.transferPoison_kept
        | apply State.poisonConsumed_kept)
    | (simp only [kx, Kept.mk_iff]; with_reducible refine KeptF.of ?_ (Nat.le_refl _))
    | (with_reducible first
        | refine Kept.foldl ?_ fun kb ky hkb => ?_ | refine Kept.foldl_snd ?_ fun kb ky hkb => ?_
        | refine Kept.foldl_fst ?_ fun kb ky hkb => ?_)
    | split
    | (with_reducible first
        | refine Kept.of_snd (by assumption) ?_ | refine Kept.of_fst (by assumption) ?_
        | refine Kept.of_third (by assumption) ?_)
    | dsimp only
    | unfold kx

theorem execCheckTokenSend_kept {a s : State} (h : Kept a s) (receiver : BitVec 13) (epoch : BitVec 32) (parityOk : Bool) {kt : State} (ke : execCheckTokenSend receiver epoch parityOk s = .next kt) :
    Kept a kt := by
  unfold execCheckTokenSend at ke
  refine Kept.of_done ke ?_
  repeat' (with_reducible first | assumption | refine Kept.ite ?_ ?_ | apply State.checkTokenSend_kept)

theorem State.poisonNotice_kept {a s : State} (h : Kept a s) (l : Nat) (sender : Nat) (reporter : Nat) (epoch : Nat) (cause : Nat) :
    Kept a (State.poisonNotice s l sender reporter epoch cause) := by
  unfold State.poisonNotice
  repeat' first
    | (with_reducible first | assumption | refine Kept.ite ?_ ?_)
    | (lift_lets; intro kx; refine Kept.step (a := a) (x := kx) ?_ fun hkx => ?_)
    | (lift_lets; intro kx)
    | (simp only [Kept.mk_iff]; with_reducible refine KeptF.of ?_ (Nat.le_refl _))
    | (simp only [Kept.mk_iff]; with_reducible refine KeptF.of ?_ (Nat.le_succ _))
    | (with_reducible first
        | apply State.bump_kept | apply State.emit_kept | apply State.beginStop_kept | apply State.rollbackAll_kept)
    | (simp only [kx, Kept.mk_iff]; with_reducible refine KeptF.of ?_ (Nat.le_refl _))
    | (with_reducible first
        | refine Kept.foldl ?_ fun kb ky hkb => ?_ | refine Kept.foldl_snd ?_ fun kb ky hkb => ?_
        | refine Kept.foldl_fst ?_ fun kb ky hkb => ?_)
    | split
    | (with_reducible first
        | refine Kept.of_snd (by assumption) ?_ | refine Kept.of_fst (by assumption) ?_
        | refine Kept.of_third (by assumption) ?_)
    | dsimp only
    | unfold kx

theorem execPoisonNotice_kept {a s : State} (h : Kept a s) (link : Fin 16) (sender : BitVec 13) (reporter : BitVec 13) (epoch : BitVec 32) (_step : BitVec 64) (cause : BitVec 8) {kt : State} (ke : execPoisonNotice link sender reporter epoch _step cause s = .next kt) :
    Kept a kt := by
  unfold execPoisonNotice at ke
  refine Kept.of_done ke ?_
  repeat' first
    | (with_reducible first | assumption | refine Kept.ite ?_ ?_)
    | (lift_lets; intro kx; refine Kept.step (a := a) (x := kx) ?_ fun hkx => ?_)
    | (lift_lets; intro kx)
    | (simp only [Kept.mk_iff]; with_reducible refine KeptF.of ?_ (Nat.le_refl _))
    | (simp only [Kept.mk_iff]; with_reducible refine KeptF.of ?_ (Nat.le_succ _))
    | with_reducible apply State.poisonNotice_kept
    | (simp only [kx, Kept.mk_iff]; with_reducible refine KeptF.of ?_ (Nat.le_refl _))
    | (with_reducible first
        | refine Kept.foldl ?_ fun kb ky hkb => ?_ | refine Kept.foldl_snd ?_ fun kb ky hkb => ?_
        | refine Kept.foldl_fst ?_ fun kb ky hkb => ?_)
    | split
    | (with_reducible first
        | refine Kept.of_snd (by assumption) ?_ | refine Kept.of_fst (by assumption) ?_
        | refine Kept.of_third (by assumption) ?_)
    | dsimp only
    | unfold kx

theorem State.correctedRecordSend_kept {a s : State} (h : Kept a s) (kind : Nat) (unitP : Nat) :
    Kept a (State.correctedRecordSend s kind unitP) := by
  unfold State.correctedRecordSend
  repeat' first
    | with_reducible assumption
    | (simp only [Kept.mk_iff]; with_reducible refine KeptF.of ?_ (Nat.le_refl _))
    | with_reducible apply State.sendRecord_kept
    | split

theorem execCorrectedRecordSend_kept {a s : State} (h : Kept a s) (kind : BitVec 16) (unitP : BitVec 32) {kt : State} (ke : execCorrectedRecordSend kind unitP s = .next kt) :
    Kept a kt := by
  unfold execCorrectedRecordSend at ke
  refine Kept.of_done ke ?_
  repeat' (with_reducible first | assumption | refine Kept.ite ?_ ?_ | apply State.correctedRecordSend_kept)

theorem State.recordsLost_kept {a s : State} (h : Kept a s) : Kept a s.recordsLost := by
  unfold State.recordsLost
  split
  · exact h
  · next hq =>
    dsimp only
    refine State.releaseHeld_kept (State.setFld_kept (State.pushRecord_kept ?_ _ ?_) _ _) _
    · exact Kept.mk_iff.2 (KeptF.of h (Nat.le_refl _))
    · exact Nat.lt_of_not_le fun hl => hq (.inr hl)

theorem execRecordsLost_kept {a s : State} (h : Kept a s) {kt : State} (ke : execRecordsLost s = .next kt) :
    Kept a kt := by
  unfold execRecordsLost at ke
  refine Kept.of_done ke ?_
  repeat' (with_reducible first | assumption | refine Kept.ite ?_ ?_ | apply State.recordsLost_kept)

theorem State.errTailWrite_kept {a s : State} (h : Kept a s) (v : Nat) :
    Kept a (State.errTailWrite s v) := by
  unfold State.errTailWrite
  repeat' (with_reducible first | assumption | refine Kept.ite ?_ ?_ | apply State.setFld_kept)

theorem execErrTailWrite_kept {a s : State} (h : Kept a s) (value : Word) {kt : State} (ke : execErrTailWrite value s = .next kt) :
    Kept a kt := by
  unfold execErrTailWrite at ke
  refine Kept.of_done ke ?_
  repeat' first
    | with_reducible assumption
    | (lift_lets; intro kx)
    | (with_reducible first | apply State.onReady_kept | apply State.errTailWrite_kept)

theorem State.traceTailWrite_kept {a s : State} (h : Kept a s) (v : Nat) :
    Kept a (State.traceTailWrite s v) := by
  unfold State.traceTailWrite
  repeat' (with_reducible first | assumption | refine Kept.ite ?_ ?_ | apply State.setFld_kept)

theorem execTraceTailWrite_kept {a s : State} (h : Kept a s) (value : Word) {kt : State} (ke : execTraceTailWrite value s = .next kt) :
    Kept a kt := by
  unfold execTraceTailWrite at ke
  refine Kept.of_done ke ?_
  repeat' first
    | with_reducible assumption
    | (lift_lets; intro kx)
    | (with_reducible first | apply State.onReady_kept | apply State.traceTailWrite_kept)

theorem State.agreeSlot_kept {a s : State} (h : Kept a s) (k : Nat) :
    Kept a (State.agreeSlot s k) := by
  unfold State.agreeSlot
  repeat' first
    | (with_reducible first | assumption | refine Kept.ite ?_ ?_)
    | (simp only [Kept.mk_iff]; with_reducible refine KeptF.of ?_ (Nat.le_refl _))

theorem State.disagree_kept {a s : State} (h : Kept a s) (code : Nat) (round : Nat) (replicas : Nat) :
    Kept a (State.disagree s code round replicas) := by
  unfold State.disagree
  repeat' first
    | (with_reducible first
        | assumption | refine Kept.ite ?_ ?_ | apply State.bump_kept | apply State.emit_kept
        | apply State.beginStop_kept)

theorem State.verdict_kept {a s : State} (h : Kept a s) (code : Nat) (step : Nat) (replicas : Nat) :
    Kept a (State.verdict s code step replicas) := by
  unfold State.verdict
  repeat' first
    | (with_reducible first | assumption | refine Kept.ite ?_ ?_)
    | (simp only [Kept.mk_iff]; with_reducible refine KeptF.of ?_ (Nat.le_refl _))
    | (with_reducible first
        | apply State.setFld_kept | apply State.raiseIrq_kept | apply State.setAgreed_kept | apply State.seamNext_kept
        | apply State.agreeSlot_kept | apply State.disagree_kept)

theorem execVerdict_kept {a s : State} (h : Kept a s) (code : BitVec 2) (step : BitVec 64) (replicas : Nat) {kt : State} (ke : execVerdict code step replicas s = .next kt) :
    Kept a kt := by
  unfold execVerdict at ke
  refine Kept.of_done ke ?_
  repeat' first
    | (with_reducible first
        | assumption | refine Kept.ite ?_ ?_ | apply State.flitFrom_kept | apply State.verdict_kept)

end Sys2Proof.Machine
end

