-- ==== Sys2Proof/Laws/KeptDripstone.lean ====
section
/-! SUPPORT. What the operations of Machine/Dripstone.lean keep (`Kept`). -/

set_option linter.unusedSimpArgs false

namespace Sys2Proof.Machine

theorem State.setNor_kept {a s : State} (h : Kept a s) (n : NorState) :
    Kept a (State.setNor s n) := by
  unfold State.setNor
  repeat' first
    | with_reducible assumption
    | (simp only [Kept.mk_iff]; with_reducible refine KeptF.of ?_ (Nat.le_refl _))

theorem State.writeHeader_kept {a s : State} (h : Kept a s) (table : Nat) (pack : Nat) :
    Kept a (State.writeHeader s table pack) := by
  unfold State.writeHeader
  repeat' (with_reducible first | assumption | refine Kept.ite ?_ ?_ | apply State.setNor_kept)

theorem State.writeTable_kept {a s : State} (h : Kept a s) (ok : Bool) :
    Kept a (State.writeTable s ok) := by
  unfold State.writeTable
  repeat' first
    | (with_reducible first | assumption | refine Kept.ite ?_ ?_)
    | (simp only [Kept.mk_iff]; with_reducible refine KeptF.of ?_ (Nat.le_refl _))
    | (with_reducible first
        | apply State.free_kept | apply State.emit_kept | apply State.setNor_kept | apply State.writeHeader_kept)

theorem State.dripstoneStateWrite_kept {a s : State} (h : Kept a s) (ok : Bool) :
    Kept a (State.dripstoneStateWrite s ok) := by
  unfold State.dripstoneStateWrite
  repeat' (with_reducible first | assumption | refine Kept.ite ?_ ?_ | apply State.writeTable_kept)

theorem execDripstoneStateWrite_kept {a s : State} (h : Kept a s) (norOk : Bool) {kt : State} (ke : execDripstoneStateWrite norOk s = .next kt) :
    Kept a kt := by
  unfold execDripstoneStateWrite at ke
  refine Kept.of_done ke ?_
  repeat' first
    | with_reducible assumption
    | (lift_lets; intro kx)
    | (with_reducible first | apply State.onSteward_kept | apply State.dripstoneStateWrite_kept)

theorem State.dripstoneCountFlush_kept {a s : State} (h : Kept a s) (ok : Bool) :
    Kept a (State.dripstoneCountFlush s ok) := by
  unfold State.dripstoneCountFlush
  repeat' (with_reducible first | assumption | refine Kept.ite ?_ ?_ | apply State.writeTable_kept)

theorem execDripstoneCountFlush_kept {a s : State} (h : Kept a s) (norOk : Bool) {kt : State} (ke : execDripstoneCountFlush norOk s = .next kt) :
    Kept a kt := by
  unfold execDripstoneCountFlush at ke
  refine Kept.of_done ke ?_
  repeat' first
    | with_reducible assumption
    | (lift_lets; intro kx)
    | (with_reducible first | apply State.onSteward_kept | apply State.dripstoneCountFlush_kept)

theorem State.endPack_kept {a s : State} (h : Kept a s) (code : Nat) :
    Kept a (State.endPack s code) := by
  unfold State.endPack
  repeat' first
    | with_reducible assumption
    | (simp only [Kept.mk_iff]; with_reducible refine KeptF.of ?_ (Nat.le_refl _))
    | (with_reducible first | apply State.setFld_kept | apply State.raiseIrq_kept)

theorem State.packInstall_kept {a s : State} (h : Kept a s) :
    Kept a (State.packInstall s) := by
  unfold State.packInstall
  repeat' first
    | (with_reducible first | assumption | refine Kept.ite ?_ ?_)
    | (simp only [Kept.mk_iff]; with_reducible refine KeptF.of ?_ (Nat.le_refl _))
    | (with_reducible first | apply State.setFld_kept | apply State.endPack_kept)
    | split

theorem execPackInstall_kept {a s : State} (h : Kept a s) (_value : Word) {kt : State} (ke : execPackInstall _value s = .next kt) :
    Kept a kt := by
  unfold execPackInstall at ke
  refine Kept.of_done ke ?_
  repeat' first
    | with_reducible assumption
    | (lift_lets; intro kx)
    | (with_reducible first | apply State.onReady_kept | apply State.onSteward_kept | apply State.packInstall_kept)

theorem State.packActivation_kept {a s : State} (h : Kept a s) (ok : Bool) :
    Kept a (State.packActivation s ok) := by
  unfold State.packActivation
  repeat' first
    | (with_reducible first | assumption | refine Kept.ite ?_ ?_)
    | (lift_lets; intro kx; refine Kept.step (a := a) (x := kx) ?_ fun hkx => ?_)
    | (lift_lets; intro kx)
    | (simp only [Kept.mk_iff]; with_reducible refine KeptF.of ?_ (Nat.le_refl _))
    | (simp only [Kept.mk_iff]; with_reducible refine KeptF.of ?_ (Nat.le_succ _))
    | (with_reducible first
        | apply State.free_kept | apply State.setFld_kept | apply State.emit_kept | apply State.setNor_kept
        | apply State.writeHeader_kept | apply State.endPack_kept)
    | (simp only [kx, Kept.mk_iff]; with_reducible refine KeptF.of ?_ (Nat.le_refl _))
    | (with_reducible first
        | refine Kept.foldl ?_ fun kb ky hkb => ?_ | refine Kept.foldl_snd ?_ fun kb ky hkb => ?_
        | refine Kept.foldl_fst ?_ fun kb ky hkb => ?_)
    | split
    | (with_reducible first
        | refine Kept.of_snd (by assumption) ?_ | refine Kept.of_fst (by assumption) ?_
        | refine Kept.of_third (by assumption) ?_)
    | dsimp only
    | unfold kx

theorem execPackActivation_kept {a s : State} (h : Kept a s) (norOk : Bool) {kt : State} (ke : execPackActivation norOk s = .next kt) :
    Kept a kt := by
  unfold execPackActivation at ke
  refine Kept.of_done ke ?_
  repeat' first
    | with_reducible assumption
    | (lift_lets; intro kx)
    | (with_reducible first | apply State.onSteward_kept | apply State.packActivation_kept)

end Sys2Proof.Machine
end

