-- ==== Sys2Proof/Laws/KeptHub.lean ====
section
/-! SUPPORT. What the operations of Machine/Hub.lean keep (`Kept`). -/

set_option linter.unusedSimpArgs false

namespace Sys2Proof.Machine

theorem State.watchLine_kept {a s : State} (h : Kept a s) (cls : Nat) (i : Nat) :
    Kept a (State.watchLine s cls i) := by
  unfold State.watchLine
  repeat' first
    | (with_reducible first
        | assumption | refine Kept.ite ?_ ?_ | apply State.setRing_kept | apply State.ringError_kept)

theorem execWatchLineUpdate_kept {a s : State} (h : Kept a s) (cls : Fin 5) (ring : Fin 4096) {kt : State} (ke : execWatchLineUpdate cls ring s = .next kt) :
    Kept a kt := by
  unfold execWatchLineUpdate at ke
  refine Kept.of_done ke ?_
  repeat' (with_reducible first | assumption | refine Kept.ite ?_ ?_ | apply State.watchLine_kept)

theorem State.ringConfigure_kept {a s : State} (h : Kept a s) (v : Nat) :
    Kept a (State.ringConfigure s v) := by
  unfold State.ringConfigure
  repeat' first
    | (with_reducible first | assumption | apply State.setRing_kept)
    | split

theorem execRingEnable_kept {a s : State} (h : Kept a s) (value : Word) {kt : State} (ke : execRingEnable value s = .next kt) :
    Kept a kt := by
  unfold execRingEnable at ke
  refine Kept.of_done ke ?_
  repeat' first
    | (with_reducible first | assumption | refine Kept.ite ?_ ?_)
    | (lift_lets; intro kx)
    | (with_reducible first | apply State.onReady_kept | apply State.ringConfigure_kept)

theorem State.ringDisable_kept {a s : State} (h : Kept a s) (v : Nat) :
    Kept a (State.ringDisable s v) := by
  unfold State.ringDisable
  repeat' first
    | (with_reducible first | assumption | refine Kept.ite ?_ ?_ | apply State.setRing_kept)
    | split

theorem execRingDisable_kept {a s : State} (h : Kept a s) (value : Word) {kt : State} (ke : execRingDisable value s = .next kt) :
    Kept a kt := by
  unfold execRingDisable at ke
  refine Kept.of_done ke ?_
  repeat' first
    | with_reducible assumption
    | (lift_lets; intro kx)
    | (with_reducible first | apply State.onReady_kept | apply State.ringDisable_kept)

theorem State.txFrame_kept {a s : State} (h : Kept a s) (i : Nat) (e : List Byte) (es : List MemError) :
    Kept a (State.txFrame s i e es).2 := by
  unfold State.txFrame
  repeat' first
    | (with_reducible first
        | assumption | refine Kept.ite ?_ ?_ | apply State.bump_kept | apply State.emit_kept
        | apply State.meetReads_kept)

theorem State.txEntry_kept {a s : State} (h : Kept a s) (i : Nat) (es : List MemError) :
    Kept a (State.txEntry s i es) := by
  unfold State.txEntry
  repeat' first
    | (with_reducible first | assumption | refine Kept.ite ?_ ?_)
    | (lift_lets; intro kx; refine Kept.step (a := a) (x := kx) ?_ fun hkx => ?_)
    | (lift_lets; intro kx)
    | (simp only [Kept.mk_iff]; with_reducible refine KeptF.of ?_ (Nat.le_refl _))
    | (simp only [Kept.mk_iff]; with_reducible refine KeptF.of ?_ (Nat.le_succ _))
    | (with_reducible first | apply State.setRing_kept | apply State.txFrame_kept)
    | (simp only [kx, Kept.mk_iff]; with_reducible refine KeptF.of ?_ (Nat.le_refl _))
    | (with_reducible first
        | refine Kept.foldl ?_ fun kb ky hkb => ?_ | refine Kept.foldl_snd ?_ fun kb ky hkb => ?_
        | refine Kept.foldl_fst ?_ fun kb ky hkb => ?_)
    | split
    | (with_reducible first
        | refine Kept.of_snd (by assumption) ?_ | refine Kept.of_fst (by assumption) ?_
        | refine Kept.of_third (by assumption) ?_)
    | dsimp only
    | unfold kx

theorem execTxEntry_kept {a s : State} (h : Kept a s) (entry : TxTake) {kt : State} (ke : execTxEntry entry s = .next kt) :
    Kept a kt := by
  unfold execTxEntry at ke
  refine Kept.of_done ke ?_
  repeat' first
    | (with_reducible first | assumption | refine Kept.ite ?_ ?_)
    | (lift_lets; intro kx; refine Kept.step (a := a) (x := kx) ?_ fun hkx => ?_)
    | (lift_lets; intro kx)
    | (simp only [Kept.mk_iff]; with_reducible refine KeptF.of ?_ (Nat.le_refl _))
    | (simp only [Kept.mk_iff]; with_reducible refine KeptF.of ?_ (Nat.le_succ _))
    | with_reducible apply State.txEntry_kept
    | (simp only [kx, Kept.mk_iff]; with_reducible refine KeptF.of ?_ (Nat.le_refl _))
    | (with_reducible first
        | refine Kept.foldl ?_ fun kb ky hkb => ?_ | refine Kept.foldl_snd ?_ fun kb ky hkb => ?_
        | refine Kept.foldl_fst ?_ fun kb ky hkb => ?_)
    | split
    | (with_reducible first
        | refine Kept.of_snd (by assumption) ?_ | refine Kept.of_fst (by assumption) ?_
        | refine Kept.of_third (by assumption) ?_)
    | dsimp only
    | unfold kx

theorem State.writeCpl_kept {a s : State} (h : Kept a s) (j : TxJob) :
    Kept a (State.writeCpl s j) := by
  unfold State.writeCpl
  repeat' first
    | (with_reducible first
        | assumption | refine Kept.ite ?_ ?_ | apply State.guardedWrite_kept | apply State.ringComplete_kept)

theorem State.txCompletion_kept {a s : State} (h : Kept a s) (i : Nat) :
    Kept a (State.txCompletion s i) := by
  unfold State.txCompletion
  repeat' first
    | (with_reducible first | assumption | refine Kept.ite ?_ ?_)
    | (simp only [Kept.mk_iff]; with_reducible refine KeptF.of ?_ (Nat.le_refl _))
    | (with_reducible first | apply State.ringComplete_kept | apply State.writeCpl_kept)
    | split

theorem execTxCompletion_kept {a s : State} (h : Kept a s) (ring : Fin 256) {kt : State} (ke : execTxCompletion ring s = .next kt) :
    Kept a kt := by
  unfold execTxCompletion at ke
  refine Kept.of_done ke ?_
  repeat' (with_reducible first | assumption | refine Kept.ite ?_ ?_ | apply State.txCompletion_kept)

theorem State.holdoffExpiry_kept {a s : State} (h : Kept a s) (cls : Nat) (i : Nat) :
    Kept a (State.holdoffExpiry s cls i) := by
  unfold State.holdoffExpiry
  repeat' first
    | (with_reducible first
        | assumption | refine Kept.ite ?_ ?_ | apply State.raiseIrq_kept | apply State.setRing_kept)

theorem execIrqHoldoffExpiry_kept {a s : State} (h : Kept a s) (cls : Fin 5) (ring : Fin 4096) {kt : State} (ke : execIrqHoldoffExpiry cls ring s = .next kt) :
    Kept a kt := by
  unfold execIrqHoldoffExpiry at ke
  refine Kept.of_done ke ?_
  repeat' (with_reducible first | assumption | refine Kept.ite ?_ ?_ | apply State.holdoffExpiry_kept)

theorem State.routeWrite_kept {a s : State} (h : Kept a s) (n : Nat) (v : Nat) :
    Kept a (State.routeWrite s n v) := by
  unfold State.routeWrite
  repeat' (with_reducible first | assumption | refine Kept.ite ?_ ?_ | apply State.setFld_kept | apply State.deliver_kept)

theorem execIrqRouteWrite_kept {a s : State} (h : Kept a s) (source : Fin 528) (value : Word) {kt : State} (ke : execIrqRouteWrite source value s = .next kt) :
    Kept a kt := by
  unfold execIrqRouteWrite at ke
  refine Kept.of_done ke ?_
  repeat' first
    | with_reducible assumption
    | (lift_lets; intro kx)
    | (with_reducible first | apply State.onReady_kept | apply State.routeWrite_kept)

end Sys2Proof.Machine
end

