-- ==== Sys2Proof/Laws/KeptServices.lean ====
section
/-! SUPPORT. What the operations of Machine/Services.lean keep (`Kept`). -/

set_option linter.unusedSimpArgs false

namespace Sys2Proof.Machine

theorem State.stewardCommit_kept {a s : State} (h : Kept a s) (g : Nat) (fs : List (Fld × Nat)) :
    Kept a (State.stewardCommit s g fs).2 := by
  unfold State.stewardCommit
  repeat' first
    | (with_reducible first | assumption | refine Kept.ite ?_ ?_)
    | (lift_lets; intro kx; refine Kept.step (a := a) (x := kx) ?_ fun hkx => ?_)
    | (lift_lets; intro kx)
    | (simp only [Kept.mk_iff]; with_reducible refine KeptF.of ?_ (Nat.le_refl _))
    | (simp only [Kept.mk_iff]; with_reducible refine KeptF.of ?_ (Nat.le_succ _))
    | (with_reducible first | apply State.setShadow_kept | apply State.applyGroup_kept)
    | (simp only [kx, Kept.mk_iff]; with_reducible refine KeptF.of ?_ (Nat.le_refl _))
    | (with_reducible first
        | refine Kept.foldl ?_ fun kb ky hkb => ?_ | refine Kept.foldl_snd ?_ fun kb ky hkb => ?_
        | refine Kept.foldl_fst ?_ fun kb ky hkb => ?_)
    | split
    | (with_reducible first
        | refine Kept.of_snd (by assumption) ?_ | refine Kept.of_fst (by assumption) ?_
        | refine Kept.of_third (by assumption) ?_)
    | dsimp only
    | unfold kx

theorem State.svcTake_kept {a s : State} (h : Kept a s) (i : Nat) :
    Kept a (State.svcTake s i) := by
  unfold State.svcTake
  repeat' (with_reducible first | assumption | refine Kept.ite ?_ ?_ | apply State.setRing_kept)

theorem State.svcAnswer_kept {a s : State} (h : Kept a s) (i : Nat) (n : Nat) (result : Nat) (args : List Byte) :
    Kept a (State.svcAnswer s i n result args) := by
  unfold State.svcAnswer
  repeat' first
    | (with_reducible first
        | assumption | refine Kept.ite ?_ ?_ | apply State.guardedWrite_kept | apply State.ringComplete_kept)

theorem State.serve_kept {a s : State} (h : Kept a s) (i op : Nat) (f : State → List Byte → Nat × List Byte × State)
    (k : ∀ x b, Kept a x → Kept a (f x b).2.2) : Kept a (s.serve i op f) := by
  unfold State.serve
  split
  · exact h
  · dsimp only
    split
    · exact State.svcAnswer_kept (k _ _ (State.svcTake_kept h _)) _ _ _ _
    · split
      · exact h
      · exact State.svcAnswer_kept (State.svcTake_kept h _) _ _ _ _

theorem execIdentity_kept {a s : State} (h : Kept a s) (ring : Fin 2) {kt : State} (ke : execIdentity ring s = .next kt) :
    Kept a kt := by
  unfold execIdentity at ke
  refine Kept.of_done ke ?_
  repeat' first
    | (with_reducible first
        | assumption | first | refine fun kz kb hkz => ?_ | refine fun kz hkz => ?_ | apply State.serve_kept)

theorem State.dripCopy_kept {a s : State} (h : Kept a s) (aa : Nat) :
    Kept a (State.dripCopy s aa) := by
  unfold State.dripCopy
  repeat' first
    | (with_reducible first | assumption | refine Kept.ite ?_ ?_)
    | (lift_lets; intro kx; refine Kept.step (a := a) (x := kx) ?_ fun hkx => ?_)
    | (lift_lets; intro kx)
    | (simp only [Kept.mk_iff]; with_reducible refine KeptF.of ?_ (Nat.le_refl _))
    | (simp only [Kept.mk_iff]; with_reducible refine KeptF.of ?_ (Nat.le_succ _))
    | (with_reducible first | apply State.write_kept | apply State.writeFree_kept)
    | (simp only [kx, Kept.mk_iff]; with_reducible refine KeptF.of ?_ (Nat.le_refl _))
    | (with_reducible first
        | refine Kept.foldl ?_ fun kb ky hkb => ?_ | refine Kept.foldl_snd ?_ fun kb ky hkb => ?_
        | refine Kept.foldl_fst ?_ fun kb ky hkb => ?_)
    | split
    | (with_reducible first
        | refine Kept.of_snd (by assumption) ?_ | refine Kept.of_fst (by assumption) ?_
        | refine Kept.of_third (by assumption) ?_)
    | dsimp only
    | unfold kx

theorem execDripstoneCopy_kept {a s : State} (h : Kept a s) (ring : Fin 2) {kt : State} (ke : execDripstoneCopy ring s = .next kt) :
    Kept a kt := by
  unfold execDripstoneCopy at ke
  refine Kept.of_done ke ?_
  repeat' first
    | (with_reducible first | assumption | first | refine fun kz kb hkz => ?_ | refine fun kz hkz => ?_)
    | (lift_lets; intro kx)
    | (with_reducible first | apply State.serve_kept | apply State.dripCopy_kept)
    | split

theorem State.stageFirmware_kept {a s : State} (h : Kept a s) (aa : Nat) (n : Nat) :
    Kept a (State.stageFirmware s aa n).2.2 := by
  unfold State.stageFirmware
  repeat' first
    | with_reducible assumption
    | (simp only [Kept.mk_iff]; with_reducible refine KeptF.of ?_ (Nat.le_refl _))
    | with_reducible apply State.free_kept
    | split
    | dsimp only

theorem execFirmwareStage_kept {a s : State} (h : Kept a s) (ring : Fin 2) {kt : State} (ke : execFirmwareStage ring s = .next kt) :
    Kept a kt := by
  unfold execFirmwareStage at ke
  refine Kept.of_done ke ?_
  repeat' first
    | (with_reducible first
        | assumption | first | refine fun kz kb hkz => ?_ | refine fun kz hkz => ?_ | apply State.serve_kept
        | apply State.stageFirmware_kept)

theorem State.sendJoin_kept {a s : State} (h : Kept a s) :
    Kept a (State.sendJoin s) := by
  unfold State.sendJoin
  repeat' (with_reducible first | assumption | refine Kept.ite ?_ ?_ | apply State.sendMsg_kept)

theorem State.fleetJoin_kept {a s : State} (h : Kept a s) (i : Nat) :
    Kept a (State.fleetJoin s i) := by
  unfold State.fleetJoin
  repeat' first
    | (with_reducible first | assumption | refine Kept.ite ?_ ?_)
    | (simp only [Kept.mk_iff]; with_reducible refine KeptF.of ?_ (Nat.le_refl _))
    | (with_reducible first
        | apply State.setFleet_kept | apply State.stewardCommit_kept | apply State.svcTake_kept
        | apply State.svcAnswer_kept | apply State.sendJoin_kept)
    | split

theorem execFleetJoin_kept {a s : State} (h : Kept a s) (ring : Fin 2) {kt : State} (ke : execFleetJoin ring s = .next kt) :
    Kept a kt := by
  unfold execFleetJoin at ke
  refine Kept.of_done ke ?_
  repeat' first
    | (with_reducible first
        | assumption | first | refine fun kz kb hkz => ?_ | refine fun kz hkz => ?_ | apply State.serve_kept
        | apply State.fleetJoin_kept)
    | split

theorem State.outOfFleet_kept {a s : State} (h : Kept a s) :
    Kept a (State.outOfFleet s) := by
  unfold State.outOfFleet
  repeat' first
    | with_reducible assumption
    | (simp only [Kept.mk_iff]; with_reducible refine KeptF.of ?_ (Nat.le_refl _))
    | with_reducible apply State.setFleet_kept

theorem execFleetLeave_kept {a s : State} (h : Kept a s) (ring : Fin 2) {kt : State} (ke : execFleetLeave ring s = .next kt) :
    Kept a kt := by
  unfold execFleetLeave at ke
  refine Kept.of_done ke ?_
  repeat' first
    | (with_reducible first
        | assumption | first | refine fun kz kb hkz => ?_ | refine fun kz hkz => ?_ | apply State.leaveFleet_kept
        | apply State.serve_kept | apply State.outOfFleet_kept)
    | split

theorem execCoreState_kept {a s : State} (h : Kept a s) (ring : Fin 2) {kt : State} (ke : execCoreState ring s = .next kt) :
    Kept a kt := by
  unfold execCoreState at ke
  refine Kept.of_done ke ?_
  repeat' first
    | (with_reducible first
        | assumption | first | refine fun kz kb hkz => ?_ | refine fun kz hkz => ?_ | apply State.serve_kept)

theorem State.ptpMember_kept {a s : State} (h : Kept a s) (k : Nat) :
    Kept a (State.ptpMember s k).2 := by
  unfold State.ptpMember
  repeat' first
    | with_reducible assumption
    | (simp only [Kept.mk_iff]; with_reducible refine KeptF.of ?_ (Nat.le_refl _))
    | with_reducible apply State.free_kept
    | split

theorem execPtpDataset_kept {a s : State} (h : Kept a s) (ring : Fin 2) {kt : State} (ke : execPtpDataset ring s = .next kt) :
    Kept a kt := by
  unfold execPtpDataset at ke
  refine Kept.of_done ke ?_
  repeat' first
    | (with_reducible first | assumption | first | refine fun kz kb hkz => ?_ | refine fun kz hkz => ?_)
    | (simp only [Kept.mk_iff]; with_reducible refine KeptF.of ?_ (Nat.le_refl _))
    | (with_reducible first | apply State.serve_kept | apply State.ptpMember_kept)
    | split

theorem State.stewardFailover_kept {a s : State} (h : Kept a s) (p : Nat) :
    Kept a (State.stewardFailover s p) := by
  unfold State.stewardFailover
  repeat' first
    | (with_reducible first | assumption | refine Kept.ite ?_ ?_)
    | (simp only [Kept.mk_iff]; with_reducible refine KeptF.of ?_ (Nat.le_refl _))
    | (with_reducible first | apply State.setRun_kept | apply State.holdOver_kept)

theorem State.pairMismatch_kept {a s : State} (h : Kept a s) :
    Kept a (State.pairMismatch s) := by
  unfold State.pairMismatch
  repeat' first
    | (with_reducible first | assumption | refine Kept.ite ?_ ?_)
    | (lift_lets; intro kx; refine Kept.step (a := a) (x := kx) ?_ fun hkx => ?_)
    | (lift_lets; intro kx)
    | (simp only [Kept.mk_iff]; with_reducible refine KeptF.of ?_ (Nat.le_refl _))
    | (simp only [Kept.mk_iff]; with_reducible refine KeptF.of ?_ (Nat.le_succ _))
    | (with_reducible first | apply State.free_kept | apply State.stewardFailover_kept)
    | (simp only [kx, Kept.mk_iff]; with_reducible refine KeptF.of ?_ (Nat.le_refl _))
    | (with_reducible first
        | refine Kept.foldl ?_ fun kb ky hkb => ?_ | refine Kept.foldl_snd ?_ fun kb ky hkb => ?_
        | refine Kept.foldl_fst ?_ fun kb ky hkb => ?_)
    | split
    | (with_reducible first
        | refine Kept.of_snd (by assumption) ?_ | refine Kept.of_fst (by assumption) ?_
        | refine Kept.of_third (by assumption) ?_)
    | dsimp only
    | unfold kx

theorem execStewardFailover_kept {a s : State} (h : Kept a s) {kt : State} (ke : execStewardFailover s = .next kt) :
    Kept a kt := by
  unfold execStewardFailover at ke
  refine Kept.of_done ke ?_
  repeat' first
    | (with_reducible first | assumption | refine Kept.ite ?_ ?_)
    | (lift_lets; intro kx; refine Kept.step (a := a) (x := kx) ?_ fun hkx => ?_)
    | (lift_lets; intro kx)
    | (simp only [Kept.mk_iff]; with_reducible refine KeptF.of ?_ (Nat.le_refl _))
    | (simp only [Kept.mk_iff]; with_reducible refine KeptF.of ?_ (Nat.le_succ _))
    | with_reducible apply State.pairMismatch_kept
    | (simp only [kx, Kept.mk_iff]; with_reducible refine KeptF.of ?_ (Nat.le_refl _))
    | (with_reducible first
        | refine Kept.foldl ?_ fun kb ky hkb => ?_ | refine Kept.foldl_snd ?_ fun kb ky hkb => ?_
        | refine Kept.foldl_fst ?_ fun kb ky hkb => ?_)
    | split
    | (with_reducible first
        | refine Kept.of_snd (by assumption) ?_ | refine Kept.of_fst (by assumption) ?_
        | refine Kept.of_third (by assumption) ?_)
    | dsimp only
    | unfold kx

theorem State.coreRetire_kept {a s : State} (h : Kept a s) (k : Nat) :
    Kept a (State.coreRetire s k) := by
  unfold State.coreRetire
  repeat' first
    | (with_reducible first | assumption | refine Kept.ite ?_ ?_)
    | (simp only [Kept.mk_iff]; with_reducible refine KeptF.of ?_ (Nat.le_refl _))
    | (with_reducible first | apply State.free_kept | apply State.raiseIrq_kept | apply State.retire_kept)

theorem execAppCoreRetire_kept {a s : State} (h : Kept a s) (core : Fin 72) {kt : State} (ke : execAppCoreRetire core s = .next kt) :
    Kept a kt := by
  unfold execAppCoreRetire at ke
  refine Kept.of_done ke ?_
  repeat' (with_reducible first | assumption | refine Kept.ite ?_ ?_ | apply State.coreRetire_kept)

end Sys2Proof.Machine
end

