-- ==== Sys2Proof/Laws/KeptObcor.lean ====
section
/-! SUPPORT. What the operations of Machine/Obcor.lean keep (`Kept`). -/

set_option linter.unusedSimpArgs false

namespace Sys2Proof.Machine

theorem State.directRoute_kept {a s : State} (h : Kept a s) (l : Nat) (d : Nat) :
    Kept a (State.directRoute s l d) := by
  unfold State.directRoute
  repeat' (with_reducible first | assumption | refine Kept.ite ?_ ?_ | apply State.setFld_kept)

theorem State.joinOnLink_kept {a s : State} (h : Kept a s) :
    Kept a (State.joinOnLink s) := by
  unfold State.joinOnLink
  repeat' first
    | (with_reducible first | assumption | refine Kept.ite ?_ ?_)
    | (lift_lets; intro kx; refine Kept.step (a := a) (x := kx) ?_ fun hkx => ?_)
    | (lift_lets; intro kx)
    | (simp only [Kept.mk_iff]; with_reducible refine KeptF.of ?_ (Nat.le_refl _))
    | (simp only [Kept.mk_iff]; with_reducible refine KeptF.of ?_ (Nat.le_succ _))
    | with_reducible apply State.sendJoin_kept
    | (simp only [kx, Kept.mk_iff]; with_reducible refine KeptF.of ?_ (Nat.le_refl _))
    | (with_reducible first
        | refine Kept.foldl ?_ fun kb ky hkb => ?_ | refine Kept.foldl_snd ?_ fun kb ky hkb => ?_
        | refine Kept.foldl_fst ?_ fun kb ky hkb => ?_)
    | split
    | (with_reducible first
        | refine Kept.of_snd (by assumption) ?_ | refine Kept.of_fst (by assumption) ?_
        | refine Kept.of_third (by assumption) ?_)
    | dsimp only
    | unfold kx

theorem State.exchangeBlocks_kept {a s : State} (h : Kept a s) (l : Nat) (r : TrainResult) :
    Kept a (State.exchangeBlocks s l r) := by
  unfold State.exchangeBlocks
  repeat' first
    | (with_reducible first | assumption | refine Kept.ite ?_ ?_)
    | (lift_lets; intro kx; refine Kept.step (a := a) (x := kx) ?_ fun hkx => ?_)
    | (lift_lets; intro kx)
    | (simp only [Kept.mk_iff]; with_reducible refine KeptF.of ?_ (Nat.le_refl _))
    | (simp only [Kept.mk_iff]; with_reducible refine KeptF.of ?_ (Nat.le_succ _))
    | with_reducible apply State.setFld_kept
    | (simp only [kx, Kept.mk_iff]; with_reducible refine KeptF.of ?_ (Nat.le_refl _))
    | (with_reducible first
        | refine Kept.foldl ?_ fun kb ky hkb => ?_ | refine Kept.foldl_snd ?_ fun kb ky hkb => ?_
        | refine Kept.foldl_fst ?_ fun kb ky hkb => ?_)
    | split
    | (with_reducible first
        | refine Kept.of_snd (by assumption) ?_ | refine Kept.of_fst (by assumption) ?_
        | refine Kept.of_third (by assumption) ?_)
    | dsimp only
    | unfold kx

theorem State.linkTrain_kept {a s : State} (h : Kept a s) (l : Nat) (r : TrainResult) :
    Kept a (State.linkTrain s l r) := by
  unfold State.linkTrain
  repeat' first
    | (with_reducible first | assumption | refine Kept.ite ?_ ?_)
    | (lift_lets; intro kx; refine Kept.step (a := a) (x := kx) ?_ fun hkx => ?_)
    | (lift_lets; intro kx)
    | (simp only [Kept.mk_iff]; with_reducible refine KeptF.of ?_ (Nat.le_refl _))
    | (simp only [Kept.mk_iff]; with_reducible refine KeptF.of ?_ (Nat.le_succ _))
    | (with_reducible first
        | apply State.setFld_kept | apply State.setFldIrq_kept | apply State.signal_kept
        | apply State.directRoute_kept | apply State.joinOnLink_kept | apply State.exchangeBlocks_kept)
    | (simp only [kx, Kept.mk_iff]; with_reducible refine KeptF.of ?_ (Nat.le_refl _))
    | (with_reducible first
        | refine Kept.foldl ?_ fun kb ky hkb => ?_ | refine Kept.foldl_snd ?_ fun kb ky hkb => ?_
        | refine Kept.foldl_fst ?_ fun kb ky hkb => ?_)
    | split
    | (with_reducible first
        | refine Kept.of_snd (by assumption) ?_ | refine Kept.of_fst (by assumption) ?_
        | refine Kept.of_third (by assumption) ?_)
    | dsimp only
    | unfold kx

theorem execObcorLinkTrain_kept {a s : State} (h : Kept a s) (link : Fin 16) (result : TrainResult) {kt : State} (ke : execObcorLinkTrain link result s = .next kt) :
    Kept a kt := by
  unfold execObcorLinkTrain at ke
  refine Kept.of_done ke ?_
  repeat' (with_reducible first | assumption | refine Kept.ite ?_ ?_ | apply State.linkTrain_kept)

theorem State.obcorDown_kept {a s : State} (h : Kept a s) (l : Nat) :
    Kept a (State.obcorDown s l) := by
  unfold State.obcorDown
  repeat' (with_reducible first | assumption | refine Kept.ite ?_ ?_ | apply State.obcLeave_kept)

theorem execObcorLinkDown_kept {a s : State} (h : Kept a s) (link : Fin 16) {kt : State} (ke : execObcorLinkDown link s = .next kt) :
    Kept a kt := by
  unfold execObcorLinkDown at ke
  refine Kept.of_done ke ?_
  repeat' (with_reducible first | assumption | refine Kept.ite ?_ ?_ | apply State.obcorDown_kept)

theorem State.obcorReplay_kept {a s : State} (h : Kept a s) (l : Nat) (far : Bool) (seq : Nat) (again : Bool) :
    Kept a (State.obcorReplay s l far seq again) := by
  unfold State.obcorReplay
  repeat' first
    | (with_reducible first | assumption | refine Kept.ite ?_ ?_)
    | (simp only [Kept.mk_iff]; with_reducible refine KeptF.of ?_ (Nat.le_refl _))
    | (with_reducible first | apply State.bump_kept | apply State.obcorDown_kept)

theorem execObcorReplay_kept {a s : State} (h : Kept a s) (link : Fin 16) (far : Bool) (seq : BitVec 12) (again : Bool) {kt : State} (ke : execObcorReplay link far seq again s = .next kt) :
    Kept a kt := by
  unfold execObcorReplay at ke
  refine Kept.of_done ke ?_
  repeat' (with_reducible first | assumption | refine Kept.ite ?_ ?_ | apply State.obcorReplay_kept)

theorem State.obcorRelay_kept {a s : State} (h : Kept a s) (l : Nat) (control : Bool) (d : Nat) (n : Nat) :
    Kept a (State.obcorRelay s l control d n) := by
  unfold State.obcorRelay
  repeat' first
    | (with_reducible first | assumption | refine Kept.ite ?_ ?_)
    | (simp only [Kept.mk_iff]; with_reducible refine KeptF.of ?_ (Nat.le_refl _))
    | with_reducible apply State.bump_kept

theorem execObcorRelay_kept {a s : State} (h : Kept a s) (link : Fin 16) (control : Bool) (dest : BitVec 13) (flits : Nat) {kt : State} (ke : execObcorRelay link control dest flits s = .next kt) :
    Kept a kt := by
  unfold execObcorRelay at ke
  refine Kept.of_done ke ?_
  repeat' (with_reducible first | assumption | refine Kept.ite ?_ ?_ | apply State.obcorRelay_kept)

end Sys2Proof.Machine
end

