-- ==== Sys2Proof/Laws/KeptFleet.lean ====
section
/-! SUPPORT. What the operations of Machine/Fleet.lean keep (`Kept`). -/

set_option linter.unusedSimpArgs false

namespace Sys2Proof.Machine

theorem State.setFleetState_kept {a s : State} (h : Kept a s) (f : FleetState) :
    Kept a (State.setFleetState s f) := by
  unfold State.setFleetState
  repeat' first
    | with_reducible assumption
    | (simp only [Kept.mk_iff]; with_reducible refine KeptF.of ?_ (Nat.le_refl _))

theorem State.setWorker_kept {a s : State} (h : Kept a s) (x : Worker) :
    Kept a (State.setWorker s x) := by
  unfold State.setWorker
  repeat' (with_reducible first | assumption | refine Kept.ite ?_ ?_ | apply State.setFleetState_kept)

theorem State.toManager_kept {a s : State} (h : Kept a s) (msg : Nat) (body : List Nat) :
    Kept a (State.toManager s msg body) := by
  unfold State.toManager
  repeat' (with_reducible first | assumption | refine Kept.ite ?_ ?_ | apply State.sendMsg_kept)

theorem State.mirror_kept {a s : State} (h : Kept a s) :
    Kept a (State.mirror s) := by
  unfold State.mirror
  repeat' first
    | (with_reducible first | assumption | refine Kept.ite ?_ ?_)
    | (lift_lets; intro kx; refine Kept.step (a := a) (x := kx) ?_ fun hkx => ?_)
    | (lift_lets; intro kx)
    | (simp only [Kept.mk_iff]; with_reducible refine KeptF.of ?_ (Nat.le_refl _))
    | (simp only [Kept.mk_iff]; with_reducible refine KeptF.of ?_ (Nat.le_succ _))
    | (with_reducible first | apply State.flitsTo_kept | apply State.setFleetState_kept)
    | (simp only [kx, Kept.mk_iff]; with_reducible refine KeptF.of ?_ (Nat.le_refl _))
    | (with_reducible first
        | refine Kept.foldl ?_ fun kb ky hkb => ?_ | refine Kept.foldl_snd ?_ fun kb ky hkb => ?_
        | refine Kept.foldl_fst ?_ fun kb ky hkb => ?_)
    | split
    | (with_reducible first
        | refine Kept.of_snd (by assumption) ?_ | refine Kept.of_fst (by assumption) ?_
        | refine Kept.of_third (by assumption) ?_)
    | dsimp only
    | unfold kx

theorem State.join_kept {a s : State} (h : Kept a s) (l : Nat) (serial : Nat) (grade : Nat) (clusters : Nat) (versions : Nat) (previous : Nat) :
    Kept a (State.join s l serial grade clusters versions previous) := by
  unfold State.join
  repeat' first
    | (with_reducible first | assumption | refine Kept.ite ?_ ?_)
    | (lift_lets; intro kx; refine Kept.step (a := a) (x := kx) ?_ fun hkx => ?_)
    | (lift_lets; intro kx)
    | (simp only [Kept.mk_iff]; with_reducible refine KeptF.of ?_ (Nat.le_refl _))
    | (simp only [Kept.mk_iff]; with_reducible refine KeptF.of ?_ (Nat.le_succ _))
    | (with_reducible first
        | apply State.bump_kept | apply State.setFld_kept | apply State.sendMsg_kept | apply State.setFleetState_kept
        | apply State.setWorker_kept | apply State.mirror_kept)
    | (simp only [kx, Kept.mk_iff]; with_reducible refine KeptF.of ?_ (Nat.le_refl _))
    | (with_reducible first
        | refine Kept.foldl ?_ fun kb ky hkb => ?_ | refine Kept.foldl_snd ?_ fun kb ky hkb => ?_
        | refine Kept.foldl_fst ?_ fun kb ky hkb => ?_)
    | split
    | (with_reducible first
        | refine Kept.of_snd (by assumption) ?_ | refine Kept.of_fst (by assumption) ?_
        | refine Kept.of_third (by assumption) ?_)
    | dsimp only
    | unfold kx

theorem execJoin_kept {a s : State} (h : Kept a s) (link : Fin 16) (serial : BitVec 128) (grade : BitVec 8) (clusters : BitVec 8) (versions : BitVec 8) (previous : BitVec 13) {kt : State} (ke : execJoin link serial grade clusters versions previous s = .next kt) :
    Kept a kt := by
  unfold execJoin at ke
  refine Kept.of_done ke ?_
  repeat' (with_reducible first | assumption | refine Kept.ite ?_ ?_ | apply State.join_kept)

theorem State.answerJoin_kept {a s : State} (h : Kept a s) (result : Nat) (args : List Byte) :
    Kept a (State.answerJoin s result args) := by
  unfold State.answerJoin
  repeat' first
    | (with_reducible first | assumption | apply State.svcAnswer_kept | apply State.setFleetState_kept)
    | split

theorem State.welcome_kept {a s : State} (h : Kept a s) (i : Nat) (period : Nat) (standby : Nat) :
    Kept a (State.welcome s i period standby) := by
  unfold State.welcome
  repeat' first
    | (with_reducible first | assumption | refine Kept.ite ?_ ?_)
    | (lift_lets; intro kx; refine Kept.step (a := a) (x := kx) ?_ fun hkx => ?_)
    | (lift_lets; intro kx)
    | (simp only [Kept.mk_iff]; with_reducible refine KeptF.of ?_ (Nat.le_refl _))
    | (simp only [Kept.mk_iff]; with_reducible refine KeptF.of ?_ (Nat.le_succ _))
    | (with_reducible first
        | apply State.setFleet_kept | apply State.sendJoin_kept | apply State.setFleetState_kept
        | apply State.answerJoin_kept)
    | (simp only [kx, Kept.mk_iff]; with_reducible refine KeptF.of ?_ (Nat.le_refl _))
    | (with_reducible first
        | refine Kept.foldl ?_ fun kb ky hkb => ?_ | refine Kept.foldl_snd ?_ fun kb ky hkb => ?_
        | refine Kept.foldl_fst ?_ fun kb ky hkb => ?_)
    | split
    | (with_reducible first
        | refine Kept.of_snd (by assumption) ?_ | refine Kept.of_fst (by assumption) ?_
        | refine Kept.of_third (by assumption) ?_)
    | dsimp only
    | unfold kx

theorem execWelcome_kept {a s : State} (h : Kept a s) (index : BitVec 13) (periodMs : BitVec 16) (standby : BitVec 13) {kt : State} (ke : execWelcome index periodMs standby s = .next kt) :
    Kept a kt := by
  unfold execWelcome at ke
  refine Kept.of_done ke ?_
  repeat' first
    | (with_reducible first
        | assumption | refine Kept.ite ?_ ?_ | apply State.welcome_kept | apply State.flitFrom_kept)

theorem State.sendAssigns_kept {a s : State} (h : Kept a s) (id : Nat) (members : List Nat) :
    Kept a (State.sendAssigns s id members) := by
  unfold State.sendAssigns
  repeat' first
    | (with_reducible first | assumption | refine Kept.ite ?_ ?_)
    | (lift_lets; intro kx; refine Kept.step (a := a) (x := kx) ?_ fun hkx => ?_)
    | (lift_lets; intro kx)
    | (simp only [Kept.mk_iff]; with_reducible refine KeptF.of ?_ (Nat.le_refl _))
    | (simp only [Kept.mk_iff]; with_reducible refine KeptF.of ?_ (Nat.le_succ _))
    | (with_reducible first | apply State.tickFree_kept | apply State.sendMsg_kept)
    | (simp only [kx, Kept.mk_iff]; with_reducible refine KeptF.of ?_ (Nat.le_refl _))
    | (with_reducible first
        | refine Kept.foldl ?_ fun kb ky hkb => ?_ | refine Kept.foldl_snd ?_ fun kb ky hkb => ?_
        | refine Kept.foldl_fst ?_ fun kb ky hkb => ?_)
    | split
    | (with_reducible first
        | refine Kept.of_snd (by assumption) ?_ | refine Kept.of_fst (by assumption) ?_
        | refine Kept.of_third (by assumption) ?_)
    | dsimp only
    | unfold kx
    | exact hkz

theorem State.formSet_kept {a s : State} (h : Kept a s) :
    Kept a (State.formSet s) := by
  unfold State.formSet
  repeat' first
    | (with_reducible first | assumption | refine Kept.ite ?_ ?_)
    | (lift_lets; intro kx; refine Kept.step (a := a) (x := kx) ?_ fun hkx => ?_)
    | (lift_lets; intro kx)
    | (simp only [Kept.mk_iff]; with_reducible refine KeptF.of ?_ (Nat.le_refl _))
    | (simp only [Kept.mk_iff]; with_reducible refine KeptF.of ?_ (Nat.le_succ _))
    | (with_reducible first | apply State.free_kept | apply State.setFleetState_kept | apply State.sendAssigns_kept)
    | (simp only [kx, Kept.mk_iff]; with_reducible refine KeptF.of ?_ (Nat.le_refl _))
    | (with_reducible first
        | refine Kept.foldl ?_ fun kb ky hkb => ?_ | refine Kept.foldl_snd ?_ fun kb ky hkb => ?_
        | refine Kept.foldl_fst ?_ fun kb ky hkb => ?_)
    | split
    | (with_reducible first
        | refine Kept.of_snd (by assumption) ?_ | refine Kept.of_fst (by assumption) ?_
        | refine Kept.of_third (by assumption) ?_)
    | dsimp only
    | unfold kx
    | exact hkz

theorem State.loseWorker_kept {a s : State} (h : Kept a s) (w : Nat) :
    Kept a (State.loseWorker s w) := by
  unfold State.loseWorker
  repeat' first
    | (with_reducible first | assumption | refine Kept.ite ?_ ?_)
    | (lift_lets; intro kx; refine Kept.step (a := a) (x := kx) ?_ fun hkx => ?_)
    | (lift_lets; intro kx)
    | (simp only [Kept.mk_iff]; with_reducible refine KeptF.of ?_ (Nat.le_refl _))
    | (simp only [Kept.mk_iff]; with_reducible refine KeptF.of ?_ (Nat.le_succ _))
    | (with_reducible first
        | apply State.rollbackAll_kept | apply State.setFleetState_kept | apply State.sendAssigns_kept)
    | (simp only [kx, Kept.mk_iff]; with_reducible refine KeptF.of ?_ (Nat.le_refl _))
    | (with_reducible first
        | refine Kept.foldl ?_ fun kb ky hkb => ?_ | refine Kept.foldl_snd ?_ fun kb ky hkb => ?_
        | refine Kept.foldl_fst ?_ fun kb ky hkb => ?_)
    | split
    | (with_reducible first
        | refine Kept.of_snd (by assumption) ?_ | refine Kept.of_fst (by assumption) ?_
        | refine Kept.of_third (by assumption) ?_)
    | dsimp only
    | unfold kx
    | exact hkz

theorem State.sendVerdict_kept {a s : State} (h : Kept a s) (k : Nat) (n : Nat) (p : Nat × Nat) :
    Kept a (State.sendVerdict s k n p) := by
  unfold State.sendVerdict
  repeat' first
    | (with_reducible first | assumption | refine Kept.ite ?_ ?_)
    | (simp only [Kept.mk_iff]; with_reducible refine KeptF.of ?_ (Nat.le_refl _))
    | with_reducible apply State.sendMsg_kept

theorem State.ledgerSplit_kept {a s : State} (h : Kept a s) (k : Nat) (table : Nat) :
    Kept a (State.ledgerSplit s k table) := by
  unfold State.ledgerSplit
  repeat' (with_reducible first | assumption | refine Kept.ite ?_ ?_ | apply State.emit_kept | apply State.bump_kept)

theorem State.closeRound_kept {a s : State} (h : Kept a s) (k : Nat) (members : List Nat) (rs : List EchoReport) :
    Kept a (State.closeRound s k members rs) := by
  unfold State.closeRound
  repeat' first
    | (with_reducible first | assumption | refine Kept.ite ?_ ?_)
    | (simp only [Kept.mk_iff]; with_reducible refine KeptF.of ?_ (Nat.le_refl _))
    | (with_reducible first
        | apply State.ledgerSplit_kept | apply State.rollbackAll_kept | apply State.setFleetState_kept
        | apply State.loseWorker_kept | apply State.sendVerdict_kept | refine Kept.foldl ?_ fun kb ky hkb => ?_)

theorem State.settleRounds_kept {a s : State} (h : Kept a s) :
    Kept a (State.settleRounds s) := by
  unfold State.settleRounds
  repeat' first
    | (with_reducible first
        | assumption | refine Kept.ite ?_ ?_ | apply State.closeRound_kept | refine Kept.foldl ?_ fun kb ky hkb => ?_)

theorem State.echoReport_kept {a s : State} (h : Kept a s) (r : EchoReport) :
    Kept a (State.echoReport s r) := by
  unfold State.echoReport
  repeat' first
    | (with_reducible first | assumption | refine Kept.ite ?_ ?_)
    | (simp only [Kept.mk_iff]; with_reducible refine KeptF.of ?_ (Nat.le_refl _))
    | with_reducible apply State.settleRounds_kept

theorem execEchoReport_kept {a s : State} (h : Kept a s) (worker : BitVec 13) (step : BitVec 64) (digest : BitVec 128) (sums : EchoSums) {kt : State} (ke : execEchoReport worker step digest sums s = .next kt) :
    Kept a kt := by
  unfold execEchoReport at ke
  refine Kept.of_done ke ?_
  repeat' first
    | (with_reducible first | assumption | refine Kept.ite ?_ ?_)
    | (lift_lets; intro kx; refine Kept.step (a := a) (x := kx) ?_ fun hkx => ?_)
    | (lift_lets; intro kx)
    | (simp only [Kept.mk_iff]; with_reducible refine KeptF.of ?_ (Nat.le_refl _))
    | (simp only [Kept.mk_iff]; with_reducible refine KeptF.of ?_ (Nat.le_succ _))
    | (with_reducible first | apply State.flitFrom_kept | apply State.mirror_kept | apply State.echoReport_kept)
    | (simp only [kx, Kept.mk_iff]; with_reducible refine KeptF.of ?_ (Nat.le_refl _))
    | (with_reducible first
        | refine Kept.foldl ?_ fun kb ky hkb => ?_ | refine Kept.foldl_snd ?_ fun kb ky hkb => ?_
        | refine Kept.foldl_fst ?_ fun kb ky hkb => ?_)
    | split
    | (with_reducible first
        | refine Kept.of_snd (by assumption) ?_ | refine Kept.of_fst (by assumption) ?_
        | refine Kept.of_third (by assumption) ?_)
    | dsimp only
    | unfold kx

theorem State.tryLaunch_kept {a s : State} (h : Kept a s) (members : List Nat) :
    Kept a (State.tryLaunch s members) := by
  unfold State.tryLaunch
  repeat' first
    | (with_reducible first | assumption | refine Kept.ite ?_ ?_)
    | (lift_lets; intro kx; refine Kept.step (a := a) (x := kx) ?_ fun hkx => ?_)
    | (lift_lets; intro kx)
    | (simp only [Kept.mk_iff]; with_reducible refine KeptF.of ?_ (Nat.le_refl _))
    | (simp only [Kept.mk_iff]; with_reducible refine KeptF.of ?_ (Nat.le_succ _))
    | (with_reducible first | apply State.sendMsg_kept | apply State.setFleetState_kept)
    | (simp only [kx, Kept.mk_iff]; with_reducible refine KeptF.of ?_ (Nat.le_refl _))
    | (with_reducible first
        | refine Kept.foldl ?_ fun kb ky hkb => ?_ | refine Kept.foldl_snd ?_ fun kb ky hkb => ?_
        | refine Kept.foldl_fst ?_ fun kb ky hkb => ?_)
    | split
    | (with_reducible first
        | refine Kept.of_snd (by assumption) ?_ | refine Kept.of_fst (by assumption) ?_
        | refine Kept.of_third (by assumption) ?_)
    | dsimp only
    | unfold kx

theorem State.abortLaunch_kept {a s : State} (h : Kept a s) (members : List Nat) (t : Nat) :
    Kept a (State.abortLaunch s members t) := by
  unfold State.abortLaunch
  repeat' first
    | (with_reducible first
        | assumption | apply State.sendMsg_kept | apply State.setFleetState_kept | apply State.tryLaunch_kept
        | refine Kept.foldl ?_ fun kb ky hkb => ?_)

theorem State.armedFrom_kept {a s : State} (h : Kept a s) (w : Nat) (t : Nat) :
    Kept a (State.armedFrom s w t) := by
  unfold State.armedFrom
  repeat' first
    | (with_reducible first | assumption | refine Kept.ite ?_ ?_)
    | (lift_lets; intro kx; refine Kept.step (a := a) (x := kx) ?_ fun hkx => ?_)
    | (lift_lets; intro kx)
    | (simp only [Kept.mk_iff]; with_reducible refine KeptF.of ?_ (Nat.le_refl _))
    | (simp only [Kept.mk_iff]; with_reducible refine KeptF.of ?_ (Nat.le_succ _))
    | (with_reducible first | apply State.setFleetState_kept | apply State.setWorker_kept)
    | (simp only [kx, Kept.mk_iff]; with_reducible refine KeptF.of ?_ (Nat.le_refl _))
    | (with_reducible first
        | refine Kept.foldl ?_ fun kb ky hkb => ?_ | refine Kept.foldl_snd ?_ fun kb ky hkb => ?_
        | refine Kept.foldl_fst ?_ fun kb ky hkb => ?_)
    | split
    | (with_reducible first
        | refine Kept.of_snd (by assumption) ?_ | refine Kept.of_fst (by assumption) ?_
        | refine Kept.of_third (by assumption) ?_)
    | dsimp only
    | unfold kx

theorem execArmed_kept {a s : State} (h : Kept a s) (worker : BitVec 13) (t : BitVec 64) {kt : State} (ke : execArmed worker t s = .next kt) :
    Kept a kt := by
  unfold execArmed at ke
  refine Kept.of_done ke ?_
  repeat' first
    | (with_reducible first
        | assumption | refine Kept.ite ?_ ?_ | apply State.armedFrom_kept | apply State.flitFrom_kept)

theorem State.lateFrom_kept {a s : State} (h : Kept a s) (w : Nat) (t : Nat) :
    Kept a (State.lateFrom s w t) := by
  unfold State.lateFrom
  repeat' (with_reducible first | assumption | refine Kept.ite ?_ ?_ | apply State.abortLaunch_kept)

theorem execLate_kept {a s : State} (h : Kept a s) (worker : BitVec 13) (t : BitVec 64) {kt : State} (ke : execLate worker t s = .next kt) :
    Kept a kt := by
  unfold execLate at ke
  refine Kept.of_done ke ?_
  repeat' first
    | (with_reducible first
        | assumption | refine Kept.ite ?_ ?_ | apply State.lateFrom_kept | apply State.flitFrom_kept)

theorem State.readyFrom_kept {a s : State} (h : Kept a s) (w : Nat) (step : Nat) (outcome : Nat) :
    Kept a (State.readyFrom s w step outcome) := by
  unfold State.readyFrom
  repeat' first
    | (with_reducible first | assumption | refine Kept.ite ?_ ?_)
    | (lift_lets; intro kx; refine Kept.step (a := a) (x := kx) ?_ fun hkx => ?_)
    | (lift_lets; intro kx)
    | (simp only [Kept.mk_iff]; with_reducible refine KeptF.of ?_ (Nat.le_refl _))
    | (simp only [Kept.mk_iff]; with_reducible refine KeptF.of ?_ (Nat.le_succ _))
    | (with_reducible first | apply State.setWorker_kept | apply State.tryLaunch_kept)
    | (simp only [kx, Kept.mk_iff]; with_reducible refine KeptF.of ?_ (Nat.le_refl _))
    | (with_reducible first
        | refine Kept.foldl ?_ fun kb ky hkb => ?_ | refine Kept.foldl_snd ?_ fun kb ky hkb => ?_
        | refine Kept.foldl_fst ?_ fun kb ky hkb => ?_)
    | split
    | (with_reducible first
        | refine Kept.of_snd (by assumption) ?_ | refine Kept.of_fst (by assumption) ?_
        | refine Kept.of_third (by assumption) ?_)
    | dsimp only
    | unfold kx

theorem execReady_kept {a s : State} (h : Kept a s) (worker : BitVec 13) (step : BitVec 64) (outcome : BitVec 4) {kt : State} (ke : execReady worker step outcome s = .next kt) :
    Kept a kt := by
  unfold execReady at ke
  refine Kept.of_done ke ?_
  repeat' first
    | (with_reducible first
        | assumption | refine Kept.ite ?_ ?_ | apply State.readyFrom_kept | apply State.flitFrom_kept)

theorem State.launch_kept {a s : State} (h : Kept a s) (t : Nat) :
    Kept a (State.launch s t) := by
  unfold State.launch
  repeat' first
    | (with_reducible first
        | assumption | refine Kept.ite ?_ ?_ | apply State.setReg_kept | apply State.runStart_kept
        | apply State.toManager_kept)

theorem execLaunch_kept {a s : State} (h : Kept a s) (t : BitVec 64) {kt : State} (ke : execLaunch t s = .next kt) :
    Kept a kt := by
  unfold execLaunch at ke
  refine Kept.of_done ke ?_
  repeat' first
    | (with_reducible first
        | assumption | refine Kept.ite ?_ ?_ | apply State.launch_kept | apply State.flitFrom_kept)

theorem State.abortMsg_kept {a s : State} (h : Kept a s) :
    Kept a (State.abortMsg s) := by
  unfold State.abortMsg
  repeat' (with_reducible first | assumption | refine Kept.ite ?_ ?_ | apply State.runAbort_kept)

theorem execAbort_kept {a s : State} (h : Kept a s) (_t : BitVec 64) {kt : State} (ke : execAbort _t s = .next kt) :
    Kept a kt := by
  unfold execAbort at ke
  refine Kept.of_done ke ?_
  repeat' first
    | (with_reducible first
        | assumption | refine Kept.ite ?_ ?_ | apply State.abortMsg_kept | apply State.flitFrom_kept)

theorem State.takeRoutes_kept {a s : State} (h : Kept a s) (rs : List (Nat × Nat)) :
    Kept a (State.takeRoutes s rs) := by
  unfold State.takeRoutes
  repeat' first
    | (with_reducible first
        | assumption | refine Kept.ite ?_ ?_ | apply State.setFld_kept | refine Kept.foldl ?_ fun kb ky hkb => ?_)

theorem State.takeSet_kept {a s : State} (h : Kept a s) (p : AssignPart) (ps : List AssignPart) :
    Kept a (State.takeSet s p ps) := by
  unfold State.takeSet
  repeat' first
    | (with_reducible first
        | assumption | refine Kept.ite ?_ ?_ | apply State.takeRoutes_kept | apply State.stewardCommit_kept
        | apply State.setFleet_kept | apply State.setFleetState_kept | apply State.toManager_kept)

theorem State.tryAssign_kept {a s : State} (h : Kept a s) :
    Kept a (State.tryAssign s) := by
  unfold State.tryAssign
  repeat' first
    | (with_reducible first | assumption | apply State.takeSet_kept)
    | split

theorem State.assign_kept {a s : State} (h : Kept a s) (p : AssignPart) :
    Kept a (State.assign s p) := by
  unfold State.assign
  repeat' first
    | (with_reducible first
        | assumption | refine Kept.ite ?_ ?_ | apply State.setFleetState_kept | apply State.toManager_kept
        | apply State.tryAssign_kept)

theorem execAssign_kept {a s : State} (h : Kept a s) (part : AssignPart) {kt : State} (ke : execAssign part s = .next kt) :
    Kept a kt := by
  unfold execAssign at ke
  refine Kept.of_done ke ?_
  repeat' first
    | (with_reducible first
        | assumption | refine Kept.ite ?_ ?_ | apply State.assign_kept | apply State.flitFrom_kept)

theorem State.assignedFrom_kept {a s : State} (h : Kept a s) (w : Nat) (id : Nat) (code : Nat) :
    Kept a (State.assignedFrom s w id code) := by
  unfold State.assignedFrom
  repeat' first
    | (with_reducible first | assumption | refine Kept.ite ?_ ?_)
    | (lift_lets; intro kx; refine Kept.step (a := a) (x := kx) ?_ fun hkx => ?_)
    | (lift_lets; intro kx)
    | (simp only [Kept.mk_iff]; with_reducible refine KeptF.of ?_ (Nat.le_refl _))
    | (simp only [Kept.mk_iff]; with_reducible refine KeptF.of ?_ (Nat.le_succ _))
    | (with_reducible first
        | apply State.setFleetState_kept | apply State.setWorker_kept | apply State.tryLaunch_kept)
    | (simp only [kx, Kept.mk_iff]; with_reducible refine KeptF.of ?_ (Nat.le_refl _))
    | (with_reducible first
        | refine Kept.foldl ?_ fun kb ky hkb => ?_ | refine Kept.foldl_snd ?_ fun kb ky hkb => ?_
        | refine Kept.foldl_fst ?_ fun kb ky hkb => ?_)
    | split
    | (with_reducible first
        | refine Kept.of_snd (by assumption) ?_ | refine Kept.of_fst (by assumption) ?_
        | refine Kept.of_third (by assumption) ?_)
    | dsimp only
    | unfold kx
    | exact hkz

theorem execAssigned_kept {a s : State} (h : Kept a s) (worker : BitVec 13) (setId : BitVec 32) (code : BitVec 8) {kt : State} (ke : execAssigned worker setId code s = .next kt) :
    Kept a kt := by
  unfold execAssigned at ke
  refine Kept.of_done ke ?_
  repeat' first
    | (with_reducible first
        | assumption | refine Kept.ite ?_ ?_ | apply State.mirror_kept | apply State.flitFrom_kept
        | apply State.assignedFrom_kept)

theorem State.heartbeat_kept {a s : State} (h : Kept a s) (sender : Nat) (tstate : Nat) (err : Nat) (step : Nat) (load : Nat) :
    Kept a (State.heartbeat s sender tstate err step load) := by
  unfold State.heartbeat
  repeat' first
    | (with_reducible first | assumption | refine Kept.ite ?_ ?_)
    | (lift_lets; intro kx; refine Kept.step (a := a) (x := kx) ?_ fun hkx => ?_)
    | (lift_lets; intro kx)
    | (simp only [Kept.mk_iff]; with_reducible refine KeptF.of ?_ (Nat.le_refl _))
    | (simp only [Kept.mk_iff]; with_reducible refine KeptF.of ?_ (Nat.le_succ _))
    | (with_reducible first
        | apply State.setFleet_kept | apply State.setFleetState_kept | apply State.setWorker_kept
        | apply State.settleRounds_kept | apply State.tryLaunch_kept)
    | (simp only [kx, Kept.mk_iff]; with_reducible refine KeptF.of ?_ (Nat.le_refl _))
    | (with_reducible first
        | refine Kept.foldl ?_ fun kb ky hkb => ?_ | refine Kept.foldl_snd ?_ fun kb ky hkb => ?_
        | refine Kept.foldl_fst ?_ fun kb ky hkb => ?_)
    | split
    | (with_reducible first
        | refine Kept.of_snd (by assumption) ?_ | refine Kept.of_fst (by assumption) ?_
        | refine Kept.of_third (by assumption) ?_)
    | dsimp only
    | unfold kx

theorem execHeartbeat_kept {a s : State} (h : Kept a s) (sender : BitVec 13) (_glc : BitVec 64) (timeState : BitVec 3) (errEst : BitVec 16) (step : BitVec 64) (loadState : BitVec 3) {kt : State} (ke : execHeartbeat sender _glc timeState errEst step loadState s = .next kt) :
    Kept a kt := by
  unfold execHeartbeat at ke
  refine Kept.of_done ke ?_
  repeat' first
    | (with_reducible first
        | assumption | refine Kept.ite ?_ ?_ | apply State.mirror_kept | apply State.flitFrom_kept
        | apply State.heartbeat_kept)

theorem State.heartbeatTimer_kept {a s : State} (h : Kept a s) :
    Kept a (State.heartbeatTimer s) := by
  unfold State.heartbeatTimer
  repeat' first
    | (with_reducible first | assumption | refine Kept.ite ?_ ?_)
    | (lift_lets; intro kx; refine Kept.step (a := a) (x := kx) ?_ fun hkx => ?_)
    | (lift_lets; intro kx)
    | (simp only [Kept.mk_iff]; with_reducible refine KeptF.of ?_ (Nat.le_refl _))
    | (simp only [Kept.mk_iff]; with_reducible refine KeptF.of ?_ (Nat.le_succ _))
    | (with_reducible first
        | apply State.sendMsg_kept | apply State.toManager_kept | apply State.formSet_kept
        | apply State.abortLaunch_kept)
    | (simp only [kx, Kept.mk_iff]; with_reducible refine KeptF.of ?_ (Nat.le_refl _))
    | (with_reducible first
        | refine Kept.foldl ?_ fun kb ky hkb => ?_ | refine Kept.foldl_snd ?_ fun kb ky hkb => ?_
        | refine Kept.foldl_fst ?_ fun kb ky hkb => ?_)
    | split
    | (with_reducible first
        | refine Kept.of_snd (by assumption) ?_ | refine Kept.of_fst (by assumption) ?_
        | refine Kept.of_third (by assumption) ?_)
    | dsimp only
    | unfold kx

theorem execHeartbeatTimer_kept {a s : State} (h : Kept a s) {kt : State} (ke : execHeartbeatTimer s = .next kt) :
    Kept a kt := by
  unfold execHeartbeatTimer at ke
  refine Kept.of_done ke ?_
  repeat' (with_reducible first | assumption | refine Kept.ite ?_ ?_ | apply State.heartbeatTimer_kept)

theorem State.workerGone_kept {a s : State} (h : Kept a s) (w : Nat) :
    Kept a (State.workerGone s w) := by
  unfold State.workerGone
  repeat' first
    | (with_reducible first
        | assumption | refine Kept.ite ?_ ?_ | apply State.loseWorker_kept | apply State.mirror_kept
        | apply State.settleRounds_kept)

theorem State.workerLost_kept {a s : State} (h : Kept a s) (w : Nat) :
    Kept a (State.workerLost s w) := by
  unfold State.workerLost
  repeat' first
    | (with_reducible first | assumption | refine Kept.ite ?_ ?_)
    | (lift_lets; intro kx; refine Kept.step (a := a) (x := kx) ?_ fun hkx => ?_)
    | (lift_lets; intro kx)
    | (simp only [Kept.mk_iff]; with_reducible refine KeptF.of ?_ (Nat.le_refl _))
    | (simp only [Kept.mk_iff]; with_reducible refine KeptF.of ?_ (Nat.le_succ _))
    | with_reducible apply State.workerGone_kept
    | (simp only [kx, Kept.mk_iff]; with_reducible refine KeptF.of ?_ (Nat.le_refl _))
    | (with_reducible first
        | refine Kept.foldl ?_ fun kb ky hkb => ?_ | refine Kept.foldl_snd ?_ fun kb ky hkb => ?_
        | refine Kept.foldl_fst ?_ fun kb ky hkb => ?_)
    | split
    | (with_reducible first
        | refine Kept.of_snd (by assumption) ?_ | refine Kept.of_fst (by assumption) ?_
        | refine Kept.of_third (by assumption) ?_)
    | dsimp only
    | unfold kx

theorem execWorkerLost_kept {a s : State} (h : Kept a s) (worker : BitVec 13) {kt : State} (ke : execWorkerLost worker s = .next kt) :
    Kept a kt := by
  unfold execWorkerLost at ke
  refine Kept.of_done ke ?_
  repeat' first
    | (with_reducible first | assumption | refine Kept.ite ?_ ?_)
    | (lift_lets; intro kx; refine Kept.step (a := a) (x := kx) ?_ fun hkx => ?_)
    | (lift_lets; intro kx)
    | (simp only [Kept.mk_iff]; with_reducible refine KeptF.of ?_ (Nat.le_refl _))
    | (simp only [Kept.mk_iff]; with_reducible refine KeptF.of ?_ (Nat.le_succ _))
    | with_reducible apply State.workerLost_kept
    | (simp only [kx, Kept.mk_iff]; with_reducible refine KeptF.of ?_ (Nat.le_refl _))
    | (with_reducible first
        | refine Kept.foldl ?_ fun kb ky hkb => ?_ | refine Kept.foldl_snd ?_ fun kb ky hkb => ?_
        | refine Kept.foldl_fst ?_ fun kb ky hkb => ?_)
    | split
    | (with_reducible first
        | refine Kept.of_snd (by assumption) ?_ | refine Kept.of_fst (by assumption) ?_
        | refine Kept.of_third (by assumption) ?_)
    | dsimp only
    | unfold kx

theorem execLeave_kept {a s : State} (h : Kept a s) (worker : BitVec 13) (_cause : BitVec 8) {kt : State} (ke : execLeave worker _cause s = .next kt) :
    Kept a kt := by
  unfold execLeave at ke
  refine Kept.of_done ke ?_
  repeat' first
    | (with_reducible first
        | assumption | refine Kept.ite ?_ ?_ | apply State.workerGone_kept | apply State.flitFrom_kept)

theorem State.takeOver_kept {a s : State} (h : Kept a s) :
    Kept a (State.takeOver s) := by
  unfold State.takeOver
  repeat' first
    | (with_reducible first | assumption | refine Kept.ite ?_ ?_)
    | (lift_lets; intro kx; refine Kept.step (a := a) (x := kx) ?_ fun hkx => ?_)
    | (lift_lets; intro kx)
    | (simp only [Kept.mk_iff]; with_reducible refine KeptF.of ?_ (Nat.le_refl _))
    | (simp only [Kept.mk_iff]; with_reducible refine KeptF.of ?_ (Nat.le_succ _))
    | (with_reducible first
        | apply State.setShadow_kept | apply State.setFld_kept | apply State.sendMsg_kept
        | apply State.setFleetState_kept | apply State.mirror_kept)
    | (simp only [kx, Kept.mk_iff]; with_reducible refine KeptF.of ?_ (Nat.le_refl _))
    | (with_reducible first
        | refine Kept.foldl ?_ fun kb ky hkb => ?_ | refine Kept.foldl_snd ?_ fun kb ky hkb => ?_
        | refine Kept.foldl_fst ?_ fun kb ky hkb => ?_)
    | split
    | (with_reducible first
        | refine Kept.of_snd (by assumption) ?_ | refine Kept.of_fst (by assumption) ?_
        | refine Kept.of_third (by assumption) ?_)
    | dsimp only
    | unfold kx

theorem State.managerLost_kept {a s : State} (h : Kept a s) :
    Kept a (State.managerLost s) := by
  unfold State.managerLost
  repeat' first
    | (with_reducible first | assumption | refine Kept.ite ?_ ?_)
    | (lift_lets; intro kx; refine Kept.step (a := a) (x := kx) ?_ fun hkx => ?_)
    | (lift_lets; intro kx)
    | (simp only [Kept.mk_iff]; with_reducible refine KeptF.of ?_ (Nat.le_refl _))
    | (simp only [Kept.mk_iff]; with_reducible refine KeptF.of ?_ (Nat.le_succ _))
    | (with_reducible first
        | apply State.setFleet_kept | apply State.stopRun_kept | apply State.setFleetState_kept
        | apply State.answerJoin_kept | apply State.takeOver_kept)
    | (simp only [kx, Kept.mk_iff]; with_reducible refine KeptF.of ?_ (Nat.le_refl _))
    | (with_reducible first
        | refine Kept.foldl ?_ fun kb ky hkb => ?_ | refine Kept.foldl_snd ?_ fun kb ky hkb => ?_
        | refine Kept.foldl_fst ?_ fun kb ky hkb => ?_)
    | split
    | (with_reducible first
        | refine Kept.of_snd (by assumption) ?_ | refine Kept.of_fst (by assumption) ?_
        | refine Kept.of_third (by assumption) ?_)
    | dsimp only
    | unfold kx

theorem execManagerLost_kept {a s : State} (h : Kept a s) {kt : State} (ke : execManagerLost s = .next kt) :
    Kept a kt := by
  unfold execManagerLost at ke
  refine Kept.of_done ke ?_
  repeat' (with_reducible first | assumption | refine Kept.ite ?_ ?_ | apply State.managerLost_kept)

theorem State.standbyMirror_kept {a s : State} (h : Kept a s) (m : Mirror) :
    Kept a (State.standbyMirror s m) := by
  unfold State.standbyMirror
  repeat' (with_reducible first | assumption | refine Kept.ite ?_ ?_ | apply State.setFleetState_kept)

theorem execStandbyMirror_kept {a s : State} (h : Kept a s) (mirror : MirrorMsg) (agreedStep : BitVec 64) {kt : State} (ke : execStandbyMirror mirror agreedStep s = .next kt) :
    Kept a kt := by
  unfold execStandbyMirror at ke
  refine Kept.of_done ke ?_
  repeat' first
    | (with_reducible first | assumption | refine Kept.ite ?_ ?_)
    | (lift_lets; intro kx; refine Kept.step (a := a) (x := kx) ?_ fun hkx => ?_)
    | (lift_lets; intro kx)
    | (simp only [Kept.mk_iff]; with_reducible refine KeptF.of ?_ (Nat.le_refl _))
    | (simp only [Kept.mk_iff]; with_reducible refine KeptF.of ?_ (Nat.le_succ _))
    | (with_reducible first | apply State.flitFrom_kept | apply State.mirror_kept | apply State.standbyMirror_kept)
    | (simp only [kx, Kept.mk_iff]; with_reducible refine KeptF.of ?_ (Nat.le_refl _))
    | (with_reducible first
        | refine Kept.foldl ?_ fun kb ky hkb => ?_ | refine Kept.foldl_snd ?_ fun kb ky hkb => ?_
        | refine Kept.foldl_fst ?_ fun kb ky hkb => ?_)
    | split
    | (with_reducible first
        | refine Kept.of_snd (by assumption) ?_ | refine Kept.of_fst (by assumption) ?_
        | refine Kept.of_third (by assumption) ?_)
    | dsimp only
    | unfold kx

theorem State.admitSet_kept {a s : State} (h : Kept a s) (id : Nat) :
    Kept a (State.admitSet s id) := by
  unfold State.admitSet
  repeat' first
    | (with_reducible first
        | assumption | refine Kept.ite ?_ ?_ | apply State.setFleet_kept | apply State.setFleetState_kept)
    | exact hkz

theorem execAdmitSet_kept {a s : State} (h : Kept a s) (setId : BitVec 32) {kt : State} (ke : execAdmitSet setId s = .next kt) :
    Kept a kt := by
  unfold execAdmitSet at ke
  refine Kept.of_done ke ?_
  repeat' first
    | (with_reducible first
        | assumption | refine Kept.ite ?_ ?_ | apply State.admitSet_kept | apply State.flitFrom_kept)

end Sys2Proof.Machine
end

