-- ==== Sys2Proof/Laws/KeptPcie.lean ====
section
/-! SUPPORT. What the operations of Machine/Pcie.lean keep (`Kept`). -/

set_option linter.unusedSimpArgs false

namespace Sys2Proof.Machine

theorem State.resetRegs_kept {a s : State} (h : Kept a s) (os : List Nat) :
    Kept a (State.resetRegs s os) := by
  unfold State.resetRegs
  repeat' first
    | (with_reducible first
        | assumption | apply State.setReg_kept | apply State.setShadow_kept
        | refine Kept.foldl ?_ fun kb ky hkb => ?_)

theorem State.strapRoot_kept {a s : State} (h : Kept a s) :
    Kept a (State.strapRoot s) := by
  unfold State.strapRoot
  repeat' (with_reducible first | assumption | refine Kept.ite ?_ ?_ | apply State.setFld_kept)

theorem execFunctionLevelReset_kept {a s : State} (h : Kept a s) {kt : State} (ke : execFunctionLevelReset s = .next kt) :
    Kept a kt := by
  unfold execFunctionLevelReset at ke
  refine Kept.of_done ke ?_
  repeat' first
    | (with_reducible first
        | assumption | refine Kept.ite ?_ ?_ | apply State.resetRegs_kept | apply State.strapRoot_kept)

theorem State.msixWrite_kept {a s : State} (h : Kept a s) (off : Nat) (bs : List Byte) :
    Kept a (State.msixWrite s off bs) := by
  unfold State.msixWrite
  repeat' first
    | (with_reducible first | assumption | refine Kept.ite ?_ ?_)
    | (lift_lets; intro kx; refine Kept.step (a := a) (x := kx) ?_ fun hkx => ?_)
    | (lift_lets; intro kx)
    | (simp only [Kept.mk_iff]; with_reducible refine KeptF.of ?_ (Nat.le_refl _))
    | (simp only [Kept.mk_iff]; with_reducible refine KeptF.of ?_ (Nat.le_succ _))
    | (simp only [kx, Kept.mk_iff]; with_reducible refine KeptF.of ?_ (Nat.le_refl _))
    | (with_reducible first
        | refine Kept.foldl ?_ fun kb ky hkb => ?_ | refine Kept.foldl_snd ?_ fun kb ky hkb => ?_
        | refine Kept.foldl_fst ?_ fun kb ky hkb => ?_)
    | split
    | (with_reducible first
        | refine Kept.of_snd (by assumption) ?_ | refine Kept.of_fst (by assumption) ?_
        | refine Kept.of_third (by assumption) ?_)
    | dsimp only
    | unfold kx

theorem State.msixReset_kept {a s : State} (h : Kept a s) :
    Kept a (State.msixReset s) := by
  unfold State.msixReset
  repeat' first
    | (with_reducible first | assumption | refine Kept.ite ?_ ?_)
    | (lift_lets; intro kx; refine Kept.step (a := a) (x := kx) ?_ fun hkx => ?_)
    | (lift_lets; intro kx)
    | (simp only [Kept.mk_iff]; with_reducible refine KeptF.of ?_ (Nat.le_refl _))
    | (simp only [Kept.mk_iff]; with_reducible refine KeptF.of ?_ (Nat.le_succ _))
    | (simp only [kx, Kept.mk_iff]; with_reducible refine KeptF.of ?_ (Nat.le_refl _))
    | (with_reducible first
        | refine Kept.foldl ?_ fun kb ky hkb => ?_ | refine Kept.foldl_snd ?_ fun kb ky hkb => ?_
        | refine Kept.foldl_fst ?_ fun kb ky hkb => ?_)
    | split
    | (with_reducible first
        | refine Kept.of_snd (by assumption) ?_ | refine Kept.of_fst (by assumption) ?_
        | refine Kept.of_third (by assumption) ?_)
    | dsimp only
    | unfold kx

theorem State.msiReceive_kept {a s : State} (h : Kept a s) (aa : Nat) (data : Nat) :
    Kept a (State.msiReceive s aa data) := by
  unfold State.msiReceive
  repeat' first
    | (with_reducible first | assumption | refine Kept.ite ?_ ?_)
    | (simp only [Kept.mk_iff]; with_reducible refine KeptF.of ?_ (Nat.le_refl _))
    | (with_reducible first | apply State.respond_kept | apply State.raiseIrq_kept | apply State.agentWrite_kept)

theorem execMsiReceive_kept {a s : State} (h : Kept a s) (addr : BitVec 64) (data : BitVec 32) {kt : State} (ke : execMsiReceive addr data s = .next kt) :
    Kept a kt := by
  unfold execMsiReceive at ke
  refine Kept.of_done ke ?_
  repeat' (with_reducible first | assumption | refine Kept.ite ?_ ?_ | apply State.msiReceive_kept)

theorem State.msiRead_kept {a s : State} (h : Kept a s) :
    Kept a (State.msiRead s) := by
  unfold State.msiRead
  repeat' first
    | (with_reducible first | assumption | refine Kept.ite ?_ ?_)
    | (simp only [Kept.mk_iff]; with_reducible refine KeptF.of ?_ (Nat.le_refl _))
    | with_reducible apply State.respond_kept

theorem execRpMsiDataRead_kept {a s : State} (h : Kept a s) {kt : State} (ke : execRpMsiDataRead s = .next kt) :
    Kept a kt := by
  unfold execRpMsiDataRead at ke
  refine Kept.of_done ke ?_
  repeat' (with_reducible first | assumption | refine Kept.ite ?_ ?_ | apply State.msiRead_kept)

theorem State.cfgRequest_kept {a s : State} (h : Kept a s) (w : Option Nat) :
    Kept a (State.cfgRequest s w) := by
  unfold State.cfgRequest
  repeat' (with_reducible first | assumption | refine Kept.ite ?_ ?_ | apply State.sendPcie_kept)

theorem State.rpCfg_kept {a s : State} (h : Kept a s) (w : Option Nat) (answer : Option Nat) :
    Kept a (State.rpCfg s w answer) := by
  unfold State.rpCfg
  repeat' first
    | (with_reducible first
        | assumption | apply State.setFld_kept | apply State.respond_kept | apply State.cfgRequest_kept)
    | split

theorem execRpCfgDataAccess_kept {a s : State} (h : Kept a s) (write : Option (BitVec 32)) (answer : Option (BitVec 32)) {kt : State} (ke : execRpCfgDataAccess write answer s = .next kt) :
    Kept a kt := by
  unfold execRpCfgDataAccess at ke
  refine Kept.of_done ke ?_
  repeat' first
    | with_reducible assumption
    | (lift_lets; intro kx)
    | (with_reducible first | apply State.onReady_kept | apply State.rpCfg_kept)

end Sys2Proof.Machine
end

