-- ==== Sys2Proof/Laws/KeptPower.lean ====
section
/-! SUPPORT. What the operations of Machine/Power.lean keep (`Kept`). -/

set_option linter.unusedSimpArgs false

namespace Sys2Proof.Machine

theorem State.setPwr_kept {a s : State} (h : Kept a s) (p : PwrState) :
    Kept a (State.setPwr s p) := by
  unfold State.setPwr
  repeat' first
    | with_reducible assumption
    | (simp only [Kept.mk_iff]; with_reducible refine KeptF.of ?_ (Nat.le_refl _))

theorem State.excursion_kept {a s : State} (h : Kept a s) (g : Nat) (mv : Nat) :
    Kept a (State.excursion s g mv) := by
  unfold State.excursion
  repeat' first
    | (with_reducible first
        | assumption | refine Kept.ite ?_ ?_ | apply State.bump_kept | apply State.raiseIrq_kept
        | apply State.emit_kept | apply State.setPwr_kept)

theorem State.sampleRail_kept {a s : State} (h : Kept a s) (g : Nat) (mv : Nat) :
    Kept a (State.sampleRail s g mv) := by
  unfold State.sampleRail
  repeat' first
    | (with_reducible first
        | assumption | refine Kept.ite ?_ ?_ | apply State.setFld_kept | apply State.excursion_kept)

theorem State.sampleRails_kept {a s : State} (h : Kept a s) (mvs : List Nat) :
    Kept a (State.sampleRails s mvs) := by
  unfold State.sampleRails
  repeat' (with_reducible first | assumption | apply State.sampleRail_kept | refine Kept.foldl ?_ fun kb ky hkb => ?_)

theorem State.rearm_kept {a s : State} (h : Kept a s) (v : Nat) :
    Kept a (State.rearm s v) := by
  unfold State.rearm
  repeat' first
    | (with_reducible first
        | assumption | refine Kept.ite ?_ ?_ | apply State.setFld_kept | refine Kept.foldl ?_ fun kb ky hkb => ?_)

theorem execRearm_kept {a s : State} (h : Kept a s) (value : Word) {kt : State} (ke : execRearm value s = .next kt) :
    Kept a kt := by
  unfold execRearm at ke
  refine Kept.of_done ke ?_
  repeat' first
    | with_reducible assumption
    | (lift_lets; intro kx)
    | (with_reducible first | apply State.onReady_kept | apply State.rearm_kept)

theorem State.setTj_kept {a s : State} (h : Kept a s) (d : Nat) (tj : Int) :
    Kept a (State.setTj s d tj) := by
  unfold State.setTj
  repeat' (with_reducible first | assumption | refine Kept.ite ?_ ?_ | apply State.setFld_kept)

theorem State.throttleEvaluation_kept {a s : State} (h : Kept a s) (d : Nat) (tj : Int) :
    Kept a (State.throttleEvaluation s d tj) := by
  unfold State.throttleEvaluation
  repeat' first
    | (with_reducible first
        | assumption | refine Kept.ite ?_ ?_ | apply State.bump_kept | apply State.setFld_kept
        | apply State.raiseIrq_kept | apply State.emit_kept | apply State.setTj_kept)

theorem execThrottleEvaluation_kept {a s : State} (h : Kept a s) (die : Fin 5) (tj : Int) {kt : State} (ke : execThrottleEvaluation die tj s = .next kt) :
    Kept a kt := by
  unfold execThrottleEvaluation at ke
  refine Kept.of_done ke ?_
  repeat' (with_reducible first | assumption | refine Kept.ite ?_ ?_ | apply State.throttleEvaluation_kept)

theorem State.throttleFrame_kept {a s : State} (h : Kept a s) :
    Kept a (State.throttleFrame s) := by
  unfold State.throttleFrame
  repeat' first
    | (with_reducible first
        | assumption | refine Kept.ite ?_ ?_ | apply State.bump_kept | apply State.setPwr_kept
        | refine Kept.foldl ?_ fun kb ky hkb => ?_)

theorem State.setSensor_kept {a s : State} (h : Kept a s) (n : Nat) (temp : Int) :
    Kept a (State.setSensor s n temp) := by
  unfold State.setSensor
  repeat' first
    | (with_reducible first
        | assumption | refine Kept.ite ?_ ?_ | apply State.stackTemp_kept | apply State.setTj_kept)

theorem State.tripSensor_kept {a s : State} (h : Kept a s) (n : Nat) :
    Kept a (State.tripSensor s n) := by
  unfold State.tripSensor
  repeat' first
    | (with_reducible first | assumption | refine Kept.ite ?_ ?_)
    | (simp only [Kept.mk_iff]; with_reducible refine KeptF.of ?_ (Nat.le_refl _))
    | (with_reducible first
        | apply State.bump_kept | apply State.setFld_kept | apply State.stopStep_kept | apply State.setPwr_kept)

theorem State.thermalTrip_kept {a s : State} (h : Kept a s) (n : Nat) (temp : Int) :
    Kept a (State.thermalTrip s n temp) := by
  unfold State.thermalTrip
  repeat' first
    | (with_reducible first | assumption | refine Kept.ite ?_ ?_)
    | (lift_lets; intro kx; refine Kept.step (a := a) (x := kx) ?_ fun hkx => ?_)
    | (lift_lets; intro kx)
    | (simp only [Kept.mk_iff]; with_reducible refine KeptF.of ?_ (Nat.le_refl _))
    | (simp only [Kept.mk_iff]; with_reducible refine KeptF.of ?_ (Nat.le_succ _))
    | (with_reducible first
        | apply State.raiseIrq_kept | apply State.emit_kept | apply State.setSensor_kept
        | apply State.tripSensor_kept)
    | (simp only [kx, Kept.mk_iff]; with_reducible refine KeptF.of ?_ (Nat.le_refl _))
    | (with_reducible first
        | refine Kept.foldl ?_ fun kb ky hkb => ?_ | refine Kept.foldl_snd ?_ fun kb ky hkb => ?_
        | refine Kept.foldl_fst ?_ fun kb ky hkb => ?_)
    | split
    | (with_reducible first
        | refine Kept.of_snd (by assumption) ?_ | refine Kept.of_fst (by assumption) ?_
        | refine Kept.of_third (by assumption) ?_)
    | dsimp only
    | unfold kx

theorem execThermalTrip_kept {a s : State} (h : Kept a s) (sensor : Fin 28) (temp : BitVec 16) {kt : State} (ke : execThermalTrip sensor temp s = .next kt) :
    Kept a kt := by
  unfold execThermalTrip at ke
  refine Kept.of_done ke ?_
  repeat' (with_reducible first | assumption | refine Kept.ite ?_ ?_ | apply State.thermalTrip_kept)

theorem State.thermalRelease_kept {a s : State} (h : Kept a s) :
    Kept a (State.thermalRelease s) := by
  unfold State.thermalRelease
  repeat' first
    | with_reducible assumption
    | (simp only [Kept.mk_iff]; with_reducible refine KeptF.of ?_ (Nat.le_refl _))
    | (with_reducible first
        | apply State.setFld_kept | apply State.setPwr_kept | refine Kept.foldl ?_ fun kb ky hkb => ?_)

theorem execThermalTripRelease_kept {a s : State} (h : Kept a s) {kt : State} (ke : execThermalTripRelease s = .next kt) :
    Kept a kt := by
  unfold execThermalTripRelease at ke
  refine Kept.of_done ke ?_
  repeat' (with_reducible first | assumption | refine Kept.ite ?_ ?_ | apply State.thermalRelease_kept)

end Sys2Proof.Machine
end

