-- ==== Sys2Proof/Laws/KeptSecurity.lean ====
section
/-! SUPPORT. What the operations of Machine/Security.lean keep (`Kept`). -/

set_option linter.unusedSimpArgs false

namespace Sys2Proof.Machine

theorem State.setSec_kept {a s : State} (h : Kept a s) (x : SecState) :
    Kept a (State.setSec s x) := by
  unfold State.setSec
  repeat' first
    | with_reducible assumption
    | (simp only [Kept.mk_iff]; with_reducible refine KeptF.of ?_ (Nat.le_refl _))

theorem State.setMtr_kept {a s : State} (h : Kept a s) (x : MeterState) (hx : s.mtr.sequence ≤ x.sequence) :
    Kept a (s.setMtr x) :=
  h.trans ⟨rfl, id, id, id, id, id, rfl, rfl, rfl, Nat.le_refl _, hx⟩

theorem State.eraseKeys_kept {a s : State} (h : Kept a s) :
    Kept a (State.eraseKeys s) := by
  unfold State.eraseKeys
  repeat' (with_reducible first | assumption | refine Kept.ite ?_ ?_ | apply State.setFld_kept | apply State.setSec_kept)

theorem State.alarm_kept {a s : State} (h : Kept a s) (b : Nat) :
    Kept a (State.alarm s b) := by
  unfold State.alarm
  repeat' first
    | (with_reducible first | assumption | refine Kept.ite ?_ ?_)
    | (lift_lets; intro kx; refine Kept.step (a := a) (x := kx) ?_ fun hkx => ?_)
    | (lift_lets; intro kx)
    | (simp only [Kept.mk_iff]; with_reducible refine KeptF.of ?_ (Nat.le_refl _))
    | (simp only [Kept.mk_iff]; with_reducible refine KeptF.of ?_ (Nat.le_succ _))
    | (with_reducible first
        | apply State.setFld_kept | apply State.raiseIrq_kept | apply State.emit_kept | apply State.eraseKeys_kept)
    | (simp only [kx, Kept.mk_iff]; with_reducible refine KeptF.of ?_ (Nat.le_refl _))
    | (with_reducible first
        | refine Kept.foldl ?_ fun kb ky hkb => ?_ | refine Kept.foldl_snd ?_ fun kb ky hkb => ?_
        | refine Kept.foldl_fst ?_ fun kb ky hkb => ?_)
    | split
    | (with_reducible first
        | refine Kept.of_snd (by assumption) ?_ | refine Kept.of_fst (by assumption) ?_
        | refine Kept.of_third (by assumption) ?_)
    | dsimp only
    | unfold kx

theorem execAlarm_kept {a s : State} (h : Kept a s) (source : Fin 6) {kt : State} (ke : execAlarm source s = .next kt) :
    Kept a kt := by
  unfold execAlarm at ke
  refine Kept.of_done ke ?_
  repeat' (with_reducible first | assumption | refine Kept.ite ?_ ?_ | apply State.alarm_kept)

theorem execMeterInterval_kept {a s : State} (h : Kept a s) (interval : MeterInterval) {kt : State} (ke : execMeterInterval interval s = .next kt) :
    Kept a kt := by
  unfold execMeterInterval at ke
  refine Kept.of_done ke ?_
  repeat' first
    | (with_reducible first | assumption | apply State.setMtr_kept)
    | exact Nat.le_succ _

theorem State.meterRecord_kept {a s : State} (h : Kept a s) (b : List Byte) :
    Kept a (State.meterRecord s b) := by
  unfold State.meterRecord
  repeat' first
    | (with_reducible first
        | assumption | first | refine fun kz kb hkz => ?_ | refine fun kz hkz => ?_ | refine Kept.ite ?_ ?_)
    | (lift_lets; intro kx; refine Kept.step (a := a) (x := kx) ?_ fun hkx => ?_)
    | (lift_lets; intro kx)
    | (simp only [Kept.mk_iff]; with_reducible refine KeptF.of ?_ (Nat.le_refl _))
    | (simp only [Kept.mk_iff]; with_reducible refine KeptF.of ?_ (Nat.le_succ _))
    | (with_reducible first
        | apply State.setFld_kept | apply State.mirror_kept | apply State.setMtr_kept | apply State.alarm_kept)
    | (simp only [kx, Kept.mk_iff]; with_reducible refine KeptF.of ?_ (Nat.le_refl _))
    | (with_reducible first
        | refine Kept.foldl ?_ fun kb ky hkb => ?_ | refine Kept.foldl_snd ?_ fun kb ky hkb => ?_
        | refine Kept.foldl_fst ?_ fun kb ky hkb => ?_)
    | split
    | (with_reducible first
        | refine Kept.of_snd (by assumption) ?_ | refine Kept.of_fst (by assumption) ?_
        | refine Kept.of_third (by assumption) ?_)
    | dsimp only
    | unfold kx
    | exact Nat.le_refl _
    | exact Nat.le_succ _

theorem execMeterRecord_kept {a s : State} (h : Kept a s) (bytes : List Byte) {kt : State} (ke : execMeterRecord bytes s = .next kt) :
    Kept a kt := by
  unfold execMeterRecord at ke
  refine Kept.of_done ke ?_
  repeat' (with_reducible first | assumption | refine Kept.ite ?_ ?_ | apply State.meterRecord_kept)

theorem State.meterLinkLost_kept {a s : State} (h : Kept a s) :
    Kept a (State.meterLinkLost s) := by
  unfold State.meterLinkLost
  repeat' first
    | (with_reducible first
        | assumption | refine Kept.ite ?_ ?_ | apply State.setFld_kept | apply State.raiseIrq_kept
        | apply State.emit_kept | apply State.alarm_kept)

theorem execMeterLinkLost_kept {a s : State} (h : Kept a s) {kt : State} (ke : execMeterLinkLost s = .next kt) :
    Kept a kt := by
  unfold execMeterLinkLost at ke
  refine Kept.of_done ke ?_
  repeat' (with_reducible first | assumption | refine Kept.ite ?_ ?_ | apply State.meterLinkLost_kept)

theorem State.keyDataAccess_kept {a s : State} (h : Kept a s) (ag : Agent) (w : Nat) (v : Option Word) :
    Kept a (State.keyDataAccess s ag w v) := by
  unfold State.keyDataAccess
  repeat' first
    | (with_reducible first | assumption | refine Kept.ite ?_ ?_)
    | (lift_lets; intro kx; refine Kept.step (a := a) (x := kx) ?_ fun hkx => ?_)
    | (lift_lets; intro kx)
    | (simp only [Kept.mk_iff]; with_reducible refine KeptF.of ?_ (Nat.le_refl _))
    | (simp only [Kept.mk_iff]; with_reducible refine KeptF.of ?_ (Nat.le_succ _))
    | (with_reducible first | apply State.respond_kept | apply State.setSec_kept)
    | (simp only [kx, Kept.mk_iff]; with_reducible refine KeptF.of ?_ (Nat.le_refl _))
    | (with_reducible first
        | refine Kept.foldl ?_ fun kb ky hkb => ?_ | refine Kept.foldl_snd ?_ fun kb ky hkb => ?_
        | refine Kept.foldl_fst ?_ fun kb ky hkb => ?_)
    | split
    | (with_reducible first
        | refine Kept.of_snd (by assumption) ?_ | refine Kept.of_fst (by assumption) ?_
        | refine Kept.of_third (by assumption) ?_)
    | dsimp only
    | unfold kx

theorem execKeyDataAccess_kept {a s : State} (h : Kept a s) (agent : Agent) (word : Fin 4) (write : Option Word) {kt : State} (ke : execKeyDataAccess agent word write s = .next kt) :
    Kept a kt := by
  unfold execKeyDataAccess at ke
  refine Kept.of_done ke ?_
  repeat' (with_reducible first | assumption | refine Kept.ite ?_ ?_ | apply State.keyDataAccess_kept)

theorem State.debugUnlock_kept {a s : State} (h : Kept a s) (slot : Nat) (challenge : List Byte) (key : List Byte) (r : List Byte) (sg : List Byte) :
    Kept a (State.debugUnlock s slot challenge key r sg) := by
  unfold State.debugUnlock
  repeat' first
    | (with_reducible first
        | assumption | refine Kept.ite ?_ ?_ | apply State.setSec_kept | apply State.eraseKeys_kept
        | apply State.alarm_kept)

theorem execDebugUnlock_kept {a s : State} (h : Kept a s) (slot : Fin 2) (challenge : List Byte) (key : List Byte) (sigR : List Byte) (sigS : List Byte) {kt : State} (ke : execDebugUnlock slot challenge key sigR sigS s = .next kt) :
    Kept a kt := by
  unfold execDebugUnlock at ke
  refine Kept.of_done ke ?_
  repeat' (with_reducible first | assumption | refine Kept.ite ?_ ?_ | apply State.debugUnlock_kept)

theorem State.fuseCmd_kept {a s : State} (h : Kept a s) (v : Word) :
    Kept a (State.fuseCmd s v) := by
  unfold State.fuseCmd
  repeat' (with_reducible first | assumption | refine Kept.ite ?_ ?_ | apply State.setFld_kept | apply State.setSec_kept)

theorem State.fuseOp_kept {a s : State} (h : Kept a s) (op : Nat) (v : Word) :
    Kept a (State.fuseOp s op v) := by
  unfold State.fuseOp
  repeat' (with_reducible first | assumption | refine Kept.ite ?_ ?_ | apply State.fuseCmd_kept)

theorem execFuseProgram_kept {a s : State} (h : Kept a s) (value : Word) {kt : State} (ke : execFuseProgram value s = .next kt) :
    Kept a kt := by
  unfold execFuseProgram at ke
  refine Kept.of_done ke ?_
  repeat' (with_reducible first | assumption | refine Kept.ite ?_ ?_ | apply State.fuseOp_kept)

theorem execFuseRevoke_kept {a s : State} (h : Kept a s) (value : Word) {kt : State} (ke : execFuseRevoke value s = .next kt) :
    Kept a kt := by
  unfold execFuseRevoke at ke
  refine Kept.of_done ke ?_
  repeat' (with_reducible first | assumption | refine Kept.ite ?_ ?_ | apply State.fuseOp_kept)

theorem execFuseRaise_kept {a s : State} (h : Kept a s) (value : Word) {kt : State} (ke : execFuseRaise value s = .next kt) :
    Kept a kt := by
  unfold execFuseRaise at ke
  refine Kept.of_done ke ?_
  repeat' (with_reducible first | assumption | refine Kept.ite ?_ ?_ | apply State.fuseOp_kept)

theorem State.fuseComplete_kept {a s : State} (h : Kept a s) :
    Kept a (State.fuseComplete s) := by
  unfold State.fuseComplete
  repeat' first
    | (with_reducible first | assumption | apply State.setFld_kept | apply State.setSec_kept)
    | split

theorem execFuseComplete_kept {a s : State} (h : Kept a s) {kt : State} (ke : execFuseComplete s = .next kt) :
    Kept a kt := by
  unfold execFuseComplete at ke
  refine Kept.of_done ke ?_
  repeat' (with_reducible first | assumption | refine Kept.ite ?_ ?_ | apply State.fuseComplete_kept)

end Sys2Proof.Machine
end

