-- ==== Sys2Proof/Laws/KeptRegisterWrite.lean ====
section
/-! SUPPORT. What the operations of Machine/RegisterWrite.lean keep (`Kept`). -/

set_option linter.unusedSimpArgs false

namespace Sys2Proof.Machine

theorem State.writeFields_kept {a s : State} (h : Kept a s) (k : RegKind) (off : Nat) (v : Nat) :
    Kept a (State.writeFields s k off v) := by
  unfold State.writeFields
  repeat' first
    | (with_reducible first
        | assumption | refine Kept.ite ?_ ?_ | apply State.setShadow_kept | apply State.setReg_kept)

theorem State.runCtrl_kept {a s : State} (h : Kept a s) (v : Word) :
    Kept a (State.runCtrl s v) := by
  unfold State.runCtrl
  repeat' first
    | (with_reducible first | assumption | refine Kept.ite ?_ ?_)
    | (lift_lets; intro kx)
    | (with_reducible first
        | apply State.setLimit_kept | apply State.onSteward_kept | apply State.runStart_kept
        | apply State.runStop_kept | apply State.runAbort_kept)

theorem State.loadCtrl_kept {a s : State} (h : Kept a s) (k : RegKind) (off : Nat) (v : Word) :
    Kept a (State.loadCtrl s k off v) := by
  unfold State.loadCtrl
  repeat' first
    | (with_reducible first | assumption | refine Kept.ite ?_ ?_)
    | (lift_lets; intro kx)
    | (with_reducible first
        | apply State.onSteward_kept | apply State.loadRequest_kept | apply State.writeFields_kept)

theorem State.ringField_kept {a s : State} (h : Kept a s) (off : Nat) (v : Nat) :
    Kept a (State.ringField s off v) := by
  unfold State.ringField
  repeat' first
    | (with_reducible first | assumption | refine Kept.ite ?_ ?_ | apply State.setRing_kept)
    | split

theorem State.ringCfg_kept {a s : State} (h : Kept a s) (v : Nat) :
    Kept a (State.ringCfg s v) := by
  unfold State.ringCfg
  repeat' first
    | (with_reducible first | assumption | apply State.ringDisable_kept | apply State.ringConfigure_kept)
    | split

theorem State.resetCtrl_kept {a s : State} (h : Kept a s) (ag : Agent) (v : Nat) :
    Kept a (State.resetCtrl s ag v) := by
  unfold State.resetCtrl
  repeat' first
    | (with_reducible first | assumption | refine Kept.ite ?_ ?_)
    | (lift_lets; intro kx; refine Kept.step (a := a) (x := kx) ?_ fun hkx => ?_)
    | (lift_lets; intro kx)
    | (simp only [Kept.mk_iff]; with_reducible refine KeptF.of ?_ (Nat.le_refl _))
    | (simp only [Kept.mk_iff]; with_reducible refine KeptF.of ?_ (Nat.le_succ _))
    | (with_reducible first
        | apply State.resetRegs_kept | apply State.strapRoot_kept | apply State.packageReset_kept
        | apply State.coresReset_kept)
    | (simp only [kx, Kept.mk_iff]; with_reducible refine KeptF.of ?_ (Nat.le_refl _))
    | (with_reducible first
        | refine Kept.foldl ?_ fun kb ky hkb => ?_ | refine Kept.foldl_snd ?_ fun kb ky hkb => ?_
        | refine Kept.foldl_fst ?_ fun kb ky hkb => ?_)
    | split
    | (with_reducible first
        | refine Kept.of_snd (by assumption) ?_ | refine Kept.of_fst (by assumption) ?_
        | refine Kept.of_third (by assumption) ?_)
    | dsimp only
    | unfold kx

theorem State.setNs_kept {a s : State} (h : Kept a s) (v : Word) :
    Kept a (State.setNs s v) := by
  unfold State.setNs
  repeat' (with_reducible first | assumption | refine Kept.ite ?_ ?_ | apply State.timeSet_kept | apply State.setFld_kept)

theorem State.onGo_kept {a s : State} (h : Kept a s) (v : Word) (f : State → State) (k : Kept a s → Kept a (f s)) :
    Kept a (s.onGo v f) := by
  unfold State.onGo; split
  · exact k h
  · exact h

theorem State.writeActive_kept {a s : State} (h : Kept a s) (k : RegKind) (off : Nat) (v : Word) :
    Kept a (State.writeActive s k off v) := by
  unfold State.writeActive
  repeat' first
    | (with_reducible first | assumption | refine Kept.ite ?_ ?_)
    | (lift_lets; intro kx)
    | (with_reducible first
        | apply State.bankSwap_kept | apply State.onSteward_kept | apply State.bankDataAccess_kept
        | apply State.flowFlush_kept | apply State.ntsRequest_kept | apply State.snapRequest_kept
        | apply State.timeStep_kept | apply State.rateWrite_kept | apply State.commitRequest_kept
        | apply State.unitCmd_kept | apply State.errTailWrite_kept | apply State.traceTailWrite_kept
        | apply State.packInstall_kept | apply State.routeWrite_kept | apply State.rpCfg_kept | apply State.rearm_kept
        | apply State.fuseCmd_kept | apply State.writeFields_kept | apply State.runCtrl_kept
        | apply State.loadCtrl_kept | apply State.ringField_kept | apply State.ringCfg_kept | apply State.setNs_kept
        | apply State.onGo_kept)

theorem State.earlyWrite_kept {a s : State} (h : Kept a s) (k : RegKind) (off : Nat) (v : Word) :
    Kept a (State.earlyWrite s k off v) := by
  unfold State.earlyWrite
  repeat' first
    | (with_reducible first | assumption | refine Kept.ite ?_ ?_)
    | (lift_lets; intro kx)
    | (with_reducible first
        | apply State.commitRequest_kept | apply State.onSteward_kept | apply State.runStart_kept
        | apply State.loadCtrl_kept | apply State.onGo_kept)

theorem State.writeReg_kept {a s : State} (h : Kept a s) (ag : Agent) (off : Nat) (v : Word) :
    Kept a (State.writeReg s ag off v) := by
  unfold State.writeReg
  repeat' first
    | (with_reducible first | assumption | refine Kept.ite ?_ ?_)
    | (lift_lets; intro kx; refine Kept.step (a := a) (x := kx) ?_ fun hkx => ?_)
    | (lift_lets; intro kx)
    | (simp only [Kept.mk_iff]; with_reducible refine KeptF.of ?_ (Nat.le_refl _))
    | (simp only [Kept.mk_iff]; with_reducible refine KeptF.of ?_ (Nat.le_succ _))
    | (with_reducible first
        | apply State.keyDataAccess_kept | apply State.writeFields_kept | apply State.resetCtrl_kept
        | apply State.writeActive_kept | apply State.earlyWrite_kept)
    | (simp only [kx, Kept.mk_iff]; with_reducible refine KeptF.of ?_ (Nat.le_refl _))
    | (with_reducible first
        | refine Kept.foldl ?_ fun kb ky hkb => ?_ | refine Kept.foldl_snd ?_ fun kb ky hkb => ?_
        | refine Kept.foldl_fst ?_ fun kb ky hkb => ?_)
    | split
    | (with_reducible first
        | refine Kept.of_snd (by assumption) ?_ | refine Kept.of_fst (by assumption) ?_
        | refine Kept.of_third (by assumption) ?_)
    | dsimp only
    | unfold kx

theorem State.busWrite_kept {a s : State} (h : Kept a s) (ag : Agent) (aa : Nat) (size : Nat) (v : Word) :
    Kept a (State.busWrite s ag aa size v) := by
  unfold State.busWrite
  repeat' first
    | (with_reducible first | assumption | refine Kept.ite ?_ ?_)
    | (lift_lets; intro kx; refine Kept.step (a := a) (x := kx) ?_ fun hkx => ?_)
    | (lift_lets; intro kx)
    | (simp only [Kept.mk_iff]; with_reducible refine KeptF.of ?_ (Nat.le_refl _))
    | (simp only [Kept.mk_iff]; with_reducible refine KeptF.of ?_ (Nat.le_succ _))
    | (with_reducible first | apply State.respond_kept | apply State.agentWrite_kept | apply State.writeReg_kept)
    | (simp only [kx, Kept.mk_iff]; with_reducible refine KeptF.of ?_ (Nat.le_refl _))
    | (with_reducible first
        | refine Kept.foldl ?_ fun kb ky hkb => ?_ | refine Kept.foldl_snd ?_ fun kb ky hkb => ?_
        | refine Kept.foldl_fst ?_ fun kb ky hkb => ?_)
    | split
    | (with_reducible first
        | refine Kept.of_snd (by assumption) ?_ | refine Kept.of_fst (by assumption) ?_
        | refine Kept.of_third (by assumption) ?_)
    | dsimp only
    | unfold kx

theorem execRegisterWrite_kept {a s : State} (h : Kept a s) (agent : Agent) (addr : Addr) (size : Nat) (value : Word) {kt : State} (ke : execRegisterWrite agent addr size value s = .next kt) :
    Kept a kt := by
  unfold execRegisterWrite at ke
  refine Kept.of_done ke ?_
  repeat' (with_reducible first | assumption | refine Kept.ite ?_ ?_ | apply State.busWrite_kept)

theorem State.registerRead_kept {a s : State} (h : Kept a s) (ag : Agent) (off : Nat) :
    Kept a (State.registerRead s ag off) := by
  unfold State.registerRead
  repeat' first
    | (with_reducible first | assumption | refine Kept.ite ?_ ?_)
    | (lift_lets; intro kx; refine Kept.step (a := a) (x := kx) ?_ fun hkx => ?_)
    | (lift_lets; intro kx)
    | (simp only [Kept.mk_iff]; with_reducible refine KeptF.of ?_ (Nat.le_refl _))
    | (simp only [Kept.mk_iff]; with_reducible refine KeptF.of ?_ (Nat.le_succ _))
    | (with_reducible first
        | apply State.respond_kept | apply State.bankDataAccess_kept | apply State.todNsRead_kept
        | apply State.msiRead_kept | apply State.rpCfg_kept)
    | (simp only [kx, Kept.mk_iff]; with_reducible refine KeptF.of ?_ (Nat.le_refl _))
    | (with_reducible first
        | refine Kept.foldl ?_ fun kb ky hkb => ?_ | refine Kept.foldl_snd ?_ fun kb ky hkb => ?_
        | refine Kept.foldl_fst ?_ fun kb ky hkb => ?_)
    | split
    | (with_reducible first
        | refine Kept.of_snd (by assumption) ?_ | refine Kept.of_fst (by assumption) ?_
        | refine Kept.of_third (by assumption) ?_)
    | dsimp only
    | unfold kx

theorem State.busRead_kept {a s : State} (h : Kept a s) (ag : Agent) (aa : Nat) (n : Nat) (es : List MemError) :
    Kept a (State.busRead s ag aa n es) := by
  unfold State.busRead
  repeat' first
    | (with_reducible first | assumption | refine Kept.ite ?_ ?_)
    | (lift_lets; intro kx; refine Kept.step (a := a) (x := kx) ?_ fun hkx => ?_)
    | (lift_lets; intro kx)
    | (simp only [Kept.mk_iff]; with_reducible refine KeptF.of ?_ (Nat.le_refl _))
    | (simp only [Kept.mk_iff]; with_reducible refine KeptF.of ?_ (Nat.le_succ _))
    | (with_reducible first | apply State.respond_kept | apply State.memoryRead_kept | apply State.registerRead_kept)
    | (simp only [kx, Kept.mk_iff]; with_reducible refine KeptF.of ?_ (Nat.le_refl _))
    | (with_reducible first
        | refine Kept.foldl ?_ fun kb ky hkb => ?_ | refine Kept.foldl_snd ?_ fun kb ky hkb => ?_
        | refine Kept.foldl_fst ?_ fun kb ky hkb => ?_)
    | split
    | (with_reducible first
        | refine Kept.of_snd (by assumption) ?_ | refine Kept.of_fst (by assumption) ?_
        | refine Kept.of_third (by assumption) ?_)
    | dsimp only
    | unfold kx

theorem State.bar4Access_kept {a s : State} (h : Kept a s) (off : Nat) (size : Nat) (w : Option (List Byte)) :
    Kept a (State.bar4Access s off size w) := by
  unfold State.bar4Access
  repeat' first
    | (with_reducible first | assumption | refine Kept.ite ?_ ?_)
    | (lift_lets; intro kx; refine Kept.step (a := a) (x := kx) ?_ fun hkx => ?_)
    | (lift_lets; intro kx)
    | (simp only [Kept.mk_iff]; with_reducible refine KeptF.of ?_ (Nat.le_refl _))
    | (simp only [Kept.mk_iff]; with_reducible refine KeptF.of ?_ (Nat.le_succ _))
    | (with_reducible first | apply State.respond_kept | apply State.msixWrite_kept)
    | (simp only [kx, Kept.mk_iff]; with_reducible refine KeptF.of ?_ (Nat.le_refl _))
    | (with_reducible first
        | refine Kept.foldl ?_ fun kb ky hkb => ?_ | refine Kept.foldl_snd ?_ fun kb ky hkb => ?_
        | refine Kept.foldl_fst ?_ fun kb ky hkb => ?_)
    | split
    | (with_reducible first
        | refine Kept.of_snd (by assumption) ?_ | refine Kept.of_fst (by assumption) ?_
        | refine Kept.of_third (by assumption) ?_)
    | dsimp only
    | unfold kx

theorem State.busStore_kept {a s : State} (h : Kept a s) (ag : Agent) (aa : Nat) (bs : List Byte) (bad : Bool) :
    Kept a (State.busStore s ag aa bs bad) := by
  unfold State.busStore
  repeat' first
    | (with_reducible first | assumption | refine Kept.ite ?_ ?_)
    | (lift_lets; intro kx; refine Kept.step (a := a) (x := kx) ?_ fun hkx => ?_)
    | (lift_lets; intro kx)
    | (simp only [Kept.mk_iff]; with_reducible refine KeptF.of ?_ (Nat.le_refl _))
    | (simp only [Kept.mk_iff]; with_reducible refine KeptF.of ?_ (Nat.le_succ _))
    | (with_reducible first | apply State.respond_kept | apply State.agentWrite_kept | apply State.busWrite_kept)
    | (simp only [kx, Kept.mk_iff]; with_reducible refine KeptF.of ?_ (Nat.le_refl _))
    | (with_reducible first
        | refine Kept.foldl ?_ fun kb ky hkb => ?_ | refine Kept.foldl_snd ?_ fun kb ky hkb => ?_
        | refine Kept.foldl_fst ?_ fun kb ky hkb => ?_)
    | split
    | (with_reducible first
        | refine Kept.of_snd (by assumption) ?_ | refine Kept.of_fst (by assumption) ?_
        | refine Kept.of_third (by assumption) ?_)
    | dsimp only
    | unfold kx

theorem execProtectedWrite_kept {a s : State} (h : Kept a s) (agent : Agent) (addr : Addr) (data : StoreData) {kt : State} (ke : execProtectedWrite agent addr data s = .next kt) :
    Kept a kt := by
  unfold execProtectedWrite at ke
  refine Kept.of_done ke ?_
  repeat' first
    | (with_reducible first | assumption | refine Kept.ite ?_ ?_)
    | (lift_lets; intro kx; refine Kept.step (a := a) (x := kx) ?_ fun hkx => ?_)
    | (lift_lets; intro kx)
    | (simp only [Kept.mk_iff]; with_reducible refine KeptF.of ?_ (Nat.le_refl _))
    | (simp only [Kept.mk_iff]; with_reducible refine KeptF.of ?_ (Nat.le_succ _))
    | with_reducible apply State.busStore_kept
    | (simp only [kx, Kept.mk_iff]; with_reducible refine KeptF.of ?_ (Nat.le_refl _))
    | (with_reducible first
        | refine Kept.foldl ?_ fun kb ky hkb => ?_ | refine Kept.foldl_snd ?_ fun kb ky hkb => ?_
        | refine Kept.foldl_fst ?_ fun kb ky hkb => ?_)
    | split
    | (with_reducible first
        | refine Kept.of_snd (by assumption) ?_ | refine Kept.of_fst (by assumption) ?_
        | refine Kept.of_third (by assumption) ?_)
    | dsimp only
    | unfold kx

theorem State.configAccess_kept {a s : State} (h : Kept a s) (off : Nat) (size : Nat) (w : Option (List Byte)) :
    Kept a (State.configAccess s off size w) := by
  unfold State.configAccess
  repeat' first
    | (with_reducible first | assumption | refine Kept.ite ?_ ?_)
    | (lift_lets; intro kx; refine Kept.step (a := a) (x := kx) ?_ fun hkx => ?_)
    | (lift_lets; intro kx)
    | (simp only [Kept.mk_iff]; with_reducible refine KeptF.of ?_ (Nat.le_refl _))
    | (simp only [Kept.mk_iff]; with_reducible refine KeptF.of ?_ (Nat.le_succ _))
    | with_reducible apply State.respond_kept
    | (simp only [kx, Kept.mk_iff]; with_reducible refine KeptF.of ?_ (Nat.le_refl _))
    | (with_reducible first
        | refine Kept.foldl ?_ fun kb ky hkb => ?_ | refine Kept.foldl_snd ?_ fun kb ky hkb => ?_
        | refine Kept.foldl_fst ?_ fun kb ky hkb => ?_)
    | split
    | (with_reducible first
        | refine Kept.of_snd (by assumption) ?_ | refine Kept.of_fst (by assumption) ?_
        | refine Kept.of_third (by assumption) ?_)
    | dsimp only
    | unfold kx

theorem execDieWindowAccess_kept {a s : State} (h : Kept a s) (agent : Agent) (addr : Addr) (size : Nat) (access : MapAccess) {kt : State} (ke : execDieWindowAccess agent addr size access s = .next kt) :
    Kept a kt := by
  unfold execDieWindowAccess at ke
  refine Kept.of_done ke ?_
  repeat' first
    | (with_reducible first | assumption | refine Kept.ite ?_ ?_)
    | (lift_lets; intro kx; refine Kept.step (a := a) (x := kx) ?_ fun hkx => ?_)
    | (lift_lets; intro kx)
    | (simp only [Kept.mk_iff]; with_reducible refine KeptF.of ?_ (Nat.le_refl _))
    | (simp only [Kept.mk_iff]; with_reducible refine KeptF.of ?_ (Nat.le_succ _))
    | (with_reducible first
        | apply State.write_kept | apply State.respond_kept | apply State.busRead_kept | apply State.bar4Access_kept
        | apply State.busStore_kept | apply State.configAccess_kept)
    | (simp only [kx, Kept.mk_iff]; with_reducible refine KeptF.of ?_ (Nat.le_refl _))
    | (with_reducible first
        | refine Kept.foldl ?_ fun kb ky hkb => ?_ | refine Kept.foldl_snd ?_ fun kb ky hkb => ?_
        | refine Kept.foldl_fst ?_ fun kb ky hkb => ?_)
    | split
    | (with_reducible first
        | refine Kept.of_snd (by assumption) ?_ | refine Kept.of_fst (by assumption) ?_
        | refine Kept.of_third (by assumption) ?_)
    | dsimp only
    | unfold kx

end Sys2Proof.Machine
end

