-- ==== Sys2Proof/Laws/KeptTick.lean ====
section
/-! SUPPORT. What the operations of Machine/Tick.lean keep (`Kept`). -/

set_option linter.unusedSimpArgs false

namespace Sys2Proof.Machine

theorem State.advancePower_kept {a s : State} (h : Kept a s) :
    Kept a (State.advancePower s) := by
  unfold State.advancePower
  repeat' first
    | (with_reducible first | assumption | refine Kept.ite ?_ ?_)
    | (simp only [Kept.mk_iff]; with_reducible refine KeptF.of ?_ (Nat.le_refl _))
    | with_reducible apply State.setFld_kept

theorem State.countCycles_kept {a s : State} (h : Kept a s) :
    Kept a (State.countCycles s) := by
  unfold State.countCycles
  repeat' first
    | (with_reducible first | assumption | refine Kept.ite ?_ ?_)
    | (lift_lets; intro kx; refine Kept.step (a := a) (x := kx) ?_ fun hkx => ?_)
    | (lift_lets; intro kx)
    | (simp only [Kept.mk_iff]; with_reducible refine KeptF.of ?_ (Nat.le_refl _))
    | (simp only [Kept.mk_iff]; with_reducible refine KeptF.of ?_ (Nat.le_succ _))
    | with_reducible apply State.bump_kept
    | (simp only [kx, Kept.mk_iff]; with_reducible refine KeptF.of ?_ (Nat.le_refl _))
    | (with_reducible first
        | refine Kept.foldl ?_ fun kb ky hkb => ?_ | refine Kept.foldl_snd ?_ fun kb ky hkb => ?_
        | refine Kept.foldl_fst ?_ fun kb ky hkb => ?_)
    | split
    | (with_reducible first
        | refine Kept.of_snd (by assumption) ?_ | refine Kept.of_fst (by assumption) ?_
        | refine Kept.of_third (by assumption) ?_)
    | dsimp only
    | unfold kx

theorem State.frameTick_kept {a s : State} (h : Kept a s) :
    Kept a (State.frameTick s) := by
  unfold State.frameTick
  repeat' first
    | (with_reducible first
        | assumption | refine Kept.ite ?_ ?_ | apply State.atLaunch_kept | apply State.throttleFrame_kept
        | apply State.countCycles_kept)

theorem State.tick_kept {a s : State} (h : Kept a s) :
    Kept a (State.tick s) := by
  unfold State.tick
  repeat' first
    | (with_reducible first
        | assumption | refine Kept.ite ?_ ?_ | apply State.stewardTake_kept | apply State.advanceClock_kept
        | apply State.timeTick_kept | apply State.tryAssign_kept | apply State.advancePower_kept
        | apply State.frameTick_kept)

end Sys2Proof.Machine
end

