-- ==== Sys2Proof/Laws/Same.lean ====
section
/-! SUPPORT. What each operation leaves alone, part by part: the relation `Same` and its rules. -/

namespace Sys2Proof.Machine

/-- Part `p`, if it is among those claimed. -/
def Off {α : Type} (m : Component → Bool) (p : Component) (x y : α) : Prop := m p = true → x = y

theorem Off.refl {α : Type} {m : Component → Bool} {p : Component} {x : α} : Off m p x x := fun _ => rfl

theorem Off.no {α : Type} {m : Component → Bool} {p : Component} {x y : α} (h : m p = false) : Off m p x y :=
  fun k => absurd k (by simp [h])

theorem Off.trans {α : Type} {m : Component → Bool} {p : Component} {x y z : α} (h : Off m p y x) (k : Off m p z y) :
    Off m p z x := fun j => (k j).trans (h j)

/-- `t` has every claimed part of `s` as it was. -/
structure Same (m : Component → Bool) (s t : State) : Prop where
  pending : Off m .pending t.pending s.pending
  fresh : Off m .fresh t.fresh s.fresh
  regs : Off m .regs t.regs s.regs
  shadow : Off m .shadow t.shadow s.shadow
  response : Off m .response t.response s.response
  mem : Off m .mem t.mem s.mem
  pkg : Off m .pkg t.pkg s.pkg
  links : Off m .links t.links s.links
  crossings : Off m .crossings t.crossings s.crossings
  cfg : Off m .cfg t.cfg s.cfg
  flt : Off m .flt t.flt s.flt
  chk : Off m .chk t.chk s.chk
  mm : Off m .mm t.mm s.mm
  hub : Off m .hub t.hub s.hub
  fleet : Off m .fleet t.fleet s.fleet
  clock : Off m .clock t.clock s.clock
  dense : Off m .dense t.dense s.dense
  emb : Off m .emb t.emb s.emb
  wire : Off m .wire t.wire s.wire
  sec : Off m .sec t.sec s.sec
  det : Off m .det t.det s.det
  time : Off m .time t.time s.time
  pwr : Off m .pwr t.pwr s.pwr
  mtr : Off m .mtr t.mtr s.mtr

variable {m : Component → Bool} {a s t : State}

theorem Same.refl (s : State) : Same m s s :=
  ⟨.refl, .refl, .refl, .refl, .refl, .refl, .refl, .refl, .refl, .refl, .refl, .refl, .refl, .refl, .refl, .refl, .refl, .refl, .refl, .refl, .refl, .refl, .refl, .refl⟩

theorem Same.trans (h : Same m a s) (k : Same m s t) : Same m a t :=
  ⟨h.1.trans k.1, h.2.trans k.2, h.3.trans k.3, h.4.trans k.4, h.5.trans k.5, h.6.trans k.6,
   h.7.trans k.7, h.8.trans k.8, h.9.trans k.9, h.10.trans k.10, h.11.trans k.11, h.12.trans k.12,
   h.13.trans k.13, h.14.trans k.14, h.15.trans k.15, h.16.trans k.16, h.17.trans k.17, h.18.trans k.18,
   h.19.trans k.19, h.20.trans k.20, h.21.trans k.21, h.22.trans k.22, h.23.trans k.23, h.24.trans k.24⟩

theorem Same.step {P : Prop} {x : State} (h : Same m a x) (k : Same m a x → P) : P := k h

theorem Same.ite {x y : State} {p : Prop} [Decidable p] (h : Same m a x) (k : Same m a y) :
    Same m a (if p then x else y) := by
  split <;> assumption

theorem Same.foldl {β : Type} {f : State → β → State} {l : List β} (h : Same m a s)
    (k : ∀ b x, Same m a b → Same m a (f b x)) : Same m a (l.foldl f s) := by
  induction l generalizing s with
  | nil => exact h
  | cons x l ih => exact ih (k s x h)

theorem Same.foldl_snd {α β : Type} {f : α × State → β → α × State} {l : List β} {p : α × State} (h : Same m a p.2)
    (k : ∀ b x, Same m a b.2 → Same m a (f b x).2) : Same m a (l.foldl f p).2 := by
  induction l generalizing p with
  | nil => exact h
  | cons x l ih => exact ih (k p x h)

theorem Same.foldl_fst {α β : Type} {f : State × α → β → State × α} {l : List β} {p : State × α} (h : Same m a p.1)
    (k : ∀ b x, Same m a b.1 → Same m a (f b x).1) : Same m a (l.foldl f p).1 := by
  induction l generalizing p with
  | nil => exact h
  | cons x l ih => exact ih (k p x h)

theorem Same.of_snd {α : Type} {x : α × State} {y : α} {t : State} (e : x = (y, t)) (h : Same m a x.2) : Same m a t := by
  subst e; exact h

theorem Same.of_fst {α : Type} {x : State × α} {y : α} {t : State} (e : x = (t, y)) (h : Same m a x.1) : Same m a t := by
  subst e; exact h

theorem Same.of_third {α β : Type} {x : α × β × State} {y : α} {z : β} {t : State} (e : x = (y, z, t))
    (h : Same m a x.2.2) : Same m a t := by
  subst e; exact h

theorem Same.of_done {x : State} (e : done x = .next t) (k : Same m a x) : Same m a t := by
  unfold done at e; cases e; exact k

/-- An update part by part. -/
theorem Same.upd {t : State} (e1 : Off m .pending t.pending s.pending) (e2 : Off m .fresh t.fresh s.fresh)
    (e3 : Off m .regs t.regs s.regs) (e4 : Off m .shadow t.shadow s.shadow)
    (e5 : Off m .response t.response s.response) (e6 : Off m .mem t.mem s.mem)
    (e7 : Off m .pkg t.pkg s.pkg) (e8 : Off m .links t.links s.links)
    (e9 : Off m .crossings t.crossings s.crossings) (e10 : Off m .cfg t.cfg s.cfg)
    (e11 : Off m .flt t.flt s.flt) (e12 : Off m .chk t.chk s.chk) (e13 : Off m .mm t.mm s.mm)
    (e14 : Off m .hub t.hub s.hub) (e15 : Off m .fleet t.fleet s.fleet)
    (e16 : Off m .clock t.clock s.clock) (e17 : Off m .dense t.dense s.dense)
    (e18 : Off m .emb t.emb s.emb) (e19 : Off m .wire t.wire s.wire) (e20 : Off m .sec t.sec s.sec)
    (e21 : Off m .det t.det s.det) (e22 : Off m .time t.time s.time) (e23 : Off m .pwr t.pwr s.pwr)
    (e24 : Off m .mtr t.mtr s.mtr)
    (h : Same m a s) : Same m a t :=
  h.trans ⟨e1, e2, e3, e4, e5, e6, e7, e8, e9, e10, e11, e12,
    e13, e14, e15, e16, e17, e18, e19, e20, e21, e22, e23, e24⟩

/-- `Same`, part by part. -/
structure SameF (m : Component → Bool) (a : State) (f1 : List Instr) (f2 : Nat) (f3 : Tab Word) (f4 : Tab Word) (f5 : Response) (f6 : List Host.Cell)
    (f7 : PkgState) (f8 : Tab LinkState) (f9 : Tab Nat) (f10 : CfgState) (f11 : FltState)
    (f12 : ChkState) (f13 : MemState) (f14 : HubState) (f15 : FleetState) (f16 : Clock)
    (f17 : DenseState) (f18 : EmbState) (f19 : WireState) (f20 : SecState) (f21 : DetState)
    (f22 : TimeState) (f23 : PwrState) (f24 : MeterState) : Prop where
  pending : Off m .pending f1 a.pending
  fresh : Off m .fresh f2 a.fresh
  regs : Off m .regs f3 a.regs
  shadow : Off m .shadow f4 a.shadow
  response : Off m .response f5 a.response
  mem : Off m .mem f6 a.mem
  pkg : Off m .pkg f7 a.pkg
  links : Off m .links f8 a.links
  crossings : Off m .crossings f9 a.crossings
  cfg : Off m .cfg f10 a.cfg
  flt : Off m .flt f11 a.flt
  chk : Off m .chk f12 a.chk
  mm : Off m .mm f13 a.mm
  hub : Off m .hub f14 a.hub
  fleet : Off m .fleet f15 a.fleet
  clock : Off m .clock f16 a.clock
  dense : Off m .dense f17 a.dense
  emb : Off m .emb f18 a.emb
  wire : Off m .wire f19 a.wire
  sec : Off m .sec f20 a.sec
  det : Off m .det f21 a.det
  time : Off m .time f22 a.time
  pwr : Off m .pwr f23 a.pwr
  mtr : Off m .mtr f24 a.mtr

theorem Same.mk_iff {f1 f2 f3 f4 f5 f6 f7 f8 f9 f10 f11 f12 f13 f14 f15 f16 f17 f18 f19 f20 f21 f22 f23 f24} :
    Same m a ⟨f1, f2, f3, f4, f5, f6, f7, f8, f9, f10, f11, f12, f13, f14, f15, f16, f17, f18, f19, f20,
      f21, f22, f23, f24⟩ ↔
      SameF m a f1 f2 f3 f4 f5 f6 f7 f8 f9 f10 f11 f12 f13 f14 f15 f16 f17 f18 f19 f20 f21 f22 f23 f24 :=
  ⟨fun h => ⟨h.1, h.2, h.3, h.4, h.5, h.6, h.7, h.8, h.9, h.10, h.11, h.12, h.13, h.14, h.15, h.16, h.17, h.18, h.19, h.20, h.21, h.22, h.23, h.24⟩,
   fun h => ⟨h.1, h.2, h.3, h.4, h.5, h.6, h.7, h.8, h.9, h.10, h.11, h.12, h.13, h.14, h.15, h.16, h.17, h.18, h.19, h.20, h.21, h.22, h.23, h.24⟩⟩

theorem SameF.of {f1 f2 f3 f4 f5 f6 f7 f8 f9 f10 f11 f12 f13 f14 f15 f16 f17 f18 f19 f20 f21 f22 f23 f24}
    (e1 : Off m .pending f1 s.pending) (e2 : Off m .fresh f2 s.fresh) (e3 : Off m .regs f3 s.regs)
    (e4 : Off m .shadow f4 s.shadow) (e5 : Off m .response f5 s.response) (e6 : Off m .mem f6 s.mem)
    (e7 : Off m .pkg f7 s.pkg) (e8 : Off m .links f8 s.links) (e9 : Off m .crossings f9 s.crossings)
    (e10 : Off m .cfg f10 s.cfg) (e11 : Off m .flt f11 s.flt) (e12 : Off m .chk f12 s.chk)
    (e13 : Off m .mm f13 s.mm) (e14 : Off m .hub f14 s.hub) (e15 : Off m .fleet f15 s.fleet)
    (e16 : Off m .clock f16 s.clock) (e17 : Off m .dense f17 s.dense) (e18 : Off m .emb f18 s.emb)
    (e19 : Off m .wire f19 s.wire) (e20 : Off m .sec f20 s.sec) (e21 : Off m .det f21 s.det)
    (e22 : Off m .time f22 s.time) (e23 : Off m .pwr f23 s.pwr) (e24 : Off m .mtr f24 s.mtr)
    (h : Same m a s) : SameF m a f1 f2 f3 f4 f5 f6 f7 f8 f9 f10 f11 f12 f13 f14 f15 f16 f17 f18 f19 f20 f21 f22 f23 f24 :=
  ⟨h.1.trans e1, h.2.trans e2, h.3.trans e3, h.4.trans e4, h.5.trans e5, h.6.trans e6,
   h.7.trans e7, h.8.trans e8, h.9.trans e9, h.10.trans e10, h.11.trans e11, h.12.trans e12,
   h.13.trans e13, h.14.trans e14, h.15.trans e15, h.16.trans e16, h.17.trans e17, h.18.trans e18,
   h.19.trans e19, h.20.trans e20, h.21.trans e21, h.22.trans e22, h.23.trans e23, h.24.trans e24⟩

end Sys2Proof.Machine
end

