-- ==== Sys2Proof/Laws/SameOps.lean ====
section
/-! SUPPORT. What the operations of Machine/Ops.lean leave alone (`Same`). -/

set_option linter.unusedSimpArgs false

namespace Sys2Proof.Machine

theorem State.free_same {m : Component → Bool} {a s : State} (h : Same m a s) (n_fresh : m .fresh = false) :
    Same m a (State.free s).2 := by
  unfold State.free
  repeat' first
    | with_reducible assumption
    | (simp only [Same.mk_iff]; apply SameF.of; all_goals first
        | with_reducible exact Off.refl | exact Off.no (by assumption) | skip)

theorem State.tickFree_same {m : Component → Bool} {a s : State} (h : Same m a s) (n_fresh : m .fresh = false) :
    Same m a (State.tickFree s) := by
  unfold State.tickFree
  repeat' first
    | with_reducible assumption
    | (simp only [Same.mk_iff]; apply SameF.of; all_goals first
        | with_reducible exact Off.refl | exact Off.no (by assumption) | skip)

theorem State.setReg_same {m : Component → Bool} {a s : State} (h : Same m a s) (off : Nat) (v : Word)
    (n_regs : m .regs = false) :
    Same m a (State.setReg s off v) := by
  unfold State.setReg
  repeat' first
    | with_reducible assumption
    | (simp only [Same.mk_iff]; apply SameF.of; all_goals first
        | with_reducible exact Off.refl | exact Off.no (by assumption) | skip)

theorem State.setShadow_same {m : Component → Bool} {a s : State} (h : Same m a s) (off : Nat) (v : Word)
    (n_shadow : m .shadow = false) :
    Same m a (State.setShadow s off v) := by
  unfold State.setShadow
  repeat' first
    | with_reducible assumption
    | (simp only [Same.mk_iff]; apply SameF.of; all_goals first
        | with_reducible exact Off.refl | exact Off.no (by assumption) | skip)

theorem State.setFld_same {m : Component → Bool} {a s : State} (h : Same m a s) (f : Fld) (v : Nat)
    (n_regs : m .regs = false) :
    Same m a (State.setFld s f v) := by
  unfold State.setFld
  repeat' (with_reducible first | assumption | refine Same.ite ?_ ?_ | apply State.setReg_same)

theorem State.bump_same {m : Component → Bool} {a s : State} (h : Same m a s) (off : Nat) (n : Nat)
    (n_regs : m .regs = false) :
    Same m a (State.bump s off n) := by
  unfold State.bump
  repeat' (with_reducible first | assumption | refine Same.ite ?_ ?_ | apply State.setReg_same)

theorem State.setLineMeta_same {m : Component → Bool} {a s : State} (h : Same m a s) (line : Nat) (v : Nat)
    (n_mm : m .mm = false) :
    Same m a (State.setLineMeta s line v) := by
  unfold State.setLineMeta
  repeat' first
    | with_reducible assumption
    | (simp only [Same.mk_iff]; apply SameF.of; all_goals first
        | with_reducible exact Off.refl | exact Off.no (by assumption) | skip)

theorem State.poisonAt_same {m : Component → Bool} {a s : State} (h : Same m a s) (aa : Nat) (n_mm : m .mm = false) :
    Same m a (State.poisonAt s aa) := by
  unfold State.poisonAt
  repeat' first
    | (with_reducible first | assumption | refine Same.ite ?_ ?_)
    | (simp only [Same.mk_iff]; apply SameF.of; all_goals first
        | with_reducible exact Off.refl | exact Off.no (by assumption) | skip)
    | with_reducible apply State.setLineMeta_same
    | split

theorem State.clearPoison_same {m : Component → Bool} {a s : State} (h : Same m a s) (aa : Nat) (n : Nat)
    (n_mm : m .mm = false) :
    Same m a (State.clearPoison s aa n) := by
  unfold State.clearPoison
  repeat' first
    | with_reducible assumption
    | (simp only [Same.mk_iff]; apply SameF.of; all_goals first
        | with_reducible exact Off.refl | exact Off.no (by assumption) | skip)

theorem State.write_same {m : Component → Bool} {a s : State} (h : Same m a s) (aa : Nat) (bs : List Byte)
    (n_mem : m .mem = false) (n_mm : m .mm = false) :
    Same m a (State.write s aa bs) := by
  unfold State.write
  repeat' first
    | with_reducible assumption
    | (simp only [Same.mk_iff]; apply SameF.of; all_goals first
        | with_reducible exact Off.refl | exact Off.no (by assumption) | skip)
    | with_reducible apply State.clearPoison_same

theorem State.writeFree_same {m : Component → Bool} {a s : State} (h : Same m a s) (aa : Nat) (n : Nat)
    (n_fresh : m .fresh = false) (n_mem : m .mem = false) (n_mm : m .mm = false) :
    Same m a (State.writeFree s aa n) := by
  unfold State.writeFree
  repeat' (with_reducible first | assumption | refine Same.ite ?_ ?_ | apply State.free_same | apply State.write_same)

theorem State.setRun_same {m : Component → Bool} {a s : State} (h : Same m a s) (r : RunState)
    (n_cfg : m .cfg = false) :
    Same m a (State.setRun s r) := by
  unfold State.setRun
  repeat' first
    | with_reducible assumption
    | (simp only [Same.mk_iff]; apply SameF.of; all_goals first
        | with_reducible exact Off.refl | exact Off.no (by assumption) | skip)

theorem State.respond_same {m : Component → Bool} {a s : State} (h : Same m a s) (r : Response)
    (n_response : m .response = false) :
    Same m a (State.respond s r) := by
  unfold State.respond
  repeat' first
    | with_reducible assumption
    | (simp only [Same.mk_iff]; apply SameF.of; all_goals first
        | with_reducible exact Off.refl | exact Off.no (by assumption) | skip)

theorem State.onReady_same {m : Component → Bool} {a s : State} (h : Same m a s) (f : State → State)
    (k : Same m a s → Same m a (f s)) : Same m a (s.onReady f) := by
  unfold State.onReady; split
  · exact k h
  · exact h

theorem State.onSteward_same {m : Component → Bool} {a s : State} (h : Same m a s) (f : State → State)
    (k : Same m a s → Same m a (f s)) : Same m a (s.onSteward f) := by
  unfold State.onSteward; split
  · exact k h
  · exact h

end Sys2Proof.Machine
end

