-- ==== Sys2Proof/Laws/SameFlags.lean ====
section
/-! SUPPORT. What the operations of Machine/Flags.lean leave alone (`Same`). -/

set_option linter.unusedSimpArgs false

namespace Sys2Proof.Machine

theorem State.msixSend_same {m : Component → Bool} {a s : State} (h : Same m a s) (d : Delivery)
    (n_hub : m .hub = false) :
    Same m a (State.msixSend s d) := by
  unfold State.msixSend
  repeat' first
    | (with_reducible first | assumption | refine Same.ite ?_ ?_)
    | (lift_lets; intro kx; refine Same.step (m := m) (a := a) (x := kx) ?_ fun hkx => ?_)
    | (lift_lets; intro kx)
    | (simp only [Same.mk_iff]; apply SameF.of; all_goals first
        | with_reducible exact Off.refl | exact Off.no (by assumption) | skip)
    | (simp only [kx, Same.mk_iff]; apply SameF.of; all_goals first
        | with_reducible exact Off.refl | exact Off.no (by assumption) | skip)
    | (with_reducible first
        | refine Same.foldl ?_ fun kb ky hkb => ?_ | refine Same.foldl_snd ?_ fun kb ky hkb => ?_
        | refine Same.foldl_fst ?_ fun kb ky hkb => ?_)
    | split
    | (with_reducible first
        | refine Same.of_snd (by assumption) ?_ | refine Same.of_fst (by assumption) ?_
        | refine Same.of_third (by assumption) ?_)
    | dsimp only
    | unfold kx

theorem State.deliver_same {m : Component → Bool} {a s : State} (h : Same m a s) (n : Nat) (n_hub : m .hub = false) :
    Same m a (State.deliver s n) := by
  unfold State.deliver
  repeat' first
    | (with_reducible first | assumption | refine Same.ite ?_ ?_)
    | (lift_lets; intro kx; refine Same.step (m := m) (a := a) (x := kx) ?_ fun hkx => ?_)
    | (lift_lets; intro kx)
    | (simp only [Same.mk_iff]; apply SameF.of; all_goals first
        | with_reducible exact Off.refl | exact Off.no (by assumption) | skip)
    | with_reducible apply State.msixSend_same
    | (simp only [kx, Same.mk_iff]; apply SameF.of; all_goals first
        | with_reducible exact Off.refl | exact Off.no (by assumption) | skip)
    | (with_reducible first
        | refine Same.foldl ?_ fun kb ky hkb => ?_ | refine Same.foldl_snd ?_ fun kb ky hkb => ?_
        | refine Same.foldl_fst ?_ fun kb ky hkb => ?_)
    | split
    | (with_reducible first
        | refine Same.of_snd (by assumption) ?_ | refine Same.of_fst (by assumption) ?_
        | refine Same.of_third (by assumption) ?_)
    | dsimp only
    | unfold kx

theorem State.raiseIrq_same {m : Component → Bool} {a s : State} (h : Same m a s) (n : Nat)
    (n_regs : m .regs = false) (n_hub : m .hub = false) :
    Same m a (State.raiseIrq s n) := by
  unfold State.raiseIrq
  repeat' (with_reducible first | assumption | refine Same.ite ?_ ?_ | apply State.setFld_same | apply State.deliver_same)

theorem State.setFldIrq_same {m : Component → Bool} {a s : State} (h : Same m a s) (src : Nat) (f : Fld) (v : Nat)
    (n_regs : m .regs = false) (n_hub : m .hub = false) :
    Same m a (State.setFldIrq s src f v) := by
  unfold State.setFldIrq
  repeat' first
    | (with_reducible first
        | assumption | refine Same.ite ?_ ?_ | apply State.setFld_same | apply State.raiseIrq_same)

theorem State.setTime_same {m : Component → Bool} {a s : State} (h : Same m a s) (t : TimeState)
    (n_time : m .time = false) :
    Same m a (State.setTime s t) := by
  unfold State.setTime
  repeat' first
    | with_reducible assumption
    | (simp only [Same.mk_iff]; apply SameF.of; all_goals first
        | with_reducible exact Off.refl | exact Off.no (by assumption) | skip)

theorem State.setServo_same {m : Component → Bool} {a s : State} (h : Same m a s) (st : Nat)
    (n_regs : m .regs = false) (n_hub : m .hub = false) (n_time : m .time = false) :
    Same m a (State.setServo s st) := by
  unfold State.setServo
  repeat' first
    | (with_reducible first
        | assumption | refine Same.ite ?_ ?_ | apply State.bump_same | apply State.setFldIrq_same
        | apply State.setTime_same)

theorem State.holdOver_same {m : Component → Bool} {a s : State} (h : Same m a s) (n_regs : m .regs = false)
    (n_hub : m .hub = false) (n_time : m .time = false) :
    Same m a (State.holdOver s) := by
  unfold State.holdOver
  repeat' first
    | (with_reducible first
        | assumption | refine Same.ite ?_ ?_ | apply State.setTime_same | apply State.setServo_same)

theorem State.failSource_same {m : Component → Bool} {a s : State} (h : Same m a s) (n_regs : m .regs = false)
    (n_hub : m .hub = false) (n_time : m .time = false) :
    Same m a (State.failSource s) := by
  unfold State.failSource
  repeat' first
    | (with_reducible first
        | assumption | refine Same.ite ?_ ?_ | apply State.setFld_same | apply State.holdOver_same)

theorem State.setLoadState_same {m : Component → Bool} {a s : State} (h : Same m a s) (v : Nat)
    (n_regs : m .regs = false) (n_hub : m .hub = false) :
    Same m a (State.setLoadState s v) := by
  unfold State.setLoadState
  repeat' (with_reducible first | assumption | refine Same.ite ?_ ?_ | apply State.setFldIrq_same)

theorem State.setLoadCode_same {m : Component → Bool} {a s : State} (h : Same m a s) (code : Nat) (sec : Nat)
    (detail : Nat) (n_regs : m .regs = false) (n_hub : m .hub = false) :
    Same m a (State.setLoadCode s code sec detail) := by
  unfold State.setLoadCode
  repeat' first
    | (with_reducible first
        | assumption | refine Same.ite ?_ ?_ | apply State.setFld_same | apply State.setFldIrq_same)

theorem State.setBusy_same {m : Component → Bool} {a s : State} (h : Same m a s) (b : Bool)
    (n_regs : m .regs = false) :
    Same m a (State.setBusy s b) := by
  unfold State.setBusy
  repeat' (with_reducible first | assumption | refine Same.ite ?_ ?_ | apply State.setFld_same)

theorem State.setRecovery_same {m : Component → Bool} {a s : State} (h : Same m a s) (f : Fld) (v : Nat)
    (n_regs : m .regs = false) (n_hub : m .hub = false) :
    Same m a (State.setRecovery s f v) := by
  unfold State.setRecovery
  repeat' (with_reducible first | assumption | refine Same.ite ?_ ?_ | apply State.setFldIrq_same)

theorem State.stackTemp_same {m : Component → Bool} {a s : State} (h : Same m a s) (k : Nat) (temp : Nat)
    (n_regs : m .regs = false) :
    Same m a (State.stackTemp s k temp) := by
  unfold State.stackTemp
  repeat' (with_reducible first | assumption | refine Same.ite ?_ ?_ | apply State.setFld_same)

theorem State.pushRecord_same {m : Component → Bool} {a s : State} (h : Same m a s) (r : ErrRecord)
    (n_regs : m .regs = false) (n_chk : m .chk = false) :
    Same m a (State.pushRecord s r) := by
  unfold State.pushRecord
  repeat' first
    | with_reducible assumption
    | (simp only [Same.mk_iff]; apply SameF.of; all_goals first
        | with_reducible exact Off.refl | exact Off.no (by assumption) | skip)
    | with_reducible apply State.bump_same

theorem State.sendRecord_same {m : Component → Bool} {a s : State} (h : Same m a s) (r : ErrRecord)
    (n_regs : m .regs = false) (n_chk : m .chk = false) :
    Same m a (State.sendRecord s r) := by
  unfold State.sendRecord
  repeat' first
    | (with_reducible first | assumption | refine Same.ite ?_ ?_)
    | (simp only [Same.mk_iff]; apply SameF.of; all_goals first
        | with_reducible exact Off.refl | exact Off.no (by assumption) | skip)
    | with_reducible apply State.pushRecord_same

theorem State.emit_same {m : Component → Bool} {a s : State} (h : Same m a s) (sev : Nat) (kind : Nat) (at_ : Site)
    (op : Nat) (synd : Nat) (n_regs : m .regs = false) (n_chk : m .chk = false) :
    Same m a (State.emit s sev kind at_ op synd) := by
  unfold State.emit
  repeat' first
    | (with_reducible first | assumption | refine Same.ite ?_ ?_)
    | (simp only [Same.mk_iff]; apply SameF.of; all_goals first
        | with_reducible exact Off.refl | exact Off.no (by assumption) | skip)
    | (with_reducible first | apply State.bump_same | apply State.sendRecord_same)
    | split

theorem State.protectedRecord_same {m : Component → Bool} {a s : State} (h : Same m a s) (aa : Nat) (op : Nat)
    (n_regs : m .regs = false) (n_chk : m .chk = false) :
    Same m a (State.protectedRecord s aa op) := by
  unfold State.protectedRecord
  repeat' (with_reducible first | assumption | refine Same.ite ?_ ?_ | apply State.emit_same)

theorem State.guardedWrite_same {m : Component → Bool} {a s : State} (h : Same m a s) (aa : Nat) (bs : List Byte)
    (op : Nat) (n_regs : m .regs = false) (n_mem : m .mem = false) (n_chk : m .chk = false) (n_mm : m .mm = false) :
    Same m a (State.guardedWrite s aa bs op) := by
  unfold State.guardedWrite
  repeat' first
    | (with_reducible first | assumption | refine Same.ite ?_ ?_)
    | (lift_lets; intro kx; refine Same.step (m := m) (a := a) (x := kx) ?_ fun hkx => ?_)
    | (lift_lets; intro kx)
    | (simp only [Same.mk_iff]; apply SameF.of; all_goals first
        | with_reducible exact Off.refl | exact Off.no (by assumption) | skip)
    | (with_reducible first | apply State.write_same | apply State.protectedRecord_same)
    | (simp only [kx, Same.mk_iff]; apply SameF.of; all_goals first
        | with_reducible exact Off.refl | exact Off.no (by assumption) | skip)
    | (with_reducible first
        | refine Same.foldl ?_ fun kb ky hkb => ?_ | refine Same.foldl_snd ?_ fun kb ky hkb => ?_
        | refine Same.foldl_fst ?_ fun kb ky hkb => ?_)
    | split
    | (with_reducible first
        | refine Same.of_snd (by assumption) ?_ | refine Same.of_fst (by assumption) ?_
        | refine Same.of_third (by assumption) ?_)
    | dsimp only
    | unfold kx

theorem State.guardedFree_same {m : Component → Bool} {a s : State} (h : Same m a s) (aa : Nat) (n : Nat) (op : Nat)
    (n_fresh : m .fresh = false) (n_regs : m .regs = false) (n_mem : m .mem = false) (n_chk : m .chk = false)
    (n_mm : m .mm = false) :
    Same m a (State.guardedFree s aa n op) := by
  unfold State.guardedFree
  repeat' first
    | (with_reducible first | assumption | refine Same.ite ?_ ?_)
    | (lift_lets; intro kx; refine Same.step (m := m) (a := a) (x := kx) ?_ fun hkx => ?_)
    | (lift_lets; intro kx)
    | (simp only [Same.mk_iff]; apply SameF.of; all_goals first
        | with_reducible exact Off.refl | exact Off.no (by assumption) | skip)
    | (with_reducible first | apply State.free_same | apply State.guardedWrite_same)
    | (simp only [kx, Same.mk_iff]; apply SameF.of; all_goals first
        | with_reducible exact Off.refl | exact Off.no (by assumption) | skip)
    | (with_reducible first
        | refine Same.foldl ?_ fun kb ky hkb => ?_ | refine Same.foldl_snd ?_ fun kb ky hkb => ?_
        | refine Same.foldl_fst ?_ fun kb ky hkb => ?_)
    | split
    | (with_reducible first
        | refine Same.of_snd (by assumption) ?_ | refine Same.of_fst (by assumption) ?_
        | refine Same.of_third (by assumption) ?_)
    | dsimp only
    | unfold kx

theorem State.copyRecord_same {m : Component → Bool} {a s : State} (h : Same m a s) (r : ErrRecord)
    (n_regs : m .regs = false) (n_mem : m .mem = false) (n_chk : m .chk = false) (n_mm : m .mm = false)
    (n_hub : m .hub = false) :
    Same m a (State.copyRecord s r) := by
  unfold State.copyRecord
  repeat' first
    | (with_reducible first
        | assumption | refine Same.ite ?_ ?_ | apply State.setFld_same | apply State.bump_same
        | apply State.raiseIrq_same | apply State.guardedWrite_same)

theorem State.logRecord_same {m : Component → Bool} {a s : State} (h : Same m a s) (r : ErrRecord)
    (n_regs : m .regs = false) (n_flt : m .flt = false) :
    Same m a (State.logRecord s r) := by
  unfold State.logRecord
  repeat' first
    | (with_reducible first | assumption | refine Same.ite ?_ ?_)
    | (simp only [Same.mk_iff]; apply SameF.of; all_goals first
        | with_reducible exact Off.refl | exact Off.no (by assumption) | skip)
    | with_reducible apply State.setFld_same

theorem State.releaseHeld_same {m : Component → Bool} {a s : State} (h : Same m a s) (n : Nat)
    (n_regs : m .regs = false) (n_chk : m .chk = false) : Same m a (s.releaseHeld n) := by
  induction n generalizing s with
  | zero => exact h
  | succ n ih =>
    unfold State.releaseHeld
    split
    · split
      · exact h
      · refine ih (State.pushRecord_same ?_ _ n_regs n_chk)
        simp only [Same.mk_iff]; apply SameF.of; all_goals first | exact Off.refl | exact Off.no n_chk | exact h
    · exact h

theorem State.stewardTake_same {m : Component → Bool} {a s : State} (h : Same m a s) (n_regs : m .regs = false)
    (n_mem : m .mem = false) (n_flt : m .flt = false) (n_chk : m .chk = false) (n_mm : m .mm = false)
    (n_hub : m .hub = false) :
    Same m a (State.stewardTake s) := by
  unfold State.stewardTake
  repeat' first
    | with_reducible assumption
    | (simp only [Same.mk_iff]; apply SameF.of; all_goals first
        | with_reducible exact Off.refl | exact Off.no (by assumption) | skip)
    | (with_reducible first | apply State.copyRecord_same | apply State.logRecord_same | apply State.releaseHeld_same)
    | split

end Sys2Proof.Machine
end

