-- ==== Sys2Proof/Laws/SameUnits.lean ====
section
/-! SUPPORT. What the operations of Machine/Units.lean leave alone (`Same`). -/

set_option linter.unusedSimpArgs false

namespace Sys2Proof.Machine

theorem State.setUnit_same {m : Component → Bool} {a s : State} (h : Same m a s) (k : Nat) (u : UnitEntry)
    (n_flt : m .flt = false) :
    Same m a (State.setUnit s k u) := by
  unfold State.setUnit
  repeat' first
    | with_reducible assumption
    | (simp only [Same.mk_iff]; apply SameF.of; all_goals first
        | with_reducible exact Off.refl | exact Off.no (by assumption) | skip)

theorem State.rebuildMaps_same {m : Component → Bool} {a s : State} (h : Same m a s) (d : Nat) (firstBuild : Bool)
    (n_regs : m .regs = false) :
    Same m a (State.rebuildMaps s d firstBuild) := by
  unfold State.rebuildMaps
  repeat' first
    | (with_reducible first
        | assumption | refine Same.ite ?_ ?_ | apply State.setReg_same | apply State.setFld_same
        | refine Same.foldl ?_ fun kb ky hkb => ?_)

theorem State.markDirty_same {m : Component → Bool} {a s : State} (h : Same m a s) (n_flt : m .flt = false) :
    Same m a (State.markDirty s) := by
  unfold State.markDirty
  repeat' first
    | with_reducible assumption
    | (simp only [Same.mk_iff]; apply SameF.of; all_goals first
        | with_reducible exact Off.refl | exact Off.no (by assumption) | skip)

theorem State.strike_same {m : Component → Bool} {a s : State} (h : Same m a s) (k : Nat) (n_flt : m .flt = false) :
    Same m a (State.strike s k) := by
  unfold State.strike
  repeat' (with_reducible first | assumption | refine Same.ite ?_ ?_ | apply State.setUnit_same)

theorem State.retire_same {m : Component → Bool} {a s : State} (h : Same m a s) (k : Nat) (rule : Nat)
    (n_regs : m .regs = false) (n_flt : m .flt = false) (n_chk : m .chk = false) :
    Same m a (State.retire s k rule) := by
  unfold State.retire
  repeat' first
    | (with_reducible first | assumption | refine Same.ite ?_ ?_)
    | (simp only [Same.mk_iff]; apply SameF.of; all_goals first
        | with_reducible exact Off.refl | exact Off.no (by assumption) | skip)
    | (with_reducible first
        | apply State.bump_same | apply State.emit_same | apply State.setUnit_same | apply State.markDirty_same)

theorem State.enterSump_same {m : Component → Bool} {a s : State} (h : Same m a s) (k : Nat) (kind : Nat)
    (rule : Nat) (n_regs : m .regs = false) (n_flt : m .flt = false) (n_chk : m .chk = false) :
    Same m a (State.enterSump s k kind rule) := by
  unfold State.enterSump
  repeat' first
    | (with_reducible first | assumption | refine Same.ite ?_ ?_)
    | (simp only [Same.mk_iff]; apply SameF.of; all_goals first
        | with_reducible exact Off.refl | exact Off.no (by assumption) | skip)
    | (with_reducible first
        | apply State.bump_same | apply State.emit_same | apply State.setUnit_same | apply State.markDirty_same)

theorem State.markDue_same {m : Component → Bool} {a s : State} (h : Same m a s) (k : Nat) (rule : Nat)
    (n_flt : m .flt = false) :
    Same m a (State.markDue s k rule) := by
  unfold State.markDue
  repeat' first
    | (with_reducible first
        | assumption | refine Same.ite ?_ ?_ | apply State.setUnit_same | apply State.markDirty_same)

theorem State.noteHard_same {m : Component → Bool} {a s : State} (h : Same m a s) (k : Nat) (n_flt : m .flt = false) :
    Same m a (State.noteHard s k) := by
  unfold State.noteHard
  repeat' (with_reducible first | assumption | refine Same.ite ?_ ?_ | apply State.setUnit_same)

theorem State.countCorrected_same {m : Component → Bool} {a s : State} (h : Same m a s) (k : Nat)
    (n_flt : m .flt = false) :
    Same m a (State.countCorrected s k) := by
  unfold State.countCorrected
  repeat' (with_reducible first | assumption | refine Same.ite ?_ ?_ | apply State.setUnit_same)

theorem State.strikeSump_same {m : Component → Bool} {a s : State} (h : Same m a s) (k : Nat) (kind : Nat)
    (n_regs : m .regs = false) (n_flt : m .flt = false) (n_chk : m .chk = false) :
    Same m a (State.strikeSump s k kind) := by
  unfold State.strikeSump
  repeat' first
    | (with_reducible first
        | assumption | refine Same.ite ?_ ?_ | apply State.strike_same | apply State.retire_same
        | apply State.enterSump_same)

theorem State.retireDue_same {m : Component → Bool} {a s : State} (h : Same m a s) (d : Nat)
    (n_regs : m .regs = false) (n_flt : m .flt = false) (n_chk : m .chk = false) :
    Same m a (State.retireDue s d) := by
  unfold State.retireDue
  repeat' first
    | (with_reducible first
        | assumption | refine Same.ite ?_ ?_ | apply State.retire_same | refine Same.foldl ?_ fun kb ky hkb => ?_)

end Sys2Proof.Machine
end

