-- ==== Sys2Proof/Laws/SameFaults.lean ====
section
/-! SUPPORT. What the operations of Machine/Faults.lean leave alone (`Same`). -/

set_option linter.unusedSimpArgs false

namespace Sys2Proof.Machine

theorem State.flitOut_same {m : Component → Bool} {a s : State} (h : Same m a s) (l : Nat) (n : Nat) (type : Nat)
    (fill : Nat) (epoch : Nat) (n_regs : m .regs = false) (n_hub : m .hub = false) :
    Same m a (State.flitOut s l n type fill epoch) := by
  unfold State.flitOut
  repeat' first
    | (with_reducible first | assumption | refine Same.ite ?_ ?_)
    | (lift_lets; intro kx; refine Same.step (m := m) (a := a) (x := kx) ?_ fun hkx => ?_)
    | (lift_lets; intro kx)
    | (simp only [Same.mk_iff]; apply SameF.of; all_goals first
        | with_reducible exact Off.refl | exact Off.no (by assumption) | skip)
    | with_reducible apply State.bump_same
    | (simp only [kx, Same.mk_iff]; apply SameF.of; all_goals first
        | with_reducible exact Off.refl | exact Off.no (by assumption) | skip)
    | (with_reducible first
        | refine Same.foldl ?_ fun kb ky hkb => ?_ | refine Same.foldl_snd ?_ fun kb ky hkb => ?_
        | refine Same.foldl_fst ?_ fun kb ky hkb => ?_)
    | split
    | (with_reducible first
        | refine Same.of_snd (by assumption) ?_ | refine Same.of_fst (by assumption) ?_
        | refine Same.of_third (by assumption) ?_)
    | dsimp only
    | unfold kx

theorem State.flitsTo_same {m : Component → Bool} {a s : State} (h : Same m a s) (d : Nat) (n : Nat) (type : Nat)
    (fill : Nat) (epoch : Nat) (n_regs : m .regs = false) (n_hub : m .hub = false) :
    Same m a (State.flitsTo s d n type fill epoch) := by
  unfold State.flitsTo
  repeat' first
    | (with_reducible first | assumption | refine Same.ite ?_ ?_)
    | (lift_lets; intro kx; refine Same.step (m := m) (a := a) (x := kx) ?_ fun hkx => ?_)
    | (lift_lets; intro kx)
    | (simp only [Same.mk_iff]; apply SameF.of; all_goals first
        | with_reducible exact Off.refl | exact Off.no (by assumption) | skip)
    | with_reducible apply State.flitOut_same
    | (simp only [kx, Same.mk_iff]; apply SameF.of; all_goals first
        | with_reducible exact Off.refl | exact Off.no (by assumption) | skip)
    | (with_reducible first
        | refine Same.foldl ?_ fun kb ky hkb => ?_ | refine Same.foldl_snd ?_ fun kb ky hkb => ?_
        | refine Same.foldl_fst ?_ fun kb ky hkb => ?_)
    | split
    | (with_reducible first
        | refine Same.of_snd (by assumption) ?_ | refine Same.of_fst (by assumption) ?_
        | refine Same.of_third (by assumption) ?_)
    | dsimp only
    | unfold kx

theorem State.flitFrom_same {m : Component → Bool} {a s : State} (h : Same m a s) (d : Nat)
    (n_regs : m .regs = false) :
    Same m a (State.flitFrom s d) := by
  unfold State.flitFrom
  repeat' (with_reducible first | assumption | refine Same.ite ?_ ?_ | apply State.bump_same)

theorem State.crossingSlip_same {m : Component → Bool} {a s : State} (h : Same m a s) (x : Nat) (aclk : Nat)
    (n_regs : m .regs = false) (n_crossings : m .crossings = false) :
    Same m a (State.crossingSlip s x aclk) := by
  unfold State.crossingSlip
  repeat' first
    | (with_reducible first | assumption | refine Same.ite ?_ ?_)
    | (simp only [Same.mk_iff]; apply SameF.of; all_goals first
        | with_reducible exact Off.refl | exact Off.no (by assumption) | skip)
    | (with_reducible first | apply State.setFld_same | apply State.bump_same)

theorem State.freeRunning_same {m : Component → Bool} {a s : State} (h : Same m a s) (l : Nat)
    (n_fresh : m .fresh = false) (n_regs : m .regs = false) (n_crossings : m .crossings = false) :
    Same m a (State.freeRunning s l) := by
  unfold State.freeRunning
  repeat' first
    | (with_reducible first
        | assumption | refine Same.ite ?_ ?_ | apply State.free_same | apply State.crossingSlip_same)

theorem State.sendNotices_same {m : Component → Bool} {a s : State} (h : Same m a s) (sender : Nat) (epoch : Nat)
    (cause : Nat) (n_regs : m .regs = false) (n_hub : m .hub = false) (n_fleet : m .fleet = false) :
    Same m a (State.sendNotices s sender epoch cause) := by
  unfold State.sendNotices
  repeat' first
    | (with_reducible first | assumption | refine Same.ite ?_ ?_)
    | (lift_lets; intro kx; refine Same.step (m := m) (a := a) (x := kx) ?_ fun hkx => ?_)
    | (lift_lets; intro kx)
    | (simp only [Same.mk_iff]; apply SameF.of; all_goals first
        | with_reducible exact Off.refl | exact Off.no (by assumption) | skip)
    | (with_reducible first | apply State.bump_same | apply State.flitsTo_same)
    | (simp only [kx, Same.mk_iff]; apply SameF.of; all_goals first
        | with_reducible exact Off.refl | exact Off.no (by assumption) | skip)
    | (with_reducible first
        | refine Same.foldl ?_ fun kb ky hkb => ?_ | refine Same.foldl_snd ?_ fun kb ky hkb => ?_
        | refine Same.foldl_fst ?_ fun kb ky hkb => ?_)
    | split
    | (with_reducible first
        | refine Same.of_snd (by assumption) ?_ | refine Same.of_fst (by assumption) ?_
        | refine Same.of_third (by assumption) ?_)
    | dsimp only
    | unfold kx

theorem State.sendData_same {m : Component → Bool} {a s : State} (h : Same m a s) (peer : Nat) (bytes : List Byte)
    (bad : Bool) (tiles : List (Nat × Nat × Nat × Nat)) (n_fresh : m .fresh = false) (n_regs : m .regs = false)
    (n_crossings : m .crossings = false) (n_chk : m .chk = false) (n_hub : m .hub = false) :
    Same m a (State.sendData s peer bytes bad tiles) := by
  unfold State.sendData
  repeat' first
    | (with_reducible first | assumption | refine Same.ite ?_ ?_)
    | (lift_lets; intro kx; refine Same.step (m := m) (a := a) (x := kx) ?_ fun hkx => ?_)
    | (lift_lets; intro kx)
    | (simp only [Same.mk_iff]; apply SameF.of; all_goals first
        | with_reducible exact Off.refl | exact Off.no (by assumption) | skip)
    | (with_reducible first | apply State.flitsTo_same | apply State.freeRunning_same)
    | (simp only [kx, Same.mk_iff]; apply SameF.of; all_goals first
        | with_reducible exact Off.refl | exact Off.no (by assumption) | skip)
    | (with_reducible first
        | refine Same.foldl ?_ fun kb ky hkb => ?_ | refine Same.foldl_snd ?_ fun kb ky hkb => ?_
        | refine Same.foldl_fst ?_ fun kb ky hkb => ?_)
    | split
    | (with_reducible first
        | refine Same.of_snd (by assumption) ?_ | refine Same.of_fst (by assumption) ?_
        | refine Same.of_third (by assumption) ?_)
    | dsimp only
    | unfold kx

theorem State.setHold_same {m : Component → Bool} {a s : State} (h : Same m a s) (on : Bool)
    (n_regs : m .regs = false) (n_flt : m .flt = false) :
    Same m a (State.setHold s on) := by
  unfold State.setHold
  repeat' first
    | (with_reducible first | assumption | refine Same.ite ?_ ?_)
    | (simp only [Same.mk_iff]; apply SameF.of; all_goals first
        | with_reducible exact Off.refl | exact Off.no (by assumption) | skip)
    | (with_reducible first | apply State.setFld_same | apply State.bump_same)

theorem State.endHold_same {m : Component → Bool} {a s : State} (h : Same m a s) (n_regs : m .regs = false)
    (n_flt : m .flt = false) :
    Same m a (State.endHold s) := by
  unfold State.endHold
  repeat' (with_reducible first | assumption | refine Same.ite ?_ ?_ | apply State.setHold_same)

theorem State.beginStop_same {m : Component → Bool} {a s : State} (h : Same m a s) (c : StopCause) (kind : Nat)
    (n_regs : m .regs = false) (n_cfg : m .cfg = false) (n_flt : m .flt = false) (n_hub : m .hub = false) :
    Same m a (State.beginStop s c kind) := by
  unfold State.beginStop
  repeat' first
    | (with_reducible first | assumption | refine Same.ite ?_ ?_)
    | (lift_lets; intro kx; refine Same.step (m := m) (a := a) (x := kx) ?_ fun hkx => ?_)
    | (lift_lets; intro kx)
    | (simp only [Same.mk_iff]; apply SameF.of; all_goals first
        | with_reducible exact Off.refl | exact Off.no (by assumption) | skip)
    | (with_reducible first
        | apply State.setFld_same | apply State.setRun_same | apply State.setLoadState_same | apply State.setBusy_same
        | apply State.setRecovery_same | apply State.endHold_same)
    | (simp only [kx, Same.mk_iff]; apply SameF.of; all_goals first
        | with_reducible exact Off.refl | exact Off.no (by assumption) | skip)
    | (with_reducible first
        | refine Same.foldl ?_ fun kb ky hkb => ?_ | refine Same.foldl_snd ?_ fun kb ky hkb => ?_
        | refine Same.foldl_fst ?_ fun kb ky hkb => ?_)
    | split
    | (with_reducible first
        | refine Same.of_snd (by assumption) ?_ | refine Same.of_fst (by assumption) ?_
        | refine Same.of_third (by assumption) ?_)
    | dsimp only
    | unfold kx

theorem State.stopStep_same {m : Component → Bool} {a s : State} (h : Same m a s) (c : StopCause) (kind : Nat)
    (n_regs : m .regs = false) (n_cfg : m .cfg = false) (n_flt : m .flt = false) (n_hub : m .hub = false)
    (n_fleet : m .fleet = false) :
    Same m a (State.stopStep s c kind) := by
  unfold State.stopStep
  repeat' first
    | (with_reducible first | assumption | refine Same.ite ?_ ?_)
    | (lift_lets; intro kx; refine Same.step (m := m) (a := a) (x := kx) ?_ fun hkx => ?_)
    | (lift_lets; intro kx)
    | (simp only [Same.mk_iff]; apply SameF.of; all_goals first
        | with_reducible exact Off.refl | exact Off.no (by assumption) | skip)
    | (with_reducible first | apply State.sendNotices_same | apply State.beginStop_same)
    | (simp only [kx, Same.mk_iff]; apply SameF.of; all_goals first
        | with_reducible exact Off.refl | exact Off.no (by assumption) | skip)
    | (with_reducible first
        | refine Same.foldl ?_ fun kb ky hkb => ?_ | refine Same.foldl_snd ?_ fun kb ky hkb => ?_
        | refine Same.foldl_fst ?_ fun kb ky hkb => ?_)
    | split
    | (with_reducible first
        | refine Same.of_snd (by assumption) ?_ | refine Same.of_fst (by assumption) ?_
        | refine Same.of_third (by assumption) ?_)
    | dsimp only
    | unfold kx

theorem State.transferPoison_same {m : Component → Bool} {a s : State} (h : Same m a s) (kind : Nat) (epoch : Nat)
    (src : Nat) (link : Nat) (cause : Nat) (n_regs : m .regs = false) (n_cfg : m .cfg = false)
    (n_flt : m .flt = false) (n_chk : m .chk = false) (n_hub : m .hub = false) (n_fleet : m .fleet = false) :
    Same m a (State.transferPoison s kind epoch src link cause) := by
  unfold State.transferPoison
  repeat' first
    | (with_reducible first | assumption | refine Same.ite ?_ ?_)
    | (lift_lets; intro kx; refine Same.step (m := m) (a := a) (x := kx) ?_ fun hkx => ?_)
    | (lift_lets; intro kx)
    | (simp only [Same.mk_iff]; apply SameF.of; all_goals first
        | with_reducible exact Off.refl | exact Off.no (by assumption) | skip)
    | (with_reducible first | apply State.emit_same | apply State.sendNotices_same | apply State.beginStop_same)
    | (simp only [kx, Same.mk_iff]; apply SameF.of; all_goals first
        | with_reducible exact Off.refl | exact Off.no (by assumption) | skip)
    | (with_reducible first
        | refine Same.foldl ?_ fun kb ky hkb => ?_ | refine Same.foldl_snd ?_ fun kb ky hkb => ?_
        | refine Same.foldl_fst ?_ fun kb ky hkb => ?_)
    | split
    | (with_reducible first
        | refine Same.of_snd (by assumption) ?_ | refine Same.of_fst (by assumption) ?_
        | refine Same.of_third (by assumption) ?_)
    | dsimp only
    | unfold kx

theorem State.poisonConsumed_same {m : Component → Bool} {a s : State} (h : Same m a s) (x : Site) (op : Nat)
    (addr : Nat) (point : Nat) (n_regs : m .regs = false) (n_chk : m .chk = false) :
    Same m a (State.poisonConsumed s x op addr point) := by
  unfold State.poisonConsumed
  repeat' (with_reducible first | assumption | refine Same.ite ?_ ?_ | apply State.bump_same | apply State.emit_same)

theorem State.sendMsg_same {m : Component → Bool} {a s : State} (h : Same m a s) (mm : CtrlMsg)
    (n_regs : m .regs = false) (n_hub : m .hub = false) (n_fleet : m .fleet = false) :
    Same m a (State.sendMsg s mm) := by
  unfold State.sendMsg
  repeat' first
    | (with_reducible first | assumption | refine Same.ite ?_ ?_)
    | (lift_lets; intro kx; refine Same.step (m := m) (a := a) (x := kx) ?_ fun hkx => ?_)
    | (lift_lets; intro kx)
    | (simp only [Same.mk_iff]; apply SameF.of; all_goals first
        | with_reducible exact Off.refl | exact Off.no (by assumption) | skip)
    | with_reducible apply State.flitsTo_same
    | (simp only [kx, Same.mk_iff]; apply SameF.of; all_goals first
        | with_reducible exact Off.refl | exact Off.no (by assumption) | skip)
    | (with_reducible first
        | refine Same.foldl ?_ fun kb ky hkb => ?_ | refine Same.foldl_snd ?_ fun kb ky hkb => ?_
        | refine Same.foldl_fst ?_ fun kb ky hkb => ?_)
    | split
    | (with_reducible first
        | refine Same.of_snd (by assumption) ?_ | refine Same.of_fst (by assumption) ?_
        | refine Same.of_third (by assumption) ?_)
    | dsimp only
    | unfold kx

theorem State.rollbackAll_same {m : Component → Bool} {a s : State} (h : Same m a s) (members : List Nat)
    (n_regs : m .regs = false) (n_hub : m .hub = false) (n_fleet : m .fleet = false) :
    Same m a (State.rollbackAll s members) := by
  unfold State.rollbackAll
  repeat' first
    | (with_reducible first | assumption | refine Same.ite ?_ ?_)
    | (lift_lets; intro kx; refine Same.step (m := m) (a := a) (x := kx) ?_ fun hkx => ?_)
    | (lift_lets; intro kx)
    | (simp only [Same.mk_iff]; apply SameF.of; all_goals first
        | with_reducible exact Off.refl | exact Off.no (by assumption) | skip)
    | with_reducible apply State.sendMsg_same
    | (simp only [kx, Same.mk_iff]; apply SameF.of; all_goals first
        | with_reducible exact Off.refl | exact Off.no (by assumption) | skip)
    | (with_reducible first
        | refine Same.foldl ?_ fun kb ky hkb => ?_ | refine Same.foldl_snd ?_ fun kb ky hkb => ?_
        | refine Same.foldl_fst ?_ fun kb ky hkb => ?_)
    | split
    | (with_reducible first
        | refine Same.of_snd (by assumption) ?_ | refine Same.of_fst (by assumption) ?_
        | refine Same.of_third (by assumption) ?_)
    | dsimp only
    | unfold kx

theorem State.setFleet_same {m : Component → Bool} {a s : State} (h : Same m a s) (f : Fld) (v : Nat)
    (n_regs : m .regs = false) (n_hub : m .hub = false) :
    Same m a (State.setFleet s f v) := by
  unfold State.setFleet
  repeat' (with_reducible first | assumption | refine Same.ite ?_ ?_ | apply State.setFldIrq_same)

theorem State.leaveFleet_same {m : Component → Bool} {a s : State} (h : Same m a s) (cause : Nat)
    (n_regs : m .regs = false) (n_hub : m .hub = false) (n_fleet : m .fleet = false) :
    Same m a (State.leaveFleet s cause) := by
  unfold State.leaveFleet
  repeat' (with_reducible first | assumption | refine Same.ite ?_ ?_ | apply State.sendMsg_same)

theorem State.dropExports_same {m : Component → Bool} {a s : State} (h : Same m a s) (step : Nat)
    (n_emb : m .emb = false) :
    Same m a (State.dropExports s step) := by
  unfold State.dropExports
  repeat' first
    | with_reducible assumption
    | (simp only [Same.mk_iff]; apply SameF.of; all_goals first
        | with_reducible exact Off.refl | exact Off.no (by assumption) | skip)

theorem State.failSave_same {m : Component → Bool} {a s : State} (h : Same m a s) (n_regs : m .regs = false)
    (n_hub : m .hub = false) (n_det : m .det = false) :
    Same m a (State.failSave s) := by
  unfold State.failSave
  repeat' first
    | with_reducible assumption
    | (simp only [Same.mk_iff]; apply SameF.of; all_goals first
        | with_reducible exact Off.refl | exact Off.no (by assumption) | skip)
    | (with_reducible first | apply State.setFld_same | apply State.raiseIrq_same)
    | split

theorem State.clearStep_same {m : Component → Bool} {a s : State} (h : Same m a s) (n_regs : m .regs = false)
    (n_crossings : m .crossings = false) (n_chk : m .chk = false) (n_dense : m .dense = false)
    (n_emb : m .emb = false) :
    Same m a (State.clearStep s) := by
  unfold State.clearStep
  repeat' first
    | (with_reducible first | assumption | refine Same.ite ?_ ?_)
    | (lift_lets; intro kx; refine Same.step (m := m) (a := a) (x := kx) ?_ fun hkx => ?_)
    | (lift_lets; intro kx)
    | (simp only [Same.mk_iff]; apply SameF.of; all_goals first
        | with_reducible exact Off.refl | exact Off.no (by assumption) | skip)
    | with_reducible apply State.setFld_same
    | (simp only [kx, Same.mk_iff]; apply SameF.of; all_goals first
        | with_reducible exact Off.refl | exact Off.no (by assumption) | skip)
    | (with_reducible first
        | refine Same.foldl ?_ fun kb ky hkb => ?_ | refine Same.foldl_snd ?_ fun kb ky hkb => ?_
        | refine Same.foldl_fst ?_ fun kb ky hkb => ?_)
    | split
    | (with_reducible first
        | refine Same.of_snd (by assumption) ?_ | refine Same.of_fst (by assumption) ?_
        | refine Same.of_third (by assumption) ?_)
    | dsimp only
    | unfold kx

theorem State.endRecovery_same {m : Component → Bool} {a s : State} (h : Same m a s) (outcome : Nat) (kind : Nat)
    (durationMs : Nat) (seam : Bool) (n_regs : m .regs = false) (n_crossings : m .crossings = false)
    (n_cfg : m .cfg = false) (n_flt : m .flt = false) (n_chk : m .chk = false) (n_hub : m .hub = false)
    (n_dense : m .dense = false) (n_emb : m .emb = false) (n_det : m .det = false) :
    Same m a (State.endRecovery s outcome kind durationMs seam) := by
  unfold State.endRecovery
  repeat' first
    | (with_reducible first | assumption | refine Same.ite ?_ ?_)
    | (lift_lets; intro kx; refine Same.step (m := m) (a := a) (x := kx) ?_ fun hkx => ?_)
    | (lift_lets; intro kx)
    | (simp only [Same.mk_iff]; apply SameF.of; all_goals first
        | with_reducible exact Off.refl | exact Off.no (by assumption) | skip)
    | (with_reducible first
        | apply State.setRun_same | apply State.setLoadState_same | apply State.setBusy_same
        | apply State.setRecovery_same | apply State.emit_same | apply State.endHold_same | apply State.failSave_same
        | apply State.clearStep_same)
    | (simp only [kx, Same.mk_iff]; apply SameF.of; all_goals first
        | with_reducible exact Off.refl | exact Off.no (by assumption) | skip)
    | (with_reducible first
        | refine Same.foldl ?_ fun kb ky hkb => ?_ | refine Same.foldl_snd ?_ fun kb ky hkb => ?_
        | refine Same.foldl_fst ?_ fun kb ky hkb => ?_)
    | split
    | (with_reducible first
        | refine Same.of_snd (by assumption) ?_ | refine Same.of_fst (by assumption) ?_
        | refine Same.of_third (by assumption) ?_)
    | dsimp only
    | unfold kx

theorem State.setLink_same {m : Component → Bool} {a s : State} (h : Same m a s) (n : Nat) (l : LinkState)
    (n_regs : m .regs = false) (n_links : m .links = false) :
    Same m a (State.setLink s n l) := by
  unfold State.setLink
  repeat' first
    | with_reducible assumption
    | (simp only [Same.mk_iff]; apply SameF.of; all_goals first
        | with_reducible exact Off.refl | exact Off.no (by assumption) | skip)
    | (with_reducible first | apply State.setFld_same | refine Same.foldl ?_ fun kb ky hkb => ?_)

theorem State.markLost_same {m : Component → Bool} {a s : State} (h : Same m a s) (d : Nat) (cause : Nat)
    (n_regs : m .regs = false) (n_chk : m .chk = false) (n_hub : m .hub = false) :
    Same m a (State.markLost s d cause) := by
  unfold State.markLost
  repeat' first
    | (with_reducible first | assumption | refine Same.ite ?_ ?_)
    | (lift_lets; intro kx; refine Same.step (m := m) (a := a) (x := kx) ?_ fun hkx => ?_)
    | (lift_lets; intro kx)
    | (simp only [Same.mk_iff]; apply SameF.of; all_goals first
        | with_reducible exact Off.refl | exact Off.no (by assumption) | skip)
    | (with_reducible first | apply State.setFld_same | apply State.setRecovery_same | apply State.emit_same)
    | (simp only [kx, Same.mk_iff]; apply SameF.of; all_goals first
        | with_reducible exact Off.refl | exact Off.no (by assumption) | skip)
    | (with_reducible first
        | refine Same.foldl ?_ fun kb ky hkb => ?_ | refine Same.foldl_snd ?_ fun kb ky hkb => ?_
        | refine Same.foldl_fst ?_ fun kb ky hkb => ?_)
    | split
    | (with_reducible first
        | refine Same.of_snd (by assumption) ?_ | refine Same.of_fst (by assumption) ?_
        | refine Same.of_third (by assumption) ?_)
    | dsimp only
    | unfold kx

theorem State.rerelay_same {m : Component → Bool} {a s : State} (h : Same m a s) (n : Nat)
      (n_regs : m .regs = false) (n_links : m .links = false) (n_chk : m .chk = false) (n_hub : m .hub = false) :
    Same m a (s.rerelay n) := by
  induction n generalizing s with
  | zero => exact h
  | succ n ih =>
    have hr := Same.foldl (m := m) (f := fun (s : State) l => s.setLink l { s.link l with relay := s.relayFor l })
      (l := (List.range 10).filter s.linkFallen) h fun _ _ hb => State.setLink_same hb _ _ n_regs n_links
    unfold State.rerelay
    dsimp only
    split
    · exact hr
    · exact ih (Same.foldl hr fun _ _ hb => State.markLost_same hb _ _ n_regs n_chk n_hub)

theorem State.afterLoss_same {m : Component → Bool} {a s : State} (h : Same m a s) (old : State) (durationMs : Nat)
    (n_regs : m .regs = false) (n_crossings : m .crossings = false) (n_cfg : m .cfg = false)
    (n_flt : m .flt = false) (n_chk : m .chk = false) (n_hub : m .hub = false) (n_fleet : m .fleet = false)
    (n_dense : m .dense = false) (n_emb : m .emb = false) (n_det : m .det = false) :
    Same m a (State.afterLoss s old durationMs) := by
  unfold State.afterLoss
  repeat' first
    | (with_reducible first | assumption | refine Same.ite ?_ ?_)
    | (lift_lets; intro kx; refine Same.step (m := m) (a := a) (x := kx) ?_ fun hkx => ?_)
    | (lift_lets; intro kx)
    | (simp only [Same.mk_iff]; apply SameF.of; all_goals first
        | with_reducible exact Off.refl | exact Off.no (by assumption) | skip)
    | (with_reducible first
        | apply State.leaveFleet_same | apply State.dropExports_same | apply State.endRecovery_same)
    | (simp only [kx, Same.mk_iff]; apply SameF.of; all_goals first
        | with_reducible exact Off.refl | exact Off.no (by assumption) | skip)
    | (with_reducible first
        | refine Same.foldl ?_ fun kb ky hkb => ?_ | refine Same.foldl_snd ?_ fun kb ky hkb => ?_
        | refine Same.foldl_fst ?_ fun kb ky hkb => ?_)
    | split
    | (with_reducible first
        | refine Same.of_snd (by assumption) ?_ | refine Same.of_fst (by assumption) ?_
        | refine Same.of_third (by assumption) ?_)
    | dsimp only
    | unfold kx

theorem State.loseDies_same {m : Component → Bool} {a s : State} (h : Same m a s) (ds : List Nat) (cause : Nat)
    (durationMs : Nat) (n_regs : m .regs = false) (n_links : m .links = false) (n_crossings : m .crossings = false)
    (n_cfg : m .cfg = false) (n_flt : m .flt = false) (n_chk : m .chk = false) (n_hub : m .hub = false)
    (n_fleet : m .fleet = false) (n_dense : m .dense = false) (n_emb : m .emb = false) (n_det : m .det = false) :
    Same m a (State.loseDies s ds cause durationMs) := by
  unfold State.loseDies
  repeat' first
    | (with_reducible first | assumption | refine Same.ite ?_ ?_)
    | (lift_lets; intro kx; refine Same.step (m := m) (a := a) (x := kx) ?_ fun hkx => ?_)
    | (lift_lets; intro kx)
    | (simp only [Same.mk_iff]; apply SameF.of; all_goals first
        | with_reducible exact Off.refl | exact Off.no (by assumption) | skip)
    | (with_reducible first | apply State.markLost_same | apply State.rerelay_same | apply State.afterLoss_same)
    | (simp only [kx, Same.mk_iff]; apply SameF.of; all_goals first
        | with_reducible exact Off.refl | exact Off.no (by assumption) | skip)
    | (with_reducible first
        | refine Same.foldl ?_ fun kb ky hkb => ?_ | refine Same.foldl_snd ?_ fun kb ky hkb => ?_
        | refine Same.foldl_fst ?_ fun kb ky hkb => ?_)
    | split
    | (with_reducible first
        | refine Same.of_snd (by assumption) ?_ | refine Same.of_fst (by assumption) ?_
        | refine Same.of_third (by assumption) ?_)
    | dsimp only
    | unfold kx

theorem State.loseDie_same {m : Component → Bool} {a s : State} (h : Same m a s) (d : Nat) (cause : Nat)
    (durationMs : Nat) (n_regs : m .regs = false) (n_links : m .links = false) (n_crossings : m .crossings = false)
    (n_cfg : m .cfg = false) (n_flt : m .flt = false) (n_chk : m .chk = false) (n_hub : m .hub = false)
    (n_fleet : m .fleet = false) (n_dense : m .dense = false) (n_emb : m .emb = false) (n_det : m .det = false) :
    Same m a (State.loseDie s d cause durationMs) := by
  unfold State.loseDie
  repeat' first
    | (with_reducible first | assumption | refine Same.ite ?_ ?_)
    | (lift_lets; intro kx; refine Same.step (m := m) (a := a) (x := kx) ?_ fun hkx => ?_)
    | (lift_lets; intro kx)
    | (simp only [Same.mk_iff]; apply SameF.of; all_goals first
        | with_reducible exact Off.refl | exact Off.no (by assumption) | skip)
    | with_reducible apply State.loseDies_same
    | (simp only [kx, Same.mk_iff]; apply SameF.of; all_goals first
        | with_reducible exact Off.refl | exact Off.no (by assumption) | skip)
    | (with_reducible first
        | refine Same.foldl ?_ fun kb ky hkb => ?_ | refine Same.foldl_snd ?_ fun kb ky hkb => ?_
        | refine Same.foldl_fst ?_ fun kb ky hkb => ?_)
    | split
    | (with_reducible first
        | refine Same.of_snd (by assumption) ?_ | refine Same.of_fst (by assumption) ?_
        | refine Same.of_third (by assumption) ?_)
    | dsimp only
    | unfold kx

theorem State.chargeWord_same {m : Component → Bool} {a s : State} (h : Same m a s) (k : Nat) (w : Nat)
    (n_flt : m .flt = false) :
    Same m a (State.chargeWord s k w) := by
  unfold State.chargeWord
  repeat' first
    | (with_reducible first | assumption | refine Same.ite ?_ ?_)
    | (lift_lets; intro kx; refine Same.step (m := m) (a := a) (x := kx) ?_ fun hkx => ?_)
    | (lift_lets; intro kx)
    | (simp only [Same.mk_iff]; apply SameF.of; all_goals first
        | with_reducible exact Off.refl | exact Off.no (by assumption) | skip)
    | (with_reducible first | apply State.markDue_same | apply State.noteHard_same)
    | (simp only [kx, Same.mk_iff]; apply SameF.of; all_goals first
        | with_reducible exact Off.refl | exact Off.no (by assumption) | skip)
    | (with_reducible first
        | refine Same.foldl ?_ fun kb ky hkb => ?_ | refine Same.foldl_snd ?_ fun kb ky hkb => ?_
        | refine Same.foldl_fst ?_ fun kb ky hkb => ?_)
    | split
    | (with_reducible first
        | refine Same.of_snd (by assumption) ?_ | refine Same.of_fst (by assumption) ?_
        | refine Same.of_third (by assumption) ?_)
    | dsimp only
    | unfold kx

theorem State.chargeCorrected_same {m : Component → Bool} {a s : State} (h : Same m a s) (aa : Nat)
    (n_flt : m .flt = false) :
    Same m a (State.chargeCorrected s aa) := by
  unfold State.chargeCorrected
  repeat' first
    | (with_reducible first | assumption | refine Same.ite ?_ ?_)
    | (lift_lets; intro kx; refine Same.step (m := m) (a := a) (x := kx) ?_ fun hkx => ?_)
    | (with_reducible first
        | apply State.markDue_same | apply State.countCorrected_same | apply State.chargeWord_same)
    | split

theorem State.bumpEcc_same {m : Component → Bool} {a s : State} (h : Same m a s) (aa : Nat) (j : Nat)
    (n_regs : m .regs = false) :
    Same m a (State.bumpEcc s aa j) := by
  unfold State.bumpEcc
  repeat' first
    | (with_reducible first | assumption | apply State.bump_same)
    | split

theorem State.correctedIn_same {m : Component → Bool} {a s : State} (h : Same m a s) (k : MemKind) (aa : Nat)
    (sym : Nat) (op : Nat) (counter : Nat) (n_regs : m .regs = false) (n_flt : m .flt = false)
    (n_chk : m .chk = false) (n_mm : m .mm = false) :
    Same m a (State.correctedIn s k aa sym op counter) := by
  unfold State.correctedIn
  repeat' first
    | (with_reducible first | assumption | refine Same.ite ?_ ?_)
    | (simp only [Same.mk_iff]; apply SameF.of; all_goals first
        | with_reducible exact Off.refl | exact Off.no (by assumption) | skip)
    | (with_reducible first
        | apply State.setLineMeta_same | apply State.emit_same | apply State.noteHard_same
        | apply State.chargeCorrected_same | apply State.bumpEcc_same)

theorem State.applyCause_same {m : Component → Bool} {a s : State} (h : Same m a s) (key : Nat) (kind : Nat)
    (n_regs : m .regs = false) (n_flt : m .flt = false) (n_chk : m .chk = false) :
    Same m a (State.applyCause s key kind) := by
  unfold State.applyCause
  repeat' first
    | (with_reducible first
        | assumption | refine Same.ite ?_ ?_ | apply State.strike_same | apply State.markDue_same
        | apply State.strikeSump_same)
    | split

theorem State.uncorrectableIn_same {m : Component → Bool} {a s : State} (h : Same m a s) (k : MemKind) (aa : Nat)
    (op : Nat) (n_regs : m .regs = false) (n_cfg : m .cfg = false) (n_flt : m .flt = false) (n_chk : m .chk = false)
    (n_mm : m .mm = false) (n_hub : m .hub = false) (n_fleet : m .fleet = false) :
    Same m a (State.uncorrectableIn s k aa op) := by
  unfold State.uncorrectableIn
  repeat' first
    | with_reducible assumption
    | (lift_lets; intro kx; refine Same.step (m := m) (a := a) (x := kx) ?_ fun hkx => ?_)
    | (lift_lets; intro kx)
    | (simp only [Same.mk_iff]; apply SameF.of; all_goals first
        | with_reducible exact Off.refl | exact Off.no (by assumption) | skip)
    | (with_reducible first
        | apply State.poisonAt_same | apply State.emit_same | apply State.stopStep_same | apply State.bumpEcc_same
        | apply State.applyCause_same)
    | split

theorem State.applyEccIn_same {m : Component → Bool} {a s : State} (h : Same m a s) (k : MemKind) (aa : Nat)
    (e : Ecc) (op : Nat) (counter : Nat) (n_regs : m .regs = false) (n_cfg : m .cfg = false)
    (n_flt : m .flt = false) (n_chk : m .chk = false) (n_mm : m .mm = false) (n_hub : m .hub = false)
    (n_fleet : m .fleet = false) :
    Same m a (State.applyEccIn s k aa e op counter) := by
  unfold State.applyEccIn
  repeat' first
    | (with_reducible first | assumption | apply State.correctedIn_same | apply State.uncorrectableIn_same)
    | split

theorem State.applyEcc_same {m : Component → Bool} {a s : State} (h : Same m a s) (aa : Nat) (e : Ecc) (op : Nat)
    (counter : Nat) (n_regs : m .regs = false) (n_cfg : m .cfg = false) (n_flt : m .flt = false)
    (n_chk : m .chk = false) (n_mm : m .mm = false) (n_hub : m .hub = false) (n_fleet : m .fleet = false) :
    Same m a (State.applyEcc s aa e op counter) := by
  unfold State.applyEcc
  repeat' (with_reducible first | assumption | refine Same.ite ?_ ?_ | apply State.applyEccIn_same)

theorem State.bufferEcc_same {m : Component → Bool} {a s : State} (h : Same m a s) (k : MemKind) (key : Nat)
    (at_ : Site) (off : Nat) (e : Ecc) (op : Nat) (n_regs : m .regs = false) (n_cfg : m .cfg = false)
    (n_flt : m .flt = false) (n_chk : m .chk = false) (n_mm : m .mm = false) (n_hub : m .hub = false)
    (n_fleet : m .fleet = false) :
    Same m a (State.bufferEcc s k key at_ off e op) := by
  unfold State.bufferEcc
  repeat' first
    | (with_reducible first | assumption | refine Same.ite ?_ ?_)
    | (simp only [Same.mk_iff]; apply SameF.of; all_goals first
        | with_reducible exact Off.refl | exact Off.no (by assumption) | skip)
    | (with_reducible first
        | apply State.emit_same | apply State.countCorrected_same | apply State.stopStep_same
        | apply State.chargeWord_same)
    | split

theorem State.meetError_same {m : Component → Bool} {a s : State} (h : Same m a s) (r : Reads) (op : Nat)
    (e : MemError) (n_regs : m .regs = false) (n_cfg : m .cfg = false) (n_flt : m .flt = false)
    (n_chk : m .chk = false) (n_mm : m .mm = false) (n_hub : m .hub = false) (n_fleet : m .fleet = false) :
    Same m a (State.meetError s r op e) := by
  unfold State.meetError
  repeat' first
    | (with_reducible first
        | assumption | apply State.applyEccIn_same | apply State.applyEcc_same | apply State.bufferEcc_same)
    | split

theorem State.countPoisonReads_same {m : Component → Bool} {a s : State} (h : Same m a s)
    (ranges : List (Nat × Nat)) (n_regs : m .regs = false) :
    Same m a (State.countPoisonReads s ranges) := by
  unfold State.countPoisonReads
  repeat' first
    | (with_reducible first
        | assumption | refine Same.ite ?_ ?_ | apply State.bumpEcc_same | refine Same.foldl ?_ fun kb ky hkb => ?_)

theorem State.meetReads_same {m : Component → Bool} {a s : State} (h : Same m a s) (r : Reads) (op : Nat)
    (es : List MemError) (n_regs : m .regs = false) (n_cfg : m .cfg = false) (n_flt : m .flt = false)
    (n_chk : m .chk = false) (n_mm : m .mm = false) (n_hub : m .hub = false) (n_fleet : m .fleet = false) :
    Same m a (State.meetReads s r op es) := by
  unfold State.meetReads
  repeat' first
    | (with_reducible first
        | assumption | apply State.meetError_same | apply State.countPoisonReads_same
        | refine Same.foldl ?_ fun kb ky hkb => ?_)

end Sys2Proof.Machine
end

