-- ==== Sys2Proof/Laws/Registers.lean ====
section
/-! SUPPORT. Reading a bit field after writing one, and reading a register or a field of it after writing another. -/

namespace Sys2Proof.Machine

/-! ### Bit fields of a number -/

/-- A number cut at both ends of a field. -/
theorem cut (n lo w : Nat) : n = (n / 2 ^ lo / 2 ^ w * 2 ^ w + n / 2 ^ lo % 2 ^ w) * 2 ^ lo + n % 2 ^ lo := by
  rw [Nat.mul_comm (n / 2 ^ lo / 2 ^ w), Nat.div_add_mod, Nat.mul_comm, Nat.div_add_mod]

theorem bits_eq (n hi lo : Nat) : bits n hi lo = n / 2 ^ lo % 2 ^ (hi + 1 - lo) := by
  rw [bits, Nat.shiftRight_eq_div_pow]

/-- `setBits` replaces the middle part of the cut. -/
theorem setBits_eq (n hi lo v : Nat) :
    setBits n hi lo v =
      (n / 2 ^ lo / 2 ^ (hi + 1 - lo) * 2 ^ (hi + 1 - lo) + v % 2 ^ (hi + 1 - lo)) * 2 ^ lo + n % 2 ^ lo := by
  have h := cut n lo (hi + 1 - lo)
  rw [setBits, bits_eq, Nat.shiftLeft_eq, Nat.shiftLeft_eq]
  rw [Nat.add_mul] at h ⊢
  omega

theorem bits_setBits_same (n hi lo v : Nat) : bits (setBits n hi lo v) hi lo = v % 2 ^ (hi + 1 - lo) := by
  have p : 0 < 2 ^ lo := Nat.two_pow_pos lo
  rw [bits_eq, setBits_eq, Nat.mul_comm, Nat.mul_add_div p, Nat.div_eq_of_lt (Nat.mod_lt _ p), Nat.add_zero,
    Nat.mul_comm, Nat.mul_add_mod, Nat.mod_mod]

/-- A field above the one written. -/
theorem bits_setBits_above (n hi lo v hi' lo' : Nat) (h : lo ≤ hi + 1) (k : hi < lo') :
    bits (setBits n hi lo v) hi' lo' = bits n hi' lo' := by
  have p : 0 < 2 ^ lo := Nat.two_pow_pos lo
  have q : 0 < 2 ^ (hi + 1 - lo) := Nat.two_pow_pos _
  have e : 2 ^ lo' = 2 ^ lo * 2 ^ (hi + 1 - lo) * 2 ^ (lo' - (hi + 1)) := by
    rw [← Nat.pow_add, ← Nat.pow_add]; congr 1; omega
  rw [bits_eq, bits_eq, e, ← Nat.div_div_eq_div_mul, ← Nat.div_div_eq_div_mul, ← Nat.div_div_eq_div_mul,
    ← Nat.div_div_eq_div_mul]
  congr 2
  rw [setBits_eq, Nat.mul_comm, Nat.mul_add_div p, Nat.div_eq_of_lt (Nat.mod_lt _ p), Nat.add_zero, Nat.mul_comm,
    Nat.mul_add_div q, Nat.div_eq_of_lt (Nat.mod_lt _ q), Nat.add_zero]

/-- A field below the one written. -/
theorem bits_setBits_below (n hi lo v hi' lo' : Nat) (k : hi' < lo) :
    bits (setBits n hi lo v) hi' lo' = bits n hi' lo' := by
  have below (x : Nat) : bits x hi' lo' = x % 2 ^ lo / 2 ^ lo' % 2 ^ (hi' + 1 - lo') := by
    rw [bits_eq]
    by_cases h : lo' ≤ lo
    · have e : 2 ^ lo = 2 ^ lo' * 2 ^ (lo - lo') := by rw [← Nat.pow_add]; congr 1; omega
      rw [e, Nat.mod_mul_right_div_self, Nat.mod_mod_of_dvd _ (Nat.pow_dvd_pow 2 (by omega))]
    · have e : hi' + 1 - lo' = 0 := by omega
      simp [e, Nat.mod_one]
  rw [below, below, setBits_eq, Nat.mul_comm, Nat.mul_add_mod, Nat.mod_mod]

theorem setBits_lt (n hi lo v k : Nat) (hn : n < 2 ^ k) (h : hi < k) (l : lo ≤ hi + 1) : setBits n hi lo v < 2 ^ k := by
  have p : 0 < 2 ^ lo := Nat.two_pow_pos lo
  have q : 0 < 2 ^ (hi + 1 - lo) := Nat.two_pow_pos _
  have e : 2 ^ k = 2 ^ (k - (hi + 1)) * 2 ^ (hi + 1 - lo) * 2 ^ lo := by
    rw [← Nat.pow_add, ← Nat.pow_add]; congr 1; omega
  have c : n / 2 ^ lo / 2 ^ (hi + 1 - lo) < 2 ^ (k - (hi + 1)) := by
    rw [Nat.div_lt_iff_lt_mul q, Nat.div_lt_iff_lt_mul p, ← e]; exact hn
  have d : n / 2 ^ lo / 2 ^ (hi + 1 - lo) * 2 ^ (hi + 1 - lo) + v % 2 ^ (hi + 1 - lo)
      < 2 ^ (k - (hi + 1)) * 2 ^ (hi + 1 - lo) := by
    have := Nat.mul_le_mul_right (2 ^ (hi + 1 - lo)) c
    have := Nat.mod_lt v q
    rw [Nat.succ_mul] at *
    omega
  rw [setBits_eq, e]
  have := Nat.mul_le_mul_right (2 ^ lo) d
  have := Nat.mod_lt n p
  rw [Nat.succ_mul] at *
  omega

theorem toNat_setBits (w : Word) (hi lo v : Nat) (h : hi < 64) (l : lo ≤ hi + 1) :
    (BitVec.ofNat 64 (setBits w.toNat hi lo v)).toNat = setBits w.toNat hi lo v := by
  rw [BitVec.toNat_ofNat]
  exact Nat.mod_eq_of_lt (setBits_lt _ _ _ _ 64 w.isLt h l)

/-! ### Registers -/

@[simp] theorem State.reg_setReg_same (s : State) (k : Nat) (v : Word) : (s.setReg k v).reg k = v := by
  simp [State.reg, State.setReg]

theorem State.reg_setReg_other (s : State) (k j : Nat) (v : Word) (h : j ≠ k) : (s.setReg k v).reg j = s.reg j := by
  simp only [State.reg, State.setReg]
  exact Tab.get_set_other _ _ h _ _

theorem State.reg_setFld_same (s : State) (f : Fld) (v : Nat) :
    (s.setFld f v).reg f.off = BitVec.ofNat 64 (setBits (s.reg f.off).toNat f.hi f.lo v) := by
  simp [State.setFld]

theorem State.reg_setFld_other (s : State) (f : Fld) (v j : Nat) (h : j ≠ f.off) :
    (s.setFld f v).reg j = s.reg j := State.reg_setReg_other _ _ _ _ h

@[simp] theorem State.reg_bump_same (s : State) (k n : Nat) : (s.bump k n).reg k = s.reg k + BitVec.ofNat 64 n := by
  simp [State.bump]

theorem State.reg_bump_other (s : State) (k n j : Nat) (h : j ≠ k) : (s.bump k n).reg j = s.reg j :=
  State.reg_setReg_other _ _ _ _ h

/-- A field reads what was written to it. -/
theorem State.fld_setFld_same (s : State) (f : Fld) (v : Nat) (h : f.hi < 64) (l : f.lo ≤ f.hi + 1) :
    (s.setFld f v).fld f = v % 2 ^ (f.hi + 1 - f.lo) := by
  rw [State.fld, State.reg_setFld_same, toNat_setBits _ _ _ _ h l, bits_setBits_same]

/-- A field of another register, or one that shares no bit with the field written, reads as before. -/
theorem State.fld_setFld_other (s : State) (f g : Fld) (v : Nat) (h : f.hi < 64) (l : f.lo ≤ f.hi + 1)
    (d : g.off ≠ f.off ∨ f.hi < g.lo ∨ g.hi < f.lo) : (s.setFld f v).fld g = s.fld g := by
  by_cases e : g.off = f.off
  · rw [State.fld, e, State.reg_setFld_same, toNat_setBits _ _ _ _ h l, State.fld, e]
    obtain d | d | d := d
    · exact absurd e d
    · exact bits_setBits_above _ _ _ _ _ _ l d
    · exact bits_setBits_below _ _ _ _ _ _ d
  · rw [State.fld, State.reg_setFld_other _ _ _ _ e, State.fld]

theorem State.fld_setReg_other (s : State) (f : Fld) (k : Nat) (v : Word) (h : f.off ≠ k) :
    (s.setReg k v).fld f = s.fld f := by
  rw [State.fld, State.reg_setReg_other _ _ _ _ h, State.fld]

theorem State.fld_bump_other (s : State) (f : Fld) (k n : Nat) (h : f.off ≠ k) : (s.bump k n).fld f = s.fld f :=
  State.fld_setReg_other _ _ _ _ h

theorem State.fld_lt (s : State) (f : Fld) : s.fld f < 2 ^ (f.hi + 1 - f.lo) := by
  rw [State.fld, bits_eq]; exact Nat.mod_lt _ (Nat.two_pow_pos _)

theorem Fld.of_lt (f : Fld) (v : Nat) : f.of v < 2 ^ (f.hi + 1 - f.lo) := by
  rw [Fld.of, bits_eq]; exact Nat.mod_lt _ (Nat.two_pow_pos _)

theorem State.fldB_eq (s : State) (f : Fld) (h : f.hi = f.lo) : s.fldB f = (s.fld f == 1) := by
  have l := s.fld_lt f
  rw [h, Nat.add_sub_cancel_left, Nat.pow_one] at l
  rw [State.fldB]
  generalize s.fld f = n at l
  obtain rfl | rfl : n = 0 ∨ n = 1 := by omega
  · rfl
  · rfl

theorem State.fldB_setFld_true (s : State) (f : Fld) (h : f.hi < 64) (l : f.lo ≤ f.hi) :
    (s.setFld f 1).fldB f = true := by
  have p : 1 < 2 ^ (f.hi + 1 - f.lo) := Nat.one_lt_two_pow (by omega)
  simp [State.fldB, State.fld_setFld_same _ _ _ h (by omega), Nat.mod_eq_of_lt p]

/-! ### Interrupt sources and status fields -/

theorem State.reg_congr {s t : State} (h : s.regs = t.regs) (k : Nat) : s.reg k = t.reg k := by
  rw [State.reg, State.reg, h]

theorem State.fld_congr {s t : State} (h : s.regs = t.regs) (f : Fld) : s.fld f = t.fld f := by
  rw [State.fld, State.fld, State.reg_congr h]

theorem State.deliver_regs' (s : State) (n : Nat) : (s.deliver n).regs = s.regs := by
  unfold State.deliver; dsimp only
  split
  · rfl
  · split
    · unfold State.msixSend
      split
      · split <;> rfl
      · rfl
    · rfl

/-- Raising a source writes no register but the source's route. -/
theorem State.reg_raiseIrq_other (s : State) (n k : Nat) (h : k ≠ Reg.hubIrqRoute n) : (s.raiseIrq n).reg k = s.reg k := by
  unfold State.raiseIrq
  split
  · rfl
  · rw [State.reg_congr (State.deliver_regs' _ _), State.reg_setFld_other _ _ _ _ h]

theorem State.fld_raiseIrq_other (s : State) (n : Nat) (f : Fld) (h : f.off ≠ Reg.hubIrqRoute n) :
    (s.raiseIrq n).fld f = s.fld f := by
  rw [State.fld, State.reg_raiseIrq_other _ _ _ h, State.fld]

/-- A record writes no register but the counters of its severity and of coalescing. -/
theorem State.reg_emit_other (s : State) (sev kind : Nat) (at_ : Site) (op synd k : Nat) (h : k ≠ Reg.chkCnt sev)
    (h5 : k ≠ Reg.chkCnt 5) : (s.emit sev kind at_ op synd).reg k = s.reg k := by
  unfold State.emit
  dsimp only
  split
  · split
    · exact State.reg_bump_other _ _ _ _ h5
    · rfl
  · unfold State.sendRecord State.pushRecord
    split
    · exact State.reg_bump_other _ _ _ _ h
    · split <;> rfl

theorem State.fld_emit_other (s : State) (sev kind : Nat) (at_ : Site) (op synd : Nat) (f : Fld)
    (h : f.off ≠ Reg.chkCnt sev) (h5 : f.off ≠ Reg.chkCnt 5) : (s.emit sev kind at_ op synd).fld f = s.fld f := by
  rw [State.fld, State.reg_emit_other _ _ _ _ _ _ _ h h5, State.fld]

/-- A source that has been raised is pending. -/
theorem State.raiseIrq_sets (s : State) (n : Nat) : (s.raiseIrq n).fldB (Reg.hubIrqRoutePending n) = true := by
  unfold State.raiseIrq
  split
  · assumption
  · rw [State.fldB, State.fld_congr (State.deliver_regs' _ _)]
    exact State.fldB_setFld_true _ _ (by simp [Reg.hubIrqRoutePending]) (Nat.le_refl _)

theorem State.reg_setFldIrq_other (s : State) (n : Nat) (f : Fld) (v k : Nat) (h : k ≠ f.off)
    (e : k ≠ Reg.hubIrqRoute n) : (s.setFldIrq n f v).reg k = s.reg k := by
  unfold State.setFldIrq
  dsimp only
  split
  · exact State.reg_setFld_other _ _ _ _ h
  · rw [State.reg_raiseIrq_other _ _ _ e, State.reg_setFld_other _ _ _ _ h]

theorem State.fld_setFldIrq_same (s : State) (n : Nat) (f : Fld) (v : Nat) (h : f.hi < 64) (l : f.lo ≤ f.hi + 1)
    (d : f.off ≠ Reg.hubIrqRoute n) : (s.setFldIrq n f v).fld f = v % 2 ^ (f.hi + 1 - f.lo) := by
  unfold State.setFldIrq
  dsimp only
  split
  · exact State.fld_setFld_same _ _ _ h l
  · rw [State.fld_raiseIrq_other _ _ _ d, State.fld_setFld_same _ _ _ h l]

theorem State.fld_setFldIrq_other (s : State) (n : Nat) (f g : Fld) (v : Nat) (h : f.hi < 64) (l : f.lo ≤ f.hi + 1)
    (d : g.off ≠ f.off ∨ f.hi < g.lo ∨ g.hi < f.lo) (e : g.off ≠ Reg.hubIrqRoute n) :
    (s.setFldIrq n f v).fld g = s.fld g := by
  unfold State.setFldIrq
  dsimp only
  split
  · exact State.fld_setFld_other _ _ _ _ h l d
  · rw [State.fld_raiseIrq_other _ _ _ e, State.fld_setFld_other _ _ _ _ h l d]

end Sys2Proof.Machine
end

