-- ==== Sys2Proof/Laws/State.lean ====
section
/-! SUPPORT. The fields that each basic operation leaves as they were, one law per operation and field. -/

namespace Sys2Proof.Machine

@[simp] theorem State.free_pending (s : State) : (s.free).2.pending = s.pending := rfl
@[simp] theorem State.free_regs (s : State) : (s.free).2.regs = s.regs := rfl
@[simp] theorem State.free_shadow (s : State) : (s.free).2.shadow = s.shadow := rfl
@[simp] theorem State.free_response (s : State) : (s.free).2.response = s.response := rfl
@[simp] theorem State.free_mem (s : State) : (s.free).2.mem = s.mem := rfl
@[simp] theorem State.free_pkg (s : State) : (s.free).2.pkg = s.pkg := rfl
@[simp] theorem State.free_links (s : State) : (s.free).2.links = s.links := rfl
@[simp] theorem State.free_crossings (s : State) : (s.free).2.crossings = s.crossings := rfl
@[simp] theorem State.free_cfg (s : State) : (s.free).2.cfg = s.cfg := rfl
@[simp] theorem State.free_flt (s : State) : (s.free).2.flt = s.flt := rfl
@[simp] theorem State.free_chk (s : State) : (s.free).2.chk = s.chk := rfl
@[simp] theorem State.free_mm (s : State) : (s.free).2.mm = s.mm := rfl
@[simp] theorem State.free_hub (s : State) : (s.free).2.hub = s.hub := rfl
@[simp] theorem State.free_fleet (s : State) : (s.free).2.fleet = s.fleet := rfl
@[simp] theorem State.free_clock (s : State) : (s.free).2.clock = s.clock := rfl
@[simp] theorem State.free_dense (s : State) : (s.free).2.dense = s.dense := rfl
@[simp] theorem State.free_emb (s : State) : (s.free).2.emb = s.emb := rfl
@[simp] theorem State.free_wire (s : State) : (s.free).2.wire = s.wire := rfl
@[simp] theorem State.free_sec (s : State) : (s.free).2.sec = s.sec := rfl
@[simp] theorem State.free_det (s : State) : (s.free).2.det = s.det := rfl
@[simp] theorem State.free_time (s : State) : (s.free).2.time = s.time := rfl
@[simp] theorem State.free_pwr (s : State) : (s.free).2.pwr = s.pwr := rfl
@[simp] theorem State.free_mtr (s : State) : (s.free).2.mtr = s.mtr := rfl
@[simp] theorem State.tickFree_pending (s : State) : s.tickFree.pending = s.pending :=
  (State.tickFree_same (m := fun p => p == .pending) (.refl s) rfl).pending rfl
@[simp] theorem State.tickFree_regs (s : State) : s.tickFree.regs = s.regs :=
  (State.tickFree_same (m := fun p => p == .regs) (.refl s) rfl).regs rfl
@[simp] theorem State.tickFree_shadow (s : State) : s.tickFree.shadow = s.shadow :=
  (State.tickFree_same (m := fun p => p == .shadow) (.refl s) rfl).shadow rfl
@[simp] theorem State.tickFree_response (s : State) : s.tickFree.response = s.response :=
  (State.tickFree_same (m := fun p => p == .response) (.refl s) rfl).response rfl
@[simp] theorem State.tickFree_mem (s : State) : s.tickFree.mem = s.mem :=
  (State.tickFree_same (m := fun p => p == .mem) (.refl s) rfl).mem rfl
@[simp] theorem State.tickFree_pkg (s : State) : s.tickFree.pkg = s.pkg :=
  (State.tickFree_same (m := fun p => p == .pkg) (.refl s) rfl).pkg rfl
@[simp] theorem State.tickFree_links (s : State) : s.tickFree.links = s.links :=
  (State.tickFree_same (m := fun p => p == .links) (.refl s) rfl).links rfl
@[simp] theorem State.tickFree_crossings (s : State) : s.tickFree.crossings = s.crossings :=
  (State.tickFree_same (m := fun p => p == .crossings) (.refl s) rfl).crossings rfl
@[simp] theorem State.tickFree_cfg (s : State) : s.tickFree.cfg = s.cfg :=
  (State.tickFree_same (m := fun p => p == .cfg) (.refl s) rfl).cfg rfl
@[simp] theorem State.tickFree_flt (s : State) : s.tickFree.flt = s.flt :=
  (State.tickFree_same (m := fun p => p == .flt) (.refl s) rfl).flt rfl
@[simp] theorem State.tickFree_chk (s : State) : s.tickFree.chk = s.chk :=
  (State.tickFree_same (m := fun p => p == .chk) (.refl s) rfl).chk rfl
@[simp] theorem State.tickFree_mm (s : State) : s.tickFree.mm = s.mm :=
  (State.tickFree_same (m := fun p => p == .mm) (.refl s) rfl).mm rfl
@[simp] theorem State.tickFree_hub (s : State) : s.tickFree.hub = s.hub :=
  (State.tickFree_same (m := fun p => p == .hub) (.refl s) rfl).hub rfl
@[simp] theorem State.tickFree_fleet (s : State) : s.tickFree.fleet = s.fleet :=
  (State.tickFree_same (m := fun p => p == .fleet) (.refl s) rfl).fleet rfl
@[simp] theorem State.tickFree_clock (s : State) : s.tickFree.clock = s.clock :=
  (State.tickFree_same (m := fun p => p == .clock) (.refl s) rfl).clock rfl
@[simp] theorem State.tickFree_dense (s : State) : s.tickFree.dense = s.dense :=
  (State.tickFree_same (m := fun p => p == .dense) (.refl s) rfl).dense rfl
@[simp] theorem State.tickFree_emb (s : State) : s.tickFree.emb = s.emb :=
  (State.tickFree_same (m := fun p => p == .emb) (.refl s) rfl).emb rfl
@[simp] theorem State.tickFree_wire (s : State) : s.tickFree.wire = s.wire :=
  (State.tickFree_same (m := fun p => p == .wire) (.refl s) rfl).wire rfl
@[simp] theorem State.tickFree_sec (s : State) : s.tickFree.sec = s.sec :=
  (State.tickFree_same (m := fun p => p == .sec) (.refl s) rfl).sec rfl
@[simp] theorem State.tickFree_det (s : State) : s.tickFree.det = s.det :=
  (State.tickFree_same (m := fun p => p == .det) (.refl s) rfl).det rfl
@[simp] theorem State.tickFree_time (s : State) : s.tickFree.time = s.time :=
  (State.tickFree_same (m := fun p => p == .time) (.refl s) rfl).time rfl
@[simp] theorem State.tickFree_pwr (s : State) : s.tickFree.pwr = s.pwr :=
  (State.tickFree_same (m := fun p => p == .pwr) (.refl s) rfl).pwr rfl
@[simp] theorem State.tickFree_mtr (s : State) : s.tickFree.mtr = s.mtr :=
  (State.tickFree_same (m := fun p => p == .mtr) (.refl s) rfl).mtr rfl
@[simp] theorem State.setReg_pending (s : State) (off : Nat) (v : Word) : (s.setReg off v).pending = s.pending := rfl
@[simp] theorem State.setReg_fresh (s : State) (off : Nat) (v : Word) : (s.setReg off v).fresh = s.fresh := rfl
@[simp] theorem State.setReg_shadow (s : State) (off : Nat) (v : Word) : (s.setReg off v).shadow = s.shadow := rfl
@[simp] theorem State.setReg_response (s : State) (off : Nat) (v : Word) :
    (s.setReg off v).response = s.response := rfl
@[simp] theorem State.setReg_mem (s : State) (off : Nat) (v : Word) : (s.setReg off v).mem = s.mem := rfl
@[simp] theorem State.setReg_pkg (s : State) (off : Nat) (v : Word) : (s.setReg off v).pkg = s.pkg := rfl
@[simp] theorem State.setReg_links (s : State) (off : Nat) (v : Word) : (s.setReg off v).links = s.links := rfl
@[simp] theorem State.setReg_crossings (s : State) (off : Nat) (v : Word) :
    (s.setReg off v).crossings = s.crossings := rfl
@[simp] theorem State.setReg_cfg (s : State) (off : Nat) (v : Word) : (s.setReg off v).cfg = s.cfg := rfl
@[simp] theorem State.setReg_flt (s : State) (off : Nat) (v : Word) : (s.setReg off v).flt = s.flt := rfl
@[simp] theorem State.setReg_chk (s : State) (off : Nat) (v : Word) : (s.setReg off v).chk = s.chk := rfl
@[simp] theorem State.setReg_mm (s : State) (off : Nat) (v : Word) : (s.setReg off v).mm = s.mm := rfl
@[simp] theorem State.setReg_hub (s : State) (off : Nat) (v : Word) : (s.setReg off v).hub = s.hub := rfl
@[simp] theorem State.setReg_fleet (s : State) (off : Nat) (v : Word) : (s.setReg off v).fleet = s.fleet := rfl
@[simp] theorem State.setReg_clock (s : State) (off : Nat) (v : Word) : (s.setReg off v).clock = s.clock := rfl
@[simp] theorem State.setReg_dense (s : State) (off : Nat) (v : Word) : (s.setReg off v).dense = s.dense := rfl
@[simp] theorem State.setReg_emb (s : State) (off : Nat) (v : Word) : (s.setReg off v).emb = s.emb := rfl
@[simp] theorem State.setReg_wire (s : State) (off : Nat) (v : Word) : (s.setReg off v).wire = s.wire := rfl
@[simp] theorem State.setReg_sec (s : State) (off : Nat) (v : Word) : (s.setReg off v).sec = s.sec := rfl
@[simp] theorem State.setReg_det (s : State) (off : Nat) (v : Word) : (s.setReg off v).det = s.det := rfl
@[simp] theorem State.setReg_time (s : State) (off : Nat) (v : Word) : (s.setReg off v).time = s.time := rfl
@[simp] theorem State.setReg_pwr (s : State) (off : Nat) (v : Word) : (s.setReg off v).pwr = s.pwr := rfl
@[simp] theorem State.setReg_mtr (s : State) (off : Nat) (v : Word) : (s.setReg off v).mtr = s.mtr := rfl
@[simp] theorem State.setShadow_pending (s : State) (off : Nat) (v : Word) :
    (s.setShadow off v).pending = s.pending := rfl
@[simp] theorem State.setShadow_fresh (s : State) (off : Nat) (v : Word) : (s.setShadow off v).fresh = s.fresh := rfl
@[simp] theorem State.setShadow_regs (s : State) (off : Nat) (v : Word) : (s.setShadow off v).regs = s.regs := rfl
@[simp] theorem State.setShadow_response (s : State) (off : Nat) (v : Word) :
    (s.setShadow off v).response = s.response := rfl
@[simp] theorem State.setShadow_mem (s : State) (off : Nat) (v : Word) : (s.setShadow off v).mem = s.mem := rfl
@[simp] theorem State.setShadow_pkg (s : State) (off : Nat) (v : Word) : (s.setShadow off v).pkg = s.pkg := rfl
@[simp] theorem State.setShadow_links (s : State) (off : Nat) (v : Word) : (s.setShadow off v).links = s.links := rfl
@[simp] theorem State.setShadow_crossings (s : State) (off : Nat) (v : Word) :
    (s.setShadow off v).crossings = s.crossings := rfl
@[simp] theorem State.setShadow_cfg (s : State) (off : Nat) (v : Word) : (s.setShadow off v).cfg = s.cfg := rfl
@[simp] theorem State.setShadow_flt (s : State) (off : Nat) (v : Word) : (s.setShadow off v).flt = s.flt := rfl
@[simp] theorem State.setShadow_chk (s : State) (off : Nat) (v : Word) : (s.setShadow off v).chk = s.chk := rfl
@[simp] theorem State.setShadow_mm (s : State) (off : Nat) (v : Word) : (s.setShadow off v).mm = s.mm := rfl
@[simp] theorem State.setShadow_hub (s : State) (off : Nat) (v : Word) : (s.setShadow off v).hub = s.hub := rfl
@[simp] theorem State.setShadow_fleet (s : State) (off : Nat) (v : Word) : (s.setShadow off v).fleet = s.fleet := rfl
@[simp] theorem State.setShadow_clock (s : State) (off : Nat) (v : Word) : (s.setShadow off v).clock = s.clock := rfl
@[simp] theorem State.setShadow_dense (s : State) (off : Nat) (v : Word) : (s.setShadow off v).dense = s.dense := rfl
@[simp] theorem State.setShadow_emb (s : State) (off : Nat) (v : Word) : (s.setShadow off v).emb = s.emb := rfl
@[simp] theorem State.setShadow_wire (s : State) (off : Nat) (v : Word) : (s.setShadow off v).wire = s.wire := rfl
@[simp] theorem State.setShadow_sec (s : State) (off : Nat) (v : Word) : (s.setShadow off v).sec = s.sec := rfl
@[simp] theorem State.setShadow_det (s : State) (off : Nat) (v : Word) : (s.setShadow off v).det = s.det := rfl
@[simp] theorem State.setShadow_time (s : State) (off : Nat) (v : Word) : (s.setShadow off v).time = s.time := rfl
@[simp] theorem State.setShadow_pwr (s : State) (off : Nat) (v : Word) : (s.setShadow off v).pwr = s.pwr := rfl
@[simp] theorem State.setShadow_mtr (s : State) (off : Nat) (v : Word) : (s.setShadow off v).mtr = s.mtr := rfl
@[simp] theorem State.setFld_pending (s : State) (f : Fld) (v : Nat) : (s.setFld f v).pending = s.pending := rfl
@[simp] theorem State.setFld_fresh (s : State) (f : Fld) (v : Nat) : (s.setFld f v).fresh = s.fresh := rfl
@[simp] theorem State.setFld_shadow (s : State) (f : Fld) (v : Nat) : (s.setFld f v).shadow = s.shadow := rfl
@[simp] theorem State.setFld_response (s : State) (f : Fld) (v : Nat) : (s.setFld f v).response = s.response := rfl
@[simp] theorem State.setFld_mem (s : State) (f : Fld) (v : Nat) : (s.setFld f v).mem = s.mem := rfl
@[simp] theorem State.setFld_pkg (s : State) (f : Fld) (v : Nat) : (s.setFld f v).pkg = s.pkg := rfl
@[simp] theorem State.setFld_links (s : State) (f : Fld) (v : Nat) : (s.setFld f v).links = s.links := rfl
@[simp] theorem State.setFld_crossings (s : State) (f : Fld) (v : Nat) : (s.setFld f v).crossings = s.crossings := rfl
@[simp] theorem State.setFld_cfg (s : State) (f : Fld) (v : Nat) : (s.setFld f v).cfg = s.cfg := rfl
@[simp] theorem State.setFld_flt (s : State) (f : Fld) (v : Nat) : (s.setFld f v).flt = s.flt := rfl
@[simp] theorem State.setFld_chk (s : State) (f : Fld) (v : Nat) : (s.setFld f v).chk = s.chk := rfl
@[simp] theorem State.setFld_mm (s : State) (f : Fld) (v : Nat) : (s.setFld f v).mm = s.mm := rfl
@[simp] theorem State.setFld_hub (s : State) (f : Fld) (v : Nat) : (s.setFld f v).hub = s.hub := rfl
@[simp] theorem State.setFld_fleet (s : State) (f : Fld) (v : Nat) : (s.setFld f v).fleet = s.fleet := rfl
@[simp] theorem State.setFld_clock (s : State) (f : Fld) (v : Nat) : (s.setFld f v).clock = s.clock := rfl
@[simp] theorem State.setFld_dense (s : State) (f : Fld) (v : Nat) : (s.setFld f v).dense = s.dense := rfl
@[simp] theorem State.setFld_emb (s : State) (f : Fld) (v : Nat) : (s.setFld f v).emb = s.emb := rfl
@[simp] theorem State.setFld_wire (s : State) (f : Fld) (v : Nat) : (s.setFld f v).wire = s.wire := rfl
@[simp] theorem State.setFld_sec (s : State) (f : Fld) (v : Nat) : (s.setFld f v).sec = s.sec := rfl
@[simp] theorem State.setFld_det (s : State) (f : Fld) (v : Nat) : (s.setFld f v).det = s.det := rfl
@[simp] theorem State.setFld_time (s : State) (f : Fld) (v : Nat) : (s.setFld f v).time = s.time := rfl
@[simp] theorem State.setFld_pwr (s : State) (f : Fld) (v : Nat) : (s.setFld f v).pwr = s.pwr := rfl
@[simp] theorem State.setFld_mtr (s : State) (f : Fld) (v : Nat) : (s.setFld f v).mtr = s.mtr := rfl
@[simp] theorem State.bump_pending (s : State) (off : Nat) (n : Nat) : (s.bump off n).pending = s.pending := rfl
@[simp] theorem State.bump_fresh (s : State) (off : Nat) (n : Nat) : (s.bump off n).fresh = s.fresh := rfl
@[simp] theorem State.bump_shadow (s : State) (off : Nat) (n : Nat) : (s.bump off n).shadow = s.shadow := rfl
@[simp] theorem State.bump_response (s : State) (off : Nat) (n : Nat) : (s.bump off n).response = s.response := rfl
@[simp] theorem State.bump_mem (s : State) (off : Nat) (n : Nat) : (s.bump off n).mem = s.mem := rfl
@[simp] theorem State.bump_pkg (s : State) (off : Nat) (n : Nat) : (s.bump off n).pkg = s.pkg := rfl
@[simp] theorem State.bump_links (s : State) (off : Nat) (n : Nat) : (s.bump off n).links = s.links := rfl
@[simp] theorem State.bump_crossings (s : State) (off : Nat) (n : Nat) : (s.bump off n).crossings = s.crossings := rfl
@[simp] theorem State.bump_cfg (s : State) (off : Nat) (n : Nat) : (s.bump off n).cfg = s.cfg := rfl
@[simp] theorem State.bump_flt (s : State) (off : Nat) (n : Nat) : (s.bump off n).flt = s.flt := rfl
@[simp] theorem State.bump_chk (s : State) (off : Nat) (n : Nat) : (s.bump off n).chk = s.chk := rfl
@[simp] theorem State.bump_mm (s : State) (off : Nat) (n : Nat) : (s.bump off n).mm = s.mm := rfl
@[simp] theorem State.bump_hub (s : State) (off : Nat) (n : Nat) : (s.bump off n).hub = s.hub := rfl
@[simp] theorem State.bump_fleet (s : State) (off : Nat) (n : Nat) : (s.bump off n).fleet = s.fleet := rfl
@[simp] theorem State.bump_clock (s : State) (off : Nat) (n : Nat) : (s.bump off n).clock = s.clock := rfl
@[simp] theorem State.bump_dense (s : State) (off : Nat) (n : Nat) : (s.bump off n).dense = s.dense := rfl
@[simp] theorem State.bump_emb (s : State) (off : Nat) (n : Nat) : (s.bump off n).emb = s.emb := rfl
@[simp] theorem State.bump_wire (s : State) (off : Nat) (n : Nat) : (s.bump off n).wire = s.wire := rfl
@[simp] theorem State.bump_sec (s : State) (off : Nat) (n : Nat) : (s.bump off n).sec = s.sec := rfl
@[simp] theorem State.bump_det (s : State) (off : Nat) (n : Nat) : (s.bump off n).det = s.det := rfl
@[simp] theorem State.bump_time (s : State) (off : Nat) (n : Nat) : (s.bump off n).time = s.time := rfl
@[simp] theorem State.bump_pwr (s : State) (off : Nat) (n : Nat) : (s.bump off n).pwr = s.pwr := rfl
@[simp] theorem State.bump_mtr (s : State) (off : Nat) (n : Nat) : (s.bump off n).mtr = s.mtr := rfl
@[simp] theorem State.setLineMeta_pending (s : State) (line : Nat) (v : Nat) :
    (s.setLineMeta line v).pending = s.pending := rfl
@[simp] theorem State.setLineMeta_fresh (s : State) (line : Nat) (v : Nat) :
    (s.setLineMeta line v).fresh = s.fresh := rfl
@[simp] theorem State.setLineMeta_regs (s : State) (line : Nat) (v : Nat) :
    (s.setLineMeta line v).regs = s.regs := rfl
@[simp] theorem State.setLineMeta_shadow (s : State) (line : Nat) (v : Nat) :
    (s.setLineMeta line v).shadow = s.shadow := rfl
@[simp] theorem State.setLineMeta_response (s : State) (line : Nat) (v : Nat) :
    (s.setLineMeta line v).response = s.response := rfl
@[simp] theorem State.setLineMeta_mem (s : State) (line : Nat) (v : Nat) : (s.setLineMeta line v).mem = s.mem := rfl
@[simp] theorem State.setLineMeta_pkg (s : State) (line : Nat) (v : Nat) : (s.setLineMeta line v).pkg = s.pkg := rfl
@[simp] theorem State.setLineMeta_links (s : State) (line : Nat) (v : Nat) :
    (s.setLineMeta line v).links = s.links := rfl
@[simp] theorem State.setLineMeta_crossings (s : State) (line : Nat) (v : Nat) :
    (s.setLineMeta line v).crossings = s.crossings := rfl
@[simp] theorem State.setLineMeta_cfg (s : State) (line : Nat) (v : Nat) : (s.setLineMeta line v).cfg = s.cfg := rfl
@[simp] theorem State.setLineMeta_flt (s : State) (line : Nat) (v : Nat) : (s.setLineMeta line v).flt = s.flt := rfl
@[simp] theorem State.setLineMeta_chk (s : State) (line : Nat) (v : Nat) : (s.setLineMeta line v).chk = s.chk := rfl
@[simp] theorem State.setLineMeta_hub (s : State) (line : Nat) (v : Nat) : (s.setLineMeta line v).hub = s.hub := rfl
@[simp] theorem State.setLineMeta_fleet (s : State) (line : Nat) (v : Nat) :
    (s.setLineMeta line v).fleet = s.fleet := rfl
@[simp] theorem State.setLineMeta_clock (s : State) (line : Nat) (v : Nat) :
    (s.setLineMeta line v).clock = s.clock := rfl
@[simp] theorem State.setLineMeta_dense (s : State) (line : Nat) (v : Nat) :
    (s.setLineMeta line v).dense = s.dense := rfl
@[simp] theorem State.setLineMeta_emb (s : State) (line : Nat) (v : Nat) : (s.setLineMeta line v).emb = s.emb := rfl
@[simp] theorem State.setLineMeta_wire (s : State) (line : Nat) (v : Nat) :
    (s.setLineMeta line v).wire = s.wire := rfl
@[simp] theorem State.setLineMeta_sec (s : State) (line : Nat) (v : Nat) : (s.setLineMeta line v).sec = s.sec := rfl
@[simp] theorem State.setLineMeta_det (s : State) (line : Nat) (v : Nat) : (s.setLineMeta line v).det = s.det := rfl
@[simp] theorem State.setLineMeta_time (s : State) (line : Nat) (v : Nat) :
    (s.setLineMeta line v).time = s.time := rfl
@[simp] theorem State.setLineMeta_pwr (s : State) (line : Nat) (v : Nat) : (s.setLineMeta line v).pwr = s.pwr := rfl
@[simp] theorem State.setLineMeta_mtr (s : State) (line : Nat) (v : Nat) : (s.setLineMeta line v).mtr = s.mtr := rfl
@[simp] theorem State.poisonAt_pending (s : State) (a : Nat) : (s.poisonAt a).pending = s.pending :=
  (State.poisonAt_same (m := fun p => p == .pending) (.refl s) a rfl).pending rfl
@[simp] theorem State.poisonAt_fresh (s : State) (a : Nat) : (s.poisonAt a).fresh = s.fresh :=
  (State.poisonAt_same (m := fun p => p == .fresh) (.refl s) a rfl).fresh rfl
@[simp] theorem State.poisonAt_regs (s : State) (a : Nat) : (s.poisonAt a).regs = s.regs :=
  (State.poisonAt_same (m := fun p => p == .regs) (.refl s) a rfl).regs rfl
@[simp] theorem State.poisonAt_shadow (s : State) (a : Nat) : (s.poisonAt a).shadow = s.shadow :=
  (State.poisonAt_same (m := fun p => p == .shadow) (.refl s) a rfl).shadow rfl
@[simp] theorem State.poisonAt_response (s : State) (a : Nat) : (s.poisonAt a).response = s.response :=
  (State.poisonAt_same (m := fun p => p == .response) (.refl s) a rfl).response rfl
@[simp] theorem State.poisonAt_mem (s : State) (a : Nat) : (s.poisonAt a).mem = s.mem :=
  (State.poisonAt_same (m := fun p => p == .mem) (.refl s) a rfl).mem rfl
@[simp] theorem State.poisonAt_pkg (s : State) (a : Nat) : (s.poisonAt a).pkg = s.pkg :=
  (State.poisonAt_same (m := fun p => p == .pkg) (.refl s) a rfl).pkg rfl
@[simp] theorem State.poisonAt_links (s : State) (a : Nat) : (s.poisonAt a).links = s.links :=
  (State.poisonAt_same (m := fun p => p == .links) (.refl s) a rfl).links rfl
@[simp] theorem State.poisonAt_crossings (s : State) (a : Nat) : (s.poisonAt a).crossings = s.crossings :=
  (State.poisonAt_same (m := fun p => p == .crossings) (.refl s) a rfl).crossings rfl
@[simp] theorem State.poisonAt_cfg (s : State) (a : Nat) : (s.poisonAt a).cfg = s.cfg :=
  (State.poisonAt_same (m := fun p => p == .cfg) (.refl s) a rfl).cfg rfl
@[simp] theorem State.poisonAt_flt (s : State) (a : Nat) : (s.poisonAt a).flt = s.flt :=
  (State.poisonAt_same (m := fun p => p == .flt) (.refl s) a rfl).flt rfl
@[simp] theorem State.poisonAt_chk (s : State) (a : Nat) : (s.poisonAt a).chk = s.chk :=
  (State.poisonAt_same (m := fun p => p == .chk) (.refl s) a rfl).chk rfl
@[simp] theorem State.poisonAt_hub (s : State) (a : Nat) : (s.poisonAt a).hub = s.hub :=
  (State.poisonAt_same (m := fun p => p == .hub) (.refl s) a rfl).hub rfl
@[simp] theorem State.poisonAt_fleet (s : State) (a : Nat) : (s.poisonAt a).fleet = s.fleet :=
  (State.poisonAt_same (m := fun p => p == .fleet) (.refl s) a rfl).fleet rfl
@[simp] theorem State.poisonAt_clock (s : State) (a : Nat) : (s.poisonAt a).clock = s.clock :=
  (State.poisonAt_same (m := fun p => p == .clock) (.refl s) a rfl).clock rfl
@[simp] theorem State.poisonAt_dense (s : State) (a : Nat) : (s.poisonAt a).dense = s.dense :=
  (State.poisonAt_same (m := fun p => p == .dense) (.refl s) a rfl).dense rfl
@[simp] theorem State.poisonAt_emb (s : State) (a : Nat) : (s.poisonAt a).emb = s.emb :=
  (State.poisonAt_same (m := fun p => p == .emb) (.refl s) a rfl).emb rfl
@[simp] theorem State.poisonAt_wire (s : State) (a : Nat) : (s.poisonAt a).wire = s.wire :=
  (State.poisonAt_same (m := fun p => p == .wire) (.refl s) a rfl).wire rfl
@[simp] theorem State.poisonAt_sec (s : State) (a : Nat) : (s.poisonAt a).sec = s.sec :=
  (State.poisonAt_same (m := fun p => p == .sec) (.refl s) a rfl).sec rfl
@[simp] theorem State.poisonAt_det (s : State) (a : Nat) : (s.poisonAt a).det = s.det :=
  (State.poisonAt_same (m := fun p => p == .det) (.refl s) a rfl).det rfl
@[simp] theorem State.poisonAt_time (s : State) (a : Nat) : (s.poisonAt a).time = s.time :=
  (State.poisonAt_same (m := fun p => p == .time) (.refl s) a rfl).time rfl
@[simp] theorem State.poisonAt_pwr (s : State) (a : Nat) : (s.poisonAt a).pwr = s.pwr :=
  (State.poisonAt_same (m := fun p => p == .pwr) (.refl s) a rfl).pwr rfl
@[simp] theorem State.poisonAt_mtr (s : State) (a : Nat) : (s.poisonAt a).mtr = s.mtr :=
  (State.poisonAt_same (m := fun p => p == .mtr) (.refl s) a rfl).mtr rfl
@[simp] theorem State.clearPoison_pending (s : State) (a : Nat) (n : Nat) :
    (s.clearPoison a n).pending = s.pending := rfl
@[simp] theorem State.clearPoison_fresh (s : State) (a : Nat) (n : Nat) : (s.clearPoison a n).fresh = s.fresh := rfl
@[simp] theorem State.clearPoison_regs (s : State) (a : Nat) (n : Nat) : (s.clearPoison a n).regs = s.regs := rfl
@[simp] theorem State.clearPoison_shadow (s : State) (a : Nat) (n : Nat) :
    (s.clearPoison a n).shadow = s.shadow := rfl
@[simp] theorem State.clearPoison_response (s : State) (a : Nat) (n : Nat) :
    (s.clearPoison a n).response = s.response := rfl
@[simp] theorem State.clearPoison_mem (s : State) (a : Nat) (n : Nat) : (s.clearPoison a n).mem = s.mem := rfl
@[simp] theorem State.clearPoison_pkg (s : State) (a : Nat) (n : Nat) : (s.clearPoison a n).pkg = s.pkg := rfl
@[simp] theorem State.clearPoison_links (s : State) (a : Nat) (n : Nat) : (s.clearPoison a n).links = s.links := rfl
@[simp] theorem State.clearPoison_crossings (s : State) (a : Nat) (n : Nat) :
    (s.clearPoison a n).crossings = s.crossings := rfl
@[simp] theorem State.clearPoison_cfg (s : State) (a : Nat) (n : Nat) : (s.clearPoison a n).cfg = s.cfg := rfl
@[simp] theorem State.clearPoison_flt (s : State) (a : Nat) (n : Nat) : (s.clearPoison a n).flt = s.flt := rfl
@[simp] theorem State.clearPoison_chk (s : State) (a : Nat) (n : Nat) : (s.clearPoison a n).chk = s.chk := rfl
@[simp] theorem State.clearPoison_hub (s : State) (a : Nat) (n : Nat) : (s.clearPoison a n).hub = s.hub := rfl
@[simp] theorem State.clearPoison_fleet (s : State) (a : Nat) (n : Nat) : (s.clearPoison a n).fleet = s.fleet := rfl
@[simp] theorem State.clearPoison_clock (s : State) (a : Nat) (n : Nat) : (s.clearPoison a n).clock = s.clock := rfl
@[simp] theorem State.clearPoison_dense (s : State) (a : Nat) (n : Nat) : (s.clearPoison a n).dense = s.dense := rfl
@[simp] theorem State.clearPoison_emb (s : State) (a : Nat) (n : Nat) : (s.clearPoison a n).emb = s.emb := rfl
@[simp] theorem State.clearPoison_wire (s : State) (a : Nat) (n : Nat) : (s.clearPoison a n).wire = s.wire := rfl
@[simp] theorem State.clearPoison_sec (s : State) (a : Nat) (n : Nat) : (s.clearPoison a n).sec = s.sec := rfl
@[simp] theorem State.clearPoison_det (s : State) (a : Nat) (n : Nat) : (s.clearPoison a n).det = s.det := rfl
@[simp] theorem State.clearPoison_time (s : State) (a : Nat) (n : Nat) : (s.clearPoison a n).time = s.time := rfl
@[simp] theorem State.clearPoison_pwr (s : State) (a : Nat) (n : Nat) : (s.clearPoison a n).pwr = s.pwr := rfl
@[simp] theorem State.clearPoison_mtr (s : State) (a : Nat) (n : Nat) : (s.clearPoison a n).mtr = s.mtr := rfl
@[simp] theorem State.write_pending (s : State) (a : Nat) (bs : List Byte) : (s.write a bs).pending = s.pending := rfl
@[simp] theorem State.write_fresh (s : State) (a : Nat) (bs : List Byte) : (s.write a bs).fresh = s.fresh := rfl
@[simp] theorem State.write_regs (s : State) (a : Nat) (bs : List Byte) : (s.write a bs).regs = s.regs := rfl
@[simp] theorem State.write_shadow (s : State) (a : Nat) (bs : List Byte) : (s.write a bs).shadow = s.shadow := rfl
@[simp] theorem State.write_response (s : State) (a : Nat) (bs : List Byte) :
    (s.write a bs).response = s.response := rfl
@[simp] theorem State.write_pkg (s : State) (a : Nat) (bs : List Byte) : (s.write a bs).pkg = s.pkg := rfl
@[simp] theorem State.write_links (s : State) (a : Nat) (bs : List Byte) : (s.write a bs).links = s.links := rfl
@[simp] theorem State.write_crossings (s : State) (a : Nat) (bs : List Byte) :
    (s.write a bs).crossings = s.crossings := rfl
@[simp] theorem State.write_cfg (s : State) (a : Nat) (bs : List Byte) : (s.write a bs).cfg = s.cfg := rfl
@[simp] theorem State.write_flt (s : State) (a : Nat) (bs : List Byte) : (s.write a bs).flt = s.flt := rfl
@[simp] theorem State.write_chk (s : State) (a : Nat) (bs : List Byte) : (s.write a bs).chk = s.chk := rfl
@[simp] theorem State.write_hub (s : State) (a : Nat) (bs : List Byte) : (s.write a bs).hub = s.hub := rfl
@[simp] theorem State.write_fleet (s : State) (a : Nat) (bs : List Byte) : (s.write a bs).fleet = s.fleet := rfl
@[simp] theorem State.write_clock (s : State) (a : Nat) (bs : List Byte) : (s.write a bs).clock = s.clock := rfl
@[simp] theorem State.write_dense (s : State) (a : Nat) (bs : List Byte) : (s.write a bs).dense = s.dense := rfl
@[simp] theorem State.write_emb (s : State) (a : Nat) (bs : List Byte) : (s.write a bs).emb = s.emb := rfl
@[simp] theorem State.write_wire (s : State) (a : Nat) (bs : List Byte) : (s.write a bs).wire = s.wire := rfl
@[simp] theorem State.write_sec (s : State) (a : Nat) (bs : List Byte) : (s.write a bs).sec = s.sec := rfl
@[simp] theorem State.write_det (s : State) (a : Nat) (bs : List Byte) : (s.write a bs).det = s.det := rfl
@[simp] theorem State.write_time (s : State) (a : Nat) (bs : List Byte) : (s.write a bs).time = s.time := rfl
@[simp] theorem State.write_pwr (s : State) (a : Nat) (bs : List Byte) : (s.write a bs).pwr = s.pwr := rfl
@[simp] theorem State.write_mtr (s : State) (a : Nat) (bs : List Byte) : (s.write a bs).mtr = s.mtr := rfl
@[simp] theorem State.setRun_pending (s : State) (r : RunState) : (s.setRun r).pending = s.pending := rfl
@[simp] theorem State.setRun_fresh (s : State) (r : RunState) : (s.setRun r).fresh = s.fresh := rfl
@[simp] theorem State.setRun_regs (s : State) (r : RunState) : (s.setRun r).regs = s.regs := rfl
@[simp] theorem State.setRun_shadow (s : State) (r : RunState) : (s.setRun r).shadow = s.shadow := rfl
@[simp] theorem State.setRun_response (s : State) (r : RunState) : (s.setRun r).response = s.response := rfl
@[simp] theorem State.setRun_mem (s : State) (r : RunState) : (s.setRun r).mem = s.mem := rfl
@[simp] theorem State.setRun_pkg (s : State) (r : RunState) : (s.setRun r).pkg = s.pkg := rfl
@[simp] theorem State.setRun_links (s : State) (r : RunState) : (s.setRun r).links = s.links := rfl
@[simp] theorem State.setRun_crossings (s : State) (r : RunState) : (s.setRun r).crossings = s.crossings := rfl
@[simp] theorem State.setRun_flt (s : State) (r : RunState) : (s.setRun r).flt = s.flt := rfl
@[simp] theorem State.setRun_chk (s : State) (r : RunState) : (s.setRun r).chk = s.chk := rfl
@[simp] theorem State.setRun_mm (s : State) (r : RunState) : (s.setRun r).mm = s.mm := rfl
@[simp] theorem State.setRun_hub (s : State) (r : RunState) : (s.setRun r).hub = s.hub := rfl
@[simp] theorem State.setRun_fleet (s : State) (r : RunState) : (s.setRun r).fleet = s.fleet := rfl
@[simp] theorem State.setRun_clock (s : State) (r : RunState) : (s.setRun r).clock = s.clock := rfl
@[simp] theorem State.setRun_dense (s : State) (r : RunState) : (s.setRun r).dense = s.dense := rfl
@[simp] theorem State.setRun_emb (s : State) (r : RunState) : (s.setRun r).emb = s.emb := rfl
@[simp] theorem State.setRun_wire (s : State) (r : RunState) : (s.setRun r).wire = s.wire := rfl
@[simp] theorem State.setRun_sec (s : State) (r : RunState) : (s.setRun r).sec = s.sec := rfl
@[simp] theorem State.setRun_det (s : State) (r : RunState) : (s.setRun r).det = s.det := rfl
@[simp] theorem State.setRun_time (s : State) (r : RunState) : (s.setRun r).time = s.time := rfl
@[simp] theorem State.setRun_pwr (s : State) (r : RunState) : (s.setRun r).pwr = s.pwr := rfl
@[simp] theorem State.setRun_mtr (s : State) (r : RunState) : (s.setRun r).mtr = s.mtr := rfl
@[simp] theorem State.respond_pending (s : State) (r : Response) : (s.respond r).pending = s.pending := rfl
@[simp] theorem State.respond_fresh (s : State) (r : Response) : (s.respond r).fresh = s.fresh := rfl
@[simp] theorem State.respond_regs (s : State) (r : Response) : (s.respond r).regs = s.regs := rfl
@[simp] theorem State.respond_shadow (s : State) (r : Response) : (s.respond r).shadow = s.shadow := rfl
@[simp] theorem State.respond_mem (s : State) (r : Response) : (s.respond r).mem = s.mem := rfl
@[simp] theorem State.respond_pkg (s : State) (r : Response) : (s.respond r).pkg = s.pkg := rfl
@[simp] theorem State.respond_links (s : State) (r : Response) : (s.respond r).links = s.links := rfl
@[simp] theorem State.respond_crossings (s : State) (r : Response) : (s.respond r).crossings = s.crossings := rfl
@[simp] theorem State.respond_cfg (s : State) (r : Response) : (s.respond r).cfg = s.cfg := rfl
@[simp] theorem State.respond_flt (s : State) (r : Response) : (s.respond r).flt = s.flt := rfl
@[simp] theorem State.respond_chk (s : State) (r : Response) : (s.respond r).chk = s.chk := rfl
@[simp] theorem State.respond_mm (s : State) (r : Response) : (s.respond r).mm = s.mm := rfl
@[simp] theorem State.respond_hub (s : State) (r : Response) : (s.respond r).hub = s.hub := rfl
@[simp] theorem State.respond_fleet (s : State) (r : Response) : (s.respond r).fleet = s.fleet := rfl
@[simp] theorem State.respond_clock (s : State) (r : Response) : (s.respond r).clock = s.clock := rfl
@[simp] theorem State.respond_dense (s : State) (r : Response) : (s.respond r).dense = s.dense := rfl
@[simp] theorem State.respond_emb (s : State) (r : Response) : (s.respond r).emb = s.emb := rfl
@[simp] theorem State.respond_wire (s : State) (r : Response) : (s.respond r).wire = s.wire := rfl
@[simp] theorem State.respond_sec (s : State) (r : Response) : (s.respond r).sec = s.sec := rfl
@[simp] theorem State.respond_det (s : State) (r : Response) : (s.respond r).det = s.det := rfl
@[simp] theorem State.respond_time (s : State) (r : Response) : (s.respond r).time = s.time := rfl
@[simp] theorem State.respond_pwr (s : State) (r : Response) : (s.respond r).pwr = s.pwr := rfl
@[simp] theorem State.respond_mtr (s : State) (r : Response) : (s.respond r).mtr = s.mtr := rfl
@[simp] theorem State.msixSend_pending (s : State) (d : Delivery) : (s.msixSend d).pending = s.pending :=
  (State.msixSend_same (m := fun p => p == .pending) (.refl s) d rfl).pending rfl
@[simp] theorem State.msixSend_fresh (s : State) (d : Delivery) : (s.msixSend d).fresh = s.fresh :=
  (State.msixSend_same (m := fun p => p == .fresh) (.refl s) d rfl).fresh rfl
@[simp] theorem State.msixSend_regs (s : State) (d : Delivery) : (s.msixSend d).regs = s.regs :=
  (State.msixSend_same (m := fun p => p == .regs) (.refl s) d rfl).regs rfl
@[simp] theorem State.msixSend_shadow (s : State) (d : Delivery) : (s.msixSend d).shadow = s.shadow :=
  (State.msixSend_same (m := fun p => p == .shadow) (.refl s) d rfl).shadow rfl
@[simp] theorem State.msixSend_response (s : State) (d : Delivery) : (s.msixSend d).response = s.response :=
  (State.msixSend_same (m := fun p => p == .response) (.refl s) d rfl).response rfl
@[simp] theorem State.msixSend_mem (s : State) (d : Delivery) : (s.msixSend d).mem = s.mem :=
  (State.msixSend_same (m := fun p => p == .mem) (.refl s) d rfl).mem rfl
@[simp] theorem State.msixSend_pkg (s : State) (d : Delivery) : (s.msixSend d).pkg = s.pkg :=
  (State.msixSend_same (m := fun p => p == .pkg) (.refl s) d rfl).pkg rfl
@[simp] theorem State.msixSend_links (s : State) (d : Delivery) : (s.msixSend d).links = s.links :=
  (State.msixSend_same (m := fun p => p == .links) (.refl s) d rfl).links rfl
@[simp] theorem State.msixSend_crossings (s : State) (d : Delivery) : (s.msixSend d).crossings = s.crossings :=
  (State.msixSend_same (m := fun p => p == .crossings) (.refl s) d rfl).crossings rfl
@[simp] theorem State.msixSend_cfg (s : State) (d : Delivery) : (s.msixSend d).cfg = s.cfg :=
  (State.msixSend_same (m := fun p => p == .cfg) (.refl s) d rfl).cfg rfl
@[simp] theorem State.msixSend_flt (s : State) (d : Delivery) : (s.msixSend d).flt = s.flt :=
  (State.msixSend_same (m := fun p => p == .flt) (.refl s) d rfl).flt rfl
@[simp] theorem State.msixSend_chk (s : State) (d : Delivery) : (s.msixSend d).chk = s.chk :=
  (State.msixSend_same (m := fun p => p == .chk) (.refl s) d rfl).chk rfl
@[simp] theorem State.msixSend_mm (s : State) (d : Delivery) : (s.msixSend d).mm = s.mm :=
  (State.msixSend_same (m := fun p => p == .mm) (.refl s) d rfl).mm rfl
@[simp] theorem State.msixSend_fleet (s : State) (d : Delivery) : (s.msixSend d).fleet = s.fleet :=
  (State.msixSend_same (m := fun p => p == .fleet) (.refl s) d rfl).fleet rfl
@[simp] theorem State.msixSend_clock (s : State) (d : Delivery) : (s.msixSend d).clock = s.clock :=
  (State.msixSend_same (m := fun p => p == .clock) (.refl s) d rfl).clock rfl
@[simp] theorem State.msixSend_dense (s : State) (d : Delivery) : (s.msixSend d).dense = s.dense :=
  (State.msixSend_same (m := fun p => p == .dense) (.refl s) d rfl).dense rfl
@[simp] theorem State.msixSend_emb (s : State) (d : Delivery) : (s.msixSend d).emb = s.emb :=
  (State.msixSend_same (m := fun p => p == .emb) (.refl s) d rfl).emb rfl
@[simp] theorem State.msixSend_wire (s : State) (d : Delivery) : (s.msixSend d).wire = s.wire :=
  (State.msixSend_same (m := fun p => p == .wire) (.refl s) d rfl).wire rfl
@[simp] theorem State.msixSend_sec (s : State) (d : Delivery) : (s.msixSend d).sec = s.sec :=
  (State.msixSend_same (m := fun p => p == .sec) (.refl s) d rfl).sec rfl
@[simp] theorem State.msixSend_det (s : State) (d : Delivery) : (s.msixSend d).det = s.det :=
  (State.msixSend_same (m := fun p => p == .det) (.refl s) d rfl).det rfl
@[simp] theorem State.msixSend_time (s : State) (d : Delivery) : (s.msixSend d).time = s.time :=
  (State.msixSend_same (m := fun p => p == .time) (.refl s) d rfl).time rfl
@[simp] theorem State.msixSend_pwr (s : State) (d : Delivery) : (s.msixSend d).pwr = s.pwr :=
  (State.msixSend_same (m := fun p => p == .pwr) (.refl s) d rfl).pwr rfl
@[simp] theorem State.msixSend_mtr (s : State) (d : Delivery) : (s.msixSend d).mtr = s.mtr :=
  (State.msixSend_same (m := fun p => p == .mtr) (.refl s) d rfl).mtr rfl
@[simp] theorem State.deliver_pending (s : State) (n : Nat) : (s.deliver n).pending = s.pending :=
  (State.deliver_same (m := fun p => p == .pending) (.refl s) n rfl).pending rfl
@[simp] theorem State.deliver_fresh (s : State) (n : Nat) : (s.deliver n).fresh = s.fresh :=
  (State.deliver_same (m := fun p => p == .fresh) (.refl s) n rfl).fresh rfl
@[simp] theorem State.deliver_regs (s : State) (n : Nat) : (s.deliver n).regs = s.regs :=
  (State.deliver_same (m := fun p => p == .regs) (.refl s) n rfl).regs rfl
@[simp] theorem State.deliver_shadow (s : State) (n : Nat) : (s.deliver n).shadow = s.shadow :=
  (State.deliver_same (m := fun p => p == .shadow) (.refl s) n rfl).shadow rfl
@[simp] theorem State.deliver_response (s : State) (n : Nat) : (s.deliver n).response = s.response :=
  (State.deliver_same (m := fun p => p == .response) (.refl s) n rfl).response rfl
@[simp] theorem State.deliver_mem (s : State) (n : Nat) : (s.deliver n).mem = s.mem :=
  (State.deliver_same (m := fun p => p == .mem) (.refl s) n rfl).mem rfl
@[simp] theorem State.deliver_pkg (s : State) (n : Nat) : (s.deliver n).pkg = s.pkg :=
  (State.deliver_same (m := fun p => p == .pkg) (.refl s) n rfl).pkg rfl
@[simp] theorem State.deliver_links (s : State) (n : Nat) : (s.deliver n).links = s.links :=
  (State.deliver_same (m := fun p => p == .links) (.refl s) n rfl).links rfl
@[simp] theorem State.deliver_crossings (s : State) (n : Nat) : (s.deliver n).crossings = s.crossings :=
  (State.deliver_same (m := fun p => p == .crossings) (.refl s) n rfl).crossings rfl
@[simp] theorem State.deliver_cfg (s : State) (n : Nat) : (s.deliver n).cfg = s.cfg :=
  (State.deliver_same (m := fun p => p == .cfg) (.refl s) n rfl).cfg rfl
@[simp] theorem State.deliver_flt (s : State) (n : Nat) : (s.deliver n).flt = s.flt :=
  (State.deliver_same (m := fun p => p == .flt) (.refl s) n rfl).flt rfl
@[simp] theorem State.deliver_chk (s : State) (n : Nat) : (s.deliver n).chk = s.chk :=
  (State.deliver_same (m := fun p => p == .chk) (.refl s) n rfl).chk rfl
@[simp] theorem State.deliver_mm (s : State) (n : Nat) : (s.deliver n).mm = s.mm :=
  (State.deliver_same (m := fun p => p == .mm) (.refl s) n rfl).mm rfl
@[simp] theorem State.deliver_fleet (s : State) (n : Nat) : (s.deliver n).fleet = s.fleet :=
  (State.deliver_same (m := fun p => p == .fleet) (.refl s) n rfl).fleet rfl
@[simp] theorem State.deliver_clock (s : State) (n : Nat) : (s.deliver n).clock = s.clock :=
  (State.deliver_same (m := fun p => p == .clock) (.refl s) n rfl).clock rfl
@[simp] theorem State.deliver_dense (s : State) (n : Nat) : (s.deliver n).dense = s.dense :=
  (State.deliver_same (m := fun p => p == .dense) (.refl s) n rfl).dense rfl
@[simp] theorem State.deliver_emb (s : State) (n : Nat) : (s.deliver n).emb = s.emb :=
  (State.deliver_same (m := fun p => p == .emb) (.refl s) n rfl).emb rfl
@[simp] theorem State.deliver_wire (s : State) (n : Nat) : (s.deliver n).wire = s.wire :=
  (State.deliver_same (m := fun p => p == .wire) (.refl s) n rfl).wire rfl
@[simp] theorem State.deliver_sec (s : State) (n : Nat) : (s.deliver n).sec = s.sec :=
  (State.deliver_same (m := fun p => p == .sec) (.refl s) n rfl).sec rfl
@[simp] theorem State.deliver_det (s : State) (n : Nat) : (s.deliver n).det = s.det :=
  (State.deliver_same (m := fun p => p == .det) (.refl s) n rfl).det rfl
@[simp] theorem State.deliver_time (s : State) (n : Nat) : (s.deliver n).time = s.time :=
  (State.deliver_same (m := fun p => p == .time) (.refl s) n rfl).time rfl
@[simp] theorem State.deliver_pwr (s : State) (n : Nat) : (s.deliver n).pwr = s.pwr :=
  (State.deliver_same (m := fun p => p == .pwr) (.refl s) n rfl).pwr rfl
@[simp] theorem State.deliver_mtr (s : State) (n : Nat) : (s.deliver n).mtr = s.mtr :=
  (State.deliver_same (m := fun p => p == .mtr) (.refl s) n rfl).mtr rfl
@[simp] theorem State.raiseIrq_pending (s : State) (n : Nat) : (s.raiseIrq n).pending = s.pending :=
  (State.raiseIrq_same (m := fun p => p == .pending) (.refl s) n rfl rfl).pending rfl
@[simp] theorem State.raiseIrq_fresh (s : State) (n : Nat) : (s.raiseIrq n).fresh = s.fresh :=
  (State.raiseIrq_same (m := fun p => p == .fresh) (.refl s) n rfl rfl).fresh rfl
@[simp] theorem State.raiseIrq_shadow (s : State) (n : Nat) : (s.raiseIrq n).shadow = s.shadow :=
  (State.raiseIrq_same (m := fun p => p == .shadow) (.refl s) n rfl rfl).shadow rfl
@[simp] theorem State.raiseIrq_response (s : State) (n : Nat) : (s.raiseIrq n).response = s.response :=
  (State.raiseIrq_same (m := fun p => p == .response) (.refl s) n rfl rfl).response rfl
@[simp] theorem State.raiseIrq_mem (s : State) (n : Nat) : (s.raiseIrq n).mem = s.mem :=
  (State.raiseIrq_same (m := fun p => p == .mem) (.refl s) n rfl rfl).mem rfl
@[simp] theorem State.raiseIrq_pkg (s : State) (n : Nat) : (s.raiseIrq n).pkg = s.pkg :=
  (State.raiseIrq_same (m := fun p => p == .pkg) (.refl s) n rfl rfl).pkg rfl
@[simp] theorem State.raiseIrq_links (s : State) (n : Nat) : (s.raiseIrq n).links = s.links :=
  (State.raiseIrq_same (m := fun p => p == .links) (.refl s) n rfl rfl).links rfl
@[simp] theorem State.raiseIrq_crossings (s : State) (n : Nat) : (s.raiseIrq n).crossings = s.crossings :=
  (State.raiseIrq_same (m := fun p => p == .crossings) (.refl s) n rfl rfl).crossings rfl
@[simp] theorem State.raiseIrq_cfg (s : State) (n : Nat) : (s.raiseIrq n).cfg = s.cfg :=
  (State.raiseIrq_same (m := fun p => p == .cfg) (.refl s) n rfl rfl).cfg rfl
@[simp] theorem State.raiseIrq_flt (s : State) (n : Nat) : (s.raiseIrq n).flt = s.flt :=
  (State.raiseIrq_same (m := fun p => p == .flt) (.refl s) n rfl rfl).flt rfl
@[simp] theorem State.raiseIrq_chk (s : State) (n : Nat) : (s.raiseIrq n).chk = s.chk :=
  (State.raiseIrq_same (m := fun p => p == .chk) (.refl s) n rfl rfl).chk rfl
@[simp] theorem State.raiseIrq_mm (s : State) (n : Nat) : (s.raiseIrq n).mm = s.mm :=
  (State.raiseIrq_same (m := fun p => p == .mm) (.refl s) n rfl rfl).mm rfl
@[simp] theorem State.raiseIrq_fleet (s : State) (n : Nat) : (s.raiseIrq n).fleet = s.fleet :=
  (State.raiseIrq_same (m := fun p => p == .fleet) (.refl s) n rfl rfl).fleet rfl
@[simp] theorem State.raiseIrq_clock (s : State) (n : Nat) : (s.raiseIrq n).clock = s.clock :=
  (State.raiseIrq_same (m := fun p => p == .clock) (.refl s) n rfl rfl).clock rfl
@[simp] theorem State.raiseIrq_dense (s : State) (n : Nat) : (s.raiseIrq n).dense = s.dense :=
  (State.raiseIrq_same (m := fun p => p == .dense) (.refl s) n rfl rfl).dense rfl
@[simp] theorem State.raiseIrq_emb (s : State) (n : Nat) : (s.raiseIrq n).emb = s.emb :=
  (State.raiseIrq_same (m := fun p => p == .emb) (.refl s) n rfl rfl).emb rfl
@[simp] theorem State.raiseIrq_wire (s : State) (n : Nat) : (s.raiseIrq n).wire = s.wire :=
  (State.raiseIrq_same (m := fun p => p == .wire) (.refl s) n rfl rfl).wire rfl
@[simp] theorem State.raiseIrq_sec (s : State) (n : Nat) : (s.raiseIrq n).sec = s.sec :=
  (State.raiseIrq_same (m := fun p => p == .sec) (.refl s) n rfl rfl).sec rfl
@[simp] theorem State.raiseIrq_det (s : State) (n : Nat) : (s.raiseIrq n).det = s.det :=
  (State.raiseIrq_same (m := fun p => p == .det) (.refl s) n rfl rfl).det rfl
@[simp] theorem State.raiseIrq_time (s : State) (n : Nat) : (s.raiseIrq n).time = s.time :=
  (State.raiseIrq_same (m := fun p => p == .time) (.refl s) n rfl rfl).time rfl
@[simp] theorem State.raiseIrq_pwr (s : State) (n : Nat) : (s.raiseIrq n).pwr = s.pwr :=
  (State.raiseIrq_same (m := fun p => p == .pwr) (.refl s) n rfl rfl).pwr rfl
@[simp] theorem State.raiseIrq_mtr (s : State) (n : Nat) : (s.raiseIrq n).mtr = s.mtr :=
  (State.raiseIrq_same (m := fun p => p == .mtr) (.refl s) n rfl rfl).mtr rfl
@[simp] theorem State.setFldIrq_pending (s : State) (src : Nat) (f : Fld) (v : Nat) :
    (s.setFldIrq src f v).pending = s.pending :=
  (State.setFldIrq_same (m := fun p => p == .pending) (.refl s) src f v rfl rfl).pending rfl
@[simp] theorem State.setFldIrq_fresh (s : State) (src : Nat) (f : Fld) (v : Nat) :
    (s.setFldIrq src f v).fresh = s.fresh :=
  (State.setFldIrq_same (m := fun p => p == .fresh) (.refl s) src f v rfl rfl).fresh rfl
@[simp] theorem State.setFldIrq_shadow (s : State) (src : Nat) (f : Fld) (v : Nat) :
    (s.setFldIrq src f v).shadow = s.shadow :=
  (State.setFldIrq_same (m := fun p => p == .shadow) (.refl s) src f v rfl rfl).shadow rfl
@[simp] theorem State.setFldIrq_response (s : State) (src : Nat) (f : Fld) (v : Nat) :
    (s.setFldIrq src f v).response = s.response :=
  (State.setFldIrq_same (m := fun p => p == .response) (.refl s) src f v rfl rfl).response rfl
@[simp] theorem State.setFldIrq_mem (s : State) (src : Nat) (f : Fld) (v : Nat) : (s.setFldIrq src f v).mem = s.mem :=
  (State.setFldIrq_same (m := fun p => p == .mem) (.refl s) src f v rfl rfl).mem rfl
@[simp] theorem State.setFldIrq_pkg (s : State) (src : Nat) (f : Fld) (v : Nat) : (s.setFldIrq src f v).pkg = s.pkg :=
  (State.setFldIrq_same (m := fun p => p == .pkg) (.refl s) src f v rfl rfl).pkg rfl
@[simp] theorem State.setFldIrq_links (s : State) (src : Nat) (f : Fld) (v : Nat) :
    (s.setFldIrq src f v).links = s.links :=
  (State.setFldIrq_same (m := fun p => p == .links) (.refl s) src f v rfl rfl).links rfl
@[simp] theorem State.setFldIrq_crossings (s : State) (src : Nat) (f : Fld) (v : Nat) :
    (s.setFldIrq src f v).crossings = s.crossings :=
  (State.setFldIrq_same (m := fun p => p == .crossings) (.refl s) src f v rfl rfl).crossings rfl
@[simp] theorem State.setFldIrq_cfg (s : State) (src : Nat) (f : Fld) (v : Nat) : (s.setFldIrq src f v).cfg = s.cfg :=
  (State.setFldIrq_same (m := fun p => p == .cfg) (.refl s) src f v rfl rfl).cfg rfl
@[simp] theorem State.setFldIrq_flt (s : State) (src : Nat) (f : Fld) (v : Nat) : (s.setFldIrq src f v).flt = s.flt :=
  (State.setFldIrq_same (m := fun p => p == .flt) (.refl s) src f v rfl rfl).flt rfl
@[simp] theorem State.setFldIrq_chk (s : State) (src : Nat) (f : Fld) (v : Nat) : (s.setFldIrq src f v).chk = s.chk :=
  (State.setFldIrq_same (m := fun p => p == .chk) (.refl s) src f v rfl rfl).chk rfl
@[simp] theorem State.setFldIrq_mm (s : State) (src : Nat) (f : Fld) (v : Nat) : (s.setFldIrq src f v).mm = s.mm :=
  (State.setFldIrq_same (m := fun p => p == .mm) (.refl s) src f v rfl rfl).mm rfl
@[simp] theorem State.setFldIrq_fleet (s : State) (src : Nat) (f : Fld) (v : Nat) :
    (s.setFldIrq src f v).fleet = s.fleet :=
  (State.setFldIrq_same (m := fun p => p == .fleet) (.refl s) src f v rfl rfl).fleet rfl
@[simp] theorem State.setFldIrq_clock (s : State) (src : Nat) (f : Fld) (v : Nat) :
    (s.setFldIrq src f v).clock = s.clock :=
  (State.setFldIrq_same (m := fun p => p == .clock) (.refl s) src f v rfl rfl).clock rfl
@[simp] theorem State.setFldIrq_dense (s : State) (src : Nat) (f : Fld) (v : Nat) :
    (s.setFldIrq src f v).dense = s.dense :=
  (State.setFldIrq_same (m := fun p => p == .dense) (.refl s) src f v rfl rfl).dense rfl
@[simp] theorem State.setFldIrq_emb (s : State) (src : Nat) (f : Fld) (v : Nat) : (s.setFldIrq src f v).emb = s.emb :=
  (State.setFldIrq_same (m := fun p => p == .emb) (.refl s) src f v rfl rfl).emb rfl
@[simp] theorem State.setFldIrq_wire (s : State) (src : Nat) (f : Fld) (v : Nat) :
    (s.setFldIrq src f v).wire = s.wire :=
  (State.setFldIrq_same (m := fun p => p == .wire) (.refl s) src f v rfl rfl).wire rfl
@[simp] theorem State.setFldIrq_sec (s : State) (src : Nat) (f : Fld) (v : Nat) : (s.setFldIrq src f v).sec = s.sec :=
  (State.setFldIrq_same (m := fun p => p == .sec) (.refl s) src f v rfl rfl).sec rfl
@[simp] theorem State.setFldIrq_det (s : State) (src : Nat) (f : Fld) (v : Nat) : (s.setFldIrq src f v).det = s.det :=
  (State.setFldIrq_same (m := fun p => p == .det) (.refl s) src f v rfl rfl).det rfl
@[simp] theorem State.setFldIrq_time (s : State) (src : Nat) (f : Fld) (v : Nat) :
    (s.setFldIrq src f v).time = s.time :=
  (State.setFldIrq_same (m := fun p => p == .time) (.refl s) src f v rfl rfl).time rfl
@[simp] theorem State.setFldIrq_pwr (s : State) (src : Nat) (f : Fld) (v : Nat) : (s.setFldIrq src f v).pwr = s.pwr :=
  (State.setFldIrq_same (m := fun p => p == .pwr) (.refl s) src f v rfl rfl).pwr rfl
@[simp] theorem State.setFldIrq_mtr (s : State) (src : Nat) (f : Fld) (v : Nat) : (s.setFldIrq src f v).mtr = s.mtr :=
  (State.setFldIrq_same (m := fun p => p == .mtr) (.refl s) src f v rfl rfl).mtr rfl
@[simp] theorem State.setTime_pending (s : State) (t : TimeState) : (s.setTime t).pending = s.pending :=
  (State.setTime_same (m := fun p => p == .pending) (.refl s) t rfl).pending rfl
@[simp] theorem State.setTime_fresh (s : State) (t : TimeState) : (s.setTime t).fresh = s.fresh :=
  (State.setTime_same (m := fun p => p == .fresh) (.refl s) t rfl).fresh rfl
@[simp] theorem State.setTime_regs (s : State) (t : TimeState) : (s.setTime t).regs = s.regs :=
  (State.setTime_same (m := fun p => p == .regs) (.refl s) t rfl).regs rfl
@[simp] theorem State.setTime_shadow (s : State) (t : TimeState) : (s.setTime t).shadow = s.shadow :=
  (State.setTime_same (m := fun p => p == .shadow) (.refl s) t rfl).shadow rfl
@[simp] theorem State.setTime_response (s : State) (t : TimeState) : (s.setTime t).response = s.response :=
  (State.setTime_same (m := fun p => p == .response) (.refl s) t rfl).response rfl
@[simp] theorem State.setTime_mem (s : State) (t : TimeState) : (s.setTime t).mem = s.mem :=
  (State.setTime_same (m := fun p => p == .mem) (.refl s) t rfl).mem rfl
@[simp] theorem State.setTime_pkg (s : State) (t : TimeState) : (s.setTime t).pkg = s.pkg :=
  (State.setTime_same (m := fun p => p == .pkg) (.refl s) t rfl).pkg rfl
@[simp] theorem State.setTime_links (s : State) (t : TimeState) : (s.setTime t).links = s.links :=
  (State.setTime_same (m := fun p => p == .links) (.refl s) t rfl).links rfl
@[simp] theorem State.setTime_crossings (s : State) (t : TimeState) : (s.setTime t).crossings = s.crossings :=
  (State.setTime_same (m := fun p => p == .crossings) (.refl s) t rfl).crossings rfl
@[simp] theorem State.setTime_cfg (s : State) (t : TimeState) : (s.setTime t).cfg = s.cfg :=
  (State.setTime_same (m := fun p => p == .cfg) (.refl s) t rfl).cfg rfl
@[simp] theorem State.setTime_flt (s : State) (t : TimeState) : (s.setTime t).flt = s.flt :=
  (State.setTime_same (m := fun p => p == .flt) (.refl s) t rfl).flt rfl
@[simp] theorem State.setTime_chk (s : State) (t : TimeState) : (s.setTime t).chk = s.chk :=
  (State.setTime_same (m := fun p => p == .chk) (.refl s) t rfl).chk rfl
@[simp] theorem State.setTime_mm (s : State) (t : TimeState) : (s.setTime t).mm = s.mm :=
  (State.setTime_same (m := fun p => p == .mm) (.refl s) t rfl).mm rfl
@[simp] theorem State.setTime_hub (s : State) (t : TimeState) : (s.setTime t).hub = s.hub :=
  (State.setTime_same (m := fun p => p == .hub) (.refl s) t rfl).hub rfl
@[simp] theorem State.setTime_fleet (s : State) (t : TimeState) : (s.setTime t).fleet = s.fleet :=
  (State.setTime_same (m := fun p => p == .fleet) (.refl s) t rfl).fleet rfl
@[simp] theorem State.setTime_clock (s : State) (t : TimeState) : (s.setTime t).clock = s.clock :=
  (State.setTime_same (m := fun p => p == .clock) (.refl s) t rfl).clock rfl
@[simp] theorem State.setTime_dense (s : State) (t : TimeState) : (s.setTime t).dense = s.dense :=
  (State.setTime_same (m := fun p => p == .dense) (.refl s) t rfl).dense rfl
@[simp] theorem State.setTime_emb (s : State) (t : TimeState) : (s.setTime t).emb = s.emb :=
  (State.setTime_same (m := fun p => p == .emb) (.refl s) t rfl).emb rfl
@[simp] theorem State.setTime_wire (s : State) (t : TimeState) : (s.setTime t).wire = s.wire :=
  (State.setTime_same (m := fun p => p == .wire) (.refl s) t rfl).wire rfl
@[simp] theorem State.setTime_sec (s : State) (t : TimeState) : (s.setTime t).sec = s.sec :=
  (State.setTime_same (m := fun p => p == .sec) (.refl s) t rfl).sec rfl
@[simp] theorem State.setTime_det (s : State) (t : TimeState) : (s.setTime t).det = s.det :=
  (State.setTime_same (m := fun p => p == .det) (.refl s) t rfl).det rfl
@[simp] theorem State.setTime_pwr (s : State) (t : TimeState) : (s.setTime t).pwr = s.pwr :=
  (State.setTime_same (m := fun p => p == .pwr) (.refl s) t rfl).pwr rfl
@[simp] theorem State.setTime_mtr (s : State) (t : TimeState) : (s.setTime t).mtr = s.mtr :=
  (State.setTime_same (m := fun p => p == .mtr) (.refl s) t rfl).mtr rfl
@[simp] theorem State.setServo_pending (s : State) (st : Nat) : (s.setServo st).pending = s.pending :=
  (State.setServo_same (m := fun p => p == .pending) (.refl s) st rfl rfl rfl).pending rfl
@[simp] theorem State.setServo_fresh (s : State) (st : Nat) : (s.setServo st).fresh = s.fresh :=
  (State.setServo_same (m := fun p => p == .fresh) (.refl s) st rfl rfl rfl).fresh rfl
@[simp] theorem State.setServo_shadow (s : State) (st : Nat) : (s.setServo st).shadow = s.shadow :=
  (State.setServo_same (m := fun p => p == .shadow) (.refl s) st rfl rfl rfl).shadow rfl
@[simp] theorem State.setServo_response (s : State) (st : Nat) : (s.setServo st).response = s.response :=
  (State.setServo_same (m := fun p => p == .response) (.refl s) st rfl rfl rfl).response rfl
@[simp] theorem State.setServo_mem (s : State) (st : Nat) : (s.setServo st).mem = s.mem :=
  (State.setServo_same (m := fun p => p == .mem) (.refl s) st rfl rfl rfl).mem rfl
@[simp] theorem State.setServo_pkg (s : State) (st : Nat) : (s.setServo st).pkg = s.pkg :=
  (State.setServo_same (m := fun p => p == .pkg) (.refl s) st rfl rfl rfl).pkg rfl
@[simp] theorem State.setServo_links (s : State) (st : Nat) : (s.setServo st).links = s.links :=
  (State.setServo_same (m := fun p => p == .links) (.refl s) st rfl rfl rfl).links rfl
@[simp] theorem State.setServo_crossings (s : State) (st : Nat) : (s.setServo st).crossings = s.crossings :=
  (State.setServo_same (m := fun p => p == .crossings) (.refl s) st rfl rfl rfl).crossings rfl
@[simp] theorem State.setServo_cfg (s : State) (st : Nat) : (s.setServo st).cfg = s.cfg :=
  (State.setServo_same (m := fun p => p == .cfg) (.refl s) st rfl rfl rfl).cfg rfl
@[simp] theorem State.setServo_flt (s : State) (st : Nat) : (s.setServo st).flt = s.flt :=
  (State.setServo_same (m := fun p => p == .flt) (.refl s) st rfl rfl rfl).flt rfl
@[simp] theorem State.setServo_chk (s : State) (st : Nat) : (s.setServo st).chk = s.chk :=
  (State.setServo_same (m := fun p => p == .chk) (.refl s) st rfl rfl rfl).chk rfl
@[simp] theorem State.setServo_mm (s : State) (st : Nat) : (s.setServo st).mm = s.mm :=
  (State.setServo_same (m := fun p => p == .mm) (.refl s) st rfl rfl rfl).mm rfl
@[simp] theorem State.setServo_fleet (s : State) (st : Nat) : (s.setServo st).fleet = s.fleet :=
  (State.setServo_same (m := fun p => p == .fleet) (.refl s) st rfl rfl rfl).fleet rfl
@[simp] theorem State.setServo_clock (s : State) (st : Nat) : (s.setServo st).clock = s.clock :=
  (State.setServo_same (m := fun p => p == .clock) (.refl s) st rfl rfl rfl).clock rfl
@[simp] theorem State.setServo_dense (s : State) (st : Nat) : (s.setServo st).dense = s.dense :=
  (State.setServo_same (m := fun p => p == .dense) (.refl s) st rfl rfl rfl).dense rfl
@[simp] theorem State.setServo_emb (s : State) (st : Nat) : (s.setServo st).emb = s.emb :=
  (State.setServo_same (m := fun p => p == .emb) (.refl s) st rfl rfl rfl).emb rfl
@[simp] theorem State.setServo_wire (s : State) (st : Nat) : (s.setServo st).wire = s.wire :=
  (State.setServo_same (m := fun p => p == .wire) (.refl s) st rfl rfl rfl).wire rfl
@[simp] theorem State.setServo_sec (s : State) (st : Nat) : (s.setServo st).sec = s.sec :=
  (State.setServo_same (m := fun p => p == .sec) (.refl s) st rfl rfl rfl).sec rfl
@[simp] theorem State.setServo_det (s : State) (st : Nat) : (s.setServo st).det = s.det :=
  (State.setServo_same (m := fun p => p == .det) (.refl s) st rfl rfl rfl).det rfl
@[simp] theorem State.setServo_pwr (s : State) (st : Nat) : (s.setServo st).pwr = s.pwr :=
  (State.setServo_same (m := fun p => p == .pwr) (.refl s) st rfl rfl rfl).pwr rfl
@[simp] theorem State.setServo_mtr (s : State) (st : Nat) : (s.setServo st).mtr = s.mtr :=
  (State.setServo_same (m := fun p => p == .mtr) (.refl s) st rfl rfl rfl).mtr rfl
@[simp] theorem State.holdOver_pending (s : State) : s.holdOver.pending = s.pending :=
  (State.holdOver_same (m := fun p => p == .pending) (.refl s) rfl rfl rfl).pending rfl
@[simp] theorem State.holdOver_fresh (s : State) : s.holdOver.fresh = s.fresh :=
  (State.holdOver_same (m := fun p => p == .fresh) (.refl s) rfl rfl rfl).fresh rfl
@[simp] theorem State.holdOver_shadow (s : State) : s.holdOver.shadow = s.shadow :=
  (State.holdOver_same (m := fun p => p == .shadow) (.refl s) rfl rfl rfl).shadow rfl
@[simp] theorem State.holdOver_response (s : State) : s.holdOver.response = s.response :=
  (State.holdOver_same (m := fun p => p == .response) (.refl s) rfl rfl rfl).response rfl
@[simp] theorem State.holdOver_mem (s : State) : s.holdOver.mem = s.mem :=
  (State.holdOver_same (m := fun p => p == .mem) (.refl s) rfl rfl rfl).mem rfl
@[simp] theorem State.holdOver_pkg (s : State) : s.holdOver.pkg = s.pkg :=
  (State.holdOver_same (m := fun p => p == .pkg) (.refl s) rfl rfl rfl).pkg rfl
@[simp] theorem State.holdOver_links (s : State) : s.holdOver.links = s.links :=
  (State.holdOver_same (m := fun p => p == .links) (.refl s) rfl rfl rfl).links rfl
@[simp] theorem State.holdOver_crossings (s : State) : s.holdOver.crossings = s.crossings :=
  (State.holdOver_same (m := fun p => p == .crossings) (.refl s) rfl rfl rfl).crossings rfl
@[simp] theorem State.holdOver_cfg (s : State) : s.holdOver.cfg = s.cfg :=
  (State.holdOver_same (m := fun p => p == .cfg) (.refl s) rfl rfl rfl).cfg rfl
@[simp] theorem State.holdOver_flt (s : State) : s.holdOver.flt = s.flt :=
  (State.holdOver_same (m := fun p => p == .flt) (.refl s) rfl rfl rfl).flt rfl
@[simp] theorem State.holdOver_chk (s : State) : s.holdOver.chk = s.chk :=
  (State.holdOver_same (m := fun p => p == .chk) (.refl s) rfl rfl rfl).chk rfl
@[simp] theorem State.holdOver_mm (s : State) : s.holdOver.mm = s.mm :=
  (State.holdOver_same (m := fun p => p == .mm) (.refl s) rfl rfl rfl).mm rfl
@[simp] theorem State.holdOver_fleet (s : State) : s.holdOver.fleet = s.fleet :=
  (State.holdOver_same (m := fun p => p == .fleet) (.refl s) rfl rfl rfl).fleet rfl
@[simp] theorem State.holdOver_clock (s : State) : s.holdOver.clock = s.clock :=
  (State.holdOver_same (m := fun p => p == .clock) (.refl s) rfl rfl rfl).clock rfl
@[simp] theorem State.holdOver_dense (s : State) : s.holdOver.dense = s.dense :=
  (State.holdOver_same (m := fun p => p == .dense) (.refl s) rfl rfl rfl).dense rfl
@[simp] theorem State.holdOver_emb (s : State) : s.holdOver.emb = s.emb :=
  (State.holdOver_same (m := fun p => p == .emb) (.refl s) rfl rfl rfl).emb rfl
@[simp] theorem State.holdOver_wire (s : State) : s.holdOver.wire = s.wire :=
  (State.holdOver_same (m := fun p => p == .wire) (.refl s) rfl rfl rfl).wire rfl
@[simp] theorem State.holdOver_sec (s : State) : s.holdOver.sec = s.sec :=
  (State.holdOver_same (m := fun p => p == .sec) (.refl s) rfl rfl rfl).sec rfl
@[simp] theorem State.holdOver_det (s : State) : s.holdOver.det = s.det :=
  (State.holdOver_same (m := fun p => p == .det) (.refl s) rfl rfl rfl).det rfl
@[simp] theorem State.holdOver_pwr (s : State) : s.holdOver.pwr = s.pwr :=
  (State.holdOver_same (m := fun p => p == .pwr) (.refl s) rfl rfl rfl).pwr rfl
@[simp] theorem State.holdOver_mtr (s : State) : s.holdOver.mtr = s.mtr :=
  (State.holdOver_same (m := fun p => p == .mtr) (.refl s) rfl rfl rfl).mtr rfl
@[simp] theorem State.failSource_pending (s : State) : s.failSource.pending = s.pending :=
  (State.failSource_same (m := fun p => p == .pending) (.refl s) rfl rfl rfl).pending rfl
@[simp] theorem State.failSource_fresh (s : State) : s.failSource.fresh = s.fresh :=
  (State.failSource_same (m := fun p => p == .fresh) (.refl s) rfl rfl rfl).fresh rfl
@[simp] theorem State.failSource_shadow (s : State) : s.failSource.shadow = s.shadow :=
  (State.failSource_same (m := fun p => p == .shadow) (.refl s) rfl rfl rfl).shadow rfl
@[simp] theorem State.failSource_response (s : State) : s.failSource.response = s.response :=
  (State.failSource_same (m := fun p => p == .response) (.refl s) rfl rfl rfl).response rfl
@[simp] theorem State.failSource_mem (s : State) : s.failSource.mem = s.mem :=
  (State.failSource_same (m := fun p => p == .mem) (.refl s) rfl rfl rfl).mem rfl
@[simp] theorem State.failSource_pkg (s : State) : s.failSource.pkg = s.pkg :=
  (State.failSource_same (m := fun p => p == .pkg) (.refl s) rfl rfl rfl).pkg rfl
@[simp] theorem State.failSource_links (s : State) : s.failSource.links = s.links :=
  (State.failSource_same (m := fun p => p == .links) (.refl s) rfl rfl rfl).links rfl
@[simp] theorem State.failSource_crossings (s : State) : s.failSource.crossings = s.crossings :=
  (State.failSource_same (m := fun p => p == .crossings) (.refl s) rfl rfl rfl).crossings rfl
@[simp] theorem State.failSource_cfg (s : State) : s.failSource.cfg = s.cfg :=
  (State.failSource_same (m := fun p => p == .cfg) (.refl s) rfl rfl rfl).cfg rfl
@[simp] theorem State.failSource_flt (s : State) : s.failSource.flt = s.flt :=
  (State.failSource_same (m := fun p => p == .flt) (.refl s) rfl rfl rfl).flt rfl
@[simp] theorem State.failSource_chk (s : State) : s.failSource.chk = s.chk :=
  (State.failSource_same (m := fun p => p == .chk) (.refl s) rfl rfl rfl).chk rfl
@[simp] theorem State.failSource_mm (s : State) : s.failSource.mm = s.mm :=
  (State.failSource_same (m := fun p => p == .mm) (.refl s) rfl rfl rfl).mm rfl
@[simp] theorem State.failSource_fleet (s : State) : s.failSource.fleet = s.fleet :=
  (State.failSource_same (m := fun p => p == .fleet) (.refl s) rfl rfl rfl).fleet rfl
@[simp] theorem State.failSource_clock (s : State) : s.failSource.clock = s.clock :=
  (State.failSource_same (m := fun p => p == .clock) (.refl s) rfl rfl rfl).clock rfl
@[simp] theorem State.failSource_dense (s : State) : s.failSource.dense = s.dense :=
  (State.failSource_same (m := fun p => p == .dense) (.refl s) rfl rfl rfl).dense rfl
@[simp] theorem State.failSource_emb (s : State) : s.failSource.emb = s.emb :=
  (State.failSource_same (m := fun p => p == .emb) (.refl s) rfl rfl rfl).emb rfl
@[simp] theorem State.failSource_wire (s : State) : s.failSource.wire = s.wire :=
  (State.failSource_same (m := fun p => p == .wire) (.refl s) rfl rfl rfl).wire rfl
@[simp] theorem State.failSource_sec (s : State) : s.failSource.sec = s.sec :=
  (State.failSource_same (m := fun p => p == .sec) (.refl s) rfl rfl rfl).sec rfl
@[simp] theorem State.failSource_det (s : State) : s.failSource.det = s.det :=
  (State.failSource_same (m := fun p => p == .det) (.refl s) rfl rfl rfl).det rfl
@[simp] theorem State.failSource_pwr (s : State) : s.failSource.pwr = s.pwr :=
  (State.failSource_same (m := fun p => p == .pwr) (.refl s) rfl rfl rfl).pwr rfl
@[simp] theorem State.failSource_mtr (s : State) : s.failSource.mtr = s.mtr :=
  (State.failSource_same (m := fun p => p == .mtr) (.refl s) rfl rfl rfl).mtr rfl
@[simp] theorem State.setLoadState_pending (s : State) (v : Nat) : (s.setLoadState v).pending = s.pending :=
  (State.setLoadState_same (m := fun p => p == .pending) (.refl s) v rfl rfl).pending rfl
@[simp] theorem State.setLoadState_fresh (s : State) (v : Nat) : (s.setLoadState v).fresh = s.fresh :=
  (State.setLoadState_same (m := fun p => p == .fresh) (.refl s) v rfl rfl).fresh rfl
@[simp] theorem State.setLoadState_shadow (s : State) (v : Nat) : (s.setLoadState v).shadow = s.shadow :=
  (State.setLoadState_same (m := fun p => p == .shadow) (.refl s) v rfl rfl).shadow rfl
@[simp] theorem State.setLoadState_response (s : State) (v : Nat) : (s.setLoadState v).response = s.response :=
  (State.setLoadState_same (m := fun p => p == .response) (.refl s) v rfl rfl).response rfl
@[simp] theorem State.setLoadState_mem (s : State) (v : Nat) : (s.setLoadState v).mem = s.mem :=
  (State.setLoadState_same (m := fun p => p == .mem) (.refl s) v rfl rfl).mem rfl
@[simp] theorem State.setLoadState_pkg (s : State) (v : Nat) : (s.setLoadState v).pkg = s.pkg :=
  (State.setLoadState_same (m := fun p => p == .pkg) (.refl s) v rfl rfl).pkg rfl
@[simp] theorem State.setLoadState_links (s : State) (v : Nat) : (s.setLoadState v).links = s.links :=
  (State.setLoadState_same (m := fun p => p == .links) (.refl s) v rfl rfl).links rfl
@[simp] theorem State.setLoadState_crossings (s : State) (v : Nat) : (s.setLoadState v).crossings = s.crossings :=
  (State.setLoadState_same (m := fun p => p == .crossings) (.refl s) v rfl rfl).crossings rfl
@[simp] theorem State.setLoadState_cfg (s : State) (v : Nat) : (s.setLoadState v).cfg = s.cfg :=
  (State.setLoadState_same (m := fun p => p == .cfg) (.refl s) v rfl rfl).cfg rfl
@[simp] theorem State.setLoadState_flt (s : State) (v : Nat) : (s.setLoadState v).flt = s.flt :=
  (State.setLoadState_same (m := fun p => p == .flt) (.refl s) v rfl rfl).flt rfl
@[simp] theorem State.setLoadState_chk (s : State) (v : Nat) : (s.setLoadState v).chk = s.chk :=
  (State.setLoadState_same (m := fun p => p == .chk) (.refl s) v rfl rfl).chk rfl
@[simp] theorem State.setLoadState_mm (s : State) (v : Nat) : (s.setLoadState v).mm = s.mm :=
  (State.setLoadState_same (m := fun p => p == .mm) (.refl s) v rfl rfl).mm rfl
@[simp] theorem State.setLoadState_fleet (s : State) (v : Nat) : (s.setLoadState v).fleet = s.fleet :=
  (State.setLoadState_same (m := fun p => p == .fleet) (.refl s) v rfl rfl).fleet rfl
@[simp] theorem State.setLoadState_clock (s : State) (v : Nat) : (s.setLoadState v).clock = s.clock :=
  (State.setLoadState_same (m := fun p => p == .clock) (.refl s) v rfl rfl).clock rfl
@[simp] theorem State.setLoadState_dense (s : State) (v : Nat) : (s.setLoadState v).dense = s.dense :=
  (State.setLoadState_same (m := fun p => p == .dense) (.refl s) v rfl rfl).dense rfl
@[simp] theorem State.setLoadState_emb (s : State) (v : Nat) : (s.setLoadState v).emb = s.emb :=
  (State.setLoadState_same (m := fun p => p == .emb) (.refl s) v rfl rfl).emb rfl
@[simp] theorem State.setLoadState_wire (s : State) (v : Nat) : (s.setLoadState v).wire = s.wire :=
  (State.setLoadState_same (m := fun p => p == .wire) (.refl s) v rfl rfl).wire rfl
@[simp] theorem State.setLoadState_sec (s : State) (v : Nat) : (s.setLoadState v).sec = s.sec :=
  (State.setLoadState_same (m := fun p => p == .sec) (.refl s) v rfl rfl).sec rfl
@[simp] theorem State.setLoadState_det (s : State) (v : Nat) : (s.setLoadState v).det = s.det :=
  (State.setLoadState_same (m := fun p => p == .det) (.refl s) v rfl rfl).det rfl
@[simp] theorem State.setLoadState_time (s : State) (v : Nat) : (s.setLoadState v).time = s.time :=
  (State.setLoadState_same (m := fun p => p == .time) (.refl s) v rfl rfl).time rfl
@[simp] theorem State.setLoadState_pwr (s : State) (v : Nat) : (s.setLoadState v).pwr = s.pwr :=
  (State.setLoadState_same (m := fun p => p == .pwr) (.refl s) v rfl rfl).pwr rfl
@[simp] theorem State.setLoadState_mtr (s : State) (v : Nat) : (s.setLoadState v).mtr = s.mtr :=
  (State.setLoadState_same (m := fun p => p == .mtr) (.refl s) v rfl rfl).mtr rfl
@[simp] theorem State.setLoadCode_pending (s : State) (code : Nat) (sec : Nat) (detail : Nat) :
    (s.setLoadCode code sec detail).pending = s.pending :=
  (State.setLoadCode_same (m := fun p => p == .pending) (.refl s) code sec detail rfl rfl).pending rfl
@[simp] theorem State.setLoadCode_fresh (s : State) (code : Nat) (sec : Nat) (detail : Nat) :
    (s.setLoadCode code sec detail).fresh = s.fresh :=
  (State.setLoadCode_same (m := fun p => p == .fresh) (.refl s) code sec detail rfl rfl).fresh rfl
@[simp] theorem State.setLoadCode_shadow (s : State) (code : Nat) (sec : Nat) (detail : Nat) :
    (s.setLoadCode code sec detail).shadow = s.shadow :=
  (State.setLoadCode_same (m := fun p => p == .shadow) (.refl s) code sec detail rfl rfl).shadow rfl
@[simp] theorem State.setLoadCode_response (s : State) (code : Nat) (sec : Nat) (detail : Nat) :
    (s.setLoadCode code sec detail).response = s.response :=
  (State.setLoadCode_same (m := fun p => p == .response) (.refl s) code sec detail rfl rfl).response rfl
@[simp] theorem State.setLoadCode_mem (s : State) (code : Nat) (sec : Nat) (detail : Nat) :
    (s.setLoadCode code sec detail).mem = s.mem :=
  (State.setLoadCode_same (m := fun p => p == .mem) (.refl s) code sec detail rfl rfl).mem rfl
@[simp] theorem State.setLoadCode_pkg (s : State) (code : Nat) (sec : Nat) (detail : Nat) :
    (s.setLoadCode code sec detail).pkg = s.pkg :=
  (State.setLoadCode_same (m := fun p => p == .pkg) (.refl s) code sec detail rfl rfl).pkg rfl
@[simp] theorem State.setLoadCode_links (s : State) (code : Nat) (sec : Nat) (detail : Nat) :
    (s.setLoadCode code sec detail).links = s.links :=
  (State.setLoadCode_same (m := fun p => p == .links) (.refl s) code sec detail rfl rfl).links rfl
@[simp] theorem State.setLoadCode_crossings (s : State) (code : Nat) (sec : Nat) (detail : Nat) :
    (s.setLoadCode code sec detail).crossings = s.crossings :=
  (State.setLoadCode_same (m := fun p => p == .crossings) (.refl s) code sec detail rfl rfl).crossings rfl
@[simp] theorem State.setLoadCode_cfg (s : State) (code : Nat) (sec : Nat) (detail : Nat) :
    (s.setLoadCode code sec detail).cfg = s.cfg :=
  (State.setLoadCode_same (m := fun p => p == .cfg) (.refl s) code sec detail rfl rfl).cfg rfl
@[simp] theorem State.setLoadCode_flt (s : State) (code : Nat) (sec : Nat) (detail : Nat) :
    (s.setLoadCode code sec detail).flt = s.flt :=
  (State.setLoadCode_same (m := fun p => p == .flt) (.refl s) code sec detail rfl rfl).flt rfl
@[simp] theorem State.setLoadCode_chk (s : State) (code : Nat) (sec : Nat) (detail : Nat) :
    (s.setLoadCode code sec detail).chk = s.chk :=
  (State.setLoadCode_same (m := fun p => p == .chk) (.refl s) code sec detail rfl rfl).chk rfl
@[simp] theorem State.setLoadCode_mm (s : State) (code : Nat) (sec : Nat) (detail : Nat) :
    (s.setLoadCode code sec detail).mm = s.mm :=
  (State.setLoadCode_same (m := fun p => p == .mm) (.refl s) code sec detail rfl rfl).mm rfl
@[simp] theorem State.setLoadCode_fleet (s : State) (code : Nat) (sec : Nat) (detail : Nat) :
    (s.setLoadCode code sec detail).fleet = s.fleet :=
  (State.setLoadCode_same (m := fun p => p == .fleet) (.refl s) code sec detail rfl rfl).fleet rfl
@[simp] theorem State.setLoadCode_clock (s : State) (code : Nat) (sec : Nat) (detail : Nat) :
    (s.setLoadCode code sec detail).clock = s.clock :=
  (State.setLoadCode_same (m := fun p => p == .clock) (.refl s) code sec detail rfl rfl).clock rfl
@[simp] theorem State.setLoadCode_dense (s : State) (code : Nat) (sec : Nat) (detail : Nat) :
    (s.setLoadCode code sec detail).dense = s.dense :=
  (State.setLoadCode_same (m := fun p => p == .dense) (.refl s) code sec detail rfl rfl).dense rfl
@[simp] theorem State.setLoadCode_emb (s : State) (code : Nat) (sec : Nat) (detail : Nat) :
    (s.setLoadCode code sec detail).emb = s.emb :=
  (State.setLoadCode_same (m := fun p => p == .emb) (.refl s) code sec detail rfl rfl).emb rfl
@[simp] theorem State.setLoadCode_wire (s : State) (code : Nat) (sec : Nat) (detail : Nat) :
    (s.setLoadCode code sec detail).wire = s.wire :=
  (State.setLoadCode_same (m := fun p => p == .wire) (.refl s) code sec detail rfl rfl).wire rfl
@[simp] theorem State.setLoadCode_sec (s : State) (code : Nat) (sec : Nat) (detail : Nat) :
    (s.setLoadCode code sec detail).sec = s.sec :=
  (State.setLoadCode_same (m := fun p => p == .sec) (.refl s) code sec detail rfl rfl).sec rfl
@[simp] theorem State.setLoadCode_det (s : State) (code : Nat) (sec : Nat) (detail : Nat) :
    (s.setLoadCode code sec detail).det = s.det :=
  (State.setLoadCode_same (m := fun p => p == .det) (.refl s) code sec detail rfl rfl).det rfl
@[simp] theorem State.setLoadCode_time (s : State) (code : Nat) (sec : Nat) (detail : Nat) :
    (s.setLoadCode code sec detail).time = s.time :=
  (State.setLoadCode_same (m := fun p => p == .time) (.refl s) code sec detail rfl rfl).time rfl
@[simp] theorem State.setLoadCode_pwr (s : State) (code : Nat) (sec : Nat) (detail : Nat) :
    (s.setLoadCode code sec detail).pwr = s.pwr :=
  (State.setLoadCode_same (m := fun p => p == .pwr) (.refl s) code sec detail rfl rfl).pwr rfl
@[simp] theorem State.setLoadCode_mtr (s : State) (code : Nat) (sec : Nat) (detail : Nat) :
    (s.setLoadCode code sec detail).mtr = s.mtr :=
  (State.setLoadCode_same (m := fun p => p == .mtr) (.refl s) code sec detail rfl rfl).mtr rfl
@[simp] theorem State.setBusy_pending (s : State) (b : Bool) : (s.setBusy b).pending = s.pending :=
  (State.setBusy_same (m := fun p => p == .pending) (.refl s) b rfl).pending rfl
@[simp] theorem State.setBusy_fresh (s : State) (b : Bool) : (s.setBusy b).fresh = s.fresh :=
  (State.setBusy_same (m := fun p => p == .fresh) (.refl s) b rfl).fresh rfl
@[simp] theorem State.setBusy_shadow (s : State) (b : Bool) : (s.setBusy b).shadow = s.shadow :=
  (State.setBusy_same (m := fun p => p == .shadow) (.refl s) b rfl).shadow rfl
@[simp] theorem State.setBusy_response (s : State) (b : Bool) : (s.setBusy b).response = s.response :=
  (State.setBusy_same (m := fun p => p == .response) (.refl s) b rfl).response rfl
@[simp] theorem State.setBusy_mem (s : State) (b : Bool) : (s.setBusy b).mem = s.mem :=
  (State.setBusy_same (m := fun p => p == .mem) (.refl s) b rfl).mem rfl
@[simp] theorem State.setBusy_pkg (s : State) (b : Bool) : (s.setBusy b).pkg = s.pkg :=
  (State.setBusy_same (m := fun p => p == .pkg) (.refl s) b rfl).pkg rfl
@[simp] theorem State.setBusy_links (s : State) (b : Bool) : (s.setBusy b).links = s.links :=
  (State.setBusy_same (m := fun p => p == .links) (.refl s) b rfl).links rfl
@[simp] theorem State.setBusy_crossings (s : State) (b : Bool) : (s.setBusy b).crossings = s.crossings :=
  (State.setBusy_same (m := fun p => p == .crossings) (.refl s) b rfl).crossings rfl
@[simp] theorem State.setBusy_cfg (s : State) (b : Bool) : (s.setBusy b).cfg = s.cfg :=
  (State.setBusy_same (m := fun p => p == .cfg) (.refl s) b rfl).cfg rfl
@[simp] theorem State.setBusy_flt (s : State) (b : Bool) : (s.setBusy b).flt = s.flt :=
  (State.setBusy_same (m := fun p => p == .flt) (.refl s) b rfl).flt rfl
@[simp] theorem State.setBusy_chk (s : State) (b : Bool) : (s.setBusy b).chk = s.chk :=
  (State.setBusy_same (m := fun p => p == .chk) (.refl s) b rfl).chk rfl
@[simp] theorem State.setBusy_mm (s : State) (b : Bool) : (s.setBusy b).mm = s.mm :=
  (State.setBusy_same (m := fun p => p == .mm) (.refl s) b rfl).mm rfl
@[simp] theorem State.setBusy_hub (s : State) (b : Bool) : (s.setBusy b).hub = s.hub :=
  (State.setBusy_same (m := fun p => p == .hub) (.refl s) b rfl).hub rfl
@[simp] theorem State.setBusy_fleet (s : State) (b : Bool) : (s.setBusy b).fleet = s.fleet :=
  (State.setBusy_same (m := fun p => p == .fleet) (.refl s) b rfl).fleet rfl
@[simp] theorem State.setBusy_clock (s : State) (b : Bool) : (s.setBusy b).clock = s.clock :=
  (State.setBusy_same (m := fun p => p == .clock) (.refl s) b rfl).clock rfl
@[simp] theorem State.setBusy_dense (s : State) (b : Bool) : (s.setBusy b).dense = s.dense :=
  (State.setBusy_same (m := fun p => p == .dense) (.refl s) b rfl).dense rfl
@[simp] theorem State.setBusy_emb (s : State) (b : Bool) : (s.setBusy b).emb = s.emb :=
  (State.setBusy_same (m := fun p => p == .emb) (.refl s) b rfl).emb rfl
@[simp] theorem State.setBusy_wire (s : State) (b : Bool) : (s.setBusy b).wire = s.wire :=
  (State.setBusy_same (m := fun p => p == .wire) (.refl s) b rfl).wire rfl
@[simp] theorem State.setBusy_sec (s : State) (b : Bool) : (s.setBusy b).sec = s.sec :=
  (State.setBusy_same (m := fun p => p == .sec) (.refl s) b rfl).sec rfl
@[simp] theorem State.setBusy_det (s : State) (b : Bool) : (s.setBusy b).det = s.det :=
  (State.setBusy_same (m := fun p => p == .det) (.refl s) b rfl).det rfl
@[simp] theorem State.setBusy_time (s : State) (b : Bool) : (s.setBusy b).time = s.time :=
  (State.setBusy_same (m := fun p => p == .time) (.refl s) b rfl).time rfl
@[simp] theorem State.setBusy_pwr (s : State) (b : Bool) : (s.setBusy b).pwr = s.pwr :=
  (State.setBusy_same (m := fun p => p == .pwr) (.refl s) b rfl).pwr rfl
@[simp] theorem State.setBusy_mtr (s : State) (b : Bool) : (s.setBusy b).mtr = s.mtr :=
  (State.setBusy_same (m := fun p => p == .mtr) (.refl s) b rfl).mtr rfl
@[simp] theorem State.setRecovery_pending (s : State) (f : Fld) (v : Nat) : (s.setRecovery f v).pending = s.pending :=
  (State.setRecovery_same (m := fun p => p == .pending) (.refl s) f v rfl rfl).pending rfl
@[simp] theorem State.setRecovery_fresh (s : State) (f : Fld) (v : Nat) : (s.setRecovery f v).fresh = s.fresh :=
  (State.setRecovery_same (m := fun p => p == .fresh) (.refl s) f v rfl rfl).fresh rfl
@[simp] theorem State.setRecovery_shadow (s : State) (f : Fld) (v : Nat) : (s.setRecovery f v).shadow = s.shadow :=
  (State.setRecovery_same (m := fun p => p == .shadow) (.refl s) f v rfl rfl).shadow rfl
@[simp] theorem State.setRecovery_response (s : State) (f : Fld) (v : Nat) :
    (s.setRecovery f v).response = s.response :=
  (State.setRecovery_same (m := fun p => p == .response) (.refl s) f v rfl rfl).response rfl
@[simp] theorem State.setRecovery_mem (s : State) (f : Fld) (v : Nat) : (s.setRecovery f v).mem = s.mem :=
  (State.setRecovery_same (m := fun p => p == .mem) (.refl s) f v rfl rfl).mem rfl
@[simp] theorem State.setRecovery_pkg (s : State) (f : Fld) (v : Nat) : (s.setRecovery f v).pkg = s.pkg :=
  (State.setRecovery_same (m := fun p => p == .pkg) (.refl s) f v rfl rfl).pkg rfl
@[simp] theorem State.setRecovery_links (s : State) (f : Fld) (v : Nat) : (s.setRecovery f v).links = s.links :=
  (State.setRecovery_same (m := fun p => p == .links) (.refl s) f v rfl rfl).links rfl
@[simp] theorem State.setRecovery_crossings (s : State) (f : Fld) (v : Nat) :
    (s.setRecovery f v).crossings = s.crossings :=
  (State.setRecovery_same (m := fun p => p == .crossings) (.refl s) f v rfl rfl).crossings rfl
@[simp] theorem State.setRecovery_cfg (s : State) (f : Fld) (v : Nat) : (s.setRecovery f v).cfg = s.cfg :=
  (State.setRecovery_same (m := fun p => p == .cfg) (.refl s) f v rfl rfl).cfg rfl
@[simp] theorem State.setRecovery_flt (s : State) (f : Fld) (v : Nat) : (s.setRecovery f v).flt = s.flt :=
  (State.setRecovery_same (m := fun p => p == .flt) (.refl s) f v rfl rfl).flt rfl
@[simp] theorem State.setRecovery_chk (s : State) (f : Fld) (v : Nat) : (s.setRecovery f v).chk = s.chk :=
  (State.setRecovery_same (m := fun p => p == .chk) (.refl s) f v rfl rfl).chk rfl
@[simp] theorem State.setRecovery_mm (s : State) (f : Fld) (v : Nat) : (s.setRecovery f v).mm = s.mm :=
  (State.setRecovery_same (m := fun p => p == .mm) (.refl s) f v rfl rfl).mm rfl
@[simp] theorem State.setRecovery_fleet (s : State) (f : Fld) (v : Nat) : (s.setRecovery f v).fleet = s.fleet :=
  (State.setRecovery_same (m := fun p => p == .fleet) (.refl s) f v rfl rfl).fleet rfl
@[simp] theorem State.setRecovery_clock (s : State) (f : Fld) (v : Nat) : (s.setRecovery f v).clock = s.clock :=
  (State.setRecovery_same (m := fun p => p == .clock) (.refl s) f v rfl rfl).clock rfl
@[simp] theorem State.setRecovery_dense (s : State) (f : Fld) (v : Nat) : (s.setRecovery f v).dense = s.dense :=
  (State.setRecovery_same (m := fun p => p == .dense) (.refl s) f v rfl rfl).dense rfl
@[simp] theorem State.setRecovery_emb (s : State) (f : Fld) (v : Nat) : (s.setRecovery f v).emb = s.emb :=
  (State.setRecovery_same (m := fun p => p == .emb) (.refl s) f v rfl rfl).emb rfl
@[simp] theorem State.setRecovery_wire (s : State) (f : Fld) (v : Nat) : (s.setRecovery f v).wire = s.wire :=
  (State.setRecovery_same (m := fun p => p == .wire) (.refl s) f v rfl rfl).wire rfl
@[simp] theorem State.setRecovery_sec (s : State) (f : Fld) (v : Nat) : (s.setRecovery f v).sec = s.sec :=
  (State.setRecovery_same (m := fun p => p == .sec) (.refl s) f v rfl rfl).sec rfl
@[simp] theorem State.setRecovery_det (s : State) (f : Fld) (v : Nat) : (s.setRecovery f v).det = s.det :=
  (State.setRecovery_same (m := fun p => p == .det) (.refl s) f v rfl rfl).det rfl
@[simp] theorem State.setRecovery_time (s : State) (f : Fld) (v : Nat) : (s.setRecovery f v).time = s.time :=
  (State.setRecovery_same (m := fun p => p == .time) (.refl s) f v rfl rfl).time rfl
@[simp] theorem State.setRecovery_pwr (s : State) (f : Fld) (v : Nat) : (s.setRecovery f v).pwr = s.pwr :=
  (State.setRecovery_same (m := fun p => p == .pwr) (.refl s) f v rfl rfl).pwr rfl
@[simp] theorem State.setRecovery_mtr (s : State) (f : Fld) (v : Nat) : (s.setRecovery f v).mtr = s.mtr :=
  (State.setRecovery_same (m := fun p => p == .mtr) (.refl s) f v rfl rfl).mtr rfl
@[simp] theorem State.stackTemp_pending (s : State) (k : Nat) (temp : Nat) :
    (s.stackTemp k temp).pending = s.pending :=
  (State.stackTemp_same (m := fun p => p == .pending) (.refl s) k temp rfl).pending rfl
@[simp] theorem State.stackTemp_fresh (s : State) (k : Nat) (temp : Nat) : (s.stackTemp k temp).fresh = s.fresh :=
  (State.stackTemp_same (m := fun p => p == .fresh) (.refl s) k temp rfl).fresh rfl
@[simp] theorem State.stackTemp_shadow (s : State) (k : Nat) (temp : Nat) : (s.stackTemp k temp).shadow = s.shadow :=
  (State.stackTemp_same (m := fun p => p == .shadow) (.refl s) k temp rfl).shadow rfl
@[simp] theorem State.stackTemp_response (s : State) (k : Nat) (temp : Nat) :
    (s.stackTemp k temp).response = s.response :=
  (State.stackTemp_same (m := fun p => p == .response) (.refl s) k temp rfl).response rfl
@[simp] theorem State.stackTemp_mem (s : State) (k : Nat) (temp : Nat) : (s.stackTemp k temp).mem = s.mem :=
  (State.stackTemp_same (m := fun p => p == .mem) (.refl s) k temp rfl).mem rfl
@[simp] theorem State.stackTemp_pkg (s : State) (k : Nat) (temp : Nat) : (s.stackTemp k temp).pkg = s.pkg :=
  (State.stackTemp_same (m := fun p => p == .pkg) (.refl s) k temp rfl).pkg rfl
@[simp] theorem State.stackTemp_links (s : State) (k : Nat) (temp : Nat) : (s.stackTemp k temp).links = s.links :=
  (State.stackTemp_same (m := fun p => p == .links) (.refl s) k temp rfl).links rfl
@[simp] theorem State.stackTemp_crossings (s : State) (k : Nat) (temp : Nat) :
    (s.stackTemp k temp).crossings = s.crossings :=
  (State.stackTemp_same (m := fun p => p == .crossings) (.refl s) k temp rfl).crossings rfl
@[simp] theorem State.stackTemp_cfg (s : State) (k : Nat) (temp : Nat) : (s.stackTemp k temp).cfg = s.cfg :=
  (State.stackTemp_same (m := fun p => p == .cfg) (.refl s) k temp rfl).cfg rfl
@[simp] theorem State.stackTemp_flt (s : State) (k : Nat) (temp : Nat) : (s.stackTemp k temp).flt = s.flt :=
  (State.stackTemp_same (m := fun p => p == .flt) (.refl s) k temp rfl).flt rfl
@[simp] theorem State.stackTemp_chk (s : State) (k : Nat) (temp : Nat) : (s.stackTemp k temp).chk = s.chk :=
  (State.stackTemp_same (m := fun p => p == .chk) (.refl s) k temp rfl).chk rfl
@[simp] theorem State.stackTemp_mm (s : State) (k : Nat) (temp : Nat) : (s.stackTemp k temp).mm = s.mm :=
  (State.stackTemp_same (m := fun p => p == .mm) (.refl s) k temp rfl).mm rfl
@[simp] theorem State.stackTemp_hub (s : State) (k : Nat) (temp : Nat) : (s.stackTemp k temp).hub = s.hub :=
  (State.stackTemp_same (m := fun p => p == .hub) (.refl s) k temp rfl).hub rfl
@[simp] theorem State.stackTemp_fleet (s : State) (k : Nat) (temp : Nat) : (s.stackTemp k temp).fleet = s.fleet :=
  (State.stackTemp_same (m := fun p => p == .fleet) (.refl s) k temp rfl).fleet rfl
@[simp] theorem State.stackTemp_clock (s : State) (k : Nat) (temp : Nat) : (s.stackTemp k temp).clock = s.clock :=
  (State.stackTemp_same (m := fun p => p == .clock) (.refl s) k temp rfl).clock rfl
@[simp] theorem State.stackTemp_dense (s : State) (k : Nat) (temp : Nat) : (s.stackTemp k temp).dense = s.dense :=
  (State.stackTemp_same (m := fun p => p == .dense) (.refl s) k temp rfl).dense rfl
@[simp] theorem State.stackTemp_emb (s : State) (k : Nat) (temp : Nat) : (s.stackTemp k temp).emb = s.emb :=
  (State.stackTemp_same (m := fun p => p == .emb) (.refl s) k temp rfl).emb rfl
@[simp] theorem State.stackTemp_wire (s : State) (k : Nat) (temp : Nat) : (s.stackTemp k temp).wire = s.wire :=
  (State.stackTemp_same (m := fun p => p == .wire) (.refl s) k temp rfl).wire rfl
@[simp] theorem State.stackTemp_sec (s : State) (k : Nat) (temp : Nat) : (s.stackTemp k temp).sec = s.sec :=
  (State.stackTemp_same (m := fun p => p == .sec) (.refl s) k temp rfl).sec rfl
@[simp] theorem State.stackTemp_det (s : State) (k : Nat) (temp : Nat) : (s.stackTemp k temp).det = s.det :=
  (State.stackTemp_same (m := fun p => p == .det) (.refl s) k temp rfl).det rfl
@[simp] theorem State.stackTemp_time (s : State) (k : Nat) (temp : Nat) : (s.stackTemp k temp).time = s.time :=
  (State.stackTemp_same (m := fun p => p == .time) (.refl s) k temp rfl).time rfl
@[simp] theorem State.stackTemp_pwr (s : State) (k : Nat) (temp : Nat) : (s.stackTemp k temp).pwr = s.pwr :=
  (State.stackTemp_same (m := fun p => p == .pwr) (.refl s) k temp rfl).pwr rfl
@[simp] theorem State.stackTemp_mtr (s : State) (k : Nat) (temp : Nat) : (s.stackTemp k temp).mtr = s.mtr :=
  (State.stackTemp_same (m := fun p => p == .mtr) (.refl s) k temp rfl).mtr rfl
@[simp] theorem State.pushRecord_pending (s : State) (r : ErrRecord) : (s.pushRecord r).pending = s.pending :=
  (State.pushRecord_same (m := fun p => p == .pending) (.refl s) r rfl rfl).pending rfl
@[simp] theorem State.pushRecord_fresh (s : State) (r : ErrRecord) : (s.pushRecord r).fresh = s.fresh :=
  (State.pushRecord_same (m := fun p => p == .fresh) (.refl s) r rfl rfl).fresh rfl
@[simp] theorem State.pushRecord_shadow (s : State) (r : ErrRecord) : (s.pushRecord r).shadow = s.shadow :=
  (State.pushRecord_same (m := fun p => p == .shadow) (.refl s) r rfl rfl).shadow rfl
@[simp] theorem State.pushRecord_response (s : State) (r : ErrRecord) : (s.pushRecord r).response = s.response :=
  (State.pushRecord_same (m := fun p => p == .response) (.refl s) r rfl rfl).response rfl
@[simp] theorem State.pushRecord_mem (s : State) (r : ErrRecord) : (s.pushRecord r).mem = s.mem :=
  (State.pushRecord_same (m := fun p => p == .mem) (.refl s) r rfl rfl).mem rfl
@[simp] theorem State.pushRecord_pkg (s : State) (r : ErrRecord) : (s.pushRecord r).pkg = s.pkg :=
  (State.pushRecord_same (m := fun p => p == .pkg) (.refl s) r rfl rfl).pkg rfl
@[simp] theorem State.pushRecord_links (s : State) (r : ErrRecord) : (s.pushRecord r).links = s.links :=
  (State.pushRecord_same (m := fun p => p == .links) (.refl s) r rfl rfl).links rfl
@[simp] theorem State.pushRecord_crossings (s : State) (r : ErrRecord) : (s.pushRecord r).crossings = s.crossings :=
  (State.pushRecord_same (m := fun p => p == .crossings) (.refl s) r rfl rfl).crossings rfl
@[simp] theorem State.pushRecord_cfg (s : State) (r : ErrRecord) : (s.pushRecord r).cfg = s.cfg :=
  (State.pushRecord_same (m := fun p => p == .cfg) (.refl s) r rfl rfl).cfg rfl
@[simp] theorem State.pushRecord_flt (s : State) (r : ErrRecord) : (s.pushRecord r).flt = s.flt :=
  (State.pushRecord_same (m := fun p => p == .flt) (.refl s) r rfl rfl).flt rfl
@[simp] theorem State.pushRecord_mm (s : State) (r : ErrRecord) : (s.pushRecord r).mm = s.mm :=
  (State.pushRecord_same (m := fun p => p == .mm) (.refl s) r rfl rfl).mm rfl
@[simp] theorem State.pushRecord_hub (s : State) (r : ErrRecord) : (s.pushRecord r).hub = s.hub :=
  (State.pushRecord_same (m := fun p => p == .hub) (.refl s) r rfl rfl).hub rfl
@[simp] theorem State.pushRecord_fleet (s : State) (r : ErrRecord) : (s.pushRecord r).fleet = s.fleet :=
  (State.pushRecord_same (m := fun p => p == .fleet) (.refl s) r rfl rfl).fleet rfl
@[simp] theorem State.pushRecord_clock (s : State) (r : ErrRecord) : (s.pushRecord r).clock = s.clock :=
  (State.pushRecord_same (m := fun p => p == .clock) (.refl s) r rfl rfl).clock rfl
@[simp] theorem State.pushRecord_dense (s : State) (r : ErrRecord) : (s.pushRecord r).dense = s.dense :=
  (State.pushRecord_same (m := fun p => p == .dense) (.refl s) r rfl rfl).dense rfl
@[simp] theorem State.pushRecord_emb (s : State) (r : ErrRecord) : (s.pushRecord r).emb = s.emb :=
  (State.pushRecord_same (m := fun p => p == .emb) (.refl s) r rfl rfl).emb rfl
@[simp] theorem State.pushRecord_wire (s : State) (r : ErrRecord) : (s.pushRecord r).wire = s.wire :=
  (State.pushRecord_same (m := fun p => p == .wire) (.refl s) r rfl rfl).wire rfl
@[simp] theorem State.pushRecord_sec (s : State) (r : ErrRecord) : (s.pushRecord r).sec = s.sec :=
  (State.pushRecord_same (m := fun p => p == .sec) (.refl s) r rfl rfl).sec rfl
@[simp] theorem State.pushRecord_det (s : State) (r : ErrRecord) : (s.pushRecord r).det = s.det :=
  (State.pushRecord_same (m := fun p => p == .det) (.refl s) r rfl rfl).det rfl
@[simp] theorem State.pushRecord_time (s : State) (r : ErrRecord) : (s.pushRecord r).time = s.time :=
  (State.pushRecord_same (m := fun p => p == .time) (.refl s) r rfl rfl).time rfl
@[simp] theorem State.pushRecord_pwr (s : State) (r : ErrRecord) : (s.pushRecord r).pwr = s.pwr :=
  (State.pushRecord_same (m := fun p => p == .pwr) (.refl s) r rfl rfl).pwr rfl
@[simp] theorem State.pushRecord_mtr (s : State) (r : ErrRecord) : (s.pushRecord r).mtr = s.mtr :=
  (State.pushRecord_same (m := fun p => p == .mtr) (.refl s) r rfl rfl).mtr rfl
@[simp] theorem State.sendRecord_pending (s : State) (r : ErrRecord) : (s.sendRecord r).pending = s.pending :=
  (State.sendRecord_same (m := fun p => p == .pending) (.refl s) r rfl rfl).pending rfl
@[simp] theorem State.sendRecord_fresh (s : State) (r : ErrRecord) : (s.sendRecord r).fresh = s.fresh :=
  (State.sendRecord_same (m := fun p => p == .fresh) (.refl s) r rfl rfl).fresh rfl
@[simp] theorem State.sendRecord_shadow (s : State) (r : ErrRecord) : (s.sendRecord r).shadow = s.shadow :=
  (State.sendRecord_same (m := fun p => p == .shadow) (.refl s) r rfl rfl).shadow rfl
@[simp] theorem State.sendRecord_response (s : State) (r : ErrRecord) : (s.sendRecord r).response = s.response :=
  (State.sendRecord_same (m := fun p => p == .response) (.refl s) r rfl rfl).response rfl
@[simp] theorem State.sendRecord_mem (s : State) (r : ErrRecord) : (s.sendRecord r).mem = s.mem :=
  (State.sendRecord_same (m := fun p => p == .mem) (.refl s) r rfl rfl).mem rfl
@[simp] theorem State.sendRecord_pkg (s : State) (r : ErrRecord) : (s.sendRecord r).pkg = s.pkg :=
  (State.sendRecord_same (m := fun p => p == .pkg) (.refl s) r rfl rfl).pkg rfl
@[simp] theorem State.sendRecord_links (s : State) (r : ErrRecord) : (s.sendRecord r).links = s.links :=
  (State.sendRecord_same (m := fun p => p == .links) (.refl s) r rfl rfl).links rfl
@[simp] theorem State.sendRecord_crossings (s : State) (r : ErrRecord) : (s.sendRecord r).crossings = s.crossings :=
  (State.sendRecord_same (m := fun p => p == .crossings) (.refl s) r rfl rfl).crossings rfl
@[simp] theorem State.sendRecord_cfg (s : State) (r : ErrRecord) : (s.sendRecord r).cfg = s.cfg :=
  (State.sendRecord_same (m := fun p => p == .cfg) (.refl s) r rfl rfl).cfg rfl
@[simp] theorem State.sendRecord_flt (s : State) (r : ErrRecord) : (s.sendRecord r).flt = s.flt :=
  (State.sendRecord_same (m := fun p => p == .flt) (.refl s) r rfl rfl).flt rfl
@[simp] theorem State.sendRecord_mm (s : State) (r : ErrRecord) : (s.sendRecord r).mm = s.mm :=
  (State.sendRecord_same (m := fun p => p == .mm) (.refl s) r rfl rfl).mm rfl
@[simp] theorem State.sendRecord_hub (s : State) (r : ErrRecord) : (s.sendRecord r).hub = s.hub :=
  (State.sendRecord_same (m := fun p => p == .hub) (.refl s) r rfl rfl).hub rfl
@[simp] theorem State.sendRecord_fleet (s : State) (r : ErrRecord) : (s.sendRecord r).fleet = s.fleet :=
  (State.sendRecord_same (m := fun p => p == .fleet) (.refl s) r rfl rfl).fleet rfl
@[simp] theorem State.sendRecord_clock (s : State) (r : ErrRecord) : (s.sendRecord r).clock = s.clock :=
  (State.sendRecord_same (m := fun p => p == .clock) (.refl s) r rfl rfl).clock rfl
@[simp] theorem State.sendRecord_dense (s : State) (r : ErrRecord) : (s.sendRecord r).dense = s.dense :=
  (State.sendRecord_same (m := fun p => p == .dense) (.refl s) r rfl rfl).dense rfl
@[simp] theorem State.sendRecord_emb (s : State) (r : ErrRecord) : (s.sendRecord r).emb = s.emb :=
  (State.sendRecord_same (m := fun p => p == .emb) (.refl s) r rfl rfl).emb rfl
@[simp] theorem State.sendRecord_wire (s : State) (r : ErrRecord) : (s.sendRecord r).wire = s.wire :=
  (State.sendRecord_same (m := fun p => p == .wire) (.refl s) r rfl rfl).wire rfl
@[simp] theorem State.sendRecord_sec (s : State) (r : ErrRecord) : (s.sendRecord r).sec = s.sec :=
  (State.sendRecord_same (m := fun p => p == .sec) (.refl s) r rfl rfl).sec rfl
@[simp] theorem State.sendRecord_det (s : State) (r : ErrRecord) : (s.sendRecord r).det = s.det :=
  (State.sendRecord_same (m := fun p => p == .det) (.refl s) r rfl rfl).det rfl
@[simp] theorem State.sendRecord_time (s : State) (r : ErrRecord) : (s.sendRecord r).time = s.time :=
  (State.sendRecord_same (m := fun p => p == .time) (.refl s) r rfl rfl).time rfl
@[simp] theorem State.sendRecord_pwr (s : State) (r : ErrRecord) : (s.sendRecord r).pwr = s.pwr :=
  (State.sendRecord_same (m := fun p => p == .pwr) (.refl s) r rfl rfl).pwr rfl
@[simp] theorem State.sendRecord_mtr (s : State) (r : ErrRecord) : (s.sendRecord r).mtr = s.mtr :=
  (State.sendRecord_same (m := fun p => p == .mtr) (.refl s) r rfl rfl).mtr rfl
@[simp] theorem State.emit_pending (s : State) (sev : Nat) (kind : Nat) (at_ : Site) (op : Nat) (synd : Nat) :
    (s.emit sev kind at_ op synd).pending = s.pending :=
  (State.emit_same (m := fun p => p == .pending) (.refl s) sev kind at_ op synd rfl rfl).pending rfl
@[simp] theorem State.emit_fresh (s : State) (sev : Nat) (kind : Nat) (at_ : Site) (op : Nat) (synd : Nat) :
    (s.emit sev kind at_ op synd).fresh = s.fresh :=
  (State.emit_same (m := fun p => p == .fresh) (.refl s) sev kind at_ op synd rfl rfl).fresh rfl
@[simp] theorem State.emit_shadow (s : State) (sev : Nat) (kind : Nat) (at_ : Site) (op : Nat) (synd : Nat) :
    (s.emit sev kind at_ op synd).shadow = s.shadow :=
  (State.emit_same (m := fun p => p == .shadow) (.refl s) sev kind at_ op synd rfl rfl).shadow rfl
@[simp] theorem State.emit_response (s : State) (sev : Nat) (kind : Nat) (at_ : Site) (op : Nat) (synd : Nat) :
    (s.emit sev kind at_ op synd).response = s.response :=
  (State.emit_same (m := fun p => p == .response) (.refl s) sev kind at_ op synd rfl rfl).response rfl
@[simp] theorem State.emit_mem (s : State) (sev : Nat) (kind : Nat) (at_ : Site) (op : Nat) (synd : Nat) :
    (s.emit sev kind at_ op synd).mem = s.mem :=
  (State.emit_same (m := fun p => p == .mem) (.refl s) sev kind at_ op synd rfl rfl).mem rfl
@[simp] theorem State.emit_pkg (s : State) (sev : Nat) (kind : Nat) (at_ : Site) (op : Nat) (synd : Nat) :
    (s.emit sev kind at_ op synd).pkg = s.pkg :=
  (State.emit_same (m := fun p => p == .pkg) (.refl s) sev kind at_ op synd rfl rfl).pkg rfl
@[simp] theorem State.emit_links (s : State) (sev : Nat) (kind : Nat) (at_ : Site) (op : Nat) (synd : Nat) :
    (s.emit sev kind at_ op synd).links = s.links :=
  (State.emit_same (m := fun p => p == .links) (.refl s) sev kind at_ op synd rfl rfl).links rfl
@[simp] theorem State.emit_crossings (s : State) (sev : Nat) (kind : Nat) (at_ : Site) (op : Nat) (synd : Nat) :
    (s.emit sev kind at_ op synd).crossings = s.crossings :=
  (State.emit_same (m := fun p => p == .crossings) (.refl s) sev kind at_ op synd rfl rfl).crossings rfl
@[simp] theorem State.emit_cfg (s : State) (sev : Nat) (kind : Nat) (at_ : Site) (op : Nat) (synd : Nat) :
    (s.emit sev kind at_ op synd).cfg = s.cfg :=
  (State.emit_same (m := fun p => p == .cfg) (.refl s) sev kind at_ op synd rfl rfl).cfg rfl
@[simp] theorem State.emit_flt (s : State) (sev : Nat) (kind : Nat) (at_ : Site) (op : Nat) (synd : Nat) :
    (s.emit sev kind at_ op synd).flt = s.flt :=
  (State.emit_same (m := fun p => p == .flt) (.refl s) sev kind at_ op synd rfl rfl).flt rfl
@[simp] theorem State.emit_mm (s : State) (sev : Nat) (kind : Nat) (at_ : Site) (op : Nat) (synd : Nat) :
    (s.emit sev kind at_ op synd).mm = s.mm :=
  (State.emit_same (m := fun p => p == .mm) (.refl s) sev kind at_ op synd rfl rfl).mm rfl
@[simp] theorem State.emit_hub (s : State) (sev : Nat) (kind : Nat) (at_ : Site) (op : Nat) (synd : Nat) :
    (s.emit sev kind at_ op synd).hub = s.hub :=
  (State.emit_same (m := fun p => p == .hub) (.refl s) sev kind at_ op synd rfl rfl).hub rfl
@[simp] theorem State.emit_fleet (s : State) (sev : Nat) (kind : Nat) (at_ : Site) (op : Nat) (synd : Nat) :
    (s.emit sev kind at_ op synd).fleet = s.fleet :=
  (State.emit_same (m := fun p => p == .fleet) (.refl s) sev kind at_ op synd rfl rfl).fleet rfl
@[simp] theorem State.emit_clock (s : State) (sev : Nat) (kind : Nat) (at_ : Site) (op : Nat) (synd : Nat) :
    (s.emit sev kind at_ op synd).clock = s.clock :=
  (State.emit_same (m := fun p => p == .clock) (.refl s) sev kind at_ op synd rfl rfl).clock rfl
@[simp] theorem State.emit_dense (s : State) (sev : Nat) (kind : Nat) (at_ : Site) (op : Nat) (synd : Nat) :
    (s.emit sev kind at_ op synd).dense = s.dense :=
  (State.emit_same (m := fun p => p == .dense) (.refl s) sev kind at_ op synd rfl rfl).dense rfl
@[simp] theorem State.emit_emb (s : State) (sev : Nat) (kind : Nat) (at_ : Site) (op : Nat) (synd : Nat) :
    (s.emit sev kind at_ op synd).emb = s.emb :=
  (State.emit_same (m := fun p => p == .emb) (.refl s) sev kind at_ op synd rfl rfl).emb rfl
@[simp] theorem State.emit_wire (s : State) (sev : Nat) (kind : Nat) (at_ : Site) (op : Nat) (synd : Nat) :
    (s.emit sev kind at_ op synd).wire = s.wire :=
  (State.emit_same (m := fun p => p == .wire) (.refl s) sev kind at_ op synd rfl rfl).wire rfl
@[simp] theorem State.emit_sec (s : State) (sev : Nat) (kind : Nat) (at_ : Site) (op : Nat) (synd : Nat) :
    (s.emit sev kind at_ op synd).sec = s.sec :=
  (State.emit_same (m := fun p => p == .sec) (.refl s) sev kind at_ op synd rfl rfl).sec rfl
@[simp] theorem State.emit_det (s : State) (sev : Nat) (kind : Nat) (at_ : Site) (op : Nat) (synd : Nat) :
    (s.emit sev kind at_ op synd).det = s.det :=
  (State.emit_same (m := fun p => p == .det) (.refl s) sev kind at_ op synd rfl rfl).det rfl
@[simp] theorem State.emit_time (s : State) (sev : Nat) (kind : Nat) (at_ : Site) (op : Nat) (synd : Nat) :
    (s.emit sev kind at_ op synd).time = s.time :=
  (State.emit_same (m := fun p => p == .time) (.refl s) sev kind at_ op synd rfl rfl).time rfl
@[simp] theorem State.emit_pwr (s : State) (sev : Nat) (kind : Nat) (at_ : Site) (op : Nat) (synd : Nat) :
    (s.emit sev kind at_ op synd).pwr = s.pwr :=
  (State.emit_same (m := fun p => p == .pwr) (.refl s) sev kind at_ op synd rfl rfl).pwr rfl
@[simp] theorem State.emit_mtr (s : State) (sev : Nat) (kind : Nat) (at_ : Site) (op : Nat) (synd : Nat) :
    (s.emit sev kind at_ op synd).mtr = s.mtr :=
  (State.emit_same (m := fun p => p == .mtr) (.refl s) sev kind at_ op synd rfl rfl).mtr rfl
@[simp] theorem State.protectedRecord_pending (s : State) (a : Nat) (op : Nat) :
    (s.protectedRecord a op).pending = s.pending :=
  (State.protectedRecord_same (m := fun p => p == .pending) (.refl s) a op rfl rfl).pending rfl
@[simp] theorem State.protectedRecord_fresh (s : State) (a : Nat) (op : Nat) :
    (s.protectedRecord a op).fresh = s.fresh :=
  (State.protectedRecord_same (m := fun p => p == .fresh) (.refl s) a op rfl rfl).fresh rfl
@[simp] theorem State.protectedRecord_shadow (s : State) (a : Nat) (op : Nat) :
    (s.protectedRecord a op).shadow = s.shadow :=
  (State.protectedRecord_same (m := fun p => p == .shadow) (.refl s) a op rfl rfl).shadow rfl
@[simp] theorem State.protectedRecord_response (s : State) (a : Nat) (op : Nat) :
    (s.protectedRecord a op).response = s.response :=
  (State.protectedRecord_same (m := fun p => p == .response) (.refl s) a op rfl rfl).response rfl
@[simp] theorem State.protectedRecord_mem (s : State) (a : Nat) (op : Nat) : (s.protectedRecord a op).mem = s.mem :=
  (State.protectedRecord_same (m := fun p => p == .mem) (.refl s) a op rfl rfl).mem rfl
@[simp] theorem State.protectedRecord_pkg (s : State) (a : Nat) (op : Nat) : (s.protectedRecord a op).pkg = s.pkg :=
  (State.protectedRecord_same (m := fun p => p == .pkg) (.refl s) a op rfl rfl).pkg rfl
@[simp] theorem State.protectedRecord_links (s : State) (a : Nat) (op : Nat) :
    (s.protectedRecord a op).links = s.links :=
  (State.protectedRecord_same (m := fun p => p == .links) (.refl s) a op rfl rfl).links rfl
@[simp] theorem State.protectedRecord_crossings (s : State) (a : Nat) (op : Nat) :
    (s.protectedRecord a op).crossings = s.crossings :=
  (State.protectedRecord_same (m := fun p => p == .crossings) (.refl s) a op rfl rfl).crossings rfl
@[simp] theorem State.protectedRecord_cfg (s : State) (a : Nat) (op : Nat) : (s.protectedRecord a op).cfg = s.cfg :=
  (State.protectedRecord_same (m := fun p => p == .cfg) (.refl s) a op rfl rfl).cfg rfl
@[simp] theorem State.protectedRecord_flt (s : State) (a : Nat) (op : Nat) : (s.protectedRecord a op).flt = s.flt :=
  (State.protectedRecord_same (m := fun p => p == .flt) (.refl s) a op rfl rfl).flt rfl
@[simp] theorem State.protectedRecord_mm (s : State) (a : Nat) (op : Nat) : (s.protectedRecord a op).mm = s.mm :=
  (State.protectedRecord_same (m := fun p => p == .mm) (.refl s) a op rfl rfl).mm rfl
@[simp] theorem State.protectedRecord_hub (s : State) (a : Nat) (op : Nat) : (s.protectedRecord a op).hub = s.hub :=
  (State.protectedRecord_same (m := fun p => p == .hub) (.refl s) a op rfl rfl).hub rfl
@[simp] theorem State.protectedRecord_fleet (s : State) (a : Nat) (op : Nat) :
    (s.protectedRecord a op).fleet = s.fleet :=
  (State.protectedRecord_same (m := fun p => p == .fleet) (.refl s) a op rfl rfl).fleet rfl
@[simp] theorem State.protectedRecord_clock (s : State) (a : Nat) (op : Nat) :
    (s.protectedRecord a op).clock = s.clock :=
  (State.protectedRecord_same (m := fun p => p == .clock) (.refl s) a op rfl rfl).clock rfl
@[simp] theorem State.protectedRecord_dense (s : State) (a : Nat) (op : Nat) :
    (s.protectedRecord a op).dense = s.dense :=
  (State.protectedRecord_same (m := fun p => p == .dense) (.refl s) a op rfl rfl).dense rfl
@[simp] theorem State.protectedRecord_emb (s : State) (a : Nat) (op : Nat) : (s.protectedRecord a op).emb = s.emb :=
  (State.protectedRecord_same (m := fun p => p == .emb) (.refl s) a op rfl rfl).emb rfl
@[simp] theorem State.protectedRecord_wire (s : State) (a : Nat) (op : Nat) :
    (s.protectedRecord a op).wire = s.wire :=
  (State.protectedRecord_same (m := fun p => p == .wire) (.refl s) a op rfl rfl).wire rfl
@[simp] theorem State.protectedRecord_sec (s : State) (a : Nat) (op : Nat) : (s.protectedRecord a op).sec = s.sec :=
  (State.protectedRecord_same (m := fun p => p == .sec) (.refl s) a op rfl rfl).sec rfl
@[simp] theorem State.protectedRecord_det (s : State) (a : Nat) (op : Nat) : (s.protectedRecord a op).det = s.det :=
  (State.protectedRecord_same (m := fun p => p == .det) (.refl s) a op rfl rfl).det rfl
@[simp] theorem State.protectedRecord_time (s : State) (a : Nat) (op : Nat) :
    (s.protectedRecord a op).time = s.time :=
  (State.protectedRecord_same (m := fun p => p == .time) (.refl s) a op rfl rfl).time rfl
@[simp] theorem State.protectedRecord_pwr (s : State) (a : Nat) (op : Nat) : (s.protectedRecord a op).pwr = s.pwr :=
  (State.protectedRecord_same (m := fun p => p == .pwr) (.refl s) a op rfl rfl).pwr rfl
@[simp] theorem State.protectedRecord_mtr (s : State) (a : Nat) (op : Nat) : (s.protectedRecord a op).mtr = s.mtr :=
  (State.protectedRecord_same (m := fun p => p == .mtr) (.refl s) a op rfl rfl).mtr rfl
@[simp] theorem State.guardedWrite_pending (s : State) (a : Nat) (bs : List Byte) (op : Nat) :
    (s.guardedWrite a bs op).pending = s.pending :=
  (State.guardedWrite_same (m := fun p => p == .pending) (.refl s) a bs op rfl rfl rfl rfl).pending rfl
@[simp] theorem State.guardedWrite_fresh (s : State) (a : Nat) (bs : List Byte) (op : Nat) :
    (s.guardedWrite a bs op).fresh = s.fresh :=
  (State.guardedWrite_same (m := fun p => p == .fresh) (.refl s) a bs op rfl rfl rfl rfl).fresh rfl
@[simp] theorem State.guardedWrite_shadow (s : State) (a : Nat) (bs : List Byte) (op : Nat) :
    (s.guardedWrite a bs op).shadow = s.shadow :=
  (State.guardedWrite_same (m := fun p => p == .shadow) (.refl s) a bs op rfl rfl rfl rfl).shadow rfl
@[simp] theorem State.guardedWrite_response (s : State) (a : Nat) (bs : List Byte) (op : Nat) :
    (s.guardedWrite a bs op).response = s.response :=
  (State.guardedWrite_same (m := fun p => p == .response) (.refl s) a bs op rfl rfl rfl rfl).response rfl
@[simp] theorem State.guardedWrite_pkg (s : State) (a : Nat) (bs : List Byte) (op : Nat) :
    (s.guardedWrite a bs op).pkg = s.pkg :=
  (State.guardedWrite_same (m := fun p => p == .pkg) (.refl s) a bs op rfl rfl rfl rfl).pkg rfl
@[simp] theorem State.guardedWrite_links (s : State) (a : Nat) (bs : List Byte) (op : Nat) :
    (s.guardedWrite a bs op).links = s.links :=
  (State.guardedWrite_same (m := fun p => p == .links) (.refl s) a bs op rfl rfl rfl rfl).links rfl
@[simp] theorem State.guardedWrite_crossings (s : State) (a : Nat) (bs : List Byte) (op : Nat) :
    (s.guardedWrite a bs op).crossings = s.crossings :=
  (State.guardedWrite_same (m := fun p => p == .crossings) (.refl s) a bs op rfl rfl rfl rfl).crossings rfl
@[simp] theorem State.guardedWrite_cfg (s : State) (a : Nat) (bs : List Byte) (op : Nat) :
    (s.guardedWrite a bs op).cfg = s.cfg :=
  (State.guardedWrite_same (m := fun p => p == .cfg) (.refl s) a bs op rfl rfl rfl rfl).cfg rfl
@[simp] theorem State.guardedWrite_flt (s : State) (a : Nat) (bs : List Byte) (op : Nat) :
    (s.guardedWrite a bs op).flt = s.flt :=
  (State.guardedWrite_same (m := fun p => p == .flt) (.refl s) a bs op rfl rfl rfl rfl).flt rfl
@[simp] theorem State.guardedWrite_hub (s : State) (a : Nat) (bs : List Byte) (op : Nat) :
    (s.guardedWrite a bs op).hub = s.hub :=
  (State.guardedWrite_same (m := fun p => p == .hub) (.refl s) a bs op rfl rfl rfl rfl).hub rfl
@[simp] theorem State.guardedWrite_fleet (s : State) (a : Nat) (bs : List Byte) (op : Nat) :
    (s.guardedWrite a bs op).fleet = s.fleet :=
  (State.guardedWrite_same (m := fun p => p == .fleet) (.refl s) a bs op rfl rfl rfl rfl).fleet rfl
@[simp] theorem State.guardedWrite_clock (s : State) (a : Nat) (bs : List Byte) (op : Nat) :
    (s.guardedWrite a bs op).clock = s.clock :=
  (State.guardedWrite_same (m := fun p => p == .clock) (.refl s) a bs op rfl rfl rfl rfl).clock rfl
@[simp] theorem State.guardedWrite_dense (s : State) (a : Nat) (bs : List Byte) (op : Nat) :
    (s.guardedWrite a bs op).dense = s.dense :=
  (State.guardedWrite_same (m := fun p => p == .dense) (.refl s) a bs op rfl rfl rfl rfl).dense rfl
@[simp] theorem State.guardedWrite_emb (s : State) (a : Nat) (bs : List Byte) (op : Nat) :
    (s.guardedWrite a bs op).emb = s.emb :=
  (State.guardedWrite_same (m := fun p => p == .emb) (.refl s) a bs op rfl rfl rfl rfl).emb rfl
@[simp] theorem State.guardedWrite_wire (s : State) (a : Nat) (bs : List Byte) (op : Nat) :
    (s.guardedWrite a bs op).wire = s.wire :=
  (State.guardedWrite_same (m := fun p => p == .wire) (.refl s) a bs op rfl rfl rfl rfl).wire rfl
@[simp] theorem State.guardedWrite_sec (s : State) (a : Nat) (bs : List Byte) (op : Nat) :
    (s.guardedWrite a bs op).sec = s.sec :=
  (State.guardedWrite_same (m := fun p => p == .sec) (.refl s) a bs op rfl rfl rfl rfl).sec rfl
@[simp] theorem State.guardedWrite_det (s : State) (a : Nat) (bs : List Byte) (op : Nat) :
    (s.guardedWrite a bs op).det = s.det :=
  (State.guardedWrite_same (m := fun p => p == .det) (.refl s) a bs op rfl rfl rfl rfl).det rfl
@[simp] theorem State.guardedWrite_time (s : State) (a : Nat) (bs : List Byte) (op : Nat) :
    (s.guardedWrite a bs op).time = s.time :=
  (State.guardedWrite_same (m := fun p => p == .time) (.refl s) a bs op rfl rfl rfl rfl).time rfl
@[simp] theorem State.guardedWrite_pwr (s : State) (a : Nat) (bs : List Byte) (op : Nat) :
    (s.guardedWrite a bs op).pwr = s.pwr :=
  (State.guardedWrite_same (m := fun p => p == .pwr) (.refl s) a bs op rfl rfl rfl rfl).pwr rfl
@[simp] theorem State.guardedWrite_mtr (s : State) (a : Nat) (bs : List Byte) (op : Nat) :
    (s.guardedWrite a bs op).mtr = s.mtr :=
  (State.guardedWrite_same (m := fun p => p == .mtr) (.refl s) a bs op rfl rfl rfl rfl).mtr rfl
@[simp] theorem State.guardedFree_pending (s : State) (a : Nat) (n : Nat) (op : Nat) :
    (s.guardedFree a n op).pending = s.pending :=
  (State.guardedFree_same (m := fun p => p == .pending) (.refl s) a n op rfl rfl rfl rfl rfl).pending rfl
@[simp] theorem State.guardedFree_shadow (s : State) (a : Nat) (n : Nat) (op : Nat) :
    (s.guardedFree a n op).shadow = s.shadow :=
  (State.guardedFree_same (m := fun p => p == .shadow) (.refl s) a n op rfl rfl rfl rfl rfl).shadow rfl
@[simp] theorem State.guardedFree_response (s : State) (a : Nat) (n : Nat) (op : Nat) :
    (s.guardedFree a n op).response = s.response :=
  (State.guardedFree_same (m := fun p => p == .response) (.refl s) a n op rfl rfl rfl rfl rfl).response rfl
@[simp] theorem State.guardedFree_pkg (s : State) (a : Nat) (n : Nat) (op : Nat) :
    (s.guardedFree a n op).pkg = s.pkg :=
  (State.guardedFree_same (m := fun p => p == .pkg) (.refl s) a n op rfl rfl rfl rfl rfl).pkg rfl
@[simp] theorem State.guardedFree_links (s : State) (a : Nat) (n : Nat) (op : Nat) :
    (s.guardedFree a n op).links = s.links :=
  (State.guardedFree_same (m := fun p => p == .links) (.refl s) a n op rfl rfl rfl rfl rfl).links rfl
@[simp] theorem State.guardedFree_crossings (s : State) (a : Nat) (n : Nat) (op : Nat) :
    (s.guardedFree a n op).crossings = s.crossings :=
  (State.guardedFree_same (m := fun p => p == .crossings) (.refl s) a n op rfl rfl rfl rfl rfl).crossings rfl
@[simp] theorem State.guardedFree_cfg (s : State) (a : Nat) (n : Nat) (op : Nat) :
    (s.guardedFree a n op).cfg = s.cfg :=
  (State.guardedFree_same (m := fun p => p == .cfg) (.refl s) a n op rfl rfl rfl rfl rfl).cfg rfl
@[simp] theorem State.guardedFree_flt (s : State) (a : Nat) (n : Nat) (op : Nat) :
    (s.guardedFree a n op).flt = s.flt :=
  (State.guardedFree_same (m := fun p => p == .flt) (.refl s) a n op rfl rfl rfl rfl rfl).flt rfl
@[simp] theorem State.guardedFree_hub (s : State) (a : Nat) (n : Nat) (op : Nat) :
    (s.guardedFree a n op).hub = s.hub :=
  (State.guardedFree_same (m := fun p => p == .hub) (.refl s) a n op rfl rfl rfl rfl rfl).hub rfl
@[simp] theorem State.guardedFree_fleet (s : State) (a : Nat) (n : Nat) (op : Nat) :
    (s.guardedFree a n op).fleet = s.fleet :=
  (State.guardedFree_same (m := fun p => p == .fleet) (.refl s) a n op rfl rfl rfl rfl rfl).fleet rfl
@[simp] theorem State.guardedFree_clock (s : State) (a : Nat) (n : Nat) (op : Nat) :
    (s.guardedFree a n op).clock = s.clock :=
  (State.guardedFree_same (m := fun p => p == .clock) (.refl s) a n op rfl rfl rfl rfl rfl).clock rfl
@[simp] theorem State.guardedFree_dense (s : State) (a : Nat) (n : Nat) (op : Nat) :
    (s.guardedFree a n op).dense = s.dense :=
  (State.guardedFree_same (m := fun p => p == .dense) (.refl s) a n op rfl rfl rfl rfl rfl).dense rfl
@[simp] theorem State.guardedFree_emb (s : State) (a : Nat) (n : Nat) (op : Nat) :
    (s.guardedFree a n op).emb = s.emb :=
  (State.guardedFree_same (m := fun p => p == .emb) (.refl s) a n op rfl rfl rfl rfl rfl).emb rfl
@[simp] theorem State.guardedFree_wire (s : State) (a : Nat) (n : Nat) (op : Nat) :
    (s.guardedFree a n op).wire = s.wire :=
  (State.guardedFree_same (m := fun p => p == .wire) (.refl s) a n op rfl rfl rfl rfl rfl).wire rfl
@[simp] theorem State.guardedFree_sec (s : State) (a : Nat) (n : Nat) (op : Nat) :
    (s.guardedFree a n op).sec = s.sec :=
  (State.guardedFree_same (m := fun p => p == .sec) (.refl s) a n op rfl rfl rfl rfl rfl).sec rfl
@[simp] theorem State.guardedFree_det (s : State) (a : Nat) (n : Nat) (op : Nat) :
    (s.guardedFree a n op).det = s.det :=
  (State.guardedFree_same (m := fun p => p == .det) (.refl s) a n op rfl rfl rfl rfl rfl).det rfl
@[simp] theorem State.guardedFree_time (s : State) (a : Nat) (n : Nat) (op : Nat) :
    (s.guardedFree a n op).time = s.time :=
  (State.guardedFree_same (m := fun p => p == .time) (.refl s) a n op rfl rfl rfl rfl rfl).time rfl
@[simp] theorem State.guardedFree_pwr (s : State) (a : Nat) (n : Nat) (op : Nat) :
    (s.guardedFree a n op).pwr = s.pwr :=
  (State.guardedFree_same (m := fun p => p == .pwr) (.refl s) a n op rfl rfl rfl rfl rfl).pwr rfl
@[simp] theorem State.guardedFree_mtr (s : State) (a : Nat) (n : Nat) (op : Nat) :
    (s.guardedFree a n op).mtr = s.mtr :=
  (State.guardedFree_same (m := fun p => p == .mtr) (.refl s) a n op rfl rfl rfl rfl rfl).mtr rfl

end Sys2Proof.Machine
end

