-- ==== Sys2Proof/Laws/Links.lean ====
section
/-! SUPPORT. What taking an in-package link down and finding relays do to the links. -/

namespace Sys2Proof.Machine

theorem State.setLink_links (s : State) (n : Nat) (l : LinkState) : (s.setLink n l).links = Tab.set LinkState.init n l s.links := by
    unfold State.setLink
    exact (Same.foldl (m := fun p => p == .links) (.refl _) fun b e hb => by
      refine State.setFld_same (State.setFld_same (State.setFld_same (State.setFld_same hb _ _ rfl) _ _ rfl) _ _ rfl) _ _ rfl).links rfl
@[simp] theorem State.link_setLink_same (s : State) (n : Nat) (l : LinkState) : (s.setLink n l).link n = l := by
  simp [State.link, State.setLink_links]
theorem State.link_setLink_other (s : State) (n k : Nat) (l : LinkState) (e : k ≠ n) : (s.setLink n l).link k = s.link k := by
  simp only [State.link, State.setLink_links]
  exact Tab.get_set_other _ _ e _ _
theorem State.link_congr {s t : State} (h : s.links = t.links) (n : Nat) : s.link n = t.link n := by
  simp [State.link, h]

/-- Storing a link with another relay changes nothing of any link but its relay. -/
theorem State.setLink_relay (s : State) (k n : Nat) (r : Option Nat) :
    { (s.setLink k { s.link k with relay := r }).link n with relay := none } = { s.link n with relay := none } := by
  by_cases e : n = k
  · subst e; simp
  · rw [State.link_setLink_other _ _ _ _ e]

theorem State.markLost_link (s : State) (d cause n : Nat) : (s.markLost d cause).link n = s.link n :=
  State.link_congr ((State.markLost_same (m := fun p => p == .links) (.refl _) d cause rfl rfl rfl).links rfl) n

/-- Finding relays again, and losing the dies that no path reaches, changes nothing of a link but its relay. -/
theorem State.rerelay_link (s : State) (k n : Nat) :
    { (s.rerelay k).link n with relay := none } = { s.link n with relay := none } := by
  induction k generalizing s with
  | zero => rfl
  | succ k ih =>
    have relays (f : State → Nat → Option Nat) (l : List Nat) (t : State) :
        { (l.foldl (fun (s : State) l => s.setLink l { s.link l with relay := f s l }) t).link n with relay := none } =
          { t.link n with relay := none } := by
      induction l generalizing t with
      | nil => rfl
      | cons x l il => rw [List.foldl_cons, il, State.setLink_relay]
    have lost (l : List Nat) (t : State) :
        (l.foldl (fun (s : State) l => s.markLost (lostWith l) 2) t).link n = t.link n := by
      induction l generalizing t with
      | nil => rfl
      | cons x l il => rw [List.foldl_cons, il, State.markLost_link]
    unfold State.rerelay
    dsimp only
    split
    · exact relays State.relayFor _ s
    · rw [ih, lost]; exact relays State.relayFor _ s

theorem State.afterLoss_link (s old : State) (durationMs n : Nat) : (s.afterLoss old durationMs).link n = s.link n :=
  State.link_congr ((State.afterLoss_same (m := fun p => p == .links) (.refl _) old durationMs rfl rfl rfl rfl rfl rfl rfl rfl rfl rfl).links rfl) n

theorem State.linkDown_link (s : State) (n k : Nat) (u : (s.link n).up = true) :
    { (s.linkDown n).link k with relay := none } =
      { (s.setLink n { s.link n with up := false, retriesInRow := 17 }).link k with relay := none } := by
  unfold State.linkDown
  simp only [u, Bool.not_true, Bool.false_eq_true, if_false]
  rw [State.afterLoss_link, State.rerelay_link]
  refine congrArg (fun l : LinkState => { l with relay := none }) (State.link_congr ?_ k)
  refine Same.links (m := fun p => p == .links) ?_ rfl
  refine Same.ite (State.stopStep_same ?_ _ _ rfl rfl rfl rfl rfl) ?_
  all_goals
    refine State.emit_same (Same.foldl (.refl _) fun b e hb => State.bump_same hb _ _ rfl) _ _ _ _ _ rfl rfl

/-- A failure counts and then updates its link; the seventeenth in a row takes it down. -/
theorem State.flitRetry_eq (s : State) (n : Nat) (far again : Bool) (u : (s.link n).up = true) :
    ∃ x : State, x.links = s.links ∧
      let k := if again then (s.link n).retriesInRow + 1 else 1
      let y := x.setLink n { s.link n with
        retriesInRow := k, delayAclk := (s.link n).delayAclk + 40 * b2n (decide (k < 17)) }
      s.flitRetry n far again = if 17 ≤ k then y.linkDown n else y := by
  unfold State.flitRetry
  simp only [u, Bool.not_true, Bool.false_eq_true, if_false]
  refine ⟨_, ?_, rfl⟩
  exact (Same.foldl (m := fun p => p == .links) (.refl _) fun b e hb =>
    State.bump_same (State.bump_same hb _ _ rfl) _ _ rfl).links rfl

end Sys2Proof.Machine
end

