-- ==== Sys2Proof/Laws/Memory.lean ====
section
/-! SUPPORT. What memory reads give after writes. -/

namespace Sys2Proof.Machine

@[simp] theorem toLe_length (k n : Nat) : (toLe k n).length = k := by
  induction k generalizing n with
  | zero => rfl
  | succ k ih => simp [toLe, ih]

/-- Little-endian bytes read back as the number's low bytes. -/
theorem leNat_toLe (k n : Nat) : leNat (toLe k n) = n % 256 ^ k := by
  induction k generalizing n with
  | zero => simp [toLe, leNat, Nat.mod_one]
  | succ k ih =>
    have e : 256 ^ (k + 1) = 256 * 256 ^ k := by rw [Nat.pow_succ, Nat.mul_comm]
    rw [toLe, leNat, ih, BitVec.toNat_ofNat, e, Nat.mod_mul]

theorem leNat_lt (bs : List Byte) : leNat bs < 256 ^ bs.length := by
  induction bs with
  | nil => simp [leNat]
  | cons b bs ih =>
    have := b.isLt
    rw [leNat, List.length_cons, Nat.pow_succ]
    omega

theorem readMem_length (m : List Host.Cell) (a n : Nat) : (readMem m a n).length = n := by simp [readMem]

@[simp] theorem State.read_length (s : State) (a n : Nat) : (s.read a n).length = n := readMem_length _ _ _

theorem State.byte_congr {s t : State} (h : s.mem = t.mem) (a : Nat) : s.byte a = t.byte a := by
  rw [State.byte, State.byte, h]

theorem State.read_congr {s t : State} (h : s.mem = t.mem) (a n : Nat) : s.read a n = t.read a n := by
  rw [State.read, State.read, h]

/-- A read is its bytes. -/
theorem State.read_eq (s : State) (a n : Nat) : s.read a n = (List.range n).map fun i => s.byte (a + i) := rfl

/-- Two reads agree where their bytes do. -/
theorem State.read_ext {s t : State} (a n : Nat) (h : ∀ x, a ≤ x → x < a + n → s.byte x = t.byte x) :
    s.read a n = t.read a n := by
  rw [State.read_eq, State.read_eq]
  apply List.map_congr_left
  intro i hi
  rw [List.mem_range] at hi
  exact h _ (by omega) (by omega)

theorem writeMem_other (m : List Host.Cell) (a x : Nat) (bs : List Byte) (h : x < a ∨ a + bs.length ≤ x) :
    Tab.get blankByte x (writeMem m a bs) = Tab.get blankByte x m := by
  induction bs generalizing m a with
  | nil => rfl
  | cons b bs ih =>
    simp only [List.length_cons] at h
    rw [writeMem, ih _ _ (by omega)]
    exact Tab.get_set_other _ _ (by omega) _ _

theorem writeMem_inside (m : List Host.Cell) (a i : Nat) (bs : List Byte) (h : i < bs.length) :
    Tab.get blankByte (a + i) (writeMem m a bs) = bs[i] := by
  induction bs generalizing m a i with
  | nil => simp at h
  | cons b bs ih =>
    rw [writeMem]
    cases i with
    | zero =>
      rw [writeMem_other _ _ _ _ (by omega)]
      simp
    | succ i =>
      simp only [List.length_cons] at h
      have := ih (Tab.set blankByte a b m) (a + 1) i (by omega)
      rw [show a + (i + 1) = a + 1 + i by omega, this]
      rfl

/-- A byte outside what is written is as it was. -/
theorem State.byte_write_other (s : State) (a x : Nat) (bs : List Byte) (h : x < a ∨ a + bs.length ≤ x) :
    (s.write a bs).byte x = s.byte x := writeMem_other _ _ _ _ h

theorem State.byte_write_inside (s : State) (a i : Nat) (bs : List Byte) (h : i < bs.length) :
    (s.write a bs).byte (a + i) = bs[i] := writeMem_inside _ _ _ _ h

/-- A read of what has just been written gives it back. -/
@[simp] theorem State.read_write_same (s : State) (a : Nat) (bs : List Byte) : (s.write a bs).read a bs.length = bs := by
  apply List.ext_getElem
  · simp
  · intro i h k
    simp only [State.read_eq, List.getElem_map, List.getElem_range]
    exact State.byte_write_inside _ _ _ _ k

/-- A read that meets no byte written is as it was. -/
theorem State.read_write_other (s : State) (a x n : Nat) (bs : List Byte) (h : x + n ≤ a ∨ a + bs.length ≤ x) :
    (s.write a bs).read x n = s.read x n :=
  State.read_ext _ _ fun y _ _ => State.byte_write_other _ _ _ _ (by omega)

end Sys2Proof.Machine
end

