-- ==== Sys2Proof/Laws/SameOperands.lean ====
section
/-! SUPPORT. What the operations of Machine/Operands.lean leave alone (`Same`). -/

set_option linter.unusedSimpArgs false

namespace Sys2Proof.Machine

theorem State.writeElem_same {m : Component → Bool} {a s : State} (h : Same m a s) (t : Tensor) (v : Nat) (n : Nat)
    (raw : Nat) (n_mem : m .mem = false) (n_mm : m .mm = false) :
    Same m a (State.writeElem s t v n raw) := by
  unfold State.writeElem
  repeat' (with_reducible first | assumption | refine Same.ite ?_ ?_ | apply State.write_same)

end Sys2Proof.Machine
end

