-- ==== Sys2Proof/Laws/SamePorts.lean ====
section
/-! SUPPORT. What the operations of Machine/Ports.lean leave alone (`Same`). -/

set_option linter.unusedSimpArgs false

namespace Sys2Proof.Machine

theorem State.setStream_same {m : Component → Bool} {a s : State} (h : Same m a s) (key : Nat) (v : StreamState)
    (n_dense : m .dense = false) :
    Same m a (State.setStream s key v) := by
  unfold State.setStream
  repeat' first
    | with_reducible assumption
    | (simp only [Same.mk_iff]; apply SameF.of; all_goals first
        | with_reducible exact Off.refl | exact Off.no (by assumption) | skip)

theorem State.noteWrite_same {m : Component → Bool} {a s : State} (h : Same m a s) (aa : Nat) (old : List Byte)
    (n_dense : m .dense = false) :
    Same m a (State.noteWrite s aa old) := by
  unfold State.noteWrite
  repeat' first
    | (with_reducible first | assumption | refine Same.ite ?_ ?_)
    | (simp only [Same.mk_iff]; apply SameF.of; all_goals first
        | with_reducible exact Off.refl | exact Off.no (by assumption) | skip)

theorem State.writeNoted_same {m : Component → Bool} {a s : State} (h : Same m a s) (aa : Nat) (bs : List Byte)
    (n_mem : m .mem = false) (n_mm : m .mm = false) (n_dense : m .dense = false) :
    Same m a (State.writeNoted s aa bs) := by
  unfold State.writeNoted
  repeat' first
    | (with_reducible first
        | assumption | refine Same.ite ?_ ?_ | apply State.write_same | apply State.noteWrite_same)

theorem State.poisonRange_same {m : Component → Bool} {a s : State} (h : Same m a s) (aa : Nat) (n : Nat)
    (n_mm : m .mm = false) :
    Same m a (State.poisonRange s aa n) := by
  unfold State.poisonRange
  repeat' first
    | (with_reducible first
        | assumption | refine Same.ite ?_ ?_ | apply State.poisonAt_same | refine Same.foldl ?_ fun kb ky hkb => ?_)

theorem State.putOut_same {m : Component → Bool} {a s : State} (h : Same m a s) (x : Ent) (o : Out)
    (n_mem : m .mem = false) (n_mm : m .mm = false) (n_dense : m .dense = false) :
    Same m a (State.putOut s x o) := by
  unfold State.putOut
  repeat' first
    | (with_reducible first
        | assumption | apply State.setStream_same | apply State.writeNoted_same | apply State.poisonRange_same
        | refine Same.foldl ?_ fun kb ky hkb => ?_)
    | split

end Sys2Proof.Machine
end

