-- ==== Sys2Proof/Laws/SameDense.lean ====
section
/-! SUPPORT. What the operations of Machine/Dense.lean leave alone (`Same`). -/

set_option linter.unusedSimpArgs false

namespace Sys2Proof.Machine

theorem State.signal_same {m : Component → Bool} {a s : State} (h : Same m a s) (d : Nat) (sig : Nat)
    (n_dense : m .dense = false) :
    Same m a (State.signal s d sig) := by
  unfold State.signal
  repeat' first
    | (with_reducible first | assumption | refine Same.ite ?_ ?_)
    | (simp only [Same.mk_iff]; apply SameF.of; all_goals first
        | with_reducible exact Off.refl | exact Off.no (by assumption) | skip)

theorem State.setSeq_same {m : Component → Bool} {a s : State} (h : Same m a s) (core : Nat) (q : SeqState)
    (n_dense : m .dense = false) :
    Same m a (State.setSeq s core q) := by
  unfold State.setSeq
  repeat' first
    | with_reducible assumption
    | (simp only [Same.mk_iff]; apply SameF.of; all_goals first
        | with_reducible exact Off.refl | exact Off.no (by assumption) | skip)

theorem State.trace_same {m : Component → Bool} {a s : State} (h : Same m a s) (unit : Nat) (index : Nat)
    (source : Nat) (port : Nat) (mb : Nat) (elements : Nat) (pip : Nat) (n_regs : m .regs = false)
    (n_mem : m .mem = false) (n_chk : m .chk = false) (n_mm : m .mm = false) :
    Same m a (State.trace s unit index source port mb elements pip) := by
  unfold State.trace
  repeat' first
    | (with_reducible first
        | assumption | refine Same.ite ?_ ?_ | apply State.bump_same | apply State.setFld_same
        | apply State.guardedWrite_same)

theorem State.setStalled_same {m : Component → Bool} {a s : State} (h : Same m a s) (core : Nat) (on : Bool)
    (n_regs : m .regs = false) (n_dense : m .dense = false) :
    Same m a (State.setStalled s core on) := by
  unfold State.setStalled
  repeat' first
    | with_reducible assumption
    | (simp only [Same.mk_iff]; apply SameF.of; all_goals first
        | with_reducible exact Off.refl | exact Off.no (by assumption) | skip)
    | with_reducible apply State.setFld_same

theorem State.setTraceHeld_same {m : Component → Bool} {a s : State} (h : Same m a s) (core : Nat) (on : Bool)
    (n_dense : m .dense = false) :
    Same m a (State.setTraceHeld s core on) := by
  unfold State.setTraceHeld
  repeat' first
    | with_reducible assumption
    | (simp only [Same.mk_iff]; apply SameF.of; all_goals first
        | with_reducible exact Off.refl | exact Off.no (by assumption) | skip)

theorem State.staleStop_same {m : Component → Bool} {a s : State} (h : Same m a s) (unit : Nat) (op : Nat)
    (e : Nat × Nat) (n_regs : m .regs = false) (n_cfg : m .cfg = false) (n_flt : m .flt = false)
    (n_chk : m .chk = false) (n_hub : m .hub = false) (n_fleet : m .fleet = false) :
    Same m a (State.staleStop s unit op e) := by
  unfold State.staleStop
  repeat' (with_reducible first | assumption | refine Same.ite ?_ ?_ | apply State.emit_same | apply State.stopStep_same)

theorem State.demandStreams_same {m : Component → Bool} {a s : State} (h : Same m a s) (x : Ent)
    (n_dense : m .dense = false) :
    Same m a (State.demandStreams s x) := by
  unfold State.demandStreams
  repeat' (with_reducible first | assumption | apply State.setStream_same | refine Same.foldl ?_ fun kb ky hkb => ?_)

theorem State.sendExchange_same {m : Component → Bool} {a s : State} (h : Same m a s) (x : Ent)
    (n_fresh : m .fresh = false) (n_regs : m .regs = false) (n_crossings : m .crossings = false)
    (n_chk : m .chk = false) (n_hub : m .hub = false) (n_dense : m .dense = false) :
    Same m a (State.sendExchange s x) := by
  unfold State.sendExchange
  repeat' first
    | (with_reducible first | assumption | refine Same.ite ?_ ?_)
    | (lift_lets; intro kx; refine Same.step (m := m) (a := a) (x := kx) ?_ fun hkx => ?_)
    | (lift_lets; intro kx)
    | (simp only [Same.mk_iff]; apply SameF.of; all_goals first
        | with_reducible exact Off.refl | exact Off.no (by assumption) | skip)
    | with_reducible apply State.sendData_same
    | (simp only [kx, Same.mk_iff]; apply SameF.of; all_goals first
        | with_reducible exact Off.refl | exact Off.no (by assumption) | skip)
    | (with_reducible first
        | refine Same.foldl ?_ fun kb ky hkb => ?_ | refine Same.foldl_snd ?_ fun kb ky hkb => ?_
        | refine Same.foldl_fst ?_ fun kb ky hkb => ?_)
    | split
    | (with_reducible first
        | refine Same.of_snd (by assumption) ?_ | refine Same.of_fst (by assumption) ?_
        | refine Same.of_third (by assumption) ?_)
    | dsimp only
    | unfold kx

theorem State.issueEntry_same {m : Component → Bool} {a s : State} (h : Same m a s) (x : Ent)
    (n_fresh : m .fresh = false) (n_regs : m .regs = false) (n_crossings : m .crossings = false)
    (n_cfg : m .cfg = false) (n_flt : m .flt = false) (n_chk : m .chk = false) (n_hub : m .hub = false)
    (n_fleet : m .fleet = false) (n_dense : m .dense = false) :
    Same m a (State.issueEntry s x) := by
  unfold State.issueEntry
  repeat' first
    | (with_reducible first | assumption | refine Same.ite ?_ ?_)
    | (lift_lets; intro kx; refine Same.step (m := m) (a := a) (x := kx) ?_ fun hkx => ?_)
    | (lift_lets; intro kx)
    | (simp only [Same.mk_iff]; apply SameF.of; all_goals first
        | with_reducible exact Off.refl | exact Off.no (by assumption) | skip)
    | (with_reducible first
        | apply State.setFld_same | apply State.setSeq_same | apply State.setStalled_same
        | apply State.setTraceHeld_same | apply State.staleStop_same | apply State.demandStreams_same
        | apply State.sendExchange_same)
    | (simp only [kx, Same.mk_iff]; apply SameF.of; all_goals first
        | with_reducible exact Off.refl | exact Off.no (by assumption) | skip)
    | (with_reducible first
        | refine Same.foldl ?_ fun kb ky hkb => ?_ | refine Same.foldl_snd ?_ fun kb ky hkb => ?_
        | refine Same.foldl_fst ?_ fun kb ky hkb => ?_)
    | split
    | (with_reducible first
        | refine Same.of_snd (by assumption) ?_ | refine Same.of_fst (by assumption) ?_
        | refine Same.of_third (by assumption) ?_)
    | dsimp only
    | unfold kx

theorem State.scheduleEntryIssue_same {m : Component → Bool} {a s : State} (h : Same m a s) (d : Nat) (c : Nat)
    (k : Nat) (n_fresh : m .fresh = false) (n_regs : m .regs = false) (n_crossings : m .crossings = false)
    (n_cfg : m .cfg = false) (n_flt : m .flt = false) (n_chk : m .chk = false) (n_hub : m .hub = false)
    (n_fleet : m .fleet = false) (n_dense : m .dense = false) :
    Same m a (State.scheduleEntryIssue s d c k) := by
  unfold State.scheduleEntryIssue
  repeat' first
    | (with_reducible first | assumption | refine Same.ite ?_ ?_)
    | (lift_lets; intro kx; refine Same.step (m := m) (a := a) (x := kx) ?_ fun hkx => ?_)
    | (lift_lets; intro kx)
    | (simp only [Same.mk_iff]; apply SameF.of; all_goals first
        | with_reducible exact Off.refl | exact Off.no (by assumption) | skip)
    | with_reducible apply State.issueEntry_same
    | (simp only [kx, Same.mk_iff]; apply SameF.of; all_goals first
        | with_reducible exact Off.refl | exact Off.no (by assumption) | skip)
    | (with_reducible first
        | refine Same.foldl ?_ fun kb ky hkb => ?_ | refine Same.foldl_snd ?_ fun kb ky hkb => ?_
        | refine Same.foldl_fst ?_ fun kb ky hkb => ?_)
    | split
    | (with_reducible first
        | refine Same.of_snd (by assumption) ?_ | refine Same.of_fst (by assumption) ?_
        | refine Same.of_third (by assumption) ?_)
    | dsimp only
    | unfold kx

theorem execScheduleEntryIssue_same {m : Component → Bool} {a s : State} (h : Same m a s) (die : Fin 4)
    (cluster : Fin 16) (core : Fin 8) (n_fresh : m .fresh = false) (n_regs : m .regs = false)
    (n_crossings : m .crossings = false) (n_cfg : m .cfg = false) (n_flt : m .flt = false) (n_chk : m .chk = false)
    (n_hub : m .hub = false) (n_fleet : m .fleet = false) (n_dense : m .dense = false) {kt : State}
    (ke : execScheduleEntryIssue die cluster core s = .next kt) :
    Same m a kt := by
  unfold execScheduleEntryIssue at ke
  refine Same.of_done ke ?_
  repeat' (with_reducible first | assumption | refine Same.ite ?_ ?_ | apply State.scheduleEntryIssue_same)

theorem State.takeStreams_same {m : Component → Bool} {a s : State} (h : Same m a s) (x : Ent)
    (n_dense : m .dense = false) :
    Same m a (State.takeStreams s x) := by
  unfold State.takeStreams
  repeat' first
    | (with_reducible first
        | assumption | refine Same.ite ?_ ?_ | apply State.setStream_same | refine Same.foldl ?_ fun kb ky hkb => ?_)

theorem State.setPip_same {m : Component → Bool} {a s : State} (h : Same m a s) (t : Nat) (p : PipState)
    (n_chk : m .chk = false) :
    Same m a (State.setPip s t p) := by
  unfold State.setPip
  repeat' first
    | with_reducible assumption
    | (simp only [Same.mk_iff]; apply SameF.of; all_goals first
        | with_reducible exact Off.refl | exact Off.no (by assumption) | skip)

theorem State.notePipReads_same {m : Component → Bool} {a s : State} (h : Same m a s) (x : Ent)
    (n_chk : m .chk = false) :
    Same m a (State.notePipReads s x) := by
  unfold State.notePipReads
  repeat' first
    | (with_reducible first | assumption | apply State.setPip_same | refine Same.foldl ?_ fun kb ky hkb => ?_)
    | split
    | exact hkz

theorem State.notePipWrite_same {m : Component → Bool} {a s : State} (h : Same m a s) (x : Ent) (outs : List Out)
    (n_chk : m .chk = false) :
    Same m a (State.notePipWrite s x outs) := by
  unfold State.notePipWrite
  repeat' first
    | (with_reducible first | assumption | apply State.setPip_same)
    | split
    | exact hkz

theorem State.copyVersion_same {m : Component → Bool} {a s : State} (h : Same m a s) (t : Tensor) (v : Nat)
    (n_mem : m .mem = false) (n_mm : m .mm = false) (n_dense : m .dense = false) :
    Same m a (State.copyVersion s t v) := by
  unfold State.copyVersion
  repeat' first
    | (with_reducible first | assumption | refine Same.ite ?_ ?_)
    | (simp only [Same.mk_iff]; apply SameF.of; all_goals first
        | with_reducible exact Off.refl | exact Off.no (by assumption) | skip)
    | with_reducible apply State.writeNoted_same
    | exact hkz

theorem State.noteLive_same {m : Component → Bool} {a s : State} (h : Same m a s) (n_regs : m .regs = false) :
    Same m a (State.noteLive s) := by
  unfold State.noteLive
  repeat' first
    | (with_reducible first
        | assumption | refine Same.ite ?_ ?_ | apply State.setFld_same | refine Same.foldl ?_ fun kb ky hkb => ?_)
    | exact hkz

theorem State.seamLive_same {m : Component → Bool} {a s : State} (h : Same m a s) (n_regs : m .regs = false) :
    Same m a (State.seamLive s) := by
  unfold State.seamLive
  repeat' first
    | (with_reducible first | assumption | refine Same.ite ?_ ?_)
    | (lift_lets; intro kx; refine Same.step (m := m) (a := a) (x := kx) ?_ fun hkx => ?_)
    | (lift_lets; intro kx)
    | (simp only [Same.mk_iff]; apply SameF.of; all_goals first
        | with_reducible exact Off.refl | exact Off.no (by assumption) | skip)
    | (with_reducible first | apply State.setFld_same | apply State.noteLive_same)
    | (simp only [kx, Same.mk_iff]; apply SameF.of; all_goals first
        | with_reducible exact Off.refl | exact Off.no (by assumption) | skip)
    | (with_reducible first
        | refine Same.foldl ?_ fun kb ky hkb => ?_ | refine Same.foldl_snd ?_ fun kb ky hkb => ?_
        | refine Same.foldl_fst ?_ fun kb ky hkb => ?_)
    | split
    | (with_reducible first
        | refine Same.of_snd (by assumption) ?_ | refine Same.of_fst (by assumption) ?_
        | refine Same.of_third (by assumption) ?_)
    | dsimp only
    | unfold kx

theorem State.addVersion_same {m : Component → Bool} {a s : State} (h : Same m a s) (x : Ent)
    (n_regs : m .regs = false) (n_dense : m .dense = false) :
    Same m a (State.addVersion s x) := by
  unfold State.addVersion
  repeat' first
    | with_reducible assumption
    | (simp only [Same.mk_iff]; apply SameF.of; all_goals first
        | with_reducible exact Off.refl | exact Off.no (by assumption) | skip)
    | with_reducible apply State.noteLive_same
    | split
    | exact hkz

theorem State.countClamps_same {m : Component → Bool} {a s : State} (h : Same m a s) (x : Ent)
    (places : List (Nat × Nat)) (n_regs : m .regs = false) :
    Same m a (State.countClamps s x places) := by
  unfold State.countClamps
  repeat' first
    | (with_reducible first | assumption | apply State.bump_same | refine Same.foldl ?_ fun kb ky hkb => ?_)
    | split

theorem State.traceOuts_same {m : Component → Bool} {a s : State} (h : Same m a s) (x : Ent) (outs : List Out)
    (n_regs : m .regs = false) (n_mem : m .mem = false) (n_chk : m .chk = false) (n_mm : m .mm = false) :
    Same m a (State.traceOuts s x outs) := by
  unfold State.traceOuts
  repeat' first
    | (with_reducible first | assumption | refine Same.ite ?_ ?_)
    | (lift_lets; intro kx; refine Same.step (m := m) (a := a) (x := kx) ?_ fun hkx => ?_)
    | (lift_lets; intro kx)
    | (simp only [Same.mk_iff]; apply SameF.of; all_goals first
        | with_reducible exact Off.refl | exact Off.no (by assumption) | skip)
    | with_reducible apply State.trace_same
    | (simp only [kx, Same.mk_iff]; apply SameF.of; all_goals first
        | with_reducible exact Off.refl | exact Off.no (by assumption) | skip)
    | (with_reducible first
        | refine Same.foldl ?_ fun kb ky hkb => ?_ | refine Same.foldl_snd ?_ fun kb ky hkb => ?_
        | refine Same.foldl_fst ?_ fun kb ky hkb => ?_)
    | split
    | (with_reducible first
        | refine Same.of_snd (by assumption) ?_ | refine Same.of_fst (by assumption) ?_
        | refine Same.of_third (by assumption) ?_)
    | dsimp only
    | unfold kx

theorem State.noteTwins_same {m : Component → Bool} {a s : State} (h : Same m a s) (x : Ent)
    (n_chk : m .chk = false) :
    Same m a (State.noteTwins s x) := by
  unfold State.noteTwins
  repeat' first
    | with_reducible assumption
    | (simp only [Same.mk_iff]; apply SameF.of; all_goals first
        | with_reducible exact Off.refl | exact Off.no (by assumption) | skip)

theorem State.putOuts_same {m : Component → Bool} {a s : State} (h : Same m a s) (x : Ent) (outs : List Out)
    (n_mem : m .mem = false) (n_mm : m .mm = false) (n_dense : m .dense = false) :
    Same m a (State.putOuts s x outs) := by
  unfold State.putOuts
  repeat' (with_reducible first | assumption | apply State.putOut_same | refine Same.foldl ?_ fun kb ky hkb => ?_)

theorem State.finish_same {m : Component → Bool} {a s : State} (h : Same m a s) (x : Ent) (rs : List Result)
    (clamps : List (Nat × Nat)) (n_regs : m .regs = false) (n_mem : m .mem = false) (n_chk : m .chk = false)
    (n_mm : m .mm = false) (n_dense : m .dense = false) :
    Same m a (State.finish s x rs clamps) := by
  unfold State.finish
  repeat' first
    | (with_reducible first
        | assumption | apply State.notePipReads_same | apply State.takeStreams_same | apply State.notePipWrite_same
        | apply State.copyVersion_same | apply State.addVersion_same | apply State.countClamps_same
        | apply State.traceOuts_same | apply State.putOuts_same)
    | split
    | exact hkz

theorem State.leaveFlight_same {m : Component → Bool} {a s : State} (h : Same m a s) (x : Ent)
    (n_dense : m .dense = false) :
    Same m a (State.leaveFlight s x) := by
  unfold State.leaveFlight
  repeat' (with_reducible first | assumption | refine Same.ite ?_ ?_ | apply State.setSeq_same)

theorem State.poisonOutputs_same {m : Component → Bool} {a s : State} (h : Same m a s) (x : Ent)
    (n_mm : m .mm = false) (n_dense : m .dense = false) :
    Same m a (State.poisonOutputs s x) := by
  unfold State.poisonOutputs
  repeat' first
    | (with_reducible first
        | assumption | apply State.poisonRange_same | apply State.noteWrite_same
        | refine Same.foldl ?_ fun kb ky hkb => ?_)

theorem State.failEntry_same {m : Component → Bool} {a s : State} (h : Same m a s) (x : Ent) (e : Nat)
    (f : CheckFault) (n_fresh : m .fresh = false) (n_regs : m .regs = false) (n_cfg : m .cfg = false)
    (n_flt : m .flt = false) (n_chk : m .chk = false) (n_mm : m .mm = false) (n_hub : m .hub = false)
    (n_fleet : m .fleet = false) (n_dense : m .dense = false) :
    Same m a (State.failEntry s x e f) := by
  unfold State.failEntry
  repeat' first
    | (with_reducible first | assumption | refine Same.ite ?_ ?_)
    | (lift_lets; intro kx; refine Same.step (m := m) (a := a) (x := kx) ?_ fun hkx => ?_)
    | (lift_lets; intro kx)
    | (simp only [Same.mk_iff]; apply SameF.of; all_goals first
        | with_reducible exact Off.refl | exact Off.no (by assumption) | skip)
    | (with_reducible first
        | apply State.free_same | apply State.bump_same | apply State.emit_same | apply State.stopStep_same
        | apply State.leaveFlight_same | apply State.poisonOutputs_same)
    | (simp only [kx, Same.mk_iff]; apply SameF.of; all_goals first
        | with_reducible exact Off.refl | exact Off.no (by assumption) | skip)
    | (with_reducible first
        | refine Same.foldl ?_ fun kb ky hkb => ?_ | refine Same.foldl_snd ?_ fun kb ky hkb => ?_
        | refine Same.foldl_fst ?_ fun kb ky hkb => ?_)
    | split
    | (with_reducible first
        | refine Same.of_snd (by assumption) ?_ | refine Same.of_fst (by assumption) ?_
        | refine Same.of_third (by assumption) ?_)
    | dsimp only
    | unfold kx

theorem State.finishExchange_same {m : Component → Bool} {a s : State} (h : Same m a s) (x : Ent)
    (n_regs : m .regs = false) (n_mem : m .mem = false) (n_chk : m .chk = false) (n_mm : m .mm = false)
    (n_dense : m .dense = false) :
    Same m a (State.finishExchange s x) := by
  unfold State.finishExchange
  repeat' first
    | (with_reducible first | assumption | refine Same.ite ?_ ?_)
    | (lift_lets; intro kx; refine Same.step (m := m) (a := a) (x := kx) ?_ fun hkx => ?_)
    | (lift_lets; intro kx)
    | (simp only [Same.mk_iff]; apply SameF.of; all_goals first
        | with_reducible exact Off.refl | exact Off.no (by assumption) | skip)
    | with_reducible apply State.finish_same
    | (simp only [kx, Same.mk_iff]; apply SameF.of; all_goals first
        | with_reducible exact Off.refl | exact Off.no (by assumption) | skip)
    | (with_reducible first
        | refine Same.foldl ?_ fun kb ky hkb => ?_ | refine Same.foldl_snd ?_ fun kb ky hkb => ?_
        | refine Same.foldl_fst ?_ fun kb ky hkb => ?_)
    | split
    | (with_reducible first
        | refine Same.of_snd (by assumption) ?_ | refine Same.of_fst (by assumption) ?_
        | refine Same.of_third (by assumption) ?_)
    | dsimp only
    | unfold kx

theorem State.meetEntryReads_same {m : Component → Bool} {a s : State} (h : Same m a s) (x : Ent)
    (es : List MemError) (n_regs : m .regs = false) (n_cfg : m .cfg = false) (n_flt : m .flt = false)
    (n_chk : m .chk = false) (n_mm : m .mm = false) (n_hub : m .hub = false) (n_fleet : m .fleet = false) :
    Same m a (State.meetEntryReads s x es) := by
  unfold State.meetEntryReads
  repeat' (with_reducible first | assumption | refine Same.ite ?_ ?_ | apply State.meetReads_same)

theorem State.retireEntry_same {m : Component → Bool} {a s : State} (h : Same m a s) (x : Ent)
    (n_dense : m .dense = false) :
    Same m a (State.retireEntry s x) := by
  unfold State.retireEntry
  repeat' first
    | (with_reducible first | assumption | refine Same.ite ?_ ?_)
    | (simp only [Same.mk_iff]; apply SameF.of; all_goals first
        | with_reducible exact Off.refl | exact Off.no (by assumption) | skip)
    | (with_reducible first | apply State.leaveFlight_same | apply State.signal_same)

theorem State.escapeElem_same {m : Component → Bool} {a s : State} (h : Same m a s) (x : Ent) (elem : Nat)
    (n_fresh : m .fresh = false) (n_mem : m .mem = false) (n_mm : m .mm = false) :
    Same m a (State.escapeElem s x elem) := by
  unfold State.escapeElem
  repeat' first
    | (with_reducible first | assumption | apply State.tickFree_same | apply State.writeElem_same)
    | split

theorem State.runEntry_same {m : Component → Bool} {a s : State} (h : Same m a s) (x : Ent)
    (n_regs : m .regs = false) (n_mem : m .mem = false) (n_chk : m .chk = false) (n_mm : m .mm = false)
    (n_dense : m .dense = false) :
    Same m a (State.runEntry s x) := by
  unfold State.runEntry
  repeat' first
    | (with_reducible first | assumption | refine Same.ite ?_ ?_)
    | (lift_lets; intro kx; refine Same.step (m := m) (a := a) (x := kx) ?_ fun hkx => ?_)
    | (lift_lets; intro kx)
    | (simp only [Same.mk_iff]; apply SameF.of; all_goals first
        | with_reducible exact Off.refl | exact Off.no (by assumption) | skip)
    | (with_reducible first | apply State.finish_same | apply State.finishExchange_same)
    | (simp only [kx, Same.mk_iff]; apply SameF.of; all_goals first
        | with_reducible exact Off.refl | exact Off.no (by assumption) | skip)
    | (with_reducible first
        | refine Same.foldl ?_ fun kb ky hkb => ?_ | refine Same.foldl_snd ?_ fun kb ky hkb => ?_
        | refine Same.foldl_fst ?_ fun kb ky hkb => ?_)
    | split
    | (with_reducible first
        | refine Same.of_snd (by assumption) ?_ | refine Same.of_fst (by assumption) ?_
        | refine Same.of_third (by assumption) ?_)
    | dsimp only
    | unfold kx

theorem State.passEntry_same {m : Component → Bool} {a s : State} (h : Same m a s) (x : Ent) (escaped : Option Nat)
    (ecc : List MemError) (n_fresh : m .fresh = false) (n_regs : m .regs = false) (n_mem : m .mem = false)
    (n_cfg : m .cfg = false) (n_flt : m .flt = false) (n_chk : m .chk = false) (n_mm : m .mm = false)
    (n_hub : m .hub = false) (n_fleet : m .fleet = false) (n_dense : m .dense = false) :
    Same m a (State.passEntry s x escaped ecc) := by
  unfold State.passEntry
  repeat' first
    | (with_reducible first
        | assumption | refine Same.ite ?_ ?_ | apply State.leaveFlight_same | apply State.noteTwins_same
        | apply State.poisonOutputs_same | apply State.meetEntryReads_same | apply State.retireEntry_same
        | apply State.escapeElem_same | apply State.runEntry_same)
    | split

theorem State.entryComplete_same {m : Component → Bool} {a s : State} (h : Same m a s) (d : Nat) (c : Nat) (k : Nat)
    (idx : Nat) (fault : Option (Nat × CheckFault)) (ecc : List MemError) (n_fresh : m .fresh = false)
    (n_regs : m .regs = false) (n_mem : m .mem = false) (n_crossings : m .crossings = false)
    (n_cfg : m .cfg = false) (n_flt : m .flt = false) (n_chk : m .chk = false) (n_mm : m .mm = false)
    (n_hub : m .hub = false) (n_fleet : m .fleet = false) (n_dense : m .dense = false) :
    Same m a (State.entryComplete s d c k idx fault ecc) := by
  unfold State.entryComplete
  repeat' first
    | (with_reducible first | assumption | refine Same.ite ?_ ?_)
    | (lift_lets; intro kx; refine Same.step (m := m) (a := a) (x := kx) ?_ fun hkx => ?_)
    | (lift_lets; intro kx)
    | (simp only [Same.mk_iff]; apply SameF.of; all_goals first
        | with_reducible exact Off.refl | exact Off.no (by assumption) | skip)
    | (with_reducible first | apply State.sendExchange_same | apply State.failEntry_same | apply State.passEntry_same)
    | (simp only [kx, Same.mk_iff]; apply SameF.of; all_goals first
        | with_reducible exact Off.refl | exact Off.no (by assumption) | skip)
    | (with_reducible first
        | refine Same.foldl ?_ fun kb ky hkb => ?_ | refine Same.foldl_snd ?_ fun kb ky hkb => ?_
        | refine Same.foldl_fst ?_ fun kb ky hkb => ?_)
    | split
    | (with_reducible first
        | refine Same.of_snd (by assumption) ?_ | refine Same.of_fst (by assumption) ?_
        | refine Same.of_third (by assumption) ?_)
    | dsimp only
    | unfold kx

theorem execEntryComplete_same {m : Component → Bool} {a s : State} (h : Same m a s) (die : Fin 4)
    (cluster : Fin 16) (core : Fin 8) (entry : Nat) (events : EntryEvents) (n_fresh : m .fresh = false)
    (n_regs : m .regs = false) (n_mem : m .mem = false) (n_crossings : m .crossings = false)
    (n_cfg : m .cfg = false) (n_flt : m .flt = false) (n_chk : m .chk = false) (n_mm : m .mm = false)
    (n_hub : m .hub = false) (n_fleet : m .fleet = false) (n_dense : m .dense = false) {kt : State}
    (ke : execEntryComplete die cluster core entry events s = .next kt) :
    Same m a kt := by
  unfold execEntryComplete at ke
  refine Same.of_done ke ?_
  repeat' first
    | (with_reducible first | assumption | refine Same.ite ?_ ?_)
    | (lift_lets; intro kx; refine Same.step (m := m) (a := a) (x := kx) ?_ fun hkx => ?_)
    | (lift_lets; intro kx)
    | (simp only [Same.mk_iff]; apply SameF.of; all_goals first
        | with_reducible exact Off.refl | exact Off.no (by assumption) | skip)
    | with_reducible apply State.entryComplete_same
    | (simp only [kx, Same.mk_iff]; apply SameF.of; all_goals first
        | with_reducible exact Off.refl | exact Off.no (by assumption) | skip)
    | (with_reducible first
        | refine Same.foldl ?_ fun kb ky hkb => ?_ | refine Same.foldl_snd ?_ fun kb ky hkb => ?_
        | refine Same.foldl_fst ?_ fun kb ky hkb => ?_)
    | split
    | (with_reducible first
        | refine Same.of_snd (by assumption) ?_ | refine Same.of_fst (by assumption) ?_
        | refine Same.of_third (by assumption) ?_)
    | dsimp only
    | unfold kx

theorem State.poisonEpochs_same {m : Component → Bool} {a s : State} (h : Same m a s) (tile : Nat × Nat × Nat × Nat)
    (n_regs : m .regs = false) (n_cfg : m .cfg = false) (n_flt : m .flt = false) (n_chk : m .chk = false)
    (n_hub : m .hub = false) (n_fleet : m .fleet = false) :
    Same m a (State.poisonEpochs s tile) := by
  unfold State.poisonEpochs
  repeat' first
    | with_reducible assumption
    | (simp only [Same.mk_iff]; apply SameF.of; all_goals first
        | with_reducible exact Off.refl | exact Off.no (by assumption) | skip)
    | (with_reducible first | apply State.transferPoison_same | refine Same.foldl ?_ fun kb ky hkb => ?_)

theorem State.twinComparison_same {m : Component → Bool} {a s : State} (h : Same m a s) (d : Nat) (c : Nat)
    (k : Nat) (e : Nat) (mismatch : Option (Nat × Bool × Nat)) (n_regs : m .regs = false) (n_cfg : m .cfg = false)
    (n_flt : m .flt = false) (n_chk : m .chk = false) (n_mm : m .mm = false) (n_hub : m .hub = false)
    (n_fleet : m .fleet = false) (n_dense : m .dense = false) :
    Same m a (State.twinComparison s d c k e mismatch) := by
  unfold State.twinComparison
  repeat' first
    | with_reducible assumption
    | (simp only [Same.mk_iff]; apply SameF.of; all_goals first
        | with_reducible exact Off.refl | exact Off.no (by assumption) | skip)
    | (with_reducible first
        | apply State.emit_same | apply State.bump_same | apply State.stopStep_same | apply State.poisonOutputs_same
        | apply State.poisonEpochs_same)
    | split
    | dsimp only

theorem execTwinComparison_same {m : Component → Bool} {a s : State} (h : Same m a s) (die : Fin 4)
    (cluster : Fin 16) (core : Fin 8) (engine : Fin 8) (mismatch : Option (BitVec 6 × Bool × BitVec 16))
    (n_regs : m .regs = false) (n_cfg : m .cfg = false) (n_flt : m .flt = false) (n_chk : m .chk = false)
    (n_mm : m .mm = false) (n_hub : m .hub = false) (n_fleet : m .fleet = false) (n_dense : m .dense = false)
    {kt : State} (ke : execTwinComparison die cluster core engine mismatch s = .next kt) :
    Same m a kt := by
  unfold execTwinComparison at ke
  refine Same.of_done ke ?_
  repeat' (with_reducible first | assumption | refine Same.ite ?_ ?_ | apply State.twinComparison_same)

theorem State.streamChunkRead_same {m : Component → Bool} {a s : State} (h : Same m a s) (d : Nat) (c : Nat)
    (k : Nat) (st : Nat) (n_dense : m .dense = false) :
    Same m a (State.streamChunkRead s d c k st) := by
  unfold State.streamChunkRead
  repeat' first
    | (with_reducible first | assumption | refine Same.ite ?_ ?_ | apply State.setStream_same)
    | split

theorem execStreamChunkRead_same {m : Component → Bool} {a s : State} (h : Same m a s) (die : Fin 4)
    (cluster : Fin 16) (core : Fin 8) (stream : Fin 16) (n_dense : m .dense = false) {kt : State}
    (ke : execStreamChunkRead die cluster core stream s = .next kt) :
    Same m a kt := by
  unfold execStreamChunkRead at ke
  refine Same.of_done ke ?_
  repeat' (with_reducible first | assumption | refine Same.ite ?_ ?_ | apply State.streamChunkRead_same)

theorem State.streamChunkArrive_same {m : Component → Bool} {a s : State} (h : Same m a s) (d : Nat) (c : Nat)
    (k : Nat) (st : Nat) (ecc : List MemError) (n_regs : m .regs = false) (n_mem : m .mem = false)
    (n_cfg : m .cfg = false) (n_flt : m .flt = false) (n_chk : m .chk = false) (n_mm : m .mm = false)
    (n_hub : m .hub = false) (n_fleet : m .fleet = false) (n_dense : m .dense = false) :
    Same m a (State.streamChunkArrive s d c k st ecc) := by
  unfold State.streamChunkArrive
  repeat' first
    | (with_reducible first
        | assumption | refine Same.ite ?_ ?_ | apply State.meetReads_same | apply State.write_same
        | apply State.setStream_same | apply State.poisonRange_same)
    | split

theorem execStreamChunkArrive_same {m : Component → Bool} {a s : State} (h : Same m a s) (die : Fin 4)
    (cluster : Fin 16) (core : Fin 8) (stream : Fin 16) (ecc : List MemError) (n_regs : m .regs = false)
    (n_mem : m .mem = false) (n_cfg : m .cfg = false) (n_flt : m .flt = false) (n_chk : m .chk = false)
    (n_mm : m .mm = false) (n_hub : m .hub = false) (n_fleet : m .fleet = false) (n_dense : m .dense = false)
    {kt : State} (ke : execStreamChunkArrive die cluster core stream ecc s = .next kt) :
    Same m a kt := by
  unfold execStreamChunkArrive at ke
  refine Same.of_done ke ?_
  repeat' (with_reducible first | assumption | refine Same.ite ?_ ?_ | apply State.streamChunkArrive_same)

theorem State.retireDrained_same {m : Component → Bool} {a s : State} (h : Same m a s) (d : Nat) (c : Nat) (k : Nat)
    (n_dense : m .dense = false) :
    Same m a (State.retireDrained s d c k) := by
  unfold State.retireDrained
  repeat' first
    | (with_reducible first | assumption | apply State.retireEntry_same)
    | split

theorem State.streamChunkWrite_same {m : Component → Bool} {a s : State} (h : Same m a s) (d : Nat) (c : Nat)
    (k : Nat) (st : Nat) (ecc : List MemError) (n_regs : m .regs = false) (n_mem : m .mem = false)
    (n_cfg : m .cfg = false) (n_flt : m .flt = false) (n_chk : m .chk = false) (n_mm : m .mm = false)
    (n_hub : m .hub = false) (n_fleet : m .fleet = false) (n_dense : m .dense = false) :
    Same m a (State.streamChunkWrite s d c k st ecc) := by
  unfold State.streamChunkWrite
  repeat' first
    | (with_reducible first | assumption | refine Same.ite ?_ ?_)
    | (lift_lets; intro kx; refine Same.step (m := m) (a := a) (x := kx) ?_ fun hkx => ?_)
    | (lift_lets; intro kx)
    | (simp only [Same.mk_iff]; apply SameF.of; all_goals first
        | with_reducible exact Off.refl | exact Off.no (by assumption) | skip)
    | (with_reducible first
        | apply State.write_same | apply State.protectedRecord_same | apply State.meetReads_same
        | apply State.setStream_same | apply State.writeNoted_same | apply State.poisonRange_same
        | apply State.retireDrained_same)
    | (simp only [kx, Same.mk_iff]; apply SameF.of; all_goals first
        | with_reducible exact Off.refl | exact Off.no (by assumption) | skip)
    | (with_reducible first
        | refine Same.foldl ?_ fun kb ky hkb => ?_ | refine Same.foldl_snd ?_ fun kb ky hkb => ?_
        | refine Same.foldl_fst ?_ fun kb ky hkb => ?_)
    | split
    | (with_reducible first
        | refine Same.of_snd (by assumption) ?_ | refine Same.of_fst (by assumption) ?_
        | refine Same.of_third (by assumption) ?_)
    | dsimp only
    | unfold kx

theorem execStreamChunkWrite_same {m : Component → Bool} {a s : State} (h : Same m a s) (die : Fin 4)
    (cluster : Fin 16) (core : Fin 8) (chunk : ChunkWrite) (n_regs : m .regs = false) (n_mem : m .mem = false)
    (n_cfg : m .cfg = false) (n_flt : m .flt = false) (n_chk : m .chk = false) (n_mm : m .mm = false)
    (n_hub : m .hub = false) (n_fleet : m .fleet = false) (n_dense : m .dense = false) {kt : State}
    (ke : execStreamChunkWrite die cluster core chunk s = .next kt) :
    Same m a kt := by
  unfold execStreamChunkWrite at ke
  refine Same.of_done ke ?_
  repeat' first
    | (with_reducible first | assumption | refine Same.ite ?_ ?_)
    | (lift_lets; intro kx; refine Same.step (m := m) (a := a) (x := kx) ?_ fun hkx => ?_)
    | (lift_lets; intro kx)
    | (simp only [Same.mk_iff]; apply SameF.of; all_goals first
        | with_reducible exact Off.refl | exact Off.no (by assumption) | skip)
    | with_reducible apply State.streamChunkWrite_same
    | (simp only [kx, Same.mk_iff]; apply SameF.of; all_goals first
        | with_reducible exact Off.refl | exact Off.no (by assumption) | skip)
    | (with_reducible first
        | refine Same.foldl ?_ fun kb ky hkb => ?_ | refine Same.foldl_snd ?_ fun kb ky hkb => ?_
        | refine Same.foldl_fst ?_ fun kb ky hkb => ?_)
    | split
    | (with_reducible first
        | refine Same.of_snd (by assumption) ?_ | refine Same.of_fst (by assumption) ?_
        | refine Same.of_third (by assumption) ?_)
    | dsimp only
    | unfold kx

end Sys2Proof.Machine
end

