-- ==== Sys2Proof/Laws/SameEmbed.lean ====
section
/-! SUPPORT. What the operations of Machine/Embed.lean leave alone (`Same`). -/

set_option linter.unusedSimpArgs false

namespace Sys2Proof.Machine

theorem State.setPress_same {m : Component → Bool} {a s : State} (h : Same m a s) (d : Nat) (c : Nat)
    (p : PressState) (n_emb : m .emb = false) :
    Same m a (State.setPress s d c p) := by
  unfold State.setPress
  repeat' first
    | with_reducible assumption
    | (simp only [Same.mk_iff]; apply SameF.of; all_goals first
        | with_reducible exact Off.refl | exact Off.no (by assumption) | skip)

theorem State.startJob_same {m : Component → Bool} {a s : State} (h : Same m a s) (d : Nat) (c : Nat)
    (n_emb : m .emb = false) :
    Same m a (State.startJob s d c) := by
  unfold State.startJob
  repeat' first
    | (with_reducible first | assumption | refine Same.ite ?_ ?_)
    | (lift_lets; intro kx; refine Same.step (m := m) (a := a) (x := kx) ?_ fun hkx => ?_)
    | (lift_lets; intro kx)
    | (simp only [Same.mk_iff]; apply SameF.of; all_goals first
        | with_reducible exact Off.refl | exact Off.no (by assumption) | skip)
    | with_reducible apply State.setPress_same
    | (simp only [kx, Same.mk_iff]; apply SameF.of; all_goals first
        | with_reducible exact Off.refl | exact Off.no (by assumption) | skip)
    | (with_reducible first
        | refine Same.foldl ?_ fun kb ky hkb => ?_ | refine Same.foldl_snd ?_ fun kb ky hkb => ?_
        | refine Same.foldl_fst ?_ fun kb ky hkb => ?_)
    | split
    | (with_reducible first
        | refine Same.of_snd (by assumption) ?_ | refine Same.of_fst (by assumption) ?_
        | refine Same.of_third (by assumption) ?_)
    | dsimp only
    | unfold kx

theorem State.sendGroup_same {m : Component → Bool} {a s : State} (h : Same m a s) (t : TableD) (bytes : List Byte)
    (bad : Bool) (tiles : List (Nat × Nat × Nat × Nat)) (n_fresh : m .fresh = false) (n_regs : m .regs = false)
    (n_crossings : m .crossings = false) (n_chk : m .chk = false) (n_hub : m .hub = false) :
    Same m a (State.sendGroup s t bytes bad tiles) := by
  unfold State.sendGroup
  repeat' (with_reducible first | assumption | apply State.sendData_same | refine Same.foldl ?_ fun kb ky hkb => ?_)

theorem State.sendIndices_same {m : Component → Bool} {a s : State} (h : Same m a s) (t : TableD) (j : Job)
    (n_fresh : m .fresh = false) (n_regs : m .regs = false) (n_crossings : m .crossings = false)
    (n_chk : m .chk = false) (n_hub : m .hub = false) :
    Same m a (State.sendIndices s t j) := by
  unfold State.sendIndices
  repeat' first
    | (with_reducible first | assumption | refine Same.ite ?_ ?_)
    | (lift_lets; intro kx; refine Same.step (m := m) (a := a) (x := kx) ?_ fun hkx => ?_)
    | (lift_lets; intro kx)
    | (simp only [Same.mk_iff]; apply SameF.of; all_goals first
        | with_reducible exact Off.refl | exact Off.no (by assumption) | skip)
    | with_reducible apply State.sendGroup_same
    | (simp only [kx, Same.mk_iff]; apply SameF.of; all_goals first
        | with_reducible exact Off.refl | exact Off.no (by assumption) | skip)
    | (with_reducible first
        | refine Same.foldl ?_ fun kb ky hkb => ?_ | refine Same.foldl_snd ?_ fun kb ky hkb => ?_
        | refine Same.foldl_fst ?_ fun kb ky hkb => ?_)
    | split
    | (with_reducible first
        | refine Same.of_snd (by assumption) ?_ | refine Same.of_fst (by assumption) ?_
        | refine Same.of_third (by assumption) ?_)
    | dsimp only
    | unfold kx

theorem State.setLines_same {m : Component → Bool} {a s : State} (h : Same m a s) (ls : List GrottoLine)
    (n_emb : m .emb = false) :
    Same m a (State.setLines s ls) := by
  unfold State.setLines
  repeat' first
    | with_reducible assumption
    | (simp only [Same.mk_iff]; apply SameF.of; all_goals first
        | with_reducible exact Off.refl | exact Off.no (by assumption) | skip)

theorem State.grot_same {m : Component → Bool} {a s : State} (h : Same m a s) (d : Nat) (c : Nat) (i : Nat)
    (n : Nat) (n_regs : m .regs = false) :
    Same m a (State.grot s d c i n) := by
  unfold State.grot
  repeat' (with_reducible first | assumption | refine Same.ite ?_ ?_ | apply State.bump_same)

theorem State.takeLine_same {m : Component → Bool} {a s t : State} {d c table i : Nat} {td : TableD} (h : Same m a s)
    (e : s.takeLine d c table td = some (t, i)) (n_regs : m .regs = false) (n_emb : m .emb = false) : Same m a t := by
  unfold State.takeLine at e
  split at e
  · cases e
  · dsimp only at e
    split at e
    · cases e; exact h
    · split at e
      · cases e
      · cases e; exact State.grot_same (State.setLines_same h _ n_emb) _ _ _ _ n_regs

theorem State.promote_same {m : Component → Bool} {a s : State} (h : Same m a s) (d : Nat) (table : Nat) (row : Nat)
    (t : TableD) (pin : Bool) (n_regs : m .regs = false) (n_emb : m .emb = false) :
    Same m a (State.promote s d table row t pin) := by
  unfold State.promote
  repeat' first
    | (with_reducible first | assumption | apply State.setLines_same | apply State.grot_same)
    | split
    | dsimp only
    | exact State.takeLine_same (by assumption) (by assumption) (by assumption) (by assumption)

theorem State.countRow_same {m : Component → Bool} {a s : State} (h : Same m a s) (d : Nat) (table : Nat)
    (row : Nat) (n : Nat) (t : TableD) (n_regs : m .regs = false) (n_emb : m .emb = false) :
    Same m a (State.countRow s d table row n t) := by
  unfold State.countRow
  repeat' first
    | (with_reducible first | assumption | refine Same.ite ?_ ?_)
    | (simp only [Same.mk_iff]; apply SameF.of; all_goals first
        | with_reducible exact Off.refl | exact Off.no (by assumption) | skip)
    | (with_reducible first | apply State.bump_same | apply State.grot_same | apply State.promote_same)

theorem State.dropLine_same {m : Component → Bool} {a s : State} (h : Same m a s) (l : GrottoLine) (aa : Nat)
    (op : Nat) (n_regs : m .regs = false) (n_chk : m .chk = false) (n_emb : m .emb = false) :
    Same m a (State.dropLine s l aa op) := by
  unfold State.dropLine
  repeat' (with_reducible first | assumption | refine Same.ite ?_ ?_ | apply State.emit_same | apply State.setLines_same)

theorem State.stageRow_same {m : Component → Bool} {a s : State} (h : Same m a s) (d : Nat) (table : Nat)
    (row : Nat) (t : TableD) (n_fresh : m .fresh = false) (n_regs : m .regs = false) (n_mem : m .mem = false)
    (n_chk : m .chk = false) (n_mm : m .mm = false) (n_emb : m .emb = false) :
    Same m a (State.stageRow s d table row t) := by
  unfold State.stageRow
  repeat' first
    | (with_reducible first | assumption | refine Same.ite ?_ ?_)
    | (lift_lets; intro kx; refine Same.step (m := m) (a := a) (x := kx) ?_ fun hkx => ?_)
    | (lift_lets; intro kx)
    | (simp only [Same.mk_iff]; apply SameF.of; all_goals first
        | with_reducible exact Off.refl | exact Off.no (by assumption) | skip)
    | (with_reducible first
        | apply State.guardedWrite_same | apply State.guardedFree_same | apply State.poisonRange_same)
    | (simp only [kx, Same.mk_iff]; apply SameF.of; all_goals first
        | with_reducible exact Off.refl | exact Off.no (by assumption) | skip)
    | (with_reducible first
        | refine Same.foldl ?_ fun kb ky hkb => ?_ | refine Same.foldl_snd ?_ fun kb ky hkb => ?_
        | refine Same.foldl_fst ?_ fun kb ky hkb => ?_)
    | split
    | (with_reducible first
        | refine Same.of_snd (by assumption) ?_ | refine Same.of_fst (by assumption) ?_
        | refine Same.of_third (by assumption) ?_)
    | dsimp only
    | unfold kx

theorem State.scanMb_same {m : Component → Bool} {a s : State} (h : Same m a s) (d : Nat) (table : Nat) (mb : Nat)
    (es : List MemError) (n_fresh : m .fresh = false) (n_regs : m .regs = false) (n_mem : m .mem = false)
    (n_cfg : m .cfg = false) (n_flt : m .flt = false) (n_chk : m .chk = false) (n_mm : m .mm = false)
    (n_hub : m .hub = false) (n_fleet : m .fleet = false) (n_emb : m .emb = false) :
    Same m a (State.scanMb s d table mb es) := by
  unfold State.scanMb
  repeat' first
    | (with_reducible first
        | assumption | apply State.meetReads_same | apply State.stageRow_same
        | refine Same.foldl ?_ fun kb ky hkb => ?_)
    | split

theorem State.scanStart_same {m : Component → Bool} {a s : State} (h : Same m a s) (n_fresh : m .fresh = false)
    (n_regs : m .regs = false) (n_mem : m .mem = false) (n_cfg : m .cfg = false) (n_flt : m .flt = false)
    (n_chk : m .chk = false) (n_mm : m .mm = false) (n_hub : m .hub = false) (n_fleet : m .fleet = false)
    (n_emb : m .emb = false) :
    Same m a (State.scanStart s) := by
  unfold State.scanStart
  repeat' (with_reducible first | assumption | apply State.scanMb_same | refine Same.foldl ?_ fun kb ky hkb => ?_)

theorem State.meetStart_same {m : Component → Bool} {a s : State} (h : Same m a s) (d : Nat) (t : TableD)
    (es : List MemError) (n_regs : m .regs = false) (n_cfg : m .cfg = false) (n_flt : m .flt = false)
    (n_chk : m .chk = false) (n_mm : m .mm = false) (n_hub : m .hub = false) (n_fleet : m .fleet = false) :
    Same m a (State.meetStart s d t es).1 := by
  unfold State.meetStart
  repeat' first
    | (with_reducible first | assumption | refine Same.ite ?_ ?_)
    | (lift_lets; intro kx; refine Same.step (m := m) (a := a) (x := kx) ?_ fun hkx => ?_)
    | (lift_lets; intro kx)
    | (simp only [Same.mk_iff]; apply SameF.of; all_goals first
        | with_reducible exact Off.refl | exact Off.no (by assumption) | skip)
    | (with_reducible first | apply State.meetReads_same | apply State.poisonRange_same)
    | (simp only [kx, Same.mk_iff]; apply SameF.of; all_goals first
        | with_reducible exact Off.refl | exact Off.no (by assumption) | skip)
    | (with_reducible first
        | refine Same.foldl ?_ fun kb ky hkb => ?_ | refine Same.foldl_snd ?_ fun kb ky hkb => ?_
        | refine Same.foldl_fst ?_ fun kb ky hkb => ?_)
    | split
    | (with_reducible first
        | refine Same.of_snd (by assumption) ?_ | refine Same.of_fst (by assumption) ?_
        | refine Same.of_third (by assumption) ?_)
    | dsimp only
    | unfold kx

theorem State.scanAhead_same {m : Component → Bool} {a s : State} (h : Same m a s) (d : Nat) (j : Job)
    (es : List MemError) (n_fresh : m .fresh = false) (n_regs : m .regs = false) (n_mem : m .mem = false)
    (n_cfg : m .cfg = false) (n_flt : m .flt = false) (n_chk : m .chk = false) (n_mm : m .mm = false)
    (n_hub : m .hub = false) (n_fleet : m .fleet = false) (n_emb : m .emb = false) :
    Same m a (State.scanAhead s d j es).1 := by
  unfold State.scanAhead
  repeat' first
    | (with_reducible first | assumption | refine Same.ite ?_ ?_)
    | (lift_lets; intro kx; refine Same.step (m := m) (a := a) (x := kx) ?_ fun hkx => ?_)
    | (lift_lets; intro kx)
    | (simp only [Same.mk_iff]; apply SameF.of; all_goals first
        | with_reducible exact Off.refl | exact Off.no (by assumption) | skip)
    | (with_reducible first | apply State.scanMb_same | apply State.meetStart_same)
    | (simp only [kx, Same.mk_iff]; apply SameF.of; all_goals first
        | with_reducible exact Off.refl | exact Off.no (by assumption) | skip)
    | (with_reducible first
        | refine Same.foldl ?_ fun kb ky hkb => ?_ | refine Same.foldl_snd ?_ fun kb ky hkb => ?_
        | refine Same.foldl_fst ?_ fun kb ky hkb => ?_)
    | split
    | (with_reducible first
        | refine Same.of_snd (by assumption) ?_ | refine Same.of_fst (by assumption) ?_
        | refine Same.of_third (by assumption) ?_)
    | dsimp only
    | unfold kx

theorem State.countRead_same {m : Component → Bool} {a s : State} (h : Same m a s) (d : Nat) (table : Nat)
    (row : Nat) (n_regs : m .regs = false) :
    Same m a (State.countRead s d table row) := by
  unfold State.countRead
  repeat' (with_reducible first | assumption | refine Same.ite ?_ ?_ | apply State.grot_same)

theorem State.dropBadLines_same {m : Component → Bool} {a s : State} (h : Same m a s) (d : Nat) (table : Nat)
    (rows : List Nat) (op : Nat) (es : List MemError) (n_regs : m .regs = false) (n_chk : m .chk = false)
    (n_emb : m .emb = false) :
    Same m a (State.dropBadLines s d table rows op es) := by
  unfold State.dropBadLines
  repeat' first
    | (with_reducible first | assumption | apply State.dropLine_same | refine Same.foldl ?_ fun kb ky hkb => ?_)
    | split

theorem State.meetRows_same {m : Component → Bool} {a s : State} (h : Same m a s) (d : Nat) (c : Nat) (t : TableD)
    (rows : List Nat) (n : Nat) (more : List (Nat × Nat)) (op : Nat) (es : List MemError) (n_regs : m .regs = false)
    (n_cfg : m .cfg = false) (n_flt : m .flt = false) (n_chk : m .chk = false) (n_mm : m .mm = false)
    (n_hub : m .hub = false) (n_fleet : m .fleet = false) (n_emb : m .emb = false) :
    Same m a (State.meetRows s d c t rows n more op es) := by
  unfold State.meetRows
  repeat' first
    | (with_reducible first
        | assumption | refine Same.ite ?_ ?_ | apply State.meetReads_same | apply State.dropBadLines_same)

theorem State.readSlice_same {m : Component → Bool} {a s : State} (h : Same m a s) (d : Nat) (c : Nat) (row : Nat)
    (t : TableD) (n_regs : m .regs = false) :
    Same m a (State.readSlice s d c row t).1 := by
  unfold State.readSlice
  repeat' (with_reducible first | assumption | refine Same.ite ?_ ?_ | apply State.grot_same | apply State.countRead_same)

theorem State.putRow_same {m : Component → Bool} {a s : State} (h : Same m a s) (t : TableD) (dt : Tensor) (d : Nat)
    (r : Nat) (peer : Option Nat) (v : List Nat × Bool) (n_fresh : m .fresh = false) (n_regs : m .regs = false)
    (n_mem : m .mem = false) (n_crossings : m .crossings = false) (n_chk : m .chk = false) (n_mm : m .mm = false)
    (n_hub : m .hub = false) (n_dense : m .dense = false) :
    Same m a (State.putRow s t dt d r peer v) := by
  unfold State.putRow
  repeat' first
    | (with_reducible first
        | assumption | apply State.sendData_same | apply State.writeNoted_same | apply State.poisonRange_same
        | refine Same.foldl ?_ fun kb ky hkb => ?_)
    | split

theorem State.jobStop_same {m : Component → Bool} {a s : State} (h : Same m a s) (d : Nat) (c : Nat) (kind : Nat)
    (rec_ : Nat) (synd : Nat) (n_regs : m .regs = false) (n_cfg : m .cfg = false) (n_flt : m .flt = false)
    (n_chk : m .chk = false) (n_hub : m .hub = false) (n_fleet : m .fleet = false) :
    Same m a (State.jobStop s d c kind rec_ synd) := by
  unfold State.jobStop
  repeat' (with_reducible first | assumption | refine Same.ite ?_ ?_ | apply State.emit_same | apply State.stopStep_same)

theorem State.undoUpdates_same {m : Component → Bool} {a s : State} (h : Same m a s) (n_mem : m .mem = false)
    (n_mm : m .mm = false) (n_emb : m .emb = false) :
    Same m a (State.undoUpdates s) := by
  unfold State.undoUpdates
  repeat' first
    | (with_reducible first | assumption | refine Same.ite ?_ ?_)
    | (lift_lets; intro kx; refine Same.step (m := m) (a := a) (x := kx) ?_ fun hkx => ?_)
    | (lift_lets; intro kx)
    | (simp only [Same.mk_iff]; apply SameF.of; all_goals first
        | with_reducible exact Off.refl | exact Off.no (by assumption) | skip)
    | with_reducible apply State.write_same
    | (simp only [kx, Same.mk_iff]; apply SameF.of; all_goals first
        | with_reducible exact Off.refl | exact Off.no (by assumption) | skip)
    | (with_reducible first
        | refine Same.foldl ?_ fun kb ky hkb => ?_ | refine Same.foldl_snd ?_ fun kb ky hkb => ?_
        | refine Same.foldl_fst ?_ fun kb ky hkb => ?_)
    | split
    | (with_reducible first
        | refine Same.of_snd (by assumption) ?_ | refine Same.of_fst (by assumption) ?_
        | refine Same.of_third (by assumption) ?_)
    | dsimp only
    | unfold kx

theorem State.lookupOutputs_same {m : Component → Bool} {a s : State} (h : Same m a s) (ts : List Tensor)
    (t : TableD) (j : Job) (dt : Tensor) (d : Nat) (leaves : List (Nat × List Nat × Bool))
    (n_fresh : m .fresh = false) (n_regs : m .regs = false) (n_mem : m .mem = false)
    (n_crossings : m .crossings = false) (n_chk : m .chk = false) (n_mm : m .mm = false) (n_hub : m .hub = false)
    (n_dense : m .dense = false) (n_emb : m .emb = false) :
    Same m a (State.lookupOutputs s ts t j dt d leaves).1 := by
  unfold State.lookupOutputs
  repeat' first
    | (with_reducible first | assumption | refine Same.ite ?_ ?_)
    | (lift_lets; intro kx; refine Same.step (m := m) (a := a) (x := kx) ?_ fun hkx => ?_)
    | (lift_lets; intro kx)
    | (simp only [Same.mk_iff]; apply SameF.of; all_goals first
        | with_reducible exact Off.refl | exact Off.no (by assumption) | skip)
    | with_reducible apply State.putRow_same
    | (simp only [kx, Same.mk_iff]; apply SameF.of; all_goals first
        | with_reducible exact Off.refl | exact Off.no (by assumption) | skip)
    | (with_reducible first
        | refine Same.foldl ?_ fun kb ky hkb => ?_ | refine Same.foldl_snd ?_ fun kb ky hkb => ?_
        | refine Same.foldl_fst ?_ fun kb ky hkb => ?_)
    | split
    | (with_reducible first
        | refine Same.of_snd (by assumption) ?_ | refine Same.of_fst (by assumption) ?_
        | refine Same.of_third (by assumption) ?_)
    | dsimp only
    | unfold kx

theorem State.pressTrace_same {m : Component → Bool} {a s : State} (h : Same m a s) (d : Nat) (c : Nat)
    (elements : Nat) (pip : Nat) (mb : Nat) (n_regs : m .regs = false) (n_mem : m .mem = false)
    (n_chk : m .chk = false) (n_mm : m .mm = false) :
    Same m a (State.pressTrace s d c elements pip mb) := by
  unfold State.pressTrace
  repeat' (with_reducible first | assumption | refine Same.ite ?_ ?_ | apply State.trace_same)

theorem State.failPress_same {m : Component → Bool} {a s : State} (h : Same m a s) (d : Nat) (c : Nat) (kind : Nat)
    (f : PressFault) (n_fresh : m .fresh = false) (n_regs : m .regs = false) (n_cfg : m .cfg = false)
    (n_flt : m .flt = false) (n_chk : m .chk = false) (n_hub : m .hub = false) (n_fleet : m .fleet = false) :
    Same m a (State.failPress s d c kind f) := by
  unfold State.failPress
  repeat' first
    | (with_reducible first
        | assumption | refine Same.ite ?_ ?_ | apply State.free_same | apply State.bump_same | apply State.emit_same
        | apply State.stopStep_same)

theorem State.runPress_same {m : Component → Bool} {a s : State} (h : Same m a s) (d c kind : Nat)
    (fault : Option PressFault) (meet run : State → State) (km : ∀ x, Same m a x → Same m a (meet x))
    (kr : ∀ x, Same m a x → Same m a (run x)) (n_fresh : m .fresh = false) (n_regs : m .regs = false)
      (n_cfg : m .cfg = false) (n_flt : m .flt = false) (n_chk : m .chk = false) (n_hub : m .hub = false)
      (n_fleet : m .fleet = false) (n_emb : m .emb = false) :
    Same m a (s.runPress d c kind fault meet run) := by
  have k := km _ (State.setPress_same h d c { s.press d c with waiting := false } n_emb)
  unfold State.runPress
  dsimp only
  split
  · exact k
  · split
    · split
      · exact State.failPress_same k _ _ _ _ n_fresh n_regs n_cfg n_flt n_chk n_hub n_fleet
      · exact kr _ k
    · exact kr _ k

theorem State.noteLookup_same {m : Component → Bool} {a s : State} (h : Same m a s) (ts : List Tensor) (t : TableD)
    (j : Job) (d : Nat) (c : Nat) (l : List (Nat × Nat)) (n_fresh : m .fresh = false) (n_regs : m .regs = false)
    (n_mem : m .mem = false) (n_chk : m .chk = false) (n_mm : m .mm = false) (n_emb : m .emb = false) :
    Same m a (State.noteLookup s ts t j d c l) := by
  unfold State.noteLookup
  repeat' first
    | (with_reducible first | assumption | refine Same.ite ?_ ?_)
    | (lift_lets; intro kx; refine Same.step (m := m) (a := a) (x := kx) ?_ fun hkx => ?_)
    | (lift_lets; intro kx)
    | (simp only [Same.mk_iff]; apply SameF.of; all_goals first
        | with_reducible exact Off.refl | exact Off.no (by assumption) | skip)
    | (with_reducible first | apply State.bump_same | apply State.emit_same | apply State.guardedFree_same)
    | (simp only [kx, Same.mk_iff]; apply SameF.of; all_goals first
        | with_reducible exact Off.refl | exact Off.no (by assumption) | skip)
    | (with_reducible first
        | refine Same.foldl ?_ fun kb ky hkb => ?_ | refine Same.foldl_snd ?_ fun kb ky hkb => ?_
        | refine Same.foldl_fst ?_ fun kb ky hkb => ?_)
    | split
    | (with_reducible first
        | refine Same.of_snd (by assumption) ?_ | refine Same.of_fst (by assumption) ?_
        | refine Same.of_third (by assumption) ?_)
    | dsimp only
    | unfold kx

theorem State.gather_same {m : Component → Bool} {a s : State} (h : Same m a s) (ts : List Tensor) (t : TableD)
    (j : Job) (dt : Tensor) (d : Nat) (c : Nat) (l : List (Nat × Nat)) (escaped : Option Nat)
    (n_fresh : m .fresh = false) (n_regs : m .regs = false) (n_mem : m .mem = false)
    (n_crossings : m .crossings = false) (n_chk : m .chk = false) (n_mm : m .mm = false) (n_hub : m .hub = false)
    (n_dense : m .dense = false) (n_emb : m .emb = false) :
    Same m a (State.gather s ts t j dt d c l escaped) := by
  unfold State.gather
  repeat' first
    | (with_reducible first | assumption | refine Same.ite ?_ ?_)
    | (lift_lets; intro kx; refine Same.step (m := m) (a := a) (x := kx) ?_ fun hkx => ?_)
    | (lift_lets; intro kx)
    | (simp only [Same.mk_iff]; apply SameF.of; all_goals first
        | with_reducible exact Off.refl | exact Off.no (by assumption) | skip)
    | (with_reducible first
        | apply State.tickFree_same | apply State.bump_same | apply State.writeElem_same | apply State.countRow_same
        | apply State.readSlice_same | apply State.lookupOutputs_same | apply State.pressTrace_same
        | apply State.noteLookup_same)
    | (simp only [kx, Same.mk_iff]; apply SameF.of; all_goals first
        | with_reducible exact Off.refl | exact Off.no (by assumption) | skip)
    | (with_reducible first
        | refine Same.foldl ?_ fun kb ky hkb => ?_ | refine Same.foldl_snd ?_ fun kb ky hkb => ?_
        | refine Same.foldl_fst ?_ fun kb ky hkb => ?_)
    | split
    | (with_reducible first
        | refine Same.of_snd (by assumption) ?_ | refine Same.of_fst (by assumption) ?_
        | refine Same.of_third (by assumption) ?_)
    | dsimp only
    | unfold kx

theorem State.lookupRun_same {m : Component → Bool} {a s : State} (h : Same m a s) (t : TableD) (j : Job)
    (dt : Tensor) (d : Nat) (c : Nat) (ecc : List MemError) (fault : Option PressFault) (n_fresh : m .fresh = false)
    (n_regs : m .regs = false) (n_mem : m .mem = false) (n_crossings : m .crossings = false)
    (n_cfg : m .cfg = false) (n_flt : m .flt = false) (n_chk : m .chk = false) (n_mm : m .mm = false)
    (n_hub : m .hub = false) (n_fleet : m .fleet = false) (n_dense : m .dense = false) (n_emb : m .emb = false) :
    Same m a (State.lookupRun s t j dt d c ecc fault) := by
  unfold State.lookupRun
  repeat' first
    | (with_reducible first
        | assumption | first | refine fun kz kb hkz => ?_ | refine fun kz hkz => ?_ | refine Same.ite ?_ ?_)
    | (lift_lets; intro kx; refine Same.step (m := m) (a := a) (x := kx) ?_ fun hkx => ?_)
    | (lift_lets; intro kx)
    | (simp only [Same.mk_iff]; apply SameF.of; all_goals first
        | with_reducible exact Off.refl | exact Off.no (by assumption) | skip)
    | (with_reducible first
        | apply State.meetRows_same | apply State.jobStop_same | apply State.undoUpdates_same
        | apply State.runPress_same | apply State.gather_same)
    | (simp only [kx, Same.mk_iff]; apply SameF.of; all_goals first
        | with_reducible exact Off.refl | exact Off.no (by assumption) | skip)
    | (with_reducible first
        | refine Same.foldl ?_ fun kb ky hkb => ?_ | refine Same.foldl_snd ?_ fun kb ky hkb => ?_
        | refine Same.foldl_fst ?_ fun kb ky hkb => ?_)
    | split
    | (with_reducible first
        | refine Same.of_snd (by assumption) ?_ | refine Same.of_fst (by assumption) ?_
        | refine Same.of_third (by assumption) ?_)
    | dsimp only
    | unfold kx

theorem State.lookup_same {m : Component → Bool} {a s : State} (h : Same m a s) (d : Nat) (c : Nat)
    (ecc : List MemError) (fault : Option PressFault) (n_fresh : m .fresh = false) (n_regs : m .regs = false)
    (n_mem : m .mem = false) (n_crossings : m .crossings = false) (n_cfg : m .cfg = false) (n_flt : m .flt = false)
    (n_chk : m .chk = false) (n_mm : m .mm = false) (n_hub : m .hub = false) (n_fleet : m .fleet = false)
    (n_dense : m .dense = false) (n_emb : m .emb = false) :
    Same m a (State.lookup s d c ecc fault) := by
  unfold State.lookup
  repeat' first
    | (with_reducible first | assumption | refine Same.ite ?_ ?_)
    | (lift_lets; intro kx; refine Same.step (m := m) (a := a) (x := kx) ?_ fun hkx => ?_)
    | (lift_lets; intro kx)
    | (simp only [Same.mk_iff]; apply SameF.of; all_goals first
        | with_reducible exact Off.refl | exact Off.no (by assumption) | skip)
    | (with_reducible first
        | apply State.startJob_same | apply State.sendIndices_same | apply State.scanAhead_same
        | apply State.lookupRun_same)
    | (simp only [kx, Same.mk_iff]; apply SameF.of; all_goals first
        | with_reducible exact Off.refl | exact Off.no (by assumption) | skip)
    | (with_reducible first
        | refine Same.foldl ?_ fun kb ky hkb => ?_ | refine Same.foldl_snd ?_ fun kb ky hkb => ?_
        | refine Same.foldl_fst ?_ fun kb ky hkb => ?_)
    | split
    | (with_reducible first
        | refine Same.of_snd (by assumption) ?_ | refine Same.of_fst (by assumption) ?_
        | refine Same.of_third (by assumption) ?_)
    | dsimp only
    | unfold kx

theorem execLookup_same {m : Component → Bool} {a s : State} (h : Same m a s) (die : Fin 4) (cluster : Fin 16)
    (ecc : List MemError) (fault : Option PressFault) (n_fresh : m .fresh = false) (n_regs : m .regs = false)
    (n_mem : m .mem = false) (n_crossings : m .crossings = false) (n_cfg : m .cfg = false) (n_flt : m .flt = false)
    (n_chk : m .chk = false) (n_mm : m .mm = false) (n_hub : m .hub = false) (n_fleet : m .fleet = false)
    (n_dense : m .dense = false) (n_emb : m .emb = false) {kt : State}
    (ke : execLookup die cluster ecc fault s = .next kt) :
    Same m a kt := by
  unfold execLookup at ke
  refine Same.of_done ke ?_
  repeat' (with_reducible first | assumption | refine Same.ite ?_ ?_ | apply State.lookup_same)

theorem State.sendGradients_same {m : Component → Bool} {a s : State} (h : Same m a s) (ts : List Tensor)
    (t : TableD) (j : Job) (dt : Tensor) (d : Nat) (n_fresh : m .fresh = false) (n_regs : m .regs = false)
    (n_crossings : m .crossings = false) (n_chk : m .chk = false) (n_hub : m .hub = false) :
    Same m a (State.sendGradients s ts t j dt d) := by
  unfold State.sendGradients
  repeat' first
    | (with_reducible first | assumption | refine Same.ite ?_ ?_)
    | (lift_lets; intro kx; refine Same.step (m := m) (a := a) (x := kx) ?_ fun hkx => ?_)
    | (lift_lets; intro kx)
    | (simp only [Same.mk_iff]; apply SameF.of; all_goals first
        | with_reducible exact Off.refl | exact Off.no (by assumption) | skip)
    | with_reducible apply State.sendData_same
    | (simp only [kx, Same.mk_iff]; apply SameF.of; all_goals first
        | with_reducible exact Off.refl | exact Off.no (by assumption) | skip)
    | (with_reducible first
        | refine Same.foldl ?_ fun kb ky hkb => ?_ | refine Same.foldl_snd ?_ fun kb ky hkb => ?_
        | refine Same.foldl_fst ?_ fun kb ky hkb => ?_)
    | split
    | (with_reducible first
        | refine Same.of_snd (by assumption) ?_ | refine Same.of_fst (by assumption) ?_
        | refine Same.of_third (by assumption) ?_)
    | dsimp only
    | unfold kx

theorem State.sendParts_same {m : Component → Bool} {a s : State} (h : Same m a s) (t : TableD) (j : Job) (d : Nat)
    (c : Nat) (parts : List PartMsg) (n_regs : m .regs = false) (n_mem : m .mem = false) (n_chk : m .chk = false)
    (n_mm : m .mm = false) (n_emb : m .emb = false) :
    Same m a (State.sendParts s t j d c parts) := by
  unfold State.sendParts
  repeat' first
    | with_reducible assumption
    | (simp only [Same.mk_iff]; apply SameF.of; all_goals first
        | with_reducible exact Off.refl | exact Off.no (by assumption) | skip)
    | (with_reducible first | apply State.bump_same | apply State.pressTrace_same)

theorem State.combine_same {m : Component → Bool} {a s : State} (h : Same m a s) (d : Nat) (c : Nat)
    (ecc : List MemError) (fault : Option PressFault) (n_fresh : m .fresh = false) (n_regs : m .regs = false)
    (n_mem : m .mem = false) (n_crossings : m .crossings = false) (n_cfg : m .cfg = false) (n_flt : m .flt = false)
    (n_chk : m .chk = false) (n_mm : m .mm = false) (n_hub : m .hub = false) (n_fleet : m .fleet = false)
    (n_emb : m .emb = false) :
    Same m a (State.combine s d c ecc fault) := by
  unfold State.combine
  repeat' first
    | (with_reducible first
        | assumption | first | refine fun kz kb hkz => ?_ | refine fun kz hkz => ?_ | refine Same.ite ?_ ?_)
    | (lift_lets; intro kx; refine Same.step (m := m) (a := a) (x := kx) ?_ fun hkx => ?_)
    | (lift_lets; intro kx)
    | (simp only [Same.mk_iff]; apply SameF.of; all_goals first
        | with_reducible exact Off.refl | exact Off.no (by assumption) | skip)
    | (with_reducible first
        | apply State.tickFree_same | apply State.meetReads_same | apply State.startJob_same
        | apply State.runPress_same | apply State.sendGradients_same | apply State.sendParts_same)
    | (simp only [kx, Same.mk_iff]; apply SameF.of; all_goals first
        | with_reducible exact Off.refl | exact Off.no (by assumption) | skip)
    | (with_reducible first
        | refine Same.foldl ?_ fun kb ky hkb => ?_ | refine Same.foldl_snd ?_ fun kb ky hkb => ?_
        | refine Same.foldl_fst ?_ fun kb ky hkb => ?_)
    | split
    | (with_reducible first
        | refine Same.of_snd (by assumption) ?_ | refine Same.of_fst (by assumption) ?_
        | refine Same.of_third (by assumption) ?_)
    | dsimp only
    | unfold kx
    | exact hkz

theorem execCombine_same {m : Component → Bool} {a s : State} (h : Same m a s) (site : PressSite)
    (events : PressEvents) (n_fresh : m .fresh = false) (n_regs : m .regs = false) (n_mem : m .mem = false)
    (n_crossings : m .crossings = false) (n_cfg : m .cfg = false) (n_flt : m .flt = false) (n_chk : m .chk = false)
    (n_mm : m .mm = false) (n_hub : m .hub = false) (n_fleet : m .fleet = false) (n_emb : m .emb = false)
    {kt : State} (ke : execCombine site events s = .next kt) :
    Same m a kt := by
  unfold execCombine at ke
  refine Same.of_done ke ?_
  repeat' first
    | (with_reducible first | assumption | refine Same.ite ?_ ?_)
    | (lift_lets; intro kx; refine Same.step (m := m) (a := a) (x := kx) ?_ fun hkx => ?_)
    | (lift_lets; intro kx)
    | (simp only [Same.mk_iff]; apply SameF.of; all_goals first
        | with_reducible exact Off.refl | exact Off.no (by assumption) | skip)
    | with_reducible apply State.combine_same
    | (simp only [kx, Same.mk_iff]; apply SameF.of; all_goals first
        | with_reducible exact Off.refl | exact Off.no (by assumption) | skip)
    | (with_reducible first
        | refine Same.foldl ?_ fun kb ky hkb => ?_ | refine Same.foldl_snd ?_ fun kb ky hkb => ?_
        | refine Same.foldl_fst ?_ fun kb ky hkb => ?_)
    | split
    | (with_reducible first
        | refine Same.of_snd (by assumption) ?_ | refine Same.of_fst (by assumption) ?_
        | refine Same.of_third (by assumption) ?_)
    | dsimp only
    | unfold kx

theorem State.putSlot_same {m : Component → Bool} {a s : State} (h : Same m a s) (t : TableD) (aa : Nat) (row : Nat)
    (g : GradRow) (n_regs : m .regs = false) (n_mem : m .mem = false) (n_chk : m .chk = false)
    (n_mm : m .mm = false) :
    Same m a (State.putSlot s t aa row g) := by
  unfold State.putSlot
  repeat' first
    | (with_reducible first | assumption | refine Same.ite ?_ ?_)
    | (lift_lets; intro kx; refine Same.step (m := m) (a := a) (x := kx) ?_ fun hkx => ?_)
    | (lift_lets; intro kx)
    | (simp only [Same.mk_iff]; apply SameF.of; all_goals first
        | with_reducible exact Off.refl | exact Off.no (by assumption) | skip)
    | with_reducible apply State.guardedWrite_same
    | (simp only [kx, Same.mk_iff]; apply SameF.of; all_goals first
        | with_reducible exact Off.refl | exact Off.no (by assumption) | skip)
    | (with_reducible first
        | refine Same.foldl ?_ fun kb ky hkb => ?_ | refine Same.foldl_snd ?_ fun kb ky hkb => ?_
        | refine Same.foldl_fst ?_ fun kb ky hkb => ?_)
    | split
    | (with_reducible first
        | refine Same.of_snd (by assumption) ?_ | refine Same.of_fst (by assumption) ?_
        | refine Same.of_third (by assumption) ?_)
    | dsimp only
    | unfold kx

theorem State.clearBank_same {m : Component → Bool} {a s : State} (h : Same m a s) (t : TableD) (d : Nat) (k : Nat)
    (n_regs : m .regs = false) (n_mem : m .mem = false) (n_chk : m .chk = false) (n_mm : m .mm = false) :
    Same m a (State.clearBank s t d k) := by
  unfold State.clearBank
  repeat' first
    | (with_reducible first | assumption | refine Same.ite ?_ ?_)
    | (lift_lets; intro kx; refine Same.step (m := m) (a := a) (x := kx) ?_ fun hkx => ?_)
    | (lift_lets; intro kx)
    | (simp only [Same.mk_iff]; apply SameF.of; all_goals first
        | with_reducible exact Off.refl | exact Off.no (by assumption) | skip)
    | with_reducible apply State.guardedWrite_same
    | (simp only [kx, Same.mk_iff]; apply SameF.of; all_goals first
        | with_reducible exact Off.refl | exact Off.no (by assumption) | skip)
    | (with_reducible first
        | refine Same.foldl ?_ fun kb ky hkb => ?_ | refine Same.foldl_snd ?_ fun kb ky hkb => ?_
        | refine Same.foldl_fst ?_ fun kb ky hkb => ?_)
    | split
    | (with_reducible first
        | refine Same.of_snd (by assumption) ?_ | refine Same.of_fst (by assumption) ?_
        | refine Same.of_third (by assumption) ?_)
    | dsimp only
    | unfold kx

theorem State.putBank_same {m : Component → Bool} {a s : State} (h : Same m a s) (t : TableD) (d : Nat) (b : Bank)
    (n_regs : m .regs = false) (n_mem : m .mem = false) (n_chk : m .chk = false) (n_mm : m .mm = false) :
    Same m a (State.putBank s t d b) := by
  unfold State.putBank
  repeat' first
    | (with_reducible first | assumption | refine Same.ite ?_ ?_)
    | (lift_lets; intro kx; refine Same.step (m := m) (a := a) (x := kx) ?_ fun hkx => ?_)
    | (lift_lets; intro kx)
    | (simp only [Same.mk_iff]; apply SameF.of; all_goals first
        | with_reducible exact Off.refl | exact Off.no (by assumption) | skip)
    | (with_reducible first | apply State.putSlot_same | apply State.clearBank_same)
    | (simp only [kx, Same.mk_iff]; apply SameF.of; all_goals first
        | with_reducible exact Off.refl | exact Off.no (by assumption) | skip)
    | (with_reducible first
        | refine Same.foldl ?_ fun kb ky hkb => ?_ | refine Same.foldl_snd ?_ fun kb ky hkb => ?_
        | refine Same.foldl_fst ?_ fun kb ky hkb => ?_)
    | split
    | (with_reducible first
        | refine Same.of_snd (by assumption) ?_ | refine Same.of_fst (by assumption) ?_
        | refine Same.of_third (by assumption) ?_)
    | dsimp only
    | unfold kx

theorem State.clearBanks_same {m : Component → Bool} {a s : State} (h : Same m a s) (n_regs : m .regs = false)
    (n_mem : m .mem = false) (n_chk : m .chk = false) (n_mm : m .mm = false) :
    Same m a (State.clearBanks s) := by
  unfold State.clearBanks
  repeat' first
    | (with_reducible first | assumption | refine Same.ite ?_ ?_)
    | (lift_lets; intro kx; refine Same.step (m := m) (a := a) (x := kx) ?_ fun hkx => ?_)
    | (lift_lets; intro kx)
    | (simp only [Same.mk_iff]; apply SameF.of; all_goals first
        | with_reducible exact Off.refl | exact Off.no (by assumption) | skip)
    | with_reducible apply State.clearBank_same
    | (simp only [kx, Same.mk_iff]; apply SameF.of; all_goals first
        | with_reducible exact Off.refl | exact Off.no (by assumption) | skip)
    | (with_reducible first
        | refine Same.foldl ?_ fun kb ky hkb => ?_ | refine Same.foldl_snd ?_ fun kb ky hkb => ?_
        | refine Same.foldl_fst ?_ fun kb ky hkb => ?_)
    | split
    | (with_reducible first
        | refine Same.of_snd (by assumption) ?_ | refine Same.of_fst (by assumption) ?_
        | refine Same.of_third (by assumption) ?_)
    | dsimp only
    | unfold kx

theorem State.partArrives_same {m : Component → Bool} {a s : State} (h : Same m a s) (d : Nat) (c : Nat)
    (n_regs : m .regs = false) (n_mem : m .mem = false) (n_cfg : m .cfg = false) (n_flt : m .flt = false)
    (n_chk : m .chk = false) (n_mm : m .mm = false) (n_hub : m .hub = false) (n_fleet : m .fleet = false)
    (n_emb : m .emb = false) :
    Same m a (State.partArrives s d c) := by
  unfold State.partArrives
  repeat' first
    | (with_reducible first | assumption | refine Same.ite ?_ ?_)
    | (lift_lets; intro kx; refine Same.step (m := m) (a := a) (x := kx) ?_ fun hkx => ?_)
    | (lift_lets; intro kx)
    | (simp only [Same.mk_iff]; apply SameF.of; all_goals first
        | with_reducible exact Off.refl | exact Off.no (by assumption) | skip)
    | (with_reducible first
        | apply State.bump_same | apply State.jobStop_same | apply State.undoUpdates_same | apply State.putSlot_same)
    | (simp only [kx, Same.mk_iff]; apply SameF.of; all_goals first
        | with_reducible exact Off.refl | exact Off.no (by assumption) | skip)
    | (with_reducible first
        | refine Same.foldl ?_ fun kb ky hkb => ?_ | refine Same.foldl_snd ?_ fun kb ky hkb => ?_
        | refine Same.foldl_fst ?_ fun kb ky hkb => ?_)
    | split
    | (with_reducible first
        | refine Same.of_snd (by assumption) ?_ | refine Same.of_fst (by assumption) ?_
        | refine Same.of_third (by assumption) ?_)
    | dsimp only
    | unfold kx

theorem execOwnerPartArrival_same {m : Component → Bool} {a s : State} (h : Same m a s) (die : Fin 4)
    (cluster : Fin 16) (n_regs : m .regs = false) (n_mem : m .mem = false) (n_cfg : m .cfg = false)
    (n_flt : m .flt = false) (n_chk : m .chk = false) (n_mm : m .mm = false) (n_hub : m .hub = false)
    (n_fleet : m .fleet = false) (n_emb : m .emb = false) {kt : State}
    (ke : execOwnerPartArrival die cluster s = .next kt) :
    Same m a kt := by
  unfold execOwnerPartArrival at ke
  refine Same.of_done ke ?_
  repeat' (with_reducible first | assumption | refine Same.ite ?_ ?_ | apply State.partArrives_same)

theorem State.openArea_same {m : Component → Bool} {a s : State} (h : Same m a s) (n : Nat)
    (n_fresh : m .fresh = false) (n_regs : m .regs = false) (n_mem : m .mem = false) (n_chk : m .chk = false)
    (n_mm : m .mm = false) :
    Same m a (State.openArea s n) := by
  unfold State.openArea
  repeat' first
    | (with_reducible first | assumption | refine Same.ite ?_ ?_)
    | (lift_lets; intro kx; refine Same.step (m := m) (a := a) (x := kx) ?_ fun hkx => ?_)
    | (lift_lets; intro kx)
    | (simp only [Same.mk_iff]; apply SameF.of; all_goals first
        | with_reducible exact Off.refl | exact Off.no (by assumption) | skip)
    | with_reducible apply State.guardedFree_same
    | (simp only [kx, Same.mk_iff]; apply SameF.of; all_goals first
        | with_reducible exact Off.refl | exact Off.no (by assumption) | skip)
    | (with_reducible first
        | refine Same.foldl ?_ fun kb ky hkb => ?_ | refine Same.foldl_snd ?_ fun kb ky hkb => ?_
        | refine Same.foldl_fst ?_ fun kb ky hkb => ?_)
    | split
    | (with_reducible first
        | refine Same.of_snd (by assumption) ?_ | refine Same.of_fst (by assumption) ?_
        | refine Same.of_third (by assumption) ?_)
    | dsimp only
    | unfold kx

theorem State.undoRow_same {m : Component → Bool} {a s : State} (h : Same m a s) (t : TableD) (d : Nat) (row : Nat)
    (n_fresh : m .fresh = false) (n_regs : m .regs = false) (n_mem : m .mem = false) (n_flt : m .flt = false)
    (n_chk : m .chk = false) (n_mm : m .mm = false) :
    Same m a (State.undoRow s t d row) := by
  unfold State.undoRow
  repeat' first
    | (with_reducible first | assumption | refine Same.ite ?_ ?_)
    | (lift_lets; intro kx; refine Same.step (m := m) (a := a) (x := kx) ?_ fun hkx => ?_)
    | (lift_lets; intro kx)
    | (simp only [Same.mk_iff]; apply SameF.of; all_goals first
        | with_reducible exact Off.refl | exact Off.no (by assumption) | skip)
    | with_reducible apply State.openArea_same
    | (simp only [kx, Same.mk_iff]; apply SameF.of; all_goals first
        | with_reducible exact Off.refl | exact Off.no (by assumption) | skip)
    | (with_reducible first
        | refine Same.foldl ?_ fun kb ky hkb => ?_ | refine Same.foldl_snd ?_ fun kb ky hkb => ?_
        | refine Same.foldl_fst ?_ fun kb ky hkb => ?_)
    | split
    | (with_reducible first
        | refine Same.of_snd (by assumption) ?_ | refine Same.of_fst (by assumption) ?_
        | refine Same.of_third (by assumption) ?_)
    | dsimp only
    | unfold kx

theorem State.putRecord_same {m : Component → Bool} {a s : State} (h : Same m a s) (t : TableD) (d : Nat)
    (row : Nat) (bs : List Byte) (n_regs : m .regs = false) (n_mem : m .mem = false) (n_mm : m .mm = false)
    (n_dense : m .dense = false) (n_emb : m .emb = false) :
    Same m a (State.putRecord s t d row bs) := by
  unfold State.putRecord
  repeat' first
    | (with_reducible first
        | assumption | apply State.writeNoted_same | apply State.setLines_same | apply State.grot_same)
    | split
    | dsimp only

theorem State.addLedger_same {m : Component → Bool} {a s : State} (h : Same m a s) (t : TableD) (d : Nat)
    (row : Nat) (v : Nat) (bs : List Byte) (n_chk : m .chk = false) :
    Same m a (State.addLedger s t d row v bs) := by
  unfold State.addLedger
  repeat' first
    | with_reducible assumption
    | (simp only [Same.mk_iff]; apply SameF.of; all_goals first
        | with_reducible exact Off.refl | exact Off.no (by assumption) | skip)

theorem State.updateRow_same {m : Component → Bool} {a s : State} (h : Same m a s) (t : TableD) (p : OptPass)
    (d : Nat) (row : Nat) (step : Nat) (g : GradRow) (t2 : Nat) (esc : Option Nat) (n_fresh : m .fresh = false)
    (n_regs : m .regs = false) (n_mem : m .mem = false) (n_cfg : m .cfg = false) (n_flt : m .flt = false)
    (n_chk : m .chk = false) (n_mm : m .mm = false) (n_hub : m .hub = false) (n_fleet : m .fleet = false)
    (n_dense : m .dense = false) (n_emb : m .emb = false) :
    Same m a (State.updateRow s t p d row step g t2 esc) := by
  unfold State.updateRow
  repeat' first
    | (with_reducible first | assumption | refine Same.ite ?_ ?_)
    | (lift_lets; intro kx; refine Same.step (m := m) (a := a) (x := kx) ?_ fun hkx => ?_)
    | (lift_lets; intro kx)
    | (simp only [Same.mk_iff]; apply SameF.of; all_goals first
        | with_reducible exact Off.refl | exact Off.no (by assumption) | skip)
    | (with_reducible first
        | apply State.tickFree_same | apply State.bump_same | apply State.emit_same | apply State.stopStep_same
        | apply State.countRead_same | apply State.undoRow_same | apply State.putRecord_same
        | apply State.addLedger_same)
    | (simp only [kx, Same.mk_iff]; apply SameF.of; all_goals first
        | with_reducible exact Off.refl | exact Off.no (by assumption) | skip)
    | (with_reducible first
        | refine Same.foldl ?_ fun kb ky hkb => ?_ | refine Same.foldl_snd ?_ fun kb ky hkb => ?_
        | refine Same.foldl_fst ?_ fun kb ky hkb => ?_)
    | split
    | (with_reducible first
        | refine Same.of_snd (by assumption) ?_ | refine Same.of_fst (by assumption) ?_
        | refine Same.of_third (by assumption) ?_)
    | dsimp only
    | unfold kx

theorem State.setUpdateBank_same {m : Component → Bool} {a s : State} (h : Same m a s) (t : TableD) (d : Nat)
    (b : Bank) (n_emb : m .emb = false) :
    Same m a (State.setUpdateBank s t d b) := by
  unfold State.setUpdateBank
  repeat' first
    | (with_reducible first | assumption | refine Same.ite ?_ ?_)
    | (simp only [Same.mk_iff]; apply SameF.of; all_goals first
        | with_reducible exact Off.refl | exact Off.no (by assumption) | skip)

theorem State.sendSums_same {m : Component → Bool} {a s : State} (h : Same m a s) (t : TableD) (c : Nat)
    (n_fresh : m .fresh = false) (n_regs : m .regs = false) (n_crossings : m .crossings = false)
    (n_chk : m .chk = false) (n_hub : m .hub = false) (n_emb : m .emb = false) :
    Same m a (State.sendSums s t c) := by
  unfold State.sendSums
  repeat' first
    | (with_reducible first | assumption | refine Same.ite ?_ ?_)
    | (lift_lets; intro kx; refine Same.step (m := m) (a := a) (x := kx) ?_ fun hkx => ?_)
    | (lift_lets; intro kx)
    | (simp only [Same.mk_iff]; apply SameF.of; all_goals first
        | with_reducible exact Off.refl | exact Off.no (by assumption) | skip)
    | with_reducible apply State.sendGroup_same
    | (simp only [kx, Same.mk_iff]; apply SameF.of; all_goals first
        | with_reducible exact Off.refl | exact Off.no (by assumption) | skip)
    | (with_reducible first
        | refine Same.foldl ?_ fun kb ky hkb => ?_ | refine Same.foldl_snd ?_ fun kb ky hkb => ?_
        | refine Same.foldl_fst ?_ fun kb ky hkb => ?_)
    | split
    | (with_reducible first
        | refine Same.of_snd (by assumption) ?_ | refine Same.of_fst (by assumption) ?_
        | refine Same.of_third (by assumption) ?_)
    | dsimp only
    | unfold kx

theorem State.applyDie_same {m : Component → Bool} {a s : State} (h : Same m a s) (t : TableD) (o : OptD) (d : Nat)
    (c : Nat) (sums : Tab Nat) (esc : Option Nat) (n_fresh : m .fresh = false) (n_regs : m .regs = false)
    (n_mem : m .mem = false) (n_cfg : m .cfg = false) (n_flt : m .flt = false) (n_chk : m .chk = false)
    (n_mm : m .mm = false) (n_hub : m .hub = false) (n_fleet : m .fleet = false) (n_dense : m .dense = false)
    (n_emb : m .emb = false) :
    Same m a (State.applyDie s t o d c sums esc) := by
  unfold State.applyDie
  repeat' first
    | (with_reducible first
        | assumption | apply State.updateRow_same | apply State.setUpdateBank_same
        | refine Same.foldl ?_ fun kb ky hkb => ?_)
    | split
    | dsimp only

theorem State.applyRows_same {m : Component → Bool} {a s : State} (h : Same m a s) (t : TableD) (dies : List Nat)
    (c : Nat) (esc : Option Nat) (n_fresh : m .fresh = false) (n_regs : m .regs = false) (n_mem : m .mem = false)
    (n_cfg : m .cfg = false) (n_flt : m .flt = false) (n_chk : m .chk = false) (n_mm : m .mm = false)
    (n_hub : m .hub = false) (n_fleet : m .fleet = false) (n_dense : m .dense = false) (n_emb : m .emb = false) :
    Same m a (State.applyRows s t dies c esc) := by
  unfold State.applyRows
  repeat' first
    | (with_reducible first | assumption | refine Same.ite ?_ ?_)
    | (lift_lets; intro kx; refine Same.step (m := m) (a := a) (x := kx) ?_ fun hkx => ?_)
    | (lift_lets; intro kx)
    | (simp only [Same.mk_iff]; apply SameF.of; all_goals first
        | with_reducible exact Off.refl | exact Off.no (by assumption) | skip)
    | with_reducible apply State.applyDie_same
    | (simp only [kx, Same.mk_iff]; apply SameF.of; all_goals first
        | with_reducible exact Off.refl | exact Off.no (by assumption) | skip)
    | (with_reducible first
        | refine Same.foldl ?_ fun kb ky hkb => ?_ | refine Same.foldl_snd ?_ fun kb ky hkb => ?_
        | refine Same.foldl_fst ?_ fun kb ky hkb => ?_)
    | split
    | (with_reducible first
        | refine Same.of_snd (by assumption) ?_ | refine Same.of_fst (by assumption) ?_
        | refine Same.of_third (by assumption) ?_)
    | dsimp only
    | unfold kx

theorem State.tryApply_same {m : Component → Bool} {a s : State} (h : Same m a s) (t : TableD) (d : Nat) (c : Nat)
    (esc : Option Nat) (n_fresh : m .fresh = false) (n_regs : m .regs = false) (n_mem : m .mem = false)
    (n_cfg : m .cfg = false) (n_flt : m .flt = false) (n_chk : m .chk = false) (n_mm : m .mm = false)
    (n_hub : m .hub = false) (n_fleet : m .fleet = false) (n_dense : m .dense = false) (n_emb : m .emb = false) :
    Same m a (State.tryApply s t d c esc) := by
  unfold State.tryApply
  repeat' first
    | (with_reducible first | assumption | refine Same.ite ?_ ?_)
    | (lift_lets; intro kx; refine Same.step (m := m) (a := a) (x := kx) ?_ fun hkx => ?_)
    | (lift_lets; intro kx)
    | (simp only [Same.mk_iff]; apply SameF.of; all_goals first
        | with_reducible exact Off.refl | exact Off.no (by assumption) | skip)
    | with_reducible apply State.applyRows_same
    | (simp only [kx, Same.mk_iff]; apply SameF.of; all_goals first
        | with_reducible exact Off.refl | exact Off.no (by assumption) | skip)
    | (with_reducible first
        | refine Same.foldl ?_ fun kb ky hkb => ?_ | refine Same.foldl_snd ?_ fun kb ky hkb => ?_
        | refine Same.foldl_fst ?_ fun kb ky hkb => ?_)
    | split
    | (with_reducible first
        | refine Same.of_snd (by assumption) ?_ | refine Same.of_fst (by assumption) ?_
        | refine Same.of_third (by assumption) ?_)
    | dsimp only
    | unfold kx

theorem State.exchangeSums_same {m : Component → Bool} {a s : State} (h : Same m a s) (t : TableD) (d : Nat)
    (c : Nat) (n_fresh : m .fresh = false) (n_regs : m .regs = false) (n_crossings : m .crossings = false)
    (n_chk : m .chk = false) (n_hub : m .hub = false) (n_emb : m .emb = false) :
    Same m a (State.exchangeSums s t d c).1 := by
  unfold State.exchangeSums
  repeat' first
    | (with_reducible first | assumption | refine Same.ite ?_ ?_)
    | (lift_lets; intro kx; refine Same.step (m := m) (a := a) (x := kx) ?_ fun hkx => ?_)
    | (lift_lets; intro kx)
    | (simp only [Same.mk_iff]; apply SameF.of; all_goals first
        | with_reducible exact Off.refl | exact Off.no (by assumption) | skip)
    | with_reducible apply State.sendSums_same
    | (simp only [kx, Same.mk_iff]; apply SameF.of; all_goals first
        | with_reducible exact Off.refl | exact Off.no (by assumption) | skip)
    | (with_reducible first
        | refine Same.foldl ?_ fun kb ky hkb => ?_ | refine Same.foldl_snd ?_ fun kb ky hkb => ?_
        | refine Same.foldl_fst ?_ fun kb ky hkb => ?_)
    | split
    | (with_reducible first
        | refine Same.of_snd (by assumption) ?_ | refine Same.of_fst (by assumption) ?_
        | refine Same.of_third (by assumption) ?_)
    | dsimp only
    | unfold kx

theorem State.meetUpdate_same {m : Component → Bool} {a s : State} (h : Same m a s) (t : TableD) (d : Nat) (c : Nat)
    (es : List MemError) (n_regs : m .regs = false) (n_cfg : m .cfg = false) (n_flt : m .flt = false)
    (n_chk : m .chk = false) (n_mm : m .mm = false) (n_hub : m .hub = false) (n_fleet : m .fleet = false)
    (n_emb : m .emb = false) :
    Same m a (State.meetUpdate s t d c es) := by
  unfold State.meetUpdate
  repeat' first
    | (with_reducible first | assumption | apply State.meetRows_same)
    | split

theorem State.update_same {m : Component → Bool} {a s : State} (h : Same m a s) (d : Nat) (c : Nat)
    (ecc : List MemError) (fault : Option PressFault) (n_fresh : m .fresh = false) (n_regs : m .regs = false)
    (n_mem : m .mem = false) (n_crossings : m .crossings = false) (n_cfg : m .cfg = false) (n_flt : m .flt = false)
    (n_chk : m .chk = false) (n_mm : m .mm = false) (n_hub : m .hub = false) (n_fleet : m .fleet = false)
    (n_dense : m .dense = false) (n_emb : m .emb = false) :
    Same m a (State.update s d c ecc fault) := by
  unfold State.update
  repeat' first
    | (with_reducible first
        | assumption | first | refine fun kz kb hkz => ?_ | refine fun kz hkz => ?_ | refine Same.ite ?_ ?_)
    | (lift_lets; intro kx; refine Same.step (m := m) (a := a) (x := kx) ?_ fun hkx => ?_)
    | (lift_lets; intro kx)
    | (simp only [Same.mk_iff]; apply SameF.of; all_goals first
        | with_reducible exact Off.refl | exact Off.no (by assumption) | skip)
    | (with_reducible first
        | apply State.startJob_same | apply State.runPress_same | apply State.tryApply_same
        | apply State.exchangeSums_same | apply State.meetUpdate_same)
    | (simp only [kx, Same.mk_iff]; apply SameF.of; all_goals first
        | with_reducible exact Off.refl | exact Off.no (by assumption) | skip)
    | (with_reducible first
        | refine Same.foldl ?_ fun kb ky hkb => ?_ | refine Same.foldl_snd ?_ fun kb ky hkb => ?_
        | refine Same.foldl_fst ?_ fun kb ky hkb => ?_)
    | split
    | (with_reducible first
        | refine Same.of_snd (by assumption) ?_ | refine Same.of_fst (by assumption) ?_
        | refine Same.of_third (by assumption) ?_)
    | dsimp only
    | unfold kx
    | exact hkz

theorem execUpdate_same {m : Component → Bool} {a s : State} (h : Same m a s) (die : Fin 4) (cluster : Fin 16)
    (events : PressEvents) (n_fresh : m .fresh = false) (n_regs : m .regs = false) (n_mem : m .mem = false)
    (n_crossings : m .crossings = false) (n_cfg : m .cfg = false) (n_flt : m .flt = false) (n_chk : m .chk = false)
    (n_mm : m .mm = false) (n_hub : m .hub = false) (n_fleet : m .fleet = false) (n_dense : m .dense = false)
    (n_emb : m .emb = false) {kt : State} (ke : execUpdate die cluster events s = .next kt) :
    Same m a kt := by
  unfold execUpdate at ke
  refine Same.of_done ke ?_
  repeat' first
    | (with_reducible first | assumption | refine Same.ite ?_ ?_)
    | (lift_lets; intro kx; refine Same.step (m := m) (a := a) (x := kx) ?_ fun hkx => ?_)
    | (lift_lets; intro kx)
    | (simp only [Same.mk_iff]; apply SameF.of; all_goals first
        | with_reducible exact Off.refl | exact Off.no (by assumption) | skip)
    | with_reducible apply State.update_same
    | (simp only [kx, Same.mk_iff]; apply SameF.of; all_goals first
        | with_reducible exact Off.refl | exact Off.no (by assumption) | skip)
    | (with_reducible first
        | refine Same.foldl ?_ fun kb ky hkb => ?_ | refine Same.foldl_snd ?_ fun kb ky hkb => ?_
        | refine Same.foldl_fst ?_ fun kb ky hkb => ?_)
    | split
    | (with_reducible first
        | refine Same.of_snd (by assumption) ?_ | refine Same.of_fst (by assumption) ?_
        | refine Same.of_third (by assumption) ?_)
    | dsimp only
    | unfold kx

theorem State.pendingBankApply_same {m : Component → Bool} {a s : State} (h : Same m a s) (d : Nat) (table : Nat)
    (ecc : List MemError) (fault : Option (Nat × PressFault)) (n_fresh : m .fresh = false)
    (n_regs : m .regs = false) (n_mem : m .mem = false) (n_crossings : m .crossings = false)
    (n_cfg : m .cfg = false) (n_flt : m .flt = false) (n_chk : m .chk = false) (n_mm : m .mm = false)
    (n_hub : m .hub = false) (n_fleet : m .fleet = false) (n_dense : m .dense = false) (n_emb : m .emb = false) :
    Same m a (State.pendingBankApply s d table ecc fault) := by
  unfold State.pendingBankApply
  repeat' first
    | (with_reducible first | assumption | refine Same.ite ?_ ?_)
    | (lift_lets; intro kx; refine Same.step (m := m) (a := a) (x := kx) ?_ fun hkx => ?_)
    | (lift_lets; intro kx)
    | (simp only [Same.mk_iff]; apply SameF.of; all_goals first
        | with_reducible exact Off.refl | exact Off.no (by assumption) | skip)
    | (with_reducible first
        | apply State.failPress_same | apply State.tryApply_same | apply State.exchangeSums_same
        | apply State.meetUpdate_same)
    | (simp only [kx, Same.mk_iff]; apply SameF.of; all_goals first
        | with_reducible exact Off.refl | exact Off.no (by assumption) | skip)
    | (with_reducible first
        | refine Same.foldl ?_ fun kb ky hkb => ?_ | refine Same.foldl_snd ?_ fun kb ky hkb => ?_
        | refine Same.foldl_fst ?_ fun kb ky hkb => ?_)
    | split
    | (with_reducible first
        | refine Same.of_snd (by assumption) ?_ | refine Same.of_fst (by assumption) ?_
        | refine Same.of_third (by assumption) ?_)
    | dsimp only
    | unfold kx

theorem execPendingBankApply_same {m : Component → Bool} {a s : State} (h : Same m a s) (die : Fin 4)
    (bank : BankApply) (n_fresh : m .fresh = false) (n_regs : m .regs = false) (n_mem : m .mem = false)
    (n_crossings : m .crossings = false) (n_cfg : m .cfg = false) (n_flt : m .flt = false) (n_chk : m .chk = false)
    (n_mm : m .mm = false) (n_hub : m .hub = false) (n_fleet : m .fleet = false) (n_dense : m .dense = false)
    (n_emb : m .emb = false) {kt : State} (ke : execPendingBankApply die bank s = .next kt) :
    Same m a kt := by
  unfold execPendingBankApply at ke
  refine Same.of_done ke ?_
  repeat' first
    | (with_reducible first | assumption | refine Same.ite ?_ ?_)
    | (lift_lets; intro kx; refine Same.step (m := m) (a := a) (x := kx) ?_ fun hkx => ?_)
    | (lift_lets; intro kx)
    | (simp only [Same.mk_iff]; apply SameF.of; all_goals first
        | with_reducible exact Off.refl | exact Off.no (by assumption) | skip)
    | with_reducible apply State.pendingBankApply_same
    | (simp only [kx, Same.mk_iff]; apply SameF.of; all_goals first
        | with_reducible exact Off.refl | exact Off.no (by assumption) | skip)
    | (with_reducible first
        | refine Same.foldl ?_ fun kb ky hkb => ?_ | refine Same.foldl_snd ?_ fun kb ky hkb => ?_
        | refine Same.foldl_fst ?_ fun kb ky hkb => ?_)
    | split
    | (with_reducible first
        | refine Same.of_snd (by assumption) ?_ | refine Same.of_fst (by assumption) ?_
        | refine Same.of_third (by assumption) ?_)
    | dsimp only
    | unfold kx

theorem State.endPass_same {m : Component → Bool} {a s : State} (h : Same m a s) (t : TableD)
    (n_emb : m .emb = false) :
    Same m a (State.endPass s t) := by
  unfold State.endPass
  repeat' first
    | with_reducible assumption
    | (simp only [Same.mk_iff]; apply SameF.of; all_goals first
        | with_reducible exact Off.refl | exact Off.no (by assumption) | skip)

theorem State.pressJobComplete_same {m : Component → Bool} {a s : State} (h : Same m a s) (d : Nat) (c : Nat)
    (n_regs : m .regs = false) (n_mem : m .mem = false) (n_chk : m .chk = false) (n_mm : m .mm = false)
    (n_dense : m .dense = false) (n_emb : m .emb = false) :
    Same m a (State.pressJobComplete s d c) := by
  unfold State.pressJobComplete
  repeat' first
    | (with_reducible first | assumption | refine Same.ite ?_ ?_)
    | (lift_lets; intro kx; refine Same.step (m := m) (a := a) (x := kx) ?_ fun hkx => ?_)
    | (lift_lets; intro kx)
    | (simp only [Same.mk_iff]; apply SameF.of; all_goals first
        | with_reducible exact Off.refl | exact Off.no (by assumption) | skip)
    | (with_reducible first
        | apply State.signal_same | apply State.setPress_same | apply State.pressTrace_same
        | apply State.endPass_same)
    | (simp only [kx, Same.mk_iff]; apply SameF.of; all_goals first
        | with_reducible exact Off.refl | exact Off.no (by assumption) | skip)
    | (with_reducible first
        | refine Same.foldl ?_ fun kb ky hkb => ?_ | refine Same.foldl_snd ?_ fun kb ky hkb => ?_
        | refine Same.foldl_fst ?_ fun kb ky hkb => ?_)
    | split
    | (with_reducible first
        | refine Same.of_snd (by assumption) ?_ | refine Same.of_fst (by assumption) ?_
        | refine Same.of_third (by assumption) ?_)
    | dsimp only
    | unfold kx

theorem execPressJobComplete_same {m : Component → Bool} {a s : State} (h : Same m a s) (die : Fin 4)
    (cluster : Fin 16) (n_regs : m .regs = false) (n_mem : m .mem = false) (n_chk : m .chk = false)
    (n_mm : m .mm = false) (n_dense : m .dense = false) (n_emb : m .emb = false) {kt : State}
    (ke : execPressJobComplete die cluster s = .next kt) :
    Same m a kt := by
  unfold execPressJobComplete at ke
  refine Same.of_done ke ?_
  repeat' (with_reducible first | assumption | refine Same.ite ?_ ?_ | apply State.pressJobComplete_same)

theorem State.grottoCopyReturn_same {m : Component → Bool} {a s : State} (h : Same m a s) (d : Nat) (c : Nat)
    (off : Nat) (ecc : List MemError) (n_regs : m .regs = false) (n_mem : m .mem = false) (n_cfg : m .cfg = false)
    (n_flt : m .flt = false) (n_chk : m .chk = false) (n_mm : m .mm = false) (n_hub : m .hub = false)
    (n_fleet : m .fleet = false) (n_emb : m .emb = false) :
    Same m a (State.grottoCopyReturn s d c off ecc) := by
  unfold State.grottoCopyReturn
  repeat' first
    | (with_reducible first
        | assumption | apply State.write_same | apply State.meetReads_same | apply State.poisonRange_same
        | apply State.setLines_same)
    | split

theorem execGrottoCopyReturn_same {m : Component → Bool} {a s : State} (h : Same m a s) (site : PressSite)
    (line : Nat) (ecc : List MemError) (n_regs : m .regs = false) (n_mem : m .mem = false) (n_cfg : m .cfg = false)
    (n_flt : m .flt = false) (n_chk : m .chk = false) (n_mm : m .mm = false) (n_hub : m .hub = false)
    (n_fleet : m .fleet = false) (n_emb : m .emb = false) {kt : State}
    (ke : execGrottoCopyReturn site line ecc s = .next kt) :
    Same m a kt := by
  unfold execGrottoCopyReturn at ke
  refine Same.of_done ke ?_
  repeat' first
    | (with_reducible first | assumption | refine Same.ite ?_ ?_)
    | (lift_lets; intro kx; refine Same.step (m := m) (a := a) (x := kx) ?_ fun hkx => ?_)
    | (lift_lets; intro kx)
    | (simp only [Same.mk_iff]; apply SameF.of; all_goals first
        | with_reducible exact Off.refl | exact Off.no (by assumption) | skip)
    | with_reducible apply State.grottoCopyReturn_same
    | (simp only [kx, Same.mk_iff]; apply SameF.of; all_goals first
        | with_reducible exact Off.refl | exact Off.no (by assumption) | skip)
    | (with_reducible first
        | refine Same.foldl ?_ fun kb ky hkb => ?_ | refine Same.foldl_snd ?_ fun kb ky hkb => ?_
        | refine Same.foldl_fst ?_ fun kb ky hkb => ?_)
    | split
    | (with_reducible first
        | refine Same.of_snd (by assumption) ?_ | refine Same.of_fst (by assumption) ?_
        | refine Same.of_third (by assumption) ?_)
    | dsimp only
    | unfold kx

end Sys2Proof.Machine
end

