-- ==== Sys2Proof/Laws/SameMemory.lean ====
section
/-! SUPPORT. What the operations of Machine/Memory.lean leave alone (`Same`). -/

set_option linter.unusedSimpArgs false

namespace Sys2Proof.Machine

theorem State.denyWrite_same {m : Component → Bool} {a s : State} (h : Same m a s) (ag : Agent) (aa : Nat)
    (n_regs : m .regs = false) (n_chk : m .chk = false) :
    Same m a (State.denyWrite s ag aa) := by
  unfold State.denyWrite
  repeat' (with_reducible first | assumption | refine Same.ite ?_ ?_ | apply State.emit_same)

theorem State.sendPcie_same {m : Component → Bool} {a s : State} (h : Same m a s) (r : PcieReq)
    (n_hub : m .hub = false) :
    Same m a (State.sendPcie s r) := by
  unfold State.sendPcie
  repeat' first
    | with_reducible assumption
    | (simp only [Same.mk_iff]; apply SameF.of; all_goals first
        | with_reducible exact Off.refl | exact Off.no (by assumption) | skip)

theorem State.agentWrite_same {m : Component → Bool} {a s : State} (h : Same m a s) (ag : Agent) (aa : Nat)
    (bs : List Byte) (bad : Bool) (n_regs : m .regs = false) (n_response : m .response = false)
    (n_mem : m .mem = false) (n_chk : m .chk = false) (n_mm : m .mm = false) (n_hub : m .hub = false) :
    Same m a (State.agentWrite s ag aa bs bad) := by
  unfold State.agentWrite
  repeat' first
    | (with_reducible first
        | assumption | refine Same.ite ?_ ?_ | apply State.write_same | apply State.respond_same
        | apply State.poisonRange_same | apply State.denyWrite_same | apply State.sendPcie_same)

theorem State.poisonedRead_same {m : Component → Bool} {a s : State} (h : Same m a s) (ag : Agent) (aa : Nat)
    (n_regs : m .regs = false) (n_response : m .response = false) (n_chk : m .chk = false) :
    Same m a (State.poisonedRead s ag aa) := by
  unfold State.poisonedRead
  repeat' first
    | (with_reducible first
        | assumption | refine Same.ite ?_ ?_ | apply State.bump_same | apply State.respond_same
        | apply State.emit_same)

theorem State.agentRead_same {m : Component → Bool} {a s : State} (h : Same m a s) (ag : Agent) (aa : Nat) (n : Nat)
    (es : List MemError) (n_regs : m .regs = false) (n_response : m .response = false) (n_cfg : m .cfg = false)
    (n_flt : m .flt = false) (n_chk : m .chk = false) (n_mm : m .mm = false) (n_hub : m .hub = false)
    (n_fleet : m .fleet = false) :
    Same m a (State.agentRead s ag aa n es) := by
  unfold State.agentRead
  repeat' first
    | (with_reducible first
        | assumption | refine Same.ite ?_ ?_ | apply State.respond_same | apply State.meetReads_same
        | apply State.poisonedRead_same)

theorem State.windowRead_same {m : Component → Bool} {a s : State} (h : Same m a s) (ag : Agent) (aa : Nat)
    (n : Nat) (es : List MemError) (n_regs : m .regs = false) (n_response : m .response = false)
    (n_cfg : m .cfg = false) (n_flt : m .flt = false) (n_chk : m .chk = false) (n_mm : m .mm = false)
    (n_hub : m .hub = false) (n_fleet : m .fleet = false) :
    Same m a (State.windowRead s ag aa n es) := by
  unfold State.windowRead
  repeat' first
    | (with_reducible first | assumption | apply State.respond_same | apply State.agentRead_same)
    | split

theorem State.memoryRead_same {m : Component → Bool} {a s : State} (h : Same m a s) (ag : Agent) (aa : Nat)
    (n : Nat) (es : List MemError) (n_fresh : m .fresh = false) (n_regs : m .regs = false)
    (n_response : m .response = false) (n_cfg : m .cfg = false) (n_flt : m .flt = false) (n_chk : m .chk = false)
    (n_mm : m .mm = false) (n_hub : m .hub = false) (n_fleet : m .fleet = false) :
    Same m a (State.memoryRead s ag aa n es) := by
  unfold State.memoryRead
  repeat' first
    | (with_reducible first
        | assumption | apply State.tickFree_same | apply State.respond_same | apply State.sendPcie_same
        | apply State.agentRead_same | apply State.windowRead_same)
    | split

theorem State.eccWriteback_same {m : Component → Bool} {a s : State} (h : Same m a s) (k : MemKind) (aa : Nat)
    (n_mm : m .mm = false) :
    Same m a (State.eccWriteback s k aa) := by
  unfold State.eccWriteback
  repeat' first
    | with_reducible assumption
    | (simp only [Same.mk_iff]; apply SameF.of; all_goals first
        | with_reducible exact Off.refl | exact Off.no (by assumption) | skip)

theorem execEccWriteback_same {m : Component → Bool} {a s : State} (h : Same m a s) (kind : MemKind) (addr : Nat)
    (n_mm : m .mm = false) {kt : State} (ke : execEccWriteback kind addr s = .next kt) :
    Same m a kt := by
  unfold execEccWriteback at ke
  refine Same.of_done ke ?_
  repeat' (with_reducible first | assumption | refine Same.ite ?_ ?_ | apply State.eccWriteback_same)

theorem State.patrolTier1_same {m : Component → Bool} {a s : State} (h : Same m a s) (e : Ecc) (mm : Ecc)
    (n_regs : m .regs = false) (n_cfg : m .cfg = false) (n_flt : m .flt = false) (n_chk : m .chk = false)
    (n_mm : m .mm = false) (n_hub : m .hub = false) (n_fleet : m .fleet = false) :
    Same m a (State.patrolTier1 s e mm) := by
  unfold State.patrolTier1
  repeat' first
    | with_reducible assumption
    | (simp only [Same.mk_iff]; apply SameF.of; all_goals first
        | with_reducible exact Off.refl | exact Off.no (by assumption) | skip)
    | (with_reducible first | apply State.setLineMeta_same | apply State.applyEccIn_same | apply State.applyEcc_same)

theorem State.patrolTier2_same {m : Component → Bool} {a s : State} (h : Same m a s) (e : Ecc)
    (n_regs : m .regs = false) (n_cfg : m .cfg = false) (n_flt : m .flt = false) (n_chk : m .chk = false)
    (n_mm : m .mm = false) (n_hub : m .hub = false) (n_fleet : m .fleet = false) :
    Same m a (State.patrolTier2 s e) := by
  unfold State.patrolTier2
  repeat' first
    | (with_reducible first | assumption | refine Same.ite ?_ ?_)
    | (simp only [Same.mk_iff]; apply SameF.of; all_goals first
        | with_reducible exact Off.refl | exact Off.no (by assumption) | skip)
    | (with_reducible first | apply State.markDue_same | apply State.applyEcc_same)

theorem State.refreshWindow_same {m : Component → Bool} {a s : State} (h : Same m a s) (ch : Nat) (temp : Nat)
    (e : Ecc) (mm : Ecc) (n_regs : m .regs = false) (n_cfg : m .cfg = false) (n_flt : m .flt = false)
    (n_chk : m .chk = false) (n_mm : m .mm = false) (n_hub : m .hub = false) (n_fleet : m .fleet = false) :
    Same m a (State.refreshWindow s ch temp e mm) := by
  unfold State.refreshWindow
  repeat' first
    | (with_reducible first
        | assumption | refine Same.ite ?_ ?_ | apply State.stackTemp_same | apply State.patrolTier1_same
        | apply State.patrolTier2_same)

theorem execRefreshWindow_same {m : Component → Bool} {a s : State} (h : Same m a s) (channel : Fin 36)
    (visit : RefreshVisit) (n_regs : m .regs = false) (n_cfg : m .cfg = false) (n_flt : m .flt = false)
    (n_chk : m .chk = false) (n_mm : m .mm = false) (n_hub : m .hub = false) (n_fleet : m .fleet = false)
    {kt : State} (ke : execRefreshWindow channel visit s = .next kt) :
    Same m a kt := by
  unfold execRefreshWindow at ke
  refine Same.of_done ke ?_
  repeat' first
    | (with_reducible first | assumption | refine Same.ite ?_ ?_)
    | (lift_lets; intro kx; refine Same.step (m := m) (a := a) (x := kx) ?_ fun hkx => ?_)
    | (lift_lets; intro kx)
    | (simp only [Same.mk_iff]; apply SameF.of; all_goals first
        | with_reducible exact Off.refl | exact Off.no (by assumption) | skip)
    | with_reducible apply State.refreshWindow_same
    | (simp only [kx, Same.mk_iff]; apply SameF.of; all_goals first
        | with_reducible exact Off.refl | exact Off.no (by assumption) | skip)
    | (with_reducible first
        | refine Same.foldl ?_ fun kb ky hkb => ?_ | refine Same.foldl_snd ?_ fun kb ky hkb => ?_
        | refine Same.foldl_fst ?_ fun kb ky hkb => ?_)
    | split
    | (with_reducible first
        | refine Same.of_snd (by assumption) ?_ | refine Same.of_fst (by assumption) ?_
        | refine Same.of_third (by assumption) ?_)
    | dsimp only
    | unfold kx

theorem State.scrubError_same {m : Component → Bool} {a s : State} (h : Same m a s) (key : Nat) (hole : Nat)
    (e : Ecc) (n_regs : m .regs = false) (n_cfg : m .cfg = false) (n_flt : m .flt = false) (n_chk : m .chk = false)
    (n_mm : m .mm = false) (n_hub : m .hub = false) (n_fleet : m .fleet = false) (n_emb : m .emb = false) :
    Same m a (State.scrubError s key hole e) := by
  unfold State.scrubError
  repeat' first
    | with_reducible assumption
    | (lift_lets; intro kx)
    | (with_reducible first | apply State.applyEcc_same | apply State.bufferEcc_same | apply State.dropLine_same)
    | split

theorem State.sramScrub_same {m : Component → Bool} {a s : State} (h : Same m a s) (key : Nat) (behind : Bool)
    (e : Ecc) (n_fresh : m .fresh = false) (n_regs : m .regs = false) (n_cfg : m .cfg = false)
    (n_flt : m .flt = false) (n_chk : m .chk = false) (n_mm : m .mm = false) (n_hub : m .hub = false)
    (n_fleet : m .fleet = false) (n_emb : m .emb = false) :
    Same m a (State.sramScrub s key behind e) := by
  unfold State.sramScrub
  repeat' first
    | (with_reducible first | assumption | refine Same.ite ?_ ?_)
    | (simp only [Same.mk_iff]; apply SameF.of; all_goals first
        | with_reducible exact Off.refl | exact Off.no (by assumption) | skip)
    | (with_reducible first | apply State.free_same | apply State.scrubError_same)

theorem execSramScrub_same {m : Component → Bool} {a s : State} (h : Same m a s) (key : BitVec 32) (behind : Bool)
    (ecc : Ecc) (n_fresh : m .fresh = false) (n_regs : m .regs = false) (n_cfg : m .cfg = false)
    (n_flt : m .flt = false) (n_chk : m .chk = false) (n_mm : m .mm = false) (n_hub : m .hub = false)
    (n_fleet : m .fleet = false) (n_emb : m .emb = false) {kt : State}
    (ke : execSramScrub key behind ecc s = .next kt) :
    Same m a kt := by
  unfold execSramScrub at ke
  refine Same.of_done ke ?_
  repeat' (with_reducible first | assumption | refine Same.ite ?_ ?_ | apply State.sramScrub_same)

end Sys2Proof.Machine
end

