-- ==== Sys2Proof/Laws/SameRings.lean ====
section
/-! SUPPORT. What the operations of Machine/Rings.lean leave alone (`Same`). -/

set_option linter.unusedSimpArgs false

namespace Sys2Proof.Machine

theorem State.setRing_same {m : Component → Bool} {a s : State} (h : Same m a s) (cls : Nat) (i : Nat)
    (r : RingState) (n_hub : m .hub = false) :
    Same m a (State.setRing s cls i r) := by
  unfold State.setRing
  repeat' first
    | with_reducible assumption
    | (simp only [Same.mk_iff]; apply SameF.of; all_goals first
        | with_reducible exact Off.refl | exact Off.no (by assumption) | skip)

theorem State.ringRaise_same {m : Component → Bool} {a s : State} (h : Same m a s) (cls : Nat) (i : Nat)
    (n_regs : m .regs = false) (n_hub : m .hub = false) :
    Same m a (State.ringRaise s cls i) := by
  unfold State.ringRaise
  repeat' first
    | (with_reducible first
        | assumption | refine Same.ite ?_ ?_ | apply State.raiseIrq_same | apply State.setRing_same)

theorem State.ringComplete_same {m : Component → Bool} {a s : State} (h : Same m a s) (cls : Nat) (i : Nat)
    (n : Nat) (n_regs : m .regs = false) (n_mem : m .mem = false) (n_chk : m .chk = false) (n_mm : m .mm = false)
    (n_hub : m .hub = false) :
    Same m a (State.ringComplete s cls i n) := by
  unfold State.ringComplete
  repeat' first
    | (with_reducible first
        | assumption | refine Same.ite ?_ ?_ | apply State.guardedWrite_same | apply State.setRing_same
        | apply State.ringRaise_same)

theorem State.ringError_same {m : Component → Bool} {a s : State} (h : Same m a s) (cls : Nat) (i : Nat)
    (code : Nat) (n_hub : m .hub = false) :
    Same m a (State.ringError s cls i code) := by
  unfold State.ringError
  repeat' (with_reducible first | assumption | refine Same.ite ?_ ?_ | apply State.setRing_same)

theorem State.reserve_same {m : Component → Bool} {a s : State} (h : Same m a s) (cls : Nat) (i : Nat)
    (n_hub : m .hub = false) :
    Same m a (State.reserve s cls i).2 := by
  unfold State.reserve
  repeat' first
    | (with_reducible first | assumption | apply State.setRing_same | apply State.ringError_same)
    | split
    | dsimp only

theorem State.deliverFrame_same {m : Component → Bool} {a s : State} (h : Same m a s) (x : RingSlot)
    (bytes : List Byte) (d : Desc) (n_regs : m .regs = false) (n_mem : m .mem = false) (n_chk : m .chk = false)
    (n_mm : m .mm = false) (n_hub : m .hub = false) :
    Same m a (State.deliverFrame s x bytes d) := by
  unfold State.deliverFrame
  repeat' first
    | (with_reducible first
        | assumption | refine Same.ite ?_ ?_ | apply State.guardedWrite_same | apply State.ringComplete_same)

end Sys2Proof.Machine
end

