-- ==== Sys2Proof/Laws/Rings.lean ====
section
/-! SUPPORT. What the operations over the posted rings do. -/

namespace Sys2Proof.Machine

@[simp] theorem State.ring_setRing_same (s : State) (cls i : Nat) (r : RingState) : (s.setRing cls i r).ring cls i = r := by
  simp [State.ring, State.setRing]

theorem State.ring_setRing_other (s : State) (cls i c j : Nat) (r : RingState) (h : ringKey c j ≠ ringKey cls i) :
    (s.setRing cls i r).ring c j = s.ring c j := by
  simp only [State.ring, State.setRing]
  exact Tab.get_set_other _ _ h _ _

theorem State.ring_congr {s t : State} (h : s.hub = t.hub) (c i : Nat) : s.ring c i = t.ring c i := by
  rw [State.ring, State.ring, h]

theorem State.ring_rings {s t : State} (h : s.hub.rings = t.hub.rings) (c i : Nat) : s.ring c i = t.ring c i := by
  rw [State.ring, State.ring, h]

/-- A raised source reaches the hub as a delivery or a pending vector and nothing else. -/
theorem State.raiseIrq_hub (s : State) (n : Nat) :
    ∃ d p, (s.raiseIrq n).hub = { s.hub with delivered := d, msixPending := p } := by
  have k : ∀ x : State, ∃ d p, (x.deliver n).hub = { x.hub with delivered := d, msixPending := p } := by
    intro x
    unfold State.deliver; dsimp only; split
    · exact ⟨_, x.hub.msixPending, rfl⟩
    · split
      · unfold State.msixSend; split
        · split
          · exact ⟨x.hub.delivered, x.hub.msixPending, rfl⟩
          · exact ⟨x.hub.delivered, _, rfl⟩
        · exact ⟨_, x.hub.msixPending, rfl⟩
      · exact ⟨x.hub.delivered, x.hub.msixPending, rfl⟩
  unfold State.raiseIrq; split
  · exact ⟨s.hub.delivered, s.hub.msixPending, rfl⟩
  · have h := k (s.setFld (Reg.hubIrqRoutePending n) 1)
    rw [State.setFld_hub] at h
    exact h

theorem State.raiseIrq_rings (s : State) (n : Nat) : (s.raiseIrq n).hub.rings = s.hub.rings := by
  obtain ⟨d, p, h⟩ := State.raiseIrq_hub s n; rw [h]

theorem State.raiseIrq_txJobs (s : State) (n : Nat) : (s.raiseIrq n).hub.txJobs = s.hub.txJobs := by
  obtain ⟨d, p, h⟩ := State.raiseIrq_hub s n; rw [h]

theorem State.ringRaise_mem (s : State) (cls i : Nat) : (s.ringRaise cls i).mem = s.mem := by
  have e : ∀ (r : RingState) n, ((s.setRing cls i r).raiseIrq n).mem = s.mem := fun r n => State.raiseIrq_mem _ _
  unfold State.ringRaise
  dsimp only
  split
  · split
    · exact e _ _
    · rfl
  · rw [if_pos rfl]; exact e _ _

theorem State.ringRaise_txJobs (s : State) (cls i : Nat) : (s.ringRaise cls i).hub.txJobs = s.hub.txJobs := by
  have e : ∀ (r : RingState) n, ((s.setRing cls i r).raiseIrq n).hub.txJobs = s.hub.txJobs :=
    fun r n => State.raiseIrq_txJobs _ _
  unfold State.ringRaise
  dsimp only
  split
  · split
    · exact e _ _
    · rfl
  · rw [if_pos rfl]; exact e _ _

/-- An advance of the report count changes nothing of the ring but when its source was raised, or that it waits. -/
theorem State.ringRaise_ring (s : State) (cls i c j : Nat) :
    ∃ w l, (s.ringRaise cls i).ring c j =
      if ringKey c j = ringKey cls i then { s.ring cls i with waiting := w, lastRaise := l } else s.ring c j := by
  have key : ∀ r : RingState, (s.setRing cls i r).ring c j = if ringKey c j = ringKey cls i then r else s.ring c j := by
    intro r
    split
    · next h => rw [State.ring, h, ← State.ring, State.ring_setRing_same]
    · next h => exact State.ring_setRing_other _ _ _ _ _ _ h
  have raised : ∃ w l, ((s.setRing cls i { s.ring cls i with lastRaise := some s.upTime, waiting := false }).raiseIrq
      (s.ring cls i).irq).ring c j =
      if ringKey c j = ringKey cls i then { s.ring cls i with waiting := w, lastRaise := l } else s.ring c j :=
    ⟨false, some s.upTime, (State.ring_rings (State.raiseIrq_rings _ _) _ _).trans (key _)⟩
  have held : ∃ w l, (s.setRing cls i { s.ring cls i with waiting := true }).ring c j =
      if ringKey c j = ringKey cls i then { s.ring cls i with waiting := w, lastRaise := l } else s.ring c j :=
    ⟨true, (s.ring cls i).lastRaise, key _⟩
  unfold State.ringRaise
  dsimp only
  split
  · split
    · exact raised
    · exact held
  · rw [if_pos rfl]; exact raised

/-- A unit's write outside the protected image buffer is a write. -/
theorem State.guardedWrite_free (s : State) (a : Nat) (bs : List Byte) (op : Nat) (h : s.inImageBuffer a bs.length = false) :
    s.guardedWrite a bs op = s.write a bs := by
  simp [State.guardedWrite, h]

/-- A unit's write changes no byte outside its range. -/
theorem State.byte_guardedWrite_other (s : State) (a x : Nat) (bs : List Byte) (op : Nat)
    (h : x < a ∨ a + bs.length ≤ x) : (s.guardedWrite a bs op).byte x = s.byte x := by
  unfold State.guardedWrite
  split
  · exact State.byte_congr (State.emit_mem ..) _
  · exact State.byte_write_other _ _ _ _ h

/-- A unit's write changes no register of the hub's lower page: a discarded one is counted (R99). -/
theorem State.reg_guardedWrite_low (s : State) (a : Nat) (bs : List Byte) (op k : Nat) (h : k < Reg.hubIrqRoute 0) :
    (s.guardedWrite a bs op).reg k = s.reg k := by
  have c : ∀ i, k ≠ Reg.chkCnt i := fun i => by simp only [Reg.hubIrqRoute, Reg.chkCnt] at h ⊢; omega
  unfold State.guardedWrite
  split
  · exact State.reg_emit_other _ _ _ _ _ _ _ (c _) (c _)
  · rfl

/-- The oldest entry of a ring completes, with no entry completed before its turn: the report count is one further and
written to the report line. -/
theorem State.ringComplete_oldest (s : State) (cls i n : Nat) (h : (s.ring cls i).done = n) (e : (s.ring cls i).early = []) :
    s.ringComplete cls i n =
      ((s.setRing cls i { s.ring cls i with done := (n + 1) % 2 ^ 32, early := [] }).guardedWrite (s.ring cls i).report
        (toLe 4 ((n + 1) % 2 ^ 32)) 0x3001).ringRaise cls i := by
  have a : advance ((s.ring cls i).early ++ [n]).length (s.ring cls i).done ((s.ring cls i).early ++ [n]) = ((n + 1) % 2 ^ 32, []) := by
    simp [e, h, advance]
  have d : ¬ ((n + 1) % 2 ^ 32 = (s.ring cls i).done) := by rw [h]; omega
  unfold State.ringComplete
  dsimp only
  rw [a, if_neg d]

theorem State.ringComplete_done (s : State) (cls i n : Nat) (h : (s.ring cls i).done = n) (e : (s.ring cls i).early = []) :
    ((s.ringComplete cls i n).ring cls i).done = (n + 1) % 2 ^ 32 := by
  rw [State.ringComplete_oldest s cls i n h e]
  generalize hx : s.setRing cls i { s.ring cls i with done := (n + 1) % 2 ^ 32, early := [] } = x
  obtain ⟨w, l, q⟩ :=
    State.ringRaise_ring (x.guardedWrite (s.ring cls i).report (toLe 4 ((n + 1) % 2 ^ 32)) 0x3001) cls i cls i
  have z : (x.guardedWrite (s.ring cls i).report (toLe 4 ((n + 1) % 2 ^ 32)) 0x3001).ring cls i =
      { s.ring cls i with done := (n + 1) % 2 ^ 32, early := [] } := by
    rw [← State.ring_setRing_same s cls i { s.ring cls i with done := (n + 1) % 2 ^ 32, early := [] }, hx]
    exact State.ring_congr (State.guardedWrite_hub ..) _ _
  rw [if_pos rfl, z] at q
  exact congrArg RingState.done q

end Sys2Proof.Machine
end

