-- ==== Sys2Proof/Laws/SameEgress.lean ====
section
/-! SUPPORT. What the operations of Machine/Egress.lean leave alone (`Same`). -/

set_option linter.unusedSimpArgs false

namespace Sys2Proof.Machine

theorem State.setHalf_same {m : Component → Bool} {a s : State} (h : Same m a s) (c : Nat) (hh : Half)
    (n_wire : m .wire = false) :
    Same m a (State.setHalf s c hh) := by
  unfold State.setHalf
  repeat' first
    | with_reducible assumption
    | (simp only [Same.mk_iff]; apply SameF.of; all_goals first
        | with_reducible exact Off.refl | exact Off.no (by assumption) | skip)

theorem State.setFrame_same {m : Component → Bool} {a s : State} (h : Same m a s) (i : Nat) (f : Frame)
    (n_wire : m .wire = false) :
    Same m a (State.setFrame s i f) := by
  unfold State.setFrame
  repeat' first
    | with_reducible assumption
    | (simp only [Same.mk_iff]; apply SameF.of; all_goals first
        | with_reducible exact Off.refl | exact Off.no (by assumption) | skip)

theorem State.wireCount_same {m : Component → Bool} {a s : State} (h : Same m a s) (c : Nat) (i : Nat) (n : Nat)
    (n_regs : m .regs = false) :
    Same m a (State.wireCount s c i n) := by
  unfold State.wireCount
  repeat' (with_reducible first | assumption | refine Same.ite ?_ ?_ | apply State.bump_same)

theorem State.sendPfc_same {m : Component → Bool} {a s : State} (h : Same m a s) (port : Nat) (q : Nat)
    (quanta : Nat) (n_regs : m .regs = false) (n_wire : m .wire = false) :
    Same m a (State.sendPfc s port q quanta) := by
  unfold State.sendPfc
  repeat' first
    | (with_reducible first
        | assumption | refine Same.ite ?_ ?_ | apply State.setHalf_same | apply State.wireCount_same)

theorem State.pfcUpdate_same {m : Component → Bool} {a s : State} (h : Same m a s) (port : Nat) (q : Nat)
    (n_regs : m .regs = false) (n_wire : m .wire = false) :
    Same m a (State.pfcUpdate s port q) := by
  unfold State.pfcUpdate
  repeat' first
    | (with_reducible first
        | assumption | refine Same.ite ?_ ?_ | apply State.setHalf_same | apply State.sendPfc_same)

theorem State.setPaused_same {m : Component → Bool} {a s : State} (h : Same m a s) (c : Nat) (q : Nat)
    (quanta : Nat) (n_regs : m .regs = false) (n_wire : m .wire = false) :
    Same m a (State.setPaused s c q quanta) := by
  unfold State.setPaused
  repeat' (with_reducible first | assumption | refine Same.ite ?_ ?_ | apply State.setFld_same | apply State.setHalf_same)

theorem State.receivePfc_same {m : Component → Bool} {a s : State} (h : Same m a s) (c : Nat) (bytes : List Byte)
    (o : Nat) (n_regs : m .regs = false) (n_wire : m .wire = false) :
    Same m a (State.receivePfc s c bytes o) := by
  unfold State.receivePfc
  repeat' first
    | (with_reducible first
        | assumption | refine Same.ite ?_ ?_ | apply State.setPaused_same | refine Same.foldl ?_ fun kb ky hkb => ?_)

theorem execPauseExpiry_same {m : Component → Bool} {a s : State} (h : Same m a s) (port : Fin 16) (cls : Fin 8)
    (n_regs : m .regs = false) (n_wire : m .wire = false) {kt : State} (ke : execPauseExpiry port cls s = .next kt) :
    Same m a kt := by
  unfold execPauseExpiry at ke
  refine Same.of_done ke ?_
  repeat' (with_reducible first | assumption | refine Same.ite ?_ ?_ | apply State.setPaused_same)

theorem State.pfcRepeat_same {m : Component → Bool} {a s : State} (h : Same m a s) (port : Nat) (q : Nat)
    (n_regs : m .regs = false) (n_wire : m .wire = false) :
    Same m a (State.pfcRepeat s port q) := by
  unfold State.pfcRepeat
  repeat' (with_reducible first | assumption | refine Same.ite ?_ ?_ | apply State.sendPfc_same)

theorem execPfcRepeat_same {m : Component → Bool} {a s : State} (h : Same m a s) (port : Fin 16) (cls : Fin 8)
    (n_regs : m .regs = false) (n_wire : m .wire = false) {kt : State} (ke : execPfcRepeat port cls s = .next kt) :
    Same m a kt := by
  unfold execPfcRepeat at ke
  refine Same.of_done ke ?_
  repeat' (with_reducible first | assumption | refine Same.ite ?_ ?_ | apply State.pfcRepeat_same)

theorem State.forward_same {m : Component → Bool} {a s : State} (h : Same m a s) (i : Nat) (f : Frame) (c : Nat)
    (tc : Nat) (n_regs : m .regs = false) (n_wire : m .wire = false) :
    Same m a (State.forward s i f c tc) := by
  unfold State.forward
  repeat' first
    | (with_reducible first
        | assumption | refine Same.ite ?_ ?_ | apply State.setHalf_same | apply State.wireCount_same
        | apply State.pfcUpdate_same)

theorem State.unqueue_same {m : Component → Bool} {a s : State} (h : Same m a s) (i : Nat)
    (n_regs : m .regs = false) (n_wire : m .wire = false) :
    Same m a (State.unqueue s i) := by
  unfold State.unqueue
  repeat' first
    | (with_reducible first
        | assumption | apply State.setHalf_same | apply State.pfcUpdate_same
        | refine Same.foldl ?_ fun kb ky hkb => ?_)
    | split
    | dsimp only

theorem State.tcHold_same {m : Component → Bool} {a s : State} (h : Same m a s) (k : Nat) (v : Int)
    (n_wire : m .wire = false) :
    Same m a (State.tcHold s k v) := by
  unfold State.tcHold
  repeat' first
    | (with_reducible first | assumption | refine Same.ite ?_ ?_)
    | (simp only [Same.mk_iff]; apply SameF.of; all_goals first
        | with_reducible exact Off.refl | exact Off.no (by assumption) | skip)

theorem State.tcSkipped_same {m : Component → Bool} {a s : State} (h : Same m a s) (n_regs : m .regs = false) :
    Same m a (State.tcSkipped s) := by
  unfold State.tcSkipped
  repeat' (with_reducible first | assumption | refine Same.ite ?_ ?_ | apply State.bump_same)

theorem State.tcAdd_same {m : Component → Bool} {a s : State} (h : Same m a s) (p : Parsed) (b : List Byte)
    (v : Int) (n_regs : m .regs = false) :
    Same m a (State.tcAdd s p b v).2 := by
  unfold State.tcAdd
  repeat' first
    | (with_reducible first | assumption | apply State.bump_same | apply State.tcSkipped_same)
    | split

theorem State.tcAlone_same {m : Component → Bool} {a s : State} (h : Same m a s) (p : Parsed) (b : List Byte)
    (v : Int) (n_regs : m .regs = false) :
    Same m a (State.tcAlone s p b v).2 := by
  unfold State.tcAlone
  repeat' first
    | (with_reducible first | assumption | apply State.bump_same | apply State.tcSkipped_same)
    | split

theorem State.tcFollow_same {m : Component → Bool} {a s : State} (h : Same m a s) (p : Parsed) (b : List Byte)
    (k : Nat) (n_regs : m .regs = false) (n_wire : m .wire = false) :
    Same m a (State.tcFollow s p b k).2 := by
  unfold State.tcFollow
  repeat' first
    | with_reducible assumption
    | (simp only [Same.mk_iff]; apply SameF.of; all_goals first
        | with_reducible exact Off.refl | exact Off.no (by assumption) | skip)
    | (with_reducible first | apply State.bump_same | apply State.tcAdd_same)
    | split

theorem State.tcCorrect_same {m : Component → Bool} {a s : State} (h : Same m a s) (f : Frame) (c : Nat)
    (b : List Byte) (n_regs : m .regs = false) (n_wire : m .wire = false) :
    Same m a (State.tcCorrect s f c b).2 := by
  unfold State.tcCorrect
  repeat' first
    | (with_reducible first
        | assumption | apply State.tcHold_same | apply State.tcSkipped_same | apply State.tcAdd_same
        | apply State.tcAlone_same | apply State.tcFollow_same)
    | split
    | dsimp only

theorem execTcEntryExpiry_same {m : Component → Bool} {a s : State} (h : Same m a s) (index : Nat)
    (n_wire : m .wire = false) {kt : State} (ke : execTcEntryExpiry index s = .next kt) :
    Same m a kt := by
  unfold execTcEntryExpiry at ke
  refine Same.of_done ke ?_
  repeat' first
    | with_reducible assumption
    | (simp only [Same.mk_iff]; apply SameF.of; all_goals first
        | with_reducible exact Off.refl | exact Off.no (by assumption) | skip)

theorem State.setPd_same {m : Component → Bool} {a s : State} (h : Same m a s) (c : Nat) (p : Pdelay)
    (n_wire : m .wire = false) :
    Same m a (State.setPd s c p) := by
  unfold State.setPd
  repeat' (with_reducible first | assumption | refine Same.ite ?_ ?_ | apply State.setHalf_same)

theorem State.sendPtp_same {m : Component → Bool} {a s : State} (h : Same m a s) (mm : PtpOut)
    (n_wire : m .wire = false) :
    Same m a (State.sendPtp s mm) := by
  unfold State.sendPtp
  repeat' first
    | with_reducible assumption
    | (simp only [Same.mk_iff]; apply SameF.of; all_goals first
        | with_reducible exact Off.refl | exact Off.no (by assumption) | skip)

theorem State.setMean_same {m : Component → Bool} {a s : State} (h : Same m a s) (c : Nat) (v : Int)
    (n_wire : m .wire = false) :
    Same m a (State.setMean s c v) := by
  unfold State.setMean
  repeat' (with_reducible first | assumption | refine Same.ite ?_ ?_ | apply State.setPd_same)

theorem State.pdelayReceive_same {m : Component → Bool} {a s : State} (h : Same m a s) (f : Frame)
    (n_wire : m .wire = false) :
    Same m a (State.pdelayReceive s f) := by
  unfold State.pdelayReceive
  repeat' first
    | (with_reducible first | assumption | refine Same.ite ?_ ?_)
    | (lift_lets; intro kx)
    | (with_reducible first | apply State.setPd_same | apply State.sendPtp_same | apply State.setMean_same)
    | split

theorem State.pdelayReqTimer_same {m : Component → Bool} {a s : State} (h : Same m a s) (c : Nat)
    (n_wire : m .wire = false) :
    Same m a (State.pdelayReqTimer s c) := by
  unfold State.pdelayReqTimer
  repeat' (with_reducible first | assumption | refine Same.ite ?_ ?_ | apply State.setPd_same | apply State.sendPtp_same)

theorem execPdelayReqTimer_same {m : Component → Bool} {a s : State} (h : Same m a s) (port : Fin 16)
    (n_wire : m .wire = false) {kt : State} (ke : execPdelayReqTimer port s = .next kt) :
    Same m a kt := by
  unfold execPdelayReqTimer at ke
  refine Same.of_done ke ?_
  repeat' (with_reducible first | assumption | refine Same.ite ?_ ?_ | apply State.pdelayReqTimer_same)

theorem execPdelayTimeout_same {m : Component → Bool} {a s : State} (h : Same m a s) (port : Fin 16)
    (n_wire : m .wire = false) {kt : State} (ke : execPdelayTimeout port s = .next kt) :
    Same m a kt := by
  unfold execPdelayTimeout at ke
  refine Same.of_done ke ?_
  repeat' (with_reducible first | assumption | refine Same.ite ?_ ?_ | apply State.setPd_same)

theorem State.startTx_same {m : Component → Bool} {a s : State} (h : Same m a s) (c : Nat) (o : TxOut)
    (n_regs : m .regs = false) (n_wire : m .wire = false) :
    Same m a (State.startTx s c o) := by
  unfold State.startTx
  repeat' first
    | (with_reducible first
        | assumption | refine Same.ite ?_ ?_ | apply State.setHalf_same | apply State.wireCount_same)

theorem State.startForward_same {m : Component → Bool} {a s : State} (h : Same m a s) (c : Nat)
    (x : Nat × Nat × Nat) (n_regs : m .regs = false) (n_chk : m .chk = false) (n_wire : m .wire = false) :
    Same m a (State.startForward s c x) := by
  unfold State.startForward
  repeat' first
    | (with_reducible first
        | assumption | apply State.poisonConsumed_same | apply State.setHalf_same | apply State.wireCount_same
        | apply State.pfcUpdate_same | apply State.tcCorrect_same | apply State.startTx_same)
    | split

theorem State.startRingFrame_same {m : Component → Bool} {a s : State} (h : Same m a s) (c : Nat) (j : TxJob)
    (n_regs : m .regs = false) (n_hub : m .hub = false) (n_wire : m .wire = false) :
    Same m a (State.startRingFrame s c j) := by
  unfold State.startRingFrame
  repeat' first
    | with_reducible assumption
    | (simp only [Same.mk_iff]; apply SameF.of; all_goals first
        | with_reducible exact Off.refl | exact Off.no (by assumption) | skip)
    | with_reducible apply State.startTx_same

theorem State.startPtp_same {m : Component → Bool} {a s : State} (h : Same m a s) (c : Nat) (mm : PtpOut)
    (n_fresh : m .fresh = false) (n_regs : m .regs = false) (n_wire : m .wire = false) :
    Same m a (State.startPtp s c mm) := by
  unfold State.startPtp
  repeat' first
    | (with_reducible first | assumption | refine Same.ite ?_ ?_)
    | (simp only [Same.mk_iff]; apply SameF.of; all_goals first
        | with_reducible exact Off.refl | exact Off.no (by assumption) | skip)
    | (with_reducible first
        | apply State.tickFree_same | apply State.setPd_same | apply State.sendPtp_same | apply State.startTx_same)

end Sys2Proof.Machine
end

