-- ==== Sys2Proof/Laws/SameClassify.lean ====
section
/-! SUPPORT. What the operations of Machine/Classify.lean leave alone (`Same`). -/

set_option linter.unusedSimpArgs false

namespace Sys2Proof.Machine

theorem State.setBankWord_same {m : Component → Bool} {a s : State} (h : Same m a s) (bank : Nat) (region : Nat)
    (index : Nat) (word : Nat) (v : Nat) (n_wire : m .wire = false) :
    Same m a (State.setBankWord s bank region index word v) := by
  unfold State.setBankWord
  repeat' first
    | with_reducible assumption
    | (simp only [Same.mk_iff]; apply SameF.of; all_goals first
        | with_reducible exact Off.refl | exact Off.no (by assumption) | skip)

theorem State.bankSwap_same {m : Component → Bool} {a s : State} (h : Same m a s) (v : Word)
    (n_regs : m .regs = false) :
    Same m a (State.bankSwap s v) := by
  unfold State.bankSwap
  repeat' (with_reducible first | assumption | refine Same.ite ?_ ?_ | apply State.setFld_same)

theorem execBankSwap_same {m : Component → Bool} {a s : State} (h : Same m a s) (value : Word)
    (n_regs : m .regs = false) {kt : State} (ke : execBankSwap value s = .next kt) :
    Same m a kt := by
  unfold execBankSwap at ke
  refine Same.of_done ke ?_
  repeat' first
    | with_reducible assumption
    | (lift_lets; intro kx)
    | (with_reducible first | apply State.onReady_same | apply State.bankSwap_same)

theorem State.bankAdvance_same {m : Component → Bool} {a s : State} (h : Same m a s) (n_regs : m .regs = false) :
    Same m a (State.bankAdvance s) := by
  unfold State.bankAdvance
  repeat' (with_reducible first | assumption | refine Same.ite ?_ ?_ | apply State.setFld_same)

theorem State.bankDataAccess_same {m : Component → Bool} {a s : State} (h : Same m a s) (w : Option Word)
    (n_regs : m .regs = false) (n_response : m .response = false) (n_wire : m .wire = false) :
    Same m a (State.bankDataAccess s w) := by
  unfold State.bankDataAccess
  repeat' first
    | (with_reducible first
        | assumption | refine Same.ite ?_ ?_ | apply State.setFld_same | apply State.respond_same
        | apply State.setBankWord_same | apply State.bankAdvance_same)
    | split

theorem execBankDataAccess_same {m : Component → Bool} {a s : State} (h : Same m a s) (write : Option Word)
    (n_regs : m .regs = false) (n_response : m .response = false) (n_wire : m .wire = false) {kt : State}
    (ke : execBankDataAccess write s = .next kt) :
    Same m a kt := by
  unfold execBankDataAccess at ke
  refine Same.of_done ke ?_
  repeat' first
    | (with_reducible first | assumption | refine Same.ite ?_ ?_)
    | (lift_lets; intro kx)
    | (with_reducible first | apply State.onReady_same | apply State.bankDataAccess_same)

theorem State.clsCount_same {m : Component → Bool} {a s : State} (h : Same m a s) (i : Nat) (n : Nat)
    (n_regs : m .regs = false) :
    Same m a (State.clsCount s i n) := by
  unfold State.clsCount
  repeat' (with_reducible first | assumption | refine Same.ite ?_ ?_ | apply State.bump_same)

theorem State.countHit_same {m : Component → Bool} {a s : State} (h : Same m a s) (bank : Nat) (hh : Hit)
    (n_regs : m .regs = false) (n_wire : m .wire = false) :
    Same m a (State.countHit s bank hh) := by
  unfold State.countHit
  repeat' first
    | (with_reducible first | assumption | apply State.setBankWord_same | apply State.clsCount_same)
    | split

theorem State.setFlow_same {m : Component → Bool} {a s : State} (h : Same m a s) (i : Nat) (b : List Byte)
    (n_wire : m .wire = false) :
    Same m a (State.setFlow s i b) := by
  unfold State.setFlow
  repeat' first
    | with_reducible assumption
    | (simp only [Same.mk_iff]; apply SameF.of; all_goals first
        | with_reducible exact Off.refl | exact Off.no (by assumption) | skip)

theorem State.flowFind_same {m : Component → Bool} {a s : State} (h : Same m a s) (f : Frame)
    (n_regs : m .regs = false) (n_wire : m .wire = false) :
    Same m a (State.flowFind s f).2 := by
  unfold State.flowFind
  repeat' first
    | with_reducible assumption
    | (lift_lets; intro kx)
    | (simp only [Same.mk_iff]; apply SameF.of; all_goals first
        | with_reducible exact Off.refl | exact Off.no (by assumption) | skip)
    | (with_reducible first | apply State.clsCount_same | apply State.setFlow_same)
    | split

theorem State.flowUpdate_same {m : Component → Bool} {a s : State} (h : Same m a s) (f : Frame)
    (n_wire : m .wire = false) :
    Same m a (State.flowUpdate s f) := by
  unfold State.flowUpdate
  repeat' first
    | (with_reducible first | assumption | refine Same.ite ?_ ?_ | apply State.setFlow_same)
    | split

theorem execFlowSweep_same {m : Component → Bool} {a s : State} (h : Same m a s) (n_wire : m .wire = false)
    {kt : State} (ke : execFlowSweep s = .next kt) :
    Same m a kt := by
  unfold execFlowSweep at ke
  refine Same.of_done ke ?_
  repeat' first
    | with_reducible assumption
    | (simp only [Same.mk_iff]; apply SameF.of; all_goals first
        | with_reducible exact Off.refl | exact Off.no (by assumption) | skip)

theorem State.flowFlush_same {m : Component → Bool} {a s : State} (h : Same m a s) (v : Word)
    (n_wire : m .wire = false) :
    Same m a (State.flowFlush s v) := by
  unfold State.flowFlush
  repeat' first
    | (with_reducible first
        | assumption | refine Same.ite ?_ ?_ | apply State.setFlow_same | refine Same.foldl ?_ fun kb ky hkb => ?_)

theorem execFlowFlush_same {m : Component → Bool} {a s : State} (h : Same m a s) (value : Word)
    (n_wire : m .wire = false) {kt : State} (ke : execFlowFlush value s = .next kt) :
    Same m a kt := by
  unfold execFlowFlush at ke
  refine Same.of_done ke ?_
  repeat' first
    | with_reducible assumption
    | (lift_lets; intro kx)
    | (with_reducible first | apply State.onReady_same | apply State.flowFlush_same)

theorem State.sliceCount_same {m : Component → Bool} {a s : State} (h : Same m a s) (j : Nat) (i : Nat) (n : Nat)
    (n_regs : m .regs = false) :
    Same m a (State.sliceCount s j i n) := by
  unfold State.sliceCount
  repeat' (with_reducible first | assumption | refine Same.ite ?_ ?_ | apply State.bump_same)

theorem State.ringTarget_same {m : Component → Bool} {a s : State} (h : Same m a s) (cls : Nat) (i : Nat)
    (n_hub : m .hub = false) :
    Same m a (State.ringTarget s cls i).2.2 := by
  unfold State.ringTarget
  repeat' first
    | (with_reducible first | assumption | apply State.reserve_same)
    | split
    | with_reducible refine Same.of_snd (by assumption) ?_

theorem State.available_same {m : Component → Bool} {a s : State} (h : Same m a s) (f : Frame) (t : Nat)
    (n_hub : m .hub = false) :
    Same m a (State.available s f t).2.2 := by
  unfold State.available
  repeat' first
    | (with_reducible first | assumption | refine Same.ite ?_ ?_)
    | (lift_lets; intro kx; refine Same.step (m := m) (a := a) (x := kx) ?_ fun hkx => ?_)
    | (lift_lets; intro kx)
    | (simp only [Same.mk_iff]; apply SameF.of; all_goals first
        | with_reducible exact Off.refl | exact Off.no (by assumption) | skip)
    | with_reducible apply State.ringTarget_same
    | (simp only [kx, Same.mk_iff]; apply SameF.of; all_goals first
        | with_reducible exact Off.refl | exact Off.no (by assumption) | skip)
    | (with_reducible first
        | refine Same.foldl ?_ fun kb ky hkb => ?_ | refine Same.foldl_snd ?_ fun kb ky hkb => ?_
        | refine Same.foldl_fst ?_ fun kb ky hkb => ?_)
    | split
    | (with_reducible first
        | refine Same.of_snd (by assumption) ?_ | refine Same.of_fst (by assumption) ?_
        | refine Same.of_third (by assumption) ?_)
    | dsimp only
    | unfold kx

theorem State.resolve_same {m : Component → Bool} {a s : State} (h : Same m a s) (f : Frame) (t : Nat)
    (n_regs : m .regs = false) (n_hub : m .hub = false) :
    Same m a (State.resolve s f t).2.2 := by
  unfold State.resolve
  repeat' first
    | with_reducible assumption
    | (lift_lets; intro kx; refine Same.step (m := m) (a := a) (x := kx) ?_ fun hkx => ?_)
    | (lift_lets; intro kx)
    | (with_reducible first | apply State.clsCount_same | apply State.available_same)
    | split
    | with_reducible refine Same.of_third (by assumption) ?_

theorem State.mapFrame_same {m : Component → Bool} {a s : State} (h : Same m a s) (i : Nat) (g : Frame → Frame)
    (n_wire : m .wire = false) :
    Same m a (State.mapFrame s i g) := by
  unfold State.mapFrame
  repeat' first
    | (with_reducible first | assumption | apply State.setFrame_same)
    | split

theorem State.reap_same {m : Component → Bool} {a s : State} (h : Same m a s) (i : Nat) (n_wire : m .wire = false) :
    Same m a (State.reap s i) := by
  unfold State.reap
  repeat' first
    | (with_reducible first | assumption | refine Same.ite ?_ ?_)
    | (simp only [Same.mk_iff]; apply SameF.of; all_goals first
        | with_reducible exact Off.refl | exact Off.no (by assumption) | skip)
    | split

theorem State.deliverTo_same {m : Component → Bool} {a s : State} (h : Same m a s) (f : Frame) (x : RingSlot)
    (tap : Bool) (n_regs : m .regs = false) (n_mem : m .mem = false) (n_chk : m .chk = false) (n_mm : m .mm = false)
    (n_hub : m .hub = false) :
    Same m a (State.deliverTo s f x tap) := by
  unfold State.deliverTo
  repeat' first
    | (with_reducible first
        | assumption | refine Same.ite ?_ ?_ | apply State.poisonConsumed_same | apply State.deliverFrame_same)

theorem State.toPtpRing_same {m : Component → Bool} {a s : State} (h : Same m a s) (f : Frame) (x : RingSlot)
    (n_time : m .time = false) :
    Same m a (State.toPtpRing s f x) := by
  unfold State.toPtpRing
  repeat' first
    | (with_reducible first | assumption | apply State.setTime_same)
    | split

theorem State.deliverSlot_same {m : Component → Bool} {a s : State} (h : Same m a s) (i : Nat)
    (n_regs : m .regs = false) (n_mem : m .mem = false) (n_chk : m .chk = false) (n_mm : m .mm = false)
    (n_hub : m .hub = false) (n_wire : m .wire = false) (n_time : m .time = false) :
    Same m a (State.deliverSlot s i) := by
  unfold State.deliverSlot
  repeat' first
    | (with_reducible first
        | assumption | apply State.setFrame_same | apply State.deliverTo_same | apply State.toPtpRing_same)
    | split

theorem State.tapCopy_same {m : Component → Bool} {a s : State} (h : Same m a s) (f : Frame)
    (n_regs : m .regs = false) (n_mem : m .mem = false) (n_chk : m .chk = false) (n_mm : m .mm = false)
    (n_hub : m .hub = false) :
    Same m a (State.tapCopy s f) := by
  unfold State.tapCopy
  repeat' first
    | (with_reducible first
        | assumption | apply State.reserve_same | apply State.clsCount_same | apply State.deliverTo_same)
    | split
    | with_reducible refine Same.of_snd (by assumption) ?_

theorem State.frameEnd_same {m : Component → Bool} {a s : State} (h : Same m a s) (i : Nat)
    (n_regs : m .regs = false) (n_mem : m .mem = false) (n_chk : m .chk = false) (n_mm : m .mm = false)
    (n_hub : m .hub = false) (n_wire : m .wire = false) (n_time : m .time = false) :
    Same m a (State.frameEnd s i) := by
  unfold State.frameEnd
  repeat' first
    | (with_reducible first
        | assumption | apply State.flowUpdate_same | apply State.deliverSlot_same | apply State.tapCopy_same)
    | split

theorem State.release_same {m : Component → Bool} {a s : State} (h : Same m a s) (i : Nat)
    (n_wire : m .wire = false) :
    Same m a (State.release s i) := by
  unfold State.release
  repeat' (with_reducible first | assumption | refine Same.ite ?_ ?_ | apply State.mapFrame_same)

theorem State.sendTo_same {m : Component → Bool} {a s : State} (h : Same m a s) (i : Nat) (f : Frame) (t : Nat)
    (r : Option RingSlot) (n_regs : m .regs = false) (n_wire : m .wire = false) :
    Same m a (State.sendTo s i f t r) := by
  unfold State.sendTo
  repeat' first
    | (with_reducible first
        | assumption | refine Same.ite ?_ ?_ | apply State.setFrame_same | apply State.forward_same)
    | split

theorem State.malformed_same {m : Component → Bool} {a s : State} (h : Same m a s) (i : Nat) (f : Frame)
    (code : Nat) (n_regs : m .regs = false) (n_hub : m .hub = false) (n_wire : m .wire = false) :
    Same m a (State.malformed s i f code) := by
  unfold State.malformed
  repeat' first
    | (with_reducible first
        | assumption | apply State.reserve_same | apply State.setFrame_same | apply State.wireCount_same
        | apply State.forward_same)
    | split
    | with_reducible refine Same.of_snd (by assumption) ?_
    | dsimp only

theorem State.failTarget_same {m : Component → Bool} {a s : State} (h : Same m a s) (i : Nat) (j : Nat)
    (n_regs : m .regs = false) (n_hub : m .hub = false) (n_wire : m .wire = false) :
    Same m a (State.failTarget s i j) := by
  unfold State.failTarget
  repeat' first
    | (with_reducible first
        | assumption | apply State.setFrame_same | apply State.resolve_same | apply State.sendTo_same)
    | split
    | with_reducible refine Same.of_third (by assumption) ?_
    | dsimp only

theorem State.toSlice_same {m : Component → Bool} {a s : State} (h : Same m a s) (i : Nat) (f : Frame) (j : Nat)
    (n_regs : m .regs = false) (n_hub : m .hub = false) (n_wire : m .wire = false) :
    Same m a (State.toSlice s i f j) := by
  unfold State.toSlice
  repeat' first
    | (with_reducible first | assumption | refine Same.ite ?_ ?_)
    | (simp only [Same.mk_iff]; apply SameF.of; all_goals first
        | with_reducible exact Off.refl | exact Off.no (by assumption) | skip)
    | (with_reducible first
        | apply State.setFrame_same | apply State.wireCount_same | apply State.sliceCount_same
        | apply State.release_same | apply State.malformed_same | apply State.failTarget_same)

theorem State.decided_same {m : Component → Bool} {a s : State} (h : Same m a s) (i : Nat) (f : Frame) (key : Nat)
    (w0 : Nat) (w1 : Nat) (n_regs : m .regs = false) (n_mem : m .mem = false) (n_chk : m .chk = false)
    (n_mm : m .mm = false) (n_hub : m .hub = false) (n_wire : m .wire = false) (n_time : m .time = false) :
    Same m a (State.decided s i f key w0 w1) := by
  unfold State.decided
  repeat' first
    | (with_reducible first
        | assumption | apply State.setFrame_same | apply State.flowFind_same | apply State.resolve_same
        | apply State.reap_same | apply State.frameEnd_same | apply State.release_same | apply State.sendTo_same
        | apply State.toSlice_same)
    | split
    | with_reducible refine Same.of_third (by assumption) ?_

theorem State.classifierPass_same {m : Component → Bool} {a s : State} (h : Same m a s) (i : Nat)
    (n_regs : m .regs = false) (n_mem : m .mem = false) (n_chk : m .chk = false) (n_mm : m .mm = false)
    (n_hub : m .hub = false) (n_wire : m .wire = false) (n_time : m .time = false) :
    Same m a (State.classifierPass s i) := by
  unfold State.classifierPass
  repeat' first
    | (with_reducible first
        | assumption | refine Same.ite ?_ ?_ | apply State.setFrame_same | apply State.countHit_same
        | apply State.decided_same)
    | split

theorem execClassifierPass_same {m : Component → Bool} {a s : State} (h : Same m a s) (frame : Nat)
    (n_regs : m .regs = false) (n_mem : m .mem = false) (n_chk : m .chk = false) (n_mm : m .mm = false)
    (n_hub : m .hub = false) (n_wire : m .wire = false) (n_time : m .time = false) {kt : State}
    (ke : execClassifierPass frame s = .next kt) :
    Same m a kt := by
  unfold execClassifierPass at ke
  refine Same.of_done ke ?_
  repeat' (with_reducible first | assumption | refine Same.ite ?_ ?_ | apply State.classifierPass_same)

theorem State.recirculationPass_same {m : Component → Bool} {a s : State} (h : Same m a s) (i : Nat)
    (n_regs : m .regs = false) (n_mem : m .mem = false) (n_chk : m .chk = false) (n_mm : m .mm = false)
    (n_hub : m .hub = false) (n_wire : m .wire = false) (n_time : m .time = false) :
    Same m a (State.recirculationPass s i) := by
  unfold State.recirculationPass
  repeat' first
    | (with_reducible first
        | assumption | refine Same.ite ?_ ?_ | apply State.clsCount_same | apply State.countHit_same
        | apply State.decided_same)
    | split

theorem execRecirculationPass_same {m : Component → Bool} {a s : State} (h : Same m a s) (frame : Nat)
    (n_regs : m .regs = false) (n_mem : m .mem = false) (n_chk : m .chk = false) (n_mm : m .mm = false)
    (n_hub : m .hub = false) (n_wire : m .wire = false) (n_time : m .time = false) {kt : State}
    (ke : execRecirculationPass frame s = .next kt) :
    Same m a kt := by
  unfold execRecirculationPass at ke
  refine Same.of_done ke ?_
  repeat' (with_reducible first | assumption | refine Same.ite ?_ ?_ | apply State.recirculationPass_same)

end Sys2Proof.Machine
end

