-- ==== Sys2Proof/Laws/SameBramble.lean ====
section
/-! SUPPORT. What the operations of Machine/Bramble.lean leave alone (`Same`). -/

set_option linter.unusedSimpArgs false

namespace Sys2Proof.Machine

theorem State.strikeSlice_same {m : Component → Bool} {a s : State} (h : Same m a s) (j : Nat)
    (n_regs : m .regs = false) (n_flt : m .flt = false) (n_chk : m .chk = false) :
    Same m a (State.strikeSlice s j) := by
  unfold State.strikeSlice
  repeat' (with_reducible first | assumption | refine Same.ite ?_ ?_ | apply State.strike_same | apply State.retire_same)

theorem State.sliceFault_same {m : Component → Bool} {a s : State} (h : Same m a s) (j : Nat) (v : Nat)
    (x : SliceFault) (n_regs : m .regs = false) (n_flt : m .flt = false) (n_chk : m .chk = false) :
    Same m a (State.sliceFault s j v x) := by
  unfold State.sliceFault
  repeat' first
    | (with_reducible first
        | assumption | apply State.emit_same | apply State.retire_same | apply State.sliceCount_same
        | apply State.strikeSlice_same)
    | split

theorem State.leavesCorrected_same {m : Component → Bool} {a s : State} (h : Same m a s) (j : Nat) (u : Nat)
    (n : Nat) (n_fresh : m .fresh = false) (n_regs : m .regs = false) (n_flt : m .flt = false)
    (n_chk : m .chk = false) :
    Same m a (State.leavesCorrected s j u n) := by
  unfold State.leavesCorrected
  repeat' first
    | (with_reducible first
        | assumption | apply State.free_same | apply State.emit_same | apply State.countCorrected_same
        | apply State.sliceCount_same | refine Same.foldl ?_ fun kb ky hkb => ?_)

theorem State.setQueue_same {m : Component → Bool} {a s : State} (h : Same m a s) (j : Nat) (q : List Nat)
    (n_wire : m .wire = false) :
    Same m a (State.setQueue s j q) := by
  unfold State.setQueue
  repeat' first
    | with_reducible assumption
    | (simp only [Same.mk_iff]; apply SameF.of; all_goals first
        | with_reducible exact Off.refl | exact Off.no (by assumption) | skip)

theorem State.setReplyQueue_same {m : Component → Bool} {a s : State} (h : Same m a s) (n : Nat) (q : List Nat)
    (n_wire : m .wire = false) :
    Same m a (State.setReplyQueue s n q) := by
  unfold State.setReplyQueue
  repeat' first
    | with_reducible assumption
    | (simp only [Same.mk_iff]; apply SameF.of; all_goals first
        | with_reducible exact Off.refl | exact Off.no (by assumption) | skip)

theorem State.queueReply_same {m : Component → Bool} {a s : State} (h : Same m a s) (i : Nat) (j : Nat) (f : Frame)
    (r : Reply) (accs : List Int) (n_regs : m .regs = false) (n_mem : m .mem = false) (n_chk : m .chk = false)
    (n_mm : m .mm = false) (n_hub : m .hub = false) (n_wire : m .wire = false) (n_time : m .time = false) :
    Same m a (State.queueReply s i j f r accs) := by
  unfold State.queueReply
  repeat' first
    | (with_reducible first
        | assumption | refine Same.ite ?_ ?_ | apply State.setFrame_same | apply State.sliceCount_same
        | apply State.reap_same | apply State.deliverSlot_same | apply State.tapCopy_same
        | apply State.failTarget_same | apply State.setReplyQueue_same)

theorem State.failEvaluation_same {m : Component → Bool} {a s : State} (h : Same m a s) (i : Nat) (j : Nat)
    (f : Frame) (n_regs : m .regs = false) (n_mem : m .mem = false) (n_chk : m .chk = false) (n_mm : m .mm = false)
    (n_hub : m .hub = false) (n_wire : m .wire = false) (n_time : m .time = false) :
    Same m a (State.failEvaluation s i j f) := by
  unfold State.failEvaluation
  repeat' first
    | (with_reducible first
        | assumption | refine Same.ite ?_ ?_ | apply State.reap_same | apply State.deliverSlot_same
        | apply State.tapCopy_same | apply State.failTarget_same)

theorem State.evaluate_same {m : Component → Bool} {a s : State} (h : Same m a s) (i : Nat) (j : Nat) (f : Frame)
    (corrected : Nat) (follower : Nat) (fault : Option SliceFault) (ecc : List MemError)
    (n_fresh : m .fresh = false) (n_regs : m .regs = false) (n_mem : m .mem = false) (n_cfg : m .cfg = false)
    (n_flt : m .flt = false) (n_chk : m .chk = false) (n_mm : m .mm = false) (n_hub : m .hub = false)
    (n_fleet : m .fleet = false) (n_wire : m .wire = false) (n_time : m .time = false) :
    Same m a (State.evaluate s i j f corrected follower fault ecc) := by
  unfold State.evaluate
  repeat' first
    | (with_reducible first | assumption | refine Same.ite ?_ ?_)
    | (lift_lets; intro kx)
    | (with_reducible first
        | apply State.poisonConsumed_same | apply State.meetReads_same | apply State.setFrame_same
        | apply State.sliceCount_same | apply State.reap_same | apply State.sliceFault_same
        | apply State.leavesCorrected_same | apply State.queueReply_same | apply State.failEvaluation_same)
    | split

theorem State.sliceEvaluation_same {m : Component → Bool} {a s : State} (h : Same m a s) (j : Nat) (corrected : Nat)
    (follower : Nat) (fault : Option SliceFault) (ecc : List MemError) (n_fresh : m .fresh = false)
    (n_regs : m .regs = false) (n_mem : m .mem = false) (n_cfg : m .cfg = false) (n_flt : m .flt = false)
    (n_chk : m .chk = false) (n_mm : m .mm = false) (n_hub : m .hub = false) (n_fleet : m .fleet = false)
    (n_wire : m .wire = false) (n_time : m .time = false) :
    Same m a (State.sliceEvaluation s j corrected follower fault ecc) := by
  unfold State.sliceEvaluation
  repeat' first
    | with_reducible assumption
    | (lift_lets; intro kx; refine Same.step (m := m) (a := a) (x := kx) ?_ fun hkx => ?_)
    | (with_reducible first | apply State.setQueue_same | apply State.evaluate_same)
    | split

theorem execSliceEvaluation_same {m : Component → Bool} {a s : State} (h : Same m a s) (slice : Fin 16)
    (corrected : Nat) (followerCorrected : Nat) (events : SliceEvents) (n_fresh : m .fresh = false)
    (n_regs : m .regs = false) (n_mem : m .mem = false) (n_cfg : m .cfg = false) (n_flt : m .flt = false)
    (n_chk : m .chk = false) (n_mm : m .mm = false) (n_hub : m .hub = false) (n_fleet : m .fleet = false)
    (n_wire : m .wire = false) (n_time : m .time = false) {kt : State}
    (ke : execSliceEvaluation slice corrected followerCorrected events s = .next kt) :
    Same m a kt := by
  unfold execSliceEvaluation at ke
  refine Same.of_done ke ?_
  repeat' first
    | (with_reducible first | assumption | refine Same.ite ?_ ?_)
    | (lift_lets; intro kx; refine Same.step (m := m) (a := a) (x := kx) ?_ fun hkx => ?_)
    | (lift_lets; intro kx)
    | (simp only [Same.mk_iff]; apply SameF.of; all_goals first
        | with_reducible exact Off.refl | exact Off.no (by assumption) | skip)
    | with_reducible apply State.sliceEvaluation_same
    | (simp only [kx, Same.mk_iff]; apply SameF.of; all_goals first
        | with_reducible exact Off.refl | exact Off.no (by assumption) | skip)
    | (with_reducible first
        | refine Same.foldl ?_ fun kb ky hkb => ?_ | refine Same.foldl_snd ?_ fun kb ky hkb => ?_
        | refine Same.foldl_fst ?_ fun kb ky hkb => ?_)
    | split
    | (with_reducible first
        | refine Same.of_snd (by assumption) ?_ | refine Same.of_fst (by assumption) ?_
        | refine Same.of_third (by assumption) ?_)
    | dsimp only
    | unfold kx

theorem State.startReply_same {m : Component → Bool} {a s : State} (h : Same m a s) (i : Nat) (f : Frame)
    (r : Reply) (n_regs : m .regs = false) (n_wire : m .wire = false) :
    Same m a (State.startReply s i f r) := by
  unfold State.startReply
  repeat' first
    | (with_reducible first | assumption | refine Same.ite ?_ ?_)
    | (simp only [Same.mk_iff]; apply SameF.of; all_goals first
        | with_reducible exact Off.refl | exact Off.no (by assumption) | skip)
    | (with_reducible first
        | apply State.setFrame_same | apply State.startTx_same | apply State.sliceCount_same
        | apply State.setReplyQueue_same)

theorem State.dropReplies_same {m : Component → Bool} {a s : State} (h : Same m a s) (n : Nat)
    (n_regs : m .regs = false) (n_mem : m .mem = false) (n_chk : m .chk = false) (n_mm : m .mm = false)
    (n_hub : m .hub = false) (n_wire : m .wire = false) (n_time : m .time = false) :
    Same m a (State.dropReplies s n) := by
  unfold State.dropReplies
  repeat' first
    | (with_reducible first
        | assumption | apply State.setFrame_same | apply State.sliceCount_same | apply State.reap_same
        | apply State.deliverSlot_same | apply State.failTarget_same | apply State.setReplyQueue_same
        | refine Same.foldl ?_ fun kb ky hkb => ?_)
    | split

theorem State.replyStart_same {m : Component → Bool} {a s : State} (h : Same m a s) (n : Nat)
    (n_regs : m .regs = false) (n_mem : m .mem = false) (n_chk : m .chk = false) (n_mm : m .mm = false)
    (n_hub : m .hub = false) (n_wire : m .wire = false) (n_time : m .time = false) :
    Same m a (State.replyStart s n) := by
  unfold State.replyStart
  repeat' first
    | with_reducible assumption
    | (lift_lets; intro kx; refine Same.step (m := m) (a := a) (x := kx) ?_ fun hkx => ?_)
    | (with_reducible first | apply State.startReply_same | apply State.dropReplies_same)
    | split

theorem execReplyStart_same {m : Component → Bool} {a s : State} (h : Same m a s) (port : Fin 8)
    (n_regs : m .regs = false) (n_mem : m .mem = false) (n_chk : m .chk = false) (n_mm : m .mm = false)
    (n_hub : m .hub = false) (n_wire : m .wire = false) (n_time : m .time = false) {kt : State}
    (ke : execReplyStart port s = .next kt) :
    Same m a kt := by
  unfold execReplyStart at ke
  refine Same.of_done ke ?_
  repeat' (with_reducible first | assumption | refine Same.ite ?_ ?_ | apply State.replyStart_same)

theorem State.replyFcsSlot_same {m : Component → Bool} {a s : State} (h : Same m a s) (i : Nat)
    (n_regs : m .regs = false) (n_wire : m .wire = false) :
    Same m a (State.replyFcsSlot s i) := by
  unfold State.replyFcsSlot
  repeat' first
    | (with_reducible first
        | assumption | apply State.setHalf_same | apply State.setFrame_same | apply State.sliceCount_same
        | apply State.reap_same)
    | split

theorem execReplyFcsSlot_same {m : Component → Bool} {a s : State} (h : Same m a s) (frame : Nat)
    (n_regs : m .regs = false) (n_wire : m .wire = false) {kt : State} (ke : execReplyFcsSlot frame s = .next kt) :
    Same m a kt := by
  unfold execReplyFcsSlot at ke
  refine Same.of_done ke ?_
  repeat' (with_reducible first | assumption | refine Same.ite ?_ ?_ | apply State.replyFcsSlot_same)

end Sys2Proof.Machine
end

