-- ==== Sys2Proof/Laws/SameLinks.lean ====
section
/-! SUPPORT. What the operations of Machine/Links.lean leave alone (`Same`). -/

set_option linter.unusedSimpArgs false

namespace Sys2Proof.Machine

theorem State.linkDown_same {m : Component → Bool} {a s : State} (h : Same m a s) (n : Nat)
    (n_regs : m .regs = false) (n_links : m .links = false) (n_crossings : m .crossings = false)
    (n_cfg : m .cfg = false) (n_flt : m .flt = false) (n_chk : m .chk = false) (n_hub : m .hub = false)
    (n_fleet : m .fleet = false) (n_dense : m .dense = false) (n_emb : m .emb = false) (n_det : m .det = false) :
    Same m a (State.linkDown s n) := by
  unfold State.linkDown
  repeat' first
    | (with_reducible first | assumption | refine Same.ite ?_ ?_)
    | (lift_lets; intro kx; refine Same.step (m := m) (a := a) (x := kx) ?_ fun hkx => ?_)
    | (lift_lets; intro kx)
    | (simp only [Same.mk_iff]; apply SameF.of; all_goals first
        | with_reducible exact Off.refl | exact Off.no (by assumption) | skip)
    | (with_reducible first
        | apply State.bump_same | apply State.emit_same | apply State.stopStep_same | apply State.setLink_same
        | apply State.rerelay_same | apply State.afterLoss_same)
    | (simp only [kx, Same.mk_iff]; apply SameF.of; all_goals first
        | with_reducible exact Off.refl | exact Off.no (by assumption) | skip)
    | (with_reducible first
        | refine Same.foldl ?_ fun kb ky hkb => ?_ | refine Same.foldl_snd ?_ fun kb ky hkb => ?_
        | refine Same.foldl_fst ?_ fun kb ky hkb => ?_)
    | split
    | (with_reducible first
        | refine Same.of_snd (by assumption) ?_ | refine Same.of_fst (by assumption) ?_
        | refine Same.of_third (by assumption) ?_)
    | dsimp only
    | unfold kx

theorem State.flitRetry_same {m : Component → Bool} {a s : State} (h : Same m a s) (n : Nat) (far : Bool)
    (again : Bool) (n_regs : m .regs = false) (n_links : m .links = false) (n_crossings : m .crossings = false)
    (n_cfg : m .cfg = false) (n_flt : m .flt = false) (n_chk : m .chk = false) (n_hub : m .hub = false)
    (n_fleet : m .fleet = false) (n_dense : m .dense = false) (n_emb : m .emb = false) (n_det : m .det = false) :
    Same m a (State.flitRetry s n far again) := by
  unfold State.flitRetry
  repeat' first
    | (with_reducible first
        | assumption | refine Same.ite ?_ ?_ | apply State.bump_same | apply State.setLink_same
        | apply State.linkDown_same | refine Same.foldl ?_ fun kb ky hkb => ?_)

theorem execFlitRetry_same {m : Component → Bool} {a s : State} (h : Same m a s) (link : Fin 10) (far : Bool)
    (again : Bool) (n_regs : m .regs = false) (n_links : m .links = false) (n_crossings : m .crossings = false)
    (n_cfg : m .cfg = false) (n_flt : m .flt = false) (n_chk : m .chk = false) (n_hub : m .hub = false)
    (n_fleet : m .fleet = false) (n_dense : m .dense = false) (n_emb : m .emb = false) (n_det : m .det = false)
    {kt : State} (ke : execFlitRetry link far again s = .next kt) :
    Same m a kt := by
  unfold execFlitRetry at ke
  refine Same.of_done ke ?_
  repeat' (with_reducible first | assumption | refine Same.ite ?_ ?_ | apply State.flitRetry_same)

theorem State.repairLane_same {m : Component → Bool} {a s : State} (h : Same m a s) (n : Nat) (x : Nat)
    (n_regs : m .regs = false) (n_links : m .links = false) (n_flt : m .flt = false) (n_chk : m .chk = false) :
    Same m a (State.repairLane s n x) := by
  unfold State.repairLane
  repeat' first
    | (with_reducible first | assumption | refine Same.ite ?_ ?_)
    | (lift_lets; intro kx; refine Same.step (m := m) (a := a) (x := kx) ?_ fun hkx => ?_)
    | (lift_lets; intro kx)
    | (simp only [Same.mk_iff]; apply SameF.of; all_goals first
        | with_reducible exact Off.refl | exact Off.no (by assumption) | skip)
    | (with_reducible first
        | apply State.emit_same | apply State.setUnit_same | apply State.markDirty_same | apply State.retire_same
        | apply State.setLink_same)
    | (simp only [kx, Same.mk_iff]; apply SameF.of; all_goals first
        | with_reducible exact Off.refl | exact Off.no (by assumption) | skip)
    | (with_reducible first
        | refine Same.foldl ?_ fun kb ky hkb => ?_ | refine Same.foldl_snd ?_ fun kb ky hkb => ?_
        | refine Same.foldl_fst ?_ fun kb ky hkb => ?_)
    | split
    | (with_reducible first
        | refine Same.of_snd (by assumption) ?_ | refine Same.of_fst (by assumption) ?_
        | refine Same.of_third (by assumption) ?_)
    | dsimp only
    | unfold kx

theorem State.linkRetrain_same {m : Component → Bool} {a s : State} (h : Same m a s) (n : Nat) (failed : List Nat)
    (n_regs : m .regs = false) (n_links : m .links = false) (n_crossings : m .crossings = false)
    (n_cfg : m .cfg = false) (n_flt : m .flt = false) (n_chk : m .chk = false) (n_hub : m .hub = false)
    (n_fleet : m .fleet = false) (n_dense : m .dense = false) (n_emb : m .emb = false) (n_det : m .det = false) :
    Same m a (State.linkRetrain s n failed) := by
  unfold State.linkRetrain
  repeat' first
    | (with_reducible first | assumption | refine Same.ite ?_ ?_)
    | (lift_lets; intro kx; refine Same.step (m := m) (a := a) (x := kx) ?_ fun hkx => ?_)
    | (lift_lets; intro kx)
    | (simp only [Same.mk_iff]; apply SameF.of; all_goals first
        | with_reducible exact Off.refl | exact Off.no (by assumption) | skip)
    | (with_reducible first | apply State.setLink_same | apply State.linkDown_same | apply State.repairLane_same)
    | (simp only [kx, Same.mk_iff]; apply SameF.of; all_goals first
        | with_reducible exact Off.refl | exact Off.no (by assumption) | skip)
    | (with_reducible first
        | refine Same.foldl ?_ fun kb ky hkb => ?_ | refine Same.foldl_snd ?_ fun kb ky hkb => ?_
        | refine Same.foldl_fst ?_ fun kb ky hkb => ?_)
    | split
    | (with_reducible first
        | refine Same.of_snd (by assumption) ?_ | refine Same.of_fst (by assumption) ?_
        | refine Same.of_third (by assumption) ?_)
    | dsimp only
    | unfold kx

theorem execLinkRetrain_same {m : Component → Bool} {a s : State} (h : Same m a s) (link : Fin 10)
    (failed : List LaneId) (n_regs : m .regs = false) (n_links : m .links = false)
    (n_crossings : m .crossings = false) (n_cfg : m .cfg = false) (n_flt : m .flt = false) (n_chk : m .chk = false)
    (n_hub : m .hub = false) (n_fleet : m .fleet = false) (n_dense : m .dense = false) (n_emb : m .emb = false)
    (n_det : m .det = false) {kt : State} (ke : execLinkRetrain link failed s = .next kt) :
    Same m a kt := by
  unfold execLinkRetrain at ke
  refine Same.of_done ke ?_
  repeat' first
    | (with_reducible first | assumption | refine Same.ite ?_ ?_)
    | (lift_lets; intro kx; refine Same.step (m := m) (a := a) (x := kx) ?_ fun hkx => ?_)
    | (lift_lets; intro kx)
    | (simp only [Same.mk_iff]; apply SameF.of; all_goals first
        | with_reducible exact Off.refl | exact Off.no (by assumption) | skip)
    | with_reducible apply State.linkRetrain_same
    | (simp only [kx, Same.mk_iff]; apply SameF.of; all_goals first
        | with_reducible exact Off.refl | exact Off.no (by assumption) | skip)
    | (with_reducible first
        | refine Same.foldl ?_ fun kb ky hkb => ?_ | refine Same.foldl_snd ?_ fun kb ky hkb => ?_
        | refine Same.foldl_fst ?_ fun kb ky hkb => ?_)
    | split
    | (with_reducible first
        | refine Same.of_snd (by assumption) ?_ | refine Same.of_fst (by assumption) ?_
        | refine Same.of_third (by assumption) ?_)
    | dsimp only
    | unfold kx

theorem State.retrainMarked_same {m : Component → Bool} {a s : State} (h : Same m a s) (n_regs : m .regs = false)
    (n_links : m .links = false) (n_crossings : m .crossings = false) (n_cfg : m .cfg = false)
    (n_flt : m .flt = false) (n_chk : m .chk = false) (n_hub : m .hub = false) (n_fleet : m .fleet = false)
    (n_dense : m .dense = false) (n_emb : m .emb = false) (n_det : m .det = false) :
    Same m a (State.retrainMarked s) := by
  unfold State.retrainMarked
  repeat' first
    | (with_reducible first
        | assumption | refine Same.ite ?_ ?_ | apply State.linkRetrain_same
        | refine Same.foldl ?_ fun kb ky hkb => ?_)

theorem State.laneErrorWindow_same {m : Component → Bool} {a s : State} (h : Same m a s) (n : Nat) (x : Nat)
    (errors : Nat) (n_regs : m .regs = false) (n_links : m .links = false) (n_crossings : m .crossings = false)
    (n_cfg : m .cfg = false) (n_flt : m .flt = false) (n_chk : m .chk = false) (n_hub : m .hub = false)
    (n_fleet : m .fleet = false) (n_dense : m .dense = false) (n_emb : m .emb = false) (n_det : m .det = false) :
    Same m a (State.laneErrorWindow s n x errors) := by
  unfold State.laneErrorWindow
  repeat' first
    | (with_reducible first | assumption | refine Same.ite ?_ ?_)
    | (lift_lets; intro kx; refine Same.step (m := m) (a := a) (x := kx) ?_ fun hkx => ?_)
    | (lift_lets; intro kx)
    | (simp only [Same.mk_iff]; apply SameF.of; all_goals first
        | with_reducible exact Off.refl | exact Off.no (by assumption) | skip)
    | (with_reducible first
        | apply State.countCorrected_same | apply State.setLink_same | apply State.retrainMarked_same)
    | (simp only [kx, Same.mk_iff]; apply SameF.of; all_goals first
        | with_reducible exact Off.refl | exact Off.no (by assumption) | skip)
    | (with_reducible first
        | refine Same.foldl ?_ fun kb ky hkb => ?_ | refine Same.foldl_snd ?_ fun kb ky hkb => ?_
        | refine Same.foldl_fst ?_ fun kb ky hkb => ?_)
    | split
    | (with_reducible first
        | refine Same.of_snd (by assumption) ?_ | refine Same.of_fst (by assumption) ?_
        | refine Same.of_third (by assumption) ?_)
    | dsimp only
    | unfold kx

theorem execLaneErrorWindow_same {m : Component → Bool} {a s : State} (h : Same m a s) (link : Fin 10)
    (lane : LaneId) (errors : Nat) (n_regs : m .regs = false) (n_links : m .links = false)
    (n_crossings : m .crossings = false) (n_cfg : m .cfg = false) (n_flt : m .flt = false) (n_chk : m .chk = false)
    (n_hub : m .hub = false) (n_fleet : m .fleet = false) (n_dense : m .dense = false) (n_emb : m .emb = false)
    (n_det : m .det = false) {kt : State} (ke : execLaneErrorWindow link lane errors s = .next kt) :
    Same m a kt := by
  unfold execLaneErrorWindow at ke
  refine Same.of_done ke ?_
  repeat' first
    | (with_reducible first | assumption | refine Same.ite ?_ ?_)
    | (lift_lets; intro kx; refine Same.step (m := m) (a := a) (x := kx) ?_ fun hkx => ?_)
    | (lift_lets; intro kx)
    | (simp only [Same.mk_iff]; apply SameF.of; all_goals first
        | with_reducible exact Off.refl | exact Off.no (by assumption) | skip)
    | with_reducible apply State.laneErrorWindow_same
    | (simp only [kx, Same.mk_iff]; apply SameF.of; all_goals first
        | with_reducible exact Off.refl | exact Off.no (by assumption) | skip)
    | (with_reducible first
        | refine Same.foldl ?_ fun kb ky hkb => ?_ | refine Same.foldl_snd ?_ fun kb ky hkb => ?_
        | refine Same.foldl_fst ?_ fun kb ky hkb => ?_)
    | split
    | (with_reducible first
        | refine Same.of_snd (by assumption) ?_ | refine Same.of_fst (by assumption) ?_
        | refine Same.of_third (by assumption) ?_)
    | dsimp only
    | unfold kx

theorem execCrossingSlip_same {m : Component → Bool} {a s : State} (h : Same m a s) (xing : Fin 9) (aclk : Nat)
    (n_regs : m .regs = false) (n_crossings : m .crossings = false) {kt : State}
    (ke : execCrossingSlip xing aclk s = .next kt) :
    Same m a kt := by
  unfold execCrossingSlip at ke
  refine Same.of_done ke ?_
  repeat' (with_reducible first | assumption | refine Same.ite ?_ ?_ | apply State.crossingSlip_same)

end Sys2Proof.Machine
end

