-- ==== Sys2Proof/Laws/SameWire.lean ====
section
/-! SUPPORT. What the operations of Machine/Wire.lean leave alone (`Same`). -/

set_option linter.unusedSimpArgs false

namespace Sys2Proof.Machine

theorem State.frameParse_same {m : Component → Bool} {a s : State} (h : Same m a s) (c : Nat) (bytes : List Byte)
    (phy : Bool) (fixed : Nat) (bad : Nat) (parity : Option (BitVec 6)) (n_regs : m .regs = false)
    (n_chk : m .chk = false) (n_hub : m .hub = false) (n_wire : m .wire = false) :
    Same m a (State.frameParse s c bytes phy fixed bad parity) := by
  unfold State.frameParse
  repeat' first
    | (with_reducible first | assumption | refine Same.ite ?_ ?_)
    | (lift_lets; intro kx; refine Same.step (m := m) (a := a) (x := kx) ?_ fun hkx => ?_)
    | (lift_lets; intro kx)
    | (simp only [Same.mk_iff]; apply SameF.of; all_goals first
        | with_reducible exact Off.refl | exact Off.no (by assumption) | skip)
    | (with_reducible first
        | apply State.emit_same | apply State.setFrame_same | apply State.wireCount_same | apply State.malformed_same)
    | (simp only [kx, Same.mk_iff]; apply SameF.of; all_goals first
        | with_reducible exact Off.refl | exact Off.no (by assumption) | skip)
    | (with_reducible first
        | refine Same.foldl ?_ fun kb ky hkb => ?_ | refine Same.foldl_snd ?_ fun kb ky hkb => ?_
        | refine Same.foldl_fst ?_ fun kb ky hkb => ?_)
    | split
    | (with_reducible first
        | refine Same.of_snd (by assumption) ?_ | refine Same.of_fst (by assumption) ?_
        | refine Same.of_third (by assumption) ?_)
    | dsimp only
    | unfold kx

theorem execFrameParse_same {m : Component → Bool} {a s : State} (h : Same m a s) (port : Fin 16)
    (bytes : List Byte) (reception : Reception) (n_regs : m .regs = false) (n_chk : m .chk = false)
    (n_hub : m .hub = false) (n_wire : m .wire = false) {kt : State}
    (ke : execFrameParse port bytes reception s = .next kt) :
    Same m a kt := by
  unfold execFrameParse at ke
  refine Same.of_done ke ?_
  repeat' first
    | (with_reducible first | assumption | refine Same.ite ?_ ?_)
    | (lift_lets; intro kx; refine Same.step (m := m) (a := a) (x := kx) ?_ fun hkx => ?_)
    | (lift_lets; intro kx)
    | (simp only [Same.mk_iff]; apply SameF.of; all_goals first
        | with_reducible exact Off.refl | exact Off.no (by assumption) | skip)
    | with_reducible apply State.frameParse_same
    | (simp only [kx, Same.mk_iff]; apply SameF.of; all_goals first
        | with_reducible exact Off.refl | exact Off.no (by assumption) | skip)
    | (with_reducible first
        | refine Same.foldl ?_ fun kb ky hkb => ?_ | refine Same.foldl_snd ?_ fun kb ky hkb => ?_
        | refine Same.foldl_fst ?_ fun kb ky hkb => ?_)
    | split
    | (with_reducible first
        | refine Same.of_snd (by assumption) ?_ | refine Same.of_fst (by assumption) ?_
        | refine Same.of_third (by assumption) ?_)
    | dsimp only
    | unfold kx

theorem State.settleForward_same {m : Component → Bool} {a s : State} (h : Same m a s) (i : Nat) (good : Bool)
    (n_wire : m .wire = false) :
    Same m a (State.settleForward s i good) := by
  unfold State.settleForward
  repeat' first
    | with_reducible assumption
    | (lift_lets; intro kx)
    | (with_reducible first | apply State.setHalf_same | refine Same.foldl ?_ fun kb ky hkb => ?_)
    | split

theorem State.frameVerdict_same {m : Component → Bool} {a s : State} (h : Same m a s) (i : Nat)
    (n_regs : m .regs = false) (n_mem : m .mem = false) (n_chk : m .chk = false) (n_mm : m .mm = false)
    (n_hub : m .hub = false) (n_wire : m .wire = false) (n_time : m .time = false) :
    Same m a (State.frameVerdict s i) := by
  unfold State.frameVerdict
  repeat' first
    | (with_reducible first
        | assumption | apply State.setFrame_same | apply State.wireCount_same | apply State.receivePfc_same
        | apply State.unqueue_same | apply State.pdelayReceive_same | apply State.reap_same
        | apply State.frameEnd_same | apply State.settleForward_same | refine Same.foldl ?_ fun kb ky hkb => ?_)
    | split

theorem execFrameVerdict_same {m : Component → Bool} {a s : State} (h : Same m a s) (frame : Nat)
    (n_regs : m .regs = false) (n_mem : m .mem = false) (n_chk : m .chk = false) (n_mm : m .mm = false)
    (n_hub : m .hub = false) (n_wire : m .wire = false) (n_time : m .time = false) {kt : State}
    (ke : execFrameVerdict frame s = .next kt) :
    Same m a kt := by
  unfold execFrameVerdict at ke
  refine Same.of_done ke ?_
  repeat' (with_reducible first | assumption | refine Same.ite ?_ ?_ | apply State.frameVerdict_same)

theorem State.egressFrameStart_same {m : Component → Bool} {a s : State} (h : Same m a s) (c : Nat)
    (n_fresh : m .fresh = false) (n_regs : m .regs = false) (n_mem : m .mem = false) (n_chk : m .chk = false)
    (n_mm : m .mm = false) (n_hub : m .hub = false) (n_wire : m .wire = false) (n_time : m .time = false) :
    Same m a (State.egressFrameStart s c) := by
  unfold State.egressFrameStart
  repeat' first
    | (with_reducible first
        | assumption | refine Same.ite ?_ ?_ | apply State.startForward_same | apply State.startRingFrame_same
        | apply State.startPtp_same | apply State.reap_same | apply State.startReply_same
        | apply State.dropReplies_same)
    | split

theorem execEgressFrameStart_same {m : Component → Bool} {a s : State} (h : Same m a s) (port : Fin 16)
    (n_fresh : m .fresh = false) (n_regs : m .regs = false) (n_mem : m .mem = false) (n_chk : m .chk = false)
    (n_mm : m .mm = false) (n_hub : m .hub = false) (n_wire : m .wire = false) (n_time : m .time = false)
    {kt : State} (ke : execEgressFrameStart port s = .next kt) :
    Same m a kt := by
  unfold execEgressFrameStart at ke
  refine Same.of_done ke ?_
  repeat' (with_reducible first | assumption | refine Same.ite ?_ ?_ | apply State.egressFrameStart_same)

theorem State.setLanes_same {m : Component → Bool} {a s : State} (h : Same m a s) (c : Nat) (lanes : Nat)
    (n_regs : m .regs = false) :
    Same m a (State.setLanes s c lanes) := by
  unfold State.setLanes
  repeat' (with_reducible first | assumption | refine Same.ite ?_ ?_ | apply State.setFld_same)

theorem State.halfDown_same {m : Component → Bool} {a s : State} (h : Same m a s) (c : Nat)
    (n_regs : m .regs = false) (n_hub : m .hub = false) (n_wire : m .wire = false) (n_time : m .time = false) :
    Same m a (State.halfDown s c) := by
  unfold State.halfDown
  repeat' first
    | (with_reducible first | assumption | refine Same.ite ?_ ?_)
    | (simp only [Same.mk_iff]; apply SameF.of; all_goals first
        | with_reducible exact Off.refl | exact Off.no (by assumption) | skip)
    | with_reducible apply State.failSource_same

theorem State.portTrainingDone_same {m : Component → Bool} {a s : State} (h : Same m a s) (c : Nat) (up : Bool)
    (lanes : Nat) (rx : Nat) (tx : Nat) (n_regs : m .regs = false) (n_hub : m .hub = false)
    (n_wire : m .wire = false) (n_time : m .time = false) :
    Same m a (State.portTrainingDone s c up lanes rx tx) := by
  unfold State.portTrainingDone
  repeat' first
    | (with_reducible first
        | assumption | refine Same.ite ?_ ?_ | apply State.setFld_same | apply State.setHalf_same
        | apply State.setLanes_same | apply State.halfDown_same)

theorem execPortTrainingDone_same {m : Component → Bool} {a s : State} (h : Same m a s) (port : Fin 16) (up : Bool)
    (lanes : BitVec 8) (rxLatency : Nat) (txLatency : Nat) (n_regs : m .regs = false) (n_hub : m .hub = false)
    (n_wire : m .wire = false) (n_time : m .time = false) {kt : State}
    (ke : execPortTrainingDone port up lanes rxLatency txLatency s = .next kt) :
    Same m a kt := by
  unfold execPortTrainingDone at ke
  refine Same.of_done ke ?_
  repeat' (with_reducible first | assumption | refine Same.ite ?_ ?_ | apply State.portTrainingDone_same)

end Sys2Proof.Machine
end

