-- ==== Sys2Proof/Laws/SameServing.lean ====
section
/-! SUPPORT. What the operations of Machine/Serving.lean leave alone (`Same`). -/

set_option linter.unusedSimpArgs false

namespace Sys2Proof.Machine

theorem State.setNts_same {m : Component → Bool} {a s : State} (h : Same m a s) (slot : Nat) (n : NtsState)
    (n_emb : m .emb = false) :
    Same m a (State.setNts s slot n) := by
  unfold State.setNts
  repeat' first
    | with_reducible assumption
    | (simp only [Same.mk_iff]; apply SameF.of; all_goals first
        | with_reducible exact Off.refl | exact Off.no (by assumption) | skip)

theorem State.meetExport_same {m : Component → Bool} {a s : State} (h : Same m a s) (n : NtsD) (t : TableD)
    (d : Nat) (c : Nat) (es : List MemError) (n_regs : m .regs = false) (n_cfg : m .cfg = false)
    (n_flt : m .flt = false) (n_chk : m .chk = false) (n_mm : m .mm = false) (n_hub : m .hub = false)
    (n_fleet : m .fleet = false) (n_emb : m .emb = false) :
    Same m a (State.meetExport s n t d c es) := by
  unfold State.meetExport
  repeat' first
    | (with_reducible first
        | assumption | apply State.meetReads_same | apply State.countRead_same | apply State.dropBadLines_same
        | refine Same.foldl ?_ fun kb ky hkb => ?_)

theorem State.writeRegion_same {m : Component → Bool} {a s : State} (h : Same m a s) (slot : Nat) (d : NtsD)
    (n_mem : m .mem = false) (n_mm : m .mm = false) (n_emb : m .emb = false) :
    Same m a (State.writeRegion s slot d) := by
  unfold State.writeRegion
  repeat' first
    | (with_reducible first
        | assumption | apply State.write_same | apply State.setNts_same | refine Same.foldl ?_ fun kb ky hkb => ?_)

theorem State.ntsExchange_same {m : Component → Bool} {a s : State} (h : Same m a s) (slot : Nat)
    (n_emb : m .emb = false) :
    Same m a (State.ntsExchange s slot) := by
  unfold State.ntsExchange
  repeat' (with_reducible first | assumption | refine Same.ite ?_ ?_ | apply State.setNts_same)

theorem State.exportComplete_same {m : Component → Bool} {a s : State} (h : Same m a s) (slot : Nat)
    (n_emb : m .emb = false) :
    Same m a (State.exportComplete s slot) := by
  unfold State.exportComplete
  repeat' first
    | (with_reducible first
        | assumption | refine Same.ite ?_ ?_ | apply State.setNts_same | apply State.ntsExchange_same)
    | split

theorem execExportComplete_same {m : Component → Bool} {a s : State} (h : Same m a s) (slot : Fin 64)
    (n_emb : m .emb = false) {kt : State} (ke : execExportComplete slot s = .next kt) :
    Same m a kt := by
  unfold execExportComplete at ke
  refine Same.of_done ke ?_
  repeat' (with_reducible first | assumption | refine Same.ite ?_ ?_ | apply State.exportComplete_same)

theorem State.startExport_same {m : Component → Bool} {a s : State} (h : Same m a s) (slot : Nat) (sd : NtsD)
    (d : Nat) (c : Nat) (cells : List (Nat × List Byte)) (n_mem : m .mem = false) (n_mm : m .mm = false)
    (n_emb : m .emb = false) :
    Same m a (State.startExport s slot sd d c cells) := by
  unfold State.startExport
  repeat' first
    | (with_reducible first
        | assumption | refine Same.ite ?_ ?_ | apply State.setNts_same | apply State.writeRegion_same
        | apply State.exportComplete_same)

theorem State.exportPoison_same {m : Component → Bool} {a s : State} (h : Same m a s) (slot : Nat) (sd : NtsD)
    (d : Nat) (c : Nat) (n_regs : m .regs = false) (n_cfg : m .cfg = false) (n_flt : m .flt = false)
    (n_chk : m .chk = false) (n_hub : m .hub = false) (n_fleet : m .fleet = false) :
    Same m a (State.exportPoison s slot sd d c) := by
  unfold State.exportPoison
  repeat' first
    | (with_reducible first | assumption | refine Same.ite ?_ ?_)
    | (lift_lets; intro kx; refine Same.step (m := m) (a := a) (x := kx) ?_ fun hkx => ?_)
    | (lift_lets; intro kx)
    | (simp only [Same.mk_iff]; apply SameF.of; all_goals first
        | with_reducible exact Off.refl | exact Off.no (by assumption) | skip)
    | (with_reducible first | apply State.bump_same | apply State.emit_same | apply State.stopStep_same)
    | (simp only [kx, Same.mk_iff]; apply SameF.of; all_goals first
        | with_reducible exact Off.refl | exact Off.no (by assumption) | skip)
    | (with_reducible first
        | refine Same.foldl ?_ fun kb ky hkb => ?_ | refine Same.foldl_snd ?_ fun kb ky hkb => ?_
        | refine Same.foldl_fst ?_ fun kb ky hkb => ?_)
    | split
    | (with_reducible first
        | refine Same.of_snd (by assumption) ?_ | refine Same.of_fst (by assumption) ?_
        | refine Same.of_third (by assumption) ?_)
    | dsimp only
    | unfold kx

theorem State.exportJob_same {m : Component → Bool} {a s : State} (h : Same m a s) (d : Nat) (c : Nat)
    (ecc : List MemError) (fault : Option PressFault) (n_fresh : m .fresh = false) (n_regs : m .regs = false)
    (n_mem : m .mem = false) (n_crossings : m .crossings = false) (n_cfg : m .cfg = false) (n_flt : m .flt = false)
    (n_chk : m .chk = false) (n_mm : m .mm = false) (n_hub : m .hub = false) (n_fleet : m .fleet = false)
    (n_emb : m .emb = false) :
    Same m a (State.exportJob s d c ecc fault) := by
  unfold State.exportJob
  repeat' first
    | (with_reducible first
        | assumption | first | refine fun kz kb hkz => ?_ | refine fun kz hkz => ?_ | refine Same.ite ?_ ?_)
    | (lift_lets; intro kx; refine Same.step (m := m) (a := a) (x := kx) ?_ fun hkx => ?_)
    | (lift_lets; intro kx)
    | (simp only [Same.mk_iff]; apply SameF.of; all_goals first
        | with_reducible exact Off.refl | exact Off.no (by assumption) | skip)
    | (with_reducible first
        | apply State.tickFree_same | apply State.bump_same | apply State.startJob_same | apply State.sendGroup_same
        | apply State.runPress_same | apply State.meetExport_same | apply State.startExport_same
        | apply State.exportPoison_same)
    | (simp only [kx, Same.mk_iff]; apply SameF.of; all_goals first
        | with_reducible exact Off.refl | exact Off.no (by assumption) | skip)
    | (with_reducible first
        | refine Same.foldl ?_ fun kb ky hkb => ?_ | refine Same.foldl_snd ?_ fun kb ky hkb => ?_
        | refine Same.foldl_fst ?_ fun kb ky hkb => ?_)
    | split
    | (with_reducible first
        | refine Same.of_snd (by assumption) ?_ | refine Same.of_fst (by assumption) ?_
        | refine Same.of_third (by assumption) ?_)
    | dsimp only
    | unfold kx
    | exact hkz

theorem execExportJob_same {m : Component → Bool} {a s : State} (h : Same m a s) (site : PressSite)
    (events : PressEvents) (n_fresh : m .fresh = false) (n_regs : m .regs = false) (n_mem : m .mem = false)
    (n_crossings : m .crossings = false) (n_cfg : m .cfg = false) (n_flt : m .flt = false) (n_chk : m .chk = false)
    (n_mm : m .mm = false) (n_hub : m .hub = false) (n_fleet : m .fleet = false) (n_emb : m .emb = false)
    {kt : State} (ke : execExportJob site events s = .next kt) :
    Same m a kt := by
  unfold execExportJob at ke
  refine Same.of_done ke ?_
  repeat' first
    | (with_reducible first | assumption | refine Same.ite ?_ ?_)
    | (lift_lets; intro kx; refine Same.step (m := m) (a := a) (x := kx) ?_ fun hkx => ?_)
    | (lift_lets; intro kx)
    | (simp only [Same.mk_iff]; apply SameF.of; all_goals first
        | with_reducible exact Off.refl | exact Off.no (by assumption) | skip)
    | with_reducible apply State.exportJob_same
    | (simp only [kx, Same.mk_iff]; apply SameF.of; all_goals first
        | with_reducible exact Off.refl | exact Off.no (by assumption) | skip)
    | (with_reducible first
        | refine Same.foldl ?_ fun kb ky hkb => ?_ | refine Same.foldl_snd ?_ fun kb ky hkb => ?_
        | refine Same.foldl_fst ?_ fun kb ky hkb => ?_)
    | split
    | (with_reducible first
        | refine Same.of_snd (by assumption) ?_ | refine Same.of_fst (by assumption) ?_
        | refine Same.of_third (by assumption) ?_)
    | dsimp only
    | unfold kx

theorem State.exportRegionWritable_same {m : Component → Bool} {a s : State} (h : Same m a s) (slot : Nat)
    (n_mem : m .mem = false) (n_mm : m .mm = false) (n_emb : m .emb = false) :
    Same m a (State.exportRegionWritable s slot) := by
  unfold State.exportRegionWritable
  repeat' first
    | (with_reducible first | assumption | refine Same.ite ?_ ?_ | apply State.writeRegion_same)
    | split

theorem execExportRegionWritable_same {m : Component → Bool} {a s : State} (h : Same m a s) (slot : Fin 64)
    (n_mem : m .mem = false) (n_mm : m .mm = false) (n_emb : m .emb = false) {kt : State}
    (ke : execExportRegionWritable slot s = .next kt) :
    Same m a kt := by
  unfold execExportRegionWritable at ke
  refine Same.of_done ke ?_
  repeat' (with_reducible first | assumption | refine Same.ite ?_ ?_ | apply State.exportRegionWritable_same)

theorem State.ntsRequest_same {m : Component → Bool} {a s : State} (h : Same m a s) (v : Word)
    (n_regs : m .regs = false) (n_emb : m .emb = false) :
    Same m a (State.ntsRequest s v) := by
  unfold State.ntsRequest
  repeat' first
    | (with_reducible first
        | assumption | refine Same.ite ?_ ?_ | apply State.setFld_same | apply State.ntsExchange_same)

theorem execNtsSwitch_same {m : Component → Bool} {a s : State} (h : Same m a s) (value : Word)
    (n_regs : m .regs = false) (n_emb : m .emb = false) {kt : State} (ke : execNtsSwitch value s = .next kt) :
    Same m a kt := by
  unfold execNtsSwitch at ke
  refine Same.of_done ke ?_
  repeat' first
    | with_reducible assumption
    | (lift_lets; intro kx)
    | (with_reducible first | apply State.onReady_same | apply State.ntsRequest_same)

theorem execNtsRevert_same {m : Component → Bool} {a s : State} (h : Same m a s) (value : Word)
    (n_regs : m .regs = false) (n_emb : m .emb = false) {kt : State} (ke : execNtsRevert value s = .next kt) :
    Same m a kt := by
  unfold execNtsRevert at ke
  refine Same.of_done ke ?_
  repeat' first
    | with_reducible assumption
    | (lift_lets; intro kx)
    | (with_reducible first | apply State.onReady_same | apply State.ntsRequest_same)

end Sys2Proof.Machine
end

