-- ==== Sys2Proof/Laws/SameImage.lean ====
section
/-! SUPPORT. What the operations of Machine/Image.lean leave alone (`Same`). -/

set_option linter.unusedSimpArgs false

namespace Sys2Proof.Machine

theorem State.withImage_same {m : Component → Bool} {a s : State} (h : Same m a s) (im : Image)
    (n_cfg : m .cfg = false) :
    Same m a (State.withImage s im) := by
  unfold State.withImage
  repeat' first
    | with_reducible assumption
    | (simp only [Same.mk_iff]; apply SameF.of; all_goals first
        | with_reducible exact Off.refl | exact Off.no (by assumption) | skip)

end Sys2Proof.Machine
end

