-- ==== Sys2Proof/Laws/SameLoad.lean ====
section
/-! SUPPORT. What the operations of Machine/Load.lean leave alone (`Same`). -/

set_option linter.unusedSimpArgs false

namespace Sys2Proof.Machine

theorem State.setLoadCtrl_same {m : Component → Bool} {a s : State} (h : Same m a s) (n : Nat)
    (n_regs : m .regs = false) :
    Same m a (State.setLoadCtrl s n) := by
  unfold State.setLoadCtrl
  repeat' (with_reducible first | assumption | refine Same.ite ?_ ?_ | apply State.setReg_same)

theorem State.setJob_same {m : Component → Bool} {a s : State} (h : Same m a s) (j : Option LoadJob)
    (n_cfg : m .cfg = false) :
    Same m a (State.setJob s j) := by
  unfold State.setJob
  repeat' first
    | with_reducible assumption
    | (simp only [Same.mk_iff]; apply SameF.of; all_goals first
        | with_reducible exact Off.refl | exact Off.no (by assumption) | skip)

theorem State.endLoad_same {m : Component → Bool} {a s : State} (h : Same m a s) (e : LoadErr)
    (n_regs : m .regs = false) (n_cfg : m .cfg = false) (n_hub : m .hub = false) :
    Same m a (State.endLoad s e) := by
  unfold State.endLoad
  repeat' first
    | (with_reducible first
        | assumption | refine Same.ite ?_ ?_ | apply State.setLoadCode_same | apply State.setBusy_same
        | apply State.setJob_same)

theorem State.setImage_same {m : Component → Bool} {a s : State} (h : Same m a s) (im : Option Image)
    (n_regs : m .regs = false) (n_cfg : m .cfg = false) :
    Same m a (State.setImage s im) := by
  unfold State.setImage
  repeat' first
    | (with_reducible first | assumption | refine Same.ite ?_ ?_)
    | (lift_lets; intro kx; refine Same.step (m := m) (a := a) (x := kx) ?_ fun hkx => ?_)
    | (lift_lets; intro kx)
    | (simp only [Same.mk_iff]; apply SameF.of; all_goals first
        | with_reducible exact Off.refl | exact Off.no (by assumption) | skip)
    | (with_reducible first | apply State.setReg_same | apply State.setFld_same)
    | (simp only [kx, Same.mk_iff]; apply SameF.of; all_goals first
        | with_reducible exact Off.refl | exact Off.no (by assumption) | skip)
    | (with_reducible first
        | refine Same.foldl ?_ fun kb ky hkb => ?_ | refine Same.foldl_snd ?_ fun kb ky hkb => ?_
        | refine Same.foldl_fst ?_ fun kb ky hkb => ?_)
    | split
    | (with_reducible first
        | refine Same.of_snd (by assumption) ?_ | refine Same.of_fst (by assumption) ?_
        | refine Same.of_third (by assumption) ?_)
    | dsimp only
    | unfold kx

theorem State.setBuffer_same {m : Component → Bool} {a s : State} (h : Same m a s) (b : Option (Nat × Nat))
    (n_cfg : m .cfg = false) :
    Same m a (State.setBuffer s b) := by
  unfold State.setBuffer
  repeat' first
    | with_reducible assumption
    | (simp only [Same.mk_iff]; apply SameF.of; all_goals first
        | with_reducible exact Off.refl | exact Off.no (by assumption) | skip)

theorem State.haltSlices_same {m : Component → Bool} {a s : State} (h : Same m a s) (n_regs : m .regs = false)
    (n_mem : m .mem = false) (n_chk : m .chk = false) (n_mm : m .mm = false) (n_hub : m .hub = false)
    (n_wire : m .wire = false) (n_time : m .time = false) :
    Same m a (State.haltSlices s) := by
  unfold State.haltSlices
  repeat' first
    | with_reducible assumption
    | (simp only [Same.mk_iff]; apply SameF.of; all_goals first
        | with_reducible exact Off.refl | exact Off.no (by assumption) | skip)
    | (with_reducible first | apply State.failEvaluation_same | refine Same.foldl ?_ fun kb ky hkb => ?_)
    | split

theorem State.switchModel_same {m : Component → Bool} {a s : State} (h : Same m a s) (mm : HubModel)
    (n_wire : m .wire = false) :
    Same m a (State.switchModel s mm) := by
  unfold State.switchModel
  repeat' first
    | with_reducible assumption
    | (simp only [Same.mk_iff]; apply SameF.of; all_goals first
        | with_reducible exact Off.refl | exact Off.no (by assumption) | skip)

theorem State.stopSlices_same {m : Component → Bool} {a s : State} (h : Same m a s) (n_regs : m .regs = false)
    (n_mem : m .mem = false) (n_chk : m .chk = false) (n_mm : m .mm = false) (n_hub : m .hub = false)
    (n_wire : m .wire = false) (n_time : m .time = false) :
    Same m a (State.stopSlices s) := by
  unfold State.stopSlices
  repeat' first
    | (with_reducible first
        | assumption | refine Same.ite ?_ ?_ | apply State.haltSlices_same | apply State.switchModel_same)

theorem State.clearJob_same {m : Component → Bool} {a s : State} (h : Same m a s)
    (n_crossings : m .crossings = false) (n_flt : m .flt = false) (n_chk : m .chk = false)
    (n_dense : m .dense = false) (n_emb : m .emb = false) :
    Same m a (State.clearJob s) := by
  unfold State.clearJob
  repeat' first
    | with_reducible assumption
    | (simp only [Same.mk_iff]; apply SameF.of; all_goals first
        | with_reducible exact Off.refl | exact Off.no (by assumption) | skip)

theorem State.unload_same {m : Component → Bool} {a s : State} (h : Same m a s) (n_regs : m .regs = false)
    (n_mem : m .mem = false) (n_crossings : m .crossings = false) (n_cfg : m .cfg = false) (n_flt : m .flt = false)
    (n_chk : m .chk = false) (n_mm : m .mm = false) (n_hub : m .hub = false) (n_dense : m .dense = false)
    (n_emb : m .emb = false) (n_wire : m .wire = false) (n_time : m .time = false) :
    Same m a (State.unload s) := by
  unfold State.unload
  repeat' first
    | (with_reducible first
        | assumption | refine Same.ite ?_ ?_ | apply State.setRun_same | apply State.setLoadState_same
        | apply State.setImage_same | apply State.setBuffer_same | apply State.stopSlices_same
        | apply State.clearJob_same)

theorem State.loadRequest_same {m : Component → Bool} {a s : State} (h : Same m a s) (op : LoadOp) (v : Word)
    (n_regs : m .regs = false) (n_mem : m .mem = false) (n_crossings : m .crossings = false)
    (n_cfg : m .cfg = false) (n_flt : m .flt = false) (n_chk : m .chk = false) (n_mm : m .mm = false)
    (n_hub : m .hub = false) (n_dense : m .dense = false) (n_emb : m .emb = false) (n_wire : m .wire = false)
    (n_time : m .time = false) :
    Same m a (State.loadRequest s op v) := by
  unfold State.loadRequest
  repeat' first
    | (with_reducible first | assumption | refine Same.ite ?_ ?_)
    | (lift_lets; intro kx)
    | (with_reducible first
        | apply State.onReady_same | apply State.setLoadState_same | apply State.setLoadCode_same
        | apply State.setBusy_same | apply State.setLoadCtrl_same | apply State.setJob_same | apply State.unload_same)

theorem execLoadFull_same {m : Component → Bool} {a s : State} (h : Same m a s) (value : Word)
    (n_regs : m .regs = false) (n_mem : m .mem = false) (n_crossings : m .crossings = false)
    (n_cfg : m .cfg = false) (n_flt : m .flt = false) (n_chk : m .chk = false) (n_mm : m .mm = false)
    (n_hub : m .hub = false) (n_dense : m .dense = false) (n_emb : m .emb = false) (n_wire : m .wire = false)
    (n_time : m .time = false) {kt : State} (ke : execLoadFull value s = .next kt) :
    Same m a kt := by
  unfold execLoadFull at ke
  refine Same.of_done ke ?_
  repeat' first
    | with_reducible assumption
    | (lift_lets; intro kx)
    | (with_reducible first | apply State.onSteward_same | apply State.loadRequest_same)

theorem execLoadPartial_same {m : Component → Bool} {a s : State} (h : Same m a s) (value : Word)
    (n_regs : m .regs = false) (n_mem : m .mem = false) (n_crossings : m .crossings = false)
    (n_cfg : m .cfg = false) (n_flt : m .flt = false) (n_chk : m .chk = false) (n_mm : m .mm = false)
    (n_hub : m .hub = false) (n_dense : m .dense = false) (n_emb : m .emb = false) (n_wire : m .wire = false)
    (n_time : m .time = false) {kt : State} (ke : execLoadPartial value s = .next kt) :
    Same m a kt := by
  unfold execLoadPartial at ke
  refine Same.of_done ke ?_
  repeat' first
    | with_reducible assumption
    | (lift_lets; intro kx)
    | (with_reducible first | apply State.onSteward_same | apply State.loadRequest_same)

theorem execLoadCheck_same {m : Component → Bool} {a s : State} (h : Same m a s) (value : Word)
    (n_regs : m .regs = false) (n_mem : m .mem = false) (n_crossings : m .crossings = false)
    (n_cfg : m .cfg = false) (n_flt : m .flt = false) (n_chk : m .chk = false) (n_mm : m .mm = false)
    (n_hub : m .hub = false) (n_dense : m .dense = false) (n_emb : m .emb = false) (n_wire : m .wire = false)
    (n_time : m .time = false) {kt : State} (ke : execLoadCheck value s = .next kt) :
    Same m a kt := by
  unfold execLoadCheck at ke
  refine Same.of_done ke ?_
  repeat' first
    | with_reducible assumption
    | (lift_lets; intro kx)
    | (with_reducible first | apply State.onSteward_same | apply State.loadRequest_same)

theorem execLoadUnload_same {m : Component → Bool} {a s : State} (h : Same m a s) (value : Word)
    (n_regs : m .regs = false) (n_mem : m .mem = false) (n_crossings : m .crossings = false)
    (n_cfg : m .cfg = false) (n_flt : m .flt = false) (n_chk : m .chk = false) (n_mm : m .mm = false)
    (n_hub : m .hub = false) (n_dense : m .dense = false) (n_emb : m .emb = false) (n_wire : m .wire = false)
    (n_time : m .time = false) {kt : State} (ke : execLoadUnload value s = .next kt) :
    Same m a kt := by
  unfold execLoadUnload at ke
  refine Same.of_done ke ?_
  repeat' first
    | with_reducible assumption
    | (lift_lets; intro kx)
    | (with_reducible first | apply State.onSteward_same | apply State.loadRequest_same)

theorem State.passFull_same {m : Component → Bool} {a s : State} (h : Same m a s) (j : LoadJob) (im : Image)
    (n_regs : m .regs = false) (n_cfg : m .cfg = false) (n_hub : m .hub = false) :
    Same m a (State.passFull s j im) := by
  unfold State.passFull
  repeat' first
    | (with_reducible first
        | assumption | apply State.setFld_same | apply State.setLoadCode_same | apply State.setJob_same
        | refine Same.foldl ?_ fun kb ky hkb => ?_)

theorem State.passPartial_same {m : Component → Bool} {a s : State} (h : Same m a s) (j : LoadJob) (im : Image)
    (n_regs : m .regs = false) (n_cfg : m .cfg = false) (n_hub : m .hub = false) (n_wire : m .wire = false) :
    Same m a (State.passPartial s j im) := by
  unfold State.passPartial
  repeat' first
    | (with_reducible first | assumption | refine Same.ite ?_ ?_)
    | (simp only [Same.mk_iff]; apply SameF.of; all_goals first
        | with_reducible exact Off.refl | exact Off.no (by assumption) | skip)
    | (with_reducible first | apply State.setFld_same | apply State.setLoadCode_same | apply State.setJob_same)

theorem State.loadCheckDone_same {m : Component → Bool} {a s : State} (h : Same m a s) (n_regs : m .regs = false)
    (n_cfg : m .cfg = false) (n_hub : m .hub = false) (n_wire : m .wire = false) :
    Same m a (State.loadCheckDone s) := by
  unfold State.loadCheckDone
  repeat' first
    | (with_reducible first
        | assumption | apply State.setLoadState_same | apply State.endLoad_same | apply State.passFull_same
        | apply State.passPartial_same)
    | split

theorem execLoadCheckDone_same {m : Component → Bool} {a s : State} (h : Same m a s) (n_regs : m .regs = false)
    (n_cfg : m .cfg = false) (n_hub : m .hub = false) (n_wire : m .wire = false) {kt : State}
    (ke : execLoadCheckDone s = .next kt) :
    Same m a kt := by
  unfold execLoadCheckDone at ke
  refine Same.of_done ke ?_
  repeat' first
    | with_reducible assumption
    | (lift_lets; intro kx)
    | (with_reducible first | apply State.onSteward_same | apply State.loadCheckDone_same)

theorem State.recordEpoch_same {m : Component → Bool} {a s : State} (h : Same m a s) (e : Nat) (us : List Nat)
    (n_cfg : m .cfg = false) :
    Same m a (State.recordEpoch s e us) := by
  unfold State.recordEpoch
  repeat' first
    | with_reducible assumption
    | (simp only [Same.mk_iff]; apply SameF.of; all_goals first
        | with_reducible exact Off.refl | exact Off.no (by assumption) | skip)

theorem State.recordAll_same {m : Component → Bool} {a s : State} (h : Same m a s) (e : Nat) (im : Image)
    (n_cfg : m .cfg = false) :
    Same m a (State.recordAll s e im) := by
  unfold State.recordAll
  repeat' first
    | with_reducible assumption
    | (simp only [Same.mk_iff]; apply SameF.of; all_goals first
        | with_reducible exact Off.refl | exact Off.no (by assumption) | skip)

theorem State.reloadEpoch_same {m : Component → Bool} {a s : State} (h : Same m a s) (j : LoadJob)
    (n_regs : m .regs = false) (n_cfg : m .cfg = false) :
    Same m a (State.reloadEpoch s j).2 := by
  unfold State.reloadEpoch
  repeat' first
    | (with_reducible first | assumption | apply State.setFld_same | apply State.setJob_same)
    | split

theorem State.scrubRange_same {m : Component → Bool} {a s : State} (h : Same m a s) (aa : Nat) (n : Nat)
    (n_mem : m .mem = false) (n_mm : m .mm = false) :
    Same m a (State.scrubRange s aa n) := by
  unfold State.scrubRange
  repeat' first
    | with_reducible assumption
    | (simp only [Same.mk_iff]; apply SameF.of; all_goals first
        | with_reducible exact Off.refl | exact Off.no (by assumption) | skip)

theorem State.scrubImage_same {m : Component → Bool} {a s : State} (h : Same m a s) (im : Image)
    (n_mem : m .mem = false) (n_mm : m .mm = false) :
    Same m a (State.scrubImage s im) := by
  unfold State.scrubImage
  repeat' (with_reducible first | assumption | apply State.scrubRange_same | refine Same.foldl ?_ fun kb ky hkb => ?_)

theorem State.copyInit_same {m : Component → Bool} {a s : State} (h : Same m a s) (xs : List Section)
    (n_mem : m .mem = false) (n_mm : m .mm = false) :
    Same m a (State.copyInit s xs) := by
  unfold State.copyInit
  repeat' (with_reducible first | assumption | apply State.write_same | refine Same.foldl ?_ fun kb ky hkb => ?_)

theorem State.loadFaultEnd_same {m : Component → Bool} {a s : State} (h : Same m a s) (op : LoadOp)
    (n_fresh : m .fresh = false) (n_regs : m .regs = false) (n_mem : m .mem = false)
    (n_crossings : m .crossings = false) (n_cfg : m .cfg = false) (n_flt : m .flt = false) (n_chk : m .chk = false)
    (n_mm : m .mm = false) (n_hub : m .hub = false) (n_dense : m .dense = false) (n_emb : m .emb = false)
    (n_wire : m .wire = false) (n_time : m .time = false) :
    Same m a (State.loadFaultEnd s op) := by
  unfold State.loadFaultEnd
  repeat' first
    | (with_reducible first
        | assumption | refine Same.ite ?_ ?_ | apply State.free_same | apply State.setFld_same
        | apply State.setRun_same | apply State.setLoadState_same | apply State.emit_same | apply State.endLoad_same
        | apply State.setImage_same | apply State.setBuffer_same | apply State.stopSlices_same
        | apply State.clearJob_same)

theorem State.loadDistribute_same {m : Component → Bool} {a s : State} (h : Same m a s) (hwFault : Bool)
    (n_fresh : m .fresh = false) (n_regs : m .regs = false) (n_mem : m .mem = false)
    (n_crossings : m .crossings = false) (n_cfg : m .cfg = false) (n_flt : m .flt = false) (n_chk : m .chk = false)
    (n_mm : m .mm = false) (n_hub : m .hub = false) (n_dense : m .dense = false) (n_emb : m .emb = false)
    (n_wire : m .wire = false) (n_time : m .time = false) :
    Same m a (State.loadDistribute s hwFault) := by
  unfold State.loadDistribute
  repeat' first
    | (with_reducible first
        | assumption | apply State.setLoadState_same | apply State.setJob_same | apply State.haltSlices_same
        | apply State.loadFaultEnd_same)
    | split

theorem execLoadDistribute_same {m : Component → Bool} {a s : State} (h : Same m a s) (hwFault : Bool)
    (n_fresh : m .fresh = false) (n_regs : m .regs = false) (n_mem : m .mem = false)
    (n_crossings : m .crossings = false) (n_cfg : m .cfg = false) (n_flt : m .flt = false) (n_chk : m .chk = false)
    (n_mm : m .mm = false) (n_hub : m .hub = false) (n_dense : m .dense = false) (n_emb : m .emb = false)
    (n_wire : m .wire = false) (n_time : m .time = false) {kt : State}
    (ke : execLoadDistribute hwFault s = .next kt) :
    Same m a kt := by
  unfold execLoadDistribute at ke
  refine Same.of_done ke ?_
  repeat' first
    | with_reducible assumption
    | (lift_lets; intro kx)
    | (with_reducible first | apply State.onSteward_same | apply State.loadDistribute_same)

theorem State.installFull_same {m : Component → Bool} {a s : State} (h : Same m a s) (im : Image)
    (n_regs : m .regs = false) (n_mem : m .mem = false) (n_crossings : m .crossings = false)
    (n_cfg : m .cfg = false) (n_flt : m .flt = false) (n_chk : m .chk = false) (n_mm : m .mm = false)
    (n_hub : m .hub = false) (n_dense : m .dense = false) (n_emb : m .emb = false) (n_wire : m .wire = false) :
    Same m a (State.installFull s im) := by
  unfold State.installFull
  repeat' first
    | (with_reducible first
        | assumption | apply State.setReg_same | apply State.setFld_same | apply State.setRun_same
        | apply State.setLoadState_same | apply State.setImage_same | apply State.setBuffer_same
        | apply State.switchModel_same | apply State.clearJob_same | apply State.recordAll_same
        | apply State.scrubImage_same | apply State.copyInit_same | refine Same.foldl ?_ fun kb ky hkb => ?_)

theorem State.loadDistributionDone_same {m : Component → Bool} {a s : State} (h : Same m a s) (hwFault : Bool)
    (n_fresh : m .fresh = false) (n_regs : m .regs = false) (n_mem : m .mem = false)
    (n_crossings : m .crossings = false) (n_cfg : m .cfg = false) (n_flt : m .flt = false) (n_chk : m .chk = false)
    (n_mm : m .mm = false) (n_hub : m .hub = false) (n_dense : m .dense = false) (n_emb : m .emb = false)
    (n_wire : m .wire = false) (n_time : m .time = false) :
    Same m a (State.loadDistributionDone s hwFault) := by
  unfold State.loadDistributionDone
  repeat' first
    | (with_reducible first
        | assumption | apply State.endLoad_same | apply State.loadFaultEnd_same | apply State.installFull_same)
    | split

theorem execLoadDistributionDone_same {m : Component → Bool} {a s : State} (h : Same m a s) (hwFault : Bool)
    (n_fresh : m .fresh = false) (n_regs : m .regs = false) (n_mem : m .mem = false)
    (n_crossings : m .crossings = false) (n_cfg : m .cfg = false) (n_flt : m .flt = false) (n_chk : m .chk = false)
    (n_mm : m .mm = false) (n_hub : m .hub = false) (n_dense : m .dense = false) (n_emb : m .emb = false)
    (n_wire : m .wire = false) (n_time : m .time = false) {kt : State}
    (ke : execLoadDistributionDone hwFault s = .next kt) :
    Same m a kt := by
  unfold execLoadDistributionDone at ke
  refine Same.of_done ke ?_
  repeat' first
    | with_reducible assumption
    | (lift_lets; intro kx)
    | (with_reducible first | apply State.onSteward_same | apply State.loadDistributionDone_same)

theorem State.finishReload_same {m : Component → Bool} {a s : State} (h : Same m a s) (j : LoadJob)
    (n_regs : m .regs = false) (n_cfg : m .cfg = false) :
    Same m a (State.finishReload s j) := by
  unfold State.finishReload
  repeat' first
    | (with_reducible first
        | assumption | apply State.setBusy_same | apply State.setJob_same | apply State.setImage_same
        | apply State.setBuffer_same)
    | split

theorem State.hubModelSwap_same {m : Component → Bool} {a s : State} (h : Same m a s) (n_regs : m .regs = false)
    (n_cfg : m .cfg = false) (n_wire : m .wire = false) :
    Same m a (State.hubModelSwap s) := by
  unfold State.hubModelSwap
  repeat' first
    | with_reducible assumption
    | (simp only [Same.mk_iff]; apply SameF.of; all_goals first
        | with_reducible exact Off.refl | exact Off.no (by assumption) | skip)
    | (with_reducible first
        | apply State.switchModel_same | apply State.recordEpoch_same | apply State.reloadEpoch_same
        | apply State.finishReload_same)
    | split

theorem execHubModelSwap_same {m : Component → Bool} {a s : State} (h : Same m a s) (n_regs : m .regs = false)
    (n_cfg : m .cfg = false) (n_wire : m .wire = false) {kt : State} (ke : execHubModelSwap s = .next kt) :
    Same m a kt := by
  unfold execHubModelSwap at ke
  refine Same.of_done ke ?_
  repeat' first
    | (with_reducible first | assumption | refine Same.ite ?_ ?_)
    | (lift_lets; intro kx; refine Same.step (m := m) (a := a) (x := kx) ?_ fun hkx => ?_)
    | (lift_lets; intro kx)
    | (simp only [Same.mk_iff]; apply SameF.of; all_goals first
        | with_reducible exact Off.refl | exact Off.no (by assumption) | skip)
    | (with_reducible first | apply State.onSteward_same | apply State.hubModelSwap_same)
    | (simp only [kx, Same.mk_iff]; apply SameF.of; all_goals first
        | with_reducible exact Off.refl | exact Off.no (by assumption) | skip)
    | (with_reducible first
        | refine Same.foldl ?_ fun kb ky hkb => ?_ | refine Same.foldl_snd ?_ fun kb ky hkb => ?_
        | refine Same.foldl_fst ?_ fun kb ky hkb => ?_)
    | split
    | (with_reducible first
        | refine Same.of_snd (by assumption) ?_ | refine Same.of_fst (by assumption) ?_
        | refine Same.of_third (by assumption) ?_)
    | dsimp only
    | unfold kx

theorem State.unpip_same {m : Component → Bool} {a s : State} (h : Same m a s) (f : Nat → Bool)
    (n_chk : m .chk = false) :
    Same m a (State.unpip s f) := by
  unfold State.unpip
  repeat' first
    | with_reducible assumption
    | (simp only [Same.mk_iff]; apply SameF.of; all_goals first
        | with_reducible exact Off.refl | exact Off.no (by assumption) | skip)

theorem State.dropPips_same {m : Component → Bool} {a s : State} (h : Same m a s) (aa : Nat) (n : Nat)
    (n_chk : m .chk = false) :
    Same m a (State.dropPips s aa n) := by
  unfold State.dropPips
  repeat' first
    | (with_reducible first | assumption | refine Same.ite ?_ ?_ | apply State.unpip_same)
    | exact hkz

theorem State.applyReload_same {m : Component → Bool} {a s : State} (h : Same m a s) (j : LoadJob) (im : Image)
    (old : Image) (n_regs : m .regs = false) (n_mem : m .mem = false) (n_cfg : m .cfg = false)
    (n_chk : m .chk = false) (n_mm : m .mm = false) :
    Same m a (State.applyReload s j im old) := by
  unfold State.applyReload
  repeat' first
    | (with_reducible first | assumption | refine Same.ite ?_ ?_)
    | (simp only [Same.mk_iff]; apply SameF.of; all_goals first
        | with_reducible exact Off.refl | exact Off.no (by assumption) | skip)
    | (with_reducible first
        | apply State.setFld_same | apply State.recordEpoch_same | apply State.reloadEpoch_same
        | apply State.copyInit_same | apply State.finishReload_same | apply State.dropPips_same
        | refine Same.foldl ?_ fun kb ky hkb => ?_)

theorem State.recordReload_same {m : Component → Bool} {a s : State} (h : Same m a s) (im : Image) (e : Nat)
    (u : Nat) (n_cfg : m .cfg = false) :
    Same m a (State.recordReload s im e u) := by
  unfold State.recordReload
  repeat' first
    | (with_reducible first | assumption | refine Same.ite ?_ ?_)
    | (lift_lets; intro kx; refine Same.step (m := m) (a := a) (x := kx) ?_ fun hkx => ?_)
    | (lift_lets; intro kx)
    | (simp only [Same.mk_iff]; apply SameF.of; all_goals first
        | with_reducible exact Off.refl | exact Off.no (by assumption) | skip)
    | with_reducible apply State.recordEpoch_same
    | (simp only [kx, Same.mk_iff]; apply SameF.of; all_goals first
        | with_reducible exact Off.refl | exact Off.no (by assumption) | skip)
    | (with_reducible first
        | refine Same.foldl ?_ fun kb ky hkb => ?_ | refine Same.foldl_snd ?_ fun kb ky hkb => ?_
        | refine Same.foldl_fst ?_ fun kb ky hkb => ?_)
    | split
    | (with_reducible first
        | refine Same.of_snd (by assumption) ?_ | refine Same.of_fst (by assumption) ?_
        | refine Same.of_third (by assumption) ?_)
    | dsimp only
    | unfold kx

theorem State.recoveryReload_same {m : Component → Bool} {a s : State} (h : Same m a s) (us : List Nat)
    (n_regs : m .regs = false) (n_cfg : m .cfg = false) :
    Same m a (State.recoveryReload s us).2 := by
  unfold State.recoveryReload
  repeat' first
    | (with_reducible first | assumption | refine Same.ite ?_ ?_)
    | (lift_lets; intro kx; refine Same.step (m := m) (a := a) (x := kx) ?_ fun hkx => ?_)
    | (lift_lets; intro kx)
    | (simp only [Same.mk_iff]; apply SameF.of; all_goals first
        | with_reducible exact Off.refl | exact Off.no (by assumption) | skip)
    | (with_reducible first | apply State.setFld_same | apply State.recordReload_same)
    | (simp only [kx, Same.mk_iff]; apply SameF.of; all_goals first
        | with_reducible exact Off.refl | exact Off.no (by assumption) | skip)
    | (with_reducible first
        | refine Same.foldl ?_ fun kb ky hkb => ?_ | refine Same.foldl_snd ?_ fun kb ky hkb => ?_
        | refine Same.foldl_fst ?_ fun kb ky hkb => ?_)
    | split
    | (with_reducible first
        | refine Same.of_snd (by assumption) ?_ | refine Same.of_fst (by assumption) ?_
        | refine Same.of_third (by assumption) ?_)
    | dsimp only
    | unfold kx

end Sys2Proof.Machine
end

