-- ==== Sys2Proof/Laws/SameSnapshot.lean ====
section
/-! SUPPORT. What the operations of Machine/Snapshot.lean leave alone (`Same`). -/

set_option linter.unusedSimpArgs false

namespace Sys2Proof.Machine

theorem State.setSnap_same {m : Component → Bool} {a s : State} (h : Same m a s) (j : Option SnapJob)
    (n_det : m .det = false) :
    Same m a (State.setSnap s j) := by
  unfold State.setSnap
  repeat' first
    | with_reducible assumption
    | (simp only [Same.mk_iff]; apply SameF.of; all_goals first
        | with_reducible exact Off.refl | exact Off.no (by assumption) | skip)

theorem State.snapCode_same {m : Component → Bool} {a s : State} (h : Same m a s) (code : Nat) (entry : Nat)
    (n_regs : m .regs = false) (n_hub : m .hub = false) :
    Same m a (State.snapCode s code entry) := by
  unfold State.snapCode
  repeat' first
    | (with_reducible first
        | assumption | refine Same.ite ?_ ?_ | apply State.setFld_same | apply State.raiseIrq_same)

theorem State.beginSave_same {m : Component → Bool} {a s : State} (h : Same m a s) (j : SnapJob)
    (n_regs : m .regs = false) (n_mem : m .mem = false) (n_chk : m .chk = false) (n_mm : m .mm = false)
    (n_det : m .det = false) :
    Same m a (State.beginSave s j) := by
  unfold State.beginSave
  repeat' first
    | (with_reducible first | assumption | refine Same.ite ?_ ?_)
    | (lift_lets; intro kx; refine Same.step (m := m) (a := a) (x := kx) ?_ fun hkx => ?_)
    | (lift_lets; intro kx)
    | (simp only [Same.mk_iff]; apply SameF.of; all_goals first
        | with_reducible exact Off.refl | exact Off.no (by assumption) | skip)
    | (with_reducible first
        | apply State.setFld_same | apply State.setBusy_same | apply State.guardedWrite_same
        | apply State.setSnap_same)
    | (simp only [kx, Same.mk_iff]; apply SameF.of; all_goals first
        | with_reducible exact Off.refl | exact Off.no (by assumption) | skip)
    | (with_reducible first
        | refine Same.foldl ?_ fun kb ky hkb => ?_ | refine Same.foldl_snd ?_ fun kb ky hkb => ?_
        | refine Same.foldl_fst ?_ fun kb ky hkb => ?_)
    | split
    | (with_reducible first
        | refine Same.of_snd (by assumption) ?_ | refine Same.of_fst (by assumption) ?_
        | refine Same.of_third (by assumption) ?_)
    | dsimp only
    | unfold kx
    | exact hkz

theorem State.copyReads_same {m : Component → Bool} {a s : State} (h : Same m a s) (src : List (Nat × Nat))
    (es : List MemError) (n_regs : m .regs = false) (n_cfg : m .cfg = false) (n_flt : m .flt = false)
    (n_chk : m .chk = false) (n_mm : m .mm = false) (n_hub : m .hub = false) (n_fleet : m .fleet = false) :
    Same m a (State.copyReads s src es) := by
  unfold State.copyReads
  repeat' first
    | (with_reducible first
        | assumption | refine Same.ite ?_ ?_ | apply State.stopStep_same | apply State.meetReads_same)

theorem State.snapSave_same {m : Component → Bool} {a s : State} (h : Same m a s) (v : Nat)
    (n_regs : m .regs = false) (n_mem : m .mem = false) (n_chk : m .chk = false) (n_mm : m .mm = false)
    (n_hub : m .hub = false) (n_det : m .det = false) :
    Same m a (State.snapSave s v) := by
  unfold State.snapSave
  repeat' first
    | (with_reducible first
        | assumption | refine Same.ite ?_ ?_ | apply State.setFld_same | apply State.setSnap_same
        | apply State.snapCode_same | apply State.beginSave_same)

theorem State.beginSnap_same {m : Component → Bool} {a s : State} (h : Same m a s) (j : SnapJob)
    (n_regs : m .regs = false) (n_det : m .det = false) :
    Same m a (State.beginSnap s j) := by
  unfold State.beginSnap
  repeat' first
    | (with_reducible first
        | assumption | refine Same.ite ?_ ?_ | apply State.setFld_same | apply State.setBusy_same
        | apply State.setSnap_same)

theorem State.snapRequest_same {m : Component → Bool} {a s : State} (h : Same m a s) (op : Nat) (v : Nat)
    (n_regs : m .regs = false) (n_mem : m .mem = false) (n_chk : m .chk = false) (n_mm : m .mm = false)
    (n_hub : m .hub = false) (n_det : m .det = false) :
    Same m a (State.snapRequest s op v) := by
  unfold State.snapRequest
  repeat' first
    | (with_reducible first
        | assumption | refine Same.ite ?_ ?_ | apply State.snapCode_same | apply State.snapSave_same
        | apply State.beginSnap_same)
    | split

theorem execSnapshotSave_same {m : Component → Bool} {a s : State} (h : Same m a s) (value : Word)
    (n_regs : m .regs = false) (n_mem : m .mem = false) (n_chk : m .chk = false) (n_mm : m .mm = false)
    (n_hub : m .hub = false) (n_det : m .det = false) {kt : State} (ke : execSnapshotSave value s = .next kt) :
    Same m a kt := by
  unfold execSnapshotSave at ke
  refine Same.of_done ke ?_
  repeat' first
    | with_reducible assumption
    | (lift_lets; intro kx)
    | (with_reducible first | apply State.onReady_same | apply State.onSteward_same | apply State.snapRequest_same)

theorem execSnapshotRestore_same {m : Component → Bool} {a s : State} (h : Same m a s) (value : Word)
    (n_regs : m .regs = false) (n_mem : m .mem = false) (n_chk : m .chk = false) (n_mm : m .mm = false)
    (n_hub : m .hub = false) (n_det : m .det = false) {kt : State} (ke : execSnapshotRestore value s = .next kt) :
    Same m a kt := by
  unfold execSnapshotRestore at ke
  refine Same.of_done ke ?_
  repeat' first
    | with_reducible assumption
    | (lift_lets; intro kx)
    | (with_reducible first | apply State.onReady_same | apply State.onSteward_same | apply State.snapRequest_same)

theorem execSnapshotCheck_same {m : Component → Bool} {a s : State} (h : Same m a s) (value : Word)
    (n_regs : m .regs = false) (n_mem : m .mem = false) (n_chk : m .chk = false) (n_mm : m .mm = false)
    (n_hub : m .hub = false) (n_det : m .det = false) {kt : State} (ke : execSnapshotCheck value s = .next kt) :
    Same m a kt := by
  unfold execSnapshotCheck at ke
  refine Same.of_done ke ?_
  repeat' first
    | with_reducible assumption
    | (lift_lets; intro kx)
    | (with_reducible first | apply State.onReady_same | apply State.onSteward_same | apply State.snapRequest_same)

theorem State.setStep_same {m : Component → Bool} {a s : State} (h : Same m a s) (k : Nat)
    (n_regs : m .regs = false) :
    Same m a (State.setStep s k) := by
  unfold State.setStep
  repeat' (with_reducible first | assumption | refine Same.ite ?_ ?_ | apply State.setReg_same)

theorem State.dropTables_same {m : Component → Bool} {a s : State} (h : Same m a s) (n_emb : m .emb = false) :
    Same m a (State.dropTables s) := by
  unfold State.dropTables
  repeat' first
    | with_reducible assumption
    | (simp only [Same.mk_iff]; apply SameF.of; all_goals first
        | with_reducible exact Off.refl | exact Off.no (by assumption) | skip)

theorem State.restoreBytes_same {m : Component → Bool} {a s : State} (h : Same m a s) (aa : Nat)
    (n_regs : m .regs = false) (n_mem : m .mem = false) (n_chk : m .chk = false) (n_mm : m .mm = false) :
    Same m a (State.restoreBytes s aa) := by
  unfold State.restoreBytes
  repeat' first
    | (with_reducible first | assumption | refine Same.ite ?_ ?_)
    | (lift_lets; intro kx; refine Same.step (m := m) (a := a) (x := kx) ?_ fun hkx => ?_)
    | (lift_lets; intro kx)
    | (simp only [Same.mk_iff]; apply SameF.of; all_goals first
        | with_reducible exact Off.refl | exact Off.no (by assumption) | skip)
    | (with_reducible first | apply State.write_same | apply State.clearBank_same)
    | (simp only [kx, Same.mk_iff]; apply SameF.of; all_goals first
        | with_reducible exact Off.refl | exact Off.no (by assumption) | skip)
    | (with_reducible first
        | refine Same.foldl ?_ fun kb ky hkb => ?_ | refine Same.foldl_snd ?_ fun kb ky hkb => ?_
        | refine Same.foldl_fst ?_ fun kb ky hkb => ?_)
    | split
    | (with_reducible first
        | refine Same.of_snd (by assumption) ?_ | refine Same.of_fst (by assumption) ?_
        | refine Same.of_third (by assumption) ?_)
    | dsimp only
    | unfold kx

theorem State.restoreRun_same {m : Component → Bool} {a s : State} (h : Same m a s) (banks : Tab Bank) (step : Nat)
    (n_regs : m .regs = false) (n_cfg : m .cfg = false) (n_chk : m .chk = false) (n_dense : m .dense = false)
    (n_emb : m .emb = false) :
    Same m a (State.restoreRun s banks step) := by
  unfold State.restoreRun
  repeat' first
    | (with_reducible first | assumption | refine Same.ite ?_ ?_)
    | (lift_lets; intro kx; refine Same.step (m := m) (a := a) (x := kx) ?_ fun hkx => ?_)
    | (lift_lets; intro kx)
    | (simp only [Same.mk_iff]; apply SameF.of; all_goals first
        | with_reducible exact Off.refl | exact Off.no (by assumption) | skip)
    | (with_reducible first
        | apply State.setFld_same | apply State.setRun_same | apply State.seamLive_same | apply State.unpip_same
        | apply State.setStep_same | apply State.dropTables_same)
    | (simp only [kx, Same.mk_iff]; apply SameF.of; all_goals first
        | with_reducible exact Off.refl | exact Off.no (by assumption) | skip)
    | (with_reducible first
        | refine Same.foldl ?_ fun kb ky hkb => ?_ | refine Same.foldl_snd ?_ fun kb ky hkb => ?_
        | refine Same.foldl_fst ?_ fun kb ky hkb => ?_)
    | split
    | (with_reducible first
        | refine Same.of_snd (by assumption) ?_ | refine Same.of_fst (by assumption) ?_
        | refine Same.of_third (by assumption) ?_)
    | dsimp only
    | unfold kx

theorem State.restoreCopies_same {m : Component → Bool} {a s : State} (h : Same m a s) (step : Nat)
    (n_regs : m .regs = false) (n_flt : m .flt = false) :
    Same m a (State.restoreCopies s step) := by
  unfold State.restoreCopies
  repeat' first
    | (with_reducible first | assumption | refine Same.ite ?_ ?_)
    | (simp only [Same.mk_iff]; apply SameF.of; all_goals first
        | with_reducible exact Off.refl | exact Off.no (by assumption) | skip)
    | with_reducible apply State.setReg_same

theorem State.restoreSnap_same {m : Component → Bool} {a s : State} (h : Same m a s) (aa : Nat)
    (n_regs : m .regs = false) (n_mem : m .mem = false) (n_cfg : m .cfg = false) (n_flt : m .flt = false)
    (n_chk : m .chk = false) (n_mm : m .mm = false) (n_dense : m .dense = false) (n_emb : m .emb = false) :
    Same m a (State.restoreSnap s aa) := by
  unfold State.restoreSnap
  repeat' first
    | (with_reducible first
        | assumption | refine Same.ite ?_ ?_ | apply State.bump_same | apply State.restoreBytes_same
        | apply State.restoreRun_same | apply State.restoreCopies_same)

theorem State.cutRestore_same {m : Component → Bool} {a s : State} (h : Same m a s) (aa : Nat)
    (n_fresh : m .fresh = false) (n_mem : m .mem = false) (n_cfg : m .cfg = false) (n_mm : m .mm = false) :
    Same m a (State.cutRestore s aa) := by
  unfold State.cutRestore
  repeat' first
    | (with_reducible first
        | assumption | refine Same.ite ?_ ?_ | apply State.writeFree_same | apply State.setRun_same
        | refine Same.foldl ?_ fun kb ky hkb => ?_)

theorem State.endSnap_same {m : Component → Bool} {a s : State} (h : Same m a s) (code : Nat)
    (n_regs : m .regs = false) (n_hub : m .hub = false) (n_det : m .det = false) :
    Same m a (State.endSnap s code) := by
  unfold State.endSnap
  repeat' first
    | (with_reducible first
        | assumption | refine Same.ite ?_ ?_ | apply State.setFld_same | apply State.setBusy_same
        | apply State.setSnap_same | apply State.snapCode_same)

end Sys2Proof.Machine
end

