-- ==== Sys2Proof/Laws/SameTime.lean ====
section
/-! SUPPORT. What the operations of Machine/Time.lean leave alone (`Same`). -/

set_option linter.unusedSimpArgs false

namespace Sys2Proof.Machine

theorem State.setMissed_same {m : Component → Bool} {a s : State} (h : Same m a s) (i : Nat)
    (n_regs : m .regs = false) (n_hub : m .hub = false) :
    Same m a (State.setMissed s i) := by
  unfold State.setMissed
  repeat' first
    | (with_reducible first
        | assumption | refine Same.ite ?_ ?_ | apply State.setFld_same | apply State.raiseIrq_same)

theorem State.setPulseNext_same {m : Component → Bool} {a s : State} (h : Same m a s) (i : Nat) (e : Option Nat)
    (n_time : m .time = false) :
    Same m a (State.setPulseNext s i e) := by
  unfold State.setPulseNext
  repeat' (with_reducible first | assumption | refine Same.ite ?_ ?_ | apply State.setTime_same)

theorem State.skipEdges_same {m : Component → Bool} {a s : State} (h : Same m a s) (i : Nat)
    (n_regs : m .regs = false) (n_hub : m .hub = false) (n_time : m .time = false) :
    Same m a (State.skipEdges s i) := by
  unfold State.skipEdges
  repeat' first
    | (with_reducible first | assumption | apply State.setMissed_same | apply State.setPulseNext_same)
    | split

theorem State.drivePulse_same {m : Component → Bool} {a s : State} (h : Same m a s) (i : Nat) (high : Bool)
    (n_regs : m .regs = false) (n_time : m .time = false) :
    Same m a (State.drivePulse s i high) := by
  unfold State.drivePulse
  repeat' (with_reducible first | assumption | refine Same.ite ?_ ?_ | apply State.setFld_same | apply State.setTime_same)

theorem State.armPulse_same {m : Component → Bool} {a s : State} (h : Same m a s) (i : Nat)
    (n_regs : m .regs = false) (n_hub : m .hub = false) (n_time : m .time = false) :
    Same m a (State.armPulse s i) := by
  unfold State.armPulse
  repeat' first
    | (with_reducible first
        | assumption | apply State.setTime_same | apply State.setMissed_same | apply State.setPulseNext_same
        | apply State.drivePulse_same)
    | split
    | dsimp only

theorem State.pulseEdge_same {m : Component → Bool} {a s : State} (h : Same m a s) (i : Nat)
    (n_regs : m .regs = false) (n_time : m .time = false) :
    Same m a (State.pulseEdge s i) := by
  unfold State.pulseEdge
  repeat' first
    | (with_reducible first
        | assumption | apply State.setFld_same | apply State.setTime_same | apply State.setPulseNext_same
        | apply State.drivePulse_same)
    | split

theorem execPulseEdge_same {m : Component → Bool} {a s : State} (h : Same m a s) (output : Fin 4)
    (n_regs : m .regs = false) (n_time : m .time = false) {kt : State} (ke : execPulseEdge output s = .next kt) :
    Same m a kt := by
  unfold execPulseEdge at ke
  refine Same.of_done ke ?_
  repeat' (with_reducible first | assumption | refine Same.ite ?_ ?_ | apply State.pulseEdge_same)

theorem State.pulseEnd_same {m : Component → Bool} {a s : State} (h : Same m a s) (i : Nat)
    (n_regs : m .regs = false) (n_time : m .time = false) :
    Same m a (State.pulseEnd s i) := by
  unfold State.pulseEnd
  repeat' first
    | (with_reducible first | assumption | apply State.setTime_same | apply State.drivePulse_same)
    | split

theorem execPulseEnd_same {m : Component → Bool} {a s : State} (h : Same m a s) (output : Fin 4)
    (n_regs : m .regs = false) (n_time : m .time = false) {kt : State} (ke : execPulseEnd output s = .next kt) :
    Same m a kt := by
  unfold execPulseEnd at ke
  refine Same.of_done ke ?_
  repeat' (with_reducible first | assumption | refine Same.ite ?_ ?_ | apply State.pulseEnd_same)

theorem State.setClock_same {m : Component → Bool} {a s : State} (h : Same m a s) (sec : Nat) (ns : Nat)
    (n_regs : m .regs = false) (n_hub : m .hub = false) (n_clock : m .clock = false) (n_time : m .time = false) :
    Same m a (State.setClock s sec ns) := by
  unfold State.setClock
  repeat' first
    | with_reducible assumption
    | (simp only [Same.mk_iff]; apply SameF.of; all_goals first
        | with_reducible exact Off.refl | exact Off.no (by assumption) | skip)
    | (with_reducible first
        | apply State.setTime_same | apply State.skipEdges_same | refine Same.foldl ?_ fun kb ky hkb => ?_)

theorem State.setClockNs_same {m : Component → Bool} {a s : State} (h : Same m a s) (g : Nat)
    (n_regs : m .regs = false) (n_hub : m .hub = false) (n_clock : m .clock = false) (n_time : m .time = false) :
    Same m a (State.setClockNs s g) := by
  unfold State.setClockNs
  repeat' (with_reducible first | assumption | refine Same.ite ?_ ?_ | apply State.setClock_same)

theorem State.setTimeReq_same {m : Component → Bool} {a s : State} (h : Same m a s) (r : Option TimeReq)
    (n_time : m .time = false) :
    Same m a (State.setTimeReq s r) := by
  unfold State.setTimeReq
  repeat' (with_reducible first | assumption | refine Same.ite ?_ ?_ | apply State.setTime_same)

theorem State.timeStep_same {m : Component → Bool} {a s : State} (h : Same m a s) (v : Word)
    (n_time : m .time = false) :
    Same m a (State.timeStep s v) := by
  unfold State.timeStep
  repeat' (with_reducible first | assumption | refine Same.ite ?_ ?_ | apply State.setTimeReq_same)

theorem execTimeStep_same {m : Component → Bool} {a s : State} (h : Same m a s) (value : Word)
    (n_time : m .time = false) {kt : State} (ke : execTimeStep value s = .next kt) :
    Same m a kt := by
  unfold execTimeStep at ke
  refine Same.of_done ke ?_
  repeat' first
    | with_reducible assumption
    | (lift_lets; intro kx)
    | (with_reducible first | apply State.onReady_same | apply State.timeStep_same)

theorem State.timeSet_same {m : Component → Bool} {a s : State} (h : Same m a s) (v : Word)
    (n_regs : m .regs = false) (n_time : m .time = false) :
    Same m a (State.timeSet s v) := by
  unfold State.timeSet
  repeat' first
    | (with_reducible first
        | assumption | refine Same.ite ?_ ?_ | apply State.setFld_same | apply State.setTimeReq_same)

theorem execTimeSet_same {m : Component → Bool} {a s : State} (h : Same m a s) (value : Word)
    (n_regs : m .regs = false) (n_time : m .time = false) {kt : State} (ke : execTimeSet value s = .next kt) :
    Same m a kt := by
  unfold execTimeSet at ke
  refine Same.of_done ke ?_
  repeat' first
    | with_reducible assumption
    | (lift_lets; intro kx)
    | (with_reducible first | apply State.onReady_same | apply State.timeSet_same)

theorem State.applyReq_same {m : Component → Bool} {a s : State} (h : Same m a s) (r : TimeReq)
    (n_regs : m .regs = false) (n_hub : m .hub = false) (n_clock : m .clock = false) (n_time : m .time = false) :
    Same m a (State.applyReq s r) := by
  unfold State.applyReq
  repeat' first
    | (with_reducible first
        | assumption | refine Same.ite ?_ ?_ | apply State.setFld_same | apply State.bump_same
        | apply State.setClock_same | apply State.setClockNs_same | apply State.setTimeReq_same)
    | split

theorem State.timeAdjustApply_same {m : Component → Bool} {a s : State} (h : Same m a s) (n_regs : m .regs = false)
    (n_hub : m .hub = false) (n_clock : m .clock = false) (n_time : m .time = false) :
    Same m a (State.timeAdjustApply s) := by
  unfold State.timeAdjustApply
  repeat' first
    | (with_reducible first | assumption | apply State.applyReq_same)
    | split

theorem execTimeAdjustApply_same {m : Component → Bool} {a s : State} (h : Same m a s) (n_regs : m .regs = false)
    (n_hub : m .hub = false) (n_clock : m .clock = false) (n_time : m .time = false) {kt : State}
    (ke : execTimeAdjustApply s = .next kt) :
    Same m a kt := by
  unfold execTimeAdjustApply at ke
  refine Same.of_done ke ?_
  repeat' (with_reducible first | assumption | refine Same.ite ?_ ?_ | apply State.timeAdjustApply_same)

theorem State.todNsRead_same {m : Component → Bool} {a s : State} (h : Same m a s) (n_regs : m .regs = false)
    (n_response : m .response = false) :
    Same m a (State.todNsRead s) := by
  unfold State.todNsRead
  repeat' (with_reducible first | assumption | refine Same.ite ?_ ?_ | apply State.setFld_same | apply State.respond_same)

theorem execTodNsRead_same {m : Component → Bool} {a s : State} (h : Same m a s) (n_regs : m .regs = false)
    (n_response : m .response = false) {kt : State} (ke : execTodNsRead s = .next kt) :
    Same m a kt := by
  unfold execTodNsRead at ke
  refine Same.of_done ke ?_
  repeat' (with_reducible first | assumption | refine Same.ite ?_ ?_ | apply State.todNsRead_same)

theorem State.setRate_same {m : Component → Bool} {a s : State} (h : Same m a s) (v : Nat)
    (n_regs : m .regs = false) :
    Same m a (State.setRate s v) := by
  unfold State.setRate
  repeat' (with_reducible first | assumption | refine Same.ite ?_ ?_ | apply State.setFld_same)

theorem State.rateWrite_same {m : Component → Bool} {a s : State} (h : Same m a s) (v : Word)
    (n_regs : m .regs = false) :
    Same m a (State.rateWrite s v) := by
  unfold State.rateWrite
  repeat' (with_reducible first | assumption | refine Same.ite ?_ ?_ | apply State.setRate_same)

theorem execRateWrite_same {m : Component → Bool} {a s : State} (h : Same m a s) (value : Word)
    (n_regs : m .regs = false) {kt : State} (ke : execRateWrite value s = .next kt) :
    Same m a kt := by
  unfold execRateWrite at ke
  refine Same.of_done ke ?_
  repeat' first
    | with_reducible assumption
    | (lift_lets; intro kx)
    | (with_reducible first | apply State.onReady_same | apply State.rateWrite_same)

theorem State.sourceChanged_same {m : Component → Bool} {a s : State} (h : Same m a s) (n_regs : m .regs = false)
    (n_hub : m .hub = false) (n_time : m .time = false) :
    Same m a (State.sourceChanged s) := by
  unfold State.sourceChanged
  repeat' first
    | (with_reducible first
        | assumption | refine Same.ite ?_ ?_ | apply State.setFld_same | apply State.setTime_same
        | apply State.setServo_same)

theorem execSourceFailed_same {m : Component → Bool} {a s : State} (h : Same m a s) (n_regs : m .regs = false)
    (n_hub : m .hub = false) (n_time : m .time = false) {kt : State} (ke : execSourceFailed s = .next kt) :
    Same m a kt := by
  unfold execSourceFailed at ke
  refine Same.of_done ke ?_
  repeat' (with_reducible first | assumption | refine Same.ite ?_ ?_ | apply State.failSource_same)

theorem State.lockedError_same {m : Component → Bool} {a s : State} (h : Same m a s) (n_regs : m .regs = false)
    (n_time : m .time = false) :
    Same m a (State.lockedError s) := by
  unfold State.lockedError
  repeat' (with_reducible first | assumption | refine Same.ite ?_ ?_ | apply State.setFld_same | apply State.setTime_same)

theorem State.noteError_same {m : Component → Bool} {a s : State} (h : Same m a s) (size : Nat)
    (n_fresh : m .fresh = false) (n_regs : m .regs = false) (n_time : m .time = false) :
    Same m a (State.noteError s size) := by
  unfold State.noteError
  repeat' first
    | (with_reducible first
        | assumption | refine Same.ite ?_ ?_ | apply State.free_same | apply State.setFld_same
        | apply State.setTime_same | apply State.lockedError_same)

theorem State.servoRate_same {m : Component → Bool} {a s : State} (h : Same m a s) (r : ServoRate)
    (n_regs : m .regs = false) (n_time : m .time = false) :
    Same m a (State.servoRate s r) := by
  unfold State.servoRate
  repeat' first
    | (with_reducible first
        | assumption | refine Same.ite ?_ ?_ | apply State.setTime_same | apply State.setRate_same)

theorem State.measure_same {m : Component → Bool} {a s : State} (h : Same m a s) (off : Int) (r : ServoRate)
    (n_fresh : m .fresh = false) (n_regs : m .regs = false) (n_hub : m .hub = false) (n_clock : m .clock = false)
    (n_time : m .time = false) :
    Same m a (State.measure s off r) := by
  unfold State.measure
  repeat' first
    | (with_reducible first
        | assumption | refine Same.ite ?_ ?_ | apply State.setFld_same | apply State.bump_same
        | apply State.setTime_same | apply State.setServo_same | apply State.failSource_same
        | apply State.setClockNs_same | apply State.noteError_same | apply State.servoRate_same)
    | split

theorem State.ppsInputEdge_same {m : Component → Bool} {a s : State} (h : Same m a s) (tenMHzOk : Bool)
    (r : ServoRate) (n_fresh : m .fresh = false) (n_regs : m .regs = false) (n_hub : m .hub = false)
    (n_clock : m .clock = false) (n_time : m .time = false) :
    Same m a (State.ppsInputEdge s tenMHzOk r) := by
  unfold State.ppsInputEdge
  repeat' first
    | (with_reducible first
        | assumption | refine Same.ite ?_ ?_ | apply State.setFld_same | apply State.setTime_same
        | apply State.failSource_same | apply State.applyReq_same | apply State.measure_same)
    | split

theorem execPpsInputEdge_same {m : Component → Bool} {a s : State} (h : Same m a s) (tenMHzOk : Bool)
    (rate : ServoRate) (n_fresh : m .fresh = false) (n_regs : m .regs = false) (n_hub : m .hub = false)
    (n_clock : m .clock = false) (n_time : m .time = false) {kt : State}
    (ke : execPpsInputEdge tenMHzOk rate s = .next kt) :
    Same m a kt := by
  unfold execPpsInputEdge at ke
  refine Same.of_done ke ?_
  repeat' (with_reducible first | assumption | refine Same.ite ?_ ?_ | apply State.ppsInputEdge_same)

theorem State.setObcTime_same {m : Component → Bool} {a s : State} (h : Same m a s) (l : Nat) (o : ObcTime)
    (n_time : m .time = false) :
    Same m a (State.setObcTime s l o) := by
  unfold State.setObcTime
  repeat' (with_reducible first | assumption | refine Same.ite ?_ ?_ | apply State.setTime_same)

theorem State.sendTimeFlit_same {m : Component → Bool} {a s : State} (h : Same m a s) (l : Nat)
    (n_regs : m .regs = false) (n_hub : m .hub = false) (n_time : m .time = false) :
    Same m a (State.sendTimeFlit s l) := by
  unfold State.sendTimeFlit
  repeat' first
    | (with_reducible first | assumption | refine Same.ite ?_ ?_)
    | (lift_lets; intro kx; refine Same.step (m := m) (a := a) (x := kx) ?_ fun hkx => ?_)
    | (lift_lets; intro kx)
    | (simp only [Same.mk_iff]; apply SameF.of; all_goals first
        | with_reducible exact Off.refl | exact Off.no (by assumption) | skip)
    | (with_reducible first | apply State.flitOut_same | apply State.setObcTime_same)
    | (simp only [kx, Same.mk_iff]; apply SameF.of; all_goals first
        | with_reducible exact Off.refl | exact Off.no (by assumption) | skip)
    | (with_reducible first
        | refine Same.foldl ?_ fun kb ky hkb => ?_ | refine Same.foldl_snd ?_ fun kb ky hkb => ?_
        | refine Same.foldl_fst ?_ fun kb ky hkb => ?_)
    | split
    | (with_reducible first
        | refine Same.of_snd (by assumption) ?_ | refine Same.of_fst (by assumption) ?_
        | refine Same.of_third (by assumption) ?_)
    | dsimp only
    | unfold kx

theorem State.takeTimeFlit_same {m : Component → Bool} {a s : State} (h : Same m a s) (l : Nat) (locked : Bool)
    (x : TimeFlit) (r : ServoRate) (n_fresh : m .fresh = false) (n_regs : m .regs = false) (n_hub : m .hub = false)
    (n_clock : m .clock = false) (n_time : m .time = false) :
    Same m a (State.takeTimeFlit s l locked x r) := by
  unfold State.takeTimeFlit
  repeat' first
    | (with_reducible first
        | assumption | refine Same.ite ?_ ?_ | apply State.failSource_same | apply State.measure_same
        | apply State.setObcTime_same)

theorem State.obcorTimeExchange_same {m : Component → Bool} {a s : State} (h : Same m a s) (l : Nat)
    (replayed : Bool) (locked : Bool) (x : TimeFlit) (r : ServoRate) (n_fresh : m .fresh = false)
    (n_regs : m .regs = false) (n_hub : m .hub = false) (n_clock : m .clock = false) (n_time : m .time = false) :
    Same m a (State.obcorTimeExchange s l replayed locked x r) := by
  unfold State.obcorTimeExchange
  repeat' first
    | (with_reducible first
        | assumption | refine Same.ite ?_ ?_ | apply State.bump_same | apply State.failSource_same
        | apply State.sendTimeFlit_same | apply State.takeTimeFlit_same)

theorem execObcorTimeExchange_same {m : Component → Bool} {a s : State} (h : Same m a s) (link : Fin 16)
    (replayed : Bool) (exchange : TimeExchange) (rate : ServoRate) (n_fresh : m .fresh = false)
    (n_regs : m .regs = false) (n_hub : m .hub = false) (n_clock : m .clock = false) (n_time : m .time = false)
    {kt : State} (ke : execObcorTimeExchange link replayed exchange rate s = .next kt) :
    Same m a kt := by
  unfold execObcorTimeExchange at ke
  refine Same.of_done ke ?_
  repeat' first
    | (with_reducible first | assumption | refine Same.ite ?_ ?_)
    | (lift_lets; intro kx; refine Same.step (m := m) (a := a) (x := kx) ?_ fun hkx => ?_)
    | (lift_lets; intro kx)
    | (simp only [Same.mk_iff]; apply SameF.of; all_goals first
        | with_reducible exact Off.refl | exact Off.no (by assumption) | skip)
    | with_reducible apply State.obcorTimeExchange_same
    | (simp only [kx, Same.mk_iff]; apply SameF.of; all_goals first
        | with_reducible exact Off.refl | exact Off.no (by assumption) | skip)
    | (with_reducible first
        | refine Same.foldl ?_ fun kb ky hkb => ?_ | refine Same.foldl_snd ?_ fun kb ky hkb => ?_
        | refine Same.foldl_fst ?_ fun kb ky hkb => ?_)
    | split
    | (with_reducible first
        | refine Same.of_snd (by assumption) ?_ | refine Same.of_fst (by assumption) ?_
        | refine Same.of_third (by assumption) ?_)
    | dsimp only
    | unfold kx

theorem State.ptpAnswer_same {m : Component → Bool} {a s : State} (h : Same m a s) (x : PtpIn)
    (n_wire : m .wire = false) :
    Same m a (State.ptpAnswer s x) := by
  unfold State.ptpAnswer
  repeat' first
    | (with_reducible first | assumption | refine Same.ite ?_ ?_ | apply State.sendPtp_same)
    | split

theorem State.heardPtp_same {m : Component → Bool} {a s : State} (h : Same m a s) (x : PtpIn)
    (n_time : m .time = false) :
    Same m a (State.heardPtp s x) := by
  unfold State.heardPtp
  repeat' first
    | (with_reducible first | assumption | refine Same.ite ?_ ?_)
    | (lift_lets; intro kx; refine Same.step (m := m) (a := a) (x := kx) ?_ fun hkx => ?_)
    | (lift_lets; intro kx)
    | (simp only [Same.mk_iff]; apply SameF.of; all_goals first
        | with_reducible exact Off.refl | exact Off.no (by assumption) | skip)
    | with_reducible apply State.setTime_same
    | (simp only [kx, Same.mk_iff]; apply SameF.of; all_goals first
        | with_reducible exact Off.refl | exact Off.no (by assumption) | skip)
    | (with_reducible first
        | refine Same.foldl ?_ fun kb ky hkb => ?_ | refine Same.foldl_snd ?_ fun kb ky hkb => ?_
        | refine Same.foldl_fst ?_ fun kb ky hkb => ?_)
    | split
    | (with_reducible first
        | refine Same.of_snd (by assumption) ?_ | refine Same.of_fst (by assumption) ?_
        | refine Same.of_third (by assumption) ?_)
    | dsimp only
    | unfold kx

theorem State.ptpMessage_same {m : Component → Bool} {a s : State} (h : Same m a s) (mm : PtpMsg)
    (n_fresh : m .fresh = false) (n_regs : m .regs = false) (n_hub : m .hub = false) (n_clock : m .clock = false)
    (n_wire : m .wire = false) (n_time : m .time = false) :
    Same m a (State.ptpMessage s mm) := by
  unfold State.ptpMessage
  repeat' first
    | (with_reducible first | assumption | refine Same.ite ?_ ?_)
    | (lift_lets; intro kx; refine Same.step (m := m) (a := a) (x := kx) ?_ fun hkx => ?_)
    | (lift_lets; intro kx)
    | (simp only [Same.mk_iff]; apply SameF.of; all_goals first
        | with_reducible exact Off.refl | exact Off.no (by assumption) | skip)
    | (with_reducible first
        | apply State.setFld_same | apply State.setTime_same | apply State.measure_same | apply State.ptpAnswer_same
        | apply State.heardPtp_same)
    | (simp only [kx, Same.mk_iff]; apply SameF.of; all_goals first
        | with_reducible exact Off.refl | exact Off.no (by assumption) | skip)
    | (with_reducible first
        | refine Same.foldl ?_ fun kb ky hkb => ?_ | refine Same.foldl_snd ?_ fun kb ky hkb => ?_
        | refine Same.foldl_fst ?_ fun kb ky hkb => ?_)
    | split
    | (with_reducible first
        | refine Same.of_snd (by assumption) ?_ | refine Same.of_fst (by assumption) ?_
        | refine Same.of_third (by assumption) ?_)
    | dsimp only
    | unfold kx

theorem execPtpMessage_same {m : Component → Bool} {a s : State} (h : Same m a s) (msg : PtpMsg)
    (n_fresh : m .fresh = false) (n_regs : m .regs = false) (n_hub : m .hub = false) (n_clock : m .clock = false)
    (n_wire : m .wire = false) (n_time : m .time = false) {kt : State} (ke : execPtpMessage msg s = .next kt) :
    Same m a kt := by
  unfold execPtpMessage at ke
  refine Same.of_done ke ?_
  repeat' (with_reducible first | assumption | refine Same.ite ?_ ?_ | apply State.ptpMessage_same)

theorem State.ptpGenerate_same {m : Component → Bool} {a s : State} (h : Same m a s) (t : Nat)
    (n_wire : m .wire = false) (n_time : m .time = false) :
    Same m a (State.ptpGenerate s t) := by
  unfold State.ptpGenerate
  repeat' first
    | (with_reducible first
        | assumption | refine Same.ite ?_ ?_ | apply State.setTime_same | apply State.sendPtp_same)

theorem execPtpMessageGeneration_same {m : Component → Bool} {a s : State} (h : Same m a s) (messageType : BitVec 4)
    (n_wire : m .wire = false) (n_time : m .time = false) {kt : State}
    (ke : execPtpMessageGeneration messageType s = .next kt) :
    Same m a kt := by
  unfold execPtpMessageGeneration at ke
  refine Same.of_done ke ?_
  repeat' (with_reducible first | assumption | refine Same.ite ?_ ?_ | apply State.ptpGenerate_same)

theorem State.advanceClock_same {m : Component → Bool} {a s : State} (h : Same m a s) (n_clock : m .clock = false)
    (n_time : m .time = false) :
    Same m a (State.advanceClock s) := by
  unfold State.advanceClock
  repeat' first
    | (with_reducible first | assumption | refine Same.ite ?_ ?_)
    | (simp only [Same.mk_iff]; apply SameF.of; all_goals first
        | with_reducible exact Off.refl | exact Off.no (by assumption) | skip)
    | with_reducible apply State.setTime_same

theorem State.ptpTimers_same {m : Component → Bool} {a s : State} (h : Same m a s) (n_regs : m .regs = false)
    (n_hub : m .hub = false) (n_time : m .time = false) :
    Same m a (State.ptpTimers s) := by
  unfold State.ptpTimers
  repeat' first
    | (with_reducible first | assumption | refine Same.ite ?_ ?_)
    | (lift_lets; intro kx; refine Same.step (m := m) (a := a) (x := kx) ?_ fun hkx => ?_)
    | (lift_lets; intro kx)
    | (simp only [Same.mk_iff]; apply SameF.of; all_goals first
        | with_reducible exact Off.refl | exact Off.no (by assumption) | skip)
    | (with_reducible first | apply State.setFld_same | apply State.failSource_same)
    | (simp only [kx, Same.mk_iff]; apply SameF.of; all_goals first
        | with_reducible exact Off.refl | exact Off.no (by assumption) | skip)
    | (with_reducible first
        | refine Same.foldl ?_ fun kb ky hkb => ?_ | refine Same.foldl_snd ?_ fun kb ky hkb => ?_
        | refine Same.foldl_fst ?_ fun kb ky hkb => ?_)
    | split
    | (with_reducible first
        | refine Same.of_snd (by assumption) ?_ | refine Same.of_fst (by assumption) ?_
        | refine Same.of_third (by assumption) ?_)
    | dsimp only
    | unfold kx

theorem State.timeTick_same {m : Component → Bool} {a s : State} (h : Same m a s) (n_regs : m .regs = false)
    (n_hub : m .hub = false) (n_time : m .time = false) :
    Same m a (State.timeTick s) := by
  unfold State.timeTick
  repeat' first
    | (with_reducible first | assumption | refine Same.ite ?_ ?_)
    | (lift_lets; intro kx; refine Same.step (m := m) (a := a) (x := kx) ?_ fun hkx => ?_)
    | (lift_lets; intro kx)
    | (simp only [Same.mk_iff]; apply SameF.of; all_goals first
        | with_reducible exact Off.refl | exact Off.no (by assumption) | skip)
    | (with_reducible first
        | apply State.setFld_same | apply State.bump_same | apply State.failSource_same | apply State.lockedError_same
        | apply State.ptpTimers_same)
    | (simp only [kx, Same.mk_iff]; apply SameF.of; all_goals first
        | with_reducible exact Off.refl | exact Off.no (by assumption) | skip)
    | (with_reducible first
        | refine Same.foldl ?_ fun kb ky hkb => ?_ | refine Same.foldl_snd ?_ fun kb ky hkb => ?_
        | refine Same.foldl_fst ?_ fun kb ky hkb => ?_)
    | split
    | (with_reducible first
        | refine Same.of_snd (by assumption) ?_ | refine Same.of_fst (by assumption) ?_
        | refine Same.of_third (by assumption) ?_)
    | dsimp only
    | unfold kx

end Sys2Proof.Machine
end

