-- ==== Sys2Proof/Laws/SameCommit.lean ====
section
/-! SUPPORT. What the operations of Machine/Commit.lean leave alone (`Same`). -/

set_option linter.unusedSimpArgs false

namespace Sys2Proof.Machine

theorem State.setChecks_same {m : Component → Bool} {a s : State} (h : Same m a s) (l : List Staging)
    (n_cfg : m .cfg = false) :
    Same m a (State.setChecks s l) := by
  unfold State.setChecks
  repeat' first
    | with_reducible assumption
    | (simp only [Same.mk_iff]; apply SameF.of; all_goals first
        | with_reducible exact Off.refl | exact Off.no (by assumption) | skip)

theorem State.setPendingGroups_same {m : Component → Bool} {a s : State} (h : Same m a s) (l : List Staging)
    (n_cfg : m .cfg = false) :
    Same m a (State.setPendingGroups s l) := by
  unfold State.setPendingGroups
  repeat' first
    | with_reducible assumption
    | (simp only [Same.mk_iff]; apply SameF.of; all_goals first
        | with_reducible exact Off.refl | exact Off.no (by assumption) | skip)

theorem State.postCommit_same {m : Component → Bool} {a s : State} (h : Same m a s) (g : Nat) (code : Nat)
    (detail : Nat) (n_regs : m .regs = false) (n_hub : m .hub = false) :
    Same m a (State.postCommit s g code detail) := by
  unfold State.postCommit
  repeat' first
    | (with_reducible first
        | assumption | refine Same.ite ?_ ?_ | apply State.setFld_same | apply State.raiseIrq_same)

theorem State.commitRequest_same {m : Component → Bool} {a s : State} (h : Same m a s) (bySteward : Bool) (v : Word)
    (n_regs : m .regs = false) (n_cfg : m .cfg = false) (n_hub : m .hub = false) :
    Same m a (State.commitRequest s bySteward v) := by
  unfold State.commitRequest
  repeat' first
    | (with_reducible first
        | assumption | refine Same.ite ?_ ?_ | apply State.setFld_same | apply State.setChecks_same
        | apply State.postCommit_same)

theorem execCommitRequest_same {m : Component → Bool} {a s : State} (h : Same m a s) (bySteward : Bool)
    (value : Word) (n_regs : m .regs = false) (n_cfg : m .cfg = false) (n_hub : m .hub = false) {kt : State}
    (ke : execCommitRequest bySteward value s = .next kt) :
    Same m a kt := by
  unfold execCommitRequest at ke
  refine Same.of_done ke ?_
  repeat' first
    | with_reducible assumption
    | (lift_lets; intro kx)
    | (with_reducible first | apply State.onSteward_same | apply State.commitRequest_same)

theorem State.obcLeave_same {m : Component → Bool} {a s : State} (h : Same m a s) (l : Nat) (st : Nat)
    (n_regs : m .regs = false) (n_hub : m .hub = false) (n_time : m .time = false) :
    Same m a (State.obcLeave s l st) := by
  unfold State.obcLeave
  repeat' first
    | (with_reducible first
        | assumption | refine Same.ite ?_ ?_ | apply State.setFld_same | apply State.bump_same
        | apply State.setFldIrq_same | apply State.failSource_same)

theorem State.remapTier1_same {m : Component → Bool} {a s : State} (h : Same m a s) (n_fresh : m .fresh = false)
    (n_mem : m .mem = false) :
    Same m a (State.remapTier1 s) := by
  unfold State.remapTier1
  repeat' first
    | with_reducible assumption
    | (simp only [Same.mk_iff]; apply SameF.of; all_goals first
        | with_reducible exact Off.refl | exact Off.no (by assumption) | skip)

theorem State.groupApplied_same {m : Component → Bool} {a s : State} (h : Same m a s) (before : State) (g : Nat)
    (n_fresh : m .fresh = false) (n_regs : m .regs = false) (n_mem : m .mem = false) (n_hub : m .hub = false)
    (n_wire : m .wire = false) (n_time : m .time = false) :
    Same m a (State.groupApplied s before g) := by
  unfold State.groupApplied
  repeat' first
    | (with_reducible first
        | assumption | apply State.setReg_same | apply State.setFld_same | apply State.portTrainingDone_same
        | apply State.armPulse_same | apply State.sourceChanged_same | apply State.obcLeave_same
        | apply State.remapTier1_same)
    | split
    | dsimp only

theorem State.applyGroup_same {m : Component → Bool} {a s : State} (h : Same m a s) (st : Staging)
    (n_fresh : m .fresh = false) (n_regs : m .regs = false) (n_mem : m .mem = false) (n_cfg : m .cfg = false)
    (n_hub : m .hub = false) (n_wire : m .wire = false) (n_time : m .time = false) :
    Same m a (State.applyGroup s st) := by
  unfold State.applyGroup
  repeat' first
    | (with_reducible first | assumption | refine Same.ite ?_ ?_)
    | (simp only [Same.mk_iff]; apply SameF.of; all_goals first
        | with_reducible exact Off.refl | exact Off.no (by assumption) | skip)
    | (with_reducible first
        | apply State.setReg_same | apply State.setPendingGroups_same | apply State.groupApplied_same
        | refine Same.foldl ?_ fun kb ky hkb => ?_)

theorem State.commitCheckDone_same {m : Component → Bool} {a s : State} (h : Same m a s)
    (n_fresh : m .fresh = false) (n_regs : m .regs = false) (n_mem : m .mem = false) (n_cfg : m .cfg = false)
    (n_hub : m .hub = false) (n_wire : m .wire = false) (n_time : m .time = false) :
    Same m a (State.commitCheckDone s) := by
  unfold State.commitCheckDone
  repeat' first
    | (with_reducible first
        | assumption | refine Same.ite ?_ ?_ | apply State.setChecks_same | apply State.setPendingGroups_same
        | apply State.postCommit_same | apply State.applyGroup_same)
    | split

theorem execCommitCheckDone_same {m : Component → Bool} {a s : State} (h : Same m a s) (n_fresh : m .fresh = false)
    (n_regs : m .regs = false) (n_mem : m .mem = false) (n_cfg : m .cfg = false) (n_hub : m .hub = false)
    (n_wire : m .wire = false) (n_time : m .time = false) {kt : State} (ke : execCommitCheckDone s = .next kt) :
    Same m a kt := by
  unfold execCommitCheckDone at ke
  refine Same.of_done ke ?_
  repeat' first
    | with_reducible assumption
    | (lift_lets; intro kx)
    | (with_reducible first | apply State.onSteward_same | apply State.commitCheckDone_same)

theorem State.commitApply_same {m : Component → Bool} {a s : State} (h : Same m a s) (g : Nat)
    (n_fresh : m .fresh = false) (n_regs : m .regs = false) (n_mem : m .mem = false) (n_cfg : m .cfg = false)
    (n_hub : m .hub = false) (n_wire : m .wire = false) (n_time : m .time = false) :
    Same m a (State.commitApply s g) := by
  unfold State.commitApply
  repeat' first
    | (with_reducible first | assumption | apply State.applyGroup_same)
    | split

theorem execCommitApply_same {m : Component → Bool} {a s : State} (h : Same m a s) (group : BitVec 20)
    (n_fresh : m .fresh = false) (n_regs : m .regs = false) (n_mem : m .mem = false) (n_cfg : m .cfg = false)
    (n_hub : m .hub = false) (n_wire : m .wire = false) (n_time : m .time = false) {kt : State}
    (ke : execCommitApply group s = .next kt) :
    Same m a kt := by
  unfold execCommitApply at ke
  refine Same.of_done ke ?_
  repeat' first
    | (with_reducible first | assumption | refine Same.ite ?_ ?_)
    | (lift_lets; intro kx; refine Same.step (m := m) (a := a) (x := kx) ?_ fun hkx => ?_)
    | (lift_lets; intro kx)
    | (simp only [Same.mk_iff]; apply SameF.of; all_goals first
        | with_reducible exact Off.refl | exact Off.no (by assumption) | skip)
    | (with_reducible first | apply State.onSteward_same | apply State.commitApply_same)
    | (simp only [kx, Same.mk_iff]; apply SameF.of; all_goals first
        | with_reducible exact Off.refl | exact Off.no (by assumption) | skip)
    | (with_reducible first
        | refine Same.foldl ?_ fun kb ky hkb => ?_ | refine Same.foldl_snd ?_ fun kb ky hkb => ?_
        | refine Same.foldl_fst ?_ fun kb ky hkb => ?_)
    | split
    | (with_reducible first
        | refine Same.of_snd (by assumption) ?_ | refine Same.of_fst (by assumption) ?_
        | refine Same.of_third (by assumption) ?_)
    | dsimp only
    | unfold kx

theorem State.applySeamGroups_same {m : Component → Bool} {a s : State} (h : Same m a s)
    (n_fresh : m .fresh = false) (n_regs : m .regs = false) (n_mem : m .mem = false) (n_cfg : m .cfg = false)
    (n_hub : m .hub = false) (n_wire : m .wire = false) (n_time : m .time = false) :
    Same m a (State.applySeamGroups s) := by
  unfold State.applySeamGroups
  repeat' (with_reducible first | assumption | apply State.applyGroup_same | refine Same.foldl ?_ fun kb ky hkb => ?_)

end Sys2Proof.Machine
end

