-- ==== Sys2Proof/Laws/SameMaint.lean ====
section
/-! SUPPORT. What the operations of Machine/Maint.lean leave alone (`Same`). -/

set_option linter.unusedSimpArgs false

namespace Sys2Proof.Machine

theorem State.setReturning_same {m : Component → Bool} {a s : State} (h : Same m a s) (l : List Nat)
    (n_flt : m .flt = false) :
    Same m a (State.setReturning s l) := by
  unfold State.setReturning
  repeat' first
    | with_reducible assumption
    | (simp only [Same.mk_iff]; apply SameF.of; all_goals first
        | with_reducible exact Off.refl | exact Off.no (by assumption) | skip)

theorem State.parentOne_same {m : Component → Bool} {a s : State} (h : Same m a s) (k : Nat) (whole : Bool)
    (n_regs : m .regs = false) (n_flt : m .flt = false) (n_chk : m .chk = false) :
    Same m a (State.parentOne s k whole) := by
  unfold State.parentOne
  repeat' first
    | (with_reducible first
        | assumption | refine Same.ite ?_ ?_ | apply State.setUnit_same | apply State.markDirty_same
        | apply State.retire_same | apply State.setReturning_same)

theorem State.parentRule_same {m : Component → Bool} {a s : State} (h : Same m a s) (d : Nat)
    (n_regs : m .regs = false) (n_flt : m .flt = false) (n_chk : m .chk = false) :
    Same m a (State.parentRule s d) := by
  unfold State.parentRule
  repeat' (with_reducible first | assumption | apply State.parentOne_same | refine Same.foldl ?_ fun kb ky hkb => ?_)

theorem State.rebuildDie_same {m : Component → Bool} {a s : State} (h : Same m a s) (d : Nat)
    (n_regs : m .regs = false) (n_flt : m .flt = false) (n_chk : m .chk = false) :
    Same m a (State.rebuildDie s d) := by
  unfold State.rebuildDie
  repeat' first
    | (with_reducible first | assumption | refine Same.ite ?_ ?_)
    | (lift_lets; intro kx; refine Same.step (m := m) (a := a) (x := kx) ?_ fun hkx => ?_)
    | (lift_lets; intro kx)
    | (simp only [Same.mk_iff]; apply SameF.of; all_goals first
        | with_reducible exact Off.refl | exact Off.no (by assumption) | skip)
    | (with_reducible first | apply State.rebuildMaps_same | apply State.parentRule_same)
    | (simp only [kx, Same.mk_iff]; apply SameF.of; all_goals first
        | with_reducible exact Off.refl | exact Off.no (by assumption) | skip)
    | (with_reducible first
        | refine Same.foldl ?_ fun kb ky hkb => ?_ | refine Same.foldl_snd ?_ fun kb ky hkb => ?_
        | refine Same.foldl_fst ?_ fun kb ky hkb => ?_)
    | split
    | (with_reducible first
        | refine Same.of_snd (by assumption) ?_ | refine Same.of_fst (by assumption) ?_
        | refine Same.of_third (by assumption) ?_)
    | dsimp only
    | unfold kx

theorem State.rebuild_same {m : Component → Bool} {a s : State} (h : Same m a s) (n_regs : m .regs = false)
    (n_flt : m .flt = false) (n_chk : m .chk = false) :
    Same m a (State.rebuild s) := by
  unfold State.rebuild
  repeat' first
    | (with_reducible first | assumption | refine Same.ite ?_ ?_)
    | (lift_lets; intro kx; refine Same.step (m := m) (a := a) (x := kx) ?_ fun hkx => ?_)
    | (lift_lets; intro kx)
    | (simp only [Same.mk_iff]; apply SameF.of; all_goals first
        | with_reducible exact Off.refl | exact Off.no (by assumption) | skip)
    | with_reducible apply State.rebuildDie_same
    | (simp only [kx, Same.mk_iff]; apply SameF.of; all_goals first
        | with_reducible exact Off.refl | exact Off.no (by assumption) | skip)
    | (with_reducible first
        | refine Same.foldl ?_ fun kb ky hkb => ?_ | refine Same.foldl_snd ?_ fun kb ky hkb => ?_
        | refine Same.foldl_fst ?_ fun kb ky hkb => ?_)
    | split
    | (with_reducible first
        | refine Same.of_snd (by assumption) ?_ | refine Same.of_fst (by assumption) ?_
        | refine Same.of_third (by assumption) ?_)
    | dsimp only
    | unfold kx

theorem State.setRotating_same {m : Component → Bool} {a s : State} (h : Same m a s) (l : List Nat)
    (n_flt : m .flt = false) :
    Same m a (State.setRotating s l) := by
  unfold State.setRotating
  repeat' first
    | (with_reducible first | assumption | refine Same.ite ?_ ?_)
    | (lift_lets; intro kx; refine Same.step (m := m) (a := a) (x := kx) ?_ fun hkx => ?_)
    | (lift_lets; intro kx)
    | (simp only [Same.mk_iff]; apply SameF.of; all_goals first
        | with_reducible exact Off.refl | exact Off.no (by assumption) | skip)
    | (simp only [kx, Same.mk_iff]; apply SameF.of; all_goals first
        | with_reducible exact Off.refl | exact Off.no (by assumption) | skip)
    | (with_reducible first
        | refine Same.foldl ?_ fun kb ky hkb => ?_ | refine Same.foldl_snd ?_ fun kb ky hkb => ?_
        | refine Same.foldl_fst ?_ fun kb ky hkb => ?_)
    | split
    | (with_reducible first
        | refine Same.of_snd (by assumption) ?_ | refine Same.of_fst (by assumption) ?_
        | refine Same.of_third (by assumption) ?_)
    | dsimp only
    | unfold kx

theorem State.noteReadmitted_same {m : Component → Bool} {a s : State} (h : Same m a s) (k : Nat)
    (n_regs : m .regs = false) (n_flt : m .flt = false) (n_chk : m .chk = false) :
    Same m a (State.noteReadmitted s k) := by
  unfold State.noteReadmitted
  repeat' first
    | (with_reducible first | assumption | refine Same.ite ?_ ?_)
    | (lift_lets; intro kx; refine Same.step (m := m) (a := a) (x := kx) ?_ fun hkx => ?_)
    | (lift_lets; intro kx)
    | (simp only [Same.mk_iff]; apply SameF.of; all_goals first
        | with_reducible exact Off.refl | exact Off.no (by assumption) | skip)
    | (with_reducible first
        | apply State.bump_same | apply State.emit_same | apply State.setReturning_same
        | apply State.setRotating_same)
    | (simp only [kx, Same.mk_iff]; apply SameF.of; all_goals first
        | with_reducible exact Off.refl | exact Off.no (by assumption) | skip)
    | (with_reducible first
        | refine Same.foldl ?_ fun kb ky hkb => ?_ | refine Same.foldl_snd ?_ fun kb ky hkb => ?_
        | refine Same.foldl_fst ?_ fun kb ky hkb => ?_)
    | split
    | (with_reducible first
        | refine Same.of_snd (by assumption) ?_ | refine Same.of_fst (by assumption) ?_
        | refine Same.of_third (by assumption) ?_)
    | dsimp only
    | unfold kx

theorem State.noteReturned_same {m : Component → Bool} {a s : State} (h : Same m a s) (n_regs : m .regs = false)
    (n_flt : m .flt = false) (n_chk : m .chk = false) :
    Same m a (State.noteReturned s) := by
  unfold State.noteReturned
  repeat' first
    | (with_reducible first | assumption | refine Same.ite ?_ ?_)
    | (lift_lets; intro kx; refine Same.step (m := m) (a := a) (x := kx) ?_ fun hkx => ?_)
    | (lift_lets; intro kx)
    | (simp only [Same.mk_iff]; apply SameF.of; all_goals first
        | with_reducible exact Off.refl | exact Off.no (by assumption) | skip)
    | with_reducible apply State.noteReadmitted_same
    | (simp only [kx, Same.mk_iff]; apply SameF.of; all_goals first
        | with_reducible exact Off.refl | exact Off.no (by assumption) | skip)
    | (with_reducible first
        | refine Same.foldl ?_ fun kb ky hkb => ?_ | refine Same.foldl_snd ?_ fun kb ky hkb => ?_
        | refine Same.foldl_fst ?_ fun kb ky hkb => ?_)
    | split
    | (with_reducible first
        | refine Same.of_snd (by assumption) ?_ | refine Same.of_fst (by assumption) ?_
        | refine Same.of_third (by assumption) ?_)
    | dsimp only
    | unfold kx

theorem State.homeRows_same {m : Component → Bool} {a s : State} (h : Same m a s) (moved : List Nat)
    (n_emb : m .emb = false) :
    Same m a (State.homeRows s moved) := by
  unfold State.homeRows
  repeat' (with_reducible first | assumption | refine Same.ite ?_ ?_ | apply State.setLines_same)

theorem State.screenRecord_same {m : Component → Bool} {a s : State} (h : Same m a s) (k : Nat) (pass : Bool)
    (point : Nat) (test : Nat) (n_regs : m .regs = false) (n_flt : m .flt = false) (n_chk : m .chk = false) :
    Same m a (State.screenRecord s k pass point test) := by
  unfold State.screenRecord
  repeat' first
    | (with_reducible first | assumption | refine Same.ite ?_ ?_)
    | (lift_lets; intro kx; refine Same.step (m := m) (a := a) (x := kx) ?_ fun hkx => ?_)
    | (lift_lets; intro kx)
    | (simp only [Same.mk_iff]; apply SameF.of; all_goals first
        | with_reducible exact Off.refl | exact Off.no (by assumption) | skip)
    | (with_reducible first | apply State.bump_same | apply State.emit_same | apply State.setUnit_same)
    | (simp only [kx, Same.mk_iff]; apply SameF.of; all_goals first
        | with_reducible exact Off.refl | exact Off.no (by assumption) | skip)
    | (with_reducible first
        | refine Same.foldl ?_ fun kb ky hkb => ?_ | refine Same.foldl_snd ?_ fun kb ky hkb => ?_
        | refine Same.foldl_fst ?_ fun kb ky hkb => ?_)
    | split
    | (with_reducible first
        | refine Same.of_snd (by assumption) ?_ | refine Same.of_fst (by assumption) ?_
        | refine Same.of_third (by assumption) ?_)
    | dsimp only
    | unfold kx

theorem State.failScreen_same {m : Component → Bool} {a s : State} (h : Same m a s) (points : List Nat) (k : Nat)
    (n_fresh : m .fresh = false) (n_regs : m .regs = false) (n_flt : m .flt = false) (n_chk : m .chk = false) :
    Same m a (State.failScreen s points k) := by
  unfold State.failScreen
  repeat' first
    | (with_reducible first | assumption | refine Same.ite ?_ ?_)
    | (lift_lets; intro kx; refine Same.step (m := m) (a := a) (x := kx) ?_ fun hkx => ?_)
    | (lift_lets; intro kx)
    | (simp only [Same.mk_iff]; apply SameF.of; all_goals first
        | with_reducible exact Off.refl | exact Off.no (by assumption) | skip)
    | (with_reducible first | apply State.free_same | apply State.screenRecord_same)
    | (simp only [kx, Same.mk_iff]; apply SameF.of; all_goals first
        | with_reducible exact Off.refl | exact Off.no (by assumption) | skip)
    | (with_reducible first
        | refine Same.foldl ?_ fun kb ky hkb => ?_ | refine Same.foldl_snd ?_ fun kb ky hkb => ?_
        | refine Same.foldl_fst ?_ fun kb ky hkb => ?_)
    | split
    | (with_reducible first
        | refine Same.of_snd (by assumption) ?_ | refine Same.of_fst (by assumption) ?_
        | refine Same.of_third (by assumption) ?_)
    | dsimp only
    | unfold kx

theorem State.setQuick_same {m : Component → Bool} {a s : State} (h : Same m a s) (k : Nat) (n_flt : m .flt = false) :
    Same m a (State.setQuick s k) := by
  unfold State.setQuick
  repeat' first
    | (with_reducible first | assumption | refine Same.ite ?_ ?_)
    | (lift_lets; intro kx; refine Same.step (m := m) (a := a) (x := kx) ?_ fun hkx => ?_)
    | (lift_lets; intro kx)
    | (simp only [Same.mk_iff]; apply SameF.of; all_goals first
        | with_reducible exact Off.refl | exact Off.no (by assumption) | skip)
    | (simp only [kx, Same.mk_iff]; apply SameF.of; all_goals first
        | with_reducible exact Off.refl | exact Off.no (by assumption) | skip)
    | (with_reducible first
        | refine Same.foldl ?_ fun kb ky hkb => ?_ | refine Same.foldl_snd ?_ fun kb ky hkb => ?_
        | refine Same.foldl_fst ?_ fun kb ky hkb => ?_)
    | split
    | (with_reducible first
        | refine Same.of_snd (by assumption) ?_ | refine Same.of_fst (by assumption) ?_
        | refine Same.of_third (by assumption) ?_)
    | dsimp only
    | unfold kx

theorem State.quickPass_same {m : Component → Bool} {a s : State} (h : Same m a s) (k : Nat)
    (n_regs : m .regs = false) (n_flt : m .flt = false) (n_chk : m .chk = false) :
    Same m a (State.quickPass s k) := by
  unfold State.quickPass
  repeat' first
    | (with_reducible first | assumption | refine Same.ite ?_ ?_)
    | (lift_lets; intro kx; refine Same.step (m := m) (a := a) (x := kx) ?_ fun hkx => ?_)
    | (lift_lets; intro kx)
    | (simp only [Same.mk_iff]; apply SameF.of; all_goals first
        | with_reducible exact Off.refl | exact Off.no (by assumption) | skip)
    | (with_reducible first | apply State.screenRecord_same | apply State.setQuick_same)
    | (simp only [kx, Same.mk_iff]; apply SameF.of; all_goals first
        | with_reducible exact Off.refl | exact Off.no (by assumption) | skip)
    | (with_reducible first
        | refine Same.foldl ?_ fun kb ky hkb => ?_ | refine Same.foldl_snd ?_ fun kb ky hkb => ?_
        | refine Same.foldl_fst ?_ fun kb ky hkb => ?_)
    | split
    | (with_reducible first
        | refine Same.of_snd (by assumption) ?_ | refine Same.of_fst (by assumption) ?_
        | refine Same.of_third (by assumption) ?_)
    | dsimp only
    | unfold kx

theorem State.massScreen_same {m : Component → Bool} {a s : State} (h : Same m a s) (units : List Nat)
    (fails : List Nat) (n_fresh : m .fresh = false) (n_regs : m .regs = false) (n_flt : m .flt = false)
    (n_chk : m .chk = false) :
    Same m a (State.massScreen s units fails) := by
  unfold State.massScreen
  repeat' first
    | (with_reducible first | assumption | refine Same.ite ?_ ?_)
    | (lift_lets; intro kx; refine Same.step (m := m) (a := a) (x := kx) ?_ fun hkx => ?_)
    | (lift_lets; intro kx)
    | (simp only [Same.mk_iff]; apply SameF.of; all_goals first
        | with_reducible exact Off.refl | exact Off.no (by assumption) | skip)
    | (with_reducible first | apply State.bump_same | apply State.strikeSump_same | apply State.failScreen_same)
    | (simp only [kx, Same.mk_iff]; apply SameF.of; all_goals first
        | with_reducible exact Off.refl | exact Off.no (by assumption) | skip)
    | (with_reducible first
        | refine Same.foldl ?_ fun kb ky hkb => ?_ | refine Same.foldl_snd ?_ fun kb ky hkb => ?_
        | refine Same.foldl_fst ?_ fun kb ky hkb => ?_)
    | split
    | (with_reducible first
        | refine Same.of_snd (by assumption) ?_ | refine Same.of_fst (by assumption) ?_
        | refine Same.of_third (by assumption) ?_)
    | dsimp only
    | unfold kx

theorem State.screenMoved_same {m : Component → Bool} {a s : State} (h : Same m a s) (moved : List Nat)
    (n_regs : m .regs = false) (n_flt : m .flt = false) (n_chk : m .chk = false) :
    Same m a (State.screenMoved s moved) := by
  unfold State.screenMoved
  repeat' first
    | (with_reducible first | assumption | refine Same.ite ?_ ?_)
    | (lift_lets; intro kx; refine Same.step (m := m) (a := a) (x := kx) ?_ fun hkx => ?_)
    | (lift_lets; intro kx)
    | (simp only [Same.mk_iff]; apply SameF.of; all_goals first
        | with_reducible exact Off.refl | exact Off.no (by assumption) | skip)
    | with_reducible apply State.quickPass_same
    | (simp only [kx, Same.mk_iff]; apply SameF.of; all_goals first
        | with_reducible exact Off.refl | exact Off.no (by assumption) | skip)
    | (with_reducible first
        | refine Same.foldl ?_ fun kb ky hkb => ?_ | refine Same.foldl_snd ?_ fun kb ky hkb => ?_
        | refine Same.foldl_fst ?_ fun kb ky hkb => ?_)
    | split
    | (with_reducible first
        | refine Same.of_snd (by assumption) ?_ | refine Same.of_fst (by assumption) ?_
        | refine Same.of_third (by assumption) ?_)
    | dsimp only
    | unfold kx

theorem State.settle_same {m : Component → Bool} {a s : State} (h : Same m a s) (moved : List Nat)
    (n_regs : m .regs = false) (n_cfg : m .cfg = false) (n_flt : m .flt = false) (n_chk : m .chk = false)
    (n_emb : m .emb = false) :
    Same m a (State.settle s moved) := by
  unfold State.settle
  repeat' first
    | (with_reducible first | assumption | refine Same.ite ?_ ?_)
    | (lift_lets; intro kx; refine Same.step (m := m) (a := a) (x := kx) ?_ fun hkx => ?_)
    | (lift_lets; intro kx)
    | (simp only [Same.mk_iff]; apply SameF.of; all_goals first
        | with_reducible exact Off.refl | exact Off.no (by assumption) | skip)
    | (with_reducible first
        | apply State.recordEpoch_same | apply State.recoveryReload_same | apply State.noteReturned_same
        | apply State.homeRows_same | apply State.screenMoved_same)
    | (simp only [kx, Same.mk_iff]; apply SameF.of; all_goals first
        | with_reducible exact Off.refl | exact Off.no (by assumption) | skip)
    | (with_reducible first
        | refine Same.foldl ?_ fun kb ky hkb => ?_ | refine Same.foldl_snd ?_ fun kb ky hkb => ?_
        | refine Same.foldl_fst ?_ fun kb ky hkb => ?_)
    | split
    | (with_reducible first
        | refine Same.of_snd (by assumption) ?_ | refine Same.of_fst (by assumption) ?_
        | refine Same.of_third (by assumption) ?_)
    | dsimp only
    | unfold kx

theorem State.noteStalled_same {m : Component → Bool} {a s : State} (h : Same m a s) (n_regs : m .regs = false)
    (n_hub : m .hub = false) :
    Same m a (State.noteStalled s) := by
  unfold State.noteStalled
  repeat' (with_reducible first | assumption | refine Same.ite ?_ ?_ | apply State.setRecovery_same)

theorem State.loseEmptyDies_same {m : Component → Bool} {a s : State} (h : Same m a s) (n_regs : m .regs = false)
    (n_links : m .links = false) (n_crossings : m .crossings = false) (n_cfg : m .cfg = false)
    (n_flt : m .flt = false) (n_chk : m .chk = false) (n_hub : m .hub = false) (n_fleet : m .fleet = false)
    (n_dense : m .dense = false) (n_emb : m .emb = false) (n_det : m .det = false) :
    Same m a (State.loseEmptyDies s) := by
  unfold State.loseEmptyDies
  repeat' first
    | (with_reducible first | assumption | refine Same.ite ?_ ?_)
    | (lift_lets; intro kx; refine Same.step (m := m) (a := a) (x := kx) ?_ fun hkx => ?_)
    | (lift_lets; intro kx)
    | (simp only [Same.mk_iff]; apply SameF.of; all_goals first
        | with_reducible exact Off.refl | exact Off.no (by assumption) | skip)
    | with_reducible apply State.loseDies_same
    | (simp only [kx, Same.mk_iff]; apply SameF.of; all_goals first
        | with_reducible exact Off.refl | exact Off.no (by assumption) | skip)
    | (with_reducible first
        | refine Same.foldl ?_ fun kb ky hkb => ?_ | refine Same.foldl_snd ?_ fun kb ky hkb => ?_
        | refine Same.foldl_fst ?_ fun kb ky hkb => ?_)
    | split
    | (with_reducible first
        | refine Same.of_snd (by assumption) ?_ | refine Same.of_fst (by assumption) ?_
        | refine Same.of_third (by assumption) ?_)
    | dsimp only
    | unfold kx

theorem State.fitJob_same {m : Component → Bool} {a s : State} (h : Same m a s) (was : Nat)
    (n_regs : m .regs = false) (n_links : m .links = false) (n_crossings : m .crossings = false)
    (n_cfg : m .cfg = false) (n_flt : m .flt = false) (n_chk : m .chk = false) (n_hub : m .hub = false)
    (n_fleet : m .fleet = false) (n_dense : m .dense = false) (n_emb : m .emb = false) (n_det : m .det = false) :
    Same m a (State.fitJob s was) := by
  unfold State.fitJob
  repeat' first
    | (with_reducible first
        | assumption | refine Same.ite ?_ ?_ | apply State.leaveFleet_same | apply State.endRecovery_same
        | apply State.loseEmptyDies_same)

theorem State.remap_same {m : Component → Bool} {a s : State} (h : Same m a s) (n_regs : m .regs = false)
    (n_links : m .links = false) (n_crossings : m .crossings = false) (n_cfg : m .cfg = false)
    (n_flt : m .flt = false) (n_chk : m .chk = false) (n_hub : m .hub = false) (n_fleet : m .fleet = false)
    (n_dense : m .dense = false) (n_emb : m .emb = false) (n_det : m .det = false) :
    Same m a (State.remap s) := by
  unfold State.remap
  repeat' first
    | (with_reducible first
        | assumption | refine Same.ite ?_ ?_ | apply State.rebuild_same | apply State.settle_same
        | apply State.noteStalled_same | apply State.fitJob_same)

theorem State.rotateUnit_same {m : Component → Bool} {a s : State} (h : Same m a s) (o : Option Nat)
    (n_regs : m .regs = false) (n_flt : m .flt = false) (n_chk : m .chk = false) :
    Same m a (State.rotateUnit s o) := by
  unfold State.rotateUnit
  repeat' first
    | (with_reducible first | assumption | refine Same.ite ?_ ?_)
    | (lift_lets; intro kx; refine Same.step (m := m) (a := a) (x := kx) ?_ fun hkx => ?_)
    | (lift_lets; intro kx)
    | (simp only [Same.mk_iff]; apply SameF.of; all_goals first
        | with_reducible exact Off.refl | exact Off.no (by assumption) | skip)
    | with_reducible apply State.enterSump_same
    | (simp only [kx, Same.mk_iff]; apply SameF.of; all_goals first
        | with_reducible exact Off.refl | exact Off.no (by assumption) | skip)
    | (with_reducible first
        | refine Same.foldl ?_ fun kb ky hkb => ?_ | refine Same.foldl_snd ?_ fun kb ky hkb => ?_
        | refine Same.foldl_fst ?_ fun kb ky hkb => ?_)
    | split
    | (with_reducible first
        | refine Same.of_snd (by assumption) ?_ | refine Same.of_fst (by assumption) ?_
        | refine Same.of_third (by assumption) ?_)
    | dsimp only
    | unfold kx

theorem State.rotateDie_same {m : Component → Bool} {a s : State} (h : Same m a s) (d : Nat)
    (n_regs : m .regs = false) (n_flt : m .flt = false) (n_chk : m .chk = false) :
    Same m a (State.rotateDie s d) := by
  unfold State.rotateDie
  repeat' first
    | (with_reducible first | assumption | refine Same.ite ?_ ?_)
    | (lift_lets; intro kx; refine Same.step (m := m) (a := a) (x := kx) ?_ fun hkx => ?_)
    | (lift_lets; intro kx)
    | (simp only [Same.mk_iff]; apply SameF.of; all_goals first
        | with_reducible exact Off.refl | exact Off.no (by assumption) | skip)
    | (with_reducible first | apply State.bump_same | apply State.retireDue_same | apply State.rotateUnit_same)
    | (simp only [kx, Same.mk_iff]; apply SameF.of; all_goals first
        | with_reducible exact Off.refl | exact Off.no (by assumption) | skip)
    | (with_reducible first
        | refine Same.foldl ?_ fun kb ky hkb => ?_ | refine Same.foldl_snd ?_ fun kb ky hkb => ?_
        | refine Same.foldl_fst ?_ fun kb ky hkb => ?_)
    | split
    | (with_reducible first
        | refine Same.of_snd (by assumption) ?_ | refine Same.of_fst (by assumption) ?_
        | refine Same.of_third (by assumption) ?_)
    | dsimp only
    | unfold kx

theorem State.setRotate_same {m : Component → Bool} {a s : State} (h : Same m a s) (l : List Nat)
    (n_flt : m .flt = false) :
    Same m a (State.setRotate s l) := by
  unfold State.setRotate
  repeat' first
    | with_reducible assumption
    | (simp only [Same.mk_iff]; apply SameF.of; all_goals first
        | with_reducible exact Off.refl | exact Off.no (by assumption) | skip)

theorem State.seamRotations_same {m : Component → Bool} {a s : State} (h : Same m a s) (n_regs : m .regs = false)
    (n_flt : m .flt = false) (n_chk : m .chk = false) :
    Same m a (State.seamRotations s) := by
  unfold State.seamRotations
  repeat' first
    | (with_reducible first
        | assumption | apply State.rotateDie_same | apply State.setRotate_same
        | refine Same.foldl ?_ fun kb ky hkb => ?_)

theorem State.rotation_same {m : Component → Bool} {a s : State} (h : Same m a s) (d : Nat)
    (n_regs : m .regs = false) (n_links : m .links = false) (n_crossings : m .crossings = false)
    (n_cfg : m .cfg = false) (n_flt : m .flt = false) (n_chk : m .chk = false) (n_hub : m .hub = false)
    (n_fleet : m .fleet = false) (n_dense : m .dense = false) (n_emb : m .emb = false) (n_det : m .det = false) :
    Same m a (State.rotation s d) := by
  unfold State.rotation
  repeat' first
    | (with_reducible first
        | assumption | refine Same.ite ?_ ?_ | apply State.remap_same | apply State.rotateDie_same
        | apply State.setRotate_same)

theorem execRotation_same {m : Component → Bool} {a s : State} (h : Same m a s) (die : Fin 4)
    (n_regs : m .regs = false) (n_links : m .links = false) (n_crossings : m .crossings = false)
    (n_cfg : m .cfg = false) (n_flt : m .flt = false) (n_chk : m .chk = false) (n_hub : m .hub = false)
    (n_fleet : m .fleet = false) (n_dense : m .dense = false) (n_emb : m .emb = false) (n_det : m .det = false)
    {kt : State} (ke : execRotation die s = .next kt) :
    Same m a kt := by
  unfold execRotation at ke
  refine Same.of_done ke ?_
  repeat' first
    | with_reducible assumption
    | (lift_lets; intro kx)
    | (with_reducible first | apply State.onSteward_same | apply State.rotation_same)

theorem State.screenStalled_same {m : Component → Bool} {a s : State} (h : Same m a s) (n_regs : m .regs = false)
    (n_chk : m .chk = false) (n_hub : m .hub = false) :
    Same m a (State.screenStalled s) := by
  unfold State.screenStalled
  repeat' first
    | (with_reducible first
        | assumption | refine Same.ite ?_ ?_ | apply State.emit_same | apply State.noteStalled_same)

theorem execScreenStalled_same {m : Component → Bool} {a s : State} (h : Same m a s) (n_regs : m .regs = false)
    (n_chk : m .chk = false) (n_hub : m .hub = false) {kt : State} (ke : execScreenStalled s = .next kt) :
    Same m a kt := by
  unfold execScreenStalled at ke
  refine Same.of_done ke ?_
  repeat' first
    | with_reducible assumption
    | (lift_lets; intro kx)
    | (with_reducible first | apply State.onSteward_same | apply State.screenStalled_same)

theorem State.setResult_same {m : Component → Bool} {a s : State} (h : Same m a s) (key : Nat) (code : Nat)
    (isDone : Bool) (passed : Bool) (n_regs : m .regs = false) :
    Same m a (State.setResult s key code isDone passed) := by
  unfold State.setResult
  repeat' (with_reducible first | assumption | refine Same.ite ?_ ?_ | apply State.setFld_same)

theorem State.setCmd_same {m : Component → Bool} {a s : State} (h : Same m a s) (c : Option UnitCmd)
    (n_flt : m .flt = false) :
    Same m a (State.setCmd s c) := by
  unfold State.setCmd
  repeat' first
    | with_reducible assumption
    | (simp only [Same.mk_iff]; apply SameF.of; all_goals first
        | with_reducible exact Off.refl | exact Off.no (by assumption) | skip)

theorem State.cmdDone_same {m : Component → Bool} {a s : State} (h : Same m a s) (key : Nat) (passed : Bool)
    (n_regs : m .regs = false) (n_flt : m .flt = false) :
    Same m a (State.cmdDone s key passed) := by
  unfold State.cmdDone
  repeat' first
    | (with_reducible first | assumption | apply State.setResult_same | apply State.setCmd_same)
    | split

theorem State.addScreen_same {m : Component → Bool} {a s : State} (h : Same m a s) (k : Nat) (w : ScreenKind)
    (n_flt : m .flt = false) :
    Same m a (State.addScreen s k w) := by
  unfold State.addScreen
  repeat' first
    | with_reducible assumption
    | (simp only [Same.mk_iff]; apply SameF.of; all_goals first
        | with_reducible exact Off.refl | exact Off.no (by assumption) | skip)

theorem State.sumpNow_same {m : Component → Bool} {a s : State} (h : Same m a s) (n_regs : m .regs = false)
    (n_cfg : m .cfg = false) (n_flt : m .flt = false) (n_chk : m .chk = false) (n_hub : m .hub = false) :
    Same m a (State.sumpNow s) := by
  unfold State.sumpNow
  repeat' first
    | with_reducible assumption
    | (simp only [Same.mk_iff]; apply SameF.of; all_goals first
        | with_reducible exact Off.refl | exact Off.no (by assumption) | skip)
    | (with_reducible first | apply State.enterSump_same | apply State.beginStop_same | apply State.cmdDone_same)
    | split

theorem State.unitCmd_same {m : Component → Bool} {a s : State} (h : Same m a s) (op : Nat) (v : Word)
    (n_regs : m .regs = false) (n_links : m .links = false) (n_crossings : m .crossings = false)
    (n_cfg : m .cfg = false) (n_flt : m .flt = false) (n_chk : m .chk = false) (n_hub : m .hub = false)
    (n_fleet : m .fleet = false) (n_dense : m .dense = false) (n_emb : m .emb = false) (n_det : m .det = false) :
    Same m a (State.unitCmd s op v) := by
  unfold State.unitCmd
  repeat' first
    | (with_reducible first
        | assumption | refine Same.ite ?_ ?_ | apply State.remap_same | apply State.setResult_same
        | apply State.setCmd_same | apply State.addScreen_same | apply State.sumpNow_same)

theorem execUnitCmdSump_same {m : Component → Bool} {a s : State} (h : Same m a s) (value : Word)
    (n_regs : m .regs = false) (n_links : m .links = false) (n_crossings : m .crossings = false)
    (n_cfg : m .cfg = false) (n_flt : m .flt = false) (n_chk : m .chk = false) (n_hub : m .hub = false)
    (n_fleet : m .fleet = false) (n_dense : m .dense = false) (n_emb : m .emb = false) (n_det : m .det = false)
    {kt : State} (ke : execUnitCmdSump value s = .next kt) :
    Same m a kt := by
  unfold execUnitCmdSump at ke
  refine Same.of_done ke ?_
  repeat' first
    | with_reducible assumption
    | (lift_lets; intro kx)
    | (with_reducible first | apply State.onReady_same | apply State.onSteward_same | apply State.unitCmd_same)

theorem execUnitCmdReadmit_same {m : Component → Bool} {a s : State} (h : Same m a s) (value : Word)
    (n_regs : m .regs = false) (n_links : m .links = false) (n_crossings : m .crossings = false)
    (n_cfg : m .cfg = false) (n_flt : m .flt = false) (n_chk : m .chk = false) (n_hub : m .hub = false)
    (n_fleet : m .fleet = false) (n_dense : m .dense = false) (n_emb : m .emb = false) (n_det : m .det = false)
    {kt : State} (ke : execUnitCmdReadmit value s = .next kt) :
    Same m a kt := by
  unfold execUnitCmdReadmit at ke
  refine Same.of_done ke ?_
  repeat' first
    | with_reducible assumption
    | (lift_lets; intro kx)
    | (with_reducible first | apply State.onReady_same | apply State.onSteward_same | apply State.unitCmd_same)

theorem execUnitCmdScreen_same {m : Component → Bool} {a s : State} (h : Same m a s) (value : Word)
    (n_regs : m .regs = false) (n_links : m .links = false) (n_crossings : m .crossings = false)
    (n_cfg : m .cfg = false) (n_flt : m .flt = false) (n_chk : m .chk = false) (n_hub : m .hub = false)
    (n_fleet : m .fleet = false) (n_dense : m .dense = false) (n_emb : m .emb = false) (n_det : m .det = false)
    {kt : State} (ke : execUnitCmdScreen value s = .next kt) :
    Same m a kt := by
  unfold execUnitCmdScreen at ke
  refine Same.of_done ke ?_
  repeat' first
    | with_reducible assumption
    | (lift_lets; intro kx)
    | (with_reducible first | apply State.onReady_same | apply State.onSteward_same | apply State.unitCmd_same)

theorem State.readmitSlice_same {m : Component → Bool} {a s : State} (h : Same m a s) (k : Nat)
    (n_regs : m .regs = false) (n_cfg : m .cfg = false) (n_flt : m .flt = false) (n_chk : m .chk = false)
    (n_wire : m .wire = false) :
    Same m a (State.readmitSlice s k) := by
  unfold State.readmitSlice
  repeat' first
    | (with_reducible first | assumption | refine Same.ite ?_ ?_)
    | (lift_lets; intro kx; refine Same.step (m := m) (a := a) (x := kx) ?_ fun hkx => ?_)
    | (lift_lets; intro kx)
    | (simp only [Same.mk_iff]; apply SameF.of; all_goals first
        | with_reducible exact Off.refl | exact Off.no (by assumption) | skip)
    | (with_reducible first
        | apply State.setUnit_same | apply State.markDirty_same | apply State.recoveryReload_same
        | apply State.noteReadmitted_same | apply State.quickPass_same)
    | (simp only [kx, Same.mk_iff]; apply SameF.of; all_goals first
        | with_reducible exact Off.refl | exact Off.no (by assumption) | skip)
    | (with_reducible first
        | refine Same.foldl ?_ fun kb ky hkb => ?_ | refine Same.foldl_snd ?_ fun kb ky hkb => ?_
        | refine Same.foldl_fst ?_ fun kb ky hkb => ?_)
    | split
    | (with_reducible first
        | refine Same.of_snd (by assumption) ?_ | refine Same.of_fst (by assumption) ?_
        | refine Same.of_third (by assumption) ?_)
    | dsimp only
    | unfold kx

theorem State.passUnit_same {m : Component → Bool} {a s : State} (h : Same m a s) (k : Nat) (pack : Nat)
    (n_regs : m .regs = false) (n_cfg : m .cfg = false) (n_flt : m .flt = false) (n_chk : m .chk = false)
    (n_wire : m .wire = false) :
    Same m a (State.passUnit s k pack) := by
  unfold State.passUnit
  repeat' first
    | (with_reducible first | assumption | refine Same.ite ?_ ?_)
    | (lift_lets; intro kx; refine Same.step (m := m) (a := a) (x := kx) ?_ fun hkx => ?_)
    | (lift_lets; intro kx)
    | (simp only [Same.mk_iff]; apply SameF.of; all_goals first
        | with_reducible exact Off.refl | exact Off.no (by assumption) | skip)
    | (with_reducible first
        | apply State.setUnit_same | apply State.markDirty_same | apply State.setReturning_same
        | apply State.readmitSlice_same)
    | (simp only [kx, Same.mk_iff]; apply SameF.of; all_goals first
        | with_reducible exact Off.refl | exact Off.no (by assumption) | skip)
    | (with_reducible first
        | refine Same.foldl ?_ fun kb ky hkb => ?_ | refine Same.foldl_snd ?_ fun kb ky hkb => ?_
        | refine Same.foldl_fst ?_ fun kb ky hkb => ?_)
    | split
    | (with_reducible first
        | refine Same.of_snd (by assumption) ?_ | refine Same.of_fst (by assumption) ?_
        | refine Same.of_third (by assumption) ?_)
    | dsimp only
    | unfold kx

theorem State.screenComplete_same {m : Component → Bool} {a s : State} (h : Same m a s) (k : Nat) (pass : Bool)
    (point : Nat) (test : Nat) (n_regs : m .regs = false) (n_links : m .links = false)
    (n_crossings : m .crossings = false) (n_cfg : m .cfg = false) (n_flt : m .flt = false) (n_chk : m .chk = false)
    (n_hub : m .hub = false) (n_fleet : m .fleet = false) (n_dense : m .dense = false) (n_emb : m .emb = false)
    (n_wire : m .wire = false) (n_det : m .det = false) :
    Same m a (State.screenComplete s k pass point test) := by
  unfold State.screenComplete
  repeat' first
    | (with_reducible first | assumption | refine Same.ite ?_ ?_)
    | (lift_lets; intro kx; refine Same.step (m := m) (a := a) (x := kx) ?_ fun hkx => ?_)
    | (lift_lets; intro kx)
    | (simp only [Same.mk_iff]; apply SameF.of; all_goals first
        | with_reducible exact Off.refl | exact Off.no (by assumption) | skip)
    | (with_reducible first
        | apply State.retire_same | apply State.strikeSump_same | apply State.setRotating_same
        | apply State.screenRecord_same | apply State.setQuick_same | apply State.remap_same
        | apply State.cmdDone_same | apply State.passUnit_same)
    | (simp only [kx, Same.mk_iff]; apply SameF.of; all_goals first
        | with_reducible exact Off.refl | exact Off.no (by assumption) | skip)
    | (with_reducible first
        | refine Same.foldl ?_ fun kb ky hkb => ?_ | refine Same.foldl_snd ?_ fun kb ky hkb => ?_
        | refine Same.foldl_fst ?_ fun kb ky hkb => ?_)
    | split
    | (with_reducible first
        | refine Same.of_snd (by assumption) ?_ | refine Same.of_fst (by assumption) ?_
        | refine Same.of_third (by assumption) ?_)
    | dsimp only
    | unfold kx

theorem execScreenComplete_same {m : Component → Bool} {a s : State} (h : Same m a s) (key : BitVec 32)
    (pass : Bool) (point : BitVec 3) (test : BitVec 12) (n_regs : m .regs = false) (n_links : m .links = false)
    (n_crossings : m .crossings = false) (n_cfg : m .cfg = false) (n_flt : m .flt = false) (n_chk : m .chk = false)
    (n_hub : m .hub = false) (n_fleet : m .fleet = false) (n_dense : m .dense = false) (n_emb : m .emb = false)
    (n_wire : m .wire = false) (n_det : m .det = false) {kt : State}
    (ke : execScreenComplete key pass point test s = .next kt) :
    Same m a kt := by
  unfold execScreenComplete at ke
  refine Same.of_done ke ?_
  repeat' first
    | with_reducible assumption
    | (lift_lets; intro kx)
    | (with_reducible first | apply State.onSteward_same | apply State.screenComplete_same)

theorem State.spareScreen_same {m : Component → Bool} {a s : State} (h : Same m a s) (n_flt : m .flt = false) :
    Same m a (State.spareScreen s) := by
  unfold State.spareScreen
  repeat' first
    | (with_reducible first | assumption | refine Same.ite ?_ ?_)
    | (lift_lets; intro kx; refine Same.step (m := m) (a := a) (x := kx) ?_ fun hkx => ?_)
    | (lift_lets; intro kx)
    | (simp only [Same.mk_iff]; apply SameF.of; all_goals first
        | with_reducible exact Off.refl | exact Off.no (by assumption) | skip)
    | with_reducible apply State.addScreen_same
    | (simp only [kx, Same.mk_iff]; apply SameF.of; all_goals first
        | with_reducible exact Off.refl | exact Off.no (by assumption) | skip)
    | (with_reducible first
        | refine Same.foldl ?_ fun kb ky hkb => ?_ | refine Same.foldl_snd ?_ fun kb ky hkb => ?_
        | refine Same.foldl_fst ?_ fun kb ky hkb => ?_)
    | split
    | (with_reducible first
        | refine Same.of_snd (by assumption) ?_ | refine Same.of_fst (by assumption) ?_
        | refine Same.of_third (by assumption) ?_)
    | dsimp only
    | unfold kx

theorem execSpareScreen_same {m : Component → Bool} {a s : State} (h : Same m a s) (n_flt : m .flt = false)
    {kt : State} (ke : execSpareScreen s = .next kt) :
    Same m a kt := by
  unfold execSpareScreen at ke
  refine Same.of_done ke ?_
  repeat' first
    | with_reducible assumption
    | (lift_lets; intro kx)
    | (with_reducible first | apply State.onSteward_same | apply State.spareScreen_same)

theorem State.strikeExpiry_same {m : Component → Bool} {a s : State} (h : Same m a s) (k : Nat)
    (n_flt : m .flt = false) :
    Same m a (State.strikeExpiry s k) := by
  unfold State.strikeExpiry
  repeat' first
    | with_reducible assumption
    | (lift_lets; intro kx)
    | with_reducible apply State.setUnit_same
    | split

theorem execStrikeExpiry_same {m : Component → Bool} {a s : State} (h : Same m a s) (key : BitVec 32)
    (n_flt : m .flt = false) {kt : State} (ke : execStrikeExpiry key s = .next kt) :
    Same m a kt := by
  unfold execStrikeExpiry at ke
  refine Same.of_done ke ?_
  repeat' (with_reducible first | assumption | refine Same.ite ?_ ?_ | apply State.strikeExpiry_same)

theorem State.corrected24h_same {m : Component → Bool} {a s : State} (h : Same m a s) (k : Nat)
    (n_flt : m .flt = false) :
    Same m a (State.corrected24h s k) := by
  unfold State.corrected24h
  repeat' first
    | (with_reducible first | assumption | refine Same.ite ?_ ?_)
    | (lift_lets; intro kx; refine Same.step (m := m) (a := a) (x := kx) ?_ fun hkx => ?_)
    | (lift_lets; intro kx)
    | (simp only [Same.mk_iff]; apply SameF.of; all_goals first
        | with_reducible exact Off.refl | exact Off.no (by assumption) | skip)
    | with_reducible apply State.setUnit_same
    | (simp only [kx, Same.mk_iff]; apply SameF.of; all_goals first
        | with_reducible exact Off.refl | exact Off.no (by assumption) | skip)
    | (with_reducible first
        | refine Same.foldl ?_ fun kb ky hkb => ?_ | refine Same.foldl_snd ?_ fun kb ky hkb => ?_
        | refine Same.foldl_fst ?_ fun kb ky hkb => ?_)
    | split
    | (with_reducible first
        | refine Same.of_snd (by assumption) ?_ | refine Same.of_fst (by assumption) ?_
        | refine Same.of_third (by assumption) ?_)
    | dsimp only
    | unfold kx

theorem execCorrected24hWindow_same {m : Component → Bool} {a s : State} (h : Same m a s) (key : BitVec 32)
    (n_flt : m .flt = false) {kt : State} (ke : execCorrected24hWindow key s = .next kt) :
    Same m a kt := by
  unfold execCorrected24hWindow at ke
  refine Same.of_done ke ?_
  repeat' (with_reducible first | assumption | refine Same.ite ?_ ?_ | apply State.corrected24h_same)

end Sys2Proof.Machine
end

