-- ==== Sys2Proof/Laws/SameSeam.lean ====
section
/-! SUPPORT. What the operations of Machine/Seam.lean leave alone (`Same`). -/

set_option linter.unusedSimpArgs false

namespace Sys2Proof.Machine

theorem State.beginStep_same {m : Component → Bool} {a s : State} (h : Same m a s) (n_fresh : m .fresh = false)
    (n_regs : m .regs = false) (n_mem : m .mem = false) (n_crossings : m .crossings = false)
    (n_cfg : m .cfg = false) (n_flt : m .flt = false) (n_chk : m .chk = false) (n_mm : m .mm = false)
    (n_hub : m .hub = false) (n_fleet : m .fleet = false) (n_dense : m .dense = false) (n_emb : m .emb = false) :
    Same m a (State.beginStep s) := by
  unfold State.beginStep
  repeat' first
    | (with_reducible first | assumption | refine Same.ite ?_ ?_)
    | (lift_lets; intro kx; refine Same.step (m := m) (a := a) (x := kx) ?_ fun hkx => ?_)
    | (lift_lets; intro kx)
    | (simp only [Same.mk_iff]; apply SameF.of; all_goals first
        | with_reducible exact Off.refl | exact Off.no (by assumption) | skip)
    | (with_reducible first
        | apply State.setFld_same | apply State.setRun_same | apply State.setRecovery_same
        | apply State.clearStep_same | apply State.noteLive_same | apply State.scanStart_same
        | apply State.clearBanks_same)
    | (simp only [kx, Same.mk_iff]; apply SameF.of; all_goals first
        | with_reducible exact Off.refl | exact Off.no (by assumption) | skip)
    | (with_reducible first
        | refine Same.foldl ?_ fun kb ky hkb => ?_ | refine Same.foldl_snd ?_ fun kb ky hkb => ?_
        | refine Same.foldl_fst ?_ fun kb ky hkb => ?_)
    | split
    | (with_reducible first
        | refine Same.of_snd (by assumption) ?_ | refine Same.of_fst (by assumption) ?_
        | refine Same.of_third (by assumption) ?_)
    | dsimp only
    | unfold kx

theorem State.takeCopy_same {m : Component → Bool} {a s : State} (h : Same m a s) (n_fresh : m .fresh = false)
    (n_regs : m .regs = false) (n_mem : m .mem = false) (n_flt : m .flt = false) (n_chk : m .chk = false)
    (n_mm : m .mm = false) :
    Same m a (State.takeCopy s) := by
  unfold State.takeCopy
  repeat' first
    | (with_reducible first | assumption | refine Same.ite ?_ ?_)
    | (lift_lets; intro kx; refine Same.step (m := m) (a := a) (x := kx) ?_ fun hkx => ?_)
    | (lift_lets; intro kx)
    | (simp only [Same.mk_iff]; apply SameF.of; all_goals first
        | with_reducible exact Off.refl | exact Off.no (by assumption) | skip)
    | with_reducible apply State.openArea_same
    | (simp only [kx, Same.mk_iff]; apply SameF.of; all_goals first
        | with_reducible exact Off.refl | exact Off.no (by assumption) | skip)
    | (with_reducible first
        | refine Same.foldl ?_ fun kb ky hkb => ?_ | refine Same.foldl_snd ?_ fun kb ky hkb => ?_
        | refine Same.foldl_fst ?_ fun kb ky hkb => ?_)
    | split
    | (with_reducible first
        | refine Same.of_snd (by assumption) ?_ | refine Same.of_fst (by assumption) ?_
        | refine Same.of_third (by assumption) ?_)
    | dsimp only
    | unfold kx

theorem State.setAgreed_same {m : Component → Bool} {a s : State} (h : Same m a s) (k : Nat)
    (n_regs : m .regs = false) :
    Same m a (State.setAgreed s k) := by
  unfold State.setAgreed
  repeat' (with_reducible first | assumption | refine Same.ite ?_ ?_ | apply State.setReg_same)

theorem State.fillRound_same {m : Component → Bool} {a s : State} (h : Same m a s) (n_regs : m .regs = false)
    (n_flt : m .flt = false) :
    Same m a (State.fillRound s) := by
  unfold State.fillRound
  repeat' first
    | (with_reducible first | assumption | refine Same.ite ?_ ?_)
    | (lift_lets; intro kx; refine Same.step (m := m) (a := a) (x := kx) ?_ fun hkx => ?_)
    | (lift_lets; intro kx)
    | (simp only [Same.mk_iff]; apply SameF.of; all_goals first
        | with_reducible exact Off.refl | exact Off.no (by assumption) | skip)
    | with_reducible apply State.setAgreed_same
    | (simp only [kx, Same.mk_iff]; apply SameF.of; all_goals first
        | with_reducible exact Off.refl | exact Off.no (by assumption) | skip)
    | (with_reducible first
        | refine Same.foldl ?_ fun kb ky hkb => ?_ | refine Same.foldl_snd ?_ fun kb ky hkb => ?_
        | refine Same.foldl_fst ?_ fun kb ky hkb => ?_)
    | split
    | (with_reducible first
        | refine Same.of_snd (by assumption) ?_ | refine Same.of_fst (by assumption) ?_
        | refine Same.of_third (by assumption) ?_)
    | dsimp only
    | unfold kx

theorem State.seamNext_same {m : Component → Bool} {a s : State} (h : Same m a s) (n_fresh : m .fresh = false)
    (n_regs : m .regs = false) (n_mem : m .mem = false) (n_crossings : m .crossings = false)
    (n_cfg : m .cfg = false) (n_flt : m .flt = false) (n_chk : m .chk = false) (n_mm : m .mm = false)
    (n_hub : m .hub = false) (n_fleet : m .fleet = false) (n_dense : m .dense = false) (n_emb : m .emb = false)
    (n_det : m .det = false) :
    Same m a (State.seamNext s) := by
  unfold State.seamNext
  repeat' first
    | (with_reducible first
        | assumption | refine Same.ite ?_ ?_ | apply State.setHold_same | apply State.endHold_same
        | apply State.beginSave_same | apply State.beginStep_same | apply State.takeCopy_same
        | apply State.fillRound_same)
    | split

theorem State.seamWork_same {m : Component → Bool} {a s : State} (h : Same m a s) (n_fresh : m .fresh = false)
    (n_regs : m .regs = false) (n_mem : m .mem = false) (n_links : m .links = false)
    (n_crossings : m .crossings = false) (n_cfg : m .cfg = false) (n_flt : m .flt = false) (n_chk : m .chk = false)
    (n_hub : m .hub = false) (n_fleet : m .fleet = false) (n_dense : m .dense = false) (n_emb : m .emb = false)
    (n_wire : m .wire = false) (n_det : m .det = false) (n_time : m .time = false) :
    Same m a (State.seamWork s) := by
  unfold State.seamWork
  repeat' first
    | (with_reducible first
        | assumption | refine Same.ite ?_ ?_ | apply State.applySeamGroups_same | apply State.remap_same
        | apply State.seamRotations_same | apply State.sumpNow_same | apply State.retrainMarked_same)

theorem State.setLimit_same {m : Component → Bool} {a s : State} (h : Same m a s) (v : Word)
    (n_regs : m .regs = false) :
    Same m a (State.setLimit s v) := by
  unfold State.setLimit
  repeat' (with_reducible first | assumption | refine Same.ite ?_ ?_ | apply State.setFld_same)

theorem State.startRun_same {m : Component → Bool} {a s : State} (h : Same m a s) (at_ : Bool)
    (n_fresh : m .fresh = false) (n_regs : m .regs = false) (n_mem : m .mem = false)
    (n_crossings : m .crossings = false) (n_cfg : m .cfg = false) (n_flt : m .flt = false) (n_chk : m .chk = false)
    (n_mm : m .mm = false) (n_hub : m .hub = false) (n_fleet : m .fleet = false) (n_dense : m .dense = false)
    (n_emb : m .emb = false) (n_det : m .det = false) :
    Same m a (State.startRun s at_) := by
  unfold State.startRun
  repeat' first
    | (with_reducible first | assumption | refine Same.ite ?_ ?_)
    | (simp only [Same.mk_iff]; apply SameF.of; all_goals first
        | with_reducible exact Off.refl | exact Off.no (by assumption) | skip)
    | (with_reducible first
        | apply State.setFld_same | apply State.setRun_same | apply State.raiseIrq_same
        | apply State.setLoadState_same | apply State.seamNext_same)

theorem State.runStart_same {m : Component → Bool} {a s : State} (h : Same m a s) (at_ : Bool) (v : Word)
    (n_fresh : m .fresh = false) (n_regs : m .regs = false) (n_mem : m .mem = false)
    (n_crossings : m .crossings = false) (n_cfg : m .cfg = false) (n_flt : m .flt = false) (n_chk : m .chk = false)
    (n_mm : m .mm = false) (n_hub : m .hub = false) (n_fleet : m .fleet = false) (n_dense : m .dense = false)
    (n_emb : m .emb = false) (n_det : m .det = false) :
    Same m a (State.runStart s at_ v) := by
  unfold State.runStart
  repeat' first
    | (with_reducible first | assumption | refine Same.ite ?_ ?_)
    | (lift_lets; intro kx)
    | (with_reducible first
        | apply State.onReady_same | apply State.setLoadCode_same | apply State.setLimit_same
        | apply State.startRun_same)

theorem execRunStart_same {m : Component → Bool} {a s : State} (h : Same m a s) (value : Word)
    (n_fresh : m .fresh = false) (n_regs : m .regs = false) (n_mem : m .mem = false)
    (n_crossings : m .crossings = false) (n_cfg : m .cfg = false) (n_flt : m .flt = false) (n_chk : m .chk = false)
    (n_mm : m .mm = false) (n_hub : m .hub = false) (n_fleet : m .fleet = false) (n_dense : m .dense = false)
    (n_emb : m .emb = false) (n_det : m .det = false) {kt : State} (ke : execRunStart value s = .next kt) :
    Same m a kt := by
  unfold execRunStart at ke
  refine Same.of_done ke ?_
  repeat' first
    | with_reducible assumption
    | (lift_lets; intro kx)
    | (with_reducible first | apply State.onSteward_same | apply State.runStart_same)

theorem execRunStartAt_same {m : Component → Bool} {a s : State} (h : Same m a s) (value : Word)
    (n_fresh : m .fresh = false) (n_regs : m .regs = false) (n_mem : m .mem = false)
    (n_crossings : m .crossings = false) (n_cfg : m .cfg = false) (n_flt : m .flt = false) (n_chk : m .chk = false)
    (n_mm : m .mm = false) (n_hub : m .hub = false) (n_fleet : m .fleet = false) (n_dense : m .dense = false)
    (n_emb : m .emb = false) (n_det : m .det = false) {kt : State} (ke : execRunStartAt value s = .next kt) :
    Same m a kt := by
  unfold execRunStartAt at ke
  refine Same.of_done ke ?_
  repeat' first
    | with_reducible assumption
    | (lift_lets; intro kx)
    | (with_reducible first | apply State.onSteward_same | apply State.runStart_same)

theorem State.atLaunch_same {m : Component → Bool} {a s : State} (h : Same m a s) (n_fresh : m .fresh = false)
    (n_regs : m .regs = false) (n_mem : m .mem = false) (n_crossings : m .crossings = false)
    (n_cfg : m .cfg = false) (n_flt : m .flt = false) (n_chk : m .chk = false) (n_mm : m .mm = false)
    (n_hub : m .hub = false) (n_fleet : m .fleet = false) (n_dense : m .dense = false) (n_emb : m .emb = false) :
    Same m a (State.atLaunch s) := by
  unfold State.atLaunch
  repeat' first
    | (with_reducible first
        | assumption | refine Same.ite ?_ ?_ | apply State.setReg_same | apply State.setFld_same
        | apply State.beginStep_same)

theorem execAtLaunch_same {m : Component → Bool} {a s : State} (h : Same m a s) (n_fresh : m .fresh = false)
    (n_regs : m .regs = false) (n_mem : m .mem = false) (n_crossings : m .crossings = false)
    (n_cfg : m .cfg = false) (n_flt : m .flt = false) (n_chk : m .chk = false) (n_mm : m .mm = false)
    (n_hub : m .hub = false) (n_fleet : m .fleet = false) (n_dense : m .dense = false) (n_emb : m .emb = false)
    {kt : State} (ke : execAtLaunch s = .next kt) :
    Same m a kt := by
  unfold execAtLaunch at ke
  refine Same.of_done ke ?_
  repeat' (with_reducible first | assumption | refine Same.ite ?_ ?_ | apply State.atLaunch_same)

theorem State.toLoaded_same {m : Component → Bool} {a s : State} (h : Same m a s) (n_regs : m .regs = false)
    (n_cfg : m .cfg = false) (n_flt : m .flt = false) (n_hub : m .hub = false) :
    Same m a (State.toLoaded s) := by
  unfold State.toLoaded
  repeat' first
    | (with_reducible first
        | assumption | refine Same.ite ?_ ?_ | apply State.setFld_same | apply State.setRun_same
        | apply State.setLoadState_same | apply State.endHold_same)

theorem State.stopRun_same {m : Component → Bool} {a s : State} (h : Same m a s) (n_regs : m .regs = false)
    (n_cfg : m .cfg = false) (n_flt : m .flt = false) (n_hub : m .hub = false) :
    Same m a (State.stopRun s) := by
  unfold State.stopRun
  repeat' first
    | (with_reducible first
        | assumption | refine Same.ite ?_ ?_ | apply State.setLoadState_same | apply State.toLoaded_same)

theorem State.runStop_same {m : Component → Bool} {a s : State} (h : Same m a s) (v : Word)
    (n_regs : m .regs = false) (n_cfg : m .cfg = false) (n_flt : m .flt = false) (n_hub : m .hub = false) :
    Same m a (State.runStop s v) := by
  unfold State.runStop
  repeat' first
    | (with_reducible first
        | assumption | refine Same.ite ?_ ?_ | apply State.setLimit_same | apply State.stopRun_same)

theorem execRunStop_same {m : Component → Bool} {a s : State} (h : Same m a s) (value : Word)
    (n_regs : m .regs = false) (n_cfg : m .cfg = false) (n_flt : m .flt = false) (n_hub : m .hub = false)
    {kt : State} (ke : execRunStop value s = .next kt) :
    Same m a kt := by
  unfold execRunStop at ke
  refine Same.of_done ke ?_
  repeat' first
    | with_reducible assumption
    | (lift_lets; intro kx)
    | (with_reducible first | apply State.onReady_same | apply State.runStop_same)

theorem State.abortOutputs_same {m : Component → Bool} {a s : State} (h : Same m a s) (entries : List Ent)
    (n_fresh : m .fresh = false) (n_mem : m .mem = false) (n_mm : m .mm = false) :
    Same m a (State.abortOutputs s entries) := by
  unfold State.abortOutputs
  repeat' first
    | (with_reducible first
        | assumption | refine Same.ite ?_ ?_ | apply State.tickFree_same | apply State.write_same
        | refine Same.foldl ?_ fun kb ky hkb => ?_)

theorem State.cutOff_same {m : Component → Bool} {a s : State} (h : Same m a s) (n_fresh : m .fresh = false)
    (n_regs : m .regs = false) (n_mem : m .mem = false) (n_crossings : m .crossings = false)
    (n_cfg : m .cfg = false) (n_chk : m .chk = false) (n_mm : m .mm = false) (n_hub : m .hub = false)
    (n_dense : m .dense = false) (n_emb : m .emb = false) (n_det : m .det = false) :
    Same m a (State.cutOff s) := by
  unfold State.cutOff
  repeat' first
    | (with_reducible first | assumption | refine Same.ite ?_ ?_)
    | (lift_lets; intro kx; refine Same.step (m := m) (a := a) (x := kx) ?_ fun hkx => ?_)
    | (lift_lets; intro kx)
    | (simp only [Same.mk_iff]; apply SameF.of; all_goals first
        | with_reducible exact Off.refl | exact Off.no (by assumption) | skip)
    | (with_reducible first
        | apply State.setRun_same | apply State.setLoadState_same | apply State.dropExports_same
        | apply State.failSave_same | apply State.clearStep_same | apply State.abortOutputs_same)
    | (simp only [kx, Same.mk_iff]; apply SameF.of; all_goals first
        | with_reducible exact Off.refl | exact Off.no (by assumption) | skip)
    | (with_reducible first
        | refine Same.foldl ?_ fun kb ky hkb => ?_ | refine Same.foldl_snd ?_ fun kb ky hkb => ?_
        | refine Same.foldl_fst ?_ fun kb ky hkb => ?_)
    | split
    | (with_reducible first
        | refine Same.of_snd (by assumption) ?_ | refine Same.of_fst (by assumption) ?_
        | refine Same.of_third (by assumption) ?_)
    | dsimp only
    | unfold kx

theorem State.abortStopped_same {m : Component → Bool} {a s : State} (h : Same m a s) (n_fresh : m .fresh = false)
    (n_regs : m .regs = false) (n_mem : m .mem = false) (n_crossings : m .crossings = false)
    (n_cfg : m .cfg = false) (n_flt : m .flt = false) (n_chk : m .chk = false) (n_mm : m .mm = false)
    (n_hub : m .hub = false) (n_dense : m .dense = false) (n_emb : m .emb = false) (n_det : m .det = false) :
    Same m a (State.abortStopped s) := by
  unfold State.abortStopped
  repeat' first
    | (with_reducible first | assumption | refine Same.ite ?_ ?_)
    | (simp only [Same.mk_iff]; apply SameF.of; all_goals first
        | with_reducible exact Off.refl | exact Off.no (by assumption) | skip)
    | (with_reducible first | apply State.toLoaded_same | apply State.cutOff_same)

theorem State.runAbort_same {m : Component → Bool} {a s : State} (h : Same m a s) (v : Word)
    (n_fresh : m .fresh = false) (n_regs : m .regs = false) (n_mem : m .mem = false) (n_links : m .links = false)
    (n_crossings : m .crossings = false) (n_cfg : m .cfg = false) (n_flt : m .flt = false) (n_chk : m .chk = false)
    (n_mm : m .mm = false) (n_hub : m .hub = false) (n_fleet : m .fleet = false) (n_dense : m .dense = false)
    (n_emb : m .emb = false) (n_wire : m .wire = false) (n_det : m .det = false) (n_time : m .time = false) :
    Same m a (State.runAbort s v) := by
  unfold State.runAbort
  repeat' first
    | (with_reducible first
        | assumption | refine Same.ite ?_ ?_ | apply State.seamWork_same | apply State.setLimit_same
        | apply State.toLoaded_same | apply State.cutOff_same | apply State.abortStopped_same)

theorem execRunAbort_same {m : Component → Bool} {a s : State} (h : Same m a s) (value : Word)
    (n_fresh : m .fresh = false) (n_regs : m .regs = false) (n_mem : m .mem = false) (n_links : m .links = false)
    (n_crossings : m .crossings = false) (n_cfg : m .cfg = false) (n_flt : m .flt = false) (n_chk : m .chk = false)
    (n_mm : m .mm = false) (n_hub : m .hub = false) (n_fleet : m .fleet = false) (n_dense : m .dense = false)
    (n_emb : m .emb = false) (n_wire : m .wire = false) (n_det : m .det = false) (n_time : m .time = false)
    {kt : State} (ke : execRunAbort value s = .next kt) :
    Same m a kt := by
  unfold execRunAbort at ke
  refine Same.of_done ke ?_
  repeat' first
    | with_reducible assumption
    | (lift_lets; intro kx)
    | (with_reducible first | apply State.onReady_same | apply State.runAbort_same)

theorem State.stopLedger_same {m : Component → Bool} {a s : State} (h : Same m a s) (ts : List Nat)
    (n_regs : m .regs = false) (n_cfg : m .cfg = false) (n_flt : m .flt = false) (n_chk : m .chk = false)
    (n_hub : m .hub = false) (n_fleet : m .fleet = false) :
    Same m a (State.stopLedger s ts) := by
  unfold State.stopLedger
  repeat' first
    | with_reducible assumption
    | (simp only [Same.mk_iff]; apply SameF.of; all_goals first
        | with_reducible exact Off.refl | exact Off.no (by assumption) | skip)
    | (with_reducible first
        | apply State.bump_same | apply State.emit_same | apply State.stopStep_same
        | refine Same.foldl ?_ fun kb ky hkb => ?_)

theorem State.stopPips_same {m : Component → Bool} {a s : State} (h : Same m a s) (ts : List Nat)
    (n_regs : m .regs = false) (n_cfg : m .cfg = false) (n_flt : m .flt = false) (n_chk : m .chk = false)
    (n_hub : m .hub = false) (n_fleet : m .fleet = false) :
    Same m a (State.stopPips s ts) := by
  unfold State.stopPips
  repeat' first
    | (with_reducible first | assumption | refine Same.ite ?_ ?_)
    | (lift_lets; intro kx; refine Same.step (m := m) (a := a) (x := kx) ?_ fun hkx => ?_)
    | (lift_lets; intro kx)
    | (simp only [Same.mk_iff]; apply SameF.of; all_goals first
        | with_reducible exact Off.refl | exact Off.no (by assumption) | skip)
    | (with_reducible first
        | apply State.bump_same | apply State.emit_same | apply State.stopStep_same | apply State.rollbackAll_same)
    | (simp only [kx, Same.mk_iff]; apply SameF.of; all_goals first
        | with_reducible exact Off.refl | exact Off.no (by assumption) | skip)
    | (with_reducible first
        | refine Same.foldl ?_ fun kb ky hkb => ?_ | refine Same.foldl_snd ?_ fun kb ky hkb => ?_
        | refine Same.foldl_fst ?_ fun kb ky hkb => ?_)
    | split
    | (with_reducible first
        | refine Same.of_snd (by assumption) ?_ | refine Same.of_fst (by assumption) ?_
        | refine Same.of_third (by assumption) ?_)
    | dsimp only
    | unfold kx

theorem State.stopPoison_same {m : Component → Bool} {a s : State} (h : Same m a s) (aa : Nat)
    (n_regs : m .regs = false) (n_cfg : m .cfg = false) (n_flt : m .flt = false) (n_chk : m .chk = false)
    (n_hub : m .hub = false) (n_fleet : m .fleet = false) :
    Same m a (State.stopPoison s aa) := by
  unfold State.stopPoison
  repeat' first
    | (with_reducible first
        | assumption | refine Same.ite ?_ ?_ | apply State.bump_same | apply State.emit_same
        | apply State.stopStep_same)

theorem State.promotePips_same {m : Component → Bool} {a s : State} (h : Same m a s) (n_chk : m .chk = false) :
    Same m a (State.promotePips s) := by
  unfold State.promotePips
  repeat' first
    | with_reducible assumption
    | (simp only [Same.mk_iff]; apply SameF.of; all_goals first
        | with_reducible exact Off.refl | exact Off.no (by assumption) | skip)

theorem State.foldStash_same {m : Component → Bool} {a s : State} (h : Same m a s) (n_mem : m .mem = false)
    (n_mm : m .mm = false) :
    Same m a (State.foldStash s) := by
  unfold State.foldStash
  repeat' first
    | (with_reducible first
        | assumption | refine Same.ite ?_ ?_ | apply State.write_same | refine Same.foldl ?_ fun kb ky hkb => ?_)
    | exact hkz

theorem State.unpinRows_same {m : Component → Bool} {a s : State} (h : Same m a s) (n_emb : m .emb = false) :
    Same m a (State.unpinRows s) := by
  unfold State.unpinRows
  repeat' (with_reducible first | assumption | refine Same.ite ?_ ?_ | apply State.setLines_same)

theorem State.crossBanks_same {m : Component → Bool} {a s : State} (h : Same m a s) (n_emb : m .emb = false) :
    Same m a (State.crossBanks s) := by
  unfold State.crossBanks
  repeat' first
    | with_reducible assumption
    | (simp only [Same.mk_iff]; apply SameF.of; all_goals first
        | with_reducible exact Off.refl | exact Off.no (by assumption) | skip)

theorem State.sumLedgers_same {m : Component → Bool} {a s : State} (h : Same m a s) (n_chk : m .chk = false) :
    Same m a (State.sumLedgers s) := by
  unfold State.sumLedgers
  repeat' first
    | with_reducible assumption
    | (simp only [Same.mk_iff]; apply SameF.of; all_goals first
        | with_reducible exact Off.refl | exact Off.no (by assumption) | skip)

theorem State.echoRound_same {m : Component → Bool} {a s : State} (h : Same m a s) (k : Nat)
    (n_regs : m .regs = false) (n_chk : m .chk = false) (n_hub : m .hub = false) (n_fleet : m .fleet = false) :
    Same m a (State.echoRound s k) := by
  unfold State.echoRound
  repeat' first
    | with_reducible assumption
    | (simp only [Same.mk_iff]; apply SameF.of; all_goals first
        | with_reducible exact Off.refl | exact Off.no (by assumption) | skip)
    | (with_reducible first | apply State.setFld_same | apply State.bump_same | apply State.sendMsg_same)

theorem State.countStep_same {m : Component → Bool} {a s : State} (h : Same m a s) (n_regs : m .regs = false) :
    Same m a (State.countStep s) := by
  unfold State.countStep
  repeat' (with_reducible first | assumption | refine Same.ite ?_ ?_ | apply State.bump_same)

theorem State.reachSeam_same {m : Component → Bool} {a s : State} (h : Same m a s) (n_regs : m .regs = false)
    (n_mem : m .mem = false) (n_crossings : m .crossings = false) (n_cfg : m .cfg = false) (n_flt : m .flt = false)
    (n_chk : m .chk = false) (n_mm : m .mm = false) (n_hub : m .hub = false) (n_fleet : m .fleet = false)
    (n_dense : m .dense = false) (n_emb : m .emb = false) :
    Same m a (State.reachSeam s) := by
  unfold State.reachSeam
  repeat' first
    | (with_reducible first | assumption | refine Same.ite ?_ ?_)
    | (lift_lets; intro kx; refine Same.step (m := m) (a := a) (x := kx) ?_ fun hkx => ?_)
    | (lift_lets; intro kx)
    | (simp only [Same.mk_iff]; apply SameF.of; all_goals first
        | with_reducible exact Off.refl | exact Off.no (by assumption) | skip)
    | (with_reducible first
        | apply State.setRun_same | apply State.clearStep_same | apply State.seamLive_same | apply State.setStep_same
        | apply State.promotePips_same | apply State.foldStash_same | apply State.unpinRows_same
        | apply State.crossBanks_same | apply State.sumLedgers_same | apply State.echoRound_same
        | apply State.countStep_same)
    | (simp only [kx, Same.mk_iff]; apply SameF.of; all_goals first
        | with_reducible exact Off.refl | exact Off.no (by assumption) | skip)
    | (with_reducible first
        | refine Same.foldl ?_ fun kb ky hkb => ?_ | refine Same.foldl_snd ?_ fun kb ky hkb => ?_
        | refine Same.foldl_fst ?_ fun kb ky hkb => ?_)
    | split
    | (with_reducible first
        | refine Same.of_snd (by assumption) ?_ | refine Same.of_fst (by assumption) ?_
        | refine Same.of_third (by assumption) ?_)
    | dsimp only
    | unfold kx

theorem State.stepSeam_same {m : Component → Bool} {a s : State} (h : Same m a s) (n_fresh : m .fresh = false)
    (n_regs : m .regs = false) (n_mem : m .mem = false) (n_links : m .links = false)
    (n_crossings : m .crossings = false) (n_cfg : m .cfg = false) (n_flt : m .flt = false) (n_chk : m .chk = false)
    (n_mm : m .mm = false) (n_hub : m .hub = false) (n_fleet : m .fleet = false) (n_dense : m .dense = false)
    (n_emb : m .emb = false) (n_wire : m .wire = false) (n_det : m .det = false) (n_time : m .time = false) :
    Same m a (State.stepSeam s) := by
  unfold State.stepSeam
  repeat' first
    | (with_reducible first | assumption | refine Same.ite ?_ ?_)
    | (lift_lets; intro kx; refine Same.step (m := m) (a := a) (x := kx) ?_ fun hkx => ?_)
    | (lift_lets; intro kx)
    | (simp only [Same.mk_iff]; apply SameF.of; all_goals first
        | with_reducible exact Off.refl | exact Off.no (by assumption) | skip)
    | (with_reducible first
        | apply State.bump_same | apply State.seamNext_same | apply State.seamWork_same | apply State.toLoaded_same
        | apply State.stopLedger_same | apply State.stopPips_same | apply State.stopPoison_same
        | apply State.reachSeam_same)
    | (simp only [kx, Same.mk_iff]; apply SameF.of; all_goals first
        | with_reducible exact Off.refl | exact Off.no (by assumption) | skip)
    | (with_reducible first
        | refine Same.foldl ?_ fun kb ky hkb => ?_ | refine Same.foldl_snd ?_ fun kb ky hkb => ?_
        | refine Same.foldl_fst ?_ fun kb ky hkb => ?_)
    | split
    | (with_reducible first
        | refine Same.of_snd (by assumption) ?_ | refine Same.of_fst (by assumption) ?_
        | refine Same.of_third (by assumption) ?_)
    | dsimp only
    | unfold kx

theorem execStepSeam_same {m : Component → Bool} {a s : State} (h : Same m a s) (n_fresh : m .fresh = false)
    (n_regs : m .regs = false) (n_mem : m .mem = false) (n_links : m .links = false)
    (n_crossings : m .crossings = false) (n_cfg : m .cfg = false) (n_flt : m .flt = false) (n_chk : m .chk = false)
    (n_mm : m .mm = false) (n_hub : m .hub = false) (n_fleet : m .fleet = false) (n_dense : m .dense = false)
    (n_emb : m .emb = false) (n_wire : m .wire = false) (n_det : m .det = false) (n_time : m .time = false)
    {kt : State} (ke : execStepSeam s = .next kt) :
    Same m a kt := by
  unfold execStepSeam at ke
  refine Same.of_done ke ?_
  repeat' (with_reducible first | assumption | refine Same.ite ?_ ?_ | apply State.stepSeam_same)

theorem State.partialReloadDone_same {m : Component → Bool} {a s : State} (h : Same m a s) (hwFault : Bool)
    (n_fresh : m .fresh = false) (n_regs : m .regs = false) (n_mem : m .mem = false)
    (n_crossings : m .crossings = false) (n_cfg : m .cfg = false) (n_flt : m .flt = false) (n_chk : m .chk = false)
    (n_mm : m .mm = false) (n_hub : m .hub = false) (n_fleet : m .fleet = false) (n_dense : m .dense = false)
    (n_emb : m .emb = false) (n_wire : m .wire = false) (n_det : m .det = false) (n_time : m .time = false) :
    Same m a (State.partialReloadDone s hwFault) := by
  unfold State.partialReloadDone
  repeat' first
    | (with_reducible first
        | assumption | apply State.loadFaultEnd_same | apply State.applyReload_same | apply State.seamNext_same)
    | split

theorem execPartialReloadDone_same {m : Component → Bool} {a s : State} (h : Same m a s) (hwFault : Bool)
    (n_fresh : m .fresh = false) (n_regs : m .regs = false) (n_mem : m .mem = false)
    (n_crossings : m .crossings = false) (n_cfg : m .cfg = false) (n_flt : m .flt = false) (n_chk : m .chk = false)
    (n_mm : m .mm = false) (n_hub : m .hub = false) (n_fleet : m .fleet = false) (n_dense : m .dense = false)
    (n_emb : m .emb = false) (n_wire : m .wire = false) (n_det : m .det = false) (n_time : m .time = false)
    {kt : State} (ke : execPartialReloadDone hwFault s = .next kt) :
    Same m a kt := by
  unfold execPartialReloadDone at ke
  refine Same.of_done ke ?_
  repeat' first
    | with_reducible assumption
    | (lift_lets; intro kx)
    | (with_reducible first | apply State.onSteward_same | apply State.partialReloadDone_same)

theorem State.checkpointCopyDone_same {m : Component → Bool} {a s : State} (h : Same m a s) (holdNs : Nat)
    (es : List MemError) (n_fresh : m .fresh = false) (n_regs : m .regs = false) (n_mem : m .mem = false)
    (n_crossings : m .crossings = false) (n_cfg : m .cfg = false) (n_flt : m .flt = false) (n_chk : m .chk = false)
    (n_mm : m .mm = false) (n_hub : m .hub = false) (n_fleet : m .fleet = false) (n_dense : m .dense = false)
    (n_emb : m .emb = false) (n_det : m .det = false) :
    Same m a (State.checkpointCopyDone s holdNs es) := by
  unfold State.checkpointCopyDone
  repeat' first
    | (with_reducible first | assumption | refine Same.ite ?_ ?_)
    | (simp only [Same.mk_iff]; apply SameF.of; all_goals first
        | with_reducible exact Off.refl | exact Off.no (by assumption) | skip)
    | (with_reducible first | apply State.bump_same | apply State.copyReads_same | apply State.seamNext_same)

theorem execCheckpointCopyDone_same {m : Component → Bool} {a s : State} (h : Same m a s) (copy : CopyEnd)
    (n_fresh : m .fresh = false) (n_regs : m .regs = false) (n_mem : m .mem = false)
    (n_crossings : m .crossings = false) (n_cfg : m .cfg = false) (n_flt : m .flt = false) (n_chk : m .chk = false)
    (n_mm : m .mm = false) (n_hub : m .hub = false) (n_fleet : m .fleet = false) (n_dense : m .dense = false)
    (n_emb : m .emb = false) (n_det : m .det = false) {kt : State} (ke : execCheckpointCopyDone copy s = .next kt) :
    Same m a kt := by
  unfold execCheckpointCopyDone at ke
  refine Same.of_done ke ?_
  repeat' first
    | (with_reducible first | assumption | refine Same.ite ?_ ?_)
    | (lift_lets; intro kx; refine Same.step (m := m) (a := a) (x := kx) ?_ fun hkx => ?_)
    | (lift_lets; intro kx)
    | (simp only [Same.mk_iff]; apply SameF.of; all_goals first
        | with_reducible exact Off.refl | exact Off.no (by assumption) | skip)
    | (with_reducible first | apply State.onSteward_same | apply State.checkpointCopyDone_same)
    | (simp only [kx, Same.mk_iff]; apply SameF.of; all_goals first
        | with_reducible exact Off.refl | exact Off.no (by assumption) | skip)
    | (with_reducible first
        | refine Same.foldl ?_ fun kb ky hkb => ?_ | refine Same.foldl_snd ?_ fun kb ky hkb => ?_
        | refine Same.foldl_fst ?_ fun kb ky hkb => ?_)
    | split
    | (with_reducible first
        | refine Same.of_snd (by assumption) ?_ | refine Same.of_fst (by assumption) ?_
        | refine Same.of_third (by assumption) ?_)
    | dsimp only
    | unfold kx

theorem State.endSave_same {m : Component → Bool} {a s : State} (h : Same m a s) (j : SnapJob) (hwFault : Bool)
    (es : List MemError) (n_fresh : m .fresh = false) (n_regs : m .regs = false) (n_mem : m .mem = false)
    (n_crossings : m .crossings = false) (n_cfg : m .cfg = false) (n_flt : m .flt = false) (n_chk : m .chk = false)
    (n_mm : m .mm = false) (n_hub : m .hub = false) (n_fleet : m .fleet = false) (n_dense : m .dense = false)
    (n_emb : m .emb = false) (n_det : m .det = false) :
    Same m a (State.endSave s j hwFault es) := by
  unfold State.endSave
  repeat' first
    | (with_reducible first
        | assumption | refine Same.ite ?_ ?_ | apply State.setFld_same | apply State.bump_same
        | apply State.setSnap_same | apply State.copyReads_same | apply State.endSnap_same | apply State.seamNext_same
        | apply State.toLoaded_same)

theorem State.endRestore_same {m : Component → Bool} {a s : State} (h : Same m a s) (j : SnapJob) (hwFault : Bool)
    (es : List MemError) (n_fresh : m .fresh = false) (n_regs : m .regs = false) (n_mem : m .mem = false)
    (n_cfg : m .cfg = false) (n_flt : m .flt = false) (n_chk : m .chk = false) (n_mm : m .mm = false)
    (n_hub : m .hub = false) (n_fleet : m .fleet = false) (n_dense : m .dense = false) (n_emb : m .emb = false)
    (n_det : m .det = false) :
    Same m a (State.endRestore s j hwFault es) := by
  unfold State.endRestore
  repeat' first
    | (with_reducible first
        | assumption | refine Same.ite ?_ ?_ | apply State.meetReads_same | apply State.restoreSnap_same
        | apply State.cutRestore_same | apply State.endSnap_same)

theorem State.snapshotCopyDone_same {m : Component → Bool} {a s : State} (h : Same m a s) (hwFault : Bool)
    (es : List MemError) (n_fresh : m .fresh = false) (n_regs : m .regs = false) (n_mem : m .mem = false)
    (n_crossings : m .crossings = false) (n_cfg : m .cfg = false) (n_flt : m .flt = false) (n_chk : m .chk = false)
    (n_mm : m .mm = false) (n_hub : m .hub = false) (n_fleet : m .fleet = false) (n_dense : m .dense = false)
    (n_emb : m .emb = false) (n_det : m .det = false) :
    Same m a (State.snapshotCopyDone s hwFault es) := by
  unfold State.snapshotCopyDone
  repeat' first
    | (with_reducible first | assumption | apply State.endSave_same | apply State.endRestore_same)
    | split

theorem execSnapshotCopyDone_same {m : Component → Bool} {a s : State} (h : Same m a s) (copy : SnapEnd)
    (n_fresh : m .fresh = false) (n_regs : m .regs = false) (n_mem : m .mem = false)
    (n_crossings : m .crossings = false) (n_cfg : m .cfg = false) (n_flt : m .flt = false) (n_chk : m .chk = false)
    (n_mm : m .mm = false) (n_hub : m .hub = false) (n_fleet : m .fleet = false) (n_dense : m .dense = false)
    (n_emb : m .emb = false) (n_det : m .det = false) {kt : State} (ke : execSnapshotCopyDone copy s = .next kt) :
    Same m a kt := by
  unfold execSnapshotCopyDone at ke
  refine Same.of_done ke ?_
  repeat' first
    | (with_reducible first | assumption | refine Same.ite ?_ ?_)
    | (lift_lets; intro kx; refine Same.step (m := m) (a := a) (x := kx) ?_ fun hkx => ?_)
    | (lift_lets; intro kx)
    | (simp only [Same.mk_iff]; apply SameF.of; all_goals first
        | with_reducible exact Off.refl | exact Off.no (by assumption) | skip)
    | (with_reducible first | apply State.onSteward_same | apply State.snapshotCopyDone_same)
    | (simp only [kx, Same.mk_iff]; apply SameF.of; all_goals first
        | with_reducible exact Off.refl | exact Off.no (by assumption) | skip)
    | (with_reducible first
        | refine Same.foldl ?_ fun kb ky hkb => ?_ | refine Same.foldl_snd ?_ fun kb ky hkb => ?_
        | refine Same.foldl_fst ?_ fun kb ky hkb => ?_)
    | split
    | (with_reducible first
        | refine Same.of_snd (by assumption) ?_ | refine Same.of_fst (by assumption) ?_
        | refine Same.of_third (by assumption) ?_)
    | dsimp only
    | unfold kx

end Sys2Proof.Machine
end

