-- ==== Sys2Proof/Laws/SameRecovery.lean ====
section
/-! SUPPORT. What the operations of Machine/Recovery.lean leave alone (`Same`). -/

set_option linter.unusedSimpArgs false

namespace Sys2Proof.Machine

theorem State.applyCauses_same {m : Component → Bool} {a s : State} (h : Same m a s) (n_regs : m .regs = false)
    (n_flt : m .flt = false) (n_chk : m .chk = false) :
    Same m a (State.applyCauses s) := by
  unfold State.applyCauses
  repeat' first
    | (with_reducible first | assumption | refine Same.ite ?_ ?_)
    | (simp only [Same.mk_iff]; apply SameF.of; all_goals first
        | with_reducible exact Off.refl | exact Off.no (by assumption) | skip)
    | (with_reducible first
        | apply State.retireDue_same | apply State.applyCause_same | refine Same.foldl ?_ fun kb ky hkb => ?_)

theorem State.substitute_same {m : Component → Bool} {a s : State} (h : Same m a s) (fails : List Nat)
    (n : Nat) (n_fresh : m .fresh = false) (n_regs : m .regs = false) (n_flt : m .flt = false)
      (n_chk : m .chk = false) : Same m a (s.substitute fails n) := by
  induction n generalizing s fails with
  | zero => exact State.rebuild_same h n_regs n_flt n_chk
  | succ n ih =>
    unfold State.substitute
    dsimp only
    split
    · exact ih (State.strikeSump_same (State.failScreen_same h _ _ n_fresh n_regs n_flt n_chk) _ _ n_regs n_flt
      n_chk) _
    · exact State.rebuild_same h n_regs n_flt n_chk

theorem State.scrubLost_same {m : Component → Bool} {a s : State} (h : Same m a s) (aa : Nat) (n : Nat)
    (n_mem : m .mem = false) (n_mm : m .mm = false) :
    Same m a (State.scrubLost s aa n) := by
  unfold State.scrubLost
  repeat' first
    | (with_reducible first
        | assumption | refine Same.ite ?_ ?_ | apply State.poisonRange_same | apply State.scrubRange_same
        | refine Same.foldl ?_ fun kb ky hkb => ?_)

theorem State.scrubMoved_same {m : Component → Bool} {a s : State} (h : Same m a s) (moved : List Nat)
    (n_mem : m .mem = false) (n_mm : m .mm = false) :
    Same m a (State.scrubMoved s moved) := by
  unfold State.scrubMoved
  repeat' first
    | (with_reducible first
        | assumption | refine Same.ite ?_ ?_ | apply State.scrubLost_same | refine Same.foldl ?_ fun kb ky hkb => ?_)

theorem State.undoBack_same {m : Component → Bool} {a s : State} (h : Same m a s) (t : Nat) (n_mem : m .mem = false)
    (n_flt : m .flt = false) (n_mm : m .mm = false) :
    Same m a (State.undoBack s t) := by
  unfold State.undoBack
  repeat' first
    | with_reducible assumption
    | (simp only [Same.mk_iff]; apply SameF.of; all_goals first
        | with_reducible exact Off.refl | exact Off.no (by assumption) | skip)
    | (with_reducible first | apply State.write_same | refine Same.foldl ?_ fun kb ky hkb => ?_)
    | split

theorem State.copyBack_same {m : Component → Bool} {a s : State} (h : Same m a s) (c : StepCopy)
    (n_mem : m .mem = false) (n_mm : m .mm = false) :
    Same m a (State.copyBack s c) := by
  unfold State.copyBack
  repeat' first
    | (with_reducible first | assumption | apply State.write_same | refine Same.foldl ?_ fun kb ky hkb => ?_)
    | split

theorem State.putBanks_same {m : Component → Bool} {a s : State} (h : Same m a s) (bs : Tab Bank)
    (n_regs : m .regs = false) (n_mem : m .mem = false) (n_chk : m .chk = false) (n_mm : m .mm = false) :
    Same m a (State.putBanks s bs) := by
  unfold State.putBanks
  repeat' first
    | (with_reducible first | assumption | refine Same.ite ?_ ?_)
    | (lift_lets; intro kx; refine Same.step (m := m) (a := a) (x := kx) ?_ fun hkx => ?_)
    | (lift_lets; intro kx)
    | (simp only [Same.mk_iff]; apply SameF.of; all_goals first
        | with_reducible exact Off.refl | exact Off.no (by assumption) | skip)
    | with_reducible apply State.putBank_same
    | (simp only [kx, Same.mk_iff]; apply SameF.of; all_goals first
        | with_reducible exact Off.refl | exact Off.no (by assumption) | skip)
    | (with_reducible first
        | refine Same.foldl ?_ fun kb ky hkb => ?_ | refine Same.foldl_snd ?_ fun kb ky hkb => ?_
        | refine Same.foldl_fst ?_ fun kb ky hkb => ?_)
    | split
    | (with_reducible first
        | refine Same.of_snd (by assumption) ?_ | refine Same.of_fst (by assumption) ?_
        | refine Same.of_third (by assumption) ?_)
    | dsimp only
    | unfold kx

theorem State.restoreTo_same {m : Component → Bool} {a s : State} (h : Same m a s) (t : Nat) (c : StepCopy)
    (round : Bool) (n_regs : m .regs = false) (n_mem : m .mem = false) (n_crossings : m .crossings = false)
    (n_cfg : m .cfg = false) (n_flt : m .flt = false) (n_chk : m .chk = false) (n_mm : m .mm = false)
    (n_dense : m .dense = false) (n_emb : m .emb = false) :
    Same m a (State.restoreTo s t c round) := by
  unfold State.restoreTo
  repeat' first
    | (with_reducible first | assumption | refine Same.ite ?_ ?_)
    | (lift_lets; intro kx; refine Same.step (m := m) (a := a) (x := kx) ?_ fun hkx => ?_)
    | (lift_lets; intro kx)
    | (simp only [Same.mk_iff]; apply SameF.of; all_goals first
        | with_reducible exact Off.refl | exact Off.no (by assumption) | skip)
    | (with_reducible first
        | apply State.setFld_same | apply State.setRun_same | apply State.dropExports_same
        | apply State.clearStep_same | apply State.seamLive_same | apply State.unpip_same | apply State.setStep_same
        | apply State.dropTables_same | apply State.undoBack_same | apply State.copyBack_same
        | apply State.putBanks_same)
    | (simp only [kx, Same.mk_iff]; apply SameF.of; all_goals first
        | with_reducible exact Off.refl | exact Off.no (by assumption) | skip)
    | (with_reducible first
        | refine Same.foldl ?_ fun kb ky hkb => ?_ | refine Same.foldl_snd ?_ fun kb ky hkb => ?_
        | refine Same.foldl_fst ?_ fun kb ky hkb => ?_)
    | split
    | (with_reducible first
        | refine Same.of_snd (by assumption) ?_ | refine Same.of_fst (by assumption) ?_
        | refine Same.of_third (by assumption) ?_)
    | dsimp only
    | unfold kx

theorem State.patchLine_same {m : Component → Bool} {a s : State} (h : Same m a s) (aa : Nat) (n : Nat)
    (n_mem : m .mem = false) (n_mm : m .mm = false) :
    Same m a (State.patchLine s aa n) := by
  unfold State.patchLine
  repeat' first
    | (with_reducible first
        | assumption | refine Same.ite ?_ ?_ | apply State.write_same | refine Same.foldl ?_ fun kb ky hkb => ?_)
    | split

theorem State.handleLost_same {m : Component → Bool} {a : State} {p : State × Nat × Option (Nat × Nat)}
    (h : Same m a p.1) (rows : List (Nat × Nat)) (copy : Bool) (restore : Option Bool) (r : Nat × Nat)
    (n_regs : m .regs = false) (n_mem : m .mem = false) (n_chk : m .chk = false) (n_mm : m .mm = false) :
    Same m a (State.handleLost rows copy restore p r).1 := by
  unfold State.handleLost
  dsimp only
  split
  · exact State.clearPoison_same (State.patchLine_same h _ _ n_mem n_mm) _ _ n_mm
  · exact State.bump_same (State.emit_same (State.write_same h _ _ n_mem n_mm) _ _ _ _ _ n_regs n_chk) _ _ n_regs
  all_goals exact h

theorem State.lostLines_same {m : Component → Bool} {a s : State} (h : Same m a s) (rows : List (Nat × Nat))
    (copy : Bool) (restore : Option Bool) (n_regs : m .regs = false) (n_mem : m .mem = false)
    (n_chk : m .chk = false) (n_mm : m .mm = false) :
    Same m a (State.lostLines s rows copy restore).1 := by
  unfold State.lostLines
  repeat' first
    | (with_reducible first | assumption | refine Same.ite ?_ ?_)
    | (lift_lets; intro kx; refine Same.step (m := m) (a := a) (x := kx) ?_ fun hkx => ?_)
    | (lift_lets; intro kx)
    | (simp only [Same.mk_iff]; apply SameF.of; all_goals first
        | with_reducible exact Off.refl | exact Off.no (by assumption) | skip)
    | with_reducible apply State.handleLost_same
    | (simp only [kx, Same.mk_iff]; apply SameF.of; all_goals first
        | with_reducible exact Off.refl | exact Off.no (by assumption) | skip)
    | (with_reducible first
        | refine Same.foldl ?_ fun kb ky hkb => ?_ | refine Same.foldl_snd ?_ fun kb ky hkb => ?_
        | refine Same.foldl_fst ?_ fun kb ky hkb => ?_)
    | split
    | (with_reducible first
        | refine Same.of_snd (by assumption) ?_ | refine Same.of_fst (by assumption) ?_
        | refine Same.of_third (by assumption) ?_)
    | dsimp only
    | unfold kx

theorem State.sendReady_same {m : Component → Bool} {a s : State} (h : Same m a s) (outcome : Nat)
    (n_regs : m .regs = false) (n_hub : m .hub = false) (n_fleet : m .fleet = false) :
    Same m a (State.sendReady s outcome) := by
  unfold State.sendReady
  repeat' (with_reducible first | assumption | refine Same.ite ?_ ?_ | apply State.sendMsg_same)

theorem State.closeRecovery_same {m : Component → Bool} {a s : State} (h : Same m a s) (outcome : Nat) (kind : Nat)
    (ms : Nat) (seam : Bool) (n_fresh : m .fresh = false) (n_regs : m .regs = false) (n_mem : m .mem = false)
    (n_links : m .links = false) (n_crossings : m .crossings = false) (n_cfg : m .cfg = false)
    (n_flt : m .flt = false) (n_chk : m .chk = false) (n_mm : m .mm = false) (n_hub : m .hub = false)
    (n_fleet : m .fleet = false) (n_dense : m .dense = false) (n_emb : m .emb = false) (n_wire : m .wire = false)
    (n_det : m .det = false) (n_time : m .time = false) :
    Same m a (State.closeRecovery s outcome kind ms seam) := by
  unfold State.closeRecovery
  repeat' first
    | (with_reducible first
        | assumption | refine Same.ite ?_ ?_ | apply State.setRun_same | apply State.setLoadState_same
        | apply State.setRecovery_same | apply State.endRecovery_same | apply State.setImage_same
        | apply State.setBuffer_same | apply State.seamNext_same | apply State.seamWork_same
        | apply State.sendReady_same)

theorem State.rollTo_same {m : Component → Bool} {a s : State} (h : Same m a s) (r : RoundSlot) (ms : Nat)
    (n_fresh : m .fresh = false) (n_regs : m .regs = false) (n_mem : m .mem = false) (n_links : m .links = false)
    (n_crossings : m .crossings = false) (n_cfg : m .cfg = false) (n_flt : m .flt = false) (n_chk : m .chk = false)
    (n_mm : m .mm = false) (n_hub : m .hub = false) (n_fleet : m .fleet = false) (n_dense : m .dense = false)
    (n_emb : m .emb = false) (n_wire : m .wire = false) (n_det : m .det = false) (n_time : m .time = false) :
    Same m a (State.rollTo s r ms) := by
  unfold State.rollTo
  repeat' first
    | (with_reducible first | assumption | refine Same.ite ?_ ?_)
    | (lift_lets; intro kx; refine Same.step (m := m) (a := a) (x := kx) ?_ fun hkx => ?_)
    | (lift_lets; intro kx)
    | (simp only [Same.mk_iff]; apply SameF.of; all_goals first
        | with_reducible exact Off.refl | exact Off.no (by assumption) | skip)
    | (with_reducible first
        | apply State.bump_same | apply State.emit_same | apply State.restoreTo_same | apply State.lostLines_same
        | apply State.closeRecovery_same)
    | (simp only [kx, Same.mk_iff]; apply SameF.of; all_goals first
        | with_reducible exact Off.refl | exact Off.no (by assumption) | skip)
    | (with_reducible first
        | refine Same.foldl ?_ fun kb ky hkb => ?_ | refine Same.foldl_snd ?_ fun kb ky hkb => ?_
        | refine Same.foldl_fst ?_ fun kb ky hkb => ?_)
    | split
    | (with_reducible first
        | refine Same.of_snd (by assumption) ?_ | refine Same.of_fst (by assumption) ?_
        | refine Same.of_third (by assumption) ?_)
    | dsimp only
    | unfold kx

theorem State.loseState_same {m : Component → Bool} {a s : State} (h : Same m a s) (l : Option (Nat × Nat))
    (kind : Nat) (ms : Nat) (n_fresh : m .fresh = false) (n_regs : m .regs = false) (n_mem : m .mem = false)
    (n_links : m .links = false) (n_crossings : m .crossings = false) (n_cfg : m .cfg = false)
    (n_flt : m .flt = false) (n_chk : m .chk = false) (n_mm : m .mm = false) (n_hub : m .hub = false)
    (n_fleet : m .fleet = false) (n_dense : m .dense = false) (n_emb : m .emb = false) (n_wire : m .wire = false)
    (n_det : m .det = false) (n_time : m .time = false) :
    Same m a (State.loseState s l kind ms) := by
  unfold State.loseState
  repeat' first
    | (with_reducible first | assumption | refine Same.ite ?_ ?_)
    | (lift_lets; intro kx; refine Same.step (m := m) (a := a) (x := kx) ?_ fun hkx => ?_)
    | (lift_lets; intro kx)
    | (simp only [Same.mk_iff]; apply SameF.of; all_goals first
        | with_reducible exact Off.refl | exact Off.no (by assumption) | skip)
    | (with_reducible first | apply State.bump_same | apply State.emit_same | apply State.closeRecovery_same)
    | (simp only [kx, Same.mk_iff]; apply SameF.of; all_goals first
        | with_reducible exact Off.refl | exact Off.no (by assumption) | skip)
    | (with_reducible first
        | refine Same.foldl ?_ fun kb ky hkb => ?_ | refine Same.foldl_snd ?_ fun kb ky hkb => ?_
        | refine Same.foldl_fst ?_ fun kb ky hkb => ?_)
    | split
    | (with_reducible first
        | refine Same.of_snd (by assumption) ?_ | refine Same.of_fst (by assumption) ?_
        | refine Same.of_third (by assumption) ?_)
    | dsimp only
    | unfold kx

theorem State.restoreStep_same {m : Component → Bool} {a s : State} (h : Same m a s) (kind : Nat) (ms : Nat)
    (n_fresh : m .fresh = false) (n_regs : m .regs = false) (n_mem : m .mem = false) (n_links : m .links = false)
    (n_crossings : m .crossings = false) (n_cfg : m .cfg = false) (n_flt : m .flt = false) (n_chk : m .chk = false)
    (n_mm : m .mm = false) (n_hub : m .hub = false) (n_fleet : m .fleet = false) (n_dense : m .dense = false)
    (n_emb : m .emb = false) (n_wire : m .wire = false) (n_det : m .det = false) (n_time : m .time = false) :
    Same m a (State.restoreStep s kind ms) := by
  unfold State.restoreStep
  repeat' first
    | (with_reducible first | assumption | refine Same.ite ?_ ?_)
    | (lift_lets; intro kx; refine Same.step (m := m) (a := a) (x := kx) ?_ fun hkx => ?_)
    | (lift_lets; intro kx)
    | (simp only [Same.mk_iff]; apply SameF.of; all_goals first
        | with_reducible exact Off.refl | exact Off.no (by assumption) | skip)
    | (with_reducible first
        | apply State.setRecovery_same | apply State.restoreTo_same | apply State.lostLines_same
        | apply State.closeRecovery_same | apply State.rollTo_same | apply State.loseState_same)
    | (simp only [kx, Same.mk_iff]; apply SameF.of; all_goals first
        | with_reducible exact Off.refl | exact Off.no (by assumption) | skip)
    | (with_reducible first
        | refine Same.foldl ?_ fun kb ky hkb => ?_ | refine Same.foldl_snd ?_ fun kb ky hkb => ?_
        | refine Same.foldl_fst ?_ fun kb ky hkb => ?_)
    | split
    | (with_reducible first
        | refine Same.of_snd (by assumption) ?_ | refine Same.of_fst (by assumption) ?_
        | refine Same.of_third (by assumption) ?_)
    | dsimp only
    | unfold kx

theorem State.finishRecovery_same {m : Component → Bool} {a s : State} (h : Same m a s) (moved : List Nat)
    (extra : List Nat) (kind : Nat) (ms : Nat) (n_fresh : m .fresh = false) (n_regs : m .regs = false)
    (n_mem : m .mem = false) (n_links : m .links = false) (n_crossings : m .crossings = false)
    (n_cfg : m .cfg = false) (n_flt : m .flt = false) (n_chk : m .chk = false) (n_mm : m .mm = false)
    (n_hub : m .hub = false) (n_fleet : m .fleet = false) (n_dense : m .dense = false) (n_emb : m .emb = false)
    (n_wire : m .wire = false) (n_det : m .det = false) (n_time : m .time = false) :
    Same m a (State.finishRecovery s moved extra kind ms) := by
  unfold State.finishRecovery
  repeat' first
    | (with_reducible first | assumption | refine Same.ite ?_ ?_)
    | (lift_lets; intro kx; refine Same.step (m := m) (a := a) (x := kx) ?_ fun hkx => ?_)
    | (lift_lets; intro kx)
    | (simp only [Same.mk_iff]; apply SameF.of; all_goals first
        | with_reducible exact Off.refl | exact Off.no (by assumption) | skip)
    | (with_reducible first
        | apply State.setRecovery_same | apply State.leaveFleet_same | apply State.loseDies_same
        | apply State.recoveryReload_same | apply State.noteReturned_same | apply State.homeRows_same
        | apply State.screenMoved_same | apply State.noteStalled_same | apply State.closeRecovery_same
        | apply State.restoreStep_same)
    | (simp only [kx, Same.mk_iff]; apply SameF.of; all_goals first
        | with_reducible exact Off.refl | exact Off.no (by assumption) | skip)
    | (with_reducible first
        | refine Same.foldl ?_ fun kb ky hkb => ?_ | refine Same.foldl_snd ?_ fun kb ky hkb => ?_
        | refine Same.foldl_fst ?_ fun kb ky hkb => ?_)
    | split
    | (with_reducible first
        | refine Same.of_snd (by assumption) ?_ | refine Same.of_fst (by assumption) ?_
        | refine Same.of_third (by assumption) ?_)
    | dsimp only
    | unfold kx

theorem State.unitRecovery_same {m : Component → Bool} {a s : State} (h : Same m a s) (fails : List Nat) (ms : Nat)
    (n_fresh : m .fresh = false) (n_regs : m .regs = false) (n_mem : m .mem = false) (n_links : m .links = false)
    (n_crossings : m .crossings = false) (n_cfg : m .cfg = false) (n_flt : m .flt = false) (n_chk : m .chk = false)
    (n_mm : m .mm = false) (n_hub : m .hub = false) (n_fleet : m .fleet = false) (n_dense : m .dense = false)
    (n_emb : m .emb = false) (n_wire : m .wire = false) (n_det : m .det = false) (n_time : m .time = false) :
    Same m a (State.unitRecovery s fails ms) := by
  unfold State.unitRecovery
  repeat' first
    | (with_reducible first
        | assumption | refine Same.ite ?_ ?_ | apply State.bump_same | apply State.setRecovery_same
        | apply State.applyCauses_same | apply State.substitute_same | apply State.scrubMoved_same
        | apply State.finishRecovery_same)

theorem execUnitRecovery_same {m : Component → Bool} {a s : State} (h : Same m a s) (failScreens : List (BitVec 32))
    (durationMs : BitVec 32) (n_fresh : m .fresh = false) (n_regs : m .regs = false) (n_mem : m .mem = false)
    (n_links : m .links = false) (n_crossings : m .crossings = false) (n_cfg : m .cfg = false)
    (n_flt : m .flt = false) (n_chk : m .chk = false) (n_mm : m .mm = false) (n_hub : m .hub = false)
    (n_fleet : m .fleet = false) (n_dense : m .dense = false) (n_emb : m .emb = false) (n_wire : m .wire = false)
    (n_det : m .det = false) (n_time : m .time = false) {kt : State}
    (ke : execUnitRecovery failScreens durationMs s = .next kt) :
    Same m a kt := by
  unfold execUnitRecovery at ke
  refine Same.of_done ke ?_
  repeat' first
    | with_reducible assumption
    | (lift_lets; intro kx)
    | (with_reducible first | apply State.onSteward_same | apply State.unitRecovery_same)

theorem State.remapPc_same {m : Component → Bool} {a s : State} (h : Same m a s) (bad : List Nat) (k : Nat)
    (rule : Nat) (n_regs : m .regs = false) (n_flt : m .flt = false) (n_chk : m .chk = false) (n_mm : m .mm = false) :
    Same m a (State.remapPc s bad k rule) := by
  unfold State.remapPc
  repeat' first
    | (with_reducible first
        | assumption | refine Same.ite ?_ ?_ | apply State.setReg_same | apply State.setFld_same
        | apply State.poisonAt_same | apply State.retire_same | refine Same.foldl ?_ fun kb ky hkb => ?_)

theorem State.loseStack_same {m : Component → Bool} {a s : State} (h : Same m a s) (st : Nat)
    (n_regs : m .regs = false) (n_flt : m .flt = false) (n_chk : m .chk = false) :
    Same m a (State.loseStack s st) := by
  unfold State.loseStack
  repeat' (with_reducible first | assumption | refine Same.ite ?_ ?_ | apply State.setFld_same | apply State.retire_same)

theorem State.resetStacks_same {m : Component → Bool} {a s : State} (h : Same m a s) (d : Nat)
    (recurring : List Nat) (failed : List Nat) (bad : List Nat) (n_regs : m .regs = false) (n_flt : m .flt = false)
    (n_chk : m .chk = false) (n_mm : m .mm = false) :
    Same m a (State.resetStacks s d recurring failed bad) := by
  unfold State.resetStacks
  repeat' first
    | (with_reducible first | assumption | refine Same.ite ?_ ?_)
    | (lift_lets; intro kx; refine Same.step (m := m) (a := a) (x := kx) ?_ fun hkx => ?_)
    | (lift_lets; intro kx)
    | (simp only [Same.mk_iff]; apply SameF.of; all_goals first
        | with_reducible exact Off.refl | exact Off.no (by assumption) | skip)
    | (with_reducible first | apply State.remapPc_same | apply State.loseStack_same)
    | (simp only [kx, Same.mk_iff]; apply SameF.of; all_goals first
        | with_reducible exact Off.refl | exact Off.no (by assumption) | skip)
    | (with_reducible first
        | refine Same.foldl ?_ fun kb ky hkb => ?_ | refine Same.foldl_snd ?_ fun kb ky hkb => ?_
        | refine Same.foldl_fst ?_ fun kb ky hkb => ?_)
    | split
    | (with_reducible first
        | refine Same.of_snd (by assumption) ?_ | refine Same.of_fst (by assumption) ?_
        | refine Same.of_third (by assumption) ?_)
    | dsimp only
    | unfold kx

theorem State.clearDieCounters_same {m : Component → Bool} {a s : State} (h : Same m a s) (d : Nat)
    (n_regs : m .regs = false) :
    Same m a (State.clearDieCounters s d) := by
  unfold State.clearDieCounters
  repeat' first
    | (with_reducible first | assumption | refine Same.ite ?_ ?_)
    | (lift_lets; intro kx; refine Same.step (m := m) (a := a) (x := kx) ?_ fun hkx => ?_)
    | (lift_lets; intro kx)
    | (simp only [Same.mk_iff]; apply SameF.of; all_goals first
        | with_reducible exact Off.refl | exact Off.no (by assumption) | skip)
    | with_reducible apply State.setReg_same
    | (simp only [kx, Same.mk_iff]; apply SameF.of; all_goals first
        | with_reducible exact Off.refl | exact Off.no (by assumption) | skip)
    | (with_reducible first
        | refine Same.foldl ?_ fun kb ky hkb => ?_ | refine Same.foldl_snd ?_ fun kb ky hkb => ?_
        | refine Same.foldl_fst ?_ fun kb ky hkb => ?_)
    | split
    | (with_reducible first
        | refine Same.of_snd (by assumption) ?_ | refine Same.of_fst (by assumption) ?_
        | refine Same.of_third (by assumption) ?_)
    | dsimp only
    | unfold kx

theorem State.dieReset_same {m : Component → Bool} {a s : State} (h : Same m a s) (d : Nat) (ok : Bool)
    (recurring : List Nat) (failed : List Nat) (bad : List Nat) (fails : List Nat) (ms : Nat)
    (n_fresh : m .fresh = false) (n_regs : m .regs = false) (n_mem : m .mem = false) (n_links : m .links = false)
    (n_crossings : m .crossings = false) (n_cfg : m .cfg = false) (n_flt : m .flt = false) (n_chk : m .chk = false)
    (n_mm : m .mm = false) (n_hub : m .hub = false) (n_fleet : m .fleet = false) (n_dense : m .dense = false)
    (n_emb : m .emb = false) (n_wire : m .wire = false) (n_det : m .det = false) (n_time : m .time = false) :
    Same m a (State.dieReset s d ok recurring failed bad fails ms) := by
  unfold State.dieReset
  repeat' first
    | (with_reducible first | assumption | refine Same.ite ?_ ?_)
    | (lift_lets; intro kx; refine Same.step (m := m) (a := a) (x := kx) ?_ fun hkx => ?_)
    | (lift_lets; intro kx)
    | (simp only [Same.mk_iff]; apply SameF.of; all_goals first
        | with_reducible exact Off.refl | exact Off.no (by assumption) | skip)
    | (with_reducible first
        | apply State.bump_same | apply State.setRecovery_same | apply State.loseDie_same | apply State.setLines_same
        | apply State.recoveryReload_same | apply State.rebuildDie_same | apply State.rebuild_same
        | apply State.setQuick_same | apply State.massScreen_same | apply State.applyCauses_same
        | apply State.scrubLost_same | apply State.closeRecovery_same | apply State.finishRecovery_same
        | apply State.resetStacks_same | apply State.clearDieCounters_same)
    | (simp only [kx, Same.mk_iff]; apply SameF.of; all_goals first
        | with_reducible exact Off.refl | exact Off.no (by assumption) | skip)
    | (with_reducible first
        | refine Same.foldl ?_ fun kb ky hkb => ?_ | refine Same.foldl_snd ?_ fun kb ky hkb => ?_
        | refine Same.foldl_fst ?_ fun kb ky hkb => ?_)
    | split
    | (with_reducible first
        | refine Same.of_snd (by assumption) ?_ | refine Same.of_fst (by assumption) ?_
        | refine Same.of_third (by assumption) ?_)
    | dsimp only
    | unfold kx

theorem execDieReset_same {m : Component → Bool} {a s : State} (h : Same m a s) (die : Fin 4) (reset : DieResetEnd)
    (recurring : List (BitVec 32)) (quickFails : List (BitVec 32)) (durationMs : BitVec 32)
    (n_fresh : m .fresh = false) (n_regs : m .regs = false) (n_mem : m .mem = false) (n_links : m .links = false)
    (n_crossings : m .crossings = false) (n_cfg : m .cfg = false) (n_flt : m .flt = false) (n_chk : m .chk = false)
    (n_mm : m .mm = false) (n_hub : m .hub = false) (n_fleet : m .fleet = false) (n_dense : m .dense = false)
    (n_emb : m .emb = false) (n_wire : m .wire = false) (n_det : m .det = false) (n_time : m .time = false)
    {kt : State} (ke : execDieReset die reset recurring quickFails durationMs s = .next kt) :
    Same m a kt := by
  unfold execDieReset at ke
  refine Same.of_done ke ?_
  repeat' first
    | (with_reducible first | assumption | refine Same.ite ?_ ?_)
    | (lift_lets; intro kx; refine Same.step (m := m) (a := a) (x := kx) ?_ fun hkx => ?_)
    | (lift_lets; intro kx)
    | (simp only [Same.mk_iff]; apply SameF.of; all_goals first
        | with_reducible exact Off.refl | exact Off.no (by assumption) | skip)
    | (with_reducible first | apply State.onSteward_same | apply State.dieReset_same)
    | (simp only [kx, Same.mk_iff]; apply SameF.of; all_goals first
        | with_reducible exact Off.refl | exact Off.no (by assumption) | skip)
    | (with_reducible first
        | refine Same.foldl ?_ fun kb ky hkb => ?_ | refine Same.foldl_snd ?_ fun kb ky hkb => ?_
        | refine Same.foldl_fst ?_ fun kb ky hkb => ?_)
    | split
    | (with_reducible first
        | refine Same.of_snd (by assumption) ?_ | refine Same.of_fst (by assumption) ?_
        | refine Same.of_third (by assumption) ?_)
    | dsimp only
    | unfold kx

theorem State.rollback_same {m : Component → Bool} {a s : State} (h : Same m a s) (target : Nat) (ms : Nat)
    (n_fresh : m .fresh = false) (n_regs : m .regs = false) (n_mem : m .mem = false) (n_links : m .links = false)
    (n_crossings : m .crossings = false) (n_cfg : m .cfg = false) (n_flt : m .flt = false) (n_chk : m .chk = false)
    (n_mm : m .mm = false) (n_hub : m .hub = false) (n_fleet : m .fleet = false) (n_dense : m .dense = false)
    (n_emb : m .emb = false) (n_wire : m .wire = false) (n_det : m .det = false) (n_time : m .time = false) :
    Same m a (State.rollback s target ms) := by
  unfold State.rollback
  repeat' first
    | with_reducible assumption
    | (simp only [Same.mk_iff]; apply SameF.of; all_goals first
        | with_reducible exact Off.refl | exact Off.no (by assumption) | skip)
    | (with_reducible first
        | apply State.setRecovery_same | apply State.beginStop_same | apply State.rebuild_same
        | apply State.applyCauses_same | apply State.scrubMoved_same | apply State.finishRecovery_same)
    | split
    | dsimp only

theorem execRollback_same {m : Component → Bool} {a s : State} (h : Same m a s) (target : BitVec 64)
    (durationMs : BitVec 32) (n_fresh : m .fresh = false) (n_regs : m .regs = false) (n_mem : m .mem = false)
    (n_links : m .links = false) (n_crossings : m .crossings = false) (n_cfg : m .cfg = false)
    (n_flt : m .flt = false) (n_chk : m .chk = false) (n_mm : m .mm = false) (n_hub : m .hub = false)
    (n_fleet : m .fleet = false) (n_dense : m .dense = false) (n_emb : m .emb = false) (n_wire : m .wire = false)
    (n_det : m .det = false) (n_time : m .time = false) {kt : State}
    (ke : execRollback target durationMs s = .next kt) :
    Same m a kt := by
  unfold execRollback at ke
  refine Same.of_done ke ?_
  repeat' first
    | with_reducible assumption
    | (lift_lets; intro kx)
    | (with_reducible first | apply State.onSteward_same | apply State.flitFrom_same | apply State.rollback_same)

theorem State.noteExpulsion_same {m : Component → Bool} {a s : State} (h : Same m a s) (n_regs : m .regs = false)
    (n_flt : m .flt = false) (n_hub : m .hub = false) :
    Same m a (State.noteExpulsion s) := by
  unfold State.noteExpulsion
  repeat' first
    | with_reducible assumption
    | (simp only [Same.mk_iff]; apply SameF.of; all_goals first
        | with_reducible exact Off.refl | exact Off.no (by assumption) | skip)
    | with_reducible apply State.setRecovery_same

theorem State.expelScreen_same {m : Component → Bool} {a s : State} (h : Same m a s) (fails : List Nat) (k : Nat)
    (n_fresh : m .fresh = false) (n_regs : m .regs = false) (n_flt : m .flt = false) (n_chk : m .chk = false) :
    Same m a (State.expelScreen s fails k) := by
  unfold State.expelScreen
  repeat' first
    | (with_reducible first | assumption | refine Same.ite ?_ ?_)
    | (lift_lets; intro kx; refine Same.step (m := m) (a := a) (x := kx) ?_ fun hkx => ?_)
    | (lift_lets; intro kx)
    | (simp only [Same.mk_iff]; apply SameF.of; all_goals first
        | with_reducible exact Off.refl | exact Off.no (by assumption) | skip)
    | (with_reducible first
        | apply State.setUnit_same | apply State.retire_same | apply State.screenRecord_same
        | apply State.failScreen_same)
    | (simp only [kx, Same.mk_iff]; apply SameF.of; all_goals first
        | with_reducible exact Off.refl | exact Off.no (by assumption) | skip)
    | (with_reducible first
        | refine Same.foldl ?_ fun kb ky hkb => ?_ | refine Same.foldl_snd ?_ fun kb ky hkb => ?_
        | refine Same.foldl_fst ?_ fun kb ky hkb => ?_)
    | split
    | (with_reducible first
        | refine Same.of_snd (by assumption) ?_ | refine Same.of_fst (by assumption) ?_
        | refine Same.of_third (by assumption) ?_)
    | dsimp only
    | unfold kx

theorem State.markExpelled_same {m : Component → Bool} {a s : State} (h : Same m a s) (n_chk : m .chk = false)
    (n_fleet : m .fleet = false) :
    Same m a (State.markExpelled s) := by
  unfold State.markExpelled
  repeat' first
    | with_reducible assumption
    | (simp only [Same.mk_iff]; apply SameF.of; all_goals first
        | with_reducible exact Off.refl | exact Off.no (by assumption) | skip)

theorem State.expelScreens_same {m : Component → Bool} {a s : State} (h : Same m a s) (fails : List Nat)
    (n_fresh : m .fresh = false) (n_regs : m .regs = false) (n_flt : m .flt = false) (n_chk : m .chk = false) :
    Same m a (State.expelScreens s fails) := by
  unfold State.expelScreens
  repeat' (with_reducible first | assumption | apply State.expelScreen_same | refine Same.foldl ?_ fun kb ky hkb => ?_)

theorem State.expel_same {m : Component → Bool} {a s : State} (h : Same m a s) (round : Nat) (fails : List Nat)
    (ms : Nat) (n_fresh : m .fresh = false) (n_regs : m .regs = false) (n_mem : m .mem = false)
    (n_links : m .links = false) (n_crossings : m .crossings = false) (n_cfg : m .cfg = false)
    (n_flt : m .flt = false) (n_chk : m .chk = false) (n_mm : m .mm = false) (n_hub : m .hub = false)
    (n_fleet : m .fleet = false) (n_dense : m .dense = false) (n_emb : m .emb = false) (n_wire : m .wire = false)
    (n_det : m .det = false) (n_time : m .time = false) :
    Same m a (State.expel s round fails ms) := by
  unfold State.expel
  repeat' first
    | (with_reducible first | assumption | refine Same.ite ?_ ?_)
    | (lift_lets; intro kx; refine Same.step (m := m) (a := a) (x := kx) ?_ fun hkx => ?_)
    | (lift_lets; intro kx)
    | (simp only [Same.mk_iff]; apply SameF.of; all_goals first
        | with_reducible exact Off.refl | exact Off.no (by assumption) | skip)
    | (with_reducible first
        | apply State.emit_same | apply State.beginStop_same | apply State.dropExports_same
        | apply State.clearStep_same | apply State.remap_same | apply State.applyCauses_same
        | apply State.closeRecovery_same | apply State.noteExpulsion_same | apply State.markExpelled_same
        | apply State.expelScreens_same)
    | (simp only [kx, Same.mk_iff]; apply SameF.of; all_goals first
        | with_reducible exact Off.refl | exact Off.no (by assumption) | skip)
    | (with_reducible first
        | refine Same.foldl ?_ fun kb ky hkb => ?_ | refine Same.foldl_snd ?_ fun kb ky hkb => ?_
        | refine Same.foldl_fst ?_ fun kb ky hkb => ?_)
    | split
    | (with_reducible first
        | refine Same.of_snd (by assumption) ?_ | refine Same.of_fst (by assumption) ?_
        | refine Same.of_third (by assumption) ?_)
    | dsimp only
    | unfold kx

theorem execExpel_same {m : Component → Bool} {a s : State} (h : Same m a s) (roundStep : BitVec 64)
    (screenFails : List (BitVec 32)) (durationMs : BitVec 32) (n_fresh : m .fresh = false)
    (n_regs : m .regs = false) (n_mem : m .mem = false) (n_links : m .links = false)
    (n_crossings : m .crossings = false) (n_cfg : m .cfg = false) (n_flt : m .flt = false) (n_chk : m .chk = false)
    (n_mm : m .mm = false) (n_hub : m .hub = false) (n_fleet : m .fleet = false) (n_dense : m .dense = false)
    (n_emb : m .emb = false) (n_wire : m .wire = false) (n_det : m .det = false) (n_time : m .time = false)
    {kt : State} (ke : execExpel roundStep screenFails durationMs s = .next kt) :
    Same m a kt := by
  unfold execExpel at ke
  refine Same.of_done ke ?_
  repeat' first
    | with_reducible assumption
    | (lift_lets; intro kx)
    | (with_reducible first | apply State.onSteward_same | apply State.flitFrom_same | apply State.expel_same)

end Sys2Proof.Machine
end

