-- ==== Sys2Proof/Laws/SameChecking.lean ====
section
/-! SUPPORT. What the operations of Machine/Checking.lean leave alone (`Same`). -/

set_option linter.unusedSimpArgs false

namespace Sys2Proof.Machine

theorem State.dropIn_same {m : Component → Bool} {a s : State} (h : Same m a s) (src : Nat) (epoch : Nat)
    (n_chk : m .chk = false) :
    Same m a (State.dropIn s src epoch) := by
  unfold State.dropIn
  repeat' first
    | with_reducible assumption
    | (simp only [Same.mk_iff]; apply SameF.of; all_goals first
        | with_reducible exact Off.refl | exact Off.no (by assumption) | skip)

theorem State.putIn_same {m : Component → Bool} {a s : State} (h : Same m a s) (e : EpochState)
    (n_chk : m .chk = false) :
    Same m a (State.putIn s e) := by
  unfold State.putIn
  repeat' first
    | with_reducible assumption
    | (simp only [Same.mk_iff]; apply SameF.of; all_goals first
        | with_reducible exact Off.refl | exact Off.no (by assumption) | skip)
    | with_reducible apply State.dropIn_same

theorem State.countEvents_same {m : Component → Bool} {a s : State} (h : Same m a s) (e : EpochState)
    (n_chk : m .chk = false) :
    Same m a (State.countEvents s e) := by
  unfold State.countEvents
  repeat' first
    | (with_reducible first | assumption | refine Same.ite ?_ ?_)
    | (lift_lets; intro kx; refine Same.step (m := m) (a := a) (x := kx) ?_ fun hkx => ?_)
    | (lift_lets; intro kx)
    | (simp only [Same.mk_iff]; apply SameF.of; all_goals first
        | with_reducible exact Off.refl | exact Off.no (by assumption) | skip)
    | (simp only [kx, Same.mk_iff]; apply SameF.of; all_goals first
        | with_reducible exact Off.refl | exact Off.no (by assumption) | skip)
    | (with_reducible first
        | refine Same.foldl ?_ fun kb ky hkb => ?_ | refine Same.foldl_snd ?_ fun kb ky hkb => ?_
        | refine Same.foldl_fst ?_ fun kb ky hkb => ?_)
    | split
    | (with_reducible first
        | refine Same.of_snd (by assumption) ?_ | refine Same.of_fst (by assumption) ?_
        | refine Same.of_third (by assumption) ?_)
    | dsimp only
    | unfold kx

theorem State.settleEpoch_same {m : Component → Bool} {a s : State} (h : Same m a s) (e : EpochState) (link : Nat)
    (n_regs : m .regs = false) (n_cfg : m .cfg = false) (n_flt : m .flt = false) (n_chk : m .chk = false)
    (n_hub : m .hub = false) (n_fleet : m .fleet = false) :
    Same m a (State.settleEpoch s e link) := by
  unfold State.settleEpoch
  repeat' first
    | (with_reducible first
        | assumption | apply State.bump_same | apply State.transferPoison_same | apply State.dropIn_same
        | apply State.countEvents_same)
    | split

theorem State.peerWrite_same {m : Component → Bool} {a s : State} (h : Same m a s) (aa : Nat) (bs : List Byte)
    (n_regs : m .regs = false) (n_mem : m .mem = false) (n_chk : m .chk = false) (n_mm : m .mm = false) :
    Same m a (State.peerWrite s aa bs) := by
  unfold State.peerWrite
  repeat' first
    | (with_reducible first
        | assumption | refine Same.ite ?_ ?_ | apply State.write_same | apply State.protectedRecord_same)

theorem State.obcorData_same {m : Component → Bool} {a s : State} (h : Same m a s) (l : Nat) (mm : DataMsg)
    (n_fresh : m .fresh = false) (n_regs : m .regs = false) (n_mem : m .mem = false)
    (n_crossings : m .crossings = false) (n_cfg : m .cfg = false) (n_flt : m .flt = false) (n_chk : m .chk = false)
    (n_mm : m .mm = false) (n_hub : m .hub = false) (n_fleet : m .fleet = false) :
    Same m a (State.obcorData s l mm) := by
  unfold State.obcorData
  repeat' first
    | (with_reducible first
        | assumption | refine Same.ite ?_ ?_ | apply State.bump_same | apply State.freeRunning_same
        | apply State.putIn_same | apply State.settleEpoch_same | apply State.peerWrite_same)

theorem execObcorDataReceive_same {m : Component → Bool} {a s : State} (h : Same m a s) (link : Fin 16)
    (msg : DataMsg) (n_fresh : m .fresh = false) (n_regs : m .regs = false) (n_mem : m .mem = false)
    (n_crossings : m .crossings = false) (n_cfg : m .cfg = false) (n_flt : m .flt = false) (n_chk : m .chk = false)
    (n_mm : m .mm = false) (n_hub : m .hub = false) (n_fleet : m .fleet = false) {kt : State}
    (ke : execObcorDataReceive link msg s = .next kt) :
    Same m a kt := by
  unfold execObcorDataReceive at ke
  refine Same.of_done ke ?_
  repeat' (with_reducible first | assumption | refine Same.ite ?_ ?_ | apply State.obcorData_same)

theorem State.checkTokenReceive_same {m : Component → Bool} {a s : State} (h : Same m a s) (l : Nat) (src : Nat)
    (dest : Nat) (epoch : Nat) (count : Nat) (pip : Nat) (n_regs : m .regs = false) (n_cfg : m .cfg = false)
    (n_flt : m .flt = false) (n_chk : m .chk = false) (n_hub : m .hub = false) (n_fleet : m .fleet = false) :
    Same m a (State.checkTokenReceive s l src dest epoch count pip) := by
  unfold State.checkTokenReceive
  repeat' first
    | (with_reducible first | assumption | refine Same.ite ?_ ?_)
    | (lift_lets; intro kx; refine Same.step (m := m) (a := a) (x := kx) ?_ fun hkx => ?_)
    | (lift_lets; intro kx)
    | (simp only [Same.mk_iff]; apply SameF.of; all_goals first
        | with_reducible exact Off.refl | exact Off.no (by assumption) | skip)
    | (with_reducible first | apply State.bump_same | apply State.putIn_same | apply State.settleEpoch_same)
    | (simp only [kx, Same.mk_iff]; apply SameF.of; all_goals first
        | with_reducible exact Off.refl | exact Off.no (by assumption) | skip)
    | (with_reducible first
        | refine Same.foldl ?_ fun kb ky hkb => ?_ | refine Same.foldl_snd ?_ fun kb ky hkb => ?_
        | refine Same.foldl_fst ?_ fun kb ky hkb => ?_)
    | split
    | (with_reducible first
        | refine Same.of_snd (by assumption) ?_ | refine Same.of_fst (by assumption) ?_
        | refine Same.of_third (by assumption) ?_)
    | dsimp only
    | unfold kx

theorem execCheckTokenReceive_same {m : Component → Bool} {a s : State} (h : Same m a s) (link : Fin 16)
    (ends : TokenEnds) (epoch : BitVec 32) (count : BitVec 64) (pip : BitVec 64) (n_regs : m .regs = false)
    (n_cfg : m .cfg = false) (n_flt : m .flt = false) (n_chk : m .chk = false) (n_hub : m .hub = false)
    (n_fleet : m .fleet = false) {kt : State} (ke : execCheckTokenReceive link ends epoch count pip s = .next kt) :
    Same m a kt := by
  unfold execCheckTokenReceive at ke
  refine Same.of_done ke ?_
  repeat' first
    | (with_reducible first | assumption | refine Same.ite ?_ ?_)
    | (lift_lets; intro kx; refine Same.step (m := m) (a := a) (x := kx) ?_ fun hkx => ?_)
    | (lift_lets; intro kx)
    | (simp only [Same.mk_iff]; apply SameF.of; all_goals first
        | with_reducible exact Off.refl | exact Off.no (by assumption) | skip)
    | with_reducible apply State.checkTokenReceive_same
    | (simp only [kx, Same.mk_iff]; apply SameF.of; all_goals first
        | with_reducible exact Off.refl | exact Off.no (by assumption) | skip)
    | (with_reducible first
        | refine Same.foldl ?_ fun kb ky hkb => ?_ | refine Same.foldl_snd ?_ fun kb ky hkb => ?_
        | refine Same.foldl_fst ?_ fun kb ky hkb => ?_)
    | split
    | (with_reducible first
        | refine Same.of_snd (by assumption) ?_ | refine Same.of_fst (by assumption) ?_
        | refine Same.of_third (by assumption) ?_)
    | dsimp only
    | unfold kx

theorem State.commitTimeout_same {m : Component → Bool} {a s : State} (h : Same m a s) (src : Nat) (epoch : Nat)
    (n_regs : m .regs = false) (n_cfg : m .cfg = false) (n_flt : m .flt = false) (n_chk : m .chk = false)
    (n_hub : m .hub = false) (n_fleet : m .fleet = false) :
    Same m a (State.commitTimeout s src epoch) := by
  unfold State.commitTimeout
  repeat' first
    | (with_reducible first
        | assumption | refine Same.ite ?_ ?_ | apply State.bump_same | apply State.transferPoison_same)

theorem execCommitTimeout_same {m : Component → Bool} {a s : State} (h : Same m a s) (src : BitVec 13)
    (epoch : BitVec 32) (n_regs : m .regs = false) (n_cfg : m .cfg = false) (n_flt : m .flt = false)
    (n_chk : m .chk = false) (n_hub : m .hub = false) (n_fleet : m .fleet = false) {kt : State}
    (ke : execCommitTimeout src epoch s = .next kt) :
    Same m a kt := by
  unfold execCommitTimeout at ke
  refine Same.of_done ke ?_
  repeat' (with_reducible first | assumption | refine Same.ite ?_ ?_ | apply State.commitTimeout_same)

theorem State.checkTokenSend_same {m : Component → Bool} {a s : State} (h : Same m a s) (dest : Nat) (epoch : Nat)
    (parityOk : Bool) (n_regs : m .regs = false) (n_cfg : m .cfg = false) (n_flt : m .flt = false)
    (n_chk : m .chk = false) (n_hub : m .hub = false) (n_fleet : m .fleet = false) :
    Same m a (State.checkTokenSend s dest epoch parityOk) := by
  unfold State.checkTokenSend
  repeat' first
    | (with_reducible first | assumption | refine Same.ite ?_ ?_)
    | (lift_lets; intro kx; refine Same.step (m := m) (a := a) (x := kx) ?_ fun hkx => ?_)
    | (lift_lets; intro kx)
    | (simp only [Same.mk_iff]; apply SameF.of; all_goals first
        | with_reducible exact Off.refl | exact Off.no (by assumption) | skip)
    | (with_reducible first
        | apply State.bump_same | apply State.emit_same | apply State.flitOut_same | apply State.transferPoison_same
        | apply State.poisonConsumed_same)
    | (simp only [kx, Same.mk_iff]; apply SameF.of; all_goals first
        | with_reducible exact Off.refl | exact Off.no (by assumption) | skip)
    | (with_reducible first
        | refine Same.foldl ?_ fun kb ky hkb => ?_ | refine Same.foldl_snd ?_ fun kb ky hkb => ?_
        | refine Same.foldl_fst ?_ fun kb ky hkb => ?_)
    | split
    | (with_reducible first
        | refine Same.of_snd (by assumption) ?_ | refine Same.of_fst (by assumption) ?_
        | refine Same.of_third (by assumption) ?_)
    | dsimp only
    | unfold kx

theorem execCheckTokenSend_same {m : Component → Bool} {a s : State} (h : Same m a s) (receiver : BitVec 13)
    (epoch : BitVec 32) (parityOk : Bool) (n_regs : m .regs = false) (n_cfg : m .cfg = false)
    (n_flt : m .flt = false) (n_chk : m .chk = false) (n_hub : m .hub = false) (n_fleet : m .fleet = false)
    {kt : State} (ke : execCheckTokenSend receiver epoch parityOk s = .next kt) :
    Same m a kt := by
  unfold execCheckTokenSend at ke
  refine Same.of_done ke ?_
  repeat' (with_reducible first | assumption | refine Same.ite ?_ ?_ | apply State.checkTokenSend_same)

theorem State.poisonNotice_same {m : Component → Bool} {a s : State} (h : Same m a s) (l : Nat) (sender : Nat)
    (reporter : Nat) (epoch : Nat) (cause : Nat) (n_regs : m .regs = false) (n_cfg : m .cfg = false)
    (n_flt : m .flt = false) (n_chk : m .chk = false) (n_hub : m .hub = false) (n_fleet : m .fleet = false) :
    Same m a (State.poisonNotice s l sender reporter epoch cause) := by
  unfold State.poisonNotice
  repeat' first
    | (with_reducible first | assumption | refine Same.ite ?_ ?_)
    | (lift_lets; intro kx; refine Same.step (m := m) (a := a) (x := kx) ?_ fun hkx => ?_)
    | (lift_lets; intro kx)
    | (simp only [Same.mk_iff]; apply SameF.of; all_goals first
        | with_reducible exact Off.refl | exact Off.no (by assumption) | skip)
    | (with_reducible first
        | apply State.bump_same | apply State.emit_same | apply State.beginStop_same | apply State.rollbackAll_same)
    | (simp only [kx, Same.mk_iff]; apply SameF.of; all_goals first
        | with_reducible exact Off.refl | exact Off.no (by assumption) | skip)
    | (with_reducible first
        | refine Same.foldl ?_ fun kb ky hkb => ?_ | refine Same.foldl_snd ?_ fun kb ky hkb => ?_
        | refine Same.foldl_fst ?_ fun kb ky hkb => ?_)
    | split
    | (with_reducible first
        | refine Same.of_snd (by assumption) ?_ | refine Same.of_fst (by assumption) ?_
        | refine Same.of_third (by assumption) ?_)
    | dsimp only
    | unfold kx

theorem execPoisonNotice_same {m : Component → Bool} {a s : State} (h : Same m a s) (link : Fin 16)
    (sender : BitVec 13) (reporter : BitVec 13) (epoch : BitVec 32) (_step : BitVec 64) (cause : BitVec 8)
    (n_regs : m .regs = false) (n_cfg : m .cfg = false) (n_flt : m .flt = false) (n_chk : m .chk = false)
    (n_hub : m .hub = false) (n_fleet : m .fleet = false) {kt : State}
    (ke : execPoisonNotice link sender reporter epoch _step cause s = .next kt) :
    Same m a kt := by
  unfold execPoisonNotice at ke
  refine Same.of_done ke ?_
  repeat' first
    | (with_reducible first | assumption | refine Same.ite ?_ ?_)
    | (lift_lets; intro kx; refine Same.step (m := m) (a := a) (x := kx) ?_ fun hkx => ?_)
    | (lift_lets; intro kx)
    | (simp only [Same.mk_iff]; apply SameF.of; all_goals first
        | with_reducible exact Off.refl | exact Off.no (by assumption) | skip)
    | with_reducible apply State.poisonNotice_same
    | (simp only [kx, Same.mk_iff]; apply SameF.of; all_goals first
        | with_reducible exact Off.refl | exact Off.no (by assumption) | skip)
    | (with_reducible first
        | refine Same.foldl ?_ fun kb ky hkb => ?_ | refine Same.foldl_snd ?_ fun kb ky hkb => ?_
        | refine Same.foldl_fst ?_ fun kb ky hkb => ?_)
    | split
    | (with_reducible first
        | refine Same.of_snd (by assumption) ?_ | refine Same.of_fst (by assumption) ?_
        | refine Same.of_third (by assumption) ?_)
    | dsimp only
    | unfold kx

theorem State.correctedRecordSend_same {m : Component → Bool} {a s : State} (h : Same m a s) (kind : Nat)
    (unitP : Nat) (n_regs : m .regs = false) (n_chk : m .chk = false) :
    Same m a (State.correctedRecordSend s kind unitP) := by
  unfold State.correctedRecordSend
  repeat' first
    | with_reducible assumption
    | (simp only [Same.mk_iff]; apply SameF.of; all_goals first
        | with_reducible exact Off.refl | exact Off.no (by assumption) | skip)
    | with_reducible apply State.sendRecord_same
    | split

theorem execCorrectedRecordSend_same {m : Component → Bool} {a s : State} (h : Same m a s) (kind : BitVec 16)
    (unitP : BitVec 32) (n_regs : m .regs = false) (n_chk : m .chk = false) {kt : State}
    (ke : execCorrectedRecordSend kind unitP s = .next kt) :
    Same m a kt := by
  unfold execCorrectedRecordSend at ke
  refine Same.of_done ke ?_
  repeat' (with_reducible first | assumption | refine Same.ite ?_ ?_ | apply State.correctedRecordSend_same)

theorem State.recordsLost_same {m : Component → Bool} {a s : State} (h : Same m a s) (n_regs : m .regs = false)
    (n_chk : m .chk = false) :
    Same m a (State.recordsLost s) := by
  unfold State.recordsLost
  repeat' first
    | (with_reducible first | assumption | refine Same.ite ?_ ?_)
    | (simp only [Same.mk_iff]; apply SameF.of; all_goals first
        | with_reducible exact Off.refl | exact Off.no (by assumption) | skip)
    | (with_reducible first | apply State.setFld_same | apply State.pushRecord_same | apply State.releaseHeld_same)

theorem execRecordsLost_same {m : Component → Bool} {a s : State} (h : Same m a s) (n_regs : m .regs = false)
    (n_chk : m .chk = false) {kt : State} (ke : execRecordsLost s = .next kt) :
    Same m a kt := by
  unfold execRecordsLost at ke
  refine Same.of_done ke ?_
  repeat' (with_reducible first | assumption | refine Same.ite ?_ ?_ | apply State.recordsLost_same)

theorem State.errTailWrite_same {m : Component → Bool} {a s : State} (h : Same m a s) (v : Nat)
    (n_regs : m .regs = false) :
    Same m a (State.errTailWrite s v) := by
  unfold State.errTailWrite
  repeat' (with_reducible first | assumption | refine Same.ite ?_ ?_ | apply State.setFld_same)

theorem execErrTailWrite_same {m : Component → Bool} {a s : State} (h : Same m a s) (value : Word)
    (n_regs : m .regs = false) {kt : State} (ke : execErrTailWrite value s = .next kt) :
    Same m a kt := by
  unfold execErrTailWrite at ke
  refine Same.of_done ke ?_
  repeat' first
    | with_reducible assumption
    | (lift_lets; intro kx)
    | (with_reducible first | apply State.onReady_same | apply State.errTailWrite_same)

theorem State.traceTailWrite_same {m : Component → Bool} {a s : State} (h : Same m a s) (v : Nat)
    (n_regs : m .regs = false) :
    Same m a (State.traceTailWrite s v) := by
  unfold State.traceTailWrite
  repeat' (with_reducible first | assumption | refine Same.ite ?_ ?_ | apply State.setFld_same)

theorem execTraceTailWrite_same {m : Component → Bool} {a s : State} (h : Same m a s) (value : Word)
    (n_regs : m .regs = false) {kt : State} (ke : execTraceTailWrite value s = .next kt) :
    Same m a kt := by
  unfold execTraceTailWrite at ke
  refine Same.of_done ke ?_
  repeat' first
    | with_reducible assumption
    | (lift_lets; intro kx)
    | (with_reducible first | apply State.onReady_same | apply State.traceTailWrite_same)

theorem State.agreeSlot_same {m : Component → Bool} {a s : State} (h : Same m a s) (k : Nat)
    (n_flt : m .flt = false) :
    Same m a (State.agreeSlot s k) := by
  unfold State.agreeSlot
  repeat' first
    | (with_reducible first | assumption | refine Same.ite ?_ ?_)
    | (simp only [Same.mk_iff]; apply SameF.of; all_goals first
        | with_reducible exact Off.refl | exact Off.no (by assumption) | skip)

theorem State.disagree_same {m : Component → Bool} {a s : State} (h : Same m a s) (code : Nat) (round : Nat)
    (replicas : Nat) (n_regs : m .regs = false) (n_cfg : m .cfg = false) (n_flt : m .flt = false)
    (n_chk : m .chk = false) (n_hub : m .hub = false) :
    Same m a (State.disagree s code round replicas) := by
  unfold State.disagree
  repeat' first
    | (with_reducible first
        | assumption | refine Same.ite ?_ ?_ | apply State.bump_same | apply State.emit_same
        | apply State.beginStop_same)

theorem State.verdict_same {m : Component → Bool} {a s : State} (h : Same m a s) (code : Nat) (step : Nat)
    (replicas : Nat) (n_fresh : m .fresh = false) (n_regs : m .regs = false) (n_mem : m .mem = false)
    (n_crossings : m .crossings = false) (n_cfg : m .cfg = false) (n_flt : m .flt = false) (n_chk : m .chk = false)
    (n_mm : m .mm = false) (n_hub : m .hub = false) (n_fleet : m .fleet = false) (n_dense : m .dense = false)
    (n_emb : m .emb = false) (n_det : m .det = false) :
    Same m a (State.verdict s code step replicas) := by
  unfold State.verdict
  repeat' first
    | (with_reducible first | assumption | refine Same.ite ?_ ?_)
    | (simp only [Same.mk_iff]; apply SameF.of; all_goals first
        | with_reducible exact Off.refl | exact Off.no (by assumption) | skip)
    | (with_reducible first
        | apply State.setFld_same | apply State.raiseIrq_same | apply State.setAgreed_same | apply State.seamNext_same
        | apply State.agreeSlot_same | apply State.disagree_same)

theorem execVerdict_same {m : Component → Bool} {a s : State} (h : Same m a s) (code : BitVec 2) (step : BitVec 64)
    (replicas : Nat) (n_fresh : m .fresh = false) (n_regs : m .regs = false) (n_mem : m .mem = false)
    (n_crossings : m .crossings = false) (n_cfg : m .cfg = false) (n_flt : m .flt = false) (n_chk : m .chk = false)
    (n_mm : m .mm = false) (n_hub : m .hub = false) (n_fleet : m .fleet = false) (n_dense : m .dense = false)
    (n_emb : m .emb = false) (n_det : m .det = false) {kt : State}
    (ke : execVerdict code step replicas s = .next kt) :
    Same m a kt := by
  unfold execVerdict at ke
  refine Same.of_done ke ?_
  repeat' first
    | (with_reducible first
        | assumption | refine Same.ite ?_ ?_ | apply State.flitFrom_same | apply State.verdict_same)

end Sys2Proof.Machine
end

