-- ==== Sys2Proof/Laws/SameDripstone.lean ====
section
/-! SUPPORT. What the operations of Machine/Dripstone.lean leave alone (`Same`). -/

set_option linter.unusedSimpArgs false

namespace Sys2Proof.Machine

theorem State.setNor_same {m : Component → Bool} {a s : State} (h : Same m a s) (n : NorState)
    (n_flt : m .flt = false) :
    Same m a (State.setNor s n) := by
  unfold State.setNor
  repeat' first
    | with_reducible assumption
    | (simp only [Same.mk_iff]; apply SameF.of; all_goals first
        | with_reducible exact Off.refl | exact Off.no (by assumption) | skip)

theorem State.writeHeader_same {m : Component → Bool} {a s : State} (h : Same m a s) (table : Nat) (pack : Nat)
    (n_flt : m .flt = false) :
    Same m a (State.writeHeader s table pack) := by
  unfold State.writeHeader
  repeat' (with_reducible first | assumption | refine Same.ite ?_ ?_ | apply State.setNor_same)

theorem State.writeTable_same {m : Component → Bool} {a s : State} (h : Same m a s) (ok : Bool)
    (n_fresh : m .fresh = false) (n_regs : m .regs = false) (n_flt : m .flt = false) (n_chk : m .chk = false) :
    Same m a (State.writeTable s ok) := by
  unfold State.writeTable
  repeat' first
    | (with_reducible first | assumption | refine Same.ite ?_ ?_)
    | (simp only [Same.mk_iff]; apply SameF.of; all_goals first
        | with_reducible exact Off.refl | exact Off.no (by assumption) | skip)
    | (with_reducible first
        | apply State.free_same | apply State.emit_same | apply State.setNor_same | apply State.writeHeader_same)

theorem State.dripstoneStateWrite_same {m : Component → Bool} {a s : State} (h : Same m a s) (ok : Bool)
    (n_fresh : m .fresh = false) (n_regs : m .regs = false) (n_flt : m .flt = false) (n_chk : m .chk = false) :
    Same m a (State.dripstoneStateWrite s ok) := by
  unfold State.dripstoneStateWrite
  repeat' (with_reducible first | assumption | refine Same.ite ?_ ?_ | apply State.writeTable_same)

theorem execDripstoneStateWrite_same {m : Component → Bool} {a s : State} (h : Same m a s) (norOk : Bool)
    (n_fresh : m .fresh = false) (n_regs : m .regs = false) (n_flt : m .flt = false) (n_chk : m .chk = false)
    {kt : State} (ke : execDripstoneStateWrite norOk s = .next kt) :
    Same m a kt := by
  unfold execDripstoneStateWrite at ke
  refine Same.of_done ke ?_
  repeat' first
    | with_reducible assumption
    | (lift_lets; intro kx)
    | (with_reducible first | apply State.onSteward_same | apply State.dripstoneStateWrite_same)

theorem State.dripstoneCountFlush_same {m : Component → Bool} {a s : State} (h : Same m a s) (ok : Bool)
    (n_fresh : m .fresh = false) (n_regs : m .regs = false) (n_flt : m .flt = false) (n_chk : m .chk = false) :
    Same m a (State.dripstoneCountFlush s ok) := by
  unfold State.dripstoneCountFlush
  repeat' (with_reducible first | assumption | refine Same.ite ?_ ?_ | apply State.writeTable_same)

theorem execDripstoneCountFlush_same {m : Component → Bool} {a s : State} (h : Same m a s) (norOk : Bool)
    (n_fresh : m .fresh = false) (n_regs : m .regs = false) (n_flt : m .flt = false) (n_chk : m .chk = false)
    {kt : State} (ke : execDripstoneCountFlush norOk s = .next kt) :
    Same m a kt := by
  unfold execDripstoneCountFlush at ke
  refine Same.of_done ke ?_
  repeat' first
    | with_reducible assumption
    | (lift_lets; intro kx)
    | (with_reducible first | apply State.onSteward_same | apply State.dripstoneCountFlush_same)

theorem State.endPack_same {m : Component → Bool} {a s : State} (h : Same m a s) (code : Nat)
    (n_regs : m .regs = false) (n_flt : m .flt = false) (n_hub : m .hub = false) :
    Same m a (State.endPack s code) := by
  unfold State.endPack
  repeat' first
    | with_reducible assumption
    | (simp only [Same.mk_iff]; apply SameF.of; all_goals first
        | with_reducible exact Off.refl | exact Off.no (by assumption) | skip)
    | (with_reducible first | apply State.setFld_same | apply State.raiseIrq_same)

theorem State.packInstall_same {m : Component → Bool} {a s : State} (h : Same m a s) (n_regs : m .regs = false)
    (n_flt : m .flt = false) (n_hub : m .hub = false) :
    Same m a (State.packInstall s) := by
  unfold State.packInstall
  repeat' first
    | (with_reducible first | assumption | refine Same.ite ?_ ?_)
    | (simp only [Same.mk_iff]; apply SameF.of; all_goals first
        | with_reducible exact Off.refl | exact Off.no (by assumption) | skip)
    | (with_reducible first | apply State.setFld_same | apply State.endPack_same)
    | split

theorem execPackInstall_same {m : Component → Bool} {a s : State} (h : Same m a s) (_value : Word)
    (n_regs : m .regs = false) (n_flt : m .flt = false) (n_hub : m .hub = false) {kt : State}
    (ke : execPackInstall _value s = .next kt) :
    Same m a kt := by
  unfold execPackInstall at ke
  refine Same.of_done ke ?_
  repeat' first
    | with_reducible assumption
    | (lift_lets; intro kx)
    | (with_reducible first | apply State.onReady_same | apply State.onSteward_same | apply State.packInstall_same)

theorem State.packActivation_same {m : Component → Bool} {a s : State} (h : Same m a s) (ok : Bool)
    (n_fresh : m .fresh = false) (n_regs : m .regs = false) (n_flt : m .flt = false) (n_chk : m .chk = false)
    (n_hub : m .hub = false) :
    Same m a (State.packActivation s ok) := by
  unfold State.packActivation
  repeat' first
    | (with_reducible first | assumption | refine Same.ite ?_ ?_)
    | (lift_lets; intro kx; refine Same.step (m := m) (a := a) (x := kx) ?_ fun hkx => ?_)
    | (lift_lets; intro kx)
    | (simp only [Same.mk_iff]; apply SameF.of; all_goals first
        | with_reducible exact Off.refl | exact Off.no (by assumption) | skip)
    | (with_reducible first
        | apply State.free_same | apply State.setFld_same | apply State.emit_same | apply State.setNor_same
        | apply State.writeHeader_same | apply State.endPack_same)
    | (simp only [kx, Same.mk_iff]; apply SameF.of; all_goals first
        | with_reducible exact Off.refl | exact Off.no (by assumption) | skip)
    | (with_reducible first
        | refine Same.foldl ?_ fun kb ky hkb => ?_ | refine Same.foldl_snd ?_ fun kb ky hkb => ?_
        | refine Same.foldl_fst ?_ fun kb ky hkb => ?_)
    | split
    | (with_reducible first
        | refine Same.of_snd (by assumption) ?_ | refine Same.of_fst (by assumption) ?_
        | refine Same.of_third (by assumption) ?_)
    | dsimp only
    | unfold kx

theorem execPackActivation_same {m : Component → Bool} {a s : State} (h : Same m a s) (norOk : Bool)
    (n_fresh : m .fresh = false) (n_regs : m .regs = false) (n_flt : m .flt = false) (n_chk : m .chk = false)
    (n_hub : m .hub = false) {kt : State} (ke : execPackActivation norOk s = .next kt) :
    Same m a kt := by
  unfold execPackActivation at ke
  refine Same.of_done ke ?_
  repeat' first
    | with_reducible assumption
    | (lift_lets; intro kx)
    | (with_reducible first | apply State.onSteward_same | apply State.packActivation_same)

end Sys2Proof.Machine
end

