-- ==== Sys2Proof/Laws/SameHub.lean ====
section
/-! SUPPORT. What the operations of Machine/Hub.lean leave alone (`Same`). -/

set_option linter.unusedSimpArgs false

namespace Sys2Proof.Machine

theorem State.watchLine_same {m : Component → Bool} {a s : State} (h : Same m a s) (cls : Nat) (i : Nat)
    (n_hub : m .hub = false) :
    Same m a (State.watchLine s cls i) := by
  unfold State.watchLine
  repeat' first
    | (with_reducible first
        | assumption | refine Same.ite ?_ ?_ | apply State.setRing_same | apply State.ringError_same)

theorem execWatchLineUpdate_same {m : Component → Bool} {a s : State} (h : Same m a s) (cls : Fin 5)
    (ring : Fin 4096) (n_hub : m .hub = false) {kt : State} (ke : execWatchLineUpdate cls ring s = .next kt) :
    Same m a kt := by
  unfold execWatchLineUpdate at ke
  refine Same.of_done ke ?_
  repeat' (with_reducible first | assumption | refine Same.ite ?_ ?_ | apply State.watchLine_same)

theorem State.ringConfigure_same {m : Component → Bool} {a s : State} (h : Same m a s) (v : Nat)
    (n_hub : m .hub = false) :
    Same m a (State.ringConfigure s v) := by
  unfold State.ringConfigure
  repeat' first
    | (with_reducible first | assumption | apply State.setRing_same)
    | split

theorem execRingEnable_same {m : Component → Bool} {a s : State} (h : Same m a s) (value : Word)
    (n_hub : m .hub = false) {kt : State} (ke : execRingEnable value s = .next kt) :
    Same m a kt := by
  unfold execRingEnable at ke
  refine Same.of_done ke ?_
  repeat' first
    | (with_reducible first | assumption | refine Same.ite ?_ ?_)
    | (lift_lets; intro kx)
    | (with_reducible first | apply State.onReady_same | apply State.ringConfigure_same)

theorem State.ringDisable_same {m : Component → Bool} {a s : State} (h : Same m a s) (v : Nat)
    (n_hub : m .hub = false) :
    Same m a (State.ringDisable s v) := by
  unfold State.ringDisable
  repeat' first
    | (with_reducible first | assumption | refine Same.ite ?_ ?_ | apply State.setRing_same)
    | split

theorem execRingDisable_same {m : Component → Bool} {a s : State} (h : Same m a s) (value : Word)
    (n_hub : m .hub = false) {kt : State} (ke : execRingDisable value s = .next kt) :
    Same m a kt := by
  unfold execRingDisable at ke
  refine Same.of_done ke ?_
  repeat' first
    | with_reducible assumption
    | (lift_lets; intro kx)
    | (with_reducible first | apply State.onReady_same | apply State.ringDisable_same)

theorem State.txFrame_same {m : Component → Bool} {a s : State} (h : Same m a s) (i : Nat) (e : List Byte)
    (es : List MemError) (n_regs : m .regs = false) (n_cfg : m .cfg = false) (n_flt : m .flt = false)
    (n_chk : m .chk = false) (n_mm : m .mm = false) (n_hub : m .hub = false) (n_fleet : m .fleet = false) :
    Same m a (State.txFrame s i e es).2 := by
  unfold State.txFrame
  repeat' first
    | (with_reducible first
        | assumption | refine Same.ite ?_ ?_ | apply State.bump_same | apply State.emit_same
        | apply State.meetReads_same)

theorem State.txEntry_same {m : Component → Bool} {a s : State} (h : Same m a s) (i : Nat) (es : List MemError)
    (n_regs : m .regs = false) (n_cfg : m .cfg = false) (n_flt : m .flt = false) (n_chk : m .chk = false)
    (n_mm : m .mm = false) (n_hub : m .hub = false) (n_fleet : m .fleet = false) :
    Same m a (State.txEntry s i es) := by
  unfold State.txEntry
  repeat' first
    | (with_reducible first | assumption | refine Same.ite ?_ ?_)
    | (lift_lets; intro kx; refine Same.step (m := m) (a := a) (x := kx) ?_ fun hkx => ?_)
    | (lift_lets; intro kx)
    | (simp only [Same.mk_iff]; apply SameF.of; all_goals first
        | with_reducible exact Off.refl | exact Off.no (by assumption) | skip)
    | (with_reducible first | apply State.setRing_same | apply State.txFrame_same)
    | (simp only [kx, Same.mk_iff]; apply SameF.of; all_goals first
        | with_reducible exact Off.refl | exact Off.no (by assumption) | skip)
    | (with_reducible first
        | refine Same.foldl ?_ fun kb ky hkb => ?_ | refine Same.foldl_snd ?_ fun kb ky hkb => ?_
        | refine Same.foldl_fst ?_ fun kb ky hkb => ?_)
    | split
    | (with_reducible first
        | refine Same.of_snd (by assumption) ?_ | refine Same.of_fst (by assumption) ?_
        | refine Same.of_third (by assumption) ?_)
    | dsimp only
    | unfold kx

theorem execTxEntry_same {m : Component → Bool} {a s : State} (h : Same m a s) (entry : TxTake)
    (n_regs : m .regs = false) (n_cfg : m .cfg = false) (n_flt : m .flt = false) (n_chk : m .chk = false)
    (n_mm : m .mm = false) (n_hub : m .hub = false) (n_fleet : m .fleet = false) {kt : State}
    (ke : execTxEntry entry s = .next kt) :
    Same m a kt := by
  unfold execTxEntry at ke
  refine Same.of_done ke ?_
  repeat' first
    | (with_reducible first | assumption | refine Same.ite ?_ ?_)
    | (lift_lets; intro kx; refine Same.step (m := m) (a := a) (x := kx) ?_ fun hkx => ?_)
    | (lift_lets; intro kx)
    | (simp only [Same.mk_iff]; apply SameF.of; all_goals first
        | with_reducible exact Off.refl | exact Off.no (by assumption) | skip)
    | with_reducible apply State.txEntry_same
    | (simp only [kx, Same.mk_iff]; apply SameF.of; all_goals first
        | with_reducible exact Off.refl | exact Off.no (by assumption) | skip)
    | (with_reducible first
        | refine Same.foldl ?_ fun kb ky hkb => ?_ | refine Same.foldl_snd ?_ fun kb ky hkb => ?_
        | refine Same.foldl_fst ?_ fun kb ky hkb => ?_)
    | split
    | (with_reducible first
        | refine Same.of_snd (by assumption) ?_ | refine Same.of_fst (by assumption) ?_
        | refine Same.of_third (by assumption) ?_)
    | dsimp only
    | unfold kx

theorem State.writeCpl_same {m : Component → Bool} {a s : State} (h : Same m a s) (j : TxJob)
    (n_regs : m .regs = false) (n_mem : m .mem = false) (n_chk : m .chk = false) (n_mm : m .mm = false)
    (n_hub : m .hub = false) :
    Same m a (State.writeCpl s j) := by
  unfold State.writeCpl
  repeat' first
    | (with_reducible first
        | assumption | refine Same.ite ?_ ?_ | apply State.guardedWrite_same | apply State.ringComplete_same)

theorem State.txCompletion_same {m : Component → Bool} {a s : State} (h : Same m a s) (i : Nat)
    (n_regs : m .regs = false) (n_mem : m .mem = false) (n_chk : m .chk = false) (n_mm : m .mm = false)
    (n_hub : m .hub = false) :
    Same m a (State.txCompletion s i) := by
  unfold State.txCompletion
  repeat' first
    | (with_reducible first | assumption | refine Same.ite ?_ ?_)
    | (simp only [Same.mk_iff]; apply SameF.of; all_goals first
        | with_reducible exact Off.refl | exact Off.no (by assumption) | skip)
    | (with_reducible first | apply State.ringComplete_same | apply State.writeCpl_same)
    | split

theorem execTxCompletion_same {m : Component → Bool} {a s : State} (h : Same m a s) (ring : Fin 256)
    (n_regs : m .regs = false) (n_mem : m .mem = false) (n_chk : m .chk = false) (n_mm : m .mm = false)
    (n_hub : m .hub = false) {kt : State} (ke : execTxCompletion ring s = .next kt) :
    Same m a kt := by
  unfold execTxCompletion at ke
  refine Same.of_done ke ?_
  repeat' (with_reducible first | assumption | refine Same.ite ?_ ?_ | apply State.txCompletion_same)

theorem State.holdoffExpiry_same {m : Component → Bool} {a s : State} (h : Same m a s) (cls : Nat) (i : Nat)
    (n_regs : m .regs = false) (n_hub : m .hub = false) :
    Same m a (State.holdoffExpiry s cls i) := by
  unfold State.holdoffExpiry
  repeat' first
    | (with_reducible first
        | assumption | refine Same.ite ?_ ?_ | apply State.raiseIrq_same | apply State.setRing_same)

theorem execIrqHoldoffExpiry_same {m : Component → Bool} {a s : State} (h : Same m a s) (cls : Fin 5)
    (ring : Fin 4096) (n_regs : m .regs = false) (n_hub : m .hub = false) {kt : State}
    (ke : execIrqHoldoffExpiry cls ring s = .next kt) :
    Same m a kt := by
  unfold execIrqHoldoffExpiry at ke
  refine Same.of_done ke ?_
  repeat' (with_reducible first | assumption | refine Same.ite ?_ ?_ | apply State.holdoffExpiry_same)

theorem State.routeWrite_same {m : Component → Bool} {a s : State} (h : Same m a s) (n : Nat) (v : Nat)
    (n_regs : m .regs = false) (n_hub : m .hub = false) :
    Same m a (State.routeWrite s n v) := by
  unfold State.routeWrite
  repeat' (with_reducible first | assumption | refine Same.ite ?_ ?_ | apply State.setFld_same | apply State.deliver_same)

theorem execIrqRouteWrite_same {m : Component → Bool} {a s : State} (h : Same m a s) (source : Fin 528)
    (value : Word) (n_regs : m .regs = false) (n_hub : m .hub = false) {kt : State}
    (ke : execIrqRouteWrite source value s = .next kt) :
    Same m a kt := by
  unfold execIrqRouteWrite at ke
  refine Same.of_done ke ?_
  repeat' first
    | with_reducible assumption
    | (lift_lets; intro kx)
    | (with_reducible first | apply State.onReady_same | apply State.routeWrite_same)

end Sys2Proof.Machine
end

