-- ==== Sys2Proof/Laws/SameServices.lean ====
section
/-! SUPPORT. What the operations of Machine/Services.lean leave alone (`Same`). -/

set_option linter.unusedSimpArgs false

namespace Sys2Proof.Machine

theorem State.stewardCommit_same {m : Component → Bool} {a s : State} (h : Same m a s) (g : Nat)
    (fs : List (Fld × Nat)) (n_fresh : m .fresh = false) (n_regs : m .regs = false) (n_shadow : m .shadow = false)
    (n_mem : m .mem = false) (n_cfg : m .cfg = false) (n_hub : m .hub = false) (n_wire : m .wire = false)
    (n_time : m .time = false) :
    Same m a (State.stewardCommit s g fs).2 := by
  unfold State.stewardCommit
  repeat' first
    | (with_reducible first | assumption | refine Same.ite ?_ ?_)
    | (lift_lets; intro kx; refine Same.step (m := m) (a := a) (x := kx) ?_ fun hkx => ?_)
    | (lift_lets; intro kx)
    | (simp only [Same.mk_iff]; apply SameF.of; all_goals first
        | with_reducible exact Off.refl | exact Off.no (by assumption) | skip)
    | (with_reducible first | apply State.setShadow_same | apply State.applyGroup_same)
    | (simp only [kx, Same.mk_iff]; apply SameF.of; all_goals first
        | with_reducible exact Off.refl | exact Off.no (by assumption) | skip)
    | (with_reducible first
        | refine Same.foldl ?_ fun kb ky hkb => ?_ | refine Same.foldl_snd ?_ fun kb ky hkb => ?_
        | refine Same.foldl_fst ?_ fun kb ky hkb => ?_)
    | split
    | (with_reducible first
        | refine Same.of_snd (by assumption) ?_ | refine Same.of_fst (by assumption) ?_
        | refine Same.of_third (by assumption) ?_)
    | dsimp only
    | unfold kx

theorem State.svcTake_same {m : Component → Bool} {a s : State} (h : Same m a s) (i : Nat) (n_hub : m .hub = false) :
    Same m a (State.svcTake s i) := by
  unfold State.svcTake
  repeat' (with_reducible first | assumption | refine Same.ite ?_ ?_ | apply State.setRing_same)

theorem State.svcAnswer_same {m : Component → Bool} {a s : State} (h : Same m a s) (i : Nat) (n : Nat)
    (result : Nat) (args : List Byte) (n_regs : m .regs = false) (n_mem : m .mem = false) (n_chk : m .chk = false)
    (n_mm : m .mm = false) (n_hub : m .hub = false) :
    Same m a (State.svcAnswer s i n result args) := by
  unfold State.svcAnswer
  repeat' first
    | (with_reducible first
        | assumption | refine Same.ite ?_ ?_ | apply State.guardedWrite_same | apply State.ringComplete_same)

theorem State.serve_same {m : Component → Bool} {a s : State} (h : Same m a s) (i op : Nat)
    (f : State → List Byte → Nat × List Byte × State) (k : ∀ x b, Same m a x → Same m a (f x b).2.2)
    (n_regs : m .regs = false) (n_mem : m .mem = false) (n_chk : m .chk = false) (n_mm : m .mm = false)
      (n_hub : m .hub = false) : Same m a (s.serve i op f) := by
  unfold State.serve
  split
  · exact h
  · dsimp only
    split
    · exact State.svcAnswer_same (k _ _ (State.svcTake_same h _ n_hub)) _ _ _ _ n_regs n_mem n_chk n_mm n_hub
    · split
      · exact h
      · exact State.svcAnswer_same (State.svcTake_same h _ n_hub) _ _ _ _ n_regs n_mem n_chk n_mm n_hub

theorem execIdentity_same {m : Component → Bool} {a s : State} (h : Same m a s) (ring : Fin 2)
    (n_regs : m .regs = false) (n_mem : m .mem = false) (n_chk : m .chk = false) (n_mm : m .mm = false)
    (n_hub : m .hub = false) {kt : State} (ke : execIdentity ring s = .next kt) :
    Same m a kt := by
  unfold execIdentity at ke
  refine Same.of_done ke ?_
  repeat' first
    | (with_reducible first
        | assumption | first | refine fun kz kb hkz => ?_ | refine fun kz hkz => ?_ | apply State.serve_same)

theorem State.dripCopy_same {m : Component → Bool} {a s : State} (h : Same m a s) (aa : Nat)
    (n_fresh : m .fresh = false) (n_mem : m .mem = false) (n_mm : m .mm = false) :
    Same m a (State.dripCopy s aa) := by
  unfold State.dripCopy
  repeat' first
    | (with_reducible first | assumption | refine Same.ite ?_ ?_)
    | (lift_lets; intro kx; refine Same.step (m := m) (a := a) (x := kx) ?_ fun hkx => ?_)
    | (lift_lets; intro kx)
    | (simp only [Same.mk_iff]; apply SameF.of; all_goals first
        | with_reducible exact Off.refl | exact Off.no (by assumption) | skip)
    | (with_reducible first | apply State.write_same | apply State.writeFree_same)
    | (simp only [kx, Same.mk_iff]; apply SameF.of; all_goals first
        | with_reducible exact Off.refl | exact Off.no (by assumption) | skip)
    | (with_reducible first
        | refine Same.foldl ?_ fun kb ky hkb => ?_ | refine Same.foldl_snd ?_ fun kb ky hkb => ?_
        | refine Same.foldl_fst ?_ fun kb ky hkb => ?_)
    | split
    | (with_reducible first
        | refine Same.of_snd (by assumption) ?_ | refine Same.of_fst (by assumption) ?_
        | refine Same.of_third (by assumption) ?_)
    | dsimp only
    | unfold kx

theorem execDripstoneCopy_same {m : Component → Bool} {a s : State} (h : Same m a s) (ring : Fin 2)
    (n_fresh : m .fresh = false) (n_regs : m .regs = false) (n_mem : m .mem = false) (n_chk : m .chk = false)
    (n_mm : m .mm = false) (n_hub : m .hub = false) {kt : State} (ke : execDripstoneCopy ring s = .next kt) :
    Same m a kt := by
  unfold execDripstoneCopy at ke
  refine Same.of_done ke ?_
  repeat' first
    | (with_reducible first | assumption | first | refine fun kz kb hkz => ?_ | refine fun kz hkz => ?_)
    | (lift_lets; intro kx)
    | (with_reducible first | apply State.serve_same | apply State.dripCopy_same)
    | split

theorem State.stageFirmware_same {m : Component → Bool} {a s : State} (h : Same m a s) (aa : Nat) (n : Nat)
    (n_fresh : m .fresh = false) (n_pkg : m .pkg = false) :
    Same m a (State.stageFirmware s aa n).2.2 := by
  unfold State.stageFirmware
  repeat' first
    | with_reducible assumption
    | (simp only [Same.mk_iff]; apply SameF.of; all_goals first
        | with_reducible exact Off.refl | exact Off.no (by assumption) | skip)
    | with_reducible apply State.free_same
    | split
    | dsimp only

theorem execFirmwareStage_same {m : Component → Bool} {a s : State} (h : Same m a s) (ring : Fin 2)
    (n_fresh : m .fresh = false) (n_regs : m .regs = false) (n_mem : m .mem = false) (n_pkg : m .pkg = false)
    (n_chk : m .chk = false) (n_mm : m .mm = false) (n_hub : m .hub = false) {kt : State}
    (ke : execFirmwareStage ring s = .next kt) :
    Same m a kt := by
  unfold execFirmwareStage at ke
  refine Same.of_done ke ?_
  repeat' first
    | (with_reducible first
        | assumption | first | refine fun kz kb hkz => ?_ | refine fun kz hkz => ?_ | apply State.serve_same
        | apply State.stageFirmware_same)

theorem State.sendJoin_same {m : Component → Bool} {a s : State} (h : Same m a s) (n_regs : m .regs = false)
    (n_hub : m .hub = false) (n_fleet : m .fleet = false) :
    Same m a (State.sendJoin s) := by
  unfold State.sendJoin
  repeat' (with_reducible first | assumption | refine Same.ite ?_ ?_ | apply State.sendMsg_same)

theorem State.fleetJoin_same {m : Component → Bool} {a s : State} (h : Same m a s) (i : Nat)
    (n_fresh : m .fresh = false) (n_regs : m .regs = false) (n_shadow : m .shadow = false) (n_mem : m .mem = false)
    (n_cfg : m .cfg = false) (n_chk : m .chk = false) (n_mm : m .mm = false) (n_hub : m .hub = false)
    (n_fleet : m .fleet = false) (n_wire : m .wire = false) (n_time : m .time = false) :
    Same m a (State.fleetJoin s i) := by
  unfold State.fleetJoin
  repeat' first
    | (with_reducible first | assumption | refine Same.ite ?_ ?_)
    | (simp only [Same.mk_iff]; apply SameF.of; all_goals first
        | with_reducible exact Off.refl | exact Off.no (by assumption) | skip)
    | (with_reducible first
        | apply State.setFleet_same | apply State.stewardCommit_same | apply State.svcTake_same
        | apply State.svcAnswer_same | apply State.sendJoin_same)
    | split

theorem execFleetJoin_same {m : Component → Bool} {a s : State} (h : Same m a s) (ring : Fin 2)
    (n_fresh : m .fresh = false) (n_regs : m .regs = false) (n_shadow : m .shadow = false) (n_mem : m .mem = false)
    (n_cfg : m .cfg = false) (n_chk : m .chk = false) (n_mm : m .mm = false) (n_hub : m .hub = false)
    (n_fleet : m .fleet = false) (n_wire : m .wire = false) (n_time : m .time = false) {kt : State}
    (ke : execFleetJoin ring s = .next kt) :
    Same m a kt := by
  unfold execFleetJoin at ke
  refine Same.of_done ke ?_
  repeat' first
    | (with_reducible first
        | assumption | first | refine fun kz kb hkz => ?_ | refine fun kz hkz => ?_ | apply State.serve_same
        | apply State.fleetJoin_same)
    | split

theorem State.outOfFleet_same {m : Component → Bool} {a s : State} (h : Same m a s) (n_regs : m .regs = false)
    (n_hub : m .hub = false) (n_fleet : m .fleet = false) :
    Same m a (State.outOfFleet s) := by
  unfold State.outOfFleet
  repeat' first
    | with_reducible assumption
    | (simp only [Same.mk_iff]; apply SameF.of; all_goals first
        | with_reducible exact Off.refl | exact Off.no (by assumption) | skip)
    | with_reducible apply State.setFleet_same

theorem execFleetLeave_same {m : Component → Bool} {a s : State} (h : Same m a s) (ring : Fin 2)
    (n_regs : m .regs = false) (n_mem : m .mem = false) (n_chk : m .chk = false) (n_mm : m .mm = false)
    (n_hub : m .hub = false) (n_fleet : m .fleet = false) {kt : State} (ke : execFleetLeave ring s = .next kt) :
    Same m a kt := by
  unfold execFleetLeave at ke
  refine Same.of_done ke ?_
  repeat' first
    | (with_reducible first
        | assumption | first | refine fun kz kb hkz => ?_ | refine fun kz hkz => ?_ | apply State.leaveFleet_same
        | apply State.serve_same | apply State.outOfFleet_same)
    | split

theorem execCoreState_same {m : Component → Bool} {a s : State} (h : Same m a s) (ring : Fin 2)
    (n_regs : m .regs = false) (n_mem : m .mem = false) (n_chk : m .chk = false) (n_mm : m .mm = false)
    (n_hub : m .hub = false) {kt : State} (ke : execCoreState ring s = .next kt) :
    Same m a kt := by
  unfold execCoreState at ke
  refine Same.of_done ke ?_
  repeat' first
    | (with_reducible first
        | assumption | first | refine fun kz kb hkz => ?_ | refine fun kz hkz => ?_ | apply State.serve_same)

theorem State.ptpMember_same {m : Component → Bool} {a s : State} (h : Same m a s) (k : Nat)
    (n_fresh : m .fresh = false) (n_hub : m .hub = false) :
    Same m a (State.ptpMember s k).2 := by
  unfold State.ptpMember
  repeat' first
    | with_reducible assumption
    | (simp only [Same.mk_iff]; apply SameF.of; all_goals first
        | with_reducible exact Off.refl | exact Off.no (by assumption) | skip)
    | with_reducible apply State.free_same
    | split

theorem execPtpDataset_same {m : Component → Bool} {a s : State} (h : Same m a s) (ring : Fin 2)
    (n_fresh : m .fresh = false) (n_regs : m .regs = false) (n_mem : m .mem = false) (n_chk : m .chk = false)
    (n_mm : m .mm = false) (n_hub : m .hub = false) {kt : State} (ke : execPtpDataset ring s = .next kt) :
    Same m a kt := by
  unfold execPtpDataset at ke
  refine Same.of_done ke ?_
  repeat' first
    | (with_reducible first | assumption | first | refine fun kz kb hkz => ?_ | refine fun kz hkz => ?_)
    | (simp only [Same.mk_iff]; apply SameF.of; all_goals first
        | with_reducible exact Off.refl | exact Off.no (by assumption) | skip)
    | (with_reducible first | apply State.serve_same | apply State.ptpMember_same)
    | split

theorem State.stewardFailover_same {m : Component → Bool} {a s : State} (h : Same m a s) (p : Nat)
    (n_regs : m .regs = false) (n_pkg : m .pkg = false) (n_cfg : m .cfg = false) (n_hub : m .hub = false)
    (n_time : m .time = false) :
    Same m a (State.stewardFailover s p) := by
  unfold State.stewardFailover
  repeat' first
    | (with_reducible first | assumption | refine Same.ite ?_ ?_)
    | (simp only [Same.mk_iff]; apply SameF.of; all_goals first
        | with_reducible exact Off.refl | exact Off.no (by assumption) | skip)
    | (with_reducible first | apply State.setRun_same | apply State.holdOver_same)

theorem State.pairMismatch_same {m : Component → Bool} {a s : State} (h : Same m a s) (n_fresh : m .fresh = false)
    (n_regs : m .regs = false) (n_pkg : m .pkg = false) (n_cfg : m .cfg = false) (n_hub : m .hub = false)
    (n_time : m .time = false) :
    Same m a (State.pairMismatch s) := by
  unfold State.pairMismatch
  repeat' first
    | (with_reducible first | assumption | refine Same.ite ?_ ?_)
    | (lift_lets; intro kx; refine Same.step (m := m) (a := a) (x := kx) ?_ fun hkx => ?_)
    | (lift_lets; intro kx)
    | (simp only [Same.mk_iff]; apply SameF.of; all_goals first
        | with_reducible exact Off.refl | exact Off.no (by assumption) | skip)
    | (with_reducible first | apply State.free_same | apply State.stewardFailover_same)
    | (simp only [kx, Same.mk_iff]; apply SameF.of; all_goals first
        | with_reducible exact Off.refl | exact Off.no (by assumption) | skip)
    | (with_reducible first
        | refine Same.foldl ?_ fun kb ky hkb => ?_ | refine Same.foldl_snd ?_ fun kb ky hkb => ?_
        | refine Same.foldl_fst ?_ fun kb ky hkb => ?_)
    | split
    | (with_reducible first
        | refine Same.of_snd (by assumption) ?_ | refine Same.of_fst (by assumption) ?_
        | refine Same.of_third (by assumption) ?_)
    | dsimp only
    | unfold kx

theorem execStewardFailover_same {m : Component → Bool} {a s : State} (h : Same m a s) (n_fresh : m .fresh = false)
    (n_regs : m .regs = false) (n_pkg : m .pkg = false) (n_cfg : m .cfg = false) (n_hub : m .hub = false)
    (n_time : m .time = false) {kt : State} (ke : execStewardFailover s = .next kt) :
    Same m a kt := by
  unfold execStewardFailover at ke
  refine Same.of_done ke ?_
  repeat' first
    | (with_reducible first | assumption | refine Same.ite ?_ ?_)
    | (lift_lets; intro kx; refine Same.step (m := m) (a := a) (x := kx) ?_ fun hkx => ?_)
    | (lift_lets; intro kx)
    | (simp only [Same.mk_iff]; apply SameF.of; all_goals first
        | with_reducible exact Off.refl | exact Off.no (by assumption) | skip)
    | with_reducible apply State.pairMismatch_same
    | (simp only [kx, Same.mk_iff]; apply SameF.of; all_goals first
        | with_reducible exact Off.refl | exact Off.no (by assumption) | skip)
    | (with_reducible first
        | refine Same.foldl ?_ fun kb ky hkb => ?_ | refine Same.foldl_snd ?_ fun kb ky hkb => ?_
        | refine Same.foldl_fst ?_ fun kb ky hkb => ?_)
    | split
    | (with_reducible first
        | refine Same.of_snd (by assumption) ?_ | refine Same.of_fst (by assumption) ?_
        | refine Same.of_third (by assumption) ?_)
    | dsimp only
    | unfold kx

theorem State.coreRetire_same {m : Component → Bool} {a s : State} (h : Same m a s) (k : Nat)
    (n_fresh : m .fresh = false) (n_regs : m .regs = false) (n_pkg : m .pkg = false) (n_flt : m .flt = false)
    (n_chk : m .chk = false) (n_hub : m .hub = false) :
    Same m a (State.coreRetire s k) := by
  unfold State.coreRetire
  repeat' first
    | (with_reducible first | assumption | refine Same.ite ?_ ?_)
    | (simp only [Same.mk_iff]; apply SameF.of; all_goals first
        | with_reducible exact Off.refl | exact Off.no (by assumption) | skip)
    | (with_reducible first | apply State.free_same | apply State.raiseIrq_same | apply State.retire_same)

theorem execAppCoreRetire_same {m : Component → Bool} {a s : State} (h : Same m a s) (core : Fin 72)
    (n_fresh : m .fresh = false) (n_regs : m .regs = false) (n_pkg : m .pkg = false) (n_flt : m .flt = false)
    (n_chk : m .chk = false) (n_hub : m .hub = false) {kt : State} (ke : execAppCoreRetire core s = .next kt) :
    Same m a kt := by
  unfold execAppCoreRetire at ke
  refine Same.of_done ke ?_
  repeat' (with_reducible first | assumption | refine Same.ite ?_ ?_ | apply State.coreRetire_same)

end Sys2Proof.Machine
end

