-- ==== Sys2Proof/Laws/SameObcor.lean ====
section
/-! SUPPORT. What the operations of Machine/Obcor.lean leave alone (`Same`). -/

set_option linter.unusedSimpArgs false

namespace Sys2Proof.Machine

theorem State.directRoute_same {m : Component → Bool} {a s : State} (h : Same m a s) (l : Nat) (d : Nat)
    (n_regs : m .regs = false) :
    Same m a (State.directRoute s l d) := by
  unfold State.directRoute
  repeat' (with_reducible first | assumption | refine Same.ite ?_ ?_ | apply State.setFld_same)

theorem State.joinOnLink_same {m : Component → Bool} {a s : State} (h : Same m a s) (n_regs : m .regs = false)
    (n_hub : m .hub = false) (n_fleet : m .fleet = false) :
    Same m a (State.joinOnLink s) := by
  unfold State.joinOnLink
  repeat' first
    | (with_reducible first | assumption | refine Same.ite ?_ ?_)
    | (lift_lets; intro kx; refine Same.step (m := m) (a := a) (x := kx) ?_ fun hkx => ?_)
    | (lift_lets; intro kx)
    | (simp only [Same.mk_iff]; apply SameF.of; all_goals first
        | with_reducible exact Off.refl | exact Off.no (by assumption) | skip)
    | with_reducible apply State.sendJoin_same
    | (simp only [kx, Same.mk_iff]; apply SameF.of; all_goals first
        | with_reducible exact Off.refl | exact Off.no (by assumption) | skip)
    | (with_reducible first
        | refine Same.foldl ?_ fun kb ky hkb => ?_ | refine Same.foldl_snd ?_ fun kb ky hkb => ?_
        | refine Same.foldl_fst ?_ fun kb ky hkb => ?_)
    | split
    | (with_reducible first
        | refine Same.of_snd (by assumption) ?_ | refine Same.of_fst (by assumption) ?_
        | refine Same.of_third (by assumption) ?_)
    | dsimp only
    | unfold kx

theorem State.exchangeBlocks_same {m : Component → Bool} {a s : State} (h : Same m a s) (l : Nat) (r : TrainResult)
    (n_regs : m .regs = false) (n_hub : m .hub = false) :
    Same m a (State.exchangeBlocks s l r) := by
  unfold State.exchangeBlocks
  repeat' first
    | (with_reducible first | assumption | refine Same.ite ?_ ?_)
    | (lift_lets; intro kx; refine Same.step (m := m) (a := a) (x := kx) ?_ fun hkx => ?_)
    | (lift_lets; intro kx)
    | (simp only [Same.mk_iff]; apply SameF.of; all_goals first
        | with_reducible exact Off.refl | exact Off.no (by assumption) | skip)
    | with_reducible apply State.setFld_same
    | (simp only [kx, Same.mk_iff]; apply SameF.of; all_goals first
        | with_reducible exact Off.refl | exact Off.no (by assumption) | skip)
    | (with_reducible first
        | refine Same.foldl ?_ fun kb ky hkb => ?_ | refine Same.foldl_snd ?_ fun kb ky hkb => ?_
        | refine Same.foldl_fst ?_ fun kb ky hkb => ?_)
    | split
    | (with_reducible first
        | refine Same.of_snd (by assumption) ?_ | refine Same.of_fst (by assumption) ?_
        | refine Same.of_third (by assumption) ?_)
    | dsimp only
    | unfold kx

theorem State.linkTrain_same {m : Component → Bool} {a s : State} (h : Same m a s) (l : Nat) (r : TrainResult)
    (n_regs : m .regs = false) (n_hub : m .hub = false) (n_fleet : m .fleet = false) :
    Same m a (State.linkTrain s l r) := by
  unfold State.linkTrain
  repeat' first
    | (with_reducible first | assumption | refine Same.ite ?_ ?_)
    | (lift_lets; intro kx; refine Same.step (m := m) (a := a) (x := kx) ?_ fun hkx => ?_)
    | (lift_lets; intro kx)
    | (simp only [Same.mk_iff]; apply SameF.of; all_goals first
        | with_reducible exact Off.refl | exact Off.no (by assumption) | skip)
    | (with_reducible first
        | apply State.setFld_same | apply State.setFldIrq_same | apply State.signal_same
        | apply State.directRoute_same | apply State.joinOnLink_same | apply State.exchangeBlocks_same)
    | (simp only [kx, Same.mk_iff]; apply SameF.of; all_goals first
        | with_reducible exact Off.refl | exact Off.no (by assumption) | skip)
    | (with_reducible first
        | refine Same.foldl ?_ fun kb ky hkb => ?_ | refine Same.foldl_snd ?_ fun kb ky hkb => ?_
        | refine Same.foldl_fst ?_ fun kb ky hkb => ?_)
    | split
    | (with_reducible first
        | refine Same.of_snd (by assumption) ?_ | refine Same.of_fst (by assumption) ?_
        | refine Same.of_third (by assumption) ?_)
    | dsimp only
    | unfold kx

theorem execObcorLinkTrain_same {m : Component → Bool} {a s : State} (h : Same m a s) (link : Fin 16)
    (result : TrainResult) (n_regs : m .regs = false) (n_hub : m .hub = false) (n_fleet : m .fleet = false)
    {kt : State} (ke : execObcorLinkTrain link result s = .next kt) :
    Same m a kt := by
  unfold execObcorLinkTrain at ke
  refine Same.of_done ke ?_
  repeat' (with_reducible first | assumption | refine Same.ite ?_ ?_ | apply State.linkTrain_same)

theorem State.obcorDown_same {m : Component → Bool} {a s : State} (h : Same m a s) (l : Nat)
    (n_regs : m .regs = false) (n_hub : m .hub = false) (n_time : m .time = false) :
    Same m a (State.obcorDown s l) := by
  unfold State.obcorDown
  repeat' (with_reducible first | assumption | refine Same.ite ?_ ?_ | apply State.obcLeave_same)

theorem execObcorLinkDown_same {m : Component → Bool} {a s : State} (h : Same m a s) (link : Fin 16)
    (n_regs : m .regs = false) (n_hub : m .hub = false) (n_time : m .time = false) {kt : State}
    (ke : execObcorLinkDown link s = .next kt) :
    Same m a kt := by
  unfold execObcorLinkDown at ke
  refine Same.of_done ke ?_
  repeat' (with_reducible first | assumption | refine Same.ite ?_ ?_ | apply State.obcorDown_same)

theorem State.obcorReplay_same {m : Component → Bool} {a s : State} (h : Same m a s) (l : Nat) (far : Bool)
    (seq : Nat) (again : Bool) (n_regs : m .regs = false) (n_hub : m .hub = false) (n_time : m .time = false) :
    Same m a (State.obcorReplay s l far seq again) := by
  unfold State.obcorReplay
  repeat' first
    | (with_reducible first | assumption | refine Same.ite ?_ ?_)
    | (simp only [Same.mk_iff]; apply SameF.of; all_goals first
        | with_reducible exact Off.refl | exact Off.no (by assumption) | skip)
    | (with_reducible first | apply State.bump_same | apply State.obcorDown_same)

theorem execObcorReplay_same {m : Component → Bool} {a s : State} (h : Same m a s) (link : Fin 16) (far : Bool)
    (seq : BitVec 12) (again : Bool) (n_regs : m .regs = false) (n_hub : m .hub = false) (n_time : m .time = false)
    {kt : State} (ke : execObcorReplay link far seq again s = .next kt) :
    Same m a kt := by
  unfold execObcorReplay at ke
  refine Same.of_done ke ?_
  repeat' (with_reducible first | assumption | refine Same.ite ?_ ?_ | apply State.obcorReplay_same)

theorem State.obcorRelay_same {m : Component → Bool} {a s : State} (h : Same m a s) (l : Nat) (control : Bool)
    (d : Nat) (n : Nat) (n_regs : m .regs = false) (n_fleet : m .fleet = false) :
    Same m a (State.obcorRelay s l control d n) := by
  unfold State.obcorRelay
  repeat' first
    | (with_reducible first | assumption | refine Same.ite ?_ ?_)
    | (simp only [Same.mk_iff]; apply SameF.of; all_goals first
        | with_reducible exact Off.refl | exact Off.no (by assumption) | skip)
    | with_reducible apply State.bump_same

theorem execObcorRelay_same {m : Component → Bool} {a s : State} (h : Same m a s) (link : Fin 16) (control : Bool)
    (dest : BitVec 13) (flits : Nat) (n_regs : m .regs = false) (n_fleet : m .fleet = false) {kt : State}
    (ke : execObcorRelay link control dest flits s = .next kt) :
    Same m a kt := by
  unfold execObcorRelay at ke
  refine Same.of_done ke ?_
  repeat' (with_reducible first | assumption | refine Same.ite ?_ ?_ | apply State.obcorRelay_same)

end Sys2Proof.Machine
end

