-- ==== Sys2Proof/Laws/SameFleet.lean ====
section
/-! SUPPORT. What the operations of Machine/Fleet.lean leave alone (`Same`). -/

set_option linter.unusedSimpArgs false

namespace Sys2Proof.Machine

theorem State.setFleetState_same {m : Component → Bool} {a s : State} (h : Same m a s) (f : FleetState)
    (n_fleet : m .fleet = false) :
    Same m a (State.setFleetState s f) := by
  unfold State.setFleetState
  repeat' first
    | with_reducible assumption
    | (simp only [Same.mk_iff]; apply SameF.of; all_goals first
        | with_reducible exact Off.refl | exact Off.no (by assumption) | skip)

theorem State.setWorker_same {m : Component → Bool} {a s : State} (h : Same m a s) (x : Worker)
    (n_fleet : m .fleet = false) :
    Same m a (State.setWorker s x) := by
  unfold State.setWorker
  repeat' (with_reducible first | assumption | refine Same.ite ?_ ?_ | apply State.setFleetState_same)

theorem State.toManager_same {m : Component → Bool} {a s : State} (h : Same m a s) (msg : Nat) (body : List Nat)
    (n_regs : m .regs = false) (n_hub : m .hub = false) (n_fleet : m .fleet = false) :
    Same m a (State.toManager s msg body) := by
  unfold State.toManager
  repeat' (with_reducible first | assumption | refine Same.ite ?_ ?_ | apply State.sendMsg_same)

theorem State.mirror_same {m : Component → Bool} {a s : State} (h : Same m a s) (n_regs : m .regs = false)
    (n_hub : m .hub = false) (n_fleet : m .fleet = false) :
    Same m a (State.mirror s) := by
  unfold State.mirror
  repeat' first
    | (with_reducible first | assumption | refine Same.ite ?_ ?_)
    | (lift_lets; intro kx; refine Same.step (m := m) (a := a) (x := kx) ?_ fun hkx => ?_)
    | (lift_lets; intro kx)
    | (simp only [Same.mk_iff]; apply SameF.of; all_goals first
        | with_reducible exact Off.refl | exact Off.no (by assumption) | skip)
    | (with_reducible first | apply State.flitsTo_same | apply State.setFleetState_same)
    | (simp only [kx, Same.mk_iff]; apply SameF.of; all_goals first
        | with_reducible exact Off.refl | exact Off.no (by assumption) | skip)
    | (with_reducible first
        | refine Same.foldl ?_ fun kb ky hkb => ?_ | refine Same.foldl_snd ?_ fun kb ky hkb => ?_
        | refine Same.foldl_fst ?_ fun kb ky hkb => ?_)
    | split
    | (with_reducible first
        | refine Same.of_snd (by assumption) ?_ | refine Same.of_fst (by assumption) ?_
        | refine Same.of_third (by assumption) ?_)
    | dsimp only
    | unfold kx

theorem State.join_same {m : Component → Bool} {a s : State} (h : Same m a s) (l : Nat) (serial : Nat) (grade : Nat)
    (clusters : Nat) (versions : Nat) (previous : Nat) (n_regs : m .regs = false) (n_hub : m .hub = false)
    (n_fleet : m .fleet = false) :
    Same m a (State.join s l serial grade clusters versions previous) := by
  unfold State.join
  repeat' first
    | (with_reducible first | assumption | refine Same.ite ?_ ?_)
    | (lift_lets; intro kx; refine Same.step (m := m) (a := a) (x := kx) ?_ fun hkx => ?_)
    | (lift_lets; intro kx)
    | (simp only [Same.mk_iff]; apply SameF.of; all_goals first
        | with_reducible exact Off.refl | exact Off.no (by assumption) | skip)
    | (with_reducible first
        | apply State.setFld_same | apply State.bump_same | apply State.sendMsg_same | apply State.setFleetState_same
        | apply State.setWorker_same | apply State.mirror_same)
    | (simp only [kx, Same.mk_iff]; apply SameF.of; all_goals first
        | with_reducible exact Off.refl | exact Off.no (by assumption) | skip)
    | (with_reducible first
        | refine Same.foldl ?_ fun kb ky hkb => ?_ | refine Same.foldl_snd ?_ fun kb ky hkb => ?_
        | refine Same.foldl_fst ?_ fun kb ky hkb => ?_)
    | split
    | (with_reducible first
        | refine Same.of_snd (by assumption) ?_ | refine Same.of_fst (by assumption) ?_
        | refine Same.of_third (by assumption) ?_)
    | dsimp only
    | unfold kx

theorem execJoin_same {m : Component → Bool} {a s : State} (h : Same m a s) (link : Fin 16) (serial : BitVec 128)
    (grade : BitVec 8) (clusters : BitVec 8) (versions : BitVec 8) (previous : BitVec 13) (n_regs : m .regs = false)
    (n_hub : m .hub = false) (n_fleet : m .fleet = false) {kt : State}
    (ke : execJoin link serial grade clusters versions previous s = .next kt) :
    Same m a kt := by
  unfold execJoin at ke
  refine Same.of_done ke ?_
  repeat' (with_reducible first | assumption | refine Same.ite ?_ ?_ | apply State.join_same)

theorem State.answerJoin_same {m : Component → Bool} {a s : State} (h : Same m a s) (result : Nat)
    (args : List Byte) (n_regs : m .regs = false) (n_mem : m .mem = false) (n_chk : m .chk = false)
    (n_mm : m .mm = false) (n_hub : m .hub = false) (n_fleet : m .fleet = false) :
    Same m a (State.answerJoin s result args) := by
  unfold State.answerJoin
  repeat' first
    | (with_reducible first | assumption | apply State.svcAnswer_same | apply State.setFleetState_same)
    | split

theorem State.welcome_same {m : Component → Bool} {a s : State} (h : Same m a s) (i : Nat) (period : Nat)
    (standby : Nat) (n_regs : m .regs = false) (n_mem : m .mem = false) (n_chk : m .chk = false)
    (n_mm : m .mm = false) (n_hub : m .hub = false) (n_fleet : m .fleet = false) :
    Same m a (State.welcome s i period standby) := by
  unfold State.welcome
  repeat' first
    | (with_reducible first | assumption | refine Same.ite ?_ ?_)
    | (lift_lets; intro kx; refine Same.step (m := m) (a := a) (x := kx) ?_ fun hkx => ?_)
    | (lift_lets; intro kx)
    | (simp only [Same.mk_iff]; apply SameF.of; all_goals first
        | with_reducible exact Off.refl | exact Off.no (by assumption) | skip)
    | (with_reducible first
        | apply State.setFleet_same | apply State.sendJoin_same | apply State.setFleetState_same
        | apply State.answerJoin_same)
    | (simp only [kx, Same.mk_iff]; apply SameF.of; all_goals first
        | with_reducible exact Off.refl | exact Off.no (by assumption) | skip)
    | (with_reducible first
        | refine Same.foldl ?_ fun kb ky hkb => ?_ | refine Same.foldl_snd ?_ fun kb ky hkb => ?_
        | refine Same.foldl_fst ?_ fun kb ky hkb => ?_)
    | split
    | (with_reducible first
        | refine Same.of_snd (by assumption) ?_ | refine Same.of_fst (by assumption) ?_
        | refine Same.of_third (by assumption) ?_)
    | dsimp only
    | unfold kx

theorem execWelcome_same {m : Component → Bool} {a s : State} (h : Same m a s) (index : BitVec 13)
    (periodMs : BitVec 16) (standby : BitVec 13) (n_regs : m .regs = false) (n_mem : m .mem = false)
    (n_chk : m .chk = false) (n_mm : m .mm = false) (n_hub : m .hub = false) (n_fleet : m .fleet = false)
    {kt : State} (ke : execWelcome index periodMs standby s = .next kt) :
    Same m a kt := by
  unfold execWelcome at ke
  refine Same.of_done ke ?_
  repeat' first
    | (with_reducible first
        | assumption | refine Same.ite ?_ ?_ | apply State.flitFrom_same | apply State.welcome_same)

theorem State.sendAssigns_same {m : Component → Bool} {a s : State} (h : Same m a s) (id : Nat) (members : List Nat)
    (n_fresh : m .fresh = false) (n_regs : m .regs = false) (n_hub : m .hub = false) (n_fleet : m .fleet = false) :
    Same m a (State.sendAssigns s id members) := by
  unfold State.sendAssigns
  repeat' first
    | (with_reducible first | assumption | refine Same.ite ?_ ?_)
    | (lift_lets; intro kx; refine Same.step (m := m) (a := a) (x := kx) ?_ fun hkx => ?_)
    | (lift_lets; intro kx)
    | (simp only [Same.mk_iff]; apply SameF.of; all_goals first
        | with_reducible exact Off.refl | exact Off.no (by assumption) | skip)
    | (with_reducible first | apply State.tickFree_same | apply State.sendMsg_same)
    | (simp only [kx, Same.mk_iff]; apply SameF.of; all_goals first
        | with_reducible exact Off.refl | exact Off.no (by assumption) | skip)
    | (with_reducible first
        | refine Same.foldl ?_ fun kb ky hkb => ?_ | refine Same.foldl_snd ?_ fun kb ky hkb => ?_
        | refine Same.foldl_fst ?_ fun kb ky hkb => ?_)
    | split
    | (with_reducible first
        | refine Same.of_snd (by assumption) ?_ | refine Same.of_fst (by assumption) ?_
        | refine Same.of_third (by assumption) ?_)
    | dsimp only
    | unfold kx
    | exact hkz

theorem State.formSet_same {m : Component → Bool} {a s : State} (h : Same m a s) (n_fresh : m .fresh = false)
    (n_regs : m .regs = false) (n_hub : m .hub = false) (n_fleet : m .fleet = false) :
    Same m a (State.formSet s) := by
  unfold State.formSet
  repeat' first
    | (with_reducible first | assumption | refine Same.ite ?_ ?_)
    | (lift_lets; intro kx; refine Same.step (m := m) (a := a) (x := kx) ?_ fun hkx => ?_)
    | (lift_lets; intro kx)
    | (simp only [Same.mk_iff]; apply SameF.of; all_goals first
        | with_reducible exact Off.refl | exact Off.no (by assumption) | skip)
    | (with_reducible first | apply State.free_same | apply State.setFleetState_same | apply State.sendAssigns_same)
    | (simp only [kx, Same.mk_iff]; apply SameF.of; all_goals first
        | with_reducible exact Off.refl | exact Off.no (by assumption) | skip)
    | (with_reducible first
        | refine Same.foldl ?_ fun kb ky hkb => ?_ | refine Same.foldl_snd ?_ fun kb ky hkb => ?_
        | refine Same.foldl_fst ?_ fun kb ky hkb => ?_)
    | split
    | (with_reducible first
        | refine Same.of_snd (by assumption) ?_ | refine Same.of_fst (by assumption) ?_
        | refine Same.of_third (by assumption) ?_)
    | dsimp only
    | unfold kx
    | exact hkz

theorem State.loseWorker_same {m : Component → Bool} {a s : State} (h : Same m a s) (w : Nat)
    (n_fresh : m .fresh = false) (n_regs : m .regs = false) (n_hub : m .hub = false) (n_fleet : m .fleet = false) :
    Same m a (State.loseWorker s w) := by
  unfold State.loseWorker
  repeat' first
    | (with_reducible first | assumption | refine Same.ite ?_ ?_)
    | (lift_lets; intro kx; refine Same.step (m := m) (a := a) (x := kx) ?_ fun hkx => ?_)
    | (lift_lets; intro kx)
    | (simp only [Same.mk_iff]; apply SameF.of; all_goals first
        | with_reducible exact Off.refl | exact Off.no (by assumption) | skip)
    | (with_reducible first
        | apply State.rollbackAll_same | apply State.setFleetState_same | apply State.sendAssigns_same)
    | (simp only [kx, Same.mk_iff]; apply SameF.of; all_goals first
        | with_reducible exact Off.refl | exact Off.no (by assumption) | skip)
    | (with_reducible first
        | refine Same.foldl ?_ fun kb ky hkb => ?_ | refine Same.foldl_snd ?_ fun kb ky hkb => ?_
        | refine Same.foldl_fst ?_ fun kb ky hkb => ?_)
    | split
    | (with_reducible first
        | refine Same.of_snd (by assumption) ?_ | refine Same.of_fst (by assumption) ?_
        | refine Same.of_third (by assumption) ?_)
    | dsimp only
    | unfold kx
    | exact hkz

theorem State.sendVerdict_same {m : Component → Bool} {a s : State} (h : Same m a s) (k : Nat) (n : Nat)
    (p : Nat × Nat) (n_regs : m .regs = false) (n_chk : m .chk = false) (n_hub : m .hub = false)
    (n_fleet : m .fleet = false) :
    Same m a (State.sendVerdict s k n p) := by
  unfold State.sendVerdict
  repeat' first
    | (with_reducible first | assumption | refine Same.ite ?_ ?_)
    | (simp only [Same.mk_iff]; apply SameF.of; all_goals first
        | with_reducible exact Off.refl | exact Off.no (by assumption) | skip)
    | with_reducible apply State.sendMsg_same

theorem State.ledgerSplit_same {m : Component → Bool} {a s : State} (h : Same m a s) (k : Nat) (table : Nat)
    (n_regs : m .regs = false) (n_chk : m .chk = false) :
    Same m a (State.ledgerSplit s k table) := by
  unfold State.ledgerSplit
  repeat' (with_reducible first | assumption | refine Same.ite ?_ ?_ | apply State.bump_same | apply State.emit_same)

theorem State.closeRound_same {m : Component → Bool} {a s : State} (h : Same m a s) (k : Nat) (members : List Nat)
    (rs : List EchoReport) (n_fresh : m .fresh = false) (n_regs : m .regs = false) (n_chk : m .chk = false)
    (n_hub : m .hub = false) (n_fleet : m .fleet = false) :
    Same m a (State.closeRound s k members rs) := by
  unfold State.closeRound
  repeat' first
    | (with_reducible first | assumption | refine Same.ite ?_ ?_)
    | (simp only [Same.mk_iff]; apply SameF.of; all_goals first
        | with_reducible exact Off.refl | exact Off.no (by assumption) | skip)
    | (with_reducible first
        | apply State.setFleetState_same | apply State.rollbackAll_same | apply State.loseWorker_same
        | apply State.sendVerdict_same | apply State.ledgerSplit_same | refine Same.foldl ?_ fun kb ky hkb => ?_)

theorem State.settleRounds_same {m : Component → Bool} {a s : State} (h : Same m a s) (n_fresh : m .fresh = false)
    (n_regs : m .regs = false) (n_chk : m .chk = false) (n_hub : m .hub = false) (n_fleet : m .fleet = false) :
    Same m a (State.settleRounds s) := by
  unfold State.settleRounds
  repeat' first
    | (with_reducible first
        | assumption | refine Same.ite ?_ ?_ | apply State.closeRound_same | refine Same.foldl ?_ fun kb ky hkb => ?_)

theorem State.echoReport_same {m : Component → Bool} {a s : State} (h : Same m a s) (r : EchoReport)
    (n_fresh : m .fresh = false) (n_regs : m .regs = false) (n_chk : m .chk = false) (n_hub : m .hub = false)
    (n_fleet : m .fleet = false) :
    Same m a (State.echoReport s r) := by
  unfold State.echoReport
  repeat' first
    | (with_reducible first | assumption | refine Same.ite ?_ ?_)
    | (simp only [Same.mk_iff]; apply SameF.of; all_goals first
        | with_reducible exact Off.refl | exact Off.no (by assumption) | skip)
    | with_reducible apply State.settleRounds_same

theorem execEchoReport_same {m : Component → Bool} {a s : State} (h : Same m a s) (worker : BitVec 13)
    (step : BitVec 64) (digest : BitVec 128) (sums : EchoSums) (n_fresh : m .fresh = false)
    (n_regs : m .regs = false) (n_chk : m .chk = false) (n_hub : m .hub = false) (n_fleet : m .fleet = false)
    {kt : State} (ke : execEchoReport worker step digest sums s = .next kt) :
    Same m a kt := by
  unfold execEchoReport at ke
  refine Same.of_done ke ?_
  repeat' first
    | (with_reducible first | assumption | refine Same.ite ?_ ?_)
    | (lift_lets; intro kx; refine Same.step (m := m) (a := a) (x := kx) ?_ fun hkx => ?_)
    | (lift_lets; intro kx)
    | (simp only [Same.mk_iff]; apply SameF.of; all_goals first
        | with_reducible exact Off.refl | exact Off.no (by assumption) | skip)
    | (with_reducible first | apply State.flitFrom_same | apply State.mirror_same | apply State.echoReport_same)
    | (simp only [kx, Same.mk_iff]; apply SameF.of; all_goals first
        | with_reducible exact Off.refl | exact Off.no (by assumption) | skip)
    | (with_reducible first
        | refine Same.foldl ?_ fun kb ky hkb => ?_ | refine Same.foldl_snd ?_ fun kb ky hkb => ?_
        | refine Same.foldl_fst ?_ fun kb ky hkb => ?_)
    | split
    | (with_reducible first
        | refine Same.of_snd (by assumption) ?_ | refine Same.of_fst (by assumption) ?_
        | refine Same.of_third (by assumption) ?_)
    | dsimp only
    | unfold kx

theorem State.tryLaunch_same {m : Component → Bool} {a s : State} (h : Same m a s) (members : List Nat)
    (n_regs : m .regs = false) (n_hub : m .hub = false) (n_fleet : m .fleet = false) :
    Same m a (State.tryLaunch s members) := by
  unfold State.tryLaunch
  repeat' first
    | (with_reducible first | assumption | refine Same.ite ?_ ?_)
    | (lift_lets; intro kx; refine Same.step (m := m) (a := a) (x := kx) ?_ fun hkx => ?_)
    | (lift_lets; intro kx)
    | (simp only [Same.mk_iff]; apply SameF.of; all_goals first
        | with_reducible exact Off.refl | exact Off.no (by assumption) | skip)
    | (with_reducible first | apply State.sendMsg_same | apply State.setFleetState_same)
    | (simp only [kx, Same.mk_iff]; apply SameF.of; all_goals first
        | with_reducible exact Off.refl | exact Off.no (by assumption) | skip)
    | (with_reducible first
        | refine Same.foldl ?_ fun kb ky hkb => ?_ | refine Same.foldl_snd ?_ fun kb ky hkb => ?_
        | refine Same.foldl_fst ?_ fun kb ky hkb => ?_)
    | split
    | (with_reducible first
        | refine Same.of_snd (by assumption) ?_ | refine Same.of_fst (by assumption) ?_
        | refine Same.of_third (by assumption) ?_)
    | dsimp only
    | unfold kx

theorem State.abortLaunch_same {m : Component → Bool} {a s : State} (h : Same m a s) (members : List Nat) (t : Nat)
    (n_regs : m .regs = false) (n_hub : m .hub = false) (n_fleet : m .fleet = false) :
    Same m a (State.abortLaunch s members t) := by
  unfold State.abortLaunch
  repeat' first
    | (with_reducible first
        | assumption | apply State.sendMsg_same | apply State.setFleetState_same | apply State.tryLaunch_same
        | refine Same.foldl ?_ fun kb ky hkb => ?_)

theorem State.armedFrom_same {m : Component → Bool} {a s : State} (h : Same m a s) (w : Nat) (t : Nat)
    (n_fleet : m .fleet = false) :
    Same m a (State.armedFrom s w t) := by
  unfold State.armedFrom
  repeat' first
    | (with_reducible first | assumption | refine Same.ite ?_ ?_)
    | (lift_lets; intro kx; refine Same.step (m := m) (a := a) (x := kx) ?_ fun hkx => ?_)
    | (lift_lets; intro kx)
    | (simp only [Same.mk_iff]; apply SameF.of; all_goals first
        | with_reducible exact Off.refl | exact Off.no (by assumption) | skip)
    | (with_reducible first | apply State.setFleetState_same | apply State.setWorker_same)
    | (simp only [kx, Same.mk_iff]; apply SameF.of; all_goals first
        | with_reducible exact Off.refl | exact Off.no (by assumption) | skip)
    | (with_reducible first
        | refine Same.foldl ?_ fun kb ky hkb => ?_ | refine Same.foldl_snd ?_ fun kb ky hkb => ?_
        | refine Same.foldl_fst ?_ fun kb ky hkb => ?_)
    | split
    | (with_reducible first
        | refine Same.of_snd (by assumption) ?_ | refine Same.of_fst (by assumption) ?_
        | refine Same.of_third (by assumption) ?_)
    | dsimp only
    | unfold kx

theorem execArmed_same {m : Component → Bool} {a s : State} (h : Same m a s) (worker : BitVec 13) (t : BitVec 64)
    (n_regs : m .regs = false) (n_fleet : m .fleet = false) {kt : State} (ke : execArmed worker t s = .next kt) :
    Same m a kt := by
  unfold execArmed at ke
  refine Same.of_done ke ?_
  repeat' first
    | (with_reducible first
        | assumption | refine Same.ite ?_ ?_ | apply State.flitFrom_same | apply State.armedFrom_same)

theorem State.lateFrom_same {m : Component → Bool} {a s : State} (h : Same m a s) (w : Nat) (t : Nat)
    (n_regs : m .regs = false) (n_hub : m .hub = false) (n_fleet : m .fleet = false) :
    Same m a (State.lateFrom s w t) := by
  unfold State.lateFrom
  repeat' (with_reducible first | assumption | refine Same.ite ?_ ?_ | apply State.abortLaunch_same)

theorem execLate_same {m : Component → Bool} {a s : State} (h : Same m a s) (worker : BitVec 13) (t : BitVec 64)
    (n_regs : m .regs = false) (n_hub : m .hub = false) (n_fleet : m .fleet = false) {kt : State}
    (ke : execLate worker t s = .next kt) :
    Same m a kt := by
  unfold execLate at ke
  refine Same.of_done ke ?_
  repeat' first
    | (with_reducible first
        | assumption | refine Same.ite ?_ ?_ | apply State.flitFrom_same | apply State.lateFrom_same)

theorem State.readyFrom_same {m : Component → Bool} {a s : State} (h : Same m a s) (w : Nat) (step : Nat)
    (outcome : Nat) (n_regs : m .regs = false) (n_hub : m .hub = false) (n_fleet : m .fleet = false) :
    Same m a (State.readyFrom s w step outcome) := by
  unfold State.readyFrom
  repeat' first
    | (with_reducible first | assumption | refine Same.ite ?_ ?_)
    | (lift_lets; intro kx; refine Same.step (m := m) (a := a) (x := kx) ?_ fun hkx => ?_)
    | (lift_lets; intro kx)
    | (simp only [Same.mk_iff]; apply SameF.of; all_goals first
        | with_reducible exact Off.refl | exact Off.no (by assumption) | skip)
    | (with_reducible first | apply State.setWorker_same | apply State.tryLaunch_same)
    | (simp only [kx, Same.mk_iff]; apply SameF.of; all_goals first
        | with_reducible exact Off.refl | exact Off.no (by assumption) | skip)
    | (with_reducible first
        | refine Same.foldl ?_ fun kb ky hkb => ?_ | refine Same.foldl_snd ?_ fun kb ky hkb => ?_
        | refine Same.foldl_fst ?_ fun kb ky hkb => ?_)
    | split
    | (with_reducible first
        | refine Same.of_snd (by assumption) ?_ | refine Same.of_fst (by assumption) ?_
        | refine Same.of_third (by assumption) ?_)
    | dsimp only
    | unfold kx

theorem execReady_same {m : Component → Bool} {a s : State} (h : Same m a s) (worker : BitVec 13) (step : BitVec 64)
    (outcome : BitVec 4) (n_regs : m .regs = false) (n_hub : m .hub = false) (n_fleet : m .fleet = false)
    {kt : State} (ke : execReady worker step outcome s = .next kt) :
    Same m a kt := by
  unfold execReady at ke
  refine Same.of_done ke ?_
  repeat' first
    | (with_reducible first
        | assumption | refine Same.ite ?_ ?_ | apply State.flitFrom_same | apply State.readyFrom_same)

theorem State.launch_same {m : Component → Bool} {a s : State} (h : Same m a s) (t : Nat)
    (n_fresh : m .fresh = false) (n_regs : m .regs = false) (n_mem : m .mem = false)
    (n_crossings : m .crossings = false) (n_cfg : m .cfg = false) (n_flt : m .flt = false) (n_chk : m .chk = false)
    (n_mm : m .mm = false) (n_hub : m .hub = false) (n_fleet : m .fleet = false) (n_dense : m .dense = false)
    (n_emb : m .emb = false) (n_det : m .det = false) :
    Same m a (State.launch s t) := by
  unfold State.launch
  repeat' first
    | (with_reducible first
        | assumption | refine Same.ite ?_ ?_ | apply State.setReg_same | apply State.runStart_same
        | apply State.toManager_same)

theorem execLaunch_same {m : Component → Bool} {a s : State} (h : Same m a s) (t : BitVec 64)
    (n_fresh : m .fresh = false) (n_regs : m .regs = false) (n_mem : m .mem = false)
    (n_crossings : m .crossings = false) (n_cfg : m .cfg = false) (n_flt : m .flt = false) (n_chk : m .chk = false)
    (n_mm : m .mm = false) (n_hub : m .hub = false) (n_fleet : m .fleet = false) (n_dense : m .dense = false)
    (n_emb : m .emb = false) (n_det : m .det = false) {kt : State} (ke : execLaunch t s = .next kt) :
    Same m a kt := by
  unfold execLaunch at ke
  refine Same.of_done ke ?_
  repeat' first
    | (with_reducible first
        | assumption | refine Same.ite ?_ ?_ | apply State.flitFrom_same | apply State.launch_same)

theorem State.abortMsg_same {m : Component → Bool} {a s : State} (h : Same m a s) (n_fresh : m .fresh = false)
    (n_regs : m .regs = false) (n_mem : m .mem = false) (n_links : m .links = false)
    (n_crossings : m .crossings = false) (n_cfg : m .cfg = false) (n_flt : m .flt = false) (n_chk : m .chk = false)
    (n_mm : m .mm = false) (n_hub : m .hub = false) (n_fleet : m .fleet = false) (n_dense : m .dense = false)
    (n_emb : m .emb = false) (n_wire : m .wire = false) (n_det : m .det = false) (n_time : m .time = false) :
    Same m a (State.abortMsg s) := by
  unfold State.abortMsg
  repeat' (with_reducible first | assumption | refine Same.ite ?_ ?_ | apply State.runAbort_same)

theorem execAbort_same {m : Component → Bool} {a s : State} (h : Same m a s) (_t : BitVec 64)
    (n_fresh : m .fresh = false) (n_regs : m .regs = false) (n_mem : m .mem = false) (n_links : m .links = false)
    (n_crossings : m .crossings = false) (n_cfg : m .cfg = false) (n_flt : m .flt = false) (n_chk : m .chk = false)
    (n_mm : m .mm = false) (n_hub : m .hub = false) (n_fleet : m .fleet = false) (n_dense : m .dense = false)
    (n_emb : m .emb = false) (n_wire : m .wire = false) (n_det : m .det = false) (n_time : m .time = false)
    {kt : State} (ke : execAbort _t s = .next kt) :
    Same m a kt := by
  unfold execAbort at ke
  refine Same.of_done ke ?_
  repeat' first
    | (with_reducible first
        | assumption | refine Same.ite ?_ ?_ | apply State.flitFrom_same | apply State.abortMsg_same)

theorem State.takeRoutes_same {m : Component → Bool} {a s : State} (h : Same m a s) (rs : List (Nat × Nat))
    (n_regs : m .regs = false) :
    Same m a (State.takeRoutes s rs) := by
  unfold State.takeRoutes
  repeat' first
    | (with_reducible first
        | assumption | refine Same.ite ?_ ?_ | apply State.setFld_same | refine Same.foldl ?_ fun kb ky hkb => ?_)

theorem State.takeSet_same {m : Component → Bool} {a s : State} (h : Same m a s) (p : AssignPart)
    (ps : List AssignPart) (n_fresh : m .fresh = false) (n_regs : m .regs = false) (n_shadow : m .shadow = false)
    (n_mem : m .mem = false) (n_cfg : m .cfg = false) (n_hub : m .hub = false) (n_fleet : m .fleet = false)
    (n_wire : m .wire = false) (n_time : m .time = false) :
    Same m a (State.takeSet s p ps) := by
  unfold State.takeSet
  repeat' first
    | (with_reducible first
        | assumption | refine Same.ite ?_ ?_ | apply State.setFleet_same | apply State.stewardCommit_same
        | apply State.setFleetState_same | apply State.toManager_same | apply State.takeRoutes_same)

theorem State.tryAssign_same {m : Component → Bool} {a s : State} (h : Same m a s) (n_fresh : m .fresh = false)
    (n_regs : m .regs = false) (n_shadow : m .shadow = false) (n_mem : m .mem = false) (n_cfg : m .cfg = false)
    (n_hub : m .hub = false) (n_fleet : m .fleet = false) (n_wire : m .wire = false) (n_time : m .time = false) :
    Same m a (State.tryAssign s) := by
  unfold State.tryAssign
  repeat' first
    | (with_reducible first | assumption | apply State.takeSet_same)
    | split

theorem State.assign_same {m : Component → Bool} {a s : State} (h : Same m a s) (p : AssignPart)
    (n_fresh : m .fresh = false) (n_regs : m .regs = false) (n_shadow : m .shadow = false) (n_mem : m .mem = false)
    (n_cfg : m .cfg = false) (n_hub : m .hub = false) (n_fleet : m .fleet = false) (n_wire : m .wire = false)
    (n_time : m .time = false) :
    Same m a (State.assign s p) := by
  unfold State.assign
  repeat' first
    | (with_reducible first
        | assumption | refine Same.ite ?_ ?_ | apply State.setFleetState_same | apply State.toManager_same
        | apply State.tryAssign_same)

theorem execAssign_same {m : Component → Bool} {a s : State} (h : Same m a s) (part : AssignPart)
    (n_fresh : m .fresh = false) (n_regs : m .regs = false) (n_shadow : m .shadow = false) (n_mem : m .mem = false)
    (n_cfg : m .cfg = false) (n_hub : m .hub = false) (n_fleet : m .fleet = false) (n_wire : m .wire = false)
    (n_time : m .time = false) {kt : State} (ke : execAssign part s = .next kt) :
    Same m a kt := by
  unfold execAssign at ke
  refine Same.of_done ke ?_
  repeat' first
    | (with_reducible first
        | assumption | refine Same.ite ?_ ?_ | apply State.flitFrom_same | apply State.assign_same)

theorem State.assignedFrom_same {m : Component → Bool} {a s : State} (h : Same m a s) (w : Nat) (id : Nat)
    (code : Nat) (n_regs : m .regs = false) (n_hub : m .hub = false) (n_fleet : m .fleet = false) :
    Same m a (State.assignedFrom s w id code) := by
  unfold State.assignedFrom
  repeat' first
    | (with_reducible first | assumption | refine Same.ite ?_ ?_)
    | (lift_lets; intro kx; refine Same.step (m := m) (a := a) (x := kx) ?_ fun hkx => ?_)
    | (lift_lets; intro kx)
    | (simp only [Same.mk_iff]; apply SameF.of; all_goals first
        | with_reducible exact Off.refl | exact Off.no (by assumption) | skip)
    | (with_reducible first
        | apply State.setFleetState_same | apply State.setWorker_same | apply State.tryLaunch_same)
    | (simp only [kx, Same.mk_iff]; apply SameF.of; all_goals first
        | with_reducible exact Off.refl | exact Off.no (by assumption) | skip)
    | (with_reducible first
        | refine Same.foldl ?_ fun kb ky hkb => ?_ | refine Same.foldl_snd ?_ fun kb ky hkb => ?_
        | refine Same.foldl_fst ?_ fun kb ky hkb => ?_)
    | split
    | (with_reducible first
        | refine Same.of_snd (by assumption) ?_ | refine Same.of_fst (by assumption) ?_
        | refine Same.of_third (by assumption) ?_)
    | dsimp only
    | unfold kx
    | exact hkz

theorem execAssigned_same {m : Component → Bool} {a s : State} (h : Same m a s) (worker : BitVec 13)
    (setId : BitVec 32) (code : BitVec 8) (n_regs : m .regs = false) (n_hub : m .hub = false)
    (n_fleet : m .fleet = false) {kt : State} (ke : execAssigned worker setId code s = .next kt) :
    Same m a kt := by
  unfold execAssigned at ke
  refine Same.of_done ke ?_
  repeat' first
    | (with_reducible first
        | assumption | refine Same.ite ?_ ?_ | apply State.flitFrom_same | apply State.mirror_same
        | apply State.assignedFrom_same)

theorem State.heartbeat_same {m : Component → Bool} {a s : State} (h : Same m a s) (sender : Nat) (tstate : Nat)
    (err : Nat) (step : Nat) (load : Nat) (n_fresh : m .fresh = false) (n_regs : m .regs = false)
    (n_chk : m .chk = false) (n_hub : m .hub = false) (n_fleet : m .fleet = false) :
    Same m a (State.heartbeat s sender tstate err step load) := by
  unfold State.heartbeat
  repeat' first
    | (with_reducible first | assumption | refine Same.ite ?_ ?_)
    | (lift_lets; intro kx; refine Same.step (m := m) (a := a) (x := kx) ?_ fun hkx => ?_)
    | (lift_lets; intro kx)
    | (simp only [Same.mk_iff]; apply SameF.of; all_goals first
        | with_reducible exact Off.refl | exact Off.no (by assumption) | skip)
    | (with_reducible first
        | apply State.setFleet_same | apply State.setFleetState_same | apply State.setWorker_same
        | apply State.settleRounds_same | apply State.tryLaunch_same)
    | (simp only [kx, Same.mk_iff]; apply SameF.of; all_goals first
        | with_reducible exact Off.refl | exact Off.no (by assumption) | skip)
    | (with_reducible first
        | refine Same.foldl ?_ fun kb ky hkb => ?_ | refine Same.foldl_snd ?_ fun kb ky hkb => ?_
        | refine Same.foldl_fst ?_ fun kb ky hkb => ?_)
    | split
    | (with_reducible first
        | refine Same.of_snd (by assumption) ?_ | refine Same.of_fst (by assumption) ?_
        | refine Same.of_third (by assumption) ?_)
    | dsimp only
    | unfold kx

theorem execHeartbeat_same {m : Component → Bool} {a s : State} (h : Same m a s) (sender : BitVec 13)
    (_glc : BitVec 64) (timeState : BitVec 3) (errEst : BitVec 16) (step : BitVec 64) (loadState : BitVec 3)
    (n_fresh : m .fresh = false) (n_regs : m .regs = false) (n_chk : m .chk = false) (n_hub : m .hub = false)
    (n_fleet : m .fleet = false) {kt : State}
    (ke : execHeartbeat sender _glc timeState errEst step loadState s = .next kt) :
    Same m a kt := by
  unfold execHeartbeat at ke
  refine Same.of_done ke ?_
  repeat' first
    | (with_reducible first
        | assumption | refine Same.ite ?_ ?_ | apply State.flitFrom_same | apply State.mirror_same
        | apply State.heartbeat_same)

theorem State.heartbeatTimer_same {m : Component → Bool} {a s : State} (h : Same m a s) (n_fresh : m .fresh = false)
    (n_regs : m .regs = false) (n_hub : m .hub = false) (n_fleet : m .fleet = false) :
    Same m a (State.heartbeatTimer s) := by
  unfold State.heartbeatTimer
  repeat' first
    | (with_reducible first | assumption | refine Same.ite ?_ ?_)
    | (lift_lets; intro kx; refine Same.step (m := m) (a := a) (x := kx) ?_ fun hkx => ?_)
    | (lift_lets; intro kx)
    | (simp only [Same.mk_iff]; apply SameF.of; all_goals first
        | with_reducible exact Off.refl | exact Off.no (by assumption) | skip)
    | (with_reducible first
        | apply State.sendMsg_same | apply State.toManager_same | apply State.formSet_same
        | apply State.abortLaunch_same)
    | (simp only [kx, Same.mk_iff]; apply SameF.of; all_goals first
        | with_reducible exact Off.refl | exact Off.no (by assumption) | skip)
    | (with_reducible first
        | refine Same.foldl ?_ fun kb ky hkb => ?_ | refine Same.foldl_snd ?_ fun kb ky hkb => ?_
        | refine Same.foldl_fst ?_ fun kb ky hkb => ?_)
    | split
    | (with_reducible first
        | refine Same.of_snd (by assumption) ?_ | refine Same.of_fst (by assumption) ?_
        | refine Same.of_third (by assumption) ?_)
    | dsimp only
    | unfold kx

theorem execHeartbeatTimer_same {m : Component → Bool} {a s : State} (h : Same m a s) (n_fresh : m .fresh = false)
    (n_regs : m .regs = false) (n_hub : m .hub = false) (n_fleet : m .fleet = false) {kt : State}
    (ke : execHeartbeatTimer s = .next kt) :
    Same m a kt := by
  unfold execHeartbeatTimer at ke
  refine Same.of_done ke ?_
  repeat' (with_reducible first | assumption | refine Same.ite ?_ ?_ | apply State.heartbeatTimer_same)

theorem State.workerGone_same {m : Component → Bool} {a s : State} (h : Same m a s) (w : Nat)
    (n_fresh : m .fresh = false) (n_regs : m .regs = false) (n_chk : m .chk = false) (n_hub : m .hub = false)
    (n_fleet : m .fleet = false) :
    Same m a (State.workerGone s w) := by
  unfold State.workerGone
  repeat' first
    | (with_reducible first
        | assumption | refine Same.ite ?_ ?_ | apply State.mirror_same | apply State.loseWorker_same
        | apply State.settleRounds_same)

theorem State.workerLost_same {m : Component → Bool} {a s : State} (h : Same m a s) (w : Nat)
    (n_fresh : m .fresh = false) (n_regs : m .regs = false) (n_chk : m .chk = false) (n_hub : m .hub = false)
    (n_fleet : m .fleet = false) :
    Same m a (State.workerLost s w) := by
  unfold State.workerLost
  repeat' first
    | (with_reducible first | assumption | refine Same.ite ?_ ?_)
    | (lift_lets; intro kx; refine Same.step (m := m) (a := a) (x := kx) ?_ fun hkx => ?_)
    | (lift_lets; intro kx)
    | (simp only [Same.mk_iff]; apply SameF.of; all_goals first
        | with_reducible exact Off.refl | exact Off.no (by assumption) | skip)
    | with_reducible apply State.workerGone_same
    | (simp only [kx, Same.mk_iff]; apply SameF.of; all_goals first
        | with_reducible exact Off.refl | exact Off.no (by assumption) | skip)
    | (with_reducible first
        | refine Same.foldl ?_ fun kb ky hkb => ?_ | refine Same.foldl_snd ?_ fun kb ky hkb => ?_
        | refine Same.foldl_fst ?_ fun kb ky hkb => ?_)
    | split
    | (with_reducible first
        | refine Same.of_snd (by assumption) ?_ | refine Same.of_fst (by assumption) ?_
        | refine Same.of_third (by assumption) ?_)
    | dsimp only
    | unfold kx

theorem execWorkerLost_same {m : Component → Bool} {a s : State} (h : Same m a s) (worker : BitVec 13)
    (n_fresh : m .fresh = false) (n_regs : m .regs = false) (n_chk : m .chk = false) (n_hub : m .hub = false)
    (n_fleet : m .fleet = false) {kt : State} (ke : execWorkerLost worker s = .next kt) :
    Same m a kt := by
  unfold execWorkerLost at ke
  refine Same.of_done ke ?_
  repeat' first
    | (with_reducible first | assumption | refine Same.ite ?_ ?_)
    | (lift_lets; intro kx; refine Same.step (m := m) (a := a) (x := kx) ?_ fun hkx => ?_)
    | (lift_lets; intro kx)
    | (simp only [Same.mk_iff]; apply SameF.of; all_goals first
        | with_reducible exact Off.refl | exact Off.no (by assumption) | skip)
    | with_reducible apply State.workerLost_same
    | (simp only [kx, Same.mk_iff]; apply SameF.of; all_goals first
        | with_reducible exact Off.refl | exact Off.no (by assumption) | skip)
    | (with_reducible first
        | refine Same.foldl ?_ fun kb ky hkb => ?_ | refine Same.foldl_snd ?_ fun kb ky hkb => ?_
        | refine Same.foldl_fst ?_ fun kb ky hkb => ?_)
    | split
    | (with_reducible first
        | refine Same.of_snd (by assumption) ?_ | refine Same.of_fst (by assumption) ?_
        | refine Same.of_third (by assumption) ?_)
    | dsimp only
    | unfold kx

theorem execLeave_same {m : Component → Bool} {a s : State} (h : Same m a s) (worker : BitVec 13)
    (_cause : BitVec 8) (n_fresh : m .fresh = false) (n_regs : m .regs = false) (n_chk : m .chk = false)
    (n_hub : m .hub = false) (n_fleet : m .fleet = false) {kt : State} (ke : execLeave worker _cause s = .next kt) :
    Same m a kt := by
  unfold execLeave at ke
  refine Same.of_done ke ?_
  repeat' first
    | (with_reducible first
        | assumption | refine Same.ite ?_ ?_ | apply State.flitFrom_same | apply State.workerGone_same)

theorem State.takeOver_same {m : Component → Bool} {a s : State} (h : Same m a s) (n_regs : m .regs = false)
    (n_shadow : m .shadow = false) (n_chk : m .chk = false) (n_hub : m .hub = false) (n_fleet : m .fleet = false) :
    Same m a (State.takeOver s) := by
  unfold State.takeOver
  repeat' first
    | (with_reducible first | assumption | refine Same.ite ?_ ?_)
    | (lift_lets; intro kx; refine Same.step (m := m) (a := a) (x := kx) ?_ fun hkx => ?_)
    | (lift_lets; intro kx)
    | (simp only [Same.mk_iff]; apply SameF.of; all_goals first
        | with_reducible exact Off.refl | exact Off.no (by assumption) | skip)
    | (with_reducible first
        | apply State.setShadow_same | apply State.setFld_same | apply State.sendMsg_same
        | apply State.setFleetState_same | apply State.mirror_same)
    | (simp only [kx, Same.mk_iff]; apply SameF.of; all_goals first
        | with_reducible exact Off.refl | exact Off.no (by assumption) | skip)
    | (with_reducible first
        | refine Same.foldl ?_ fun kb ky hkb => ?_ | refine Same.foldl_snd ?_ fun kb ky hkb => ?_
        | refine Same.foldl_fst ?_ fun kb ky hkb => ?_)
    | split
    | (with_reducible first
        | refine Same.of_snd (by assumption) ?_ | refine Same.of_fst (by assumption) ?_
        | refine Same.of_third (by assumption) ?_)
    | dsimp only
    | unfold kx

theorem State.managerLost_same {m : Component → Bool} {a s : State} (h : Same m a s) (n_regs : m .regs = false)
    (n_shadow : m .shadow = false) (n_mem : m .mem = false) (n_cfg : m .cfg = false) (n_flt : m .flt = false)
    (n_chk : m .chk = false) (n_mm : m .mm = false) (n_hub : m .hub = false) (n_fleet : m .fleet = false) :
    Same m a (State.managerLost s) := by
  unfold State.managerLost
  repeat' first
    | (with_reducible first | assumption | refine Same.ite ?_ ?_)
    | (lift_lets; intro kx; refine Same.step (m := m) (a := a) (x := kx) ?_ fun hkx => ?_)
    | (lift_lets; intro kx)
    | (simp only [Same.mk_iff]; apply SameF.of; all_goals first
        | with_reducible exact Off.refl | exact Off.no (by assumption) | skip)
    | (with_reducible first
        | apply State.setFleet_same | apply State.stopRun_same | apply State.setFleetState_same
        | apply State.answerJoin_same | apply State.takeOver_same)
    | (simp only [kx, Same.mk_iff]; apply SameF.of; all_goals first
        | with_reducible exact Off.refl | exact Off.no (by assumption) | skip)
    | (with_reducible first
        | refine Same.foldl ?_ fun kb ky hkb => ?_ | refine Same.foldl_snd ?_ fun kb ky hkb => ?_
        | refine Same.foldl_fst ?_ fun kb ky hkb => ?_)
    | split
    | (with_reducible first
        | refine Same.of_snd (by assumption) ?_ | refine Same.of_fst (by assumption) ?_
        | refine Same.of_third (by assumption) ?_)
    | dsimp only
    | unfold kx

theorem execManagerLost_same {m : Component → Bool} {a s : State} (h : Same m a s) (n_regs : m .regs = false)
    (n_shadow : m .shadow = false) (n_mem : m .mem = false) (n_cfg : m .cfg = false) (n_flt : m .flt = false)
    (n_chk : m .chk = false) (n_mm : m .mm = false) (n_hub : m .hub = false) (n_fleet : m .fleet = false)
    {kt : State} (ke : execManagerLost s = .next kt) :
    Same m a kt := by
  unfold execManagerLost at ke
  refine Same.of_done ke ?_
  repeat' (with_reducible first | assumption | refine Same.ite ?_ ?_ | apply State.managerLost_same)

theorem State.standbyMirror_same {m : Component → Bool} {a s : State} (h : Same m a s) (mm : Mirror)
    (n_fleet : m .fleet = false) :
    Same m a (State.standbyMirror s mm) := by
  unfold State.standbyMirror
  repeat' (with_reducible first | assumption | refine Same.ite ?_ ?_ | apply State.setFleetState_same)

theorem execStandbyMirror_same {m : Component → Bool} {a s : State} (h : Same m a s) (mirror : MirrorMsg)
    (agreedStep : BitVec 64) (n_regs : m .regs = false) (n_fleet : m .fleet = false) {kt : State}
    (ke : execStandbyMirror mirror agreedStep s = .next kt) :
    Same m a kt := by
  unfold execStandbyMirror at ke
  refine Same.of_done ke ?_
  repeat' first
    | (with_reducible first | assumption | refine Same.ite ?_ ?_)
    | (lift_lets; intro kx; refine Same.step (m := m) (a := a) (x := kx) ?_ fun hkx => ?_)
    | (lift_lets; intro kx)
    | (simp only [Same.mk_iff]; apply SameF.of; all_goals first
        | with_reducible exact Off.refl | exact Off.no (by assumption) | skip)
    | (with_reducible first | apply State.flitFrom_same | apply State.mirror_same | apply State.standbyMirror_same)
    | (simp only [kx, Same.mk_iff]; apply SameF.of; all_goals first
        | with_reducible exact Off.refl | exact Off.no (by assumption) | skip)
    | (with_reducible first
        | refine Same.foldl ?_ fun kb ky hkb => ?_ | refine Same.foldl_snd ?_ fun kb ky hkb => ?_
        | refine Same.foldl_fst ?_ fun kb ky hkb => ?_)
    | split
    | (with_reducible first
        | refine Same.of_snd (by assumption) ?_ | refine Same.of_fst (by assumption) ?_
        | refine Same.of_third (by assumption) ?_)
    | dsimp only
    | unfold kx

theorem State.admitSet_same {m : Component → Bool} {a s : State} (h : Same m a s) (id : Nat)
    (n_regs : m .regs = false) (n_hub : m .hub = false) (n_fleet : m .fleet = false) :
    Same m a (State.admitSet s id) := by
  unfold State.admitSet
  repeat' first
    | (with_reducible first
        | assumption | refine Same.ite ?_ ?_ | apply State.setFleet_same | apply State.setFleetState_same)
    | exact hkz

theorem execAdmitSet_same {m : Component → Bool} {a s : State} (h : Same m a s) (setId : BitVec 32)
    (n_regs : m .regs = false) (n_hub : m .hub = false) (n_fleet : m .fleet = false) {kt : State}
    (ke : execAdmitSet setId s = .next kt) :
    Same m a kt := by
  unfold execAdmitSet at ke
  refine Same.of_done ke ?_
  repeat' first
    | (with_reducible first
        | assumption | refine Same.ite ?_ ?_ | apply State.flitFrom_same | apply State.admitSet_same)

end Sys2Proof.Machine
end

