-- ==== Sys2Proof/Laws/SamePcie.lean ====
section
/-! SUPPORT. What the operations of Machine/Pcie.lean leave alone (`Same`). -/

set_option linter.unusedSimpArgs false

namespace Sys2Proof.Machine

theorem State.resetRegs_same {m : Component → Bool} {a s : State} (h : Same m a s) (os : List Nat)
    (n_regs : m .regs = false) (n_shadow : m .shadow = false) :
    Same m a (State.resetRegs s os) := by
  unfold State.resetRegs
  repeat' first
    | (with_reducible first
        | assumption | apply State.setReg_same | apply State.setShadow_same
        | refine Same.foldl ?_ fun kb ky hkb => ?_)

theorem State.strapRoot_same {m : Component → Bool} {a s : State} (h : Same m a s) (n_regs : m .regs = false) :
    Same m a (State.strapRoot s) := by
  unfold State.strapRoot
  repeat' (with_reducible first | assumption | refine Same.ite ?_ ?_ | apply State.setFld_same)

theorem execFunctionLevelReset_same {m : Component → Bool} {a s : State} (h : Same m a s) (n_regs : m .regs = false)
    (n_shadow : m .shadow = false) {kt : State} (ke : execFunctionLevelReset s = .next kt) :
    Same m a kt := by
  unfold execFunctionLevelReset at ke
  refine Same.of_done ke ?_
  repeat' first
    | (with_reducible first
        | assumption | refine Same.ite ?_ ?_ | apply State.resetRegs_same | apply State.strapRoot_same)

theorem State.msixWrite_same {m : Component → Bool} {a s : State} (h : Same m a s) (off : Nat) (bs : List Byte)
    (n_hub : m .hub = false) :
    Same m a (State.msixWrite s off bs) := by
  unfold State.msixWrite
  repeat' first
    | (with_reducible first | assumption | refine Same.ite ?_ ?_)
    | (lift_lets; intro kx; refine Same.step (m := m) (a := a) (x := kx) ?_ fun hkx => ?_)
    | (lift_lets; intro kx)
    | (simp only [Same.mk_iff]; apply SameF.of; all_goals first
        | with_reducible exact Off.refl | exact Off.no (by assumption) | skip)
    | (simp only [kx, Same.mk_iff]; apply SameF.of; all_goals first
        | with_reducible exact Off.refl | exact Off.no (by assumption) | skip)
    | (with_reducible first
        | refine Same.foldl ?_ fun kb ky hkb => ?_ | refine Same.foldl_snd ?_ fun kb ky hkb => ?_
        | refine Same.foldl_fst ?_ fun kb ky hkb => ?_)
    | split
    | (with_reducible first
        | refine Same.of_snd (by assumption) ?_ | refine Same.of_fst (by assumption) ?_
        | refine Same.of_third (by assumption) ?_)
    | dsimp only
    | unfold kx

theorem State.msixReset_same {m : Component → Bool} {a s : State} (h : Same m a s) (n_hub : m .hub = false) :
    Same m a (State.msixReset s) := by
  unfold State.msixReset
  repeat' first
    | (with_reducible first | assumption | refine Same.ite ?_ ?_)
    | (lift_lets; intro kx; refine Same.step (m := m) (a := a) (x := kx) ?_ fun hkx => ?_)
    | (lift_lets; intro kx)
    | (simp only [Same.mk_iff]; apply SameF.of; all_goals first
        | with_reducible exact Off.refl | exact Off.no (by assumption) | skip)
    | (simp only [kx, Same.mk_iff]; apply SameF.of; all_goals first
        | with_reducible exact Off.refl | exact Off.no (by assumption) | skip)
    | (with_reducible first
        | refine Same.foldl ?_ fun kb ky hkb => ?_ | refine Same.foldl_snd ?_ fun kb ky hkb => ?_
        | refine Same.foldl_fst ?_ fun kb ky hkb => ?_)
    | split
    | (with_reducible first
        | refine Same.of_snd (by assumption) ?_ | refine Same.of_fst (by assumption) ?_
        | refine Same.of_third (by assumption) ?_)
    | dsimp only
    | unfold kx

theorem State.msiReceive_same {m : Component → Bool} {a s : State} (h : Same m a s) (aa : Nat) (data : Nat)
    (n_regs : m .regs = false) (n_response : m .response = false) (n_mem : m .mem = false) (n_chk : m .chk = false)
    (n_mm : m .mm = false) (n_hub : m .hub = false) :
    Same m a (State.msiReceive s aa data) := by
  unfold State.msiReceive
  repeat' first
    | (with_reducible first | assumption | refine Same.ite ?_ ?_)
    | (simp only [Same.mk_iff]; apply SameF.of; all_goals first
        | with_reducible exact Off.refl | exact Off.no (by assumption) | skip)
    | (with_reducible first | apply State.respond_same | apply State.raiseIrq_same | apply State.agentWrite_same)

theorem execMsiReceive_same {m : Component → Bool} {a s : State} (h : Same m a s) (addr : BitVec 64)
    (data : BitVec 32) (n_regs : m .regs = false) (n_response : m .response = false) (n_mem : m .mem = false)
    (n_chk : m .chk = false) (n_mm : m .mm = false) (n_hub : m .hub = false) {kt : State}
    (ke : execMsiReceive addr data s = .next kt) :
    Same m a kt := by
  unfold execMsiReceive at ke
  refine Same.of_done ke ?_
  repeat' (with_reducible first | assumption | refine Same.ite ?_ ?_ | apply State.msiReceive_same)

theorem State.msiRead_same {m : Component → Bool} {a s : State} (h : Same m a s) (n_response : m .response = false)
    (n_hub : m .hub = false) :
    Same m a (State.msiRead s) := by
  unfold State.msiRead
  repeat' first
    | (with_reducible first | assumption | refine Same.ite ?_ ?_)
    | (simp only [Same.mk_iff]; apply SameF.of; all_goals first
        | with_reducible exact Off.refl | exact Off.no (by assumption) | skip)
    | with_reducible apply State.respond_same

theorem execRpMsiDataRead_same {m : Component → Bool} {a s : State} (h : Same m a s)
    (n_response : m .response = false) (n_hub : m .hub = false) {kt : State} (ke : execRpMsiDataRead s = .next kt) :
    Same m a kt := by
  unfold execRpMsiDataRead at ke
  refine Same.of_done ke ?_
  repeat' (with_reducible first | assumption | refine Same.ite ?_ ?_ | apply State.msiRead_same)

theorem State.cfgRequest_same {m : Component → Bool} {a s : State} (h : Same m a s) (w : Option Nat)
    (n_hub : m .hub = false) :
    Same m a (State.cfgRequest s w) := by
  unfold State.cfgRequest
  repeat' (with_reducible first | assumption | refine Same.ite ?_ ?_ | apply State.sendPcie_same)

theorem State.rpCfg_same {m : Component → Bool} {a s : State} (h : Same m a s) (w : Option Nat)
    (answer : Option Nat) (n_regs : m .regs = false) (n_response : m .response = false) (n_hub : m .hub = false) :
    Same m a (State.rpCfg s w answer) := by
  unfold State.rpCfg
  repeat' first
    | (with_reducible first
        | assumption | apply State.setFld_same | apply State.respond_same | apply State.cfgRequest_same)
    | split

theorem execRpCfgDataAccess_same {m : Component → Bool} {a s : State} (h : Same m a s) (write : Option (BitVec 32))
    (answer : Option (BitVec 32)) (n_regs : m .regs = false) (n_response : m .response = false)
    (n_hub : m .hub = false) {kt : State} (ke : execRpCfgDataAccess write answer s = .next kt) :
    Same m a kt := by
  unfold execRpCfgDataAccess at ke
  refine Same.of_done ke ?_
  repeat' first
    | with_reducible assumption
    | (lift_lets; intro kx)
    | (with_reducible first | apply State.onReady_same | apply State.rpCfg_same)

end Sys2Proof.Machine
end

