-- ==== Sys2Proof/Laws/SamePower.lean ====
section
/-! SUPPORT. What the operations of Machine/Power.lean leave alone (`Same`). -/

set_option linter.unusedSimpArgs false

namespace Sys2Proof.Machine

theorem State.setPwr_same {m : Component → Bool} {a s : State} (h : Same m a s) (p : PwrState)
    (n_pwr : m .pwr = false) :
    Same m a (State.setPwr s p) := by
  unfold State.setPwr
  repeat' first
    | with_reducible assumption
    | (simp only [Same.mk_iff]; apply SameF.of; all_goals first
        | with_reducible exact Off.refl | exact Off.no (by assumption) | skip)

theorem State.excursion_same {m : Component → Bool} {a s : State} (h : Same m a s) (g : Nat) (mv : Nat)
    (n_regs : m .regs = false) (n_chk : m .chk = false) (n_hub : m .hub = false) (n_pwr : m .pwr = false) :
    Same m a (State.excursion s g mv) := by
  unfold State.excursion
  repeat' first
    | (with_reducible first
        | assumption | refine Same.ite ?_ ?_ | apply State.bump_same | apply State.raiseIrq_same
        | apply State.emit_same | apply State.setPwr_same)

theorem State.sampleRail_same {m : Component → Bool} {a s : State} (h : Same m a s) (g : Nat) (mv : Nat)
    (n_regs : m .regs = false) (n_chk : m .chk = false) (n_hub : m .hub = false) (n_pwr : m .pwr = false) :
    Same m a (State.sampleRail s g mv) := by
  unfold State.sampleRail
  repeat' first
    | (with_reducible first
        | assumption | refine Same.ite ?_ ?_ | apply State.setFld_same | apply State.excursion_same)

theorem State.sampleRails_same {m : Component → Bool} {a s : State} (h : Same m a s) (mvs : List Nat)
    (n_regs : m .regs = false) (n_chk : m .chk = false) (n_hub : m .hub = false) (n_pwr : m .pwr = false) :
    Same m a (State.sampleRails s mvs) := by
  unfold State.sampleRails
  repeat' (with_reducible first | assumption | apply State.sampleRail_same | refine Same.foldl ?_ fun kb ky hkb => ?_)

theorem State.rearm_same {m : Component → Bool} {a s : State} (h : Same m a s) (v : Nat) (n_regs : m .regs = false) :
    Same m a (State.rearm s v) := by
  unfold State.rearm
  repeat' first
    | (with_reducible first
        | assumption | refine Same.ite ?_ ?_ | apply State.setFld_same | refine Same.foldl ?_ fun kb ky hkb => ?_)

theorem execRearm_same {m : Component → Bool} {a s : State} (h : Same m a s) (value : Word)
    (n_regs : m .regs = false) {kt : State} (ke : execRearm value s = .next kt) :
    Same m a kt := by
  unfold execRearm at ke
  refine Same.of_done ke ?_
  repeat' first
    | with_reducible assumption
    | (lift_lets; intro kx)
    | (with_reducible first | apply State.onReady_same | apply State.rearm_same)

theorem State.setTj_same {m : Component → Bool} {a s : State} (h : Same m a s) (d : Nat) (tj : Int)
    (n_regs : m .regs = false) :
    Same m a (State.setTj s d tj) := by
  unfold State.setTj
  repeat' (with_reducible first | assumption | refine Same.ite ?_ ?_ | apply State.setFld_same)

theorem State.throttleEvaluation_same {m : Component → Bool} {a s : State} (h : Same m a s) (d : Nat) (tj : Int)
    (n_regs : m .regs = false) (n_chk : m .chk = false) (n_hub : m .hub = false) :
    Same m a (State.throttleEvaluation s d tj) := by
  unfold State.throttleEvaluation
  repeat' first
    | (with_reducible first
        | assumption | refine Same.ite ?_ ?_ | apply State.setFld_same | apply State.bump_same
        | apply State.raiseIrq_same | apply State.emit_same | apply State.setTj_same)

theorem execThrottleEvaluation_same {m : Component → Bool} {a s : State} (h : Same m a s) (die : Fin 5) (tj : Int)
    (n_regs : m .regs = false) (n_chk : m .chk = false) (n_hub : m .hub = false) {kt : State}
    (ke : execThrottleEvaluation die tj s = .next kt) :
    Same m a kt := by
  unfold execThrottleEvaluation at ke
  refine Same.of_done ke ?_
  repeat' (with_reducible first | assumption | refine Same.ite ?_ ?_ | apply State.throttleEvaluation_same)

theorem State.throttleFrame_same {m : Component → Bool} {a s : State} (h : Same m a s) (n_regs : m .regs = false)
    (n_pwr : m .pwr = false) :
    Same m a (State.throttleFrame s) := by
  unfold State.throttleFrame
  repeat' first
    | (with_reducible first
        | assumption | refine Same.ite ?_ ?_ | apply State.bump_same | apply State.setPwr_same
        | refine Same.foldl ?_ fun kb ky hkb => ?_)

theorem State.setSensor_same {m : Component → Bool} {a s : State} (h : Same m a s) (n : Nat) (temp : Int)
    (n_regs : m .regs = false) :
    Same m a (State.setSensor s n temp) := by
  unfold State.setSensor
  repeat' first
    | (with_reducible first
        | assumption | refine Same.ite ?_ ?_ | apply State.stackTemp_same | apply State.setTj_same)

theorem State.tripSensor_same {m : Component → Bool} {a s : State} (h : Same m a s) (n : Nat)
    (n_regs : m .regs = false) (n_pkg : m .pkg = false) (n_cfg : m .cfg = false) (n_flt : m .flt = false)
    (n_hub : m .hub = false) (n_fleet : m .fleet = false) (n_pwr : m .pwr = false) :
    Same m a (State.tripSensor s n) := by
  unfold State.tripSensor
  repeat' first
    | (with_reducible first | assumption | refine Same.ite ?_ ?_)
    | (simp only [Same.mk_iff]; apply SameF.of; all_goals first
        | with_reducible exact Off.refl | exact Off.no (by assumption) | skip)
    | (with_reducible first
        | apply State.setFld_same | apply State.bump_same | apply State.stopStep_same | apply State.setPwr_same)

theorem State.thermalTrip_same {m : Component → Bool} {a s : State} (h : Same m a s) (n : Nat) (temp : Int)
    (n_regs : m .regs = false) (n_pkg : m .pkg = false) (n_cfg : m .cfg = false) (n_flt : m .flt = false)
    (n_chk : m .chk = false) (n_hub : m .hub = false) (n_fleet : m .fleet = false) (n_pwr : m .pwr = false) :
    Same m a (State.thermalTrip s n temp) := by
  unfold State.thermalTrip
  repeat' first
    | (with_reducible first | assumption | refine Same.ite ?_ ?_)
    | (lift_lets; intro kx; refine Same.step (m := m) (a := a) (x := kx) ?_ fun hkx => ?_)
    | (lift_lets; intro kx)
    | (simp only [Same.mk_iff]; apply SameF.of; all_goals first
        | with_reducible exact Off.refl | exact Off.no (by assumption) | skip)
    | (with_reducible first
        | apply State.raiseIrq_same | apply State.emit_same | apply State.setSensor_same
        | apply State.tripSensor_same)
    | (simp only [kx, Same.mk_iff]; apply SameF.of; all_goals first
        | with_reducible exact Off.refl | exact Off.no (by assumption) | skip)
    | (with_reducible first
        | refine Same.foldl ?_ fun kb ky hkb => ?_ | refine Same.foldl_snd ?_ fun kb ky hkb => ?_
        | refine Same.foldl_fst ?_ fun kb ky hkb => ?_)
    | split
    | (with_reducible first
        | refine Same.of_snd (by assumption) ?_ | refine Same.of_fst (by assumption) ?_
        | refine Same.of_third (by assumption) ?_)
    | dsimp only
    | unfold kx

theorem execThermalTrip_same {m : Component → Bool} {a s : State} (h : Same m a s) (sensor : Fin 28)
    (temp : BitVec 16) (n_regs : m .regs = false) (n_pkg : m .pkg = false) (n_cfg : m .cfg = false)
    (n_flt : m .flt = false) (n_chk : m .chk = false) (n_hub : m .hub = false) (n_fleet : m .fleet = false)
    (n_pwr : m .pwr = false) {kt : State} (ke : execThermalTrip sensor temp s = .next kt) :
    Same m a kt := by
  unfold execThermalTrip at ke
  refine Same.of_done ke ?_
  repeat' (with_reducible first | assumption | refine Same.ite ?_ ?_ | apply State.thermalTrip_same)

theorem State.thermalRelease_same {m : Component → Bool} {a s : State} (h : Same m a s) (n_regs : m .regs = false)
    (n_pkg : m .pkg = false) (n_pwr : m .pwr = false) :
    Same m a (State.thermalRelease s) := by
  unfold State.thermalRelease
  repeat' first
    | with_reducible assumption
    | (simp only [Same.mk_iff]; apply SameF.of; all_goals first
        | with_reducible exact Off.refl | exact Off.no (by assumption) | skip)
    | (with_reducible first
        | apply State.setFld_same | apply State.setPwr_same | refine Same.foldl ?_ fun kb ky hkb => ?_)

theorem execThermalTripRelease_same {m : Component → Bool} {a s : State} (h : Same m a s) (n_regs : m .regs = false)
    (n_pkg : m .pkg = false) (n_pwr : m .pwr = false) {kt : State} (ke : execThermalTripRelease s = .next kt) :
    Same m a kt := by
  unfold execThermalTripRelease at ke
  refine Same.of_done ke ?_
  repeat' (with_reducible first | assumption | refine Same.ite ?_ ?_ | apply State.thermalRelease_same)

end Sys2Proof.Machine
end

