-- ==== Sys2Proof/Laws/SameSecurity.lean ====
section
/-! SUPPORT. What the operations of Machine/Security.lean leave alone (`Same`). -/

set_option linter.unusedSimpArgs false

namespace Sys2Proof.Machine

theorem State.setSec_same {m : Component → Bool} {a s : State} (h : Same m a s) (x : SecState)
    (n_sec : m .sec = false) :
    Same m a (State.setSec s x) := by
  unfold State.setSec
  repeat' first
    | with_reducible assumption
    | (simp only [Same.mk_iff]; apply SameF.of; all_goals first
        | with_reducible exact Off.refl | exact Off.no (by assumption) | skip)

theorem State.setMtr_same {m : Component → Bool} {a s : State} (h : Same m a s) (x : MeterState)
    (n_mtr : m .mtr = false) :
    Same m a (State.setMtr s x) := by
  unfold State.setMtr
  repeat' first
    | with_reducible assumption
    | (simp only [Same.mk_iff]; apply SameF.of; all_goals first
        | with_reducible exact Off.refl | exact Off.no (by assumption) | skip)

theorem State.eraseKeys_same {m : Component → Bool} {a s : State} (h : Same m a s) (n_regs : m .regs = false)
    (n_sec : m .sec = false) :
    Same m a (State.eraseKeys s) := by
  unfold State.eraseKeys
  repeat' (with_reducible first | assumption | refine Same.ite ?_ ?_ | apply State.setFld_same | apply State.setSec_same)

theorem State.alarm_same {m : Component → Bool} {a s : State} (h : Same m a s) (b : Nat) (n_regs : m .regs = false)
    (n_chk : m .chk = false) (n_hub : m .hub = false) (n_sec : m .sec = false) :
    Same m a (State.alarm s b) := by
  unfold State.alarm
  repeat' first
    | (with_reducible first | assumption | refine Same.ite ?_ ?_)
    | (lift_lets; intro kx; refine Same.step (m := m) (a := a) (x := kx) ?_ fun hkx => ?_)
    | (lift_lets; intro kx)
    | (simp only [Same.mk_iff]; apply SameF.of; all_goals first
        | with_reducible exact Off.refl | exact Off.no (by assumption) | skip)
    | (with_reducible first
        | apply State.setFld_same | apply State.raiseIrq_same | apply State.emit_same | apply State.eraseKeys_same)
    | (simp only [kx, Same.mk_iff]; apply SameF.of; all_goals first
        | with_reducible exact Off.refl | exact Off.no (by assumption) | skip)
    | (with_reducible first
        | refine Same.foldl ?_ fun kb ky hkb => ?_ | refine Same.foldl_snd ?_ fun kb ky hkb => ?_
        | refine Same.foldl_fst ?_ fun kb ky hkb => ?_)
    | split
    | (with_reducible first
        | refine Same.of_snd (by assumption) ?_ | refine Same.of_fst (by assumption) ?_
        | refine Same.of_third (by assumption) ?_)
    | dsimp only
    | unfold kx

theorem execAlarm_same {m : Component → Bool} {a s : State} (h : Same m a s) (source : Fin 6)
    (n_regs : m .regs = false) (n_chk : m .chk = false) (n_hub : m .hub = false) (n_sec : m .sec = false)
    {kt : State} (ke : execAlarm source s = .next kt) :
    Same m a kt := by
  unfold execAlarm at ke
  refine Same.of_done ke ?_
  repeat' (with_reducible first | assumption | refine Same.ite ?_ ?_ | apply State.alarm_same)

theorem execMeterInterval_same {m : Component → Bool} {a s : State} (h : Same m a s) (interval : MeterInterval)
    (n_mtr : m .mtr = false) {kt : State} (ke : execMeterInterval interval s = .next kt) :
    Same m a kt := by
  unfold execMeterInterval at ke
  refine Same.of_done ke ?_
  repeat' (with_reducible first | assumption | refine Same.ite ?_ ?_ | apply State.setMtr_same)

theorem State.meterRecord_same {m : Component → Bool} {a s : State} (h : Same m a s) (b : List Byte)
    (n_regs : m .regs = false) (n_chk : m .chk = false) (n_hub : m .hub = false) (n_sec : m .sec = false)
    (n_mtr : m .mtr = false) :
    Same m a (State.meterRecord s b) := by
  unfold State.meterRecord
  repeat' first
    | (with_reducible first | assumption | refine Same.ite ?_ ?_)
    | (lift_lets; intro kx; refine Same.step (m := m) (a := a) (x := kx) ?_ fun hkx => ?_)
    | (lift_lets; intro kx)
    | (simp only [Same.mk_iff]; apply SameF.of; all_goals first
        | with_reducible exact Off.refl | exact Off.no (by assumption) | skip)
    | (with_reducible first
        | apply State.setFld_same | apply State.mirror_same | apply State.setMtr_same | apply State.alarm_same)
    | (simp only [kx, Same.mk_iff]; apply SameF.of; all_goals first
        | with_reducible exact Off.refl | exact Off.no (by assumption) | skip)
    | (with_reducible first
        | refine Same.foldl ?_ fun kb ky hkb => ?_ | refine Same.foldl_snd ?_ fun kb ky hkb => ?_
        | refine Same.foldl_fst ?_ fun kb ky hkb => ?_)
    | split
    | (with_reducible first
        | refine Same.of_snd (by assumption) ?_ | refine Same.of_fst (by assumption) ?_
        | refine Same.of_third (by assumption) ?_)
    | dsimp only
    | unfold kx

theorem execMeterRecord_same {m : Component → Bool} {a s : State} (h : Same m a s) (bytes : List Byte)
    (n_regs : m .regs = false) (n_chk : m .chk = false) (n_hub : m .hub = false) (n_sec : m .sec = false)
    (n_mtr : m .mtr = false) {kt : State} (ke : execMeterRecord bytes s = .next kt) :
    Same m a kt := by
  unfold execMeterRecord at ke
  refine Same.of_done ke ?_
  repeat' (with_reducible first | assumption | refine Same.ite ?_ ?_ | apply State.meterRecord_same)

theorem State.meterLinkLost_same {m : Component → Bool} {a s : State} (h : Same m a s) (n_regs : m .regs = false)
    (n_chk : m .chk = false) (n_hub : m .hub = false) (n_sec : m .sec = false) :
    Same m a (State.meterLinkLost s) := by
  unfold State.meterLinkLost
  repeat' first
    | (with_reducible first
        | assumption | refine Same.ite ?_ ?_ | apply State.setFld_same | apply State.raiseIrq_same
        | apply State.emit_same | apply State.alarm_same)

theorem execMeterLinkLost_same {m : Component → Bool} {a s : State} (h : Same m a s) (n_regs : m .regs = false)
    (n_chk : m .chk = false) (n_hub : m .hub = false) (n_sec : m .sec = false) {kt : State}
    (ke : execMeterLinkLost s = .next kt) :
    Same m a kt := by
  unfold execMeterLinkLost at ke
  refine Same.of_done ke ?_
  repeat' (with_reducible first | assumption | refine Same.ite ?_ ?_ | apply State.meterLinkLost_same)

theorem State.keyDataAccess_same {m : Component → Bool} {a s : State} (h : Same m a s) (ag : Agent) (w : Nat)
    (v : Option Word) (n_response : m .response = false) (n_sec : m .sec = false) :
    Same m a (State.keyDataAccess s ag w v) := by
  unfold State.keyDataAccess
  repeat' first
    | (with_reducible first | assumption | refine Same.ite ?_ ?_)
    | (lift_lets; intro kx; refine Same.step (m := m) (a := a) (x := kx) ?_ fun hkx => ?_)
    | (lift_lets; intro kx)
    | (simp only [Same.mk_iff]; apply SameF.of; all_goals first
        | with_reducible exact Off.refl | exact Off.no (by assumption) | skip)
    | (with_reducible first | apply State.respond_same | apply State.setSec_same)
    | (simp only [kx, Same.mk_iff]; apply SameF.of; all_goals first
        | with_reducible exact Off.refl | exact Off.no (by assumption) | skip)
    | (with_reducible first
        | refine Same.foldl ?_ fun kb ky hkb => ?_ | refine Same.foldl_snd ?_ fun kb ky hkb => ?_
        | refine Same.foldl_fst ?_ fun kb ky hkb => ?_)
    | split
    | (with_reducible first
        | refine Same.of_snd (by assumption) ?_ | refine Same.of_fst (by assumption) ?_
        | refine Same.of_third (by assumption) ?_)
    | dsimp only
    | unfold kx

theorem execKeyDataAccess_same {m : Component → Bool} {a s : State} (h : Same m a s) (agent : Agent) (word : Fin 4)
    (write : Option Word) (n_response : m .response = false) (n_sec : m .sec = false) {kt : State}
    (ke : execKeyDataAccess agent word write s = .next kt) :
    Same m a kt := by
  unfold execKeyDataAccess at ke
  refine Same.of_done ke ?_
  repeat' (with_reducible first | assumption | refine Same.ite ?_ ?_ | apply State.keyDataAccess_same)

theorem State.debugUnlock_same {m : Component → Bool} {a s : State} (h : Same m a s) (slot : Nat)
    (challenge : List Byte) (key : List Byte) (r : List Byte) (sg : List Byte) (n_regs : m .regs = false)
    (n_chk : m .chk = false) (n_hub : m .hub = false) (n_sec : m .sec = false) :
    Same m a (State.debugUnlock s slot challenge key r sg) := by
  unfold State.debugUnlock
  repeat' first
    | (with_reducible first
        | assumption | refine Same.ite ?_ ?_ | apply State.setSec_same | apply State.eraseKeys_same
        | apply State.alarm_same)

theorem execDebugUnlock_same {m : Component → Bool} {a s : State} (h : Same m a s) (slot : Fin 2)
    (challenge : List Byte) (key : List Byte) (sigR : List Byte) (sigS : List Byte) (n_regs : m .regs = false)
    (n_chk : m .chk = false) (n_hub : m .hub = false) (n_sec : m .sec = false) {kt : State}
    (ke : execDebugUnlock slot challenge key sigR sigS s = .next kt) :
    Same m a kt := by
  unfold execDebugUnlock at ke
  refine Same.of_done ke ?_
  repeat' (with_reducible first | assumption | refine Same.ite ?_ ?_ | apply State.debugUnlock_same)

theorem State.fuseCmd_same {m : Component → Bool} {a s : State} (h : Same m a s) (v : Word)
    (n_regs : m .regs = false) (n_sec : m .sec = false) :
    Same m a (State.fuseCmd s v) := by
  unfold State.fuseCmd
  repeat' (with_reducible first | assumption | refine Same.ite ?_ ?_ | apply State.setFld_same | apply State.setSec_same)

theorem State.fuseOp_same {m : Component → Bool} {a s : State} (h : Same m a s) (op : Nat) (v : Word)
    (n_regs : m .regs = false) (n_sec : m .sec = false) :
    Same m a (State.fuseOp s op v) := by
  unfold State.fuseOp
  repeat' (with_reducible first | assumption | refine Same.ite ?_ ?_ | apply State.fuseCmd_same)

theorem execFuseProgram_same {m : Component → Bool} {a s : State} (h : Same m a s) (value : Word)
    (n_regs : m .regs = false) (n_sec : m .sec = false) {kt : State} (ke : execFuseProgram value s = .next kt) :
    Same m a kt := by
  unfold execFuseProgram at ke
  refine Same.of_done ke ?_
  repeat' (with_reducible first | assumption | refine Same.ite ?_ ?_ | apply State.fuseOp_same)

theorem execFuseRevoke_same {m : Component → Bool} {a s : State} (h : Same m a s) (value : Word)
    (n_regs : m .regs = false) (n_sec : m .sec = false) {kt : State} (ke : execFuseRevoke value s = .next kt) :
    Same m a kt := by
  unfold execFuseRevoke at ke
  refine Same.of_done ke ?_
  repeat' (with_reducible first | assumption | refine Same.ite ?_ ?_ | apply State.fuseOp_same)

theorem execFuseRaise_same {m : Component → Bool} {a s : State} (h : Same m a s) (value : Word)
    (n_regs : m .regs = false) (n_sec : m .sec = false) {kt : State} (ke : execFuseRaise value s = .next kt) :
    Same m a kt := by
  unfold execFuseRaise at ke
  refine Same.of_done ke ?_
  repeat' (with_reducible first | assumption | refine Same.ite ?_ ?_ | apply State.fuseOp_same)

theorem State.fuseComplete_same {m : Component → Bool} {a s : State} (h : Same m a s) (n_regs : m .regs = false)
    (n_sec : m .sec = false) :
    Same m a (State.fuseComplete s) := by
  unfold State.fuseComplete
  repeat' first
    | (with_reducible first | assumption | apply State.setFld_same | apply State.setSec_same)
    | split

theorem execFuseComplete_same {m : Component → Bool} {a s : State} (h : Same m a s) (n_regs : m .regs = false)
    (n_sec : m .sec = false) {kt : State} (ke : execFuseComplete s = .next kt) :
    Same m a kt := by
  unfold execFuseComplete at ke
  refine Same.of_done ke ?_
  repeat' (with_reducible first | assumption | refine Same.ite ?_ ?_ | apply State.fuseComplete_same)

end Sys2Proof.Machine
end

