-- ==== Sys2Proof/Laws/SameStartup.lean ====
section
/-! SUPPORT. What the operations of Machine/Startup.lean leave alone (`Same`). -/

set_option linter.unusedSimpArgs false

namespace Sys2Proof.Machine

theorem State.keepRegs_same {m : Component → Bool} {a t : State} (h : Same m a t) (s : State) (os : List Nat)
    (n_regs : m .regs = false) :
    Same m a (State.keepRegs t s os) := by
  unfold State.keepRegs
  repeat' (with_reducible first | assumption | apply State.setReg_same | refine Same.foldl ?_ fun kb ky hkb => ?_)

theorem State.cutFuse_same {m : Component → Bool} {a s : State} (h : Same m a s) (n_fresh : m .fresh = false)
    (n_regs : m .regs = false) (n_sec : m .sec = false) :
    Same m a (State.cutFuse s) := by
  unfold State.cutFuse
  repeat' first
    | (with_reducible first | assumption | refine Same.ite ?_ ?_)
    | (lift_lets; intro kx; refine Same.step (m := m) (a := a) (x := kx) ?_ fun hkx => ?_)
    | (lift_lets; intro kx)
    | (simp only [Same.mk_iff]; apply SameF.of; all_goals first
        | with_reducible exact Off.refl | exact Off.no (by assumption) | skip)
    | (with_reducible first | apply State.free_same | apply State.fuseComplete_same)
    | (simp only [kx, Same.mk_iff]; apply SameF.of; all_goals first
        | with_reducible exact Off.refl | exact Off.no (by assumption) | skip)
    | (with_reducible first
        | refine Same.foldl ?_ fun kb ky hkb => ?_ | refine Same.foldl_snd ?_ fun kb ky hkb => ?_
        | refine Same.foldl_fst ?_ fun kb ky hkb => ?_)
    | split
    | (with_reducible first
        | refine Same.of_snd (by assumption) ?_ | refine Same.of_fst (by assumption) ?_
        | refine Same.of_third (by assumption) ?_)
    | dsimp only
    | unfold kx

theorem State.powerOnReset_same {m : Component → Bool} {a s : State} (h : Same m a s) 
    (n_fresh : m .fresh = false) (n_regs : m .regs = false) (n_shadow : m .shadow = false) (n_response : m .response = false)
    (n_mem : m .mem = false) (n_pkg : m .pkg = false) (n_links : m .links = false) (n_crossings : m .crossings = false)
    (n_cfg : m .cfg = false) (n_flt : m .flt = false) (n_chk : m .chk = false) (n_mm : m .mm = false)
    (n_hub : m .hub = false) (n_fleet : m .fleet = false) (n_clock : m .clock = false) (n_dense : m .dense = false)
    (n_emb : m .emb = false) (n_wire : m .wire = false) (n_sec : m .sec = false) (n_det : m .det = false)
    (n_time : m .time = false) (n_pwr : m .pwr = false) (n_mtr : m .mtr = false) : Same m a s.powerOnReset := by
  unfold State.powerOnReset
  dsimp only
  refine State.strapRoot_same (State.keepRegs_same ?_ _ _ n_regs) n_regs
  have h := State.cutFuse_same h n_fresh n_regs n_sec
  simp only [Same.mk_iff]; apply SameF.of; all_goals first | exact Off.refl | exact Off.no (by assumption) | exact h

theorem State.packageClear_same {m : Component → Bool} {a s : State} (h : Same m a s) (byBall : Bool)
    (n_fresh : m .fresh = false) (n_regs : m .regs = false) (n_shadow : m .shadow = false)
    (n_response : m .response = false) (n_mem : m .mem = false) (n_pkg : m .pkg = false)
    (n_links : m .links = false) (n_crossings : m .crossings = false) (n_cfg : m .cfg = false)
    (n_flt : m .flt = false) (n_chk : m .chk = false) (n_mm : m .mm = false) (n_hub : m .hub = false)
    (n_fleet : m .fleet = false) (n_clock : m .clock = false) (n_dense : m .dense = false) (n_emb : m .emb = false)
    (n_wire : m .wire = false) (n_sec : m .sec = false) (n_det : m .det = false) (n_time : m .time = false)
    (n_pwr : m .pwr = false) (n_mtr : m .mtr = false) :
    Same m a (State.packageClear s byBall) := by
  unfold State.packageClear
  repeat' first
    | (with_reducible first | assumption | refine Same.ite ?_ ?_)
    | (lift_lets; intro kx; refine Same.step (m := m) (a := a) (x := kx) ?_ fun hkx => ?_)
    | (lift_lets; intro kx)
    | (simp only [Same.mk_iff]; apply SameF.of; all_goals first
        | with_reducible exact Off.refl | exact Off.no (by assumption) | skip)
    | (with_reducible first
        | apply State.setShadow_same | apply State.setFld_same | apply State.keepRegs_same
        | apply State.powerOnReset_same)
    | (simp only [kx, Same.mk_iff]; apply SameF.of; all_goals first
        | with_reducible exact Off.refl | exact Off.no (by assumption) | skip)
    | (with_reducible first
        | refine Same.foldl ?_ fun kb ky hkb => ?_ | refine Same.foldl_snd ?_ fun kb ky hkb => ?_
        | refine Same.foldl_fst ?_ fun kb ky hkb => ?_)
    | split
    | (with_reducible first
        | refine Same.of_snd (by assumption) ?_ | refine Same.of_fst (by assumption) ?_
        | refine Same.of_third (by assumption) ?_)
    | dsimp only
    | unfold kx

theorem State.packageReset_same {m : Component → Bool} {a s : State} (h : Same m a s) (byBall : Bool) (v : Nat)
    (n_fresh : m .fresh = false) (n_regs : m .regs = false) (n_shadow : m .shadow = false)
    (n_response : m .response = false) (n_mem : m .mem = false) (n_pkg : m .pkg = false)
    (n_links : m .links = false) (n_crossings : m .crossings = false) (n_cfg : m .cfg = false)
    (n_flt : m .flt = false) (n_chk : m .chk = false) (n_mm : m .mm = false) (n_hub : m .hub = false)
    (n_fleet : m .fleet = false) (n_clock : m .clock = false) (n_dense : m .dense = false) (n_emb : m .emb = false)
    (n_wire : m .wire = false) (n_sec : m .sec = false) (n_det : m .det = false) (n_time : m .time = false)
    (n_pwr : m .pwr = false) (n_mtr : m .mtr = false) :
    Same m a (State.packageReset s byBall v) := by
  unfold State.packageReset
  repeat' first
    | (with_reducible first | assumption | refine Same.ite ?_ ?_)
    | (lift_lets; intro kx; refine Same.step (m := m) (a := a) (x := kx) ?_ fun hkx => ?_)
    | (lift_lets; intro kx)
    | (simp only [Same.mk_iff]; apply SameF.of; all_goals first
        | with_reducible exact Off.refl | exact Off.no (by assumption) | skip)
    | with_reducible apply State.packageClear_same
    | (simp only [kx, Same.mk_iff]; apply SameF.of; all_goals first
        | with_reducible exact Off.refl | exact Off.no (by assumption) | skip)
    | (with_reducible first
        | refine Same.foldl ?_ fun kb ky hkb => ?_ | refine Same.foldl_snd ?_ fun kb ky hkb => ?_
        | refine Same.foldl_fst ?_ fun kb ky hkb => ?_)
    | split
    | (with_reducible first
        | refine Same.of_snd (by assumption) ?_ | refine Same.of_fst (by assumption) ?_
        | refine Same.of_third (by assumption) ?_)
    | dsimp only
    | unfold kx

theorem execPackageReset_same {m : Component → Bool} {a s : State} (h : Same m a s) (byBall : Bool) (value : Word)
    (n_fresh : m .fresh = false) (n_regs : m .regs = false) (n_shadow : m .shadow = false)
    (n_response : m .response = false) (n_mem : m .mem = false) (n_pkg : m .pkg = false)
    (n_links : m .links = false) (n_crossings : m .crossings = false) (n_cfg : m .cfg = false)
    (n_flt : m .flt = false) (n_chk : m .chk = false) (n_mm : m .mm = false) (n_hub : m .hub = false)
    (n_fleet : m .fleet = false) (n_clock : m .clock = false) (n_dense : m .dense = false) (n_emb : m .emb = false)
    (n_wire : m .wire = false) (n_sec : m .sec = false) (n_det : m .det = false) (n_time : m .time = false)
    (n_pwr : m .pwr = false) (n_mtr : m .mtr = false) {kt : State} (ke : execPackageReset byBall value s = .next kt) :
    Same m a kt := by
  unfold execPackageReset at ke
  refine Same.of_done ke ?_
  repeat' (with_reducible first | assumption | refine Same.ite ?_ ?_ | apply State.packageReset_same)

theorem State.auxFails_same {m : Component → Bool} {a s : State} (h : Same m a s) (n_fresh : m .fresh = false)
    (n_regs : m .regs = false) (n_shadow : m .shadow = false) (n_response : m .response = false)
    (n_mem : m .mem = false) (n_pkg : m .pkg = false) (n_links : m .links = false)
    (n_crossings : m .crossings = false) (n_cfg : m .cfg = false) (n_flt : m .flt = false) (n_chk : m .chk = false)
    (n_mm : m .mm = false) (n_hub : m .hub = false) (n_fleet : m .fleet = false) (n_clock : m .clock = false)
    (n_dense : m .dense = false) (n_emb : m .emb = false) (n_wire : m .wire = false) (n_sec : m .sec = false)
    (n_det : m .det = false) (n_time : m .time = false) (n_pwr : m .pwr = false) (n_mtr : m .mtr = false) :
    Same m a (State.auxFails s) := by
  unfold State.auxFails
  repeat' first
    | (with_reducible first | assumption | refine Same.ite ?_ ?_)
    | (lift_lets; intro kx; refine Same.step (m := m) (a := a) (x := kx) ?_ fun hkx => ?_)
    | (lift_lets; intro kx)
    | (simp only [Same.mk_iff]; apply SameF.of; all_goals first
        | with_reducible exact Off.refl | exact Off.no (by assumption) | skip)
    | with_reducible apply State.powerOnReset_same
    | (simp only [kx, Same.mk_iff]; apply SameF.of; all_goals first
        | with_reducible exact Off.refl | exact Off.no (by assumption) | skip)
    | (with_reducible first
        | refine Same.foldl ?_ fun kb ky hkb => ?_ | refine Same.foldl_snd ?_ fun kb ky hkb => ?_
        | refine Same.foldl_fst ?_ fun kb ky hkb => ?_)
    | split
    | (with_reducible first
        | refine Same.of_snd (by assumption) ?_ | refine Same.of_fst (by assumption) ?_
        | refine Same.of_third (by assumption) ?_)
    | dsimp only
    | unfold kx

theorem State.superviseAux_same {m : Component → Bool} {a s : State} (h : Same m a s) (aux : Nat)
    (n_fresh : m .fresh = false) (n_regs : m .regs = false) (n_shadow : m .shadow = false)
    (n_response : m .response = false) (n_mem : m .mem = false) (n_pkg : m .pkg = false)
    (n_links : m .links = false) (n_crossings : m .crossings = false) (n_cfg : m .cfg = false)
    (n_flt : m .flt = false) (n_chk : m .chk = false) (n_mm : m .mm = false) (n_hub : m .hub = false)
    (n_fleet : m .fleet = false) (n_clock : m .clock = false) (n_dense : m .dense = false) (n_emb : m .emb = false)
    (n_wire : m .wire = false) (n_sec : m .sec = false) (n_det : m .det = false) (n_time : m .time = false)
    (n_pwr : m .pwr = false) (n_mtr : m .mtr = false) :
    Same m a (State.superviseAux s aux) := by
  unfold State.superviseAux
  repeat' first
    | (with_reducible first | assumption | refine Same.ite ?_ ?_)
    | (lift_lets; intro kx; refine Same.step (m := m) (a := a) (x := kx) ?_ fun hkx => ?_)
    | (lift_lets; intro kx)
    | (simp only [Same.mk_iff]; apply SameF.of; all_goals first
        | with_reducible exact Off.refl | exact Off.no (by assumption) | skip)
    | with_reducible apply State.auxFails_same
    | (simp only [kx, Same.mk_iff]; apply SameF.of; all_goals first
        | with_reducible exact Off.refl | exact Off.no (by assumption) | skip)
    | (with_reducible first
        | refine Same.foldl ?_ fun kb ky hkb => ?_ | refine Same.foldl_snd ?_ fun kb ky hkb => ?_
        | refine Same.foldl_fst ?_ fun kb ky hkb => ?_)
    | split
    | (with_reducible first
        | refine Same.of_snd (by assumption) ?_ | refine Same.of_fst (by assumption) ?_
        | refine Same.of_third (by assumption) ?_)
    | dsimp only
    | unfold kx

theorem State.railSample_same {m : Component → Bool} {a s : State} (h : Same m a s) (mvs : List Nat)
    (n_fresh : m .fresh = false) (n_regs : m .regs = false) (n_shadow : m .shadow = false)
    (n_response : m .response = false) (n_mem : m .mem = false) (n_pkg : m .pkg = false)
    (n_links : m .links = false) (n_crossings : m .crossings = false) (n_cfg : m .cfg = false)
    (n_flt : m .flt = false) (n_chk : m .chk = false) (n_mm : m .mm = false) (n_hub : m .hub = false)
    (n_fleet : m .fleet = false) (n_clock : m .clock = false) (n_dense : m .dense = false) (n_emb : m .emb = false)
    (n_wire : m .wire = false) (n_sec : m .sec = false) (n_det : m .det = false) (n_time : m .time = false)
    (n_pwr : m .pwr = false) (n_mtr : m .mtr = false) :
    Same m a (State.railSample s mvs) := by
  unfold State.railSample
  repeat' first
    | (with_reducible first | assumption | refine Same.ite ?_ ?_)
    | (lift_lets; intro kx; refine Same.step (m := m) (a := a) (x := kx) ?_ fun hkx => ?_)
    | (lift_lets; intro kx)
    | (simp only [Same.mk_iff]; apply SameF.of; all_goals first
        | with_reducible exact Off.refl | exact Off.no (by assumption) | skip)
    | (with_reducible first | apply State.sampleRails_same | apply State.superviseAux_same)
    | (simp only [kx, Same.mk_iff]; apply SameF.of; all_goals first
        | with_reducible exact Off.refl | exact Off.no (by assumption) | skip)
    | (with_reducible first
        | refine Same.foldl ?_ fun kb ky hkb => ?_ | refine Same.foldl_snd ?_ fun kb ky hkb => ?_
        | refine Same.foldl_fst ?_ fun kb ky hkb => ?_)
    | split
    | (with_reducible first
        | refine Same.of_snd (by assumption) ?_ | refine Same.of_fst (by assumption) ?_
        | refine Same.of_third (by assumption) ?_)
    | dsimp only
    | unfold kx

theorem execRailSample_same {m : Component → Bool} {a s : State} (h : Same m a s) (millivolts : List (BitVec 16))
    (n_fresh : m .fresh = false) (n_regs : m .regs = false) (n_shadow : m .shadow = false)
    (n_response : m .response = false) (n_mem : m .mem = false) (n_pkg : m .pkg = false)
    (n_links : m .links = false) (n_crossings : m .crossings = false) (n_cfg : m .cfg = false)
    (n_flt : m .flt = false) (n_chk : m .chk = false) (n_mm : m .mm = false) (n_hub : m .hub = false)
    (n_fleet : m .fleet = false) (n_clock : m .clock = false) (n_dense : m .dense = false) (n_emb : m .emb = false)
    (n_wire : m .wire = false) (n_sec : m .sec = false) (n_det : m .det = false) (n_time : m .time = false)
    (n_pwr : m .pwr = false) (n_mtr : m .mtr = false) {kt : State} (ke : execRailSample millivolts s = .next kt) :
    Same m a kt := by
  unfold execRailSample at ke
  refine Same.of_done ke ?_
  repeat' (with_reducible first | assumption | refine Same.ite ?_ ?_ | apply State.railSample_same)

theorem State.powerDown_same {m : Component → Bool} {a s : State} (h : Same m a s) (n_fresh : m .fresh = false)
    (n_regs : m .regs = false) (n_shadow : m .shadow = false) (n_response : m .response = false)
    (n_mem : m .mem = false) (n_pkg : m .pkg = false) (n_links : m .links = false)
    (n_crossings : m .crossings = false) (n_cfg : m .cfg = false) (n_flt : m .flt = false) (n_chk : m .chk = false)
    (n_mm : m .mm = false) (n_hub : m .hub = false) (n_fleet : m .fleet = false) (n_clock : m .clock = false)
    (n_dense : m .dense = false) (n_emb : m .emb = false) (n_wire : m .wire = false) (n_sec : m .sec = false)
    (n_det : m .det = false) (n_time : m .time = false) (n_pwr : m .pwr = false) (n_mtr : m .mtr = false) :
    Same m a (State.powerDown s) := by
  unfold State.powerDown
  repeat' first
    | (with_reducible first | assumption | refine Same.ite ?_ ?_)
    | (lift_lets; intro kx; refine Same.step (m := m) (a := a) (x := kx) ?_ fun hkx => ?_)
    | (lift_lets; intro kx)
    | (simp only [Same.mk_iff]; apply SameF.of; all_goals first
        | with_reducible exact Off.refl | exact Off.no (by assumption) | skip)
    | with_reducible apply State.powerOnReset_same
    | (simp only [kx, Same.mk_iff]; apply SameF.of; all_goals first
        | with_reducible exact Off.refl | exact Off.no (by assumption) | skip)
    | (with_reducible first
        | refine Same.foldl ?_ fun kb ky hkb => ?_ | refine Same.foldl_snd ?_ fun kb ky hkb => ?_
        | refine Same.foldl_fst ?_ fun kb ky hkb => ?_)
    | split
    | (with_reducible first
        | refine Same.of_snd (by assumption) ?_ | refine Same.of_fst (by assumption) ?_
        | refine Same.of_third (by assumption) ?_)
    | dsimp only
    | unfold kx

theorem execPowerDown_same {m : Component → Bool} {a s : State} (h : Same m a s) (n_fresh : m .fresh = false)
    (n_regs : m .regs = false) (n_shadow : m .shadow = false) (n_response : m .response = false)
    (n_mem : m .mem = false) (n_pkg : m .pkg = false) (n_links : m .links = false)
    (n_crossings : m .crossings = false) (n_cfg : m .cfg = false) (n_flt : m .flt = false) (n_chk : m .chk = false)
    (n_mm : m .mm = false) (n_hub : m .hub = false) (n_fleet : m .fleet = false) (n_clock : m .clock = false)
    (n_dense : m .dense = false) (n_emb : m .emb = false) (n_wire : m .wire = false) (n_sec : m .sec = false)
    (n_det : m .det = false) (n_time : m .time = false) (n_pwr : m .pwr = false) (n_mtr : m .mtr = false)
    {kt : State} (ke : execPowerDown s = .next kt) :
    Same m a kt := by
  unfold execPowerDown at ke
  refine Same.of_done ke ?_
  repeat' first
    | (with_reducible first | assumption | refine Same.ite ?_ ?_)
    | (lift_lets; intro kx; refine Same.step (m := m) (a := a) (x := kx) ?_ fun hkx => ?_)
    | (lift_lets; intro kx)
    | (simp only [Same.mk_iff]; apply SameF.of; all_goals first
        | with_reducible exact Off.refl | exact Off.no (by assumption) | skip)
    | with_reducible apply State.powerDown_same
    | (simp only [kx, Same.mk_iff]; apply SameF.of; all_goals first
        | with_reducible exact Off.refl | exact Off.no (by assumption) | skip)
    | (with_reducible first
        | refine Same.foldl ?_ fun kb ky hkb => ?_ | refine Same.foldl_snd ?_ fun kb ky hkb => ?_
        | refine Same.foldl_fst ?_ fun kb ky hkb => ?_)
    | split
    | (with_reducible first
        | refine Same.of_snd (by assumption) ?_ | refine Same.of_fst (by assumption) ?_
        | refine Same.of_third (by assumption) ?_)
    | dsimp only
    | unfold kx

theorem State.copyLoader_same {m : Component → Bool} {a s : State} (h : Same m a s) (l : Loader)
    (n_mem : m .mem = false) (n_pkg : m .pkg = false) (n_mm : m .mm = false) :
    Same m a (State.copyLoader s l) := by
  unfold State.copyLoader
  repeat' first
    | with_reducible assumption
    | (simp only [Same.mk_iff]; apply SameF.of; all_goals first
        | with_reducible exact Off.refl | exact Off.no (by assumption) | skip)
    | with_reducible apply State.write_same

theorem State.setWarn_same {m : Component → Bool} {a s : State} (h : Same m a s) (w : Nat)
    (n_regs : m .regs = false) :
    Same m a (State.setWarn s w) := by
  unfold State.setWarn
  repeat' (with_reducible first | assumption | refine Same.ite ?_ ?_ | apply State.setFld_same)

theorem State.loaderStart_same {m : Component → Bool} {a s : State} (h : Same m a s) (n_regs : m .regs = false)
    (n_mem : m .mem = false) (n_pkg : m .pkg = false) (n_mm : m .mm = false) :
    Same m a (State.loaderStart s) := by
  unfold State.loaderStart
  repeat' first
    | (with_reducible first | assumption | refine Same.ite ?_ ?_)
    | (lift_lets; intro kx; refine Same.step (m := m) (a := a) (x := kx) ?_ fun hkx => ?_)
    | (lift_lets; intro kx)
    | (simp only [Same.mk_iff]; apply SameF.of; all_goals first
        | with_reducible exact Off.refl | exact Off.no (by assumption) | skip)
    | (with_reducible first | apply State.copyLoader_same | apply State.setWarn_same)
    | (simp only [kx, Same.mk_iff]; apply SameF.of; all_goals first
        | with_reducible exact Off.refl | exact Off.no (by assumption) | skip)
    | (with_reducible first
        | refine Same.foldl ?_ fun kb ky hkb => ?_ | refine Same.foldl_snd ?_ fun kb ky hkb => ?_
        | refine Same.foldl_fst ?_ fun kb ky hkb => ?_)
    | split
    | (with_reducible first
        | refine Same.of_snd (by assumption) ?_ | refine Same.of_fst (by assumption) ?_
        | refine Same.of_third (by assumption) ?_)
    | dsimp only
    | unfold kx

theorem execLoaderStart_same {m : Component → Bool} {a s : State} (h : Same m a s) (n_regs : m .regs = false)
    (n_mem : m .mem = false) (n_pkg : m .pkg = false) (n_mm : m .mm = false) {kt : State}
    (ke : execLoaderStart s = .next kt) :
    Same m a kt := by
  unfold execLoaderStart at ke
  refine Same.of_done ke ?_
  repeat' (with_reducible first | assumption | refine Same.ite ?_ ?_ | apply State.loaderStart_same)

theorem State.coresReset_same {m : Component → Bool} {a s : State} (h : Same m a s) (v : Nat)
    (n_regs : m .regs = false) (n_shadow : m .shadow = false) (n_mem : m .mem = false) (n_pkg : m .pkg = false)
    (n_mm : m .mm = false) :
    Same m a (State.coresReset s v) := by
  unfold State.coresReset
  repeat' first
    | (with_reducible first | assumption | refine Same.ite ?_ ?_)
    | (simp only [Same.mk_iff]; apply SameF.of; all_goals first
        | with_reducible exact Off.refl | exact Off.no (by assumption) | skip)
    | (with_reducible first | apply State.setFld_same | apply State.resetRegs_same | apply State.loaderStart_same)

theorem execCoresReset_same {m : Component → Bool} {a s : State} (h : Same m a s) (value : Word)
    (n_regs : m .regs = false) (n_shadow : m .shadow = false) (n_mem : m .mem = false) (n_pkg : m .pkg = false)
    (n_mm : m .mm = false) {kt : State} (ke : execCoresReset value s = .next kt) :
    Same m a kt := by
  unfold execCoresReset at ke
  refine Same.of_done ke ?_
  repeat' (with_reducible first | assumption | refine Same.ite ?_ ?_ | apply State.coresReset_same)

theorem State.perst_same {m : Component → Bool} {a s : State} (h : Same m a s) (n_regs : m .regs = false)
    (n_shadow : m .shadow = false) (n_pkg : m .pkg = false) (n_hub : m .hub = false) :
    Same m a (State.perst s) := by
  unfold State.perst
  repeat' first
    | (with_reducible first | assumption | refine Same.ite ?_ ?_)
    | (lift_lets; intro kx; refine Same.step (m := m) (a := a) (x := kx) ?_ fun hkx => ?_)
    | (lift_lets; intro kx)
    | (simp only [Same.mk_iff]; apply SameF.of; all_goals first
        | with_reducible exact Off.refl | exact Off.no (by assumption) | skip)
    | (with_reducible first
        | apply State.setFld_same | apply State.resetRegs_same | apply State.strapRoot_same
        | apply State.msixReset_same)
    | (simp only [kx, Same.mk_iff]; apply SameF.of; all_goals first
        | with_reducible exact Off.refl | exact Off.no (by assumption) | skip)
    | (with_reducible first
        | refine Same.foldl ?_ fun kb ky hkb => ?_ | refine Same.foldl_snd ?_ fun kb ky hkb => ?_
        | refine Same.foldl_fst ?_ fun kb ky hkb => ?_)
    | split
    | (with_reducible first
        | refine Same.of_snd (by assumption) ?_ | refine Same.of_fst (by assumption) ?_
        | refine Same.of_third (by assumption) ?_)
    | dsimp only
    | unfold kx

theorem execPciePerst_same {m : Component → Bool} {a s : State} (h : Same m a s) (n_regs : m .regs = false)
    (n_shadow : m .shadow = false) (n_pkg : m .pkg = false) (n_hub : m .hub = false) {kt : State}
    (ke : execPciePerst s = .next kt) :
    Same m a kt := by
  unfold execPciePerst at ke
  refine Same.of_done ke ?_
  repeat' (with_reducible first | assumption | refine Same.ite ?_ ?_ | apply State.perst_same)

theorem State.perstRelease_same {m : Component → Bool} {a s : State} (h : Same m a s) (speed : Nat) (width : Nat)
    (flit : Bool) (n_regs : m .regs = false) (n_pkg : m .pkg = false) :
    Same m a (State.perstRelease s speed width flit) := by
  unfold State.perstRelease
  repeat' first
    | (with_reducible first | assumption | refine Same.ite ?_ ?_)
    | (lift_lets; intro kx; refine Same.step (m := m) (a := a) (x := kx) ?_ fun hkx => ?_)
    | (lift_lets; intro kx)
    | (simp only [Same.mk_iff]; apply SameF.of; all_goals first
        | with_reducible exact Off.refl | exact Off.no (by assumption) | skip)
    | with_reducible apply State.setFld_same
    | (simp only [kx, Same.mk_iff]; apply SameF.of; all_goals first
        | with_reducible exact Off.refl | exact Off.no (by assumption) | skip)
    | (with_reducible first
        | refine Same.foldl ?_ fun kb ky hkb => ?_ | refine Same.foldl_snd ?_ fun kb ky hkb => ?_
        | refine Same.foldl_fst ?_ fun kb ky hkb => ?_)
    | split
    | (with_reducible first
        | refine Same.of_snd (by assumption) ?_ | refine Same.of_fst (by assumption) ?_
        | refine Same.of_third (by assumption) ?_)
    | dsimp only
    | unfold kx

theorem execPciePerstRelease_same {m : Component → Bool} {a s : State} (h : Same m a s) (speed : BitVec 3)
    (width : BitVec 5) (flit : Bool) (n_regs : m .regs = false) (n_pkg : m .pkg = false) {kt : State}
    (ke : execPciePerstRelease speed width flit s = .next kt) :
    Same m a kt := by
  unfold execPciePerstRelease at ke
  refine Same.of_done ke ?_
  repeat' (with_reducible first | assumption | refine Same.ite ?_ ?_ | apply State.perstRelease_same)

theorem execTestReset_same {m : Component → Bool} {a s : State} (h : Same m a s) (n_sec : m .sec = false)
    {kt : State} (ke : execTestReset s = .next kt) :
    Same m a kt := by
  unfold execTestReset at ke
  refine Same.of_done ke ?_
  repeat' (with_reducible first | assumption | refine Same.ite ?_ ?_ | apply State.setSec_same)

theorem State.haltBoot_same {m : Component → Bool} {a s : State} (h : Same m a s) (code : Nat)
    (n_regs : m .regs = false) (n_pkg : m .pkg = false) :
    Same m a (State.haltBoot s code) := by
  unfold State.haltBoot
  repeat' first
    | with_reducible assumption
    | (simp only [Same.mk_iff]; apply SameF.of; all_goals first
        | with_reducible exact Off.refl | exact Off.no (by assumption) | skip)
    | with_reducible apply State.setFld_same

theorem State.verifyFail_same {m : Component → Bool} {a s : State} (h : Same m a s) (stage : Nat) (object : Nat)
    (slot : Nat) (cause : Nat) (n_regs : m .regs = false) (n_chk : m .chk = false) :
    Same m a (State.verifyFail s stage object slot cause) := by
  unfold State.verifyFail
  repeat' (with_reducible first | assumption | refine Same.ite ?_ ?_ | apply State.emit_same)

theorem State.takeKey_same {m : Component → Bool} {a s : State} (h : Same m a s) (keys : List (Nat × List Byte))
    (k : Nat) (n_sec : m .sec = false) :
    Same m a (State.takeKey s keys k) := by
  unfold State.takeKey
  repeat' first
    | (with_reducible first | assumption | refine Same.ite ?_ ?_)
    | (lift_lets; intro kx; refine Same.step (m := m) (a := a) (x := kx) ?_ fun hkx => ?_)
    | (lift_lets; intro kx)
    | (simp only [Same.mk_iff]; apply SameF.of; all_goals first
        | with_reducible exact Off.refl | exact Off.no (by assumption) | skip)
    | with_reducible apply State.setSec_same
    | (simp only [kx, Same.mk_iff]; apply SameF.of; all_goals first
        | with_reducible exact Off.refl | exact Off.no (by assumption) | skip)
    | (with_reducible first
        | refine Same.foldl ?_ fun kb ky hkb => ?_ | refine Same.foldl_snd ?_ fun kb ky hkb => ?_
        | refine Same.foldl_fst ?_ fun kb ky hkb => ?_)
    | split
    | (with_reducible first
        | refine Same.of_snd (by assumption) ?_ | refine Same.of_fst (by assumption) ?_
        | refine Same.of_third (by assumption) ?_)
    | dsimp only
    | unfold kx

theorem State.bootPll_same {m : Component → Bool} {a s : State} (h : Same m a s) (o : BootOutcome)
    (n_regs : m .regs = false) (n_pkg : m .pkg = false) :
    Same m a (State.bootPll s o) := by
  unfold State.bootPll
  repeat' first
    | (with_reducible first | assumption | refine Same.ite ?_ ?_)
    | (lift_lets; intro kx; refine Same.step (m := m) (a := a) (x := kx) ?_ fun hkx => ?_)
    | (lift_lets; intro kx)
    | (simp only [Same.mk_iff]; apply SameF.of; all_goals first
        | with_reducible exact Off.refl | exact Off.no (by assumption) | skip)
    | with_reducible apply State.haltBoot_same
    | (simp only [kx, Same.mk_iff]; apply SameF.of; all_goals first
        | with_reducible exact Off.refl | exact Off.no (by assumption) | skip)
    | (with_reducible first
        | refine Same.foldl ?_ fun kb ky hkb => ?_ | refine Same.foldl_snd ?_ fun kb ky hkb => ?_
        | refine Same.foldl_fst ?_ fun kb ky hkb => ?_)
    | split
    | (with_reducible first
        | refine Same.of_snd (by assumption) ?_ | refine Same.of_fst (by assumption) ?_
        | refine Same.of_third (by assumption) ?_)
    | dsimp only
    | unfold kx

theorem State.bootRom_same {m : Component → Bool} {a s : State} (h : Same m a s) (o : BootOutcome)
    (n_regs : m .regs = false) (n_pkg : m .pkg = false) (n_chk : m .chk = false) (n_sec : m .sec = false) :
    Same m a (State.bootRom s o) := by
  unfold State.bootRom
  repeat' first
    | (with_reducible first | assumption | refine Same.ite ?_ ?_)
    | (lift_lets; intro kx; refine Same.step (m := m) (a := a) (x := kx) ?_ fun hkx => ?_)
    | (lift_lets; intro kx)
    | (simp only [Same.mk_iff]; apply SameF.of; all_goals first
        | with_reducible exact Off.refl | exact Off.no (by assumption) | skip)
    | (with_reducible first
        | apply State.setWarn_same | apply State.haltBoot_same | apply State.verifyFail_same
        | apply State.takeKey_same)
    | (simp only [kx, Same.mk_iff]; apply SameF.of; all_goals first
        | with_reducible exact Off.refl | exact Off.no (by assumption) | skip)
    | (with_reducible first
        | refine Same.foldl ?_ fun kb ky hkb => ?_ | refine Same.foldl_snd ?_ fun kb ky hkb => ?_
        | refine Same.foldl_fst ?_ fun kb ky hkb => ?_)
    | split
    | (with_reducible first
        | refine Same.of_snd (by assumption) ?_ | refine Same.of_fst (by assumption) ?_
        | refine Same.of_third (by assumption) ?_)
    | dsimp only
    | unfold kx

theorem State.bootFirmware_same {m : Component → Bool} {a s : State} (h : Same m a s) (o : BootOutcome)
    (n_regs : m .regs = false) (n_pkg : m .pkg = false) :
    Same m a (State.bootFirmware s o) := by
  unfold State.bootFirmware
  repeat' first
    | (with_reducible first | assumption | refine Same.ite ?_ ?_)
    | (lift_lets; intro kx; refine Same.step (m := m) (a := a) (x := kx) ?_ fun hkx => ?_)
    | (lift_lets; intro kx)
    | (simp only [Same.mk_iff]; apply SameF.of; all_goals first
        | with_reducible exact Off.refl | exact Off.no (by assumption) | skip)
    | with_reducible apply State.setWarn_same
    | (simp only [kx, Same.mk_iff]; apply SameF.of; all_goals first
        | with_reducible exact Off.refl | exact Off.no (by assumption) | skip)
    | (with_reducible first
        | refine Same.foldl ?_ fun kb ky hkb => ?_ | refine Same.foldl_snd ?_ fun kb ky hkb => ?_
        | refine Same.foldl_fst ?_ fun kb ky hkb => ?_)
    | split
    | (with_reducible first
        | refine Same.of_snd (by assumption) ?_ | refine Same.of_fst (by assumption) ?_
        | refine Same.of_third (by assumption) ?_)
    | dsimp only
    | unfold kx

theorem State.bootRetired_same {m : Component → Bool} {a s : State} (h : Same m a s) (n_pkg : m .pkg = false) :
    Same m a (State.bootRetired s) := by
  unfold State.bootRetired
  repeat' first
    | (with_reducible first | assumption | refine Same.ite ?_ ?_)
    | (lift_lets; intro kx; refine Same.step (m := m) (a := a) (x := kx) ?_ fun hkx => ?_)
    | (lift_lets; intro kx)
    | (simp only [Same.mk_iff]; apply SameF.of; all_goals first
        | with_reducible exact Off.refl | exact Off.no (by assumption) | skip)
    | (simp only [kx, Same.mk_iff]; apply SameF.of; all_goals first
        | with_reducible exact Off.refl | exact Off.no (by assumption) | skip)
    | (with_reducible first
        | refine Same.foldl ?_ fun kb ky hkb => ?_ | refine Same.foldl_snd ?_ fun kb ky hkb => ?_
        | refine Same.foldl_fst ?_ fun kb ky hkb => ?_)
    | split
    | (with_reducible first
        | refine Same.of_snd (by assumption) ?_ | refine Same.of_fst (by assumption) ?_
        | refine Same.of_third (by assumption) ?_)
    | dsimp only
    | unfold kx

theorem State.bootDripstone_same {m : Component → Bool} {a s : State} (h : Same m a s) (n_regs : m .regs = false)
    (n_pkg : m .pkg = false) (n_flt : m .flt = false) :
    Same m a (State.bootDripstone s) := by
  unfold State.bootDripstone
  repeat' first
    | (with_reducible first | assumption | refine Same.ite ?_ ?_)
    | (lift_lets; intro kx; refine Same.step (m := m) (a := a) (x := kx) ?_ fun hkx => ?_)
    | (lift_lets; intro kx)
    | (simp only [Same.mk_iff]; apply SameF.of; all_goals first
        | with_reducible exact Off.refl | exact Off.no (by assumption) | skip)
    | (with_reducible first
        | apply State.setFld_same | apply State.setNor_same | apply State.setWarn_same | apply State.bootRetired_same)
    | (simp only [kx, Same.mk_iff]; apply SameF.of; all_goals first
        | with_reducible exact Off.refl | exact Off.no (by assumption) | skip)
    | (with_reducible first
        | refine Same.foldl ?_ fun kb ky hkb => ?_ | refine Same.foldl_snd ?_ fun kb ky hkb => ?_
        | refine Same.foldl_fst ?_ fun kb ky hkb => ?_)
    | split
    | (with_reducible first
        | refine Same.of_snd (by assumption) ?_ | refine Same.of_fst (by assumption) ?_
        | refine Same.of_third (by assumption) ?_)
    | dsimp only
    | unfold kx

theorem State.bootKey_same {m : Component → Bool} {a s : State} (h : Same m a s) (keys : List (Nat × List Byte))
    (k : Nat) (n_regs : m .regs = false) (n_chk : m .chk = false) (n_sec : m .sec = false) :
    Same m a (State.bootKey s keys k) := by
  unfold State.bootKey
  repeat' first
    | (with_reducible first | assumption | refine Same.ite ?_ ?_)
    | (lift_lets; intro kx; refine Same.step (m := m) (a := a) (x := kx) ?_ fun hkx => ?_)
    | (lift_lets; intro kx)
    | (simp only [Same.mk_iff]; apply SameF.of; all_goals first
        | with_reducible exact Off.refl | exact Off.no (by assumption) | skip)
    | (with_reducible first | apply State.setSec_same | apply State.verifyFail_same | apply State.takeKey_same)
    | (simp only [kx, Same.mk_iff]; apply SameF.of; all_goals first
        | with_reducible exact Off.refl | exact Off.no (by assumption) | skip)
    | (with_reducible first
        | refine Same.foldl ?_ fun kb ky hkb => ?_ | refine Same.foldl_snd ?_ fun kb ky hkb => ?_
        | refine Same.foldl_fst ?_ fun kb ky hkb => ?_)
    | split
    | (with_reducible first
        | refine Same.of_snd (by assumption) ?_ | refine Same.of_fst (by assumption) ?_
        | refine Same.of_third (by assumption) ?_)
    | dsimp only
    | unfold kx

theorem State.bootKeys_same {m : Component → Bool} {a s : State} (h : Same m a s) (keys : List (Nat × List Byte))
    (n_regs : m .regs = false) (n_chk : m .chk = false) (n_sec : m .sec = false) :
    Same m a (State.bootKeys s keys) := by
  unfold State.bootKeys
  repeat' first
    | (with_reducible first | assumption | refine Same.ite ?_ ?_)
    | (lift_lets; intro kx; refine Same.step (m := m) (a := a) (x := kx) ?_ fun hkx => ?_)
    | (lift_lets; intro kx)
    | (simp only [Same.mk_iff]; apply SameF.of; all_goals first
        | with_reducible exact Off.refl | exact Off.no (by assumption) | skip)
    | with_reducible apply State.bootKey_same
    | (simp only [kx, Same.mk_iff]; apply SameF.of; all_goals first
        | with_reducible exact Off.refl | exact Off.no (by assumption) | skip)
    | (with_reducible first
        | refine Same.foldl ?_ fun kb ky hkb => ?_ | refine Same.foldl_snd ?_ fun kb ky hkb => ?_
        | refine Same.foldl_fst ?_ fun kb ky hkb => ?_)
    | split
    | (with_reducible first
        | refine Same.of_snd (by assumption) ?_ | refine Same.of_fst (by assumption) ?_
        | refine Same.of_third (by assumption) ?_)
    | dsimp only
    | unfold kx

theorem State.bootPack_same {m : Component → Bool} {a s : State} (h : Same m a s) (n_regs : m .regs = false)
    (n_chk : m .chk = false) :
    Same m a (State.bootPack s) := by
  unfold State.bootPack
  repeat' first
    | (with_reducible first
        | assumption | apply State.setFld_same | apply State.setWarn_same | apply State.verifyFail_same)
    | split
    | dsimp only

theorem State.bootRecord_same {m : Component → Bool} {a s : State} (h : Same m a s) (r : List Byte) (l : List Byte)
    (n_fresh : m .fresh = false) (n_regs : m .regs = false) (n_shadow : m .shadow = false) (n_mem : m .mem = false)
    (n_pkg : m .pkg = false) (n_cfg : m .cfg = false) (n_chk : m .chk = false) (n_hub : m .hub = false)
    (n_wire : m .wire = false) (n_time : m .time = false) :
    Same m a (State.bootRecord s r l) := by
  unfold State.bootRecord
  repeat' first
    | (with_reducible first | assumption | refine Same.ite ?_ ?_)
    | (simp only [Same.mk_iff]; apply SameF.of; all_goals first
        | with_reducible exact Off.refl | exact Off.no (by assumption) | skip)
    | (with_reducible first | apply State.stewardCommit_same | apply State.setWarn_same | apply State.verifyFail_same)

theorem State.bootObcor_same {m : Component → Bool} {a s : State} (h : Same m a s) (n_regs : m .regs = false)
    (n_hub : m .hub = false) :
    Same m a (State.bootObcor s) := by
  unfold State.bootObcor
  repeat' first
    | (with_reducible first
        | assumption | refine Same.ite ?_ ?_ | apply State.setFldIrq_same | refine Same.foldl ?_ fun kb ky hkb => ?_)

theorem State.bootLink_same {m : Component → Bool} {a s : State} (h : Same m a s) (failed : List (Nat × Nat))
    (n : Nat) (n_regs : m .regs = false) (n_links : m .links = false) (n_flt : m .flt = false)
    (n_chk : m .chk = false) :
    Same m a (State.bootLink s failed n) := by
  unfold State.bootLink
  repeat' first
    | (with_reducible first | assumption | refine Same.ite ?_ ?_)
    | (lift_lets; intro kx; refine Same.step (m := m) (a := a) (x := kx) ?_ fun hkx => ?_)
    | (lift_lets; intro kx)
    | (simp only [Same.mk_iff]; apply SameF.of; all_goals first
        | with_reducible exact Off.refl | exact Off.no (by assumption) | skip)
    | (with_reducible first | apply State.setLink_same | apply State.repairLane_same)
    | (simp only [kx, Same.mk_iff]; apply SameF.of; all_goals first
        | with_reducible exact Off.refl | exact Off.no (by assumption) | skip)
    | (with_reducible first
        | refine Same.foldl ?_ fun kb ky hkb => ?_ | refine Same.foldl_snd ?_ fun kb ky hkb => ?_
        | refine Same.foldl_fst ?_ fun kb ky hkb => ?_)
    | split
    | (with_reducible first
        | refine Same.of_snd (by assumption) ?_ | refine Same.of_fst (by assumption) ?_
        | refine Same.of_third (by assumption) ?_)
    | dsimp only
    | unfold kx

theorem State.bootLinks_same {m : Component → Bool} {a s : State} (h : Same m a s) (failed : List (Nat × Nat))
    (n_regs : m .regs = false) (n_links : m .links = false) (n_crossings : m .crossings = false)
    (n_cfg : m .cfg = false) (n_flt : m .flt = false) (n_chk : m .chk = false) (n_hub : m .hub = false)
    (n_fleet : m .fleet = false) (n_dense : m .dense = false) (n_emb : m .emb = false) (n_det : m .det = false) :
    Same m a (State.bootLinks s failed) := by
  unfold State.bootLinks
  repeat' first
    | (with_reducible first | assumption | refine Same.ite ?_ ?_)
    | (lift_lets; intro kx; refine Same.step (m := m) (a := a) (x := kx) ?_ fun hkx => ?_)
    | (lift_lets; intro kx)
    | (simp only [Same.mk_iff]; apply SameF.of; all_goals first
        | with_reducible exact Off.refl | exact Off.no (by assumption) | skip)
    | (with_reducible first | apply State.linkDown_same | apply State.bootLink_same)
    | (simp only [kx, Same.mk_iff]; apply SameF.of; all_goals first
        | with_reducible exact Off.refl | exact Off.no (by assumption) | skip)
    | (with_reducible first
        | refine Same.foldl ?_ fun kb ky hkb => ?_ | refine Same.foldl_snd ?_ fun kb ky hkb => ?_
        | refine Same.foldl_fst ?_ fun kb ky hkb => ?_)
    | split
    | (with_reducible first
        | refine Same.of_snd (by assumption) ?_ | refine Same.of_fst (by assumption) ?_
        | refine Same.of_third (by assumption) ?_)
    | dsimp only
    | unfold kx

theorem State.bootStack_same {m : Component → Bool} {a s : State} (h : Same m a s) (failed : List Nat) (st : Nat)
    (n_regs : m .regs = false) (n_links : m .links = false) (n_crossings : m .crossings = false)
    (n_cfg : m .cfg = false) (n_flt : m .flt = false) (n_chk : m .chk = false) (n_mm : m .mm = false)
    (n_hub : m .hub = false) (n_fleet : m .fleet = false) (n_dense : m .dense = false) (n_emb : m .emb = false)
    (n_det : m .det = false) :
    Same m a (State.bootStack s failed st) := by
  unfold State.bootStack
  repeat' first
    | (with_reducible first
        | assumption | refine Same.ite ?_ ?_ | apply State.setFld_same | apply State.loseDie_same
        | apply State.remapPc_same | apply State.loseStack_same | apply State.setWarn_same
        | refine Same.foldl ?_ fun kb ky hkb => ?_)

theorem State.bootTier2_same {m : Component → Bool} {a s : State} (h : Same m a s) (chans : List (Nat × Nat))
    (n_regs : m .regs = false) :
    Same m a (State.bootTier2 s chans) := by
  unfold State.bootTier2
  repeat' (with_reducible first | assumption | refine Same.ite ?_ ?_ | apply State.setFld_same | apply State.setWarn_same)

theorem State.bootError_same {m : Component → Bool} {a s : State} (h : Same m a s) (aa : Nat)
    (n_regs : m .regs = false) (n_flt : m .flt = false) (n_chk : m .chk = false) (n_mm : m .mm = false) :
    Same m a (State.bootError s aa) := by
  unfold State.bootError
  repeat' first
    | (with_reducible first | assumption | refine Same.ite ?_ ?_)
    | (lift_lets; intro kx; refine Same.step (m := m) (a := a) (x := kx) ?_ fun hkx => ?_)
    | (lift_lets; intro kx)
    | (simp only [Same.mk_iff]; apply SameF.of; all_goals first
        | with_reducible exact Off.refl | exact Off.no (by assumption) | skip)
    | (with_reducible first
        | apply State.poisonAt_same | apply State.emit_same | apply State.bumpEcc_same | apply State.applyCause_same)
    | (simp only [kx, Same.mk_iff]; apply SameF.of; all_goals first
        | with_reducible exact Off.refl | exact Off.no (by assumption) | skip)
    | (with_reducible first
        | refine Same.foldl ?_ fun kb ky hkb => ?_ | refine Same.foldl_snd ?_ fun kb ky hkb => ?_
        | refine Same.foldl_fst ?_ fun kb ky hkb => ?_)
    | split
    | (with_reducible first
        | refine Same.of_snd (by assumption) ?_ | refine Same.of_fst (by assumption) ?_
        | refine Same.of_third (by assumption) ?_)
    | dsimp only
    | unfold kx

theorem State.bootErrors_same {m : Component → Bool} {a s : State} (h : Same m a s) (es : List (Nat × Bool))
    (n_regs : m .regs = false) (n_links : m .links = false) (n_crossings : m .crossings = false)
    (n_cfg : m .cfg = false) (n_flt : m .flt = false) (n_chk : m .chk = false) (n_mm : m .mm = false)
    (n_hub : m .hub = false) (n_fleet : m .fleet = false) (n_dense : m .dense = false) (n_emb : m .emb = false)
    (n_det : m .det = false) :
    Same m a (State.bootErrors s es) := by
  unfold State.bootErrors
  repeat' first
    | (with_reducible first | assumption | refine Same.ite ?_ ?_)
    | (lift_lets; intro kx; refine Same.step (m := m) (a := a) (x := kx) ?_ fun hkx => ?_)
    | (lift_lets; intro kx)
    | (simp only [Same.mk_iff]; apply SameF.of; all_goals first
        | with_reducible exact Off.refl | exact Off.no (by assumption) | skip)
    | (with_reducible first | apply State.loseDie_same | apply State.resetStacks_same | apply State.bootError_same)
    | (simp only [kx, Same.mk_iff]; apply SameF.of; all_goals first
        | with_reducible exact Off.refl | exact Off.no (by assumption) | skip)
    | (with_reducible first
        | refine Same.foldl ?_ fun kb ky hkb => ?_ | refine Same.foldl_snd ?_ fun kb ky hkb => ?_
        | refine Same.foldl_fst ?_ fun kb ky hkb => ?_)
    | split
    | (with_reducible first
        | refine Same.of_snd (by assumption) ?_ | refine Same.of_fst (by assumption) ?_
        | refine Same.of_third (by assumption) ?_)
    | dsimp only
    | unfold kx

theorem State.bootDies_same {m : Component → Bool} {a s : State} (h : Same m a s) (n_regs : m .regs = false)
    (n_links : m .links = false) (n_crossings : m .crossings = false) (n_cfg : m .cfg = false)
    (n_flt : m .flt = false) (n_chk : m .chk = false) (n_hub : m .hub = false) (n_fleet : m .fleet = false)
    (n_dense : m .dense = false) (n_emb : m .emb = false) (n_det : m .det = false) :
    Same m a (State.bootDies s) := by
  unfold State.bootDies
  repeat' first
    | with_reducible assumption
    | (simp only [Same.mk_iff]; apply SameF.of; all_goals first
        | with_reducible exact Off.refl | exact Off.no (by assumption) | skip)
    | (with_reducible first
        | apply State.rebuildMaps_same | apply State.retireDue_same | apply State.parentRule_same
        | apply State.loseEmptyDies_same | refine Same.foldl ?_ fun kb ky hkb => ?_)

theorem State.bootScreen_same {m : Component → Bool} {a s : State} (h : Same m a s) (fails : List Nat)
    (n_fresh : m .fresh = false) (n_regs : m .regs = false) (n_links : m .links = false)
    (n_crossings : m .crossings = false) (n_cfg : m .cfg = false) (n_flt : m .flt = false) (n_chk : m .chk = false)
    (n_hub : m .hub = false) (n_fleet : m .fleet = false) (n_dense : m .dense = false) (n_emb : m .emb = false)
    (n_det : m .det = false) :
    Same m a (State.bootScreen s fails) := by
  unfold State.bootScreen
  repeat' first
    | (with_reducible first | assumption | refine Same.ite ?_ ?_)
    | (lift_lets; intro kx; refine Same.step (m := m) (a := a) (x := kx) ?_ fun hkx => ?_)
    | (lift_lets; intro kx)
    | (simp only [Same.mk_iff]; apply SameF.of; all_goals first
        | with_reducible exact Off.refl | exact Off.no (by assumption) | skip)
    | (with_reducible first
        | apply State.rebuild_same | apply State.massScreen_same | apply State.screenMoved_same
        | apply State.loseEmptyDies_same | apply State.setWarn_same)
    | (simp only [kx, Same.mk_iff]; apply SameF.of; all_goals first
        | with_reducible exact Off.refl | exact Off.no (by assumption) | skip)
    | (with_reducible first
        | refine Same.foldl ?_ fun kb ky hkb => ?_ | refine Same.foldl_snd ?_ fun kb ky hkb => ?_
        | refine Same.foldl_fst ?_ fun kb ky hkb => ?_)
    | split
    | (with_reducible first
        | refine Same.of_snd (by assumption) ?_ | refine Same.of_fst (by assumption) ?_
        | refine Same.of_third (by assumption) ?_)
    | dsimp only
    | unfold kx

theorem State.joinAll_same {m : Component → Bool} {a s : State} (h : Same m a s) (n_regs : m .regs = false)
    (n_hub : m .hub = false) (n_fleet : m .fleet = false) :
    Same m a (State.joinAll s) := by
  unfold State.joinAll
  repeat' first
    | (with_reducible first | assumption | refine Same.ite ?_ ?_)
    | (lift_lets; intro kx; refine Same.step (m := m) (a := a) (x := kx) ?_ fun hkx => ?_)
    | (lift_lets; intro kx)
    | (simp only [Same.mk_iff]; apply SameF.of; all_goals first
        | with_reducible exact Off.refl | exact Off.no (by assumption) | skip)
    | with_reducible apply State.sendJoin_same
    | (simp only [kx, Same.mk_iff]; apply SameF.of; all_goals first
        | with_reducible exact Off.refl | exact Off.no (by assumption) | skip)
    | (with_reducible first
        | refine Same.foldl ?_ fun kb ky hkb => ?_ | refine Same.foldl_snd ?_ fun kb ky hkb => ?_
        | refine Same.foldl_fst ?_ fun kb ky hkb => ?_)
    | split
    | (with_reducible first
        | refine Same.of_snd (by assumption) ?_ | refine Same.of_fst (by assumption) ?_
        | refine Same.of_third (by assumption) ?_)
    | dsimp only
    | unfold kx

theorem State.bootReady_same {m : Component → Bool} {a s : State} (h : Same m a s) (ms : Nat)
    (n_regs : m .regs = false) (n_pkg : m .pkg = false) (n_hub : m .hub = false) (n_fleet : m .fleet = false) :
    Same m a (State.bootReady s ms) := by
  unfold State.bootReady
  repeat' first
    | (with_reducible first | assumption | refine Same.ite ?_ ?_)
    | (lift_lets; intro kx; refine Same.step (m := m) (a := a) (x := kx) ?_ fun hkx => ?_)
    | (lift_lets; intro kx)
    | (simp only [Same.mk_iff]; apply SameF.of; all_goals first
        | with_reducible exact Off.refl | exact Off.no (by assumption) | skip)
    | (with_reducible first | apply State.setFld_same | apply State.noteStalled_same | apply State.joinAll_same)
    | (simp only [kx, Same.mk_iff]; apply SameF.of; all_goals first
        | with_reducible exact Off.refl | exact Off.no (by assumption) | skip)
    | (with_reducible first
        | refine Same.foldl ?_ fun kb ky hkb => ?_ | refine Same.foldl_snd ?_ fun kb ky hkb => ?_
        | refine Same.foldl_fst ?_ fun kb ky hkb => ?_)
    | split
    | (with_reducible first
        | refine Same.of_snd (by assumption) ?_ | refine Same.of_fst (by assumption) ?_
        | refine Same.of_third (by assumption) ?_)
    | dsimp only
    | unfold kx

theorem State.bootPhase_same {m : Component → Bool} {a s : State} (h : Same m a s) (o : BootOutcome) (p : Nat)
    (n_fresh : m .fresh = false) (n_regs : m .regs = false) (n_shadow : m .shadow = false) (n_mem : m .mem = false)
    (n_pkg : m .pkg = false) (n_links : m .links = false) (n_crossings : m .crossings = false)
    (n_cfg : m .cfg = false) (n_flt : m .flt = false) (n_chk : m .chk = false) (n_mm : m .mm = false)
    (n_hub : m .hub = false) (n_fleet : m .fleet = false) (n_dense : m .dense = false) (n_emb : m .emb = false)
    (n_wire : m .wire = false) (n_sec : m .sec = false) (n_det : m .det = false) (n_time : m .time = false) :
    Same m a (State.bootPhase s o p) := by
  unfold State.bootPhase
  repeat' first
    | (with_reducible first | assumption | refine Same.ite ?_ ?_)
    | (lift_lets; intro kx; refine Same.step (m := m) (a := a) (x := kx) ?_ fun hkx => ?_)
    | (lift_lets; intro kx)
    | (simp only [Same.mk_iff]; apply SameF.of; all_goals first
        | with_reducible exact Off.refl | exact Off.no (by assumption) | skip)
    | (with_reducible first
        | apply State.bootPll_same | apply State.bootRom_same | apply State.bootFirmware_same
        | apply State.bootDripstone_same | apply State.bootKeys_same | apply State.bootPack_same
        | apply State.bootRecord_same | apply State.bootObcor_same | apply State.bootLinks_same
        | apply State.bootStack_same | apply State.bootTier2_same | apply State.bootErrors_same
        | apply State.bootDies_same | apply State.bootScreen_same)
    | (simp only [kx, Same.mk_iff]; apply SameF.of; all_goals first
        | with_reducible exact Off.refl | exact Off.no (by assumption) | skip)
    | (with_reducible first
        | refine Same.foldl ?_ fun kb ky hkb => ?_ | refine Same.foldl_snd ?_ fun kb ky hkb => ?_
        | refine Same.foldl_fst ?_ fun kb ky hkb => ?_)
    | split
    | (with_reducible first
        | refine Same.of_snd (by assumption) ?_ | refine Same.of_fst (by assumption) ?_
        | refine Same.of_third (by assumption) ?_)
    | dsimp only
    | unfold kx

theorem State.runPhase_same {m : Component → Bool} {a s : State} (h : Same m a s) (o : BootOutcome) (p : Nat)
    (n_fresh : m .fresh = false) (n_regs : m .regs = false) (n_shadow : m .shadow = false) (n_mem : m .mem = false)
    (n_pkg : m .pkg = false) (n_links : m .links = false) (n_crossings : m .crossings = false)
    (n_cfg : m .cfg = false) (n_flt : m .flt = false) (n_chk : m .chk = false) (n_mm : m .mm = false)
    (n_hub : m .hub = false) (n_fleet : m .fleet = false) (n_dense : m .dense = false) (n_emb : m .emb = false)
    (n_wire : m .wire = false) (n_sec : m .sec = false) (n_det : m .det = false) (n_time : m .time = false) :
    Same m a (State.runPhase s o p) := by
  unfold State.runPhase
  repeat' first
    | (with_reducible first | assumption | refine Same.ite ?_ ?_)
    | (lift_lets; intro kx; refine Same.step (m := m) (a := a) (x := kx) ?_ fun hkx => ?_)
    | (lift_lets; intro kx)
    | (simp only [Same.mk_iff]; apply SameF.of; all_goals first
        | with_reducible exact Off.refl | exact Off.no (by assumption) | skip)
    | (with_reducible first | apply State.setFld_same | apply State.bootPhase_same)
    | (simp only [kx, Same.mk_iff]; apply SameF.of; all_goals first
        | with_reducible exact Off.refl | exact Off.no (by assumption) | skip)
    | (with_reducible first
        | refine Same.foldl ?_ fun kb ky hkb => ?_ | refine Same.foldl_snd ?_ fun kb ky hkb => ?_
        | refine Same.foldl_fst ?_ fun kb ky hkb => ?_)
    | split
    | (with_reducible first
        | refine Same.of_snd (by assumption) ?_ | refine Same.of_fst (by assumption) ?_
        | refine Same.of_third (by assumption) ?_)
    | dsimp only
    | unfold kx

theorem State.bootElapsed_same {m : Component → Bool} {a s : State} (h : Same m a s) (ms : Nat)
    (n_regs : m .regs = false) (n_clock : m .clock = false) :
    Same m a (State.bootElapsed s ms) := by
  unfold State.bootElapsed
  repeat' first
    | (with_reducible first | assumption | refine Same.ite ?_ ?_)
    | (lift_lets; intro kx; refine Same.step (m := m) (a := a) (x := kx) ?_ fun hkx => ?_)
    | (lift_lets; intro kx)
    | (simp only [Same.mk_iff]; apply SameF.of; all_goals first
        | with_reducible exact Off.refl | exact Off.no (by assumption) | skip)
    | with_reducible apply State.setFld_same
    | (simp only [kx, Same.mk_iff]; apply SameF.of; all_goals first
        | with_reducible exact Off.refl | exact Off.no (by assumption) | skip)
    | (with_reducible first
        | refine Same.foldl ?_ fun kb ky hkb => ?_ | refine Same.foldl_snd ?_ fun kb ky hkb => ?_
        | refine Same.foldl_fst ?_ fun kb ky hkb => ?_)
    | split
    | (with_reducible first
        | refine Same.of_snd (by assumption) ?_ | refine Same.of_fst (by assumption) ?_
        | refine Same.of_third (by assumption) ?_)
    | dsimp only
    | unfold kx

theorem State.sampleMode_same {m : Component → Bool} {a s : State} (h : Same m a s) (root : Bool)
    (n_regs : m .regs = false) (n_pkg : m .pkg = false) :
    Same m a (State.sampleMode s root) := by
  unfold State.sampleMode
  repeat' first
    | (with_reducible first | assumption | refine Same.ite ?_ ?_)
    | (lift_lets; intro kx; refine Same.step (m := m) (a := a) (x := kx) ?_ fun hkx => ?_)
    | (lift_lets; intro kx)
    | (simp only [Same.mk_iff]; apply SameF.of; all_goals first
        | with_reducible exact Off.refl | exact Off.no (by assumption) | skip)
    | with_reducible apply State.strapRoot_same
    | (simp only [kx, Same.mk_iff]; apply SameF.of; all_goals first
        | with_reducible exact Off.refl | exact Off.no (by assumption) | skip)
    | (with_reducible first
        | refine Same.foldl ?_ fun kb ky hkb => ?_ | refine Same.foldl_snd ?_ fun kb ky hkb => ?_
        | refine Same.foldl_fst ?_ fun kb ky hkb => ?_)
    | split
    | (with_reducible first
        | refine Same.of_snd (by assumption) ?_ | refine Same.of_fst (by assumption) ?_
        | refine Same.of_third (by assumption) ?_)
    | dsimp only
    | unfold kx

theorem State.raiseBalls_same {m : Component → Bool} {a s : State} (h : Same m a s) (o : BootOutcome)
    (n_pkg : m .pkg = false) :
    Same m a (State.raiseBalls s o) := by
  unfold State.raiseBalls
  repeat' first
    | (with_reducible first | assumption | refine Same.ite ?_ ?_)
    | (lift_lets; intro kx; refine Same.step (m := m) (a := a) (x := kx) ?_ fun hkx => ?_)
    | (lift_lets; intro kx)
    | (simp only [Same.mk_iff]; apply SameF.of; all_goals first
        | with_reducible exact Off.refl | exact Off.no (by assumption) | skip)
    | (simp only [kx, Same.mk_iff]; apply SameF.of; all_goals first
        | with_reducible exact Off.refl | exact Off.no (by assumption) | skip)
    | (with_reducible first
        | refine Same.foldl ?_ fun kb ky hkb => ?_ | refine Same.foldl_snd ?_ fun kb ky hkb => ?_
        | refine Same.foldl_fst ?_ fun kb ky hkb => ?_)
    | split
    | (with_reducible first
        | refine Same.of_snd (by assumption) ?_ | refine Same.of_fst (by assumption) ?_
        | refine Same.of_third (by assumption) ?_)
    | dsimp only
    | unfold kx

theorem State.startup_same {m : Component → Bool} {a s : State} (h : Same m a s) (o : BootOutcome)
    (n_fresh : m .fresh = false) (n_regs : m .regs = false) (n_shadow : m .shadow = false) (n_mem : m .mem = false)
    (n_pkg : m .pkg = false) (n_links : m .links = false) (n_crossings : m .crossings = false)
    (n_cfg : m .cfg = false) (n_flt : m .flt = false) (n_chk : m .chk = false) (n_mm : m .mm = false)
    (n_hub : m .hub = false) (n_fleet : m .fleet = false) (n_clock : m .clock = false) (n_dense : m .dense = false)
    (n_emb : m .emb = false) (n_wire : m .wire = false) (n_sec : m .sec = false) (n_det : m .det = false)
    (n_time : m .time = false) :
    Same m a (State.startup s o) := by
  unfold State.startup
  repeat' first
    | (with_reducible first | assumption | refine Same.ite ?_ ?_)
    | (lift_lets; intro kx; refine Same.step (m := m) (a := a) (x := kx) ?_ fun hkx => ?_)
    | (lift_lets; intro kx)
    | (simp only [Same.mk_iff]; apply SameF.of; all_goals first
        | with_reducible exact Off.refl | exact Off.no (by assumption) | skip)
    | (with_reducible first
        | apply State.bootReady_same | apply State.runPhase_same | apply State.bootElapsed_same
        | apply State.sampleMode_same | apply State.raiseBalls_same)
    | (simp only [kx, Same.mk_iff]; apply SameF.of; all_goals first
        | with_reducible exact Off.refl | exact Off.no (by assumption) | skip)
    | (with_reducible first
        | refine Same.foldl ?_ fun kb ky hkb => ?_ | refine Same.foldl_snd ?_ fun kb ky hkb => ?_
        | refine Same.foldl_fst ?_ fun kb ky hkb => ?_)
    | split
    | (with_reducible first
        | refine Same.of_snd (by assumption) ?_ | refine Same.of_fst (by assumption) ?_
        | refine Same.of_third (by assumption) ?_)
    | dsimp only
    | unfold kx

theorem execStartup_same {m : Component → Bool} {a s : State} (h : Same m a s) (outcome : BootOutcome)
    (n_fresh : m .fresh = false) (n_regs : m .regs = false) (n_shadow : m .shadow = false) (n_mem : m .mem = false)
    (n_pkg : m .pkg = false) (n_links : m .links = false) (n_crossings : m .crossings = false)
    (n_cfg : m .cfg = false) (n_flt : m .flt = false) (n_chk : m .chk = false) (n_mm : m .mm = false)
    (n_hub : m .hub = false) (n_fleet : m .fleet = false) (n_clock : m .clock = false) (n_dense : m .dense = false)
    (n_emb : m .emb = false) (n_wire : m .wire = false) (n_sec : m .sec = false) (n_det : m .det = false)
    (n_time : m .time = false) {kt : State} (ke : execStartup outcome s = .next kt) :
    Same m a kt := by
  unfold execStartup at ke
  refine Same.of_done ke ?_
  repeat' (with_reducible first | assumption | refine Same.ite ?_ ?_ | apply State.startup_same)

end Sys2Proof.Machine
end

