-- ==== Sys2Proof/Laws/SameRegisterWrite.lean ====
section
/-! SUPPORT. What the operations of Machine/RegisterWrite.lean leave alone (`Same`). -/

set_option linter.unusedSimpArgs false

namespace Sys2Proof.Machine

theorem State.writeFields_same {m : Component → Bool} {a s : State} (h : Same m a s) (k : RegKind) (off : Nat)
    (v : Nat) (n_regs : m .regs = false) (n_shadow : m .shadow = false) :
    Same m a (State.writeFields s k off v) := by
  unfold State.writeFields
  repeat' first
    | (with_reducible first
        | assumption | refine Same.ite ?_ ?_ | apply State.setReg_same | apply State.setShadow_same)

theorem State.runCtrl_same {m : Component → Bool} {a s : State} (h : Same m a s) (v : Word)
    (n_fresh : m .fresh = false) (n_regs : m .regs = false) (n_mem : m .mem = false) (n_links : m .links = false)
    (n_crossings : m .crossings = false) (n_cfg : m .cfg = false) (n_flt : m .flt = false) (n_chk : m .chk = false)
    (n_mm : m .mm = false) (n_hub : m .hub = false) (n_fleet : m .fleet = false) (n_dense : m .dense = false)
    (n_emb : m .emb = false) (n_wire : m .wire = false) (n_det : m .det = false) (n_time : m .time = false) :
    Same m a (State.runCtrl s v) := by
  unfold State.runCtrl
  repeat' first
    | (with_reducible first | assumption | refine Same.ite ?_ ?_)
    | (lift_lets; intro kx)
    | (with_reducible first
        | apply State.onSteward_same | apply State.setLimit_same | apply State.runStart_same
        | apply State.runStop_same | apply State.runAbort_same)

theorem State.loadCtrl_same {m : Component → Bool} {a s : State} (h : Same m a s) (k : RegKind) (off : Nat)
    (v : Word) (n_regs : m .regs = false) (n_shadow : m .shadow = false) (n_mem : m .mem = false)
    (n_crossings : m .crossings = false) (n_cfg : m .cfg = false) (n_flt : m .flt = false) (n_chk : m .chk = false)
    (n_mm : m .mm = false) (n_hub : m .hub = false) (n_dense : m .dense = false) (n_emb : m .emb = false)
    (n_wire : m .wire = false) (n_time : m .time = false) :
    Same m a (State.loadCtrl s k off v) := by
  unfold State.loadCtrl
  repeat' first
    | (with_reducible first | assumption | refine Same.ite ?_ ?_)
    | (lift_lets; intro kx)
    | (with_reducible first
        | apply State.onSteward_same | apply State.loadRequest_same | apply State.writeFields_same)

theorem State.ringField_same {m : Component → Bool} {a s : State} (h : Same m a s) (off : Nat) (v : Nat)
    (n_hub : m .hub = false) :
    Same m a (State.ringField s off v) := by
  unfold State.ringField
  repeat' first
    | (with_reducible first | assumption | refine Same.ite ?_ ?_ | apply State.setRing_same)
    | split

theorem State.ringCfg_same {m : Component → Bool} {a s : State} (h : Same m a s) (v : Nat) (n_hub : m .hub = false) :
    Same m a (State.ringCfg s v) := by
  unfold State.ringCfg
  repeat' first
    | (with_reducible first | assumption | apply State.ringConfigure_same | apply State.ringDisable_same)
    | split

theorem State.resetCtrl_same {m : Component → Bool} {a s : State} (h : Same m a s) (ag : Agent) (v : Nat)
    (n_fresh : m .fresh = false) (n_regs : m .regs = false) (n_shadow : m .shadow = false)
    (n_response : m .response = false) (n_mem : m .mem = false) (n_pkg : m .pkg = false)
    (n_links : m .links = false) (n_crossings : m .crossings = false) (n_cfg : m .cfg = false)
    (n_flt : m .flt = false) (n_chk : m .chk = false) (n_mm : m .mm = false) (n_hub : m .hub = false)
    (n_fleet : m .fleet = false) (n_clock : m .clock = false) (n_dense : m .dense = false) (n_emb : m .emb = false)
    (n_wire : m .wire = false) (n_sec : m .sec = false) (n_det : m .det = false) (n_time : m .time = false)
    (n_pwr : m .pwr = false) (n_mtr : m .mtr = false) :
    Same m a (State.resetCtrl s ag v) := by
  unfold State.resetCtrl
  repeat' first
    | (with_reducible first | assumption | refine Same.ite ?_ ?_)
    | (lift_lets; intro kx; refine Same.step (m := m) (a := a) (x := kx) ?_ fun hkx => ?_)
    | (lift_lets; intro kx)
    | (simp only [Same.mk_iff]; apply SameF.of; all_goals first
        | with_reducible exact Off.refl | exact Off.no (by assumption) | skip)
    | (with_reducible first
        | apply State.resetRegs_same | apply State.strapRoot_same | apply State.packageReset_same
        | apply State.coresReset_same)
    | (simp only [kx, Same.mk_iff]; apply SameF.of; all_goals first
        | with_reducible exact Off.refl | exact Off.no (by assumption) | skip)
    | (with_reducible first
        | refine Same.foldl ?_ fun kb ky hkb => ?_ | refine Same.foldl_snd ?_ fun kb ky hkb => ?_
        | refine Same.foldl_fst ?_ fun kb ky hkb => ?_)
    | split
    | (with_reducible first
        | refine Same.of_snd (by assumption) ?_ | refine Same.of_fst (by assumption) ?_
        | refine Same.of_third (by assumption) ?_)
    | dsimp only
    | unfold kx

theorem State.setNs_same {m : Component → Bool} {a s : State} (h : Same m a s) (v : Word) (n_regs : m .regs = false)
    (n_time : m .time = false) :
    Same m a (State.setNs s v) := by
  unfold State.setNs
  repeat' (with_reducible first | assumption | refine Same.ite ?_ ?_ | apply State.setFld_same | apply State.timeSet_same)

theorem State.onGo_same {m : Component → Bool} {a s : State} (h : Same m a s) (v : Word) (f : State → State)
    (k : Same m a s → Same m a (f s)) : Same m a (s.onGo v f) := by
  unfold State.onGo; split
  · exact k h
  · exact h

theorem State.writeActive_same {m : Component → Bool} {a s : State} (h : Same m a s) (k : RegKind) (off : Nat)
    (v : Word) (n_fresh : m .fresh = false) (n_regs : m .regs = false) (n_shadow : m .shadow = false)
    (n_response : m .response = false) (n_mem : m .mem = false) (n_links : m .links = false)
    (n_crossings : m .crossings = false) (n_cfg : m .cfg = false) (n_flt : m .flt = false) (n_chk : m .chk = false)
    (n_mm : m .mm = false) (n_hub : m .hub = false) (n_fleet : m .fleet = false) (n_dense : m .dense = false)
    (n_emb : m .emb = false) (n_wire : m .wire = false) (n_sec : m .sec = false) (n_det : m .det = false)
    (n_time : m .time = false) :
    Same m a (State.writeActive s k off v) := by
  unfold State.writeActive
  repeat' first
    | (with_reducible first | assumption | refine Same.ite ?_ ?_)
    | (lift_lets; intro kx)
    | (with_reducible first
        | apply State.onSteward_same | apply State.bankSwap_same | apply State.bankDataAccess_same
        | apply State.flowFlush_same | apply State.ntsRequest_same | apply State.snapRequest_same
        | apply State.timeStep_same | apply State.rateWrite_same | apply State.commitRequest_same
        | apply State.unitCmd_same | apply State.errTailWrite_same | apply State.traceTailWrite_same
        | apply State.packInstall_same | apply State.routeWrite_same | apply State.rpCfg_same | apply State.rearm_same
        | apply State.fuseCmd_same | apply State.writeFields_same | apply State.runCtrl_same
        | apply State.loadCtrl_same | apply State.ringField_same | apply State.ringCfg_same | apply State.setNs_same
        | apply State.onGo_same)

theorem State.earlyWrite_same {m : Component → Bool} {a s : State} (h : Same m a s) (k : RegKind) (off : Nat)
    (v : Word) (n_fresh : m .fresh = false) (n_regs : m .regs = false) (n_shadow : m .shadow = false)
    (n_mem : m .mem = false) (n_crossings : m .crossings = false) (n_cfg : m .cfg = false) (n_flt : m .flt = false)
    (n_chk : m .chk = false) (n_mm : m .mm = false) (n_hub : m .hub = false) (n_fleet : m .fleet = false)
    (n_dense : m .dense = false) (n_emb : m .emb = false) (n_wire : m .wire = false) (n_det : m .det = false)
    (n_time : m .time = false) :
    Same m a (State.earlyWrite s k off v) := by
  unfold State.earlyWrite
  repeat' first
    | (with_reducible first | assumption | refine Same.ite ?_ ?_)
    | (lift_lets; intro kx)
    | (with_reducible first
        | apply State.onSteward_same | apply State.commitRequest_same | apply State.runStart_same
        | apply State.loadCtrl_same | apply State.onGo_same)

theorem State.writeReg_same {m : Component → Bool} {a s : State} (h : Same m a s) (ag : Agent) (off : Nat)
    (v : Word) (n_fresh : m .fresh = false) (n_regs : m .regs = false) (n_shadow : m .shadow = false)
    (n_response : m .response = false) (n_mem : m .mem = false) (n_pkg : m .pkg = false)
    (n_links : m .links = false) (n_crossings : m .crossings = false) (n_cfg : m .cfg = false)
    (n_flt : m .flt = false) (n_chk : m .chk = false) (n_mm : m .mm = false) (n_hub : m .hub = false)
    (n_fleet : m .fleet = false) (n_clock : m .clock = false) (n_dense : m .dense = false) (n_emb : m .emb = false)
    (n_wire : m .wire = false) (n_sec : m .sec = false) (n_det : m .det = false) (n_time : m .time = false)
    (n_pwr : m .pwr = false) (n_mtr : m .mtr = false) :
    Same m a (State.writeReg s ag off v) := by
  unfold State.writeReg
  repeat' first
    | (with_reducible first | assumption | refine Same.ite ?_ ?_)
    | (lift_lets; intro kx; refine Same.step (m := m) (a := a) (x := kx) ?_ fun hkx => ?_)
    | (lift_lets; intro kx)
    | (simp only [Same.mk_iff]; apply SameF.of; all_goals first
        | with_reducible exact Off.refl | exact Off.no (by assumption) | skip)
    | (with_reducible first
        | apply State.keyDataAccess_same | apply State.writeFields_same | apply State.resetCtrl_same
        | apply State.writeActive_same | apply State.earlyWrite_same)
    | (simp only [kx, Same.mk_iff]; apply SameF.of; all_goals first
        | with_reducible exact Off.refl | exact Off.no (by assumption) | skip)
    | (with_reducible first
        | refine Same.foldl ?_ fun kb ky hkb => ?_ | refine Same.foldl_snd ?_ fun kb ky hkb => ?_
        | refine Same.foldl_fst ?_ fun kb ky hkb => ?_)
    | split
    | (with_reducible first
        | refine Same.of_snd (by assumption) ?_ | refine Same.of_fst (by assumption) ?_
        | refine Same.of_third (by assumption) ?_)
    | dsimp only
    | unfold kx

theorem State.busWrite_same {m : Component → Bool} {a s : State} (h : Same m a s) (ag : Agent) (aa : Nat)
    (size : Nat) (v : Word) (n_fresh : m .fresh = false) (n_regs : m .regs = false) (n_shadow : m .shadow = false)
    (n_response : m .response = false) (n_mem : m .mem = false) (n_pkg : m .pkg = false)
    (n_links : m .links = false) (n_crossings : m .crossings = false) (n_cfg : m .cfg = false)
    (n_flt : m .flt = false) (n_chk : m .chk = false) (n_mm : m .mm = false) (n_hub : m .hub = false)
    (n_fleet : m .fleet = false) (n_clock : m .clock = false) (n_dense : m .dense = false) (n_emb : m .emb = false)
    (n_wire : m .wire = false) (n_sec : m .sec = false) (n_det : m .det = false) (n_time : m .time = false)
    (n_pwr : m .pwr = false) (n_mtr : m .mtr = false) :
    Same m a (State.busWrite s ag aa size v) := by
  unfold State.busWrite
  repeat' first
    | (with_reducible first | assumption | refine Same.ite ?_ ?_)
    | (lift_lets; intro kx; refine Same.step (m := m) (a := a) (x := kx) ?_ fun hkx => ?_)
    | (lift_lets; intro kx)
    | (simp only [Same.mk_iff]; apply SameF.of; all_goals first
        | with_reducible exact Off.refl | exact Off.no (by assumption) | skip)
    | (with_reducible first | apply State.respond_same | apply State.agentWrite_same | apply State.writeReg_same)
    | (simp only [kx, Same.mk_iff]; apply SameF.of; all_goals first
        | with_reducible exact Off.refl | exact Off.no (by assumption) | skip)
    | (with_reducible first
        | refine Same.foldl ?_ fun kb ky hkb => ?_ | refine Same.foldl_snd ?_ fun kb ky hkb => ?_
        | refine Same.foldl_fst ?_ fun kb ky hkb => ?_)
    | split
    | (with_reducible first
        | refine Same.of_snd (by assumption) ?_ | refine Same.of_fst (by assumption) ?_
        | refine Same.of_third (by assumption) ?_)
    | dsimp only
    | unfold kx

theorem execRegisterWrite_same {m : Component → Bool} {a s : State} (h : Same m a s) (agent : Agent) (addr : Addr)
    (size : Nat) (value : Word) (n_fresh : m .fresh = false) (n_regs : m .regs = false)
    (n_shadow : m .shadow = false) (n_response : m .response = false) (n_mem : m .mem = false)
    (n_pkg : m .pkg = false) (n_links : m .links = false) (n_crossings : m .crossings = false)
    (n_cfg : m .cfg = false) (n_flt : m .flt = false) (n_chk : m .chk = false) (n_mm : m .mm = false)
    (n_hub : m .hub = false) (n_fleet : m .fleet = false) (n_clock : m .clock = false) (n_dense : m .dense = false)
    (n_emb : m .emb = false) (n_wire : m .wire = false) (n_sec : m .sec = false) (n_det : m .det = false)
    (n_time : m .time = false) (n_pwr : m .pwr = false) (n_mtr : m .mtr = false) {kt : State}
    (ke : execRegisterWrite agent addr size value s = .next kt) :
    Same m a kt := by
  unfold execRegisterWrite at ke
  refine Same.of_done ke ?_
  repeat' (with_reducible first | assumption | refine Same.ite ?_ ?_ | apply State.busWrite_same)

theorem State.registerRead_same {m : Component → Bool} {a s : State} (h : Same m a s) (ag : Agent) (off : Nat)
    (n_regs : m .regs = false) (n_response : m .response = false) (n_hub : m .hub = false)
    (n_wire : m .wire = false) :
    Same m a (State.registerRead s ag off) := by
  unfold State.registerRead
  repeat' first
    | (with_reducible first | assumption | refine Same.ite ?_ ?_)
    | (lift_lets; intro kx; refine Same.step (m := m) (a := a) (x := kx) ?_ fun hkx => ?_)
    | (lift_lets; intro kx)
    | (simp only [Same.mk_iff]; apply SameF.of; all_goals first
        | with_reducible exact Off.refl | exact Off.no (by assumption) | skip)
    | (with_reducible first
        | apply State.respond_same | apply State.bankDataAccess_same | apply State.todNsRead_same
        | apply State.msiRead_same | apply State.rpCfg_same)
    | (simp only [kx, Same.mk_iff]; apply SameF.of; all_goals first
        | with_reducible exact Off.refl | exact Off.no (by assumption) | skip)
    | (with_reducible first
        | refine Same.foldl ?_ fun kb ky hkb => ?_ | refine Same.foldl_snd ?_ fun kb ky hkb => ?_
        | refine Same.foldl_fst ?_ fun kb ky hkb => ?_)
    | split
    | (with_reducible first
        | refine Same.of_snd (by assumption) ?_ | refine Same.of_fst (by assumption) ?_
        | refine Same.of_third (by assumption) ?_)
    | dsimp only
    | unfold kx

theorem State.busRead_same {m : Component → Bool} {a s : State} (h : Same m a s) (ag : Agent) (aa : Nat) (n : Nat)
    (es : List MemError) (n_fresh : m .fresh = false) (n_regs : m .regs = false) (n_response : m .response = false)
    (n_cfg : m .cfg = false) (n_flt : m .flt = false) (n_chk : m .chk = false) (n_mm : m .mm = false)
    (n_hub : m .hub = false) (n_fleet : m .fleet = false) (n_wire : m .wire = false) :
    Same m a (State.busRead s ag aa n es) := by
  unfold State.busRead
  repeat' first
    | (with_reducible first | assumption | refine Same.ite ?_ ?_)
    | (lift_lets; intro kx; refine Same.step (m := m) (a := a) (x := kx) ?_ fun hkx => ?_)
    | (lift_lets; intro kx)
    | (simp only [Same.mk_iff]; apply SameF.of; all_goals first
        | with_reducible exact Off.refl | exact Off.no (by assumption) | skip)
    | (with_reducible first | apply State.respond_same | apply State.memoryRead_same | apply State.registerRead_same)
    | (simp only [kx, Same.mk_iff]; apply SameF.of; all_goals first
        | with_reducible exact Off.refl | exact Off.no (by assumption) | skip)
    | (with_reducible first
        | refine Same.foldl ?_ fun kb ky hkb => ?_ | refine Same.foldl_snd ?_ fun kb ky hkb => ?_
        | refine Same.foldl_fst ?_ fun kb ky hkb => ?_)
    | split
    | (with_reducible first
        | refine Same.of_snd (by assumption) ?_ | refine Same.of_fst (by assumption) ?_
        | refine Same.of_third (by assumption) ?_)
    | dsimp only
    | unfold kx

theorem State.bar4Access_same {m : Component → Bool} {a s : State} (h : Same m a s) (off : Nat) (size : Nat)
    (w : Option (List Byte)) (n_response : m .response = false) (n_hub : m .hub = false) :
    Same m a (State.bar4Access s off size w) := by
  unfold State.bar4Access
  repeat' first
    | (with_reducible first | assumption | refine Same.ite ?_ ?_)
    | (lift_lets; intro kx; refine Same.step (m := m) (a := a) (x := kx) ?_ fun hkx => ?_)
    | (lift_lets; intro kx)
    | (simp only [Same.mk_iff]; apply SameF.of; all_goals first
        | with_reducible exact Off.refl | exact Off.no (by assumption) | skip)
    | (with_reducible first | apply State.respond_same | apply State.msixWrite_same)
    | (simp only [kx, Same.mk_iff]; apply SameF.of; all_goals first
        | with_reducible exact Off.refl | exact Off.no (by assumption) | skip)
    | (with_reducible first
        | refine Same.foldl ?_ fun kb ky hkb => ?_ | refine Same.foldl_snd ?_ fun kb ky hkb => ?_
        | refine Same.foldl_fst ?_ fun kb ky hkb => ?_)
    | split
    | (with_reducible first
        | refine Same.of_snd (by assumption) ?_ | refine Same.of_fst (by assumption) ?_
        | refine Same.of_third (by assumption) ?_)
    | dsimp only
    | unfold kx

theorem State.busStore_same {m : Component → Bool} {a s : State} (h : Same m a s) (ag : Agent) (aa : Nat)
    (bs : List Byte) (bad : Bool) (n_fresh : m .fresh = false) (n_regs : m .regs = false)
    (n_shadow : m .shadow = false) (n_response : m .response = false) (n_mem : m .mem = false)
    (n_pkg : m .pkg = false) (n_links : m .links = false) (n_crossings : m .crossings = false)
    (n_cfg : m .cfg = false) (n_flt : m .flt = false) (n_chk : m .chk = false) (n_mm : m .mm = false)
    (n_hub : m .hub = false) (n_fleet : m .fleet = false) (n_clock : m .clock = false) (n_dense : m .dense = false)
    (n_emb : m .emb = false) (n_wire : m .wire = false) (n_sec : m .sec = false) (n_det : m .det = false)
    (n_time : m .time = false) (n_pwr : m .pwr = false) (n_mtr : m .mtr = false) :
    Same m a (State.busStore s ag aa bs bad) := by
  unfold State.busStore
  repeat' first
    | (with_reducible first | assumption | refine Same.ite ?_ ?_)
    | (lift_lets; intro kx; refine Same.step (m := m) (a := a) (x := kx) ?_ fun hkx => ?_)
    | (lift_lets; intro kx)
    | (simp only [Same.mk_iff]; apply SameF.of; all_goals first
        | with_reducible exact Off.refl | exact Off.no (by assumption) | skip)
    | (with_reducible first | apply State.respond_same | apply State.agentWrite_same | apply State.busWrite_same)
    | (simp only [kx, Same.mk_iff]; apply SameF.of; all_goals first
        | with_reducible exact Off.refl | exact Off.no (by assumption) | skip)
    | (with_reducible first
        | refine Same.foldl ?_ fun kb ky hkb => ?_ | refine Same.foldl_snd ?_ fun kb ky hkb => ?_
        | refine Same.foldl_fst ?_ fun kb ky hkb => ?_)
    | split
    | (with_reducible first
        | refine Same.of_snd (by assumption) ?_ | refine Same.of_fst (by assumption) ?_
        | refine Same.of_third (by assumption) ?_)
    | dsimp only
    | unfold kx

theorem execProtectedWrite_same {m : Component → Bool} {a s : State} (h : Same m a s) (agent : Agent) (addr : Addr)
    (data : StoreData) (n_fresh : m .fresh = false) (n_regs : m .regs = false) (n_shadow : m .shadow = false)
    (n_response : m .response = false) (n_mem : m .mem = false) (n_pkg : m .pkg = false)
    (n_links : m .links = false) (n_crossings : m .crossings = false) (n_cfg : m .cfg = false)
    (n_flt : m .flt = false) (n_chk : m .chk = false) (n_mm : m .mm = false) (n_hub : m .hub = false)
    (n_fleet : m .fleet = false) (n_clock : m .clock = false) (n_dense : m .dense = false) (n_emb : m .emb = false)
    (n_wire : m .wire = false) (n_sec : m .sec = false) (n_det : m .det = false) (n_time : m .time = false)
    (n_pwr : m .pwr = false) (n_mtr : m .mtr = false) {kt : State}
    (ke : execProtectedWrite agent addr data s = .next kt) :
    Same m a kt := by
  unfold execProtectedWrite at ke
  refine Same.of_done ke ?_
  repeat' first
    | (with_reducible first | assumption | refine Same.ite ?_ ?_)
    | (lift_lets; intro kx; refine Same.step (m := m) (a := a) (x := kx) ?_ fun hkx => ?_)
    | (lift_lets; intro kx)
    | (simp only [Same.mk_iff]; apply SameF.of; all_goals first
        | with_reducible exact Off.refl | exact Off.no (by assumption) | skip)
    | with_reducible apply State.busStore_same
    | (simp only [kx, Same.mk_iff]; apply SameF.of; all_goals first
        | with_reducible exact Off.refl | exact Off.no (by assumption) | skip)
    | (with_reducible first
        | refine Same.foldl ?_ fun kb ky hkb => ?_ | refine Same.foldl_snd ?_ fun kb ky hkb => ?_
        | refine Same.foldl_fst ?_ fun kb ky hkb => ?_)
    | split
    | (with_reducible first
        | refine Same.of_snd (by assumption) ?_ | refine Same.of_fst (by assumption) ?_
        | refine Same.of_third (by assumption) ?_)
    | dsimp only
    | unfold kx

theorem State.configAccess_same {m : Component → Bool} {a s : State} (h : Same m a s) (off : Nat) (size : Nat)
    (w : Option (List Byte)) (n_response : m .response = false) :
    Same m a (State.configAccess s off size w) := by
  unfold State.configAccess
  repeat' first
    | (with_reducible first | assumption | refine Same.ite ?_ ?_)
    | (lift_lets; intro kx; refine Same.step (m := m) (a := a) (x := kx) ?_ fun hkx => ?_)
    | (lift_lets; intro kx)
    | (simp only [Same.mk_iff]; apply SameF.of; all_goals first
        | with_reducible exact Off.refl | exact Off.no (by assumption) | skip)
    | with_reducible apply State.respond_same
    | (simp only [kx, Same.mk_iff]; apply SameF.of; all_goals first
        | with_reducible exact Off.refl | exact Off.no (by assumption) | skip)
    | (with_reducible first
        | refine Same.foldl ?_ fun kb ky hkb => ?_ | refine Same.foldl_snd ?_ fun kb ky hkb => ?_
        | refine Same.foldl_fst ?_ fun kb ky hkb => ?_)
    | split
    | (with_reducible first
        | refine Same.of_snd (by assumption) ?_ | refine Same.of_fst (by assumption) ?_
        | refine Same.of_third (by assumption) ?_)
    | dsimp only
    | unfold kx

theorem execDieWindowAccess_same {m : Component → Bool} {a s : State} (h : Same m a s) (agent : Agent) (addr : Addr)
    (size : Nat) (access : MapAccess) (n_fresh : m .fresh = false) (n_regs : m .regs = false)
    (n_shadow : m .shadow = false) (n_response : m .response = false) (n_mem : m .mem = false)
    (n_pkg : m .pkg = false) (n_links : m .links = false) (n_crossings : m .crossings = false)
    (n_cfg : m .cfg = false) (n_flt : m .flt = false) (n_chk : m .chk = false) (n_mm : m .mm = false)
    (n_hub : m .hub = false) (n_fleet : m .fleet = false) (n_clock : m .clock = false) (n_dense : m .dense = false)
    (n_emb : m .emb = false) (n_wire : m .wire = false) (n_sec : m .sec = false) (n_det : m .det = false)
    (n_time : m .time = false) (n_pwr : m .pwr = false) (n_mtr : m .mtr = false) {kt : State}
    (ke : execDieWindowAccess agent addr size access s = .next kt) :
    Same m a kt := by
  unfold execDieWindowAccess at ke
  refine Same.of_done ke ?_
  repeat' first
    | (with_reducible first | assumption | refine Same.ite ?_ ?_)
    | (lift_lets; intro kx; refine Same.step (m := m) (a := a) (x := kx) ?_ fun hkx => ?_)
    | (lift_lets; intro kx)
    | (simp only [Same.mk_iff]; apply SameF.of; all_goals first
        | with_reducible exact Off.refl | exact Off.no (by assumption) | skip)
    | (with_reducible first
        | apply State.write_same | apply State.respond_same | apply State.busRead_same | apply State.bar4Access_same
        | apply State.busStore_same | apply State.configAccess_same)
    | (simp only [kx, Same.mk_iff]; apply SameF.of; all_goals first
        | with_reducible exact Off.refl | exact Off.no (by assumption) | skip)
    | (with_reducible first
        | refine Same.foldl ?_ fun kb ky hkb => ?_ | refine Same.foldl_snd ?_ fun kb ky hkb => ?_
        | refine Same.foldl_fst ?_ fun kb ky hkb => ?_)
    | split
    | (with_reducible first
        | refine Same.of_snd (by assumption) ?_ | refine Same.of_fst (by assumption) ?_
        | refine Same.of_third (by assumption) ?_)
    | dsimp only
    | unfold kx

end Sys2Proof.Machine
end

