-- ==== Sys2Proof/Laws/SameTick.lean ====
section
/-! SUPPORT. What the operations of Machine/Tick.lean leave alone (`Same`). -/

set_option linter.unusedSimpArgs false

namespace Sys2Proof.Machine

theorem State.advancePower_same {m : Component → Bool} {a s : State} (h : Same m a s) (n_regs : m .regs = false)
    (n_pkg : m .pkg = false) :
    Same m a (State.advancePower s) := by
  unfold State.advancePower
  repeat' first
    | (with_reducible first | assumption | refine Same.ite ?_ ?_)
    | (simp only [Same.mk_iff]; apply SameF.of; all_goals first
        | with_reducible exact Off.refl | exact Off.no (by assumption) | skip)
    | with_reducible apply State.setFld_same

theorem State.countCycles_same {m : Component → Bool} {a s : State} (h : Same m a s) (n_regs : m .regs = false) :
    Same m a (State.countCycles s) := by
  unfold State.countCycles
  repeat' first
    | (with_reducible first | assumption | refine Same.ite ?_ ?_)
    | (lift_lets; intro kx; refine Same.step (m := m) (a := a) (x := kx) ?_ fun hkx => ?_)
    | (lift_lets; intro kx)
    | (simp only [Same.mk_iff]; apply SameF.of; all_goals first
        | with_reducible exact Off.refl | exact Off.no (by assumption) | skip)
    | with_reducible apply State.bump_same
    | (simp only [kx, Same.mk_iff]; apply SameF.of; all_goals first
        | with_reducible exact Off.refl | exact Off.no (by assumption) | skip)
    | (with_reducible first
        | refine Same.foldl ?_ fun kb ky hkb => ?_ | refine Same.foldl_snd ?_ fun kb ky hkb => ?_
        | refine Same.foldl_fst ?_ fun kb ky hkb => ?_)
    | split
    | (with_reducible first
        | refine Same.of_snd (by assumption) ?_ | refine Same.of_fst (by assumption) ?_
        | refine Same.of_third (by assumption) ?_)
    | dsimp only
    | unfold kx

theorem State.frameTick_same {m : Component → Bool} {a s : State} (h : Same m a s) (n_fresh : m .fresh = false)
    (n_regs : m .regs = false) (n_mem : m .mem = false) (n_crossings : m .crossings = false)
    (n_cfg : m .cfg = false) (n_flt : m .flt = false) (n_chk : m .chk = false) (n_mm : m .mm = false)
    (n_hub : m .hub = false) (n_fleet : m .fleet = false) (n_dense : m .dense = false) (n_emb : m .emb = false)
    (n_pwr : m .pwr = false) :
    Same m a (State.frameTick s) := by
  unfold State.frameTick
  repeat' first
    | (with_reducible first
        | assumption | refine Same.ite ?_ ?_ | apply State.atLaunch_same | apply State.throttleFrame_same
        | apply State.countCycles_same)

theorem State.tick_same {m : Component → Bool} {a s : State} (h : Same m a s) (n_fresh : m .fresh = false)
    (n_regs : m .regs = false) (n_shadow : m .shadow = false) (n_mem : m .mem = false) (n_pkg : m .pkg = false)
    (n_crossings : m .crossings = false) (n_cfg : m .cfg = false) (n_flt : m .flt = false) (n_chk : m .chk = false)
    (n_mm : m .mm = false) (n_hub : m .hub = false) (n_fleet : m .fleet = false) (n_clock : m .clock = false)
    (n_dense : m .dense = false) (n_emb : m .emb = false) (n_wire : m .wire = false) (n_time : m .time = false)
    (n_pwr : m .pwr = false) :
    Same m a (State.tick s) := by
  unfold State.tick
  repeat' first
    | (with_reducible first
        | assumption | refine Same.ite ?_ ?_ | apply State.stewardTake_same | apply State.advanceClock_same
        | apply State.timeTick_same | apply State.tryAssign_same | apply State.advancePower_same
        | apply State.frameTick_same)

end Sys2Proof.Machine
end

