-- ==== Sys2Proof/Laws/Services.lean ====
section
/-! SUPPORT. What the service rings' answers do. -/

namespace Sys2Proof.Machine

theorem State.reg_ringRaise_other (s : State) (cls i k : Nat) (h : k < Reg.hubIrqRoute 0) :
    (s.ringRaise cls i).reg k = s.reg k := by
  have e : ∀ (r : RingState) n, ((s.setRing cls i r).raiseIrq n).reg k = s.reg k := fun r n => by
    rw [State.reg_raiseIrq_other _ _ _ (by simp only [Reg.hubIrqRoute] at h ⊢; omega)]; rfl
  unfold State.ringRaise
  dsimp only
  split
  · split
    · exact e _ _
    · rfl
  · rw [if_pos rfl]; exact e _ _

theorem State.ringRaise_pkg (s : State) (cls i : Nat) : (s.ringRaise cls i).pkg = s.pkg := by
  have e : ∀ (r : RingState) n, ((s.setRing cls i r).raiseIrq n).pkg = s.pkg := fun r n => by
    rw [State.raiseIrq_pkg]; rfl
  unfold State.ringRaise
  dsimp only
  split
  · split
    · exact e _ _
    · rfl
  · rw [if_pos rfl]; exact e _ _

theorem State.ringRaise_ptpData (s : State) (cls i : Nat) : (s.ringRaise cls i).hub.ptpData = s.hub.ptpData := by
  have e : ∀ (r : RingState) n, ((s.setRing cls i r).raiseIrq n).hub.ptpData = s.hub.ptpData := fun r n => by
    obtain ⟨d, p, h⟩ := State.raiseIrq_hub (s.setRing cls i r) n
    exact (congrArg HubState.ptpData h).trans rfl
  unfold State.ringRaise
  dsimp only
  split
  · split
    · exact e _ _
    · rfl
  · rw [if_pos rfl]; exact e _ _

/-- What lies inside a range that the image buffer does not meet meets it neither. -/
theorem State.inImageBuffer_inside {s : State} {a n x k : Nat} (h : s.inImageBuffer a n = false) (l : a ≤ x)
    (u : x + k ≤ a + n) : s.inImageBuffer x k = false := by
  unfold State.inImageBuffer at h ⊢
  split
  · next b e =>
    simp only [e, overlaps, decide_eq_false_iff_not] at h ⊢
    omega
  · rfl

/-- The answer to the oldest request of a ring: RESULT and ARGS stand in the entry, the report count is one further. -/
theorem State.svcAnswer_oldest (s : State) (i n result : Nat) (args : List Byte) (h : (s.ring clsSvc i).done = n)
    (e : (s.ring clsSvc i).early = []) (l : args.length ≤ 48)
    (d : overlaps ((s.ring clsSvc i).entryAddr clsSvc n) 64 (s.ring clsSvc i).report 4 = false)
    (f : s.inImageBuffer ((s.ring clsSvc i).entryAddr clsSvc n) 64 = false) :
    (s.svcAnswer i n result args).byte ((s.ring clsSvc i).entryAddr clsSvc n + 3) = BitVec.ofNat 8 result ∧
    (s.svcAnswer i n result args).read ((s.ring clsSvc i).entryAddr clsSvc n + 16) args.length = args ∧
    ((s.svcAnswer i n result args).ring clsSvc i).done = (n + 1) % 2 ^ 32 ∧
    (s.svcAnswer i n result args).pkg = s.pkg ∧ (s.svcAnswer i n result args).hub.ptpData = s.hub.ptpData ∧
    ∀ k, k < Reg.hubIrqRoute 0 → (s.svcAnswer i n result args).reg k = s.reg k := by
  generalize ha : (s.ring clsSvc i).entryAddr clsSvc n = a at d f ⊢
  let x : State := ((s.write (a + 16) args).write (a + 3) (toLe 1 result))
  let y : State := x.write (a + 2) [x.byte (a + 2) ||| 1]
  have E : s.svcAnswer i n result args = y.ringComplete clsSvc i n := by
    unfold State.svcAnswer
    rw [ha]
    dsimp only
    rw [State.guardedWrite_free s (a + 16) args _ (State.inImageBuffer_inside f (by omega) (by omega)),
      State.guardedWrite_free (s.write (a + 16) args) (a + 3) (toLe 1 result) _
        (State.inImageBuffer_inside (a := a) (n := 64) f (by omega) (by rw [toLe_length]; omega)),
      State.guardedWrite_free x (a + 2) [x.byte (a + 2) ||| 1] _
        (State.inImageBuffer_inside (a := a) (n := 64) f (by omega) (by simp only [List.length_singleton]; omega))]
  have yr : y.ring clsSvc i = s.ring clsSvc i := rfl
  have yp : y.pkg = s.pkg := rfl
  have yd : y.hub.ptpData = s.hub.ptpData := rfl
  have yk : ∀ k, y.reg k = s.reg k := fun _ => rfl
  have y3 : y.byte (a + 3) = BitVec.ofNat 8 result := by
    show (x.write (a + 2) _).byte (a + 3) = _
    rw [State.byte_write_other _ _ _ _ (by simp)]
    exact State.byte_write_inside _ (a + 3) 0 (toLe 1 result) (by simp)
  have y16 : y.read (a + 16) args.length = args := by
    show (x.write (a + 2) _).read _ _ = _
    rw [State.read_write_other _ _ _ _ _ (by simp)]
    show (State.write (s.write (a + 16) args) (a + 3) _).read _ _ = _
    rw [State.read_write_other _ _ _ _ _ (by simp), State.read_write_same]
  clear_value y
  have far : ∀ b, a ≤ b → b < a + 64 → b < (s.ring clsSvc i).report ∨ (s.ring clsSvc i).report + (toLe 4 ((n + 1) % 2 ^ 32)).length ≤ b := by
    intro b h1 h2
    simp only [overlaps, decide_eq_false_iff_not, toLe_length] at d ⊢
    omega
  rw [E]
  have dn := State.ringComplete_done y clsSvc i n (by rw [yr]; exact h) (by rw [yr]; exact e)
  rw [State.ringComplete_oldest y clsSvc i n (by rw [yr]; exact h) (by rw [yr]; exact e)] at dn ⊢
  rw [yr] at dn ⊢
  generalize hz : y.setRing clsSvc i { s.ring clsSvc i with done := (n + 1) % 2 ^ 32, early := [] } = z at dn ⊢
  have zm : z.mem = y.mem := by rw [← hz]; rfl
  refine ⟨?_, ?_, dn, ?_, ?_, ?_⟩
  · rw [State.byte_congr (State.ringRaise_mem ..), State.byte_guardedWrite_other _ _ _ _ _ (far _ (by omega) (by omega)),
      ← y3]
    exact State.byte_congr zm _
  · rw [State.read_congr (State.ringRaise_mem ..)]
    refine Eq.trans (State.read_ext _ _ ?_) y16
    intro b h1 h2
    rw [State.byte_guardedWrite_other _ _ _ _ _ (far _ (by omega) (by omega))]
    exact State.byte_congr zm _
  · rw [State.ringRaise_pkg, ← yp, State.guardedWrite_pkg, ← hz]; rfl
  · rw [State.ringRaise_ptpData, ← yd, State.guardedWrite_hub, ← hz]; rfl
  · intro k hk
    rw [State.reg_ringRaise_other _ _ _ _ hk, State.reg_guardedWrite_low _ _ _ _ _ hk, ← yk, ← hz]; rfl

/-- The request that a service takes. -/
theorem State.svcRequest_eq {s : State} {i a : Nat} (h : s.svcRequest i = some a) :
    (s.ring clsSvc i).taken = (s.ring clsSvc i).done ∧
    a = (s.ring clsSvc i).entryAddr clsSvc (s.ring clsSvc i).done := by
  unfold State.svcRequest at h
  dsimp only at h
  split at h
  · next c =>
    simp only [Bool.and_eq_true, beq_iff_eq] at c
    rw [← c.2]
    exact ⟨rfl, (Option.some.inj h).symm⟩
  · exact absurd h (by simp)

/-- A service that takes its request answers it, whatever it does to the rest of the state: `t` is what it
leaves, whose image buffer does not hold the request. -/
theorem State.serve_answers {s t : State} {i a op result : Nat} {args : List Byte}
    {f : State → List Byte → Nat × List Byte × State} (h : s.svcRequest i = some a) (o : le (s.read a 2) 0 2 = op)
    (e : (s.ring clsSvc i).early = []) (d : overlaps a 64 (s.ring clsSvc i).report 4 = false) (l : args.length ≤ 48)
    (k : f (s.svcTake i) (s.read (a + 16) 48) = (result, args, t)) (r : t.ring clsSvc i = (s.svcTake i).ring clsSvc i)
    (b : t.inImageBuffer a 64 = false) :
    ∃ u, s.serve i op f = u ∧ u.byte (a + 3) = BitVec.ofNat 8 result ∧ u.read (a + 16) args.length = args ∧
      (u.ring clsSvc i).done = ((s.ring clsSvc i).done + 1) % 2 ^ 32 ∧ u.pkg = t.pkg ∧ u.hub.ptpData = t.hub.ptpData ∧
      ∀ k, k < Reg.hubIrqRoute 0 → u.reg k = t.reg k := by
  obtain ⟨h1, h2⟩ := State.svcRequest_eq h
  have E : s.serve i op f = t.svcAnswer i (s.ring clsSvc i).taken result args := by
    unfold State.serve
    rw [h]
    dsimp only
    rw [if_pos o, k]
  rw [E, h1]
  have tr : t.ring clsSvc i = { s.ring clsSvc i with taken := ((s.ring clsSvc i).taken + 1) % 2 ^ 32 } := by
    rw [r]; exact State.ring_setRing_same _ _ _ _
  have q := State.svcAnswer_oldest t i (s.ring clsSvc i).done result args (by rw [tr]) (by rw [tr]; exact e) l
  have en : (t.ring clsSvc i).entryAddr clsSvc (s.ring clsSvc i).done = a := by rw [tr, h2]; rfl
  rw [en, tr] at q
  exact ⟨_, rfl, q d b⟩

end Sys2Proof.Machine
end

