-- ==== Sys2Proof/Laws/Units.lean ====
section
/-! SUPPORT. What the operations over units do to the unit table. -/

namespace Sys2Proof.Machine

@[simp] theorem State.unit_setUnit_same (s : State) (k : Nat) (u : UnitEntry) : (s.setUnit k u).unit k = u := by
  simp [State.unit, State.setUnit]

theorem State.unit_setUnit_other (s : State) (k j : Nat) (u : UnitEntry) (h : j ≠ k) :
    (s.setUnit k u).unit j = s.unit j := by
  simp only [State.unit, State.setUnit]
  exact Tab.get_set_other _ _ h _ _

theorem State.unit_congr {s t : State} (h : s.flt.units = t.flt.units) (k : Nat) : s.unit k = t.unit k := by
  rw [State.unit, State.unit, h]

theorem State.unit_setUnit (s : State) (k j : Nat) (u : UnitEntry) :
    (s.setUnit k u).unit j = if j = k then u else s.unit j := by
  split
  · next h => rw [h, State.unit_setUnit_same]
  · next h => exact State.unit_setUnit_other _ _ _ _ h

/-- A strike lands on its unit. -/
theorem State.strike_unit (s : State) (k j : Nat) : (s.strike k).unit j =
    if j = k then { s.unit k with strikes := (s.unit k).strikes ++ [s.powerSeconds], lastStrike := s.powerSeconds,
                                  totalEvents := min ((s.unit k).totalEvents + 1) 0xFFFFFFFF }
    else s.unit j := State.unit_setUnit _ _ _ _

/-- A unit that retires is RETIRED by its rule; no other unit changes. -/
theorem State.retire_unit (s : State) (k rule j : Nat) : (s.retire k rule).unit j =
    if j = k then (if (s.unit k).state = stRetired then s.unit k else { s.unit k with state := stRetired, cause := rule })
    else s.unit j := by
  unfold State.retire
  dsimp only
  split
  · split
    · next h => rw [h]
    · rfl
  · refine Eq.trans (State.unit_congr ?_ j) (State.unit_setUnit s k j { s.unit k with state := stRetired, cause := rule })
    rw [State.emit_flt]; rfl

/-- A unit that enters Sump is in SUMP with its count; no other unit changes. -/
theorem State.enterSump_unit (s : State) (k kind rule j : Nat) : (s.enterSump k kind rule).unit j =
    if j = k then (if (s.unit k).state = stSump ∨ (s.unit k).state = stRetired then s.unit k
      else { s.unit k with state := stSump, cause := rule, sumpCount := min ((s.unit k).sumpCount + 1) 65535 })
    else s.unit j := by
  unfold State.enterSump
  dsimp only
  split
  · split
    · next h => rw [h]
    · rfl
  · refine Eq.trans (State.unit_congr ?_ j) (State.unit_setUnit s k j
      { s.unit k with state := stSump, cause := rule, sumpCount := min ((s.unit k).sumpCount + 1) 65535 })
    rw [State.emit_flt]; rfl

end Sys2Proof.Machine
end

