-- ==== Sys2Proof/Tests/Slice0.lean ====
section
/-! SUPPORT. Tests of the model: commands that no event of the package has, single steps whose results the manual gives, and for every statement with
hypotheses a state and operands that meet them together, one theorem per clause. -/

set_option Elab.async false

open Sys2Proof Sys2Proof.Machine

/-! ### Operands of a size that no event has: one for each check of `Instr.wf` -/

/-- R13: an access has 1 to 64 bytes. -/
theorem test_wf_register_write : Instr.wf (.registerWrite .core 0 65 0) = false := by decide

theorem test_wf_protected_write : Instr.wf (.protectedWrite .core 0 ⟨[], false⟩) = false := by decide

theorem test_wf_die_window_access : Instr.wf (.dieWindowAccess .core 0 2 ⟨.map, some [1], []⟩) = false := by decide

theorem test_wf_frame_parse : Instr.wf (.frameParse 0 [] ⟨false, 0, 0, none⟩) = false := by decide

theorem test_wf_obcor_data_receive : Instr.wf (.obcorDataReceive 0 ⟨0, 0, 0, 0, 0, 0, 0, []⟩) = false := by decide

/-- R478: 14 rail groups. -/
theorem test_wf_rail_sample : Instr.wf (.railSample (List.replicate 13 0)) = false := by decide

/-- R485: 16 channels. -/
theorem test_wf_meter_interval : Instr.wf (.meterInterval ⟨[⟨0, 900, 1000, 2500001⟩], 0⟩) = false := by
  decide

/-- R492: a challenge of 32 bytes, a key and a signature. -/
theorem test_wf_debug_unlock : Instr.wf (.debugUnlock 0 [] [] [] []) = false := by decide

/-- Table 15.2: a start-up record of 168 bytes. -/
theorem test_wf_startup :
    Instr.wf (.startup ⟨true, true, false, 10, true, true, true, ⟨0, 0, []⟩, ⟨0, 0, []⟩, [], [], [], [], [], [], [], [], 0⟩) = false := by
  decide

/-! ### Small states -/

/-- A package that has reached READY. -/
def Tests.ready : State := { State.reset with pkg := { PkgState.init with ready := true } }

/-- An image with no sections. -/
def Tests.image0 : Image := ⟨0, 0, 1, 0, 0, 16, 15, 0, []⟩

/-- An image loaded, in load state `st`. -/
def Tests.loaded (st : Nat) : State :=
  let s := { Tests.ready with cfg := { CfgState.init with image := some Tests.image0 } }
  ((List.range 4).foldl (fun s d => s.setFld (Reg.cluCmapLogicalCount d) 16) s).setFld Reg.cfgLoadStatusState st

/-- A step runs. -/
def Tests.running : State :=
  let s := Tests.loaded loadRunning
  { s with cfg := { s.cfg with run := { RunState.init with stepRunning := true } } }

/-- A load job of a full load. -/
def Tests.job (op : LoadOp) (p : LoadPhase) (die : Bool) : LoadJob :=
  ⟨op, 0, 0, p, some Tests.image0, die, false, none, loadLoaded⟩

/-- A load in progress. -/
def Tests.loading (op : LoadOp) (p : LoadPhase) (die : Bool) : State :=
  let s := Tests.loaded loadLoaded
  { s with cfg := { s.cfg with load := some (Tests.job op p die) } }

/-- A link that is up. -/
def Tests.link (n : Nat) (windows : List (Nat × Nat)) : State :=
  { State.reset with links := [(n, { LinkState.init with up := true, windows := windows })] }

/-- A package in a role of a fleet, joined. -/
def Tests.fleet (role : Nat) : State :=
  (Tests.ready.setFld Reg.hubRoleRole role).setFld Reg.hubFleetStatusJoined 1

/-- A worker with index 1. -/
def Tests.worker1 : Worker := ⟨1, 7, 0, 0, 0, 0, 0, 0, 0, 0, 0, none, none, false, false⟩

/-- A manager with that worker, which has sent a launch or not. -/
def Tests.manager (launch : Option Nat) : State :=
  let s := Tests.fleet roleManager
  { s with fleet := { s.fleet with workers := [Tests.worker1], sets := [(1, [1])], launchAt := launch } }

/-- An Obcor link 0 that is up. -/
def Tests.obcor (s : State) : State := s.setFld (Reg.obcLinkStatusState 0) obcFull

/-- A ring of a class that is enabled, its watch line and report line in tier 1. -/
def Tests.ring : RingState := { RingState.init with enable := true, base := 0x1000, watch := 0x2000, report := 0x3000 }

/-- A service ring with a request of an opcode at 0x1000, its argument bytes after it. -/
def Tests.service (op : Nat) (args : List (Nat × Nat)) : State :=
  let s := Tests.ready.setRing clsSvc 0 { Tests.ring with posted := 1 }
  { s with mem := (if op = 0 then [] else [(0x1000, BitVec.ofNat 8 op)]) ++
      args.map fun a => (0x1010 + a.1, BitVec.ofNat 8 a.2) }

/-- A root port at READY. -/
def Tests.root : State := { State.reset with pkg := { PkgState.init with ready := true, rootPort := true } }

/-- An entry of the unit table in a state. -/
def Tests.entry (st : Nat) (strikes : List Nat) : UnitEntry := ⟨st, 0, strikes, 0, 0, 0, 0, 0, 0, 0, 0, none⟩

/-- A record of no event in particular. -/
def Tests.record : ErrRecord := ⟨0, 1, 1, 0, 0, 5, 0, 0, 0, 0, 0, 0, 0, 0, 0, 0⟩

/-- An epoch of data of a peer. -/
def Tests.epoch (peer epoch : Nat) : EpochState := ⟨peer, epoch, 0, 0, [], none, [], true, 0, []⟩

/-- A half 0 that is up. -/
def Tests.port (s : State) : State := s.setFld (Reg.wirePortStatusUpA 0) 1

/-- A parse that found nothing. -/
def Tests.parsed : Parsed := ⟨none, 0, [], 14, none, none, none, none, none, false, none⟩

/-- A frame in the frame table. -/
def Tests.frame : Frame :=
  { port := 0, bytes := List.replicate 64 0, phyError := false, poisoned := false, stamp := 0, arrived := 0, rxPs := 0,
    maxFrame := 1518, parsed := Tests.parsed, stage := 0, bank := 0, epoch := 0, copy := 0, regions := [], holds := false,
    metaWord := 0, action := 0, tapRing := 0, hash := 0, passes := 0, flow := none, flowSerial := 0, flowBytes := [],
    ring := none, reason := none, slice := none, lost := [], reply := none, scored := none, verdict := none, late := [] }

/-- A package with that frame as its frame 0. -/
def Tests.framed (f : Frame) : State :=
  let s := Tests.port Tests.ready
  { s with wire := { s.wire with frames := [(0, f)], nextFrame := 1 } }



/-- A reply that waits, without a template. -/
def Tests.reply0 : Reply := ⟨0, [], 0, [], 0, 0, false⟩

/-- A frame that has been scored and waits for its reply. -/
def Tests.replyFrame : Frame := { Tests.frame with reply := some Tests.reply0, stage := 2, verdict := some true }

/-- A port with that reply in its queue. -/
def Tests.replying : State := (Tests.framed Tests.replyFrame).setReplyQueue 0 [0]

/-- The frame whose reply is being sent. -/
def Tests.sendingFrame : Frame := { Tests.frame with reply := some { Tests.reply0 with sending := true } }

/-- A half that sends that reply. -/
def Tests.settling : State :=
  (Tests.framed Tests.sendingFrame).setHalf 0 { Half.init with out := some ⟨some 0, true, [], false, false, false⟩ }

/-- A half in the peer-to-peer mode. -/
def Tests.p2p : State := (Tests.port Tests.ready).setFld Reg.timeTcCtrlMode 2

/-- A frame at slice 0, under an encoder. -/
def Tests.slicing (encoder : List Byte) : State :=
  let s := Tests.framed Tests.frame
  { s with wire := { s.wire with sliceQueues := [(0, [0])], model := { HubModel.init with encoder := encoder } } }

/-- An encoder that gives model 0 the feature set `k`, with no fields. -/
def Tests.encoder (k : Byte) : List Byte := [1, 0] ++ List.replicate 14 0 ++ [0, 0, k, 0] ++ List.replicate 64 0

/-- A record of the meter. -/
def Tests.meterRecord : List Byte := MeterState.init.recordBody false ++ List.replicate 64 0

/-- A copy of the firmware. -/
def Tests.copy : FirmwareCopy := ⟨0, 0, []⟩

/-- A start-up in which the PLLs do not lock. -/
def Tests.boot : BootOutcome :=
  ⟨true, true, false, 10, false, true, true, Tests.copy, Tests.copy, [], List.replicate 168 0, [], [], [], [], [], [], 0⟩

/-- A half that has paused class 7 at its partner and still holds more than XON of it. -/
def Tests.held : State :=
  ((Tests.framed Tests.frame).setFld (Reg.wirePortCtrlPfcEnable 0) 255).setHalf 0
    { Half.init with xoff := [7], queue := [(0, 7, 200000000)] }

/-- A package with a frame, whose default action is `action`. -/
def Tests.acting (action : Nat) : State := (Tests.framed Tests.frame).setBankWord 0 8 1 0 action


/-- A section of an image. -/
def Tests.section (kind target : Nat) (payload : List Byte) : Section := ⟨kind, 0, target, 0, 0, [], payload⟩

/-- An image with: one empty tensor, one table of staleness 1 with an optimizer and a serving slot, one entry without engines on core 0 of
cluster 0 of die 0, one job of a kind on that cluster, and a stream each way of that core. -/
def Tests.image1 (kind : Byte) : Image :=
  { Tests.image0 with sections :=
    [Tests.section 1 packageCode ([1] ++ List.replicate 79 0),
     Tests.section 2 (dieCode 0) ([2] ++ List.replicate 15 0 ++
       (toLe 4 (coreCode 0 0 0) ++ [0, 0, 2, 0] ++ toLe 8 0x1000 ++ toLe 4 64 ++ toLe 4 0 ++ toLe 4 1 ++ toLe 4 1 ++ toLe 4 1 ++
         List.replicate 28 0) ++
       (toLe 4 (coreCode 0 0 0) ++ [1, 1, 2, 0] ++ toLe 8 0x2000 ++ toLe 4 64 ++ toLe 4 0 ++ toLe 4 1 ++ toLe 4 1 ++ toLe 4 1 ++
         List.replicate 28 0)),
     Tests.section 3 (clusterCode 0 0) ([0, 0, 1, 0] ++ List.replicate 12 0 ++ [kind, 0, 0, 0, 255, 255, 255, 255] ++
       List.replicate 56 0),
     Tests.section 4 (coreCode 0 0 0) ([1] ++ List.replicate 15 0 ++ List.replicate 8 0 ++ List.replicate 16 255 ++
       List.replicate 24 0),
     Tests.section 6 packageCode ([1, 0, 1, 0, 1, 0] ++ List.replicate 10 0 ++ [0, 0, 0, 1] ++ List.replicate 188 0)] }

/-- A step of that image runs. -/
def Tests.dense (kind : Byte) : State :=
  let s := Tests.running
  let units := [dieCode 0, clusterCode 0 0, coreCode 0 0 0]
  { s with cfg := { s.cfg with image := some (Tests.image1 kind), epochs := units.map fun u => (s.physOf u, 1) } }

/-- The job and the table of that image, and its entry. -/
def Tests.job1 (kind : Nat) : Job := ⟨kind, 0, 0, 0xFFFF, 0xFFFF, 0, 0, 0, 0, 0, 0, 0⟩

def Tests.table1 : TableD := ⟨0, 0, 0, 0, 1, 0, 0, 0, 0, 0, 0, 0, 0, 0, 0, 0, [0, 0, 0, 0], [0, 0, 0, 0]⟩

def Tests.slot1 : NtsD := ⟨0, 0, 0, 0, 0, 0, 0⟩

def Tests.tensor1 : Tensor := ⟨0, 0, 0, 0, 0, 0, 0, 0, 0, 0, 0, 0, 0, 0, 0, 0⟩

def Tests.entry1 : Ent := ((Tests.dense 1).entryAt 0 0 0 0).get (by decide)

def Tests.streamIn : StreamD := ⟨coreCode 0 0 0, 0, 0, 2, 0x1000, 64, 0, [1, 1, 1], [0, 0, 0]⟩

def Tests.streamOut : StreamD := ⟨coreCode 0 0 0, 1, 1, 2, 0x2000, 64, 0, [1, 1, 1], [0, 0, 0]⟩

/-- A stream that has requested its chunk, and one that holds a chunk to write. -/
def Tests.streaming : State :=
  let s := Tests.dense 1
  { s with dense := { s.dense with streams :=
    [(streamKey 0 0 0 0, { StreamState.init with issued := 1 }),
     (streamKey 0 0 0 1, { StreamState.init with buf := List.replicate 64 1 })] } }

/-- The entry of core 0 has issued. -/
def Tests.issued : State := (Tests.dense 1).setSeq (coreCode 0 0 0) ⟨1, [0]⟩

/-- A twin comparison of that entry on engine 0 is outstanding. -/
def Tests.twin : State :=
  let s := Tests.dense 1
  { s with chk := { s.chk with twinPending := [(coreCode 0 0 0, 0, 0, 0)] } }

/-- A part of a row's gradient on its way to a row that its bank holds. -/
def Tests.part : PartMsg := ⟨0, 0, 0, 5, 1, 0, 1, [], false⟩

def Tests.row5 : GradRow := ⟨0, 1, [], false, false⟩

def Tests.row5b : GradRow := ⟨0, 2, [(0, 1, [])], false, false⟩

def Tests.gathering : State :=
  let s := Tests.dense 1
  { s with emb := { s.emb with parts := [Tests.part], banks := [(bankKey 0 0, ⟨0, [(5, Tests.row5)]⟩)] } }

/-- The job of cluster 0 runs. -/
def Tests.pressing : State := (Tests.dense 1).setPress 0 0 ⟨0, true, false⟩

/-- The serving slot with an export, waiting or running in step 0. -/
def Tests.exporting (waits : Bool) (step : Nat) : State :=
  ((Tests.dense 1).setNts 0 { NtsState.init with export_ := some (0, 0), waits := waits }).setReg Reg.cfgStep (BitVec.ofNat 64 step)

/-- A Grotto line that is Copying. -/
def Tests.line : GrottoLine := ⟨0, 0, 0, 0, 5, true, false, false, none, [1]⟩

def Tests.copying : State :=
  let s := Tests.dense 1
  { s with emb := { s.emb with lines := [Tests.line] } }


/-- A manager that has heard nothing of its worker for 50 ms. -/
def Tests.silent : State :=
  let s := Tests.manager none
  { s with pkg := { s.pkg with upNs := 50000000 } }

/-- A pending source of no destination. -/
def Tests.masked : State := Tests.ready.setFld (Reg.hubIrqRoutePending 527) 1

/-- A record of the meter whose case was opened. -/
def Tests.tamperRecord : List Byte := MeterState.recordBody { MeterState.init with tampered := true } false ++ List.replicate 64 0

/-- A half that a frame waits to be forwarded on. -/
def Tests.forwarding : State :=
  (Tests.framed { Tests.frame with verdict := some true, stage := 2, action := 0 }).setHalf 0
    { Half.init with queue := [(0, 7, 64)] }

/-- The image of no job but an UPDATE of a table of staleness 0. -/
def Tests.updating : State :=
  let f (x : Section) : Section := if x.kind = 6 then { x with payload := x.payload.set 19 0 } else x
  let s := Tests.dense 3
  { s with cfg := { s.cfg with image := some { Tests.image1 3 with sections := (Tests.image1 3).sections.map f } } }

/-- A row's gradient in one part. -/
def Tests.row0 : GradRow := ⟨0, 1, [(0, 1, [0x3F800000])], false, false⟩

def Tests.sgd : OptD := ⟨0, 0, 0, 0, 0, 0, 0, 0, 0, 0⟩

/-- The gradient of row 0 has arrived. -/
def Tests.gathered : State :=
  let s := Tests.updating
  { s with emb := { s.emb with banks := [(bankKey 0 0, ⟨0, [(0, Tests.row0)]⟩)] } }

/-- The bank of the step before waits, and the UPDATE job of its owner has retired. -/
def Tests.pendingBank : State :=
  let s := (Tests.dense 3).setPress 0 0 ⟨1, false, false⟩
  { s with emb := { s.emb with prev := [(bankKey 0 0, ⟨0, [(0, Tests.row0)]⟩)] } }

/-- A part for a row that no slot holds, of a table without slots. -/
def Tests.overfull : State :=
  let s := Tests.dense 1
  { s with emb := { s.emb with parts := [Tests.part] } }

def Tests.table0 : TableD := { Tests.table1 with staleness := 0 }

/-- A frame at a slice that has left service since its passes. -/
def Tests.unserved : State :=
  let s := Tests.slicing []
  { s with flt := { s.flt with units := [(unitKey 9 0, Tests.entry stRetired [])] } }

/-- A manager with two workers in one participant set. -/
def Tests.manager2 : State :=
  let s := Tests.manager none
  let two : Worker := { Tests.worker1 with index := 2 }
  { s with fleet := { s.fleet with workers := [Tests.worker1, two], sets := [(1, [1, 2])] } }

/-- The entry of core 0 has issued, in an image without streams. -/
def Tests.unstreamed : State :=
  let s := Tests.issued
  let im : Image := { Tests.image1 1 with sections := (Tests.image1 1).sections.filter (fun x => x.kind != 2) }
  { s with cfg := { s.cfg with image := some im } }

def Tests.pass1 : OptPass := ⟨⟨0, 0, 0, 0, 0, 0, 0, 0, 0, 0⟩, 0, 0, 0⟩

/-- The next state of an outcome; the state after reset where there is none. -/
def Tests.next : Host.Outcome State Fault Refusal → State
  | .next s => s
  | _ => State.reset

/-! ### Single steps -/

/-- R309: one cycle of SCLK adds 1 ns, and the carry goes to the seconds. -/
theorem test_clock_carries : (Tests.next (step { Tests.ready with clock := ⟨4, 999999999, 0⟩ })).clock = ⟨5, 0, 0⟩ := by
  decide

/-- R312: a value beyond 2²² is clamped. -/
theorem test_rate_clamps :
    (Tests.next (exec (.rateWrite 0x00400001) Tests.ready)).fld Reg.timeRateRate = 0x00400000 := by decide

/-- R26: a retry adds 40 ACLK. -/
theorem test_flit_retry_delay : ((Tests.next (exec (.flitRetry 0 false false) (Tests.link 0 []))).link 0).delayAclk = 40 := by
  decide

/-- R26: the sixteenth retry that fails takes the link down. -/
theorem test_flit_retry_down :
    ((Tests.next (exec (.flitRetry 0 false true)
      { State.reset with links := [(0, { LinkState.init with up := true, retriesInRow := 16 })] })).link 0).up = false := by
  decide +kernel

/-- R15, Table 3.10: LOAD_ADDR takes bits 47 to 0; its reserved bits read 0. -/
theorem test_register_write_reserved :
    (Tests.next (exec (.registerWrite .core (BitVec.ofNat 48 (registerBase + Reg.cfgLoadAddr)) 8 (-1)) Tests.ready)).reg
      Reg.cfgLoadAddr = 0x0000FFFFFFFFFFFF#64 := by decide

/-- R13: any other size completes with an error response, a bus error on the application cores. -/
theorem test_register_write_size :
    (Tests.next (exec (.registerWrite .core (BitVec.ofNat 48 (registerBase + Reg.cfgLoadAddr)) 4 1) Tests.ready)).response =
      .busError := by decide

/-- R15: a write of an RWG field goes to the shadow copy alone. -/
theorem test_register_write_shadow :
    (let t := Tests.next (exec (.registerWrite .core (BitVec.ofNat 48 (registerBase + Reg.pwrThrottleCtrl)) 8 0x55) Tests.ready)
     t.reg Reg.pwrThrottleCtrl = 0x69 ∧ t.shadowReg Reg.pwrThrottleCtrl = 0x55) := by decide

/-- R116: a request while CHECKING reads 1 sets OVERRUN. -/
theorem test_commit_overrun :
    (Tests.next (exec (.commitRequest false 0x90000) (Tests.ready.setFld Reg.cfgCommitStatusChecking 1))).fld
      Reg.cfgCommitStatusOverrun = 1 := by decide

/-- R456: the sixty-fifth message sets OVERFLOW. -/
theorem test_msi_overflow :
    (Tests.next (exec (.msiReceive 0 7) { Tests.root with hub := { HubState.init with msi := List.replicate 64 0 } })).hub.msiOverflow
      = true := by decide

/-- R491: a read by any other agent returns 0. -/
theorem test_key_read_guarded :
    (Tests.next (exec (.keyDataAccess .pcie 0 none) { State.reset with sec := { SecState.init with customer := [(0, 5)] } })).response
      = .ok 0 := by decide +kernel

/-- R31: a retired child is replaced by the lowest spare that is not retired. -/
theorem test_canonical_map :
    canonicalMap 17 15 (fun p => p == 3 || p == 15) =
      [some 0, some 1, some 2, some 16, some 4, some 5, some 6, some 7, some 8, some 9, some 10, some 11, some 12, some 13,
       some 14] := by decide

/-- R55: E4M3 encodings 0x7F and 0xFF are its only NaNs; exponent 15 is finite otherwise (448 is the largest). -/
theorem test_e4m3_nan : (e4m3.decode 0x7F).isNan = true ∧ (e4m3.decode 0xFF).isNan = true ∧ (e4m3.decode 0x7E).isNan = false := by
  decide

/-- R76: rcp(3) is div(1.0, 3), rounded to nearest. -/
theorem test_rcp : fRcp 0x40400000 = 0x3EAAAAAB := by decide

/-- R75: exp(0) is 1. -/
theorem test_exp_zero : fExp 0 = 0x3F800000 := by decide

/-- The check value of CRC-32C over the digits 1 to 9, of that code's definition. -/
theorem test_crc32c : crc32c [0x31, 0x32, 0x33, 0x34, 0x35, 0x36, 0x37, 0x38, 0x39] = 0xE3069283 := by decide +kernel

/-! ### States that meet the hypotheses of the statements -/

theorem witness_step_runs_front_command_0 :
    ∃ (s : State) (c : Instr) (rest : List Instr), s.pending = c :: rest :=
  ⟨{ State.reset with pending := [.stepSeam] }, .stepSeam, [], by decide⟩

theorem witness_empty_queue_lets_time_pass_0 :
    ∃ (s : State), s.pending = [] ∧ s.pkg.ready = false :=
  ⟨State.reset, by decide⟩

theorem witness_empty_queue_lets_time_pass_1 :
    ∃ (s : State), s.pending = [] ∧ s.pkg.ready = true ∧ s.clock.ns < 1000000000 ∧ s.clock.frac < 2 ^ 32 :=
  ⟨Tests.ready, by decide⟩

theorem witness_reset_leaves_table_values_6 :
    ∃ (c : Nat), c < 16 :=
  ⟨15, by decide⟩

theorem witness_reset_leaves_table_values_8 :
    ∃ (l : Nat), l < 16 :=
  ⟨15, by decide⟩

theorem witness_step_keeps_invariant_0 :
    ∃ (s : State) (t : State), s.Inv ∧ step s = .next t :=
  ⟨State.reset, State.reset, ⟨⟨rfl, ⟨rfl, nofun⟩, ⟨rfl, nofun⟩, by decide, by decide⟩, rfl⟩⟩

theorem witness_command_changes_only_its_components_0 :
    ∃ (c : Instr) (s : State) (t : State) (p : Component), exec c s = .next t ∧ p ∉ changes c :=
  ⟨.testReset, State.reset, State.reset, .mem, ⟨rfl, by decide⟩⟩

theorem witness_command_changes_only_its_components_5 :
    ∃ (c : Instr) (s : State) (t : State), exec c s = .next t ∧ ((∀ o, c = .startup o → s.pkg.modeSampled = true)) :=
  ⟨.testReset, State.reset, State.reset, ⟨rfl, nofun⟩⟩

theorem witness_link_events_update_their_link_0 :
    ∃ (s : State) (n : Fin 10), (s.link n).up = true :=
  ⟨Tests.link 9 [], 9, by decide⟩

theorem witness_link_events_update_their_link_1 :
    ∃ (s : State) (n : Fin 10), (s.link n).up = true ∧ (s.link n).marked = [] ∧ linkGroups n ≤ 2 * (s.link n).groups n :=
  ⟨Tests.link 0 [], 0, by decide⟩

theorem witness_link_events_update_their_link_2 :
    ∃ (s : State) (n : Fin 10) (x : LaneId), (s.link n).up = true ∧ (s.link n).marked = [] ∧ x.group < linkGroups n ∧
    (s.link n).removed = [] ∧ (s.link n).spared.contains (laneNo x) = false ∧ linkGroups n ≤ 2 * ((s.link n).groups n
    - 1) :=
  ⟨Tests.link 0 [], 0, ⟨31, 32⟩, by decide⟩

theorem witness_link_events_update_their_link_3 :
    ∃ (s : State) (n : Fin 10) (x : LaneId) (y : LaneId), (s.link n).up = true ∧ (s.link n).marked = [laneNo y] ∧
    x.group = y.group ∧ x ≠ y ∧ x.group < linkGroups n ∧ (s.link n).removed = [] ∧ (s.link n).spared = [] :=
  ⟨{ State.reset with links := [(0, { LinkState.init with up := true, marked := [laneNo ⟨31, 4⟩] })] }, 0, ⟨31, 0⟩,
  ⟨31, 4⟩, by decide⟩

theorem witness_link_events_update_their_link_4 :
    ∃ (s : State) (n : Fin 10) (x : LaneId), (s.link n).up = true ∧ (s.link n).marked = [laneNo x] ∧ x.group <
    linkGroups n ∧ (s.link n).removed = [] ∧ (s.link n).spared = [] :=
  ⟨{ State.reset with links := [(0, { LinkState.init with up := true, marked := [laneNo ⟨31, 5⟩] })] }, 0, ⟨31, 5⟩,
  by decide⟩

theorem witness_link_events_update_their_link_5 :
    ∃ (errors : Nat), errors ≤ 100 :=
  ⟨100, by decide⟩

theorem witness_link_events_update_their_link_6 :
    ∃ (s : State) (n : Fin 10) (x : LaneId) (errors : Nat), 100 < errors ∧ (s.link n).holdsLane n (laneNo x) = true ∧
    (s.link n).up = true ∧ (s.link n).windows = [] :=
  ⟨Tests.link 9 [], 9, ⟨15, 0⟩, 101, by decide⟩

theorem witness_link_events_update_their_link_7 :
    ∃ (s : State) (n : Fin 10) (x : LaneId) (errors : Nat) (a : Nat) (b : Nat), 100 < errors ∧ (s.link n).holdsLane n
    (laneNo x) = true ∧ (s.link n).up = true ∧ (s.link n).windows = [(laneNo x, a), (laneNo x, b)] ∧ s.powerSeconds <
    a + 3600 ∧ s.powerSeconds < b + 3600 ∧ s.stepRunning = true ∧ (s.link n).marked = [] :=
  ⟨{ Tests.running with links := [(0, { LinkState.init with up := true, windows := [(laneNo ⟨31, 0⟩, 0), (laneNo ⟨31,
  0⟩, 0)] })] }, 0, ⟨31, 0⟩, 101, 0, 0, by decide +kernel⟩

theorem witness_link_events_update_their_link_8 :
    ∃ (s : State) (n : Fin 10) (x : LaneId) (y : LaneId) (errors : Nat) (a : Nat) (b : Nat), 100 < errors ∧ (s.link
    n).holdsLane n (laneNo x) = true ∧ (s.link n).up = true ∧ laneNo y ≠ laneNo x ∧ (s.link n).windows = [(laneNo y,
    a), (laneNo x, b)] ∧ s.powerSeconds < a + 3600 ∧ s.powerSeconds < b + 3600 :=
  ⟨Tests.link 0 [(0, 0), (laneNo ⟨31, 0⟩, 0)], 0, ⟨31, 0⟩, ⟨0, 0⟩, 101, 0, 0, by decide⟩

theorem witness_link_events_update_their_link_9 :
    ∃ (s : State) (n : Fin 10) (x : LaneId) (errors : Nat) (a : Nat) (b : Nat), 100 < errors ∧ x.group < linkGroups n
    ∧ (s.link n).up = true ∧ (s.link n).windows = [(laneNo x, a), (laneNo x, b)] ∧ s.powerSeconds < a + 3600 ∧
    s.powerSeconds < b + 3600 ∧ s.stepRunning = false ∧ (∀ k < 10, (s.link k).marked = []) ∧ (s.link n).removed = [] ∧
    (s.link n).spared = [] :=
  ⟨Tests.link 0 [(laneNo ⟨31, 0⟩, 0), (laneNo ⟨31, 0⟩, 0)], 0, ⟨31, 0⟩, 101, 0, 0, by decide⟩

theorem witness_load_request_starts_its_checks_0 :
    ∃ (s : State) (op : LoadOp), s.pkg.ready = true ∧ s.pkg.pairs.contains true = true ∧ s.busy = false ∧
    s.loadAllowed op = true ∧ s.fld Reg.cfgLoadAddrAddr % 4096 = 0 ∧ s.inTiers (s.fld Reg.cfgLoadAddrAddr) 1 = true :=
  ⟨Tests.ready, .full, by decide⟩

theorem witness_load_request_starts_its_checks_1 :
    ∃ (s : State) (op : LoadOp), s.pkg.ready = true ∧ s.pkg.pairs.contains true = true ∧ (s.busy = true ∨
    s.loadAllowed op = false) :=
  ⟨Tests.loaded loadRunning, .full, by decide +kernel⟩

theorem witness_load_checks_end_with_code_or_pass_0 :
    ∃ (s : State) (j : LoadJob), s.pkg.pairs.contains true = true ∧ s.cfg.load = some j ∧ j.phase = .checking ∧
    s.flt.stopKind = none :=
  ⟨Tests.loading .check .checking false, Tests.job .check .checking false, by decide⟩

theorem witness_full_load_distributes_and_unloads_0 :
    ∃ (s : State) (j : LoadJob), s.pkg.pairs.contains true = true ∧ s.cfg.load = some j ∧ j.op = .full ∧ j.phase =
    .passed ∧ s.cfg.pendingGroups = [] ∧ s.flt.stopKind = none :=
  ⟨Tests.loading .full .passed false, Tests.job .full .passed false, by decide⟩

theorem witness_full_load_distributes_and_unloads_2 :
    ∃ (s : State) (j : LoadJob) (im : Image), s.pkg.pairs.contains true = true ∧ s.cfg.load = some j ∧ j.op = .full ∧
    j.phase = .distributing ∧ j.image = some im ∧ s.flt.stopKind = none :=
  ⟨Tests.loading .full .distributing false, Tests.job .full .distributing false, Tests.image0, by decide⟩

theorem witness_full_load_distributes_and_unloads_4 :
    ∃ (s : State), s.pkg.ready = true ∧ s.pkg.pairs.contains true = true ∧ s.busy = false ∧ s.loadAllowed .unload =
    true ∧ s.fld Reg.cfgLoadAddrAddr % 4096 = 0 :=
  ⟨Tests.loaded loadLoaded, by decide +kernel⟩

theorem witness_full_load_distributes_and_unloads_5 :
    ∃ (s : State), s.pkg.ready = true ∧ s.pkg.pairs.contains true = true ∧ s.busy = false ∧ s.loadAllowed .unload =
    true ∧ s.fld Reg.cfgLoadAddrAddr % 4096 ≠ 0 :=
  ⟨(Tests.loaded loadLoaded).setReg Reg.cfgLoadAddr 1, by decide +kernel⟩

theorem witness_hub_shadow_copies_swap_together_0 :
    ∃ (s : State) (m : HubModel) (j : LoadJob) (im : Image) (old : Image), s.wire.shadow = some m ∧ s.cfg.load = some
    j ∧ s.cfg.image = some old ∧ j.image = some im ∧ s.modelHolders = 0 ∧ s.pkg.pairs.contains true = true :=
  ⟨{ Tests.loading .part .reloading false with wire := { WireState.init with shadow := some HubModel.init } },
  HubModel.init, Tests.job .part .reloading false, Tests.image0, Tests.image0, by decide⟩

theorem witness_commit_request_stages_shadow_set_0 :
    ∃ (s : State) (v : Word), s.pkg.pairs.contains true = true ∧ s.fldB Reg.cfgCommitStatusChecking = false ∧
    s.requestCode (v.toNat % 2 ^ 20) = 0 :=
  ⟨Tests.ready, 0x30000, by decide⟩

theorem witness_commit_request_stages_shadow_set_1 :
    ∃ (s : State), s.pkg.pairs.contains true = true ∧ s.fldB Reg.cfgCommitStatusChecking = true :=
  ⟨Tests.ready.setFld Reg.cfgCommitStatusChecking 1, by decide⟩

theorem witness_commit_checks_decide_group_0 :
    ∃ (s : State) (st : Staging) (rest : List Staging), s.pkg.pairs.contains true = true ∧ s.cfg.checks = st :: rest ∧
    st.bySteward = false ∧ s.isPending st.group = false ∧ s.quiet st.group = false :=
  ⟨{ Tests.ready with cfg := { CfgState.init with checks := [⟨0x30000, false, []⟩] } }, ⟨0x30000, false, []⟩, [],
  by decide⟩

theorem witness_pending_group_applies_or_is_dropped_0 :
    ∃ (s : State) (g : BitVec 20) (st : Staging), s.pkg.pairs.contains true = true ∧ s.cfg.pendingGroups.find? (fun p
    => p.group == g.toNat) = some st ∧ s.safeNow g.toNat = true :=
  ⟨{ Tests.ready with cfg := { CfgState.init with pendingGroups := [⟨0x90000, false, []⟩] } }, 0x90000, ⟨0x90000,
  false, []⟩, by decide⟩

theorem witness_snapshot_requests_begin_or_report_0 :
    ∃ (s : State) (v : Word) (a : Nat) (manifest : Bool), s.pkg.ready = true ∧ s.pkg.pairs.contains true = true ∧
    s.fld Reg.detSnapAddrAddr = a ∧ bit v.toNat 2 = manifest ∧ s.det.snap = none ∧ s.flt.stopKind = none ∧ s.loadState
    = loadLoaded ∧ s.cfg.image.isSome = true ∧ s.seamFree = true ∧ s.areaCode a (s.snapNeed manifest) = 0 ∧
    s.inImageBuffer a (s.snapBytes manifest).length = false :=
  ⟨Tests.loaded loadLoaded, 0, 0, false, by decide +kernel⟩

theorem witness_snapshot_requests_begin_or_report_1 :
    ∃ (s : State) (v : Word), s.pkg.ready = true ∧ s.pkg.pairs.contains true = true ∧ s.det.snap = none ∧
    s.flt.stopKind = none ∧ s.loadState = loadRunning ∧ s.cfg.image.isSome = true ∧ s.stepRunning = true ∧ s.areaCode
    (s.fld Reg.detSnapAddrAddr) (s.snapNeed (bit v.toNat 2)) = 0 :=
  ⟨Tests.running, 0, by decide +kernel⟩

theorem witness_snapshot_requests_begin_or_report_2 :
    ∃ (s : State), s.pkg.ready = true ∧ s.pkg.pairs.contains true = true ∧ s.det.snap = none ∧ s.loadState =
    loadLoaded ∧ s.busy = false :=
  ⟨Tests.loaded loadLoaded, by decide +kernel⟩

theorem witness_snapshot_requests_begin_or_report_3 :
    ∃ (s : State), s.pkg.ready = true ∧ s.pkg.pairs.contains true = true ∧ s.det.snap = none ∧ s.cfg.image.isSome =
    true :=
  ⟨Tests.loaded loadLoaded, by decide⟩

theorem witness_runs_start_stop_and_abort_0 :
    ∃ (s : State), s.pkg.ready = true ∧ s.pkg.pairs.contains true = true ∧ s.startCode = 0 ∧ s.ckptOn = false ∧
    s.flt.stopKind = none ∧ s.flt.copying = false ∧ s.flt.roundDue = false ∧ s.flt.echoHold = false ∧ s.chk.rounds =
    [] ∧ s.det.snap = none ∧ s.cfg.load = none :=
  ⟨Tests.loaded loadLoaded, by decide +kernel⟩

theorem witness_runs_start_stop_and_abort_1 :
    ∃ (s : State), s.pkg.ready = true ∧ s.pkg.pairs.contains true = true ∧ s.startCode = 0 ∧ s.ckptOn = false ∧
    s.flt.stopKind = none ∧ s.flt.copying = false ∧ s.flt.roundDue = false ∧ s.flt.echoHold = false ∧ s.chk.rounds =
    [] ∧ s.det.snap = none ∧ s.cfg.load = none ∧ s.glc ≤ (s.reg Reg.cfgRunAt).toNat :=
  ⟨Tests.loaded loadLoaded, by decide +kernel⟩

theorem witness_runs_start_stop_and_abort_2 :
    ∃ (s : State), s.cfg.run.armed = true ∧ ((s.cfg.run.late = true ∨ (s.reg Reg.cfgRunAt).toNat ≤ s.glc)) ∧ s.upTime
    % 5 = 0 ∧ s.loadState = loadRunning ∧ s.seamFree = true ∧ s.snapBusy = false ∧ s.flt.echoHold = false :=
  ⟨(let s := Tests.loaded loadRunning; { s with cfg := { s.cfg with run := { RunState.init with armed := true } } }),
  by decide +kernel⟩

theorem witness_runs_start_stop_and_abort_3 :
    ∃ (s : State), s.pkg.ready = true ∧ s.loadState = loadRunning :=
  ⟨Tests.running, by decide +kernel⟩

theorem witness_runs_start_stop_and_abort_4 :
    ∃ (s : State), s.pkg.ready = true ∧ (s.loadState = loadRunning ∨ s.loadState = loadStopping) ∧ s.flt.stopKind =
    none :=
  ⟨Tests.running, by decide +kernel⟩

theorem witness_step_seam_advances_step_0 :
    ∃ (s : State), s.stepRunning = true ∧ s.stepDone = true ∧ s.badLedgers = [] ∧ s.pipChecks = [] ∧ (∀ r ∈
    s.dense.wrote, s.isPoisoned r.1 r.2 = false) ∧ (∀ p ∈ s.cfg.pendingGroups, seamBound p.group = false) :=
  ⟨Tests.running, by decide⟩

theorem witness_seam_holds_end_0 :
    ∃ (s : State) (j : LoadJob) (im : Image) (old : Image), s.pkg.pairs.contains true = true ∧ s.cfg.load = some j ∧
    s.cfg.image = some old ∧ j.image = some im ∧ j.dieDue = true ∧ j.hubDue = false ∧ s.stepRunning = false ∧
    s.flt.stopKind = none :=
  ⟨Tests.loading .part .reloading true, Tests.job .part .reloading true, Tests.image0, Tests.image0,
  by decide⟩

theorem witness_seam_holds_end_1 :
    ∃ (s : State), s.pkg.pairs.contains true = true ∧ s.flt.copying = true ∧ s.flt.copyDue = false ∧ s.flt.roundDue =
    false ∧ s.flt.echoHold = false ∧ s.chk.rounds = [] ∧ s.det.snap = none ∧ s.cfg.load = none ∧ s.flt.stopKind = none
    ∧ s.stepRunning = false ∧ s.cfg.run.atSeam = true ∧ s.cfg.run.armed = false ∧ s.loadState = loadRunning ∧ (∀ r ∈
    s.copySources, s.isPoisoned r.1 r.2 = false) :=
  ⟨(let s := Tests.loaded loadRunning; { s with flt := { s.flt with copying := true } }), by decide +kernel⟩

theorem witness_seam_holds_end_2 :
    ∃ (s : State) (j : SnapJob), s.pkg.pairs.contains true = true ∧ s.det.snap = some j ∧ j.copying = true ∧ j.op = 1
    ∧ s.flt.stopKind = none ∧ (∀ r ∈ s.saveSources, s.isPoisoned r.1 r.2 = false) :=
  ⟨(let s := Tests.loaded loadLoaded; { s with det := { DetState.init with snap := some ⟨1, false, false, 0, true,
  false⟩ } }), ⟨1, false, false, 0, true, false⟩, by decide⟩

theorem witness_seam_holds_end_3 :
    ∃ (s : State) (j : SnapJob), s.pkg.pairs.contains true = true ∧ s.det.snap = some j ∧ j.copying = true ∧ j.op = 3
    ∧ (∀ r ∈ s.restoreSources j.addr, s.isPoisoned r.1 r.2 = false) :=
  ⟨(let s := Tests.loaded loadLoaded; { s with det := { DetState.init with snap := some ⟨3, false, false, 0, true,
  false⟩ } }), ⟨3, false, false, 0, true, false⟩, by decide⟩

theorem witness_seam_holds_end_4 :
    ∃ (s : State) (j : SnapJob), s.pkg.pairs.contains true = true ∧ s.det.snap = some j ∧ j.copying = true ∧ j.op = 2
    ∧ (∀ r ∈ s.restoreSources j.addr, s.isPoisoned r.1 r.2 = false) :=
  ⟨(let s := Tests.loaded loadLoaded; { s with det := { DetState.init with snap := some ⟨2, false, false, 0, true,
  false⟩ } }), ⟨2, false, false, 0, true, false⟩, by decide⟩

theorem witness_unit_commands_begin_or_report_0 :
    ∃ (s : State) (v : Word) (op : Nat), (op = cmdSump ∨ op = cmdReadmit ∨ op = cmdScreen) ∧ s.pkg.ready = true ∧
    s.pkg.pairs.contains true = true ∧ s.cmdCode (Reg.fltUnitCmdKey.of v.toNat) op ≠ 0 :=
  ⟨Tests.ready, 0, cmdSump, by decide⟩

theorem witness_unit_commands_begin_or_report_1 :
    ∃ (s : State) (v : Word) (op : Nat), (op = cmdSump ∨ op = cmdReadmit ∨ op = cmdScreen) ∧ s.pkg.ready = true ∧
    s.pkg.pairs.contains true = true ∧ s.cmdCode (Reg.fltUnitCmdKey.of v.toNat) op = 0 ∧ ((op = cmdSump →
    s.unitsStopped = false)) :=
  ⟨Tests.running, BitVec.ofNat 64 (unitKey 3 (clusterCodeP 3 16)), cmdScreen, by decide +kernel⟩

theorem witness_unit_commands_begin_or_report_2 :
    ∃ (s : State) (v : Word) (op : Nat), (op = cmdSump ∨ op = cmdReadmit ∨ op = cmdScreen) ∧ s.pkg.ready = true ∧
    s.pkg.pairs.contains true = true ∧ s.cmdCode (Reg.fltUnitCmdKey.of v.toNat) op = 0 ∧ op = cmdSump ∧ s.unitsStopped
    = true ∧ keyClass (Reg.fltUnitCmdKey.of v.toNat) ≠ 4 :=
  ⟨Tests.ready, BitVec.ofNat 64 (unitKey 9 15), cmdSump, by decide⟩

theorem witness_screens_and_rotations_move_units_0 :
    ∃ (s : State) (k : BitVec 32), s.pkg.pairs.contains true = true ∧ s.flt.screening.any (fun e => e.1 == k.toNat) =
    true ∧ s.stepRunning = true :=
  ⟨(let s := Tests.running; { s with flt := { s.flt with screening := [(7, .sump, 0)] } }), 7, by decide⟩

theorem witness_screens_and_rotations_move_units_1 :
    ∃ (s : State), s.pkg.pairs.contains true = true ∧ s.spareDue = true :=
  ⟨Tests.ready, by decide⟩

theorem witness_screens_and_rotations_move_units_2 :
    ∃ (s : State), s.spareDue = false :=
  ⟨{ State.reset with flt := { FltState.init with spareAt := some 0 } }, by decide⟩

theorem witness_screens_and_rotations_move_units_3 :
    ∃ (s : State) (d : Fin 4), s.pkg.pairs.contains true = true ∧ s.fldB Reg.fltRecoveryCtrlRotateEn = true ∧
    s.lostDie d = false ∧ s.stepRunning = true ∧ s.flt.stopKind = none ∧ s.flt.rotateDue.contains d.val = false :=
  ⟨Tests.running.setFld Reg.fltRecoveryCtrlRotateEn 1, 3, by decide +kernel⟩

theorem witness_screens_and_rotations_move_units_4 :
    ∃ (s : State) (d : Fin 4) (k : Nat), s.pkg.pairs.contains true = true ∧ s.fldB Reg.fltRecoveryCtrlRotateEn = true
    ∧ s.lostDie d = false ∧ s.unitsStopped = true ∧ s.rotates d = false ∧ (∀ j ∈ dieUnits d, (s.unit j).state ≠ stDue)
    ∧ s.spareCluster d = true ∧ s.oldestScreen ((s.clusterMap d).map (clusterKey d)) = some k ∧ (s.unit k).state =
    stService :=
  ⟨(Tests.loaded loadLoaded).setFld Reg.fltRecoveryCtrlRotateEn 1, 3, unitKey 3 (clusterCodeP 3 0), by decide +kernel⟩

theorem witness_screens_and_rotations_move_units_5 :
    ∃ (s : State), s.pkg.pairs.contains true = true :=
  ⟨Tests.ready, by decide⟩

theorem witness_strikes_sump_retire_and_expire_0 :
    ∃ (s : State) (k : Nat), (s.unit k).state = stService :=
  ⟨{ State.reset with flt := { FltState.init with units := [(1, Tests.entry stService [])] } }, 1, by decide⟩

theorem witness_strikes_sump_retire_and_expire_2 :
    ∃ (s : State) (k : Nat) (j : Nat), (s.unit k).state = stService ∧ j ≠ k :=
  ⟨{ State.reset with flt := { FltState.init with units := [(1, Tests.entry stService [])] } }, 1, 2,
  by decide⟩

theorem witness_strikes_sump_retire_and_expire_4 :
    ∃ (s : State) (k : BitVec 32) (t0 : Nat) (rest : List Nat), (s.unit k.toNat).strikes = t0 :: rest :=
  ⟨{ State.reset with flt := { FltState.init with units := [(1, Tests.entry stService [0])] } }, 1, 0, [],
  by decide⟩

theorem witness_strikes_sump_retire_and_expire_5 :
    ∃ (k : BitVec 32), keyExists k.toNat = true :=
  ⟨BitVec.ofNat 32 (unitKey 10 71), by decide⟩

theorem witness_recoveries_run_their_phases_0 :
    ∃ (s : State), s.pkg.pairs.contains true = true ∧ s.pkg.ready = true ∧ s.flt.stopKind = some 0 ∧ s.pkg.thermTrip =
    false ∧ s.flt.cmd = none :=
  ⟨(let s := Tests.running; { s with flt := { s.flt with stopKind := some 0, resetDies := [3] } }), by decide⟩

theorem witness_recoveries_run_their_phases_1 :
    ∃ (s : State) (d : Fin 4), s.pkg.pairs.contains true = true ∧ s.pkg.ready = true ∧ s.flt.stopKind = some 1 ∧
    s.flt.resetDies.contains d.val = true ∧ s.pkg.thermTrip = false ∧ s.flt.cmd = none :=
  ⟨(let s := Tests.running; { s with flt := { s.flt with stopKind := some 1, resetDies := [3] } }), 3,
  by decide⟩

theorem witness_recoveries_run_their_phases_2 :
    ∃ (s : State), s.pkg.pairs.contains true = true ∧ s.cfg.image.isSome = true ∧ (s.flt.stopKind = some 0 ∨
    s.flt.stopKind = some 1) :=
  ⟨(let s := Tests.running; { s with flt := { s.flt with stopKind := some 0, resetDies := [3] } }), by decide⟩

theorem witness_recoveries_run_their_phases_3 :
    ∃ (s : State), s.pkg.pairs.contains true = true ∧ s.cfg.image.isSome = true ∧ s.pkg.ready = true ∧ (s.flt.stopKind
    = some 2 ∨ s.flt.stopKind = none) ∧ s.pkg.thermTrip = false ∧ s.flt.cmd = none :=
  ⟨(let s := Tests.running; { s with flt := { s.flt with stopKind := some 2, resetDies := [3] } }), by decide⟩

theorem witness_recoveries_run_their_phases_4 :
    ∃ (s : State), s.pkg.pairs.contains true = true ∧ s.flt.cmd = none ∧ s.pkg.thermTrip = false :=
  ⟨Tests.ready, by decide⟩

theorem witness_recoveries_run_their_phases_5 :
    ∃ (s : State), s.pkg.pairs.contains true = true ∧ s.pkg.thermTrip = true ∧ s.flt.stopKind = none :=
  ⟨{ Tests.ready with pkg := { PkgState.init with ready := true, thermTrip := true } }, by decide⟩

theorem witness_package_data_commits_by_token_0 :
    ∃ (s : State) (l : Fin 16) (m : DataMsg), m.data ≠ [] ∧ s.obcUp l = true ∧ m.dest.toNat = s.fleetIndex ∧
    s.meetsPartition m.addr.toNat m.data.length = false ∧ s.inImageBuffer m.addr.toNat m.data.length = false ∧
    s.writable m.addr.toNat m.data.length = true ∧ (s.epochIn m.src.toNat m.epoch.toNat).token = none :=
  ⟨Tests.obcor Tests.ready, 0, ⟨0, 1, 0, 0, 0, 0, 0, [1]⟩, by decide⟩

theorem witness_package_data_commits_by_token_1 :
    ∃ (s : State) (l : Fin 16) (dest : BitVec 13), s.obcUp l = true ∧ dest.toNat ≠ s.fleetIndex :=
  ⟨Tests.obcor Tests.ready, 0, 5, by decide⟩

theorem witness_package_data_commits_by_token_2 :
    ∃ (s : State) (l : Fin 16) (dest : BitVec 13), s.obcUp l = true ∧ dest.toNat = s.fleetIndex :=
  ⟨Tests.obcor Tests.ready, 0, 0, by decide⟩

theorem witness_package_data_commits_by_token_3 :
    ∃ (s : State) (src : BitVec 13) (epoch : BitVec 32), s.chk.epochsIn.any (fun x => x.peer == src.toNat && x.epoch
    == epoch.toNat) = true :=
  ⟨{ State.reset with chk := { ChkState.init with epochsIn := [Tests.epoch 1 0] } }, 1, 0, by decide⟩

theorem witness_package_data_commits_by_token_4 :
    ∃ (s : State) (l : Fin 16), s.obcUp l = true :=
  ⟨Tests.obcor Tests.ready, 0, by decide⟩

theorem witness_package_data_commits_by_token_5 :
    ∃ (s : State) (dest : BitVec 13) (epoch : BitVec 32) (e : EpochState), s.chk.epochsOut.find? (fun x => x.peer ==
    dest.toNat && x.epoch == epoch.toNat) = some e ∧ s.epochOver epoch.toNat = true ∧ (∀ k ∈ e.tiles,
    s.chk.twinPending.contains k = false) ∧ e.parityOk = true :=
  ⟨{ State.reset with chk := { ChkState.init with epochsOut := [Tests.epoch 1 5] } }, 1, 5, Tests.epoch 1 5,
  by decide⟩

theorem witness_records_queue_and_tails_follow_head_0 :
    ∃ (s : State) (kind : BitVec 16) (unitP : BitVec 32) (r : ErrRecord), s.chk.waiting.find? (fun r => r.kind ==
    kind.toNat && r.unitP == unitP.toNat) = some r ∧ s.chk.queue.length < hubQueueDepth ∧ s.chk.held = [] ∧ s.chk.lost
    = 0 :=
  ⟨{ State.reset with chk := { ChkState.init with waiting := [Tests.record] } }, 1, 5, Tests.record,
  by decide⟩

theorem witness_records_queue_and_tails_follow_head_1 :
    ∃ (s : State), s.chk.lost ≠ 0 ∧ s.chk.queue.length < hubQueueDepth :=
  ⟨{ State.reset with chk := { ChkState.init with lost := 1 } }, by decide⟩

theorem witness_records_queue_and_tails_follow_head_2 :
    ∃ (s : State), s.pkg.ready = true :=
  ⟨Tests.ready, by decide⟩

theorem witness_echo_verdict_ends_round_0 :
    ∃ (s : State), s.stepRunning = true :=
  ⟨Tests.running, by decide⟩

theorem witness_echo_verdict_ends_round_1 :
    ∃ (code : BitVec 2), (code = 2 ∨ code = 3) :=
  ⟨3, by decide⟩

theorem witness_agent_writes_store_or_are_denied_0 :
    ∃ (s : State) (ag : Agent) (a : Addr) (data : List Byte), data ≠ [] ∧ s.answers ag = true ∧ (∀ o, s.region a.toNat
    ≠ .register o) ∧ s.region a.toNat ≠ .nts ∧ s.region a.toNat ≠ .outbound ∧ s.reaches ag a.toNat data.length = true
    ∧ s.meetsPartition a.toNat data.length = false ∧ (s.inImageBuffer a.toNat data.length = false ∨ ag = .steward) ∧
    s.writable a.toNat data.length = true :=
  ⟨Tests.ready, .core, 0x100, [1], by decide, by decide, (fun _ h => by cases h), by decide,
  by decide, by decide, by decide, by decide, by decide⟩

theorem witness_agent_writes_store_or_are_denied_1 :
    ∃ (s : State) (ag : Agent) (a : Addr) (data : List Byte), data ≠ [] ∧ s.answers ag = true ∧ (∀ o, s.region a.toNat
    ≠ .register o) ∧ s.region a.toNat ≠ .nts ∧ s.region a.toNat ≠ .outbound ∧ s.reaches ag a.toNat data.length = true
    ∧ (s.meetsPartition a.toNat data.length = true ∨ (s.inImageBuffer a.toNat data.length = true ∧ ag ≠ .steward)) :=
  ⟨{ Tests.ready with cfg := { CfgState.init with buffer := some (0x100, 1) } }, .core, 0x100, [1], by decide,
  by decide, (fun _ h => by cases h), by decide, by decide, by decide,
  by decide⟩

theorem witness_agent_writes_store_or_are_denied_2 :
    ∃ (s : State) (ag : Agent) (a : Addr) (data : List Byte), data ≠ [] ∧ s.answers ag = true ∧ (∀ o, s.region a.toNat
    ≠ .register o) ∧ s.region a.toNat ≠ .nts ∧ s.region a.toNat ≠ .outbound ∧ s.reaches ag a.toNat data.length = false :=
  ⟨Tests.root, .pcie, BitVec.ofNat 48 windowBase, [1], by decide, by decide, (fun _ h => by cases h),
  by decide, by decide, by decide⟩

theorem witness_agent_writes_store_or_are_denied_3 :
    ∃ (s : State) (ag : Agent) (a : Addr) (data : List Byte) (bad : Bool), data ≠ [] ∧ s.answers ag = true ∧ (∀ o,
    s.region a.toNat ≠ .register o) ∧ s.region a.toNat ≠ .nts ∧ s.region a.toNat ≠ .outbound ∧ s.reaches ag a.toNat
    data.length = false ∧ bad = false :=
  ⟨Tests.root, .pcie, BitVec.ofNat 48 windowBase, [1], false, by decide, by decide, (fun _ h => by cases h),
  by decide, by decide, by decide, by decide⟩

theorem witness_agent_writes_store_or_are_denied_4 :
    ∃ (s : State) (ag : Agent), (s.held = true ∨ (s.pkg.halted = true ∧ ag ≠ .i3c)) :=
  ⟨{ State.reset with pkg := { PkgState.init with halted := true } }, .core, by decide⟩

theorem witness_agent_writes_store_or_are_denied_5 :
    ∃ (s : State) (ag : Agent) (a : Addr) (n : Nat), 1 ≤ n ∧ n ≤ 64 ∧ s.answers ag = true ∧ s.reaches ag a.toNat n =
    true ∧ s.awaitsTwin a.toNat n = false ∧ (((s.region a.toNat = .tier1 ∧ inTier1 a.toNat n = true) ∨ (s.region
    a.toNat = .tier2 ∧ s.inTier2 a.toNat n = true) ∨ ∃ d off k core o, s.region a.toNat = .window d off ∧
    s.windowPlace d off = .scratchpad k core o ∧ s.writable a.toNat n = true)) :=
  ⟨Tests.ready, .core, 0x100, 1, by decide, by decide, by decide, by decide, by decide,
  .inl (by decide)⟩

theorem witness_memory_upkeep_advances_1 :
    ∃ (ch : Fin 36), ch.val < 20 :=
  ⟨19, by decide⟩

theorem witness_canonical_map_follows_retired_set_0 :
    ∃ (n : Nat) (a : Nat), a ≤ n :=
  ⟨9, 8, by decide⟩

theorem witness_canonical_map_follows_retired_set_1 :
    ∃ (n : Nat) (a : Nat) (retired : Nat → Bool) (i : Nat), a ≤ n ∧ i < a ∧ retired i = false :=
  ⟨9, 8, fun p => p == 3, 7, by decide⟩

theorem witness_canonical_map_follows_retired_set_2 :
    ∃ (n : Nat) (a : Nat) (retired : Nat → Bool) (i : Nat), a ≤ n ∧ i < a ∧ retired i = true :=
  ⟨9, 8, fun p => p == 3, 3, by decide⟩

theorem witness_canonical_map_follows_retired_set_6 :
    ∃ (n : Nat) (a : Nat) (retired : Nat → Bool) (i : Nat), a ≤ n ∧ i < a ∧ retired i = true :=
  ⟨9, 8, fun p => p == 3, 3, by decide⟩

theorem witness_canonical_map_follows_retired_set_7 :
    ∃ (n : Nat) (a : Nat) (retired : Nat → Bool) (i : Nat) (j : Nat) (p : Nat), a ≤ n ∧ (canonicalMap n a retired)[i]?
    = some (some p) ∧ (canonicalMap n a retired)[j]? = some (some p) :=
  ⟨9, 8, fun p => p == 3, 3, 3, 8, by decide⟩

theorem witness_entries_issue_and_streams_move_0 :
    ∃ (s : State) (d : Fin 4) (c : Fin 16) (k : Fin 8) (x : Ent), s.entryAt d c k (s.seq (coreCode d c k)).next = some
    x ∧ x.die = d.val ∧ x.cl = c.val ∧ x.core = k.val ∧ s.stepRunning = true ∧ s.mayIssue d = true ∧ s.waitOk x.e.wait
    = true ∧ s.enginesBusy x = false ∧ s.weightBusy x = false ∧ s.staleOf x = none ∧ s.stashWait x = none ∧ s.traceOn
    = false :=
  ⟨Tests.dense 1, 0, 0, 0, Tests.entry1, by decide +kernel⟩

theorem witness_entries_issue_and_streams_move_1 :
    ∃ (s : State) (d : Fin 4) (c : Fin 16) (k : Fin 8) (st : Fin 16) (x : StreamD), s.streamD d c k st = some x ∧
    s.stepRunning = true ∧ x.dir = 0 ∧ (s.stream (streamKey d c k st)).issued < x.total ∧ (s.stream (streamKey d c k
    st)).held x.chunk < x.depth :=
  ⟨Tests.dense 1, 0, 0, 0, 0, Tests.streamIn, by decide⟩

theorem witness_entries_issue_and_streams_move_2 :
    ∃ (s : State) (d : Fin 4) (c : Fin 16) (k : Fin 8) (st : Fin 16) (x : StreamD), s.streamD d c k st = some x ∧
    s.stepRunning = true ∧ x.dir = 0 ∧ (s.stream (streamKey d c k st)).arrived < (s.stream (streamKey d c k
    st)).issued ∧ s.isPoisoned (x.chunkAddr (s.stream (streamKey d c k st)).arrived) x.chunk = false :=
  ⟨Tests.streaming, 0, 0, 0, 0, Tests.streamIn, by decide⟩

theorem witness_entries_issue_and_streams_move_3 :
    ∃ (s : State) (d : Fin 4) (c : Fin 16) (k : Fin 8) (st : Fin 16) (x : StreamD), s.streamD d c k st = some x ∧
    s.stepRunning = true ∧ x.dir = 1 ∧ (s.stream (streamKey d c k st)).written < x.total ∧ x.chunk ≤ (s.stream
    (streamKey d c k st)).buf.length ∧ s.inImageBuffer (x.chunkAddr (s.stream (streamKey d c k st)).written) x.chunk =
    false :=
  ⟨Tests.streaming, 0, 0, 0, 1, Tests.streamOut, by decide⟩

theorem witness_entries_complete_or_stop_step_0 :
    ∃ (s : State) (d : Fin 4) (c : Fin 16) (k : Fin 8) (n : Nat) (x : Ent) (fault : Option (Fin 8 × CheckFault)),
    s.entryAt d c k n = some x ∧ s.stepRunning = true ∧ (s.seq (coreCode d c k)).inFlight.contains n = true ∧
    s.dense.draining.contains (coreCode d c k) = false ∧ x.e.op ≠ 0x11 ∧ s.streamsReady x = true ∧ (∀ f ∈ fault,
    faultBlind f.2 = true) ∧ ((x.last = true → ∀ y ∈ (s.diePlan d).streams, y.core = coreCode d c k → y.dir = 0)) :=
  ⟨Tests.unstreamed, 0, 0, 0, 0, Tests.entry1, none, by decide⟩

theorem witness_entries_complete_or_stop_step_1 :
    ∃ (s : State) (d : Fin 4) (c : Fin 16) (k : Fin 8) (n : Nat) (x : Ent) (f : CheckFault), s.entryAt d c k n = some
    x ∧ s.stepRunning = true ∧ (s.seq (coreCode d c k)).inFlight.contains n = true ∧ s.dense.draining.contains
    (coreCode d c k) = false ∧ faultBlind f = false :=
  ⟨Tests.issued, 0, 0, 0, 0, Tests.entry1, .duplicate 0 0, by decide +kernel⟩

theorem witness_entries_complete_or_stop_step_2 :
    ∃ (s : State) (d : Fin 4) (c : Fin 16) (k : Fin 8) (e : Fin 8) (p : Nat × Nat × Nat × Nat),
    s.chk.twinPending.find? (fun p => p.1 == coreCode d c k && p.2.2.1 == e.val) = some p :=
  ⟨Tests.twin, 0, 0, 0, 0, (coreCode 0 0 0, 0, 0, 0), by decide⟩

theorem witness_entries_complete_or_stop_step_3 :
    ∃ (s : State) (d : Fin 4) (c : Fin 16) (k : Fin 8) (e : Fin 8) (p : Nat × Nat × Nat × Nat) (x : Ent),
    s.chk.twinPending.find? (fun p => p.1 == coreCode d c k && p.2.2.1 == e.val) = some p ∧ s.entryAt d c k p.2.1 =
    some x :=
  ⟨Tests.twin, 0, 0, 0, 0, (coreCode 0 0 0, 0, 0, 0), Tests.entry1, by decide +kernel⟩

theorem witness_press_jobs_run_and_complete_0 :
    ∃ (s : State) (a : State) (d : Fin 4) (c : Fin 16) (j : Job) (t : TableD) (dt : Tensor), s.readyJob d c 1 = some j
    ∧ s.table j.table = some t ∧ findTensor s.tensors j.data = some dt ∧ a = (s.scanAhead d j []).1.sendIndices t j ∧
    a.indicesHere t j.mb = true ∧ a.badOffset s.tensors t j = none ∧ a.lookupFault s.tensors t j = none :=
  ⟨Tests.dense 1, ((Tests.dense 1).scanAhead 0 (Tests.job1 1) []).1.sendIndices Tests.table1 (Tests.job1 1), 0, 0,
  Tests.job1 1, Tests.table1, Tests.tensor1, by decide +kernel, by decide +kernel, by decide +kernel, rfl,
  by decide +kernel, by decide +kernel, by decide +kernel⟩

theorem witness_press_jobs_run_and_complete_1 :
    ∃ (s : State) (d : Fin 4) (c : Fin 16) (j : Job) (t : TableD) (dt : Tensor), s.readyJob d c 2 = some j ∧ s.table
    j.table = some t ∧ findTensor s.tensors j.data = some dt ∧ s.gradsHere s.tensors t j dt d = true :=
  ⟨Tests.dense 2, 0, 0, Tests.job1 2, Tests.table1, Tests.tensor1, by decide +kernel⟩

theorem witness_press_jobs_run_and_complete_2 :
    ∃ (s : State) (d : Fin 4) (c : Fin 16) (p : PartMsg) (t : TableD) (g : GradRow) (h : GradRow), s.emb.parts.find?
    (fun p => p.die == d.val && p.owner == c.val) = some p ∧ s.table p.table = some t ∧ ((Tab.find p.row (s.bank d
    p.table).rows = some g ∨ Tab.find p.row (s.bank d p.table).rows = none ∧ (s.bank d p.table).rows.length <
    t.uniqueMax ∧ g = ⟨(s.bank d p.table).rows.length, 0, [], false, false⟩)) ∧ h = ⟨g.slot, g.occurrences +
    p.occurrences, g.parts ++ [(p.lo, p.size, p.values)], g.bad || p.bad, g.applied⟩ ∧ 16 + 4 * (h.root
    t.keyBits).length ≤ t.pendSlot ∧ s.inImageBuffer (t.bankAddr d s.stepIndex + g.slot * t.pendSlot) t.pendSlot =
    false :=
  ⟨Tests.gathering, 0, 0, Tests.part, Tests.table1, Tests.row5, Tests.row5b, by decide, by decide,
  .inl (by decide), by decide, by decide, by decide⟩

theorem witness_press_jobs_run_and_complete_3 :
    ∃ (s : State) (d : Fin 4) (c : Fin 16) (p : PartMsg) (t : TableD), s.emb.parts.find? (fun p => p.die == d.val &&
    p.owner == c.val) = some p ∧ s.table p.table = some t ∧ Tab.find p.row (s.bank d p.table).rows = none ∧
    t.uniqueMax ≤ (s.bank d p.table).rows.length :=
  ⟨Tests.overfull, 0, 0, Tests.part, Tests.table1, by decide⟩

theorem witness_press_jobs_run_and_complete_4 :
    ∃ (s : State) (d : Fin 4) (c : Fin 16) (j : Job) (t : TableD) (o : OptD) (row : Nat) (g : GradRow), s.readyJob d c
    3 = some j ∧ s.table j.table = some t ∧ t.idx = j.table ∧ c.val < s.imageClusters ∧ t.staleness = 0 ∧
    s.embD.opts[t.opt]? = some o ∧ o.kind ≠ 1 ∧ s.gradsComplete d t.idx = true ∧ s.chk.twinPending = [] ∧ (s.bank d
    t.idx).rows = [(row, g)] ∧ s.ownerOf row = c.val ∧ g.applied = false ∧ g.bad = false ∧ (s.lrRange o (s.embD.t0 +
    (s.bank d t.idx).step)).any (fun r => s.isPoisoned r.1 r.2) = false ∧ s.isPoisoned (t.rowAddr s.embD d row)
    (s.embD.stride t) = false ∧ s.lineOf d t.idx row = none ∧ s.stagedAddr d t.idx row t = none :=
  ⟨Tests.gathered, 0, 0, Tests.job1 3, Tests.table0, Tests.sgd, 0, Tests.row0, by decide +kernel⟩

theorem witness_press_jobs_run_and_complete_5 :
    ∃ (s : State) (d : Fin 4) (c : Fin 16) (j : Job) (t : TableD), s.readyJob d c 3 = some j ∧ s.table j.table = some
    t ∧ t.staleness ≠ 0 :=
  ⟨Tests.dense 3, 0, 0, Tests.job1 3, Tests.table1, by decide +kernel⟩

theorem witness_press_jobs_run_and_complete_6 :
    ∃ (s : State) (d : Fin 4) (n : Fin 256) (t : TableD) (o : OptD) (k : Nat) (row : Nat) (g : GradRow), s.table n =
    some t ∧ t.idx = n.val ∧ t.staleness = 1 ∧ s.stepRunning = true ∧ s.jobsRetired d 1 n = true ∧ s.embD.opts[t.opt]?
    = some o ∧ o.kind ≠ 1 ∧ Tab.find (bankKey d n) s.emb.prev = some ⟨k, [(row, g)]⟩ ∧ s.ownerOf row < s.imageClusters
    ∧ s.updateIssued d (s.ownerOf row) n = true ∧ g.applied = false ∧ g.bad = false ∧ (s.lrRange o (s.embD.t0 +
    k)).any (fun r => s.isPoisoned r.1 r.2) = false ∧ s.isPoisoned (t.rowAddr s.embD d row) (s.embD.stride t) = false
    ∧ s.lineOf d n row = none ∧ s.stagedAddr d n row t = none :=
  ⟨Tests.pendingBank, 0, 0, Tests.table1, Tests.sgd, 0, 0, Tests.row0, by decide⟩

theorem witness_press_jobs_run_and_complete_7 :
    ∃ (s : State) (d : Fin 4) (c : Fin 16) (j : Job), (s.plan d c).jobs[(s.press d c).next]? = some j ∧ s.stepRunning
    = true ∧ (s.press d c).running = true ∧ (s.press d c).waiting = false ∧ ((j.kind = 1 → ∀ t, s.table j.table = some
    t → s.outputsHere t j d = true)) ∧ ((j.kind = 3 → ∀ t, s.table j.table = some t → s.rowsApplied t d c = true)) ∧
    ((j.kind = 4 → (s.nts j.table).waits = false)) :=
  ⟨Tests.pressing, 0, 0, Tests.job1 1, by decide +kernel, by decide +kernel, by decide +kernel, by decide +kernel,
  (fun _ t h => by obtain rfl : Tests.table1 = t := Option.some.inj ((by decide +kernel : Tests.pressing.table 0 = some Tests.table1).symm.trans h); decide +kernel),
  nofun, nofun⟩

theorem witness_row_update_writes_home_record_0 :
    ∃ (s : State) (t : TableD) (p : OptPass) (d : Fin 4) (row : Nat) (step : Nat) (g : GradRow), g.bad = false ∧
    (s.lrRange p.o (s.embD.t0 + step)).any (fun r => s.isPoisoned r.1 r.2) = false ∧ s.isPoisoned (t.rowAddr s.embD d
    row) (s.embD.stride t) = false ∧ s.lineOf d t.idx row = none ∧ s.stagedAddr d t.idx row t = none :=
  ⟨State.reset, Tests.table1, Tests.pass1, 0, 0, 0, Tests.row5, by decide⟩

theorem witness_row_update_writes_home_record_1 :
    ∃ (s : State) (t : TableD) (p : OptPass) (d : Fin 4) (row : Nat) (step : Nat) (g : GradRow) (t2 : Nat) (x : Nat),
    g.bad = false ∧ (s.lrRange p.o (s.embD.t0 + step)).any (fun r => s.isPoisoned r.1 r.2) = false ∧ s.isPoisoned
    (t.rowAddr s.embD d row) (s.embD.stride t) = false ∧ s.lineOf d t.idx row = none ∧ s.stagedAddr d t.idx row t =
    none ∧ (x < t.rowAddr s.embD d row ∨ t.rowAddr s.embD d row + (s.newRecord t p d row step (g.root t.keyBits)
    t2).1.length ≤ x) ∧ (s.fldB Reg.fltCkptCtrlEnable = false ∨ x < s.fld (Reg.fltCkptBaseBase d) ∨ s.fld
    (Reg.fltCkptBaseBase d) + s.fld (Reg.fltCkptNeedNeed d) ≤ x) :=
  ⟨State.reset, Tests.table1, Tests.pass1, 0, 1, 0, Tests.row5, 0, 0, by decide⟩

theorem witness_row_update_writes_home_record_2 :
    ∃ (s : State) (t : TableD) (p : OptPass) (d : Fin 4) (row : Nat) (step : Nat) (g : GradRow), g.bad = false ∧
    (s.lrRange p.o (s.embD.t0 + step)).any (fun r => s.isPoisoned r.1 r.2) = false ∧ s.isPoisoned (t.rowAddr s.embD d
    row) (s.embD.stride t) = false ∧ s.lineOf d t.idx row = none ∧ s.stagedAddr d t.idx row t = none ∧ s.fldB
    Reg.fltCkptCtrlEnable = true :=
  ⟨State.reset.setFld Reg.fltCkptCtrlEnable 1, Tests.table1, Tests.pass1, 0, 0, 0, Tests.row5, by decide⟩

theorem witness_serving_slots_export_and_switch_0 :
    ∃ (s : State) (d : Fin 4) (c : Fin 16) (j : Job) (sd : NtsD) (t : TableD), s.readyJob d c 4 = some j ∧ s.slotD
    j.table = some sd ∧ s.table sd.table = some t ∧ s.exportBad sd t d = false ∧ s.columnsHere j.table sd t d = true ∧
    (((s.nts j.table).export_ = none ∨ s.stepIndex ≤ (s.nts j.table).step)) :=
  ⟨Tests.dense 4, 0, 0, Tests.job1 4, Tests.slot1, Tests.table1, by decide +kernel⟩

theorem witness_serving_slots_export_and_switch_1 :
    ∃ (s : State) (slot : Fin 64) (sd : NtsD), s.slotD slot = some sd ∧ (s.nts slot).waits = true ∧ s.ntsHolders slot
    (1 - (s.nts slot).active) = 0 :=
  ⟨Tests.exporting true 0, 0, Tests.slot1, by decide⟩

theorem witness_serving_slots_export_and_switch_2 :
    ∃ (s : State) (slot : Fin 64) (sd : NtsD), s.slotD slot = some sd ∧ (s.nts slot).export_.isSome = true ∧ (s.nts
    slot).waits = false ∧ (s.nts slot).step < s.stepIndex :=
  ⟨Tests.exporting false 1, 0, Tests.slot1, by decide +kernel⟩

theorem witness_serving_slots_export_and_switch_3 :
    ∃ (s : State) (v : Word), s.pkg.ready = true ∧ bit v.toNat 63 = true :=
  ⟨Tests.ready, 2 ^ 63, by decide +kernel⟩

theorem witness_serving_slots_export_and_switch_4 :
    ∃ (s : State) (d : Fin 4) (c : Fin 16) (off : Nat) (l : GrottoLine), s.emb.lines.find? (fun l => l.die == d.val &&
    l.cluster == c.val && l.copying &&
    (match s.table l.table with | some t => s.lineAddr t l == grottoAddr d c + off | none => false)) = some l ∧
    l.overlay = none :=
  ⟨Tests.copying, 0, 0, 0, Tests.line, by decide⟩

theorem witness_frames_parse_pass_and_end_0 :
    ∃ (s : State) (c : Fin 16) (bytes : List Byte), s.portUp c = true ∧ (parseFrame (s.parseCfg c) bytes).early = none
    ∧ (parseFrame (s.parseCfg c) bytes).mac = none :=
  ⟨Tests.port Tests.ready, 0, List.replicate 64 0x22, by decide⟩

theorem witness_frames_parse_pass_and_end_1 :
    ∃ (s : State) (c : Fin 16), s.portUp c = false :=
  ⟨State.reset, 0, by decide⟩

theorem witness_frames_parse_pass_and_end_2 :
    ∃ (s : State) (i : Nat) (f : Frame), s.frame i = some f ∧ f.verdict = none ∧ f.stage = 0 :=
  ⟨Tests.framed Tests.frame, 0, Tests.frame, by decide⟩

theorem witness_frames_parse_pass_and_end_3 :
    ∃ (s : State) (i : Nat) (f : Frame), s.frame i = some f ∧ f.stage = 0 ∧ aRecirc (s.lookupKey s.activeBank (ruleKey
    f.parsed f.port 0 0)).2.1 = true :=
  ⟨Tests.acting (2 ^ 33), 0, Tests.frame, by decide +kernel⟩

theorem witness_frames_parse_pass_and_end_4 :
    ∃ (s : State) (i : Nat) (f : Frame), s.frame i = some f ∧ f.verdict = none ∧ f.stage = 0 ∧ (s.lookupKey
    s.activeBank (ruleKey f.parsed f.port 0 0)).2.1 = 0 :=
  ⟨Tests.acting 0, 0, Tests.frame, by decide +kernel⟩

theorem witness_frames_parse_pass_and_end_5 :
    ∃ (s : State) (i : Nat) (f : Frame), s.frame i = some f ∧ f.verdict = none ∧ f.stage = 1 ∧ ((s.lookupKey f.bank
    (ruleKey f.parsed f.port 1 f.metaWord)).2.1 = 0 ∨ aRecirc (s.lookupKey f.bank (ruleKey f.parsed f.port 1
    f.metaWord)).2.1 = true) :=
  ⟨(Tests.framed { Tests.frame with stage := 1 }).setBankWord 0 8 1 0 0, 0, { Tests.frame with stage := 1 },
  by decide +kernel⟩

theorem witness_halves_send_pause_and_train_0 :
    ∃ (s : State) (c : Fin 16) (j : TxJob), s.portUp c = true ∧ (s.half c).idle = true ∧ s.replyQueue (c / 2) = [] ∧
    s.nextForward c = none ∧ s.nextPtp c = none ∧ s.nextTx c = some j :=
  ⟨(let s := Tests.port Tests.ready; { s with hub := { s.hub with txJobs := [⟨0, 0, 0, [], 0, 0, 0, 0, 0, false⟩] }
  }), 0, ⟨0, 0, 0, [], 0, 0, 0, 0, 0, false⟩, by decide⟩

theorem witness_halves_send_pause_and_train_1 :
    ∃ (s : State) (c : Fin 16) (m : PtpOut), s.portUp c = true ∧ (s.half c).idle = true ∧ s.replyQueue (c / 2) = [] ∧
    s.nextForward c = none ∧ s.nextPtp c = some m :=
  ⟨(let s := Tests.port Tests.ready; { s with wire := { s.wire with ptpOut := [⟨0, 2, 0, 0, 0⟩] } }), 0, ⟨0, 2, 0, 0,
  0⟩, by decide⟩

theorem witness_halves_send_pause_and_train_2 :
    ∃ (s : State) (c : Fin 16) (x : Nat × Nat × Nat), s.portUp c = true ∧ (s.half c).idle = true ∧ s.replyQueue (c /
    2) = [] ∧ s.nextForward c = some x :=
  ⟨Tests.forwarding, 0, (0, 7, 64), by decide⟩

theorem witness_halves_send_pause_and_train_3 :
    ∃ (s : State) (n : Fin 8) (i : Nat) (f : Frame) (r : Reply), (s.dropReplies n).nextReply n none = some (i, f, r) :=
  ⟨Tests.replying, 0, 0, Tests.replyFrame, Tests.reply0, by decide⟩

theorem witness_halves_send_pause_and_train_4 :
    ∃ (s : State) (i : Nat) (f : Frame) (r : Reply) (o : TxOut), s.frame i = some f ∧ f.reply = some r ∧ (s.half
    f.port).out = some o ∧ r.sending = true ∧ o.reply = true ∧ o.frame = some i ∧ o.decided = false :=
  ⟨Tests.settling, 0, Tests.sendingFrame, { Tests.reply0 with sending := true }, ⟨some 0, true, [], false, false,
  false⟩, by decide⟩

theorem witness_halves_send_pause_and_train_5 :
    ∃ (s : State) (c : Fin 16) (q : Fin 8), s.paused c q = true :=
  ⟨Tests.ready.setPaused 0 7 100, 0, 7, by decide⟩

theorem witness_halves_send_pause_and_train_6 :
    ∃ (s : State) (c : Fin 16) (q : Fin 8), s.pfcEnabled c q = true ∧ (s.half c).xoff.contains q.val = true ∧ s.fld
    (Reg.wirePfcThreshXonKib (c / 2) q) * 1024 < s.charge c q :=
  ⟨Tests.held, 0, 7, by decide⟩

theorem witness_halves_send_pause_and_train_7 :
    ∃ (s : State) (c : Fin 16), s.halfExists c = true :=
  ⟨Tests.ready.setFld (Reg.wirePortCtrlMode 7) 2, 15, by decide⟩

theorem witness_halves_send_pause_and_train_9 :
    ∃ (s : State) (c : Fin 16), s.tcMode c = 2 ∧ s.portUp c = true :=
  ⟨Tests.p2p, 0, by decide⟩

theorem witness_halves_send_pause_and_train_10 :
    ∃ (s : State) (c : Fin 16), s.tcMode c = 2 :=
  ⟨Tests.p2p, 0, by decide⟩

theorem witness_banks_swap_and_flows_age_0 :
    ∃ (s : State) (v : Word), s.pkg.ready = true ∧ bit v.toNat 63 = true :=
  ⟨Tests.ready, 2 ^ 63, by decide +kernel⟩

theorem witness_banks_swap_and_flows_age_1 :
    ∃ (s : State) (b : Nat) (r : Nat) (i : Nat) (k : Nat), s.pkg.ready = true ∧ s.fld Reg.clsBankAddrBank = b ∧ s.fld
    Reg.clsBankAddrRegion = r ∧ s.fld Reg.clsBankAddrIndex = i ∧ s.fld Reg.clsBankAddrWord = k ∧ i < (bankRegion r).1
    ∧ k < (bankRegion r).2 ∧ r ≠ 9 :=
  ⟨Tests.ready.setFld Reg.clsBankAddrBank 1, 1, 0, 0, 0, by decide⟩

theorem witness_banks_swap_and_flows_age_2 :
    ∃ (s : State) (b : Nat) (r : Nat) (i : Nat) (k : Nat), s.fld Reg.clsBankAddrBank = b ∧ s.fld Reg.clsBankAddrRegion
    = r ∧ s.fld Reg.clsBankAddrIndex = i ∧ s.fld Reg.clsBankAddrWord = k ∧ i < (bankRegion r).1 ∧ k < (bankRegion r).2 :=
  ⟨State.reset, 0, 0, 0, 0, by decide⟩

theorem witness_banks_swap_and_flows_age_3 :
    ∃ (s : State) (v : Word), s.pkg.ready = true ∧ bit v.toNat 63 = true :=
  ⟨Tests.ready, 2 ^ 63, by decide +kernel⟩

theorem witness_slice_evaluation_queues_reply_0 :
    ∃ (s : State) (j : Fin 16) (i : Nat) (rest : List Nat) (f : Frame), Tab.get [] j.val s.wire.sliceQueues = i ::
    rest ∧ s.frame i = some f ∧ f.verdict = none ∧ s.stillServed f j = false :=
  ⟨Tests.unserved, 0, 0, [], Tests.frame, by decide⟩

theorem witness_slice_evaluation_queues_reply_1 :
    ∃ (s : State) (j : Fin 16) (i : Nat) (rest : List Nat) (f : Frame), Tab.get [] j.val s.wire.sliceQueues = i ::
    rest ∧ s.frame i = some f ∧ f.verdict = none ∧ s.stillServed f j = true ∧ f.poisoned = false ∧ (horizon
    (s.modelFor f).encoder f.parsed (encSelect (s.modelFor f).encoder ((f.parsed.krf.map Krf.model).getD 0))).1 <
    f.bytes.length - 4 ∧ (s.replyQueue (f.port / 2)).length < 32 ∧ encSelect (s.modelFor f).encoder ((f.parsed.krf.map
    Krf.model).getD 0) = none :=
  ⟨Tests.slicing [], 0, 0, [], Tests.frame, by decide⟩

theorem witness_slice_evaluation_queues_reply_2 :
    ∃ (s : State) (j : Fin 16) (i : Nat) (rest : List Nat) (f : Frame) (k : Nat), Tab.get [] j.val s.wire.sliceQueues
    = i :: rest ∧ s.frame i = some f ∧ f.verdict = none ∧ s.stillServed f j = true ∧ f.poisoned = false ∧ (horizon
    (s.modelFor f).encoder f.parsed (encSelect (s.modelFor f).encoder ((f.parsed.krf.map Krf.model).getD 0))).1 <
    f.bytes.length - 4 ∧ (s.replyQueue (f.port / 2)).length < 32 ∧ encSelect (s.modelFor f).encoder ((f.parsed.krf.map
    Krf.model).getD 0) = some k ∧ k ≠ le ((s.modelFor f).slice j) 2 1 :=
  ⟨Tests.slicing (Tests.encoder 5), 0, 0, [], Tests.frame, 5, by decide⟩

theorem witness_slice_evaluation_queues_reply_3 :
    ∃ (s : State) (j : Fin 16) (i : Nat) (rest : List Nat) (f : Frame) (k : Nat), Tab.get [] j.val s.wire.sliceQueues
    = i :: rest ∧ s.frame i = some f ∧ f.verdict = none ∧ s.stillServed f j = true ∧ f.poisoned = false ∧ (horizon
    (s.modelFor f).encoder f.parsed (encSelect (s.modelFor f).encoder ((f.parsed.krf.map Krf.model).getD 0))).1 <
    f.bytes.length - 4 ∧ (s.replyQueue (f.port / 2)).length < 32 ∧ encSelect (s.modelFor f).encoder ((f.parsed.krf.map
    Krf.model).getD 0) = some k ∧ k = le ((s.modelFor f).slice j) 2 1 ∧ (∀ r ∈ (encFields (s.modelFor f).encoder
    k).map fun r => s.fieldCode f (s.modelFor f).encoder (encFields (s.modelFor f).encoder k) r, r.2.2 = none) :=
  ⟨Tests.slicing (Tests.encoder 0), 0, 0, [], Tests.frame, 0, by decide⟩

theorem witness_clock_adjustments_wait_and_apply_0 :
    ∃ (s : State), s.pkg.ready = true :=
  ⟨Tests.ready, by decide⟩

theorem witness_clock_adjustments_wait_and_apply_2 :
    ∃ (s : State) (r : TimeReq), s.time.req = some r ∧ s.reqAtEdge = false ∧ s.wholeMicro = true :=
  ⟨{ Tests.ready with time := { TimeState.init with req := some (.step (-1)) } }, .step (-1), by decide⟩

theorem witness_rate_write_is_clamped_or_discarded_0 :
    ∃ (s : State), s.pkg.ready = true :=
  ⟨Tests.ready, by decide⟩

theorem witness_clock_follows_its_source_0 :
    ∃ (s : State), s.timeSource ≠ srcFree :=
  ⟨Tests.ready.setFld Reg.timeCtrlSource srcExt, by decide⟩

theorem witness_clock_follows_its_source_1 :
    ∃ (s : State), s.timeSource = srcExt :=
  ⟨Tests.ready.setFld Reg.timeCtrlSource srcExt, by decide⟩

theorem witness_clock_follows_its_source_2 :
    ∃ (s : State), s.timeSource ≠ srcExt :=
  ⟨Tests.ready, by decide⟩

theorem witness_clock_follows_its_source_3 :
    ∃ (s : State), s.timeSource = srcExt ∧ s.servo = timeAcquiring ∧ s.time.within = 2 ∧ s.clock.ns ≤ 2 ∧ s.clock.sec
    ≤ secLimit ∧ s.time.req = none ∧ s.pkg.pairs.contains true = true :=
  ⟨{ (Tests.ready.setFld Reg.timeCtrlSource srcExt).setFld Reg.timeStatusState timeAcquiring with time := {
  TimeState.init with within := 2 } }, by decide⟩

theorem witness_clock_follows_its_source_4 :
    ∃ (s : State) (l : Fin 16), s.obcUp l = true :=
  ⟨Tests.obcor Tests.ready, 0, by decide⟩

theorem witness_clock_follows_its_source_6 :
    ∃ (s : State) (l : Fin 16), s.obcUp l = false :=
  ⟨State.reset, 0, by decide⟩

theorem witness_ptp_messages_follow_port_state_0 :
    ∃ (s : State) (x : PtpIn) (rest : List PtpIn), s.time.ptpIn = x :: rest ∧ be x.bytes 4 1 = s.fld
    Reg.timeCtrlDomain ∧ s.pkg.pairs.contains true = true :=
  ⟨{ Tests.ready with time := { TimeState.init with ptpIn := [⟨List.replicate 44 0, 0⟩] } }, ⟨List.replicate 44 0, 0⟩,
  [], by decide⟩

theorem witness_ptp_messages_follow_port_state_1 :
    ∃ (s : State) (x : PtpIn) (rest : List PtpIn), s.time.ptpIn = x :: rest ∧ (be x.bytes 4 1 ≠ s.fld
    Reg.timeCtrlDomain ∨ s.pkg.pairs.contains true = false) :=
  ⟨{ Tests.ready with time := { TimeState.init with ptpIn := [⟨List.replicate 44 1, 0⟩] } }, ⟨List.replicate 44 1, 0⟩,
  [], by decide⟩

theorem witness_ptp_messages_follow_port_state_2 :
    ∃ (s : State), s.time.ptpIn = [] :=
  ⟨State.reset, by decide⟩

theorem witness_ptp_messages_follow_port_state_3 :
    ∃ (s : State) (k : BitVec 4), s.mayGenerate k.toNat = true ∧ s.portUp (s.fld Reg.timeCtrlOcPort) = true :=
  ⟨(Tests.port Tests.ready).setFld Reg.timeStatusPortState portMaster, 0, by decide⟩

theorem witness_pulses_rise_and_fall_0 :
    ∃ (s : State) (i : Fin 4) (e : Nat), Tab.find i.val s.time.pulseNext = some e ∧ e ≤ s.glc :=
  ⟨{ Tests.ready with time := { TimeState.init with pulseNext := [(3, 0)] } }, 3, 0, by decide⟩

theorem witness_pulses_rise_and_fall_1 :
    ∃ (s : State) (i : Fin 4) (e : Nat), Tab.find i.val s.time.pulseEnds = some e ∧ e ≤ s.glc :=
  ⟨{ Tests.ready with time := { TimeState.init with pulseEnds := [(3, 0)] } }, 3, 0, by decide⟩

theorem witness_rings_take_and_complete_work_0 :
    ∃ (s : State) (cls : Fin 5) (i : Fin 4096), i.val < ringCount cls.val ∧ (s.ring cls i).live = true :=
  ⟨Tests.ready.setRing clsTx 255 Tests.ring, ⟨clsTx, by decide⟩, 255, by decide⟩

theorem witness_rings_take_and_complete_work_1 :
    ∃ (s : State) (v : Word) (cls : Nat) (i : Nat), s.pkg.ready = true ∧ s.selRing = some (cls, i) ∧ (s.ring cls
    i).enable = false ∧ Reg.hubRingCfgEnable.of v.toNat = 1 :=
  ⟨Tests.ready.setFld Reg.hubRingSelClass clsTx, 1, clsTx, 0, by decide⟩

theorem witness_rings_take_and_complete_work_2 :
    ∃ (s : State) (v : Word) (cls : Nat) (i : Nat), s.pkg.ready = true ∧ s.selRing = some (cls, i) ∧ (s.ring cls
    i).enable = true ∧ Reg.hubRingCfgEnable.of v.toNat = 0 :=
  ⟨(Tests.ready.setRing clsTx 0 Tests.ring).setFld Reg.hubRingSelClass clsTx, 0, clsTx, 0, by decide⟩

theorem witness_rings_take_and_complete_work_3 :
    ∃ (s : State) (i : Fin 256) (e : List Byte), (s.ring clsTx i).live = true ∧ (s.ring clsTx i).posted ≠ (s.ring
    clsTx i).taken ∧ (s.ring clsCpl (s.ring clsTx i).cpl).cplFull = false ∧ s.read ((s.ring clsTx i).entryAddr clsTx
    (s.ring clsTx i).taken) 32 = e ∧ s.awaitsTwin (le e 0 8) (le e 8 2) = false :=
  ⟨Tests.ready.setRing clsTx 0 { Tests.ring with posted := 1 }, 0, List.replicate 32 0, by decide⟩

theorem witness_rings_take_and_complete_work_4 :
    ∃ (s : State) (i : Fin 256) (j : TxJob), s.hub.txJobs.find? (fun j => j.ring == i.val) = some j ∧ j.left = true ∧
    (s.ring clsCpl (s.ring clsTx i).cpl).cplFull = false ∧ (s.ring clsTx i).done = j.entry ∧ (s.ring clsTx i).early =
    [] ∧ ((bit j.flags 2 = true → (s.ring clsCpl (s.ring clsTx i).cpl).live = true ∧ (s.ring clsCpl (s.ring clsTx
    i).cpl).early = [])) :=
  ⟨{ Tests.ready.setRing clsTx 0 Tests.ring with hub := { HubState.init with txJobs := [⟨0, 0, 0, [], 0, 0, 0, 2, 0,
  false⟩] } }, 0, ⟨0, 0, 0, [], 0, 0, 0, 2, 0, false⟩, by decide⟩

theorem witness_rings_take_and_complete_work_5 :
    ∃ (s : State) (i : Fin 256), (s.ring clsCpl (s.ring clsTx i).cpl).cplFull = true :=
  ⟨Tests.ready.setRing clsCpl 0 { Tests.ring with done := 16 }, 0, by decide⟩

theorem witness_interrupts_are_held_off_and_routed_0 :
    ∃ (s : State) (cls : Fin 5) (i : Fin 4096), (s.ring cls i).waiting = true ∧ (s.ring cls i).irq < 528 :=
  ⟨Tests.ready.setRing clsTx 0 { Tests.ring with waiting := true, irq := 511 }, ⟨clsTx, by decide⟩, 0,
  by decide⟩

theorem witness_interrupts_are_held_off_and_routed_1 :
    ∃ (s : State), s.pkg.ready = true :=
  ⟨Tests.ready, by decide⟩

theorem witness_interrupts_are_held_off_and_routed_2 :
    ∃ (s : State) (n : Fin 528) (v : Word), s.pkg.ready = true ∧ destLive (s.fld (Reg.hubIrqRouteDest n)) = false ∧
    (Reg.hubIrqRouteDest n).of v.toNat = 2 ∧ (Reg.hubIrqRoutePending n).of v.toNat = 0 ∧ s.fld (Reg.hubIrqRoutePending
    n) = 1 ∧ (s.msixVector ((Reg.hubIrqRouteVector n).of v.toNat)).masked = true :=
  ⟨Tests.masked, 527, 2, by decide⟩

theorem witness_service_requests_are_answered_0 :
    ∃ (s : State) (i : Fin 2) (a : Nat), s.svcRequest i = some a ∧ (s.ring clsSvc i).early = [] ∧ overlaps a 64
    (s.ring clsSvc i).report 4 = false ∧ s.inImageBuffer a 64 = false ∧ le (s.read a 2) 0 2 = 1 :=
  ⟨Tests.service 1 [], 0, 0x1000, by decide⟩

theorem witness_service_requests_are_answered_1 :
    ∃ (s : State) (i : Fin 2) (a : Nat), s.svcRequest i = some a ∧ (s.ring clsSvc i).early = [] ∧ overlaps a 64
    (s.ring clsSvc i).report 4 = false ∧ s.inImageBuffer a 64 = false ∧ le (s.read a 2) 0 2 = 6 :=
  ⟨Tests.service 6 [], 0, 0x1000, by decide⟩

theorem witness_service_requests_are_answered_2 :
    ∃ (s : State) (i : Fin 2) (a : Nat) (d : Nat), s.svcRequest i = some a ∧ (s.ring clsSvc i).early = [] ∧ overlaps a
    64 (s.ring clsSvc i).report 4 = false ∧ s.inImageBuffer a 64 = false ∧ le (s.read (a + 16) 48) 0 8 = d ∧ le
    (s.read a 2) 0 2 = 2 :=
  ⟨Tests.service 2 [], 0, 0x1000, 0, by decide⟩

theorem witness_service_requests_are_answered_3 :
    ∃ (s : State) (i : Fin 2) (a : Nat) (d : Nat) (n : Nat), s.svcRequest i = some a ∧ (s.ring clsSvc i).early = [] ∧
    overlaps a 64 (s.ring clsSvc i).report 4 = false ∧ s.inImageBuffer a 64 = false ∧ le (s.read (a + 16) 48) 0 8 = d
    ∧ le (s.read (a + 16) 48) 8 8 = n ∧ le (s.read a 2) 0 2 = 3 :=
  ⟨Tests.service 3 [(8, 104)], 0, 0x1000, 0, 104, by decide⟩

theorem witness_service_requests_are_answered_4 :
    ∃ (s : State) (i : Fin 2) (a : Nat), s.svcRequest i = some a ∧ (s.ring clsSvc i).early = [] ∧ overlaps a 64
    (s.ring clsSvc i).report 4 = false ∧ s.inImageBuffer a 64 = false ∧ le (s.read a 2) 0 2 = 7 ∧ le (s.read (a + 16)
    48) 4 1 = 1 :=
  ⟨Tests.service 7 [(4, 1)], 0, 0x1000, by decide⟩

theorem witness_service_requests_are_answered_5 :
    ∃ (s : State) (i : Fin 2) (a : Nat) (v : Nat), s.svcRequest i = some a ∧ (s.ring clsSvc i).early = [] ∧ overlaps a
    64 (s.ring clsSvc i).report 4 = false ∧ s.inImageBuffer a 64 = false ∧ le (s.read a 2) 0 2 = 7 ∧ le (s.read (a +
    16) 48) 4 1 ≠ 1 ∧ Tab.find (le (s.read (a + 16) 48) 0 4) s.hub.ptpData = some v :=
  ⟨(let s := Tests.service 7 []; { s with hub := { s.hub with ptpData := [(0, 3)] } }), 0, 0x1000, 3,
  by decide⟩

theorem witness_service_requests_are_answered_6 :
    ∃ (s : State) (i : Fin 2) (a : Nat), s.svcRequest i = some a ∧ (s.ring clsSvc i).early = [] ∧ overlaps a 64
    (s.ring clsSvc i).report 4 = false ∧ s.inImageBuffer a 64 = false ∧ le (s.read a 2) 0 2 = 5 :=
  ⟨Tests.service 5 [], 0, 0x1000, by decide⟩

theorem witness_service_requests_are_answered_7 :
    ∃ (s : State) (i : Fin 2) (a : Nat), s.svcRequest i = some a ∧ (s.ring clsSvc i).early = [] ∧ overlaps a 64
    (s.ring clsSvc i).report 4 = false ∧ s.inImageBuffer a 64 = false ∧ le (s.read a 2) 0 2 = 4 ∧ s.groupTaken 0x02000
    = false ∧ s.loadState ≠ loadDistributing ∧ s.loadState ≠ loadRunning ∧ s.loadState ≠ loadStopping ∧ le (s.read (a
    + 16) 3) 0 1 = 2 :=
  ⟨Tests.service 4 [(0, 2)], 0, 0x1000, by decide⟩

theorem witness_service_requests_are_answered_8 :
    ∃ (s : State) (i : Fin 2) (a : Nat), s.svcRequest i = some a ∧ (s.ring clsSvc i).early = [] ∧ overlaps a 64
    (s.ring clsSvc i).report 4 = false ∧ s.inImageBuffer a 64 = false ∧ le (s.read a 2) 0 2 = 4 ∧ s.groupTaken 0x02000
    = false ∧ s.loadState ≠ loadDistributing ∧ s.loadState ≠ loadRunning ∧ s.loadState ≠ loadStopping ∧ (le (s.read (a
    + 16) 3) 0 1 = 1 ∨ le (s.read (a + 16) 3) 0 1 = 3) :=
  ⟨Tests.service 4 [(0, 1)], 0, 0x1000, by decide⟩

theorem witness_service_requests_are_answered_9 :
    ∃ (s : State) (i : Fin 2) (a : Nat) (c : Instr), s.svcRequest i = some a ∧ (s.ring clsSvc i).early = [] ∧ overlaps
    a 64 (s.ring clsSvc i).report 4 = false ∧ s.inImageBuffer a 64 = false ∧ c ∈ [Instr.identity i, .dripstoneCopy i,
    .firmwareStage i, .fleetJoin i, .fleetLeave i, .coreState i, .ptpDataset i] ∧ (le (s.read a 2) 0 2 = 0 ∨ 7 < le
    (s.read a 2) 0 2) :=
  ⟨Tests.service 8 [], 0, 0x1000, .identity 0, by decide⟩

theorem witness_failed_cores_are_replaced_0 :
    ∃ (s : State), s.pkg.pairs = [true, true] ∧ s.pkg.activePair < 2 :=
  ⟨State.reset, by decide⟩

theorem witness_failed_cores_are_replaced_1 :
    ∃ (s : State), s.pkg.pairs = [false, false] :=
  ⟨{ State.reset with pkg := { PkgState.init with pairs := [false, false] } }, by decide⟩

theorem witness_failed_cores_are_replaced_2 :
    ∃ (s : State), (s.pkg.pairs = [true, false] ∨ s.pkg.pairs = [false, true]) :=
  ⟨{ State.reset with pkg := { PkgState.init with pairs := [true, false] } }, by decide⟩

theorem witness_failed_cores_are_replaced_3 :
    ∃ (s : State) (k : Fin 72), s.pkg.retiredCores.contains k.val = false ∧ (s.unit (unitKey 10 k)).state ≠ stRetired :=
  ⟨State.reset, 71, by decide⟩

theorem witness_obcor_links_train_replay_and_relay_0 :
    ∃ (s : State) (l : Fin 16), s.past 5 = true ∧ s.obcUp l = false ∧ s.fldB (Reg.obcLinkCtrlEnable l) = true :=
  ⟨Tests.ready.setFld (Reg.obcLinkCtrlEnable 15) 1, 15, by decide⟩

theorem witness_obcor_links_train_replay_and_relay_1 :
    ∃ (s : State) (l : Fin 16), s.obcUp l = true :=
  ⟨Tests.obcor Tests.ready, 0, by decide⟩

theorem witness_obcor_links_train_replay_and_relay_2 :
    ∃ (s : State) (l : Fin 16), s.obcUp l = true :=
  ⟨Tests.obcor Tests.ready, 0, by decide⟩

theorem witness_obcor_links_train_replay_and_relay_3 :
    ∃ (s : State) (l : Fin 16) (d : BitVec 13), s.obcUp l = true ∧ d.toNat ≠ s.fleetIndex :=
  ⟨Tests.obcor Tests.ready, 0, 4096, by decide⟩

theorem witness_obcor_links_train_replay_and_relay_7 :
    ∃ (m : DataMsg), m.data.length < 2 ^ 32 :=
  ⟨⟨0, 0, 0, 0, 0, 0, 0, [1]⟩, by decide⟩

theorem witness_manager_tracks_its_workers_0 :
    ∃ (s : State) (l : Fin 16) (serial : BitVec 128) (prev : BitVec 13) (i : Nat), s.manages = true ∧ s.obcUp l = true
    ∧ s.indexFor serial.toNat prev.toNat = some i :=
  ⟨Tests.obcor (Tests.manager none), 0, 8, 0, 2, by decide +kernel⟩

theorem witness_manager_tracks_its_workers_1 :
    ∃ (s : State) (w : BitVec 13), s.manages = true ∧ s.chk.reports = [] ∧ (s.setOf w.toNat).2 = [w.toNat] :=
  ⟨Tests.manager none, 1, by decide⟩

theorem witness_manager_tracks_its_workers_2 :
    ∃ (s : State) (w : BitVec 13) (step : BitVec 64), s.manages = true ∧ s.chk.reports = [] ∧ (∃ m ∈ (s.setOf
    w.toNat).2, m ≠ w.toNat) ∧ ((∀ x, s.worker w.toNat = some x → x.step < step.toNat + 1 + s.fld Reg.chkEchoCtrlLag)) :=
  ⟨Tests.manager2, 1, 0, by decide⟩

theorem witness_manager_tracks_its_workers_3 :
    ∃ (s : State) (w : BitVec 13) (x : Worker) (t0 : BitVec 64), s.manages = true ∧ s.worker w.toNat = some x ∧
    s.fleet.launchAt = some t0.toNat :=
  ⟨Tests.manager (some 5), 1, Tests.worker1, 5, by decide⟩

theorem witness_manager_tracks_its_workers_4 :
    ∃ (s : State) (t0 : BitVec 64), s.manages = true ∧ s.fleet.launchAt = some t0.toNat :=
  ⟨Tests.manager (some 5), 5, by decide⟩

theorem witness_manager_tracks_its_workers_5 :
    ∃ (s : State) (w : BitVec 13) (x : Worker), s.manages = true ∧ s.worker w.toNat = some x :=
  ⟨Tests.manager none, 1, Tests.worker1, by decide⟩

theorem witness_manager_tracks_its_workers_6 :
    ∃ (s : State) (w : BitVec 13) (x : Worker), s.manages = true ∧ s.worker w.toNat = some x :=
  ⟨Tests.manager none, 1, Tests.worker1, by decide⟩

theorem witness_manager_tracks_its_workers_7 :
    ∃ (s : State) (w : BitVec 13) (x : Worker), s.manages = true ∧ s.worker w.toNat = some x ∧ s.chk.reports = [] :=
  ⟨Tests.manager none, 1, Tests.worker1, by decide⟩

theorem witness_manager_tracks_its_workers_8 :
    ∃ (s : State), s.manages = true ∧ s.fleet.launchAt = none :=
  ⟨Tests.manager none, by decide⟩

theorem witness_manager_tracks_its_workers_9 :
    ∃ (s : State) (w : BitVec 13) (x : Worker), s.manages = true ∧ s.chk.reports = [] ∧ s.worker w.toNat = some x ∧
    s.upTime < x.lastSeen + 50000000 :=
  ⟨Tests.manager none, 1, Tests.worker1, by decide⟩

theorem witness_manager_tracks_its_workers_10 :
    ∃ (s : State) (w : BitVec 13) (x : Worker), s.manages = true ∧ s.chk.reports = [] ∧ s.worker w.toNat = some x ∧
    x.lastSeen + 50000000 ≤ s.upTime :=
  ⟨Tests.silent, 1, Tests.worker1, by decide⟩

theorem witness_manager_tracks_its_workers_11 :
    ∃ (s : State) (w : BitVec 13) (x : Worker), s.manages = true ∧ s.chk.reports = [] ∧ s.worker w.toNat = some x :=
  ⟨Tests.manager none, 1, Tests.worker1, by decide⟩

theorem witness_workers_follow_their_manager_0 :
    ∃ (s : State), (s.role = roleWorker ∨ s.role = roleStandby) ∧ s.stewardUp = true ∧ s.fleet.joinReq = none :=
  ⟨Tests.fleet roleWorker, by decide⟩

theorem witness_workers_follow_their_manager_1 :
    ∃ (s : State) (t0 : BitVec 64), s.follows = true ∧ t0.toNat ≤ s.glc :=
  ⟨Tests.fleet roleWorker, 0, by decide⟩

theorem witness_workers_follow_their_manager_2 :
    ∃ (s : State) (t0 : BitVec 64), s.follows = true ∧ s.glc < t0.toNat ∧ s.startCode = 0 :=
  ⟨(let s := Tests.loaded loadLoaded; (s.setFld Reg.hubRoleRole roleWorker).setFld Reg.hubFleetStatusJoined 1), 1,
  by decide +kernel⟩

theorem witness_workers_follow_their_manager_3 :
    ∃ (s : State), s.follows = true ∧ s.loadState = loadRunning ∧ s.stepRunning = false ∧ s.flt.stopKind = none :=
  ⟨(let s := Tests.loaded loadRunning; (s.setFld Reg.hubRoleRole roleWorker).setFld Reg.hubFleetStatusJoined 1),
  by decide +kernel⟩

theorem witness_workers_follow_their_manager_4 :
    ∃ (s : State), s.role ≠ roleAlone ∧ s.stewardUp = true ∧ s.stepRunning = true :=
  ⟨(let s := Tests.running; (s.setFld Reg.hubRoleRole roleWorker).setFld Reg.hubFleetStatusJoined 1),
  by decide +kernel⟩

theorem witness_workers_follow_their_manager_5 :
    ∃ (s : State), s.role ≠ roleAlone ∧ s.stewardUp = true ∧ s.stepRunning = false ∧ s.loadState ≠ loadLoaded :=
  ⟨Tests.fleet roleWorker, by decide⟩

theorem witness_workers_follow_their_manager_6 :
    ∃ (s : State) (p : AssignPart) (u : State), s.role ≠ roleAlone ∧ s.stewardUp = true ∧ s.stepRunning = false ∧
    s.loadState = loadLoaded ∧ s.reg Reg.cfgImageId = p.imageId ∧ p.part = 0 ∧ p.parts = 1 ∧ s.fleet.parts = [] ∧
    ((s.flitFrom s.fleet.managerIndex).setFleetState { s.fleet with parts := [p] }).stewardCommit groupDetRank
    [(Reg.detRankDpRank, p.dpRank.toNat), (Reg.detRankGroupRank, p.groupRank.toNat)] = (0, u) ∧ (u.stewardCommit
    groupEchoCtrl [(Reg.chkEchoCtrlInterval, p.interval.toNat), (Reg.chkEchoCtrlEnable, b2n p.enable)]).1 = 0 :=
  ⟨((Tests.loaded loadLoaded).setFld Reg.hubRoleRole roleWorker), ⟨1, 0, 1, 0, 0, 0, 1, false, [], []⟩,
  (((((Tests.loaded loadLoaded).setFld Reg.hubRoleRole roleWorker).flitFrom 0).setFleetState { FleetState.init with
  parts := [⟨1, 0, 1, 0, 0, 0, 1, false, [], []⟩] }).stewardCommit groupDetRank [(Reg.detRankDpRank, 0),
  (Reg.detRankGroupRank, 0)]).2, by decide +kernel⟩

theorem witness_workers_follow_their_manager_7 :
    ∃ (s : State), s.stewardUp = true ∧ (s.role = roleWorker ∨ s.role = roleStandby) ∧ s.fleet.joinReq = none ∧ ((∀
    last, s.fleet.managerSeen = some last → last + 1000000000 ≤ s.upTime)) :=
  ⟨Tests.fleet roleWorker, by decide⟩

theorem witness_workers_follow_their_manager_8 :
    ∃ (s : State) (m : BitVec 13), s.follows = true ∧ m.toNat = s.fleet.managerIndex :=
  ⟨Tests.fleet roleWorker, 0, by decide⟩

theorem witness_workers_follow_their_manager_9 :
    ∃ (s : State), s.follows = true :=
  ⟨Tests.fleet roleWorker, by decide⟩

theorem witness_workers_follow_their_manager_10 :
    ∃ (s : State) (last : Nat), s.fleet.managerSeen = some last ∧ s.upTime < last + 1000000000 :=
  ⟨(let s := Tests.fleet roleWorker; { s with fleet := { s.fleet with managerSeen := some 0 } }), 0,
  by decide⟩

theorem witness_workers_follow_their_manager_11 :
    ∃ (s : State), s.role = roleStandby :=
  ⟨Tests.fleet roleStandby, by decide⟩

theorem witness_workers_follow_their_manager_12 :
    ∃ (s : State), s.follows = true ∧ s.fleet.expelled = true :=
  ⟨(let s := Tests.fleet roleWorker; { s with fleet := { s.fleet with expelled := true } }), by decide⟩

theorem witness_pcie_port_resets_and_takes_messages_0 :
    ∃ (s : State), s.rootPort = false :=
  ⟨Tests.ready, by decide⟩

theorem witness_pcie_port_resets_and_takes_messages_2 :
    ∃ (s : State) (speed : BitVec 3) (width : BitVec 5), s.held = false ∧ s.fldB Reg.pcieStatusLinkUp = false ∧
    (s.rootPort = false ∨ s.pkg.perstN = true) ∧ 1 ≤ speed.toNat ∧ speed.toNat ≤ 6 ∧ width.toNat ∈ [1, 2, 4, 8, 16] :=
  ⟨Tests.ready, 6, 16, by decide⟩

theorem witness_pcie_port_resets_and_takes_messages_3 :
    ∃ (s : State) (a : BitVec 64), s.rootPort = true ∧ a = s.reg Reg.pcieRpMsiAddr :=
  ⟨Tests.root, 0, by decide⟩

theorem witness_pcie_port_resets_and_takes_messages_4 :
    ∃ (s : State), s.rootPort = true :=
  ⟨Tests.root, by decide⟩

theorem witness_pcie_port_resets_and_takes_messages_5 :
    ∃ (s : State), s.pkg.ready = true ∧ s.rootPort = true :=
  ⟨Tests.root, by decide⟩

theorem witness_pcie_port_resets_and_takes_messages_6 :
    ∃ (s : State), s.pkg.ready = true ∧ s.rootPort = true :=
  ⟨Tests.root, by decide⟩

theorem witness_pcie_port_resets_and_takes_messages_7 :
    ∃ (s : State) (i : Fin 2048) (a : Addr) (v : List Byte), s.answers .pcie = true ∧ s.rootPort = false ∧ a.toNat =
    16 * i.val ∧ v.length = 8 :=
  ⟨Tests.ready, 2047, BitVec.ofNat 48 (16 * 2047), List.replicate 8 1, by decide⟩

theorem witness_pcie_port_resets_and_takes_messages_8 :
    ∃ (s : State) (i : Fin 2048) (a : Addr), s.answers .pcie = true ∧ s.rootPort = false ∧ a.toNat = 16 * i.val :=
  ⟨Tests.ready, 2047, BitVec.ofNat 48 (16 * 2047), by decide⟩

theorem witness_pcie_port_resets_and_takes_messages_9 :
    ∃ (s : State), s.answers .pcie = true ∧ s.rootPort = false :=
  ⟨Tests.ready, by decide⟩

theorem witness_rails_and_temperatures_are_watched_0 :
    ∃ (s : State) (mvs : List (BitVec 16)), mvs.length = 14 ∧ 1620 ≤ (mvs.getD 13 0).toNat ∧ s.pkg.powerGood = true ∧
    s.pkg.resetN = true :=
  ⟨State.reset, List.replicate 14 1620, by decide⟩

theorem witness_rails_and_temperatures_are_watched_1 :
    ∃ (s : State) (mvs : List (BitVec 16)), mvs.length = 14 ∧ (mvs.getD 13 0).toNat < 1620 ∧ s.pkg.auxLow = false :=
  ⟨State.reset, List.replicate 14 1619, by decide⟩

theorem witness_rails_and_temperatures_are_watched_2 :
    ∃ (s : State) (v : Word) (g : Fin 14), s.pkg.ready = true ∧ bit (Reg.pwrRearmRails.of v.toNat) g = true :=
  ⟨Tests.ready, 0xFFFFFFFF, 13, by decide⟩

theorem witness_rails_and_temperatures_are_watched_3 :
    ∃ (s : State) (d : Fin 4), s.fld (Reg.pwrThermLevel d) ≤ 4 :=
  ⟨State.reset, 3, by decide⟩

theorem witness_rails_and_temperatures_are_watched_5 :
    ∃ (s : State) (n : Fin 28) (temp : BitVec 16) (limit : Int), tripTemp n = some limit ∧ (temp.toInt < limit ∨
    s.held = true) :=
  ⟨State.reset, 27, 419, 420, by decide⟩

theorem witness_rails_and_temperatures_are_watched_6 :
    ∃ (s : State) (n : Fin 28) (temp : BitVec 16) (limit : Int), tripTemp n = some limit ∧ limit ≤ temp.toInt ∧ s.held
    = false ∧ s.flt.stopKind = none :=
  ⟨State.reset, 27, 420, 420, by decide⟩

theorem witness_meter_records_and_alarms_act_1 :
    ∃ (s : State) (b : List Byte), recordValid b = true ∧ s.held = false ∧ bit (le b 6 2) 0 = false :=
  ⟨State.reset, Tests.meterRecord, by decide +kernel⟩

theorem witness_meter_records_and_alarms_act_2 :
    ∃ (s : State) (b : List Byte), recordValid b = true ∧ s.held = false ∧ bit (le b 6 2) 0 = true :=
  ⟨State.reset, Tests.tamperRecord, by decide +kernel⟩

theorem witness_meter_records_and_alarms_act_3 :
    ∃ (s : State) (b : List Byte), (recordValid b = false ∨ s.held = true) :=
  ⟨State.reset, [], by decide⟩

theorem witness_meter_records_and_alarms_act_4 :
    ∃ (s : State), s.auxOk = true ∧ s.fldB Reg.mtrStatusLinkOk = true :=
  ⟨Tests.ready.setFld Reg.mtrStatusLinkOk 1, by decide⟩

theorem witness_meter_records_and_alarms_act_5 :
    ∃ (s : State) (b : Fin 6), (s.alarmAction b = 0 ∨ s.held = true) :=
  ⟨Tests.ready.setReg Reg.secAlarmAction 0, 5, by decide⟩

theorem witness_meter_records_and_alarms_act_6 :
    ∃ (s : State) (b : Fin 6), s.alarmAction b ≠ 0 ∧ s.held = false :=
  ⟨Tests.ready.setReg Reg.secAlarmAction 0xFFF, 5, by decide⟩

theorem witness_keys_and_fuses_are_guarded_0 :
    ∃ (s : State), s.answers .coreSecure = true ∧ s.fldB Reg.secAlarmStatusKeysLocked = false :=
  ⟨State.reset, by decide⟩

theorem witness_keys_and_fuses_are_guarded_1 :
    ∃ (s : State) (ag : Agent), s.answers ag = true :=
  ⟨State.reset, .pcie, by decide⟩

theorem witness_keys_and_fuses_are_guarded_2 :
    ∃ (s : State) (ag : Agent), (ag ≠ .coreSecure ∨ s.fldB Reg.secAlarmStatusKeysLocked = true) :=
  ⟨State.reset, .pcie, by decide⟩

theorem witness_keys_and_fuses_are_guarded_4 :
    ∃ (s : State) (v : Word), s.pkg.ready = true ∧ Reg.secFuseCmdOp.of v.toNat = 1 ∧ Reg.secFuseCmdGo.of v.toNat = 1 ∧
    s.fldB Reg.secFuseStatusBusy = false :=
  ⟨Tests.ready, BitVec.ofNat 64 (2 ^ 63 + 1), by decide⟩

theorem witness_keys_and_fuses_are_guarded_5 :
    ∃ (s : State) (v : Word), s.pkg.ready = true ∧ Reg.secFuseCmdOp.of v.toNat = 2 ∧ Reg.secFuseCmdGo.of v.toNat = 1 ∧
    s.fldB Reg.secFuseStatusBusy = false :=
  ⟨Tests.ready, BitVec.ofNat 64 (2 ^ 63 + 2), by decide⟩

theorem witness_keys_and_fuses_are_guarded_6 :
    ∃ (s : State) (v : Word), s.pkg.ready = true ∧ Reg.secFuseCmdOp.of v.toNat = 3 ∧ Reg.secFuseCmdGo.of v.toNat = 1 ∧
    s.fldB Reg.secFuseStatusBusy = false :=
  ⟨Tests.ready, BitVec.ofNat 64 (2 ^ 63 + 3), by decide⟩

theorem witness_keys_and_fuses_are_guarded_7 :
    ∃ (s : State) (v : Word), s.sec.fuse = some v :=
  ⟨{ State.reset with sec := { SecState.init with fuse := some 1 } }, 1, by decide⟩

theorem witness_resets_return_to_their_state_1 :
    ∃ (s : State) (v : Word) (byBall : Bool), (byBall = true ∨ (resetWanted v.toNat true = true ∧ s.pkg.halted =
    false)) :=
  ⟨State.reset, 0, true, by decide⟩

theorem witness_resets_return_to_their_state_2 :
    ∃ (s : State) (v : Word), (resetWanted v.toNat true = false ∨ s.pkg.halted = true) :=
  ⟨State.reset, 0, by decide⟩

theorem witness_resets_return_to_their_state_3 :
    ∃ (s : State) (v : Word), s.pkg.ready = true ∧ resetWanted v.toNat false = true :=
  ⟨Tests.ready, BitVec.ofNat 64 (2 ^ 63 + 0x4B52 * 2 ^ 32 + 2), by decide⟩

theorem witness_startup_reaches_ready_or_halts_0 :
    ∃ (s : State) (o : BootOutcome), (s.raiseBalls o).held = true :=
  ⟨{ State.reset with pkg := { PkgState.init with auxLow := true } }, Tests.boot, by decide⟩

theorem witness_startup_reaches_ready_or_halts_1 :
    ∃ (s : State) (k : State) (o : BootOutcome), (s.raiseBalls o).held = false ∧ s.pkg.ready = false ∧ s.pkg.halted =
    false ∧ s.phase = 1 ∧ s.pkg.thermTrip = false ∧ o.upTo = 10 ∧ k = (List.range 2).foldl (fun (s : State) i =>
    s.takeKey (slotKeys o) i) s :=
  ⟨State.reset, (List.range 2).foldl (fun (s : State) i => s.takeKey (slotKeys Tests.boot) i) State.reset, Tests.boot,
  by decide, by decide, by decide, by decide, by decide, by decide,
  rfl⟩

theorem witness_startup_reaches_ready_or_halts_2 :
    ∃ (s : State) (o : BootOutcome), (s.raiseBalls o).held = false ∧ s.pkg.ready = false ∧ s.pkg.halted = false ∧
    s.phase ≠ 10 ∧ (o.upTo.val ≤ s.phase ∨ (s.pkg.thermTrip = true ∧ s.phase = 8)) :=
  ⟨State.reset, { Tests.boot with upTo := 0 }, by decide⟩

theorem witness_startup_reaches_ready_or_halts_3 :
    ∃ (s : State), (s.pkg.ready = true ∨ s.pkg.halted = true) :=
  ⟨Tests.ready, by decide⟩

theorem witness_startup_reaches_ready_or_halts_4 :
    ∃ (s : State) (l : Loader), s.pkg.loader = some l ∧ s.pkg.pairs.contains true = true ∧ s.past 7 = true ∧
    s.pkg.loaderStarted = false :=
  ⟨{ State.reset with pkg := { PkgState.init with ready := true, loader := some ⟨0, 0, [1]⟩ } }, ⟨0, 0, [1]⟩,
  by decide⟩

theorem witness_startup_reaches_ready_or_halts_5 :
    ∃ (s : State), s.past 7 = false :=
  ⟨State.reset, by decide⟩

theorem witness_register_writes_follow_access_codes_0 :
    ∃ (s : State) (ag : Agent) (a : Addr) (size : Nat) (off : Nat), s.region a.toNat = .register off ∧ (size ≠ 8 ∨
    a.toNat % 8 ≠ 0 ∨ s.reachesRegisters ag = false) :=
  ⟨Tests.ready, .core, BitVec.ofNat 48 registerBase, 4, 0, by decide⟩

theorem witness_register_writes_follow_access_codes_1 :
    ∃ (s : State) (ag : Agent) (a : Addr) (off : Nat) (k : RegKind) (ix : List Nat), s.region a.toNat = .register off
    ∧ a.toNat % 8 = 0 ∧ s.reachesRegisters ag = true ∧ locate off = some (k, ix) ∧ s.pkg.ready = true ∧
    actionRegs.contains off = false ∧ k.base ≠ Reg.hubIrqRoute 0 ∧ k.base ≠ Reg.secKeyData 0 :=
  ⟨Tests.ready, .core, BitVec.ofNat 48 (registerBase + Reg.cfgLoadAddr), Reg.cfgLoadAddr, ((locate
  Reg.cfgLoadAddr).get rfl).1, ((locate Reg.cfgLoadAddr).get rfl).2, by decide⟩

theorem witness_register_writes_follow_access_codes_2 :
    ∃ (s : State) (ag : Agent) (a : Addr) (off : Nat), s.region a.toNat = .register off ∧ a.toNat % 8 = 0 ∧ ag ≠
    .other ∧ off ∈ rpRegs ∧ s.rootPort = false ∧ s.pkg.ready = true :=
  ⟨Tests.ready, .pcie, BitVec.ofNat 48 (registerBase + Reg.pcieRpMsiAddr), Reg.pcieRpMsiAddr, by decide⟩

theorem witness_crossing_slips_count_0 :
    ∃ (s : State), s.deterministic = true ∧ s.fld Reg.detStatusSlipsStep ≤ 65535 :=
  ⟨Tests.running.setFld Reg.detStatusActive 1, by decide +kernel⟩

theorem witness_crossing_slips_count_1 :
    ∃ (s : State), s.deterministic = false :=
  ⟨State.reset, by decide⟩

theorem witness_dripstone_tables_and_packs_swap_0 :
    ∃ (s : State), s.pkg.pairs.contains true = true ∧ s.flt.stateDirty = true :=
  ⟨{ Tests.ready with flt := { FltState.init with stateDirty := true } }, by decide⟩

theorem witness_dripstone_tables_and_packs_swap_2 :
    ∃ (s : State), s.pkg.pairs.contains true = true ∧ s.flt.stateDirty = false :=
  ⟨Tests.ready, by decide⟩

theorem witness_dripstone_tables_and_packs_swap_3 :
    ∃ (s : State), s.pkg.pairs.contains true = true ∧ s.flt.countsDirty = true :=
  ⟨{ Tests.ready with flt := { FltState.init with countsDirty := true } }, by decide⟩

theorem witness_dripstone_tables_and_packs_swap_5 :
    ∃ (s : State), s.pkg.pairs.contains true = true ∧ s.flt.countsDirty = false :=
  ⟨Tests.ready, by decide⟩

theorem witness_dripstone_tables_and_packs_swap_6 :
    ∃ (s : State), s.pkg.ready = true ∧ s.pkg.pairs.contains true = true ∧ s.fldB Reg.fltPackStatusBusy = false ∧
    s.fld Reg.fltPackAddrAddr % 4096 = 0 ∧ s.inTiers (s.fld Reg.fltPackAddrAddr) 256 = true :=
  ⟨Tests.ready, by decide⟩

theorem witness_dripstone_tables_and_packs_swap_7 :
    ∃ (s : State), s.pkg.ready = true ∧ s.pkg.pairs.contains true = true ∧ s.fldB Reg.fltPackStatusBusy = false ∧
    (s.fld Reg.fltPackAddrAddr % 4096 ≠ 0 ∨ s.inTiers (s.fld Reg.fltPackAddrAddr) 256 = false) :=
  ⟨Tests.ready.setFld Reg.fltPackAddrAddr 1, by decide⟩

theorem witness_dripstone_tables_and_packs_swap_8 :
    ∃ (s : State) (p : PackSlot), s.pkg.pairs.contains true = true ∧ s.flt.packJob = some (some p) ∧ p.version < 2 ^
    32 ∧ s.flt.nor.header.pack ≤ 1 :=
  ⟨{ State.reset with flt := { FltState.init with packJob := some (some ⟨1, []⟩) } }, ⟨1, []⟩, by decide⟩
end

section
/-! Every command completes, leaves the parts it does not list alone and keeps what `Kept` speaks of: `exec`'s one
match, arm by arm, through the `_same` and `_kept` law of each meaning. -/

namespace Sys2Proof.Machine

/-- The parts that a command does not list among those it may change. -/
def untouched (c : Instr) (p : Component) : Bool := !(changes c).contains p

theorem untouched_of_notMem {c : Instr} {p : Component} (hp : p ∉ changes c) : untouched c p = true := by
  simpa [untouched] using hp

theorem Same.keeps {m : Component → Bool} {s t : State} (h : Same m s t) {p : Component} (hp : m p = true) :
    s.keeps t p := by
  cases p with
  | pending => exact h.pending hp
  | fresh => exact h.fresh hp
  | regs => exact h.regs hp
  | shadow => exact h.shadow hp
  | response => exact h.response hp
  | mem => exact h.mem hp
  | pkg => exact h.pkg hp
  | links => exact h.links hp
  | crossings => exact h.crossings hp
  | cfg => exact h.cfg hp
  | flt => exact h.flt hp
  | chk => exact h.chk hp
  | mm => exact h.mm hp
  | hub => exact h.hub hp
  | fleet => exact h.fleet hp
  | clock => exact h.clock hp
  | dense => exact h.dense hp
  | emb => exact h.emb hp
  | wire => exact h.wire hp
  | sec => exact h.sec hp
  | det => exact h.det hp
  | time => exact h.time hp
  | pwr => exact h.pwr hp
  | mtr => exact h.mtr hp

/-- Every arm of `exec` ends in `done`: no command faults and none is refused. -/
theorem exec_completes (c : Instr) (s : State) : ∃ t, exec c s = .next t := by
  cases c <;> exact ⟨_, rfl⟩

theorem exec_same (c : Instr) {s t : State} (h : exec c s = .next t) : Same (untouched c) s t := by
  cases c with
  | registerWrite => apply execRegisterWrite_same (.refl s) (ke := h) <;> rfl
  | flitRetry => apply execFlitRetry_same (.refl s) (ke := h) <;> rfl
  | linkRetrain => apply execLinkRetrain_same (.refl s) (ke := h) <;> rfl
  | laneErrorWindow => apply execLaneErrorWindow_same (.refl s) (ke := h) <;> rfl
  | crossingSlip => apply execCrossingSlip_same (.refl s) (ke := h) <;> rfl
  | loadFull => apply execLoadFull_same (.refl s) (ke := h) <;> rfl
  | loadPartial => apply execLoadPartial_same (.refl s) (ke := h) <;> rfl
  | loadCheck => apply execLoadCheck_same (.refl s) (ke := h) <;> rfl
  | loadUnload => apply execLoadUnload_same (.refl s) (ke := h) <;> rfl
  | loadCheckDone => apply execLoadCheckDone_same (.refl s) (ke := h) <;> rfl
  | loadDistribute => apply execLoadDistribute_same (.refl s) (ke := h) <;> rfl
  | loadDistributionDone => apply execLoadDistributionDone_same (.refl s) (ke := h) <;> rfl
  | partialReloadDone => apply execPartialReloadDone_same (.refl s) (ke := h) <;> rfl
  | hubModelSwap => apply execHubModelSwap_same (.refl s) (ke := h) <;> rfl
  | protectedWrite => apply execProtectedWrite_same (.refl s) (ke := h) <;> rfl
  | runStart => apply execRunStart_same (.refl s) (ke := h) <;> rfl
  | runStartAt => apply execRunStartAt_same (.refl s) (ke := h) <;> rfl
  | atLaunch => apply execAtLaunch_same (.refl s) (ke := h) <;> rfl
  | runStop => apply execRunStop_same (.refl s) (ke := h) <;> rfl
  | runAbort => apply execRunAbort_same (.refl s) (ke := h) <;> rfl
  | stepSeam => apply execStepSeam_same (.refl s) (ke := h) <;> rfl
  | commitRequest => apply execCommitRequest_same (.refl s) (ke := h) <;> rfl
  | commitCheckDone => apply execCommitCheckDone_same (.refl s) (ke := h) <;> rfl
  | commitApply => apply execCommitApply_same (.refl s) (ke := h) <;> rfl
  | scheduleEntryIssue => apply execScheduleEntryIssue_same (.refl s) (ke := h) <;> rfl
  | entryComplete => apply execEntryComplete_same (.refl s) (ke := h) <;> rfl
  | lookup => apply execLookup_same (.refl s) (ke := h) <;> rfl
  | combine => apply execCombine_same (.refl s) (ke := h) <;> rfl
  | ownerPartArrival => apply execOwnerPartArrival_same (.refl s) (ke := h) <;> rfl
  | update => apply execUpdate_same (.refl s) (ke := h) <;> rfl
  | pendingBankApply => apply execPendingBankApply_same (.refl s) (ke := h) <;> rfl
  | exportJob => apply execExportJob_same (.refl s) (ke := h) <;> rfl
  | exportRegionWritable => apply execExportRegionWritable_same (.refl s) (ke := h) <;> rfl
  | exportComplete => apply execExportComplete_same (.refl s) (ke := h); rfl
  | pressJobComplete => apply execPressJobComplete_same (.refl s) (ke := h) <;> rfl
  | ntsSwitch => apply execNtsSwitch_same (.refl s) (ke := h) <;> rfl
  | ntsRevert => apply execNtsRevert_same (.refl s) (ke := h) <;> rfl
  | streamChunkRead => apply execStreamChunkRead_same (.refl s) (ke := h); rfl
  | streamChunkArrive => apply execStreamChunkArrive_same (.refl s) (ke := h) <;> rfl
  | streamChunkWrite => apply execStreamChunkWrite_same (.refl s) (ke := h) <;> rfl
  | dieWindowAccess => apply execDieWindowAccess_same (.refl s) (ke := h) <;> rfl
  | grottoCopyReturn => apply execGrottoCopyReturn_same (.refl s) (ke := h) <;> rfl
  | eccWriteback => apply execEccWriteback_same (.refl s) (ke := h); rfl
  | refreshWindow => apply execRefreshWindow_same (.refl s) (ke := h) <;> rfl
  | sramScrub => apply execSramScrub_same (.refl s) (ke := h) <;> rfl
  | frameParse => apply execFrameParse_same (.refl s) (ke := h) <;> rfl
  | pauseExpiry => apply execPauseExpiry_same (.refl s) (ke := h) <;> rfl
  | classifierPass => apply execClassifierPass_same (.refl s) (ke := h) <;> rfl
  | recirculationPass => apply execRecirculationPass_same (.refl s) (ke := h) <;> rfl
  | pfcRepeat => apply execPfcRepeat_same (.refl s) (ke := h) <;> rfl
  | frameVerdict => apply execFrameVerdict_same (.refl s) (ke := h) <;> rfl
  | flowSweep => apply execFlowSweep_same (.refl s) (ke := h); rfl
  | flowFlush => apply execFlowFlush_same (.refl s) (ke := h); rfl
  | bankSwap => apply execBankSwap_same (.refl s) (ke := h); rfl
  | bankDataAccess => apply execBankDataAccess_same (.refl s) (ke := h) <;> rfl
  | egressFrameStart => apply execEgressFrameStart_same (.refl s) (ke := h) <;> rfl
  | portTrainingDone => apply execPortTrainingDone_same (.refl s) (ke := h) <;> rfl
  | sliceEvaluation => apply execSliceEvaluation_same (.refl s) (ke := h) <;> rfl
  | replyStart => apply execReplyStart_same (.refl s) (ke := h) <;> rfl
  | replyFcsSlot => apply execReplyFcsSlot_same (.refl s) (ke := h) <;> rfl
  | timeStep => apply execTimeStep_same (.refl s) (ke := h); rfl
  | timeSet => apply execTimeSet_same (.refl s) (ke := h) <;> rfl
  | timeAdjustApply => apply execTimeAdjustApply_same (.refl s) (ke := h) <;> rfl
  | todNsRead => apply execTodNsRead_same (.refl s) (ke := h) <;> rfl
  | rateWrite => apply execRateWrite_same (.refl s) (ke := h); rfl
  | ppsInputEdge => apply execPpsInputEdge_same (.refl s) (ke := h) <;> rfl
  | sourceFailed => apply execSourceFailed_same (.refl s) (ke := h) <;> rfl
  | ptpMessage => apply execPtpMessage_same (.refl s) (ke := h) <;> rfl
  | obcorTimeExchange => apply execObcorTimeExchange_same (.refl s) (ke := h) <;> rfl
  | tcEntryExpiry => apply execTcEntryExpiry_same (.refl s) (ke := h); rfl
  | pdelayReqTimer => apply execPdelayReqTimer_same (.refl s) (ke := h); rfl
  | pdelayTimeout => apply execPdelayTimeout_same (.refl s) (ke := h); rfl
  | pulseEdge => apply execPulseEdge_same (.refl s) (ke := h) <;> rfl
  | pulseEnd => apply execPulseEnd_same (.refl s) (ke := h) <;> rfl
  | correctedRecordSend => apply execCorrectedRecordSend_same (.refl s) (ke := h) <;> rfl
  | recordsLost => apply execRecordsLost_same (.refl s) (ke := h) <;> rfl
  | errTailWrite => apply execErrTailWrite_same (.refl s) (ke := h); rfl
  | twinComparison => apply execTwinComparison_same (.refl s) (ke := h) <;> rfl
  | obcorDataReceive => apply execObcorDataReceive_same (.refl s) (ke := h) <;> rfl
  | checkTokenSend => apply execCheckTokenSend_same (.refl s) (ke := h) <;> rfl
  | checkTokenReceive => apply execCheckTokenReceive_same (.refl s) (ke := h) <;> rfl
  | commitTimeout => apply execCommitTimeout_same (.refl s) (ke := h) <;> rfl
  | poisonNotice link sender reporter epoch step cause =>
    apply execPoisonNotice_same (.refl s) link sender reporter epoch step cause (ke := h) <;> rfl
  | strikeExpiry => apply execStrikeExpiry_same (.refl s) (ke := h); rfl
  | screenComplete => apply execScreenComplete_same (.refl s) (ke := h) <;> rfl
  | spareScreen => apply execSpareScreen_same (.refl s) (ke := h); rfl
  | rotation => apply execRotation_same (.refl s) (ke := h) <;> rfl
  | screenStalled => apply execScreenStalled_same (.refl s) (ke := h) <;> rfl
  | dripstoneStateWrite => apply execDripstoneStateWrite_same (.refl s) (ke := h) <;> rfl
  | dripstoneCountFlush => apply execDripstoneCountFlush_same (.refl s) (ke := h) <;> rfl
  | packInstall value => apply execPackInstall_same (.refl s) value (ke := h) <;> rfl
  | packActivation => apply execPackActivation_same (.refl s) (ke := h) <;> rfl
  | checkpointCopyDone => apply execCheckpointCopyDone_same (.refl s) (ke := h) <;> rfl
  | unitRecovery => apply execUnitRecovery_same (.refl s) (ke := h) <;> rfl
  | dieReset => apply execDieReset_same (.refl s) (ke := h) <;> rfl
  | rollback => apply execRollback_same (.refl s) (ke := h) <;> rfl
  | expel => apply execExpel_same (.refl s) (ke := h) <;> rfl
  | unitCmdSump => apply execUnitCmdSump_same (.refl s) (ke := h) <;> rfl
  | unitCmdReadmit => apply execUnitCmdReadmit_same (.refl s) (ke := h) <;> rfl
  | unitCmdScreen => apply execUnitCmdScreen_same (.refl s) (ke := h) <;> rfl
  | snapshotSave => apply execSnapshotSave_same (.refl s) (ke := h) <;> rfl
  | snapshotRestore => apply execSnapshotRestore_same (.refl s) (ke := h) <;> rfl
  | snapshotCheck => apply execSnapshotCheck_same (.refl s) (ke := h) <;> rfl
  | snapshotCopyDone => apply execSnapshotCopyDone_same (.refl s) (ke := h) <;> rfl
  | traceTailWrite => apply execTraceTailWrite_same (.refl s) (ke := h); rfl
  | watchLineUpdate => apply execWatchLineUpdate_same (.refl s) (ke := h); rfl
  | ringEnable => apply execRingEnable_same (.refl s) (ke := h); rfl
  | ringDisable => apply execRingDisable_same (.refl s) (ke := h); rfl
  | txEntry => apply execTxEntry_same (.refl s) (ke := h) <;> rfl
  | txCompletion => apply execTxCompletion_same (.refl s) (ke := h) <;> rfl
  | irqHoldoffExpiry => apply execIrqHoldoffExpiry_same (.refl s) (ke := h) <;> rfl
  | irqRouteWrite => apply execIrqRouteWrite_same (.refl s) (ke := h) <;> rfl
  | identity => apply execIdentity_same (.refl s) (ke := h) <;> rfl
  | dripstoneCopy => apply execDripstoneCopy_same (.refl s) (ke := h) <;> rfl
  | firmwareStage => apply execFirmwareStage_same (.refl s) (ke := h) <;> rfl
  | fleetJoin => apply execFleetJoin_same (.refl s) (ke := h) <;> rfl
  | fleetLeave => apply execFleetLeave_same (.refl s) (ke := h) <;> rfl
  | coreState => apply execCoreState_same (.refl s) (ke := h) <;> rfl
  | ptpDataset => apply execPtpDataset_same (.refl s) (ke := h) <;> rfl
  | stewardFailover => apply execStewardFailover_same (.refl s) (ke := h) <;> rfl
  | appCoreRetire => apply execAppCoreRetire_same (.refl s) (ke := h) <;> rfl
  | functionLevelReset => apply execFunctionLevelReset_same (.refl s) (ke := h) <;> rfl
  | msiReceive => apply execMsiReceive_same (.refl s) (ke := h) <;> rfl
  | rpMsiDataRead => apply execRpMsiDataRead_same (.refl s) (ke := h) <;> rfl
  | rpCfgDataAccess => apply execRpCfgDataAccess_same (.refl s) (ke := h) <;> rfl
  | obcorReplay => apply execObcorReplay_same (.refl s) (ke := h) <;> rfl
  | obcorLinkTrain => apply execObcorLinkTrain_same (.refl s) (ke := h) <;> rfl
  | join => apply execJoin_same (.refl s) (ke := h) <;> rfl
  | welcome => apply execWelcome_same (.refl s) (ke := h) <;> rfl
  | heartbeat sender glc timeState errEst step loadState =>
    apply execHeartbeat_same (.refl s) sender glc timeState errEst step loadState (ke := h) <;> rfl
  | heartbeatTimer => apply execHeartbeatTimer_same (.refl s) (ke := h) <;> rfl
  | workerLost => apply execWorkerLost_same (.refl s) (ke := h) <;> rfl
  | managerLost => apply execManagerLost_same (.refl s) (ke := h) <;> rfl
  | assign => apply execAssign_same (.refl s) (ke := h) <;> rfl
  | assigned => apply execAssigned_same (.refl s) (ke := h) <;> rfl
  | launch => apply execLaunch_same (.refl s) (ke := h) <;> rfl
  | armed => apply execArmed_same (.refl s) (ke := h) <;> rfl
  | late => apply execLate_same (.refl s) (ke := h) <;> rfl
  | abort time => apply execAbort_same (.refl s) time (ke := h) <;> rfl
  | ready => apply execReady_same (.refl s) (ke := h) <;> rfl
  | echoReport => apply execEchoReport_same (.refl s) (ke := h) <;> rfl
  | verdict => apply execVerdict_same (.refl s) (ke := h) <;> rfl
  | leave worker cause => apply execLeave_same (.refl s) worker cause (ke := h) <;> rfl
  | admitSet => apply execAdmitSet_same (.refl s) (ke := h) <;> rfl
  | railSample => apply execRailSample_same (.refl s) (ke := h) <;> rfl
  | rearm => apply execRearm_same (.refl s) (ke := h); rfl
  | throttleEvaluation => apply execThrottleEvaluation_same (.refl s) (ke := h) <;> rfl
  | thermalTrip => apply execThermalTrip_same (.refl s) (ke := h) <;> rfl
  | thermalTripRelease => apply execThermalTripRelease_same (.refl s) (ke := h) <;> rfl
  | meterInterval => apply execMeterInterval_same (.refl s) (ke := h); rfl
  | meterRecord => apply execMeterRecord_same (.refl s) (ke := h) <;> rfl
  | meterLinkLost => apply execMeterLinkLost_same (.refl s) (ke := h) <;> rfl
  | alarm => apply execAlarm_same (.refl s) (ke := h) <;> rfl
  | debugUnlock => apply execDebugUnlock_same (.refl s) (ke := h) <;> rfl
  | keyDataAccess => apply execKeyDataAccess_same (.refl s) (ke := h) <;> rfl
  | fuseProgram => apply execFuseProgram_same (.refl s) (ke := h) <;> rfl
  | fuseRevoke => apply execFuseRevoke_same (.refl s) (ke := h) <;> rfl
  | fuseRaise => apply execFuseRaise_same (.refl s) (ke := h) <;> rfl
  | fuseComplete => apply execFuseComplete_same (.refl s) (ke := h) <;> rfl
  | powerDown => apply execPowerDown_same (.refl s) (ke := h) <;> rfl
  | startup => apply execStartup_same (.refl s) (ke := h) <;> rfl
  | loaderStart => apply execLoaderStart_same (.refl s) (ke := h) <;> rfl
  | packageReset => apply execPackageReset_same (.refl s) (ke := h) <;> rfl
  | coresReset => apply execCoresReset_same (.refl s) (ke := h) <;> rfl
  | pciePerst => apply execPciePerst_same (.refl s) (ke := h) <;> rfl
  | testReset => apply execTestReset_same (.refl s) (ke := h); rfl
  | pciePerstRelease => apply execPciePerstRelease_same (.refl s) (ke := h) <;> rfl
  | obcorLinkDown => apply execObcorLinkDown_same (.refl s) (ke := h) <;> rfl
  | obcorRelay => apply execObcorRelay_same (.refl s) (ke := h) <;> rfl
  | standbyMirror => apply execStandbyMirror_same (.refl s) (ke := h) <;> rfl
  | ptpMessageGeneration => apply execPtpMessageGeneration_same (.refl s) (ke := h) <;> rfl
  | corrected24hWindow => apply execCorrected24hWindow_same (.refl s) (ke := h); rfl

/-- The side of the PCIe port stays once PCIE_MODE is sampled (R504). -/
theorem State.startup_kept_of_sampled {s : State} (hm : s.pkg.modeSampled = true) (o : BootOutcome) :
    Kept s (s.startup o) := by
  have hb : Kept s (s.raiseBalls o) := State.raiseBalls_kept (.refl s) o
  have hs : (s.raiseBalls o).sampleMode o.pcieRoot = s.raiseBalls o := if_pos hm
  unfold State.startup
  dsimp only
  split
  · exact hb
  · rw [hs]
    have hl := Kept.foldl (f := fun (s : State) p => s.runPhase o p) (l := List.range' 1 9) hb
      fun _ p hp => State.runPhase_kept hp o p
    have he := State.bootElapsed_kept hl o.elapsedMs.toNat
    exact Kept.ite (State.bootReady_kept he _) he

theorem exec_kept {c : Instr} {s t : State} (hc : ∀ o, c = .startup o → s.pkg.modeSampled = true)
    (h : exec c s = .next t) : Kept s t := by
  cases c with
  | registerWrite => exact execRegisterWrite_kept (.refl s) (ke := h) ..
  | flitRetry => exact execFlitRetry_kept (.refl s) (ke := h) ..
  | linkRetrain => exact execLinkRetrain_kept (.refl s) (ke := h) ..
  | laneErrorWindow => exact execLaneErrorWindow_kept (.refl s) (ke := h) ..
  | crossingSlip => exact execCrossingSlip_kept (.refl s) (ke := h) ..
  | loadFull => exact execLoadFull_kept (.refl s) (ke := h) ..
  | loadPartial => exact execLoadPartial_kept (.refl s) (ke := h) ..
  | loadCheck => exact execLoadCheck_kept (.refl s) (ke := h) ..
  | loadUnload => exact execLoadUnload_kept (.refl s) (ke := h) ..
  | loadCheckDone => exact execLoadCheckDone_kept (.refl s) h
  | loadDistribute => exact execLoadDistribute_kept (.refl s) (ke := h) ..
  | loadDistributionDone => exact execLoadDistributionDone_kept (.refl s) (ke := h) ..
  | partialReloadDone => exact execPartialReloadDone_kept (.refl s) (ke := h) ..
  | hubModelSwap => exact execHubModelSwap_kept (.refl s) h
  | protectedWrite => exact execProtectedWrite_kept (.refl s) (ke := h) ..
  | runStart => exact execRunStart_kept (.refl s) (ke := h) ..
  | runStartAt => exact execRunStartAt_kept (.refl s) (ke := h) ..
  | atLaunch => exact execAtLaunch_kept (.refl s) h
  | runStop => exact execRunStop_kept (.refl s) (ke := h) ..
  | runAbort => exact execRunAbort_kept (.refl s) (ke := h) ..
  | stepSeam => exact execStepSeam_kept (.refl s) h
  | commitRequest => exact execCommitRequest_kept (.refl s) (ke := h) ..
  | commitCheckDone => exact execCommitCheckDone_kept (.refl s) h
  | commitApply => exact execCommitApply_kept (.refl s) (ke := h) ..
  | scheduleEntryIssue => exact execScheduleEntryIssue_kept (.refl s) (ke := h) ..
  | entryComplete => exact execEntryComplete_kept (.refl s) (ke := h) ..
  | lookup => exact execLookup_kept (.refl s) (ke := h) ..
  | combine => exact execCombine_kept (.refl s) (ke := h) ..
  | ownerPartArrival => exact execOwnerPartArrival_kept (.refl s) (ke := h) ..
  | update => exact execUpdate_kept (.refl s) (ke := h) ..
  | pendingBankApply => exact execPendingBankApply_kept (.refl s) (ke := h) ..
  | exportJob => exact execExportJob_kept (.refl s) (ke := h) ..
  | exportRegionWritable => exact execExportRegionWritable_kept (.refl s) (ke := h) ..
  | exportComplete => exact execExportComplete_kept (.refl s) (ke := h) ..
  | pressJobComplete => exact execPressJobComplete_kept (.refl s) (ke := h) ..
  | ntsSwitch => exact execNtsSwitch_kept (.refl s) (ke := h) ..
  | ntsRevert => exact execNtsRevert_kept (.refl s) (ke := h) ..
  | streamChunkRead => exact execStreamChunkRead_kept (.refl s) (ke := h) ..
  | streamChunkArrive => exact execStreamChunkArrive_kept (.refl s) (ke := h) ..
  | streamChunkWrite => exact execStreamChunkWrite_kept (.refl s) (ke := h) ..
  | dieWindowAccess => exact execDieWindowAccess_kept (.refl s) (ke := h) ..
  | grottoCopyReturn => exact execGrottoCopyReturn_kept (.refl s) (ke := h) ..
  | eccWriteback => exact execEccWriteback_kept (.refl s) (ke := h) ..
  | refreshWindow => exact execRefreshWindow_kept (.refl s) (ke := h) ..
  | sramScrub => exact execSramScrub_kept (.refl s) (ke := h) ..
  | frameParse => exact execFrameParse_kept (.refl s) (ke := h) ..
  | pauseExpiry => exact execPauseExpiry_kept (.refl s) (ke := h) ..
  | classifierPass => exact execClassifierPass_kept (.refl s) (ke := h) ..
  | recirculationPass => exact execRecirculationPass_kept (.refl s) (ke := h) ..
  | pfcRepeat => exact execPfcRepeat_kept (.refl s) (ke := h) ..
  | frameVerdict => exact execFrameVerdict_kept (.refl s) (ke := h) ..
  | flowSweep => exact execFlowSweep_kept (.refl s) h
  | flowFlush => exact execFlowFlush_kept (.refl s) (ke := h) ..
  | bankSwap => exact execBankSwap_kept (.refl s) (ke := h) ..
  | bankDataAccess => exact execBankDataAccess_kept (.refl s) (ke := h) ..
  | egressFrameStart => exact execEgressFrameStart_kept (.refl s) (ke := h) ..
  | portTrainingDone => exact execPortTrainingDone_kept (.refl s) (ke := h) ..
  | sliceEvaluation => exact execSliceEvaluation_kept (.refl s) (ke := h) ..
  | replyStart => exact execReplyStart_kept (.refl s) (ke := h) ..
  | replyFcsSlot => exact execReplyFcsSlot_kept (.refl s) (ke := h) ..
  | timeStep => exact execTimeStep_kept (.refl s) (ke := h) ..
  | timeSet => exact execTimeSet_kept (.refl s) (ke := h) ..
  | timeAdjustApply => exact execTimeAdjustApply_kept (.refl s) h
  | todNsRead => exact execTodNsRead_kept (.refl s) h
  | rateWrite => exact execRateWrite_kept (.refl s) (ke := h) ..
  | ppsInputEdge => exact execPpsInputEdge_kept (.refl s) (ke := h) ..
  | sourceFailed => exact execSourceFailed_kept (.refl s) h
  | ptpMessage => exact execPtpMessage_kept (.refl s) (ke := h) ..
  | obcorTimeExchange => exact execObcorTimeExchange_kept (.refl s) (ke := h) ..
  | tcEntryExpiry => exact execTcEntryExpiry_kept (.refl s) (ke := h) ..
  | pdelayReqTimer => exact execPdelayReqTimer_kept (.refl s) (ke := h) ..
  | pdelayTimeout => exact execPdelayTimeout_kept (.refl s) (ke := h) ..
  | pulseEdge => exact execPulseEdge_kept (.refl s) (ke := h) ..
  | pulseEnd => exact execPulseEnd_kept (.refl s) (ke := h) ..
  | correctedRecordSend => exact execCorrectedRecordSend_kept (.refl s) (ke := h) ..
  | recordsLost => exact execRecordsLost_kept (.refl s) h
  | errTailWrite => exact execErrTailWrite_kept (.refl s) (ke := h) ..
  | twinComparison => exact execTwinComparison_kept (.refl s) (ke := h) ..
  | obcorDataReceive => exact execObcorDataReceive_kept (.refl s) (ke := h) ..
  | checkTokenSend => exact execCheckTokenSend_kept (.refl s) (ke := h) ..
  | checkTokenReceive => exact execCheckTokenReceive_kept (.refl s) (ke := h) ..
  | commitTimeout => exact execCommitTimeout_kept (.refl s) (ke := h) ..
  | poisonNotice link sender reporter epoch step cause =>
    exact execPoisonNotice_kept (.refl s) link sender reporter epoch step cause h
  | strikeExpiry => exact execStrikeExpiry_kept (.refl s) (ke := h) ..
  | screenComplete => exact execScreenComplete_kept (.refl s) (ke := h) ..
  | spareScreen => exact execSpareScreen_kept (.refl s) h
  | rotation => exact execRotation_kept (.refl s) (ke := h) ..
  | screenStalled => exact execScreenStalled_kept (.refl s) h
  | dripstoneStateWrite => exact execDripstoneStateWrite_kept (.refl s) (ke := h) ..
  | dripstoneCountFlush => exact execDripstoneCountFlush_kept (.refl s) (ke := h) ..
  | packInstall value => exact execPackInstall_kept (.refl s) value h
  | packActivation => exact execPackActivation_kept (.refl s) (ke := h) ..
  | checkpointCopyDone => exact execCheckpointCopyDone_kept (.refl s) (ke := h) ..
  | unitRecovery => exact execUnitRecovery_kept (.refl s) (ke := h) ..
  | dieReset => exact execDieReset_kept (.refl s) (ke := h) ..
  | rollback => exact execRollback_kept (.refl s) (ke := h) ..
  | expel => exact execExpel_kept (.refl s) (ke := h) ..
  | unitCmdSump => exact execUnitCmdSump_kept (.refl s) (ke := h) ..
  | unitCmdReadmit => exact execUnitCmdReadmit_kept (.refl s) (ke := h) ..
  | unitCmdScreen => exact execUnitCmdScreen_kept (.refl s) (ke := h) ..
  | snapshotSave => exact execSnapshotSave_kept (.refl s) (ke := h) ..
  | snapshotRestore => exact execSnapshotRestore_kept (.refl s) (ke := h) ..
  | snapshotCheck => exact execSnapshotCheck_kept (.refl s) (ke := h) ..
  | snapshotCopyDone => exact execSnapshotCopyDone_kept (.refl s) (ke := h) ..
  | traceTailWrite => exact execTraceTailWrite_kept (.refl s) (ke := h) ..
  | watchLineUpdate => exact execWatchLineUpdate_kept (.refl s) (ke := h) ..
  | ringEnable => exact execRingEnable_kept (.refl s) (ke := h) ..
  | ringDisable => exact execRingDisable_kept (.refl s) (ke := h) ..
  | txEntry => exact execTxEntry_kept (.refl s) (ke := h) ..
  | txCompletion => exact execTxCompletion_kept (.refl s) (ke := h) ..
  | irqHoldoffExpiry => exact execIrqHoldoffExpiry_kept (.refl s) (ke := h) ..
  | irqRouteWrite => exact execIrqRouteWrite_kept (.refl s) (ke := h) ..
  | identity => exact execIdentity_kept (.refl s) (ke := h) ..
  | dripstoneCopy => exact execDripstoneCopy_kept (.refl s) (ke := h) ..
  | firmwareStage => exact execFirmwareStage_kept (.refl s) (ke := h) ..
  | fleetJoin => exact execFleetJoin_kept (.refl s) (ke := h) ..
  | fleetLeave => exact execFleetLeave_kept (.refl s) (ke := h) ..
  | coreState => exact execCoreState_kept (.refl s) (ke := h) ..
  | ptpDataset => exact execPtpDataset_kept (.refl s) (ke := h) ..
  | stewardFailover => exact execStewardFailover_kept (.refl s) h
  | appCoreRetire => exact execAppCoreRetire_kept (.refl s) (ke := h) ..
  | functionLevelReset => exact execFunctionLevelReset_kept (.refl s) h
  | msiReceive => exact execMsiReceive_kept (.refl s) (ke := h) ..
  | rpMsiDataRead => exact execRpMsiDataRead_kept (.refl s) h
  | rpCfgDataAccess => exact execRpCfgDataAccess_kept (.refl s) (ke := h) ..
  | obcorReplay => exact execObcorReplay_kept (.refl s) (ke := h) ..
  | obcorLinkTrain => exact execObcorLinkTrain_kept (.refl s) (ke := h) ..
  | join => exact execJoin_kept (.refl s) (ke := h) ..
  | welcome => exact execWelcome_kept (.refl s) (ke := h) ..
  | heartbeat sender glc timeState errEst step loadState =>
    exact execHeartbeat_kept (.refl s) sender glc timeState errEst step loadState h
  | heartbeatTimer => exact execHeartbeatTimer_kept (.refl s) h
  | workerLost => exact execWorkerLost_kept (.refl s) (ke := h) ..
  | managerLost => exact execManagerLost_kept (.refl s) h
  | assign => exact execAssign_kept (.refl s) (ke := h) ..
  | assigned => exact execAssigned_kept (.refl s) (ke := h) ..
  | launch => exact execLaunch_kept (.refl s) (ke := h) ..
  | armed => exact execArmed_kept (.refl s) (ke := h) ..
  | late => exact execLate_kept (.refl s) (ke := h) ..
  | abort time => exact execAbort_kept (.refl s) time h
  | ready => exact execReady_kept (.refl s) (ke := h) ..
  | echoReport => exact execEchoReport_kept (.refl s) (ke := h) ..
  | verdict => exact execVerdict_kept (.refl s) (ke := h) ..
  | leave worker cause => exact execLeave_kept (.refl s) worker cause h
  | admitSet => exact execAdmitSet_kept (.refl s) (ke := h) ..
  | railSample => exact execRailSample_kept (.refl s) (ke := h) ..
  | rearm => exact execRearm_kept (.refl s) (ke := h) ..
  | throttleEvaluation => exact execThrottleEvaluation_kept (.refl s) (ke := h) ..
  | thermalTrip => exact execThermalTrip_kept (.refl s) (ke := h) ..
  | thermalTripRelease => exact execThermalTripRelease_kept (.refl s) h
  | meterInterval => exact execMeterInterval_kept (.refl s) (ke := h) ..
  | meterRecord => exact execMeterRecord_kept (.refl s) (ke := h) ..
  | meterLinkLost => exact execMeterLinkLost_kept (.refl s) h
  | alarm => exact execAlarm_kept (.refl s) (ke := h) ..
  | debugUnlock => exact execDebugUnlock_kept (.refl s) (ke := h) ..
  | keyDataAccess => exact execKeyDataAccess_kept (.refl s) (ke := h) ..
  | fuseProgram => exact execFuseProgram_kept (.refl s) (ke := h) ..
  | fuseRevoke => exact execFuseRevoke_kept (.refl s) (ke := h) ..
  | fuseRaise => exact execFuseRaise_kept (.refl s) (ke := h) ..
  | fuseComplete => exact execFuseComplete_kept (.refl s) h
  | powerDown => exact execPowerDown_kept (.refl s) h
  | startup o => exact Kept.of_done h (State.startup_kept_of_sampled (hc o rfl) o)
  | loaderStart => exact execLoaderStart_kept (.refl s) h
  | packageReset => exact execPackageReset_kept (.refl s) (ke := h) ..
  | coresReset => exact execCoresReset_kept (.refl s) (ke := h) ..
  | pciePerst => exact execPciePerst_kept (.refl s) h
  | testReset => exact execTestReset_kept (.refl s) h
  | pciePerstRelease => exact execPciePerstRelease_kept (.refl s) (ke := h) ..
  | obcorLinkDown => exact execObcorLinkDown_kept (.refl s) (ke := h) ..
  | obcorRelay => exact execObcorRelay_kept (.refl s) (ke := h) ..
  | standbyMirror => exact execStandbyMirror_kept (.refl s) (ke := h) ..
  | ptpMessageGeneration => exact execPtpMessageGeneration_kept (.refl s) (ke := h) ..
  | corrected24hWindow => exact execCorrected24hWindow_kept (.refl s) (ke := h) ..

/-- Whatever the command, all that `Kept` speaks of is kept but the side of the PCIe port. -/
theorem exec_kept_but_side (c : Instr) {s t : State} (h : exec c s = .next t) :
    ∃ r, Kept { s with pkg := { s.pkg with rootPort := r } } t := by
  by_cases hc : ∃ o, c = .startup o
  · obtain ⟨o, rfl⟩ := hc
    exact execStartup_kept (.refl s) o h
  · exact ⟨s.pkg.rootPort, exec_kept (fun o ho => absurd ⟨o, ho⟩ hc) h⟩

theorem exec_pending {c : Instr} {s t : State} (h : exec c s = .next t) : t.pending = s.pending := by
  obtain ⟨_, hk⟩ := exec_kept_but_side c h
  exact hk.queue

/-- A step takes one command off the queue, or leaves it empty. -/
theorem step_next (s : State) : ∃ t, step s = .next t ∧ t.pending = s.pending.drop 1 := by
  unfold step
  split
  next hp => exact ⟨_, rfl, by rw [(State.tick_kept (.refl s)).queue, hp]; rfl⟩
  next c rest hp =>
    obtain ⟨t, ht⟩ := exec_completes c { s with pending := rest }
    exact ⟨t, ht, by rw [exec_pending ht, hp]; rfl⟩

theorem reaches_drop (s : State) (k : Nat) : ∃ t, Reaches s k t ∧ t.pending = s.pending.drop k := by
  induction k generalizing s with
  | zero => exact ⟨s, .zero s, rfl⟩
  | succ k ih =>
    obtain ⟨u, hu, hp⟩ := step_next s
    obtain ⟨t, ht, hq⟩ := ih u
    exact ⟨t, .succ hu ht, by rw [hq, hp, List.drop_drop]; congr 1; omega⟩

/-- Settles O7: the `_same` law of each command gives the frame, its `_kept` law the queue, the part and the port's
side. -/
theorem commandChangesOnlyItsComponents : Obligations.CommandChangesOnlyItsComponents := by
  intro c s t h
  obtain ⟨_, hk⟩ := exec_kept_but_side c h
  exact ⟨fun p hp => (exec_same c h).keeps (untouched_of_notMem hp), hk.queue, hk.grade, hk.stepping, hk.meter,
    fun hc => (exec_kept hc h).rootPort⟩

/-- Settles O6: every arm of `exec` completes, and keeps the queue that `step` has shortened by one. -/
theorem everyCommandCompletes : Obligations.EveryCommandCompletes :=
  ⟨exec_completes, reaches_drop⟩

end Sys2Proof.Machine
end


section
/-! Reading a field that holds what was written, and what an interrupt of a status field leaves alone. -/

namespace Sys2Proof.Machine

theorem State.fld_setFld_of_lt (s : State) (f : Fld) {v : Nat} (h : f.hi < 64) (l : f.lo ≤ f.hi + 1)
    (hv : v < 2 ^ (f.hi + 1 - f.lo)) : (s.setFld f v).fld f = v := by
  rw [State.fld_setFld_same _ _ _ h l, Nat.mod_eq_of_lt hv]

theorem State.fld_of_reg {s t : State} {f : Fld} (h : t.reg f.off = s.reg f.off) : t.fld f = s.fld f := by
  rw [State.fld, State.fld, h]

theorem State.fld_withHub (s : State) (h : HubState) (f : Fld) : ({ s with hub := h } : State).fld f = s.fld f := rfl

theorem State.fld_raiseIrq_pending (s : State) (n : Nat) : (s.raiseIrq n).fld (Reg.hubIrqRoutePending n) = 1 := by
  have h := State.raiseIrq_sets s n
  rwa [State.fldB_eq _ _ rfl, beq_iff_eq] at h

theorem State.setFldIrq_hub (s : State) (n : Nat) (f : Fld) (v : Nat) :
    ∃ d p, (s.setFldIrq n f v).hub = { s.hub with delivered := d, msixPending := p } := by
  unfold State.setFldIrq
  dsimp only
  split
  · exact ⟨s.hub.delivered, s.hub.msixPending, State.setFld_hub _ _ _⟩
  · obtain ⟨d, p, h⟩ := State.raiseIrq_hub (s.setFld f v) n
    exact ⟨d, p, by rw [h, State.setFld_hub]⟩

end Sys2Proof.Machine
end


section
/-! The PCIe port: what its resets, its training, the MSI-X table and configuration space answer (R454 to R456, R473,
R509, R513). -/

namespace Sys2Proof.Machine

/-! ### Registers and the state beside them -/

theorem State.reg_resetRegs (s : State) (os : List Nat) (k : Nat) :
    (s.resetRegs os).reg k = if k ∈ os then resetWord k else s.reg k := by
  induction os generalizing s with
  | nil => rfl
  | cons o os ih =>
    have hset : ((s.setReg o (resetWord o)).setShadow o (resetWord o)).reg k = (s.setReg o (resetWord o)).reg k := rfl
    rw [State.resetRegs, List.foldl_cons, ← State.resetRegs, ih, hset]
    by_cases hk : k = o
    · subst hk; simp
    · simp [hk, State.reg_setReg_other _ _ _ _ hk]

@[simp] theorem State.resetRegs_mem (s : State) (os : List Nat) : (s.resetRegs os).mem = s.mem :=
  (State.resetRegs_same (m := fun p => p == .mem) (.refl s) os rfl rfl).mem rfl

@[simp] theorem State.resetRegs_pkg (s : State) (os : List Nat) : (s.resetRegs os).pkg = s.pkg :=
  (State.resetRegs_same (m := fun p => p == .pkg) (.refl s) os rfl rfl).pkg rfl

theorem State.reg_strapRoot_other (s : State) (k : Nat) (h : k ≠ Reg.pcieStatus) : s.strapRoot.reg k = s.reg k :=
  State.reg_setFld_other _ _ _ _ h

@[simp] theorem State.strapRoot_mem (s : State) : s.strapRoot.mem = s.mem := rfl

@[simp] theorem State.strapRoot_pkg (s : State) : s.strapRoot.pkg = s.pkg := rfl

@[simp] theorem State.strapRoot_hub (s : State) : s.strapRoot.hub = s.hub := rfl

@[simp] theorem State.reg_msixReset (s : State) (k : Nat) : s.msixReset.reg k = s.reg k := rfl

@[simp] theorem State.msixReset_mem (s : State) : s.msixReset.mem = s.mem := rfl

@[simp] theorem State.msixReset_pkg (s : State) : s.msixReset.pkg = s.pkg := rfl

theorem State.raiseIrq_msi (s : State) (n : Nat) : (s.raiseIrq n).hub.msi = s.hub.msi := by
  obtain ⟨d, p, h⟩ := State.raiseIrq_hub s n
  rw [h]

/-! ### Resets and training -/

/-- A function level reset of the endpoint. -/
theorem execFunctionLevelReset_endpoint {s : State} (h : s.rootPort = false) :
    exec .functionLevelReset s = .next (s.resetRegs flrRegs).strapRoot :=
  congrArg done (if_neg (by simp [h]))

theorem State.reg_flr (s : State) (k : Nat) (h : k ≠ Reg.pcieStatus) :
    (s.resetRegs flrRegs).strapRoot.reg k = if k ∈ flrRegs then resetWord k else s.reg k := by
  rw [State.reg_strapRoot_other _ _ h, State.reg_resetRegs]

theorem State.reg_flr_kept (s : State) {k : Nat} (hs : k ≠ Reg.pcieStatus) (hk : k ∉ flrRegs) :
    (s.resetRegs flrRegs).strapRoot.reg k = s.reg k := by
  rw [State.reg_flr _ _ hs, if_neg hk]

theorem State.reg_flr_reset (s : State) {k : Nat} (hs : k ≠ Reg.pcieStatus) (hk : k ∈ flrRegs) :
    (s.resetRegs flrRegs).strapRoot.reg k = resetWord k := by
  rw [State.reg_flr _ _ hs, if_pos hk]

theorem execFunctionLevelReset_spec {s : State} (h : s.rootPort = false) :
    ∃ t, exec .functionLevelReset s = .next t ∧ t.reg Reg.pcieBar2Cfg = s.reg Reg.pcieBar2Cfg ∧
      t.reg Reg.pcieOutBase = s.reg Reg.pcieOutBase ∧ t.reg Reg.pcieRpMsiAddr = resetWord Reg.pcieRpMsiAddr ∧
      t.mem = s.mem ∧ t.pkg = s.pkg :=
  ⟨_, execFunctionLevelReset_endpoint h, State.reg_flr_kept s (by decide) (by decide),
    State.reg_flr_kept s (by decide) (by decide), State.reg_flr_reset s (by decide) (by decide),
    by rw [State.strapRoot_mem, State.resetRegs_mem], by rw [State.strapRoot_pkg, State.resetRegs_pkg]⟩

theorem State.perst_eq {s : State} (h : s.rootPort = false) :
    s.perst = ((State.resetRegs { s with pkg := { s.pkg with perstN := false } } pcieRegs).msixReset.strapRoot).setFld
      Reg.pkgResetCausePerst 1 := by
  rw [State.perst, h]
  rfl

theorem State.reg_perst {s : State} (h : s.rootPort = false) {k : Nat} (hk : k ∈ pcieRegs) (hs : k ≠ Reg.pcieStatus)
    (hc : k ≠ Reg.pkgResetCause) : s.perst.reg k = resetWord k := by
  rw [State.perst_eq h, State.reg_setFld_other _ _ _ _ hc, State.reg_strapRoot_other _ _ hs,
    State.reg_msixReset, State.reg_resetRegs, if_pos hk]

theorem execPciePerst_spec {s : State} (h : s.rootPort = false) :
    ∃ t, exec .pciePerst s = .next t ∧ t.pkg.perstN = false ∧ t.reg Reg.pcieBar2Cfg = resetWord Reg.pcieBar2Cfg ∧
      t.reg Reg.pcieOutBase = resetWord Reg.pcieOutBase ∧ t.fld Reg.pkgResetCausePerst = 1 ∧ t.hub.msix = [] ∧
      t.hub.msixPending = [] ∧ t.mem = s.mem := by
  refine ⟨s.perst, rfl, ?_, State.reg_perst h (by decide) (by decide) (by decide),
    State.reg_perst h (by decide) (by decide) (by decide), ?_, ?_, ?_, ?_⟩
  all_goals rw [State.perst_eq h]
  · rw [State.setFld_pkg, State.strapRoot_pkg, State.msixReset_pkg, State.resetRegs_pkg]
  · exact State.fld_setFld_of_lt _ _ (by decide) (by decide) (by decide)
  · rw [State.setFld_hub, State.strapRoot_hub]; rfl
  · rw [State.setFld_hub, State.strapRoot_hub]; rfl
  · rw [State.setFld_mem, State.strapRoot_mem, State.msixReset_mem, State.resetRegs_mem]

/-- A port that trains shows the speed, width and flit mode that it reached. -/
theorem State.perstRelease_eq {s : State} {speed width : Nat} {flit : Bool} (hh : s.held = false)
    (hl : s.fldB Reg.pcieStatusLinkUp = false) (hp : s.rootPort = false ∨ s.pkg.perstN = true)
    (hs : 1 ≤ speed ∧ speed ≤ 6) (hw : width ∈ [1, 2, 4, 8, 16]) :
    s.perstRelease speed width flit =
      ((((State.setFld { s with pkg := { s.pkg with perstN := true } } Reg.pcieStatusLinkUp 1).setFld
        Reg.pcieStatusFlit (b2n (flit || speed == 6))).setFld Reg.pcieStatusSpeed speed).setFld
        Reg.pcieStatusWidth width) := by
  have hroot : (s.rootPort && !s.pkg.perstN) = false := by
    obtain h | h := hp <;> simp [h]
  have hwidth : [1, 2, 4, 8, 16].contains width = true := List.contains_iff_mem.2 hw
  unfold State.perstRelease
  rw [hh, hl, hroot, hwidth, decide_eq_true hs]
  rfl

theorem execPciePerstRelease_spec {s : State} {speed : BitVec 3} {width : BitVec 5} {flit : Bool} (hh : s.held = false)
    (hl : s.fldB Reg.pcieStatusLinkUp = false) (hp : s.rootPort = false ∨ s.pkg.perstN = true) (h1 : 1 ≤ speed.toNat)
    (h6 : speed.toNat ≤ 6) (hw : width.toNat ∈ [1, 2, 4, 8, 16]) :
    ∃ t, exec (.pciePerstRelease speed width flit) s = .next t ∧ t.pkg.perstN = true ∧
      t.fld Reg.pcieStatusLinkUp = 1 ∧ t.fld Reg.pcieStatusSpeed = speed.toNat ∧
      t.fld Reg.pcieStatusWidth = width.toNat ∧
      (t.fldB Reg.pcieStatusFlit = true ↔ flit = true ∨ speed.toNat = 6) := by
  have hflit : b2n (flit || speed.toNat == 6) < 2 := by cases flit || speed.toNat == 6 <;> decide
  refine ⟨s.perstRelease speed.toNat width.toNat flit, rfl, ?_⟩
  rw [State.perstRelease_eq hh hl hp ⟨h1, h6⟩ hw]
  refine ⟨rfl, ?_, ?_, ?_, ?_⟩
  · simp (disch := decide) only [State.fld_setFld_other, State.fld_setFld_same]
    rfl
  · rw [State.fld_setFld_other _ _ _ _ (by decide) (by decide) (by decide)]
    exact State.fld_setFld_of_lt _ _ (by decide) (by decide) speed.isLt
  · exact State.fld_setFld_of_lt _ _ (by decide) (by decide) width.isLt
  · rw [State.fldB_eq _ _ rfl]
    simp (disch := decide) only [State.fld_setFld_other]
    rw [State.fld_setFld_of_lt _ _ (by decide) (by decide) hflit]
    cases flit <;> by_cases h : speed.toNat = 6 <;> simp [h, b2n]

/-! ### Message interrupts and configuration requests below the root port -/

theorem execMsiReceive_spec {s : State} {a : BitVec 64} {d : BitVec 32} (h : s.rootPort = true)
    (ha : a = s.reg Reg.pcieRpMsiAddr) :
    ∃ t, exec (.msiReceive a d) s = .next t ∧ t.mem = s.mem ∧
      if s.hub.msi.length < 64 then
        t.hub.msi = s.hub.msi ++ [d.toNat] ∧ t.fld (Reg.hubIrqRoutePending irqPcieRp) = 1
      else t.hub.msi = s.hub.msi ∧ t.hub.msiOverflow = true := by
  subst ha
  refine ⟨s.msiReceive _ _, rfl, ?_⟩
  unfold State.msiReceive
  rw [h, if_neg (by decide), if_pos rfl]
  by_cases hq : s.hub.msi.length < 64
  · rw [if_pos hq, if_pos (c := s.hub.msi.length < msiDepth) hq]
    exact ⟨State.raiseIrq_mem _ _, State.raiseIrq_msi _ _, State.fld_raiseIrq_pending _ _⟩
  · rw [if_neg hq, if_neg (c := s.hub.msi.length < msiDepth) hq]
    exact ⟨rfl, rfl, rfl⟩

theorem execRpMsiDataRead_spec {s : State} (h : s.rootPort = true) :
    ∃ t, exec .rpMsiDataRead s = .next t ∧ t.hub.msi = s.hub.msi.drop 1 ∧ t.hub.msiOverflow = false ∧
      t.response = .ok (BitVec.ofNat 512 s.msiWord) ∧ t.regs = s.regs := by
  refine ⟨s.msiRead, rfl, ?_⟩
  rw [State.msiRead, h]
  exact ⟨rfl, rfl, rfl, rfl⟩

/-- A configuration request leaves for buses 1 to 255. -/
theorem State.cfgRequest_pcieOut (s : State) (w : Option Nat) :
    (s.cfgRequest w).hub.pcieOut = if bits (s.fld Reg.pcieRpCfgAddrAddr) 27 20 = 0 then s.hub.pcieOut
      else s.hub.pcieOut ++ [.config (s.fld Reg.pcieRpCfgAddrAddr) w] := by
  unfold State.cfgRequest
  dsimp only
  split <;> rfl

theorem State.rpCfg_none {s : State} (h : s.rootPort = true) (answer : Option Nat) :
    s.rpCfg none answer =
      let v := if bits (s.fld Reg.pcieRpCfgAddrAddr) 27 20 = 0 then 0xFFFFFFFF else answer.getD 0xFFFFFFFF
      ((s.cfgRequest none).setFld Reg.pcieRpCfgDataData v).respond (.ok (BitVec.ofNat 512 v)) := by
  rw [State.rpCfg, h]
  rfl

theorem State.rpCfg_some {s : State} (h : s.rootPort = true) (v : Nat) (answer : Option Nat) :
    s.rpCfg (some v) answer = ((s.cfgRequest (some v)).setFld Reg.pcieRpCfgDataData v).respond (.ok 0) := by
  rw [State.rpCfg, h]
  rfl

theorem execRpCfgDataAccess_read_spec {s : State} {a : Option (BitVec 32)} (hr : s.pkg.ready = true)
    (h : s.rootPort = true) :
    ∃ t, exec (.rpCfgDataAccess none a) s = .next t ∧
      t.response = .ok (BitVec.ofNat 512 (if bits (s.fld Reg.pcieRpCfgAddrAddr) 27 20 = 0 then 0xFFFFFFFF
        else (a.getD 0xFFFFFFFF).toNat)) ∧
      t.hub.pcieOut = if bits (s.fld Reg.pcieRpCfgAddrAddr) 27 20 = 0 then s.hub.pcieOut
        else s.hub.pcieOut ++ [.config (s.fld Reg.pcieRpCfgAddrAddr) none] := by
  have ha : (a.map BitVec.toNat).getD 0xFFFFFFFF = (a.getD 0xFFFFFFFF).toNat := by cases a <;> rfl
  refine ⟨s.onReady fun s => s.rpCfg none (a.map BitVec.toNat), rfl, ?_⟩
  rw [State.onReady, if_pos hr, State.rpCfg_none h, ha]
  exact ⟨rfl, State.cfgRequest_pcieOut s none⟩

theorem execRpCfgDataAccess_write_spec {s : State} {v : BitVec 32} {a : Option (BitVec 32)} (hr : s.pkg.ready = true)
    (h : s.rootPort = true) :
    ∃ t, exec (.rpCfgDataAccess (some v) a) s = .next t ∧ t.response = .ok 0 ∧
      t.fld Reg.pcieRpCfgDataData = v.toNat ∧
      t.hub.pcieOut = if bits (s.fld Reg.pcieRpCfgAddrAddr) 27 20 = 0 then s.hub.pcieOut
        else s.hub.pcieOut ++ [.config (s.fld Reg.pcieRpCfgAddrAddr) (some v.toNat)] := by
  refine ⟨s.onReady fun s => s.rpCfg (some v.toNat) (a.map BitVec.toNat), rfl, ?_⟩
  rw [State.onReady, if_pos hr, State.rpCfg_some h]
  refine ⟨rfl, ?_, State.cfgRequest_pcieOut s (some v.toNat)⟩
  rw [State.fld_congr (State.respond_regs _ _), State.fld_setFld_of_lt _ _ (by decide) (by decide) v.isLt]

/-! ### The MSI-X table -/

theorem le_append_left {k : Nat} {v w : List Byte} (h : v.length = k) : le (v ++ w) 0 k = leNat v := by
  rw [le, List.drop_zero, List.take_left' h]

/-- The vectors lie below the pending-bit array. -/
theorem vectorOffset_lt_msixPba (i : Fin 2048) : 16 * i.val < msixPba := by
  have hi := i.isLt
  have hp : msixPba = 0x8000 := rfl
  omega

theorem MsixVector.addr_ofBytes_write {v : List Byte} (h : v.length = 8) (x : MsixVector) :
    (MsixVector.ofBytes (v ++ x.bytes.drop 8)).addr = leNat v := le_append_left h

theorem MsixVector.masked_ofBytes_write {v : List Byte} (h : v.length = 8) (x : MsixVector) :
    (MsixVector.ofBytes (v ++ x.bytes.drop 8)).masked = x.masked := by
  have hdrop : (v ++ x.bytes.drop 8).drop 12 = toLe 4 (b2n x.masked) := by
    rw [List.drop_append, List.drop_eq_nil_of_le (by omega), List.drop_drop, h, MsixVector.bytes, List.nil_append]
    exact List.drop_left' (by simp)
  have hle : le (v ++ x.bytes.drop 8) 12 4 = b2n x.masked := by
    rw [le, hdrop, List.take_of_length_le (by simp), leNat_toLe]
    cases x.masked <;> rfl
  rw [MsixVector.ofBytes, hle]
  cases x.masked <;> rfl

@[simp] theorem State.msixWrite_mem (s : State) (off : Nat) (bs : List Byte) : (s.msixWrite off bs).mem = s.mem :=
  (State.msixWrite_same (m := fun p => p == .mem) (.refl s) off bs rfl).mem rfl

@[simp] theorem State.msixWrite_regs (s : State) (off : Nat) (bs : List Byte) : (s.msixWrite off bs).regs = s.regs :=
  (State.msixWrite_same (m := fun p => p == .regs) (.refl s) off bs rfl).regs rfl

/-- A write of the table reaches the vector at its offset and no other. -/
theorem State.msixVector_msixWrite (s : State) {off : Nat} (h : off < msixPba) (bs : List Byte) (j : Nat) :
    (s.msixWrite off bs).msixVector j =
      if j = off / 16 then MsixVector.ofBytes ((s.msixVector (off / 16)).bytes.take (off % 16) ++ bs ++
        (s.msixVector (off / 16)).bytes.drop (off % 16 + bs.length))
      else s.msixVector j := by
  have hset (t : State) (x : MsixVector) (ht : t.hub.msix = Tab.set MsixVector.init (off / 16) x s.hub.msix) :
      t.msixVector j = if j = off / 16 then x else s.msixVector j := by
    rw [State.msixVector, ht]
    split
    next e => rw [e, Tab.get_set_same]
    next e => exact Tab.get_set_other _ _ e _ _
  unfold State.msixWrite
  rw [if_neg (by omega)]
  dsimp only
  split
  · exact hset _ _ rfl
  · exact hset _ _ rfl

theorem State.bar4Access_eq {s : State} (ha : s.answers .pcie = true) (hr : s.rootPort = false) (i : Fin 2048)
    (w : Option (List Byte)) :
    s.bar4Access (16 * i.val) 8 w = match w with
      | some bs => (s.msixWrite (16 * i.val) (bs.take 8)).respond (.ok 0)
      | none => s.respond (.ok (BitVec.ofNat 512 (leNat (s.msixRead (16 * i.val) 8)))) := by
  have hroot : s.pkg.rootPort = false := hr
  have hmod : (16 * i.val % 8 != 0) = false := by
    have : 16 * i.val % 8 = 0 := by omega
    simp [this]
  have hin : decide (0x10000 < 16 * i.val + 8) = false := by
    have := i.isLt
    simp only [decide_eq_false_iff_not]
    omega
  unfold State.bar4Access
  rw [ha, hroot, hmod, hin]
  rfl

theorem execDieWindowAccess_msixWrite_spec {s : State} {i : Fin 2048} {a : Addr} {v : List Byte}
    (ha : s.answers .pcie = true) (hr : s.rootPort = false) (hi : a.toNat = 16 * i.val) (hv : v.length = 8) :
    ∃ t, exec (.dieWindowAccess .pcie a 8 ⟨.msix, some v, []⟩) s = .next t ∧ (t.msixVector i).addr = leNat v ∧
      (t.msixVector i).masked = (s.msixVector i).masked ∧ (∀ j, j ≠ i.val → t.msixVector j = s.msixVector j) ∧
      t.response = .ok 0 ∧ t.mem = s.mem ∧ t.regs = s.regs := by
  have hvec (j : Nat) : (s.msixWrite (16 * i.val) v).msixVector j =
      if j = i.val then MsixVector.ofBytes (v ++ (s.msixVector i).bytes.drop 8) else s.msixVector j := by
    rw [State.msixVector_msixWrite s (vectorOffset_lt_msixPba i), Nat.mul_div_cancel_left _ (by decide),
      Nat.mul_mod_right, hv]
    simp
  refine ⟨(s.msixWrite (16 * i.val) v).respond (.ok 0), ?_, ?_, ?_, ?_, rfl, s.msixWrite_mem _ _,
    s.msixWrite_regs _ _⟩
  · have h := State.bar4Access_eq ha hr i (some v)
    dsimp only at h
    rw [List.take_of_length_le (Nat.le_of_eq hv)] at h
    rw [← h, ← hi]
    rfl
  · exact (congrArg MsixVector.addr ((hvec i).trans (if_pos rfl))).trans (MsixVector.addr_ofBytes_write hv _)
  · exact (congrArg MsixVector.masked ((hvec i).trans (if_pos rfl))).trans (MsixVector.masked_ofBytes_write hv _)
  · exact fun j hj => (hvec j).trans (if_neg hj)

theorem State.msixRead_address {s : State} {i : Fin 2048} :
    leNat (s.msixRead (16 * i.val) 8) = (s.msixVector i).addr % 2 ^ 64 := by
  have hslice : sliceBytes (s.msixVector i).bytes 0 8 = toLe 8 (s.msixVector i).addr := by
    rw [sliceBytes, List.drop_zero, MsixVector.bytes, List.append_assoc, List.take_left' (toLe_length _ _)]
    simp
  rw [State.msixRead, if_pos (vectorOffset_lt_msixPba i), Nat.mul_div_cancel_left _ (by decide), Nat.mul_mod_right,
    hslice]
  exact leNat_toLe 8 _

theorem execDieWindowAccess_msixRead_spec {s : State} {i : Fin 2048} {a : Addr} (ha : s.answers .pcie = true)
    (hr : s.rootPort = false) (hi : a.toNat = 16 * i.val) :
    ∃ t, exec (.dieWindowAccess .pcie a 8 ⟨.msix, none, []⟩) s = .next t ∧
      t.response = .ok (BitVec.ofNat 512 ((s.msixVector i).addr % 2 ^ 64)) ∧ t.hub = s.hub := by
  have h := State.bar4Access_eq ha hr i none
  rw [State.msixRead_address, ← hi] at h
  exact ⟨s.bar4Access a.toNat 8 none, rfl, by rw [h]; rfl, by rw [h]; rfl⟩

/-! ### Configuration space -/

/-- The device ID stands at bytes 2 and 3. -/
theorem State.deviceId_bytes (s : State) : leNat ((List.range 2).map fun i => s.configByte (2 + i)) = 0x4820 := by
  simp [List.range_succ, State.configByte, State.functionId, toLe, leNat]

theorem execDieWindowAccess_config_spec {s : State} {a : Addr} {n : Nat} (ha : s.answers .pcie = true)
    (hr : s.rootPort = false) :
    ∃ t, exec (.dieWindowAccess .pcie a n ⟨.config, none, []⟩) s = .next t ∧ t.mem = s.mem ∧ t.regs = s.regs ∧
      (s.past 3 = false → t.response = .retry) ∧
      (s.past 3 = true → a.toNat = 2 → n = 2 → t.response = .ok 0x4820) := by
  have hroot : s.pkg.rootPort = false := hr
  refine ⟨s.configAccess a.toNat n none, rfl, ?_⟩
  unfold State.configAccess
  rw [ha, hroot]
  cases hp : s.past 3 with
  | false => exact ⟨rfl, rfl, fun _ => rfl, nofun⟩
  | true =>
    refine ⟨rfl, rfl, nofun, fun _ h2 hn => ?_⟩
    subst hn
    rw [h2]
    simp only [State.respond, State.deviceId_bytes]
    rfl

theorem State.functionId_eq_ident (s : State) : s.functionId.revision.toNat = bits s.identWord 23 16 ∧
    s.functionId.device.toNat = bits s.identWord 15 0 := by
  unfold State.functionId State.identWord State.stepping
  cases s.pkg.gradeE <;> cases s.pkg.steppingB0 <;> decide

/-- Settles O52, one law per operation of the port. -/
theorem pciePortResetsAndTakesMessages : Obligations.PciePortResetsAndTakesMessages :=
  ⟨fun _ => execFunctionLevelReset_spec, fun _ => execPciePerst_spec,
    fun _ _ _ _ => execPciePerstRelease_spec, fun _ _ _ => execMsiReceive_spec, fun _ => execRpMsiDataRead_spec,
    fun _ _ => execRpCfgDataAccess_read_spec, fun _ _ _ => execRpCfgDataAccess_write_spec,
    fun _ _ _ _ => execDieWindowAccess_msixWrite_spec, fun _ _ _ => execDieWindowAccess_msixRead_spec,
    fun _ _ _ => execDieWindowAccess_config_spec, State.functionId_eq_ident⟩

end Sys2Proof.Machine
end


section
/-! Flits and messages of Obcor read back from their bytes (R17, R457, R458). -/

namespace Sys2Proof.Machine

/-! ### Big-endian fields -/

@[simp] theorem toBe_length (k n : Nat) : (toBe k n).length = k := by
  rw [toBe, List.length_reverse, toLe_length]

theorem beNat_reverse (bs : List Byte) : beNat bs.reverse = leNat bs := by
  induction bs with
  | nil => rfl
  | cons b bs ih =>
    rw [leNat, ← ih, List.reverse_cons, beNat, beNat, List.foldl_append, List.foldl_cons, List.foldl_nil]
    omega

/-- Big-endian bytes read back as the number's low bytes. -/
theorem beNat_toBe (k n : Nat) : beNat (toBe k n) = n % 256 ^ k := by
  rw [toBe, beNat_reverse, leNat_toLe]

/-- A number that its bytes hold. -/
theorem toNat_mod_bytes {w : Nat} (x : BitVec w) {k : Nat} (h : w ≤ 8 * k) : x.toNat % 256 ^ k = x.toNat := by
  refine Nat.mod_eq_of_lt (Nat.lt_of_lt_of_le x.isLt ?_)
  rw [show (256 : Nat) = 2 ^ 8 from rfl, ← Nat.pow_mul]
  exact Nat.pow_le_pow_right (by decide) h

/-- The field at the front. -/
@[simp] theorem be_toBe_append (k n : Nat) (rest : List Byte) : be (toBe k n ++ rest) 0 k = n % 256 ^ k := by
  rw [be, List.drop_zero, List.take_left' (toBe_length k n), beNat_toBe]

@[simp] theorem be_toBe (k n : Nat) : be (toBe k n) 0 k = n % 256 ^ k := by
  simpa using be_toBe_append k n []

/-- A field past the front. -/
theorem be_append_of_le {bs : List Byte} {o : Nat} (h : bs.length ≤ o) (rest : List Byte) (k : Nat) :
    be (bs ++ rest) o k = be rest (o - bs.length) k := by
  rw [be, be, List.drop_append, List.drop_eq_nil_of_le h, List.nil_append]

theorem be_toBe_append_of_le {k o : Nat} (h : k ≤ o) (n m : Nat) (rest : List Byte) :
    be (toBe k n ++ rest) o m = be rest (o - k) m := by
  rw [be_append_of_le (by rwa [toBe_length]), toBe_length]

/-! ### Tokens, notices, time flits and data messages -/

theorem tokenOf_tokenBytes (src dest : BitVec 13) (epoch : BitVec 32) (count pip : BitVec 64) :
    tokenOf (tokenBytes src dest epoch count pip) =
      (src.toNat, dest.toNat, epoch.toNat, count.toNat, pip.toNat) := by
  simp (disch := decide) only [tokenOf, tokenBytes, List.append_assoc, be_toBe_append, be_toBe, be_toBe_append_of_le,
    toNat_mod_bytes, Nat.reduceSub]

theorem noticeOf_noticeBytes (sender reporter : BitVec 13) (epoch : BitVec 32) (step : BitVec 64) (cause : BitVec 8) :
    noticeOf (noticeBytes sender reporter epoch step cause) =
      (sender.toNat, reporter.toNat, epoch.toNat, step.toNat, cause.toNat) := by
  simp (disch := decide) only [noticeOf, noticeBytes, List.append_assoc, be_toBe_append, be_toBe, be_toBe_append_of_le,
    toNat_mod_bytes, Nat.reduceSub]

theorem timeOf_timeBytes (x : TimeFlit) : timeOf (timeBytes x) = x := by
  simp (disch := decide) only [timeOf, timeBytes, List.append_assoc, be_toBe_append, be_toBe, be_toBe_append_of_le,
    toNat_mod_bytes, Nat.reduceSub, BitVec.ofNat_toNat, BitVec.setWidth_eq]

@[simp] theorem dataHeader_length (m : DataMsg) : (dataHeader m).length = 32 := by
  simp [dataHeader]

/-- The fields of a data message's header. -/
theorem be_dataBytes (m : DataMsg) (h : m.data.length < 2 ^ 32) :
    be (dataBytes m) 0 2 = m.dest.toNat ∧ be (dataBytes m) 2 2 = m.src.toNat ∧ be (dataBytes m) 4 1 = m.die.val ∧
      be (dataBytes m) 6 2 = m.event.val ∧ be (dataBytes m) 8 8 = m.addr.toNat ∧
      be (dataBytes m) 16 4 = m.data.length ∧ be (dataBytes m) 20 4 = m.step.toNat := by
  have hdie : m.die.val % 256 ^ 1 = m.die.val := by omega
  have hevent : m.event.val % 256 ^ 2 = m.event.val := by omega
  have hlen : m.data.length % 256 ^ 4 = m.data.length := by omega
  simp (disch := decide) only [dataBytes, dataHeader, List.append_assoc, be_toBe_append, be_toBe_append_of_le,
    toNat_mod_bytes, Nat.reduceSub, hdie, hevent, hlen, and_self]

theorem dataOf_dataBytes (m : DataMsg) (h : m.data.length < 2 ^ 32) : dataOf m.epoch (dataBytes m) = some m := by
  obtain ⟨hdest, hsrc, hdie, hevent, haddr, hlen, hstep⟩ := be_dataBytes m h
  have hbytes : (dataBytes m).length = 32 + m.data.length := by simp [dataBytes]
  have hdata : ((dataBytes m).drop 32).take m.data.length = m.data := by
    rw [dataBytes, List.drop_left' (dataHeader_length m), List.take_length]
  rw [dataOf, dif_pos (by rw [hdie, hevent, hdest, hsrc, haddr, hlen, hbytes]; omega)]
  simp [hdest, hsrc, hdie, hevent, haddr, hlen, hstep, hdata]

/-! ### Flits -/

theorem crc64Step_lt {c : Nat} (h : c < 2 ^ 64) : crc64Step c < 2 ^ 64 := by
  unfold crc64Step
  split
  · exact Nat.xor_lt_two_pow (Nat.mod_lt _ (by decide)) (by decide)
  next hbit =>
    rw [Nat.testBit_eq_decide_div_mod_eq] at hbit
    simp only [decide_eq_true_eq] at hbit
    omega

theorem crc64Byte_lt {c : Nat} (h : c < 2 ^ 64) (b : Byte) : crc64Byte c b < 2 ^ 64 := by
  have hb : b.toNat * 2 ^ 56 < 2 ^ 64 := by omega
  unfold crc64Byte
  iterate 8 apply crc64Step_lt
  exact Nat.xor_lt_two_pow h hb

theorem crc64_lt (bs : List Byte) : crc64 bs < 2 ^ 64 := by
  have hfold : ∀ c, c < 2 ^ 64 → bs.foldl crc64Byte c < 2 ^ 64 := by
    induction bs with
    | nil => exact fun c hc => hc
    | cons b bs ih => exact fun c hc => ih _ (crc64Byte_lt hc b)
  exact hfold 0 (by decide)

theorem FlitHeader.word_lt (h : FlitHeader) : h.word < 2 ^ 64 := by
  have hlast : b2n h.last ≤ 1 := by cases h.last <;> decide
  unfold FlitHeader.word
  omega

theorem ofNat_eq_of_eq_toNat {w n : Nat} {x : BitVec w} (h : n = x.toNat) : BitVec.ofNat w n = x := by
  rw [h, BitVec.ofNat_toNat, BitVec.setWidth_eq]

/-- A header reads back from its word. -/
theorem FlitHeader.ofWord_word (h : FlitHeader) : FlitHeader.ofWord h.word = h := by
  obtain ⟨type, seq, cls, last, fill, epoch⟩ := h
  have hb : b2n last ≤ 1 := by cases last <;> decide
  simp only [FlitHeader.ofWord, FlitHeader.word, FlitHeader.mk.injEq, bits_eq, bit, Nat.testBit_eq_decide_div_mod_eq]
  generalize hw : type.toNat * 2 ^ 60 + seq.toNat * 2 ^ 48 + cls.toNat * 2 ^ 45 + b2n last * 2 ^ 44 +
    fill.toNat * 2 ^ 32 + epoch.toNat = word
  have hlast : word / 2 ^ 44 % 2 = b2n last := by omega
  refine ⟨ofNat_eq_of_eq_toNat (by omega), ofNat_eq_of_eq_toNat (by omega), ofNat_eq_of_eq_toNat (by omega), ?_,
    ofNat_eq_of_eq_toNat (by omega), ofNat_eq_of_eq_toNat (by omega)⟩
  rw [hlast]
  cases last <;> rfl

@[simp] theorem sliceBytes_length (bs : List Byte) (o k : Nat) : (sliceBytes bs o k).length = k := by
  simp only [sliceBytes, List.length_append, List.length_take, List.length_replicate]
  omega

/-- A flit has 272 bytes, its CRC holds, and its header reads back. -/
theorem flit_spec (h : FlitHeader) (p : List Byte) :
    (flit h p).length = 272 ∧ flitOk (flit h p) = true ∧ FlitHeader.ofBytes (flit h p) = h := by
  have hbody : (h.bytes ++ sliceBytes p 0 256).length = 264 := by simp [FlitHeader.bytes]
  have hlen : (flit h p).length = 272 := by
    simp only [flit, List.length_append (bs := toBe _ _), hbody, toBe_length]
  refine ⟨hlen, ?_, ?_⟩
  · have hcrc : be (flit h p) 264 8 = crc64 ((flit h p).take 264) := by
      rw [flit, List.take_left' hbody, be_append_of_le (Nat.le_of_eq hbody), hbody, be_toBe]
      exact Nat.mod_eq_of_lt (crc64_lt _)
    simp [flitOk, hlen, hcrc]
  · rw [FlitHeader.ofBytes, flit, FlitHeader.bytes, List.append_assoc, be_toBe_append,
      Nat.mod_eq_of_lt (b := 256 ^ 8) h.word_lt, FlitHeader.ofWord_word]

end Sys2Proof.Machine
end


section
/-! Obcor links: training, loss, replay and relay (R459 to R461, R470, R472). -/

namespace Sys2Proof.Machine

/-! ### Registers of a link and of a route -/

theorem obcCnt_ne_obcCnt (l : Nat) {i j : Nat} (h : i ≠ j) : Reg.obcCnt l i ≠ Reg.obcCnt l j := by
  unfold Reg.obcCnt; omega

theorem obcLinkStatus_ne_obcCnt (l i : Nat) {j : Nat} (h : j < 6) : Reg.obcLinkStatus l ≠ Reg.obcCnt i j := by
  unfold Reg.obcLinkStatus Reg.obcCnt; omega

theorem obcLinkStatus_ne_obcRoute {l : Nat} (h : l < 16) (d : Nat) : Reg.obcLinkStatus l ≠ Reg.obcRoute d := by
  unfold Reg.obcLinkStatus Reg.obcRoute; omega

theorem obcRoute_ne_obcCnt (d : Nat) {i j : Nat} (h : i < 16) (hj : j < 6) : Reg.obcRoute d ≠ Reg.obcCnt i j := by
  unfold Reg.obcRoute Reg.obcCnt; omega

/-- The registers of the Obcor block lie above those that a lost time source and its interrupt write. -/
theorem obc_ne_time {k : Nat} (h : 0xC000000 ≤ k) :
    k ≠ Reg.timeStatus ∧ k ≠ Reg.timeCnt 6 ∧ k ≠ Reg.hubIrqRoute irqTime ∧ k ≠ Reg.hubIrqRoute irqObcor := by
  have h1 : Reg.timeStatus < 0xC000000 := by decide
  have h2 : Reg.timeCnt 6 < 0xC000000 := by decide
  have h3 : Reg.hubIrqRoute irqTime < 0xC000000 := by decide
  have h4 : Reg.hubIrqRoute irqObcor < 0xC000000 := by decide
  omega

theorem le_obcLinkStatus (l : Nat) : 0xC000000 ≤ Reg.obcLinkStatus l := by unfold Reg.obcLinkStatus; omega

theorem le_obcCnt (l j : Nat) : 0xC000000 ≤ Reg.obcCnt l j := by unfold Reg.obcCnt; omega

theorem State.obcUp_congr {s t : State} {l : Nat}
    (h : t.fld (Reg.obcLinkStatusState l) = s.fld (Reg.obcLinkStatusState l)) : t.obcUp l = s.obcUp l := by
  rw [State.obcUp, State.obcUp, h]

theorem State.obcUp_eq_false {s : State} {l st : Nat} (h : s.fld (Reg.obcLinkStatusState l) = st)
    (hst : st < 2 ∨ 4 < st) : s.obcUp l = false := by
  rw [State.obcUp, h]
  exact decide_eq_false (by omega)

/-! ### What a lost time source writes -/

theorem State.reg_setTime (s : State) (t : TimeState) (k : Nat) : (s.setTime t).reg k = s.reg k := rfl

theorem State.reg_setServo_other (s : State) (st k : Nat) (hc : k ≠ Reg.timeCnt 6) (hs : k ≠ Reg.timeStatus)
    (hi : k ≠ Reg.hubIrqRoute irqTime) : (s.setServo st).reg k = s.reg k := by
  unfold State.setServo
  dsimp only
  rw [State.reg_setFldIrq_other _ _ _ _ _ hs hi]
  split
  · have hbump := State.reg_bump_other s (Reg.timeCnt 6) 1 k hc
    split
    · exact hbump
    · rw [State.reg_setTime, hbump]
  · split
    · rfl
    · rw [State.reg_setTime]

theorem State.reg_failSource_other (s : State) (k : Nat) (hs : k ≠ Reg.timeStatus) (hc : k ≠ Reg.timeCnt 6)
    (hi : k ≠ Reg.hubIrqRoute irqTime) : s.failSource.reg k = s.reg k := by
  have hhold (t : State) : t.holdOver.reg k = t.reg k := by
    unfold State.holdOver
    split
    · rfl
    · rw [State.reg_setTime, State.reg_setServo_other _ _ _ hc hs hi]
  unfold State.failSource
  split
  · rfl
  · rw [hhold, State.reg_setFld_other _ _ _ _ hs]

theorem State.reg_failSource_obc (s : State) {k : Nat} (h : 0xC000000 ≤ k) : s.failSource.reg k = s.reg k := by
  obtain ⟨hs, hc, hi, _⟩ := obc_ne_time h
  exact State.reg_failSource_other s k hs hc hi

/-! ### A link goes down -/

/-- What leaves service shows its new state and version 0. -/
theorem State.obcLeave_fields (s : State) (l : Nat) {st : Nat} (h : st < 8) :
    (s.obcLeave l st).fld (Reg.obcLinkStatusState l) = st ∧ (s.obcLeave l st).fld (Reg.obcLinkStatusVersion l) = 0 := by
  have hirq : Reg.obcLinkStatus l ≠ Reg.hubIrqRoute irqObcor := (obc_ne_time (le_obcLinkStatus l)).2.2.2
  unfold State.obcLeave
  dsimp only
  constructor
  · rw [State.fld_setFldIrq_same _ _ _ _ (by simp [Reg.obcLinkStatusState]) (by simp [Reg.obcLinkStatusState]) hirq]
    exact Nat.mod_eq_of_lt h
  · rw [State.fld_setFldIrq_other _ _ _ _ _ (by simp [Reg.obcLinkStatusState]) (by simp [Reg.obcLinkStatusState])
      (.inr (.inl (by simp [Reg.obcLinkStatusState, Reg.obcLinkStatusVersion]))) hirq]
    exact State.fld_setFld_of_lt _ _ (by simp [Reg.obcLinkStatusVersion]) (by simp [Reg.obcLinkStatusVersion])
      (Nat.two_pow_pos _)

/-- A link that goes down counts it, and nothing else of Obcor. -/
theorem State.reg_obcLeave_cnt {s : State} {l : Nat} (h : s.obcUp l = true) (st i : Nat) {j : Nat} (hj : j < 6) :
    (s.obcLeave l st).reg (Reg.obcCnt i j) = (s.bump (Reg.obcCnt l 4) 1).reg (Reg.obcCnt i j) := by
  have hstatus : Reg.obcCnt i j ≠ Reg.obcLinkStatus l := (obcLinkStatus_ne_obcCnt l i hj).symm
  have hirq : Reg.obcCnt i j ≠ Reg.hubIrqRoute irqObcor := (obc_ne_time (le_obcCnt i j)).2.2.2
  unfold State.obcLeave
  dsimp only
  rw [State.reg_setFldIrq_other _ _ _ _ _ hstatus hirq, State.reg_setFld_other _ _ _ _ hstatus, if_pos h]
  split
  · exact State.reg_failSource_obc _ (le_obcCnt i j)
  · rfl

theorem State.obcorDown_eq {s : State} {l : Nat} (h : s.obcUp l = true) :
    s.obcorDown l = s.obcLeave l (if s.fldB (Reg.obcLinkCtrlEnable l) then obcTraining else obcDown) := by
  rw [State.obcorDown, if_pos h]

/-- A link that is down trains again where it is enabled, and carries nothing. -/
theorem State.obcorDown_fields {s : State} {l : Nat} (h : s.obcUp l = true) :
    (s.obcorDown l).obcUp l = false ∧ (s.obcorDown l).fld (Reg.obcLinkStatusVersion l) = 0 ∧
      (s.obcorDown l).fld (Reg.obcLinkStatusState l) =
        (if s.fldB (Reg.obcLinkCtrlEnable l) then obcTraining else obcDown) := by
  have hst : (if s.fldB (Reg.obcLinkCtrlEnable l) then obcTraining else obcDown) < 2 := by split <;> decide
  rw [State.obcorDown_eq h]
  obtain ⟨hstate, hversion⟩ := s.obcLeave_fields l (Nat.lt_of_lt_of_le hst (by decide : 2 ≤ 8))
  exact ⟨State.obcUp_eq_false hstate (.inl hst), hversion, hstate⟩

theorem State.reg_obcorDown_cnt {s : State} {l : Nat} (h : s.obcUp l = true) (i : Nat) {j : Nat} (hj : j < 6) :
    (s.obcorDown l).reg (Reg.obcCnt i j) = (s.bump (Reg.obcCnt l 4) 1).reg (Reg.obcCnt i j) := by
  rw [State.obcorDown_eq h, State.reg_obcLeave_cnt h _ _ hj]

theorem execObcorLinkDown_spec {s : State} {l : Fin 16} (h : s.obcUp l = true) :
    ∃ t, exec (.obcorLinkDown l) s = .next t ∧ t.obcUp l = false ∧ t.fld (Reg.obcLinkStatusVersion l) = 0 ∧
      t.fld (Reg.obcLinkStatusState l) = (if s.fldB (Reg.obcLinkCtrlEnable l) then obcTraining else obcDown) ∧
      t.reg (Reg.obcCnt l 4) = s.reg (Reg.obcCnt l 4) + 1 := by
  obtain ⟨hup, hversion, hstate⟩ := State.obcorDown_fields h
  exact ⟨s.obcorDown l, rfl, hup, hversion, hstate,
    (State.reg_obcorDown_cnt h l (by decide)).trans (State.reg_bump_same _ _ _)⟩

/-! ### Replay -/

/-- A replay's counters, by the end at which the flit failed. -/
def State.countReplay (s : State) (l : Nat) (far : Bool) (seq : Nat) : State :=
  if far then (s.bump (Reg.obcCnt l 3) (s.heldFrom l seq)).bump (Reg.obcCnt l 0) (s.heldFrom l seq)
  else s.bump (Reg.obcCnt l 2) 1

/-- Failures in a row of the flit that fails now. -/
def State.failsInRow (s : State) (l : Nat) (again : Bool) : Nat :=
  if again then Tab.get 0 l s.hub.obcorFails + 1 else 1

/-- The state in which a replay has been counted and its failures noted. -/
def State.noteReplay (s : State) (l : Nat) (far : Bool) (seq : Nat) (again : Bool) : State :=
  { s.countReplay l far seq with
    hub := { s.hub with obcorFails := Tab.set 0 l (s.failsInRow l again) s.hub.obcorFails } }

theorem State.countReplay_hub (s : State) (l : Nat) (far : Bool) (seq : Nat) :
    (s.countReplay l far seq).hub = s.hub := by
  unfold State.countReplay
  split
  · rw [State.bump_hub, State.bump_hub]
  · rw [State.bump_hub]

theorem State.obcorReplay_eq {s : State} {l : Nat} (h : s.obcUp l = true) (far : Bool) (seq : Nat) (again : Bool) :
    s.obcorReplay l far seq again =
      if 16 < s.failsInRow l again then (s.noteReplay l far seq again).obcorDown l
      else s.noteReplay l far seq again := by
  have hhub := s.countReplay_hub l far seq
  unfold State.obcorReplay
  rw [h]
  unfold State.noteReplay
  rw [← hhub]
  unfold State.failsInRow
  rw [← hhub]
  rfl

theorem State.obcUp_noteReplay (s : State) (l : Nat) (far : Bool) (seq : Nat) (again : Bool) :
    (s.noteReplay l far seq again).obcUp l = s.obcUp l := by
  refine State.obcUp_congr ?_
  have hne (j : Nat) (hj : j < 6) : (Reg.obcLinkStatusState l).off ≠ Reg.obcCnt l j := obcLinkStatus_ne_obcCnt l l hj
  have hcount : (s.countReplay l far seq).fld (Reg.obcLinkStatusState l) = s.fld (Reg.obcLinkStatusState l) := by
    unfold State.countReplay
    split
    · rw [State.fld_bump_other _ _ _ _ (hne 0 (by decide)), State.fld_bump_other _ _ _ _ (hne 3 (by decide))]
    · rw [State.fld_bump_other _ _ _ _ (hne 2 (by decide))]
  exact hcount

/-- The counters 2 and 3 after a replay: going down changes neither. -/
theorem State.reg_obcorReplay_cnt {s : State} {l : Nat} (h : s.obcUp l = true) (far : Bool) (seq : Nat) (again : Bool)
    {j : Nat} (hj : j < 4) :
    (s.obcorReplay l far seq again).reg (Reg.obcCnt l j) = (s.countReplay l far seq).reg (Reg.obcCnt l j) := by
  have hup : (s.noteReplay l far seq again).obcUp l = true := by rw [State.obcUp_noteReplay, h]
  rw [State.obcorReplay_eq h]
  split
  · rw [State.reg_obcorDown_cnt hup _ (by omega), State.reg_bump_other _ _ _ _ (obcCnt_ne_obcCnt l (by omega))]
    rfl
  · rfl

theorem State.obcUp_obcorReplay {s : State} {l : Nat} (h : s.obcUp l = true) (far : Bool) (seq : Nat) (again : Bool) :
    (s.obcorReplay l far seq again).obcUp l = decide (¬ (again = true ∧ 16 ≤ Tab.get 0 l s.hub.obcorFails)) := by
  have hup : (s.noteReplay l far seq again).obcUp l = true := by rw [State.obcUp_noteReplay, h]
  have hrow : 16 < s.failsInRow l again ↔ again = true ∧ 16 ≤ Tab.get 0 l s.hub.obcorFails := by
    unfold State.failsInRow
    cases again
    · simp
    · simp only [if_true, true_and]; omega
  rw [State.obcorReplay_eq h]
  split
  next hk => rw [(State.obcorDown_fields hup).1, decide_eq_false fun c => c (hrow.1 hk)]
  next hk => rw [hup, decide_eq_true (p := ¬(again = true ∧ 16 ≤ _)) fun c => hk (hrow.2 c)]

theorem execObcorReplay_spec {s : State} {l : Fin 16} {far : Bool} {seq : BitVec 12} {again : Bool}
    (h : s.obcUp l = true) :
    ∃ t, exec (.obcorReplay l far seq again) s = .next t ∧
      t.reg (Reg.obcCnt l 2) = (if far then s.reg (Reg.obcCnt l 2) else s.reg (Reg.obcCnt l 2) + 1) ∧
      t.reg (Reg.obcCnt l 3) =
        (if far then s.reg (Reg.obcCnt l 3) + BitVec.ofNat 64 (s.heldFrom l seq.toNat) else s.reg (Reg.obcCnt l 3)) ∧
      t.obcUp l = decide (¬ (again = true ∧ 16 ≤ Tab.get 0 l.val s.hub.obcorFails)) := by
  have hne {i j : Nat} (hij : i ≠ j) : Reg.obcCnt l i ≠ Reg.obcCnt l j := obcCnt_ne_obcCnt l hij
  refine ⟨s.obcorReplay l far seq.toNat again, rfl, ?_, ?_, State.obcUp_obcorReplay h far seq.toNat again⟩
  · rw [State.reg_obcorReplay_cnt h _ _ _ (by decide)]
    cases far
    · exact State.reg_bump_same _ _ _
    · exact (State.reg_bump_other _ _ _ _ (hne (by decide))).trans (State.reg_bump_other _ _ _ _ (hne (by decide)))
  · rw [State.reg_obcorReplay_cnt h _ _ _ (by decide)]
    cases far
    · exact State.reg_bump_other _ _ _ _ (hne (by decide))
    · exact (State.reg_bump_other _ _ _ _ (hne (by decide))).trans (State.reg_bump_same _ _ _)

/-! ### Packets passed on -/

/-- A message that arrives for another package counts its flits; where its route stands and takes it, it leaves on the
route's link. -/
theorem State.obcorRelay_relayed {s : State} {l d n : Nat} {control : Bool} (hl : l < 16) (h : s.obcUp l = true)
    (hd : d ≠ s.fleetIndex) :
    (s.obcorRelay l control d n).fleet.relayed =
      if decide (d ≤ 4096) && s.fldB (Reg.obcRouteValid d) && s.obcUp (s.fld (Reg.obcRouteLink d)) &&
          (if control then s.stewardUp else s.fld (Reg.obcLinkStatusVersion l) == 3 &&
            s.fld (Reg.obcLinkStatusVersion (s.fld (Reg.obcRouteLink d))) == 3) then
        s.fleet.relayed ++ [(control, s.fld (Reg.obcRouteLink d), n)]
      else s.fleet.relayed := by
  have hvalid : (s.bump (Reg.obcCnt l 1) n).fldB (Reg.obcRouteValid d) = s.fldB (Reg.obcRouteValid d) := by
    rw [State.fldB, State.fld_bump_other _ _ _ _ (obcRoute_ne_obcCnt d hl (by decide)), State.fldB]
  have hup (k : Nat) : (s.bump (Reg.obcCnt l 1) n).obcUp k = s.obcUp k :=
    State.obcUp_congr (State.fld_bump_other _ _ _ _ (obcLinkStatus_ne_obcCnt k l (by decide)))
  have hsteward : (s.bump (Reg.obcCnt l 1) n).stewardUp = s.stewardUp := by
    rw [State.stewardUp, State.bump_pkg, State.stewardUp]
  have hgo : (!s.obcUp l || d == s.fleetIndex) = false := by simp [h, hd]
  unfold State.obcorRelay
  dsimp only
  rw [hgo, hvalid, hup, hsteward, if_neg Bool.false_ne_true]
  cases decide (d ≤ 4096) && s.fldB (Reg.obcRouteValid d) && s.obcUp (s.fld (Reg.obcRouteLink d)) &&
    (if control then s.stewardUp else s.fld (Reg.obcLinkStatusVersion l) == 3 &&
      s.fld (Reg.obcLinkStatusVersion (s.fld (Reg.obcRouteLink d))) == 3) with
  | false => exact congrArg FleetState.relayed (State.bump_fleet _ _ _)
  | true =>
    cases control <;> simp only [Bool.not_true, Bool.false_eq_true, if_false, if_true, State.bump_fleet]

theorem execObcorRelay_spec {s : State} {l : Fin 16} {control : Bool} {d : BitVec 13} {n : Nat}
    (h : s.obcUp l = true) (hd : d.toNat ≠ s.fleetIndex) :
    ∃ t, exec (.obcorRelay l control d n) s = .next t ∧
      t.fleet.relayed =
        if d.toNat ≤ 4096 ∧ s.fldB (Reg.obcRouteValid d.toNat) = true ∧
            s.obcUp (s.fld (Reg.obcRouteLink d.toNat)) = true ∧
            (if control then s.stewardUp = true
             else s.fld (Reg.obcLinkStatusVersion l) = 3 ∧
              s.fld (Reg.obcLinkStatusVersion (s.fld (Reg.obcRouteLink d.toNat))) = 3)
        then s.fleet.relayed ++ [(control, s.fld (Reg.obcRouteLink d.toNat), n)] else s.fleet.relayed := by
  refine ⟨s.obcorRelay l control d.toNat n, rfl, ?_⟩
  rw [State.obcorRelay_relayed l.isLt h hd]
  refine ite_congr (propext ?_) (fun _ => rfl) (fun _ => rfl)
  cases control <;>
    simp only [Bool.and_eq_true, decide_eq_true_eq, beq_iff_eq, and_assoc, if_true, if_false, Bool.false_eq_true]

/-! ### Training -/

/-- A version that both packages support is at most 3. -/
theorem commonVersion_lt (partner most : Nat) : commonVersion partner most < 4 := by
  have hfold (l : List Nat) (hl : ∀ v ∈ l, v < 4) : ∀ m < 4, l.foldl max m < 4 := by
    induction l with
    | nil => exact fun m hm => hm
    | cons v l ih =>
      intro m hm
      exact ih (fun w hw => hl w (List.mem_cons_of_mem _ hw)) _ (by have := hl v List.mem_cons_self; omega)
  exact hfold _ (fun v hv => List.mem_range.1 (List.mem_filter.1 hv).1) 0 (by decide)

/-- What a training ends with fits the fields that show it. -/
theorem State.trainEnd_lt (s : State) (l : Nat) (r : TrainResult) :
    (s.trainEnd l r).1 < 8 ∧ (s.trainEnd l r).2.1 < 256 ∧ (s.trainEnd l r).2.2 < 4 := by
  have hwidth (v lanes : Nat) (half : Bool) : (trainWidth v lanes half).1 < 8 ∧ (trainWidth v lanes half).2 < 256 := by
    unfold trainWidth
    repeat' split
    all_goals decide
  have hv := commonVersion_lt r.versions.toNat (s.fld (Reg.obcLinkCtrlMaxVersion l))
  unfold State.trainEnd
  dsimp only
  repeat' split
  case isFalse.isFalse.isFalse.isFalse.isTrue => exact ⟨(hwidth _ _ _).1, (hwidth _ _ _).2, Nat.zero_lt_succ _⟩
  case isFalse.isFalse.isFalse.isFalse.isFalse => exact ⟨(hwidth _ _ _).1, (hwidth _ _ _).2, hv⟩
  all_goals decide

/-- TRAIN_CODE and VERSION of a link that has trained, with the blocks exchanged if it came so far. -/
def State.showCode (s : State) (l : Nat) (r : TrainResult) : State :=
  ((if r.signal && r.equalised then s.exchangeBlocks l r else s).setFld (Reg.obcLinkStatusTrainCode l)
    (s.trainEnd l r).2.1).setFld (Reg.obcLinkStatusVersion l) (s.trainEnd l r).2.2

/-- The link as a training leaves it, before a route or a JOIN follows. -/
def State.showTraining (s : State) (l : Nat) (r : TrainResult) : State :=
  State.setFldIrq { s.showCode l r with
    hub := { (s.showCode l r).hub with obcorFails := Tab.set 0 l 0 (s.showCode l r).hub.obcorFails } }
    irqObcor (Reg.obcLinkStatusState l) (s.trainEnd l r).1

theorem State.linkTrain_eq {s : State} {l : Nat} (hp : s.past 5 = true) (hu : s.obcUp l = false)
    (he : s.fldB (Reg.obcLinkCtrlEnable l) = true) (r : TrainResult) :
    s.linkTrain l r =
      if (s.trainEnd l r).1 = obcFailed then s.showTraining l r
      else (if knownPartner r.index.toNat r.role.toNat then (s.showTraining l r).directRoute l r.index.toNat
        else s.showTraining l r).joinOnLink := by
  have hgo : ¬ (!s.past 5 || s.obcUp l || !s.fldB (Reg.obcLinkCtrlEnable l)) = true := by simp [hp, hu, he]
  unfold State.linkTrain State.showTraining State.showCode
  rw [if_neg hgo]

theorem State.showTraining_fields (s : State) (l : Nat) (r : TrainResult) :
    (s.showTraining l r).fld (Reg.obcLinkStatusState l) = (s.trainEnd l r).1 ∧
      (s.showTraining l r).fld (Reg.obcLinkStatusTrainCode l) = (s.trainEnd l r).2.1 ∧
      (s.showTraining l r).fld (Reg.obcLinkStatusVersion l) = (s.trainEnd l r).2.2 := by
  obtain ⟨hstate, hcode, hversion⟩ := s.trainEnd_lt l r
  have hirq : Reg.obcLinkStatus l ≠ Reg.hubIrqRoute irqObcor := (obc_ne_time (le_obcLinkStatus l)).2.2.2
  have hshow (f : Fld) (hoff : f.off = Reg.obcLinkStatus l) (hlo : 2 < f.lo) :
      (s.showTraining l r).fld f = (s.showCode l r).fld f := by
    rw [State.showTraining, State.fld_setFldIrq_other _ _ _ _ _ (by simp [Reg.obcLinkStatusState])
      (by simp [Reg.obcLinkStatusState]) (.inr (.inl hlo)) (by rw [hoff]; exact hirq), State.fld_withHub]
  refine ⟨?_, ?_, ?_⟩
  · rw [State.showTraining, State.fld_setFldIrq_same _ _ _ _ (by simp [Reg.obcLinkStatusState])
      (by simp [Reg.obcLinkStatusState]) hirq]
    exact Nat.mod_eq_of_lt hstate
  · rw [hshow _ rfl (by simp [Reg.obcLinkStatusTrainCode]), State.showCode,
      State.fld_setFld_other _ _ _ _ (by simp [Reg.obcLinkStatusVersion]) (by simp [Reg.obcLinkStatusVersion])
        (.inr (.inl (by simp [Reg.obcLinkStatusVersion, Reg.obcLinkStatusTrainCode])))]
    exact State.fld_setFld_of_lt _ _ (by simp [Reg.obcLinkStatusTrainCode]) (by simp [Reg.obcLinkStatusTrainCode]) hcode
  · rw [hshow _ rfl (by simp [Reg.obcLinkStatusVersion]), State.showCode]
    exact State.fld_setFld_of_lt _ _ (by simp [Reg.obcLinkStatusVersion]) (by simp [Reg.obcLinkStatusVersion]) hversion

theorem State.exchangeBlocks_hub (s : State) (l : Nat) (r : TrainResult) :
    (s.exchangeBlocks l r).hub = { s.hub with
      capSent := Tab.put l s.capability s.hub.capSent
      partnerSerial := Tab.put l r.serial.toNat s.hub.partnerSerial } := by
  rw [State.exchangeBlocks, State.setFld_hub, State.setFld_hub, State.setFld_hub]

/-- Once the lanes are equalised, the link holds the block sent and the partner's serial number. -/
theorem State.showTraining_blocks {s : State} {l : Nat} {r : TrainResult} (h : (r.signal && r.equalised) = true) :
    Tab.find l (s.showTraining l r).hub.capSent = some s.capability ∧
      Tab.find l (s.showTraining l r).hub.partnerSerial = some r.serial.toNat := by
  have hcode : (s.showCode l r).hub = (s.exchangeBlocks l r).hub := by
    rw [State.showCode, State.setFld_hub, State.setFld_hub, if_pos h]
  obtain ⟨d, p, hhub⟩ := State.setFldIrq_hub { s.showCode l r with
    hub := { (s.showCode l r).hub with obcorFails := Tab.set 0 l 0 (s.showCode l r).hub.obcorFails } }
    irqObcor (Reg.obcLinkStatusState l) (s.trainEnd l r).1
  rw [State.showTraining, hhub, hcode, State.exchangeBlocks_hub]
  exact ⟨Tab.find_put_same _ _ _, Tab.find_put_same _ _ _⟩

/-! ### Routes and the JOIN of a link that comes up -/

theorem State.reg_flitOut_other (s : State) (l n type fill epoch : Nat) {k : Nat} (h : k ≠ Reg.obcCnt l 0) :
    (s.flitOut l n type fill epoch).reg k = s.reg k :=
  (State.reg_congr (t := s.bump (Reg.obcCnt l 0) n) rfl k).trans (State.reg_bump_other _ _ _ _ h)

theorem State.routeLink_lt (s : State) (d : Nat) : s.routeLink d < 16 := s.fld_lt (Reg.obcRouteLink d)

/-- A message that leaves counts its flits on the link of its route. -/
theorem State.reg_sendMsg_other (s : State) (m : CtrlMsg) {k : Nat} (h : ∀ i < 16, k ≠ Reg.obcCnt i 0) :
    (s.sendMsg m).reg k = s.reg k := by
  unfold State.sendMsg State.flitsTo
  split
  · rw [State.reg_flitOut_other _ _ _ _ _ _ (h _ (State.routeLink_lt _ _))]
    rfl
  · rfl

theorem State.sendMsg_hub (s : State) (m : CtrlMsg) : ∃ x, (s.sendMsg m).hub = { s.hub with lastFlit := x } := by
  unfold State.sendMsg State.flitsTo
  split
  · exact ⟨_, by rw [State.flitOut, State.bump_hub]⟩
  · exact ⟨s.hub.lastFlit, rfl⟩

theorem State.reg_joinOnLink_other (s : State) {k : Nat} (h : ∀ i < 16, k ≠ Reg.obcCnt i 0) :
    s.joinOnLink.reg k = s.reg k := by
  unfold State.joinOnLink
  split
  · exact State.reg_sendMsg_other _ _ h
  · rfl

theorem State.joinOnLink_hub (s : State) : ∃ x, s.joinOnLink.hub = { s.hub with lastFlit := x } := by
  unfold State.joinOnLink
  split
  · exact State.sendMsg_hub _ _
  · exact ⟨s.hub.lastFlit, rfl⟩

theorem State.reg_directRoute_other (s : State) (l d : Nat) {k : Nat} (h : k ≠ Reg.obcRoute d) :
    (s.directRoute l d).reg k = s.reg k := by
  rw [State.directRoute, State.reg_setFld_other _ _ _ _ h, State.reg_setFld_other _ _ _ _ h,
    State.reg_setFld_other _ _ _ _ h]

theorem State.directRoute_hub (s : State) (l d : Nat) : (s.directRoute l d).hub = s.hub := by
  rw [State.directRoute, State.setFld_hub, State.setFld_hub, State.setFld_hub]

theorem State.directRoute_fields (s : State) {l : Nat} (h : l < 16) (d : Nat) :
    (s.directRoute l d).fld (Reg.obcRouteLink d) = l ∧ (s.directRoute l d).fld (Reg.obcRouteValid d) = 1 := by
  unfold State.directRoute
  constructor
  · rw [State.fld_setFld_other _ _ _ _ (by simp [Reg.obcRouteDirect]) (by simp [Reg.obcRouteDirect])
      (.inr (.inr (by simp [Reg.obcRouteDirect, Reg.obcRouteLink]))),
      State.fld_setFld_other _ _ _ _ (by simp [Reg.obcRouteValid]) (by simp [Reg.obcRouteValid])
      (.inr (.inr (by simp [Reg.obcRouteValid, Reg.obcRouteLink])))]
    exact State.fld_setFld_of_lt _ _ (by simp [Reg.obcRouteLink]) (by simp [Reg.obcRouteLink]) h
  · rw [State.fld_setFld_other _ _ _ _ (by simp [Reg.obcRouteDirect]) (by simp [Reg.obcRouteDirect])
      (.inr (.inr (by simp [Reg.obcRouteDirect, Reg.obcRouteValid])))]
    exact State.fld_setFld_of_lt _ _ (by simp [Reg.obcRouteValid]) (by simp [Reg.obcRouteValid])
      (by simp [Reg.obcRouteValid])

/-- What follows a training changes neither the link's status nor the blocks it holds. -/
theorem State.linkTrain_keeps {s : State} {l : Nat} (hl : l < 16) (hp : s.past 5 = true) (hu : s.obcUp l = false)
    (he : s.fldB (Reg.obcLinkCtrlEnable l) = true) (r : TrainResult) :
    (s.linkTrain l r).reg (Reg.obcLinkStatus l) = (s.showTraining l r).reg (Reg.obcLinkStatus l) ∧
      (s.linkTrain l r).hub.capSent = (s.showTraining l r).hub.capSent ∧
      (s.linkTrain l r).hub.partnerSerial = (s.showTraining l r).hub.partnerSerial := by
  rw [State.linkTrain_eq hp hu he]
  split
  · exact ⟨rfl, rfl, rfl⟩
  · have hcnt : ∀ i < 16, Reg.obcLinkStatus l ≠ Reg.obcCnt i 0 := fun i _ => obcLinkStatus_ne_obcCnt l i (by decide)
    have hjoin (t : State) : t.joinOnLink.reg (Reg.obcLinkStatus l) = t.reg (Reg.obcLinkStatus l) ∧
        t.joinOnLink.hub.capSent = t.hub.capSent ∧ t.joinOnLink.hub.partnerSerial = t.hub.partnerSerial := by
      obtain ⟨x, hx⟩ := t.joinOnLink_hub
      exact ⟨State.reg_joinOnLink_other _ hcnt, by rw [hx], by rw [hx]⟩
    split
    · have h := hjoin ((s.showTraining l r).directRoute l r.index.toNat)
      rwa [State.reg_directRoute_other _ _ _ (obcLinkStatus_ne_obcRoute hl _), State.directRoute_hub] at h
    · exact hjoin _

/-- A link that comes up to a package whose index is known is its direct route. -/
theorem State.linkTrain_route {s : State} {l : Nat} (hl : l < 16) (hp : s.past 5 = true) (hu : s.obcUp l = false)
    (he : s.fldB (Reg.obcLinkCtrlEnable l) = true) {r : TrainResult} (hup : (s.trainEnd l r).1 ≠ obcFailed)
    (hk : knownPartner r.index.toNat r.role.toNat = true) :
    (s.linkTrain l r).fld (Reg.obcRouteLink r.index.toNat) = l ∧
      (s.linkTrain l r).fldB (Reg.obcRouteValid r.index.toNat) = true := by
  have hcnt : ∀ i < 16, Reg.obcRoute r.index.toNat ≠ Reg.obcCnt i 0 := fun i hi => obcRoute_ne_obcCnt _ hi (by decide)
  have hjoin (t : State) (f : Fld) (hf : f.off = Reg.obcRoute r.index.toNat) : t.joinOnLink.fld f = t.fld f :=
    State.fld_of_reg (State.reg_joinOnLink_other t (hf ▸ hcnt))
  obtain ⟨hlink, hvalid⟩ := (s.showTraining l r).directRoute_fields hl r.index.toNat
  rw [State.linkTrain_eq hp hu he, if_neg hup, if_pos hk, State.fldB, hjoin _ _ rfl, hjoin _ _ rfl, hlink, hvalid]
  exact ⟨rfl, rfl⟩

theorem execObcorLinkTrain_spec {s : State} {l : Fin 16} {r : TrainResult} (hp : s.past 5 = true)
    (hu : s.obcUp l = false) (he : s.fldB (Reg.obcLinkCtrlEnable l) = true) :
    ∃ t, exec (.obcorLinkTrain l r) s = .next t ∧ t.fld (Reg.obcLinkStatusState l) = (s.trainEnd l r).1 ∧
      t.fld (Reg.obcLinkStatusTrainCode l) = (s.trainEnd l r).2.1 ∧
      t.fld (Reg.obcLinkStatusVersion l) = (s.trainEnd l r).2.2 ∧
      ((r.signal && r.equalised) = true → Tab.find l.val t.hub.capSent = some s.capability ∧
        Tab.find l.val t.hub.partnerSerial = some r.serial.toNat) ∧
      (t.obcUp l = true → knownPartner r.index.toNat r.role.toNat = true →
        t.fld (Reg.obcRouteLink r.index.toNat) = l.val ∧ t.fldB (Reg.obcRouteValid r.index.toNat) = true) := by
  obtain ⟨hreg, hcap, hserial⟩ := State.linkTrain_keeps l.isLt hp hu he r
  obtain ⟨hstate, hcode, hversion⟩ := s.showTraining_fields l r
  have hfld (f : Fld) (hf : f.off = Reg.obcLinkStatus l) : (s.linkTrain l r).fld f = (s.showTraining l r).fld f :=
    State.fld_of_reg (hf ▸ hreg)
  have hstate' := (hfld _ rfl).trans hstate
  refine ⟨s.linkTrain l r, rfl, hstate', (hfld _ rfl).trans hcode, (hfld _ rfl).trans hversion, ?_, ?_⟩
  · intro hmet
    rw [hcap, hserial]
    exact State.showTraining_blocks hmet
  · intro hup hk
    refine State.linkTrain_route l.isLt hp hu he (fun hf => ?_) hk
    rw [State.obcUp_eq_false (hstate'.trans hf) (.inr (by decide))] at hup
    exact absurd hup Bool.false_ne_true

/-- Settles O49: one law per link operation, and one per kind of payload. -/
theorem obcorLinksTrainReplayAndRelay : Obligations.ObcorLinksTrainReplayAndRelay :=
  ⟨fun _ _ _ => execObcorLinkTrain_spec, fun _ _ => execObcorLinkDown_spec,
    fun _ _ _ _ _ => execObcorReplay_spec, fun _ _ _ _ _ => execObcorRelay_spec, flit_spec, dataOf_dataBytes,
    tokenOf_tokenBytes, noticeOf_noticeBytes, timeOf_timeBytes⟩

end Sys2Proof.Machine
end

section
/-! Slips of clock crossings in deterministic mode, and how DET shows them (R49, R436). -/

namespace Sys2Proof.Machine

/-- A slip moves its crossing one frame and counts in DET.CNT. -/
def State.countSlip (s : State) (x : Nat) : State :=
  State.bump { s with crossings := Tab.set 0 x (Tab.get 0 x s.crossings + 1) s.crossings } (Reg.detCnt 0) 1

/-- DET.STATUS shows the crossing and the time of the first slip of a step. -/
def State.showFirstSlip (s : State) (x aclk : Nat) : State :=
  if s.fld Reg.detStatusSlipsStep = 0 then
    (s.setFld Reg.detStatusFirstXing x).setFld Reg.detStatusFirstSlipAclk (min aclk 0xFFFFFFFF)
  else s

/-- DET.STATUS shows a slip of the running step. -/
def State.showSlip (s : State) (x aclk : Nat) : State :=
  (s.showFirstSlip x aclk).setFld Reg.detStatusSlipsStep (min (s.fld Reg.detStatusSlipsStep + 1) 65535)

theorem State.crossingSlip_eq {s : State} (h : s.deterministic = true) (x aclk : Nat) :
    s.crossingSlip x aclk = if s.stepRunning = true then (s.countSlip x).showSlip x aclk else s.countSlip x := by
  have hrun : State.stepRunning (s.countSlip x) = s.stepRunning := rfl
  unfold State.crossingSlip
  rw [h, if_neg (by decide)]
  change (if (!(s.countSlip x).stepRunning) = true then _ else _) = _
  rw [hrun]
  cases s.stepRunning <;> rfl

theorem State.countSlip_crossings (s : State) (x : Nat) :
    (s.countSlip x).crossings = Tab.set 0 x (Tab.get 0 x s.crossings + 1) s.crossings := by
  rw [State.countSlip, State.bump_crossings]

theorem State.reg_countSlip (s : State) (x : Nat) :
    (s.countSlip x).reg (Reg.detCnt 0) = s.reg (Reg.detCnt 0) + 1 := State.reg_bump_same _ _ _

/-- Counting a slip changes no register but the counter. -/
theorem State.fld_countSlip (s : State) (x : Nat) {f : Fld} (h : f.off ≠ Reg.detCnt 0) :
    (s.countSlip x).fld f = s.fld f := State.fld_bump_other _ _ _ _ h

theorem State.showFirstSlip_crossings (s : State) (x aclk : Nat) : (s.showFirstSlip x aclk).crossings = s.crossings := by
  unfold State.showFirstSlip
  split
  · rw [State.setFld_crossings, State.setFld_crossings]
  · rfl

theorem State.reg_showFirstSlip_other (s : State) (x aclk : Nat) {k : Nat} (h : k ≠ Reg.detStatus) :
    (s.showFirstSlip x aclk).reg k = s.reg k := by
  unfold State.showFirstSlip
  split
  · rw [State.reg_setFld_other _ _ _ _ h, State.reg_setFld_other _ _ _ _ h]
  · rfl

theorem State.showFirstSlip_firstXing (s : State) {x : Nat} (hx : x < 16) (aclk : Nat) :
    (s.showFirstSlip x aclk).fld Reg.detStatusFirstXing =
      if s.fld Reg.detStatusSlipsStep = 0 then x else s.fld Reg.detStatusFirstXing := by
  unfold State.showFirstSlip
  split
  · rw [State.fld_setFld_other _ _ _ _ (by decide) (by decide) (by decide)]
    exact State.fld_setFld_of_lt _ _ (by decide) (by decide) hx
  · rfl

theorem State.showSlip_crossings (s : State) (x aclk : Nat) : (s.showSlip x aclk).crossings = s.crossings := by
  rw [State.showSlip, State.setFld_crossings, State.showFirstSlip_crossings]

theorem State.reg_showSlip_other (s : State) (x aclk : Nat) {k : Nat} (h : k ≠ Reg.detStatus) :
    (s.showSlip x aclk).reg k = s.reg k := by
  rw [State.showSlip, State.reg_setFld_other _ _ _ _ h, State.reg_showFirstSlip_other _ _ _ h]

/-- The count of the step's slips stops at its largest value; the first slip shows its crossing. -/
theorem State.showSlip_fields (s : State) {x : Nat} (hx : x < 16) (aclk : Nat) :
    (s.showSlip x aclk).fld Reg.detStatusSlipsStep = min (s.fld Reg.detStatusSlipsStep + 1) 65535 ∧
      (s.showSlip x aclk).fld Reg.detStatusFirstXing =
        if s.fld Reg.detStatusSlipsStep = 0 then x else s.fld Reg.detStatusFirstXing := by
  have hfit : min (s.fld Reg.detStatusSlipsStep + 1) 65535 < 2 ^ 16 := by omega
  constructor
  · exact State.fld_setFld_of_lt _ _ (by decide) (by decide) hfit
  · rw [State.showSlip, State.fld_setFld_other _ _ _ _ (by decide) (by decide) (by decide)]
    exact State.showFirstSlip_firstXing s hx aclk

theorem execCrossingSlip_spec {s : State} (h : s.deterministic = true) (x : Fin 9) (aclk : Nat) :
    ∃ t, exec (.crossingSlip x aclk) s = .next t ∧ Tab.get 0 x.val t.crossings = Tab.get 0 x.val s.crossings + 1 ∧
      (∀ y, y ≠ x.val → Tab.get 0 y t.crossings = Tab.get 0 y s.crossings) ∧
      t.reg (Reg.detCnt 0) = s.reg (Reg.detCnt 0) + 1 ∧
      t.fld Reg.detStatusSlipsStep =
        (if s.stepRunning = true then min (s.fld Reg.detStatusSlipsStep + 1) 65535 else s.fld Reg.detStatusSlipsStep) ∧
      t.fld Reg.detStatusFirstXing =
        (if s.stepRunning = true ∧ s.fld Reg.detStatusSlipsStep = 0 then x.val else s.fld Reg.detStatusFirstXing) := by
  have hcount {f : Fld} (hf : f.off = Reg.detStatus) : (s.countSlip x).fld f = s.fld f :=
    State.fld_countSlip s x (hf ▸ by decide)
  have hmoved : Tab.get 0 x.val (s.countSlip x).crossings = Tab.get 0 x.val s.crossings + 1 ∧
      ∀ y, y ≠ x.val → Tab.get 0 y (s.countSlip x).crossings = Tab.get 0 y s.crossings := by
    rw [State.countSlip_crossings]
    exact ⟨Tab.get_set_same _ _ _ _, fun y hy => Tab.get_set_other _ _ hy _ _⟩
  refine ⟨s.crossingSlip x aclk, rfl, ?_⟩
  rw [State.crossingSlip_eq h]
  cases s.stepRunning with
  | false =>
    simp only [Bool.false_eq_true, if_false, false_and]
    exact ⟨hmoved.1, hmoved.2, State.reg_countSlip s x, hcount rfl, hcount rfl⟩
  | true =>
    obtain ⟨hslips, hfirst⟩ := (s.countSlip x).showSlip_fields (Nat.lt_trans x.isLt (by decide)) aclk
    rw [hcount rfl] at hslips hfirst
    rw [hcount rfl] at hfirst
    simp only [if_true, true_and]
    rw [State.showSlip_crossings, State.reg_showSlip_other _ _ _ (by decide)]
    exact ⟨hmoved.1, hmoved.2, State.reg_countSlip s x, hslips, hfirst⟩

theorem execCrossingSlip_free {s : State} (h : s.deterministic = false) (x : Fin 9) (aclk : Nat) :
    exec (.crossingSlip x aclk) s = .next s :=
  congrArg done (if_pos (by rw [h]; rfl))

/-- Settles O59, by whether the package runs in deterministic mode and whether a step runs. -/
theorem crossingSlipsCount : Obligations.CrossingSlipsCount :=
  ⟨fun _ x aclk h _ => execCrossingSlip_spec h x aclk, fun _ x aclk h => execCrossingSlip_free h x aclk⟩

end Sys2Proof.Machine
end

section
/-! The canonical mapping of physical children to logical indices (R31). -/

namespace Sys2Proof.Machine

theorem countP_range_succ (p : Nat → Bool) (n : Nat) :
    (List.range (n + 1)).countP p = (List.range n).countP p + if p n = true then 1 else 0 := by
  rw [List.range_succ, List.countP_append, List.countP_singleton]

/-- Past a number that satisfies `p` the count has grown. -/
theorem countP_range_lt {p : Nat → Bool} {m n : Nat} (hp : p m = true) (h : m < n) :
    (List.range m).countP p < (List.range n).countP p := by
  induction n with
  | zero => exact absurd h (Nat.not_lt_zero m)
  | succ n ih =>
    rw [countP_range_succ]
    obtain hlt | rfl := Nat.lt_succ_iff_lt_or_eq.1 h
    · exact Nat.lt_add_right _ (ih hlt)
    · rw [if_pos hp]
      exact Nat.lt_succ_self _

/-- The entry at `k` among the numbers below `n` that satisfy `p` is the one with `k` such numbers before it. -/
theorem getElem?_filter_range (p : Nat → Bool) (n k v : Nat) :
    ((List.range n).filter p)[k]? = some v ↔ v < n ∧ p v = true ∧ (List.range v).countP p = k := by
  induction n with
  | zero => simp only [List.range_zero, List.filter_nil, List.getElem?_nil, reduceCtorEq, Nat.not_lt_zero, false_and]
  | succ n ih =>
    rw [List.range_succ, List.filter_append, List.getElem?_append, ← List.countP_eq_length_filter]
    split
    next hk =>
      rw [ih]
      refine and_congr_left fun ⟨_, hv⟩ => ?_
      have hne : v ≠ n := by rintro rfl; omega
      omega
    next hk =>
      have hlast : ([n].filter p)[k - (List.range n).countP p]? = some v ↔
          p n = true ∧ k = (List.range n).countP p ∧ v = n := by
        cases hp : p n with
        | false =>
          rw [List.filter_cons_of_neg (by rw [hp]; exact Bool.false_ne_true)]
          simp only [List.filter_nil, List.getElem?_nil, reduceCtorEq, Bool.false_eq_true, false_and]
        | true =>
          rw [List.filter_cons_of_pos hp, List.filter_nil, List.getElem?_singleton, Option.ite_none_right_eq_some,
            Option.some_inj, eq_self, true_and]
          omega
      rw [hlast]
      constructor
      · rintro ⟨hp, rfl, rfl⟩
        exact ⟨Nat.lt_succ_self _, hp, rfl⟩
      · rintro ⟨hv, hp, rfl⟩
        have hle : n ≤ v := Nat.not_lt.1 fun h => hk (countP_range_lt hp h)
        obtain rfl : v = n := by omega
        exact ⟨hp, rfl, rfl⟩

/-- A spare: a child from `a` on that is not retired. -/
def isSpare (a : Nat) (retired : Nat → Bool) (q : Nat) : Bool := decide (a ≤ q) && !retired q

theorem isSpare_iff {a q : Nat} {retired : Nat → Bool} : isSpare a retired q = true ↔ a ≤ q ∧ retired q = false := by
  simp [isSpare]

theorem filter_drop_range (n a : Nat) (retired : Nat → Bool) :
    ((List.range n).drop a).filter (fun p => !retired p) = (List.range n).filter (isSpare a retired) := by
  induction n with
  | zero => simp
  | succ n ih =>
    rw [List.range_succ, List.drop_append, List.filter_append, List.filter_append, ih, List.length_range]
    congr 1
    by_cases h : a ≤ n
    · have hspare : isSpare a retired n = !retired n := by rw [isSpare, decide_eq_true h, Bool.true_and]
      rw [Nat.sub_eq_zero_of_le h, List.drop_zero, List.filter_cons, List.filter_cons, hspare]
      rfl
    · have hspare : isSpare a retired n = false := by rw [isSpare, decide_eq_false h, Bool.false_and]
      have hdrop : [n].drop (a - n) = [] := List.drop_eq_nil_of_le (by rw [List.length_singleton]; omega)
      rw [hdrop, List.filter_nil, List.filter_cons, hspare]
      rfl

theorem canonicalMap_length (n a : Nat) (retired : Nat → Bool) : (canonicalMap n a retired).length = a := by
  simp [canonicalMap]

theorem canonicalMap_inService {n a i : Nat} {retired : Nat → Bool} (hi : i < a) (hr : retired i = false) :
    (canonicalMap n a retired)[i]? = some (some i) := by
  simp [canonicalMap, hi, hr]

/-- An index whose own child is retired takes the spare that its place among the retired children names. -/
theorem canonicalMap_retired {n a i : Nat} {retired : Nat → Bool} (hi : i < a) (hr : retired i = true) :
    (canonicalMap n a retired)[i]? =
      some ((List.range n).filter (isSpare a retired))[(List.range i).countP retired]? := by
  simp [canonicalMap, hi, hr, filter_drop_range, List.countP_eq_length_filter]

theorem canonicalMap_retired_some {n a i p : Nat} {retired : Nat → Bool} (hi : i < a) (hr : retired i = true) :
    (canonicalMap n a retired)[i]? = some (some p) ↔ a ≤ p ∧ p < n ∧ retired p = false ∧
      (List.range p).countP (isSpare a retired) = (List.range i).countP retired := by
  rw [canonicalMap_retired hi hr, Option.some_inj, getElem?_filter_range, isSpare_iff]
  constructor
  · rintro ⟨hn, ⟨ha, hp⟩, hc⟩
    exact ⟨ha, hn, hp, hc⟩
  · rintro ⟨ha, hn, hp, hc⟩
    exact ⟨hn, ⟨ha, hp⟩, hc⟩

theorem canonicalMap_retired_none {n a i : Nat} {retired : Nat → Bool} (hi : i < a) (hr : retired i = true) :
    (canonicalMap n a retired)[i]? = some none ↔
      (List.range n).countP (isSpare a retired) ≤ (List.range i).countP retired := by
  rw [canonicalMap_retired hi hr, Option.some_inj, List.getElem?_eq_none_iff, ← List.countP_eq_length_filter]

/-- Two numbers that satisfy `p` with as many such numbers before them are the same. -/
theorem countP_range_injective {p : Nat → Bool} {i j : Nat} (hi : p i = true) (hj : p j = true)
    (h : (List.range i).countP p = (List.range j).countP p) : i = j := by
  obtain hlt | heq | hgt := Nat.lt_trichotomy i j
  · exact absurd h (Nat.ne_of_lt (countP_range_lt hi hlt))
  · exact heq
  · exact absurd h.symm (Nat.ne_of_lt (countP_range_lt hj hgt))

/-- No unit is used twice: a spare lies from `a` on, and each retired child has its own. -/
theorem canonicalMap_injective {n a i j p : Nat} {retired : Nat → Bool}
    (hi : (canonicalMap n a retired)[i]? = some (some p)) (hj : (canonicalMap n a retired)[j]? = some (some p)) :
    i = j := by
  have hlt {k : Nat} (hk : (canonicalMap n a retired)[k]? = some (some p)) : k < a := by
    obtain ⟨h, _⟩ := List.getElem?_eq_some_iff.1 hk
    rwa [canonicalMap_length] at h
  have hown {k : Nat} (hk : (canonicalMap n a retired)[k]? = some (some p)) (hr : retired k = false) : p = k := by
    rw [canonicalMap_inService (hlt hk) hr] at hk
    simpa using hk.symm
  have hspare {k : Nat} (hk : (canonicalMap n a retired)[k]? = some (some p)) (hr : retired k = true) :
      a ≤ p ∧ (List.range p).countP (isSpare a retired) = (List.range k).countP retired := by
    obtain ⟨ha, _, _, hc⟩ := (canonicalMap_retired_some (hlt hk) hr).1 hk
    exact ⟨ha, hc⟩
  have hia := hlt hi
  have hja := hlt hj
  cases hri : retired i <;> cases hrj : retired j
  case false.false => rw [← hown hi hri, ← hown hj hrj]
  case false.true =>
    have := hown hi hri
    have := (hspare hj hrj).1
    omega
  case true.false =>
    have := hown hj hrj
    have := (hspare hi hri).1
    omega
  case true.true =>
    obtain ⟨_, hci⟩ := hspare hi hri
    obtain ⟨_, hcj⟩ := hspare hj hrj
    exact countP_range_injective hri hrj (hci.symm.trans hcj)

/-- Settles O30: the map's entry at each index, by whether its own child is retired. -/
theorem canonicalMapFollowsRetiredSet : Obligations.CanonicalMapFollowsRetiredSet :=
  fun n a retired _ => ⟨canonicalMap_length n a retired, fun _ => canonicalMap_inService,
    fun _ hi hr _ => canonicalMap_retired_some hi hr, fun _ => canonicalMap_retired_none,
    fun _ _ _ => canonicalMap_injective⟩

end Sys2Proof.Machine
end

section
/-! In-package links: replays, retrains and error windows of lanes (R26, R27, R375, R376). -/

namespace Sys2Proof.Machine

/-! ### Lanes and the parts that the link operations leave alone -/

theorem laneGroup_laneNo (x : LaneId) : laneGroup (laneNo x) = x.group.val := by
  unfold laneGroup laneNo
  omega

theorem laneNo_injective {x y : LaneId} (h : laneNo x = laneNo y) : x = y := by
  obtain ⟨⟨g, hg⟩, ⟨l, hl⟩⟩ := x
  obtain ⟨⟨k, hk⟩, ⟨m, hm⟩⟩ := y
  simp only [laneNo] at h
  obtain ⟨rfl, rfl⟩ : g = k ∧ l = m := by omega
  rfl

theorem two_le_linkGroups (n : Nat) : 2 ≤ linkGroups n := by
  unfold linkGroups
  split <;> decide

theorem LinkState.holdsLane_iff {l : LinkState} {n : Nat} {x : LaneId} :
    l.holdsLane n (laneNo x) = true ↔
      x.group.val < linkGroups n ∧ x.group.val ∉ l.removed ∧ laneNo x ∉ l.spared := by
  simp [LinkState.holdsLane, laneGroup_laneNo, and_assoc]

theorem State.setLink_flt (s : State) (n : Nat) (l : LinkState) : (s.setLink n l).flt = s.flt :=
  (State.setLink_same (m := fun p => p == .flt) (.refl s) n l rfl rfl).flt rfl

theorem State.setLink_cfg (s : State) (n : Nat) (l : LinkState) : (s.setLink n l).cfg = s.cfg :=
  (State.setLink_same (m := fun p => p == .cfg) (.refl s) n l rfl rfl).cfg rfl

theorem State.unit_setLink (s : State) (n : Nat) (l : LinkState) (k : Nat) : (s.setLink n l).unit k = s.unit k :=
  State.unit_congr (congrArg FltState.units (State.setLink_flt s n l)) k

theorem State.retire_link (s : State) (k rule n : Nat) : (s.retire k rule).link n = s.link n :=
  State.link_congr ((State.retire_same (m := fun p => p == .links) (.refl s) k rule rfl rfl rfl).links rfl) n

/-! ### Replay -/

/-- A link that goes down keeps its replay delay; the other links stay up or down, with the spares they use. -/
theorem State.linkDown_fields {s : State} {n : Nat} (u : (s.link n).up = true) :
    ((s.linkDown n).link n).up = false ∧ ((s.linkDown n).link n).delayAclk = (s.link n).delayAclk ∧
      ∀ k, k ≠ n → ((s.linkDown n).link k).up = (s.link k).up ∧ ((s.linkDown n).link k).spared = (s.link k).spared := by
  have hself := State.linkDown_link s n n u
  rw [State.link_setLink_same] at hself
  refine ⟨(congrArg LinkState.up hself :), (congrArg LinkState.delayAclk hself :), fun k hk => ?_⟩
  have hother := State.linkDown_link s n k u
  rw [State.link_setLink_other _ _ _ _ hk] at hother
  exact ⟨(congrArg LinkState.up hother :), (congrArg LinkState.spared hother :)⟩

theorem execFlitRetry_spec {s : State} {n : Fin 10} {far again : Bool} (u : (s.link n).up = true) :
    ∃ t, exec (.flitRetry n far again) s = .next t ∧
      (∀ k : Fin 10, k ≠ n → (t.link k).up = (s.link k).up ∧ (t.link k).spared = (s.link k).spared) ∧
      (if (if again then (s.link n).retriesInRow + 1 else 1) < 17 then
        t.link n = { s.link n with
          retriesInRow := if again then (s.link n).retriesInRow + 1 else 1
          delayAclk := (s.link n).delayAclk + 40 }
      else (t.link n).up = false ∧ (t.link n).delayAclk = (s.link n).delayAclk) := by
  obtain ⟨x, hx, heq⟩ := State.flitRetry_eq s n far again u
  refine ⟨s.flitRetry n far again, rfl, ?_⟩
  rw [heq]
  dsimp only
  generalize (if again = true then (s.link n).retriesInRow + 1 else 1) = k
  generalize hy : x.setLink n { s.link n with
    retriesInRow := k, delayAclk := (s.link n).delayAclk + 40 * b2n (decide (k < 17)) } = y
  have hself : y.link n = { s.link n with
      retriesInRow := k, delayAclk := (s.link n).delayAclk + 40 * b2n (decide (k < 17)) } := by
    rw [← hy, State.link_setLink_same]
  have hother (j : Fin 10) (hj : j ≠ n) : y.link j = s.link j := by
    rw [← hy, State.link_setLink_other _ _ _ _ (Fin.val_ne_of_ne hj), State.link_congr hx]
  by_cases hk : k < 17
  · rw [if_neg (by omega), if_pos hk, hself]
    refine ⟨fun j hj => by rw [hother j hj]; exact ⟨rfl, rfl⟩, ?_⟩
    simp [hk, b2n]
  · rw [if_pos (by omega), if_neg hk]
    obtain ⟨hup, hdelay, hlinks⟩ := State.linkDown_fields (s := y) (n := n) (by rw [hself]; exact u)
    refine ⟨fun j hj => ?_, hup, ?_⟩
    · rw [← hother j hj]
      exact hlinks j (Fin.val_ne_of_ne hj)
    · rw [hdelay, hself]
      simp [hk, b2n]

/-! ### Repair of a lane -/

/-- The link once a failed lane is repaired: its group's spare takes its place, or the group, whose spare is in use, is
removed (R27). -/
def LinkState.repair (l : LinkState) (x : LaneId) : LinkState :=
  if l.spared.any fun y => laneGroup y == x.group.val then
    { l with removed := l.removed ++ [x.group.val], spared := l.spared.filter fun y => laneGroup y != x.group.val }
  else { l with spared := l.spared ++ [laneNo x] }

section Repair

variable {s : State} {n : Nat} {x : LaneId}

theorem State.repairLane_link (hh : (s.link n).holdsLane n (laneNo x) = true) (k : Nat) :
    (s.repairLane n (laneNo x)).link k = (s.setLink n ((s.link n).repair x)).link k := by
  unfold State.repairLane LinkState.repair
  simp only [hh, laneGroup_laneNo, Bool.not_true, Bool.false_eq_true, if_false]
  split
  · exact State.retire_link _ _ _ k
  · exact (State.link_congr (State.emit_links ..) k).trans rfl

/-- The unit table records the lane that a spare replaces (log entry 230). -/
theorem State.repairLane_unit_spare (hh : (s.link n).holdsLane n (laneNo x) = true)
    (hs : ((s.link n).spared.any fun y => laneGroup y == x.group.val) = false) :
    (s.repairLane n (laneNo x)).unit (groupKey n x.group) =
      { s.unit (groupKey n x.group) with spareLane := some (laneNo x) } := by
  unfold State.repairLane
  simp only [hh, hs, laneGroup_laneNo, Bool.not_true, Bool.false_eq_true, if_false]
  refine (State.unit_congr (congrArg FltState.units (State.emit_flt ..)) _).trans ?_
  refine (State.unit_setUnit_same _ _ _).trans ?_
  rw [State.unit_setLink]

/-- A group that is removed is retired. -/
theorem State.repairLane_unit_retired (hh : (s.link n).holdsLane n (laneNo x) = true)
    (hs : ((s.link n).spared.any fun y => laneGroup y == x.group.val) = true) :
    ((s.repairLane n (laneNo x)).unit (groupKey n x.group)).state = stRetired := by
  unfold State.repairLane
  simp only [hh, hs, laneGroup_laneNo, Bool.not_true, Bool.false_eq_true, if_false, if_true]
  rw [State.retire_unit, if_pos rfl]
  split
  · assumption
  · rfl

end Repair

/-! ### Retraining -/

/-- A link in training: stalled for 20 µs, with no lane left marked. -/
def State.startTraining (s : State) (n : Nat) : State :=
  s.setLink n { s.link n with stallUs := (s.link n).stallUs + 20, marked := [] }

/-- The link with lanes repaired one by one. -/
def State.repairLanes (s : State) (n : Nat) (lanes : List Nat) : State :=
  lanes.foldl (fun (s : State) x => s.repairLane n x) s

/-- A retrain that leaves at least half of the link's groups ends with the repairs. -/
theorem State.linkRetrain_eq {s t : State} {n : Nat} {failed lanes : List Nat} (hu : (s.link n).up = true)
    (hl : ((s.link n).marked ++ failed).eraseDups = lanes) (ht : (s.startTraining n).repairLanes n lanes = t)
    (hg : linkGroups n ≤ 2 * (t.link n).groups n) : s.linkRetrain n failed = t := by
  have hgo : ¬ (!(s.link n).up) = true := by rw [hu]; decide
  have hdown : ¬ 2 * (t.link n).groups n < linkGroups n := Nat.not_lt.2 hg
  unfold State.startTraining State.repairLanes at ht
  unfold State.linkRetrain
  dsimp only at ht ⊢
  rw [if_neg hgo, hl, ht, if_neg hdown]

section Retrain

variable {s : State} {n : Nat} {x : LaneId}

theorem State.startTraining_link : (s.startTraining n).link n =
    { s.link n with stallUs := (s.link n).stallUs + 20, marked := [] } := State.link_setLink_same _ _ _

theorem State.startTraining_link_other {k : Nat} (h : k ≠ n) : (s.startTraining n).link k = s.link k :=
  State.link_setLink_other _ _ _ _ h

theorem State.startTraining_unit (k : Nat) : (s.startTraining n).unit k = s.unit k := State.unit_setLink _ _ _ _

theorem State.startTraining_holdsLane (y : Nat) :
    ((s.startTraining n).link n).holdsLane n y = (s.link n).holdsLane n y := by
  rw [State.startTraining_link]
  rfl

/-- One lane to repair, which the link holds. -/
theorem State.linkRetrain_lane {failed : List Nat} (hu : (s.link n).up = true)
    (hl : ((s.link n).marked ++ failed).eraseDups = [laneNo x]) (hh : (s.link n).holdsLane n (laneNo x) = true)
    (hg : linkGroups n ≤ 2 * ((s.link n).repair x).groups n) :
    s.linkRetrain n failed = (s.startTraining n).repairLane n (laneNo x) ∧
      (s.linkRetrain n failed).link n =
        LinkState.repair { s.link n with stallUs := (s.link n).stallUs + 20, marked := [] } x ∧
      ∀ k, k ≠ n → (s.linkRetrain n failed).link k = s.link k := by
  have hh' : ((s.startTraining n).link n).holdsLane n (laneNo x) = true := by rw [State.startTraining_holdsLane, hh]
  have hlink := State.repairLane_link hh' n
  rw [State.link_setLink_same, State.startTraining_link] at hlink
  have hgroups : (LinkState.repair { s.link n with stallUs := (s.link n).stallUs + 20, marked := [] } x).groups n =
      ((s.link n).repair x).groups n := by
    unfold LinkState.repair
    dsimp only
    split <;> rfl
  have heq : s.linkRetrain n failed = (s.startTraining n).repairLane n (laneNo x) :=
    State.linkRetrain_eq hu hl rfl (by rw [hlink, hgroups]; exact hg)
  rw [heq]
  refine ⟨rfl, hlink, fun k hk => ?_⟩
  rw [State.repairLane_link hh' k, State.link_setLink_other _ _ _ _ hk, State.startTraining_link_other hk]

end Retrain

theorem LinkState.repair_of_free {l : LinkState} {x : LaneId}
    (h : (l.spared.any fun y => laneGroup y == x.group.val) = false) :
    l.repair x = { l with spared := l.spared ++ [laneNo x] } := by
  rw [LinkState.repair, h, if_neg Bool.false_ne_true]

theorem LinkState.repair_of_used {l : LinkState} {x : LaneId}
    (h : (l.spared.any fun y => laneGroup y == x.group.val) = true) :
    l.repair x = { l with removed := l.removed ++ [x.group.val]
                          spared := l.spared.filter fun y => laneGroup y != x.group.val } := by
  rw [LinkState.repair, if_pos h]

/-- With no group removed and no spare in use, one repair takes a spare. -/
theorem State.linkRetrain_first {s : State} {n : Nat} {x : LaneId} {failed : List Nat} (hu : (s.link n).up = true)
    (hl : ((s.link n).marked ++ failed).eraseDups = [laneNo x]) (hx : x.group.val < linkGroups n)
    (hr : (s.link n).removed = []) (hs : (s.link n).spared = []) :
    (s.linkRetrain n failed).link n =
        { s.link n with stallUs := (s.link n).stallUs + 20, marked := [], spared := [laneNo x] } ∧
      (∀ k, k ≠ n → (s.linkRetrain n failed).link k = s.link k) ∧
      (s.linkRetrain n failed).unit (groupKey n x.group) =
        { s.unit (groupKey n x.group) with spareLane := some (laneNo x) } := by
  have hh : (s.link n).holdsLane n (laneNo x) = true := by
    rw [LinkState.holdsLane_iff, hr, hs]
    exact ⟨hx, List.not_mem_nil, List.not_mem_nil⟩
  have hfree : ((s.link n).spared.any fun y => laneGroup y == x.group.val) = false := by rw [hs]; rfl
  have hgroups : linkGroups n ≤ 2 * ((s.link n).repair x).groups n := by
    rw [LinkState.repair_of_free hfree, LinkState.groups, hr, List.length_nil]
    omega
  obtain ⟨heq, hlink, hother⟩ := State.linkRetrain_lane hu hl hh hgroups
  refine ⟨?_, hother, ?_⟩
  · refine (hlink.trans (LinkState.repair_of_free ?_)).trans ?_
    · exact hfree
    · simp only [hs, List.nil_append]
  · rw [heq, State.repairLane_unit_spare (by rwa [State.startTraining_holdsLane]) (by rwa [State.startTraining_link]),
      State.startTraining_unit]

theorem execLinkRetrain_none {s : State} {n : Fin 10} (hu : (s.link n).up = true) (hm : (s.link n).marked = [])
    (hg : linkGroups n ≤ 2 * (s.link n).groups n) :
    ∃ t, exec (.linkRetrain n []) s = .next t ∧ t.link n = { s.link n with stallUs := (s.link n).stallUs + 20 } := by
  refine ⟨s.linkRetrain n [], rfl, ?_⟩
  rw [State.linkRetrain_eq (t := s.startTraining n) hu (by rw [hm]) rfl
    (by rw [State.startTraining_link]; exact hg), State.startTraining_link]
  simp only [hm]

theorem execLinkRetrain_lane {s : State} {n : Fin 10} {x : LaneId} (hu : (s.link n).up = true)
    (hm : (s.link n).marked = []) (hx : x.group.val < linkGroups n) (hr : (s.link n).removed = [])
    (hs : (s.link n).spared.contains (laneNo x) = false) (hg : linkGroups n ≤ 2 * ((s.link n).groups n - 1)) :
    ∃ t, exec (.linkRetrain n [x]) s = .next t ∧
      t.link n =
        if (s.link n).spared.any fun y => laneGroup y == x.group.val then
          { s.link n with stallUs := (s.link n).stallUs + 20, removed := [x.group.val],
                          spared := (s.link n).spared.filter fun y => laneGroup y != x.group.val }
        else { s.link n with stallUs := (s.link n).stallUs + 20, spared := (s.link n).spared ++ [laneNo x] } := by
  have hh : (s.link n).holdsLane n (laneNo x) = true := by
    rw [LinkState.holdsLane_iff, hr]
    exact ⟨hx, List.not_mem_nil, by simpa using hs⟩
  have hgroups : linkGroups n ≤ 2 * ((s.link n).repair x).groups n := by
    rw [LinkState.groups, hr, List.length_nil] at hg
    rw [LinkState.repair, LinkState.groups]
    split
    · simp only [hr, List.nil_append, List.length_singleton]; omega
    · simp only [hr, List.length_nil]; omega
  refine ⟨s.linkRetrain n [laneNo x], rfl, ?_⟩
  rw [(State.linkRetrain_lane hu (by rw [hm]; rfl) hh hgroups).2.1, LinkState.repair]
  simp only [hm, hr, List.nil_append]

/-- A marked lane that also fails the training is repaired once (log entry 145). -/
theorem execLinkRetrain_marked {s : State} {n : Fin 10} {x : LaneId} (hu : (s.link n).up = true)
    (hm : (s.link n).marked = [laneNo x]) (hx : x.group.val < linkGroups n) (hr : (s.link n).removed = [])
    (hs : (s.link n).spared = []) :
    ∃ t, exec (.linkRetrain n [x]) s = .next t ∧
      t.link n = { s.link n with stallUs := (s.link n).stallUs + 20, marked := [], spared := [laneNo x] } ∧
      (t.unit (groupKey n x.group)).state = (s.unit (groupKey n x.group)).state ∧
      (t.unit (groupKey n x.group)).spareLane = some (laneNo x) := by
  obtain ⟨hlink, _, hunit⟩ := State.linkRetrain_first (failed := [laneNo x]) hu
    (by rw [hm]; simp [List.eraseDups_cons]) hx hr hs
  exact ⟨s.linkRetrain n [laneNo x], rfl, hlink, by rw [hunit], by rw [hunit]⟩

/-- Two failed lanes of a group: the first takes the spare, the second removes the group. -/
theorem execLinkRetrain_second {s : State} {n : Fin 10} {x y : LaneId} (hu : (s.link n).up = true)
    (hm : (s.link n).marked = [laneNo y]) (hxy : x.group = y.group) (hne : x ≠ y) (hx : x.group.val < linkGroups n)
    (hr : (s.link n).removed = []) (hs : (s.link n).spared = []) :
    ∃ t, exec (.linkRetrain n [x]) s = .next t ∧
      t.link n = { s.link n with stallUs := (s.link n).stallUs + 20, marked := [], removed := [x.group.val] } ∧
      (t.unit (groupKey n x.group)).state = stRetired := by
  have hlanes : laneNo x ≠ laneNo y := fun h => hne (laneNo_injective h)
  have hlist : ((s.link n).marked ++ [laneNo x]).eraseDups = [laneNo y, laneNo x] := by
    rw [hm]; simp [List.eraseDups_cons, hlanes]
  generalize ha : (s.startTraining n).repairLane n (laneNo y) = a
  have hholds : ((s.startTraining n).link n).holdsLane n (laneNo y) = true := by
    rw [State.startTraining_link, LinkState.holdsLane_iff, hr, hs]
    exact ⟨hxy ▸ hx, List.not_mem_nil, List.not_mem_nil⟩
  have hlink : a.link n =
      { s.link n with stallUs := (s.link n).stallUs + 20, marked := [], spared := [laneNo y] } := by
    rw [← ha, State.repairLane_link hholds, State.link_setLink_same, State.startTraining_link,
      LinkState.repair_of_free (by simp [hs])]
    simp only [hs, List.nil_append]
  have hholds' : (a.link n).holdsLane n (laneNo x) = true := by
    rw [hlink, LinkState.holdsLane_iff]
    exact ⟨hx, by rw [hr]; exact List.not_mem_nil, by simpa using hlanes⟩
  have hused : ((a.link n).spared.any fun z => laneGroup z == x.group.val) = true := by
    rw [hlink]
    simp [laneGroup_laneNo, hxy]
  have hlink' : (a.repairLane n (laneNo x)).link n =
      { s.link n with stallUs := (s.link n).stallUs + 20, marked := [], removed := [x.group.val] } := by
    rw [State.repairLane_link hholds', State.link_setLink_same, LinkState.repair_of_used hused, hlink]
    simp [hr, hs, laneGroup_laneNo, hxy]
  have htwo := two_le_linkGroups n
  refine ⟨s.linkRetrain n [laneNo x], rfl, ?_⟩
  rw [State.linkRetrain_eq (t := a.repairLane n (laneNo x)) hu hlist
    (by rw [← ha]; rfl) (by rw [hlink', LinkState.groups, List.length_singleton]; omega)]
  exact ⟨hlink', State.repairLane_unit_retired hholds' hused⟩

/-! ### Marked lanes of every link -/

/-- Where one link alone has a marked lane, and its retrain leaves none, that link alone is retrained. -/
theorem State.retrainMarked_one {s : State} {n : Nat} (hn : n < 10) (hm : (s.link n).marked ≠ [])
    (hs : ∀ k < 10, k ≠ n → (s.link k).marked = [])
    (ht : ∀ k < 10, ((s.linkRetrain n []).link k).marked = []) : s.retrainMarked = s.linkRetrain n [] := by
  have hskip (l : List Nat) (t : State) (hl : ∀ k ∈ l, (t.link k).marked = []) :
      l.foldl (fun (s : State) n => if (s.link n).marked.isEmpty then s else s.linkRetrain n []) t = t := by
    induction l with
    | nil => rfl
    | cons k l ih =>
      rw [List.foldl_cons, hl k List.mem_cons_self, List.isEmpty_nil, if_pos rfl]
      exact ih fun j hj => hl j (List.mem_cons_of_mem _ hj)
  obtain ⟨before, after, hsplit, hbefore⟩ := List.eq_append_cons_of_mem (List.mem_range.2 hn)
  have hmem {k : Nat} (hk : k ∈ before ∨ k ∈ after) : k < 10 := by
    rw [← List.mem_range, hsplit, List.mem_append, List.mem_cons]
    exact hk.imp id .inr
  rw [State.retrainMarked, hsplit, List.foldl_append, List.foldl_cons,
    hskip before s fun k hk => hs k (hmem (.inl hk)) (by rintro rfl; exact hbefore hk),
    if_neg (by simpa using hm), hskip after _ fun k hk => ht k (hmem (.inr hk))]

/-! ### Error windows of a lane -/

/-- The windows of a link in the last power-on hour, with one of lane `x` now. -/
def State.laneWindows (s : State) (n x : Nat) : List (Nat × Nat) :=
  ((s.link n).windows.filter fun w => decide (s.powerSeconds < w.2 + 3600)) ++ [(x, s.powerSeconds)]

/-- The lane is marked for the next retrain, its windows spent, and the error charged to its group. -/
def State.markLane (s : State) (n x : Nat) : State :=
  (s.countCorrected (groupKey n (laneGroup x))).setLink n { s.link n with
    windows := (s.laneWindows n x).filter fun w => w.1 != x
    marked := if (s.link n).marked.contains x then (s.link n).marked else (s.link n).marked ++ [x] }

section Window

variable {s : State} {n : Fin 10} {x : LaneId} {errors : Nat}

/-- A window of more than 100 errors on a lane that its link holds. -/
theorem State.laneErrorWindow_eq (he : 100 < errors) (hh : (s.link n).holdsLane n (laneNo x) = true)
    (hu : (s.link n).up = true) : s.laneErrorWindow n (laneNo x) errors =
      if 3 ≤ ((s.laneWindows n (laneNo x)).filter fun w => w.1 == laneNo x).length then
        if s.stepRunning then s.markLane n (laneNo x) else (s.markLane n (laneNo x)).retrainMarked
      else (s.countCorrected (groupKey n x.group)).setLink n { s.link n with windows := s.laneWindows n (laneNo x) } := by
  have hgo : ¬ (!(s.link n).holdsLane n (laneNo x) ∨ !(s.link n).up ∨ errors ≤ 100) := by
    rw [hh, hu]
    simp only [Bool.not_true, Bool.false_eq_true, false_or]
    omega
  have hrun : (s.markLane n (laneNo x)).stepRunning = s.stepRunning := by
    rw [State.stepRunning, State.markLane, State.setLink_cfg]
    rfl
  rw [← hrun]
  unfold State.laneErrorWindow State.markLane State.laneWindows
  dsimp only
  rw [if_neg hgo, laneGroup_laneNo]
  simp only [decide_eq_true_eq]

theorem State.laneWindows_none (y : Nat) (hw : (s.link n).windows = []) :
    s.laneWindows n y = [(y, s.powerSeconds)] := by
  rw [State.laneWindows, hw]
  rfl

theorem State.laneWindows_two {y z a b : Nat} (w : Nat) (hw : (s.link n).windows = [(y, a), (z, b)])
    (ha : s.powerSeconds < a + 3600) (hb : s.powerSeconds < b + 3600) :
    s.laneWindows n w = [(y, a), (z, b), (w, s.powerSeconds)] := by
  rw [State.laneWindows, hw]
  simp [ha, hb]

theorem State.markLane_link_other (y : Nat) {k : Nat} (hk : k ≠ n) : (s.markLane n y).link k = s.link k :=
  State.link_setLink_other _ _ _ _ hk

/-- The third window of a lane marks it and spends its windows. -/
theorem State.markLane_link {a b : Nat} (hw : (s.link n).windows = [(laneNo x, a), (laneNo x, b)])
    (ha : s.powerSeconds < a + 3600) (hb : s.powerSeconds < b + 3600) (hm : (s.link n).marked = []) :
    (s.markLane n (laneNo x)).link n = { s.link n with windows := [], marked := [laneNo x] } := by
  rw [State.markLane, State.link_setLink_same, State.laneWindows_two _ hw ha hb, hm]
  simp

theorem State.laneErrorWindow_third {a b : Nat} (he : 100 < errors)
    (hh : (s.link n).holdsLane n (laneNo x) = true) (hu : (s.link n).up = true)
    (hw : (s.link n).windows = [(laneNo x, a), (laneNo x, b)]) (ha : s.powerSeconds < a + 3600)
    (hb : s.powerSeconds < b + 3600) : s.laneErrorWindow n (laneNo x) errors =
      if s.stepRunning then s.markLane n (laneNo x) else (s.markLane n (laneNo x)).retrainMarked := by
  rw [State.laneErrorWindow_eq he hh hu, State.laneWindows_two _ hw ha hb, if_pos (by simp)]

theorem execLaneErrorWindow_few (he : errors ≤ 100) : exec (.laneErrorWindow n x errors) s = .next s :=
  congrArg done (if_pos (.inr (.inr he)))

theorem execLaneErrorWindow_first (he : 100 < errors) (hh : (s.link n).holdsLane n (laneNo x) = true)
    (hu : (s.link n).up = true) (hw : (s.link n).windows = []) :
    ∃ t, exec (.laneErrorWindow n x errors) s = .next t ∧
      t.link n = { s.link n with windows := [(laneNo x, s.powerSeconds)] } ∧
      (t.unit (groupKey n x.group)).corrected24 =
        min ((s.unit (groupKey n x.group)).corrected24 + 1) 0xFFFFFFFF := by
  refine ⟨s.laneErrorWindow n (laneNo x) errors, rfl, ?_⟩
  rw [State.laneErrorWindow_eq he hh hu, State.laneWindows_none _ hw, if_neg (by simp), State.link_setLink_same,
    State.unit_setLink, State.countCorrected, State.unit_setUnit_same]
  exact ⟨rfl, rfl⟩

/-- Windows of two lanes do not add up (log entry 203). -/
theorem execLaneErrorWindow_otherLane {y : LaneId} {a b : Nat} (he : 100 < errors)
    (hh : (s.link n).holdsLane n (laneNo x) = true) (hu : (s.link n).up = true) (hne : laneNo y ≠ laneNo x)
    (hw : (s.link n).windows = [(laneNo y, a), (laneNo x, b)]) (ha : s.powerSeconds < a + 3600)
    (hb : s.powerSeconds < b + 3600) :
    ∃ t, exec (.laneErrorWindow n x errors) s = .next t ∧ (t.link n).marked = (s.link n).marked := by
  refine ⟨s.laneErrorWindow n (laneNo x) errors, rfl, ?_⟩
  rw [State.laneErrorWindow_eq he hh hu, State.laneWindows_two _ hw ha hb, if_neg (by simp [hne]),
    State.link_setLink_same]

/-- While a step runs, the marked lane waits for its seam. -/
theorem execLaneErrorWindow_inStep {a b : Nat} (he : 100 < errors)
    (hh : (s.link n).holdsLane n (laneNo x) = true) (hu : (s.link n).up = true)
    (hw : (s.link n).windows = [(laneNo x, a), (laneNo x, b)]) (ha : s.powerSeconds < a + 3600)
    (hb : s.powerSeconds < b + 3600) (hrun : s.stepRunning = true) (hm : (s.link n).marked = []) :
    ∃ t, exec (.laneErrorWindow n x errors) s = .next t ∧
      t.link n = { s.link n with windows := [], marked := [laneNo x] } := by
  refine ⟨s.laneErrorWindow n (laneNo x) errors, rfl, ?_⟩
  rw [State.laneErrorWindow_third he hh hu hw ha hb, if_pos hrun, State.markLane_link hw ha hb hm]

/-- With no step running, the link with the marked lane is retrained at once. -/
theorem execLaneErrorWindow_idle {a b : Nat} (he : 100 < errors) (hx : x.group.val < linkGroups n)
    (hu : (s.link n).up = true) (hw : (s.link n).windows = [(laneNo x, a), (laneNo x, b)])
    (ha : s.powerSeconds < a + 3600) (hb : s.powerSeconds < b + 3600) (hrun : s.stepRunning = false)
    (hm : ∀ k < 10, (s.link k).marked = []) (hr : (s.link n).removed = []) (hs : (s.link n).spared = []) :
    ∃ t, exec (.laneErrorWindow n x errors) s = .next t ∧
      t.link n =
        { s.link n with windows := [], stallUs := (s.link n).stallUs + 20, spared := [laneNo x] } := by
  have hh : (s.link n).holdsLane n (laneNo x) = true := by
    rw [LinkState.holdsLane_iff, hr, hs]
    exact ⟨hx, List.not_mem_nil, List.not_mem_nil⟩
  have hmark := State.markLane_link hw ha hb (hm n n.isLt)
  obtain ⟨hlink, hother, _⟩ := State.linkRetrain_first (s := s.markLane n (laneNo x)) (failed := [])
    (by rw [hmark]; exact hu) (by rw [hmark]; rfl) hx (by rw [hmark]; exact hr) (by rw [hmark]; exact hs)
  have hone : (s.markLane n (laneNo x)).retrainMarked = (s.markLane n (laneNo x)).linkRetrain n [] := by
    refine State.retrainMarked_one n.isLt (by rw [hmark]; simp) (fun k hk hne => ?_) fun k hk => ?_
    · rw [State.markLane_link_other _ hne, hm k hk]
    · by_cases hne : k = n
      · rw [hne, hlink]
      · rw [hother k hne, State.markLane_link_other _ hne, hm k hk]
  refine ⟨s.laneErrorWindow n (laneNo x) errors, rfl, ?_⟩
  rw [State.laneErrorWindow_third he hh hu hw ha hb, if_neg (by rw [hrun]; exact Bool.false_ne_true), hone, hlink, hmark]
  simp only [hm n n.isLt]

end Window

/-- Settles O8: one law per event, by what the link's group and the running step allow. -/
theorem linkEventsUpdateTheirLink : Obligations.LinkEventsUpdateTheirLink :=
  ⟨fun _ _ _ _ => execFlitRetry_spec, fun _ _ => execLinkRetrain_none, fun _ _ _ => execLinkRetrain_lane,
    fun _ _ _ _ => execLinkRetrain_second, fun _ _ _ => execLinkRetrain_marked,
    fun _ _ _ _ => execLaneErrorWindow_few, fun _ _ _ _ => execLaneErrorWindow_first,
    fun _ _ _ _ _ _ => execLaneErrorWindow_inStep, fun _ _ _ _ _ _ _ => execLaneErrorWindow_otherLane,
    fun _ _ _ _ _ _ => execLaneErrorWindow_idle⟩

end Sys2Proof.Machine
end

section
/-! Entries that complete, and twin comparisons (R83, R85, R128, R343, R344): the registers that map logical units to
physical ones, what a stop leaves in the state, and the laws of the two events. -/

namespace Sys2Proof.Machine

variable {a s : State}

/-! ### Registers of the maps (R38 to R41) -/

/-- The offset lies where a die's block holds the maps of its clusters, cores and engines. -/
def isMapReg (k : Nat) : Bool := decide (0x10000000 ≤ k ∧ k % 0x10000000 < 0x2000)

theorem isMapReg_cluLmap0 (d : Nat) : isMapReg (Reg.cluLmap0 d) = true := by
  rw [isMapReg, Reg.cluLmap0, decide_eq_true_eq]; omega

theorem isMapReg_cluLmap1 (d : Nat) : isMapReg (Reg.cluLmap1 d) = true := by
  rw [isMapReg, Reg.cluLmap1, decide_eq_true_eq]; omega

theorem isMapReg_cluKmap (d : Nat) {p : Nat} (hp : p < 32) : isMapReg (Reg.cluKmap d p) = true := by
  rw [isMapReg, Reg.cluKmap, decide_eq_true_eq]; omega

theorem isMapReg_cluEmap (d : Nat) {p q : Nat} (hp : p < 32) (hq : q < 16) :
    isMapReg (Reg.cluEmap d p q) = true := by
  rw [isMapReg, Reg.cluEmap, decide_eq_true_eq]; omega

theorem isMapReg_of_lt {k : Nat} (h : k < 0x10000000) : isMapReg k = false := by
  rw [isMapReg, decide_eq_false_iff_not]; omega

theorem isMapReg_obcCnt {l : Nat} (h : l < 16) : isMapReg (Reg.obcCnt l 0) = false :=
  isMapReg_of_lt (by unfold Reg.obcCnt; omega)

theorem isMapReg_echkCnt {d c k e j : Nat} (hc : c < 16) (hk : k < 8) (he : e < 8) (hj : j < 8) :
    isMapReg (Reg.echkCnt d c k e j) = false := by
  rw [isMapReg, Reg.echkCnt, decide_eq_false_iff_not]; omega

/-- `t` has the maps of `s`. -/
structure KeepsMaps (s t : State) : Prop where
  reg : ∀ k, isMapReg k = true → t.reg k = s.reg k

theorem State.physCluster_lt {d c p : Nat} (h : s.physCluster d c = some p) : p < 32 := by
  simp only [State.physCluster, Option.ite_none_right_eq_some, Option.some.injEq] at h
  rw [← h.2, bits_eq]
  exact Nat.mod_lt _ (by decide)

theorem State.physCore_lt {d p k q : Nat} (h : s.physCore d p k = some q) : q < 16 := by
  simp only [State.physCore, Option.ite_none_left_eq_some, Option.some.injEq] at h
  have hw : 16 + 4 * k + 3 + 1 - (16 + 4 * k) = 4 := by omega
  rw [← h.2, bits_eq, hw]
  exact Nat.mod_lt _ (by decide)

/-- A unit's physical code comes from the maps alone. -/
theorem KeepsMaps.physOf (h : KeepsMaps a s) (u : Nat) : s.physOf u = a.physOf u := by
  have hcluster (d c : Nat) : s.physCluster d c = a.physCluster d c := by
    rw [State.physCluster, State.physCluster, h.reg _ (isMapReg_cluLmap0 d), h.reg _ (isMapReg_cluLmap1 d)]
  have hcore (d k : Nat) {p : Nat} (hp : p < 32) : s.physCore d p k = a.physCore d p k := by
    rw [State.physCore, State.physCore, h.reg _ (isMapReg_cluKmap d hp)]
  have hengine (d e : Nat) {p q : Nat} (hp : p < 32) (hq : q < 16) : s.physEngine d p q e = a.physEngine d p q e := by
    rw [State.physEngine, State.physEngine, h.reg _ (isMapReg_cluEmap d hp hq)]
  unfold State.physOf
  dsimp only
  rw [hcluster]
  cases hp : a.physCluster (ucDie u) (ucCluster u) with
  | none => rfl
  | some p =>
    dsimp only
    rw [hcore _ _ (State.physCluster_lt hp)]
    cases hq : a.physCore (ucDie u) p (ucCore u) with
    | none => rfl
    | some q =>
      dsimp only
      rw [hengine _ _ (State.physCluster_lt hp) (State.physCore_lt hq)]

theorem KeepsMaps.refl (s : State) : KeepsMaps s s := ⟨fun _ _ => rfl⟩

theorem KeepsMaps.of_regs {t : State} (h : KeepsMaps a s) (e : t.regs = s.regs) : KeepsMaps a t :=
  ⟨fun k hk => (State.reg_congr e k).trans (h.reg k hk)⟩

theorem KeepsMaps.withFlt (h : KeepsMaps a s) (x : FltState) : KeepsMaps a { s with flt := x } := h.of_regs rfl

theorem KeepsMaps.setRun (h : KeepsMaps a s) (r : RunState) : KeepsMaps a (s.setRun r) := h.of_regs rfl

theorem KeepsMaps.foldl {β : Type} {f : State → β → State} (l : List β) (h : KeepsMaps a s)
    (hf : ∀ b x, KeepsMaps a b → KeepsMaps a (f b x)) : KeepsMaps a (l.foldl f s) :=
  List.foldlRecOn l f h fun b hb x _ => hf b x hb

theorem KeepsMaps.setFld (h : KeepsMaps a s) {f : Fld} (hf : isMapReg f.off = false) (v : Nat) :
    KeepsMaps a (s.setFld f v) :=
  ⟨fun k hk => (State.reg_setFld_other _ _ _ _ (by rintro rfl; simp [hf] at hk)).trans (h.reg k hk)⟩

theorem KeepsMaps.bump (h : KeepsMaps a s) {o : Nat} (ho : isMapReg o = false) (n : Nat) :
    KeepsMaps a (s.bump o n) :=
  ⟨fun k hk => (State.reg_bump_other _ _ _ _ (by rintro rfl; simp [ho] at hk)).trans (h.reg k hk)⟩

theorem KeepsMaps.setFldIrq (h : KeepsMaps a s) {n : Nat} {f : Fld} (hf : isMapReg f.off = false)
    (hn : isMapReg (Reg.hubIrqRoute n) = false) (v : Nat) : KeepsMaps a (s.setFldIrq n f v) :=
  ⟨fun k hk => (State.reg_setFldIrq_other _ _ _ _ _ (by rintro rfl; simp [hf] at hk)
    (by rintro rfl; simp [hn] at hk)).trans (h.reg k hk)⟩

/-- The record of an event that is not corrected. -/
theorem KeepsMaps.emit (h : KeepsMaps a s) (kind : Nat) (at_ : Site) (op synd : Nat) :
    KeepsMaps a (s.emit 1 kind at_ op synd) :=
  ⟨fun k hk => (State.reg_emit_other _ _ _ _ _ _ _ (by rintro rfl; exact absurd hk (by decide))
    (by rintro rfl; exact absurd hk (by decide))).trans (h.reg k hk)⟩

/-! ### Messages on Obcor -/

theorem KeepsMaps.flitsTo (h : KeepsMaps a s) (d n type fill epoch : Nat) :
    KeepsMaps a (s.flitsTo d n type fill epoch) := by
  unfold State.flitsTo
  split
  · exact ⟨fun k hk => (State.reg_flitOut_other _ _ _ _ _ _
      (by rintro rfl; simp [isMapReg_obcCnt (s.routeLink_lt d)] at hk)).trans (h.reg k hk)⟩
  · exact h

theorem KeepsMaps.sendNotices (h : KeepsMaps a s) (sender epoch cause : Nat) :
    KeepsMaps a (s.sendNotices sender epoch cause) := by
  unfold State.sendNotices
  refine .bump (.foldl _ ?_ fun b d hb => ?_) (by decide) _
  · exact h.of_regs rfl
  · exact hb.flitsTo ..

theorem KeepsMaps.crossingSlip (h : KeepsMaps a s) (x aclk : Nat) : KeepsMaps a (s.crossingSlip x aclk) := by
  cases hd : s.deterministic with
  | false => rwa [State.crossingSlip, hd]
  | true =>
    have hcount : KeepsMaps a (s.countSlip x) := by
      refine .bump ?_ (by decide) 1
      exact h.of_regs rfl
    rw [State.crossingSlip_eq hd]
    split
    · refine .setFld ?_ (by decide) _
      unfold State.showFirstSlip
      split
      · exact (hcount.setFld (by decide) _).setFld (by decide) _
      · exact hcount
    · exact hcount

theorem KeepsMaps.freeRunning (h : KeepsMaps a s) (l : Nat) : KeepsMaps a (s.freeRunning l) := by
  unfold State.freeRunning
  split
  · have hfree : KeepsMaps a s.free.2 := h.of_regs rfl
    exact hfree.crossingSlip ..
  · exact h

theorem KeepsMaps.sendData (h : KeepsMaps a s) (peer : Nat) (bytes : List Byte) (bad : Bool)
    (tiles : List (Nat × Nat × Nat × Nat)) : KeepsMaps a (s.sendData peer bytes bad tiles) := by
  unfold State.sendData
  dsimp only
  split
  · refine .flitsTo (.freeRunning ?_ _) ..
    exact h.of_regs rfl
  · exact h

theorem KeepsMaps.sendExchange (h : KeepsMaps a s) (x : Ent) : KeepsMaps a (s.sendExchange x) := by
  unfold State.sendExchange
  dsimp only
  split
  · exact h
  · refine .foldl _ ?_ fun b p hb => .foldl _ hb fun _ _ hc => hc.sendData ..
    exact h.of_regs rfl

/-! ### A stop -/

theorem State.endHold_causes (s : State) : s.endHold.flt.causes = s.flt.causes := by
  unfold State.endHold State.setHold
  split <;> rfl

theorem KeepsMaps.endHold (h : KeepsMaps a s) : KeepsMaps a s.endHold := by
  unfold State.endHold
  split
  · refine .of_regs (s := s.setFld Reg.chkEchoStatusHolding (b2n false)) ?_ rfl
    exact h.setFld (by decide) _
  · exact h

theorem KeepsMaps.beginStop (h : KeepsMaps a s) (c : StopCause) (kind : Nat) : KeepsMaps a (s.beginStop c kind) := by
  unfold State.beginStop State.setRecovery State.setBusy State.setLoadState
  have hheld := (h.withFlt { s.flt with
    causes := s.flt.causes ++ [c]
    stopKind := some (max kind (s.flt.stopKind.getD 0))
    before := if s.flt.stopKind.isNone then (s.loadState, s.stepRunning) else s.flt.before }).endHold
  refine .setFldIrq (.setFld (.setFldIrq (.withFlt (.setFld (.setRun ?_ _) ?_ _) _) ?_ ?_ _) ?_ _) ?_ ?_ _
  · exact hheld
  all_goals decide

theorem State.beginStop_stepRunning (s : State) (c : StopCause) (kind : Nat) :
    (s.beginStop c kind).stepRunning = false := by
  simp [State.beginStop, State.stepRunning, State.setRun]

theorem State.beginStop_causes (s : State) (c : StopCause) (kind : Nat) :
    (s.beginStop c kind).flt.causes = s.flt.causes ++ [c] := by
  simp [State.beginStop, State.endHold_causes]

theorem KeepsMaps.stopStep (h : KeepsMaps a s) (c : StopCause) (kind : Nat) : KeepsMaps a (s.stopStep c kind) := by
  unfold State.stopStep
  dsimp only
  split
  · exact (h.beginStop c kind).sendNotices ..
  · exact h.beginStop c kind

/-- After a stop no step runs, and its cause is the last one. -/
theorem State.stopStep_spec (s : State) (c : StopCause) (kind : Nat) :
    (s.stopStep c kind).stepRunning = false ∧ (s.stopStep c kind).flt.causes = s.flt.causes ++ [c] := by
  have hsame : Same (fun p => p == .cfg || p == .flt) (s.beginStop c kind) (s.stopStep c kind) := by
    unfold State.stopStep
    dsimp only
    split
    · exact State.sendNotices_same (.refl _) _ _ _ rfl rfl rfl
    · exact .refl _
  rw [State.stepRunning, hsame.cfg rfl, hsame.flt rfl]
  exact ⟨s.beginStop_stepRunning c kind, s.beginStop_causes c kind⟩

/-- The poison of a transfer stops no step that has stopped before. -/
theorem State.transferPoison_stopped (hs : s.stepRunning = false) (kind epoch src link cause : Nat) :
    (s.transferPoison kind epoch src link cause).cfg = s.cfg ∧
      (s.transferPoison kind epoch src link cause).flt = s.flt := by
  generalize hr : s.emit 1 kind (s.siteHub 11) 0x5002 (transferSyndrome epoch src link cause) = r
  have hsame : Same (fun p => p == .cfg || p == .flt) s (r.sendNotices src epoch cause) :=
    State.sendNotices_same (hr ▸ State.emit_same (.refl s) _ _ _ _ _ rfl rfl) _ _ _ rfl rfl rfl
  have hcfg := hsame.cfg rfl
  have hrun : (r.sendNotices src epoch cause).stepRunning = false := by rwa [State.stepRunning, hcfg]
  have heq : s.transferPoison kind epoch src link cause = { r.sendNotices src epoch cause with
      chk := { (r.sendNotices src epoch cause).chk with epochsIn := [] } } := by
    subst hr
    exact if_neg (ne_true_of_eq_false hrun)
  rw [heq]
  exact ⟨hcfg, hsame.flt rfl⟩

theorem State.poisonEpochs_stopped (hs : s.stepRunning = false) (tile : Nat × Nat × Nat × Nat) :
    (s.poisonEpochs tile).cfg = s.cfg ∧ (s.poisonEpochs tile).flt = s.flt := by
  unfold State.poisonEpochs
  refine List.foldlRecOn (motive := fun t : State => t.cfg = s.cfg ∧ t.flt = s.flt) _ _ ⟨rfl, rfl⟩ ?_
  rintro t ⟨hcfg, hflt⟩ y -
  obtain ⟨hcfg', hflt'⟩ := t.transferPoison_stopped (by rwa [State.stepRunning, hcfg]) ..
  exact ⟨hcfg'.trans hcfg, hflt'.trans hflt⟩

/-! ### The entry that an event names, and its place in its sequencer -/

theorem State.entryAt_place {d c k n : Nat} {x : Ent} (h : s.entryAt d c k n = some x) :
    x.die = d ∧ x.cl = c ∧ x.core = k ∧ x.idx = n := by
  unfold State.entryAt at h
  split at h
  · cases h
  · split at h
    · cases h
    · cases h
      exact ⟨rfl, rfl, rfl, rfl⟩

theorem State.seq_congr {t : State} (h : t.dense = s.dense) (core : Nat) : t.seq core = s.seq core := by
  rw [State.seq, State.seq, h]

theorem State.leaveFlight_inFlight (s : State) (x : Ent) :
    ¬ ((s.leaveFlight x).seq (coreCode x.die x.cl x.core)).inFlight.contains x.idx = true := by
  simp [State.leaveFlight, State.seq, State.setSeq]

theorem State.signal_seq (s : State) (d sig core : Nat) : (s.signal d sig).seq core = s.seq core := by
  unfold State.signal
  split <;> rfl

theorem State.signal_sets (s : State) (d : Nat) {sig : Nat} (h : sig ≠ 0xFFFF) :
    (s.signal d sig).dense.events.contains (eventKey d sig) = true := by
  unfold State.signal
  split
  next hset => exact hset.resolve_left h
  next => simp

/-! ### An entry retires -/

theorem State.diePlan_congr {t : State} (h : t.cfg = s.cfg) (d : Nat) : t.diePlan d = s.diePlan d := by
  simp only [State.diePlan, State.payload, State.sectionsOf, h]

/-- A core without write streams waits for none. -/
theorem State.streamsWritten_of_reads {d c k : Nat}
    (h : ∀ y ∈ (s.diePlan d).streams, y.core = coreCode d c k → y.dir = 0) : s.streamsWritten d c k = true := by
  rw [State.streamsWritten, List.all_eq_true]
  intro y hy
  by_cases hc : y.core = coreCode d c k
  · simp [h y hy hc]
  · simp [hc]

theorem State.retireEntry_spec {x : Ent} (h : x.last = true → s.streamsWritten x.die x.cl x.core = true) :
    (s.retireEntry x).cfg = s.cfg ∧
      ¬ ((s.retireEntry x).seq (coreCode x.die x.cl x.core)).inFlight.contains x.idx = true ∧
      (x.e.signal ≠ 0xFFFF → (s.retireEntry x).dense.events.contains (eventKey x.die x.e.signal) = true) := by
  refine ⟨(State.retireEntry_same (m := fun p => p == .cfg) (.refl s) x rfl).cfg rfl, ?_⟩
  have hgo : ¬ (x.last && !s.streamsWritten x.die x.cl x.core) = true := by
    rw [Bool.and_eq_true, Bool.not_eq_true']
    rintro ⟨hlast, hwritten⟩
    exact Bool.false_ne_true (hwritten.symm.trans (h hlast))
  rw [State.retireEntry, if_neg hgo]
  refine ⟨?_, State.signal_sets _ _⟩
  rw [State.signal_seq]
  exact State.leaveFlight_inFlight _ _

/-! ### An entry whose checks pass -/

/-- Reads that meet no error count poisoned lines and change nothing of the run. -/
theorem State.meetEntryReads_nil_cfg (s : State) (x : Ent) : (s.meetEntryReads x []).cfg = s.cfg := by
  unfold State.meetEntryReads
  split
  · rfl
  · exact (State.countPoisonReads_same (m := fun p => p == .cfg) (.refl s) _ rfl).cfg rfl

/-- The results of an entry, with the value that an error left open, go to their places before the entry retires. -/
theorem State.passEntry_retires (h : s.stepRunning = true) (x : Ent) (escaped : Option Nat) :
    ∃ t : State, t.cfg = s.cfg ∧ s.passEntry x escaped [] = t.retireEntry x := by
  have hreads := s.meetEntryReads_nil_cfg x
  have hrun : (s.meetEntryReads x []).stepRunning = true := by rwa [State.stepRunning, hreads]
  have hresults : Same (fun p => p == .cfg) (s.meetEntryReads x []) ((s.meetEntryReads x []).runEntry x) :=
    State.runEntry_same (.refl _) x rfl rfl rfl rfl rfl
  unfold State.passEntry
  dsimp only
  rw [hrun, if_neg (by decide)]
  refine ⟨_, Eq.trans ?_ hreads, rfl⟩
  cases escaped with
  | none => exact (State.noteTwins_same hresults x rfl).cfg rfl
  | some e => exact (State.noteTwins_same (State.escapeElem_same hresults x e rfl rfl rfl) x rfl).cfg rfl

theorem State.passEntry_spec (h : s.stepRunning = true) {x : Ent} (escaped : Option Nat)
    (hreads : x.last = true → ∀ y ∈ (s.diePlan x.die).streams, y.core = coreCode x.die x.cl x.core → y.dir = 0) :
    (s.passEntry x escaped []).stepRunning = true ∧
      ¬ ((s.passEntry x escaped []).seq (coreCode x.die x.cl x.core)).inFlight.contains x.idx = true ∧
      (x.e.signal ≠ 0xFFFF → (s.passEntry x escaped []).dense.events.contains (eventKey x.die x.e.signal) = true) := by
  obtain ⟨t, hcfg, heq⟩ := State.passEntry_retires h x escaped
  obtain ⟨hkept, hleft, hset⟩ := State.retireEntry_spec (s := t) (x := x) fun hlast =>
    State.streamsWritten_of_reads (by rw [State.diePlan_congr hcfg]; exact hreads hlast)
  rw [heq]
  exact ⟨by rwa [State.stepRunning, hkept, hcfg], hleft, hset⟩

/-! ### An entry whose check fails -/

theorem KeepsMaps.faultUnit (h : KeepsMaps a s) (x : Ent) (e : Nat) (f : CheckFault) :
    s.faultUnit x e f = a.faultUnit x e f := by
  simp only [State.faultUnit, h.physOf]

/-- The kind of a failed check's record does not depend on the predicted residue. -/
theorem faultRecord_kind (p q : Nat) (f : CheckFault) : (faultRecord p f).1 = (faultRecord q f).1 := by
  cases f <;> rfl

/-- A failed check stops the step in a state whose sequencers the entry has left. -/
theorem State.failEntry_stops (s : State) (x : Ent) (e : Nat) (f : CheckFault) :
    ∃ (t : State) (p : Nat), t.dense = ((s.free.2.poisonOutputs x).leaveFlight x).dense ∧
      s.failEntry x e f = t.stopStep ⟨(s.free.2.faultUnit x e f).2, (faultRecord p f).1, none⟩ 0 := by
  refine ⟨_, _, ?_, rfl⟩
  rw [State.emit_dense]
  split
  · exact State.bump_dense _ _ _
  · rfl

theorem State.failEntry_spec (s : State) (x : Ent) (e : Nat) (f : CheckFault) :
    (s.failEntry x e f).stepRunning = false ∧
      ¬ ((s.failEntry x e f).seq (coreCode x.die x.cl x.core)).inFlight.contains x.idx = true ∧
      ⟨(s.faultUnit x e f).2, (faultRecord 0 f).1, none⟩ ∈ (s.failEntry x e f).flt.causes := by
  have hfree : KeepsMaps s s.free.2 := (KeepsMaps.refl s).of_regs rfl
  have hunit := hfree.faultUnit x e f
  obtain ⟨t, p, hdense, heq⟩ := s.failEntry_stops x e f
  rw [hunit, faultRecord_kind p 0] at heq
  obtain ⟨hstop, hcauses⟩ := t.stopStep_spec ⟨(s.faultUnit x e f).2, (faultRecord 0 f).1, none⟩ 0
  have hkept := (State.stopStep_same (m := fun p => p == .dense) (.refl t)
    ⟨(s.faultUnit x e f).2, (faultRecord 0 f).1, none⟩ 0 rfl rfl rfl rfl rfl).dense rfl
  rw [heq]
  refine ⟨hstop, ?_, ?_⟩
  · rw [State.seq_congr (hkept.trans hdense)]
    exact State.leaveFlight_inFlight _ _
  · rw [hcauses]
    exact List.mem_append_right _ (List.mem_singleton.2 rfl)

/-! ### The two events -/

theorem State.sendExchange_of_other {x : Ent} (h : x.e.op ≠ 0x11) : s.sendExchange x = s :=
  if_pos (.inl h)

section Completion

variable {d : Fin 4} {c : Fin 16} {k : Fin 8} {n : Nat} {x : Ent}

/-- An entry that exchanges nothing, with its operands there and no fault that its check shows. -/
theorem State.entryComplete_passes {fault : Option (Nat × CheckFault)} (hx : s.entryAt d c k n = some x)
    (hrun : s.stepRunning = true) (hin : (s.seq (coreCode d c k)).inFlight.contains n = true)
    (hdrain : s.dense.draining.contains (coreCode d c k) = false) (hop : x.e.op ≠ 0x11)
    (hready : s.streamsReady x = true) (hblind : ∀ f ∈ fault, faultBlind f.2 = true) :
    s.entryComplete d c k n fault [] = s.passEntry x (fault.bind fun f => faultEscapes f.2) [] := by
  unfold State.entryComplete
  simp only [hx, hrun, hin, hdrain, hready, State.sendExchange_of_other hop, bne_iff_ne.2 hop]
  cases fault with
  | none => rfl
  | some f => simp [hblind f rfl]

/-- A fault that its check shows; an exchange may have left for the other packages before. -/
theorem State.entryComplete_fails {e : Nat} {f : CheckFault} (hx : s.entryAt d c k n = some x)
    (hrun : s.stepRunning = true) (hin : (s.seq (coreCode d c k)).inFlight.contains n = true)
    (hdrain : s.dense.draining.contains (coreCode d c k) = false) (hf : faultBlind f = false) (ecc : List MemError) :
    s.entryComplete d c k n (some (e, f)) ecc = (s.sendExchange x).failEntry x e f := by
  unfold State.entryComplete
  simp only [hx, hrun, hin, hdrain, hf, Bool.not_true, Bool.false_and, Bool.or_self, Bool.false_eq_true, if_false]

theorem execEntryComplete_passes {fault : Option (Fin 8 × CheckFault)} (hx : s.entryAt d c k n = some x)
    (hrun : s.stepRunning = true) (hin : (s.seq (coreCode d c k)).inFlight.contains n = true)
    (hdrain : s.dense.draining.contains (coreCode d c k) = false) (hop : x.e.op ≠ 0x11)
    (hready : s.streamsReady x = true) (hblind : ∀ f ∈ fault, faultBlind f.2 = true)
    (hreads : x.last = true → ∀ y ∈ (s.diePlan d).streams, y.core = coreCode d c k → y.dir = 0) :
    ∃ t, exec (.entryComplete d c k n ⟨fault, []⟩) s = .next t ∧ t.stepRunning = true ∧
      ¬ (t.seq (coreCode x.die x.cl x.core)).inFlight.contains x.idx = true ∧
      (x.e.signal ≠ 0xFFFF → t.dense.events.contains (eventKey d x.e.signal) = true) := by
  have hblind' : ∀ f ∈ fault.map fun f => (f.1.val, f.2), faultBlind f.2 = true := by
    cases fault with
    | none => nofun
    | some g =>
      rintro f ⟨⟩
      exact hblind g rfl
  obtain ⟨hdie, hcl, hcore, -⟩ := State.entryAt_place hx
  obtain ⟨hgoes, hleft, hset⟩ := State.passEntry_spec hrun _ (by rwa [hdie, hcl, hcore])
  rw [hdie] at hset
  exact ⟨_, congrArg done (State.entryComplete_passes hx hrun hin hdrain hop hready hblind'), hgoes, hleft, hset⟩

/-- The outputs keep their bytes under the poison (log entry 35). -/
theorem execEntryComplete_fails {e : Fin 8} {f : CheckFault} (hx : s.entryAt d c k n = some x)
    (hrun : s.stepRunning = true) (hin : (s.seq (coreCode d c k)).inFlight.contains n = true)
    (hdrain : s.dense.draining.contains (coreCode d c k) = false) (hf : faultBlind f = false) :
    ∃ t, exec (.entryComplete d c k n ⟨some (e, f), []⟩) s = .next t ∧ t.stepRunning = false ∧ t.mem = s.mem ∧
      ¬ (t.seq (coreCode x.die x.cl x.core)).inFlight.contains x.idx = true ∧
      ⟨(s.faultUnit x e f).2, (faultRecord 0 f).1, none⟩ ∈ t.flt.causes := by
  have hsent : Same (fun p => p == .mem) s (s.sendExchange x) :=
    State.sendExchange_same (.refl s) x rfl rfl rfl rfl rfl rfl
  have hmem := State.failEntry_same hsent x e f rfl rfl rfl rfl rfl rfl rfl rfl rfl
  obtain ⟨hstop, hleft, hcause⟩ := (s.sendExchange x).failEntry_spec x e f
  rw [((KeepsMaps.refl s).sendExchange x).faultUnit] at hcause
  exact ⟨_, congrArg done (State.entryComplete_fails hx hrun hin hdrain hf []), hstop, hmem.mem rfl, hleft, hcause⟩

end Completion

/-! ### Twin comparisons -/

/-- The comparison of a tile is no longer outstanding. -/
def State.endTwin (s : State) (p : Nat × Nat × Nat × Nat) : State :=
  { s with chk := { s.chk with twinPending := s.chk.twinPending.erase p } }

/-- A comparison that fails poisons what the entry `x` writes, counts in both registers and leaves its record; `m` is
the mismatch that engine `e` saw. -/
def State.noteMismatch (s : State) (x : Ent) (d c k e op : Nat) (m : Nat × Bool × Nat) : State :=
  let s := s.poisonOutputs x
  let s := (s.bump (Reg.echkCnt d c k e 4) 1).bump (Reg.chkCnt 11) 1
  s.emit 1 0x0020 (s.siteUnit (engineCode d c k e)) (entryOp op)
    ((e + 1) % 8 + m.1 * 2 ^ 3 + b2n m.2.1 * 2 ^ 9 + m.2.2 * 2 ^ 16)

/-- The step stops for one engine, and its partner is charged too. -/
def State.stopForTwins (s : State) (u partner : Nat) : State :=
  let t := s.stopStep ⟨unitKey 1 (s.physOf u), 0x0020, none⟩ 0
  { t with flt := { t.flt with causes := t.flt.causes ++ [⟨unitKey 1 (t.physOf partner), 0x0020, none⟩] } }

theorem KeepsMaps.noteMismatch (h : KeepsMaps a s) (x : Ent) {d c k e : Nat} (hc : c < 16) (hk : k < 8) (he : e < 8)
    (op : Nat) (m : Nat × Bool × Nat) : KeepsMaps a (s.noteMismatch x d c k e op m) := by
  have hpoison : KeepsMaps a (s.poisonOutputs x) :=
    h.of_regs ((State.poisonOutputs_same (m := fun p => p == .regs) (.refl s) x rfl rfl).regs rfl)
  exact ((hpoison.bump (isMapReg_echkCnt hc hk he (by decide)) 1).bump (by decide) 1).emit ..

theorem State.stopForTwins_spec (h : KeepsMaps a s) (u partner : Nat) :
    (s.stopForTwins u partner).stepRunning = false ∧
      ⟨unitKey 1 (a.physOf u), 0x0020, none⟩ ∈ (s.stopForTwins u partner).flt.causes ∧
      ⟨unitKey 1 (a.physOf partner), 0x0020, none⟩ ∈ (s.stopForTwins u partner).flt.causes := by
  have hmaps := h.stopStep ⟨unitKey 1 (s.physOf u), 0x0020, none⟩ 0
  obtain ⟨hstop, hcauses⟩ := s.stopStep_spec ⟨unitKey 1 (s.physOf u), 0x0020, none⟩ 0
  refine ⟨hstop, ?_⟩
  simp only [State.stopForTwins, hcauses, hmaps.physOf]
  simp [h.physOf]

section Twins

variable {d : Fin 4} {c : Fin 16} {k e : Fin 8} {p : Nat × Nat × Nat × Nat}

theorem execTwinComparison_passes
    (hp : s.chk.twinPending.find? (fun p => p.1 == coreCode d c k && p.2.2.1 == e.val) = some p) :
    ∃ t, exec (.twinComparison d c k e none) s = .next t ∧ t.chk.twinPending = s.chk.twinPending.erase p ∧
      t.mem = s.mem ∧ t.regs = s.regs := by
  refine ⟨s.endTwin p, congrArg done ?_, rfl, rfl, rfl⟩
  unfold State.twinComparison State.endTwin
  simp only [hp, Option.map_none]

theorem State.twinComparison_fails {x : Ent}
    (hp : s.chk.twinPending.find? (fun p => p.1 == coreCode d c k && p.2.2.1 == e.val) = some p)
    (hx : s.entryAt d c k p.2.1 = some x) (m : Nat × Bool × Nat) :
    s.twinComparison d c k e (some m) =
      (((s.endTwin p).noteMismatch x d c k e p.2.2.2 m).stopForTwins (engineCode d c k e)
        (engineCode d c k ((e.val + 1) % 8))).poisonEpochs p := by
  have hx' : (s.endTwin p).entryAt d c k p.2.1 = some x := hx
  unfold State.endTwin at *
  unfold State.twinComparison State.stopForTwins State.noteMismatch
  simp only [hp, hx']

theorem execTwinComparison_fails {x : Ent} {m : BitVec 6 × Bool × BitVec 16}
    (hp : s.chk.twinPending.find? (fun p => p.1 == coreCode d c k && p.2.2.1 == e.val) = some p)
    (hx : s.entryAt d c k p.2.1 = some x) :
    ∃ t, exec (.twinComparison d c k e (some m)) s = .next t ∧ t.stepRunning = false ∧ t.mem = s.mem ∧
      ⟨unitKey 1 (s.physOf (engineCode d c k e)), 0x0020, none⟩ ∈ t.flt.causes ∧
      ⟨unitKey 1 (s.physOf (engineCode d c k ((e.val + 1) % 8))), 0x0020, none⟩ ∈ t.flt.causes := by
  generalize hm : (m.1.toNat, m.2.1, m.2.2.toNat) = v
  have hmem := (State.twinComparison_same (m := fun p => p == .mem) (.refl s) d c k e (some v)
    rfl rfl rfl rfl rfl rfl rfl rfl).mem rfl
  have hended : KeepsMaps s (s.endTwin p) := (KeepsMaps.refl s).of_regs rfl
  obtain ⟨hstop, hunit, hpartner⟩ := State.stopForTwins_spec
    (hended.noteMismatch x (d := d) c.isLt k.isLt e.isLt p.2.2.2 v) (engineCode d c k e)
    (engineCode d c k ((e.val + 1) % 8))
  obtain ⟨hcfg, hflt⟩ := State.poisonEpochs_stopped hstop p
  have heq := State.twinComparison_fails hp hx v
  rw [heq] at hmem
  refine ⟨_, congrArg done (hm ▸ heq), ?_, hmem, ?_⟩
  · rw [State.stepRunning, hcfg]
    exact hstop
  · rw [hflt]
    exact ⟨hunit, hpartner⟩

end Twins

/-- Settles O32: the laws of an entry that passes and of one that fails, and of a comparison that passes and of one that
fails. -/
theorem entriesCompleteOrStopStep : Obligations.EntriesCompleteOrStopStep :=
  ⟨fun _ _ _ _ _ _ _ => execEntryComplete_passes, fun _ _ _ _ _ _ _ _ => execEntryComplete_fails,
    fun _ _ _ _ _ _ => execTwinComparison_passes, fun _ _ _ _ _ _ _ _ => execTwinComparison_fails⟩

end Sys2Proof.Machine
end

section
/-! Entries that issue, and the chunks of streams (R128, R197): the table of streams and the sequencers after each
operation on them, and the laws of the four events. -/

namespace Sys2Proof.Machine

variable {s t : State}

/-! ### The streams and the sequencers in the state -/

theorem State.stream_congr (h : t.dense.streams = s.dense.streams) (key : Nat) : t.stream key = s.stream key := by
  rw [State.stream, State.stream, h]

@[simp] theorem State.stream_setStream_same (s : State) (key : Nat) (v : StreamState) :
    (s.setStream key v).stream key = v := Tab.get_set_same ..

@[simp] theorem State.seq_setSeq_same (s : State) (core : Nat) (q : SeqState) : (s.setSeq core q).seq core = q :=
  Tab.get_set_same ..

/-- The marks of a range are part of the memory's own bookkeeping. -/
theorem State.isPoisoned_congr (h : t.mm = s.mm) (a n : Nat) : t.isPoisoned a n = s.isPoisoned a n := by
  simp only [State.isPoisoned, State.lineMeta, h]

theorem State.inImageBuffer_congr (h : t.cfg = s.cfg) (a n : Nat) : t.inImageBuffer a n = s.inImageBuffer a n := by
  rw [State.inImageBuffer, State.inImageBuffer, h]

/-- Reads that meet no error only count: registers alone can change. -/
theorem State.meetReads_nil_same (s : State) (r : Reads) (op : Nat) :
    Same (fun p => p != .regs) s (s.meetReads r op []) := State.countPoisonReads_same (.refl s) _ rfl

/-! ### An entry issues (R128) -/

theorem State.demandStreams_seqs (s : State) (x : Ent) : (s.demandStreams x).dense.seqs = s.dense.seqs :=
  List.foldlRecOn (motive := fun t : State => t.dense.seqs = s.dense.seqs) _ _ rfl fun _ h _ _ => h

/-- Data that leaves for other packages changes nothing of the towers. -/
theorem State.sendData_foldl_dense (s : State)
    (sends : List (Nat × List (List Byte × Bool × List (Nat × Nat × Nat × Nat)))) :
    (sends.foldl (fun (s : State) p => p.2.foldl (fun (s : State) b => s.sendData p.1 b.1 b.2.1 b.2.2) s) s).dense =
      s.dense :=
  Same.dense (m := fun p => p == .dense) (.foldl (.refl s) fun _ _ h => .foldl h fun _ _ h =>
    State.sendData_same h _ _ _ _ rfl rfl rfl rfl rfl) rfl

theorem State.sendExchange_seqs (s : State) (x : Ent) : (s.sendExchange x).dense.seqs = s.dense.seqs := by
  unfold State.sendExchange
  dsimp only
  split
  · rfl
  · rw [State.sendData_foldl_dense]

/-- STALLED stands in a register of its own. -/
theorem State.setStalled_traceOn (s : State) (core : Nat) (on : Bool) : (s.setStalled core on).traceOn = s.traceOn := by
  unfold State.setStalled State.traceOn State.fldB
  rw [State.fld_setFld_other]
  · rfl
  · simp [Reg.cluStashStatStalled]
  · simp [Reg.cluStashStatStalled]
  · left
    simp only [Reg.detCtrlTraceEn, Reg.detCtrl, Reg.cluStashStatStalled, Reg.cluStashStat]
    omega

/-- The core waits for nothing, the entry is among those in flight, and the next one's turn comes. -/
def State.enterFlight (s : State) (x : Ent) : State :=
  let core := coreCode x.die x.cl x.core
  let s := (s.setStalled core false).setTraceHeld core false
  s.setSeq core ⟨(s.seq core).next + 1, (s.seq core).inFlight ++ [x.idx]⟩

theorem State.issueEntry_free {x : Ent} (hstale : s.staleOf x = none) (hstash : s.stashWait x = none)
    (htrace : s.traceOn = false) : s.issueEntry x = ((s.enterFlight x).demandStreams x).sendExchange x := by
  unfold State.issueEntry State.enterFlight
  simp only [hstale, hstash, State.setStalled_traceOn, htrace, Bool.false_and, Bool.false_eq_true, if_false]

theorem State.enterFlight_seq (s : State) (x : Ent) :
    (s.enterFlight x).seq (coreCode x.die x.cl x.core) =
      ⟨(s.seq (coreCode x.die x.cl x.core)).next + 1, (s.seq (coreCode x.die x.cl x.core)).inFlight ++ [x.idx]⟩ :=
  State.seq_setSeq_same ..

theorem State.issueEntry_seq {x : Ent} (hstale : s.staleOf x = none) (hstash : s.stashWait x = none)
    (htrace : s.traceOn = false) :
    (s.issueEntry x).seq (coreCode x.die x.cl x.core) =
      ⟨(s.seq (coreCode x.die x.cl x.core)).next + 1, (s.seq (coreCode x.die x.cl x.core)).inFlight ++ [x.idx]⟩ := by
  rw [State.issueEntry_free hstale hstash htrace, State.seq, State.sendExchange_seqs, State.demandStreams_seqs]
  exact s.enterFlight_seq x

theorem State.issueEntry_free_same {x : Ent} (hstale : s.staleOf x = none) (hstash : s.stashWait x = none)
    (htrace : s.traceOn = false) : Same (fun p => p == .mem || p == .cfg) s (s.issueEntry x) := by
  rw [State.issueEntry_free hstale hstash htrace]
  refine State.sendExchange_same (State.demandStreams_same ?_ x rfl) x rfl rfl rfl rfl rfl rfl
  exact State.setSeq_same (State.setTraceHeld_same (State.setStalled_same (.refl s) _ _ rfl rfl) _ _ rfl) _ _ rfl

theorem execScheduleEntryIssue_issues {d : Fin 4} {c : Fin 16} {k : Fin 8} {x : Ent}
    (hx : s.entryAt d c k (s.seq (coreCode d c k)).next = some x) (hrun : s.stepRunning = true)
    (hmay : s.mayIssue d = true) (hwait : s.waitOk x.e.wait = true) (hbusy : s.enginesBusy x = false)
    (hweight : s.weightBusy x = false) (hstale : s.staleOf x = none) (hstash : s.stashWait x = none)
    (htrace : s.traceOn = false) :
    ∃ t, exec (.scheduleEntryIssue d c k) s = .next t ∧ t.mem = s.mem ∧ t.cfg = s.cfg ∧
      t.seq (coreCode d c k) =
        ⟨(s.seq (coreCode d c k)).next + 1, (s.seq (coreCode d c k)).inFlight ++ [x.idx]⟩ := by
  obtain ⟨hd, hc, hk, -⟩ := State.entryAt_place hx
  have hissue : s.scheduleEntryIssue d c k = s.issueEntry x := by
    unfold State.scheduleEntryIssue
    simp [hx, hrun, hmay, hwait, hbusy, hweight]
  have hkept := State.issueEntry_free_same hstale hstash htrace
  have hseq := State.issueEntry_seq hstale hstash htrace
  rw [hd, hc, hk] at hseq
  exact ⟨_, congrArg done hissue, hkept.mem rfl, hkept.cfg rfl, hseq⟩

section Chunks

variable {d : Fin 4} {c : Fin 16} {k : Fin 8} {st : Fin 16} {x : StreamD}

/-! ### A chunk of a read stream is requested, and arrives (R197) -/

theorem execStreamChunkRead_requests (hx : s.streamD d c k st = some x) (hrun : s.stepRunning = true)
    (hdir : x.dir = 0) (hleft : (s.stream (streamKey d c k st)).issued < x.total)
    (hslot : (s.stream (streamKey d c k st)).held x.chunk < x.depth) :
    ∃ t, exec (.streamChunkRead d c k st) s = .next t ∧
      t.stream (streamKey d c k st) =
        { s.stream (streamKey d c k st) with issued := (s.stream (streamKey d c k st)).issued + 1 } := by
  refine ⟨_, congrArg done ?_, State.stream_setStream_same s _ _⟩
  unfold State.streamChunkRead
  simp [hx, hrun, hdir, hleft, hslot]

theorem execStreamChunkArrive_delivers (hx : s.streamD d c k st = some x) (hrun : s.stepRunning = true)
    (hdir : x.dir = 0) (hdue : (s.stream (streamKey d c k st)).arrived < (s.stream (streamKey d c k st)).issued)
    (hclean : s.isPoisoned (x.chunkAddr (s.stream (streamKey d c k st)).arrived) x.chunk = false) :
    ∃ t, exec (.streamChunkArrive d c k st []) s = .next t ∧
      t.stream (streamKey d c k st) = { s.stream (streamKey d c k st) with
        arrived := (s.stream (streamKey d c k st)).arrived + 1
        buf := (s.stream (streamKey d c k st)).buf ++
          s.read (x.chunkAddr (s.stream (streamKey d c k st)).arrived) x.chunk } ∧
      t.read (x.slotAddr (s.stream (streamKey d c k st)).arrived) x.chunk =
        s.read (x.chunkAddr (s.stream (streamKey d c k st)).arrived) x.chunk := by
  generalize hss : s.stream (streamKey d c k st) = ss at hdue hclean ⊢
  generalize hdata : s.read (x.chunkAddr ss.arrived) x.chunk = data
  have hlen : data.length = x.chunk := by rw [← hdata, State.read_length]
  generalize hmet : s.meetReads (.of [(x.chunkAddr ss.arrived, x.chunk)]) 0x3000 [] = met
  have hbad : met.isPoisoned (x.chunkAddr ss.arrived) x.chunk = false := by
    rw [State.isPoisoned_congr (hmet ▸ (s.meetReads_nil_same _ _).mm rfl), hclean]
  have harrive : s.streamChunkArrive d c k st [] = (met.write (x.slotAddr ss.arrived) data).setStream
      (streamKey d c k st) { ss with arrived := ss.arrived + 1, buf := ss.buf ++ data } := by
    unfold State.streamChunkArrive
    simp [hx, hrun, hdir, hss, hdue, hmet, hbad, hdata]
  refine ⟨_, congrArg done harrive, State.stream_setStream_same .., ?_⟩
  rw [← hlen]
  exact met.read_write_same _ _

/-! ### A chunk of a write stream goes to memory (R197) -/

theorem State.signal_streams (s : State) (d sig : Nat) : (s.signal d sig).dense.streams = s.dense.streams := by
  unfold State.signal
  split <;> rfl

theorem State.retireEntry_streams (s : State) (x : Ent) : (s.retireEntry x).dense.streams = s.dense.streams := by
  unfold State.retireEntry
  dsimp only
  split
  · rfl
  · exact State.signal_streams ..

theorem State.retireDrained_mem (s : State) (d c k : Nat) : (s.retireDrained d c k).mem = s.mem :=
  (State.retireDrained_same (m := fun p => p == .mem) (.refl s) d c k rfl).mem rfl

/-- A last entry that waited for its streams retires without a change to them. -/
theorem State.retireDrained_streams (s : State) (d c k : Nat) :
    (s.retireDrained d c k).dense.streams = s.dense.streams := by
  unfold State.retireDrained
  split
  · rfl
  · split
    · rfl
    · split
      · exact State.retireEntry_streams ..
      · rfl

/-- A full chunk stands at its place in memory, marked where its bytes are marked. -/
def State.storeChunk (s : State) (a : Nat) (data : List Byte) (bad : Bool) : State :=
  if bad then (s.writeNoted a data).poisonRange a data.length else s.writeNoted a data

theorem State.noteWrite_mem (s : State) (a : Nat) (old : List Byte) : (s.noteWrite a old).mem = s.mem :=
  (State.noteWrite_same (m := fun p => p == .mem) (.refl s) a old rfl).mem rfl

theorem State.read_storeChunk (s : State) (a : Nat) (data : List Byte) (bad : Bool) :
    (s.storeChunk a data bad).read a data.length = data := by
  have hmem : (s.storeChunk a data bad).mem = (s.write a data).mem := by
    rw [← State.noteWrite_mem (s.write a data) a (s.read a data.length)]
    unfold State.storeChunk
    split
    · exact (State.poisonRange_same (m := fun p => p == .mem) (.refl _) _ _ rfl).mem rfl
    · rfl
  rw [State.read_congr hmem, State.read_write_same]

theorem execStreamChunkWrite_stores (hx : s.streamD d c k st = some x) (hrun : s.stepRunning = true)
    (hdir : x.dir = 1) (hleft : (s.stream (streamKey d c k st)).written < x.total)
    (hfull : x.chunk ≤ (s.stream (streamKey d c k st)).buf.length)
    (hopen : s.inImageBuffer (x.chunkAddr (s.stream (streamKey d c k st)).written) x.chunk = false) :
    ∃ t, exec (.streamChunkWrite d c k ⟨st, []⟩) s = .next t ∧
      t.stream (streamKey d c k st) = { s.stream (streamKey d c k st) with
        written := (s.stream (streamKey d c k st)).written + 1
        buf := (s.stream (streamKey d c k st)).buf.drop x.chunk } ∧
      t.read (x.chunkAddr (s.stream (streamKey d c k st)).written) x.chunk =
        (s.stream (streamKey d c k st)).buf.take x.chunk := by
  generalize hss : s.stream (streamKey d c k st) = ss at hleft hfull hopen ⊢
  generalize hdata : ss.buf.take x.chunk = data
  have hlen : data.length = x.chunk := by rw [← hdata, List.length_take_of_le hfull]
  generalize hmet : (s.write (x.slotAddr ss.written) data).meetReads (.of [(x.slotAddr ss.written, x.chunk)]) 0x3001 []
    = met
  have hopen' : met.inImageBuffer (x.chunkAddr ss.written) x.chunk = false := by
    rw [State.inImageBuffer_congr (s := s) (hmet ▸ (State.meetReads_nil_same _ _ _).cfg rfl), hopen]
  obtain ⟨bad, hwrite⟩ : ∃ bad, s.streamChunkWrite d c k st [] =
      ((met.storeChunk (x.chunkAddr ss.written) data bad).setStream (streamKey d c k st)
        { ss with written := ss.written + 1, buf := ss.buf.drop x.chunk }).retireDrained d c k := by
    unfold State.streamChunkWrite State.storeChunk
    simp only [hx, hrun, hdir, hss, hleft, hfull, hmet, hopen', hdata, hlen]
    exact ⟨_, rfl⟩
  refine ⟨_, congrArg done hwrite, ?_, ?_⟩
  · rw [State.stream_congr (State.retireDrained_streams ..), State.stream_setStream_same]
  · rw [State.read_congr (State.retireDrained_mem ..), ← hlen]
    exact met.read_storeChunk _ _ _

end Chunks

/-- Settles O31: the laws of an entry that issues and of a chunk that is requested, arrives or is written. A chunk's bytes
are those that memory holds when it arrives (DESIGN CHOICE, log entry 24). -/
theorem entriesIssueAndStreamsMove : Obligations.EntriesIssueAndStreamsMove :=
  ⟨fun _ _ _ _ _ hx _ _ _ => execScheduleEntryIssue_issues hx, fun _ _ _ _ _ _ => execStreamChunkRead_requests,
    fun _ _ _ _ _ _ => execStreamChunkArrive_delivers, fun _ _ _ _ _ _ => execStreamChunkWrite_stores⟩

end Sys2Proof.Machine
end

section
/-! The invariant of the canonical forms and of the bounds of the poison table and of the record queue: it holds at reset
and every step keeps it (R219, R359). -/

namespace Sys2Proof.Machine

/-- The invariant is among the things that `Kept` speaks of. -/
theorem State.Inv.of_kept {s t : State} (h : s.Inv) (hk : Kept s t) : t.Inv :=
  ⟨hk.mem h.mem, hk.regs h.regs, hk.shadow h.shadow, hk.poison h.poison, hk.hub h.queue⟩

/-- The invariant looks neither at the queue of commands nor at the package's own state. -/
theorem State.Inv.with_pending_pkg {s : State} (h : s.Inv) (cs : List Instr) (p : PkgState) :
    State.Inv { s with pending := cs, pkg := p } :=
  ⟨h.mem, h.regs, h.shadow, h.poison, h.queue⟩

theorem State.Inv.of_exec {s t : State} {c : Instr} (hi : s.Inv) (h : exec c s = .next t) : t.Inv := by
  obtain ⟨r, hk⟩ := exec_kept_but_side c h
  exact (hi.with_pending_pkg s.pending { s.pkg with rootPort := r }).of_kept hk

theorem State.Inv.of_step {s t : State} (hi : s.Inv) (h : step s = .next t) : t.Inv := by
  unfold step at h
  split at h
  next =>
    cases h
    exact hi.of_kept (State.tick_kept (.refl s))
  next c rest _ => exact (hi.with_pending_pkg rest s.pkg).of_exec h

/-- Settles O4: at reset every table is empty. -/
theorem resetMeetsInvariant : Obligations.ResetMeetsInvariant :=
  ⟨rfl, Regs.canon_nil, Regs.canon_nil, Nat.zero_le _, Nat.zero_le _⟩

/-- Settles O5: a tick keeps the invariant (`State.tick_kept`), and so does every command (`exec_kept_but_side`). -/
theorem stepKeepsInvariant : Obligations.StepKeepsInvariant := fun _ _ => State.Inv.of_step

/-- Whatever commands are queued at reset, the invariant holds along the run. -/
theorem Reaches.inv_of_reset {cs : List Instr} {k : Nat} {t : State} (h : Reaches { State.reset with pending := cs } k t) :
    t.Inv := by
  have hi : State.Inv { State.reset with pending := cs } := State.Inv.with_pending_pkg resetMeetsInvariant cs PkgState.init
  generalize ({ State.reset with pending := cs } : State) = s at h hi
  induction h with
  | zero s => exact hi
  | succ hs _ ih => exact ih (stepKeepsInvariant _ _ hi hs)

end Sys2Proof.Machine
end

section
/-! The upkeep of the memories: writebacks, refresh windows with their patrol reads, the SRAM scrub (R218, R220, R221,
R226, R227). -/

namespace Sys2Proof.Machine

/-! ### A stack's temperature -/

/-- A temperature shown writes no register but the state of its stack. -/
theorem State.reg_stackTemp_other (s : State) (k temp : Nat) {j : Nat} (h : j ≠ Reg.memStackState k) :
    (s.stackTemp k temp).reg j = s.reg j := by
  rw [State.stackTemp, State.reg_setFld_other _ _ _ _ h, State.reg_setFld_other _ _ _ _ h]

/-- The temperature that a refresh window reads is the one shown (R220, R227). -/
theorem State.fld_stackTemp_temp (s : State) (k : Nat) (temp : BitVec 16) :
    (s.stackTemp k temp.toNat).fld (Reg.memStackStateTemp k) = temp.toNat := by
  have hhot : (Reg.memStackStateHot k).hi < 64 := show 2 < 64 by decide
  have htemp : (Reg.memStackStateTemp k).hi < 64 := show 23 < 64 by decide
  have hapart : (Reg.memStackStateHot k).hi < (Reg.memStackStateTemp k).lo := show 2 < 8 by decide
  rw [State.stackTemp, State.fld_setFld_other _ _ _ _ hhot (Nat.le_succ _) (.inr (.inl hapart))]
  exact State.fld_setFld_of_lt _ _ htemp (show 8 ≤ 24 by decide) temp.isLt

/-- The registers of the map and of the scrub lie below those of the stacks. -/
theorem ne_memStackState {j : Nat} (h : j < Reg.memStackState 0) (k : Nat) : j ≠ Reg.memStackState k := by
  simp only [Reg.memStackState] at h ⊢
  omega

/-- The map of tier 1 rests on MEM.T1_MAP alone (R200). -/
theorem State.stackOf_congr {s t : State} (h : t.fld Reg.memT1MapStripedGib = s.fld Reg.memT1MapStripedGib) (a : Nat) :
    t.stackOf a = s.stackOf a := by
  have hstriped : t.stripedSize = s.stripedSize := by rw [State.stripedSize, h, State.stripedSize]
  have hdie : t.dieRange = s.dieRange := by
    funext n
    rw [State.dieRange, h, State.dieRange]
  rw [State.stackOf, hstriped, hdie, State.stackOf]

@[simp] theorem State.stackOf_stackTemp (s : State) (k temp a : Nat) : (s.stackTemp k temp).stackOf a = s.stackOf a :=
  State.stackOf_congr (State.fld_of_reg (s.reg_stackTemp_other k temp (ne_memStackState (by decide) k))) a

theorem State.t1Hours_stackTemp (s : State) (k temp : Nat) :
    (s.stackTemp k temp).fld Reg.memScrubCtrlT1Hours = s.fld Reg.memScrubCtrlT1Hours :=
  State.fld_of_reg (s.reg_stackTemp_other k temp (ne_memStackState (by decide) k))

/-! ### The patrol of tier 1 -/

/-- A patrol read without an error writes the pass number of its line and moves the patrol on. -/
theorem State.patrolTier1_clean (s : State) :
    s.patrolTier1 .clean .clean =
      { s with mm := { s.mm with
          lineMeta := Tab.set 0 s.mm.patrol1.1 (setBits (s.lineMeta s.mm.patrol1.1) 15 8 (s.mm.patrol1.2.1 % 256))
            s.mm.lineMeta
          patrol1 := patrolNext s.mm.patrol1 (tier1Size / 64) (s.fld Reg.memScrubCtrlT1Hours) } } := by
  unfold State.patrolTier1
  simp only [State.applyEcc, State.applyEccIn]
  rfl

theorem State.patrolTier1_clean_regs (s : State) : (s.patrolTier1 .clean .clean).regs = s.regs := by
  rw [State.patrolTier1_clean]

theorem State.patrolTier1_clean_mem (s : State) : (s.patrolTier1 .clean .clean).mem = s.mem := by
  rw [State.patrolTier1_clean]

theorem State.patrolTier1_clean_patrol1 (s : State) :
    (s.patrolTier1 .clean .clean).mm.patrol1 =
      patrolNext s.mm.patrol1 (tier1Size / 64) (s.fld Reg.memScrubCtrlT1Hours) := by
  rw [State.patrolTier1_clean]

/-- A window on a stack, by whether the patrol's next line lies there. -/
theorem State.refreshWindow_stack (s : State) {ch : Nat} (hch : ch < 20) (temp : Nat) (e m : Ecc) :
    s.refreshWindow ch temp e m =
      if (s.stackOf (s.mm.patrol1.1 * 64)).1 = ch then (s.stackTemp ch temp).patrolTier1 e m else s.stackTemp ch temp := by
  unfold State.refreshWindow
  simp only [hch, if_true, State.stackTemp_mm, State.stackOf_stackTemp]

theorem execRefreshWindow_clean {ch : Fin 36} (hch : ch.val < 20) (s : State) (temp : BitVec 16) :
    ∃ t, exec (.refreshWindow ch ⟨temp, .clean, .clean⟩) s = .next t ∧ t.mem = s.mem ∧
      t.fld (Reg.memStackStateTemp ch) = temp.toNat ∧
      if (s.stackOf (s.mm.patrol1.1 * 64)).1 = ch then
        t.mm.patrol1 = patrolNext s.mm.patrol1 (tier1Size / 64) (s.fld Reg.memScrubCtrlT1Hours)
      else t.mm = s.mm := by
  refine ⟨s.refreshWindow ch temp.toNat .clean .clean, rfl, ?_⟩
  rw [State.refreshWindow_stack s hch]
  have hshown := s.fld_stackTemp_temp ch temp
  split
  next =>
    rw [State.patrolTier1_clean_mem, State.stackTemp_mem, State.fld_congr (State.patrolTier1_clean_regs _), hshown,
      State.patrolTier1_clean_patrol1, State.stackTemp_mm, State.t1Hours_stackTemp]
    exact ⟨rfl, rfl, rfl⟩
  next => exact ⟨State.stackTemp_mem .., hshown, State.stackTemp_mm ..⟩

/-! ### The SRAM scrub -/

/-- The list of units whose scrub is behind, after a visit of one. -/
def scrubBehind (l : List Nat) (key : Nat) (behind : Bool) : List Nat :=
  if behind then if l.contains key then l else l ++ [key] else l.erase key

theorem scrubBehind_true_contains (l : List Nat) (key : Nat) : (scrubBehind l key true).contains key = true := by
  rw [scrubBehind, if_pos rfl]
  split
  next h => exact h
  next => simp

/-- A scrub visit that meets no error writes the list of units behind and nothing else. -/
theorem execSramScrub_clean (s : State) (key : BitVec 32) (behind : Bool) :
    exec (.sramScrub key behind .clean) s =
      .next { s with mm := { s.mm with behind := scrubBehind s.mm.behind key.toNat behind } } := by
  cases behind <;> rfl

/-- Settles O29, by the three kinds of visit. That the patrol goes one line on in a window, and wraps at the end of the
array, is the model's reading of R221 (DEDUCED, log entry 38). -/
theorem memoryUpkeepAdvances : Obligations.MemoryUpkeepAdvances :=
  ⟨fun s k a => ⟨s.eccWriteback k a, rfl, rfl, rfl, rfl⟩, fun s _ temp hch => execRefreshWindow_clean hch s temp,
    fun s key => ⟨_, execSramScrub_clean s key true, scrubBehind_true_contains _ _, rfl, rfl⟩,
    fun s key => ⟨_, execSramScrub_clean s key false, rfl, rfl, rfl⟩⟩

end Sys2Proof.Machine
end

section
/-! The hub copies of a partial reload become active together (R301). -/

namespace Sys2Proof.Machine

variable {s : State}

theorem State.reloadEpoch_wire (s : State) (j : LoadJob) : (s.reloadEpoch j).2.wire = s.wire :=
  (State.reloadEpoch_same (m := fun p => p == .wire) (.refl s) j rfl rfl).wire rfl

theorem State.finishReload_wire (s : State) (j : LoadJob) : (s.finishReload j).wire = s.wire :=
  (State.finishReload_same (m := fun p => p == .wire) (.refl s) j rfl rfl).wire rfl

theorem State.onSteward_of_pair (h : s.pkg.pairs.contains true = true) (f : State → State) : s.onSteward f = f s :=
  if_pos h

/-- Of the wire, a swap writes the two copies, the shadow and the count. The new copy is the shadow with the epoch that
its reloaded slices record. -/
theorem State.hubModelSwap_wire {m : HubModel} {j : LoadJob} {im old : Image} (hshadow : s.wire.shadow = some m)
    (hload : s.cfg.load = some j) (hold : s.cfg.image = some old) (him : j.image = some im)
    (hholders : s.modelHolders = 0) :
    ∃ e js, s.hubModelSwap.wire =
      { s.wire with oldModel := s.wire.model, model := { m with epochs := recordEpochs e js m.epochs }, shadow := none,
                    swaps := s.wire.swaps + 1 } := by
  simp only [State.hubModelSwap, hshadow, hload, hold, him, hholders, ne_eq, not_true_eq_false, if_false,
    State.finishReload_wire, State.switchModel, State.recordEpoch, State.reloadEpoch_wire]
  exact ⟨_, _, rfl⟩

theorem State.hubModelSwap_mem (s : State) : s.hubModelSwap.mem = s.mem :=
  (State.hubModelSwap_same (m := fun p => p == .mem) (.refl s) rfl rfl rfl).mem rfl

/-- Settles O12: the one write of the wire in a swap (`State.hubModelSwap_wire`) replaces every copy at once. -/
theorem hubShadowCopiesSwapTogether : Obligations.HubShadowCopiesSwapTogether := by
  intro s m j im old hshadow hload hold him hholders hpair
  obtain ⟨e, js, hwire⟩ := State.hubModelSwap_wire hshadow hload hold him hholders
  refine ⟨s.hubModelSwap, congrArg done (State.onSteward_of_pair hpair _), ?_⟩
  rw [hwire]
  exact ⟨rfl, rfl, rfl, rfl, rfl, rfl, s.hubModelSwap_mem⟩

end Sys2Proof.Machine
end

section
/-! The queues of requests at the slices and of replies at the ports: what a request that goes to its FAIL_TARGET leaves
alone (R294, R304). -/

namespace Sys2Proof.Machine

variable {s t : State}

/-- The queues of the slices and the reply queues of the ports. -/
def State.queues (s : State) : Tab (List Nat) × Tab (List Nat) := (s.wire.sliceQueues, s.wire.replyQueues)

theorem State.queues_congr (h : t.wire = s.wire) : t.queues = s.queues := by rw [State.queues, State.queues, h]

theorem State.replyQueue_of_queues (h : t.queues = s.queues) (n : Nat) : t.replyQueue n = s.replyQueue n :=
  congrArg (fun q : Tab (List Nat) × Tab (List Nat) => Tab.get [] n q.2) h

theorem State.sliceQueue_of_queues (h : t.queues = s.queues) (j : Nat) :
    Tab.get [] j t.wire.sliceQueues = Tab.get [] j s.wire.sliceQueues :=
  congrArg (fun q : Tab (List Nat) × Tab (List Nat) => Tab.get [] j q.1) h

@[simp] theorem State.setFrame_queues (s : State) (i : Nat) (f : Frame) : (s.setFrame i f).queues = s.queues := rfl

@[simp] theorem State.setHalf_queues (s : State) (c : Nat) (h : Half) : (s.setHalf c h).queues = s.queues := rfl

@[simp] theorem State.wireCount_queues (s : State) (c i n : Nat) : (s.wireCount c i n).queues = s.queues := rfl

@[simp] theorem State.sendPfc_queues (s : State) (port q quanta : Nat) :
    (s.sendPfc port q quanta).queues = s.queues := by
  simp [State.sendPfc]

theorem State.queues_of_resolve {f : Frame} {n : Nat} {o : Option Nat} {r : Option RingSlot}
    (h : s.resolve f n = (o, r, t)) : t.queues = s.queues := by
  have hwire := (State.resolve_same (m := fun p => p == .wire) (.refl s) f n rfl rfl).wire rfl
  rw [h] at hwire
  exact State.queues_congr hwire

@[simp] theorem State.deliverTo_queues (s : State) (f : Frame) (x : RingSlot) (tap : Bool) :
    (s.deliverTo f x tap).queues = s.queues :=
  State.queues_congr ((State.deliverTo_same (m := fun p => p == .wire) (.refl s) f x tap rfl rfl rfl rfl rfl).wire rfl)

@[simp] theorem State.toPtpRing_queues (s : State) (f : Frame) (x : RingSlot) : (s.toPtpRing f x).queues = s.queues :=
  State.queues_congr ((State.toPtpRing_same (m := fun p => p == .wire) (.refl s) f x rfl).wire rfl)

@[simp] theorem State.tapCopy_queues (s : State) (f : Frame) : (s.tapCopy f).queues = s.queues :=
  State.queues_congr ((State.tapCopy_same (m := fun p => p == .wire) (.refl s) f rfl rfl rfl rfl rfl).wire rfl)

@[simp] theorem State.pfcUpdate_queues (s : State) (port q : Nat) : (s.pfcUpdate port q).queues = s.queues := by
  unfold State.pfcUpdate
  dsimp only
  repeat' split
  all_goals simp

@[simp] theorem State.forward_queues (s : State) (i : Nat) (f : Frame) (c tc : Nat) :
    (s.forward i f c tc).queues = s.queues := by
  unfold State.forward
  dsimp only
  repeat' split
  all_goals simp

@[simp] theorem State.sendTo_queues (s : State) (i : Nat) (f : Frame) (t : Nat) (r : Option RingSlot) :
    (s.sendTo i f t r).queues = s.queues := by
  unfold State.sendTo
  dsimp only
  repeat' split
  all_goals simp

@[simp] theorem State.failTarget_queues (s : State) (i j : Nat) : (s.failTarget i j).queues = s.queues := by
  unfold State.failTarget
  split
  next => rfl
  next f _ =>
    dsimp only
    split
    next hr => rw [State.sendTo_queues, State.queues_of_resolve hr, State.setFrame_queues]
    next hr => rw [State.queues_of_resolve hr, State.setFrame_queues]

@[simp] theorem State.deliverSlot_queues (s : State) (i : Nat) : (s.deliverSlot i).queues = s.queues := by
  unfold State.deliverSlot
  split
  next => rfl
  next => split <;> simp

@[simp] theorem State.reap_queues (s : State) (i : Nat) : (s.reap i).queues = s.queues := by
  unfold State.reap
  split
  next => rfl
  next => dsimp only; split <;> rfl

theorem State.failEvaluation_queues (s : State) (i j : Nat) (f : Frame) :
    (s.failEvaluation i j f).queues = s.queues := by
  unfold State.failEvaluation
  dsimp only
  split <;> simp

end Sys2Proof.Machine
end

section
/-! The evaluation of a request by a slice, and its reply (R276, R290, R292, R294, R303). -/

namespace Sys2Proof.Machine

variable {s t : State} {i j : Nat} {f : Frame}

/-! ### What the codes of a feature set depend on -/

theorem State.embD_congr (h : t.cfg = s.cfg) : t.embD = s.embD := by
  simp only [State.embD, State.payload, State.sectionsOf, h]

theorem State.slotFor_congr (hcfg : t.cfg = s.cfg) (hemb : t.emb = s.emb) (f : Frame) (slot : Nat) :
    t.slotFor f slot = s.slotFor f slot := by
  rw [State.slotFor, State.slotFor, State.embD_congr hcfg, State.nts, State.nts, hemb]

theorem State.beyondRows_congr (hcfg : t.cfg = s.cfg) (slot n : Nat) : t.beyondRows slot n = s.beyondRows slot n := by
  rw [State.beyondRows, State.beyondRows, State.embD_congr hcfg]

theorem State.dotField_congr (hcfg : t.cfg = s.cfg) (hemb : t.emb = s.emb) (hmm : t.mm = s.mm) (hmem : t.mem = s.mem)
    (f : Frame) (fs : List (List Byte)) (r : List Byte) : t.dotField f fs r = s.dotField f fs r := by
  have hslot : t.slotFor = s.slotFor := funext fun _ => funext fun _ => State.slotFor_congr hcfg hemb _ _
  have hrows : t.beyondRows = s.beyondRows := funext fun _ => funext fun _ => State.beyondRows_congr hcfg _ _
  have hpoison : t.isPoisoned = s.isPoisoned := funext fun _ => funext fun _ => State.isPoisoned_congr hmm _ _
  have hread : t.read = s.read := funext fun _ => funext fun _ => State.read_congr hmem _ _
  rw [State.dotField, State.dotField, hslot, hrows, hpoison, hread]

/-- A code is read of the frame, of the image and of the NTS rows in memory. -/
theorem State.fieldCode_congr (hcfg : t.cfg = s.cfg) (hemb : t.emb = s.emb) (hmm : t.mm = s.mm) (hmem : t.mem = s.mem)
    (f : Frame) (b : List Byte) (fs : List (List Byte)) (r : List Byte) :
    t.fieldCode f b fs r = s.fieldCode f b fs r := by
  rw [State.fieldCode, State.fieldCode, State.dotField_congr hcfg hemb hmm hmem]

theorem State.fieldCode_meetReads_nil (s : State) (x : Reads) (op : Nat) (f : Frame) (b : List Byte)
    (fs : List (List Byte)) (r : List Byte) : (s.meetReads x op []).fieldCode f b fs r = s.fieldCode f b fs r :=
  have h := s.meetReads_nil_same x op
  State.fieldCode_congr (h.cfg rfl) (h.emb rfl) (h.mm rfl) (h.mem rfl) f b fs r

theorem State.fieldCode_setQueue (s : State) (j : Nat) (q : List Nat) (f : Frame) (b : List Byte)
    (fs : List (List Byte)) (r : List Byte) : (s.setQueue j q).fieldCode f b fs r = s.fieldCode f b fs r :=
  State.fieldCode_congr (s := s) (t := s.setQueue j q) rfl rfl rfl rfl f b fs r

/-! ### A reply enters the port's queue (R294) -/

/-- Frame `i` carries reply `r`, and waits behind the replies that its port's queue held in `s`. -/
structure QueuesReply (s t : State) (i : Nat) (f : Frame) (r : Reply) : Prop where
  carries : ∃ g, t.frame i = some g ∧ g.reply = some r
  waits : t.replyQueue (f.port / 2) = s.replyQueue (f.port / 2) ++ [i]

theorem State.queueReply_queues (i j : Nat) (r : Reply) (accs : List Int) (hverdict : f.verdict = none)
    (hroom : (s.replyQueue (f.port / 2)).length < 32) (hqueue : t.replyQueue (f.port / 2) = s.replyQueue (f.port / 2)) :
    QueuesReply s (t.queueReply i j f r accs) i f r := by
  have hreply : t.queueReply i j f r accs =
      (t.setFrame i { f with slice := none, scored := some (r.status, accs), reply := some r }).setReplyQueue
        (f.port / 2) (s.replyQueue (f.port / 2) ++ [i]) := by
    simp [State.queueReply, hverdict, hqueue, Nat.not_le.2 hroom]
  rw [hreply]
  exact ⟨⟨_, Tab.find_put_same .., rfl⟩, Tab.get_set_same ..⟩

theorem State.replyQueue_congr (h : t.wire = s.wire) (n : Nat) : t.replyQueue n = s.replyQueue n := by
  rw [State.replyQueue, State.replyQueue, h]

/-! ### The branches of an evaluation -/

/-- The feature set that a request selects in its copy of the model. -/
def State.featureSet (s : State) (f : Frame) : Option Nat :=
  encSelect (s.modelFor f).encoder ((f.parsed.krf.map Krf.model).getD 0)

/-- The codes of the fields of a set. -/
def State.codesOf (s : State) (f : Frame) (k : Nat) : List (Nat × Nat × Option Nat) :=
  (encFields (s.modelFor f).encoder k).map fun r =>
    s.fieldCode f (s.modelFor f).encoder (encFields (s.modelFor f).encoder k) r

/-- The sums of a slice, or of the capacity pair that it leads, over the codes of a set (R289). -/
def HubModel.sums (m : HubModel) (j : Nat) (codes : List Nat) : List Int :=
  (List.range (sOut (m.slice j))).map fun o =>
    sliceAcc (m.slice j) (if sPair (m.slice j) = 1 then some (m.slice (j + 1)) else none) codes o

/-- The outputs that the slice's template selects (Table 8.5). -/
def HubModel.outputs (m : HubModel) (j : Nat) (codes : List Nat) : List Nat :=
  (enum0 (m.sums j codes)).filterMap fun e =>
    if bit (tmplMask (m.template j)) e.1 then some (sliceOut (m.slice j) e.1 e.2) else none

/-- The reply of slice `j` to a request, with its status and outputs. -/
def State.replyOf (s : State) (j : Nat) (f : Frame) (status : Nat) (outs : List Nat) : Reply :=
  let n := (horizon (s.modelFor f).encoder f.parsed (s.featureSet f)).1
  ⟨j, (s.modelFor f).template j, status, outs, Tab.get 0 j (s.modelFor f).epochs,
    max (40 + floorRate (s.fullRate f.port) n + 10 * (f.passes - 1)) (s.cyclesOf f), false⟩

/-- UNCHECKED in the status of a reply of slice `j`. -/
def State.uncheckedFor (s : State) (j : Nat) (f : Frame) : Nat := s.unchecked (sPair ((s.modelFor f).slice j)) j

/-- What a request needs to get a reply from slice `j`. -/
structure State.Evaluates (s : State) (j : Nat) (f : Frame) : Prop where
  served : s.stillServed f j = true
  clean : f.poisoned = false
  reached : (horizon (s.modelFor f).encoder f.parsed (s.featureSet f)).1 < f.bytes.length - 4

section Branches

variable {corrected follower : Nat} {fault : Option SliceFault} {ecc : List MemError}

theorem State.evaluate_unserved (h : s.stillServed f j = false) :
    s.evaluate i j f corrected follower fault ecc = s.failEvaluation i j f := by
  simp [State.evaluate, h]

theorem State.evaluate_noSet (h : s.Evaluates j f) (hset : s.featureSet f = none) :
    s.evaluate i j f corrected follower fault ecc =
      (s.sliceCount j 11 1).queueReply i j f (s.replyOf j f (1 + s.uncheckedFor j f) []) [] := by
  obtain ⟨hserved, hclean, hreached⟩ := h
  rw [State.replyOf, hset]
  rw [hset] at hreached
  rw [State.featureSet] at hset
  simp only [State.evaluate, State.uncheckedFor, hserved, hclean, hset, Nat.not_le.2 hreached, Bool.not_true,
    Bool.false_eq_true, if_false]

theorem State.evaluate_otherSet (h : s.Evaluates j f) {k : Nat} (hset : s.featureSet f = some k)
    (hother : k ≠ le ((s.modelFor f).slice j) 2 1) :
    s.evaluate i j f corrected follower fault ecc =
      (s.sliceCount j 12 1).queueReply i j f (s.replyOf j f (2 + s.uncheckedFor j f) []) [] := by
  obtain ⟨hserved, hclean, hreached⟩ := h
  rw [State.replyOf, hset]
  rw [hset] at hreached
  rw [State.featureSet] at hset
  simp only [State.evaluate, State.uncheckedFor, hserved, hclean, hset, Nat.not_le.2 hreached, hother, ne_eq,
    not_false_eq_true, if_true, Bool.not_true, Bool.false_eq_true, if_false]

theorem State.sliceCount_wire (s : State) (j k n : Nat) : (s.sliceCount j k n).wire = s.wire := State.bump_wire ..

theorem State.leavesCorrected_wire (s : State) (j u n : Nat) : (s.leavesCorrected j u n).wire = s.wire :=
  (State.leavesCorrected_same (m := fun p => p == .wire) (.refl s) j u n rfl rfl rfl rfl).wire rfl

/-- With no poisoned row and nothing that stops it, the evaluation changes only counters before it queues its reply. -/
theorem State.evaluate_ownSet (h : s.Evaluates j f) {k : Nat} (hset : s.featureSet f = some k)
    (hown : k = le ((s.modelFor f).slice j) 2 1) (hcodes : ∀ c ∈ s.codesOf f k, c.2.2 = none) :
    ∃ (u : State) (accs : List Int), u.wire = s.wire ∧ s.evaluate i j f corrected follower none [] =
      u.queueReply i j f (s.replyOf j f (s.uncheckedFor j f)
        ((s.modelFor f).outputs j ((s.codesOf f k).map Prod.fst))) accs := by
  obtain ⟨hserved, hclean, hreached⟩ := h
  have hfind : (s.codesOf f k).find? (fun r => r.2.2.isSome) = none := by
    rw [List.find?_eq_none]
    intro c hc
    simp [hcodes c hc]
  rw [State.codesOf] at hfind
  rw [State.replyOf, hset]
  rw [hset] at hreached
  rw [State.featureSet] at hset
  simp only [State.evaluate, State.uncheckedFor, hserved, hclean, hset, Nat.not_le.2 hreached, ← hown, ne_eq,
    not_true_eq_false, Bool.not_true, Bool.false_eq_true, if_false, State.fieldCode_meetReads_nil, hfind,
    Option.filter_none]
  refine ⟨_, _, ?_, rfl⟩
  simp only [State.leavesCorrected_wire, State.sliceCount_wire]
  exact (s.meetReads_nil_same _ _).wire rfl

end Branches

/-! ### The request at the front of a slice's queue -/

@[simp] theorem State.setQueue_replyQueue (s : State) (j : Nat) (q : List Nat) (n : Nat) :
    (s.setQueue j q).replyQueue n = s.replyQueue n := rfl

@[simp] theorem State.setQueue_modelFor (s : State) (j : Nat) (q : List Nat) (f : Frame) :
    (s.setQueue j q).modelFor f = s.modelFor f := rfl

@[simp] theorem State.setQueue_featureSet (s : State) (j : Nat) (q : List Nat) (f : Frame) :
    (s.setQueue j q).featureSet f = s.featureSet f := rfl

@[simp] theorem State.setQueue_stillServed (s : State) (j k : Nat) (q : List Nat) (f : Frame) :
    (s.setQueue j q).stillServed f k = s.stillServed f k := rfl

@[simp] theorem State.setQueue_uncheckedFor (s : State) (j k : Nat) (q : List Nat) (f : Frame) :
    (s.setQueue j q).uncheckedFor k f = s.uncheckedFor k f := rfl

@[simp] theorem State.setQueue_replyOf (s : State) (j k : Nat) (q : List Nat) (f : Frame) (status : Nat)
    (outs : List Nat) : (s.setQueue j q).replyOf k f status outs = s.replyOf k f status outs := rfl

theorem State.setQueue_evaluates (q : List Nat) (h : s.Evaluates j f) : (s.setQueue j q).Evaluates j f where
  served := h.served
  clean := h.clean
  reached := by rw [State.setQueue_modelFor, State.setQueue_featureSet]; exact h.reached

theorem State.setQueue_codesOf (s : State) (j : Nat) (q : List Nat) (f : Frame) (k : Nat) :
    (s.setQueue j q).codesOf f k = s.codesOf f k :=
  List.map_congr_left fun r _ => s.fieldCode_setQueue j q f _ _ r

section Front

variable {j : Fin 16} {rest : List Nat} (hfront : Tab.get [] j.val s.wire.sliceQueues = i :: rest)
  (hframe : s.frame i = some f)

include hfront hframe

theorem execSliceEvaluation_front (corrected follower : Nat) (events : SliceEvents) :
    exec (.sliceEvaluation j corrected follower events) s =
      .next ((s.setQueue j rest).evaluate i j f corrected follower events.fault events.ecc) := by
  have hframe' : (s.setQueue j rest).frame i = some f := hframe
  show done (s.sliceEvaluation j corrected follower events.fault events.ecc) = _
  simp only [State.sliceEvaluation, hfront, hframe', done]

theorem execSliceEvaluation_unserved (hserved : s.stillServed f j = false) (corrected follower : Nat)
    (events : SliceEvents) :
    ∃ t, exec (.sliceEvaluation j corrected follower events) s = .next t ∧
      (∀ n, t.replyQueue n = s.replyQueue n) ∧ Tab.get [] j.val t.wire.sliceQueues = rest := by
  rw [← s.setQueue_stillServed j j rest] at hserved
  have hqueues := (s.setQueue j rest).failEvaluation_queues i j f
  refine ⟨_, execSliceEvaluation_front hfront hframe corrected follower events, ?_⟩
  rw [State.evaluate_unserved hserved]
  exact ⟨fun n => (State.replyQueue_of_queues hqueues n).trans (s.setQueue_replyQueue j rest n),
    (State.sliceQueue_of_queues hqueues j).trans (Tab.get_set_same ..)⟩

variable (hverdict : f.verdict = none) (h : s.Evaluates j f) (hroom : (s.replyQueue (f.port / 2)).length < 32)

include hverdict h hroom

theorem execSliceEvaluation_noSet (hset : s.featureSet f = none) (corrected follower : Nat) (events : SliceEvents) :
    ∃ t, exec (.sliceEvaluation j corrected follower events) s = .next t ∧
      QueuesReply s t i f (s.replyOf j f (1 + s.uncheckedFor j f) []) := by
  refine ⟨_, execSliceEvaluation_front hfront hframe corrected follower events, ?_⟩
  rw [State.evaluate_noSet (State.setQueue_evaluates rest h) hset, State.setQueue_replyOf, State.setQueue_uncheckedFor]
  exact State.queueReply_queues i j _ _ hverdict hroom rfl

theorem execSliceEvaluation_otherSet {k : Nat} (hset : s.featureSet f = some k)
    (hother : k ≠ le ((s.modelFor f).slice j) 2 1) (corrected follower : Nat) (events : SliceEvents) :
    ∃ t, exec (.sliceEvaluation j corrected follower events) s = .next t ∧
      QueuesReply s t i f (s.replyOf j f (2 + s.uncheckedFor j f) []) := by
  refine ⟨_, execSliceEvaluation_front hfront hframe corrected follower events, ?_⟩
  rw [← s.setQueue_modelFor j rest] at hother
  rw [State.evaluate_otherSet (State.setQueue_evaluates rest h) hset hother, State.setQueue_replyOf,
    State.setQueue_uncheckedFor]
  exact State.queueReply_queues i j _ _ hverdict hroom rfl

theorem execSliceEvaluation_ownSet {k : Nat} (hset : s.featureSet f = some k)
    (hown : k = le ((s.modelFor f).slice j) 2 1) (hcodes : ∀ c ∈ s.codesOf f k, c.2.2 = none)
    (corrected follower : Nat) :
    ∃ t, exec (.sliceEvaluation j corrected follower ⟨none, []⟩) s = .next t ∧
      QueuesReply s t i f (s.replyOf j f (s.uncheckedFor j f)
        ((s.modelFor f).outputs j ((s.codesOf f k).map Prod.fst))) := by
  have hsame := s.setQueue_codesOf j rest f k
  rw [← s.setQueue_modelFor j rest] at hown
  rw [← hsame] at hcodes
  obtain ⟨u, accs, hwire, heval⟩ := State.evaluate_ownSet (i := i) (corrected := corrected) (follower := follower)
    (State.setQueue_evaluates rest h) hset hown hcodes
  have hqueue := (State.replyQueue_congr hwire (f.port / 2)).trans (s.setQueue_replyQueue j rest _)
  refine ⟨_, execSliceEvaluation_front hfront hframe corrected follower _, ?_⟩
  rw [heval, hsame, State.setQueue_replyOf, State.setQueue_uncheckedFor, State.setQueue_modelFor]
  exact State.queueReply_queues i j _ accs hverdict hroom hqueue

end Front

/-- Settles O39, by what the request selects: no set, another set than the slice's, or the slice's own; a request that
is no longer served goes to its FAIL_TARGET, which leaves the queues of replies alone. -/
theorem sliceEvaluationQueuesReply : Obligations.SliceEvaluationQueuesReply := by
  intro s j i rest f hfront hframe hverdict
  refine ⟨fun hserved => ?_, fun hserved hclean hreached hroom => ?_⟩
  · obtain ⟨t, ht, hreplies, hslice⟩ := execSliceEvaluation_unserved hfront hframe hserved 0 0 ⟨none, []⟩
    exact ⟨t, ht, hreplies _, hslice⟩
  · have h : s.Evaluates j f := ⟨hserved, hclean, hreached⟩
    refine ⟨fun hset => ?_, fun k hset hother => ?_, fun k hset hown hcodes => ?_⟩
    · obtain ⟨t, ht, ⟨g, hg, hreply⟩, hwaits⟩ :=
        execSliceEvaluation_noSet hfront hframe hverdict h hroom hset 0 0 ⟨none, []⟩
      exact ⟨t, g, _, ht, hg, hreply, rfl, rfl, rfl, hwaits⟩
    · obtain ⟨t, ht, ⟨g, hg, hreply⟩, hwaits⟩ :=
        execSliceEvaluation_otherSet hfront hframe hverdict h hroom hset hother 0 0 ⟨none, []⟩
      exact ⟨t, g, _, ht, hg, hreply, rfl, rfl, rfl, hwaits⟩
    · obtain ⟨t, ht, ⟨g, hg, hreply⟩, hwaits⟩ :=
        execSliceEvaluation_ownSet hfront hframe hverdict h hroom hset hown hcodes 0 0
      exact ⟨t, g, _, ht, hg, hreply, rfl, rfl, rfl, hwaits, rfl⟩

end Sys2Proof.Machine
end
